-- ==== Sys2Proof/Word.lean ====
section
/-!
DEFINITION. Word.lean: the words the spec counts in, and the index types of R5. Registers are 32 bits (00_scope.md).
-/

namespace Sys2Proof

abbrev Word := BitVec 32
abbrev Byte := BitVec 8

/-- A transaction's initiator ID (R59). -/
abbrev Initiator := BitVec 8

/-- HDA port h (R5). -/
abbrev Hda := Fin 32

/-- Actuator n (R5). -/
abbrev Act := Fin 64

/-- Tiller engine e (R5). -/
abbrev Eng := Fin 68

/-- Thresher on-the-fly lane (R5). -/
abbrev Lane := Fin 64

/-- Tiller quadrant, Awn quadrant or Heliostat unit (R5). -/
abbrev Quad := Fin 4

/-- Global loop instance, 64 × unit + local index (R5). -/
abbrev Loop := Fin 256

end Sys2Proof
end

