-- ==== Sys2Proof/Syntax.lean ====
section
/-!
DEFINITION. Syntax.lean: the commands of the block, one constructor of `Instr` per row of spec/opcode_table.json, in the
table's order. The table gives no row any bits or operands; the operands here are what the row's rule reads from outside
the block: who acts, what is written, and what the surroundings (media, analogue parts, the host, the rack) present at
that step. An operand never repeats what the block's own state already holds.
-/

namespace Sys2Proof

/-- What the pins and the NOR present at a start (R48 step 1, R98, R465, R490): a set `…Err` is a NOR read that fails. -/
structure BootObs where
  mgrSel : Bool
  i3c : Bool
  bundleAErr : Bool
  bundleBErr : Bool
  imageAErr : Bool
  imageBErr : Bool
  deriving DecidableEq, Repr

/-- One DIMM as its SPD describes it (R389, R390). `rdimm` is false for every module type R389 does not support. -/
structure Dimm where
  gib : Nat
  ranks : Nat
  x8 : Bool
  rdimm : Bool
  serial : Word
  deriving DecidableEq, Repr

/-- What DDR training finds (R391): the DIMMs of each channel in slot order, and the channels that fail at each rate. -/
structure TrainObs where
  ch0 : List Dimm
  ch1 : List Dimm
  ch2 : List Dimm
  ch3 : List Dimm
  fail6400 : BitVec 4
  fail5600 : BitVec 4
  fail4800 : BitVec 4
  boot : BootObs
  deriving DecidableEq, Repr

/-- What resets the PCIe side (R106). -/
inductive PcieReset where
  | perstLow | hotReset | linkDown
  deriving DecidableEq, Repr

/-- A receiver's action on one mailbox direction (R85). -/
inductive RecvAct where
  | none
  | release (by_ : Initiator)
  | rcvReset (by_ : Initiator)
  | compatRead (by_ : Initiator)
  deriving DecidableEq, Repr

/-- Where an access lands: the 48-bit internal space (R22) or an offset of a host BAR (R25, R26). -/
inductive Target where
  | internal (addr : BitVec 48)
  | bar (index : Nat) (offset : Nat)
  deriving DecidableEq, Repr

/-- A submission queue entry as fetched from host memory. `keyedSgl`: it carries a keyed SGL descriptor (R333). -/
structure Sqe where
  opc : Byte
  cid : BitVec 16
  nsid : Word
  cdw10 : Word
  cdw11 : Word
  cdw12 : Word
  cdw13 : Word
  cdw14 : Word
  cdw15 : Word
  prp1 : BitVec 64
  keyedSgl : Bool
  deriving DecidableEq, Repr

/-- How a host memory access failed (R331). -/
inductive DmaFail where
  | unsupportedRequest | completerAbort | poisoned | timeout | writeFailed
  deriving DecidableEq, Repr

/-- What an upstream frame carries beside its named contents: SEQ of its header (R120) and, for a CTL frame, its TAG and CRC-16
(R131). -/
structure UpHdr where
  seq : BitVec 10
  tag : Byte
  crc : BitVec 16
  deriving DecidableEq, Repr

/-- HELLO_ACK (R132). -/
structure HelloAck where
  protoVer : Byte
  heRev : Byte
  maxLanes : Byte
  sides : Byte
  credWrt : BitVec 16
  credAst : BitVec 16
  credCtl : BitVec 16
  deriving DecidableEq, Repr

/-- A sample-stream marker (R123). -/
structure Marker where
  frameNo : Word
  phase : BitVec 16
  fine : BitVec 6
  head : BitVec 4
  loss : Bool
  unsync : Bool
  gain : Byte
  sampleCnt : Word
  deriving DecidableEq, Repr

/-- One transit frame as the transit reader sees it (R158, R161): FMARK's place against the boundary that the tone PLL predicts, the phases of the
tone cycles of INDEX (24) and of TRACK_ID (56), first cycle in the top bit and 1 for an inverted one, and the crossing times of the four stripes from the boundary.
Times are in 1/64 cycle; none: not found. -/
structure TransitObs where
  fmark : Option Int
  index : BitVec 24
  trackId : BitVec 56
  a0 : Option Int
  b0 : Option Int
  a1 : Option Int
  b1 : Option Int
  toneLock : Bool
  periodPs : Nat
  deriving DecidableEq, Repr

/-- Alignment burst `burst` of the track as a data head passes it (R173, R174): BMARK as found against its predicted place in 1/64 bit, none where it is
not found; the 64 bits of the ID; and the P and Q amplitudes that readers a and b see. -/
structure BurstObs where
  burst : Nat
  mark : Option Int
  id : BitVec 64
  pA : Int
  qA : Int
  pB : Int
  qB : Int
  deriving DecidableEq, Repr

/-- A sector whose samples have reached a lane (R218, R221): its data track and physical sector, and whether a halfword of its tap record
failed parity. -/
structure SectorObs where
  track : Nat
  sector : Nat
  tapParityErr : Bool
  deriving DecidableEq, Repr

/-- Back-EMF as observed in SENSE, a sense window of BRAKE, or REACQ (R321): direction, |rpm|, electrical angle, and amplitude in
volts (binary32). -/
structure BemfObs where
  backward : Bool
  rpm : Word
  angle : BitVec 16
  amplitude : Word
  deriving DecidableEq, Repr

/-- What the observer's phase-locked loop gives in one driven PWM period (R318): θ, ω_e, and its model's prediction of (id, iq).
Floats are binary32 words. DEDUCED: log 177. -/
structure SpindleObs where
  angle : BitVec 16
  omegaE : Word
  predId : Word
  predIq : Word
  deriving DecidableEq, Repr

/-- The scope of a calibration item (R426). -/
inductive CalScope where
  | act (n : Act)
  | controller
  deriving DecidableEq, Repr

/-- A measurement that a calibration item has finished (R428), of those that R428 gives no arithmetic for. `stored`: the store that a
completed run makes succeeds (R433). DEDUCED: log 180. -/
inductive CalMeas where
  /-- Item 2: drift of each rank (channel × 4 + slot × 2 + rank) in 1/64 UI. -/
  | drift (d : List Int)
  /-- Items 4 and 5, which measure what the lane decodes: whether the store that ends the run succeeds. -/
  | lane
  /-- Item 6: the tap record of a head, kind and tap zone (R217), and whether it is the run's last. -/
  | taps (k kind zone : Nat) (record : List (BitVec 16)) (last : Bool)
  /-- Item 7: mean LDPC_ITER (any common unit) of the nine pairs, WC − 8, WC, WC + 8 by PHASE − 4, PHASE, PHASE + 4, the mean
  photodiode value of the winner, the head and write zone, and whether they are the run's last. -/
  | grid (k w : Nat) (means : List Nat) (pd : Nat) (last : Bool)
  deriving DecidableEq, Repr

structure CalObs where
  scope : CalScope
  item : Nat
  meas : CalMeas
  stored : Bool
  deriving DecidableEq, Repr

/-- What a housekeeping round latches beside the block's own state (R417, R420): sensor counts, die rails, calibration
measurements finished since the last round, and whether the previous round is still running. -/
structure RoundObs where
  counts : List Nat
  railsMv : List Int
  cal : List CalObs
  previousRunning : Bool
  deriving DecidableEq, Repr

/-- A patrol-scrub or memory-access outcome of the ECC (R395, R396, R403). -/
inductive EccEvent where
  | clean
  | correctable
  | uncorrectable
  deriving DecidableEq, Repr

/-- What a main-memory access meets inside the Granary and DDR (R395, R403). -/
structure MemObs where
  victim : Nat
  granEcc : EccEvent
  ddrEcc : EccEvent
  tagParityErr : Bool
  evictionInProgress : Bool
  deriving DecidableEq, Repr

/-- The header of an Orrery message but its MTYPE, which is the row's, and the CRC at its end (R469). -/
structure OrrHdr where
  magic : Word
  ver : Byte
  len : BitVec 16
  srcId : BitVec 16
  dstId : BitVec 16
  epoch : Word
  seq : BitVec 64
  serial : BitVec 64
  crc : Word
  deriving DecidableEq, Repr

/-- HEARTBEAT body (R470). -/
structure HeartbeatMsg where
  standbyId : BitVec 16
  limit : Word
  committed : Word
  members : BitVec 16
  deriving DecidableEq, Repr

/-- TOKEN_REQ body (R470): KIND 1 is a spin token. -/
structure TokenReqMsg where
  reqId : Word
  spin : Bool
  group : Byte
  watts : Word
  deriving DecidableEq, Repr

/-- The probe reads of a zone found in map state 2 with CLEAN = 0 (R377): the offsets at which one fails on the fly with FAIL_KIND 5, and
whether the sector before the lowest such offset is not accepted within ladder steps 1 and 2. -/
structure ScanObs where
  zone : Nat
  erased : List Nat
  torn : Bool
  deriving DecidableEq, Repr

/-- What a start reads of a side: its ledger sectors (region, place in it, payload; one that cannot be read is absent), what the scans of R377
find, and copies 0 and 1 of its calibration records of kinds 2 to 5 (R105, R149, R377, R433). DESIGN CHOICE: log 105. -/
structure LedgerObs where
  sectors : List (Nat × Nat × List Byte)
  scans : List ScanObs
  cal : List (List Byte × List Byte)
  deriving DecidableEq, Repr

/-- The two sides of ACT_CTL and HDA_CTL (R446). -/
inductive DisTarget where
  | act (n : Act)
  | hda (h : Hda)
  deriving DecidableEq, Repr

/-- The register that arms an injection (R440, R444). -/
inductive InjAlias where
  | injArm | eccInj | tagInj
  deriving DecidableEq, Repr

/-- The commands. DEDUCED: log 2, DESIGN CHOICE: log 14. -/
inductive Instr where
  | pwrOkRising (obs : BootObs)
  | ddrTrainingDone (obs : TrainObs)
  | pwrOkFalling (lowNs : Nat)
  | rstNLow (lowNs : Nat)
  | pinReset (obs : BootObs)
  | perstNRising
  | pcieConventionalReset (kind : PcieReset)
  | functionLevelReset
  | nvmSubsystemReset (nssr : Word)
  | configurationRequest
  | controllerEnable (cc : Word)
  | controllerReset
  | shutdownNormal
  | shutdownAbrupt
  | shutdownDrainDone
  | shutdownTimeout
  | update (ch : Fin 64) (norOk : Bool)
  | tillerLoad (ch : Fin 64) (ddrErr : Bool)
  | nsKeyNew (ch : Fin 64) (ledgerOk : Bool)
  | nsKeyDestroy (ch : Fin 64) (ledgerOk : Bool)
  | auditClear (ch : Fin 64)
  | traceClear (ch : Fin 64)
  | liveSet (ch : Fin 64)
  | livePatch (ch : Fin 64)
  | faultRelease (ch : Fin 64)
  | slotRevoke (ch : Fin 64)
  | floorRaise (ch : Fin 64)
  | deviceWarmReset (ch : Fin 64)
  | warmResetDrainEnd (obs : BootObs)
  | culmReset (ch : Fin 64)
  | tillerEngineReset (ch : Fin 64)
  | tillerReloadTimeout (n : Act)
  | warmResetRefused (ch : Fin 64)
  | miRelay
  | miResponse
  | miRelayTimeout
  | load (q : Quad) (ddrErr : Bool)
  | halt (q : Quad)
  | go (ch : Fin 64) (dir : Fin 2) (sender : Initiator) (same : RecvAct) (other : RecvAct)
  | release (ch : Fin 64) (dir : Fin 2) (receiver : Initiator)
  | rcvReset (ch : Fin 64) (dir : Fin 2) (receiver : Initiator)
  | compatLastDataRead (ch : Fin 64) (dir : Fin 2) (reader : Initiator)
  | mailboxDataWrite (ch : Fin 64) (dir : Fin 2) (i : Fin 16) (writer : Initiator) (value : Word)
  | lockAcquire (i : Fin 256) (release : Option Initiator) (readers : List Initiator)
  | lockRelease (i : Fin 256) (writer : Initiator)
  | windowRegisterWrite (writer : Initiator) (id : Byte) (w : Fin 8) (reg : Fin 4) (value : Word)
  | registerWrite (writer : Initiator) (target : Target) (value : Word)
  | violationAuditSecond
  | submissionQueueTailDoorbell (q : Nat) (tail : BitVec 16)
  | completionQueueHeadDoorbell (q : Nat) (head : BitVec 16)
  | admission (entry : Sqe)
  | mediaQueueEntry (n : Act)
  | dataGrainBuffered (slot : BitVec 16) (index : Nat) (payload : List Byte) (tagOk : Bool)
  | bufWaitResume
  | dmaError (slot : BitVec 16) (kind : DmaFail)
  | createIoSq (slot : BitVec 16)
  | deleteIoSq (slot : BitVec 16)
  | createIoCq (slot : BitVec 16)
  | deleteIoCq (slot : BitVec 16)
  | getLogPage (slot : BitVec 16)
  | identify (slot : BitVec 16)
  | abort (slot : BitVec 16) (sameCycleCompletion : Bool)
  | abortCompletion (slot : BitVec 16)
  | arbitration (slot : BitVec 16)
  | powerManagement (slot : BitVec 16)
  | temperatureThreshold (slot : BitVec 16)
  | errorRecovery (slot : BitVec 16)
  | volatileWriteCache (slot : BitVec 16)
  | numberOfQueues (slot : BitVec 16)
  | interruptCoalescing (slot : BitVec 16)
  | interruptVectorConfiguration (slot : BitVec 16)
  | asynchronousEventConfiguration (slot : BitVec 16)
  | autonomousPowerStateTransition (slot : BitVec 16) (table : List (Nat × Nat))
  | timestamp (slot : BitVec 16) (ms : BitVec 48)
  | getFeatures (slot : BitVec 16)
  | asynchronousEventRequest (slot : BitVec 16)
  | namespaceCreate (slot : BitVec 16) (nvmSet : BitVec 16) (nsze : BitVec 64) (ncap : BitVec 64) (flbas : Byte) (csi : Byte)
  | namespaceDelete (slot : BitVec 16)
  | namespaceAttach (slot : BitVec 16) (controllers : List (BitVec 16))
  | namespaceDetach (slot : BitVec 16) (controllers : List (BitVec 16))
  | firmwareImageDownload (slot : BitVec 16) (data : List Byte)
  | firmwareCommit (slot : BitVec 16) (norOk : Bool)
  | nvmeMiSend (slot : BitVec 16) (message : List Byte)
  | nvmeMiReceive (slot : BitVec 16)
  | shortDeviceSelfTest (slot : BitVec 16)
  | extendedDeviceSelfTest (slot : BitVec 16)
  | deviceSelfTestAbort (slot : BitVec 16)
  | deviceSelfTestDone (firstFail : Option (Nat × Act))
  | formatNvm (slot : BitVec 16)
  | sanitizeOverwrite (slot : BitVec 16)
  | sanitizeCryptoErase (slot : BitVec 16)
  | exitFailureMode (slot : BitVec 16)
  | sanitizeUnitDone (n : Act)
  | sanitizeTrackTimeout (n : Act)
  | flush (slot : BitVec 16)
  | write (slot : BitVec 16)
  | read (slot : BitVec 16)
  | writeZeroes (slot : BitVec 16)
  | verify (slot : BitVec 16)
  | zoneAppend (slot : BitVec 16)
  | zoneClose (slot : BitVec 16)
  | zoneFinish (slot : BitVec 16)
  | zoneOpen (slot : BitVec 16)
  | zoneReset (slot : BitVec 16)
  | zoneOffline (slot : BitVec 16)
  | setZoneDescriptorExtension (slot : BitVec 16)
  | reportZones (slot : BitVec 16)
  | extendedReportZones (slot : BitVec 16)
  | zmapFlush (n : Act)
  | powerStateEntryDone
  | autonomousTransition
  | powerStateReturnTimeout (n : Act)
  | ps2SideSwitch (h : Hda) (waited : Bool)
  | laneSet (h : Hda) (four : Bool)
  | laneAck (h : Hda) (hdr : UpHdr) (action : Byte) (status : Byte) (alnSeq : Word)
  | laneChangeFailure (h : Hda)
  | trainingAttempt (h : Hda)
  | trainingStateDone (h : Hda) (farPrecode : Bool)
  | trainingStateTimeout (h : Hda)
  | trainingRetry (h : Hda)
  | helloAck (h : Hda) (hdr : UpHdr) (msg : HelloAck)
  | descriptorRead (h : Hda) (copy0 : List Byte) (copy1 : List Byte)
  | linkLoss (h : Hda) (cause : Fin 6) (lane : Fin 4)
  | retrain (h : Hda) (writer : Initiator) (alsoDown : Bool)
  | down (h : Hda) (writer : Initiator)
  | flashRead (h : Hda) (writer : Initiator)
  | flashWrite (h : Hda) (writer : Initiator)
  | flashErase (h : Hda) (writer : Initiator)
  | flashDone (h : Hda) (hdr : UpHdr) (status : Byte)
  | hskFlashData (h : Hda) (hdr : UpHdr) (tag : Byte) (offset : Word) (data : List Byte)
  | hskTemperatures (h : Hda) (hdr : UpHdr) (values : List (BitVec 16))
  | hskRails (h : Hda) (hdr : UpHdr) (values : List (BitVec 16))
  | hskEvent (h : Hda) (hdr : UpHdr) (code : Byte)
  | motFrame (h : Hda) (hdr : UpHdr) (side : Fin 2) (frameNo : Word) (tick : BitVec 16) (mtype : Byte) (values : List (BitVec 16))
  | sampleMarker (h : Hda) (hdr : UpHdr) (sid : BitVec 4) (side : Fin 2) (marker : Marker)
  | sampleFrame (h : Hda) (hdr : UpHdr) (sid : BitVec 4) (side : Fin 2) (payload : BitVec 240)
  | aln (h : Hda) (lane : Fin 4) (arrival : Int) (alnSeq : Word) (corrected : Nat) (uncorrectable : Nat)
  | deskewMove (h : Hda) (lane : Fin 4)
  | stopAck (h : Hda) (hdr : UpHdr) (reason : Byte) (safeLevel : Bool)
  | stopAckTimeout (h : Hda)
  | credit (h : Hda) (hdr : UpHdr) (sid : BitVec 4) (side : Fin 2) (frames : BitVec 16)
  | err (h : Hda) (hdr : UpHdr) (code : Byte) (sid : BitVec 4) (side : Fin 2) (winId : BitVec 16)
  | wdone (h : Hda) (hdr : UpHdr) (side : Fin 2) (winId : BitVec 16) (bits : Word)
  | keepalive (h : Hda) (hdr : UpHdr)
  | spinUpGroupStart
  | namespaceReady (n : Act) (ledger : LedgerObs)
  | transitFrame (n : Act) (obs : TransitObs)
  | toneUnlock (n : Act)
  | transitAcquisitionTimeout (n : Act)
  | headsOffRamp (n : Act)
  | headsOnRamp (n : Act)
  | reacq (n : Act) (writer : Initiator)
  | alignmentBurst (n : Act) (obs : BurstObs)
  | radOfs (n : Act) (k : Fin 10) (writer : Initiator) (value : BitVec 16)
  | timOfs (n : Act) (k : Fin 10) (writer : Initiator) (value : BitVec 20)
  | epochOpen (e : Eng) (writer : Initiator) (src : BitVec 3)
  | epochCommit (e : Eng) (writer : Initiator) (num : BitVec 16) (chaffSameCycle : Bool)
  | epochChaff (e : Eng) (writer : Initiator) (num : BitVec 16)
  | preseekChaffTimeout (n : Act)
  | opRead (e : Eng) (writer : Initiator)
  | opWrite (e : Eng) (writer : Initiator)
  | opSeek (e : Eng) (writer : Initiator)
  | opRunaheadRead (e : Eng) (writer : Initiator)
  | preemption (n : Act)
  | sectorVerdict (l : Lane) (obs : SectorObs)
  | captureCopyDone (l : Lane) (secdedErr : Bool)
  | tapData (l : Lane) (who : Initiator) (value : Option (BitVec 16))
  | tapCommit (l : Lane) (writer : Initiator)
  | failureNoticeTaken
  | decodeUnitDone (d : Fin 16)
  | recoveryDeadline (slot : BitVec 16)
  | remapFlush (n : Act)
  | ledgerGenerationDurable (n : Act) (kind : Fin 4)
  | wtData (n : Act) (who : Initiator) (value : Option Word)
  | wtCommit (n : Act) (writer : Initiator)
  | windowEnd (n : Act)
  | loopRun (g : Loop) (ts : Word)
  | loopWatchdog (g : Loop)
  | retractPhaseEnd (n : Act)
  | enable (g : Loop) (writer : Initiator) (on : Bool)
  | modeReq (g : Loop) (writer : Initiator) (mode : BitVec 2)
  | swap (g : Loop) (writer : Initiator)
  | tuneTimeout (g : Loop)
  | spPush (n : Act) (writer : Initiator)
  | frameBoundary (n : Act)
  | spinStart (h : Hda) (writer : Option Initiator)
  | spinStop (h : Hda) (writer : Option Initiator)
  | spinTune (h : Hda) (writer : Initiator)
  | spindlePeriod (h : Hda) (obs : SpindleObs)
  | senseEnd (h : Hda) (bemf : BemfObs)
  | alignEnd (h : Hda)
  | handoffTimeout (h : Hda)
  | startRetry (h : Hda)
  | brakeIntervalEnd (h : Hda) (bemf : BemfObs)
  | brakeTimeout (h : Hda)
  | spinupTimeout (h : Hda)
  | reacqTimeout (h : Hda)
  | reacquisitionDone (h : Hda) (bemf : BemfObs)
  | unloadDone (h : Hda)
  | busUndervoltage (h : Hda)
  | faultDetection (ftype : BitVec 16) (inst : Nat) (info : Word) (injected : Bool)
  | faultRecovery (ftype : BitVec 16) (inst : Nat)
  | reactionHoldTimeout (n : Act)
  | fltStat (blk : Fin 270) (writer : Initiator) (offset : Byte) (value : Word)
  | injArm (blk : Fin 270) (writer : Initiator) (alias_ : InjAlias)
  | dis (target : DisTarget) (writer : Initiator) (force : Bool) (alsoEn : Bool)
  | en (target : DisTarget) (writer : Initiator)
  | housekeepingRound (obs : RoundObs)
  | calReq (scope : CalScope) (writer : Initiator) (mask : Byte)
  | calDeferMaxExpiry (scope : CalScope) (item : Fin 8)
  | exclusiveMediaSlotEnd (n : Act)
  | dimmSensorRead (temps : List (Option Int))
  | patrolScrub (line : Nat) (ecc : EccEvent)
  | granaryRangeGo (i : Fin 8) (writer : Initiator)
  | cleanAndInvalidate (i : Fin 8)
  | discardAndInvalidate (i : Fin 8)
  | preload (i : Fin 8)
  | preloadAndLock (i : Fin 8)
  | unlock (i : Fin 8)
  | rangeOperationDone (i : Fin 8)
  | gleaningWriteBackDone (line : Nat)
  | tracePut (writer : Initiator)
  | auditPut (writer : Initiator)
  | snapshotOpen (handle : Fin 4) (writer : Initiator) (close : Bool)
  | snapshotClose (handle : Fin 4) (writer : Initiator)
  | snapshotIdleClose (handle : Fin 4)
  | hostSnapshotOpen
  | hostSnapshotClose
  | pageSeqAdvance
  | norCopy (ok : Bool)
  | hourMark
  | heartbeatSend
  | heartbeat (hdr : OrrHdr) (msg : HeartbeatMsg)
  | electionListenEnd
  | claim (hdr : OrrHdr) (prio : Byte)
  | join (hdr : OrrHdr) (eligible : Bool) (prio : Byte) (portDecl : Word)
  | joinAck (hdr : OrrHdr) (memberId : BitVec 16) (result : Byte)
  | requestResend
  | tokenReq (hdr : OrrHdr) (msg : TokenReqMsg)
  | tokenGrant (hdr : OrrHdr) (reqId : Word) (tokenId : Word) (watts : Word)
  | tokenReturn (hdr : OrrHdr) (tokenId : Word)
  | returnAck (hdr : OrrHdr) (tokenId : Word)
  | tokenState (hdr : OrrHdr) (tokens : List (Word × Word))
  | drawSend
  | draw (hdr : OrrHdr) (steady : Word) (total : Word) (curPs : Byte) (portsUp : Byte)
  | memberAbsent (id : Nat) (holdPassed : Bool)
  | managerLost
  | takeoverHoldEnd
  | imageOffer (hdr : OrrHdr) (xferId : Word) (target : Byte) (length : Word)
  | imageChunk (hdr : OrrHdr) (xferId : Word) (index : Word) (data : List Byte) (norOk : Bool)
  | imageNeedSend
  | imageNeed (hdr : OrrHdr) (xferId : Word) (firstMissing : Word)
  | imageResult (hdr : OrrHdr) (xferId : Word) (status : Byte) (step : Byte)
  | imageTransferTimeout
  | auditPull (hdr : OrrHdr) (fromSeq : BitVec 64)
  | auditPageSend
  | auditPage (hdr : OrrHdr) (last : Bool) (broken : Bool) (records : List (List Byte))
  | calWindow (hdr : OrrHdr) (member : BitVec 16) (startMs : Word) (lengthMs : Word)
  | ptpSync (offsetNs : Int) (seconds : BitVec 48) (nanoseconds : Word)
  | ptpSyncTimeout
  | group1WithinTolerance
  | vddIoOutOfTolerance
  | pcieLinkUp (rate : Nat) (width : Nat) (flit : Bool)
  | mctpMessage (nvmeMi : Bool) (tag : Byte) (tagOwner : Bool) (message : List Byte)
  | coalescingTimeExpiry (vector : Nat)
  | joinRetry
  | ptpSyncInterval
  | orreryPortUpChange (p : Fin 2) (up : Bool)
  | mainMemoryAccess (who : Initiator) (secure : Bool) (addr : BitVec 48) (wr : Option (List Byte)) (len : Nat) (obs : MemObs)
  deriving DecidableEq, Repr

end Sys2Proof
end

