-- ==== Sys2Proof/Decode.lean ====
section
/-!
DEFINITION. Decode.lean: the command a word spells by the bits of spec/opcode_table.json.
-/

namespace Sys2Proof

/-- Every row of the table leaves its fields empty, so no word spells a command. DESIGN CHOICE: log 13. -/
def decodeTableWord (_nbits _w : Nat) : Option Instr := none

end Sys2Proof
end

