-- ==== Sys2Proof/Machine/Sparse.lean ====
section
/-!
DEFINITION. Machine/Sparse.lean: a sparse array in ONE canonical form (keys strictly rising, no entry equal to what an
unlisted key reads as). The register file (State.regs) and main memory (State.mem) are both held so.
-/

namespace Sys2Proof.Machine

/-- What key `k` reads as, `d` standing for an unlisted key. -/
def Sparse.read {α : Type} (l : List (Nat × α)) (k : Nat) (d : α) : α :=
  match l with
  | [] => d
  | (k', v) :: rest => if k' = k then v else if k < k' then d else Sparse.read rest k d

/-- Write `v` at key `k`, where an unlisted key reads as `d`: writing `d` removes the entry. -/
def Sparse.write {α : Type} [DecidableEq α] (l : List (Nat × α)) (k : Nat) (d v : α) : List (Nat × α) :=
  match l with
  | [] => if v = d then [] else [(k, v)]
  | (k', v') :: rest =>
    if k' = k then (if v = d then rest else (k, v) :: rest)
    else if k < k' then (if v = d then (k', v') :: rest else (k, v) :: (k', v') :: rest)
    else (k', v') :: Sparse.write rest k d v

/-- The keys rise strictly, all of them above `lo`. -/
def Sparse.rising {α : Type} (lo : Nat) (l : List (Nat × α)) : Bool :=
  match l with
  | [] => true
  | (k, _) :: rest => decide (lo ≤ k) && Sparse.rising (k + 1) rest

/-- Put `x` before the first element it does not come after. -/
def insertBy {α : Type} (le : α → α → Bool) (x : α) (l : List α) : List α :=
  match l with
  | [] => [x]
  | y :: rest => if le x y then x :: y :: rest else y :: insertBy le x rest

/-- A list in the order of `le`; elements that tie keep their order. -/
def sortBy {α : Type} (le : α → α → Bool) (l : List α) : List α := l.foldr (insertBy le) []

end Sys2Proof.Machine
end

