-- ==== Sys2Proof/Machine/Regs.lean ====
section
/-!
DEFINITION. Machine/Regs.lean: the register fields of every field table of spec/ that have no structure of their own in
State, one `RegField` per field: its block, offset, bit range, access code and Reset value as the table gives them.
The register file itself (State.regs) lists only the fields that differ from their Reset value.
A field whose Reset column reads "image" (R7), and HK_LO/HK_HI, whose defaults R420 gives per channel, carry 0 here:
their values are written by structure load (Machine/Husk.lean) and by `Regs.resetFile`. DEDUCED: log 10; and some fields tune only what a row's operands show: log 133.
-/

namespace Sys2Proof.Machine

/-- The access codes of R10. -/
inductive Access where
  | RW | RO | W1C | WO | RWL | HO
  deriving DecidableEq, Repr

/-- The register blocks of spec/; the number after a name is how many instances it has. -/
inductive Blk where
  | status | port | demod | engine | lane | thresh | pool | poolAct | wa | unit | loop | spf | spindle | qce | pcie
  | zone | ddrCh | ddr | gran | slot | therm | thermAct | flt | frt | dis | alm | snap | orr
  deriving DecidableEq, Repr

/-- One register field: `n` copies of it lie `stride` bytes apart from offset `off` of its block. -/
structure RegField where
  id : Nat
  blk : Blk
  off : Nat
  stride : Nat
  n : Nat
  hi : Nat
  lo : Nat
  acc : Access
  reset : BitVec 32
  deriving DecidableEq, Repr

/-- Base of control window `i` (R22, R23). -/
def windowBase (i : Nat) : Nat := 0x10000000 + i * 0x100000

/-- Where fault block `i` lies (R440): instances are numbered as `FltId` numbers them. -/
def fltAddr (i : Nat) : Nat :=
  if i = 0 then windowBase 0 + 0x300
  else if i = 1 then windowBase 7 + 0xF000
  else if i < 6 then windowBase (5 + (i - 2) / 2) + ((i - 2) % 2) * 0x1000 + 0x800
  else if i = 6 then windowBase 3 + 0xF00
  else if i = 7 then windowBase 4 + 0xF00
  else if i < 40 then windowBase (8 + (i - 8) / 8) + ((i - 8) % 8) * 0x1000 + 0x200
  else if i < 104 then windowBase (0xC + (i - 40) / 16) + 0x40000 + ((i - 40) % 16) * 0x400 + 0x300
  else if i < 168 then windowBase (0xC + (i - 104) / 16) + 0x60000 + ((i - 104) % 16) * 0x400 + 0x300
  else if i < 172 then windowBase (0x70 + (i - 168)) + 0x100
  else if i < 204 then windowBase (0xC + (i - 172) / 8) + 0x70000 + ((i - 172) % 8) * 0x400 + 0x300
  else if i < 268 then windowBase 0x10 + (i - 204) * 0x1000 + 0x800
  else if i = 268 then windowBase 0x10 + 0x80800
  else windowBase 0x12 + 0x800

/-- The address of instance `i` of a block (R52, R155, R185, R205, R234, R235, R259, R286, R306 to R308, R328, R365,
R366, R388, R415, R416, R435, R440, R445, R446, R462, R483). -/
def Blk.addr (b : Blk) (i : Nat) : Nat :=
  match b with
  | .status => windowBase 0
  | .port => windowBase (8 + i / 8) + (i % 8) * 0x1000
  | .demod => windowBase (0xC + i / 16) + 0x40000 + (i % 16) * 0x400
  | .engine => windowBase (0x20 + i)
  | .lane => windowBase 0x10 + i * 0x1000
  | .thresh => windowBase 0x10 + 0x40000
  | .pool => windowBase 0x10 + 0x80000
  | .poolAct => windowBase 0x10 + 0x81000 + i * 0x40
  | .wa => windowBase (0xC + i / 16) + 0x60000 + (i % 16) * 0x400
  | .unit => windowBase (0x70 + i)
  | .loop => windowBase (0x70 + i / 64) + 0x10000 + (i % 64) * 0x400
  | .spf => windowBase (0x70 + i / 16) + 0x20000 + (i % 16) * 0x40
  | .spindle => windowBase (0xC + i / 8) + 0x70000 + (i % 8) * 0x400
  | .qce => windowBase 3
  | .pcie => windowBase 4
  | .zone => windowBase 3 + 0x1000 + i * 0x20
  | .ddrCh => windowBase (5 + i / 2) + (i % 2) * 0x1000
  | .ddr => windowBase 5 + 0x4000
  | .gran => windowBase 7
  | .slot => windowBase 7 + 0x100 + i * 0x20
  | .therm => windowBase 0x12
  | .thermAct => windowBase 0x12 + 0x1000 + i * 0x40
  | .flt => fltAddr i
  | .frt => windowBase 0x13
  | .dis => if i < 64 then windowBase (0xC + i / 16) + 0x1000 + (i % 16) * 0x20
            else windowBase (0xC + (i - 64) / 8) + 0x1400 + ((i - 64) % 8) * 0x20
  | .alm => windowBase 0x11 + 0x20000
  | .snap => windowBase 0x11 + 0x20000 + i * 0x100
  | .orr => windowBase 0x11 + 0x30000

/-- How many instances a block has. -/
def Blk.count (b : Blk) : Nat :=
  match b with
  | .port | .spindle => 32
  | .demod | .lane | .poolAct | .wa | .spf | .zone | .thermAct => 64
  | .engine => 68
  | .unit | .ddrCh | .snap => 4
  | .loop => 256
  | .slot => 8
  | .flt => 270
  | .dis => 96
  | .status | .thresh | .pool | .qce | .pcie | .ddr | .gran | .therm | .frt | .alm | .orr => 1

namespace RegField

/-- The field's width in bits. -/
def width (f : RegField) : Nat := f.hi - f.lo + 1

/-- The key of copy `j` of the field in instance `i` of its block. -/
def key (f : RegField) (i j : Nat) : Nat := f.id * 0x100000 + i * f.n + j

/-- The address of that copy. -/
def addr (f : RegField) (i j : Nat) : Nat := f.blk.addr i + f.off + f.stride * j

/-- The field's bits out of a written word, and a value put back into place. -/
def extract (f : RegField) (w : BitVec 32) : BitVec 32 := (w >>> f.lo) &&& BitVec.ofNat 32 (2 ^ f.width - 1)

/-- A value cut to the field's width (R8: bits beyond a field do not exist). -/
def trunc (f : RegField) (v : BitVec 32) : BitVec 32 := v &&& BitVec.ofNat 32 (2 ^ f.width - 1)

end RegField

namespace Reg

/-- R21 (01_architecture.md). -/
def status_ISLAND_DROP : RegField := ⟨0, .status, 0x400, 4, 18, 31, 0, .RO, 0⟩
/-- R52 (02_sheaf_image.md). -/
def status_COPY : RegField := ⟨1, .status, 0x200, 0, 1, 1, 0, .RO, 0⟩
/-- R52 (02_sheaf_image.md). -/
def status_LOCKED : RegField := ⟨2, .status, 0x200, 0, 1, 2, 2, .RO, 0⟩
/-- R52 (02_sheaf_image.md). -/
def status_BUNDLE : RegField := ⟨3, .status, 0x200, 0, 1, 5, 4, .RO, 0⟩
/-- R52 (02_sheaf_image.md). -/
def status_FAIL_A : RegField := ⟨4, .status, 0x200, 0, 1, 11, 8, .RO, 0⟩
/-- R52 (02_sheaf_image.md). -/
def status_FAIL_B : RegField := ⟨5, .status, 0x200, 0, 1, 15, 12, .RO, 0⟩
/-- R52 (02_sheaf_image.md). -/
def status_LIVE_CNT : RegField := ⟨6, .status, 0x200, 0, 1, 31, 16, .RO, 0⟩
/-- R52 (02_sheaf_image.md). -/
def status_SEC_VER : RegField := ⟨7, .status, 0x204, 0, 1, 15, 0, .RO, 0⟩
/-- R52 (02_sheaf_image.md). -/
def status_SEC_FLOOR : RegField := ⟨8, .status, 0x204, 0, 1, 31, 16, .RO, 0⟩
/-- R52 (02_sheaf_image.md). -/
def status_BUILD_SEQ_LO : RegField := ⟨9, .status, 0x208, 0, 1, 31, 0, .RO, 0⟩
/-- R52 (02_sheaf_image.md). -/
def status_BUILD_SEQ_HI : RegField := ⟨10, .status, 0x20c, 0, 1, 31, 0, .RO, 0⟩
/-- R52 (02_sheaf_image.md). -/
def status_PORT_DECL : RegField := ⟨11, .status, 0x210, 0, 1, 31, 0, .RO, 0⟩
/-- R52 (02_sheaf_image.md). -/
def status_PORT_BOUND : RegField := ⟨12, .status, 0x214, 0, 1, 31, 0, .RO, 0⟩
/-- R52 (02_sheaf_image.md). -/
def status_PORT_CAUSE : RegField := ⟨13, .status, 0x220, 4, 32, 3, 0, .RO, 0⟩
/-- R110 (04_startup_and_power.md). -/
def status_CAUSE : RegField := ⟨14, .status, 0x100, 0, 1, 1, 0, .RO, 0⟩
/-- R110 (04_startup_and_power.md). -/
def status_DRAIN_INCOMPLETE : RegField := ⟨15, .status, 0x100, 0, 1, 8, 8, .RO, 0⟩
/-- R110 (04_startup_and_power.md). -/
def status_BUF_LOST : RegField := ⟨16, .status, 0x100, 0, 1, 9, 9, .RO, 0⟩
/-- R110 (04_startup_and_power.md). -/
def status_PWR_CYCLE : RegField := ⟨17, .status, 0x104, 0, 1, 31, 0, .RO, 0⟩
/-- R110 (04_startup_and_power.md). -/
def status_CUR_PS : RegField := ⟨18, .status, 0x108, 0, 1, 2, 0, .RO, 0⟩
/-- R110 (04_startup_and_power.md). -/
def status_TGT_PS : RegField := ⟨19, .status, 0x108, 0, 1, 6, 4, .RO, 0⟩
/-- R110 (04_startup_and_power.md). -/
def status_PS_BUSY : RegField := ⟨20, .status, 0x108, 0, 1, 8, 8, .RO, 0⟩
/-- R110 (04_startup_and_power.md). -/
def status_SPIN_LOCKED : RegField := ⟨21, .status, 0x10c, 0, 1, 31, 0, .RO, 0⟩
/-- R155 (05_awn_link.md). -/
def port_RETRAIN : RegField := ⟨22, .port, 0x0, 0, 1, 0, 0, .WO, 0⟩
/-- R155 (05_awn_link.md). -/
def port_DOWN : RegField := ⟨23, .port, 0x0, 0, 1, 1, 1, .WO, 0⟩
/-- R155 (05_awn_link.md). -/
def port_PRECODE_ALLOW : RegField := ⟨24, .port, 0x0, 0, 1, 2, 2, .RW, 0⟩
/-- R155 (05_awn_link.md). -/
def port_EQ_PRESET : RegField := ⟨25, .port, 0x0, 0, 1, 6, 4, .RW, 0⟩
/-- R155 (05_awn_link.md). -/
def port_STATE : RegField := ⟨26, .port, 0x4, 0, 1, 3, 0, .RO, 0⟩
/-- R155 (05_awn_link.md). -/
def port_LANE_LOCK : RegField := ⟨27, .port, 0x4, 0, 1, 7, 4, .RO, 0⟩
/-- R155 (05_awn_link.md). -/
def port_LANES : RegField := ⟨28, .port, 0x4, 0, 1, 10, 8, .RO, 0⟩
/-- R155 (05_awn_link.md). -/
def port_DESC_COPY : RegField := ⟨29, .port, 0x4, 0, 1, 11, 11, .RO, 0⟩
/-- R155 (05_awn_link.md). -/
def port_LOSS_CAUSE : RegField := ⟨30, .port, 0x4, 0, 1, 19, 16, .RO, 0⟩
/-- R155 (05_awn_link.md). -/
def port_TRIES : RegField := ⟨31, .port, 0x4, 0, 1, 23, 20, .RO, 0⟩
/-- R155 (05_awn_link.md). -/
def port_LOSS_CNT : RegField := ⟨32, .port, 0x8, 0, 1, 31, 0, .RO, 0⟩
/-- R155 (05_awn_link.md). -/
def port_HE_REV : RegField := ⟨33, .port, 0xc, 0, 1, 7, 0, .RO, 0⟩
/-- R155 (05_awn_link.md). -/
def port_MAX_LANES : RegField := ⟨34, .port, 0xc, 0, 1, 11, 8, .RO, 0⟩
/-- R155 (05_awn_link.md). -/
def port_FEC_CORR : RegField := ⟨35, .port, 0x10, 4, 4, 31, 0, .RO, 0⟩
/-- R155 (05_awn_link.md). -/
def port_FEC_UNCORR : RegField := ⟨36, .port, 0x20, 4, 4, 31, 0, .RO, 0⟩
/-- R155 (05_awn_link.md). -/
def port_DESKEW : RegField := ⟨37, .port, 0x30, 4, 4, 4, 0, .RO, 0⟩
/-- R155 (05_awn_link.md). -/
def port_DRIFT_CNT : RegField := ⟨38, .port, 0x30, 4, 4, 15, 8, .RO, 0⟩
/-- R155 (05_awn_link.md). -/
def port_EQ_STAT : RegField := ⟨39, .port, 0x40, 4, 4, 31, 0, .RO, 0⟩
/-- R155 (05_awn_link.md). -/
def port_CTL_CRC_ERR : RegField := ⟨40, .port, 0x50, 0, 1, 31, 0, .RO, 0⟩
/-- R155 (05_awn_link.md). -/
def port_SEQ_GAP : RegField := ⟨41, .port, 0x54, 0, 1, 31, 0, .RO, 0⟩
/-- R155 (05_awn_link.md). -/
def port_SMP_LOSS : RegField := ⟨42, .port, 0x58, 0, 1, 31, 0, .RO, 0⟩
/-- R155 (05_awn_link.md). -/
def port_CRED_WRT_A : RegField := ⟨43, .port, 0x60, 0, 1, 15, 0, .RO, 0⟩
/-- R155 (05_awn_link.md). -/
def port_CRED_WRT_B : RegField := ⟨44, .port, 0x60, 0, 1, 31, 16, .RO, 0⟩
/-- R155 (05_awn_link.md). -/
def port_CRED_AST_A : RegField := ⟨45, .port, 0x64, 0, 1, 15, 0, .RO, 0⟩
/-- R155 (05_awn_link.md). -/
def port_CRED_AST_B : RegField := ⟨46, .port, 0x64, 0, 1, 31, 16, .RO, 0⟩
/-- R155 (05_awn_link.md). -/
def port_CRED_CTL : RegField := ⟨47, .port, 0x68, 0, 1, 15, 0, .RO, 0⟩
/-- R155 (05_awn_link.md). -/
def port_SERIAL : RegField := ⟨48, .port, 0x80, 4, 4, 31, 0, .RO, 0⟩
/-- R155 (05_awn_link.md). -/
def port_FL_OFS : RegField := ⟨49, .port, 0x100, 0, 1, 31, 0, .RW, 0⟩
/-- R155 (05_awn_link.md). -/
def port_FL_LEN : RegField := ⟨50, .port, 0x104, 0, 1, 17, 0, .RW, 0⟩
/-- R155 (05_awn_link.md). -/
def port_FL_DDR_LO : RegField := ⟨51, .port, 0x108, 0, 1, 31, 0, .RW, 0⟩
/-- R155 (05_awn_link.md). -/
def port_FL_DDR_HI : RegField := ⟨52, .port, 0x10c, 0, 1, 15, 0, .RW, 0⟩
/-- R155 (05_awn_link.md). -/
def port_FL_CMD : RegField := ⟨53, .port, 0x110, 0, 1, 1, 0, .WO, 0⟩
/-- R155 (05_awn_link.md). -/
def port_FL_BUSY : RegField := ⟨54, .port, 0x114, 0, 1, 0, 0, .RO, 0⟩
/-- R155 (05_awn_link.md). -/
def port_FL_STATUS : RegField := ⟨55, .port, 0x114, 0, 1, 3, 1, .RO, 0⟩
/-- R185 (06_transit_servo.md). -/
def demod_REACQ : RegField := ⟨56, .demod, 0x0, 0, 1, 0, 0, .WO, 0⟩
/-- R185 (06_transit_servo.md). -/
def demod_ALIGN_SHIFT : RegField := ⟨57, .demod, 0x0, 0, 1, 5, 4, .RW, 2⟩
/-- R185 (06_transit_servo.md). -/
def demod_PRESEEK_ACC : RegField := ⟨58, .demod, 0x0, 0, 1, 15, 8, .RW, 50⟩
/-- R185 (06_transit_servo.md). -/
def demod_STATE : RegField := ⟨59, .demod, 0x4, 0, 1, 2, 0, .RO, 0⟩
/-- R185 (06_transit_servo.md). -/
def demod_TONE_LOCK : RegField := ⟨60, .demod, 0x4, 0, 1, 3, 3, .RO, 0⟩
/-- R185 (06_transit_servo.md). -/
def demod_COARSE : RegField := ⟨61, .demod, 0x4, 0, 1, 4, 4, .RO, 0⟩
/-- R185 (06_transit_servo.md). -/
def demod_ON_TRACK : RegField := ⟨62, .demod, 0x4, 0, 1, 5, 5, .RO, 0⟩
/-- R185 (06_transit_servo.md). -/
def demod_SPEC_TARGET : RegField := ⟨63, .demod, 0x4, 0, 1, 6, 6, .RO, 0⟩
/-- R185 (06_transit_servo.md). -/
def demod_MISS_RUN : RegField := ⟨64, .demod, 0x4, 0, 1, 11, 8, .RO, 0⟩
/-- R185 (06_transit_servo.md). -/
def demod_SEL_HEAD : RegField := ⟨65, .demod, 0x4, 0, 1, 15, 12, .RO, 0⟩
/-- R185 (06_transit_servo.md). -/
def demod_POS : RegField := ⟨66, .demod, 0x8, 0, 1, 31, 0, .RO, 0⟩
/-- R185 (06_transit_servo.md). -/
def demod_POS_FRAME : RegField := ⟨67, .demod, 0xc, 0, 1, 31, 0, .RO, 0⟩
/-- R185 (06_transit_servo.md). -/
def demod_TARGET : RegField := ⟨68, .demod, 0x10, 0, 1, 31, 0, .RO, 0⟩
/-- R185 (06_transit_servo.md). -/
def demod_PES : RegField := ⟨69, .demod, 0x14, 0, 1, 15, 0, .RO, 0⟩
/-- R185 (06_transit_servo.md). -/
def demod_PES_NEXT : RegField := ⟨70, .demod, 0x14, 0, 1, 31, 16, .RO, 0⟩
/-- R185 (06_transit_servo.md). -/
def demod_SETTLE_TOL : RegField := ⟨71, .demod, 0x18, 0, 1, 7, 0, .RW, 26⟩
/-- R185 (06_transit_servo.md). -/
def demod_SETTLE_FRAMES : RegField := ⟨72, .demod, 0x18, 0, 1, 15, 8, .RW, 8⟩
/-- R185 (06_transit_servo.md). -/
def demod_READ_TOL : RegField := ⟨73, .demod, 0x18, 0, 1, 23, 16, .RW, 38⟩
/-- R185 (06_transit_servo.md). -/
def demod_MA_RANGE : RegField := ⟨74, .demod, 0x1c, 0, 1, 7, 0, .RW, 192⟩
/-- R185 (06_transit_servo.md). -/
def demod_COARSE_VEL : RegField := ⟨75, .demod, 0x1c, 0, 1, 15, 8, .RW, 16⟩
/-- R185 (06_transit_servo.md). -/
def demod_FRAME_PERIOD : RegField := ⟨76, .demod, 0x20, 0, 1, 31, 0, .RO, 0⟩
/-- R185 (06_transit_servo.md). -/
def demod_MISS_CNT : RegField := ⟨77, .demod, 0x40, 0, 1, 31, 0, .RO, 0⟩
/-- R185 (06_transit_servo.md). -/
def demod_LOST_CNT : RegField := ⟨78, .demod, 0x44, 0, 1, 31, 0, .RO, 0⟩
/-- R185 (06_transit_servo.md). -/
def demod_TID_ERR_CNT : RegField := ⟨79, .demod, 0x48, 0, 1, 31, 0, .RO, 0⟩
/-- R185 (06_transit_servo.md). -/
def demod_BURST_MISS_CNT : RegField := ⟨80, .demod, 0x4c, 0, 1, 31, 0, .RO, 0⟩
/-- R185 (06_transit_servo.md). -/
def demod_RAD_OFS : RegField := ⟨81, .demod, 0x108, 8, 10, 15, 0, .RW, 0⟩
/-- R185 (06_transit_servo.md). -/
def demod_AGE : RegField := ⟨82, .demod, 0x108, 8, 10, 23, 16, .RO, 255⟩
/-- R185 (06_transit_servo.md). -/
def demod_TIM_OFS : RegField := ⟨83, .demod, 0x10c, 8, 10, 19, 0, .RW, 0⟩
/-- R205 (07_tiller_engines.md). -/
def engine_RUN : RegField := ⟨84, .engine, 0x0, 0, 1, 0, 0, .RO, 0⟩
/-- R205 (07_tiller_engines.md). -/
def engine_LOADED : RegField := ⟨85, .engine, 0x0, 0, 1, 1, 1, .RO, 0⟩
/-- R205 (07_tiller_engines.md). -/
def engine_BOUND_ACT : RegField := ⟨86, .engine, 0x0, 0, 1, 15, 8, .RO, 0⟩
/-- R205 (07_tiller_engines.md). -/
def engine_IS_SPARE : RegField := ⟨87, .engine, 0x0, 0, 1, 16, 16, .RO, 0⟩
/-- R205 (07_tiller_engines.md). -/
def engine_MC_VERSION : RegField := ⟨88, .engine, 0x4, 0, 1, 31, 0, .RO, 0⟩
/-- R205 (07_tiller_engines.md). -/
def engine_MC_SEC_VER : RegField := ⟨89, .engine, 0x8, 0, 1, 15, 0, .RO, 0⟩
/-- R205 (07_tiller_engines.md). -/
def engine_MC_KEY_IDX : RegField := ⟨90, .engine, 0x8, 0, 1, 17, 16, .RO, 0⟩
/-- R205 (07_tiller_engines.md). -/
def engine_EPOCH_OP : RegField := ⟨91, .engine, 0x10, 0, 1, 1, 0, .WO, 0⟩
/-- R205 (07_tiller_engines.md). -/
def engine_EPOCH_SRC : RegField := ⟨92, .engine, 0x10, 0, 1, 6, 4, .WO, 0⟩
/-- R205 (07_tiller_engines.md). -/
def engine_EPOCH_NUM : RegField := ⟨93, .engine, 0x10, 0, 1, 31, 16, .WO, 0⟩
/-- R205 (07_tiller_engines.md). -/
def engine_RES_EPOCH : RegField := ⟨94, .engine, 0x14, 0, 1, 15, 0, .RO, 0⟩
/-- R205 (07_tiller_engines.md). -/
def engine_RES_OK : RegField := ⟨95, .engine, 0x14, 0, 1, 16, 16, .RO, 0⟩
/-- R205 (07_tiller_engines.md). -/
def engine_REASON : RegField := ⟨96, .engine, 0x14, 0, 1, 19, 17, .RO, 0⟩
/-- R205 (07_tiller_engines.md). -/
def engine_NEXT : RegField := ⟨97, .engine, 0x18, 0, 1, 15, 0, .RO, 0⟩
/-- R205 (07_tiller_engines.md). -/
def engine_OPEN_CNT : RegField := ⟨98, .engine, 0x18, 0, 1, 18, 16, .RO, 0⟩
/-- R205 (07_tiller_engines.md). -/
def engine_SLOT_EPOCH : RegField := ⟨99, .engine, 0x20, 4, 4, 15, 0, .RO, 0⟩
/-- R205 (07_tiller_engines.md). -/
def engine_SLOT_SRC : RegField := ⟨100, .engine, 0x20, 4, 4, 18, 16, .RO, 0⟩
/-- R205 (07_tiller_engines.md). -/
def engine_SLOT_OPEN : RegField := ⟨101, .engine, 0x20, 4, 4, 20, 20, .RO, 0⟩
/-- R205 (07_tiller_engines.md). -/
def engine_RUNAHEAD_MAX : RegField := ⟨102, .engine, 0x40, 0, 1, 10, 0, .RW, 48⟩
/-- R205 (07_tiller_engines.md). -/
def engine_CONF_SPAN : RegField := ⟨103, .engine, 0x40, 0, 1, 21, 16, .RW, 8⟩
/-- R205 (07_tiller_engines.md). -/
def engine_AGE_LIMIT : RegField := ⟨104, .engine, 0x44, 0, 1, 13, 0, .RW, 1000⟩
/-- R205 (07_tiller_engines.md). -/
def engine_CLASS_SEL : RegField := ⟨105, .engine, 0x48, 0, 1, 2, 0, .RO, 4⟩
/-- R205 (07_tiller_engines.md). -/
def engine_MQ_VALID : RegField := ⟨106, .engine, 0x4c, 0, 1, 10, 0, .RO, 0⟩
/-- R205 (07_tiller_engines.md). -/
def engine_MQ_DEPTH : RegField := ⟨107, .engine, 0x4c, 0, 1, 26, 16, .RO, 0⟩
/-- R205 (07_tiller_engines.md). -/
def engine_MQ_CLASS_CNT : RegField := ⟨108, .engine, 0x50, 4, 5, 10, 0, .RO, 0⟩
/-- R205 (07_tiller_engines.md). -/
def engine_OP_DESC : RegField := ⟨109, .engine, 0x80, 4, 4, 31, 0, .RW, 0⟩
/-- R205 (07_tiller_engines.md). -/
def engine_OP_GO : RegField := ⟨110, .engine, 0x90, 0, 1, 0, 0, .WO, 0⟩
/-- R205 (07_tiller_engines.md). -/
def engine_OP_BUSY : RegField := ⟨111, .engine, 0x94, 0, 1, 0, 0, .RO, 0⟩
/-- R205 (07_tiller_engines.md). -/
def engine_OP_STATUS : RegField := ⟨112, .engine, 0x94, 0, 1, 3, 1, .RO, 0⟩
/-- R205 (07_tiller_engines.md). -/
def engine_EPOCH_STALL_CNT : RegField := ⟨113, .engine, 0xa0, 0, 1, 31, 0, .RO, 0⟩
/-- R205 (07_tiller_engines.md). -/
def engine_WR_REFUSED_CNT : RegField := ⟨114, .engine, 0xa4, 0, 1, 31, 0, .RO, 0⟩
/-- R205 (07_tiller_engines.md). -/
def engine_RA_SETTLED_CNT : RegField := ⟨115, .engine, 0xa8, 0, 1, 31, 0, .RO, 0⟩
/-- R205 (07_tiller_engines.md). -/
def engine_PREEMPT_CNT : RegField := ⟨116, .engine, 0xac, 0, 1, 31, 0, .RO, 0⟩
/-- R234 (08_read_channel.md). -/
def lane_ACT : RegField := ⟨117, .lane, 0x0, 0, 1, 5, 0, .RO, 0⟩
/-- R234 (08_read_channel.md). -/
def lane_IN_USE : RegField := ⟨118, .lane, 0x0, 0, 1, 7, 7, .RO, 0⟩
/-- R234 (08_read_channel.md). -/
def lane_HEAD_MODE : RegField := ⟨119, .lane, 0x4, 0, 1, 29, 0, .RO, 0⟩
/-- R234 (08_read_channel.md). -/
def lane_OTF_ITER : RegField := ⟨120, .lane, 0x8, 0, 1, 3, 0, .RW, 8⟩
/-- R234 (08_read_channel.md). -/
def lane_MS_NORM : RegField := ⟨121, .lane, 0x8, 0, 1, 7, 4, .RW, 12⟩
/-- R234 (08_read_channel.md). -/
def lane_SYNC_TOL : RegField := ⟨122, .lane, 0x8, 0, 1, 11, 8, .RW, 3⟩
/-- R234 (08_read_channel.md). -/
def lane_HYP_EN : RegField := ⟨123, .lane, 0x8, 0, 1, 12, 12, .RW, 1⟩
/-- R234 (08_read_channel.md). -/
def lane_FALLBACK_EN : RegField := ⟨124, .lane, 0x8, 0, 1, 13, 13, .RW, 1⟩
/-- R234 (08_read_channel.md). -/
def lane_DC_SHIFT : RegField := ⟨125, .lane, 0x8, 0, 1, 19, 16, .RW, 12⟩
/-- R234 (08_read_channel.md). -/
def lane_AGC_SHIFT : RegField := ⟨126, .lane, 0x8, 0, 1, 23, 20, .RW, 10⟩
/-- R234 (08_read_channel.md). -/
def lane_AGC_TARGET : RegField := ⟨127, .lane, 0xc, 0, 1, 6, 0, .RW, 24⟩
/-- R234 (08_read_channel.md). -/
def lane_ERASE_THR : RegField := ⟨128, .lane, 0xc, 0, 1, 14, 8, .RW, 6⟩
/-- R234 (08_read_channel.md). -/
def lane_TAP_ADDR : RegField := ⟨129, .lane, 0x10, 0, 1, 15, 0, .RW, 0⟩
/-- R234 (08_read_channel.md). -/
def lane_TAP_DATA : RegField := ⟨130, .lane, 0x14, 0, 1, 15, 0, .RW, 0⟩
/-- R234 (08_read_channel.md). -/
def lane_TAP_COMMIT : RegField := ⟨131, .lane, 0x18, 0, 1, 0, 0, .WO, 0⟩
/-- R234 (08_read_channel.md). -/
def lane_TAP_PEND : RegField := ⟨132, .lane, 0x18, 0, 1, 1, 1, .RO, 0⟩
/-- R234 (08_read_channel.md). -/
def lane_CUR_HEAD : RegField := ⟨133, .lane, 0x1c, 0, 1, 3, 0, .RO, 0⟩
/-- R234 (08_read_channel.md). -/
def lane_CUR_TZ : RegField := ⟨134, .lane, 0x1c, 0, 1, 7, 4, .RO, 0⟩
/-- R234 (08_read_channel.md). -/
def lane_CUR_KIND : RegField := ⟨135, .lane, 0x1c, 0, 1, 10, 8, .RO, 0⟩
/-- R234 (08_read_channel.md). -/
def lane_CTX_USED : RegField := ⟨136, .lane, 0x1c, 0, 1, 14, 12, .RO, 0⟩
/-- R234 (08_read_channel.md). -/
def lane_RING_WAIT : RegField := ⟨137, .lane, 0x1c, 0, 1, 22, 16, .RO, 0⟩
/-- R234 (08_read_channel.md). -/
def lane_GAIN_A : RegField := ⟨138, .lane, 0x20, 0, 1, 15, 0, .RO, 256⟩
/-- R234 (08_read_channel.md). -/
def lane_GAIN_B : RegField := ⟨139, .lane, 0x20, 0, 1, 31, 16, .RO, 256⟩
/-- R234 (08_read_channel.md). -/
def lane_DC_A : RegField := ⟨140, .lane, 0x24, 0, 1, 15, 0, .RO, 0⟩
/-- R234 (08_read_channel.md). -/
def lane_DC_B : RegField := ⟨141, .lane, 0x24, 0, 1, 31, 16, .RO, 0⟩
/-- R234 (08_read_channel.md). -/
def lane_SYNC_DEV_MEAN : RegField := ⟨142, .lane, 0x28, 0, 1, 15, 0, .RO, 0⟩
/-- R234 (08_read_channel.md). -/
def lane_SECT_CNT : RegField := ⟨143, .lane, 0x40, 0, 1, 31, 0, .RO, 0⟩
/-- R234 (08_read_channel.md). -/
def lane_OK_CNT : RegField := ⟨144, .lane, 0x44, 0, 1, 31, 0, .RO, 0⟩
/-- R234 (08_read_channel.md). -/
def lane_FAIL_CNT : RegField := ⟨145, .lane, 0x48, 0, 1, 31, 0, .RO, 0⟩
/-- R234 (08_read_channel.md). -/
def lane_ITER_SUM : RegField := ⟨146, .lane, 0x4c, 0, 1, 31, 0, .RO, 0⟩
/-- R234 (08_read_channel.md). -/
def lane_SYNC_MISS_CNT : RegField := ⟨147, .lane, 0x50, 0, 1, 31, 0, .RO, 0⟩
/-- R234 (08_read_channel.md). -/
def lane_SYNC_FALSE_CNT : RegField := ⟨148, .lane, 0x54, 0, 1, 31, 0, .RO, 0⟩
/-- R234 (08_read_channel.md). -/
def lane_SYNC_INFER_CNT : RegField := ⟨149, .lane, 0x58, 0, 1, 31, 0, .RO, 0⟩
/-- R234 (08_read_channel.md). -/
def lane_SYNC_OFS_CNT : RegField := ⟨150, .lane, 0x5c, 0, 1, 31, 0, .RO, 0⟩
/-- R234 (08_read_channel.md). -/
def lane_MULTI_HYP_CNT : RegField := ⟨151, .lane, 0x60, 0, 1, 31, 0, .RO, 0⟩
/-- R234 (08_read_channel.md). -/
def lane_SEAL_CRC_ERR_CNT : RegField := ⟨152, .lane, 0x64, 0, 1, 31, 0, .RO, 0⟩
/-- R234 (08_read_channel.md). -/
def lane_SEAL_LBA_ERR_CNT : RegField := ⟨153, .lane, 0x68, 0, 1, 31, 0, .RO, 0⟩
/-- R234 (08_read_channel.md). -/
def lane_FALLBACK_CNT : RegField := ⟨154, .lane, 0x6c, 0, 1, 31, 0, .RO, 0⟩
/-- R234 (08_read_channel.md). -/
def lane_ERASED_CNT : RegField := ⟨155, .lane, 0x70, 0, 1, 31, 0, .RO, 0⟩
/-- R234 (08_read_channel.md). -/
def lane_CAP_COPY_CNT : RegField := ⟨156, .lane, 0x74, 0, 1, 31, 0, .RO, 0⟩
/-- R234 (08_read_channel.md). -/
def lane_CAP_DROP_CNT : RegField := ⟨157, .lane, 0x78, 0, 1, 31, 0, .RO, 0⟩
/-- R235 (08_read_channel.md). -/
def thresh_CAP_RECORDS : RegField := ⟨158, .thresh, 0x0, 0, 1, 31, 0, .RO, 0⟩
/-- R235 (08_read_channel.md). -/
def thresh_CAP_FREE : RegField := ⟨159, .thresh, 0x4, 0, 1, 31, 0, .RO, 0⟩
/-- R235 (08_read_channel.md). -/
def thresh_CAP_LOW : RegField := ⟨160, .thresh, 0x8, 0, 1, 31, 0, .RO, 0⟩
/-- R235 (08_read_channel.md). -/
def thresh_NOTICE_PEND : RegField := ⟨161, .thresh, 0xc, 0, 1, 31, 0, .RO, 0⟩
/-- R259 (09_recovery_and_defects.md). -/
def pool_STEP_EN : RegField := ⟨162, .pool, 0x0, 0, 1, 3, 0, .RW, 15⟩
/-- R259 (09_recovery_and_defects.md). -/
def pool_REREAD_MAX : RegField := ⟨163, .pool, 0x0, 0, 1, 11, 8, .RW, 10⟩
/-- R259 (09_recovery_and_defects.md). -/
def pool_EXT_ALIGN : RegField := ⟨164, .pool, 0x0, 0, 1, 12, 12, .RW, 1⟩
/-- R259 (09_recovery_and_defects.md). -/
def pool_DEFER_EN : RegField := ⟨165, .pool, 0x0, 0, 1, 13, 13, .RW, 1⟩
/-- R259 (09_recovery_and_defects.md). -/
def pool_RR_OFS1 : RegField := ⟨166, .pool, 0x4, 0, 1, 7, 0, .RW, 13⟩
/-- R259 (09_recovery_and_defects.md). -/
def pool_RR_OFS2 : RegField := ⟨167, .pool, 0x4, 0, 1, 15, 8, .RW, 26⟩
/-- R259 (09_recovery_and_defects.md). -/
def pool_STEP4_RESERVE : RegField := ⟨168, .pool, 0x4, 0, 1, 19, 16, .RW, 4⟩
/-- R259 (09_recovery_and_defects.md). -/
def pool_ITI_TAPS : RegField := ⟨169, .pool, 0x4, 0, 1, 27, 24, .RW, 11⟩
/-- R259 (09_recovery_and_defects.md). -/
def pool_DEEP_ITER : RegField := ⟨170, .pool, 0x8, 0, 1, 6, 0, .RW, 64⟩
/-- R259 (09_recovery_and_defects.md). -/
def pool_OUTER : RegField := ⟨171, .pool, 0x8, 0, 1, 10, 8, .RW, 4⟩
/-- R259 (09_recovery_and_defects.md). -/
def pool_PAR_AGREE_MAX : RegField := ⟨172, .pool, 0xc, 0, 1, 9, 0, .RW, 80⟩
/-- R259 (09_recovery_and_defects.md). -/
def pool_BG_LIMIT : RegField := ⟨173, .pool, 0x10, 0, 1, 15, 0, .RW, 600⟩
/-- R259 (09_recovery_and_defects.md). -/
def pool_REMAP_FLUSH : RegField := ⟨174, .pool, 0x14, 0, 1, 7, 0, .RW, 10⟩
/-- R259 (09_recovery_and_defects.md). -/
def pool_REC_HELD : RegField := ⟨175, .pool, 0x18, 0, 1, 10, 0, .RO, 0⟩
/-- R259 (09_recovery_and_defects.md). -/
def pool_BUSY : RegField := ⟨176, .pool, 0x100, 16, 16, 0, 0, .RO, 0⟩
/-- R259 (09_recovery_and_defects.md). -/
def pool_STEP : RegField := ⟨177, .pool, 0x100, 16, 16, 3, 1, .RO, 0⟩
/-- R259 (09_recovery_and_defects.md). -/
def pool_ACT : RegField := ⟨178, .pool, 0x100, 16, 16, 13, 8, .RO, 0⟩
/-- R259 (09_recovery_and_defects.md). -/
def pool_SLOT : RegField := ⟨179, .pool, 0x100, 16, 16, 31, 16, .RO, 0⟩
/-- R259 (09_recovery_and_defects.md). -/
def pool_WORK_CNT : RegField := ⟨180, .pool, 0x104, 16, 16, 31, 0, .RO, 0⟩
/-- R259 (09_recovery_and_defects.md). -/
def poolAct_RCV_CNT : RegField := ⟨181, .poolAct, 0x0, 4, 4, 31, 0, .RO, 0⟩
/-- R259 (09_recovery_and_defects.md). -/
def poolAct_URE_CNT : RegField := ⟨182, .poolAct, 0x10, 0, 1, 31, 0, .RO, 0⟩
/-- R259 (09_recovery_and_defects.md). -/
def poolAct_DEFER_CNT : RegField := ⟨183, .poolAct, 0x14, 0, 1, 31, 0, .RO, 0⟩
/-- R259 (09_recovery_and_defects.md). -/
def poolAct_UNRECOV_CNT : RegField := ⟨184, .poolAct, 0x18, 0, 1, 31, 0, .RO, 0⟩
/-- R259 (09_recovery_and_defects.md). -/
def poolAct_REALLOC_CNT : RegField := ⟨185, .poolAct, 0x1c, 0, 1, 31, 0, .RO, 0⟩
/-- R259 (09_recovery_and_defects.md). -/
def poolAct_ZSPARE_FULL_CNT : RegField := ⟨186, .poolAct, 0x20, 0, 1, 31, 0, .RO, 0⟩
/-- R259 (09_recovery_and_defects.md). -/
def poolAct_CONV_SPARE_FREE : RegField := ⟨187, .poolAct, 0x24, 0, 1, 31, 0, .RO, 0⟩
/-- R259 (09_recovery_and_defects.md). -/
def poolAct_REMAP_ENTRIES : RegField := ⟨188, .poolAct, 0x28, 0, 1, 31, 0, .RO, 0⟩
/-- R259 (09_recovery_and_defects.md). -/
def poolAct_LOST_RANGES : RegField := ⟨189, .poolAct, 0x2c, 0, 1, 31, 0, .RO, 0⟩
/-- R259 (09_recovery_and_defects.md). -/
def poolAct_REMAP_GEN : RegField := ⟨190, .poolAct, 0x30, 0, 1, 31, 0, .RO, 0⟩
/-- R259 (09_recovery_and_defects.md). -/
def poolAct_LOST_GEN : RegField := ⟨191, .poolAct, 0x34, 0, 1, 31, 0, .RO, 0⟩
/-- R259 (09_recovery_and_defects.md). -/
def poolAct_TIMEOUT_CNT : RegField := ⟨192, .poolAct, 0x38, 0, 1, 31, 0, .RO, 0⟩
/-- R286 (10_write_and_assist.md). -/
def wa_WG_TOL : RegField := ⟨193, .wa, 0x0, 0, 1, 7, 0, .RWL, 20⟩
/-- R286 (10_write_and_assist.md). -/
def wa_REOPEN_FRAMES : RegField := ⟨194, .wa, 0x0, 0, 1, 11, 8, .RWL, 2⟩
/-- R286 (10_write_and_assist.md). -/
def wa_WG_AGE_MAX : RegField := ⟨195, .wa, 0x0, 0, 1, 15, 12, .RO, 2⟩
/-- R286 (10_write_and_assist.md). -/
def wa_WG_DAMAGE : RegField := ⟨196, .wa, 0x0, 0, 1, 23, 16, .RW, 40⟩
/-- R286 (10_write_and_assist.md). -/
def wa_WR_LEAD : RegField := ⟨197, .wa, 0x4, 0, 1, 3, 0, .RW, 4⟩
/-- R286 (10_write_and_assist.md). -/
def wa_PAR_REFRESH_EN : RegField := ⟨198, .wa, 0x4, 0, 1, 8, 8, .RW, 1⟩
/-- R286 (10_write_and_assist.md). -/
def wa_GATE_OPEN : RegField := ⟨199, .wa, 0x8, 0, 1, 0, 0, .RO, 0⟩
/-- R286 (10_write_and_assist.md). -/
def wa_WINDOW : RegField := ⟨200, .wa, 0x8, 0, 1, 1, 1, .RO, 0⟩
/-- R286 (10_write_and_assist.md). -/
def wa_LASER_AUTO : RegField := ⟨201, .wa, 0x8, 0, 1, 2, 2, .RO, 0⟩
/-- R286 (10_write_and_assist.md). -/
def wa_CLOSE_CAUSE : RegField := ⟨202, .wa, 0x8, 0, 1, 7, 4, .RO, 0⟩
/-- R286 (10_write_and_assist.md). -/
def wa_BAND : RegField := ⟨203, .wa, 0x8, 0, 1, 9, 8, .RO, 0⟩
/-- R286 (10_write_and_assist.md). -/
def wa_WR_HEAD : RegField := ⟨204, .wa, 0x8, 0, 1, 15, 12, .RO, 0⟩
/-- R286 (10_write_and_assist.md). -/
def wa_LAST_WIN_ID : RegField := ⟨205, .wa, 0x8, 0, 1, 31, 16, .RO, 0⟩
/-- R286 (10_write_and_assist.md). -/
def wa_ARM_CNT : RegField := ⟨206, .wa, 0xc, 0, 1, 31, 0, .RO, 0⟩
/-- R286 (10_write_and_assist.md). -/
def wa_CLOSE_CNT : RegField := ⟨207, .wa, 0x10, 0, 1, 31, 0, .RO, 0⟩
/-- R286 (10_write_and_assist.md). -/
def wa_NOARM_CNT : RegField := ⟨208, .wa, 0x14, 0, 1, 31, 0, .RO, 0⟩
/-- R286 (10_write_and_assist.md). -/
def wa_SHORT_WIN_CNT : RegField := ⟨209, .wa, 0x18, 0, 1, 31, 0, .RO, 0⟩
/-- R286 (10_write_and_assist.md). -/
def wa_WIN_REJ_CNT : RegField := ⟨210, .wa, 0x1c, 0, 1, 31, 0, .RO, 0⟩
/-- R286 (10_write_and_assist.md). -/
def wa_DAMAGE_CHK_CNT : RegField := ⟨211, .wa, 0x20, 0, 1, 31, 0, .RO, 0⟩
/-- R286 (10_write_and_assist.md). -/
def wa_WT_INVALID_CNT : RegField := ⟨212, .wa, 0x24, 0, 1, 31, 0, .RO, 0⟩
/-- R286 (10_write_and_assist.md). -/
def wa_ASSIST_SAT_CNT : RegField := ⟨213, .wa, 0x28, 0, 1, 31, 0, .RO, 0⟩
/-- R286 (10_write_and_assist.md). -/
def wa_PAR_STALE : RegField := ⟨214, .wa, 0x2c, 0, 1, 16, 0, .RO, 0⟩
/-- R286 (10_write_and_assist.md). -/
def wa_WT_ADDR : RegField := ⟨215, .wa, 0x30, 0, 1, 13, 0, .RW, 0⟩
/-- R286 (10_write_and_assist.md). -/
def wa_WT_DATA : RegField := ⟨216, .wa, 0x34, 0, 1, 31, 0, .RW, 0⟩
/-- R286 (10_write_and_assist.md). -/
def wa_WT_COMMIT : RegField := ⟨217, .wa, 0x38, 0, 1, 0, 0, .WO, 0⟩
/-- R286 (10_write_and_assist.md). -/
def wa_WT_PEND : RegField := ⟨218, .wa, 0x38, 0, 1, 1, 1, .RO, 0⟩
/-- R286 (10_write_and_assist.md). -/
def wa_AGING : RegField := ⟨219, .wa, 0x40, 4, 10, 31, 0, .RW, 1065353216⟩
/-- R306 (11_heliostat_loops.md). -/
def unit_ACTIVE_CNT : RegField := ⟨220, .unit, 0x0, 0, 1, 6, 0, .RO, 0⟩
/-- R306 (11_heliostat_loops.md). -/
def unit_EXEC_CNT : RegField := ⟨221, .unit, 0x4, 0, 1, 31, 0, .RO, 0⟩
/-- R306 (11_heliostat_loops.md). -/
def unit_OVERRUN_TOT : RegField := ⟨222, .unit, 0x8, 0, 1, 31, 0, .RO, 0⟩
/-- R306 (11_heliostat_loops.md). -/
def unit_RET_BRAKE_GAIN : RegField := ⟨223, .unit, 0x10, 0, 1, 31, 0, .RWL, 1028443341⟩
/-- R306 (11_heliostat_loops.md). -/
def unit_RET_PUSH : RegField := ⟨224, .unit, 0x14, 0, 1, 31, 0, .RWL, 1050253722⟩
/-- R306 (11_heliostat_loops.md). -/
def unit_RET_BRAKE_US : RegField := ⟨225, .unit, 0x18, 0, 1, 15, 0, .RWL, 200⟩
/-- R306 (11_heliostat_loops.md). -/
def unit_RET_PUSH_MS : RegField := ⟨226, .unit, 0x18, 0, 1, 31, 16, .RWL, 15⟩
/-- R306 (11_heliostat_loops.md). -/
def unit_RET_HOLD : RegField := ⟨227, .unit, 0x1c, 0, 1, 31, 0, .RWL, 1036831949⟩
/-- R306 (11_heliostat_loops.md). -/
def unit_RET_HOLD_MS : RegField := ⟨228, .unit, 0x20, 0, 1, 15, 0, .RWL, 50⟩
/-- R306 (11_heliostat_loops.md). -/
def unit_RET_DIR : RegField := ⟨229, .unit, 0x20, 0, 1, 16, 16, .RWL, 0⟩
/-- R306 (11_heliostat_loops.md). -/
def unit_WD_CAP_POS : RegField := ⟨230, .unit, 0x24, 0, 1, 7, 0, .RO, 4⟩
/-- R306 (11_heliostat_loops.md). -/
def unit_WD_CAP_LASER : RegField := ⟨231, .unit, 0x24, 0, 1, 15, 8, .RO, 2⟩
/-- R306 (11_heliostat_loops.md). -/
def unit_WD_CAP_SPIN : RegField := ⟨232, .unit, 0x24, 0, 1, 31, 16, .RO, 200⟩
/-- R307 (11_heliostat_loops.md). -/
def loop_ENABLE : RegField := ⟨233, .loop, 0x0, 0, 1, 0, 0, .RW, 0⟩
/-- R307 (11_heliostat_loops.md). -/
def loop_MODE_REQ : RegField := ⟨234, .loop, 0x0, 0, 1, 2, 1, .RW, 0⟩
/-- R307 (11_heliostat_loops.md). -/
def loop_SWAP : RegField := ⟨235, .loop, 0x0, 0, 1, 3, 3, .WO, 0⟩
/-- R307 (11_heliostat_loops.md). -/
def loop_MODE : RegField := ⟨236, .loop, 0x4, 0, 1, 2, 0, .RO, 0⟩
/-- R307 (11_heliostat_loops.md). -/
def loop_SET : RegField := ⟨237, .loop, 0x4, 0, 1, 3, 3, .RO, 0⟩
/-- R307 (11_heliostat_loops.md). -/
def loop_SAT_HI : RegField := ⟨238, .loop, 0x4, 0, 1, 4, 4, .RO, 0⟩
/-- R307 (11_heliostat_loops.md). -/
def loop_SAT_LO : RegField := ⟨239, .loop, 0x4, 0, 1, 5, 5, .RO, 0⟩
/-- R307 (11_heliostat_loops.md). -/
def loop_FROZEN : RegField := ⟨240, .loop, 0x4, 0, 1, 6, 6, .RO, 0⟩
/-- R307 (11_heliostat_loops.md). -/
def loop_SAFE_CAUSE : RegField := ⟨241, .loop, 0x4, 0, 1, 11, 8, .RO, 0⟩
/-- R307 (11_heliostat_loops.md). -/
def loop_PROG_ERR_IDX : RegField := ⟨242, .loop, 0x4, 0, 1, 16, 12, .RO, 0⟩
/-- R307 (11_heliostat_loops.md). -/
def loop_PROG_ERR : RegField := ⟨243, .loop, 0x4, 0, 1, 17, 17, .RO, 0⟩
/-- R307 (11_heliostat_loops.md). -/
def loop_TUNE_ST : RegField := ⟨244, .loop, 0x4, 0, 1, 20, 18, .RO, 0⟩
/-- R307 (11_heliostat_loops.md). -/
def loop_DIV : RegField := ⟨245, .loop, 0x8, 0, 1, 3, 0, .RW, 0⟩
/-- R307 (11_heliostat_loops.md). -/
def loop_WD_AGE : RegField := ⟨246, .loop, 0x8, 0, 1, 11, 4, .RW, 0⟩
/-- R307 (11_heliostat_loops.md). -/
def loop_WD_SAME : RegField := ⟨247, .loop, 0x8, 0, 1, 19, 12, .RW, 0⟩
/-- R307 (11_heliostat_loops.md). -/
def loop_MA_HOLD : RegField := ⟨248, .loop, 0x8, 0, 1, 20, 20, .RW, 0⟩
/-- R307 (11_heliostat_loops.md). -/
def loop_APPLY_DLY : RegField := ⟨249, .loop, 0xc, 0, 1, 11, 0, .RW, 0⟩
/-- R307 (11_heliostat_loops.md). -/
def loop_OUT_MIN : RegField := ⟨250, .loop, 0x10, 0, 1, 31, 0, .RW, 0⟩
/-- R307 (11_heliostat_loops.md). -/
def loop_OUT_MAX : RegField := ⟨251, .loop, 0x14, 0, 1, 31, 0, .RW, 0⟩
/-- R307 (11_heliostat_loops.md). -/
def loop_SAFE_RATE : RegField := ⟨252, .loop, 0x18, 0, 1, 31, 0, .RW, 0⟩
/-- R307 (11_heliostat_loops.md). -/
def loop_MAN_OUT : RegField := ⟨253, .loop, 0x1c, 0, 1, 31, 0, .RW, 0⟩
/-- R307 (11_heliostat_loops.md). -/
def loop_Y : RegField := ⟨254, .loop, 0x20, 0, 1, 31, 0, .RO, 0⟩
/-- R307 (11_heliostat_loops.md). -/
def loop_U : RegField := ⟨255, .loop, 0x24, 0, 1, 31, 0, .RO, 0⟩
/-- R307 (11_heliostat_loops.md). -/
def loop_V : RegField := ⟨256, .loop, 0x28, 0, 1, 31, 0, .RO, 0⟩
/-- R307 (11_heliostat_loops.md). -/
def loop_I : RegField := ⟨257, .loop, 0x2c, 0, 1, 31, 0, .RO, 0⟩
/-- R307 (11_heliostat_loops.md). -/
def loop_MEAS : RegField := ⟨258, .loop, 0x30, 0, 1, 31, 0, .RO, 0⟩
/-- R307 (11_heliostat_loops.md). -/
def loop_REF : RegField := ⟨259, .loop, 0x34, 0, 1, 31, 0, .RO, 0⟩
/-- R307 (11_heliostat_loops.md). -/
def loop_TS : RegField := ⟨260, .loop, 0x38, 0, 1, 31, 0, .RO, 0⟩
/-- R307 (11_heliostat_loops.md). -/
def loop_AUX : RegField := ⟨261, .loop, 0x3c, 0, 1, 31, 0, .RO, 0⟩
/-- R307 (11_heliostat_loops.md). -/
def loop_RUN_CNT : RegField := ⟨262, .loop, 0x40, 0, 1, 31, 0, .RO, 0⟩
/-- R307 (11_heliostat_loops.md). -/
def loop_OVERRUN_CNT : RegField := ⟨263, .loop, 0x44, 0, 1, 31, 0, .RO, 0⟩
/-- R307 (11_heliostat_loops.md). -/
def loop_SAT_CNT : RegField := ⟨264, .loop, 0x48, 0, 1, 31, 0, .RO, 0⟩
/-- R307 (11_heliostat_loops.md). -/
def loop_WD_CNT : RegField := ⟨265, .loop, 0x4c, 0, 1, 31, 0, .RO, 0⟩
/-- R307 (11_heliostat_loops.md). -/
def loop_ARITH_CNT : RegField := ⟨266, .loop, 0x50, 0, 1, 31, 0, .RO, 0⟩
/-- R307 (11_heliostat_loops.md). -/
def loop_SWAP_CNT : RegField := ⟨267, .loop, 0x54, 0, 1, 31, 0, .RO, 0⟩
/-- R307 (11_heliostat_loops.md). -/
def loop_RELAY_AMP : RegField := ⟨268, .loop, 0x60, 0, 1, 31, 0, .RW, 0⟩
/-- R307 (11_heliostat_loops.md). -/
def loop_RELAY_HYST : RegField := ⟨269, .loop, 0x64, 0, 1, 31, 0, .RW, 0⟩
/-- R307 (11_heliostat_loops.md). -/
def loop_TUNE_ERR_MAX : RegField := ⟨270, .loop, 0x68, 0, 1, 31, 0, .RW, 0⟩
/-- R307 (11_heliostat_loops.md). -/
def loop_TUNE_CYC : RegField := ⟨271, .loop, 0x6c, 0, 1, 7, 0, .RW, 8⟩
/-- R307 (11_heliostat_loops.md). -/
def loop_TUNE_RULE : RegField := ⟨272, .loop, 0x6c, 0, 1, 9, 8, .RW, 0⟩
/-- R307 (11_heliostat_loops.md). -/
def loop_TUNE_BASE : RegField := ⟨273, .loop, 0x6c, 0, 1, 14, 10, .RW, 0⟩
/-- R307 (11_heliostat_loops.md). -/
def loop_TUNE_TIMEOUT : RegField := ⟨274, .loop, 0x6c, 0, 1, 31, 16, .RW, 1000⟩
/-- R307 (11_heliostat_loops.md). -/
def loop_TUNE_KU : RegField := ⟨275, .loop, 0x70, 0, 1, 31, 0, .RO, 0⟩
/-- R307 (11_heliostat_loops.md). -/
def loop_TUNE_TU : RegField := ⟨276, .loop, 0x74, 0, 1, 31, 0, .RO, 0⟩
/-- R307 (11_heliostat_loops.md). -/
def loop_TUNE_A : RegField := ⟨277, .loop, 0x78, 0, 1, 31, 0, .RO, 0⟩
/-- R307 (11_heliostat_loops.md). -/
def loop_PROG : RegField := ⟨278, .loop, 0x100, 4, 32, 31, 0, .RW, 0⟩
/-- R307 (11_heliostat_loops.md). -/
def loop_X : RegField := ⟨279, .loop, 0x180, 4, 16, 31, 0, .RW, 0⟩
/-- R307 (11_heliostat_loops.md). -/
def loop_KA : RegField := ⟨280, .loop, 0x200, 4, 32, 31, 0, .RW, 0⟩
/-- R307 (11_heliostat_loops.md). -/
def loop_KB : RegField := ⟨281, .loop, 0x280, 4, 32, 31, 0, .RW, 0⟩
/-- R308 (11_heliostat_loops.md). -/
def spf_SP_POS : RegField := ⟨282, .spf, 0x0, 0, 1, 31, 0, .RW, 0⟩
/-- R308 (11_heliostat_loops.md). -/
def spf_SP_ACC : RegField := ⟨283, .spf, 0x4, 0, 1, 31, 0, .RW, 0⟩
/-- R308 (11_heliostat_loops.md). -/
def spf_SP_FRAME : RegField := ⟨284, .spf, 0x8, 0, 1, 31, 0, .RW, 0⟩
/-- R308 (11_heliostat_loops.md). -/
def spf_SP_EPOCH : RegField := ⟨285, .spf, 0xc, 0, 1, 15, 0, .RW, 0⟩
/-- R308 (11_heliostat_loops.md). -/
def spf_SP_SPEC : RegField := ⟨286, .spf, 0xc, 0, 1, 16, 16, .RW, 0⟩
/-- R308 (11_heliostat_loops.md). -/
def spf_SP_PUSH : RegField := ⟨287, .spf, 0x10, 0, 1, 0, 0, .WO, 0⟩
/-- R308 (11_heliostat_loops.md). -/
def spf_SP_DEPTH : RegField := ⟨288, .spf, 0x14, 0, 1, 6, 0, .RO, 0⟩
/-- R308 (11_heliostat_loops.md). -/
def spf_SP_RES : RegField := ⟨289, .spf, 0x14, 0, 1, 10, 8, .RO, 0⟩
/-- R308 (11_heliostat_loops.md). -/
def spf_SP_HOLD_POS : RegField := ⟨290, .spf, 0x18, 0, 1, 31, 0, .RO, 0⟩
/-- R308 (11_heliostat_loops.md). -/
def spf_SP_LATE_CNT : RegField := ⟨291, .spf, 0x1c, 0, 1, 31, 0, .RO, 0⟩
/-- R308 (11_heliostat_loops.md). -/
def spf_SP_DECEL : RegField := ⟨292, .spf, 0x20, 0, 1, 31, 0, .RW, 0⟩
/-- R328 (12_spindle_motor.md). -/
def spindle_SPIN_CMD : RegField := ⟨293, .spindle, 0x0, 0, 1, 1, 0, .WO, 0⟩
/-- R328 (12_spindle_motor.md). -/
def spindle_SPIN_STATE : RegField := ⟨294, .spindle, 0x4, 0, 1, 3, 0, .RO, 0⟩
/-- R328 (12_spindle_motor.md). -/
def spindle_START_PATH : RegField := ⟨295, .spindle, 0x4, 0, 1, 6, 4, .RO, 0⟩
/-- R328 (12_spindle_motor.md). -/
def spindle_SPIN_RES : RegField := ⟨296, .spindle, 0x4, 0, 1, 10, 8, .RO, 0⟩
/-- R328 (12_spindle_motor.md). -/
def spindle_OBS_VALID : RegField := ⟨297, .spindle, 0x4, 0, 1, 12, 12, .RO, 0⟩
/-- R328 (12_spindle_motor.md). -/
def spindle_FW_ACTIVE : RegField := ⟨298, .spindle, 0x4, 0, 1, 13, 13, .RO, 0⟩
/-- R328 (12_spindle_motor.md). -/
def spindle_LOCKED : RegField := ⟨299, .spindle, 0x4, 0, 1, 14, 14, .RO, 0⟩
/-- R328 (12_spindle_motor.md). -/
def spindle_SPEED_SEL : RegField := ⟨300, .spindle, 0x4, 0, 1, 15, 15, .RO, 0⟩
/-- R328 (12_spindle_motor.md). -/
def spindle_SPD_EST : RegField := ⟨301, .spindle, 0x8, 0, 1, 31, 0, .RO, 0⟩
/-- R328 (12_spindle_motor.md). -/
def spindle_SPD_REF : RegField := ⟨302, .spindle, 0xc, 0, 1, 31, 0, .RO, 0⟩
/-- R328 (12_spindle_motor.md). -/
def spindle_ANGLE : RegField := ⟨303, .spindle, 0x10, 0, 1, 15, 0, .RO, 0⟩
/-- R328 (12_spindle_motor.md). -/
def spindle_ID_MEAS : RegField := ⟨304, .spindle, 0x14, 0, 1, 31, 0, .RO, 0⟩
/-- R328 (12_spindle_motor.md). -/
def spindle_IQ_MEAS : RegField := ⟨305, .spindle, 0x18, 0, 1, 31, 0, .RO, 0⟩
/-- R328 (12_spindle_motor.md). -/
def spindle_ID_REF : RegField := ⟨306, .spindle, 0x1c, 0, 1, 31, 0, .RO, 0⟩
/-- R328 (12_spindle_motor.md). -/
def spindle_VBUS : RegField := ⟨307, .spindle, 0x20, 0, 1, 31, 0, .RO, 0⟩
/-- R328 (12_spindle_motor.md). -/
def spindle_PWM_PERIOD : RegField := ⟨308, .spindle, 0x24, 0, 1, 15, 0, .RW, 2500⟩
/-- R328 (12_spindle_motor.md). -/
def spindle_SHUNT_MIN : RegField := ⟨309, .spindle, 0x24, 0, 1, 23, 16, .RW, 150⟩
/-- R328 (12_spindle_motor.md). -/
def spindle_SHUNT_BACK : RegField := ⟨310, .spindle, 0x24, 0, 1, 31, 24, .RW, 30⟩
/-- R328 (12_spindle_motor.md). -/
def spindle_MOD_MAX : RegField := ⟨311, .spindle, 0x28, 0, 1, 31, 0, .RW, 1064514355⟩
/-- R328 (12_spindle_motor.md). -/
def spindle_ID_MAX : RegField := ⟨312, .spindle, 0x2c, 0, 1, 31, 0, .RW, 1065353216⟩
/-- R328 (12_spindle_motor.md). -/
def spindle_IQ_MAX : RegField := ⟨313, .spindle, 0x30, 0, 1, 31, 0, .RW, 1075838976⟩
/-- R328 (12_spindle_motor.md). -/
def spindle_IQ_BRAKE : RegField := ⟨314, .spindle, 0x34, 0, 1, 31, 0, .RW, 1065353216⟩
/-- R328 (12_spindle_motor.md). -/
def spindle_ID_KP : RegField := ⟨315, .spindle, 0x38, 0, 1, 31, 0, .RW, 1056964608⟩
/-- R328 (12_spindle_motor.md). -/
def spindle_OBS_RES_THR : RegField := ⟨316, .spindle, 0x3c, 0, 1, 31, 0, .RW, 1050253722⟩
/-- R328 (12_spindle_motor.md). -/
def spindle_OBS_BW : RegField := ⟨317, .spindle, 0x40, 0, 1, 31, 0, .RW, 1128792064⟩
/-- R328 (12_spindle_motor.md). -/
def spindle_CATCH_RPM : RegField := ⟨318, .spindle, 0x44, 0, 1, 15, 0, .RW, 300⟩
/-- R328 (12_spindle_motor.md). -/
def spindle_BRAKE_EXIT_RPM : RegField := ⟨319, .spindle, 0x44, 0, 1, 31, 16, .RW, 60⟩
/-- R328 (12_spindle_motor.md). -/
def spindle_ALIGN_MS : RegField := ⟨320, .spindle, 0x48, 0, 1, 15, 0, .RW, 300⟩
/-- R328 (12_spindle_motor.md). -/
def spindle_HANDOFF_RPM : RegField := ⟨321, .spindle, 0x48, 0, 1, 31, 16, .RW, 400⟩
/-- R328 (12_spindle_motor.md). -/
def spindle_ALIGN_I : RegField := ⟨322, .spindle, 0x4c, 0, 1, 31, 0, .RW, 1067030938⟩
/-- R328 (12_spindle_motor.md). -/
def spindle_RAMP_RATE : RegField := ⟨323, .spindle, 0x50, 0, 1, 31, 0, .RW, 1142292480⟩
/-- R328 (12_spindle_motor.md). -/
def spindle_SPD_RAMP : RegField := ⟨324, .spindle, 0x54, 0, 1, 31, 0, .RW, 1145569280⟩
/-- R328 (12_spindle_motor.md). -/
def spindle_BRAKE_I : RegField := ⟨325, .spindle, 0x58, 0, 1, 31, 0, .RW, 1065353216⟩
/-- R328 (12_spindle_motor.md). -/
def spindle_I_TRIP : RegField := ⟨326, .spindle, 0x5c, 0, 1, 31, 0, .RW, 1077936128⟩
/-- R328 (12_spindle_motor.md). -/
def spindle_START_CNT : RegField := ⟨327, .spindle, 0x80, 0, 1, 31, 0, .RO, 0⟩
/-- R328 (12_spindle_motor.md). -/
def spindle_CATCH_CNT : RegField := ⟨328, .spindle, 0x84, 0, 1, 31, 0, .RO, 0⟩
/-- R328 (12_spindle_motor.md). -/
def spindle_BRAKE_CNT : RegField := ⟨329, .spindle, 0x88, 0, 1, 31, 0, .RO, 0⟩
/-- R328 (12_spindle_motor.md). -/
def spindle_OBS_LOSS_CNT : RegField := ⟨330, .spindle, 0x8c, 0, 1, 31, 0, .RO, 0⟩
/-- R328 (12_spindle_motor.md). -/
def spindle_REACQ_OK_CNT : RegField := ⟨331, .spindle, 0x90, 0, 1, 31, 0, .RO, 0⟩
/-- R328 (12_spindle_motor.md). -/
def spindle_RESTART_CNT : RegField := ⟨332, .spindle, 0x94, 0, 1, 31, 0, .RO, 0⟩
/-- R328 (12_spindle_motor.md). -/
def spindle_SHUNT_SKIP_CNT : RegField := ⟨333, .spindle, 0x98, 0, 1, 31, 0, .RO, 0⟩
/-- R328 (12_spindle_motor.md). -/
def spindle_SPINUP_TMO_CNT : RegField := ⟨334, .spindle, 0x9c, 0, 1, 31, 0, .RO, 0⟩
/-- R328 (12_spindle_motor.md). -/
def spindle_FW_PERIODS : RegField := ⟨335, .spindle, 0xa0, 0, 1, 31, 0, .RO, 0⟩
/-- R365 (13_host_queues.md). -/
def qce_SLOT_USED : RegField := ⟨336, .qce, 0x0, 0, 1, 16, 0, .RO, 0⟩
/-- R365 (13_host_queues.md). -/
def qce_SLOT_FREE_MIN : RegField := ⟨337, .qce, 0x4, 0, 1, 16, 0, .RO, 65536⟩
/-- R365 (13_host_queues.md). -/
def qce_NEXT_STAMP_LO : RegField := ⟨338, .qce, 0x8, 0, 1, 31, 0, .RO, 0⟩
/-- R365 (13_host_queues.md). -/
def qce_NEXT_STAMP_HI : RegField := ⟨339, .qce, 0xc, 0, 1, 31, 0, .RO, 0⟩
/-- R365 (13_host_queues.md). -/
def qce_SLOT_WAIT_CNT : RegField := ⟨340, .qce, 0x10, 0, 1, 31, 0, .RO, 0⟩
/-- R365 (13_host_queues.md). -/
def qce_ABORT_OK_CNT : RegField := ⟨341, .qce, 0x14, 0, 1, 31, 0, .RO, 0⟩
/-- R365 (13_host_queues.md). -/
def qce_ABORT_LOST_CNT : RegField := ⟨342, .qce, 0x18, 0, 1, 31, 0, .RO, 0⟩
/-- R365 (13_host_queues.md). -/
def qce_SQDEL_ABORT_CNT : RegField := ⟨343, .qce, 0x1c, 0, 1, 31, 0, .RO, 0⟩
/-- R365 (13_host_queues.md). -/
def qce_FETCH_SHARE : RegField := ⟨344, .qce, 0x20, 4, 4, 31, 0, .RO, 0⟩
/-- R365 (13_host_queues.md). -/
def qce_WIN_SEQ : RegField := ⟨345, .qce, 0x30, 0, 1, 31, 0, .RO, 0⟩
/-- R365 (13_host_queues.md). -/
def qce_BUF_FREE : RegField := ⟨346, .qce, 0x34, 0, 1, 31, 0, .RO, 0⟩
/-- R365 (13_host_queues.md). -/
def qce_BUF_LOW : RegField := ⟨347, .qce, 0x38, 0, 1, 31, 0, .RO, 0⟩
/-- R365 (13_host_queues.md). -/
def qce_BUF_WAIT_CNT : RegField := ⟨348, .qce, 0x3c, 0, 1, 31, 0, .RO, 0⟩
/-- R365 (13_host_queues.md). -/
def qce_OVERLAP_HOLD_CNT : RegField := ⟨349, .qce, 0x40, 0, 1, 31, 0, .RO, 0⟩
/-- R365 (13_host_queues.md). -/
def qce_BUF_HIT_CNT : RegField := ⟨350, .qce, 0x44, 0, 1, 31, 0, .RO, 0⟩
/-- R365 (13_host_queues.md). -/
def qce_ARB_AB : RegField := ⟨351, .qce, 0x48, 0, 1, 2, 0, .RO, 3⟩
/-- R365 (13_host_queues.md). -/
def qce_ARB_LPW : RegField := ⟨352, .qce, 0x48, 0, 1, 15, 8, .RO, 0⟩
/-- R365 (13_host_queues.md). -/
def qce_ARB_MPW : RegField := ⟨353, .qce, 0x48, 0, 1, 23, 16, .RO, 3⟩
/-- R365 (13_host_queues.md). -/
def qce_ARB_HPW : RegField := ⟨354, .qce, 0x48, 0, 1, 31, 24, .RO, 7⟩
/-- R366 (13_host_queues.md). -/
def pcie_LINK_RATE : RegField := ⟨355, .pcie, 0x0, 0, 1, 3, 0, .RO, 0⟩
/-- R366 (13_host_queues.md). -/
def pcie_LINK_WIDTH : RegField := ⟨356, .pcie, 0x0, 0, 1, 9, 4, .RO, 0⟩
/-- R366 (13_host_queues.md). -/
def pcie_FLIT : RegField := ⟨357, .pcie, 0x0, 0, 1, 10, 10, .RO, 0⟩
/-- R366 (13_host_queues.md). -/
def pcie_LINK_UP : RegField := ⟨358, .pcie, 0x0, 0, 1, 11, 11, .RO, 0⟩
/-- R366 (13_host_queues.md). -/
def pcie_DISC_SPEC_CNT : RegField := ⟨359, .pcie, 0x4, 0, 1, 31, 0, .RO, 0⟩
/-- R366 (13_host_queues.md). -/
def pcie_DISC_DOM_CNT : RegField := ⟨360, .pcie, 0x8, 0, 1, 31, 0, .RO, 0⟩
/-- R366 (13_host_queues.md). -/
def pcie_DMA_ERR_CNT : RegField := ⟨361, .pcie, 0xc, 0, 1, 31, 0, .RO, 0⟩
/-- R366 (13_host_queues.md). -/
def pcie_POISON_CNT : RegField := ⟨362, .pcie, 0x10, 0, 1, 31, 0, .RO, 0⟩
/-- R366 (13_host_queues.md). -/
def pcie_CPL_TMO_CNT : RegField := ⟨363, .pcie, 0x14, 0, 1, 31, 0, .RO, 0⟩
/-- R366 (13_host_queues.md). -/
def pcie_CRS_CNT : RegField := ⟨364, .pcie, 0x18, 0, 1, 31, 0, .RO, 0⟩
/-- R388 (14_zones_sanitize_format.md). -/
def zone_OPEN_ZONES : RegField := ⟨365, .zone, 0x0, 0, 1, 15, 0, .RO, 0⟩
/-- R388 (14_zones_sanitize_format.md). -/
def zone_ACTIVE_ZONES : RegField := ⟨366, .zone, 0x0, 0, 1, 31, 16, .RO, 0⟩
/-- R388 (14_zones_sanitize_format.md). -/
def zone_ERASE_OWED : RegField := ⟨367, .zone, 0x4, 0, 1, 31, 0, .RO, 0⟩
/-- R388 (14_zones_sanitize_format.md). -/
def zone_SCAN_LEFT : RegField := ⟨368, .zone, 0x8, 0, 1, 31, 0, .RO, 0⟩
/-- R388 (14_zones_sanitize_format.md). -/
def zone_ZMAP_GEN : RegField := ⟨369, .zone, 0xc, 0, 1, 31, 0, .RO, 0⟩
/-- R388 (14_zones_sanitize_format.md). -/
def zone_ZMAP_FLUSH : RegField := ⟨370, .zone, 0x10, 0, 1, 7, 0, .RW, 10⟩
/-- R388 (14_zones_sanitize_format.md). -/
def zone_CLEAN : RegField := ⟨371, .zone, 0x10, 0, 1, 8, 8, .RO, 0⟩
/-- R388 (14_zones_sanitize_format.md). -/
def zone_IMPLICIT_CLOSE_CNT : RegField := ⟨372, .zone, 0x14, 0, 1, 31, 0, .RO, 0⟩
/-- R388 (14_zones_sanitize_format.md). -/
def zone_SAN_UNITS_DONE : RegField := ⟨373, .zone, 0x18, 0, 1, 31, 0, .RO, 0⟩
/-- R388 (14_zones_sanitize_format.md). -/
def zone_SAN_UNITS_TOTAL : RegField := ⟨374, .zone, 0x1c, 0, 1, 31, 0, .RO, 0⟩
/-- R415 (15_memory_and_granary.md). -/
def ddrCh_TRAINED : RegField := ⟨375, .ddrCh, 0x0, 0, 1, 0, 0, .RO, 0⟩
/-- R415 (15_memory_and_granary.md). -/
def ddrCh_DIMMS : RegField := ⟨376, .ddrCh, 0x0, 0, 1, 2, 1, .RO, 0⟩
/-- R415 (15_memory_and_granary.md). -/
def ddrCh_RANKS : RegField := ⟨377, .ddrCh, 0x0, 0, 1, 5, 4, .RO, 0⟩
/-- R415 (15_memory_and_granary.md). -/
def ddrCh_X8 : RegField := ⟨378, .ddrCh, 0x0, 0, 1, 6, 6, .RO, 0⟩
/-- R415 (15_memory_and_granary.md). -/
def ddrCh_DIMM_GIB : RegField := ⟨379, .ddrCh, 0x0, 0, 1, 15, 8, .RO, 0⟩
/-- R415 (15_memory_and_granary.md). -/
def ddrCh_DIMM_TEMP_0 : RegField := ⟨380, .ddrCh, 0x4, 0, 1, 7, 0, .RO, 0⟩
/-- R415 (15_memory_and_granary.md). -/
def ddrCh_DIMM_TEMP_1 : RegField := ⟨381, .ddrCh, 0x4, 0, 1, 15, 8, .RO, 0⟩
/-- R415 (15_memory_and_granary.md). -/
def ddrCh_REF_2X : RegField := ⟨382, .ddrCh, 0x4, 0, 1, 17, 16, .RO, 0⟩
/-- R415 (15_memory_and_granary.md). -/
def ddrCh_CE_CNT : RegField := ⟨383, .ddrCh, 0x8, 0, 1, 31, 0, .RO, 0⟩
/-- R415 (15_memory_and_granary.md). -/
def ddrCh_UE_CNT : RegField := ⟨384, .ddrCh, 0xc, 0, 1, 31, 0, .RO, 0⟩
/-- R415 (15_memory_and_granary.md). -/
def ddrCh_ERR_ADDR_LO : RegField := ⟨385, .ddrCh, 0x10, 0, 1, 31, 0, .RO, 0⟩
/-- R415 (15_memory_and_granary.md). -/
def ddrCh_ERR_ADDR_HI : RegField := ⟨386, .ddrCh, 0x14, 0, 1, 15, 0, .RO, 0⟩
/-- R415 (15_memory_and_granary.md). -/
def ddrCh_ERR_UE : RegField := ⟨387, .ddrCh, 0x14, 0, 1, 16, 16, .RO, 0⟩
/-- R415 (15_memory_and_granary.md). -/
def ddrCh_ERR_SCRUB : RegField := ⟨388, .ddrCh, 0x14, 0, 1, 17, 17, .RO, 0⟩
/-- R415 (15_memory_and_granary.md). -/
def ddrCh_SCRUB_HOURS : RegField := ⟨389, .ddrCh, 0x18, 0, 1, 7, 0, .RW, 24⟩
/-- R415 (15_memory_and_granary.md). -/
def ddrCh_SCRUB_EN : RegField := ⟨390, .ddrCh, 0x18, 0, 1, 8, 8, .RW, 1⟩
/-- R415 (15_memory_and_granary.md). -/
def ddrCh_SCRUB_PASS_CNT : RegField := ⟨391, .ddrCh, 0x1c, 0, 1, 31, 0, .RO, 0⟩
/-- R415 (15_memory_and_granary.md). -/
def ddrCh_ECC_INJ : RegField := ⟨392, .ddrCh, 0x20, 0, 1, 0, 0, .WO, 0⟩
/-- R415 (15_memory_and_granary.md). -/
def ddr_RATE : RegField := ⟨394, .ddr, 0x0, 0, 1, 1, 0, .RO, 0⟩
/-- R415 (15_memory_and_granary.md). -/
def ddr_FAST_TRAIN : RegField := ⟨395, .ddr, 0x0, 0, 1, 2, 2, .RO, 0⟩
/-- R415 (15_memory_and_granary.md). -/
def ddr_CH_FAIL : RegField := ⟨396, .ddr, 0x0, 0, 1, 7, 4, .RO, 0⟩
/-- R415 (15_memory_and_granary.md). -/
def ddr_TOTAL_MIB : RegField := ⟨397, .ddr, 0x4, 0, 1, 31, 0, .RO, 0⟩
/-- R416 (15_memory_and_granary.md). -/
def gran_WAYS : RegField := ⟨398, .gran, 0x0, 0, 1, 4, 0, .RO, 0⟩
/-- R416 (15_memory_and_granary.md). -/
def gran_LOCK_BUDGET : RegField := ⟨399, .gran, 0x0, 0, 1, 12, 8, .RO, 0⟩
/-- R416 (15_memory_and_granary.md). -/
def gran_LOCK_REFILL : RegField := ⟨400, .gran, 0x0, 0, 1, 16, 16, .RO, 0⟩
/-- R416 (15_memory_and_granary.md). -/
def gran_SETS : RegField := ⟨401, .gran, 0x4, 0, 1, 16, 0, .RO, 0⟩
/-- R416 (15_memory_and_granary.md). -/
def gran_LOCKED_LINES : RegField := ⟨402, .gran, 0x8, 0, 1, 17, 0, .RO, 0⟩
/-- R416 (15_memory_and_granary.md). -/
def gran_GLEAN_USED : RegField := ⟨403, .gran, 0xc, 0, 1, 6, 0, .RO, 0⟩
/-- R416 (15_memory_and_granary.md). -/
def gran_HIT_CNT : RegField := ⟨404, .gran, 0x10, 0, 1, 31, 0, .RO, 0⟩
/-- R416 (15_memory_and_granary.md). -/
def gran_MISS_CNT : RegField := ⟨405, .gran, 0x14, 0, 1, 31, 0, .RO, 0⟩
/-- R416 (15_memory_and_granary.md). -/
def gran_GLEAN_HIT_CNT : RegField := ⟨406, .gran, 0x18, 0, 1, 31, 0, .RO, 0⟩
/-- R416 (15_memory_and_granary.md). -/
def gran_EVICT_RACE_CNT : RegField := ⟨407, .gran, 0x1c, 0, 1, 31, 0, .RO, 0⟩
/-- R416 (15_memory_and_granary.md). -/
def gran_WB_CNT : RegField := ⟨408, .gran, 0x20, 0, 1, 31, 0, .RO, 0⟩
/-- R416 (15_memory_and_granary.md). -/
def gran_CE_CNT : RegField := ⟨409, .gran, 0x24, 0, 1, 31, 0, .RO, 0⟩
/-- R416 (15_memory_and_granary.md). -/
def gran_UE_CNT : RegField := ⟨410, .gran, 0x28, 0, 1, 31, 0, .RO, 0⟩
/-- R416 (15_memory_and_granary.md). -/
def gran_TAG_PAR_CNT : RegField := ⟨411, .gran, 0x2c, 0, 1, 31, 0, .RO, 0⟩
/-- R416 (15_memory_and_granary.md). -/
def gran_LOCK_INVAL_CNT : RegField := ⟨412, .gran, 0x30, 0, 1, 31, 0, .RO, 0⟩
/-- R416 (15_memory_and_granary.md). -/
def gran_LOCK_REFUSED_CNT : RegField := ⟨413, .gran, 0x34, 0, 1, 31, 0, .RO, 0⟩
/-- R416 (15_memory_and_granary.md). -/
def gran_GLEAN_STALL_CNT : RegField := ⟨414, .gran, 0x38, 0, 1, 31, 0, .RO, 0⟩
/-- R416 (15_memory_and_granary.md). -/
def gran_DROP_POISON_CNT : RegField := ⟨415, .gran, 0x3c, 0, 1, 31, 0, .RO, 0⟩
/-- R416 (15_memory_and_granary.md). -/
def gran_ECC_INJ : RegField := ⟨416, .gran, 0x40, 0, 1, 0, 0, .WO, 0⟩
/-- R416 (15_memory_and_granary.md). -/
def gran_TAG_INJ : RegField := ⟨417, .gran, 0x40, 0, 1, 1, 1, .WO, 0⟩
/-- R416 (15_memory_and_granary.md). -/
def slot_BASE_LO : RegField := ⟨419, .slot, 0x0, 0, 1, 31, 7, .RW, 0⟩
/-- R416 (15_memory_and_granary.md). -/
def slot_BASE_HI : RegField := ⟨420, .slot, 0x4, 0, 1, 15, 0, .RW, 0⟩
/-- R416 (15_memory_and_granary.md). -/
def slot_LINES : RegField := ⟨421, .slot, 0x8, 0, 1, 31, 0, .RW, 0⟩
/-- R416 (15_memory_and_granary.md). -/
def slot_OP : RegField := ⟨422, .slot, 0xc, 0, 1, 2, 0, .RW, 0⟩
/-- R416 (15_memory_and_granary.md). -/
def slot_GO : RegField := ⟨423, .slot, 0xc, 0, 1, 8, 8, .WO, 0⟩
/-- R416 (15_memory_and_granary.md). -/
def slot_BUSY : RegField := ⟨424, .slot, 0x10, 0, 1, 0, 0, .RO, 0⟩
/-- R416 (15_memory_and_granary.md). -/
def slot_STATUS : RegField := ⟨425, .slot, 0x10, 0, 1, 3, 1, .RO, 0⟩
/-- R416 (15_memory_and_granary.md). -/
def slot_OWNER : RegField := ⟨426, .slot, 0x10, 0, 1, 15, 8, .RO, 0⟩
/-- R416 (15_memory_and_granary.md). -/
def slot_DONE_LINES : RegField := ⟨427, .slot, 0x14, 0, 1, 31, 0, .RO, 0⟩
/-- R416 (15_memory_and_granary.md). -/
def slot_SKIP_LINES : RegField := ⟨428, .slot, 0x18, 0, 1, 31, 0, .RO, 0⟩
/-- R416 (15_memory_and_granary.md). -/
def slot_LOCK_FULL : RegField := ⟨429, .slot, 0x1c, 0, 1, 31, 0, .RO, 0⟩
/-- R435 (16_thermal_and_calibration.md). -/
def therm_HK_ROUND_CNT : RegField := ⟨430, .therm, 0x0, 0, 1, 31, 0, .RO, 0⟩
/-- R435 (16_thermal_and_calibration.md). -/
def therm_HK_SKIP_CNT : RegField := ⟨431, .therm, 0x4, 0, 1, 31, 0, .RO, 0⟩
/-- R435 (16_thermal_and_calibration.md). -/
def therm_J_TEMP : RegField := ⟨432, .therm, 0x8, 0, 1, 15, 0, .RO, 0⟩
/-- R435 (16_thermal_and_calibration.md). -/
def therm_SENS_VALID : RegField := ⟨433, .therm, 0x8, 0, 1, 31, 16, .RO, 0⟩
/-- R435 (16_thermal_and_calibration.md). -/
def therm_J_ST : RegField := ⟨434, .therm, 0xc, 0, 1, 2, 0, .RO, 0⟩
/-- R435 (16_thermal_and_calibration.md). -/
def therm_J_BAND : RegField := ⟨435, .therm, 0xc, 0, 1, 5, 4, .RO, 0⟩
/-- R435 (16_thermal_and_calibration.md). -/
def therm_J_FRAC : RegField := ⟨436, .therm, 0xc, 0, 1, 14, 8, .RO, 100⟩
/-- R435 (16_thermal_and_calibration.md). -/
def therm_T_TRIM : RegField := ⟨437, .therm, 0x10, 0, 1, 15, 0, .RWL, 0⟩
/-- R435 (16_thermal_and_calibration.md). -/
def therm_T_LAST_J : RegField := ⟨438, .therm, 0x14, 0, 1, 15, 0, .RO, 0⟩
/-- R435 (16_thermal_and_calibration.md). -/
def therm_XSLOT_MS : RegField := ⟨439, .therm, 0x18, 0, 1, 7, 0, .RW, 50⟩
/-- R435 (16_thermal_and_calibration.md). -/
def therm_XDUTY : RegField := ⟨440, .therm, 0x18, 0, 1, 11, 8, .RW, 10⟩
/-- R435 (16_thermal_and_calibration.md). -/
def therm_CAL_DEFER_MAX : RegField := ⟨441, .therm, 0x1c, 0, 1, 15, 0, .RW, 600⟩
/-- R435 (16_thermal_and_calibration.md). -/
def therm_CAL_REQ_C : RegField := ⟨442, .therm, 0x20, 0, 1, 7, 0, .WO, 0⟩
/-- R435 (16_thermal_and_calibration.md). -/
def therm_CAL_BUSY_C : RegField := ⟨443, .therm, 0x24, 0, 1, 7, 0, .RO, 0⟩
/-- R435 (16_thermal_and_calibration.md). -/
def therm_CAL_DEFER_C : RegField := ⟨444, .therm, 0x24, 0, 1, 15, 8, .RO, 0⟩
/-- R435 (16_thermal_and_calibration.md). -/
def therm_REC_SRC_C : RegField := ⟨445, .therm, 0x24, 0, 1, 19, 16, .RO, 0⟩
/-- R435 (16_thermal_and_calibration.md). -/
def therm_CAL_DONE_CNT_C : RegField := ⟨446, .therm, 0x28, 0, 1, 31, 0, .RO, 0⟩
/-- R435 (16_thermal_and_calibration.md). -/
def therm_CAL_ABORT_CNT_C : RegField := ⟨447, .therm, 0x2c, 0, 1, 31, 0, .RO, 0⟩
/-- R435 (16_thermal_and_calibration.md). -/
def therm_CAL_DEFER_CNT_C : RegField := ⟨448, .therm, 0x30, 0, 1, 31, 0, .RO, 0⟩
/-- R435 (16_thermal_and_calibration.md). -/
def therm_SENS_T : RegField := ⟨449, .therm, 0x40, 4, 16, 15, 0, .RO, 0⟩
/-- R435 (16_thermal_and_calibration.md). -/
def therm_SENS_FAIL : RegField := ⟨450, .therm, 0x40, 4, 16, 16, 16, .RO, 0⟩
/-- R435 (16_thermal_and_calibration.md). -/
def therm_SENS_TRIM : RegField := ⟨451, .therm, 0x80, 4, 16, 15, 0, .RWL, 0⟩
/-- R435 (16_thermal_and_calibration.md). -/
def therm_HDA_T : RegField := ⟨452, .therm, 0x100, 4, 32, 15, 0, .RO, 0⟩
/-- R435 (16_thermal_and_calibration.md). -/
def therm_HDA_STALE : RegField := ⟨453, .therm, 0x100, 4, 32, 16, 16, .RO, 0⟩
/-- R435 (16_thermal_and_calibration.md). -/
def therm_H_ST : RegField := ⟨454, .therm, 0x100, 4, 32, 19, 17, .RO, 0⟩
/-- R435 (16_thermal_and_calibration.md). -/
def therm_H_BAND : RegField := ⟨455, .therm, 0x100, 4, 32, 21, 20, .RO, 0⟩
/-- R435 (16_thermal_and_calibration.md). -/
def therm_H_FRAC : RegField := ⟨456, .therm, 0x100, 4, 32, 30, 24, .RO, 100⟩
/-- R435 (16_thermal_and_calibration.md). -/
def therm_HK_VAL : RegField := ⟨457, .therm, 0x200, 4, 96, 31, 0, .RO, 0⟩
/-- R435 (16_thermal_and_calibration.md). -/
def therm_HK_LO : RegField := ⟨458, .therm, 0x400, 4, 96, 15, 0, .RW, 0⟩
/-- R435 (16_thermal_and_calibration.md). -/
def therm_HK_HI : RegField := ⟨459, .therm, 0x400, 4, 96, 31, 16, .RW, 0⟩
/-- R435 (16_thermal_and_calibration.md). -/
def therm_EQ_J0 : RegField := ⟨460, .therm, 0x580, 4, 32, 2, 0, .RW, 0⟩
/-- R435 (16_thermal_and_calibration.md). -/
def therm_EQ_J1 : RegField := ⟨461, .therm, 0x580, 4, 32, 6, 4, .RW, 0⟩
/-- R435 (16_thermal_and_calibration.md). -/
def therm_EQ_J2 : RegField := ⟨462, .therm, 0x580, 4, 32, 10, 8, .RW, 0⟩
/-- R435 (16_thermal_and_calibration.md). -/
def thermAct_CAL_REQ : RegField := ⟨463, .thermAct, 0x0, 0, 1, 7, 0, .WO, 0⟩
/-- R435 (16_thermal_and_calibration.md). -/
def thermAct_CAL_BUSY : RegField := ⟨464, .thermAct, 0x4, 0, 1, 7, 0, .RO, 0⟩
/-- R435 (16_thermal_and_calibration.md). -/
def thermAct_CAL_DEFER : RegField := ⟨465, .thermAct, 0x4, 0, 1, 15, 8, .RO, 0⟩
/-- R435 (16_thermal_and_calibration.md). -/
def thermAct_REC_SRC : RegField := ⟨466, .thermAct, 0x4, 0, 1, 23, 16, .RO, 0⟩
/-- R435 (16_thermal_and_calibration.md). -/
def thermAct_T_LAST_H : RegField := ⟨467, .thermAct, 0x8, 0, 1, 15, 0, .RO, 0⟩
/-- R435 (16_thermal_and_calibration.md). -/
def thermAct_CAL_STALE : RegField := ⟨468, .thermAct, 0x8, 0, 1, 16, 16, .RO, 0⟩
/-- R435 (16_thermal_and_calibration.md). -/
def thermAct_CAL_DONE_CNT : RegField := ⟨469, .thermAct, 0xc, 0, 1, 31, 0, .RO, 0⟩
/-- R435 (16_thermal_and_calibration.md). -/
def thermAct_CAL_ABORT_CNT : RegField := ⟨470, .thermAct, 0x10, 0, 1, 31, 0, .RO, 0⟩
/-- R435 (16_thermal_and_calibration.md). -/
def thermAct_CAL_DEFER_CNT : RegField := ⟨471, .thermAct, 0x14, 0, 1, 31, 0, .RO, 0⟩
/-- R435 (16_thermal_and_calibration.md). -/
def thermAct_XSLOT_US : RegField := ⟨472, .thermAct, 0x18, 0, 1, 16, 0, .RO, 0⟩
/-- R435 (16_thermal_and_calibration.md). -/
def thermAct_MEDIA_CREDIT : RegField := ⟨473, .thermAct, 0x1c, 0, 1, 31, 0, .RO, 10000⟩
/-- R435 (16_thermal_and_calibration.md). -/
def thermAct_FRAC : RegField := ⟨474, .thermAct, 0x20, 0, 1, 6, 0, .RO, 100⟩
/-- R435 (16_thermal_and_calibration.md). -/
def thermAct_CAUSE : RegField := ⟨475, .thermAct, 0x20, 0, 1, 11, 8, .RO, 0⟩
/-- R440 (17_faults_and_safe_state.md). -/
def flt_FLT_STAT : RegField := ⟨476, .flt, 0x0, 0, 1, 15, 0, .W1C, 0⟩
/-- R440 (17_faults_and_safe_state.md). -/
def flt_FLT_ACT : RegField := ⟨477, .flt, 0x4, 0, 1, 15, 0, .RO, 0⟩
/-- R440 (17_faults_and_safe_state.md). -/
def flt_FLT_LATCH : RegField := ⟨478, .flt, 0x8, 0, 1, 15, 0, .RO, 0⟩
/-- R440 (17_faults_and_safe_state.md). -/
def flt_FLT_IE : RegField := ⟨479, .flt, 0xc, 0, 1, 15, 0, .RW, 65535⟩
/-- R440 (17_faults_and_safe_state.md). -/
def flt_FLT_QUIET : RegField := ⟨480, .flt, 0x10, 0, 1, 13, 0, .RW, 20⟩
/-- R440 (17_faults_and_safe_state.md). -/
def flt_FLT_RCV_CNT : RegField := ⟨481, .flt, 0x14, 0, 1, 15, 0, .RO, 0⟩
/-- R440 (17_faults_and_safe_state.md). -/
def flt_LAST_TYPE : RegField := ⟨482, .flt, 0x14, 0, 1, 19, 16, .RO, 0⟩
/-- R440 (17_faults_and_safe_state.md). -/
def flt_FLT_INFO : RegField := ⟨483, .flt, 0x18, 0, 1, 31, 0, .RO, 0⟩
/-- R440 (17_faults_and_safe_state.md). -/
def flt_INJ_ARM : RegField := ⟨484, .flt, 0x1c, 0, 1, 0, 0, .WO, 0⟩
/-- R440 (17_faults_and_safe_state.md). -/
def flt_INJ_BITS : RegField := ⟨485, .flt, 0x1c, 0, 1, 5, 4, .RW, 1⟩
/-- R440 (17_faults_and_safe_state.md). -/
def flt_INJ_SEL : RegField := ⟨486, .flt, 0x1c, 0, 1, 11, 8, .RW, 0⟩
/-- R440 (17_faults_and_safe_state.md). -/
def flt_INJ_CNT : RegField := ⟨487, .flt, 0x1c, 0, 1, 23, 16, .RW, 0⟩
/-- R440 (17_faults_and_safe_state.md). -/
def flt_INJ_ARMED : RegField := ⟨488, .flt, 0x1c, 0, 1, 24, 24, .RO, 0⟩
/-- R440 (17_faults_and_safe_state.md). -/
def flt_FLT_INJ_SRC : RegField := ⟨489, .flt, 0x1c, 0, 1, 31, 31, .RO, 0⟩
/-- R440 (17_faults_and_safe_state.md). -/
def flt_FLT_OCC_CNT : RegField := ⟨490, .flt, 0x20, 0, 1, 31, 0, .RO, 0⟩
/-- R445 (17_faults_and_safe_state.md). -/
def frt_FRT_LOCKED : RegField := ⟨491, .frt, 0x0, 0, 1, 0, 0, .RO, 0⟩
/-- R445 (17_faults_and_safe_state.md). -/
def frt_FRT_CNT : RegField := ⟨492, .frt, 0x0, 0, 1, 24, 16, .RO, 0⟩
/-- R445 (17_faults_and_safe_state.md). -/
def frt_FTYPE : RegField := ⟨493, .frt, 0x100, 4, 256, 15, 0, .RWL, 0⟩
/-- R445 (17_faults_and_safe_state.md). -/
def frt_REACT : RegField := ⟨494, .frt, 0x100, 4, 256, 18, 16, .RWL, 0⟩
/-- R445 (17_faults_and_safe_state.md). -/
def frt_LATCH : RegField := ⟨495, .frt, 0x100, 4, 256, 24, 24, .RWL, 0⟩
/-- R446 (17_faults_and_safe_state.md). -/
def dis_DIS : RegField := ⟨496, .dis, 0x0, 0, 1, 0, 0, .WO, 0⟩
/-- R446 (17_faults_and_safe_state.md). -/
def dis_EN : RegField := ⟨497, .dis, 0x0, 0, 1, 1, 1, .WO, 0⟩
/-- R446 (17_faults_and_safe_state.md). -/
def dis_FORCE : RegField := ⟨498, .dis, 0x0, 0, 1, 2, 2, .WO, 0⟩
/-- R446 (17_faults_and_safe_state.md). -/
def dis_STATE : RegField := ⟨499, .dis, 0x4, 0, 1, 1, 0, .RO, 0⟩
/-- R446 (17_faults_and_safe_state.md). -/
def dis_RES : RegField := ⟨500, .dis, 0x4, 0, 1, 6, 4, .RO, 0⟩
/-- R446 (17_faults_and_safe_state.md). -/
def dis_ACK_GRAINS : RegField := ⟨501, .dis, 0x8, 0, 1, 31, 0, .RO, 0⟩
/-- R446 (17_faults_and_safe_state.md). -/
def dis_FORCE_LOST_CNT : RegField := ⟨502, .dis, 0xc, 0, 1, 31, 0, .RO, 0⟩
/-- R462 (18_almanac.md). -/
def alm_TRACE_DROP_CNT : RegField := ⟨512, .alm, 0x28, 0, 1, 31, 0, .RO, 0⟩
/-- R462 (18_almanac.md). -/
def alm_NOR_DROP_CNT : RegField := ⟨515, .alm, 0x38, 0, 1, 31, 0, .RO, 0⟩
/-- R462 (18_almanac.md). -/
def alm_NOR_ERR_CNT : RegField := ⟨516, .alm, 0x3c, 0, 1, 31, 0, .RO, 0⟩
/-- R462 (18_almanac.md). -/
def alm_SNAP_BREAK_CNT : RegField := ⟨517, .alm, 0x40, 0, 1, 31, 0, .RO, 0⟩
/-- R462 (18_almanac.md). -/
def alm_SNAP_IDLE_CNT : RegField := ⟨518, .alm, 0x44, 0, 1, 31, 0, .RO, 0⟩
/-- R462 (18_almanac.md). -/
def alm_AUDIT_PUT_DROP : RegField := ⟨519, .alm, 0x48, 0, 1, 31, 0, .RO, 0⟩
/-- R462 (18_almanac.md). -/
def alm_PUT_DATA : RegField := ⟨520, .alm, 0x80, 4, 8, 31, 0, .RW, 0⟩
/-- R462 (18_almanac.md). -/
def alm_PUT_CODE : RegField := ⟨521, .alm, 0xa0, 0, 1, 15, 0, .RW, 0⟩
/-- R462 (18_almanac.md). -/
def alm_TRACE_PUT : RegField := ⟨522, .alm, 0xa4, 0, 1, 0, 0, .WO, 0⟩
/-- R462 (18_almanac.md). -/
def alm_AUDIT_PUT : RegField := ⟨523, .alm, 0xa4, 0, 1, 1, 1, .WO, 0⟩
/-- R462 (18_almanac.md). -/
def snap_OPEN : RegField := ⟨524, .snap, 0x0, 0, 1, 0, 0, .WO, 0⟩
/-- R462 (18_almanac.md). -/
def snap_CLOSE : RegField := ⟨525, .snap, 0x0, 0, 1, 1, 1, .WO, 0⟩
/-- R462 (18_almanac.md). -/
def snap_ST : RegField := ⟨526, .snap, 0x4, 0, 1, 1, 0, .RO, 0⟩
/-- R462 (18_almanac.md). -/
def snap_FIRST_LO : RegField := ⟨527, .snap, 0x8, 0, 1, 31, 0, .RO, 0⟩
/-- R462 (18_almanac.md). -/
def snap_FIRST_HI : RegField := ⟨528, .snap, 0xc, 0, 1, 31, 0, .RO, 0⟩
/-- R462 (18_almanac.md). -/
def snap_LAST_LO : RegField := ⟨529, .snap, 0x10, 0, 1, 31, 0, .RO, 0⟩
/-- R462 (18_almanac.md). -/
def snap_LAST_HI : RegField := ⟨530, .snap, 0x14, 0, 1, 31, 0, .RO, 0⟩
/-- R462 (18_almanac.md). -/
def snap_IDX_LO : RegField := ⟨531, .snap, 0x18, 0, 1, 31, 0, .RW, 0⟩
/-- R462 (18_almanac.md). -/
def snap_IDX_HI : RegField := ⟨532, .snap, 0x1c, 0, 1, 31, 0, .RW, 0⟩
/-- R483 (19_orrery_fabric.md). -/
def orr_ROLE_SRC : RegField := ⟨533, .orr, 0x0, 0, 1, 1, 0, .RWL, 0⟩
/-- R483 (19_orrery_fabric.md). -/
def orr_PRIO : RegField := ⟨534, .orr, 0x0, 0, 1, 15, 8, .RWL, 0⟩
/-- R483 (19_orrery_fabric.md). -/
def orr_PTP_BC : RegField := ⟨535, .orr, 0x0, 0, 1, 16, 16, .RWL, 0⟩
/-- R483 (19_orrery_fabric.md). -/
def orr_CAL_GATE : RegField := ⟨536, .orr, 0x0, 0, 1, 17, 17, .RWL, 0⟩
/-- R483 (19_orrery_fabric.md). -/
def orr_PTP_DOMAIN : RegField := ⟨537, .orr, 0x0, 0, 1, 31, 24, .RWL, 0⟩
/-- R483 (19_orrery_fabric.md). -/
def orr_RACK_BUDGET : RegField := ⟨538, .orr, 0x4, 0, 1, 31, 0, .RWL, 0⟩
/-- R483 (19_orrery_fabric.md). -/
def orr_RACK_MARGIN : RegField := ⟨539, .orr, 0x8, 0, 1, 15, 0, .RWL, 5000⟩
/-- R483 (19_orrery_fabric.md). -/
def orr_ABSENT_HOLD : RegField := ⟨540, .orr, 0x8, 0, 1, 31, 16, .RWL, 300⟩
/-- R483 (19_orrery_fabric.md). -/
def orr_HDA_W : RegField := ⟨541, .orr, 0xc, 0, 1, 7, 0, .RWL, 80⟩
/-- R483 (19_orrery_fabric.md). -/
def orr_RUN_W : RegField := ⟨542, .orr, 0xc, 0, 1, 15, 8, .RWL, 50⟩
/-- R483 (19_orrery_fabric.md). -/
def orr_ROLE : RegField := ⟨543, .orr, 0x10, 0, 1, 1, 0, .RO, 0⟩
/-- R483 (19_orrery_fabric.md). -/
def orr_STRAP : RegField := ⟨544, .orr, 0x10, 0, 1, 2, 2, .RO, 0⟩
/-- R483 (19_orrery_fabric.md). -/
def orr_PTP_LOCK : RegField := ⟨545, .orr, 0x10, 0, 1, 3, 3, .RO, 0⟩
/-- R483 (19_orrery_fabric.md). -/
def orr_PORT_UP : RegField := ⟨546, .orr, 0x10, 0, 1, 5, 4, .RO, 0⟩
/-- R483 (19_orrery_fabric.md). -/
def orr_MEMBER_ID : RegField := ⟨547, .orr, 0x14, 0, 1, 9, 0, .RO, 1023⟩
/-- R483 (19_orrery_fabric.md). -/
def orr_MGR_ID : RegField := ⟨548, .orr, 0x14, 0, 1, 25, 16, .RO, 1023⟩
/-- R483 (19_orrery_fabric.md). -/
def orr_MGR_EPOCH : RegField := ⟨549, .orr, 0x18, 0, 1, 31, 0, .RO, 0⟩
/-- R483 (19_orrery_fabric.md). -/
def orr_STANDBY_ID : RegField := ⟨550, .orr, 0x1c, 0, 1, 9, 0, .RO, 1023⟩
/-- R483 (19_orrery_fabric.md). -/
def orr_MEMBERS : RegField := ⟨551, .orr, 0x1c, 0, 1, 25, 16, .RO, 0⟩
/-- R483 (19_orrery_fabric.md). -/
def orr_TOKEN_W_HELD : RegField := ⟨552, .orr, 0x20, 0, 1, 31, 0, .RO, 0⟩
/-- R483 (19_orrery_fabric.md). -/
def orr_TOKENS_HELD : RegField := ⟨553, .orr, 0x24, 0, 1, 4, 0, .RO, 0⟩
/-- R483 (19_orrery_fabric.md). -/
def orr_STANDING_HELD : RegField := ⟨554, .orr, 0x24, 0, 1, 8, 8, .RO, 0⟩
/-- R483 (19_orrery_fabric.md). -/
def orr_REQ_PEND : RegField := ⟨555, .orr, 0x24, 0, 1, 9, 9, .RO, 0⟩
/-- R483 (19_orrery_fabric.md). -/
def orr_COMMITTED : RegField := ⟨556, .orr, 0x28, 0, 1, 31, 0, .RO, 0⟩
/-- R483 (19_orrery_fabric.md). -/
def orr_PTP_OFS : RegField := ⟨557, .orr, 0x2c, 0, 1, 31, 0, .RO, 0⟩
/-- R483 (19_orrery_fabric.md). -/
def orr_STEADY : RegField := ⟨558, .orr, 0x30, 0, 1, 31, 0, .RO, 0⟩
/-- R483 (19_orrery_fabric.md). -/
def orr_HB_MISS_CNT : RegField := ⟨559, .orr, 0x34, 0, 1, 31, 0, .RO, 0⟩
/-- R483 (19_orrery_fabric.md). -/
def orr_TAKEOVER_CNT : RegField := ⟨560, .orr, 0x38, 0, 1, 31, 0, .RO, 0⟩

end Reg

/-- Every field of block `status`. -/
def Regs.statusFields : List RegField :=
  [Reg.status_ISLAND_DROP, Reg.status_COPY, Reg.status_LOCKED, Reg.status_BUNDLE, Reg.status_FAIL_A, 
   Reg.status_FAIL_B, Reg.status_LIVE_CNT, Reg.status_SEC_VER, Reg.status_SEC_FLOOR, Reg.status_BUILD_SEQ_LO, 
   Reg.status_BUILD_SEQ_HI, Reg.status_PORT_DECL, Reg.status_PORT_BOUND, Reg.status_PORT_CAUSE, 
   Reg.status_CAUSE, Reg.status_DRAIN_INCOMPLETE, Reg.status_BUF_LOST, Reg.status_PWR_CYCLE, Reg.status_CUR_PS, 
   Reg.status_TGT_PS, Reg.status_PS_BUSY, Reg.status_SPIN_LOCKED]

/-- Every field of block `port`. -/
def Regs.portFields : List RegField :=
  [Reg.port_RETRAIN, Reg.port_DOWN, Reg.port_PRECODE_ALLOW, Reg.port_EQ_PRESET, Reg.port_STATE, 
   Reg.port_LANE_LOCK, Reg.port_LANES, Reg.port_DESC_COPY, Reg.port_LOSS_CAUSE, Reg.port_TRIES, 
   Reg.port_LOSS_CNT, Reg.port_HE_REV, Reg.port_MAX_LANES, Reg.port_FEC_CORR, Reg.port_FEC_UNCORR, 
   Reg.port_DESKEW, Reg.port_DRIFT_CNT, Reg.port_EQ_STAT, Reg.port_CTL_CRC_ERR, Reg.port_SEQ_GAP, 
   Reg.port_SMP_LOSS, Reg.port_CRED_WRT_A, Reg.port_CRED_WRT_B, Reg.port_CRED_AST_A, Reg.port_CRED_AST_B, 
   Reg.port_CRED_CTL, Reg.port_SERIAL, Reg.port_FL_OFS, Reg.port_FL_LEN, Reg.port_FL_DDR_LO, 
   Reg.port_FL_DDR_HI, Reg.port_FL_CMD, Reg.port_FL_BUSY, Reg.port_FL_STATUS]

/-- Every field of block `demod`. -/
def Regs.demodFields : List RegField :=
  [Reg.demod_REACQ, Reg.demod_ALIGN_SHIFT, Reg.demod_PRESEEK_ACC, Reg.demod_STATE, Reg.demod_TONE_LOCK, 
   Reg.demod_COARSE, Reg.demod_ON_TRACK, Reg.demod_SPEC_TARGET, Reg.demod_MISS_RUN, Reg.demod_SEL_HEAD, 
   Reg.demod_POS, Reg.demod_POS_FRAME, Reg.demod_TARGET, Reg.demod_PES, Reg.demod_PES_NEXT, 
   Reg.demod_SETTLE_TOL, Reg.demod_SETTLE_FRAMES, Reg.demod_READ_TOL, Reg.demod_MA_RANGE, Reg.demod_COARSE_VEL, 
   Reg.demod_FRAME_PERIOD, Reg.demod_MISS_CNT, Reg.demod_LOST_CNT, Reg.demod_TID_ERR_CNT, 
   Reg.demod_BURST_MISS_CNT, Reg.demod_RAD_OFS, Reg.demod_AGE, Reg.demod_TIM_OFS]

/-- Every field of block `engine`. -/
def Regs.engineFields : List RegField :=
  [Reg.engine_RUN, Reg.engine_LOADED, Reg.engine_BOUND_ACT, Reg.engine_IS_SPARE, Reg.engine_MC_VERSION, 
   Reg.engine_MC_SEC_VER, Reg.engine_MC_KEY_IDX, Reg.engine_EPOCH_OP, Reg.engine_EPOCH_SRC, 
   Reg.engine_EPOCH_NUM, Reg.engine_RES_EPOCH, Reg.engine_RES_OK, Reg.engine_REASON, Reg.engine_NEXT, 
   Reg.engine_OPEN_CNT, Reg.engine_SLOT_EPOCH, Reg.engine_SLOT_SRC, Reg.engine_SLOT_OPEN, 
   Reg.engine_RUNAHEAD_MAX, Reg.engine_CONF_SPAN, Reg.engine_AGE_LIMIT, Reg.engine_CLASS_SEL, 
   Reg.engine_MQ_VALID, Reg.engine_MQ_DEPTH, Reg.engine_MQ_CLASS_CNT, Reg.engine_OP_DESC, Reg.engine_OP_GO, 
   Reg.engine_OP_BUSY, Reg.engine_OP_STATUS, Reg.engine_EPOCH_STALL_CNT, Reg.engine_WR_REFUSED_CNT, 
   Reg.engine_RA_SETTLED_CNT, Reg.engine_PREEMPT_CNT]

/-- Every field of block `lane`. -/
def Regs.laneFields : List RegField :=
  [Reg.lane_ACT, Reg.lane_IN_USE, Reg.lane_HEAD_MODE, Reg.lane_OTF_ITER, Reg.lane_MS_NORM, Reg.lane_SYNC_TOL, 
   Reg.lane_HYP_EN, Reg.lane_FALLBACK_EN, Reg.lane_DC_SHIFT, Reg.lane_AGC_SHIFT, Reg.lane_AGC_TARGET, 
   Reg.lane_ERASE_THR, Reg.lane_TAP_ADDR, Reg.lane_TAP_DATA, Reg.lane_TAP_COMMIT, Reg.lane_TAP_PEND, 
   Reg.lane_CUR_HEAD, Reg.lane_CUR_TZ, Reg.lane_CUR_KIND, Reg.lane_CTX_USED, Reg.lane_RING_WAIT, 
   Reg.lane_GAIN_A, Reg.lane_GAIN_B, Reg.lane_DC_A, Reg.lane_DC_B, Reg.lane_SYNC_DEV_MEAN, Reg.lane_SECT_CNT, 
   Reg.lane_OK_CNT, Reg.lane_FAIL_CNT, Reg.lane_ITER_SUM, Reg.lane_SYNC_MISS_CNT, Reg.lane_SYNC_FALSE_CNT, 
   Reg.lane_SYNC_INFER_CNT, Reg.lane_SYNC_OFS_CNT, Reg.lane_MULTI_HYP_CNT, Reg.lane_SEAL_CRC_ERR_CNT, 
   Reg.lane_SEAL_LBA_ERR_CNT, Reg.lane_FALLBACK_CNT, Reg.lane_ERASED_CNT, Reg.lane_CAP_COPY_CNT, 
   Reg.lane_CAP_DROP_CNT]

/-- Every field of block `thresh`. -/
def Regs.threshFields : List RegField :=
  [Reg.thresh_CAP_RECORDS, Reg.thresh_CAP_FREE, Reg.thresh_CAP_LOW, Reg.thresh_NOTICE_PEND]

/-- Every field of block `pool`. -/
def Regs.poolFields : List RegField :=
  [Reg.pool_STEP_EN, Reg.pool_REREAD_MAX, Reg.pool_EXT_ALIGN, Reg.pool_DEFER_EN, Reg.pool_RR_OFS1, 
   Reg.pool_RR_OFS2, Reg.pool_STEP4_RESERVE, Reg.pool_ITI_TAPS, Reg.pool_DEEP_ITER, Reg.pool_OUTER, 
   Reg.pool_PAR_AGREE_MAX, Reg.pool_BG_LIMIT, Reg.pool_REMAP_FLUSH, Reg.pool_REC_HELD, Reg.pool_BUSY, 
   Reg.pool_STEP, Reg.pool_ACT, Reg.pool_SLOT, Reg.pool_WORK_CNT]

/-- Every field of block `poolAct`. -/
def Regs.poolActFields : List RegField :=
  [Reg.poolAct_RCV_CNT, Reg.poolAct_URE_CNT, Reg.poolAct_DEFER_CNT, Reg.poolAct_UNRECOV_CNT, 
   Reg.poolAct_REALLOC_CNT, Reg.poolAct_ZSPARE_FULL_CNT, Reg.poolAct_CONV_SPARE_FREE, 
   Reg.poolAct_REMAP_ENTRIES, Reg.poolAct_LOST_RANGES, Reg.poolAct_REMAP_GEN, Reg.poolAct_LOST_GEN, 
   Reg.poolAct_TIMEOUT_CNT]

/-- Every field of block `wa`. -/
def Regs.waFields : List RegField :=
  [Reg.wa_WG_TOL, Reg.wa_REOPEN_FRAMES, Reg.wa_WG_AGE_MAX, Reg.wa_WG_DAMAGE, Reg.wa_WR_LEAD, 
   Reg.wa_PAR_REFRESH_EN, Reg.wa_GATE_OPEN, Reg.wa_WINDOW, Reg.wa_LASER_AUTO, Reg.wa_CLOSE_CAUSE, Reg.wa_BAND, 
   Reg.wa_WR_HEAD, Reg.wa_LAST_WIN_ID, Reg.wa_ARM_CNT, Reg.wa_CLOSE_CNT, Reg.wa_NOARM_CNT, 
   Reg.wa_SHORT_WIN_CNT, Reg.wa_WIN_REJ_CNT, Reg.wa_DAMAGE_CHK_CNT, Reg.wa_WT_INVALID_CNT, 
   Reg.wa_ASSIST_SAT_CNT, Reg.wa_PAR_STALE, Reg.wa_WT_ADDR, Reg.wa_WT_DATA, Reg.wa_WT_COMMIT, Reg.wa_WT_PEND, 
   Reg.wa_AGING]

/-- Every field of block `unit`. -/
def Regs.unitFields : List RegField :=
  [Reg.unit_ACTIVE_CNT, Reg.unit_EXEC_CNT, Reg.unit_OVERRUN_TOT, Reg.unit_RET_BRAKE_GAIN, Reg.unit_RET_PUSH, 
   Reg.unit_RET_BRAKE_US, Reg.unit_RET_PUSH_MS, Reg.unit_RET_HOLD, Reg.unit_RET_HOLD_MS, Reg.unit_RET_DIR, 
   Reg.unit_WD_CAP_POS, Reg.unit_WD_CAP_LASER, Reg.unit_WD_CAP_SPIN]

/-- Every field of block `loop`. -/
def Regs.loopFields : List RegField :=
  [Reg.loop_ENABLE, Reg.loop_MODE_REQ, Reg.loop_SWAP, Reg.loop_MODE, Reg.loop_SET, Reg.loop_SAT_HI, 
   Reg.loop_SAT_LO, Reg.loop_FROZEN, Reg.loop_SAFE_CAUSE, Reg.loop_PROG_ERR_IDX, Reg.loop_PROG_ERR, 
   Reg.loop_TUNE_ST, Reg.loop_DIV, Reg.loop_WD_AGE, Reg.loop_WD_SAME, Reg.loop_MA_HOLD, Reg.loop_APPLY_DLY, 
   Reg.loop_OUT_MIN, Reg.loop_OUT_MAX, Reg.loop_SAFE_RATE, Reg.loop_MAN_OUT, Reg.loop_Y, Reg.loop_U, 
   Reg.loop_V, Reg.loop_I, Reg.loop_MEAS, Reg.loop_REF, Reg.loop_TS, Reg.loop_AUX, Reg.loop_RUN_CNT, 
   Reg.loop_OVERRUN_CNT, Reg.loop_SAT_CNT, Reg.loop_WD_CNT, Reg.loop_ARITH_CNT, Reg.loop_SWAP_CNT, 
   Reg.loop_RELAY_AMP, Reg.loop_RELAY_HYST, Reg.loop_TUNE_ERR_MAX, Reg.loop_TUNE_CYC, Reg.loop_TUNE_RULE, 
   Reg.loop_TUNE_BASE, Reg.loop_TUNE_TIMEOUT, Reg.loop_TUNE_KU, Reg.loop_TUNE_TU, Reg.loop_TUNE_A, 
   Reg.loop_PROG, Reg.loop_X, Reg.loop_KA, Reg.loop_KB]

/-- Every field of block `spf`. -/
def Regs.spfFields : List RegField :=
  [Reg.spf_SP_POS, Reg.spf_SP_ACC, Reg.spf_SP_FRAME, Reg.spf_SP_EPOCH, Reg.spf_SP_SPEC, Reg.spf_SP_PUSH, 
   Reg.spf_SP_DEPTH, Reg.spf_SP_RES, Reg.spf_SP_HOLD_POS, Reg.spf_SP_LATE_CNT, Reg.spf_SP_DECEL]

/-- Every field of block `spindle`. -/
def Regs.spindleFields : List RegField :=
  [Reg.spindle_SPIN_CMD, Reg.spindle_SPIN_STATE, Reg.spindle_START_PATH, Reg.spindle_SPIN_RES, 
   Reg.spindle_OBS_VALID, Reg.spindle_FW_ACTIVE, Reg.spindle_LOCKED, Reg.spindle_SPEED_SEL, 
   Reg.spindle_SPD_EST, Reg.spindle_SPD_REF, Reg.spindle_ANGLE, Reg.spindle_ID_MEAS, Reg.spindle_IQ_MEAS, 
   Reg.spindle_ID_REF, Reg.spindle_VBUS, Reg.spindle_PWM_PERIOD, Reg.spindle_SHUNT_MIN, Reg.spindle_SHUNT_BACK, 
   Reg.spindle_MOD_MAX, Reg.spindle_ID_MAX, Reg.spindle_IQ_MAX, Reg.spindle_IQ_BRAKE, Reg.spindle_ID_KP, 
   Reg.spindle_OBS_RES_THR, Reg.spindle_OBS_BW, Reg.spindle_CATCH_RPM, Reg.spindle_BRAKE_EXIT_RPM, 
   Reg.spindle_ALIGN_MS, Reg.spindle_HANDOFF_RPM, Reg.spindle_ALIGN_I, Reg.spindle_RAMP_RATE, 
   Reg.spindle_SPD_RAMP, Reg.spindle_BRAKE_I, Reg.spindle_I_TRIP, Reg.spindle_START_CNT, Reg.spindle_CATCH_CNT, 
   Reg.spindle_BRAKE_CNT, Reg.spindle_OBS_LOSS_CNT, Reg.spindle_REACQ_OK_CNT, Reg.spindle_RESTART_CNT, 
   Reg.spindle_SHUNT_SKIP_CNT, Reg.spindle_SPINUP_TMO_CNT, Reg.spindle_FW_PERIODS]

/-- Every field of block `qce`. -/
def Regs.qceFields : List RegField :=
  [Reg.qce_SLOT_USED, Reg.qce_SLOT_FREE_MIN, Reg.qce_NEXT_STAMP_LO, Reg.qce_NEXT_STAMP_HI, 
   Reg.qce_SLOT_WAIT_CNT, Reg.qce_ABORT_OK_CNT, Reg.qce_ABORT_LOST_CNT, Reg.qce_SQDEL_ABORT_CNT, 
   Reg.qce_FETCH_SHARE, Reg.qce_WIN_SEQ, Reg.qce_BUF_FREE, Reg.qce_BUF_LOW, Reg.qce_BUF_WAIT_CNT, 
   Reg.qce_OVERLAP_HOLD_CNT, Reg.qce_BUF_HIT_CNT, Reg.qce_ARB_AB, Reg.qce_ARB_LPW, Reg.qce_ARB_MPW, 
   Reg.qce_ARB_HPW]

/-- Every field of block `pcie`. -/
def Regs.pcieFields : List RegField :=
  [Reg.pcie_LINK_RATE, Reg.pcie_LINK_WIDTH, Reg.pcie_FLIT, Reg.pcie_LINK_UP, Reg.pcie_DISC_SPEC_CNT, 
   Reg.pcie_DISC_DOM_CNT, Reg.pcie_DMA_ERR_CNT, Reg.pcie_POISON_CNT, Reg.pcie_CPL_TMO_CNT, Reg.pcie_CRS_CNT]

/-- Every field of block `zone`. -/
def Regs.zoneFields : List RegField :=
  [Reg.zone_OPEN_ZONES, Reg.zone_ACTIVE_ZONES, Reg.zone_ERASE_OWED, Reg.zone_SCAN_LEFT, Reg.zone_ZMAP_GEN, 
   Reg.zone_ZMAP_FLUSH, Reg.zone_CLEAN, Reg.zone_IMPLICIT_CLOSE_CNT, Reg.zone_SAN_UNITS_DONE, 
   Reg.zone_SAN_UNITS_TOTAL]

/-- Every field of block `ddrCh`. -/
def Regs.ddrChFields : List RegField :=
  [Reg.ddrCh_TRAINED, Reg.ddrCh_DIMMS, Reg.ddrCh_RANKS, Reg.ddrCh_X8, Reg.ddrCh_DIMM_GIB, 
   Reg.ddrCh_DIMM_TEMP_0, Reg.ddrCh_DIMM_TEMP_1, Reg.ddrCh_REF_2X, Reg.ddrCh_CE_CNT, Reg.ddrCh_UE_CNT, 
   Reg.ddrCh_ERR_ADDR_LO, Reg.ddrCh_ERR_ADDR_HI, Reg.ddrCh_ERR_UE, Reg.ddrCh_ERR_SCRUB, Reg.ddrCh_SCRUB_HOURS, 
   Reg.ddrCh_SCRUB_EN, Reg.ddrCh_SCRUB_PASS_CNT, Reg.ddrCh_ECC_INJ]

/-- Every field of block `ddr`. -/
def Regs.ddrFields : List RegField :=
  [Reg.ddr_RATE, Reg.ddr_FAST_TRAIN, Reg.ddr_CH_FAIL, Reg.ddr_TOTAL_MIB]

/-- Every field of block `gran`. -/
def Regs.granFields : List RegField :=
  [Reg.gran_WAYS, Reg.gran_LOCK_BUDGET, Reg.gran_LOCK_REFILL, Reg.gran_SETS, Reg.gran_LOCKED_LINES, 
   Reg.gran_GLEAN_USED, Reg.gran_HIT_CNT, Reg.gran_MISS_CNT, Reg.gran_GLEAN_HIT_CNT, Reg.gran_EVICT_RACE_CNT, 
   Reg.gran_WB_CNT, Reg.gran_CE_CNT, Reg.gran_UE_CNT, Reg.gran_TAG_PAR_CNT, Reg.gran_LOCK_INVAL_CNT, 
   Reg.gran_LOCK_REFUSED_CNT, Reg.gran_GLEAN_STALL_CNT, Reg.gran_DROP_POISON_CNT, Reg.gran_ECC_INJ, 
   Reg.gran_TAG_INJ]

/-- Every field of block `slot`. -/
def Regs.slotFields : List RegField :=
  [Reg.slot_BASE_LO, Reg.slot_BASE_HI, Reg.slot_LINES, Reg.slot_OP, Reg.slot_GO, Reg.slot_BUSY, 
   Reg.slot_STATUS, Reg.slot_OWNER, Reg.slot_DONE_LINES, Reg.slot_SKIP_LINES, Reg.slot_LOCK_FULL]

/-- Every field of block `therm`. -/
def Regs.thermFields : List RegField :=
  [Reg.therm_HK_ROUND_CNT, Reg.therm_HK_SKIP_CNT, Reg.therm_J_TEMP, Reg.therm_SENS_VALID, Reg.therm_J_ST, 
   Reg.therm_J_BAND, Reg.therm_J_FRAC, Reg.therm_T_TRIM, Reg.therm_T_LAST_J, Reg.therm_XSLOT_MS, 
   Reg.therm_XDUTY, Reg.therm_CAL_DEFER_MAX, Reg.therm_CAL_REQ_C, Reg.therm_CAL_BUSY_C, Reg.therm_CAL_DEFER_C, 
   Reg.therm_REC_SRC_C, Reg.therm_CAL_DONE_CNT_C, Reg.therm_CAL_ABORT_CNT_C, Reg.therm_CAL_DEFER_CNT_C, 
   Reg.therm_SENS_T, Reg.therm_SENS_FAIL, Reg.therm_SENS_TRIM, Reg.therm_HDA_T, Reg.therm_HDA_STALE, 
   Reg.therm_H_ST, Reg.therm_H_BAND, Reg.therm_H_FRAC, Reg.therm_HK_VAL, Reg.therm_HK_LO, Reg.therm_HK_HI, 
   Reg.therm_EQ_J0, Reg.therm_EQ_J1, Reg.therm_EQ_J2]

/-- Every field of block `thermAct`. -/
def Regs.thermActFields : List RegField :=
  [Reg.thermAct_CAL_REQ, Reg.thermAct_CAL_BUSY, Reg.thermAct_CAL_DEFER, Reg.thermAct_REC_SRC, 
   Reg.thermAct_T_LAST_H, Reg.thermAct_CAL_STALE, Reg.thermAct_CAL_DONE_CNT, Reg.thermAct_CAL_ABORT_CNT, 
   Reg.thermAct_CAL_DEFER_CNT, Reg.thermAct_XSLOT_US, Reg.thermAct_MEDIA_CREDIT, Reg.thermAct_FRAC, 
   Reg.thermAct_CAUSE]

/-- Every field of block `flt`. -/
def Regs.fltFields : List RegField :=
  [Reg.flt_FLT_STAT, Reg.flt_FLT_ACT, Reg.flt_FLT_LATCH, Reg.flt_FLT_IE, Reg.flt_FLT_QUIET, 
   Reg.flt_FLT_RCV_CNT, Reg.flt_LAST_TYPE, Reg.flt_FLT_INFO, Reg.flt_INJ_ARM, Reg.flt_INJ_BITS, 
   Reg.flt_INJ_SEL, Reg.flt_INJ_CNT, Reg.flt_INJ_ARMED, Reg.flt_FLT_INJ_SRC, Reg.flt_FLT_OCC_CNT]

/-- Every field of block `frt`. -/
def Regs.frtFields : List RegField :=
  [Reg.frt_FRT_LOCKED, Reg.frt_FRT_CNT, Reg.frt_FTYPE, Reg.frt_REACT, Reg.frt_LATCH]

/-- Every field of block `dis`. -/
def Regs.disFields : List RegField :=
  [Reg.dis_DIS, Reg.dis_EN, Reg.dis_FORCE, Reg.dis_STATE, Reg.dis_RES, Reg.dis_ACK_GRAINS, 
   Reg.dis_FORCE_LOST_CNT]

/-- Every field of block `alm`. -/
def Regs.almFields : List RegField :=
  [
   Reg.alm_TRACE_DROP_CNT, 
   Reg.alm_NOR_DROP_CNT, Reg.alm_NOR_ERR_CNT, 
   Reg.alm_SNAP_BREAK_CNT, Reg.alm_SNAP_IDLE_CNT, Reg.alm_AUDIT_PUT_DROP, Reg.alm_PUT_DATA, Reg.alm_PUT_CODE, 
   Reg.alm_TRACE_PUT, Reg.alm_AUDIT_PUT]

/-- Every field of block `snap`. -/
def Regs.snapFields : List RegField :=
  [Reg.snap_OPEN, Reg.snap_CLOSE, Reg.snap_ST, Reg.snap_FIRST_LO, Reg.snap_FIRST_HI, Reg.snap_LAST_LO, 
   Reg.snap_LAST_HI, Reg.snap_IDX_LO, Reg.snap_IDX_HI]

/-- Every field of block `orr`. -/
def Regs.orrFields : List RegField :=
  [Reg.orr_ROLE_SRC, Reg.orr_PRIO, Reg.orr_PTP_BC, Reg.orr_CAL_GATE, Reg.orr_PTP_DOMAIN, Reg.orr_RACK_BUDGET, 
   Reg.orr_RACK_MARGIN, Reg.orr_ABSENT_HOLD, Reg.orr_HDA_W, Reg.orr_RUN_W, Reg.orr_ROLE, Reg.orr_STRAP, 
   Reg.orr_PTP_LOCK, Reg.orr_PORT_UP, Reg.orr_MEMBER_ID, Reg.orr_MGR_ID, Reg.orr_MGR_EPOCH, Reg.orr_STANDBY_ID, 
   Reg.orr_MEMBERS, Reg.orr_TOKEN_W_HELD, Reg.orr_TOKENS_HELD, Reg.orr_STANDING_HELD, Reg.orr_REQ_PEND, 
   Reg.orr_COMMITTED, Reg.orr_PTP_OFS, Reg.orr_STEADY, Reg.orr_HB_MISS_CNT, Reg.orr_TAKEOVER_CNT]

/-- The fields of a block. -/
def Regs.ofBlk (b : Blk) : List RegField :=
  match b with
  | .status => Regs.statusFields
  | .port => Regs.portFields
  | .demod => Regs.demodFields
  | .engine => Regs.engineFields
  | .lane => Regs.laneFields
  | .thresh => Regs.threshFields
  | .pool => Regs.poolFields
  | .poolAct => Regs.poolActFields
  | .wa => Regs.waFields
  | .unit => Regs.unitFields
  | .loop => Regs.loopFields
  | .spf => Regs.spfFields
  | .spindle => Regs.spindleFields
  | .qce => Regs.qceFields
  | .pcie => Regs.pcieFields
  | .zone => Regs.zoneFields
  | .ddrCh => Regs.ddrChFields
  | .ddr => Regs.ddrFields
  | .gran => Regs.granFields
  | .slot => Regs.slotFields
  | .therm => Regs.thermFields
  | .thermAct => Regs.thermActFields
  | .flt => Regs.fltFields
  | .frt => Regs.frtFields
  | .dis => Regs.disFields
  | .alm => Regs.almFields
  | .snap => Regs.snapFields
  | .orr => Regs.orrFields

/-- The register file right after a reset that reloads structure: nothing but the channel limits whose defaults R420
gives per channel (nominal ± 5 % of the eight die rails of R485, in mV, and 20,000 mA for channels 88 to 91). DEDUCED: log 10. -/
def Regs.resetFile : List (Nat × BitVec 32) :=
  [(Reg.therm_HK_LO.key 0 80, 713),
   (Reg.therm_HK_LO.key 0 81, 760),
   (Reg.therm_HK_LO.key 0 82, 855),
   (Reg.therm_HK_LO.key 0 83, 1140),
   (Reg.therm_HK_LO.key 0 84, 855),
   (Reg.therm_HK_LO.key 0 85, 1140),
   (Reg.therm_HK_LO.key 0 86, 1045),
   (Reg.therm_HK_LO.key 0 87, 760),
   (Reg.therm_HK_HI.key 0 80, 787),
   (Reg.therm_HK_HI.key 0 81, 840),
   (Reg.therm_HK_HI.key 0 82, 945),
   (Reg.therm_HK_HI.key 0 83, 1260),
   (Reg.therm_HK_HI.key 0 84, 945),
   (Reg.therm_HK_HI.key 0 85, 1260),
   (Reg.therm_HK_HI.key 0 86, 1155),
   (Reg.therm_HK_HI.key 0 87, 840),
   (Reg.therm_HK_HI.key 0 88, 20000),
   (Reg.therm_HK_HI.key 0 89, 20000),
   (Reg.therm_HK_HI.key 0 90, 20000),
   (Reg.therm_HK_HI.key 0 91, 20000)]

end Sys2Proof.Machine
end

