-- ==== Sys2Proof/Config.lean ====
section
/-!
DEFINITION. Config.lean: what the spec leaves to the part or leaves open. Every constant is opaque: no proof sees a
value of it, so a statement that uses one holds for every value. Most take the counter `State.fresh`, so that two uses
in one run are two independent values; the assumption log names each.
-/

namespace Sys2Proof.Config

/-- SHA-384 of a byte string, 48 bytes as a number (R33, R48 step 3); the standard's text is outside the spec. Log 3. -/
opaque sha384 : List Byte → Nat

/-- ECDSA P-384: message, public key (x then y) and signature (r then s), each as stored (R33, R48 step 4). DESIGN CHOICE: log 3. -/
opaque ecdsaVerify : List Byte → List Byte → List Byte → Bool

/-- A generated media key (R69): the word Husk's random source gives at that draw. DESIGN CHOICE: log 3. -/
opaque randomKey : Nat → Nat

/-- AES-256-XTS of one 4,096-byte sector under a media key and LBA (R69). DESIGN CHOICE: log 3. -/
opaque xtsEncrypt : Nat → Nat → List Byte → List Byte
/-- DESIGN CHOICE: log 3. -/
opaque xtsDecrypt : Nat → Nat → List Byte → List Byte

/-- AES key wrap of a media key under the key-encryption key, and its inverse (R148); the standard's text is outside the spec. DESIGN CHOICE: log 3. -/
opaque keyWrap : Nat → Nat → List Byte
/-- DESIGN CHOICE: log 3. -/
opaque keyUnwrap : Nat → List Byte → Option Nat

/-- The CODE and DATA of an Almanac record whose code the spec does not number (R451, R453). Log 4. -/
opaque recordCode : Nat → BitVec 16
/-- DESIGN CHOICE: log 4. -/
opaque recordData : Nat → List Byte

/-- A physical quantity the model does not compute (observer, analogue codes, probe results); argument: a fresh count. -/
opaque analogue : Nat → Word

/-- An NVMe-MI response message of a status to a request (R77); the NVMe-MI standard's text is outside the spec. -/
opaque miReply : Nat → List Byte → List Byte

/-- Bytes that a failed NOR write leaves. DESIGN CHOICE: log 8. -/
opaque mediaBytes : Nat → List Byte

/-- Byte `i` of a log page or data structure that the spec leaves to NVMe or to the part. DESIGN CHOICE: log 8, PRESUMED: log 34. -/
opaque logByte : Nat → Nat → Byte

/-- Byte `j` of the pseudo-random payload of calibration test sector `i` (R428). DESIGN CHOICE: log 186. -/
opaque testByte : Nat → Nat → Byte

/-- A byte of the Husk boot ROM or of the OTP region, by address (R22), which the spec does not give (log 151). -/
opaque huskByte : Nat → Byte

/-- A key derived from the device root secret at a boot (R68): 0 the identity key, 1 the key-encryption key. DESIGN CHOICE: log 3. -/
opaque deriveKey : Nat → BitVec 256 → Nat

/-- A head's radial position within its data track from the P and Q amplitudes of readers a and b, 0 for one not in use (R174): the spec gives
the amplitudes' meaning and no formula (log 163). -/
opaque nullPos : Int → Int → Int → Int → Int

/-- A front end's next digital gain, from its gain and output, where AGC_TARGET is 0 and R215 gives no quotient (log 169). -/
opaque agcZero : Int → Int → Int

/-- A word whose value the spec leaves open. DESIGN CHOICE: log 8. -/
opaque freeWord : Nat → Word

/-- An integer figure the spec leaves open. DESIGN CHOICE: log 8. -/
opaque freeNat : Nat → Nat

/-- The result of a binary32 operation (0 to 6: add, subtract, multiply, divide, square root, least, greatest) on operands for which it has
none that is finite, outside a loop program (log 40). -/
opaque floatOpen : Nat → Word → Word → Word

/-- The figure, in units of 2^-149, that an infinity or a NaN stands for where it is used as a number. DESIGN CHOICE: log 40. -/
opaque floatInt : Word → Int

/-- Where in partition 4, from its first byte, an object is staged (R339, R479), which the spec does not give (log 35). -/
opaque stageOffset : Nat → Nat

/-- What DDR training leaves in entry `i` of a calibration record of kind 1, which the spec does not give (log 41). -/
opaque ddrDelay : Nat → BitVec 48

end Sys2Proof.Config
end

