-- ==== Sys2Proof/Machine/Sheaf.lean ====
section
/-!
DEFINITION. Machine/Sheaf.lean: byte strings, CRCs, and the Sheaf image of 02_sheaf_image.md: its records as data, its
parser, and the validation steps of R48.
-/

namespace Sys2Proof.Machine

/-! ### Little-endian bytes (R31) -/

/-- Byte `i` of a string; a byte beyond it reads as erased flash, 0xFF (R75). -/
def byteAt (b : List Byte) (i : Nat) : Nat := (b.getD i 0xFF).toNat

/-- `n` bytes from `i`, little-endian. -/
def leAt (b : List Byte) (i n : Nat) : Nat :=
  match n with
  | 0 => 0
  | n + 1 => byteAt b i + 256 * leAt b (i + 1) n

def le16 (b : List Byte) (i : Nat) : Nat := leAt b i 2
def le32 (b : List Byte) (i : Nat) : Nat := leAt b i 4
def le64 (b : List Byte) (i : Nat) : Nat := leAt b i 8

/-- `n` bytes from `i`, big-endian (R33). -/
def beAt (b : List Byte) (i n : Nat) : Nat := ((b.drop i).take n).foldl (fun a x => a * 256 + x.toNat) 0

/-- `n` little-endian bytes of a number. -/
def toLe (n v : Nat) : List Byte :=
  match n with
  | 0 => []
  | n + 1 => BitVec.ofNat 8 v :: toLe n (v / 256)

/-- Bytes `i` to `i + n − 1` are all zero. -/
def zeroBytes (b : List Byte) (i n : Nat) : Bool := ((b.drop i).take n).all (fun x => x == 0)

/-- One byte into a reflected CRC of the given polynomial: eight right shifts. -/
def crcByte (poly : Nat) (c : Nat) (x : Nat) : Nat :=
  (List.range 8).foldl (fun c _ => if c % 2 = 1 then Nat.xor (c / 2) poly else c / 2) (Nat.xor c x)

/-- CRC-32C: polynomial 0x1EDC6F41 reflected, initial value and final inversion all ones (R13, R451). -/
def crc32c (b : List Byte) : Nat :=
  Nat.xor (b.foldl (fun c x => crcByte 0x82F63B78 c x.toNat) 0xFFFFFFFF) 0xFFFFFFFF

/-- CRC-16 of R131: polynomial 0x1021, initial value 0xFFFF, most significant bit first, no inversion. -/
def crc16 (b : List Byte) : Nat :=
  b.foldl (fun c x =>
    (List.range 8).foldl (fun c _ => if c / 0x8000 % 2 = 1 then Nat.xor (c * 2 % 0x10000) 0x1021 else c * 2 % 0x10000)
      (Nat.xor c (x.toNat * 256))) 0xFFFF

/-! ### The records (R36 to R47) -/

/-- PORT (R36). -/
structure PortRec where
  lanes : Nat
  assist : Nat
  speed : Nat
  sideEn : Nat
  dnMap : Nat
  upMap : Nat
  dnPol : Nat
  upPol : Nat
  eqPreset : Nat
  deriving DecidableEq, Repr

/-- LATTICE (R38). -/
structure LatRec where
  mode : Nat
  lane : Nat
  headMask : Nat
  deriving DecidableEq, Repr

/-- GRANARY (R40). -/
structure GranRec where
  ways : Nat
  lockBudget : Nat
  lockRefill : Bool
  deriving DecidableEq, Repr

/-- One DDR partition (R41). -/
structure PartRec where
  id : Nat
  domain : Nat
  sizeMib : Nat
  baseMib : Nat
  deriving DecidableEq, Repr

/-- CLOCKS (R42). -/
structure ClockRec where
  c2 : Nat
  c4 : Nat
  c7 : Nat
  deriving DecidableEq, Repr

/-- One channel of MAILBOX (R43). -/
structure MboxRec where
  secure : Bool
  compat : Bool
  size : Nat
  deriving DecidableEq, Repr

/-- QUEUE (R44). -/
structure QueueRec where
  ioqMax : Nat
  msixMax : Nat
  slotUrgent : Nat
  slotAdmin : Nat
  mediaDepth : Nat
  deriving DecidableEq, Repr

/-- THERMAL (R45). -/
structure ThermRec where
  jWarn : Nat
  jThr : Nat
  jShut : Nat
  hWarn : Nat
  hThr : Nat
  hShut : Nat
  hyst : Nat
  k : Nat
  floor : Nat
  calJ : Nat
  calH : Nat
  dimmRef : Nat
  edge0 : Nat
  edge1 : Nat
  edge2 : Nat
  deriving DecidableEq, Repr

/-- One FAULT entry (R46). -/
structure FaultEnt where
  ftype : Nat
  react : Nat
  latch : Bool
  deriving DecidableEq, Repr

/-- ALMANAC (R47). -/
structure AlmRec where
  traceMib : Nat
  auditKib : Nat
  reserveKib : Nat
  norRingMib : Nat
  traceSrc : Nat
  deriving DecidableEq, Repr

/-- The structure an image declares, with the header fields Husk keeps. Lists are indexed by INST. -/
structure Structure where
  keyIdx : Nat
  secVer : Nat
  minFw : Nat
  buildSeq : Nat
  ports : List (Nat × PortRec)
  binds : List (Nat × Nat)
  lattice : List (Nat × LatRec)
  rpool : List Nat
  gran : GranRec
  minGib : Nat
  parts : List PartRec
  clocks : ClockRec
  mailbox : List MboxRec
  queue : QueueRec
  therm : ThermRec
  fault : List FaultEnt
  alm : AlmRec
  deriving DecidableEq, Repr

/-- THERMAL's defaults (R45). -/
def ThermRec.default : ThermRec := ⟨100, 105, 115, 60, 65, 70, 4, 12, 25, 6, 3, 85, 40, 55, 70⟩

/-- The default mailbox map of R43. -/
def MboxRec.defaultMap : List MboxRec :=
  List.replicate 48 ⟨false, false, 0⟩ ++ List.replicate 16 ⟨true, false, 0⟩

/-- The recovery structure of R50. -/
def Structure.recovery : Structure :=
  { keyIdx := 0, secVer := 0, minFw := 0, buildSeq := 0, ports := [], binds := [], lattice := [],
    rpool := List.replicate 16 0, gran := ⟨16, 0, false⟩, minGib := 32,
    parts := [⟨4, 0, 8192, 0⟩, ⟨5, 1, 256, 8192⟩, ⟨7, 0, 1024, 8448⟩],
    clocks := ⟨0, 0, 0⟩, mailbox := MboxRec.defaultMap, queue := ⟨4096, 4097, 0, 1024, 1024⟩,
    therm := ThermRec.default, fault := [], alm := ⟨0, 8192, 1024, 16, 0⟩ }

/-! ### Fault types (R436) -/

/-- Every fault type of R436 with its minimum reaction. -/
def faultTypes : List (Nat × Nat) :=
  [(0x0101, 4), (0x0102, 1), (0x0103, 1), (0x0200, 1), (0x0201, 1), (0x0202, 1), (0x0203, 1), (0x0301, 1), (0x0302, 1),
   (0x0303, 1), (0x0304, 1), (0x0400, 1), (0x0501, 1), (0x0502, 1), (0x0503, 3), (0x0504, 1), (0x0505, 1), (0x0506, 3),
   (0x0600, 1), (0x0601, 2), (0x0602, 2), (0x0700, 1), (0x0701, 1), (0x0702, 1), (0x0800, 1), (0x0801, 1), (0x0802, 1),
   (0x0900, 1), (0x0901, 1), (0x0902, 1), (0x0903, 1), (0x0904, 3), (0x0905, 3), (0x0A00, 1), (0x0A01, 1), (0x0A02, 1),
   (0x0A03, 2), (0x0B00, 1), (0x0B01, 1), (0x0C00, 1), (0x0C01, 4), (0x0C02, 1), (0x0C03, 1)]

/-! ### Signature blocks (R33) -/

/-- One OTP key slot: the digest of PUB_X followed by PUB_Y, and the revoked bit. -/
structure KeySlot where
  digest : Nat
  revoked : Bool
  deriving DecidableEq, Repr

/-- The outcome of verifying a 256-byte block over a message: key check, then signature (R33, R48 steps 3 and 4). -/
inductive SigCheck where
  | ok | key | signature
  deriving DecidableEq, Repr

/-- Verify `blk` over `msg`; `keyIdx` is the object's own KEY_IDX (none: the object has no such field). DESIGN CHOICE: log 3. -/
def sigCheck (slots : List KeySlot) (msg blk : List Byte) (keyIdx : Option Nat) : SigCheck :=
  let idx := le16 blk 2
  if le16 blk 0 = 1 ∧ zeroBytes blk 4 4 = true ∧ zeroBytes blk 0xC8 56 = true ∧ idx < 4
      ∧ (keyIdx = none ∨ keyIdx = some idx) then
    match slots[idx]? with
    | some sl =>
      if sl.digest = Config.sha384 ((blk.drop 8).take 96) ∧ sl.revoked = false then
        if Config.ecdsaVerify msg ((blk.drop 8).take 96) ((blk.drop 0x68).take 96) then .ok else .signature
      else .key
    | none => .key
  else .key

/-! ### The record area (R34, R35) -/

/-- A record as found: TYPE, INST, RFLAGS and its body. -/
structure RawRec where
  type : Nat
  inst : Nat
  rflags : Nat
  body : List Byte
  deriving DecidableEq, Repr

/-- Cut up to `fuel` records from `pos`, stopping after the first END; none where a LEN is below 8, is no multiple of 8
or passes `limit`. The Nat is where the last record ends. -/
def cutRecords (b : List Byte) (fuel pos limit : Nat) : Option (List RawRec × Nat) :=
  match fuel with
  | 0 => some ([], pos)
  | fuel + 1 =>
    let len := le16 b (pos + 2)
    if pos + 8 ≤ limit ∧ 8 ≤ len ∧ len % 8 = 0 ∧ pos + len ≤ limit then
      let r : RawRec := ⟨le16 b pos, le16 b (pos + 4), le16 b (pos + 6), (b.drop (pos + 8)).take (len - 8)⟩
      if r.type = 0xFFFF then some ([r], pos + len)
      else (cutRecords b fuel (pos + len) limit).map (fun p => (r :: p.1, p.2))
    else none

def nibble (m i : Nat) : Nat := m / 16 ^ i % 16

/-- A lane map: a permutation of the physical lanes in use, its unused fields zero (R36). -/
def laneMapOk (lanes m : Nat) : Bool :=
  (List.range lanes).all (fun p => (List.range lanes).any (fun i => nibble m i == p))
    && (List.range 4).all (fun i => i < lanes || nibble m i == 0)

/-- PORT (R36). Of SIDE_EN the rule names bits 0 and 1; a record with another bit set is taken to break the rule. DESIGN CHOICE: log 152. -/
def parsePort (b : List Byte) : Option PortRec :=
  let p : PortRec := ⟨byteAt b 0, byteAt b 1, byteAt b 2, byteAt b 3, le16 b 4, le16 b 6, byteAt b 8, byteAt b 9, byteAt b 10⟩
  if b.length = 16 ∧ (p.lanes = 2 ∨ p.lanes = 4) ∧ p.assist ≤ 2 ∧ p.speed ≤ 1 ∧ 1 ≤ p.sideEn ∧ p.sideEn ≤ 3
      ∧ laneMapOk p.lanes p.dnMap = true ∧ laneMapOk p.lanes p.upMap = true
      ∧ p.dnPol < 2 ^ p.lanes ∧ p.upPol < 2 ^ p.lanes ∧ p.eqPreset ≤ 7 ∧ zeroBytes b 11 5 = true
  then some p else none

def parseBind (b : List Byte) : Option Nat :=
  if b.length = 8 ∧ byteAt b 0 ≤ 67 ∧ zeroBytes b 1 7 = true then some (byteAt b 0) else none

def parseLattice (b : List Byte) : Option LatRec :=
  let m := le16 b 2
  if b.length = 8 ∧ byteAt b 0 ≤ 4 ∧ byteAt b 1 ≤ 63 ∧ m % 2 = 0 ∧ m < 0x800 ∧ zeroBytes b 4 4 = true
  then some ⟨byteAt b 0, byteAt b 1, m⟩ else none

def parseRpool (b : List Byte) : Option (List Nat) :=
  if b.length = 128 then some ((List.range 16).map (fun d => le64 b (8 * d))) else none

/-- WAYS and LOCK_BUDGET's range (R40). -/
def GranRec.ok (g : GranRec) : Bool := (g.ways == 2 || g.ways == 4 || g.ways == 8 || g.ways == 16) && g.lockBudget < g.ways

/-- GRANARY (R40). Of offset 2 the rule names bit 0; a record with another bit set is taken to break the rule. DESIGN CHOICE: log 152. -/
def parseGranary (b : List Byte) : Option GranRec :=
  let g : GranRec := ⟨byteAt b 0, byteAt b 1, byteAt b 2 == 1⟩
  if b.length = 8 ∧ g.ok = true ∧ byteAt b 2 ≤ 1 ∧ zeroBytes b 3 5 = true then some g else none

def parsePart (b : List Byte) : Option PartRec :=
  let p : PartRec := ⟨byteAt b 0, byteAt b 1, le32 b 4, le32 b 8⟩
  if p.id ≤ 7 ∧ p.domain = (if p.id = 5 then 1 else 0) ∧ zeroBytes b 2 2 = true ∧ zeroBytes b 12 4 = true
      ∧ p.sizeMib % 2 = 0 ∧ p.baseMib % 2 = 0
  then some p else none

/-- Each ID at most once, and every required partition there (R41). -/
def partIdsOk (ps : List PartRec) : Bool :=
  decide ((ps.map (·.id)).Nodup) && [0, 1, 2, 3, 4, 5, 7].all (fun i => ps.any (fun p => p.id == i))

def parseDdr (b : List Byte) : Option (Nat × List PartRec) :=
  let cnt := le16 b 2
  if b.length = 8 + 16 * cnt ∧ zeroBytes b 4 4 = true then
    let ps := (List.range cnt).filterMap (fun i => parsePart ((b.drop (8 + 16 * i)).take 16))
    if ps.length = cnt ∧ partIdsOk ps = true then some (le16 b 0, ps) else none
  else none

def parseClocks (b : List Byte) : Option ClockRec :=
  let c : ClockRec := ⟨byteAt b 0, byteAt b 1, byteAt b 2⟩
  if b.length = 8 ∧ c.c2 ≤ 2 ∧ c.c4 ≤ 2 ∧ c.c7 ≤ 2 ∧ zeroBytes b 3 5 = true then some c else none

def parseMailbox (b : List Byte) : Option (List MboxRec) :=
  let ms := b.map (fun x => (⟨x.toNat % 2 == 1, x.toNat / 2 % 2 == 1, x.toNat / 4 % 4⟩ : MboxRec))
  if b.length = 64 ∧ b.all (fun x => x.toNat < 12) = true then some ms else none

def parseQueue (b : List Byte) : Option QueueRec :=
  let q : QueueRec := ⟨le16 b 0, le16 b 2, le16 b 4, le16 b 6, le16 b 8⟩
  if b.length = 16 ∧ 1 ≤ q.ioqMax ∧ q.ioqMax ≤ 4096 ∧ 2 ≤ q.msixMax ∧ q.msixMax ≤ 4097
      ∧ 16 ≤ q.mediaDepth ∧ q.mediaDepth ≤ 1024 ∧ zeroBytes b 10 6 = true
  then some q else none

/-- The limits of R45. -/
def ThermRec.ok (t : ThermRec) : Bool :=
  decide (t.jWarn < t.jThr ∧ t.jThr < t.jShut ∧ t.jShut ≤ 115 ∧ t.hWarn < t.hThr ∧ t.hThr < t.hShut ∧ t.hShut ≤ 70
    ∧ 1 ≤ t.hyst ∧ t.hyst ≤ 8 ∧ t.hyst < t.jThr - t.jWarn ∧ t.hyst < t.jShut - t.jThr ∧ t.hyst < t.hThr - t.hWarn
    ∧ t.hyst < t.hShut - t.hThr ∧ 2 ≤ t.k ∧ t.k ≤ 40 ∧ 10 ≤ t.floor ∧ t.floor ≤ 90 ∧ 2 ≤ t.calJ ∧ t.calJ ≤ 20
    ∧ 1 ≤ t.calH ∧ t.calH ≤ 10 ∧ 75 ≤ t.dimmRef ∧ t.dimmRef ≤ 85 ∧ t.edge0 < t.edge1 ∧ t.edge1 < t.edge2
    ∧ t.edge2 ≤ t.hShut)

/-- The fields of a THERMAL body, unchecked. -/
def thermFields (b : List Byte) : ThermRec :=
  ⟨byteAt b 0, byteAt b 1, byteAt b 2, byteAt b 3, byteAt b 4, byteAt b 5, byteAt b 6, byteAt b 7, byteAt b 8, byteAt b 9,
    byteAt b 10, byteAt b 11, byteAt b 12, byteAt b 13, byteAt b 14⟩

def parseThermal (b : List Byte) : Option ThermRec :=
  if b.length = 16 ∧ (thermFields b).ok = true ∧ zeroBytes b 15 1 = true then some (thermFields b) else none

def parseFaultEnt (b : List Byte) : Option FaultEnt :=
  let e : FaultEnt := ⟨le16 b 0, byteAt b 2, byteAt b 3 == 1⟩
  match faultTypes.lookup e.ftype with
  | some m => if m ≤ e.react ∧ e.react ≤ 4 ∧ byteAt b 3 ≤ 1 then some e else none
  | none => none

def parseFault (b : List Byte) : Option (List FaultEnt) :=
  let cnt := le16 b 0
  if cnt ≤ 256 ∧ b.length = 8 + (4 * cnt + 7) / 8 * 8 ∧ zeroBytes b 2 6 = true ∧ zeroBytes b (8 + 4 * cnt) 8 = true then
    let es := (List.range cnt).filterMap (fun i => parseFaultEnt ((b.drop (8 + 4 * i)).take 4))
    if es.length = cnt ∧ (es.map (·.ftype)).Nodup then some es else none
  else none

def parseAlmanac (b : List Byte) : Option AlmRec :=
  let a : AlmRec := ⟨le16 b 0, le16 b 2, le16 b 4, le16 b 6, le32 b 8⟩
  if b.length = 16 ∧ a.auditKib ≤ 8192 ∧ 4 * a.reserveKib ≤ a.auditKib ∧ 1 ≤ a.norRingMib ∧ a.norRingMib ≤ 16
      ∧ a.traceSrc < 2048 ∧ zeroBytes b 12 4 = true
  then some a else none

/-- The bodies of the records of one TYPE, each with its INST. -/
def recsOf (rs : List RawRec) (t : Nat) : List (Nat × List Byte) := (rs.filter (fun r => r.type == t)).map (fun r => (r.inst, r.body))

/-- Parse every body, none if one of them breaks its field ranges. -/
def parseAll {α : Type} (f : List Byte → Option α) (l : List (Nat × List Byte)) : Option (List (Nat × α)) :=
  match l with
  | [] => some []
  | (i, b) :: rest => (f b).bind (fun a => (parseAll f rest).map (fun r => (i, a) :: r))

/-- The one record of a TYPE whose count is 1. -/
def parseOne {α : Type} (f : List Byte → Option α) (l : List (Nat × List Byte)) : Option α :=
  match l with
  | [(_, b)] => f b
  | _ => none

/-- Ascending (TYPE, INST), no pair twice (R34). -/
def recOrderOk (rs : List RawRec) : Bool :=
  match rs with
  | r :: r' :: rest => (r.type < r'.type || (r.type == r'.type && r.inst < r'.inst)) && recOrderOk (r' :: rest)
  | _ => true

/-- The largest INST of a TYPE; none for a TYPE R35 does not list. -/
def recInstMax (t : Nat) : Option Nat :=
  if t = 1 then some 31 else if t = 2 ∨ t = 3 then some 63
  else if (4 ≤ t ∧ t ≤ 0xC) ∨ t = 0xFFFF then some 0 else none

/-- TYPE, INST and RFLAGS of a record (R34, R35). -/
def recHeadOk (r : RawRec) : Bool :=
  match recInstMax r.type with
  | some m => r.inst ≤ m && (r.rflags == 0 || (r.rflags == 1 && (r.type == 5 || r.type == 0xA)))
  | none => false

/-- Step 7 of R48: the records of a full image as a structure. -/
def step7 (b : List Byte) (imageLen : Nat) : Option Structure := do
  let cnt := le16 b 0xC
  let (rs, stop) ← cutRecords b cnt 64 (imageLen - 256)
  let ports ← parseAll parsePort (recsOf rs 1)
  let binds ← parseAll parseBind (recsOf rs 2)
  let lattice ← parseAll parseLattice (recsOf rs 3)
  let rpool ← parseOne parseRpool (recsOf rs 4)
  let gran ← parseOne parseGranary (recsOf rs 5)
  let (minGib, parts) ← parseOne parseDdr (recsOf rs 6)
  let clocks ← parseOne parseClocks (recsOf rs 7)
  let mailbox ← parseOne parseMailbox (recsOf rs 8)
  let queue ← parseOne parseQueue (recsOf rs 9)
  let therm ← parseOne parseThermal (recsOf rs 0xA)
  let fault ← parseOne parseFault (recsOf rs 0xB)
  let alm ← parseOne parseAlmanac (recsOf rs 0xC)
  let c : Structure :=
    { keyIdx := byteAt b 0xE, secVer := le16 b 0x10, minFw := le32 b 0x14, buildSeq := le64 b 0x18,
      ports := ports, binds := binds, lattice := lattice, rpool := rpool, gran := gran, minGib := minGib,
      parts := parts, clocks := clocks, mailbox := mailbox, queue := queue, therm := therm, fault := fault, alm := alm }
  if stop = imageLen - 256 ∧ rs.length = cnt ∧ (rs.getLast?.map (·.type)) = some 0xFFFF
      ∧ (rs.getLast?.map (·.body.length)) = some 0 ∧ rs.all recHeadOk = true
      ∧ recOrderOk rs = true ∧ byteAt b 0xF / 2 = 0 ∧ ports ≠ [] then some c else none

/-! ### What a structure declares (R5, R36 to R39) -/

/-- Port h is fused off (R3): ports 16 to 31 of a WB3264-H. -/
def fusedOff (variantH : Bool) (h : Nat) : Bool := variantH && 16 ≤ h

/-- Actuator n exists: its port declared and not fused off, its side enabled (R36). -/
def Structure.exists (c : Structure) (variantH : Bool) (n : Nat) : Bool :=
  match c.ports.lookup (n / 2) with
  | some p => !(fusedOff variantH (n / 2)) && p.sideEn / 2 ^ (n % 2) % 2 == 1
  | none => false

/-- The actuators that exist, ascending. -/
def Structure.acts (c : Structure) (variantH : Bool) : List Nat := (List.range 64).filter (c.exists variantH)

/-- The default engine of an actuator (R5). -/
def defaultEngine (n : Nat) : Nat := 17 * (n / 16) + n % 16

/-- The engine bound to an actuator (R37). -/
def Structure.engineOf (c : Structure) (n : Nat) : Nat := (c.binds.lookup n).getD (defaultEngine n)

/-- The actuator whose engine is e, among those that exist. -/
def Structure.actOfEngine (c : Structure) (variantH : Bool) (e : Nat) : Option Nat :=
  (c.acts variantH).find? (fun n => c.engineOf n == e)

/-- The lane of an actuator (R38). -/
def Structure.laneOf (c : Structure) (n : Nat) : Nat := ((c.lattice.lookup n).map (·.lane)).getD n

/-- The actuator whose lane is l, among those that exist. -/
def Structure.actOfLane (c : Structure) (variantH : Bool) (l : Nat) : Option Nat :=
  (c.acts variantH).find? (fun n => c.laneOf n == l)

/-- The lattice mode of head k of actuator n (R38): MODE 0 where no record masks the head. -/
def Structure.modeOf (c : Structure) (n k : Nat) : Nat :=
  match c.lattice.lookup n with
  | some l => if l.headMask / 2 ^ k % 2 = 1 then l.mode else 0
  | none => 0

/-- The partition with an ID (R41). -/
def Structure.part (c : Structure) (id : Nat) : Option PartRec := c.parts.find? (fun p => p.id == id)

def Structure.port (c : Structure) (h : Nat) : Option PortRec := c.ports.lookup h

/-- DDR byte address of a partition's base (R22, R41). -/
def PartRec.base (p : PartRec) : Nat := 0x010000000000 + p.baseMib * 1048576

/-- Its first byte past the end. -/
def PartRec.stop (p : PartRec) : Nat := p.base + p.sizeMib * 1048576

/-- Step 8 of R48. -/
def step8 (c : Structure) (variantH : Bool) : Bool :=
  let acts := c.acts variantH
  acts.all (fun n => c.engineOf n / 17 == n / 16 && c.laneOf n / 16 == n / 16
      && acts.all (fun m => m == n || (c.engineOf m != c.engineOf n && c.laneOf m != c.laneOf n))
      && c.rpool.any (fun m => m / 2 ^ n % 2 == 1))
    && c.parts.all (fun p => c.parts.all (fun q => p.id == q.id || p.stop ≤ q.base || q.stop ≤ p.base
      || p.sizeMib == 0 || q.sizeMib == 0))
    && (List.range 64).all (fun ch =>
      match c.mailbox[ch]? with
      | some m => (if ch < 16 ∨ (40 ≤ ch ∧ ch < 48) then !m.secure else if 48 ≤ ch then m.secure else true)
          && (!m.compat || ch < 40)
      | none => false)
    && c.queue.slotUrgent + c.queue.slotAdmin ≤ 16384
    && ((c.part 2).map (·.sizeMib)) == some c.alm.traceMib

/-- Step 9 of R48, on the MiB installed. -/
def step9 (c : Structure) (totalMib : Nat) : Bool :=
  c.minGib * 1024 ≤ totalMib && c.parts.all (fun p => p.baseMib + p.sizeMib ≤ totalMib)

/-- What validation reads beside the copy itself: the OTP key slots and floor, the selected bundle's VERSION, the fuses. -/
structure TrustEnv where
  slots : List KeySlot
  floor : Nat
  fwVersion : Option Nat
  variantH : Bool
  deriving DecidableEq, Repr

/-- Step 2 of R48. -/
def step2 (b : List Byte) : Bool :=
  let n := le32 b 8
  le32 b 0 == 0x31464853 && le16 b 4 == 1 && le16 b 6 == 64 && byteAt b 0xF % 2 == 0
    && (le16 b 0x12 == 0x00B1 || le16 b 0x12 == 0xFFFF) && n % 8 == 0 && 328 ≤ n

/-- The first `n` bytes of an area, erased flash beyond what it holds. DESIGN CHOICE: log 3. -/
def takePadded (b : List Byte) (n : Nat) : List Byte := b.take n ++ List.replicate (n - b.length) 0xFF

/-- The signature check of an object of `n` bytes whose block is its last 256 bytes. -/
def objectSig (slots : List KeySlot) (b : List Byte) (n keyIdx : Nat) : SigCheck :=
  sigCheck slots (takePadded b (n - 256)) ((takePadded b n).drop (n - 256)) (some keyIdx)

/-- Steps 2 to 8 of R48 on an image: the failing step (0: passed) and the structure. -/
def validateBody (env : TrustEnv) (b : List Byte) : Nat × Option Structure :=
  let n := le32 b 8
  if step2 b = false then (2, none)
  else
    match objectSig env.slots b n (byteAt b 0xE) with
    | .key => (3, none)
    | .signature => (4, none)
    | .ok =>
      if le16 b 0x10 < env.floor then (5, none)
      else if (match env.fwVersion with | some v => decide (le32 b 0x14 ≤ v) | none => false) = false then (6, none)
      else
        match step7 b n with
        | none => (7, none)
        | some c => if step8 c env.variantH then (0, some c) else (8, none)

/-- Steps 1 to 8 of R48 on a NOR copy: IMAGE_LEN fits the NOR image area of 1 MiB. -/
def validateCopy (env : TrustEnv) (readErr : Bool) (b : List Byte) : Nat × Option Structure :=
  if readErr ∨ 1048576 < le32 b 8 then (1, none) else validateBody env b

end Sys2Proof.Machine
end

