-- ==== Sys2Proof/Machine/StateTypes.lean ====
section
/-!
DEFINITION. Machine/StateTypes.lean: the parts State is made of, chapter by chapter. Every part is plain data. A register
field of the spec's tables that is not here lies in the register file (State.regs, Machine/Regs.lean).
-/

namespace Sys2Proof.Machine

/-! ### 03: mailboxes, locks, windows, violations, Husk -/

/-- One direction of a mailbox channel (R79). SIZE, COMPAT and SECURE come from the loaded MAILBOX record (R43). -/
structure Mbox where
  data : Vector Word 16
  full : Bool
  aborted : Bool
  cross : Bool
  ovr : Bool
  sender : Byte
  msgCnt : BitVec 16
  fullIe : Bool
  emptyIe : Bool
  abortIe : Bool
  crossIe : Bool
  hostVec : BitVec 13
  fullI : Bool
  emptyI : Bool
  abortI : Bool
  crossI : Bool
  deriving DecidableEq, Repr

/-- Every field at its Reset value (R79). -/
def Mbox.reset : Mbox :=
  ⟨Vector.replicate 16 0, false, false, false, false, 0, 0, false, false, false, false, 0, false, false, false, false⟩

/-- One lock register (R87, R89). -/
structure Lock where
  owner : Option Initiator
  rrPtr : Byte
  deriving DecidableEq, Repr

def Lock.reset : Lock := ⟨none, 0⟩

/-- One window of an initiator (R64): first and last 4 KiB page (address bits 47:12), rights and EN. -/
structure Win where
  base : Nat
  lim : Nat
  rd : Bool
  wr : Bool
  exec : Bool
  en : Bool
  deriving DecidableEq, Repr

def Win.reset : Win := ⟨0, 0, false, false, false, false⟩

/-- The violation registers of an initiator (R66), with the count Husk last recorded (R67). -/
structure Viol where
  cnt : Nat
  addr : BitVec 48
  wr : Bool
  dom : Bool
  recorded : Nat
  deriving DecidableEq, Repr

def Viol.reset : Viol := ⟨0, 0, false, false, 0⟩

/-- A held NVMe-MI message (R77): bytes, message tag, tag owner. -/
structure MiMsg where
  bytes : List Byte
  tag : Byte
  owner : Bool
  deriving DecidableEq, Repr

/-- Where a start stands (R99): which kind of reset it serves and what waits. -/
inductive Phase where
  | off          -- PWR_OK low, or RST_N low
  | training     -- a structure is applied up to DDR training; step 9 of R48 is next
  | locked       -- the Sheaf lock is set
  deriving DecidableEq, Repr

/-- Husk, OTP and NOR (R33, R48 to R51, R68 to R78, R97, R98, R457). -/
structure Husk where
  slots : List KeySlot                 -- OTP key slots 0 to 3
  floor : Nat                          -- OTP security floor
  rootSecret : BitVec 256              -- OTP device root secret (R68)
  identityKey : Option Nat             -- derived at each boot, in Husk SRAM (R68)
  wrapKey : Option Nat                 -- the key-encryption key, likewise
  serial : BitVec 64                   -- OTP device serial (R462)
  tTrim : Nat                          -- OTP sensor trim (R417)
  sensTrim : List Nat
  variantH : Bool                      -- the fuses of R3: true on WB3264-H
  bundleA : List Byte
  bundleB : List Byte
  imageA : List Byte
  imageB : List Byte
  calNor : List (Nat × List Byte)      -- controller calibration records (R433), by record number
  sanitizeNor : List (Nat × List Byte) -- sanitize ledger mirror (R382)
  fwVersion : Option Nat               -- VERSION of the selected bundle
  candidate : Nat                      -- image copy being started: 0 recovery, 1 A, 2 B (R49)
  requests : List Nat                  -- request channels in the order they became FULL (R72)
  patchSeq : Nat                       -- BUILD_SEQ of the newest patch applied since reset (R55)
  liveTherm : List ThermRec            -- accepted, taking effect in order at the next round (R56)
  liveGran : List GranRec
  imageTherm : ThermRec                -- THERMAL and GRANARY as the loaded image gives them (R55)
  imageGran : GranRec
  wrapped : List (Nat × Nat)           -- media keys as wrapped on the ledger tracks, each shown by the key it holds, by NSID (R68, R148)
  keySlots : List (Nat × Nat)          -- unwrapped media keys in the inline key slots, by NSID (R69)
  keyGen : List (Nat × Nat)            -- KEY_GEN of each NSID's key (R148)
  loading : Option (Nat × Nat × Nat × Nat × Nat) -- TILLER_LOAD in hand: channel (64: none), engine, address, CODE_LEN, ENTRY
  halted : Bool                        -- lockstep mismatch (R443): no request is taken
  miSeq : Nat                          -- RELAY_SEQ: relays sent since reset
  miOut : Option MiMsg                 -- the relay outstanding: neither answered nor past its 5 s
  miWait : List MiMsg                  -- waiting, at most 4
  rstLow : Bool                        -- RST_N recognised low
  rootDrained : Bool                   -- a device warm reset is draining (R108)
  deriving DecidableEq, Repr

/-! ### 05: ports -/

/-- One ZONES entry (R144). -/
structure ZoneEnt where
  first : Nat
  tracks : Nat
  spt : Nat
  ratio : Nat
  deriving DecidableEq, Repr

/-- What the descriptor gives of one side: ZONES, TRANSIT, NSGEOM and LEDGER (R144). Floats are binary32 words. -/
structure SideDesc where
  zones : List ZoneEnt
  framesPerRev : Nat
  toneCycles : Nat
  stripeAngle : Word
  trackPitch : Word
  odRadius : Word
  zoneCnt : Nat
  convLbas : Nat
  head0 : Nat
  head1 : Nat
  ledTracks : Nat
  ledFirst0 : Nat
  ledFirst1 : Nat
  ledBase : List Nat
  ledCount : List Nat
  deriving DecidableEq, Repr

/-- An HDA descriptor that passed R145 (R143, R144). -/
structure Desc where
  actCnt : Nat
  surfCnt : Nat
  heads : Nat
  sides : Nat
  assist : Nat
  maxLanes : Nat
  speeds : Nat
  heRev : Nat
  spinPeak : Nat
  serial : List Byte
  spinTime : Nat
  readers : List Nat
  sideA : Option SideDesc
  sideB : Option SideDesc
  calOfs : Nat
  calSize : Nat
  assistType : Nat
  maxLevel : Nat
  polePairs : Nat
  railCnt : Nat
  retractMs : Nat
  rPhase : Word
  lPhase : Word
  ke : Word
  busNom : Word
  mscale : List Word
  gains : List Word
  gainsTransit : List Word
  deriving DecidableEq, Repr

/-- A lane-count change under way (R141). -/
inductive LaneChange where
  | none
  | preparing
  /-- A switch to `lanes` lanes: downstream after Bolrus's ALN `down`, upstream after the head-end's ALN `up` once LANE_ACK names
  it; each direction's switch made or not. -/
  | switching (lanes : Nat) (down : Word) (up : Option Word) (downDone upDone : Bool)
  deriving DecidableEq, Repr

/-- A flash command under way (R156): 1 read, 2 write, 3 erase; its TAG and the bytes moved. -/
structure FlashOp where
  cmd : Nat
  tag : Byte
  ofs : Nat
  len : Nat
  ddr : Nat
  moved : Nat
  deriving DecidableEq, Repr

/-- A MOT record as received (R129). -/
structure MotRec where
  frameNo : Word
  tick : Nat
  values : List Int
  deriving DecidableEq, Repr

/-- Latest motor measurements of an HDA (R129): the MTYPE 1 pair that awaits its PWM period (R312), bus voltage, per side VCM,
microactuator and photodiode values, the latest back-EMF of phases U, V, W with the phase whose turn is next, and the latest
record of each (MTYPE, side), at 2 × MTYPE + side. -/
structure MotSt where
  shunt : Option (Int × Int)
  bus : Int
  vcm : Int × Int
  ma : Int × Int
  pd : Int × Int
  bemf : List Int
  bemfNext : Nat
  recs : List (Nat × MotRec)
  deriving DecidableEq, Repr

/-- A sample stream since its last marker (R122, R123, R214): the marker's FRAME_NO and PHASE, samples since it, whether samples can be placed
now, the bits of a sample begun, and the samples of the latest frame. -/
structure StreamSt where
  frame : Word
  phase : Nat
  count : Nat
  placed : Bool
  rest : Nat
  restBits : Nat
  last : List Int
  deriving DecidableEq, Repr

/-- Port h beside its registers. `rxSeq`/`txSeq`: next SEQ of each (SID, SIDE), at 2 × SID + SIDE. -/
structure PortSt where
  desc : Option Desc
  serialBound : Option (List Byte)
  attempts : Nat               -- failed attempts of the current series (R138)
  waitRetry : Bool             -- three have failed; the next comes after 10 s
  held : Bool                  -- DOWN holds the port in FAILED (R504)
  rxSeq : List Nat
  txSeq : List Nat
  smpCtl : List (BitVec 3)     -- SMP_CTL in force per side: bit 0 SMP_A, 1 SMP_B, 2 TRN (R506)
  stopWait : Nat               -- STOP words not yet answered
  stopMiss : Nat               -- missing STOP_ACKs (R153)
  laneChange : LaneChange
  laneBad : Bool               -- a change has failed: L stays 2 until the next full training (R141)
  sides : Nat                  -- SIDES of HELLO_ACK (R132)
  precode : Bool               -- both ends asked for precoding in the latest training (R115, R119)
  alnSeq : Word                -- ALN_SEQ of the next ALN sent: ALN periods since training (R119)
  alnPhase : Nat               -- time since the last ALN sent, in 0.1 ns
  ctlSent : Bool               -- a CTL frame has left in the 10 µs in hand (R131)
  drift : List (Int × Nat)     -- per lane: the offset seen and its consecutive ALN periods (R139)
  moved : Bool                 -- a deskew move was made in this round
  tag : Byte                   -- next TAG
  ctlWait : List (Nat × Nat × List Nat) -- CTL words that wait for a credit: OP, SIDE, operands (R134)
  flash : Option FlashOp
  mot : MotSt
  temps : List Int             -- latest HSK HTYPE 1 values, 1/16 degree (R130)
  rails : List Int
  quietRounds : Nat            -- rounds since the last HSK HTYPE 1 (R419)
  streams : List (Nat × StreamSt) -- per (SID, SIDE), at 2 × SID + SIDE: what its last marker places
  deriving DecidableEq, Repr

def MotSt.reset : MotSt := ⟨none, 0, (0, 0), (0, 0), (0, 0), [0, 0, 0], 0, []⟩

def PortSt.reset : PortSt :=
  { desc := none, serialBound := none, attempts := 0, waitRetry := false, held := false, rxSeq := List.replicate 32 0,
    txSeq := List.replicate 32 0, smpCtl := [0, 0], stopWait := 0, stopMiss := 0, laneChange := .none, laneBad := false, sides := 0,
    precode := false, alnSeq := 0, alnPhase := 0, ctlSent := false, drift := [(0, 0), (0, 0), (0, 0), (0, 0)], moved := false,
    tag := 0, ctlWait := [], flash := none, mot := MotSt.reset, temps := [], rails := [], quietRounds := 0, streams := [] }

/-! ### 12: the spindle -/

/-- The spindle block of an HDA beside its registers (R309 to R327). Angles and speeds of the open loop are in 10⁻³⁰ of a
revolution and of a rpm. -/
structure SpinSt where
  attempts : Nat               -- failed start attempts (R321)
  retry : Bool                 -- the 500 ms coast of a failed attempt
  begun : Bool                 -- a start that has not reached LOCKED
  late : Bool                  -- it has timed out once (R323)
  period : Nat                 -- PWM_PERIOD of this start, in ticks (R326)
  sensing : Bool               -- BRAKE: a sense window, else a brake interval
  emf : Word                   -- last back-EMF amplitude
  theta : Int
  rpm : Int
  bad : Nat                    -- consecutive periods above OBS_RES_THR
  good : Nat                   -- consecutive periods at or below it, at most 8
  held : Bool                  -- OBS_VALID has held since the attempt began
  skips : Nat                  -- consecutive skipped or missing periods
  skipNow : Bool               -- a window of the period in force cannot be sampled
  above : Bool                 -- the speed has been at or above 85 % since RUN was entered from a start
  duty : List Nat              -- DUTY of U, V, W in force
  brake : Nat                  -- DUTY_U of the brake interval in force
  hist : List Int              -- SPD_EST over the last revolution, newest first (R310)
  iSum : Nat                   -- µA: sum and count of |i| from MTYPE 1 and highest |i|, over the housekeeping round (R420)
  iCnt : Nat
  iMax : Nat
  wSum : Int                   -- the spindle input of the periods since the last DRAW: their sum in watts, and their count (R473)
  wCnt : Nat
  ups : Nat                    -- entries to LOCKED by a start, and head unloads, since power-on (R336)
  unloads : Nat
  deriving DecidableEq, Repr

def SpinSt.reset : SpinSt :=
  { attempts := 0, retry := false, begun := false, late := false, period := 2500, sensing := false, emf := 0, theta := 0, rpm := 0,
    bad := 0, good := 0, held := false, skips := 0, skipNow := false, above := false, duty := [0, 0, 0], brake := 0, hist := [],
    iSum := 0, iCnt := 0, iMax := 0, wSum := 0, wCnt := 0, ups := 0, unloads := 0 }

/-! ### 01: grains -/

/-- A grain tag (R13) without its CRC, which every block that writes a field keeps valid. -/
structure Tag where
  kind : Nat
  act : Nat
  nsConv : Bool
  sec : Bool
  prio : Nat
  noCmd : Bool
  slot : Nat
  idx : Nat
  lba : Nat
  stamp : Nat
  epoch : BitVec 16
  spec : Bool
  specSrc : Nat
  head : Nat
  track : Nat
  sector : Nat
  len : Nat
  sampleSrc : Nat
  sealOk : Bool
  syncInferred : Bool
  syncOfsUsed : Bool
  syncOfs : Int
  recovStep : Nat
  realloc : Bool
  ldpcIter : Nat
  frameTs : Nat
  deriving DecidableEq, Repr

def Tag.zero : Tag :=
  ⟨0, 0, false, false, 0, false, 0, 0, 0, 0, 0, false, 0, 0, 0, 0, 0, 0, false, false, false, 0, 0, false, 0, 0⟩

/-- A grain (R11). -/
structure Grain where
  tag : Tag
  payload : List Byte
  deriving DecidableEq, Repr

/-- Bytes 0 to 59 of a tag (R13). DESIGN CHOICE: log 128. -/
def Tag.head60 (t : Tag) : List Byte :=
  let b (x : Bool) : Nat := if x then 1 else 0
  let w0 := 1 + t.kind * 2^4 + t.act * 2^8 + b t.nsConv * 2^14 + b t.sec * 2^15 + t.prio * 2^16 + b t.noCmd * 2^19
    + t.slot * 2^32 + t.idx * 2^48
  let w3 := t.epoch.toNat + b t.spec * 2^16 + t.specSrc * 2^17
  let w4 := t.head + t.track * 2^8 + t.sector * 2^32
  let w5 := t.len + t.sampleSrc * 2^13 + b t.sealOk * 2^16 + b t.syncInferred * 2^17 + b t.syncOfsUsed * 2^18
    + ((t.syncOfs % 8).toNat) * 2^19 + t.recovStep * 2^22 + b t.realloc * 2^26 + t.ldpcIter * 2^27
  toLe 8 w0 ++ toLe 8 t.lba ++ toLe 8 t.stamp ++ toLe 8 w3 ++ toLe 8 w4 ++ toLe 8 w5 ++ toLe 8 t.frameTs ++ toLe 4 0

/-- The 64 bytes of a tag, TAG_CRC included; `flip` are the check bits stored inverted (R13, R444). -/
def Tag.bytes (t : Tag) (flip : Nat := 0) : List Byte := t.head60 ++ toLe 4 (Nat.xor (crc32c t.head60) flip)

/-- The check of TAG_CRC over the 64 bytes of a tag (R14). -/
def tagSound (b : List Byte) : Bool := b.length == 64 && crc32c (b.take 60) == le32 b 60

/-- The queue and command engine's descriptor of a grain of the volatile write buffer (R14, R260, R263): its tag as it was written, and its
index in DDR partition 0, which holds payload and tag (R12). `acked` once its command has completed towards the host. -/
structure BufGrain where
  tag : Tag
  place : Nat
  acked : Bool
  fua : Bool
  written : Bool               -- on the media, kept for a read that pins it (R347)
  deriving DecidableEq, Repr

/-- A grain of the read cache (R201): its tag and its index in DDR partition 6. -/
structure CacheGrain where
  tag : Tag
  place : Nat
  deriving DecidableEq, Repr

/-- A spin-up group (R104), or one HDA that restarts (index 0xFE): its HDAs, the request for its token (0: none yet), whether the
token is held, and whether it has started. -/
structure SpinGroup where
  index : Nat
  hdas : List Nat
  reqId : Nat
  token : Bool
  started : Bool
  deriving DecidableEq, Repr

/-! ### 09, 14: what a side's ledger keeps -/

/-- Zone conditions (R368). -/
inductive ZCond where
  | empty | implicit | explicit | closed | full
  deriving DecidableEq, Repr

/-- One zone (R265, R368, R374): host and media write pointers as offsets, the map state now and as durable, the sectors that
may hold earlier data, Reset Zone Recommended (R248), and the stamp of the latest write admitted (R369). -/
structure ZoneSt where
  cond : ZCond
  hwp : Nat
  mwp : Nat
  map : Nat
  durable : Nat
  used : Nat
  recommended : Bool
  stamp : Nat
  deriving DecidableEq, Repr

/-- A zone of an HDA with no zone map: Empty, its erase owed (R374). -/
def ZoneSt.reset : ZoneSt := ⟨.empty, 0, 0, 1, 1, 65536, false, 0⟩

/-- A relocation (R248, R249, R251): `payload` is the recovered grain kept until the spare is written. -/
structure RemapEnt where
  conv : Bool
  lba : Nat
  step : Nat
  spare : Nat
  hours : Nat
  written : Bool
  durable : Bool
  payload : List Byte
  deriving DecidableEq, Repr

/-- A lost range (R253). -/
structure LostEnt where
  conv : Bool
  first : Nat
  count : Nat
  cause : Nat
  cycle : Nat
  hours : Nat
  deriving DecidableEq, Repr

/-- A sanitize or format progress record (R379). -/
structure Progress where
  action : Nat
  status : Nat
  oipbp : Bool
  ses2 : Bool
  nsid : Nat
  ovrpat : Word
  pass : Nat
  passes : Nat
  head : Nat
  next : Nat
  done : Nat
  total : Nat
  seq : Nat
  startCycle : Nat
  startHours : Nat
  deriving DecidableEq, Repr

/-- The ledger of a side: zones that differ from `ZoneSt.reset`, lists, and per kind 1 to 4 the durable GEN and whether a
newer one is staged (R148, R149, R251, R253, R373). -/
structure LedgerSt where
  zones : List (Nat × ZoneSt)
  remap : List RemapEnt
  lost : List LostEnt
  gens : List Nat
  staged : List Bool
  writing : List Bool          -- kinds whose flush timer has started a generation (R252, R374)
  clean : Bool                 -- CLEAN of the staged kind 3 generation
  zoneEvents : List Nat        -- zones whose descriptor-changed event waits for the generation (R378)
  lostShown : List LostEnt     -- the lost ranges of the durable kind 2 generation (R361)
  lostEvent : Bool             -- the lost-range event waits for the generation (R254)
  convNext : Nat               -- next free conventional spare
  progress : Option Progress
  sectors : List (Nat × List Byte) -- payloads on the ledger tracks as read or written, by region × 2²⁴ + sector (R147)
  deriving DecidableEq, Repr

def LedgerSt.reset : LedgerSt := ⟨[], [], [], [0, 0, 0, 0], [false, false, false, false], [false, false, false, false], false, [], [], false, 0, none, []⟩

/-- The relocations a kind 1 generation lists: those whose spare is written (R252). -/
def LedgerSt.kept (l : LedgerSt) : List RemapEnt := l.remap.filter (·.written)

/-- The pointer list of a kind 3 generation: the MWP of every zone in state 2, where it is CLEAN (R376). DEDUCED: log 175. -/
def LedgerSt.pointers (l : LedgerSt) : List (Nat × Nat) :=
  if l.clean then (l.zones.filter (fun z => z.2.map == 2)).map (fun z => (z.1, z.2.mwp)) else []

/-- Ledger sectors that entries of one length take: at least one (R148, R373). DEDUCED: log 175. -/
def pageCount (len cnt : Nat) : Nat := max 1 ((cnt + 4028 / len - 1) / (4028 / len))

/-! ### 08, 09: lanes and the recovery pool -/

/-- A placed sample (R214, R215): its 7-bit value, x − dc, y, and the digital gain after it, the last three with 24 fraction bits. -/
structure Placed where
  x : Int
  d : Int
  y : Int
  g : Int
  deriving DecidableEq, Repr

/-- The samples after one marker: its FRAME_NO, the edge of the first from the track index, and the samples in order (R214). -/
structure Seg where
  frame : Word
  edge : Int
  vals : List Placed
  deriving DecidableEq, Repr

/-- The samples of a read: the window of each reader, empty for one that is not captured (R229). -/
structure ReadWin where
  a : List (Option Placed)
  b : List (Option Placed)
  deriving DecidableEq, Repr

/-- A slot of the capture ring (R229): the sector it holds, its window, the FRAME_NO of the marker before it, and the record it is copied into
with the epoch of the request. `ecc` is the INJ_BITS its words were stored under, 0 for sound check bits (R444). -/
structure RingSlot where
  head : Nat
  track : Nat
  sector : Nat
  win : ReadWin
  frameTs : Nat
  copyTo : Option (Nat × BitVec 16)
  ecc : Nat
  deriving DecidableEq, Repr

/-- A failure notice (R227). -/
structure Notice where
  kind : Nat
  hyps : Nat
  capValid : Bool
  capReaders : Nat
  head : Nat
  act : Nat
  conv : Bool
  noCmd : Bool
  prio : Nat
  sector : Nat
  slot : Nat
  track : Nat
  cap : Option Nat
  lba : Nat
  epoch : BitVec 16
  gidx : Nat
  missFirst : Nat
  missLen : Nat
  deriving DecidableEq, Repr

/-- What a lane keeps of a head's front ends (R215): digital gain and DC with 24 fraction bits, and analogue code of each reader. -/
structure FeSt where
  head : Nat
  gainA : Int
  gainB : Int
  dcA : Int
  dcB : Int
  codeA : Nat
  codeB : Nat
  deriving DecidableEq, Repr

/-- A lane beside its registers: tap memory and its shadow as (halfword index, value) (R217, R218), front-end state per head (R215), the placed
samples of readers a and b, newest segment first (R214), the ring (R229, oldest first), and the latest F − P of found marks (R234). -/
structure LaneSt where
  taps : List (Nat × Nat)
  shadow : List (Nat × Nat)
  fe : List FeSt
  segsA : List Seg
  segsB : List Seg
  ring : List RingSlot
  devs : List Int
  deriving DecidableEq, Repr

def LaneSt.reset : LaneSt := ⟨[], [], [], [], [], [], []⟩

/-- A sector read for the recovery pool: where, its samples, the expected SEAL_LBA, and its stored payload where it was accepted. -/
structure PoolRead where
  track : Nat
  sector : Nat
  win : ReadWin
  exp : Nat
  payload : Option (List Byte)
  deriving DecidableEq, Repr

/-- A recovery record (R236): its notice, the stamp of its command, the ladder step in hand, rereads taken, whether its work waits for a
decoder, the decoder at work, its deadline in µs of US64 (none: no limit), the confirmed reads of the step in hand and before, and those whose
confirmation epoch is open (R239). -/
structure RecRecord where
  n : Notice
  stamp : Nat
  step : Nat
  rereads : Nat
  ready : Bool
  decoder : Option Nat
  deadline : Option Nat
  limited : Bool
  superseded : Bool
  reads : List PoolRead
  early : List (BitVec 16 × PoolRead)
  deriving DecidableEq, Repr

/-- The pool: notices not yet taken, records, and capture records in use with their samples once copied (R230, R236). -/
structure PoolSt where
  early : List Notice          -- of epochs still open
  waiting : List Notice
  records : List RecRecord
  caps : List (Nat × Option ReadWin)
  deriving DecidableEq, Repr

/-! ### 06, 07, 10, 11: one actuator -/

/-- A transit frame already judged (R161, R180). -/
structure FrameRec where
  no : Word
  valid : Bool
  coarse : Bool
  counted : Bool               -- its boundary follows the commit of TARGET (R182)
  pes : Int
  deriving DecidableEq, Repr

/-- A decoded sector that waits for its position confirmation (R180, R200, R201), with the queue entry it serves (0x7FF: none). -/
structure PendSector where
  epoch : BitVec 16
  first : Word
  last : Word
  ok : Bool
  lba : Option Nat
  head : Nat
  track : Nat
  sector : Nat
  entry : Nat
  stamp : Nat
  deriving DecidableEq, Repr

/-- The stored payload of a data sector read for its segment's parity (R268); `epoch` is its read's while that is open. -/
structure Gathered where
  epoch : Option (BitVec 16)
  head : Nat
  track : Nat
  sector : Nat
  payload : List Byte
  deriving DecidableEq, Repr

/-- What a media queue entry is for: a host command, a spare write (R248), an owed erase (R375), a neighbour check (R273),
a segment's parity, whose sectors are read before it is written (R268), or a self-test (R387). -/
inductive Work where
  | host | spare | erase | check | parity | test | gap
  deriving DecidableEq, Repr

/-- A media queue entry (R190) in slot `idx` of the queue. -/
structure MqEntry where
  idx : Nat
  prio : Nat
  opc : Nat
  nsConv : Bool
  fua : Bool
  slot : Nat
  lba : Nat
  count : Nat
  stamp : Nat
  arrival : Nat
  done : List Nat            -- LBAs of the entry already read and committed, or written
  work : Work
  deriving DecidableEq, Repr

/-- The operation in hand (R204). -/
structure OpSt where
  opc : Nat
  head : Nat
  entry : Nat
  track : Nat
  first : Nat
  count : Nat
  epoch : BitVec 16
  spec : Bool
  done : Nat
  confEpoch : Option (BitVec 16)
  spanDone : Nat
  recov : Option (Nat × Nat × Nat × Nat)  -- a recovery operation (R242): head, track, sector and stamp of its record
  deriving DecidableEq, Repr

/-- A WRT window (R125, R261): the grains it carries are the buffer grains of its sectors. -/
structure WinSt where
  id : BitVec 16
  head : Nat
  track : Nat
  first : Nat
  sectors : Nat
  frameNo : Word
  bitOfs : Nat
  lastFrame : Word
  armFrom : Word               -- frame of its first bit or pre-roll bit
  conv : Bool
  lbas : List (Option Nat)     -- per physical sector: the LBA position of a data sector, none for a parity sector
  task : Work
  mqIdx : Nat                  -- the media queue entry it serves
  stamp : Nat                  -- stamp of its media queue entry
  prio : Nat                   -- class of that entry
  dead : Bool                  -- it has ended at the head-end, or gets no further arm
  entry : List Nat             -- the table entry in use: WC, PHASE, WIDTH, PREROLL, LEVEL, PD_TARGET
  autoFrames : Nat
  outs : List Word             -- LOOP_OUT levels of the last 4 automatic frames
  satRun : Nat
  deriving DecidableEq, Repr

/-- A setpoint FIFO entry (R291). -/
structure SpEntry where
  pos : Int
  acc : Word
  frame : Word
  epoch : BitVec 16
  spec : Bool
  deriving DecidableEq, Repr

/-- Actuator n beside its registers. -/
structure ActSt where
  -- demodulator (06)
  headsOn : Bool                 -- heads on the ramp
  validRun : Nat                 -- consecutive valid frames with consecutive INDEX (ACQUIRE), or consecutive valid (COAST)
  index : Nat                    -- INDEX of the frame in progress
  frameNo : Word                 -- FRAME_NO of the frame in progress
  frameSetDue : Bool             -- FRAME_SET is to be sent in the next frame (R166)
  synced : Bool                  -- FRAME_SET sent since the tone locked (R133)
  havePos : Bool                 -- POS has been delivered since TRACK was entered
  posPrev : Int                  -- POS of the valid frame before the latest
  posGap : Nat                   -- frames between the last two valid frames, 0 before there are two
  recent : List FrameRec         -- the latest frames, newest first, at most 64
  onRun : Nat                    -- consecutive valid frames within SETTLE_TOL (R179)
  base : Int                     -- SP_POS in force, 1/256 track
  offset : Int                   -- offset the engine or the pool requests (R177)
  ffAcc : Word                   -- FF_ACC in force
  committed : Bool               -- a frame boundary has followed the latest commit of TARGET (R182)
  unconfirmed : BitVec 11        -- RAD_OFS/TIM_OFS of head k unconfirmed (R175)
  periods : List Nat             -- the latest frame periods in ps, newest first, at most 1,800 (R169)
  clkZone : Option Nat           -- zone of the CLK_SET in force
  clkTim : Int                   -- TIM_OFS of that CLK_SET
  clkAt : Option Word            -- FRAME_NO of the latest CLK_SET since FRAME_SET (R170)
  headPend : Option (Nat × Word) -- a HEAD_SEL sent: its head and the frame it takes effect at (R176)
  maOld : Option (Nat × Word × Nat) -- the head left by a switch: the drive it had, and the frames of its ramp to come (R177)
  maWait : Bool                  -- a switch's step beyond MA_RANGE: the VCM alone carries it (R178)
  -- sequencer (07)
  mq : List MqEntry
  op : Option OpSt
  heldGo : Bool                  -- an OP_GO waits for a recovery operation or for media credit (R242, R424)
  lastRead : Option (Nat × Nat)  -- head and track of the committed read that run-ahead may continue (R201)
  raDone : Nat                   -- sectors run ahead under the open run-ahead epoch (R201)
  deficit : List Int             -- deficit of classes 1 to 3 (R191)
  shadow : List (BitVec 16 × Nat × Nat) -- epoch, lane counter, count held back (R198)
  pend : List PendSector
  xslot : Bool                   -- an exclusive-media slot is held (R431)
  -- write gate and assist (10)
  armed : Option Word            -- the frame armed
  goodRun : Nat                  -- consecutive frames on which R269 held
  reopening : Bool               -- an arm was withheld or closed (R272)
  win : Option WinSt
  winQueue : List WinSt          -- windows sent after it
  wrtWait : List (BitVec 16 × Bool × Nat × List Byte) -- frames that wait for a credit: WIN_ID, MARK, SID, payload (R134, R262)
  nextWin : BitVec 16
  curWc : Option Nat             -- write-current code in force at the head-end (R276)
  table : List (Nat × Nat)       -- active write parameter table: (word index, word), absent words 0
  shadowTable : List (Nat × Nat)
  agingSeen : BitVec 11          -- AGING[k] has passed 1.25 since reset
  led : LedgerSt                 -- zones, remap table, lost ranges, progress (09, 14)
  stale : List Nat               -- stale conventional segments, oldest first (R268)
  accs : List (Nat × List Byte × List Byte) -- P and Q accumulators of a zone's open segment (R268)
  gather : List Gathered         -- sectors read for a parity refresh or to rebuild accumulators (R268)
  -- setpoint FIFO (11)
  fifo : List SpEntry
  hold : Int                     -- last committed SP_POS
  -- calibration (16): offsets of (head, zone) at 1,024 × head + zone, now and as last stored; CAL_PENDING; GEN of kinds 2 to 5
  offs : List (Nat × Int × Int)
  offsSaved : List (Nat × Int × Int)
  calPending : Nat
  calGen : List Nat
  -- readiness (04, 17)
  calValid : Bool
  ledgerRead : Bool
  ready : Bool
  holding : Bool                 -- not ready, and its commands are held: a return from PS3 or PS4, an unload (R112, R324)
  lostHeld : List LostEnt        -- ranges a FORCE disable lost under PORT_CAUSE 9, in partition 3 alone (R447)
  holdExpired : Bool             -- a reaction has been in force for 60 s, or is latched (R438)
  noEngine : Bool                -- the engine's reload is outstanding (R107)
  reloadLate : Bool              -- and its 5 s have passed
  deriving DecidableEq, Repr

def ActSt.reset : ActSt :=
  { headsOn := true, validRun := 0, index := 0, frameNo := 0, frameSetDue := false, synced := false, havePos := false, posPrev := 0,
    posGap := 0, recent := [], onRun := 0, base := 0, offset := 0, ffAcc := 0, committed := false, unconfirmed := 0x7FF,
    periods := [], clkZone := none, clkTim := 0, clkAt := none, headPend := none, maOld := none, maWait := false, mq := [], op := none,
    heldGo := false, lastRead := none, raDone := 0, deficit := [0, 0, 0], shadow := [], pend := [],
    xslot := false, armed := none, goodRun := 0, reopening := false, win := none, winQueue := [], wrtWait := [], nextWin := 0,
    curWc := none, table := [], shadowTable := [], agingSeen := 0, led := LedgerSt.reset, stale := [], accs := [], gather := [], fifo := [], hold := 0,
    offs := [], offsSaved := [], calPending := 2 ^ 640 - 1, calGen := [0, 0, 0, 0], calValid := false, ledgerRead := false, ready := false,
    holding := false, lostHeld := [], holdExpired := false, noEngine := false, reloadLate := false }

/-- The relay tune of an instance (R300): mode it left, Y0, relay state, periods ended, times and peaks, and the sums. -/
structure TuneSt where
  prevMode : Nat
  y0 : Word
  up : Bool
  periods : Nat
  elapsed : Word
  hi : Word
  lo : Word
  sumTu : Word
  sumA : Word
  sumTs : Word
  runs : Nat
  deriving DecidableEq, Repr

/-- Loop instance g beside its registers (R287 to R305). -/
structure LoopSt where
  first : Bool                   -- no run since ENABLE
  divCnt : Nat
  input : Option Word            -- FRAME_NO of an input that waits for its run (R163, R288)
  same : Nat                     -- consecutive equal MEAS (R302)
  age : Nat                      -- boundaries since the last input (R302)
  modePend : Option Nat          -- MODE_REQ to apply at the next run
  swapPend : Bool
  presetPend : Bool
  disabling : Bool               -- ENABLE = 0 waits for the safe action to end (R304)
  retract : Nat                  -- retract phase: 0 none, 1 brake, 2 push, 3 hold
  tune : Option TuneSt
  deriving DecidableEq, Repr

def LoopSt.reset : LoopSt := ⟨true, 0, none, 0, 0, none, false, false, false, 0, none⟩

/-! ### 13: the host interface -/

/-- A submission queue (R340). -/
structure Sq where
  id : Nat
  size : Nat
  cq : Nat
  prio : Nat
  head : Nat
  tail : Nat
  deriving DecidableEq, Repr

/-- A completion queue (R340): `count` completions posted since the vector last fired (coalescing). -/
structure Cq where
  id : Nat
  size : Nat
  vec : Nat
  irq : Bool
  head : Nat
  tail : Nat
  count : Nat
  deriving DecidableEq, Repr

/-- What a command's completion waits for beside its LBAs. -/
inductive Hold where
  | none
  /-- Media work and ledger generations: per actuator, the GEN each kind must pass (R283, R282). -/
  | gens (l : List (Nat × Nat × Nat))
  /-- A Flush (R283): the generations it waits for, and the grains buffered before its admission: actuator, NS_CONV, LBA, stamp. -/
  | flush (l : List (Nat × Nat × Nat)) (grains : List (Nat × Bool × Nat × Nat))
  /-- A zone action on the zones of an actuator (R370): Finish, Reset, or Open. -/
  | finish (zones : List Nat)
  | reset (zones : List Nat)
  | opening (zones : List Nat)
  /-- A format of the actuators named (R385). -/
  | format (acts : List Nat)
  /-- Its status is decided and its completion queue is full. -/
  | posting
  deriving DecidableEq, Repr

/-- A command in a slot (R341). `left`: LBAs still to buffer, to serve or to check; `room`: grains given buffer space. -/
structure Cmd where
  slot : Nat
  sq : Nat
  sqe : Sqe
  admin : Bool
  prio : Nat
  stamp : Nat
  pool : Nat
  act : Nat
  lba : Nat
  count : Nat
  begun : Bool
  left : List Nat
  room : Nat
  fua : Bool
  aborted : Bool
  status : Nat
  dw0 : Word
  dw1 : Word
  hold : Hold
  wait : List Nat              -- slots or requests it waits for, in the sense of its hold
  deadline : Option Nat        -- US64 at which its recovery clock ends (R246)
  deriving DecidableEq, Repr

/-- One grain place of the buffer index not yet filled (R347). -/
structure Place where
  act : Nat
  conv : Bool
  lba : Nat
  stamp : Nat
  slot : Nat
  idx : Nat
  deriving DecidableEq, Repr

/-- An Error Information entry (R256): error count, queue, command, status, LBA, NSID. -/
structure ErrEnt where
  n : Nat
  sq : Nat
  cid : BitVec 16
  status : Nat
  lba : Nat
  nsid : Nat
  deriving DecidableEq, Repr

/-- A self-test (R387): extended or short and the actuators; the log entries, newest first: STC, result, segment, NSID, hours. -/
structure TestSt where
  running : Option (Bool × List Nat)
  log : List (Nat × Nat × Nat × Nat × Nat)
  deriving DecidableEq, Repr

/-- The queue and command engine and the NVMe controller (R332 to R365). -/
structure HostSt where
  cc : Word
  rdy : Bool
  shst : Nat
  nssro : Bool
  sqs : List Sq
  cqs : List Cq
  cmds : List Cmd
  waiting : List (Nat × MqEntry) -- media entries waiting for room, with their actuator
  places : List Place
  pins : List (Nat × Nat × Bool × Nat × Nat) -- slot, actuator, conventional, LBA, stamp of a pinned grain
  stamp : Nat                  -- next admission stamp
  rr : List Nat                -- round robin: last queue served in classes 0 to 3
  turn : Nat × Nat             -- queue holding the turn and commands it may still admit
  credit : List Nat            -- fetch credit of classes 1 to 3
  tler : List (Nat × Nat)
  thresh : List (Nat × Nat)    -- temperature thresholds set: 2 × sensor + type
  vwc : Bool
  ncqr : Nat × Nat
  coal : Nat × Nat
  vecOff : List Nat            -- vectors with coalescing disabled
  aec : Word
  apst : Option (List (Nat × Nat))
  ts : Nat × Nat               -- host timestamp in ms and the US64 it was set at
  aerMasked : List (Nat × Nat) -- events posted and not yet cleared by their log: type, information
  aerWait : List (Nat × Nat × Nat) -- events retained for the next request: type, information, log
  errs : List ErrEnt
  errCount : Nat
  changedNs : List Nat
  changedZones : List Nat      -- actuator × 2^20 + zone
  msix : List (Nat × Word)     -- MSI-X table words that differ from their reset value, by word index (R25, R329)
  pba : List Nat               -- vectors pending
  changedLost : List Nat       -- NSIDs whose lost-range list changed since its last read (R361)
  attached : BitVec 128        -- bit NSID − 1
  created : BitVec 64          -- conventional namespaces that exist
  unsafe_ : Nat                -- Unsafe Shutdowns
  shutdownSeen : Bool
  dataErrors : Nat             -- completions with Unrecovered Read Error
  sanFailed : Bool
  sanRun : Option Nat          -- a sanitize in progress: its action
  sanCdw : Word                -- CDW10 of the latest Sanitize started (R384)
  sanDone : Bool
  test : TestSt
  warnMs : Nat × Nat           -- ms at or above J_WARN and J_THR
  classCnt : List Nat          -- commands of classes 0 to 3 admitted in the window in progress
  miResp : Option (List Byte)  -- response of the last NVMe-MI command
  aqa : Word                   -- AQA, ASQ and ACQ (R25)
  asq : BitVec 64
  acq : BitVec 64
  thrMs : Nat                  -- ms with any actuator below 100 % (R362)
  lostSnap : List (Nat × Nat × List LostEnt) -- per NSID, the generation and list that offset 0 of log 0xC0 last gave (R361)
  fwLen : Nat                  -- bytes staged by Firmware Image Download (R339)
  deriving DecidableEq, Repr

/-! ### 17: faults -/

/-- A fault type in force (R437, R443): what it reaches and with which reaction. -/
structure ActiveFault where
  ftype : Nat
  inst : Nat
  acts : BitVec 64
  hdas : BitVec 32
  react : Nat
  deriving DecidableEq, Repr

/-- The audit bookkeeping of R441 for one type and instance: recorded in this round, detections since, latest FLT_INFO. -/
structure FaultAud where
  ftype : Nat
  inst : Nat
  recorded : Bool
  since : Nat
  info : Word
  deriving DecidableEq, Repr

/-- Fault state beside the fault blocks' registers. -/
structure FaultSt where
  active : List ActiveFault
  aud : List FaultAud
  quiet : List (Nat × Nat)              -- (FTYPE, instance) latched with its quiet period complete (R443)
  recov : List (Nat × Nat × Nat)        -- block, type, US64 of each recovery within the last 3,600 s
  wdPend : BitVec 256                   -- WD_PEND per loop instance (R440)
  arithPend : BitVec 256                -- ARITH_PEND
  armed : List (Nat × Nat × Nat)        -- armed checkers: block, type, writes left (R444)
  injected : List (Nat × Nat × Nat)     -- checker, word and INJ_BITS of what was written with inverted check bits
  deriving DecidableEq, Repr

def FaultSt.reset : FaultSt := ⟨[], [], [], [], 0, 0, [], []⟩

/-! ### 16: housekeeping and calibration -/

/-- A triggered calibration item (R426 to R430): actuator, or 64 for the controller; 0 pending or deferred, 1 measuring, 2 applying;
US64 of the deferral; whether the deferral was counted; the settings at the start and the target (both in the item's own units);
the head, kind and zone in hand; the band at the start; grids run; whether the measurement in hand is the last; its store's outcome. -/
structure CalRun where
  act : Nat
  item : Nat
  phase : Nat
  since : Nat
  counted : Bool
  stale : Bool
  start : List Int
  target : List Int
  place : Nat × Nat × Nat
  band : Nat
  grids : Nat
  last : Bool
  stored : Bool
  sectors : Nat                   -- items 4 and 5: sectors measured (R428)
  marks : Nat × Nat × Nat         -- item 5: marks found, false and missed since the trigger
  peaks : List (Nat × Nat)        -- item 4: samples by |y| in whole units, rounded up
  sampled : List (Nat × Nat)      -- item 6: accepted sectors since the trigger, by 16 × head + tap zone (R426)
  tested : List Nat               -- item 6: heads with test sectors of item 7
  deriving DecidableEq, Repr

/-- The thermal sequencer beside its registers. -/
structure ThermSt where
  devRuns : List Nat              -- consecutive rounds a sensor lay more than 15 °C from the median (R418)
  limRuns : List Nat              -- consecutive rounds a channel lay outside its limits (R420)
  runs : List CalRun
  strobe : List Int               -- DDR strobe delays of each rank, relative to the stored ones, 1/64 UI (R428)
  gen : Nat × Nat                 -- GEN of kinds 1 and 6
  fracOld : List Nat              -- FRAC as the last 0xC1 event reported it (R359)
  slotFrom : List (Nat × Nat)     -- exclusive slots held: actuator and US64 of the start
  spareLow : BitVec 64            -- actuators whose Available Spare was below 10 at the last round (R359)
  latched : Bool                  -- a latched fault stood at the last round (R359)
  deriving DecidableEq, Repr

def ThermSt.reset : ThermSt :=
  ⟨List.replicate 16 0, List.replicate 96 0, [], List.replicate 16 0, (0, 0), List.replicate 64 100, [], 0, false⟩

/-! ### 04, 20: pins and power states -/

/-- Input pins and rails as the block sees them (R92 to R96, R100, R491). -/
structure PinSt where
  group1 : Bool                -- group 1 within tolerance
  vddIo : Bool                 -- VDD_IO within tolerance
  pwrOk : Bool
  perstN : Bool
  mgrSel : Bool
  i3c : Bool
  deriving DecidableEq, Repr

def PinSt.reset : PinSt := ⟨false, false, false, false, false, false⟩

/-- NVMe power states (R111 to R113): the last operational state, the US64 at which a return began, and HDAs whose loaded side is B
under PS2. -/
structure PwrSt where
  lastOp : Nat
  returnAt : Option Nat
  sideB : BitVec 32
  deriving DecidableEq, Repr

def PwrSt.reset : PwrSt := ⟨0, none, 0⟩

/-! ### What leaves the block -/

/-- What the block sends or returns, in order. DESIGN CHOICE: log 6. -/
inductive Output where
  /-- A downstream control word (R131): port, OP, TAG, SIDE, SEQ, operand bytes 2 to 27. `Output.frame` gives its 32 bytes. -/
  | ctl (h op tag side seq : Nat) (operands : List Nat)
  /-- A marker frame of WRT (SID 7) or AST (SID 8): SEQ and its payload bytes (R125, R127). -/
  | marker (h sid side seq : Nat) (payload : List Byte)
  /-- A data frame of WRT: 240 channel bits of a window, least significant bit first (R125). -/
  | dataFrame (h side seq : Nat) (payload : List Byte)
  /-- A link frame on a logical lane: its 32 bytes (R119). -/
  | link (h lane : Nat) (bytes : List Byte)
  /-- An MSI-X message on a vector (R79, R332). -/
  | msix (vec : Nat)
  /-- A completion entry: queue, submission queue and head, CID, status (SCT in [10:8], SC in [7:0], DNR in [14]), DW0 and DW1. -/
  | cqe (cq sq head : Nat) (cid : BitVec 16) (status : Nat) (dw0 dw1 : Word)
  /-- A user data grain written to host memory (R16): slot, GRAIN_IDX, LBA, payload. -/
  | grain (slot idx lba : Nat) (payload : List Byte)
  /-- Bytes written to host memory for a command in a slot (log pages, Identify, reports). -/
  | hostData (slot : Nat) (bytes : List Byte)
  /-- An Orrery message on a port, to the group address or unicast (R464, R470): MTYPE, DST_ID and its bytes (R469). -/
  | orr (port : Nat) (group : Bool) (type dst : Nat) (bytes : List Byte)
  /-- A PTP Sync of a domain on an Orrery port (R468). -/
  | ptp (port domain : Nat)
  /-- An MCTP message to the management controller: NVMe-MI response with tag and owner (R77). -/
  | mctp (bytes : List Byte) (tag : Byte) (owner : Bool)
  /-- What an access that acts returns to its initiator: a lock read, a mailbox read, a snapshot read, a memory read. -/
  | value (who : Initiator) (v : Word)
  | bytes (who : Initiator) (b : List Byte)
  /-- A bus error to the reader of a poisoned line of partition 4 (R397). -/
  | busError (who : Initiator)
  /-- A sector of the ledger tracks written: actuator, head, track, physical sector, channel bytes (R147); its window is not shown. -/
  | sector (n head track sector : Nat) (channel : List Byte)
  /-- A unit of a sanitize or format written (R380, R381, R385): actuator, head, its data tracks in order, and the word its sectors are filled with.
  `State.unitTrackBits` gives what each track holds. DESIGN CHOICE: log 179. -/
  | unit (n head : Nat) (tracks : List Nat) (fill : Word)
  /-- Test windows of item 7 written and read back (R428): actuator, head, track, and the nine pairs of WC and PHASE, each over 32 sectors.
  `testSector` gives what a sector holds. -/
  | testGrid (n head track : Nat) (pairs : List (Int × Int))
  /-- A calibration record written to the head-end flash of a port at an offset (R432); its FLASH words are not shown. -/
  | calRecord (h ofs : Nat) (b : List Byte)
  /-- The answer to a PCIe configuration request: retry status or not (R100). -/
  | config (retry : Bool)
  deriving DecidableEq, Repr

/-! ### 18: the Almanac -/

/-- What a record tells of (R441, R452, R453). The spec numbers no CODE for these beyond its category byte. DESIGN CHOICE: log 4. -/
inductive Ev where
  -- audit
  | load | unbound | fusedPort | liveChange | update | nsManage | hostTimestamp | disable | put
  | violation | revoke | floorRaise | keyNew | keyDestroy | injArm
  | faultDetect | faultRecovery | faultLatch | faultRelease
  | thermState | thermFraction | calStale | calFail
  | powerState | powerReturn | spinTimeout | drain
  | hourMark | ptpLock | ptpLoss | guarantee | clear | norFail | miTimeout | aging | orrery | scrub
  -- trace
  | epochOpen | epochCommit | epochChaff | operation | preempt | demodState | burstMiss | preseekChaff | verdict | ladder
  | armWithheld | gateClose | shortWindow | loopMode | swap | tune | spindleState | training | ctlError | stopMissing
  | hskRails | hskEvent | abortResolve | slotWait | rangeOp | tracePut
  deriving DecidableEq, Repr

/-- A record of either class (R451); PWR_CYCLE, HOURS and USEC as they were when it was written. `args` holds what the
rule that writes it says it gives, in the rule's order. -/
structure Rec where
  seq : Nat
  pwrCycle : Word
  hours : Nat
  usec : Nat
  src : Nat
  ev : Ev
  inst : Nat
  flags : Nat
  args : List Nat
  deriving DecidableEq, Repr

/-- The DATA bytes the spec lays out: the hour mark (R453), a clear (R460) and a put (R462). DESIGN CHOICE: log 4. -/
def Rec.data (r : Rec) : List Byte :=
  match r.ev with
  | .hourMark => toLe 4 (r.args.getD 0 0) ++ toLe 6 (r.args.getD 1 0) ++ toLe 4 (r.args.getD 2 0) ++ toLe 6 (r.args.getD 3 0)
  | .clear => toLe 4 (r.args.getD 0 0) ++ toLe 8 (r.args.getD 1 0) ++ toLe 1 (r.args.getD 2 0)
  | .put | .tracePut => (r.args.drop 1).flatMap (fun w => toLe 4 w)
  | _ => Config.recordData (r.seq + 2 ^ 64 * r.src)

/-- CODE (R453, R462): the category in [15:8] of an audit record; a put's own code; 0x0101 of a detection (the example of 18_almanac.md); otherwise
not numbered by the spec. DESIGN CHOICE: log 4. -/
def Rec.code (r : Rec) : Nat :=
  match r.ev with
  | .put => (r.src - 16) * 256 + r.args.getD 0 0 % 256
  | .tracePut => r.args.getD 0 0
  | .faultDetect => 0x0101
  | _ => if 16 ≤ r.src then (r.src - 16) * 256 + (Config.recordCode (r.seq + 2 ^ 64 * r.src)).toNat % 256
         else (Config.recordCode (r.seq + 2 ^ 64 * r.src)).toNat

/-- The 64 bytes of a record of a class (R451). -/
def Rec.bytes (r : Rec) (cls : Nat) : List Byte :=
  let body := toLe 8 r.seq ++ toLe 4 r.pwrCycle.toNat ++ toLe 4 r.hours ++ toLe 4 r.usec ++ toLe 1 cls ++ toLe 1 r.src
    ++ toLe 2 r.code ++ toLe 2 r.inst ++ toLe 1 r.flags ++ toLe 1 0 ++ (r.data ++ List.replicate 32 0).take 32
  body ++ toLe 4 (crc32c body)

/-- A snapshot handle (R458, R461). -/
structure Snap where
  isOpen : Bool
  broken : Bool
  first : Nat
  last : Nat
  page : Nat
  deriving DecidableEq, Repr

def Snap.reset : Snap := ⟨false, false, 0, 0, 0⟩

/-- One NOR audit sector (R457): header fields and the records it holds. -/
structure NorSector where
  index : Nat
  sectSeq : Nat
  firstSeq : Nat
  clrGen : Nat
  recs : List Rec
  deriving DecidableEq, Repr

/-- The Almanac beside its registers. -/
structure AlmSt where
  us64 : BitVec 64
  hours : Nat
  usec : Nat
  audit : List Rec                -- on-chip audit records, oldest first
  auditLast : Nat                 -- newest audit SEQ
  auditLoss : Bool                -- audit records were dropped before the next
  traceHead : Nat
  traceLoss : Bool
  clrGen : Nat
  snaps : Vector Snap 4
  nor : List NorSector
  norNext : Nat                   -- lowest SEQ not yet copied
  norSkip : Bool                  -- the last NOR write failed: the next goes to a new sector (R457)
  puts : Nat                      -- audit puts of the second in progress
  putSecond : Nat
  deriving DecidableEq, Repr

def AlmSt.reset : AlmSt := ⟨0, 0, 0, [], 0, false, 1, false, 0, Vector.replicate 4 Snap.reset, [], 1, false, 0, 0⟩


/-! ### 15: the Granary and DDR -/

/-- A way that is not plainly invalid (R401, R410): its line number (address / 128), place and bits; `old` is what DDR holds below a
dirty line. A lock without valid is a reserved slot. Main memory (State.mem) is what an access reads, dirty lines included. DESIGN CHOICE: log 74. -/
structure GLine where
  line : Nat
  set : Nat
  way : Nat
  valid : Bool
  dirty : Bool
  lock : Bool
  sec : Bool
  old : List Byte
  deriving DecidableEq, Repr

/-- The Granary, and what DDR keeps beside its contents. -/
structure GranSt where
  lines : List GLine
  glean : List Nat               -- dirty lines whose write-back is in flight (R404), oldest first
  queue : List Nat               -- request slots in order of GO
  ranDone : Bool                 -- the operation of the first slot has been applied; its write-backs are outstanding
  poison : List Nat              -- poisoned lines (R396)
  dimmFails : List (Nat × Nat)   -- consecutive failed sensor reads of a DIMM, at 2 × channel + slot (R399)
  trained : List Nat             -- serial numbers of the last successful training, as NOR keeps them (R391)
  deriving DecidableEq, Repr

def GranSt.reset : GranSt := ⟨[], [], [], false, [], [], []⟩

/-! ### 19: the Orrery -/

/-- A token as its manager records it: request, ID, spin or standing, watts in 0.1 W (R472, R474). -/
structure Token where
  reqId : Nat
  id : Nat
  spin : Bool
  watts : Nat
  deriving DecidableEq, Repr

/-- A member as the manager knows it (R467, R474, R475). -/
structure Member where
  id : Nat
  serial : Nat
  eligible : Bool
  prio : Nat
  ports : Nat
  steady : Nat
  tokens : List Token
  absent : Bool
  deriving DecidableEq, Repr

/-- A request: of a member in the manager's queue, or a device's own (member 0x3FF) waiting for its grant. `told`: the audit
record of a request that can never be granted is written (R475). -/
structure TokReq where
  member : Nat
  reqId : Nat
  spin : Bool
  group : Nat
  watts : Nat
  told : Bool
  deriving DecidableEq, Repr

/-- An image transfer a member receives (R479). -/
structure Xfer where
  id : Nat
  target : Nat
  length : Nat
  got : List Nat
  deriving DecidableEq, Repr

/-- The fabric beside its registers. Stage of the election (R466): 0 before the lock, 1 listening, 2 the claim second, 3 past it. -/
structure OrrSt where
  stage : Nat
  sent : Nat                      -- messages sent since reset
  seen : List (Nat × Nat)         -- (DEV_SERIAL, SEQ) pairs received (R464)
  hiEpoch : Nat                   -- highest epoch seen in any message
  claims : List (Nat × Nat)       -- PRIO and DEV_SERIAL of claims heard
  joinPend : Bool
  joinFull : Bool
  nextReq : Nat
  reqs : List TokReq              -- own requests not granted yet
  tokens : List Token             -- own tokens held
  returns : List Nat              -- tokens returned and not acknowledged
  members : List Member
  queue : List TokReq
  nextToken : Nat
  holdGrants : Bool               -- the 2 s after a takeover (R476)
  mgrLost : Bool
  xfer : Option Xfer
  needs : List (Nat × Nat × Nat)  -- manager: member, XFER_ID, index to resume from
  results : List (Nat × Nat × Nat × Nat) -- manager: member, XFER_ID, STATUS, step
  pull : Option Nat               -- next SEQ of an audit pull being answered (R480)
  pages : List (Nat × List (List Byte)) -- manager: audit records received, by member
  window : Option (Nat × Nat)     -- US64 of a calibration window's start and end (R481)
  ptpRun : Nat                    -- consecutive syncs within 1 µs
  ptp : Nat × Nat × Nat           -- PTP seconds, nanoseconds, and the US64 of the Sync
  deriving DecidableEq, Repr

def OrrSt.reset : OrrSt :=
  { stage := 0, sent := 0, seen := [], hiEpoch := 0, claims := [], joinPend := false, joinFull := false, nextReq := 1, reqs := [],
    tokens := [], returns := [], members := [], queue := [], nextToken := 1, holdGrants := false, mgrLost := false, xfer := none,
    needs := [], results := [], pull := none, pages := [], window := none, ptpRun := 0, ptp := (0, 0, 0) }

def PoolSt.reset : PoolSt := ⟨[], [], [], []⟩

/-- The host interface with every feature at its default (R335), no queue, and every namespace created and attached. DESIGN CHOICE: log 33. -/
def HostSt.reset : HostSt :=
  { cc := 0, rdy := false, shst := 0, nssro := false, sqs := [], cqs := [], cmds := [], waiting := [],
    places := [], pins := [], stamp := 0, rr := [0, 0, 0, 0], turn := (0, 0), credit := [0, 0, 0], tler := [], thresh := [],
    vwc := true, ncqr := (0, 0), coal := (0, 0), vecOff := [], aec := 0xFFFFFFFF, apst := none, ts := (0, 0), aerMasked := [],
    aerWait := [], errs := [], errCount := 0, changedNs := [], changedZones := [], msix := [], pba := [], changedLost := [], attached := BitVec.allOnes 128,
    created := BitVec.allOnes 64, unsafe_ := 0, shutdownSeen := false, dataErrors := 0, sanFailed := false, sanRun := none, sanCdw := 0, sanDone := false,
    test := ⟨none, []⟩, warnMs := (0, 0), classCnt := [0, 0, 0, 0], miResp := none, aqa := 0, asq := 0, acq := 0, thrMs := 0, lostSnap := [], fwLen := 0 }

end Sys2Proof.Machine
end

