-- ==== Sys2Proof/Machine/Frames.lean ====
section
/-!
DEFINITION. Machine/Frames.lean: the Awn link in bits and bytes: slots, link frames, payload headers and control words (R117 to
R120, R122, R131), and the samples a stream's data frames carry.
-/

namespace Sys2Proof.Machine

/-- A list of at least `n` bytes cut or filled with zeros to `n`. -/
def padTo (n : Nat) (b : List Byte) : List Byte := b.take n ++ List.replicate (n - b.length) 0

/-- Little-endian value of bytes. -/
def leNat (b : List Byte) : Nat := b.foldr (fun x v => x.toNat + 256 * v) 0

/-! ### Slots and stripes (R117, R118) -/

/-- The 257 bits of a slot: T, then frame bits 0 to 255 (R117). -/
def slotBits (link : Bool) (frame : List Byte) : Nat := (if link then 1 else 0) + 2 * leNat (padTo 32 frame)

/-- A slot's frame type and its 32 bytes (R117). -/
def slotFrame (v : Nat) : Bool × List Byte := (v % 2 == 1, toLe 32 (v / 2))

/-- Number in the frame sequence of the frame in stripe slot `s` of logical lane `i` of `L` (R118). -/
def stripeFrame (L s i : Nat) : Nat := s * L + i

/-! ### Link frames (R119) -/

/-- IDLE: LTYPE 0. -/
def idleFrame : List Byte := List.replicate 32 0

/-- ALN: LTYPE 1, logical lane, L, ALN_SEQ. -/
def alnFrame (lane L : Nat) (seq : Word) : List Byte := padTo 32 ([1, BitVec.ofNat 8 lane, BitVec.ofNat 8 L, 0] ++ toLe 4 seq.toNat)

/-- TRAIN: LTYPE 2, lane, TSTATE, COEF_REQ, COEF_STS, preset, precoding. -/
def trainFrame (lane tstate req sts preset : Nat) (precode : Bool) : List Byte :=
  padTo 32 [2, BitVec.ofNat 8 lane, BitVec.ofNat 8 tstate, BitVec.ofNat 8 req, BitVec.ofNat 8 sts, BitVec.ofNat 8 preset,
    if precode then 1 else 0]

/-! ### Payload frames (R120, R122, R131) -/

/-- The 16-bit header of a payload frame (R120). -/
def frameHeader (sid side : Nat) (mark : Bool) (seq : Nat) : Nat :=
  sid % 16 + 16 * (side % 2) + (if mark then 32 else 0) + 64 * (seq % 1024)

/-- A payload frame: header and 30 payload bytes (R120). -/
def payloadFrame (sid side : Nat) (mark : Bool) (seq : Nat) (payload : List Byte) : List Byte :=
  toLe 2 (frameHeader sid side mark seq) ++ padTo 30 payload

/-- Bytes 0 to 29 of a CTL frame: header, OP, TAG, operands (R131). -/
def ctlBody (side seq op tag : Nat) (operands : List Nat) : List Byte :=
  toLe 2 (frameHeader 6 side false seq) ++ padTo 28 ([BitVec.ofNat 8 op, BitVec.ofNat 8 tag] ++ operands.map (BitVec.ofNat 8))

/-- CRC-16 over frame bytes 0 to 29 (R131). -/
def ctlCrc (side seq op tag : Nat) (operands : List Nat) : BitVec 16 := BitVec.ofNat 16 (crc16 (ctlBody side seq op tag operands))

/-- A CTL frame (R131). -/
def ctlFrame (side seq op tag : Nat) (operands : List Nat) : List Byte :=
  ctlBody side seq op tag operands ++ toLe 2 (ctlCrc side seq op tag operands).toNat

/-- The 32 bytes of a frame that leaves on a link, with T (R117). -/
def Output.frame : Output → Option (Bool × List Byte)
  | .ctl _ op tag side seq b => some (false, ctlFrame side seq op tag b)
  | .marker _ sid side seq p => some (false, payloadFrame sid side true seq p)
  | .dataFrame _ side seq p => some (false, payloadFrame 7 side false seq p)
  | .link _ _ b => some (true, b)
  | _ => none

/-- Its slot (R117). -/
def Output.slot (o : Output) : Option Nat := o.frame.map (fun f => slotBits f.1 f.2)

/-- Two's complement of the low `w` bits. -/
def signed (w v : Nat) : Int := if 2 ^ (w - 1) ≤ v % 2 ^ w then (v % 2 ^ w : Int) - 2 ^ w else (v % 2 ^ w : Nat)

/-- Whole samples of `w` bits from a bit stream of `n` bits, least significant bit first, and the bits left over (R122). -/
def unpack (w v n fuel : Nat) : List Int × Nat × Nat :=
  match fuel with
  | 0 => ([], v, n)
  | fuel + 1 =>
    if w ≤ n ∧ 0 < w then
      let (l, r) := unpack w (v / 2 ^ w) (n - w) fuel
      (signed w v :: l, r)
    else ([], v, n)

/-- Bits of a sample of a stream (R122). -/
def sampleWidth (sid : Nat) : Nat := if sid = 3 then 6 else 7

end Sys2Proof.Machine
end

