-- ==== Sys2Proof/Machine/Float32.lean ====
section
/-!
DEFINITION. Machine/Float32.lean: IEEE 754 binary32 on words, round to nearest even, subnormal inputs and results flushed
to zero with their sign kept (R295). A finite value is exact as n / 2^k; every operation rounds once.
-/

namespace Sys2Proof.Machine

/-- Sign bit. -/
def F32.neg (w : Word) : Bool := w.toNat / 0x80000000 == 1

/-- Exponent field. -/
def F32.expo (w : Word) : Nat := w.toNat / 0x800000 % 256

/-- Infinite or NaN. -/
def F32.bad (w : Word) : Bool := F32.expo w == 255

def F32.nan (w : Word) : Bool := F32.bad w && w.toNat % 0x800000 != 0

/-- A subnormal flushed to a zero of its sign. -/
def F32.flush (w : Word) : Word := if F32.expo w = 0 then (if F32.neg w then 0x80000000 else 0) else w

/-- Magnitude of a finite word as n / 2^149. -/
def F32.mag (w : Word) : Nat :=
  if F32.expo w = 0 then 0 else (w.toNat % 0x800000 + 0x800000) * 2 ^ (F32.expo w - 1)

/-- A word's value times 2^149; an infinity or a NaN used as a number outside a loop program is a free value. DESIGN CHOICE: log 40. -/
def F32.val (w : Word) : Int := if F32.bad w then Config.floatInt w else if F32.neg w then -(F32.mag w : Int) else F32.mag w

/-- Round the magnitude n / d, with its sign, to nearest even. -/
def F32.roundMag (neg : Bool) (n d : Nat) : Word :=
  let sign : Nat := if neg then 0x80000000 else 0
  if n = 0 then BitVec.ofNat 32 sign
  else
    let s0 : Int := (Nat.log2 n : Int) - Nat.log2 d - 24
    let num (s : Int) : Nat := n * 2 ^ (-s).toNat
    let den (s : Int) : Nat := d * 2 ^ s.toNat
    let s : Int := if 0x1000000 ≤ num s0 / den s0 then s0 + 1 else s0
    let q := num s / den s
    let r := num s % den s
    let q := if den s < 2 * r ∨ (2 * r = den s ∧ q % 2 = 1) then q + 1 else q
    let (q, s) := if q = 0x1000000 then (0x800000, s + 1) else (q, s)
    let e : Int := s + 150
    if e ≤ 0 then BitVec.ofNat 32 sign
    else if 255 ≤ e then BitVec.ofNat 32 (sign + 0x7F800000)
    else BitVec.ofNat 32 (sign + e.toNat * 0x800000 + (q - 0x800000))

/-- Round the rational n / d; an exact zero is +0. -/
def F32.ofRat (n : Int) (d : Nat) : Word := F32.roundMag (decide (n < 0)) n.natAbs d

def F32.ofInt (n : Int) : Word := F32.ofRat n 1

/-- The order of two words as reals (infinities included, zeros equal). -/
def F32.key (w : Word) : Int := if F32.bad w then (if F32.neg w then -(2 ^ 300) else 2 ^ 300) else F32.val w

def F32.lt (a b : Word) : Bool := !(F32.nan a) && !(F32.nan b) && decide (F32.key a < F32.key b)
def F32.le (a b : Word) : Bool := !(F32.nan a) && !(F32.nan b) && decide (F32.key a ≤ F32.key b)

def F32.negate (w : Word) : Word := w ^^^ 0x80000000
def F32.abs (w : Word) : Word := w &&& 0x7FFFFFFF

/-- A result, none where it is a NaN or an infinity (R295). -/
def F32.keep (w : Word) : Option Word := if F32.bad w then none else some (F32.flush w)

/-- A + B. -/
def F32.add (a b : Word) : Option Word :=
  if F32.bad a ∨ F32.bad b then none
  else
    let v := F32.val a + F32.val b
    if v = 0 then some (if F32.neg a ∧ F32.neg b then 0x80000000 else 0)
    else F32.keep (F32.ofRat v (2 ^ 149))

def F32.sub (a b : Word) : Option Word := F32.add a (F32.negate b)

/-- A × B. -/
def F32.mul (a b : Word) : Option Word :=
  if F32.bad a ∨ F32.bad b then none
  else F32.keep (F32.roundMag (xor (F32.neg a) (F32.neg b)) (F32.mag a * F32.mag b) (2 ^ 298))

/-- A × B + C, rounded once. -/
def F32.mac (a b c : Word) : Option Word :=
  if F32.bad a ∨ F32.bad b ∨ F32.bad c then none
  else
    let v := F32.val a * F32.val b + F32.val c * 2 ^ 149
    if v = 0 then some (if (xor (F32.neg a) (F32.neg b)) ∧ F32.neg c then 0x80000000 else 0)
    else F32.keep (F32.ofRat v (2 ^ 298))

/-- A ÷ B. -/
def F32.div (a b : Word) : Option Word :=
  if F32.bad a ∨ F32.bad b ∨ F32.mag b = 0 then none
  else F32.keep (F32.roundMag (xor (F32.neg a) (F32.neg b)) (F32.mag a) (F32.mag b))

/-- min and max of two words; none where one is a NaN. -/
def F32.min (a b : Word) : Option Word := if F32.nan a ∨ F32.nan b then none else F32.keep (if F32.key b < F32.key a then b else a)
def F32.max (a b : Word) : Option Word := if F32.nan a ∨ F32.nan b then none else F32.keep (if F32.key a < F32.key b then b else a)

/-- Integer square root of a number below 2^520, bit by bit from the top. -/
def F32.isqrt (m : Nat) : Nat :=
  (List.range 260).foldl (fun r i => let c := r + 2 ^ (259 - i); if c * c ≤ m then c else r) 0

/-- Square root of a finite word that is not negative. -/
def F32.sqrt (a : Word) : Option Word :=
  if F32.bad a ∨ F32.val a < 0 then none
  else
    -- mag / 2^149 = (mag × 2^151) / 2^300; 40 further bits and a sticky bit leave the one rounding
    let m := F32.mag a * 2 ^ 151 * 2 ^ 80
    let r := F32.isqrt m
    F32.keep (F32.roundMag false (2 * r + (if r * r = m then 0 else 1)) (2 ^ 191))

/-- Sums and products that carry a failure through. -/
def F32.add? (a b : Option Word) : Option Word := a.bind (fun x => b.bind (F32.add x))
def F32.sub? (a b : Option Word) : Option Word := a.bind (fun x => b.bind (F32.sub x))
def F32.mul? (a b : Option Word) : Option Word := a.bind (fun x => b.bind (F32.mul x))
def F32.div? (a b : Option Word) : Option Word := a.bind (fun x => b.bind (F32.div x))

/-! Outside a loop program the spec states no result where an operation has none that is finite: it is a free value (log 40). -/

/-- DESIGN CHOICE: log 40 and 83. -/
def fAdd (a b : Word) : Word := (F32.add a b).getD (Config.floatOpen 0 a b)
/-- DESIGN CHOICE: log 40. -/
def fSub (a b : Word) : Word := (F32.sub a b).getD (Config.floatOpen 1 a b)
/-- DESIGN CHOICE: log 40. -/
def fMul (a b : Word) : Word := (F32.mul a b).getD (Config.floatOpen 2 a b)
/-- DESIGN CHOICE: log 40. -/
def fDiv (a b : Word) : Word := (F32.div a b).getD (Config.floatOpen 3 a b)
/-- DESIGN CHOICE: log 40. -/
def fSqrt (a : Word) : Word := (F32.sqrt a).getD (Config.floatOpen 4 a 0)
/-- DESIGN CHOICE: log 40. -/
def fMin (a b : Word) : Word := (F32.min a b).getD (Config.floatOpen 5 a b)
/-- DESIGN CHOICE: log 40. -/
def fMax (a b : Word) : Word := (F32.max a b).getD (Config.floatOpen 6 a b)

/-- Round a word to the nearest integer, halves up. -/
def F32.toIntUp (w : Word) : Int := (2 * F32.val w + 2 ^ 149).fdiv (2 ^ 150)

/-! ### Real numbers the formulas need, in units of 10^-30 -/

/-- DESIGN CHOICE: log 45. -/
def Fix.one : Int := 10 ^ 30

/-- A finite binary32 word, truncated to 10^-30. -/
def Fix.ofF32 (w : Word) : Int := (F32.val w * Fix.one).fdiv (2 ^ 149)

def Fix.pi : Int := 3141592653589793238462643383280

def Fix.mul (a b : Int) : Int := (a * b).fdiv Fix.one
def Fix.div (a b : Int) : Int := (a * Fix.one).fdiv b

/-- The terms x^(2j + odd) / (2j + odd)! with alternating signs, summed: sine (odd) and cosine. -/
def Fix.series (x term : Int) (k fuel : Nat) : Int :=
  match fuel with
  | 0 => 0
  | fuel + 1 => term + Fix.series x (-(Fix.mul (Fix.mul term x) x).fdiv ((k + 1) * (k + 2))) (k + 2) fuel

/-- DESIGN CHOICE: log 45. -/
def Fix.sin (x : Int) : Int := Fix.series x x 1 24
/-- DESIGN CHOICE: log 45. -/
def Fix.cos (x : Int) : Int := Fix.series x Fix.one 0 24
/-- The tangent has period π: the angle is first brought to −π/2 to π/2. DESIGN CHOICE: log 45. -/
def Fix.tan (x : Int) : Int :=
  let y := x - Fix.pi * ((2 * x + Fix.pi).fdiv (2 * Fix.pi))
  Fix.div (Fix.sin y) (Fix.cos y)

end Sys2Proof.Machine
end

