-- ==== Sys2Proof/Machine/Desc.lean ====
section
/-!
DEFINITION. Machine/Desc.lean: the HDA descriptor (R143 to R146): its checks, its contents, and the contradictions of R53
and R160 that leave a port unbound.
-/

namespace Sys2Proof.Machine

/-- One directory entry (R143). -/
structure DirEnt where
  stype : Nat
  side : Nat
  zero : Nat
  ofs : Nat
  len : Nat
  deriving DecidableEq, Repr

def descDir (b : List Byte) : List DirEnt :=
  (List.range (le16 b 0xC)).map (fun i =>
    let p := 64 + 12 * i
    ⟨le16 b p, byteAt b (p + 2), byteAt b (p + 3), le32 b (p + 4), le32 b (p + 8)⟩)

/-- The section of a STYPE and SIDE. -/
def descSect (b : List Byte) (stype side : Nat) : Option (List Byte) :=
  ((descDir b).find? (fun e => e.stype == stype && e.side == side)).map (fun e => (b.drop e.ofs).take e.len)

/-- The least LEN of a section's body (R144). -/
def sectMin (stype : Nat) (s : List Byte) : Nat :=
  match stype with
  | 1 => 22
  | 2 => if s.length < 8 then 8 else 8 + 16 * le32 s 0
  | 3 => 24
  | 4 => 16
  | 5 => 48
  | 6 => 8
  | 7 => 8
  | 8 => 20
  | 9 => 32
  | 10 => if s.length < 4 then 4 else 4 + 8 * le16 s 0
  | _ => 0

/-- `n` binary32 words from offset `i`. -/
def f32s (s : List Byte) (i n : Nat) : List Word := (List.range n).map (fun j => BitVec.ofNat 32 (le32 s (i + 4 * j)))

/-- Positive values in strictly ascending order (R145). -/
def ascending (l : List Word) : Bool :=
  match l with
  | a :: b :: rest => F32.lt 0 a && F32.lt a b && ascending (b :: rest)
  | [a] => F32.lt 0 a
  | [] => true

/-- The header checks of R145, before anything else of the copy is read. -/
def descHeaderOk (b : List Byte) : Bool :=
  let n := le32 b 8
  le32 b 0 == 0x31414448 && le16 b 4 == 1 && le16 b 6 == 64 && n % 8 == 0 && n ≤ 262144 && 64 + 12 * le16 b 0xC + 4 ≤ n

/-- Every check of R145 on a copy. -/
def descOk (b : List Byte) : Bool :=
  let n := le32 b 8
  let d := descDir b
  let sides := byteAt b 0x11
  let sidePresent (x : Nat) : Bool := x < 2 && sides / 2 ^ x % 2 == 1
  descHeaderOk b && crc32c (b.take (n - 4)) == le32 b (n - 4)
    && d.all (fun e => e.zero == 0 && e.ofs % 8 == 0 && 64 + 12 * le16 b 0xC ≤ e.ofs && e.ofs + e.len ≤ n - 4 && e.stype != 0
      && (if e.stype = 1 ∨ (6 ≤ e.stype ∧ e.stype ≤ 10) then e.side == 0xFF else true)
      && (if 2 ≤ e.stype ∧ e.stype ≤ 5 then sidePresent e.side else true)
      && (if e.stype ≤ 10 then sectMin e.stype ((b.drop e.ofs).take e.len) ≤ e.len else true))
    && decide ((d.map (fun e => (e.stype, e.side))).Nodup)
    && [1, 6, 7, 8, 9, 10].all (fun t => (descSect b t 0xFF).isSome)
    && [2, 3, 4, 5].all (fun t => [0, 1].all (fun x => !(sidePresent x) || (descSect b t x).isSome))
    && (match descSect b 8 0xFF with | some s => 5 ≤ byteAt s 1 && byteAt s 1 ≤ 14 | none => false)
    && (match descSect b 10 0xFF with
        | some s => 1 ≤ le16 s 0 && le16 s 0 ≤ 256 && ascending (f32s s 4 (le16 s 0)) && ascending (f32s s (4 + 4 * le16 s 0) (le16 s 0))
        | none => false)

/-- Sections 2 to 5 of one side (R144). -/
def descSide (b : List Byte) (x : Nat) : Option SideDesc := do
  let z ← descSect b 2 x
  let t ← descSect b 3 x
  let g ← descSect b 4 x
  let l ← descSect b 5 x
  some
    { zones := (List.range (le32 z 0)).map (fun i =>
        let p := 8 + 16 * i
        ⟨le32 z p, le32 z (p + 4), le16 z (p + 8), le32 z (p + 12)⟩),
      framesPerRev := le16 t 0, toneCycles := le32 t 4, stripeAngle := BitVec.ofNat 32 (le32 t 8),
      trackPitch := BitVec.ofNat 32 (le32 t 12), odRadius := BitVec.ofNat 32 (le32 t 16),
      zoneCnt := le32 g 0, convLbas := le64 g 8,
      head0 := byteAt l 0, head1 := byteAt l 1, ledTracks := le16 l 2, ledFirst0 := le32 l 4, ledFirst1 := le32 l 8,
      ledBase := (List.range 4).map (fun k => le32 l (16 + 8 * k)), ledCount := (List.range 4).map (fun k => le32 l (20 + 8 * k)) }

/-- What a copy that passed R145 says. -/
def descBody (b : List Byte) : Option Desc := do
  let r ← descSect b 1 0xFF
  let c ← descSect b 6 0xFF
  let a ← descSect b 7 0xFF
  let p ← descSect b 8 0xFF
  let m ← descSect b 9 0xFF
  let g ← descSect b 10 0xFF
  some
    { actCnt := byteAt b 0xE, surfCnt := byteAt b 0xF, heads := byteAt b 0x10, sides := byteAt b 0x11, assist := byteAt b 0x12,
      maxLanes := byteAt b 0x13, speeds := byteAt b 0x14, heRev := byteAt b 0x15, spinPeak := le16 b 0x16,
      serial := (b.drop 0x18).take 16, spinTime := le16 b 0x38, readers := (List.range 22).map (fun s => byteAt r s),
      sideA := descSide b 0, sideB := descSide b 1, calOfs := le32 c 0, calSize := le32 c 4,
      assistType := byteAt a 0, maxLevel := le16 a 2, polePairs := byteAt p 0, railCnt := byteAt p 1, retractMs := le16 p 2,
      rPhase := BitVec.ofNat 32 (le32 p 4), lPhase := BitVec.ofNat 32 (le32 p 8), ke := BitVec.ofNat 32 (le32 p 12),
      busNom := BitVec.ofNat 32 (le32 p 16), mscale := f32s m 0 8, gains := f32s g 4 (le16 g 0),
      gainsTransit := f32s g (4 + 4 * le16 g 0) (le16 g 0) }

/-- A copy's descriptor, none where it fails R145. -/
def parseDesc (b : List Byte) : Option Desc := if descOk b = true then descBody b else none

/-- The side's sections. -/
def Desc.side (d : Desc) (x : Nat) : Option SideDesc := if x = 0 then d.sideA else d.sideB

/-- The speed PORT names: 0 is 7,200 rpm (R36). -/
def speedOffered (d : Desc) (speed : Nat) : Bool := d.speeds / 2 ^ speed % 2 == 1

/-- Readers that lattice MODE m reads: a, b (R38). -/
def modeReads (m : Nat) : Bool × Bool :=
  match m with
  | 0 | 1 | 2 => (true, true)
  | 3 => (true, false)
  | _ => (false, true)

/-- Cause 5 of R53 on one head: a mode reads an absent reader, or MODE 0, 1 or 2 applies to a head with one reader. -/
def readerConflict (mode readers : Nat) : Bool :=
  let (a, b) := modeReads mode
  (a && readers % 2 == 0) || (b && readers / 2 % 2 == 0)

/-- Cause 5 of R53 for a port: over the enabled sides' data heads. -/
def latticeConflict (c : Structure) (d : Desc) (h sideEn : Nat) : Bool :=
  [0, 1].any (fun x => sideEn / 2 ^ x % 2 == 1 &&
    (List.range 10).any (fun k => readerConflict (c.modeOf (2 * h + x) (k + 1)) (d.readers.getD (11 * x + k + 1) 0)))

/-- The requirements of R160 on one side's TRANSIT and ZONES sections. -/
def transitOk (s : SideDesc) : Bool :=
  let t := Fix.tan (Fix.ofF32 s.stripeAngle)
  let pitch := Fix.ofF32 s.trackPitch
  let od := Fix.ofF32 s.odRadius
  s.framesPerRev == 1800 && 512 ≤ s.toneCycles && s.toneCycles ≤ 1024
    && !(F32.bad s.stripeAngle) && Fix.one ≤ t && t ≤ 8 * Fix.one
    && !(F32.bad s.trackPitch) && 15 * Fix.one ≤ pitch && pitch ≤ 100 * Fix.one
    && !(F32.bad s.odRadius) && 15 * Fix.one ≤ od && od ≤ 48 * Fix.one
    && s.zones.all (fun z => z.ratio * s.toneCycles * 216000 ≤ 4800000000 * 2 ^ 24)

end Sys2Proof.Machine
end

