-- ==== Sys2Proof/Machine/State.lean ====
section
/-!
DEFINITION. Machine/State.lean: the state of the block, the reasons a step can stop, and the state after reset.
-/

namespace Sys2Proof.Machine

/-- Why a step faults. -/
inductive Fault where
  /-- Raised by no command: the spec gives every command an effect. Safe. -/
  | unused
  deriving DecidableEq, Repr

/-- Why a command is refused. -/
inductive Refusal where
  /-- Raised by Machine/Dispatch.lean for a command without a meaning, by mnemonic. Safe. -/
  | notModelled (mnemonic : String)
  deriving DecidableEq, Repr

/-- The state (INVENTORY.md lists every piece with its rule). -/
structure State where
  /-- Commands waiting, first in, first out (the model's own). -/
  pending : List Instr
  /-- What has left the block, oldest first (the model's own). -/
  out : List Output
  /-- Counts the free values drawn (the model's own). -/
  fresh : Nat
  /-- Where the start stands. -/
  phase : Phase
  /-- The register file: fields that differ from their Reset value, keys rising. -/
  regs : List (Nat × Word)
  /-- Lower halves written and waiting for their higher write (R9), by address. -/
  staged : List (Nat × Word)
  /-- The structure in force (R48 to R51). -/
  cfg : Option Structure
  /-- Main memory: bytes that differ from an unwritten byte's value, addresses rising. DESIGN CHOICE: logs 7 and 74. -/
  mem : List (Nat × Byte)
  gran : GranSt
  /-- Local memory of the Tiller engines, 256 KiB each at 2^18 × engine (R62): bytes that are not 0. -/
  engMem : List (Nat × Byte)
  mbox : Vector Mbox 128
  locks : Vector Lock 256
  /-- Window registers, at 8 × ID + w (R64). -/
  wins : List (Nat × Win)
  viol : List (Nat × Viol)
  husk : Husk
  ports : Vector PortSt 32
  acts : Vector ActSt 64
  loops : Vector LoopSt 256
  flt : FaultSt
  /-- Grains with SPEC = 1 whose epoch is open (R16, R17). -/
  held : List Grain
  /-- The read cache, DDR partition 6: settled run-ahead grains (R201). -/
  cache : List CacheGrain
  lanes : Vector LaneSt 64
  pool : PoolSt
  host : HostSt
  /-- The volatile write buffer, oldest first. -/
  buf : List BufGrain
  /-- Spin-up groups in order (R104). -/
  spin : List SpinGroup
  /-- HDAs bound and UP that no group holds yet, ascending (R104). -/
  spinWait : List Nat
  /-- US64 at which the latest group started, and groups formed so far. -/
  spinLast : Option Nat
  spinCount : Nat
  alm : AlmSt
  orr : OrrSt
  spn : Vector SpinSt 32
  thm : ThermSt
  pins : PinSt
  pwr : PwrSt
  /-- SAFE_n levels: bit h set, high (R95, R103). -/
  safeN : BitVec 32
  /-- Islands whose clock a power state has gated (R20, R111): bit i, island Ci. -/
  gated : BitVec 18
  deriving DecidableEq, Repr

/-- Husk before the first power-on: blank NOR and OTP, nothing loaded. DESIGN CHOICE: log 5. -/
def Husk.reset : Husk :=
  { slots := List.replicate 4 ⟨0, false⟩, floor := 0, rootSecret := 0, identityKey := none, wrapKey := none, serial := 0, tTrim := 0,
    sensTrim := List.replicate 16 0, variantH := false, bundleA := [], bundleB := [], imageA := [],
    imageB := [], calNor := [], sanitizeNor := [], fwVersion := none, candidate := 0, requests := [], patchSeq := 0,
    liveTherm := [], liveGran := [], imageTherm := ThermRec.default, imageGran := ⟨16, 0, false⟩, wrapped := [], keySlots := [], keyGen := [],
    loading := none, halted := false, miSeq := 0,
    miOut := none, miWait := [], rstLow := false, rootDrained := false }

/-- The block right after reset: every register at its Reset value, PWR_OK not yet risen, nothing loaded (R7, R99). DESIGN CHOICE: log 11. -/
def State.reset : State :=
  { pending := [], out := [], fresh := 0, phase := .off, regs := Regs.resetFile, staged := [], cfg := none, mem := [], engMem := [], gran := GranSt.reset,
    mbox := Vector.replicate 128 Mbox.reset, locks := Vector.replicate 256 Lock.reset, wins := [], viol := [], husk := Husk.reset,
    ports := Vector.replicate 32 PortSt.reset, acts := Vector.replicate 64 ActSt.reset, loops := Vector.replicate 256 LoopSt.reset,
    flt := FaultSt.reset, held := [], cache := [], lanes := Vector.replicate 64 LaneSt.reset, pool := PoolSt.reset,
    host := HostSt.reset, buf := [], spin := [], spinWait := [], spinLast := none, spinCount := 0, alm := AlmSt.reset, orr := OrrSt.reset,
    spn := Vector.replicate 32 SpinSt.reset, thm := ThermSt.reset, pins := PinSt.reset, pwr := PwrSt.reset, safeN := 0, gated := 0 }

end Sys2Proof.Machine
end

