-- ==== Sys2Proof/Machine/Ops.lean ====
section
/-!
DEFINITION. Machine/Ops.lean: the named operations every meaning is written over: the register file, the parts of State,
what leaves the block, main memory, and the records of the Almanac.
-/

namespace Sys2Proof.Machine

/-- A successful step. -/
abbrev Res := Host.Outcome State Fault Refusal

/-! ### Registers (R7 to R10) -/

/-- Copy `j` of a field in instance `i` of its block. -/
def State.rdAt (s : State) (f : RegField) (i j : Nat) : Word := Sparse.read s.regs (f.key i j) f.reset

def State.rd (s : State) (f : RegField) (i : Nat) : Word := s.rdAt f i 0

def State.rdN (s : State) (f : RegField) (i : Nat) : Nat := (s.rd f i).toNat

/-- A one-bit field. -/
def State.rdB (s : State) (f : RegField) (i : Nat) : Bool := s.rd f i == 1

/-- A field read as two's complement in its own width. -/
def State.rdInt (s : State) (f : RegField) (i j : Nat) : Int :=
  let v := (s.rdAt f i j).toNat
  if 2 ^ (f.width - 1) ≤ v then (v : Int) - 2 ^ f.width else v

def State.wrAt (s : State) (f : RegField) (i j : Nat) (v : Word) : State :=
  { s with regs := Sparse.write s.regs (f.key i j) f.reset (f.trunc v) }

def State.wr (s : State) (f : RegField) (i : Nat) (v : Word) : State := s.wrAt f i 0 v

def State.wrN (s : State) (f : RegField) (i : Nat) (v : Nat) : State := s.wr f i (BitVec.ofNat 32 v)

def State.wrB (s : State) (f : RegField) (i : Nat) (v : Bool) : State := s.wr f i (if v then 1 else 0)

/-- Write a two's complement number. -/
def State.wrInt (s : State) (f : RegField) (i j : Nat) (v : Int) : State := s.wrAt f i j (BitVec.ofInt 32 v)

/-- Add to a counter that saturates at its width. -/
def State.bumpBy (s : State) (f : RegField) (i j n : Nat) : State :=
  s.wrAt f i j (BitVec.ofNat 32 (min ((s.rdAt f i j).toNat + n) (2 ^ f.width - 1)))

def State.bump (s : State) (f : RegField) (i : Nat) : State := s.bumpBy f i 0 1

/-- Add one to a counter that wraps. -/
def State.bumpWrap (s : State) (f : RegField) (i j : Nat) : State := s.wrAt f i j (s.rdAt f i j + 1)

/-- A 64-bit quantity in two registers, low word first (R9). -/
def State.wr64 (s : State) (lo hi : RegField) (i j v : Nat) : State :=
  (s.wrAt lo i j (BitVec.ofNat 32 v)).wrAt hi i j (BitVec.ofNat 32 (v / 2 ^ 32))

/-- Bit `k` of a bit-mapped field. -/
def State.rdBit (s : State) (f : RegField) (i k : Nat) : Bool := (s.rd f i).getLsbD k

def State.wrBit (s : State) (f : RegField) (i k : Nat) (v : Bool) : State :=
  let m : Word := BitVec.ofNat 32 (2 ^ k)
  s.wr f i (if v then s.rd f i ||| m else s.rd f i &&& ~~~m)

/-! ### The parts of State -/

/-- Change entry `i` of a vector. -/
def vupd {α : Type} {n : Nat} (v : Vector α n) (i : Nat) (f : α → α) : Vector α n :=
  if h : i < n then v.set i (f v[i]) h else v

def State.port (s : State) (h : Nat) : PortSt := s.ports.toArray.getD h PortSt.reset
def State.updPort (s : State) (h : Nat) (f : PortSt → PortSt) : State := { s with ports := vupd s.ports h f }
def State.act (s : State) (n : Nat) : ActSt := s.acts.toArray.getD n ActSt.reset
def State.updAct (s : State) (n : Nat) (f : ActSt → ActSt) : State := { s with acts := vupd s.acts n f }
def State.loop (s : State) (g : Nat) : LoopSt := s.loops.toArray.getD g LoopSt.reset
def State.updLoop (s : State) (g : Nat) (f : LoopSt → LoopSt) : State := { s with loops := vupd s.loops g f }

def State.spinSt (s : State) (h : Nat) : SpinSt := s.spn.toArray.getD h SpinSt.reset
def State.updSpin (s : State) (h : Nat) (f : SpinSt → SpinSt) : State := { s with spn := vupd s.spn h f }

/-- Direction `d` of channel `ch` lies at 2 × ch + d. -/
def State.mb (s : State) (ch d : Nat) : Mbox := s.mbox.toArray.getD (2 * ch + d) Mbox.reset
def State.updMbox (s : State) (ch d : Nat) (f : Mbox → Mbox) : State := { s with mbox := vupd s.mbox (2 * ch + d) f }

def State.lane (s : State) (l : Nat) : LaneSt := s.lanes.toArray.getD l LaneSt.reset
def State.updLane (s : State) (l : Nat) (f : LaneSt → LaneSt) : State := { s with lanes := vupd s.lanes l f }
def State.updHusk (s : State) (f : Husk → Husk) : State := { s with husk := f s.husk }
def State.updFlt (s : State) (f : FaultSt → FaultSt) : State := { s with flt := f s.flt }
def State.updThm (s : State) (f : ThermSt → ThermSt) : State := { s with thm := f s.thm }
def State.updAlm (s : State) (f : AlmSt → AlmSt) : State := { s with alm := f s.alm }

/-- Send or return something. DESIGN CHOICE: log 6. -/
def State.emit (s : State) (o : Output) : State := { s with out := s.out ++ [o] }

/-- Use up one free value. DESIGN CHOICE: log 8. -/
def State.tick (s : State) : State := { s with fresh := s.fresh + 1 }

/-! ### Entries of a list kept by key -/

/-- Replace or add the entry of a key. -/
def assocSet {α : Type} (l : List (Nat × α)) (k : Nat) (v : α) : List (Nat × α) :=
  match l with
  | [] => [(k, v)]
  | (k', v') :: rest => if k' = k then (k, v) :: rest else (k', v') :: assocSet rest k v

def assocDel {α : Type} (l : List (Nat × α)) (k : Nat) : List (Nat × α) := l.filter (fun p => p.1 != k)

/-- Entry `i` of a list replaced. -/
def listSet {α : Type} (l : List α) (i : Nat) (v : α) : List α := l.set i v

/-! ### The structure in force -/

/-- The structure, or the recovery structure's shape where none is in force yet (nothing declared). -/
def State.str (s : State) : Structure := s.cfg.getD Structure.recovery

def State.fused (s : State) (h : Nat) : Bool := fusedOff s.husk.variantH h

/-- Actuator n exists (R36). -/
def State.actExists (s : State) (n : Nat) : Bool := s.str.exists s.husk.variantH n

/-- Port h is declared and not fused off. -/
def State.declared (s : State) (h : Nat) : Bool := (s.str.port h).isSome && !(s.fused h)

/-- Port h is bound (R52). -/
def State.bound (s : State) (h : Nat) : Bool := s.rdBit Reg.status_PORT_BOUND 0 h

/-- Port h is in state UP (R137). -/
def State.up (s : State) (h : Nat) : Bool := s.rd Reg.port_STATE h == 7

/-- The Sheaf lock is set (R51). -/
def State.locked (s : State) : Bool := s.rdB Reg.status_LOCKED 0

/-- The engine of actuator n (R37). -/
def State.engine (s : State) (n : Nat) : Nat := s.str.engineOf n

/-- The actuator engine e works on, if it is bound. -/
def State.engAct (s : State) (e : Nat) : Option Nat := s.str.actOfEngine s.husk.variantH e

/-- The descriptor in use for port h. -/
def State.desc (s : State) (h : Nat) : Option Desc := (s.port h).desc

/-- The side sections of actuator n. -/
def State.sideDesc (s : State) (n : Nat) : Option SideDesc := (s.desc (n / 2)).bind (fun d => d.side (n % 2))

/-- Attributes of channel c: the loaded MAILBOX record, zeros before a structure is applied (R7, R43). -/
def State.chan (s : State) (c : Nat) : MboxRec :=
  match s.cfg with
  | some st => st.mailbox.getD c ⟨false, false, 0⟩
  | none => ⟨false, false, 0⟩

/-- Data registers of a channel (R43). -/
def MboxRec.regs (m : MboxRec) : Nat := 8 + 4 * m.size

/-! ### Main memory (R12, R22) -/

/-- What an unwritten byte of DDR reads as. DESIGN CHOICE: log 7. -/
def Memory.unwritten : Byte := 0

/-- DESIGN CHOICE: log 7. -/
def Memory.read (m : List (Nat × Byte)) (a : Nat) : Byte := Sparse.read m a Memory.unwritten

def Memory.write (m : List (Nat × Byte)) (a : Nat) (v : Byte) : List (Nat × Byte) := Sparse.write m a Memory.unwritten v

/-- The canonical form: addresses strictly rising, no entry equal to an unwritten byte. -/
def Memory.wf (m : List (Nat × Byte)) : Bool := Sparse.rising 0 m && m.all (fun p => p.2 != Memory.unwritten)

def Memory.readBytes (m : List (Nat × Byte)) (a n : Nat) : List Byte :=
  match n with
  | 0 => []
  | n + 1 => Memory.read m a :: Memory.readBytes m (a + 1) n

def Memory.writeBytes (m : List (Nat × Byte)) (a : Nat) (b : List Byte) : List (Nat × Byte) :=
  match b with
  | [] => m
  | x :: rest => Memory.writeBytes (Memory.write m a x) (a + 1) rest

def State.memRead (s : State) (a n : Nat) : List Byte := Memory.readBytes s.mem a n
def State.memWrite (s : State) (a : Nat) (b : List Byte) : State := { s with mem := Memory.writeBytes s.mem a b }

/-- An address range lies in one partition. -/
def State.inPart (s : State) (id a n : Nat) : Bool :=
  match s.str.part id with
  | some p => p.base ≤ a && a + n ≤ p.stop
  | none => false

/-! ### Initiators, windows and violations (R22, R59 to R66) -/

/-- Initiator IDs (R59). -/
def idHusk : Nat := 0x00
def idCulm (c : Nat) : Nat := 0x10 + c
def idEngine (e : Nat) : Nat := 0x20 + e
def idLoader (q : Nat) : Nat := 0x70 + q
def idAgent : Nat := 0x78
def idHost : Nat := 0x80

/-- A transaction of this initiator is secure (R59); the ones that carry SEC of a grain are taken as non-secure here. -/
def isSecure (id : Nat) : Bool := id == 0 || (0x70 ≤ id && id ≤ 0x73) || id == 0x78

/-- A Culm core's ID. -/
def isCulm (id : Nat) : Bool := 0x10 ≤ id && id < 0x20

/-- The engine an ID names (R59). -/
def engineId (id : Nat) : Option Nat := if 0x20 ≤ id ∧ id ≤ 0x63 then some (id - 0x20) else none

/-- The engines that move data for the block itself (R59): PCIe DMA, the queue and command engine, the Awn quadrant of port h, the
Thresher, and the engines of the management block. -/
def idDma : Nat := 0x81
def idQce : Nat := 0x82
def idAwn (h : Nat) : Nat := 0x84 + h / 8
def idThresher : Nat := 0x88
def idMgmt : Nat := 0x8A

/-- Initiators whose secure bit is the SEC of the grain they move (R59). -/
def carriesSec (id : Nat) : Bool := id == 0x81 || (0x84 ≤ id && id ≤ 0x88)

/-- Window w of an initiator. -/
def State.win (s : State) (id w : Nat) : Win := (s.wins.lookup (8 * id + w)).getD Win.reset

/-- Stage 1 of R63. -/
def State.stage1 (s : State) (id addr : Nat) (wr : Bool) : Bool :=
  id == idHusk || (List.range 8).any (fun w =>
    let x := s.win id w
    x.en && x.base ≤ addr / 4096 && addr / 4096 ≤ x.lim && (if wr then x.wr else x.rd))

/-- What an access meets. -/
inductive Acc where
  | ok
  | ignored                -- stage 3: no effect, no violation
  | viol (dom : Bool)      -- stage 1 (false) or stage 2 (true)
  | dropped (island : Nat) -- R20
  deriving DecidableEq, Repr

def State.violOf (s : State) (id : Nat) : Viol := (s.viol.lookup id).getD Viol.reset

/-- Count a violation (R66). -/
def State.violate (s : State) (id addr : Nat) (wr dom : Bool) : State :=
  let v := s.violOf id
  { s with viol := assocSet s.viol id { v with cnt := min (v.cnt + 1) 0xFFFFFFFF, addr := BitVec.ofNat 48 addr, wr := wr, dom := dom } }

/-- DDR's first byte, and bytes installed. -/
def ddrBase : Nat := 0x010000000000
def State.installed (s : State) : Nat := s.rdN Reg.ddr_TOTAL_MIB 0 * 1048576

/-- The Husk-only regions of R22: boot ROM, private SRAM, and OTP with the crypto block and the Sheaf lock. -/
def inRom (a : Nat) : Bool := a < 0x020000
def inSram (a : Nat) : Bool := 0x100000 ≤ a && a < 0x180000
def inOtp (a : Nat) : Bool := 0x200000 ≤ a && a < 0x210000

/-- Stages 1 and 2 on an address outside the control windows: the Husk-only regions are Husk's; partition 5 takes secure transactions
only, and a transfer that moves a grain with SEC = 1 places it in no other partition (R22, R60); addresses past the installed memory are
unmapped (R393). DESIGN CHOICE: log 146, which names the address that lies in no partition and the secure grain bound elsewhere. -/
def State.memAcc (s : State) (who : Nat) (sec : Bool) (a : Nat) (wr : Bool) : Acc :=
  if s.stage1 who a wr = false then .viol false
  else if inRom a ∨ inSram a ∨ inOtp a then (if who = idHusk then .ok else .viol true)
  else if a < ddrBase ∨ ddrBase + s.installed ≤ a then .viol true
  else match s.str.parts.find? (fun p => p.base ≤ a && a < p.stop) with
    | some p => if (p.domain = 1 ∧ !sec) ∨ (p.id ≠ 5 ∧ wr ∧ sec ∧ carriesSec who) then .viol true else .ok
    | none => .viol true

/-- A crossing request wakes an island that a power state has gated (R20). -/
def State.wake (s : State) (i : Nat) : State := { s with gated := s.gated &&& ~~~(BitVec.ofNat 18 (2 ^ i)) }

/-- The 4 KiB pages of a transfer: first byte, place in the data, bytes. -/
def pages (a n fuel at_ : Nat) : List (Nat × Nat × Nat) :=
  match fuel with
  | 0 => []
  | fuel + 1 => if n = 0 then [] else
      let k := min n (4096 - a % 4096)
      (a, at_, k) :: pages (a + k) (n - k) fuel (at_ + k)

/-- A write of a whole line clears its poison (R396). -/
def State.clearPoison (s : State) (a n : Nat) : State :=
  { s with gran := { s.gran with poison := s.gran.poison.filter (fun l => !(a ≤ 128 * l && 128 * l + 128 ≤ a + n)) } }

/-- The block's own transfers into main memory meet stages 1 and 2 like any other access (R61, R63), page by page.
DESIGN CHOICE: log 147. -/
def State.dmaWrite (s : State) (who : Nat) (sec : Bool) (a : Nat) (b : List Byte) : State :=
  (pages a b.length (b.length / 4096 + 2) 0).foldl (fun s p =>
    match s.memAcc who sec p.1 true with
    | .viol dom => s.violate who p.1 true dom
    | _ => ((s.wake 7).clearPoison p.1 p.2.2).memWrite p.1 ((b.drop p.2.1).take p.2.2)) s

/-- What such a read returns: zero where a stage stops it (R24). -/
def State.dmaRead (s : State) (who : Nat) (sec : Bool) (a n : Nat) : List Byte :=
  (pages a n (n / 4096 + 2) 0).flatMap (fun p =>
    match s.memAcc who sec p.1 false with
    | .viol _ => List.replicate p.2.2 0
    | _ => s.memRead p.1 p.2.2)

/-- The violations of such a read. -/
def State.dmaReadViol (s : State) (who : Nat) (sec : Bool) (a n : Nat) : State :=
  (pages a n (n / 4096 + 2) 0).foldl (fun s p =>
    match s.memAcc who sec p.1 false with
    | .viol dom => s.violate who p.1 false dom
    | _ => s) s

/-! ### The Almanac (R451 to R460) -/

/-- Records the audit area holds in normal operation, and its reserve (R456). -/
def State.auditC (s : State) : Nat := (s.str.alm.auditKib - s.str.alm.reserveKib) * 16
def State.auditR (s : State) : Nat := s.str.alm.reserveKib * 16

/-- A snapshot that still protects its records. -/
def Snap.live (p : Snap) : Bool := p.isOpen && !p.broken

def State.auditCap (s : State) : Nat := if s.alm.snaps.toList.any Snap.live then s.auditC + s.auditR else s.auditC

/-- Discard the oldest held record: every snapshot whose range includes it breaks first (R456, R459). -/
def State.auditDrop (s : State) : State :=
  match s.alm.audit with
  | [] => s
  | r :: rest =>
    let hit (p : Snap) : Bool := p.live && p.first ≤ r.seq && r.seq ≤ p.last
    let n := (s.alm.snaps.toList.filter hit).length
    let s := s.bumpBy Reg.alm_SNAP_BREAK_CNT 0 0 n
    let s := if s.alm.norNext ≤ r.seq then s.bump Reg.alm_NOR_DROP_CNT 0 else s
    s.updAlm (fun a => { a with
      audit := rest,
      norNext := max a.norNext (r.seq + 1),
      snaps := a.snaps.map (fun p => if hit p then { p with broken := true } else p) })

/-- Discard until at most `cap` records are held. -/
def State.auditTrim (s : State) (cap fuel : Nat) : State :=
  match fuel with
  | 0 => s
  | fuel + 1 => if cap < s.alm.audit.length then State.auditTrim s.auditDrop cap fuel else s

/-- Trim to the limit in force; breaking the last snapshot lowers it, so the trim runs to the lower limit then (R456). -/
def State.auditFit (s : State) : State :=
  let s := s.auditTrim s.auditCap s.alm.audit.length
  s.auditTrim s.auditCap s.alm.audit.length

/-- Write an audit record of a category (R451, R453, R456). -/
def State.audit (s : State) (cat : Nat) (ev : Ev) (inst : Nat) (args : List Nat) (firmware : Bool := false) : State :=
  let seq := s.alm.auditLast + 1
  let r : Rec := ⟨seq, s.rd Reg.status_PWR_CYCLE 0, s.alm.hours, s.alm.usec, 16 + cat, ev, inst,
    (if s.alm.auditLoss then 1 else 0) + (if firmware then 2 else 0), args⟩
  State.auditFit (s.updAlm (fun a => { a with audit := a.audit ++ [r], auditLast := seq, auditLoss := false }))

/-- INST of a record about no instance (R451). -/
def noInst : Nat := 0xFFFF

/-- Write a trace record of a source, if the image enables it and a trace ring exists (R452, R454). -/
def State.trace (s : State) (src : Nat) (ev : Ev) (inst : Nat) (args : List Nat := []) (firmware : Bool := false) : State :=
  let n := s.str.alm.traceMib * 16384
  if s.str.alm.traceSrc / 2 ^ src % 2 = 1 ∧ 0 < n then
    match s.str.part 2 with
    | some p =>
      let seq := s.alm.traceHead
      let r : Rec := ⟨seq, s.rd Reg.status_PWR_CYCLE 0, s.alm.hours, s.alm.usec, src, ev, inst,
        (if s.alm.traceLoss then 1 else 0) + (if firmware then 2 else 0), args⟩
      (s.dmaWrite idMgmt false (p.base + (seq - 1) % n * 64) (r.bytes 1)).updAlm
        (fun a => { a with traceHead := seq + 1, traceLoss := false })
    | none => s
  else s

end Sys2Proof.Machine
end

