-- ==== Sys2Proof/Machine/Operands.lean ====
section
/-!
DEFINITION. Machine/Operands.lean: the numbering of R5 that operands and fields share, and what an operand names.
-/

namespace Sys2Proof.Machine

/-- HDA of an actuator, its side, and back (R5). -/
def hdaOf (n : Nat) : Nat := n / 2
def sideOf (n : Nat) : Nat := n % 2
def actOf (h side : Nat) : Nat := 2 * h + side

/-- Quadrant of an actuator and of an HDA. -/
def quadOfAct (n : Nat) : Nat := n / 16
def quadOfHda (h : Nat) : Nat := h / 8

/-- Loop instances of actuator n (R287): VCM, MA, LASER; and of HDA h: the two SPINDLE instances. -/
def vcmLoop (n : Nat) : Nat := 64 * (n / 16) + n % 16
def maLoop (n : Nat) : Nat := 64 * (n / 16) + 16 + n % 16
def laserLoop (n : Nat) : Nat := 64 * (n / 16) + 32 + n % 16
def spinLoop (h k : Nat) : Nat := 64 * (h / 8) + 48 + 2 * (h % 8) + k

/-- Kind of a loop instance (R287). -/
inductive LoopKind where
  | vcm | ma | laser | spindle
  deriving DecidableEq, Repr

def loopKind (g : Nat) : LoopKind :=
  if g % 64 < 16 then .vcm else if g % 64 < 32 then .ma else if g % 64 < 48 then .laser else .spindle

/-- Actuator of a VCM, MA or LASER instance. -/
def loopAct (g : Nat) : Nat := 16 * (g / 64) + g % 16

/-- HDA of an instance. -/
def loopHda (g : Nat) : Nat := match loopKind g with | .spindle => 8 * (g / 64) + (g % 64 - 48) / 2 | _ => loopAct g / 2

/-- NSIDs of an actuator, and the actuator and kind of an NSID (R5). -/
def zonedNs (n : Nat) : Nat := 2 * n + 1
def convNs (n : Nat) : Nat := 2 * n + 2
def nsAct (nsid : Nat) : Nat := (nsid - 1) / 2
def nsIsConv (nsid : Nat) : Bool := nsid % 2 == 0

/-- Zone of an LBA and the offset in it (R5). -/
def zoneOf (lba : Nat) : Nat := lba / 65536
def zoneOfs (lba : Nat) : Nat := lba % 65536

/-- The float32 period and the tolerance of R269 at a PORT SPEED, in ps. -/
def nominalPeriod (speed : Nat) : Nat × Nat := if speed = 0 then (4629630, 4630) else (6172840, 6173)

/-- Spindle speed in rpm at a PORT SPEED (R36). -/
def nominalRpm (speed : Nat) : Nat := if speed = 0 then 7200 else 5400

/-- 32-bit two's complement of an integer, and back. -/
def toW (i : Int) : Word := BitVec.ofInt 32 i

/-- FRAME_NO comparison modulo 2^32 over windows below 2^31 frames (R166): a is before b. -/
def frameBefore (a b : Word) : Bool := (b - a) != 0 && (b - a).toNat < 2 ^ 31

/-- A frame number as four little-endian bytes of a control word. -/
def wBytes (w : Word) : List Nat := [w.toNat % 256, w.toNat / 256 % 256, w.toNat / 65536 % 256, w.toNat / 16777216 % 256]
def hBytes (v : Nat) : List Nat := [v % 256, v / 256 % 256]

/-! ### Grain areas (R12, R394) -/

/-- N of a grain area: 16 grains a capture record in partition 1, what SIZE_MIB holds in partitions 0 and 6 (R394). -/
def State.grainCount (s : State) (id : Nat) : Nat :=
  match s.str.part id with
  | some p => if id = 1 then 16 * s.rdN Reg.thresh_CAP_RECORDS 0 else p.sizeMib * 1048576 / 4160
  | none => 0

/-- Where grain x of an area has its payload, and its tag. -/
def State.grainAt (s : State) (id x : Nat) : Nat := match s.str.part id with | some p => p.base + 4096 * x | none => 0
def State.tagAt (s : State) (id x : Nat) : Nat := match s.str.part id with | some p => p.base + 4096 * s.grainCount id + 64 * x | none => 0

/-- Payload of grain x of an area. -/
def State.grainBytes (s : State) (id x : Nat) : List Byte := s.memRead (s.grainAt id x) 4096

/-- No line of the grain is poisoned (R397). -/
def State.grainClean (s : State) (id x : Nat) : Bool :=
  let a := s.grainAt id x / 128
  s.gran.poison.all (fun l => !((a ≤ l && l < a + 32) || l == s.tagAt id x / 128))

/-- What the consumer of grain x of an area finds: a sound TAG_CRC, in lines that are not poisoned (R14, R397). -/
def State.grainGood (s : State) (id x : Nat) : Bool :=
  (s.str.part id).isSome && s.grainClean id x && tagSound (s.memRead (s.tagAt id x) 64)

/-- The block that consumes the grains of an area, by its tag-integrity fault: the recovery pool captures, the queue and command engine
the others. -/
def areaChecker (id : Nat) : Nat := if id = 1 then 0x0B00 else 0x0400

/-- The name an area's grain has for an injection (R444). -/
def areaWord (id x : Nat) : Nat := id * 2 ^ 32 + x

/-! ### Where the tag sends a sample grain (R15) -/

/-- The tag of a sample grain from the Awn link: `src` is SAMPLE_SRC (R13). -/
def sampleTag (act src len frameTs : Nat) : Tag :=
  { Tag.zero with kind := 1, act := act, noCmd := true, len := len, sampleSrc := src, frameTs := frameTs }

/-- KIND, ACT and SAMPLE_SRC select the destination: the class and instance of the block that takes a grain of KIND 1. -/
def sampleDest (lane : Nat → Nat) (t : Tag) : Nat × Nat :=
  match t.sampleSrc with
  | 0 | 1 => (0x0A, lane t.act)
  | 2 => (0x06, t.act)
  | 3 => (0x09, hdaOf t.act)
  | _ => (0x0C, 0)

end Sys2Proof.Machine
end

