-- ==== Sys2Proof/Machine/Geometry.lean ====
section
/-!
DEFINITION. Machine/Geometry.lean: where sectors lie: the track format of R206 to R208 and the placement of zones and of the
conventional band of R367. Also the timing of a bit in transit frames (R171).
-/

namespace Sys2Proof.Machine

/-- Bits of a physical sector, of a burst, and of a burst group (R206). -/
def sectorBits : Nat := 36944
def burstBits : Nat := 256

/-- First bit of physical sector i (R206). -/
def sectorFirst (i : Nat) : Nat := (i / 32 + 1) * burstBits + i * sectorBits

/-- Data sectors of a track of `spt` physical sectors (R208). -/
def dataPerTrack (spt : Nat) : Nat := spt - 2 * ((spt + 49) / 50)

/-- Physical sector of data sector d (R208). -/
def dataSector (d : Nat) : Nat := 50 * (d / 48) + d % 48

/-- Physical sectors of segment s on a track of `spt`: first, and the first of its two parity sectors (R208). -/
def segParity (spt s : Nat) : Nat := min (50 * s + 49) (spt - 1) - 1

/-- The data sector a physical sector is, none for a parity sector (R208). -/
def dataIndex (spt i : Nat) : Option Nat :=
  let s := i / 50
  if i < segParity spt s then some (48 * s + i % 50) else none

/-- What R207 asks of a ZONES entry. -/
def zoneEntOk (toneCycles : Nat) (z : ZoneEnt) : Bool :=
  3 ≤ z.spt && z.spt ≤ 2048 && (z.spt % 50 == 0 || 3 ≤ z.spt % 50)
    && z.spt * sectorBits + (z.spt + 31) / 32 * burstBits + 4096 ≤ z.ratio * toneCycles * 1800 / 2 ^ 24

/-- Tracks of a data head. -/
def SideDesc.tracks (d : SideDesc) : Nat := (d.zones.map (fun z => z.first + z.tracks)).foldl max 0

/-- The ZONES entry of a track. -/
def SideDesc.zoneOfTrack (d : SideDesc) (t : Nat) : Option ZoneEnt :=
  d.zones.find? (fun z => z.first ≤ t && t < z.first + z.tracks)

/-- Its index (R144). -/
def zoneIdx (d : SideDesc) (track : Nat) : Option Nat :=
  d.zones.findIdx? (fun z => z.first ≤ track && track < z.first + z.tracks)

def SideDesc.spt (d : SideDesc) (t : Nat) : Nat := match d.zoneOfTrack t with | some z => z.spt | none => 0

/-- Fewest consecutive tracks from `t` that hold `need` data sectors; none where the surface ends first. -/
def tracksFor (zs : List ZoneEnt) (t need : Nat) : Option Nat :=
  match zs with
  | [] => none
  | z :: rest =>
    let stop := z.first + z.tracks
    if t < stop then
      let per := dataPerTrack z.spt
      if need ≤ (stop - t) * per then some ((need + per - 1) / (max per 1))
      else (tracksFor rest stop (need - (stop - t) * per)).map (fun n => n + (stop - t))
    else tracksFor rest t need

/-- Data sectors on tracks `a` to `b` − 1. -/
def dataCount (zs : List ZoneEnt) (a b : Nat) : Nat :=
  (zs.map (fun z => (min b (z.first + z.tracks) - max a z.first) * dataPerTrack z.spt)).sum

/-- The ledger region on a head, if any: first track and count (R147). -/
def SideDesc.ledgerOn (d : SideDesc) (k : Nat) : Option (Nat × Nat) :=
  if k = d.head0 then some (d.ledFirst0, d.ledTracks) else if k = d.head1 then some (d.ledFirst1, d.ledTracks) else none

/-- Where a zone that may start on track `t` of head k lies: first track and track count, past a ledger region its tracks or
its guard track would overlap (R367). -/
def SideDesc.placeZone (d : SideDesc) (k t : Nat) : Option (Nat × Nat) :=
  let at_ (t : Nat) : Option (Nat × Nat) := (tracksFor d.zones t 65536).map (fun n => (t, n))
  match d.ledgerOn k, at_ t with
  | some (a, c), some (t, n) => if a < t + n + 1 ∧ t < a + c then at_ (a + c) else some (t, n)
  | _, p => p

/-- Zone j of head k: first track and count. -/
def SideDesc.headZone (d : SideDesc) (k j : Nat) : Option (Nat × Nat) :=
  match j with
  | 0 => d.placeZone k 0
  | j + 1 => (d.headZone k j).bind (fun p => d.placeZone k (p.1 + p.2 + 1))

/-- Head and head-local number of zone z (R367). -/
def zoneHead (z : Nat) : Nat := 1 + z / 250 % 10
def zoneJ (z : Nat) : Nat := 250 * (z / 2500) + z % 250

/-- Zone z: head, first track, tracks. -/
def SideDesc.zonePos (d : SideDesc) (z : Nat) : Option (Nat × Nat × Nat) :=
  if z < d.zoneCnt then (d.headZone (zoneHead z) (zoneJ z)).map (fun p => (zoneHead z, p.1, p.2)) else none

/-- Conventional spares of a band (R248). -/
def SideDesc.convSpares (d : SideDesc) : Nat := d.convLbas / 512

/-- Fewest innermost tracks that hold `need` data sectors. -/
def bandTracks (d : SideDesc) (need fuel t : Nat) : Nat :=
  match fuel with
  | 0 => t
  | fuel + 1 => if need ≤ dataCount d.zones (d.tracks - t) d.tracks then t else bandTracks d need fuel (t + 1)

/-- T_c of R367. -/
def SideDesc.tc (d : SideDesc) : Nat :=
  if d.convLbas = 0 then 0 else bandTracks d ((d.convLbas + d.convSpares + 9) / 10) (d.tracks + 1) 0

/-- Track on which the `o`-th data sector from track `t` lies, and its physical sector. -/
def walk (d : SideDesc) (t o fuel : Nat) : Nat × Nat :=
  match fuel with
  | 0 => (t, 0)
  | fuel + 1 =>
    let per := dataPerTrack (d.spt t)
    if o < per then (t, dataSector o) else walk d (t + 1) (o - per) fuel

/-- Head, track and physical sector of data sector `x` of the conventional band, in band order (R248, R367). -/
def SideDesc.convPos (d : SideDesc) (x : Nat) : Option (Nat × Nat × Nat) :=
  let first := d.tracks - d.tc
  let cap := dataCount d.zones first d.tracks
  if cap = 0 ∨ 10 * cap ≤ x then none
  else
    let p := walk d first (x % cap) d.tc
    some (1 + x / cap, p.1, p.2)

/-- Head, track and physical sector of an LBA position of a namespace (R264, R367). -/
def SideDesc.lbaPos (d : SideDesc) (conv : Bool) (lba : Nat) : Option (Nat × Nat × Nat) :=
  if conv then d.convPos lba
  else (d.zonePos (zoneOf lba)).map (fun p => let q := walk d p.2.1 (zoneOfs lba) p.2.2; (p.1, q.1, q.2))

/-- The zone of head k whose tracks hold track t, searching from its zone j at `start`. -/
def SideDesc.findZone (d : SideDesc) (k t j start fuel : Nat) : Option (Nat × Nat) :=
  match fuel with
  | 0 => none
  | fuel + 1 =>
    match d.placeZone k start with
    | none => none
    | some p => if t < p.1 then none else if t < p.1 + p.2 then some (j, p.1) else d.findZone k t (j + 1) (p.1 + p.2 + 1) fuel

/-- The namespace and LBA position of physical sector i of track t on head k, none outside both namespaces and for a parity
sector. -/
def SideDesc.posLba (d : SideDesc) (k t i : Nat) : Option (Bool × Nat) :=
  match dataIndex (d.spt t) i with
  | none => none
  | some x =>
    let first := d.tracks - d.tc
    if first ≤ t ∧ d.tc ≠ 0 then
      some (true, (k - 1) * dataCount d.zones first d.tracks + dataCount d.zones first t + x)
    else
      match d.findZone k t 0 0 d.zoneCnt with
      | some (j, start) =>
        let z := 2500 * (j / 250) + 250 * (k - 1) + j % 250
        let o := dataCount d.zones start t + x
        if z < d.zoneCnt ∧ o < 65536 then some (false, z * 65536 + o) else none
      | none => none

/-- Where the zone placement or the band contradicts the surface (R367). -/
def SideDesc.layoutBad (d : SideDesc) : Bool :=
  let first := d.tracks - d.tc
  let band := d.convLbas != 0 && (decide (10 * dataCount d.zones 0 d.tracks < d.convLbas + d.convSpares)
    || [1, 2, 3, 4, 5, 6, 7, 8, 9, 10].any (fun k => match d.ledgerOn k with
      | some (a, c) => decide (first < a + c ∧ a < d.tracks)
      | none => false))
  let last (k : Nat) : Option Nat := ((List.range d.zoneCnt).filter (fun z => zoneHead z == k)).getLast?
  let zones := [1, 2, 3, 4, 5, 6, 7, 8, 9, 10].any (fun k => match last k with
    | some z => (match d.zonePos z with | some p => decide (first < p.2.1 + p.2.2 + 1) | none => true)
    | none => false)
  band || zones

/-- The grounds of PORT_CAUSE 10 beyond R160: R207, R367, R373 and the ZONES count of R432. -/
def SideDesc.geometryBad (d : SideDesc) : Bool :=
  !(d.zones.all (zoneEntOk d.toneCycles)) || d.layoutBad || decide (818 < d.zones.length)
    || decide (d.ledCount.getD 2 0 < 2 + ((d.zoneCnt + 3) / 4 + 4027) / 4028)

/-- R171 and R172: the transit frame (0 to 1,799) in which track bit b lies, given TIM_OFS and RATIO; `bitOfs` is BIT_OFS, the data-clock
edges from that frame's boundary to the bit's edge. -/
def bitFrame (d : SideDesc) (ratio : Nat) (tim : Int) (b : Nat) : Nat :=
  -- β = (b + tim / 64) / RATIO tone cycles; RATIO has 24 fraction bits
  let num := ((b : Int) * 64 + tim) * 2 ^ 24
  let den : Int := 64 * (max ratio 1) * (max d.toneCycles 1)
  ((num.fdiv den) % 1800).toNat

/-- Edges before the boundary of the frame with signed index f: those at tone time below it. -/
def edgesBefore (d : SideDesc) (ratio : Nat) (tim : Int) (f : Int) : Int :=
  -- edge j falls at (j + phase / 64) / RATIO; phase = tim mod 64
  let cyc : Int := f * d.toneCycles
  let ph := tim % 64
  0 - Int.fdiv (ph * 2 ^ 24 - cyc * ratio * 64) (64 * 2 ^ 24)

/-- BIT_OFS of track bit b; a bit before the index lies in the last frame of the revolution before (R171). -/
def bitOfs (d : SideDesc) (ratio : Nat) (tim : Int) (b : Nat) : Nat :=
  let num := ((b : Int) * 64 + tim) * 2 ^ 24
  let den : Int := 64 * (max ratio 1) * (max d.toneCycles 1)
  ((b : Int) + tim.fdiv 64 - edgesBefore d ratio tim (num.fdiv den)).toNat

end Sys2Proof.Machine
end

