-- ==== Sys2Proof/Machine/Codeword.lean ====
section
/-!
DEFINITION. Machine/Codeword.lean: the sector codeword of 08_read_channel.md (seal, CRC-64, LDPC parity, scrambler, framing)
and the track parity of R243.
-/

namespace Sys2Proof.Machine

/-! ### The seal (R211) -/

/-- CRC-64/XZ over bytes: polynomial 0x42F0E1EBA9EA3693, reflected, initial value and final XOR all ones. -/
def crc64Bit (c : BitVec 64) : BitVec 64 := if c.getLsbD 0 then (c >>> 1) ^^^ 0xC96C5795D7870F42#64 else c >>> 1

def crc64Byte (c : BitVec 64) (b : Byte) : BitVec 64 :=
  (List.range 8).foldl (fun c _ => crc64Bit c) (c ^^^ b.setWidth 64)

def crc64 (b : List Byte) : Nat := ((b.foldl crc64Byte (BitVec.allOnes 64)) ^^^ BitVec.allOnes 64).toNat

/-- SEAL_LBA of a namespace sector, and of a parity sector (R211). -/
def sealLba (conv : Bool) (lba : Nat) : Nat := if conv then lba + 2 ^ 62 else lba
def sealParity (head track seg q : Nat) : Nat := 0xFFFE000000000000 + head * 2 ^ 44 + track * 2 ^ 16 + seg * 2 + q

/-- What R250 sets as the expected LBA of a sector its LBA has left, and the sanitize seal of R381. -/
def sealNone : Nat := 0xFFFFFFFFFFFFFFFF
def sealSanitize : Nat := 0xFFFFFFFFFFFFFFFE

/-- SEAL_LBA of test sector `i` of calibration item 7 (R428). -/
def sealTest (i : Nat) : Nat := 0xFFFD000000000000 + i

/-- The 32-byte seal. -/
def sealBytes (payload : List Byte) (lba : Nat) : List Byte :=
  let l := toLe 8 lba
  l ++ toLe 8 (crc64 (payload ++ l)) ++ List.replicate 16 0

/-! ### The code (R210, R212) -/

/-- Information block c: bits 256c to 256c + 255 of payload and seal. -/
def infoBlock (b : List Byte) (c : Nat) : BitVec 256 := BitVec.ofNat 256 (leAt b (32 * c) 32)

/-- Block (r, c) of H is nonzero, for an information column. -/
def ldpcIn (r c : Nat) : Bool := r == c % 15 || r == (c + 4) % 15 || r == (c + 8) % 15 || r == (c + 11) % 15

def ldpcShift (r c : Nat) : Nat := (17 * r * c + 5 * c + 3 * r + 1) % 256

/-- rot(v, s)[i] = v[(i + s) mod 256]. -/
def ldpcRot (v : BitVec 256) (s : Nat) : BitVec 256 := v.rotateRight s

def ldpcSyn (u : List (BitVec 256)) (r : Nat) : BitVec 256 :=
  u.zipIdx.foldl (fun a x => if ldpcIn r x.2 then a ^^^ ldpcRot x.1 (ldpcShift r x.2) else a) 0

/-- p[0] to p[14], each the sum of its syndrome and the one before. -/
def ldpcParity (u : List (BitVec 256)) (r : Nat) (prev : BitVec 256) (fuel : Nat) : List (BitVec 256) :=
  match fuel with
  | 0 => []
  | fuel + 1 => let p := ldpcSyn u r ^^^ prev; p :: ldpcParity u (r + 1) p fuel

/-- The 4,608 bytes of the codeword of a payload and its seal. -/
def codeword (info : List Byte) : List Byte :=
  let u := (List.range 129).map (infoBlock info)
  (u ++ ldpcParity u 0 0 15).flatMap (fun w => toLe 32 w.toNat)

/-! ### Scrambling and framing (R209, R213) -/

/-- One scrambler step: the bit it gives and the next state. -/
def scrStep (st : BitVec 16) : Bool × BitVec 16 :=
  let fb := st.getLsbD 15 ^^ st.getLsbD 13 ^^ st.getLsbD 12 ^^ st.getLsbD 10
  (st.getLsbD 15, (st <<< 1) ||| (if fb then 1 else 0))

/-- Eight bits, the first in bit 0. -/
def scrByte (st : BitVec 16) : Byte × BitVec 16 :=
  (List.range 8).foldl (fun a i =>
    let r := scrStep a.2
    (a.1 ||| (if r.1 then BitVec.ofNat 8 (2 ^ i) else 0), r.2)) (0, st)

def scramble (b : List Byte) (st : BitVec 16) : List Byte :=
  match b with
  | [] => []
  | x :: rest => let r := scrByte st; (x ^^^ r.1) :: scramble rest r.2

/-- The channel bits of physical sector i as bytes, the first bit in bit 0: preamble 1100…, sync mark 0x5E1F_8A93 most
significant bit first, scrambled codeword, pad 1100…. -/
def sectorChannel (i : Nat) (payload : List Byte) (lba : Nat) : List Byte :=
  [0x33, 0x33] ++ [0x7A, 0xF8, 0x51, 0xC9] ++ scramble (codeword (payload ++ sealBytes payload lba)) (0xACE1 ^^^ BitVec.ofNat 16 i)
    ++ [0x33, 0x33, 0x33, 0x33]

/-- An erased sector's channel bits: constant (R375). -/
def sectorErased : List Byte := List.replicate 4618 0

/-- Frames of 240 bits, the last zero-padded (R125). -/
def toFrames (b : List Byte) (fuel : Nat) : List (List Byte) :=
  match fuel with
  | 0 => []
  | fuel + 1 => if b = [] then [] else ((b.take 30) ++ List.replicate (30 - b.length) 0) :: toFrames (b.drop 30) fuel

/-! ### Track parity (R243) -/

/-- Multiplication by g = 0x02 in GF(2^8) with 0x11D. -/
def gfTimesTwo (x : Byte) : Byte := if x.getLsbD 7 then (x <<< 1) ^^^ 0x1D else x <<< 1

/-- Multiply by g^d. -/
def gfPow (d : Nat) (x : Byte) : Byte :=
  match d with
  | 0 => x
  | d + 1 => gfTimesTwo (gfPow d x)

/-- Add data sector d of a segment to the P and Q accumulators. -/
def parityAdd (acc : List Byte × List Byte) (d : Nat) (stored : List Byte) : List Byte × List Byte :=
  (List.zipWith (· ^^^ ·) acc.1 stored, List.zipWith (fun q x => q ^^^ gfPow d x) acc.2 stored)

def parityZero : List Byte × List Byte := (List.replicate 4096 0, List.replicate 4096 0)

end Sys2Proof.Machine
end

