-- ==== Sys2Proof/Machine/Channel.lean ====
section
/-!
DEFINITION. Machine/Channel.lean: the read channel of 08_read_channel.md and 09_recovery_and_defects.md as functions of samples: front
end, equaliser, detector, decoder, sync search, alignments, and the recovery pool's combining, interference removal and track parity.
Figures between the blocks have 24 fraction bits. DESIGN CHOICE: log 169.
-/

namespace Sys2Proof.Machine

/-- 1.0. DESIGN CHOICE: log 169. -/
def chOne : Int := 2 ^ 24

/-! ### Front end (R215) -/

/-- One sample through DC removal and digital gain: dc, gain, and what comes out. A target of 0 gives no stated gain (log 169). -/
def feStep (dcShift agcShift target : Nat) (dc gain x : Int) : Int × Int × Placed :=
  let dc := dc + (x * chOne - dc).fdiv (2 ^ dcShift)
  let d := x * chOne - dc
  let y := (gain * d).fdiv chOne
  let g := if target = 0 then Config.agcZero gain y
    else gain + (gain * (target * chOne - y.natAbs)).fdiv (target * chOne * 2 ^ agcShift)
  let g := max (chOne / 4) (min (4 * chOne) g)
  (dc, g, ⟨x, d, y, g⟩)

def feRun (dcShift agcShift target : Nat) (dc gain : Int) (xs : List Int) : Int × Int × List Placed :=
  match xs with
  | [] => (dc, gain, [])
  | x :: rest =>
    let (dc, gain, p) := feStep dcShift agcShift target dc gain x
    let (dc, gain, l) := feRun dcShift agcShift target dc gain rest
    (dc, gain, p :: l)

/-! ### The capture window (R214, R229) -/

/-- Samples of a window. -/
def capLen : Nat := 37072

/-- Place of the edge that carries bit b_i, and of P, in the window (R206, R222, R229). DEDUCED: log 170. -/
def capBit : Nat := 64
def capMark : Nat := 80

/-- The sample at an edge, of the newest segment that holds it. -/
def segAt (segs : List Seg) (e : Int) : Option Placed :=
  segs.findSome? (fun g => if g.edge ≤ e then g.vals[(e - g.edge).toNat]? else none)

/-- The window whose first sample lies at an edge. -/
def segWindow (segs : List Seg) (first : Int) : List (Option Placed) := (List.range capLen).map (fun (j : Nat) => segAt segs (first + j))

/-- The sector's own samples: b_i to b_i + 36,943. -/
def capSector (w : List (Option Placed)) : List (Option Placed) := (w.drop capBit).take sectorBits

/-- First missing sample within the window, and missing samples from it to the last (R227, R229). -/
def capMiss (w : List (Option Placed)) : Nat × Nat :=
  match (w.zipIdx.filter (fun x => x.1.isNone)).map (·.2) with
  | [] => (0, 0)
  | f :: rest => (f, (f :: rest).getLast?.getD f - f + 1)

/-- Mean of |x − dc| over the codeword, in sample LSB (R226). -/
def capMean (w : List (Option Placed)) : Nat :=
  let c := ((w.drop 112).take 36864).filterMap id
  (c.foldl (fun a p => a + p.d.natAbs) 0) / (max c.length 1) / 2 ^ 24

/-- Front-end outputs along the window, 0 where a sample is missing. -/
def capY (w : List (Option Placed)) : Array Int := (w.map (fun p => match p with | some q => q.y | none => 0)).toArray

/-- 7-bit samples packed least significant bit first, a missing one as 0 (R229, R230). -/
def capPack (w : List (Option Placed)) : Nat :=
  w.foldr (fun p v => ((match p with | some q => q.x | none => 0) % 128).toNat + 128 * v) 0

/-! ### Equaliser (R216, R217) -/

/-- A tap record. -/
structure Taps where
  ha : List Int
  hb : List Int
  g : List Int
  main : Nat
  scale : Nat
  deriving DecidableEq, Repr

/-- A signed halfword. -/
def half (v : Nat) : Int := if 2 ^ 15 ≤ v % 2 ^ 16 then (v % 2 ^ 16 : Int) - 2 ^ 16 else (v % 2 ^ 16 : Nat)

/-- The tap record at halfword `base`. A MAIN above 19 reads as it stands. -/
def Taps.load (tap : Nat → Nat) (base : Nat) : Taps :=
  let h (i : Nat) : Int := half (tap (base + i))
  ⟨(List.range 20).map h, (List.range 20).map (fun i => h (20 + i)), (List.range 5).map (fun i => h (40 + i)), tap (base + 45), tap (base + 46)⟩

def atInt (a : Array Int) (i : Int) : Int := if 0 ≤ i then a.getD i.toNat 0 else 0

/-- z[n] (R216): the readers of tap kind 0, 1 or 2 feed the sum. -/
def eqOut (t : Taps) (kind : Nat) (ya yb : Array Int) (n : Nat) : Int :=
  let sum (h : List Int) (y : Array Int) : Int :=
    h.zipIdx.foldl (fun a x => a + x.1 * atInt y ((n : Int) + t.main - x.2)) 0
  ((if kind = 2 then 0 else sum t.ha ya) + (if kind = 1 then 0 else sum t.hb yb)).fdiv 4096

def equalise (t : Taps) (kind : Nat) (ya yb : Array Int) : Array Int := ((List.range capLen).map (eqOut t kind ya yb)).toArray

/-! ### Detector (R219) -/

/-- Ideal output of a branch: bit n and, in the state's bits 0 to 3, bits n − 1 to n − 4; a 1 is positive. DESIGN CHOICE: log 169. -/
def detIdeal (g : List Int) (st : Nat) (b : Bool) : Int :=
  let s (x : Bool) (v : Int) : Int := if x then v else -v
  s b (g.getD 0 0) + s (st.testBit 0) (g.getD 1 0) + s (st.testBit 1) (g.getD 2 0) + s (st.testBit 2) (g.getD 3 0) + s (st.testBit 3) (g.getD 4 0)

/-- Branch metric in 2⁻⁵⁶ LLR: squared error times LLR_SCALE, and the prior of a 1. -/
def detBranch (t : Taps) (x : Int × Int) (st : Nat) (b : Bool) : Int :=
  let e := x.1 - 4096 * detIdeal t.g st b
  (if b then x.2 * 2 ^ 56 else 0) - t.scale * e * e

def detNext (st : Nat) (b : Bool) : Nat := (2 * st + (if b then 1 else 0)) % 16

def detForward (t : Taps) (a : Array Int) (x : Int × Int) : Array Int :=
  ((List.range 16).map (fun s =>
    let from_ (p : Nat) : Int := a.getD p 0 + detBranch t x p (s.testBit 0)
    max (from_ (s / 2)) (from_ (s / 2 + 8)))).toArray

def detBackward (t : Taps) (b : Array Int) (x : Int × Int) : Array Int :=
  ((List.range 16).map (fun s =>
    let to_ (v : Bool) : Int := b.getD (detNext s v) 0 + detBranch t x s v
    max (to_ false) (to_ true))).toArray

def maxOf (l : List Int) : Int := l.tail.foldl max (l.headD 0)

/-- Best path with a 1 at a position less the best with a 0. -/
def detDiff (t : Taps) (a b : Array Int) (x : Int × Int) : Int :=
  let best (v : Bool) : Int := maxOf ((List.range 16).map (fun s => a.getD s 0 + detBranch t x s v + b.getD (detNext s v) 0))
  best true - best false

def sat6 (x : Int) : Int := max (-32) (min 31 x)

/-- Forward metrics before each position. -/
def detAlphas (t : Taps) (xs : List (Int × Int)) (a : Array Int) : List (Array Int) :=
  match xs with
  | [] => []
  | x :: rest => a :: detAlphas t rest (detForward t a x)

/-- One window of positions, each with its forward metrics, backwards from the metrics after it: extrinsic LLR and hard decision. -/
def detWindow (t : Taps) (w : List ((Int × Int) × Array Int)) (after : Array Int) : List (Int × Bool) :=
  (w.foldr (fun x acc =>
    let d := detDiff t x.2 acc.1 x.1
    (detBackward t acc.1 x.1, (sat6 ((d - x.1.2 * 2 ^ 56 + 2 ^ 55).fdiv (2 ^ 56)), decide (0 < d)) :: acc.2)) (after, [])).2

/-- Sliding windows of 128 bits: the backward metrics of a window start level at the end of the next. DESIGN CHOICE: log 169. -/
def detWindows (t : Taps) (w : List ((Int × Int) × Array Int)) (fuel : Nat) : List (Int × Bool) :=
  match fuel with
  | 0 => []
  | fuel + 1 =>
    if w = [] then []
    else
      let rest := w.drop 128
      let after := (rest.take 128).foldr (fun x b => detBackward t b x.1) (Array.replicate 16 0)
      detWindow t (w.take 128) after ++ detWindows t rest fuel

/-- The detector over equalised samples with priors. -/
def detector (t : Taps) (z la : List Int) : Array (Int × Bool) :=
  let xs := z.zip la
  (detWindows t (xs.zip (detAlphas t xs (Array.replicate 16 0))) (xs.length / 128 + 1)).toArray

/-! ### Sync marks (R209, R222) -/

def syncBit (j : Nat) : Bool := (0x5E1F8A93 : Nat).testBit (31 - j)

/-- Bits that differ from the mark at a position. -/
def syncDist (hard : Array Bool) (p : Nat) : Nat := ((List.range 32).filter (fun j => hard.getD (p + j) false != syncBit j)).length

/-- F − P: the first start position from P − 24 to P + 24 within SYNC_TOL. -/
def syncFind (hard : Array Bool) (tol : Nat) : Option Int :=
  ((List.range 49).find? (fun k => decide (syncDist hard (capMark - 24 + k) ≤ tol))).map (fun k => (k : Int) - 24)

/-! ### Decoder (R212, R213, R220) -/

/-- Nonzero blocks of block row r: column and shift. -/
def ldpcRow (r : Nat) : List (Nat × Nat) :=
  ((List.range 129).filter (ldpcIn r)).map (fun c => (c, ldpcShift r c)) ++ (if r = 0 then [] else [(128 + r, 0)]) ++ [(129 + r, 0)]

/-- Codeword bits of check i of block row r. -/
def ldpcIds (r i : Nat) : List Nat := (ldpcRow r).map (fun c => 256 * c.1 + (i + c.2) % 256)

/-- Posteriors, positive for 0, and check messages, 64 places a check. -/
structure Dec where
  post : Array Int
  msg : Array Int

def satMsg (x : Int) : Int := max (-31) (min 31 x)

/-- One check of the layered normalised min-sum. DESIGN CHOICE: log 169. -/
def decCheck (norm r i : Nat) (d : Dec) : Dec :=
  let base := (r * 256 + i) * 64
  let ids := ldpcIds r i
  let vs := ids.zipIdx.map (fun x => satMsg (d.post.getD x.1 0 - d.msg.getD (base + x.2) 0))
  let odd := (vs.filter (fun v => v < 0)).length % 2 == 1
  (ids.zip vs).zipIdx.foldl (fun d x =>
    let least := ((vs.eraseIdx x.2).map Int.natAbs).foldl min 31
    let m : Int := (least * norm / 16 : Nat)
    let m := if odd != decide (x.1.2 < 0) then -m else m
    ⟨d.post.setIfInBounds x.1.1 (x.1.2 + m), d.msg.setIfInBounds (base + x.2) m⟩) d

/-- One iteration: block rows 0 to 14 in order. -/
def decIter (norm : Nat) (d : Dec) : Dec :=
  (List.range 15).foldl (fun d r => (List.range 256).foldl (fun d i => decCheck norm r i d) d) d

/-- The syndrome is zero. -/
def decZero (d : Dec) : Bool :=
  (List.range 15).all (fun r => (List.range 256).all (fun i => ((ldpcIds r i).filter (fun k => d.post.getD k 0 < 0)).length % 2 == 0))

/-- Iterate to zero syndrome or to the limit: iterations run, success, and the end. -/
def decRun (norm : Nat) (d : Dec) (limit run : Nat) : Nat × Bool × Dec :=
  match limit with
  | 0 => (run, false, d)
  | limit + 1 =>
    let d := decIter norm d
    if decZero d then (run + 1, true, d) else decRun norm d limit (run + 1)

/-- The scrambler's bits for physical sector i. -/
def scrBits (st : BitVec 16) (n : Nat) : List Bool :=
  match n with
  | 0 => []
  | n + 1 => let r := scrStep st; r.1 :: scrBits r.2 n

def scrSeed (i : Nat) : BitVec 16 := 0xACE1 ^^^ BitVec.ofNat 16 i

/-- Bytes of bits, the first in bit 0. -/
def packBits (b : List Bool) : Nat := b.foldr (fun x v => (if x then 1 else 0) + 2 * v) 0

/-- Payload, SEAL_LBA and SEAL_CRC of a decode (R210, R211). -/
def decBytes (d : Dec) : List Byte := toLe 4128 (packBits ((List.range 33024).map (fun k => decide (d.post.getD k 0 < 0))))

/-! ### Alignments (R223, R224, R237) -/

/-- An alignment's decode: zero syndrome, iterations, the seal's two tests, and the payload as stored. -/
structure AlignOutcome where
  syndromeZero : Bool
  iters : Nat
  sealLbaOk : Bool
  sealCrcOk : Bool
  payload : List Byte
  deriving DecidableEq, Repr

/-- R224 on decoded information: the expected SEAL_LBA, and the CRC over payload and SEAL_LBA. -/
def alignOf (zero : Bool) (iters exp : Nat) (d : Dec) : AlignOutcome :=
  let b := decBytes d
  let payload := b.take 4096
  let sl := b.drop 4096
  ⟨zero, iters, decide (leAt sl 0 8 = exp), decide (leAt sl 8 8 = crc64 (payload ++ sl.take 8)), payload⟩

def AlignOutcome.passes (a : AlignOutcome) : Bool := a.syndromeZero && a.sealLbaOk && a.sealCrcOk

/-- Descrambled LLRs of a codeword whose mark starts at window place `m`, positive for 0. -/
def alignLlr (llr : Array (Int × Bool)) (i m : Nat) : Array Int :=
  ((scrBits (scrSeed i) 36864).zipIdx.map (fun z =>
    let v := (llr.getD (m + 32 + z.2) (0, false)).1
    if z.1 then v else -v)).toArray

def decStart (l : Array Int) : Dec := ⟨l, Array.replicate 245760 0⟩

/-- Window place of an alignment at an offset from P. -/
def alignPlace (o : Int) : Nat := ((capMark : Int) + o).toNat

/-- One alignment on the fly. -/
def alignOtf (llr : Array (Int × Bool)) (norm otf i exp : Nat) (o : Int) : AlignOutcome :=
  let (k, z, d) := decRun norm (decStart (alignLlr llr i (alignPlace o))) otf 0
  alignOf z k exp d

/-- Detector passes with `each` iterations after them; extrinsic LLRs feed the next pass (R237). DESIGN CHOICE: log 169. -/
def deepPasses (t : Taps) (z : List Int) (norm each i exp m : Nat) (la : List Int) (run passes : Nat) : AlignOutcome :=
  match passes with
  | 0 => ⟨false, run, false, false, []⟩
  | passes + 1 =>
    let l := alignLlr (detector t z la) i m
    let (k, zero, d) := decRun norm (decStart l) each 0
    if zero then alignOf true (run + k) exp d
    else
      let ext := ((scrBits (scrSeed i) 36864).zipIdx.map (fun s =>
        let v := satMsg (d.post.getD s.2 0 - l.getD s.2 0)
        if s.1 then v else -v))
      let la' := List.replicate (m + 32) 0 ++ ext ++ List.replicate (capLen - (m + 36896)) 0
      deepPasses t z norm each i exp m la' (run + k) passes

/-- A deep decode at a list of alignments, each whole before the next: the first that passes (R237, R238). -/
def deepTry (t : Taps) (z : List Int) (norm outer deep i exp : Nat) (offs : List Int) : Option AlignOutcome :=
  offs.findSome? (fun o =>
    let a := deepPasses t z norm (deep / outer) i exp (alignPlace o) (List.replicate capLen 0) 0 outer
    if a.passes then some a else none)

/-- The alignments of step 1 (R238). -/
def deepOffs (found : Option Int) (ext : Bool) : List Int :=
  let l : List Int := [0, -1, 1, -2, 2] ++ (if ext then [-3, 3, -4, 4] else [])
  match found with
  | some f => f :: l.filter (fun o => o != f)
  | none => l

/-! ### Combining reads (R240) -/

/-- Entry j shifted by sh. -/
def shifted {α : Type} (l : Array (Option α)) (sh : Int) (j : Nat) : Option α :=
  let k := (j : Int) + sh
  if 0 ≤ k then (l.getD k.toNat none) else none

/-- Correlation of two windows' y at a shift. -/
def corr (x y : Array (Option Placed)) (sh : Int) : Int :=
  (List.range capLen).foldl (fun s j => match x.getD j none, shifted y sh j with | some p, some q => s + p.y * q.y | _, _ => s) 0

/-- The shift within ±4 that maximises the correlation over both readers; of equal ones the smallest. DESIGN CHOICE: log 169. -/
def bestShift (f r : ReadWin) : Int :=
  let v (sh : Int) : Int := corr f.a.toArray r.a.toArray sh + corr f.b.toArray r.b.toArray sh
  ([1, -1, 2, -2, 3, -3, 4, -4] : List Int).foldl (fun b sh => if v b < v sh then sh else b) 0

/-- Mean of y edge by edge, a missing sample left out; 0 where every read misses it. -/
def meanY (l : List (Array (Option Placed) × Int)) : Array Int :=
  ((List.range capLen).map (fun j =>
    let ys := l.filterMap (fun r => (shifted r.1 r.2 j).map (·.y))
    (ys.foldl (· + ·) 0).fdiv (max ys.length 1))).toArray

/-- The combined samples of both readers. -/
def combine (reads : List ReadWin) : Array Int × Array Int :=
  match reads with
  | [] => (#[], #[])
  | f :: _ =>
    let l := reads.map (fun r => (r, bestShift f r))
    (meanY (l.map (fun x => (x.1.a.toArray, x.2))), meanY (l.map (fun x => (x.1.b.toArray, x.2))))

/-! ### Interference from neighbours (R241) -/

/-- One column of Gauss–Jordan elimination: rows with their pivot column, and rows without. -/
def gaussStep (s : List (Nat × List Rat) × List (List Rat)) (c : Nat) : List (Nat × List Rat) × List (List Rat) :=
  match s.2.find? (fun r => r.getD c 0 != 0) with
  | none => s
  | some p =>
    let q := p.map (fun v => v / p.getD c 0)
    let cut (r : List Rat) : List Rat := List.zipWith (fun v w => v - r.getD c 0 * w) r q
    (s.1.map (fun x => (x.1, cut x.2)) ++ [(c, q)], (s.2.erase p).map cut)

/-- A solution of n equations given as rows of n coefficients and the right side; an unknown without a pivot is 0. -/
def solve (n : Nat) (rows : List (List Rat)) : List Rat :=
  let s := (List.range n).foldl gaussStep ([], rows)
  (List.range n).map (fun c => match s.1.find? (fun x => x.1 == c) with | some x => x.2.getD n 0 | none => 0)

/-- A neighbour's bits along the window: +1, −1, and 0 where unknown. -/
abbrev NbrBits := Array Int

/-- The bits of an accepted neighbour, re-encoded (R241). -/
def nbrEncoded (i : Nat) (payload : List Byte) (exp : Nat) : NbrBits :=
  let v := leAt (sectorChannel i payload exp) 0 4618
  ((List.range capLen).map (fun j => if j < capBit ∨ capBit + sectorBits ≤ j then (0 : Int) else if v.testBit (j - capBit) then 1 else -1)).toArray

/-- The signs of a failed neighbour's LLRs. -/
def nbrSigns (hard : Array (Int × Bool)) : NbrBits := hard.map (fun x => if x.2 then 1 else -1)

/-- The neighbour bit of tap m at place j; taps lie about the place. -/
def itiAt (taps : Nat) (n : NbrBits) (j m : Nat) : Int := atInt n ((j : Int) + (taps / 2 : Nat) - m)

/-- The target's samples less the interference, fitted by least squares with `taps` taps from each neighbour. -/
def itiClean (taps : Nat) (nbrs : List NbrBits) (y : Array Int) : Array Int :=
  let cols := nbrs.flatMap (fun n => (List.range taps).map (fun m => (n, m)))
  let dot (f g : Nat → Int) : Rat := (((List.range capLen).foldl (fun s j => s + f j * g j) 0 : Int) : Rat)
  let col (c : NbrBits × Nat) (j : Nat) : Int := itiAt taps c.1 j c.2
  let rows := cols.map (fun c => cols.map (fun d => dot (col c) (col d)) ++ [dot (col c) (fun j => y.getD j 0)])
  let w := solve cols.length rows
  ((List.range capLen).map (fun j =>
    y.getD j 0 - (((cols.zip w).foldl (fun s x => s + x.2 * (col x.1 j : Rat)) 0).floor))).toArray

/-! ### Track parity (R243 to R245) -/

def gfMul (x y : Byte) : Byte := (List.range 8).foldl (fun a i => if y.getLsbD i then a ^^^ gfPow i x else a) 0

/-- x^n; x^254 is the inverse. -/
def gfExp (x : Byte) (n : Nat) : Byte :=
  match n with
  | 0 => 1
  | n + 1 => gfMul x (gfExp x n)

def gfInv (x : Byte) : Byte := gfExp x 254

def xorBytes (a b : List Byte) : List Byte := List.zipWith (· ^^^ ·) a b

/-- The erased data payloads of a segment of D data sectors, each known or erased, from the parity payloads that passed (R244). -/
def parSolve (data : List (Option (List Byte))) (p q : Option (List Byte)) : Option (List (Nat × List Byte)) :=
  let known := data.zipIdx.filterMap (fun x => x.1.map (fun b => (x.2, b)))
  let sum := known.foldl (fun acc x => parityAdd acc x.1 x.2) parityZero
  let pp := p.map (fun b => xorBytes b sum.1)
  let qq := q.map (fun b => xorBytes b sum.2)
  match (data.zipIdx.filter (fun x => x.1.isNone)).map (·.2) with
  | [] => some []
  | [x] =>
    match pp, qq with
    | some b, _ => some [(x, b)]
    | none, some b => some [(x, b.map (fun v => gfMul v (gfInv (gfPow x 1))))]
    | none, none => none
  | [x, y] =>
    match pp, qq with
    | some b, some c =>
      let den := gfInv (gfPow x 1 ^^^ gfPow y 1)
      let dx := List.zipWith (fun u v => gfMul (v ^^^ gfMul (gfPow y 1) u) den) b c
      some [(x, dx), (y, xorBytes b dx)]
    | _, _ => none
  | _ => none

/-- Codeword bits of a payload that disagree with hard decisions at an alignment (R245). -/
def disagree (hard : Array (Int × Bool)) (i exp m : Nat) (payload : List Byte) : Nat :=
  let v := leAt (scramble (codeword (payload ++ sealBytes payload exp)) (scrSeed i)) 0 4608
  ((List.range 36864).filter (fun j => (hard.getD (m + 32 + j) (0, false)).2 != v.testBit j)).length

end Sys2Proof.Machine
end

