-- ==== Sys2Proof/Machine/Surface.lean ====
section
/-!
DEFINITION. Machine/Surface.lean: what a transit frame and an alignment burst hold in bits: phase coding, the Gray code and check bits of
TRACK_ID, INDEX and its parity (R158, R159), dibits and the ID of a burst (R173), and the places those bursts take (R171, R206).
-/

namespace Sys2Proof.Machine

/-- Odd parity of the `n` low bits of `v`. -/
def parity (v n : Nat) : Bool :=
  match n with
  | 0 => false
  | n + 1 => xor (v.testBit n) (parity v n)

/-- The number whose Gray code is the `n` low bits of `g`. -/
def grayDecode (g n : Nat) : Nat := ((List.range n).map (fun i => if parity (g / 2 ^ i) (n - i) then 2 ^ i else 0)).sum

/-- `n` phase-coded bits, most significant first, from 2n tone cycles, the first in the top bit, 1 standing for an inverted cycle: normal
then inverted is 0, inverted then normal is 1 (R159). -/
def phaseDecode (v n : Nat) : Option Nat :=
  match n with
  | 0 => some 0
  | n + 1 =>
    match v / 4 ^ n % 4 with
    | 1 => phaseDecode v n
    | 2 => (phaseDecode v n).map (fun x => 2 ^ n + x)
    | _ => none

/-- INDEX of its 24 cycles: bits 11:1, where the parity of the 12 bits is even (R158). -/
def indexOf (cycles : BitVec 24) : Option Nat :=
  (phaseDecode cycles.toNat 12).bind (fun w => if parity w 12 then none else some (w / 2))

/-- TRACK_ID of its 56 cycles: the Gray code's number, and whether every check bit holds (R158, R159). Two cycles of one phase carry no bit, and
no check holds then. DEDUCED: log 161. -/
def trackOf (cycles : BitVec 56) : Option Nat :=
  (phaseDecode cycles.toNat 28).bind (fun w =>
    let g := w / 16
    if (List.range 4).all (fun i => parity (g / 2 ^ (6 * i)) 6 == w.testBit i) then some (grayDecode g 24) else none)

/-- 32 bits of dibits, 01 a 0 and 10 a 1, most significant first (R173). The two codes are those of `phaseDecode`. -/
def dibits (v : BitVec 64) : Option Nat := phaseDecode v.toNat 32

/-- CRC-8 with polynomial 0x07 over the `n` low bits of `v`, most significant first, from 0. -/
def crc8 (v n : Nat) : Nat :=
  (List.range n).foldl (fun c j =>
    let top := xor (c.testBit 7) (v.testBit (n - 1 - j))
    Nat.xor (c * 2 % 256) (if top then 7 else 0)) 0

/-- A burst's ID (R173): its index in the track and bits 15:0 of the track, where the CRC holds. DEDUCED: log 162. -/
def burstId (v : BitVec 64) : Option (Nat × Nat) :=
  (dibits v).bind (fun w => if crc8 (w / 256) 24 = w % 256 then some (w / 2 ^ 24, grayDecode (w / 256 % 65536) 16) else none)

/-- First bit of burst g (R206). -/
def burstFirst (g : Nat) : Nat := g * 1182464

/-- The number with the given low 16 bits that lies nearest to `near`. -/
def nearest16 (low : Nat) (near : Int) : Int :=
  let d := ((low : Int) - near + 32768) % 65536 - 32768
  near + d

end Sys2Proof.Machine
end

