-- ==== Sys2Proof/Machine/Servo.lean ====
section
/-!
DEFINITION. Machine/Servo.lean: operations that many meanings and every fault reaction share: control words on the link,
the chaffing of epochs, the closing of a write gate, and the safe actions of loop instances.
-/

namespace Sys2Proof.Machine

/-! ### Control words (R131 to R134) -/

/-- OPs that need no credit: STOP, WG_CLOSE, RESUME, KEEPALIVE (R134), and HELLO, which precedes every grant. -/
def ctlFree (op : Nat) : Bool := op == 0x01 || op == 0x02 || op == 0x04 || op == 0x0E || op == 0x0F

/-- A frame of (SID, SIDE) leaves: its SEQ rises modulo 1,024 (R120). -/
def PortSt.sent (p : PortSt) (sid side n : Nat) : PortSt :=
  let k := 2 * sid + side
  { p with txSeq := listSet p.txSeq k ((p.txSeq.getD k 0 + n) % 1024) }

/-- Put a CTL word on the link of port h: it takes a TAG and, unless free, a credit. -/
def State.ctlOut (s : State) (h op side : Nat) (b : List Nat) : State :=
  let t := (s.port h).tag
  let seq := (s.port h).txSeq.getD (12 + side) 0
  let s := s.updPort h (fun p => { p.sent 6 side 1 with tag := p.tag + 1, ctlSent := true })
  let s := if ctlFree op then s else s.wrN Reg.port_CRED_CTL h (s.rdN Reg.port_CRED_CTL h - 1)
  s.emit (.ctl h op t.toNat side seq b)

/-- Send a CTL word, or keep it until a credit returns. Nothing leaves a port that has not reached HELLO, or that is left unbound
with its links idle (R54, R137). -/
def State.ctl (s : State) (h op side : Nat) (b : List Nat) : State :=
  let st := s.rdN Reg.port_STATE h
  if st < 5 ∨ 7 < st ∨ s.bound h = false then s
  else if ctlFree op ∨ (s.rdN Reg.port_CRED_CTL h ≠ 0 ∧ (s.port h).ctlWait = []) then s.ctlOut h op side b
  else s.updPort h (fun p => { p with ctlWait := p.ctlWait ++ [(op, side, b)] })

/-- Send what waits, oldest first, while credits last. -/
def State.ctlDrain (s : State) (h fuel : Nat) : State :=
  match fuel with
  | 0 => s
  | fuel + 1 =>
    match (s.port h).ctlWait with
    | [] => s
    | (op, side, b) :: rest =>
      if s.rdN Reg.port_CRED_CTL h = 0 then s
      else State.ctlDrain ((s.updPort h (fun p => { p with ctlWait := rest })).ctlOut h op side b) h fuel

/-- No lane is locked and none is in use (R54, R137 OFF and FAILED, R155). DEDUCED: log 136. -/
def State.lanesIdle (s : State) (h : Nat) : State := (s.wr Reg.port_LANE_LOCK h 0).wr Reg.port_LANES h 0

/-- A flash command whose link goes down ends with FL_STATUS 4 (R155). -/
def State.flashEnd (s : State) (h : Nat) : State :=
  if (s.port h).flash.isSome then
    ((s.wr Reg.port_FL_BUSY h 0).wrN Reg.port_FL_STATUS h 4).updPort h (fun p => { p with flash := none })
  else s

/-- The link goes to OFF: its lanes are unpowered (R137). -/
def State.linkOff (s : State) (h : Nat) : State := ((s.wr Reg.port_STATE h 0).lanesIdle h).flashEnd h

/-- LOOP_OUT for an actuator (R132, R290). -/
def State.loopOut (s : State) (n item : Nat) (v frame : Word) (tick : Nat) : State :=
  s.ctl (hdaOf n) 0x09 (sideOf n) ([sideOf n, item] ++ wBytes v ++ wBytes frame ++ hBytes tick)

/-! ### Epochs (R17, R195 to R199) -/

/-- Slot i of engine e holds an open epoch. -/
def State.slotOpen (s : State) (e i : Nat) : Bool := s.rdAt Reg.engine_SLOT_OPEN e i == 1
def State.slotEpoch (s : State) (e i : Nat) : BitVec 16 := (s.rdAt Reg.engine_SLOT_EPOCH e i).setWidth 16
def State.slotSrc (s : State) (e i : Nat) : Nat := (s.rdAt Reg.engine_SLOT_SRC e i).toNat

/-- The slot of an open epoch. -/
def State.epochSlot (s : State) (e : Nat) (ep : BitVec 16) : Option Nat :=
  (List.range 4).find? (fun i => s.slotOpen e i && s.slotEpoch e i == ep)

/-- The open epoch of a SPEC_SRC, if any. -/
def State.openOfSrc (s : State) (e src : Nat) : Option (BitVec 16) :=
  ((List.range 4).find? (fun i => s.slotOpen e i && s.slotSrc e i == src)).map (s.slotEpoch e)

/-- Slot i stops holding an open epoch. -/
def State.slotFree (s : State) (e i : Nat) : State :=
  (s.wrAt Reg.engine_SLOT_OPEN e i 0).wrN Reg.engine_OPEN_CNT e (s.rdN Reg.engine_OPEN_CNT e - 1)

/-- The nearest data track to the measured position of the last valid frame, as an SP_POS (R183, R292). -/
def State.nearestTrack (s : State) (n : Nat) : Int :=
  let k := s.rdN Reg.demod_SEL_HEAD n
  let pos := s.rdInt Reg.demod_POS n 0 - (if 1 ≤ k ∧ k ≤ 10 then s.rdInt Reg.demod_RAD_OFS n (k - 1) else 0)
  256 * ((pos + 128).fdiv 256)

/-- The move between the last two valid frames, in 1/256 track, and the frames it took; 0 before there are two (R164, R303). -/
def State.moved (s : State) (n : Nat) : Int × Nat :=
  let g := (s.act n).posGap
  if g = 0 then (0, 1) else (s.rdInt Reg.demod_POS n 0 - (s.act n).posPrev, g)

/-- Velocity in 1/256 track per frame. -/
def State.velocity (s : State) (n : Nat) : Int := let m := s.moved n; m.1.fdiv m.2

/-- The estimator's position in the frame in progress (R164, R184): the last two valid frames carried on. DEDUCED: log 46. -/
def State.predictPos (s : State) (n : Nat) : Int :=
  let m := s.moved n
  s.rdInt Reg.demod_POS n 0 + (m.1 * ((s.act n).frameNo - s.rd Reg.demod_POS_FRAME n).toNat).fdiv m.2

/-- SMP_CTL for a side: the streams in force change (R228, R506). -/
def State.smpCtl (s : State) (n : Nat) (v : BitVec 3) : State :=
  let h := hdaOf n
  let x := sideOf n
  if (s.port h).smpCtl.getD x 0 = v then s
  else (s.ctl h 0x06 x [x, v.toNat]).updPort h (fun p => { p with smpCtl := listSet p.smpCtl x v })

/-- TRN with the readers that the wiring of the head's mode turns on (R228). -/
def State.sampleBits (s : State) (n k : Nat) : BitVec 3 :=
  (if 1 ≤ k then (match s.str.modeOf n k with | 0 | 1 | 2 => 3 | 3 => 1 | _ => 2) else 0) ||| 4

/-- Entries of a stop trajectory at constant deceleration (R183, R292): from the boundary after `frame`, positions fall to
the nearest data track; `dec` is the deceleration in 1/256 track per frame squared, above 0. -/
def stopTraj (pos vel dec : Int) (target : Int) (frame acc : Word) (fuel : Nat) : List SpEntry :=
  match fuel with
  | 0 => [⟨target, 0, frame + 1, 0, false⟩]
  | fuel + 1 =>
    if vel.natAbs ≤ dec.natAbs then [⟨target, 0, frame + 1, 0, false⟩]
    else
      let v := if 0 ≤ vel then vel - dec else vel + dec
      ⟨pos + v, if 0 ≤ vel then F32.negate acc else acc, frame + 1, 0, false⟩ :: stopTraj (pos + v) v dec target (frame + 1) acc fuel

/-- What becomes of the setpoint FIFO at a chaff (R183, R292): the epoch's entries leave; with no committed trajectory
pushed, the FIFO is filled with the stop trajectory, a single step when SP_DECEL is 0, negative or not finite. -/
def State.withdrawSetpoints (s : State) (n : Nat) (ep : BitVec 16) : State :=
  let a := s.act n
  let keep := a.fifo.filter (fun x => !(x.spec && x.epoch == ep))
  let dec := s.rd Reg.spf_SP_DECEL n
  let period := s.rdN Reg.demod_FRAME_PERIOD n
  -- deceleration in 1/256 track per frame squared: dec × 256 × period²
  let d : Int := (F32.val dec * 256 * period * period).fdiv (2 ^ 149 * 10 ^ 24)
  let fill :=
    if F32.lt 0 dec = false ∨ F32.bad dec = true ∨ d ≤ 0 then [⟨s.nearestTrack n, 0, a.frameNo + 1, 0, false⟩]
    else
      -- from the last valid frame, or from the prediction where the latest frame was not valid (R183, R184); as an SP_POS
      let k := s.rdN Reg.demod_SEL_HEAD n
      let at_ := if s.rdN Reg.demod_MISS_RUN n = 0 then s.rdInt Reg.demod_POS n 0 else s.predictPos n
      let pos := at_ - (if 1 ≤ k ∧ k ≤ 10 then s.rdInt Reg.demod_RAD_OFS n (k - 1) else 0)
      let vel := s.velocity n
      let stop := pos + (if 0 ≤ vel then 1 else -1) * (vel * vel).fdiv (2 * d)
      stopTraj pos vel d (256 * ((stop + 128).fdiv 256)) a.frameNo dec 63
  let fifo := if keep.any (fun x => !x.spec) then keep else fill
  let s := s.updAct n (fun a => { a with fifo := fifo })
  let s := s.wrN Reg.spf_SP_DEPTH n fifo.length
  let s := s.wrB Reg.demod_SPEC_TARGET n false
  (s.updLoop (vcmLoop n) (fun l => { l with presetPend := true })).updLoop (maLoop n) (fun l => { l with presetPend := true })

def LaneSt.ringWait (l : LaneSt) : Nat := (l.ring.filter (fun x => x.copyTo.isSome)).length

/-- Capture records leave use, and no ring slot waits to be copied into them any more (R230, R258). -/
def State.capsFree (s : State) (n : Nat) (cs : List Nat) : State :=
  let l := s.str.laneOf n
  let gone := s.pool.caps.filter (fun c => cs.contains c.1)
  let s : State := { s with pool := { s.pool with caps := s.pool.caps.filter (fun c => !(cs.contains c.1)) } }
  let s := s.wrN Reg.thresh_CAP_FREE 0 (s.rdN Reg.thresh_CAP_FREE 0 + gone.length)
  let drop (x : RingSlot) : RingSlot := match x.copyTo with | some c => if cs.contains c.1 then { x with copyTo := none } else x | none => x
  let s := s.updLane l (fun y => { y with ring := y.ring.map drop })
  s.wrN Reg.lane_RING_WAIT l (s.lane l).ringWait

/-- A decoder's unit is over. -/
def State.decFree (s : State) (d : Nat) : State :=
  let s := (s.wrAt Reg.pool_BUSY 0 d 0).wrAt Reg.pool_STEP 0 d 0
  (s.wrAt Reg.pool_ACT 0 d 0).wrAt Reg.pool_SLOT 0 d 0

/-- The lane of an actuator that is disabled, parked or under reaction 2 to 4 (R233): its notices not yet taken are withdrawn, their capture
records freed, and its ring emptied. An LBA of a withdrawn notice that its command still needs is read again. DEDUCED: log 171. -/
def State.laneStop (s : State) (n : Nat) : State :=
  let gone := (s.pool.early ++ s.pool.waiting).filter (fun m => m.act == n)
  let s : State := { s with pool := { s.pool with early := s.pool.early.filter (fun m => m.act != n), waiting := s.pool.waiting.filter (fun m => m.act != n) } }
  let s := (s.capsFree n (gone.filterMap (·.cap))).wrN Reg.thresh_NOTICE_PEND 0 s.pool.waiting.length
  let again := gone.filterMap (fun m => (s.host.cmds.find? (fun c => c.slot == m.slot && !m.noCmd && c.left.contains m.lba)).map (fun c =>
    (n, (⟨0, c.prio, 1, m.conv, c.fua, c.slot, m.lba, 1, c.stamp, 0, [], .host⟩ : MqEntry))))
  let s : State := { s with host := { s.host with waiting := s.host.waiting ++ again } }
  -- decode work on its records stops, and waits for a decoder again (R257)
  let s := (s.pool.records.filter (fun r => r.n.act == n)).foldl (fun s r => match r.decoder with | some d => s.decFree d | none => s) s
  let back (r : RecRecord) : RecRecord :=
    if r.n.act = n then { r with decoder := none, ready := r.ready || r.decoder.isSome } else r
  let s : State := { s with pool := { s.pool with records := s.pool.records.map back } }
  let l := s.str.laneOf n
  (s.updLane l (fun y => { y with ring := [] })).wr Reg.lane_RING_WAIT l 0

/-- Chaff the epoch in slot i of the actuator's engine (R199): its grains, shadow counts, setpoints and pending sectors go,
its work ends, and its queue entries stay as they were. DEDUCED: log 50. -/
def State.chaffSlot (s : State) (n i : Nat) : State :=
  let e := s.engine n
  let ep := s.slotEpoch e i
  let src := s.slotSrc e i
  if s.slotOpen e i then
    let s := s.slotFree e i
    let mine (g : Grain) : Bool := g.tag.act == n && g.tag.spec && g.tag.epoch == ep
    let s := s.bumpBy Reg.pcie_DISC_SPEC_CNT 0 0 (s.held.filter (fun g => mine g && g.tag.kind == 0 && !g.tag.noCmd)).length
    let s := { s with held := s.held.filter (fun g => !(mine g)) }
    let caps := (s.pool.early.filter (fun x => x.act == n && x.epoch == ep)).filterMap (·.cap)
    let s : State := { s with pool := { s.pool with
      early := s.pool.early.filter (fun x => !(x.act == n && x.epoch == ep)),
      records := s.pool.records.map (fun (r : RecRecord) => if r.n.act = n then { r with early := r.early.filter (fun x => x.1 != ep) } else r) } }
    let s := s.capsFree n caps
    let s := s.updAct n (fun a => { a with
      shadow := a.shadow.filter (fun x => x.1 != ep),
      pend := a.pend.filter (fun x => x.epoch != ep),
      gather := a.gather.filter (fun x => x.epoch != some ep),
      op := match a.op with
        | some o => if o.spec && o.epoch == ep then none
                    else if o.confEpoch == some ep then some { o with confEpoch := none, spanDone := 0 } else some o
        | none => none })
    let s := s.wrB Reg.engine_OP_BUSY e (s.act n).op.isSome
    let s := if src = 3 then (s.withdrawSetpoints n ep).trace 1 .preseekChaff n [ep.toNat] else s
    s.trace 0 .epochChaff n [ep.toNat, src]
  else s

/-- Chaff every open epoch of an actuator. -/
def State.chaffAll (s : State) (n : Nat) : State := (List.range 4).foldl (fun s i => s.chaffSlot n i) s

/-- End the media work in hand at the next sector boundary (R197, R438): what is read or written stays; the rest of the
entry stays queued. -/
def State.endWork (s : State) (n : Nat) : State :=
  (s.updAct n (fun a => { a with op := none })).wr Reg.engine_OP_BUSY (s.engine n) 0

/-! ### Loop instances (R298, R302 to R304) -/

/-- MODE of an instance (R298). -/
def State.loopMode (s : State) (g : Nat) : Nat := s.rdN Reg.loop_MODE g

/-- Set MODE and the unit's count of instances not OFF (R306). -/
def State.setMode (s : State) (g m : Nat) : State :=
  let old := s.loopMode g
  let c := s.rdN Reg.unit_ACTIVE_CNT (g / 64)
  let s := s.wrN Reg.loop_MODE g m
  let s := s.wrN Reg.unit_ACTIVE_CNT (g / 64) (if old = 0 ∧ m ≠ 0 then c + 1 else if old ≠ 0 ∧ m = 0 then c - 1 else c)
  if old = m then s else s.trace 5 .loopMode g [m]

/-- SAFE at once: the integrator is cleared and nothing is sent (R304). An instance that is OFF has nothing to stop. -/
def State.loopSafe (s : State) (g cause : Nat) : State :=
  if s.loopMode g = 0 ∨ s.loopMode g = 5 then s
  else
    let s := s.setMode g 5
    let s := s.wrN Reg.loop_SAFE_CAUSE g cause
    let s := s.wr Reg.loop_I g 0
    let s := if s.rdN Reg.loop_TUNE_ST g = 1 then s.wrN Reg.loop_TUNE_ST g 3 else s
    s.updLoop g (fun _ => LoopSt.reset)

/-- After a safe action: SAFE, or OFF when ENABLE = 0 waits for it (R302, R304, R305). -/
def State.loopActionEnd (s : State) (g : Nat) : State :=
  let off := (s.loop g).disabling
  let s := s.setMode g (if off then 0 else 5)
  let s := s.wr Reg.loop_I g 0
  s.updLoop g (fun _ => LoopSt.reset)

/-! ### The write gate's closing (R271) -/

/-- The side's laser instance goes back to manual at 0 (R278). -/
def State.laserManual (s : State) (n : Nat) : State :=
  let g := laserLoop n
  if s.loopMode g = 2 then
    let s := s.setMode g 1
    let s := s.wr Reg.loop_MAN_OUT g 0
    let s := (s.wr Reg.loop_Y g 0).wr Reg.loop_U g 0
    s.wr Reg.wa_LASER_AUTO n 0
  else s.wr Reg.wa_LASER_AUTO n 0

/-- WRT or AST credits of a side. -/
def credField (sid side : Nat) : RegField :=
  if sid = 7 then (if side = 0 then Reg.port_CRED_WRT_A else Reg.port_CRED_WRT_B)
  else (if side = 0 then Reg.port_CRED_AST_A else Reg.port_CRED_AST_B)

/-- Send what waits of an actuator's windows, in order, while credits last (R134, R262). DESIGN CHOICE: log 130. -/
def State.wrtDrain (s : State) (n fuel : Nat) : State :=
  match fuel with
  | 0 => s
  | fuel + 1 =>
    match (s.act n).wrtWait with
    | [] => s
    | (_, mark, sid, p) :: rest =>
      let h := hdaOf n
      let x := sideOf n
      let f := credField sid x
      if s.rdN f h = 0 then s
      else
        let seq := (s.port h).txSeq.getD (2 * sid + x) 0
        let s := (s.wrN f h (s.rdN f h - 1)).updPort h (fun q => q.sent sid x 1)
        let s := s.updAct n (fun a => { a with wrtWait := rest })
        (s.emit (if mark then .marker h sid x seq p else .dataFrame h x seq p)).wrtDrain n fuel

/-- The sequencer's own WG_CLOSE, at a sector boundary: the window in hand and those sent after it get no further arm (R194, R285). -/
def State.seqClose (s : State) (n : Nat) : State :=
  let dead (w : WinSt) : WinSt := { w with dead := true }
  let cut (a : ActSt) : ActSt := { a with armed := none, win := a.win.map dead, winQueue := a.winQueue.map dead }
  if (s.act n).armed.isSome then
    let s := s.ctl (hdaOf n) 0x04 0 [2 ^ sideOf n]
    let s := s.wr Reg.wa_GATE_OPEN n 0
    (s.updAct n cut).laserManual n
  else s.updAct n cut

/-- Close the gate of actuator n: WG_CLOSE goes out for an armed frame, and the arm is void (R271, R272). -/
def State.gateClose (s : State) (n cause : Nat) : State :=
  if (s.act n).armed.isSome then
    let s := s.ctl (hdaOf n) 0x04 0 [2 ^ sideOf n]
    let s := s.bump Reg.wa_CLOSE_CNT n
    let s := s.wrN Reg.wa_CLOSE_CAUSE n cause
    let s := s.wr Reg.wa_GATE_OPEN n 0
    let s := s.updAct n (fun a => { a with
      armed := none, goodRun := 0, reopening := true, win := a.win.map (fun w => { w with dead := true }),
      winQueue := a.winQueue.map (fun w => { w with dead := true }) })
    let s := s.trace 4 .gateClose n [cause]
    s.laserManual n
  else s.updAct n (fun a => { a with goodRun := 0, reopening := a.win.isSome || a.reopening })

/-- A MOTOR word (R132, R311): MODE, the PERIOD of the start in hand, DUTY_U to DUTY_W, SHUNT_T1 and SHUNT_T2, SHIFT_U to SHIFT_W. -/
def State.motor (s : State) (h mode : Nat) (duty : List Nat) (t1 t2 : Nat) (shift : List Int) : State :=
  s.ctl h 0x0A 0 ([mode, 0] ++ hBytes (s.spinSt h).period ++ (duty.flatMap hBytes) ++ hBytes t1 ++ hBytes t2
    ++ (shift.flatMap (fun x => hBytes (x % 65536).toNat)))

/-- MODE 0: the power stage coasts. -/
def State.motorOff (s : State) (h : Nat) : State := s.motor h 0 [0, 0, 0] 0 0 [0, 0, 0]

/-- SPIN_STATE, with its trace record; LOCKED and SPIN_LOCKED hold in state 6 only (R310, R320). -/
def State.spinState (s : State) (h st : Nat) : State :=
  let s := (s.wrN Reg.spindle_SPIN_STATE h st).wrB Reg.spindle_LOCKED h (st == 6)
  let s := s.wrBit Reg.status_SPIN_LOCKED 0 h (st == 6)
  let s := if st = 5 ∨ st = 6 then s else (s.wr Reg.spindle_OBS_VALID h 0).wr Reg.spindle_FW_ACTIVE h 0
  s.trace 6 .spindleState h [st]

/-- The safe action of an instance (R302, R303). The spindle's coast is the spindle block's (R287). -/
def State.spindleCoast (s : State) (h : Nat) : State :=
  let st := s.rdN Reg.spindle_SPIN_STATE h
  if st = 0 ∨ st = 10 then s
  else
    let s := (s.motorOff h).updSpin h (fun x => { x with retry := false, begun := false })
    s.spinState h 9

/-- RET_PUSH, signed towards the ramp (R303). -/
def State.retSign (s : State) (g : Nat) (v : Word) : Word := if s.rdB Reg.unit_RET_DIR (g / 64) then v else F32.negate v

/-- The brake phase's output (R303): −RET_BRAKE_GAIN × v, limited to ±RET_PUSH, v in tracks per frame. -/
def State.retBrake (s : State) (g : Nat) : Word :=
  let push := F32.abs (s.rd Reg.unit_RET_PUSH (g / 64))
  let m := s.moved (loopAct g)
  let v := F32.ofRat m.1 (256 * m.2)
  match F32.mul (F32.negate (s.rd Reg.unit_RET_BRAKE_GAIN (g / 64))) v with
  | some x => if F32.lt push x then push else if F32.lt x (F32.negate push) then F32.negate push else x
  | none => if F32.neg v then push else F32.negate push

/-- Begin the safe action of an enabled instance with a cause (R302 to R304). DEDUCED: log 49. -/
def State.loopSafeAction (s : State) (g cause : Nat) : State :=
  if s.loopMode g = 0 ∨ s.loopMode g = 4 ∨ s.loopMode g = 5 then s
  else
    let s := s.wrN Reg.loop_SAFE_CAUSE g cause
    let s := s.wr Reg.loop_I g 0
    let s := if s.rdN Reg.loop_TUNE_ST g = 1 then s.wrN Reg.loop_TUNE_ST g 3 else s
    let s := s.updLoop g (fun l => { LoopSt.reset with disabling := l.disabling })
    let s := s.setMode g 4
    match loopKind g with
    | .vcm =>
      let n := loopAct g
      let y := s.retBrake g
      let s := s.loopOut n 1 y ((s.act n).frameNo + 1) 0
      (s.wr Reg.loop_Y g y).updLoop g (fun l => { l with retract := 1 })
    | .ma =>
      if s.rdB Reg.loop_MA_HOLD g then s.loopActionEnd g
      else if F32.mag (s.rd Reg.loop_SAFE_RATE g) = 0 ∨ F32.mag (s.rd Reg.loop_Y g) = 0 then
        let n := loopAct g
        ((s.loopOut n 2 0 (s.act n).frameNo 0).wr Reg.loop_Y g 0).loopActionEnd g
      else s
    | .laser =>
      let n := loopAct g
      let s := (s.loopOut n 3 0 (s.act n).frameNo 0).wr Reg.loop_Y g 0
      let s := s.loopActionEnd g
      s.gateClose n 8
    | .spindle => (s.spindleCoast (loopHda g)).loopActionEnd g

/-! ### Stopping an actuator and an HDA (R438, R439) -/

/-- What R438 does at once on an actuator: epochs chaffed, media work ended, gate closed, LASER safe, and the VCM
instance's safe action in ACQUIRE or LOST. -/
def State.stopAct (s : State) (n : Nat) : State :=
  let s := s.chaffAll n
  let s := (s.endWork n).updAct n (fun a => { a with heldGo := false })
  let s := (s.gateClose n 6).laneStop n
  let s := s.loopSafeAction (laserLoop n) 6
  let d := s.rdN Reg.demod_STATE n
  if d = 1 ∨ d = 4 then s.loopSafeAction (vcmLoop n) 6 else s

/-- Every loop instance of an HDA to SAFE at once (R304). -/
def State.hdaLoopsSafe (s : State) (h cause : Nat) : State :=
  [vcmLoop (2 * h), vcmLoop (2 * h + 1), maLoop (2 * h), maLoop (2 * h + 1), laserLoop (2 * h), laserLoop (2 * h + 1),
    spinLoop h 0, spinLoop h 1].foldl (fun s g => s.loopSafe g cause) s

/-- SAFE_n of port h low, and STOP with a REASON on a port that is UP (R153, R439). -/
def State.safeLow (s : State) (h reason : Nat) : State :=
  let s := { s with safeN := s.safeN &&& ~~~(BitVec.ofNat 32 (2 ^ h)) }
  if s.up h then (s.ctl h 0x02 0 [reason]).updPort h (fun p => { p with stopWait := p.stopWait + 1 }) else s

/-- SAFE_n high again, only on a bound port in state UP, and RESUME (R103, R439). -/
def State.safeHigh (s : State) (h : Nat) : State :=
  if s.bound h ∧ s.up h then
    ({ s with safeN := s.safeN ||| BitVec.ofNat 32 (2 ^ h) }).ctl h 0x0E 0 []
  else s

end Sys2Proof.Machine
end

