-- ==== Sys2Proof/Machine/Flags.lean ====
section
/-!
DEFINITION. Machine/Flags.lean: the fault flags of 17_faults_and_safe_state.md: where a fault type lies, what it reaches,
and the three operations detect, recover and release, with FAULT_N and the interrupt lines as functions of the state.
-/

namespace Sys2Proof.Machine

/-- The fault block of a type and instance (R440), numbered as `fltAddr` numbers them. -/
def fltBlk (ftype inst : Nat) : Nat :=
  match ftype / 256 with
  | 1 => 0
  | 2 => 1
  | 3 => 2 + inst % 4
  | 4 => 6 + inst % 2
  | 5 => 8 + inst % 32
  | 6 => 40 + inst % 64
  | 7 => 104 + inst % 64
  | 8 => 168 + inst % 4
  | 9 => 172 + inst % 32
  | 0xA => 204 + inst % 64
  | 0xB => 268
  | _ => 269

def fltIdx (ftype : Nat) : Nat := ftype % 256

/-- The class of the types a fault block raises. -/
def blkClass (b : Nat) : Nat :=
  if b = 0 then 1 else if b = 1 then 2 else if b < 6 then 3 else if b < 8 then 4 else if b < 40 then 5 else if b < 104 then 6
  else if b < 168 then 7 else if b < 172 then 8 else if b < 204 then 9 else if b < 268 then 0xA else if b = 268 then 0xB else 0xC

/-- R436 lists the type, and the instance can raise it. -/
def faultKnown (ftype inst : Nat) : Bool :=
  (faultTypes.lookup ftype).isSome &&
    (match ftype / 256 with
     | 1 => if ftype = 0x0103 then inst < 32 else inst == 0
     | 2 | 0xB | 0xC => inst == 0
     | 3 | 8 => inst < 4
     | 4 => inst < 2
     | 5 | 9 => inst < 32
     | _ => inst < 64)

def allActs : BitVec 64 := BitVec.allOnes 64
def allHdas : BitVec 32 := BitVec.allOnes 32

def actMask (n : Nat) : BitVec 64 := BitVec.ofNat 64 (2 ^ n)
def hdaMask (h : Nat) : BitVec 32 := BitVec.ofNat 32 (2 ^ h)
def hdaActs (h : Nat) : BitVec 64 := BitVec.ofNat 64 (3 * 4 ^ h)

/-- What a fault acts on (R436): actuators, HDAs, and whether the scope is the device. `info` is FLT_INFO, or the actuator
of the work for 0x0B01. -/
def State.faultScope (s : State) (ftype inst : Nat) (info : Word) : BitVec 64 × BitVec 32 × Bool :=
  let act (n : Nat) : BitVec 64 × BitVec 32 × Bool := (actMask n, hdaMask (n / 2), false)
  let hda (h : Nat) : BitVec 64 × BitVec 32 × Bool := (hdaActs h, hdaMask h, false)
  let dev : BitVec 64 × BitVec 32 × Bool := (allActs, allHdas, true)
  match ftype / 256 with
  | 1 => if ftype = 0x0103 then hda inst else dev
  | 5 | 9 => hda inst
  | 6 | 7 => act inst
  | 8 => if ftype = 0x0800 then dev
         else match loopKind info.toNat with
           | .spindle => hda (loopHda info.toNat)
           | _ => act (loopAct info.toNat)
  | 0xA => match s.str.actOfLane s.husk.variantH inst with
           | some n => act n
           | none => (0, 0, false)
  | 0xB => if ftype = 0x0B01 then act info.toNat else dev
  | 0xC => if ftype = 0x0C03 ∧ 48 ≤ info.toNat ∧ info.toNat < 80 then hda (info.toNat - 48)
           else if ftype = 0x0C03 ∧ 88 ≤ info.toNat ∧ info.toNat < 96 then
             let q := (info.toNat - 88) % 4
             (BitVec.ofNat 64 (0xFFFF * 65536 ^ q), BitVec.ofNat 32 (0xFF * 256 ^ q), false)
           else dev
  | _ => dev

/-- The entry of the locked fault reaction table that names a type, if one does (R445). -/
def State.frtEntry (s : State) (ftype : Nat) : Option Nat :=
  (List.range (s.rdN Reg.frt_FRT_CNT 0)).find? (fun i => (s.rdAt Reg.frt_FTYPE 0 i).toNat == ftype)

/-- The reaction of a type: its entry's, at least the minimum, or the minimum (R46, R445). -/
def State.reactOf (s : State) (ftype : Nat) : Nat :=
  let least := (faultTypes.lookup ftype).getD 1
  match s.frtEntry ftype with
  | some i => max least (s.rdAt Reg.frt_REACT 0 i).toNat
  | none => least

/-- LATCH of a type (R445). -/
def State.latchOf (s : State) (ftype : Nat) : Bool :=
  match s.frtEntry ftype with
  | some i => s.rdAt Reg.frt_LATCH 0 i == 1
  | none => false

/-- Highest reaction in force on actuator n, and on HDA h (R437). -/
def State.reactAct (s : State) (n : Nat) : Nat := ((s.flt.active.filter (fun a => a.acts.getLsbD n)).map (·.react)).foldl max 0
def State.reactHda (s : State) (h : Nat) : Nat := ((s.flt.active.filter (fun a => a.hdas.getLsbD h)).map (·.react)).foldl max 0

/-- FLT_STAT as it reads: bits 1 and 2 of a Heliostat unit are the ORs of its pending fields (R440). -/
def State.fltStat (s : State) (b : Nat) : Word :=
  let v := s.rd Reg.flt_FLT_STAT b
  if 168 ≤ b ∧ b < 172 then
    let part (x : BitVec 256) : Bool := x.toNat / 2 ^ (64 * (b - 168)) % 2 ^ 64 != 0
    (v &&& 0xFFF9) ||| (if part s.flt.wdPend then 2 else 0) ||| (if part s.flt.arithPend then 4 else 0)
  else v

/-- The block's interrupt line (R440): some type with FLT_STAT, FLT_IE and a reaction of 1 or more. -/
def State.fltIrq (s : State) (b : Nat) : Bool :=
  (List.range 16).any (fun t => (s.fltStat b).getLsbD t && (s.rd Reg.flt_FLT_IE b).getLsbD t
    && 1 ≤ s.reactOf (blkClass b * 256 + t))

/-- Some FLT_STAT, FLT_LATCH or pending bit of any fault block is 1. -/
def State.anyFault (s : State) : Bool :=
  s.regs.any (fun p => p.1 / 0x100000 == Reg.flt_FLT_STAT.id || p.1 / 0x100000 == Reg.flt_FLT_LATCH.id)
    || s.flt.wdPend != 0 || s.flt.arithPend != 0

/-- Husk's copy of a block's interrupt: of the types whose reaction is 3 or 4 (R440). -/
def State.fltIrqHusk (s : State) (b : Nat) : Bool :=
  (List.range 16).any (fun t => (s.fltStat b).getLsbD t && (s.rd Reg.flt_FLT_IE b).getLsbD t
    && 3 ≤ s.reactOf (blkClass b * 256 + t))

/-- FAULT_N is low: until the Sheaf lock, and from then while a fault bit stands (R96, R442). -/
def State.faultNLow (s : State) : Bool := !s.locked || s.anyFault

/-- FLT_QUIET's value in ms (R440). -/
def State.quietMs (s : State) (b : Nat) : Nat :=
  let q := s.rdN Reg.flt_FLT_QUIET b
  if 1 ≤ q ∧ q ≤ 10000 then q else 20

/-! ### Audit records of detections (R441) -/

def State.faultAudit (s : State) (ftype inst : Nat) (info : Word) : State :=
  match s.flt.aud.find? (fun a => a.ftype == ftype && a.inst == inst && a.recorded) with
  | some _ =>
    s.updFlt (fun f => { f with aud := f.aud.map (fun a =>
      if a.ftype = ftype ∧ a.inst = inst then { a with since := a.since + 1, info := info } else a) })
  | none =>
    (s.updFlt (fun f => { f with aud := f.aud ++ [⟨ftype, inst, true, 0, info⟩] })).audit 1 .faultDetect inst
      [ftype, inst, info.toNat, 1]

/-- The start of a housekeeping round: one record for the detections that followed a record in the last round (R441). -/
def State.faultAuditRound (s : State) : State :=
  let due := s.flt.aud.filter (fun a => a.since ≠ 0)
  let s := s.updFlt (fun f => { f with aud := due.map (fun a => { a with since := 0 }) })
  due.foldl (fun s a => s.audit 1 .faultDetect a.inst [a.ftype, a.inst, a.info.toNat, a.since]) s

/-! ### Check-bit injection (R444) -/

/-- A write into the storage that a checker protects: the check bits of an armed write are stored inverted, those of any other as they
should be. `word` names what is written. -/
def State.injWrite (s : State) (ftype inst word : Nat) : State :=
  let b := fltBlk ftype inst
  let t := fltIdx ftype
  let key := 256 * b + t
  match s.flt.armed.find? (fun a => a.1 == b && a.2.1 == t) with
  | some (_, _, n) =>
    let rest := s.flt.armed.filter (fun a => !(a.1 == b && a.2.1 == t))
    let s := s.updFlt (fun f => { f with
      armed := if n ≤ 1 then rest else rest ++ [(b, t, n - 1)],
      injected := f.injected.filter (fun x => !(x.1 == key && x.2.1 == word)) ++ [(key, word, max 1 (s.rdN Reg.flt_INJ_BITS b))] })
    if n ≤ 1 then s.wr Reg.flt_INJ_ARMED b 0 else s
  | none =>
    if s.flt.injected.any (fun x => x.1 == key && x.2.1 == word) then
      s.updFlt (fun f => { f with injected := f.injected.filter (fun x => !(x.1 == key && x.2.1 == word)) })
    else s

/-- What a checker takes in next is what an armed write stored with inverted check bits: the arming runs down by one (R444). -/
def State.injTake (s : State) (ftype inst : Nat) : Option State :=
  let b := fltBlk ftype inst
  let t := fltIdx ftype
  match s.flt.armed.find? (fun a => a.1 == b && a.2.1 == t) with
  | some (_, _, n) =>
    let rest := s.flt.armed.filter (fun a => !(a.1 == b && a.2.1 == t))
    let s := s.updFlt (fun f => { f with armed := if n ≤ 1 then rest else rest ++ [(b, t, n - 1)] })
    some (if n ≤ 1 then s.wr Reg.flt_INJ_ARMED b 0 else s)
  | none => none

/-- The tag of grain x of an area, as the tag generator writes it (R12, R13). -/
def State.putTag (s : State) (who id x : Nat) (t : Tag) : State :=
  let s := s.injWrite (areaChecker id) 0 (areaWord id x)
  let flip := match s.flt.injected.find? (fun y => y.1 == 256 * fltBlk (areaChecker id) 0 && y.2.1 == areaWord id x) with
    | some (_, _, 1) => 1 | some (_, _, 2) => 3 | some _ => 0xFFFFFFFF | none => 0
  s.dmaWrite who t.sec (s.tagAt id x) (t.bytes flip)

/-- A grain at an index of an area: its payload and its tag (R12); the bytes past PAYLOAD_LEN are undefined and stay as they were (R11). -/
def State.putGrain (s : State) (who id x : Nat) (t : Tag) (payload : List Byte) : State :=
  match s.str.part id with
  | some _ => (s.dmaWrite who t.sec (s.grainAt id x) (payload.take t.len)).putTag who id x t
  | none => s

/-- A checker meets inverted check bits among the words it reads. -/
def State.injAny (s : State) (ftype inst : Nat) (words : Nat → Bool) : Bool :=
  s.flt.injected.any (fun x => x.1 == 256 * fltBlk ftype inst + fltIdx ftype && words x.2.1)

/-- What a correcting code makes of a word with inverted check bits: one is corrected, more are not. DEDUCED: log 181. -/
def State.injEcc (s : State) (ftype inst word : Nat) : EccEvent :=
  match s.flt.injected.find? (fun x => x.1 == 256 * fltBlk ftype inst + fltIdx ftype && x.2.1 == word) with
  | some (_, _, 1) => .correctable
  | some _ => .uncorrectable
  | none => .clean

/-- An injected error that meets a real one in a word is one error (R449). -/
def eccWorse (a b : EccEvent) : EccEvent :=
  match a, b with
  | .uncorrectable, _ | _, .uncorrectable => .uncorrectable
  | .correctable, _ | _, .correctable => .correctable
  | _, _ => .clean

/-! ### Reactions (R437 to R439) -/

/-- Acknowledged grains buffered for an actuator. -/
def State.ackGrains (s : State) (n : Nat) : Nat := (s.buf.filter (fun g => g.tag.act == n && g.acked && !g.written)).length

/-! ### Broken guarantees (R29, R30) -/

/-- Work waits at the actuator whose delay breaks guarantee 5 (urgent latency), 6 (weighted shares) or 7 (background work). -/
def State.classWaits (s : State) (n g : Nat) : Bool :=
  (s.act n).mq.any (fun e => if g = 5 then e.prio == 0 else if g = 6 then 1 ≤ e.prio && e.prio ≤ 3 else e.prio == 4)

/-- The audit record of a lower guarantee broken for a higher one, at an actuator or block. -/
def State.guarantee (s : State) (high low who : Nat) : State := s.audit 7 .guarantee who [high, low, who]

/-- What of the guarantees `lows` breaks at actuator n for a higher one. DEDUCED: log 182. -/
def State.breaksFor (s : State) (n high : Nat) (lows : List Nat) : State :=
  (lows.filter (s.classWaits n)).foldl (fun s g => s.guarantee high g n) s

/-- A reaction takes effect on what it reaches. -/
def State.react (s : State) (r reason : Nat) (acts : BitVec 64) (hdas : BitVec 32) : State :=
  let s := if 2 ≤ r then (List.range 64).foldl (fun s n => if acts.getLsbD n && s.actExists n then
      let owed := s.ackGrains n
      let s := (s.stopAct n).breaksFor n 1 [5, 6, 7]
      if r = 2 ∧ owed ≠ 0 then s.guarantee 1 2 n else s
    else s) s else s
  if 3 ≤ r then
    (List.range 32).foldl (fun s h =>
      if hdas.getLsbD h && s.declared h then
        let owed := s.ackGrains (2 * h) + s.ackGrains (2 * h + 1)
        let s := s.safeLow h reason
        let s := s.hdaLoopsSafe h 6
        let s := s.spindleCoast h
        if owed = 0 then s else s.guarantee 1 2 h
      else s) s
  else s

/-- STOP's REASON (R437). -/
def stopReason (ftype : Nat) : Nat := if ftype = 0x0506 ∨ ftype = 0x0C01 then 2 else 1

/-- The reaction and reach of a detection: REACT 3 and 4 of a device scope are 4, and 4 reaches every HDA (R437). -/
def reachOf (r : Nat) (sc : BitVec 64 × BitVec 32 × Bool) : Nat × BitVec 64 × BitVec 32 :=
  let r := if sc.2.2 ∧ r = 3 then 4 else r
  if r = 4 then (4, allActs, allHdas) else (r, sc.1, sc.2.1)

/-- Recoveries of a type of a block within the preceding 3,600 s (R443). -/
def State.recentRecov (s : State) (b t : Nat) : Nat :=
  (s.flt.recov.filter (fun x => x.1 == b && x.2.1 == t && s.alm.us64.toNat < x.2.2 + 3600000000)).length

/-- A fault of these types is in force for the actuator, or a bit stands in one of the blocks that R269 names. -/
def State.gateFault (s : State) (n : Nat) : Bool :=
  let h := n / 2
  let stands (b : Nat) : Bool := s.fltStat b != 0
  let pend (g : Nat) : Bool := s.flt.wdPend.getLsbD g || s.flt.arithPend.getLsbD g
  stands (8 + h) || stands (40 + n) || stands (104 + n) || stands (172 + h)
    || pend (vcmLoop n) || pend (maLoop n) || pend (laserLoop n)
    || 2 ≤ s.reactAct n

/-- A fault that arises for an actuator closes the gate of its armed frame at once (R269, R271). -/
def State.faultArose (s was : State) : State :=
  (List.range 64).foldl (fun s n =>
    if (s.act n).armed.isSome && s.gateFault n && !(was.gateFault n) then s.gateClose n 6 else s) s

/-- Add a type to what is in force, or widen the entry that is there. -/
def activeAdd (l : List ActiveFault) (a : ActiveFault) : List ActiveFault :=
  match l with
  | [] => [a]
  | x :: rest =>
    if x.ftype = a.ftype ∧ x.inst = a.inst then { x with acts := x.acts ||| a.acts, hdas := x.hdas ||| a.hdas, react := max x.react a.react } :: rest
    else x :: activeAdd rest a

/-- A block detects a fault (R437, R440, R441, R443). `detail` is FLT_INFO; `info` selects the scope. -/
def State.detect (s : State) (ftype inst : Nat) (info detail : Word) (injected : Bool) : State :=
  let b := fltBlk ftype inst
  let t := fltIdx ftype
  let (r, acts, hdas) := reachOf (s.reactOf ftype) (s.faultScope ftype inst info)
  -- what the type holds already: its reaction takes effect once on each actuator and HDA (R437). DEDUCED: log 138
  let was := s
  let held := s.flt.active.find? (fun a => a.ftype == ftype && a.inst == inst && r ≤ a.react)
  let newActs := match held with | some a => acts &&& ~~~a.acts | none => acts
  let newHdas := match held with | some a => hdas &&& ~~~a.hdas | none => hdas
  let s := if ftype = 0x0801 then s.updFlt (fun f => { f with wdPend := f.wdPend ||| BitVec.ofNat 256 (2 ^ info.toNat) })
           else if ftype = 0x0802 then s.updFlt (fun f => { f with arithPend := f.arithPend ||| BitVec.ofNat 256 (2 ^ info.toNat) })
           else s.wrBit Reg.flt_FLT_STAT b t true
  let s := s.bump Reg.flt_FLT_OCC_CNT b
  let s := s.wrN Reg.flt_LAST_TYPE b t
  let s := s.wr Reg.flt_FLT_INFO b detail
  let s := s.wrB Reg.flt_FLT_INJ_SRC b injected
  let s := s.wrBit Reg.flt_FLT_ACT b t true
  let s := s.updFlt (fun f => { f with
    active := activeAdd f.active ⟨ftype, inst, acts, hdas, r⟩,
    quiet := f.quiet.filter (fun q => !(q.1 == ftype && q.2 == inst)) })
  let s := s.faultAudit ftype inst detail
  let s := if (s.latchOf ftype ∨ ftype = 0x0101 ∨ 8 ≤ s.recentRecov b t) ∧ s.rdBit Reg.flt_FLT_LATCH b t = false then
      let s := s.wrBit Reg.flt_FLT_LATCH b t true
      let s := if 2 ≤ r then (List.range 64).foldl (fun s n =>
          if acts.getLsbD n then s.updAct n (fun a => { a with holdExpired := true }) else s) s else s
      s.audit 1 .faultLatch inst [ftype, inst]
    else s
  let s := if ftype = 0x0101 then s.updHusk (fun k => { k with halted := true }) else s
  (s.react r (stopReason ftype) newActs newHdas).faultArose was

/-- The condition of a type counts as absent (R443), as far as the block's own state decides it. -/
def State.faultAbsent (s : State) (ftype inst : Nat) : Bool :=
  match ftype with
  | 0x0102 => s.rdN Reg.status_COPY 0 != 0
  | 0x0103 => !((s.str.port inst).isSome && s.fused inst)
  | 0x0501 => s.bound inst
  | 0x0502 | 0x0503 => s.up inst
  | 0x0601 | 0x0602 => s.rdN Reg.demod_STATE inst == 2
  | 0x0801 => (List.range 64).all (fun i =>
      let g := 64 * inst + i
      !(s.flt.wdPend.getLsbD g) || (1 ≤ s.loopMode g && s.loopMode g ≤ 3))
  | 0x0506 => !((s.rdAt Reg.therm_H_ST 0 inst).getLsbD 2)
  | 0x0C01 => !((s.rd Reg.therm_J_ST 0).getLsbD 2)
  | 0x0901 | 0x0902 | 0x0903 => s.rdB Reg.spindle_LOCKED inst
  | 0x0101 => false
  | _ => true

/-- The reaction of a recovered type is withdrawn (R438, R439): what no other reaction holds comes back. -/
def State.withdraw (s : State) (a : ActiveFault) : State :=
  let s := (List.range 64).foldl (fun s n =>
    if a.acts.getLsbD n && 2 ≤ a.react && s.reactAct n < 2 then s.updAct n (fun x => { x with holdExpired := false }) else s) s
  if 3 ≤ a.react then
    (List.range 32).foldl (fun s h =>
      if a.hdas.getLsbD h && s.reactHda h < 3 && s.bound h && s.up h && s.rdN Reg.dis_STATE (64 + h) == 0 then
        -- a group that has not started and has the HDA in it already stands for this restart
        let s : State := { s.safeHigh h with spinWait := s.spinWait.filter (fun x => x != h) }
        if s.spin.any (fun g => !g.started && g.hdas.contains h) then s
        else { s with spin := s.spin ++ [⟨0xFE, [h], 0, false, false⟩] }
      else s) s
  else s

/-- A type leaves ACTIVE (R443). -/
def State.recover (s : State) (ftype inst : Nat) : State :=
  match s.flt.active.find? (fun a => a.ftype == ftype && a.inst == inst) with
  | some a =>
    let b := fltBlk ftype inst
    let t := fltIdx ftype
    let s := s.updFlt (fun f => { f with
      active := f.active.filter (fun x => !(x.ftype == ftype && x.inst == inst)),
      quiet := f.quiet.filter (fun q => !(q.1 == ftype && q.2 == inst)),
      recov := (f.recov.filter (fun x => s.alm.us64.toNat < x.2.2 + 3600000000)) ++ [(b, t, s.alm.us64.toNat)] })
    let s := if s.flt.active.any (fun x => fltBlk x.ftype x.inst == b && fltIdx x.ftype == t) then s
             else s.wrBit Reg.flt_FLT_ACT b t false
    let s := s.bump Reg.flt_FLT_RCV_CNT b
    let s := s.audit 1 .faultRecovery inst [ftype, inst]
    s.withdraw a
  | none => s

/-- A disable ends once its heads are on the ramp; an HDA's then stops the spindle, sends STOP with REASON 3, drives SAFE_n low and
takes the link to OFF (R447). -/
def State.disEnd (s : State) (n : Nat) : State :=
  let h := n / 2
  let s := if s.rdN Reg.dis_STATE n = 1 ∧ (s.act n).headsOn then s.wr Reg.dis_STATE n 2 else s
  if s.rdN Reg.dis_STATE (64 + h) = 1 ∧ (s.act (2 * h)).headsOn ∧ (s.act (2 * h + 1)).headsOn then
    let s := s.spindleCoast h
    let s := [spinLoop h 0, spinLoop h 1].foldl (fun s g => (s.wr Reg.loop_ENABLE g 0).setMode g 0) s
    let s := s.safeLow h 3
    let s : State := { s with spinWait := s.spinWait.filter (fun x => x != h) }
    (s.linkOff h).wr Reg.dis_STATE (64 + h) 2
  else s

end Sys2Proof.Machine
end

