-- ==== Sys2Proof/Machine/Access.lean ====
section
/-!
DEFINITION. Machine/Access.lean: who may reach what: the windows of R61 to R65, the domains of R22, R23, R62 and R186, the
violation registers of R66, the island boundaries of R20, and a write to a register that has no behaviour of its own.
-/

namespace Sys2Proof.Machine

/-! ### Windows (R61, R64) -/

/-- A window over bytes `a` to `a + n − 1`. -/
def Win.over (a n : Nat) (rd wr exec : Bool) : Win := ⟨a / 4096, (a + n - 1) / 4096, rd, wr, exec, true⟩

def PartRec.win (p : PartRec) (exec : Bool) : Win := Win.over p.base (p.sizeMib * 1048576) true true exec

/-- Partitions in ascending order of base. -/
def sortParts (ps : List PartRec) : List PartRec := sortBy (fun (a b : PartRec) => a.baseMib ≤ b.baseMib) ps

/-- One window per run of adjacent partitions (R61). -/
def mergeParts (ps : List PartRec) : List Win :=
  (ps.foldl (fun (acc : List (Nat × Nat)) p =>
    match acc with
    | (a, e) :: rest => if e = p.base then (a, p.stop) :: rest else (p.base, p.stop) :: acc
    | [] => [(p.base, p.stop)]) []).reverse.map (fun x => Win.over x.1 (x.2 - x.1) true true false)

/-- The initiators whose default is all of main memory (R61). -/
def movesData (id : Nat) : Bool := id == 0x81 || id == 0x82 || (0x84 ≤ id && id ≤ 0x8A)

/-- One window over all of main memory, `inst` bytes of it (R22); none while no memory is known. -/
def memWin (inst : Nat) : List Win := if inst = 0 then [] else [Win.over ddrBase inst true true false]

/-- The default windows of an initiator (R61), in the order of its row: that is the order of their numbers w. DESIGN CHOICE: log 149. -/
def defaultWins (c : Structure) (inst id : Nat) : List Win :=
  let ps := c.parts.filter (fun p => 0 < p.sizeMib)
  let of (ids : List Nat) : List PartRec := sortParts (ps.filter (fun p => ids.contains p.id))
  if isCulm id then
    Win.over 0x10000000 0x8100000 true true false :: (of [4]).map (fun p => p.win true) ++ mergeParts (of [0, 1, 2, 3, 6, 7])
  else
    match engineId id with
    | some e =>
      [Win.over (windowBase (0x20 + e)) 0x100000 true true true, Win.over (windowBase 1) 0x200000 true true false,
        Win.over (windowBase (0x0C + e / 17)) 0x100000 true true false, Win.over (windowBase (0x70 + e / 17)) 0x100000 true true false]
        ++ (of [0, 1, 3, 6]).map (fun p => p.win false)
    | none =>
      if 0x70 ≤ id ∧ id < 0x74 then
        [Win.over (windowBase (0x20 + 17 * (id - 0x70))) (17 * 0x100000) false true false]
          ++ (of [5]).map (fun p => { p.win false with wr := false })
          ++ [Win.over (windowBase 1 + (60 + (id - 0x70)) * 0x100) 0x100 true true false]
      else if id = idAgent then
        [Win.over (windowBase 1) 0x100000 true true false, Win.over (windowBase 0x11) 0x100000 true true false]
      else if movesData id then memWin inst
      else []

/-- Every initiator that has windows. -/
def windowIds : List Nat :=
  (List.range 16).map idCulm ++ (List.range 68).map idEngine ++ (List.range 4).map idLoader
    ++ [0x78, 0x81, 0x82, 0x84, 0x85, 0x86, 0x87, 0x88, 0x89, 0x8A]

/-- Program every window at structure load. DESIGN CHOICE: log 149. -/
def programWins (c : Structure) (inst : Nat) : List (Nat × Win) :=
  windowIds.flatMap (fun id => (defaultWins c inst id).zipIdx.map (fun p => (8 * id + p.2, p.1)))

/-- Once the installed memory is known, the windows over all of it. DESIGN CHOICE: log 149. -/
def State.memWins (s : State) : State :=
  { s with wins := (windowIds.filter movesData).foldl (fun w id =>
      match memWin s.installed with
      | x :: _ => assocSet w (8 * id) x
      | [] => assocDel w (8 * id)) s.wins }

/-! ### Domains (R22, R23, R62, R186) -/

/-- Index of the control window an address lies in. -/
def windowIdx (addr : Nat) : Option Nat :=
  if 0x10000000 ≤ addr ∧ addr < 0x20000000 then some ((addr - 0x10000000) / 0x100000) else none

/-- R23 assigns the control window. -/
def windowMapped (i : Nat) : Bool := i ≤ 0x13 || (0x20 ≤ i && i < 0x64) || (0x70 ≤ i && i < 0x74) || i == 0x80

/-- What R186 lets engine e do in its quadrant's Tiller and Heliostat windows: none refused, some true writable. -/
def State.engineView (s : State) (e addr : Nat) : Option Bool :=
  match s.engAct e, windowIdx addr with
  | some n, some i =>
    let o := addr % 0x100000
    let h := n / 2
    let own (b : Bool) : Option Bool := if b then some true else none
    let ro (b : Bool) : Option Bool := if b then some false else none
    if 0x0C ≤ i ∧ i < 0x10 then
      if 0x40000 ≤ o ∧ o < 0x44000 then own ((o - 0x40000) / 0x400 == n % 16)
      else if 0x60000 ≤ o ∧ o < 0x64000 then own ((o - 0x60000) / 0x400 == n % 16)
      else if 0x70000 ≤ o ∧ o < 0x72000 then ro ((o - 0x70000) / 0x400 == h % 8)
      else if 0x1000 ≤ o ∧ o < 0x1200 then ro ((o - 0x1000) / 0x20 == n % 16)
      else if 0x1400 ≤ o ∧ o < 0x1500 then ro ((o - 0x1400) / 0x20 == h % 8)
      else some false
    else if 0x70 ≤ i ∧ i < 0x74 then
      if 0x10000 ≤ o ∧ o < 0x20000 then
        let l := (o - 0x10000) / 0x400
        own (l < 48 && l % 16 == n % 16)
      else if 0x20000 ≤ o ∧ o < 0x20400 then own ((o - 0x20000) / 0x40 == n % 16)
      else some false
    else some true
  | _, _ => none

/-- Stage 2 of R63 and what R186 makes read-only. -/
def State.stage2 (s : State) (id addr : Nat) (wr : Bool) : Acc :=
  let sec := isSecure id
  match windowIdx addr with
  | some i =>
    if windowMapped i = false then .viol true
    else if i = 0 ∨ i = 0x13 then
      if wr ∧ !sec then .viol true
      else if i = 0 ∧ 0x10000 ≤ addr % 0x100000 ∧ addr % 0x100000 < 0x19000 ∧ id ≠ idHusk then .ignored else .ok
    else if i = 1 then
      let c := addr % 0x100000 / 0x100
      if c < 64 ∧ (s.chan c).secure ∧ !sec then .viol true else .ok
    else if 0x20 ≤ i ∧ i < 0x64 then
      if wr ∧ 0x80000 ≤ addr % 0x100000 ∧ addr % 0x100000 < 0xC0000 ∧ id ≠ idEngine (i - 0x20) ∧ id ≠ idLoader ((i - 0x20) / 17)
      then .viol true
      -- R205: of an engine's registers Culm writes RUNAHEAD_MAX, CONF_SPAN and AGE_LIMIT. DEDUCED: log 141
      else if wr ∧ isCulm id ∧ addr % 0x100000 < 0x80000 ∧ addr % 0x100000 ≠ 0x40 ∧ addr % 0x100000 ≠ 0x44 then .ignored else .ok
    else
      match engineId id with
      | some e =>
        if (0x0C ≤ i ∧ i < 0x10) ∨ (0x70 ≤ i ∧ i < 0x74) then
          match s.engineView e addr with
          | some w => if wr ∧ !w then .ignored else .ok
          | none => .viol true
        else .ok
      -- R308: a setpoint FIFO takes writes from its bound engine alone
      | none => if wr ∧ 0x70 ≤ i ∧ i < 0x74 ∧ 0x20000 ≤ addr % 0x100000 ∧ addr % 0x100000 < 0x20400 then .ignored else .ok
  | none =>
    s.memAcc id sec addr wr

/-- The island behind an address (R18, R23, R503): the mailbox channels, the lock registers, the Granary and main memory behind it are
C7's. The fault reaction table is taken as Husk's. DEDUCED: log 187. -/
def islandOf (addr : Nat) : Nat :=
  match windowIdx addr with
  | some i =>
    if i = 0 then 0 else if i = 1 ∨ i = 2 ∨ i = 7 then 7 else if i = 3 then 4 else if i = 4 then 3 else if i = 5 ∨ i = 6 then i
    else if 8 ≤ i ∧ i < 16 then i else if i = 0x10 then 16 else if i = 0x11 ∨ i = 0x12 then 17 else if i = 0x13 then 1
    else if 0x20 ≤ i ∧ i < 0x64 then 12 + (i - 0x20) / 17 else if 0x70 ≤ i ∧ i < 0x74 then 12 + (i - 0x70)
    else if i = 0x80 then 2 else 0
  | none => if addr < ddrBase then 1 else 7

/-- A quadrant island without power: fused off (R3); or one with no declared port, which R42 leaves unclocked and of whose boundary R20 says
nothing: it is taken to behave as a fused-off one. DESIGN CHOICE: log 148. -/
def State.islandDead (s : State) (i : Nat) : Bool :=
  let q := i % 4
  8 ≤ i && i < 16 && !((List.range 8).any (fun b => s.declared (8 * q + b)))

/-- The three stages of R63 up to the register, then the island boundary (R20). -/
def State.access (s : State) (id addr : Nat) (wr : Bool) : Acc :=
  if s.stage1 id addr wr = false then .viol false
  else
    match s.stage2 id addr wr with
    | .ok => if s.islandDead (islandOf addr) then .dropped (islandOf addr) else .ok
    | a => a

/-- A refused read returns zero (R20, R24). -/
def State.refused (s : State) (id : Initiator) (wr : Bool) : State := if wr then s else s.emit (.value id 0)

/-- One access: `act` where it is let through, else what R20, R24 and R66 make of it. -/
def State.guardAcc (s : State) (id : Initiator) (addr : Nat) (wr : Bool) (act : State → State) : State :=
  match s.access id.toNat addr wr with
  | .ok => act (s.wake (islandOf addr))
  | .ignored => s.refused id wr
  | .viol dom => (s.violate id.toNat addr wr dom).refused id wr
  | .dropped i => (s.bumpBy Reg.status_ISLAND_DROP 0 i 1).refused id wr

/-- A grain that meets the boundary of a dead island is discarded, and the sender raises a routing fault (R20). -/
def State.routeDrop (s : State) (i : Nat) : State := (s.bumpBy Reg.status_ISLAND_DROP 0 i 1).detect 0x0201 0 0 0 false

/-- A write that acts, by an initiator with an internal address. The host has none there (R27). PRESUMED: log 60. -/
def State.guard (s : State) (id : Initiator) (addr : Nat) (act : State → State) : State :=
  if id.toNat = idHost then s else s.guardAcc id addr true act

/-! ### Register writes (R8 to R10) -/

/-- One field under its access code (R10): RWL fields take Husk's writes alone, and only until the Sheaf lock (R57); HO fields take
Husk's. WO fields act only through their own commands. -/
def State.wrField (s : State) (who : Nat) (f : RegField) (i j : Nat) (w : Word) : State :=
  match f.acc with
  | .RW => s.wrAt f i j (f.extract w)
  | .RWL => if s.locked ∨ who ≠ idHusk then s else s.wrAt f i j (f.extract w)
  | .W1C => s.wrAt f i j (s.rdAt f i j &&& ~~~(f.extract w))
  | .HO => if who = idHusk then s.wrAt f i j (f.extract w) else s
  | .RO | .WO => s

/-- The 64-bit quantities software writes as two registers (R9): the low field and the high field. -/
def pairLo (f : RegField) : Option RegField :=
  if f = Reg.port_FL_DDR_HI then some Reg.port_FL_DDR_LO else if f = Reg.slot_BASE_HI then some Reg.slot_BASE_LO
  else if f = Reg.snap_IDX_HI then some Reg.snap_IDX_LO else none

def isPairLo (f : RegField) : Bool := f == Reg.port_FL_DDR_LO || f == Reg.slot_BASE_LO || f == Reg.snap_IDX_LO

/-- A write to a plain field, the low half of a pair being taken only when the high half arrives (R9). -/
def State.wrPlain (s : State) (who : Nat) (f : RegField) (i j : Nat) (w : Word) : State :=
  if isPairLo f then { s with staged := assocSet s.staged (f.key i j) w }
  else
    match pairLo f with
    | some lo =>
      let s := match s.staged.lookup (lo.key i j) with
        | some v => { s.wrField who lo i j v with staged := assocDel s.staged (lo.key i j) }
        | none => s
      s.wrField who f i j w
    | none => s.wrField who f i j w

/-- Fields a block's own state keeps from a plain write: what the rules of their registers except. -/
def State.writeBlocked (s : State) (f : RegField) (i : Nat) : Bool :=
  match f.blk with
  | .loop => -- R296: PROG and X only in OFF or SAFE; R299: the active set ignores writes; ENABLE, MODE_REQ and SWAP have commands
    ((f == Reg.loop_PROG || f == Reg.loop_X) && !(s.loopMode i == 0 || s.loopMode i == 5))
      || (f == Reg.loop_KA && s.rdN Reg.loop_SET i == 0) || (f == Reg.loop_KB && s.rdN Reg.loop_SET i == 1)
      || f == Reg.loop_ENABLE || f == Reg.loop_MODE_REQ
      -- R316: the spindle block alone writes these of its instances
      || ((f == Reg.loop_MAN_OUT || f == Reg.loop_OUT_MIN || f == Reg.loop_OUT_MAX) && loopKind i == .spindle)
  | .engine => (f == Reg.engine_OP_DESC && s.rdB Reg.engine_OP_BUSY i)
  | .slot => s.rdB Reg.slot_BUSY i
  | .demod => f == Reg.demod_RAD_OFS || f == Reg.demod_TIM_OFS
  | .lane => f == Reg.lane_TAP_DATA
  | .wa => f == Reg.wa_WT_DATA
  | .flt => f == Reg.flt_FLT_STAT
  | _ => false

/-- Every field at one register of one block instance. -/
def State.wrBlk (s : State) (who : Nat) (b : Blk) (i addr : Nat) (w : Word) : State :=
  (Regs.ofBlk b).foldl (fun s f =>
    (List.range f.n).foldl (fun s j =>
      if f.addr i j = addr ∧ s.writeBlocked f i = false then s.wrPlain who f i j w else s) s) s

end Sys2Proof.Machine
end

