-- ==== Sys2Proof/Machine/HostOps.lean ====
section
/-!
DEFINITION. Machine/HostOps.lean: operations the host side and the media side share: the media queue, command slots and their
completion, asynchronous events, the volatile write buffer, and a side's ledger and zones.
-/

namespace Sys2Proof.Machine

/-- MAX_LEVEL of the HDA (R144). -/
def State.maxLevel (s : State) (h : Nat) : Nat := match s.desc h with | some d => d.maxLevel | none => 0

def State.updHost (s : State) (f : HostSt → HostSt) : State := { s with host := f s.host }
def State.updPool (s : State) (f : PoolSt → PoolSt) : State := { s with pool := f s.pool }
def State.led (s : State) (n : Nat) : LedgerSt := (s.act n).led
def State.updLed (s : State) (n : Nat) (f : LedgerSt → LedgerSt) : State := s.updAct n (fun a => { a with led := f a.led })

/-! ### The media queue (R190 to R193) -/

/-- LBAs of an entry still to do. -/
def MqEntry.left (e : MqEntry) : Nat := e.count - e.done.length

/-- Two entries overlap in one namespace and one of them is a write or a zone reset (R193). -/
def MqEntry.conflicts (a b : MqEntry) : Bool :=
  a.nsConv == b.nsConv && a.lba < b.lba + b.count && b.lba < a.lba + a.count
    && (a.opc == 2 || a.opc == 3 || b.opc == 2 || b.opc == 3) && a.opc != 4 && b.opc != 4

/-- READY (R193). -/
def ActSt.ready? (a : ActSt) (e : MqEntry) : Bool := !(a.mq.any (fun x => x.stamp < e.stamp && x.conflicts e))

/-- READY entries of a class that hold media work: a flush entry has no LBAs and no operation (R190, R204). DESIGN CHOICE: log 168. -/
def ActSt.readyOf (a : ActSt) (c : Nat) : List MqEntry := a.mq.filter (fun e => e.prio == c && e.opc != 4 && a.ready? e)

/-- Host arbitration weight of a class 1 to 3: HPW, MPW and LPW, each plus 1 (R191, R343). -/
def State.classWeight (s : State) (c : Nat) : Nat :=
  match c with
  | 1 => s.rdN Reg.qce_ARB_HPW 0 + 1
  | 2 => s.rdN Reg.qce_ARB_MPW 0 + 1
  | _ => s.rdN Reg.qce_ARB_LPW 0 + 1

/-- Deficit round robin: top every class with READY work up by its weight until one has credit (R191). -/
def State.drrPick (s : State) (n : Nat) (def_ : List Int) (fuel : Nat) : Nat × List Int :=
  let a := s.act n
  let ready := [1, 2, 3].filter (fun c => a.readyOf c != [])
  match fuel with
  | 0 => (ready.headD 4, def_)
  | fuel + 1 =>
    match ready.find? (fun c => 0 < def_.getD (c - 1) 0) with
    | some c => (c, def_)
    | none =>
      State.drrPick s n ((List.range 3).map (fun i =>
        if ready.contains (i + 1) then def_.getD i 0 + s.classWeight (i + 1) else 0)) fuel

/-- The class the sequencer selects: urgent, the weighted classes, background (R191). -/
def State.pickClass (s : State) (n : Nat) : Nat × List Int :=
  let a := s.act n
  if a.readyOf 0 ≠ [] then (0, a.deficit)
  else if a.xslot ∧ a.readyOf 4 ≠ [] then (4, a.deficit)
  else if [1, 2, 3].any (fun c => a.readyOf c != []) then s.drrPick n a.deficit 65536
  else (4, a.deficit)

/-- Bring the queue's registers up to date: CLASS_SEL, MQ_VALID and the READY counts. -/
def State.mqRefresh (s : State) (n : Nat) : State :=
  let e := s.engine n
  let (c, d) := s.pickClass n
  let s := s.updAct n (fun a => { a with deficit := d })
  let s := s.wrN Reg.engine_CLASS_SEL e c
  let s := s.wrN Reg.engine_MQ_VALID e (s.act n).mq.length
  (List.range 5).foldl (fun s c => s.wrAt Reg.engine_MQ_CLASS_CNT e c (BitVec.ofNat 32 ((s.act n).readyOf c).length)) s

/-- The lowest free index of the queue. -/
def ActSt.freeIdx (a : ActSt) : Nat := ((List.range (a.mq.length + 1)).find? (fun i => a.mq.all (fun e => e.idx != i))).getD a.mq.length

/-- Put an entry into the queue (R190). An urgent one waits longer at a thermally throttled actuator (R29, R30). -/
def State.mqPut (s : State) (n : Nat) (e : MqEntry) : State :=
  let s := if e.prio = 0 ∧ s.rdN Reg.thermAct_FRAC n < 100 ∧ s.rdN Reg.thermAct_CAUSE n % 4 ≠ 0 then s.guarantee 4 5 n else s
  (s.updAct n (fun a => { a with mq := a.mq ++ [{ e with idx := a.freeIdx, arrival := s.alm.us64.toNat % 2 ^ 32 }] })).mqRefresh n

/-- LBAs of an entry are done; an entry with none left leaves the queue. -/
def State.mqDone (s : State) (n idx : Nat) (lbas : List Nat) : State :=
  (s.updAct n (fun a => { a with
    mq := (a.mq.map (fun e => if e.idx = idx then { e with done := (e.done ++ lbas).eraseDups } else e)).filter (fun e => e.left != 0) })).mqRefresh n

/-- Every entry of a command's slot leaves the queue. -/
def State.mqDrop (s : State) (n : Nat) (p : MqEntry → Bool) : State :=
  (s.updAct n (fun a => { a with mq := a.mq.filter (fun e => !(p e)) })).mqRefresh n

/-- An entry that waits for room in the sequencer, kept in stamp order (R342). -/
def State.mqWait (s : State) (n : Nat) (e : MqEntry) : State :=
  s.updHost (fun h => { h with waiting := h.waiting ++ [(n, e)] })

/-- A background entry of PRIO 4 (R344). -/
def bgEntry (opc : Nat) (conv : Bool) (lba count stamp : Nat) (w : Work) : MqEntry :=
  ⟨0, 4, opc, conv, false, 0, lba, count, stamp, 0, [], w⟩

/-! ### Interrupts and completion entries (R25, R79, R330, R350) -/

/-- MSI-X entry v is masked: bit 0 of its vector control word, 1 at reset. PRESUMED: log 30. -/
def State.msixMasked (s : State) (v : Nat) : Bool := ((s.host.msix.lookup (4 * v + 3)).getD 1).getLsbD 0

/-- Send vector v, or mark it pending while it is masked. -/
def State.msixSend (s : State) (v : Nat) : State :=
  if s.msixMasked v then s.updHost (fun h => { h with pba := if h.pba.contains v then h.pba else h.pba ++ [v] })
  else s.emit (.msix v)

/-- A status field: SCT, SC and DNR. PRESUMED: log 34. -/
def st (sct sc : Nat) (dnr : Bool) : Nat := sct * 256 + sc + (if dnr then 0x4000 else 0)

/-- PRESUMED: log 34. -/
def stInvalidField : Nat := st 0 0x02 true
def stInternal : Nat := st 0 0x06 false
def stAbort : Nat := st 0 0x07 false
def stSqDeleted : Nat := st 0 0x08 false
def stNamespace : Nat := st 0 0x0B true
def stNotReady : Nat := st 0 0x82 false
def stUnrecovered (dnr : Bool) : Nat := st 2 0x81 dnr

def Cq.full (q : Cq) : Bool := (q.tail + 1) % max q.size 1 == q.head

def State.sq (s : State) (i : Nat) : Option Sq := s.host.sqs.find? (fun q => q.id == i)
def State.cq (s : State) (i : Nat) : Option Cq := s.host.cqs.find? (fun q => q.id == i)
def State.cmd (s : State) (slot : Nat) : Option Cmd := s.host.cmds.find? (fun c => c.slot == slot)
def State.updCmd (s : State) (slot : Nat) (f : Cmd → Cmd) : State :=
  s.updHost (fun h => { h with cmds := h.cmds.map (fun c => if c.slot = slot then f c else c) })

/-- The interrupt of a completion entry under coalescing (R335): entries gather until more than the threshold wait, where a
coalescing time is set and the vector's coalescing is on; the admin queue never coalesces. -/
def State.cqIrq (s : State) (q : Cq) : State :=
  if q.irq = false then s
  else if q.id = 0 ∨ s.host.coal.2 = 0 ∨ s.host.vecOff.contains q.vec then s.msixSend q.vec
  else
    let n := (s.host.cqs.filter (fun x => x.vec == q.vec)).foldl (fun a x => a + x.count) 0
    if s.host.coal.1 < n then
      (s.updHost (fun h => { h with cqs := h.cqs.map (fun x => if x.vec = q.vec then { x with count := 0 } else x) })).msixSend q.vec
    else s

/-- Write a completion entry of a command (R330). -/
def State.cqPost (s : State) (c : Cmd) (q : Cq) (status : Nat) (dw0 dw1 : Word) : State :=
  let head := match s.sq c.sq with | some x => x.head | none => 0
  let s := s.emit (.cqe q.id c.sq head c.sqe.cid status dw0 dw1)
  let s := s.updHost (fun h => { h with cqs := h.cqs.map (fun x =>
    if x.id = q.id then { x with tail := (x.tail + 1) % max x.size 1, count := x.count + 1 } else x) })
  match s.cq q.id with
  | some q => s.cqIrq q
  | none => s

/-! ### The buffer (R14, R347, R348) -/

/-- Grains partition 0 holds. -/
def State.bufCap (s : State) : Nat := s.grainCount 0

/-- ACK_GRAINS of an actuator's block and of its HDA's follow the buffer (R446). -/
def State.ackRefresh (s : State) : State :=
  (List.range 96).foldl (fun s b =>
    let v := if b < 64 then s.ackGrains b else s.ackGrains (2 * (b - 64)) + s.ackGrains (2 * (b - 64) + 1)
    if s.rdN Reg.dis_ACK_GRAINS b = v then s else s.wrN Reg.dis_ACK_GRAINS b v) s

/-- BUF_FREE and BUF_LOW follow the buffer; a place still to be filled for which room was given counts as taken. -/
def State.bufRefresh (s : State) : State :=
  let room := (s.host.cmds.map (·.room)).foldl (· + ·) 0
  let f := s.bufCap - s.buf.length - room
  ((s.wrN Reg.qce_BUF_FREE 0 f).wrN Reg.qce_BUF_LOW 0 (min f (s.rdN Reg.qce_BUF_LOW 0))).ackRefresh

/-- The lowest index of an area that `used` leaves free. -/
def freePlace (used : List Nat) : Nat := ((List.range (used.length + 1)).find? (fun x => !(used.contains x))).getD used.length

/-- A read pins this grain. -/
def State.pinned (s : State) (g : BufGrain) : Bool :=
  s.host.pins.any (fun p => p.2.1 == g.tag.act && p.2.2.1 == g.tag.nsConv && p.2.2.2.1 == g.tag.lba && p.2.2.2.2 == g.tag.stamp)

/-- Drop a command's pins; grains already on the media that no read pins any more are freed. -/
def State.unpin (s : State) (slot : Nat) : State :=
  let s := s.updHost (fun h => { h with pins := h.pins.filter (fun p => p.1 != slot) })
  { s with buf := s.buf.filter (fun g => !g.written || s.pinned g) }

/-- The newest unpinned or pinned grain of an LBA with a stamp below `stamp`. -/
def State.bufFind (s : State) (n : Nat) (conv : Bool) (lba stamp : Nat) : Option BufGrain :=
  (s.buf.filter (fun g => g.tag.act == n && g.tag.nsConv == conv && g.tag.lba == lba && g.tag.stamp < stamp)).foldl
    (fun b g => match b with | none => some g | some x => if x.tag.stamp < g.tag.stamp then some g else some x) none

/-! ### Slots (R341, R350) -/

/-- The slot leaves use. -/
def State.slotDrop (s : State) (slot : Nat) : State :=
  let s := s.updHost (fun h => { h with
    cmds := h.cmds.filter (fun c => c.slot != slot), places := h.places.filter (fun p => p.slot != slot) })
  let flush (e : MqEntry) : Bool := e.opc == 4 && e.slot == slot
  let s := s.updHost (fun h => { h with waiting := h.waiting.filter (fun e => !(flush e.2)) })
  let s := (List.range 64).foldl (fun s n => if (s.act n).mq.any flush then s.mqDrop n flush else s) s
  ((s.unpin slot).wrN Reg.qce_SLOT_USED 0 s.host.cmds.length).bufRefresh

/-- Media entries of a command leave where no operation has started them (R352). -/
def State.cmdMqDrop (s : State) (c : Cmd) : State :=
  let s := s.updHost (fun h => { h with waiting := h.waiting.filter (fun e => !(e.1 == c.act && e.2.slot == c.slot && e.2.stamp == c.stamp)) })
  s.mqDrop c.act (fun e => e.slot == c.slot && e.stamp == c.stamp && e.opc != 2 && e.work == .host)

/-- A command that writes user data. -/
def Cmd.writes (c : Cmd) : Bool := !c.admin && (c.sqe.opc == 0x01 || c.sqe.opc == 0x08 || c.sqe.opc == 0x7D)
def Cmd.reads (c : Cmd) : Bool := !c.admin && (c.sqe.opc == 0x02 || c.sqe.opc == 0x0C)

/-- Decide a command's status and write its completion entry; with no room in the completion queue it waits for one. -/
def State.complete (s : State) (slot status : Nat) (dw0 : Word := 0) (dw1 : Word := 0) : State :=
  match s.cmd slot with
  | none => s
  | some c =>
    let s := if c.reads then s.cmdMqDrop c else s
    let s := if c.writes ∧ status % 0x4000 = 0 then
        { s with buf := s.buf.map (fun g => if g.tag.slot = slot ∧ g.tag.stamp = c.stamp then { g with acked := true } else g) }
      else s
    let qid := if c.admin then 0 else match s.sq c.sq with | some x => x.cq | none => 0
    match s.cq qid with
    | some q =>
      if q.full then s.updCmd slot (fun c => { c with hold := .posting, status := status, dw0 := dw0, dw1 := dw1 })
      else (s.cqPost c q status dw0 dw1).slotDrop slot
    | none => s.slotDrop slot

/-! ### Work that ends with its command (R352, R438) -/

/-- Deadline of background work (R246). -/
def State.bgDeadline (s : State) : Option Nat :=
  let b := s.rdN Reg.pool_BG_LIMIT 0
  if b = 0 then none else some (s.alm.us64.toNat + 100000 * b)

/-- What stops at once when a slot becomes ABORTED (R352): placeholders not filled, media entries not started, and the LBAs
of a write that will not arrive. -/
def State.abortWork (s : State) (c : Cmd) : State :=
  let s := s.updHost (fun h => { h with places := h.places.filter (fun p => p.slot != c.slot) })
  let s := s.cmdMqDrop c
  let s := if c.writes then
      let gone := c.left
      let cut (e : MqEntry) : MqEntry := if e.slot = c.slot ∧ e.stamp = c.stamp ∧ e.opc = 2 then { e with done := (e.done ++ gone).eraseDups } else e
      let s := s.updHost (fun h => { h with
        waiting := (h.waiting.map (fun w => if w.1 = c.act then (w.1, cut w.2) else w)).filter (fun w => w.2.left != 0) })
      (s.updAct c.act (fun a => { a with mq := (a.mq.map cut).filter (fun e => e.left != 0) })).mqRefresh c.act
    else s
  let s := match (s.act c.act).op with
    | some o => if o.opc = 1 ∧ (s.act c.act).mq.all (fun e => e.idx != o.entry) then
        (match o.confEpoch with
          | some ep => (match s.epochSlot (s.engine c.act) ep with
            | some i => s.chaffSlot c.act i
            | none => s)
          | none => s).endWork c.act else s
    | none => s
  -- records of the command go on deferred (R257)
  let s := s.updPool (fun p => { p with records := p.records.map (fun r =>
    if !r.n.noCmd ∧ r.n.slot = c.slot ∧ r.stamp = c.stamp then
      { r with n := { r.n with noCmd := true, prio := 4, slot := 0 }, deadline := s.bgDeadline, limited := false } else r) })
  ((s.updCmd c.slot (fun x => { x with left := [], room := 0 })).unpin c.slot).bufRefresh

/-- Unresolved: neither completed nor aborted. -/
def Cmd.open (c : Cmd) : Bool := !c.aborted && c.hold != .posting

/-- Complete an actuator's commands with a status. -/
def State.failActs (s : State) (n status : Nat) : State :=
  (s.host.cmds.filter (fun c => !c.admin && c.act == n && c.open && c.sqe.nsid != 0xFFFFFFFF)).foldl (fun s c =>
    (s.abortWork c).complete c.slot status) s

/-- Commands held for an actuator complete with Namespace Not Ready once a reaction on it latches, or has been in force for 60 s (R438). -/
def State.failHeld (s : State) : State :=
  (((s.host.cmds.filter (fun c => !c.admin && c.open)).map (·.act)).eraseDups).foldl (fun s n =>
    if (s.act n).holdExpired then s.failActs n stNotReady else s) s

/-- A block detects a fault of its own (R437, R438). -/
def State.raise (s : State) (ftype inst : Nat) (info : Word := 0) (injected : Bool := false) : State :=
  (s.detect ftype inst info (if ftype = 0x0B01 then 0 else info) injected).failHeld

/-! ### Asynchronous events (R359) -/

/-- The configuration bit of an event; the vendor events have none and stay enabled. DEDUCED: log 31. -/
def aecBit (typ info : Nat) : Option Nat :=
  if typ = 1 ∧ info = 1 then some 1 else if typ = 1 ∧ info = 2 then some 0 else if typ = 1 then some 2
  else if typ = 2 ∧ info = 0 then some 8 else if typ = 2 ∧ info = 0xEF then some 27 else none

/-- DEDUCED: log 31. -/
def State.eventOn (s : State) (typ info : Nat) : Bool :=
  match aecBit typ info with | some b => s.host.aec.getLsbD b | none => true

/-- A request outstanding takes the oldest retained event that is not masked. -/
def State.aerServe (s : State) (fuel : Nat) : State :=
  match fuel with
  | 0 => s
  | fuel + 1 =>
    match s.host.aerWait.find? (fun e => !(s.host.aerMasked.contains (e.1, e.2.1))),
          s.host.cmds.find? (fun c => c.admin && c.sqe.opc == 0x0C && c.begun && !c.aborted && c.hold != .posting) with
    | some e, some c =>
      let s := s.updHost (fun h => { h with
        aerWait := h.aerWait.filter (fun x => x != e), aerMasked := h.aerMasked ++ [(e.1, e.2.1)] })
      State.aerServe (s.complete c.slot 0 (BitVec.ofNat 32 (e.1 + 256 * e.2.1 + 65536 * e.2.2))) fuel
    | _, _ => s

/-- An event occurs: posted, retained for the next request, or dropped while it is disabled or masked. -/
def State.event (s : State) (typ info log : Nat) : State :=
  if s.eventOn typ info = false ∨ s.host.aerMasked.contains (typ, info) ∨ s.host.aerWait.contains (typ, info, log) then s
  else (s.updHost (fun h => { h with aerWait := h.aerWait ++ [(typ, info, log)] })).aerServe 16

/-! ### The ledger of a side (R149, R248 to R255, R373, R374) -/

/-- Durable GEN of kind k (1 to 4). -/
def State.gen (s : State) (n k : Nat) : Nat := (s.led n).gens.getD (k - 1) 0

/-- PARTS of the next generation of a kind (R148, R251, R253, R373). -/
def LedgerSt.parts (l : LedgerSt) (zoneCnt k : Nat) : Nat :=
  match k with
  | 1 => pageCount 16 l.kept.length
  | 2 => pageCount 24 l.lost.length
  | 3 => 1 + pageCount 8 l.pointers.length + pageCount 1 ((zoneCnt + 3) / 4)
  | _ => 1

/-- The next generation of a kind does not fit in COUNT sectors (R149). -/
def State.ledgerFull (s : State) (n k : Nat) : Bool :=
  match s.sideDesc n with
  | some d => decide (d.ledCount.getD (k - 1) 0 < (s.led n).parts d.zoneCnt k)
  | none => false

/-- A change of kind k is staged for its next generation; one that does not fit raises the ledger-full fault (R149). -/
def State.stage (s : State) (n k : Nat) : State :=
  let s := s.updLed n (fun l => { l with staged := listSet l.staged (k - 1) true, clean := if k = 3 then false else l.clean })
  let s := (s.wrN Reg.poolAct_REMAP_ENTRIES n (s.led n).remap.length).wrN Reg.poolAct_LOST_RANGES n (s.led n).lost.length
  if s.ledgerFull n k then s.raise 0x0504 (hdaOf n) else s

/-- Generations a command waits for: those of staged kinds among `ks` (R282, R283). DEDUCED: log 37. -/
def State.gensDue (s : State) (n : Nat) (ks : List Nat) : List (Nat × Nat × Nat) :=
  (ks.filter (fun k => (s.led n).staged.getD (k - 1) false)).map (fun k => (n, k, s.gen n k))

def State.gensPast (s : State) (l : List (Nat × Nat × Nat)) : Bool := l.all (fun x => x.2.2 < s.gen x.1 x.2.1)

/-- The LBA is on the lost-range list (R255). -/
def State.isLost (s : State) (n : Nat) (conv : Bool) (lba : Nat) : Bool :=
  ((s.led n).lost ++ (s.act n).lostHeld).any (fun e => e.conv == conv && e.first ≤ lba && lba < e.first + e.count)

/-- The order of R251 and R253: by NS_CONV, then by LBA. -/
def lostLe (a b : LostEnt) : Bool := if a.conv = b.conv then a.first ≤ b.first else !a.conv

/-- Merge adjacent ranges with one cause and namespace in a sorted list (R253). -/
def lostMerge (l : List LostEnt) : List LostEnt :=
  l.foldr (fun e acc => match acc with
    | x :: rest => if e.conv = x.conv ∧ e.cause = x.cause ∧ e.first + e.count = x.first then { e with count := e.count + x.count } :: rest
                   else e :: acc
    | [] => [e]) []

/-- The parts of a range that no entry of the namespace covers yet. -/
def lostRest (l : List LostEnt) (first count : Nat) : List (Nat × Nat) :=
  l.foldl (fun ps e => ps.flatMap (fun p =>
    let a := p.1
    let b := p.1 + p.2
    let x := e.first
    let y := e.first + e.count
    if y ≤ a ∨ b ≤ x then [p]
    else (if a < x then [(a, x - a)] else []) ++ (if y < b then [(y, b - y)] else []))) [(first, count)]

/-- Add a range; LBAs already listed are not added again (R254, R378). -/
def State.lostAdd (s : State) (n : Nat) (conv : Bool) (first count cause : Nat) : State :=
  let parts := (lostRest ((s.led n).lost.filter (fun e => e.conv == conv)) first count).filter (fun p => p.2 != 0)
  if parts = [] then s
  else
    let es := parts.map (fun p => (⟨conv, p.1, p.2, cause, (s.rd Reg.status_PWR_CYCLE 0).toNat, s.alm.hours⟩ : LostEnt))
    (s.updLed n (fun l => { l with lost := lostMerge (sortBy lostLe (l.lost ++ es)), lostEvent := true })).stage n 2

/-- A list without some LBAs; a range can split (R255). -/
def lostWithout (l : List LostEnt) (conv : Bool) (first count : Nat) : List LostEnt :=
  l.flatMap (fun e =>
    if e.conv = conv then (lostRest [⟨conv, first, count, 0, 0, 0⟩] e.first e.count).map (fun p => { e with first := p.1, count := p.2 })
    else [e])

/-- Take LBAs off the list (R255). -/
def State.lostRemove (s : State) (n : Nat) (conv : Bool) (first count : Nat) : State :=
  let s := if (s.act n).lostHeld = [] then s else s.updAct n (fun a => { a with lostHeld := lostWithout a.lostHeld conv first count })
  if (s.led n).lost.any (fun e => e.conv == conv && e.first < first + count && first < e.first + e.count) then
    (s.updLed n (fun l => { l with lost := lostWithout l.lost conv first count })).stage n 2
  else s

/-- The relocation of an LBA, if any. -/
def State.remapOf (s : State) (n : Nat) (conv : Bool) (lba : Nat) : Option RemapEnt :=
  (s.led n).remap.find? (fun e => e.conv == conv && e.lba == lba)

def remapLe (a b : RemapEnt) : Bool := if a.conv = b.conv then a.lba ≤ b.lba else !a.conv

/-- The LBA position a spare occupies (R248): in its zone, or after the band's CONV_LBAS. -/
def State.sparePos (s : State) (n : Nat) (e : RemapEnt) : Nat :=
  if e.conv then (match s.sideDesc n with | some d => d.convLbas | none => 0) + e.spare else zoneOf e.lba * 65536 + 65408 + e.spare

/-! ### Zones (R265, R368, R369, R374) -/

def State.zone (s : State) (n z : Nat) : ZoneSt := ((s.led n).zones.lookup z).getD ZoneSt.reset

def ZCond.open (c : ZCond) : Bool := c == .implicit || c == .explicit
def ZCond.active (c : ZCond) : Bool := c == .implicit || c == .explicit || c == .closed

/-- The registers of R388 follow the zones. -/
def State.zoneRefresh (s : State) (n : Nat) : State :=
  let zs := (s.led n).zones
  let cnt := match s.sideDesc n with | some d => d.zoneCnt | none => 0
  let s := s.wrN Reg.zone_OPEN_ZONES n (zs.filter (fun z => z.2.cond.open)).length
  let s := s.wrN Reg.zone_ACTIVE_ZONES n (zs.filter (fun z => z.2.cond.active)).length
  s.wrN Reg.zone_ERASE_OWED n (cnt - (zs.filter (fun z => z.2.map != 1)).length)

def State.setZone (s : State) (n z : Nat) (f : ZoneSt → ZoneSt) : State :=
  let v := f (s.zone n z)
  (s.updLed n (fun l => { l with zones := if v = ZoneSt.reset then assocDel l.zones z else assocSet l.zones z v })).zoneRefresh n

/-- A map change that is to become durable (R374). -/
def State.zoneMap (s : State) (n z m : Nat) : State := (s.setZone n z (fun x => { x with map := m })).stage n 3

/-- An erase of zone z is queued or waits (R375). -/
def State.eraseQueued (s : State) (n z : Nat) : Bool :=
  (s.act n).mq.any (fun e => e.work == .erase && zoneOf e.lba == z) || s.host.waiting.any (fun e => e.1 == n && e.2.work == .erase && zoneOf e.2.lba == z)

/-- Data sectors an erase of zone z covers: through the track after its last written one, within the zone (R375). -/
def State.eraseCount (s : State) (n z : Nat) : Nat :=
  match (s.sideDesc n).bind (fun d => (d.zonePos z).map (fun p => (d, p))) with
  | some (d, p) =>
    let last := (walk d p.2.1 ((s.zone n z).used - 1) p.2.2).1
    let stop := min (p.2.1 + p.2.2) (last + 2)
    min 65536 (dataCount d.zones p.2.1 stop)
  | none => 65536

/-- Queue the erase a zone owes at a class; a queued one is raised to it (R375). -/
def State.eraseZone (s : State) (n z prio : Nat) : State :=
  if (s.zone n z).map ≠ 1 then s
  else if s.eraseQueued n z then
    let up (e : MqEntry) : MqEntry := if e.work = .erase ∧ zoneOf e.lba = z ∧ prio < e.prio then { e with prio := prio } else e
    ((s.updAct n (fun a => { a with mq := a.mq.map up })).updHost (fun h => { h with
      waiting := h.waiting.map (fun e => if e.1 = n then (n, up e.2) else e) })).mqRefresh n
  else s.mqWait n { bgEntry 2 false (z * 65536) (s.eraseCount n z) 0 .erase with prio := prio }

/-- Queue the next owed erase as PRIO 4 work where none is queued. -/
def State.eraseNext (s : State) (n : Nat) : State :=
  if (s.act n).mq.any (fun e => e.work == .erase) || s.host.waiting.any (fun e => e.1 == n && e.2.work == .erase) then s
  else
    match s.sideDesc n with
    | some d =>
      match (List.range d.zoneCnt).find? (fun z => (s.zone n z).map == 1) with
      | some z => s.eraseZone n z 4
      | none => s
    | none => s

/-- LBA position of data sector 0 in a segment's parity entries: past every LBA, so that they overlap no command's. The segment is numbered by
head, track and place (R208). DEDUCED: log 131. -/
def segKey (k t seg : Nat) : Nat := k * 2 ^ 40 + t * 2 ^ 12 + seg
def parityBase (key : Nat) : Nat := 2 ^ 60 + 64 * key

/-- The open segment of a zone whose accumulators are lost: head, track, segment and its data sectors already written (R268). -/
def State.accNeed (s : State) (n z : Nat) : Option (Nat × Nat × Nat × Nat) :=
  let m := (s.zone n z).mwp
  if m = 0 ∨ 65536 ≤ m ∨ ((s.act n).accs.lookup z).isSome then none
  else
    match s.sideDesc n with
    | none => none
    | some d =>
      match d.zonePos z with
      | none => none
      | some p =>
        let q := walk d p.2.1 m p.2.2
        if q.2 % 50 = 0 then none else some (p.1, q.1, q.2 / 50, q.2 % 50)

/-- Accumulators lost are rebuilt before the zone's next write, by reading at that write's class (R268). DEDUCED: log 174. -/
def State.accRebuild (s : State) (n z prio : Nat) : State :=
  match s.accNeed n z with
  | none => s
  | some (k, t, seg, count) =>
    let key := parityBase (segKey k t seg)
    let up (e : MqEntry) : MqEntry := if e.work = .parity ∧ e.nsConv = false ∧ e.lba = key ∧ prio < e.prio then { e with prio := prio } else e
    let due (e : MqEntry) : Bool := e.work == .parity && !e.nsConv && e.lba == key
    if (s.act n).mq.any due ∨ s.host.waiting.any (fun e => e.1 == n && due e.2) then
      ((s.updAct n (fun a => { a with mq := a.mq.map up })).updHost (fun h => { h with
        waiting := h.waiting.map (fun e => if e.1 = n then (n, up e.2) else e) })).mqRefresh n
    else s.mqWait n { bgEntry 1 false key count s.host.stamp .parity with prio := prio }

/-- Relocations of a zone that wait for it to become Full are queued now (R248). -/
def State.queueSpares (s : State) (n z : Nat) : State :=
  ((s.led n).remap.filter (fun e => !e.conv && zoneOf e.lba == z && !e.written)).foldl (fun s e =>
    let pos := s.sparePos n e
    if (s.act n).mq.any (fun x => x.work == .spare && !x.nsConv && x.lba == pos) || s.host.waiting.any (fun x =>
        x.1 == n && x.2.work == .spare && !x.2.nsConv && x.2.lba == pos) then s
    else (s.mqWait n (bgEntry 2 false pos 1 s.host.stamp .spare)).accRebuild n z 4) s

/-- Zone z becomes Full at a host write pointer (R248, R268, R368). -/
def State.zoneFull (s : State) (n z : Nat) : State :=
  let s := s.setZone n z (fun x => { x with cond := .full })
  s.queueSpares n z

/-- Unwritten grains of zone z are buffered, or places wait for them. -/
def State.zoneBusy (s : State) (n z : Nat) : Bool :=
  s.buf.any (fun g => g.tag.act == n && !g.tag.nsConv && zoneOf g.tag.lba == z && !g.written)
    || s.host.places.any (fun p => p.act == n && !p.conv && zoneOf p.lba == z)

/-- Older overlapping work stands before a zone reset (R193). -/
def State.zoneOlder (s : State) (n z stamp : Nat) : Bool :=
  let hit (e : MqEntry) : Bool := e.stamp < stamp && !e.nsConv && e.work == .host && e.opc != 3 && e.opc != 4 && e.lba < (z + 1) * 65536 && z * 65536 < e.lba + e.count
  (s.act n).mq.any hit || s.host.waiting.any (fun e => e.1 == n && hit e.2)
    || s.pool.records.any (fun r => !r.n.noCmd && r.n.act == n && !r.n.conv && zoneOf r.n.lba == z && r.stamp < stamp)
    || s.buf.any (fun g => g.tag.act == n && !g.tag.nsConv && zoneOf g.tag.lba == z && !g.written && g.tag.stamp < stamp)
    || s.host.places.any (fun p => p.act == n && !p.conv && zoneOf p.lba == z && p.stamp < stamp)

/-- Consecutive runs of a rising list of LBAs. -/
def runs (l : List Nat) : List (Nat × Nat) :=
  (l.foldl (fun acc x => match acc with
    | (a, c) :: rest => if a + c = x then (a, c + 1) :: rest else (x, 1) :: acc
    | [] => [(x, 1)]) []).reverse

/-- Before a zone's next host write, the gap between MWP and its host write pointer is filled with zero payloads (R448): the positions that no
buffered grain and no fill already covers. -/
def State.gapFill (s : State) (n z prio : Nat) : State :=
  let x := s.zone n z
  let due (e : MqEntry) : Bool := e.work == .gap && zoneOf e.lba == z
  let lbas := ((List.range (x.hwp - x.mwp)).map (fun i => z * 65536 + x.mwp + i)).filter (fun l =>
    s.buf.all (fun g => !(g.tag.act == n && !g.tag.nsConv && g.tag.lba == l && !g.written)))
  if lbas = [] ∨ (s.act n).mq.any due ∨ s.host.waiting.any (fun e => e.1 == n && due e.2) then s
  else (runs lbas).foldl (fun s r => s.mqWait n { bgEntry 2 false r.1 r.2 s.host.stamp .gap with prio := prio }) s

/-- What a zone reset changes (R252, R255, R257, R265, R370, R374). DEDUCED: log 54. -/
def State.zoneErase (s : State) (n z : Nat) : State :=
  let had := (s.led n).remap.any (fun e => !e.conv && zoneOf e.lba == z)
  let s := s.updLed n (fun l => { l with remap := l.remap.filter (fun e => e.conv || zoneOf e.lba != z) })
  let s := if had then s.stage n 1 else s
  let s := s.lostRemove n false (z * 65536) 65536
  let s := s.setZone n z (fun x => { x with cond := .empty, hwp := 0, mwp := 0, map := 1, used := max x.mwp x.hwp })
  let s := s.updAct n (fun a => { a with accs := assocDel a.accs z })
  let drop (e : MqEntry) : Bool := (e.work == .spare || e.work == .check || e.work == .test || e.work == .gap) && !e.nsConv && zoneOf e.lba == z
  let s := (s.updHost (fun h => { h with waiting := h.waiting.filter (fun e => !(e.1 == n && drop e.2)) })).mqDrop n drop
  let s := s.updPool (fun p => { p with records := p.records.filter (fun r =>
    !(r.n.act == n && !r.n.conv && r.n.noCmd && zoneOf r.n.lba == z)) })
  (s.stage n 3).eraseNext n

/-! ### What lets a command complete -/

/-- A zone's first write has its map entry, and a side's write its generation with CLEAN = 0 (R374, R376). -/
def State.writeGate (s : State) (c : Cmd) : Bool :=
  s.rdN Reg.zone_CLEAN c.act == 0 && (nsIsConv c.sqe.nsid.toNat || 2 ≤ (s.zone c.act (zoneOf c.lba)).durable)

/-- The NSIDs a Flush names. -/
def flushes (nsid : Nat) (n : Nat) (conv : Bool) : Bool :=
  nsid == 0xFFFFFFFF || nsid == (if conv then convNs n else zonedNs n)

/-- The command's own conditions hold, so that it completes with this status. -/
def State.cmdReady (s : State) (c : Cmd) : Option Nat :=
  if c.begun = false ∨ c.aborted then none
  else
    match c.hold with
    | .none =>
      if c.writes then
        if c.left = [] ∧ s.writeGate c ∧ (c.fua = false ∨
            s.buf.all (fun g => !(g.tag.slot == c.slot && g.tag.stamp == c.stamp) || g.written)) then some 0 else none
      else if c.reads then (if c.left = [] then some 0 else none)
      else none
    | .gens l => if s.gensPast l then some 0 else none
    | .flush l gs =>
      if s.gensPast l ∧ s.buf.all (fun g => g.written || !(gs.contains (g.tag.act, g.tag.nsConv, g.tag.lba, g.tag.stamp))) then some 0 else none
    | .finish zs =>
      if zs.all (fun z => (s.zone c.act z).durable == 3 && !(s.zoneBusy c.act z)
          && (s.led c.act).remap.all (fun e => e.conv || zoneOf e.lba != z || e.written)
          && (s.act c.act).mq.all (fun e => !(e.work == .parity && !e.nsConv && zoneOf e.lba == z))
          && s.host.waiting.all (fun e => !(e.1 == c.act && e.2.work == .parity && !e.2.nsConv && zoneOf e.2.lba == z)))
      then some 0 else none
    | .opening zs => if zs.all (fun z => (s.zone c.act z).durable == 2) then some 0 else none
    | .format acts => if acts.all (fun n =>
          (match (s.led n).progress with | some p => p.action != 3 || p.status != 1 | none => true)
            && (s.led n).staged.all (fun b => !b)) then some 0 else none
    | _ => none

/-- The parity of a segment that the zone's data ends in (R268): written once, over the sectors written so far. -/
def State.zoneParity (s : State) (n z : Nat) : State :=
  let due (e : MqEntry) : Bool := e.work == .parity && !e.nsConv && zoneOf e.lba == z
  -- the spares written with the zone's end belong to it
  if ((s.act n).accs.lookup z).isNone ∨ (s.led n).remap.any (fun e => !e.conv && zoneOf e.lba == z && !e.written) ∨ (s.act n).mq.any due
      ∨ s.host.waiting.any (fun e => e.1 == n && due e.2) then s
  else s.mqWait n (bgEntry 2 false (z * 65536 + min (s.zone n z).mwp 65534) 2 s.host.stamp .parity)

/-- While PAR_REFRESH_EN is 1, the oldest stale segment has a PRIO 4 entry that reads its data sectors (R268). -/
def State.parityRefresh (s : State) (n : Nat) : State :=
  let s := s.wrN Reg.wa_PAR_STALE n (s.act n).stale.length
  let due (e : MqEntry) : Bool := e.work == .parity && e.nsConv
  match (s.act n).stale, s.sideDesc n with
  | key :: _, some d =>
    if s.rdB Reg.wa_PAR_REFRESH_EN n = false ∨ (s.act n).mq.any due ∨ s.host.waiting.any (fun e => e.1 == n && due e.2) then s
    else
      let seg := key % 2 ^ 12
      s.mqWait n (bgEntry 1 true (parityBase key) (segParity (d.spt (key / 2 ^ 12 % 2 ^ 28)) seg - 50 * seg) s.host.stamp .parity)
  | _, _ => s

/-- A write to a conventional segment makes its parity stale; what was read for its refresh is out of date (R268). -/
def State.parityStale (s : State) (n key : Nat) : State :=
  let of (e : MqEntry) : Bool := e.work == .parity && e.nsConv && (e.lba - 2 ^ 60) / 64 == key
  let s := s.updAct n (fun a => { a with
    stale := if a.stale.contains key then a.stale else (a.stale ++ [key]).drop (a.stale.length + 1 - 65536),
    gather := a.gather.filter (fun g => segKey g.head g.track (g.sector / 50) != key) })
  let s := (s.updHost (fun h => { h with waiting := h.waiting.filter (fun e => !(e.1 == n && of e.2)) })).mqDrop n of
  s.parityRefresh n

/-- P and Q of what has been read of a segment. -/
def State.gathered (s : State) (n k t seg : Nat) : List Byte × List Byte :=
  ((s.act n).gather.filter (fun g => g.head == k && g.track == t && g.sector / 50 == seg)).foldl (fun a g => parityAdd a (g.sector % 50) g.payload) parityZero

/-- Zone resets whose older work is done take effect; a Finish whose grains are on the media has its map state set (R370). DEDUCED: log 55. -/
def State.settleZones (s : State) : State :=
  s.host.cmds.foldl (fun s c =>
    match c.hold with
    | .reset zs =>
      if zs.any (fun z => s.zoneOlder c.act z c.stamp) then s
      else
        let s := zs.foldl (fun s z => s.zoneErase c.act z) s
        let s := s.mqDrop c.act (fun e => e.opc == 3 && e.slot == c.slot && e.stamp == c.stamp)
        let s := s.updHost (fun h => { h with waiting := h.waiting.filter (fun e => !(e.1 == c.act && e.2.opc == 3 && e.2.slot == c.slot && e.2.stamp == c.stamp)) })
        s.updCmd c.slot (fun c => { c with hold := .gens (s.gensDue c.act [1, 3]) })
    | .finish zs => zs.foldl (fun s z =>
        -- a zone that owes its erase is erased first
        if (s.zone c.act z).map ≠ 3 ∧ (s.zone c.act z).map ≠ 1 ∧ s.zoneBusy c.act z = false then
          if (s.accNeed c.act z).isSome then s.accRebuild c.act z c.prio else (s.zoneMap c.act z 3).zoneParity c.act z
        else s) s
    | _ => s) s

/-- FUA writes and ready commands complete (R282, R283, R348, R370). -/
def State.settle (s : State) : State :=
  let s := s.failHeld.settleZones
  s.host.cmds.foldl (fun s c =>
    match s.cmd c.slot with
    | some c =>
      match s.cmdReady c with
      | some v =>
        if c.fua ∧ c.writes ∧ s.gensDue c.act [1, 2] ≠ [] then s.updCmd c.slot (fun x => { x with hold := .gens (s.gensDue c.act [1, 2]) })
        else s.complete c.slot v c.dw0 c.dw1
      | none => s
    | none => s) s

/-- Every data sector of a parity entry has been read. A conventional segment with all of them has its parity written; one that lacks a sector
leaves the list, with stale parity on the media. A zone's accumulators take what was read (R268). DEDUCED: log 174. -/
def State.parityRead (s : State) (n : Nat) (x : MqEntry) (k t seg : Nat) : State :=
  let mine (g : Gathered) : Bool := g.head == k && g.track == t && g.sector / 50 == seg
  if x.nsConv then
    if x.count ≤ ((s.act n).gather.filter mine).length then s.mqWait n (bgEntry 2 true (x.lba + 48) 2 s.host.stamp .parity)
    else (s.updAct n (fun a => { a with gather := a.gather.filter (fun g => !(mine g)), stale := a.stale.filter (fun y => y != segKey k t seg) })).parityRefresh n
  else
    let z := match (s.sideDesc n).bind (fun d => d.posLba k t (50 * seg)) with | some p => zoneOf p.2 | none => 2 ^ 32
    let acc := s.gathered n k t seg
    let s' := s.updAct n (fun a => { a with gather := a.gather.filter (fun g => !(mine g)) })
    if s.accNeed n z = some (k, t, seg, x.count) then (s'.updAct n (fun a => { a with accs := assocSet a.accs z acc })).settle else s'

/-! ### Tag checks (R14) -/

/-- A block takes in a grain of a class and instance whose tag it checks first: one whose TAG_CRC fails is discarded with the block's
tag-integrity fault, and `bad` follows. The tag generators write sound tags, so only an armed injection makes one fail here (R444). -/
def State.tagIn (s : State) (cls inst : Nat) (good : State → State) (bad : State → State := id) : State :=
  match s.injTake (256 * cls) inst with
  | some s => bad (s.raise (256 * cls) inst 0 true)
  | none => good s

/-- A sample grain from the link goes where its tag says (R15). -/
def State.sampleIn (s : State) (t : Tag) (good : State → State) (bad : State → State := id) : State :=
  let d := sampleDest s.str.laneOf t
  s.tagIn d.1 d.2 good bad

/-- A buffered grain fails its check in a block (R14, R266): its command completes with Internal Error, or its LBA becomes a lost range; a
zone's sector is still written, with a zero payload. One that is on the media already is only dropped. -/
def State.badGrain (s : State) (ftype inst : Nat) (g : BufGrain) (inj : Bool := false) : State :=
  let s := s.raise ftype inst 0 (inj || s.injAny 0x0400 0 (· == areaWord 0 g.place))
  let gone : State := { s with buf := s.buf.filter (fun y => y != g) }
  if g.written then gone.bufRefresh
  else
    let n := g.tag.act
    let s := if g.acked then s.lostAdd n g.tag.nsConv g.tag.lba 1 4 else s.complete g.tag.slot stInternal
    if g.tag.nsConv then
      let done (e : MqEntry) : MqEntry :=
        if e.opc = 2 ∧ e.nsConv ∧ e.work = .host ∧ e.stamp = g.tag.stamp then { e with done := (e.done ++ [g.tag.lba]).eraseDups } else e
      let s : State := { s with buf := s.buf.filter (fun y => y.place != g.place) }
      let s := s.updHost (fun h => { h with waiting := (h.waiting.map (fun w => if w.1 = n then (w.1, done w.2) else w)).filter (fun w => w.2.left != 0) })
      ((s.updAct n (fun a => { a with mq := (a.mq.map done).filter (fun e => e.left != 0) })).mqRefresh n).bufRefresh
    else s.putGrain idQce 0 g.place g.tag (List.replicate 4096 0)

/-! ### Grains to the host (R16), notices (R227), the write table (R274) -/

/-- A committed grain reaches the PCIe controller. -/
def State.deliver (s : State) (g : Grain) : State :=
  if g.tag.kind ≠ 0 ∨ g.tag.sec then s.bump Reg.pcie_DISC_DOM_CNT 0
  else if g.tag.noCmd then s
  else
    match s.cmd g.tag.slot with
    | some c =>
      if c.stamp ≠ g.tag.stamp ∨ c.aborted ∨ !c.reads ∨ !(c.left.contains g.tag.lba) then s
      else s.tagIn 0x04 1 (bad := fun s => (s.complete c.slot stInternal).settle) fun s =>
        let s := if c.sqe.opc = 0x02 then s.emit (.grain c.slot g.tag.idx g.tag.lba g.payload) else s
        (s.updCmd c.slot (fun c => { c with left := c.left.filter (fun l => l != g.tag.lba) })).settle
    | none => s

/-- NOTICE_PEND, and the capture figures (R230, R235). -/
def State.noticeRefresh (s : State) : State := s.wrN Reg.thresh_NOTICE_PEND 0 s.pool.waiting.length

def State.capFree (s : State) (n : Nat) (c : Option Nat) : State :=
  match c with
  | some i => s.capsFree n [i]
  | none => s

/-- The notices of a committed epoch go to the pool, and CAP_LOW takes the records they hold (R199, R200, R227). -/
def State.releaseNotices (s : State) (n : Nat) (ep : BitVec 16) : State :=
  let mine (x : Notice) : Bool := x.act == n && x.epoch == ep
  let s := (s.updPool (fun p => { p with early := p.early.filter (fun x => !(mine x)), waiting := p.waiting ++ p.early.filter mine })).noticeRefresh
  s.wrN Reg.thresh_CAP_LOW 0 (min (s.rdN Reg.thresh_CAP_LOW 0) (s.rdN Reg.thresh_CAP_FREE 0))

/-- The zone slot of a data zone in a WZ_FIRST or TZ_FIRST list: entry t covers from its first zone to the next's (R217, R274). -/
def zoneSlot (firsts : List Nat) (z : Nat) : Option Nat :=
  (List.range 16).find? (fun t =>
    let f := firsts.getD t 0xFFFF
    let nx := firsts.getD (t + 1) 0xFFFF
    f != 0xFFFF && f ≤ z && (t == 15 || nx == 0xFFFF || z < nx))

/-- Byte `i` of a table held as words. -/
def tabByte (l : List (Nat × Nat)) (i : Nat) : Nat := ((l.lookup (i / 4)).getD 0) / 256 ^ (i % 4) % 256
def tabHalf (l : List (Nat × Nat)) (i : Nat) : Nat := tabByte l i + 256 * tabByte l (i + 1)

/-- The entry in use for a head and track in the band in use: WC, PHASE, WIDTH, PREROLL, LEVEL, PD_TARGET; none where it is not
valid (R274). -/
def State.wtEntry (s : State) (n head track : Nat) : Option (List Nat) :=
  match (s.sideDesc n).bind (fun d => zoneIdx d track) with
  | none => none
  | some z =>
    let t := (s.act n).table
    match zoneSlot ((List.range 16).map (fun w => tabHalf t (0x2800 + (head - 1) * 32 + 2 * w))) z with
    | none => none
    | some w =>
      let o := (((head - 1) * 16 + w) * 4 + s.rdN Reg.wa_BAND n) * 16
      let e := [tabByte t o, tabByte t (o + 1) % 64, tabByte t (o + 2), tabByte t (o + 3), tabHalf t (o + 4), tabHalf t (o + 6)]
      let micro := (match s.desc (hdaOf n) with | some d => d.assistType == 2 | none => false)
      if tabHalf t (o + 14) % 2 = 1 ∧ (micro = true ∨ (1 ≤ e.getD 2 0 ∧ e.getD 2 0 ≤ 64)) ∧ e.getD 3 0 ≤ 64
          ∧ e.getD 4 0 ≤ s.maxLevel (hdaOf n)
      then some e else none

end Sys2Proof.Machine
end

