-- ==== Sys2Proof/Machine/Link.lean ====
section
/-!
DEFINITION. Machine/Link.lean: the Awn link of 05_awn_link.md: training, the descriptor, link loss, control words from the
head-end, the port's flash commands, deskew and the lane-count change.
-/

namespace Sys2Proof.Machine

/-! ### Receiving (R120, R131) -/

/-- A frame of (SID, SIDE) arrives: a SEQ gap is counted, and the expected SEQ follows the frame (R120). -/
def State.rxSeq (s : State) (h sid side : Nat) (seq : BitVec 10) : State :=
  let k := 2 * sid + side
  let exp := (s.port h).rxSeq.getD k 0
  let s := if seq.toNat = exp then s else s.bump Reg.port_SEQ_GAP h
  s.updPort h (fun p => { p with rxSeq := listSet p.rxSeq k ((seq.toNat + 1) % 1024) })

/-- A frame with a reserved SID or the wrong direction is discarded and counted (R121). -/
def State.rxBad (s : State) (h : Nat) : State := s.bump Reg.port_SEQ_GAP h

/-- The CRC of a CTL frame holds over its bytes 0 to 29 (R131). -/
def crcHolds (hdr : UpHdr) (side op : Nat) (operands : List Nat) : Bool :=
  ctlCrc side hdr.seq.toNat op hdr.tag.toNat operands == hdr.crc

/-- A CTL frame, its OP and operand bytes: one with a bad CRC is discarded and counted; else `act` applies (R131). -/
def State.rxCtl (s : State) (h side op : Nat) (hdr : UpHdr) (operands : List Nat) (act : State → State) : State :=
  if crcHolds hdr side op operands then act (s.rxSeq h 6 side hdr.seq)
  else (s.bump Reg.port_CTL_CRC_ERR h).trace 7 .ctlError h []

/-! ### Training (R102, R137, R138, R505) -/

/-- The shelf holds a token in the sense of R102: its standing token (R472). -/
def State.shelfToken (s : State) : Bool := s.rdB Reg.orr_STANDING_HELD 0

/-- The port trains: states 1 to 6, and not left unbound in DESC. -/
def State.training (s : State) (h : Nat) : Bool :=
  let st := s.rdN Reg.port_STATE h
  1 ≤ st && st ≤ 6 && s.bound h

/-- Lanes the image gives the port. -/
def State.imageLanes (s : State) (h : Nat) : Nat := match s.str.port h with | some p => p.lanes | none => 0

/-- An attempt starts in SIGNAL (R137), with no lane locked; with no token it waits in FAILED. -/
def State.attempt (s : State) (h : Nat) : State :=
  let s := (s.lanesIdle h).flashEnd h
  if s.shelfToken then
    let s := s.wr Reg.port_STATE h 1
    let s := s.bump Reg.port_TRIES h
    let s := s.updPort h (fun p => { p with
      waitRetry := false, laneChange := .none, laneBad := false, moved := false, alnSeq := 0, alnPhase := 0, ctlSent := false,
      rxSeq := List.replicate 32 0, txSeq := List.replicate 32 0, ctlWait := [],
      smpCtl := [0, 0], streams := [], drift := [(0, 0), (0, 0), (0, 0), (0, 0)] })
    s.trace 7 .training h [1]
  else s.wr Reg.port_STATE h 9

/-- An attempt fails: at once again, up to 3 attempts; the third failure raises the fault, and later ones wait 10 s. -/
def State.attemptFail (s : State) (h : Nat) : State :=
  let n := (s.port h).attempts + 1
  let s := s.updPort h (fun p => { p with attempts := n })
  let s := (s.wr Reg.port_STATE h 9).lanesIdle h
  let s := s.trace 7 .training h [9]
  if n < 3 then s.attempt h
  else
    let s := s.updPort h (fun p => { p with waitRetry := true })
    if n = 3 then s.raise 0x0502 h else s

def execTrainingAttempt (h : Hda) (s : State) : Res :=
  let st := s.rdN Reg.port_STATE h
  .next (if s.declared h ∧ s.bound h ∧ (s.port h).held = false ∧ (s.port h).waitRetry = false ∧ (st = 0 ∨ st = 9) ∧ s.shelfToken
    then s.attempt h else s)

/-- What a logical lane's equaliser training leaves in EQ_STAT. The far-end taps are analogue: a free value. DESIGN CHOICE: log 8. -/
def State.eqLane (s : State) (h i : Nat) : State := (s.wrAt Reg.port_EQ_STAT h i (Config.analogue s.fresh)).tick

/-- A logical lane's deskew against lane 0, 0 to 16 slots (R137, R139). DESIGN CHOICE: log 8. -/
def State.deskewLane (s : State) (h i : Nat) : State :=
  let d := if i = 0 then 0 else (Config.analogue s.fresh).toNat % 17
  ((s.wrAt Reg.port_DESKEW h i (BitVec.ofNat 32 d)).wrAt Reg.port_DRIFT_CNT h i 0).tick

/-- TRAIN frames on lanes `from_` to `to_` − 1 (R119, R137, R140): TSTATE, the starting preset, and whether Bolrus asks for precoding. The
coefficient requests that follow are the receivers' own. DESIGN CHOICE: log 157. -/
def State.trainOut (s : State) (h from_ to_ tstate : Nat) : State :=
  (List.range (to_ - from_)).foldl (fun s i =>
    s.emit (.link h (from_ + i) (trainFrame (from_ + i) tstate 0 0 (s.rdN Reg.port_EQ_PRESET h) (s.rdB Reg.port_PRECODE_ALLOW h)))) s

/-- The leaving condition of states 1 to 4 holds (R137); HELLO and DESC leave by their own words. Precoding is on where the far end's
TRAIN frames ask for it too (R115). -/
def execTrainingStateDone (h : Hda) (farPrecode : Bool) (s : State) : Res :=
  .next (
    if s.training h then
      let L := s.rdN Reg.port_LANES h
      match s.rdN Reg.port_STATE h with
      | 1 =>
        let n := s.imageLanes h
        (((s.wrN Reg.port_LANES h n).wrN Reg.port_LANE_LOCK h (2 ^ n - 1)).wr Reg.port_STATE h 2).trace 7 .training h [2]
      | 2 => ((s.wr Reg.port_STATE h 3).trainOut h 0 L 1).trace 7 .training h [3]
      | 3 =>
        let s := (List.range L).foldl (fun s i => s.eqLane h i) (s.trainOut h 0 L 2)
        let s := s.updPort h (fun p => { p with precode := s.rdB Reg.port_PRECODE_ALLOW h && farPrecode })
        (s.wr Reg.port_STATE h 4).trace 7 .training h [4]
      | 4 =>
        let s := (List.range L).foldl (fun s i => s.deskewLane h i) s
        let s := s.wr Reg.port_STATE h 5
        (s.ctl h 0x01 0 [1, L]).trace 7 .training h [5]
      | _ => s
    else s)

def execTrainingStateTimeout (h : Hda) (s : State) : Res := .next (if s.training h then s.attemptFail h else s)

/-- 10 s after a failure that followed the third (R138). -/
def execTrainingRetry (h : Hda) (s : State) : Res :=
  .next (if (s.port h).waitRetry ∧ s.bound h ∧ (s.port h).held = false ∧ s.rdN Reg.port_STATE h = 9 ∧ s.shelfToken
    then s.attempt h else s)

/-- HELLO_ACK (R132, R134): PROTO_VER 1 and the least credits take the port to DESC, whose first read is the header. -/
def execHelloAck (h : Hda) (hdr : UpHdr) (m : HelloAck) (s : State) : Res :=
  .next (s.rxCtl h 0 0x81 hdr ([m.protoVer.toNat, m.heRev.toNat, m.maxLanes.toNat, m.sides.toNat] ++ hBytes m.credWrt.toNat
      ++ hBytes m.credAst.toNat ++ hBytes m.credCtl.toNat) (fun s =>
    if s.training h ∧ s.rdN Reg.port_STATE h = 5 ∧ m.protoVer = 1 ∧ 2048 ≤ m.credWrt.toNat ∧ 256 ≤ m.credAst.toNat
        ∧ 64 ≤ m.credCtl.toNat then
      let s := s.wrN Reg.port_HE_REV h m.heRev.toNat
      let s := s.wrN Reg.port_MAX_LANES h m.maxLanes.toNat
      -- a grant per side that SIDES marks present
      let on (x v : Nat) : Nat := if m.sides.toNat.testBit x then v else 0
      let s := (s.wrN Reg.port_CRED_WRT_A h (on 0 m.credWrt.toNat)).wrN Reg.port_CRED_WRT_B h (on 1 m.credWrt.toNat)
      let s := (s.wrN Reg.port_CRED_AST_A h (on 0 m.credAst.toNat)).wrN Reg.port_CRED_AST_B h (on 1 m.credAst.toNat)
      let s := s.updPort h (fun p => { p with sides := m.sides.toNat })
      let s := s.wrN Reg.port_CRED_CTL h m.credCtl.toNat
      let s := s.wr Reg.port_STATE h 6
      (s.ctl h 0x0B 0 ([0, 0] ++ wBytes 0 ++ wBytes 64)).trace 7 .training h [6]
    else s))

/-! ### The descriptor (R53, R54, R145, R146, R160, R207, R367) -/

/-- The contradiction of lowest number between a port's record and its descriptor, 0 for none. `geometryBad` is the
further ground of cause 10 that R207 and R367 give. -/
def portCause (c : Structure) (p : PortRec) (d : Desc) (h : Nat) (serialBound : Option (List Byte)) (geometryBad : Bool) : Nat :=
  if d.maxLanes < p.lanes then 1
  else if p.assist ≠ 0 ∧ p.assist ≠ d.assist then 2
  else if d.actCnt ≠ 2 ∨ d.surfCnt ≠ 22 ∨ d.heads ≠ 11 then 3
  else if [0, 1].any (fun x => p.sideEn / 2 ^ x % 2 == 1 && d.sides / 2 ^ x % 2 == 0) then 4
  else if latticeConflict c d h p.sideEn then 5
  else if speedOffered d p.speed = false then 6
  else if (match serialBound with | some x => x != d.serial | none => false) then 9
  else if [d.sideA, d.sideB].any (fun x => match x with | some y => !(transitOk y) | none => false) ∨ geometryBad then 10
  else 0

/-- A port left unbound: its links go idle, and STATE keeps the 6 of the check (R54, R137). DEDUCED: log 42. -/
def State.unbind (s : State) (h cause : Nat) : State :=
  let s := s.wrAt Reg.status_PORT_CAUSE 0 h (BitVec.ofNat 32 cause)
  let s := (s.wrBit Reg.status_PORT_BOUND 0 h false).lanesIdle h
  let s := { s with safeN := s.safeN &&& ~~~(hdaMask h), spinWait := s.spinWait.filter (fun x => x != h) }
  let s := s.raise 0x0501 h
  let s := s.audit 3 .unbound h [h, cause]
  (s.updAct (2 * h) (fun a => { a with ready := false })).updAct (2 * h + 1) (fun a => { a with ready := false })

/-- FLASH_READ words that reading one copy takes: its header, then the rest when the header passes (R145). -/
def State.readCopy (s : State) (h copy : Nat) (b : List Byte) : State :=
  let base : Word := BitVec.ofNat 32 (copy * 0x40000)
  let s := if copy = 0 then s else s.ctl h 0x0B 0 ([0, 0] ++ wBytes base ++ wBytes 64)
  if descHeaderOk b then s.ctl h 0x0B 0 ([0, 0] ++ wBytes base ++ wBytes (BitVec.ofNat 32 (le32 b 8))) else s

/-- The port binds and goes UP (R103, R137, R506). -/
def State.portUp (s : State) (h : Nat) (d : Desc) : State :=
  let s := s.updPort h (fun p => { p with
    desc := some d, serialBound := some d.serial, attempts := 0, smpCtl := [0, 0], waitRetry := false })
  let s := (List.range 4).foldl (fun s j => s.wrAt Reg.port_SERIAL h j (BitVec.ofNat 32 (leAt d.serial (4 * j) 4))) s
  let s := s.wr Reg.port_STATE h 7
  let s := s.wr Reg.port_TRIES h 0
  -- an enable of the HDA has trained its link (R448)
  let s := if s.rdN Reg.dis_STATE (64 + h) = 3 then s.wr Reg.dis_STATE (64 + h) 0 else s
  let s := s.wrB Reg.spindle_SPEED_SEL h ((s.str.port h).map (·.speed) == some 1)
  -- a reaction of 3 or 4 in force keeps SAFE_n low; its withdrawal raises SAFE_n and spins up (R437, R439). DEDUCED: log 137
  let free := s.reactHda h < 3
  let s := if free then s.safeHigh h else s
  -- the bus limits of channel 48 + h: 0.80 and 1.15 × BUS_NOM (R420)
  let mv (pct : Int) : Word := BitVec.ofInt 32 (Fix.ofF32 d.busNom * 1000 * pct / (100 * Fix.one))
  let s := (s.wrAt Reg.therm_HK_LO 0 (48 + h) (mv 80)).wrAt Reg.therm_HK_HI 0 (48 + h) (mv 115)
  let s := { s with spinWait := if s.spinWait.contains h ∨ free = false then s.spinWait else sortBy (fun (a b : Nat) => a ≤ b) (h :: s.spinWait) }
  s.trace 7 .training h [7]

/-! ### Link loss (R150, R151, R504) -/

/-- Take the link down with a cause: SAFE_n low, gates closed, epochs chaffed, grains kept (R151). -/
def State.lose (s : State) (h cause : Nat) : State :=
  let s := { s with safeN := s.safeN &&& ~~~(hdaMask h), spinWait := s.spinWait.filter (fun x => x != h) }
  let s := (s.wr Reg.port_STATE h 9).lanesIdle h
  let s := [2 * h, 2 * h + 1].foldl (fun s n =>
    if s.actExists n then
      let s := (s.chaffAll n).endWork n
      let s := s.gateClose n 6
      let s := (s.wr Reg.wa_WINDOW n 0).wr Reg.wa_GATE_OPEN n 0
      s.updAct n (fun a => { a with win := none, winQueue := [], wrtWait := [], synced := false, frameSetDue := false, ready := false, curWc := none })
    else s) s
  let s := s.hdaLoopsSafe h 5
  let s := s.spindleCoast h
  let s := s.wrN Reg.port_LOSS_CAUSE h cause
  let s := s.bump Reg.port_LOSS_CNT h
  let s := s.flashEnd h
  let s := s.updPort h (fun p => { p with
    laneChange := .none, smpCtl := [0, 0], stopWait := 0, ctlWait := [], attempts := 0 })
  s.raise 0x0503 h (BitVec.ofNat 32 cause)

/-- Causes 1 to 5 on a port that is UP are link loss and start a retrain; while the port trains they fail the attempt
from the state R505 names onward. Cause 6 is a register write (R504). The three codewords of cause 2 count on their lane (R116). -/
def execLinkLoss (h : Hda) (cause : Fin 6) (lane : Fin 4) (s : State) : Res :=
  let c := cause.val + 1
  let s := if c = 2 ∧ (s.up h ∨ s.training h) ∧ lane < s.rdN Reg.port_LANES h then s.bumpBy Reg.port_FEC_UNCORR h lane 3 else s
  .next (
    if s.up h ∧ c ≠ 6 then (s.lose h c).attempt h
    else if s.training h ∧ c ≠ 6 then
      let st := s.rdN Reg.port_STATE h
      let from_ := match c with | 1 => 2 | 2 => 4 | 3 => 5 | 5 => 5 | _ => 6
      if from_ ≤ st then s.attemptFail h else s
    else s)

/-- RETRAIN and DOWN act on a bound, declared port only (R504). DEDUCED: log 43. -/
def State.linkCtl (s : State) (h : Nat) : Bool := s.declared h && s.bound h

/-- DOWN (R504). -/
def State.linkDown (s : State) (h : Nat) : State :=
  if s.linkCtl h then
    let s := if s.up h then s.lose h 6 else ((s.wr Reg.port_STATE h 9).lanesIdle h).wr Reg.port_LOSS_CAUSE h 6
    s.updPort h (fun p => { p with held := true, waitRetry := false })
  else s

/-- RETRAIN, or DOWN alone where the write sets both (R504). -/
def execRetrain (h : Hda) (writer : Initiator) (alsoDown : Bool) (s : State) : Res :=
  .next (s.guard writer (Reg.port_RETRAIN.addr h 0) (fun s =>
    if alsoDown then s.linkDown h
    else if s.linkCtl h then
      let s := s.updPort h (fun p => { p with held := false, attempts := 0, waitRetry := false })
      if s.up h then (s.lose h 6).attempt h
      else s.attempt h
    else s))

def execDown (h : Hda) (writer : Initiator) (s : State) : Res :=
  .next (s.guard writer (Reg.port_DOWN.addr h 0) (fun s => s.linkDown h))

/-! ### Head-end flash (R156) -/

/-- FL_DDR, FL_OFS and FL_LEN as written. -/
def State.flDdr (s : State) (h : Nat) : Nat := s.rdN Reg.port_FL_DDR_LO h + 2 ^ 32 * s.rdN Reg.port_FL_DDR_HI h

/-- FLASH_WRITE of up to 16 bytes of the command in hand, from byte `m` on; the word's other data bytes are zero (R131, R132). -/
def State.flashWord (s : State) (h m : Nat) : State :=
  match (s.port h).flash with
  | some f =>
    let b := s.dmaRead (idAwn h) false (f.ddr + m) (min 16 (f.len - m))
    (s.dmaReadViol (idAwn h) false (f.ddr + m) (min 16 (f.len - m))).ctl h 0x0C 0
      ([0, 0] ++ wBytes (BitVec.ofNat 32 (f.ofs + m)) ++ b.map (·.toNat) ++ List.replicate (16 - b.length) 0)
  | none => s

/-- Accept a command, or answer with FL_STATUS: 4 link not up, 3 refused, 1 range (R156): more than 256 KiB, or past the last offset a
word can name. -/
def State.flash (s : State) (h cmd : Nat) : State :=
  if s.rdB Reg.port_FL_BUSY h then s
  else
    let ofs := s.rdN Reg.port_FL_OFS h
    let len := s.rdN Reg.port_FL_LEN h
    let ddr := s.flDdr h
    if s.up h = false then s.wr Reg.port_FL_STATUS h 4
    else if 2 ≤ cmd ∧ ofs < 0x80000 then s.wr Reg.port_FL_STATUS h 3
    else if cmd ≠ 3 ∧ s.inPart 3 ddr len = false ∧ s.inPart 4 ddr len = false then s.wr Reg.port_FL_STATUS h 3
    else if cmd ≠ 3 ∧ (262144 < len ∨ 2 ^ 32 < ofs + len) then s.wr Reg.port_FL_STATUS h 1
    else
      let tag := (s.port h).tag
      let s := (s.wr Reg.port_FL_BUSY h 1).wr Reg.port_FL_STATUS h 0
      let s := s.updPort h (fun p => { p with flash := some ⟨cmd, tag, ofs, len, ddr, 0⟩ })
      match cmd with
      | 1 => s.ctl h 0x0B 0 ([0, 0] ++ wBytes (BitVec.ofNat 32 ofs) ++ wBytes (BitVec.ofNat 32 len))
      | 2 => s.flashWord h 0 -- one word per 16 bytes; the rest go out as FLASH_DONE answers
      | _ => s.ctl h 0x0D 0 ([0, 0] ++ wBytes (BitVec.ofNat 32 ofs))

def execFlashRead (h : Hda) (writer : Initiator) (s : State) : Res :=
  .next (s.guard writer (Reg.port_FL_CMD.addr h 0) (fun s => s.flash h 1))
def execFlashWrite (h : Hda) (writer : Initiator) (s : State) : Res :=
  .next (s.guard writer (Reg.port_FL_CMD.addr h 0) (fun s => s.flash h 2))
def execFlashErase (h : Hda) (writer : Initiator) (s : State) : Res :=
  .next (s.guard writer (Reg.port_FL_CMD.addr h 0) (fun s => s.flash h 3))

/-- FLASH_DONE with the command's TAG (R132): a write that has bytes left goes on, else the command ends with its STATUS. -/
def execFlashDone (h : Hda) (hdr : UpHdr) (status : Byte) (s : State) : Res :=
  .next (s.rxCtl h 0 0x84 hdr [status.toNat] (fun s =>
    match (s.port h).flash with
    | some f =>
      if f.tag ≠ hdr.tag then s
      else if f.cmd = 2 ∧ status = 0 ∧ f.moved + 16 < f.len then
        let m := f.moved + 16
        let t := (s.port h).tag
        (s.updPort h (fun p => { p with flash := some { f with moved := m, tag := t } })).flashWord h m
      else
        ((s.wr Reg.port_FL_BUSY h 0).wrN Reg.port_FL_STATUS h status.toNat).updPort h (fun p => { p with flash := none })
    | none => s))

/-- HSK HTYPE 3 (R130): up to 24 bytes of the read in hand go to DDR. -/
def execHskFlashData (h : Hda) (hdr : UpHdr) (tag : Byte) (ofs : Word) (data : List Byte) (s : State) : Res :=
  let s := s.rxSeq h 5 0 hdr.seq
  .next (
    match (s.port h).flash with
    | some f =>
      if f.cmd = 1 ∧ f.tag = tag ∧ f.ofs ≤ ofs.toNat ∧ ofs.toNat < f.ofs + f.len then
        let at_ := ofs.toNat - f.ofs
        let b := (data.take 24).take (f.len - at_)
        (s.dmaWrite (idAwn h) false (f.ddr + at_) b).updPort h (fun p => { p with flash := some { f with moved := f.moved + b.length } })
      else s
    | none => s)

/-! ### Housekeeping and motor frames (R129, R130) -/

/-- HTYPE 1: value 0 is the HDA temperature, and the band of both sides follows it (R275). -/
def bandOf (t : Int) (old hyst : Nat) (edges : List Nat) : Nat :=
  let up := (edges.filter (fun e => decide ((e : Int) * 16 ≤ t))).length
  let down := (edges.filter (fun e => decide (((e : Int) - hyst) * 16 ≤ t))).length
  if old < up then up else if down < old then down else old

/-- A temperature in 1/16 °C that R419 takes as valid: −20 to 100 °C. -/
def hdaValid (t : Int) : Bool := decide (-320 ≤ t) && decide (t ≤ 1600)

def ThermRec.edges (t : ThermRec) : List Nat := [t.edge0, t.edge1, t.edge2]

/-- A temperature is recorded; the band in use of both sides follows (R275). -/
def State.hdaTemp (s : State) (h : Nat) (t : Int) : State :=
  let th := s.str.therm
  [2 * h, 2 * h + 1].foldl (fun s n =>
    s.wrN Reg.wa_BAND n (bandOf t (s.rdN Reg.wa_BAND n) th.hyst th.edges)) s

def execHskTemperatures (h : Hda) (hdr : UpHdr) (values : List (BitVec 16)) (s : State) : Res :=
  let s := s.rxSeq h 5 0 hdr.seq
  let v := values.map (·.toInt)
  .next (s.sampleIn (sampleTag (2 * h) 4 30 (s.act (2 * h)).frameNo.toNat) fun s =>
    let s := s.updPort h (fun p => { p with temps := v, quietRounds := 0 })
    match v with | t :: _ => if hdaValid t then s.hdaTemp h t else s | [] => s)

/-- HTYPE 2 is recorded in the trace class and checked for nothing. -/
def execHskRails (h : Hda) (hdr : UpHdr) (values : List (BitVec 16)) (s : State) : Res :=
  let s := s.rxSeq h 5 0 hdr.seq
  .next (s.sampleIn (sampleTag (2 * h) 4 30 (s.act (2 * h)).frameNo.toNat) fun s =>
    (s.updPort h (fun p => { p with rails := values.map (·.toInt) })).trace 7 .hskRails h (values.map (·.toNat)))

/-- HTYPE 4 is recorded in the Almanac. -/
def execHskEvent (h : Hda) (hdr : UpHdr) (code : Byte) (s : State) : Res :=
  .next ((s.rxSeq h 5 0 hdr.seq).trace 7 .hskEvent h [code.toNat])

/-! ### Answers and reports (R128, R132, R134, R153) -/

def execStopAck (h : Hda) (hdr : UpHdr) (reason : Byte) (safeLevel : Bool) (s : State) : Res :=
  .next (s.rxCtl h 0 0x82 hdr [reason.toNat, if safeLevel then 1 else 0] (fun s =>
    if reason = 0xFF then s else s.updPort h (fun p => { p with stopWait := p.stopWait - 1 })))

/-- A STOP without its STOP_ACK is counted and recorded, and changes nothing else (R153). -/
def execStopAckTimeout (h : Hda) (s : State) : Res :=
  .next (
    if (s.port h).stopWait = 0 then s
    else (s.updPort h (fun p => { p with stopWait := p.stopWait - 1, stopMiss := p.stopMiss + 1 })).trace 7 .stopMissing h [])

/-- Add returned credits (R134). -/
def State.credit (s : State) (h sid side n : Nat) : State :=
  let add (s : State) (f : RegField) : State := s.wrN f h (min (s.rdN f h + n) 0xFFFF)
  let drain (s : State) : State := s.wrtDrain (actOf h side) (s.act (actOf h side)).wrtWait.length
  match sid, side with
  | 7, 0 => drain (add s Reg.port_CRED_WRT_A)
  | 7, _ => drain (add s Reg.port_CRED_WRT_B)
  | 8, 0 => drain (add s Reg.port_CRED_AST_A)
  | 8, _ => drain (add s Reg.port_CRED_AST_B)
  | 6, _ => let s := add s Reg.port_CRED_CTL
            s.ctlDrain h (s.port h).ctlWait.length
  | _, _ => s

def execCredit (h : Hda) (hdr : UpHdr) (sid : BitVec 4) (side : Fin 2) (frames : BitVec 16) (s : State) : Res :=
  .next (s.rxCtl h side 0x83 hdr ([sid.toNat, side] ++ hBytes frames.toNat) (fun s => s.credit h sid.toNat side frames.toNat))

def execKeepalive (h : Hda) (hdr : UpHdr) (s : State) : Res := .next (s.rxCtl h 0 0x0F hdr [] id)

/-! ### Deskew (R139) and the lane-count change (R141) -/

/-- Once both directions stripe over the new lanes, L changes, and on the way down lanes 2 and 3 lose their power (R141). -/
def State.switchEnd (s : State) (h : Nat) : State :=
  match (s.port h).laneChange with
  | .switching k _ _ true true =>
    ((s.wrN Reg.port_LANES h k).wrN Reg.port_LANE_LOCK h (2 ^ k - 1)).updPort h (fun p => { p with laneChange := .none })
  | _ => s

/-- The ALN that closes the old striping of one direction has gone by (R141). -/
def State.switchAt (s : State) (h : Nat) (upward : Bool) (seq : Word) : State :=
  match (s.port h).laneChange with
  | .switching k down up d u =>
    (s.updPort h (fun p => { p with laneChange := .switching k down up (d || (!upward && down == seq)) (u || (upward && up == some seq)) })).switchEnd h
  | _ => s

/-- One ALN on a logical lane (R139): `arrival` slots after lane 0's with the deskew applied; `corrected` and `uncorrectable` are the
codewords its decoder counted since the lane's last ALN, the frames of the latter discarded (R116, R155). An offset held for 8 periods
is due for a move, and a deskew outside 0 to 16 is link loss with cause 5. DEDUCED: log 158. -/
def execAln (h : Hda) (lane : Fin 4) (arrival : Int) (alnSeq : Word) (corrected uncorrectable : Nat) (s : State) : Res :=
  .next (
    if s.up h = false ∨ s.rdN Reg.port_LANES h ≤ lane then s
    else
      let s := (s.bumpBy Reg.port_FEC_CORR h lane corrected).bumpBy Reg.port_FEC_UNCORR h lane uncorrectable
      let applied : Int := (s.rdAt Reg.port_DESKEW h lane).toNat
      let off := arrival
      if applied + off < 0 ∨ 16 < applied + off then (s.lose h 5).attempt h
      else
        let old := (s.port h).drift.getD lane (0, 0)
        let run := if off.natAbs = 1 then (if old.1 = off then old.2 + 1 else 1) else 0
        let s := s.updPort h (fun p => { p with drift := listSet p.drift lane (off, run) })
        s.switchAt h true alnSeq)

/-- Move one lane's deskew by one slot, at most once per port and round (R139). -/
def execDeskewMove (h : Hda) (lane : Fin 4) (s : State) : Res :=
  .next (
    let d := (s.port h).drift.getD lane (0, 0)
    if s.up h ∧ (s.port h).moved = false ∧ 8 ≤ d.2 then
      let v : Int := (s.rdAt Reg.port_DESKEW h lane).toNat + d.1
      let s := s.wrAt Reg.port_DESKEW h lane (toW v)
      let s := s.bumpWrap Reg.port_DRIFT_CNT h lane
      s.updPort h (fun p => { p with moved := true, drift := listSet p.drift lane (0, 0) })
    else s)

/-- The switch word: its ALN_SEQ lies 2 ALN periods ahead (R141). -/
def State.laneSwitch (s : State) (h k : Nat) : State :=
  let q := (s.port h).alnSeq + 2
  (s.ctl h 0x11 0 ([2, k] ++ wBytes q)).updPort h (fun p => { p with laneChange := .switching k q none false false })

/-- LANE_SET goes out: to 2 at once as a switch, to 4 first as a prepare (R141). Never on a port declared with 2 lanes, nor to 4 after a
failed change until the next full training. -/
def State.laneSet (s : State) (h : Nat) (four : Bool) : State :=
  if s.up h ∧ s.imageLanes h = 4 ∧ (s.port h).laneChange = .none ∧ s.rdN Reg.port_LANES h = (if four then 2 else 4) then
    if four then
      if (s.port h).laneBad then s
      else ((s.ctl h 0x11 0 ([1, 4] ++ wBytes 0)).trainOut h 2 4 1).updPort h (fun p => { p with laneChange := .preparing })
    else s.laneSwitch h 2
  else s

/-- Two lanes in PS2, four in PS0 and PS1 (R113). -/
def execLaneSet (h : Hda) (four : Bool) (s : State) : Res :=
  let ps := s.rdN Reg.status_CUR_PS 0
  .next (if (four ∧ ps < 2) ∨ (four = false ∧ ps = 2) then s.laneSet h four else s)

/-- L stays at, or returns to, 2 until the next full training; lanes 2 and 3 go down and the link-training fault is raised (R141). -/
def State.laneFail (s : State) (h : Nat) : State :=
  match (s.port h).laneChange with
  | .none => s
  | _ =>
    let s := (s.wr Reg.port_LANES h 2).wrN Reg.port_LANE_LOCK h 3
    (s.updPort h (fun p => { p with laneChange := .none, laneBad := true })).raise 0x0502 h

/-- LANE_ACK (R141): a refusal fails the change; the prepare's answer finds lanes 2 and 3 trained and deskewed, and starts the switch to
4; a switch's answer names the upstream ALN. -/
def execLaneAck (h : Hda) (hdr : UpHdr) (action status : Byte) (alnSeq : Word) (s : State) : Res :=
  .next (s.rxCtl h 0 0x87 hdr ([action.toNat, status.toNat] ++ wBytes alnSeq) (fun s =>
    if status ≠ 0 then s.laneFail h
    else
      match (s.port h).laneChange with
      | .preparing =>
        if action = 1 then
          let s := [2, 3].foldl (fun s i => (s.eqLane h i).deskewLane h i) (s.trainOut h 2 4 2)
          (s.wrN Reg.port_LANE_LOCK h 15).laneSwitch h 4
        else s
      | .switching k down none d u =>
        if action = 2 then s.updPort h (fun p => { p with laneChange := .switching k down (some alnSeq) d u }) else s
      | _ => s))

def execLaneChangeFailure (h : Hda) (s : State) : Res := .next (s.laneFail h)

/-! ### The transmitter's clock (R119, R131) -/

/-- 10 µs on one port's transmitter: an ALN on every lane of the stripe each 26.2144 µs from DESKEW on, and a KEEPALIVE where no CTL
frame has left in that time, from HELLO on. An idle slot carries IDLE, which is not shown. DESIGN CHOICE: log 159. -/
def State.portTick (s : State) (h : Nat) : State :=
  let st := s.rdN Reg.port_STATE h
  if st < 4 ∨ 7 < st ∨ s.bound h = false then s
  else
    let p := s.port h
    let L := s.rdN Reg.port_LANES h
    let s := if p.alnPhase + 100000 < 262144 then s.updPort h (fun p => { p with alnPhase := p.alnPhase + 100000 })
      else
        let s := (List.range L).foldl (fun s i => s.emit (.link h i (alnFrame i L p.alnSeq))) s
        (s.updPort h (fun p => { p with alnPhase := p.alnPhase + 100000 - 262144, alnSeq := p.alnSeq + 1 })).switchAt h false p.alnSeq
    let s := if st < 5 ∨ p.ctlSent then s else s.ctl h 0x0F 0 []
    s.updPort h (fun p => { p with ctlSent := false })

/-- With no command waiting 10 µs pass on every link. DESIGN CHOICE: logs 1 and 159. -/
def State.idle (s : State) : State := (List.range 32).foldl (fun s h => s.portTick h) s

end Sys2Proof.Machine
end

