-- ==== Sys2Proof/Machine/Heliostat.lean ====
section
/-!
DEFINITION. Machine/Heliostat.lean: the loop units of 11_heliostat_loops.md: programs, the frame around them, modes and
presets, relay tuning, the watchdog and its safe actions, and the setpoint FIFO.
-/

namespace Sys2Proof.Machine

/-! ### Programs (R289, R293 to R296) -/

/-- The operands fixed for one run: the inputs of R289 and the active coefficients. -/
structure LoopIn where
  inputs : List Word
  k : List Word
  deriving DecidableEq, Repr

/-- What a run changes. -/
structure LoopVars where
  x : List Word
  v : Word
  di : Word
  deriving DecidableEq, Repr

/-- Fields of a program word (R293). -/
def pOpc (w : Word) : Nat := w.toNat % 64
def pA (w : Word) : Nat := w.toNat / 64 % 64
def pB (w : Word) : Nat := w.toNat / 4096 % 64
def pC (w : Word) : Nat := w.toNat / 262144 % 64
def pD (w : Word) : Nat := w.toNat / 16777216 % 32
def pTop (w : Word) : Nat := w.toNat / 536870912

/-- An operand's value (R289, R293). -/
def LoopIn.get (p : LoopIn) (r : LoopVars) (c : Nat) : Word :=
  if c < 0x10 then p.inputs.getD c 0 else if c < 0x20 then r.x.getD (c - 0x10) 0 else p.k.getD (c - 0x20) 0

/-- Write a destination. -/
def LoopVars.put (r : LoopVars) (d : Nat) (w : Word) : LoopVars :=
  if d < 0x10 then { r with x := r.x.set d w } else if d = 0x10 then { r with v := w } else { r with di := w }

/-- One operation (R294); none is an arithmetic failure (R295). DESIGN CHOICE: log 48. -/
def loopOp (p : LoopIn) (r : LoopVars) (w : Word) : Option LoopVars :=
  let a := p.get r (pA w)
  let b := p.get r (pB w)
  let c := p.get r (pC w)
  let put (o : Option Word) : Option LoopVars := o.map (r.put (pD w))
  match pOpc w with
  | 0x00 => some r
  | 0x01 => put (F32.add a b)
  | 0x02 => put (F32.sub a b)
  | 0x03 => put (F32.mul a b)
  | 0x04 => put (F32.mac a b c)
  | 0x05 => put (F32.min a b)
  | 0x06 => put (F32.max a b)
  | 0x07 => put ((F32.max a b).bind (fun m => F32.min m c))
  | 0x08 => put (F32.keep (if F32.le 0 a then b else c))
  | 0x09 =>
    let k (i : Nat) : Word := p.get r (pA w + i)
    let s1 := p.get r (pC w)
    let s2 := p.get r (pC w + 1)
    (F32.add? (F32.mul (k 0) b) (some s1)).bind (fun y =>
      (F32.add? (F32.sub? (F32.mul (k 1) b) (F32.mul (k 3) y)) (some s2)).bind (fun n1 =>
        (F32.sub? (F32.mul (k 2) b) (F32.mul (k 4) y)).map (fun n2 =>
          ((r.put (pC w - 0x10) n1).put (pC w - 0x10 + 1) n2).put (pD w) y)))
  | 0x0A => put (F32.keep (F32.abs a))
  | 0x0B => (F32.sub a c).map (fun d => (r.put (pC w - 0x10) a).put (pD w) d)
  | _ => some r

/-- Run from a word list to the first END: the variables, and whether the run failed. -/
def loopProg (p : LoopIn) (r : LoopVars) (ws : List Word) : LoopVars × Bool :=
  match ws with
  | [] => (r, false)
  | w :: rest =>
    if pOpc w = 0x3F then (r, false)
    else
      match loopOp p r w with
      | some r' => loopProg p r' rest
      | none => (r, true)

/-- One word passes the checks of R296. -/
def progWordOk (w : Word) : Bool :=
  (pOpc w ≤ 0x0B || pOpc w == 0x3F) && pD w ≤ 0x11 && pTop w == 0
    && (if pOpc w = 0x09 then 0x20 ≤ pA w && pA w ≤ 0x3B && 0x10 ≤ pC w && pC w ≤ 0x1E else true)
    && (if pOpc w = 0x0B then 0x10 ≤ pC w && pC w ≤ 0x1F else true)

/-- The first failing word, none when the program passes (R296). Words after END are not checked. -/
def progCheck (ws : List Word) (i : Nat) : Option Nat :=
  match ws with
  | [] => some 31
  | w :: rest =>
    if progWordOk w = false then some i
    else if pOpc w = 0x3F then none
    else progCheck rest (i + 1)

def State.prog (s : State) (g : Nat) : List Word := (List.range 32).map (fun j => s.rdAt Reg.loop_PROG g j)

/-- The active and the inactive coefficient set (R299). -/
def State.setField (s : State) (g : Nat) (active : Bool) : RegField :=
  if s.rdB Reg.loop_SET g = active then Reg.loop_KB else Reg.loop_KA

def State.coefs (s : State) (g : Nat) : List Word := (List.range 32).map (fun j => s.rdAt (s.setField g true) g j)

/-! ### Inputs (R287, R289) -/

/-- The table entry in use by the running window: PD_TARGET (R274). -/
def State.pdTarget (s : State) (n : Nat) : Nat := match (s.act n).win with | some w => w.entry.getD 5 0 | none => 0

/-- MSCALE of an MTYPE (R144). -/
def State.mscale (s : State) (h mtype : Nat) : Word := match s.desc h with | some d => d.mscale.getD (mtype - 1) 0 | none => 0

/-- What reaches an instance at a run (R287, R289): the spindle block supplies the first three to its own. -/
structure LoopObs where
  meas : Word
  ref : Word
  aux : Word
  ts : Word
  frameNo : Word
  deriving DecidableEq, Repr

/-- An input reaches an instance (R163, R288): one that still waits is replaced and counted; its age starts again (R302). -/
def State.loopFeed (s : State) (g : Nat) (frame : Word) : State :=
  let m := s.loopMode g
  if m = 0 ∨ m = 5 then s
  else
    let s := if (s.loop g).input.isSome then (s.bump Reg.loop_OVERRUN_CNT g).bump Reg.unit_OVERRUN_TOT (g / 64) else s
    s.updLoop g (fun l => { l with input := some frame, age := 0 })

/-- MEAS, REF, AUX of an instance: its own measurement, or what the spindle block supplies. -/
def State.loopIns (s : State) (g : Nat) (o : LoopObs) : Word × Word × Word :=
  match loopKind g with
  | .vcm => (F32.ofRat (s.rdInt Reg.demod_PES (loopAct g) 0) 256, 0, s.rd Reg.loop_Y (g + 16))
  | .ma => (F32.ofRat (s.rdInt Reg.demod_PES (loopAct g) 0) 256, 0, 0)
  | .laser =>
    let n := loopAct g
    let p := (s.port (hdaOf n)).mot.pd
    (F32.ofInt (if sideOf n = 0 then p.1 else p.2), F32.ofInt (s.pdTarget n), 0)
  | .spindle => (o.meas, o.ref, o.aux)

/-- The nominal input period, for the first run (R289). -/
def State.nominalTs (s : State) (g : Nat) : Word :=
  match loopKind g with
  | .spindle => F32.ofRat (s.spinSt (loopHda g)).period 100000000
  | _ =>
    let speed := match s.str.port (loopHda g) with | some p => p.speed | none => 0
    F32.ofRat 1 (nominalRpm speed / 60 * 1800)

/-! ### The frame (R297 to R301) -/

/-- OUT_MIN and OUT_MAX; of an MA instance, whose output is its displacement in tracks, within ±MA_RANGE ÷ 256 too (R177, R178).
DESIGN CHOICE: log 165. -/
def State.loopLimits (s : State) (g : Nat) : Word × Word :=
  let lo := s.rd Reg.loop_OUT_MIN g
  let hi := s.rd Reg.loop_OUT_MAX g
  match loopKind g with
  | .ma =>
    let r := F32.ofRat (s.rdN Reg.demod_MA_RANGE (loopAct g)) 256
    (if F32.lt lo (F32.negate r) then F32.negate r else lo, if F32.lt r hi then r else hi)
  | _ => (lo, hi)

/-- A LASER output lies within 0 to MAX_LEVEL in every mode (R297). -/
def State.laserClamp (s : State) (g : Nat) (y : Word) : Word :=
  match loopKind g with
  | .laser =>
    let top := F32.ofInt (s.maxLevel (loopHda g))
    let y := if F32.lt y 0 then 0 else y
    if F32.lt top y then top else y
  | _ => y

/-- Clamp to the limits (R297). -/
def State.loopClamp (s : State) (g : Nat) (u : Word) : Word :=
  let lo := (s.loopLimits g).1
  let hi := (s.loopLimits g).2
  let m := if F32.lt u lo then lo else u
  s.laserClamp g (if F32.lt hi m then hi else m)

/-- Leave TUNE for the mode it came from, with the preset, and a TUNE_ST (R300, R301). -/
def State.tuneEnd (s : State) (g st : Nat) : State :=
  match (s.loop g).tune with
  | some t =>
    let s := s.setMode g t.prevMode
    let s := s.wrN Reg.loop_TUNE_ST g st
    (s.updLoop g (fun l => { l with tune := none, presetPend := true })).trace 5 .tune g [st]
  | none => s

/-- TUNE_CYC, 4 to 64 (R307). -/
def State.tuneCyc (s : State) (g : Nat) : Nat := let c := s.rdN Reg.loop_TUNE_CYC g; if 4 ≤ c ∧ c ≤ 64 then c else 8

/-- Kp, Ki and Kd by TUNE_RULE (R300). -/
def tuneGains (rule : Nat) (ku tu : Word) : Option Word × Option Word × Option Word :=
  match rule with
  | 1 => (F32.mul (F32.ofRat 45 100) ku, F32.div? (F32.mul (F32.ofRat 54 100) ku) (some tu), some 0)
  | 2 => (F32.mul (F32.ofRat 2 10) ku, F32.div? (F32.mul (F32.ofRat 4 10) ku) (some tu),
          F32.mul? (F32.mul (F32.ofRat 667 10000) ku) (some tu))
  | _ => (F32.mul (F32.ofRat 6 10) ku, F32.div? (F32.mul (F32.ofRat 12 10) ku) (some tu),
          F32.mul? (F32.mul (F32.ofRat 75 1000) ku) (some tu))

/-- Steps 4 to 6 of R300: results, the suggested coefficients into the inactive set, and the end; a ≤ h ends it as R301. -/
def State.tuneFinish (s : State) (g : Nat) (t : TuneSt) : State :=
  let cyc := F32.ofInt (s.tuneCyc g)
  let h := s.rd Reg.loop_RELAY_HYST g
  let d := s.rd Reg.loop_RELAY_AMP g
  let tu := F32.div t.sumTu cyc
  let a := F32.div t.sumA cyc
  let tsm := F32.div t.sumTs (F32.ofInt t.runs)
  let root := (F32.sub? (F32.mul? a a) (F32.mul h h)).bind F32.sqrt
  let ku := F32.div? (F32.mul 0x40800000 d) (F32.mul? (some 0x40490FDB) root)
  match ku, tu, a, tsm with
  | some ku, some tu, some a, some tsm =>
    if F32.le a h then s.tuneEnd g 4
    else
      let s := ((s.wr Reg.loop_TUNE_KU g ku).wr Reg.loop_TUNE_TU g tu).wr Reg.loop_TUNE_A g a
      let (kp, ki, kd) := tuneGains (s.rdN Reg.loop_TUNE_RULE g) ku tu
      let f := s.setField g false
      let b := s.rdN Reg.loop_TUNE_BASE g
      let put (s : State) (j : Nat) (w : Option Word) : State := match w with | some w => s.wrAt f g j w | none => s
      let s := put s b kp
      let s := put s (b + 1) (F32.mul? ki (some tsm))
      let s := put s (b + 2) (F32.div? kd (some tsm))
      s.tuneEnd g 2
  | _, _, _, _ => s.tuneEnd g 4

/-- One run of the relay (R300, R301): the state, the output, and what ends. -/
def State.tuneRun (s : State) (g : Nat) (t : TuneSt) (err ts : Word) : State :=
  let h := s.rd Reg.loop_RELAY_HYST g
  let up := if F32.lt h err then true else if F32.lt err (F32.negate h) then false else t.up
  let ended := up && !t.up
  let elapsed := fAdd t.elapsed ts
  let hi := if F32.lt t.hi err then err else t.hi
  let lo := if F32.lt err t.lo then err else t.lo
  let counted := 2 ≤ t.periods
  let half := fMul (fSub hi lo) 0x3F000000
  let t := { t with up := up, elapsed := elapsed, hi := hi, lo := lo,
                    sumTs := if counted then fAdd t.sumTs ts else t.sumTs,
                    runs := if counted then t.runs + 1 else t.runs }
  let t := if ended then
      { t with periods := t.periods + 1, elapsed := 0, hi := err, lo := err,
               sumTu := if counted then fAdd t.sumTu elapsed else t.sumTu,
               sumA := if counted then fAdd t.sumA half else t.sumA }
    else t
  let amp := s.rd Reg.loop_RELAY_AMP g
  let y := s.loopClamp g (fAdd t.y0 (if up then amp else F32.negate amp))
  let s := s.wr Reg.loop_Y g y
  let s := s.updLoop g (fun l => { l with tune := some t })
  if F32.lt (s.rd Reg.loop_TUNE_ERR_MAX g) (F32.abs err) then s.tuneEnd g 3
  else if ended ∧ t.periods = 2 + s.tuneCyc g then s.tuneFinish g t
  else s

/-- An expired watchdog (R302): the safe action, its counter and its fault. -/
def State.loopExpire (s : State) (g cause : Nat) : State :=
  let s := s.loopSafeAction g cause
  if cause = 3 then (s.bump Reg.loop_ARITH_CNT g).raise 0x0802 (g / 64) (BitVec.ofNat 32 g)
  else
    let s := s.bump Reg.loop_WD_CNT g
    let s := s.raise 0x0801 (g / 64) (BitVec.ofNat 32 g)
    if loopKind g = .laser then s.raise 0x0701 (loopAct g) else s

/-- WD_SAME: 0 and 1 stand for 255 (R302). -/
def State.wdSame (s : State) (g : Nat) : Nat := let w := s.rdN Reg.loop_WD_SAME g; if w < 2 then 255 else w

/-- The mode change and swap that apply at this run (R298, R299, R305): the state, whether a preset applies. DEDUCED: log 176. -/
def State.loopTransfer (s : State) (g : Nat) : State × Bool :=
  let l := s.loop g
  let m := s.loopMode g
  let swap := l.swapPend && m != 3
  let s := if swap then
      let s := s.wr Reg.loop_SET g (1 - s.rd Reg.loop_SET g)
      (s.bump Reg.loop_SWAP_CNT g).trace 5 .swap g []
    else s
  let toAuto := l.modePend == some 1 && (m == 1)
  let s := match l.modePend with
    | some 0 => if m = 2 then (s.setMode g 1).wr Reg.loop_MAN_OUT g (s.rd Reg.loop_Y g)
                else if m = 3 then
                  ((s.setMode g 1).wrN Reg.loop_TUNE_ST g 0).updLoop g (fun l => { l with tune := none })
                else s
    | some 1 => if m = 1 then s.setMode g 2 else if m = 3 then (s.tuneEnd g 0).setMode g 2 else s
    | some _ =>
      if m = 1 ∨ m = 2 then
        let y0 := s.rd Reg.loop_Y g
        let s := (s.setMode g 3).wr Reg.loop_TUNE_ST g 1
        s.updLoop g (fun l => { l with tune := some ⟨m, y0, true, 0, 0, 0xFF7FFFFF, 0x7F7FFFFF, 0, 0, 0, 0⟩ })
      else s
    | none => s
  let preset := swap || toAuto || l.presetPend || (l.modePend == some 1 && m == 3)
  (s.updLoop g (fun l => { l with modePend := none, swapPend := false, presetPend := false }), preset)

/-- Laser bookkeeping of a window (R278, R279, R281): the levels of its automatic frames and the run at MAX_LEVEL. -/
def State.laserTrack (s : State) (n : Nat) (y : Word) : State :=
  match (s.act n).win with
  | none => s
  | some w =>
    let atMax := F32.le (F32.ofInt (s.maxLevel (hdaOf n))) y
    let w := { w with autoFrames := w.autoFrames + 1, outs := (y :: w.outs).take 4, satRun := if atMax then w.satRun + 1 else 0 }
    let s := s.updAct n (fun a => { a with win := some w })
    if w.satRun = 4 then
      let s := (s.gateClose n 8).bump Reg.wa_ASSIST_SAT_CNT n
      (s.wr Reg.wa_CLOSE_CAUSE n 8).raise 0x0702 n
    else s

/-- A run (R297 to R302). -/
def State.loopStep (s : State) (g : Nat) (o : LoopObs) : State :=
  let (meas, ref, aux) := s.loopIns g o
  let ts := if (s.loop g).first then s.nominalTs g else o.ts
  let yLast := s.rd Reg.loop_Y g
  let err := fSub ref meas
  let (s, preset) := s.loopTransfer g
  let mode := s.loopMode g
  let n := loopAct g
  let h := loopHda g
  let ffAcc := match loopKind g with | .vcm | .ma => (s.act n).ffAcc | _ => 0
  let vbus := fMul (F32.ofInt (s.port h).mot.bus) (s.mscale h 2)
  let nom := match s.desc h with | some d => d.busNom | none => 0
  let i := s.rd Reg.loop_I g
  let p : LoopIn := ⟨[meas, ref, err, ffAcc, vbus, aux, yLast, ts, nom, 0x3F800000, 0, i], s.coefs g⟩
  let x0 := (List.range 16).map (fun j => s.rdAt Reg.loop_X g j)
  let (r, failed) := loopProg p ⟨x0, 0, 0⟩ (s.prog g)
  let s := (List.range 16).foldl (fun s j => s.wrAt Reg.loop_X g j (r.x.getD j 0)) s
  let s := ((s.wr Reg.loop_MEAS g meas).wr Reg.loop_REF g ref).wr Reg.loop_TS g ts
  let s := (s.wr Reg.loop_AUX g aux).wr Reg.loop_V g r.v
  let s := (s.bump Reg.loop_RUN_CNT g).bumpWrap Reg.unit_EXEC_CNT (g / 64) 0
  let s := s.updLoop g (fun l => { l with first := false })
  if mode = 4 then s
  else
    let frozen := (s.rdB Reg.loop_SAT_HI g && F32.lt 0 r.di) || (s.rdB Reg.loop_SAT_LO g && F32.lt r.di 0) || mode != 2
    let inew := if preset then F32.sub yLast r.v else if frozen then some i else F32.add i r.di
    let u := if preset then some yLast else (F32.add? (some r.v) inew)
    match failed || F32.bad meas, inew, u with
    | false, some inew, some u =>
      let satHi := F32.le (s.loopLimits g).2 u
      let satLo := F32.le u (s.loopLimits g).1
      let s := (s.wr Reg.loop_I g inew).wr Reg.loop_U g u
      let s := ((s.wrB Reg.loop_SAT_HI g satHi).wrB Reg.loop_SAT_LO g satLo).wrB Reg.loop_FROZEN g frozen
      let s := if satHi ∨ satLo then s.bump Reg.loop_SAT_CNT g else s
      let s := match mode, (s.loop g).tune with
        | 1, _ => s.wr Reg.loop_Y g (s.laserClamp g (s.rd Reg.loop_MAN_OUT g))
        | 2, _ => s.wr Reg.loop_Y g (if preset then yLast else s.loopClamp g u)
        | 3, some t => s.tuneRun g t err ts
        | _, _ => s
      let y := s.rd Reg.loop_Y g
      let frame := o.frameNo
      let dly := s.rdN Reg.loop_APPLY_DLY g
      match loopKind g with
      | .vcm => s.loopOut n 1 y frame dly
      | .ma => s.loopOut n 2 y frame dly
      | .laser =>
        let s := s.loopOut n 3 y frame dly
        if mode = 2 then s.laserTrack n y else s
      | .spindle => s
    | _, _, _ => s.loopExpire g 3

/-- An instance takes an input: every DIV + 1st runs it; WD_SAME equal inputs expire its watchdog (R288, R302). While the VCM alone carries a
head switch's step, the MA instance holds its output (R178). -/
def State.loopInput (s : State) (g : Nat) (o : LoopObs) : State :=
  let m := s.loopMode g
  if m = 0 ∨ m = 5 ∨ (loopKind g = .ma ∧ (s.act (loopAct g)).maWait) then s
  else
    let meas := (s.loopIns g o).1
    let l := s.loop g
    let same := if l.first = false ∧ meas = s.rd Reg.loop_MEAS g then l.same + 1 else 1
    let div := match loopKind g with
      | .vcm | .ma => 0
      | .laser => s.rdN Reg.loop_DIV g
      | .spindle => if g % 2 = 1 then 0 else s.rdN Reg.loop_DIV g -- the current instance runs every period (R316)
    let s := s.updLoop g (fun l => { l with same := same, age := 0, divCnt := if l.divCnt < div then l.divCnt + 1 else 0 })
    if m ≠ 4 ∧ s.wdSame g ≤ same then s.loopExpire g 2
    else if l.divCnt < div then s
    else s.loopStep g o

/-- The input that waits at an instance is run (R163, R288, R297): POS of a valid frame, or a photodiode value. Nothing runs where none waits; the
spindle block runs its own instances. DEDUCED: log 166. -/
def execLoopRun (g : Loop) (ts : Word) (s : State) : Res :=
  .next (match (s.loop g).input with
    | some f => (s.updLoop g (fun l => { l with input := none })).tagIn 0x08 (g / 64) (fun s => s.loopInput g ⟨0, 0, 0, ts, f⟩)
    | none => s)

/-- WD_AGE with its caps; a VCM instance always uses 4 (R302). DEDUCED: log 47. -/
def State.wdAge (s : State) (g : Nat) : Nat :=
  let w := s.rdN Reg.loop_WD_AGE g
  match loopKind g with
  | .vcm => 4
  | .ma => if w = 0 ∨ 4 < w then 4 else w
  | .laser => if w = 0 ∨ 2 < w then 2 else w
  | .spindle => if w = 0 ∨ 200 < w then 200 else w

/-- The sample age of an instance exceeds its limit (R302): frames are counted here, a spindle's microseconds outside. DEDUCED: log 47. -/
def execLoopWatchdog (g : Loop) (s : State) : Res :=
  .next (
    let m := s.loopMode g
    let l := s.loop g
    let due : Bool := match loopKind g with
      | .vcm => decide (s.wdAge g < l.age) || s.rdN Reg.demod_STATE (loopAct g) == 4
      | .ma => decide (s.wdAge g < l.age)
      | .laser => m == 2 && decide (s.wdAge g < l.age)
      | .spindle => true
    if 1 ≤ m ∧ m ≤ 3 ∧ due then s.loopExpire g 1 else s)

/-- A phase of the retract profile ends: brake, push, hold, then 0 and the heads count as on the ramp (R302, R303). -/
def execRetractPhaseEnd (n : Act) (s : State) : Res :=
  .next (
    let g := vcmLoop n
    let out (s : State) (y : Word) (ph : Nat) : State :=
      ((s.loopOut n 1 y ((s.act n).frameNo + 1) 0).wr Reg.loop_Y g y).updLoop g (fun l => { l with retract := ph })
    if s.loopMode g ≠ 4 then s
    else
      match (s.loop g).retract with
      | 1 => out s (s.retSign g (F32.abs (s.rd Reg.unit_RET_PUSH (g / 64)))) 2
      | 2 => out s (s.retSign g (F32.abs (s.rd Reg.unit_RET_HOLD (g / 64)))) 3
      | 3 =>
        let s := (out s 0 0).loopActionEnd g
        let s := s.updAct n (fun a => { a with headsOn := true, synced := false, ready := false })
        ((s.wr Reg.demod_STATE n 0).wr Reg.demod_ON_TRACK n 0).disEnd n
      | _ => s)

/-! ### ENABLE, MODE_REQ, SWAP (R296, R298, R299, R301, R304) -/

/-- A LASER instance on a microwave HDA cannot be enabled (R287). -/
def State.laserBarred (s : State) (g : Nat) : Bool :=
  loopKind g == .laser && (match s.desc (loopHda g) with | some d => d.assistType == 2 | none => false)

/-- The check of R296: the failing word, 31 for the limits. -/
def State.progErr (s : State) (g : Nat) : Option Nat :=
  match progCheck (s.prog g) 0 with
  | some i => some i
  | none => if F32.lt (s.rd Reg.loop_OUT_MIN g) (s.rd Reg.loop_OUT_MAX g) then none else some 31

def State.loopEnable (s : State) (g : Nat) : State :=
  if s.loopMode g ≠ 0 ∨ s.laserBarred g then s
  else
    match s.progErr g with
    | some i => (s.wr Reg.loop_PROG_ERR g 1).wrN Reg.loop_PROG_ERR_IDX g i
    | none =>
      let s := (s.wr Reg.loop_PROG_ERR g 0).wr Reg.loop_PROG_ERR_IDX g 0
      let s := (s.wr Reg.loop_ENABLE g 1).wr Reg.loop_SAFE_CAUSE g 0
      let s := s.updLoop g (fun _ => LoopSt.reset)
      let s := s.setMode g 1
      let s := s.wr Reg.loop_Y g (s.laserClamp g (s.rd Reg.loop_MAN_OUT g))
      if s.up (loopHda g) = false then s.loopSafe g 5
      else if 3 ≤ s.reactHda (loopHda g) then s.loopSafe g 6 else s

def State.loopDisable (s : State) (g : Nat) : State :=
  let s := s.wr Reg.loop_ENABLE g 0
  match s.loopMode g with
  | 0 => s
  | 1 => (s.setMode g 0).updLoop g (fun _ => LoopSt.reset)
  | 5 => (s.setMode g 0).updLoop g (fun _ => LoopSt.reset)
  | 4 => s.updLoop g (fun l => { l with disabling := true })
  | _ => (s.updLoop g (fun l => { l with disabling := true })).loopSafeAction g 4

def execEnable (g : Loop) (writer : Initiator) (on : Bool) (s : State) : Res :=
  .next (s.guard writer (Reg.loop_ENABLE.addr g 0) (fun s =>
    -- R316: the spindle block alone writes ENABLE of its instances
    if loopKind g = .spindle then s else if on then s.loopEnable g else s.loopDisable g))

/-- TUNE is refused here (R301): TUNE_ST 5. -/
def State.tuneBarred (s : State) (g : Nat) : Bool :=
  loopKind g == .laser || 29 < s.rdN Reg.loop_TUNE_BASE g
    || ((loopKind g == .vcm || loopKind g == .ma)
        && (F32.mag (s.rd Reg.loop_TUNE_ERR_MAX g) == 0 || s.rdB Reg.wa_WINDOW (loopAct g)))
    || (loopKind g == .spindle && !(s.rdB Reg.spindle_LOCKED (loopHda g)))

def execModeReq (g : Loop) (writer : Initiator) (mode : BitVec 2) (s : State) : Res :=
  .next (s.guard writer (Reg.loop_MODE_REQ.addr g 0) (fun s =>
    if mode = 3 ∨ loopKind g = .spindle then s
    else if mode = 2 ∧ s.tuneBarred g then s.wr Reg.loop_TUNE_ST g 5
    else
      let s := s.wrN Reg.loop_MODE_REQ g mode.toNat
      let m := s.loopMode g
      if 1 ≤ m ∧ m ≤ 3 then s.updLoop g (fun l => { l with modePend := some mode.toNat }) else s))

def execSwap (g : Loop) (writer : Initiator) (s : State) : Res :=
  .next (s.guard writer (Reg.loop_SWAP.addr g 0) (fun s =>
    if s.loopMode g = 3 then s else s.updLoop g (fun l => { l with swapPend := true })))

def execTuneTimeout (g : Loop) (s : State) : Res := .next (if s.loopMode g = 3 then s.tuneEnd g 4 else s)

/-! ### The setpoint FIFO (R291, R292, R308) -/

/-- SP_RES of a push (R291). -/
def State.spRes (s : State) (n : Nat) : Nat :=
  let a := s.act n
  let d := s.rdN Reg.demod_STATE n
  let f := s.rd Reg.spf_SP_FRAME n
  let spec := s.rdB Reg.spf_SP_SPEC n
  let pre := s.openOfSrc (s.engine n) 3
  if !(d == 2 || d == 3) || !a.synced then 4
  else if 64 ≤ a.fifo.length then 1
  else if frameBefore a.frameNo f = false ∨ a.fifo.getLast?.any (fun x => !(frameBefore x.frame f)) = true then 2
  else if spec ∧ pre ≠ some ((s.rd Reg.spf_SP_EPOCH n).setWidth 16) then 3
  else if spec = false ∧ pre.isSome then 3
  else 0

def execSpPush (n : Act) (writer : Initiator) (s : State) : Res :=
  .next (s.guard writer (Reg.spf_SP_PUSH.addr n 0) (fun s =>
    if writer.toNat ≠ idEngine (s.engine n) ∨ s.actExists n = false then s
    else
      let r := s.spRes n
      let s := s.wrN Reg.spf_SP_RES n r
      if r ≠ 0 then s
      else
        let x : SpEntry := ⟨s.rdInt Reg.spf_SP_POS n 0, s.rd Reg.spf_SP_ACC n, s.rd Reg.spf_SP_FRAME n,
          (s.rd Reg.spf_SP_EPOCH n).setWidth 16, s.rdB Reg.spf_SP_SPEC n⟩
        let s := s.updAct n (fun a => { a with fifo := a.fifo ++ [x] })
        s.wrN Reg.spf_SP_DEPTH n (s.act n).fifo.length))

/-- TARGET from its base, the selected head's RAD_OFS and the requested offset (R177). -/
def State.targetOf (s : State) (n : Nat) (base : Int) : Int :=
  let k := s.rdN Reg.demod_SEL_HEAD n
  base + (if 1 ≤ k ∧ k ≤ 10 then s.rdInt Reg.demod_RAD_OFS n (k - 1) else 0) + (s.act n).offset

/-- TARGET moves: ON_TRACK clears and the counting of R182 restarts (R179, R202). With `small`, a move of at most 16/256 track
keeps both (R179). -/
def State.setTarget (s : State) (n : Nat) (small : Bool := false) : State :=
  let v := s.targetOf n (s.act n).base
  let t := toW v
  if s.rd Reg.demod_TARGET n = t then s
  else if small ∧ (v - s.rdInt Reg.demod_TARGET n 0).natAbs ≤ 16 then s.wr Reg.demod_TARGET n t
  else
    let s := (s.wr Reg.demod_TARGET n t).wr Reg.demod_ON_TRACK n 0
    s.updAct n (fun a => { a with committed := false, onRun := 0 })

/-! ### Head and clock (R172, R176) -/

/-- The front ends of head k as last held; a head that has held none starts at the Reset values, with an analogue code that
the spec leaves open. DESIGN CHOICE: log 21. -/
def State.feOf (s : State) (n k : Nat) : FeSt :=
  ((s.lane (s.str.laneOf n)).fe.find? (fun f => f.head == k)).getD
    ⟨k, 2 ^ 24, 2 ^ 24, 0, 0, (Config.analogue s.fresh).toNat % 256, (Config.analogue s.fresh).toNat % 256⟩

/-- The lane's gain and DC registers show a head's front ends. -/
def State.feShow (s : State) (l : Nat) (f : FeSt) : State :=
  let s := (s.wr Reg.lane_GAIN_A l (toW (f.gainA.fdiv 65536))).wr Reg.lane_GAIN_B l (toW (f.gainB.fdiv 65536))
  let s := (s.wr Reg.lane_DC_A l (toW (f.dcA.fdiv 65536))).wr Reg.lane_DC_B l (toW (f.dcB.fdiv 65536))
  s.updLane l (fun x => { x with fe := x.fe.filter (fun g => g.head != f.head) ++ [f] })

/-- The frame of a new CLK_SET: the next index frame at least 2 frames ahead and after every window sent, so that edges
counted from it lie where R171 puts the bits, and it takes effect in no window (R170, R172). DEDUCED: log 135. -/
def State.clkFrame (s : State) (n : Nat) : Word :=
  let a := s.act n
  let cur := match (a.win.toList ++ a.winQueue).getLast? with
    | some w => if frameBefore a.frameNo w.lastFrame then w.lastFrame else a.frameNo
    | none => a.frameNo
  cur + BitVec.ofNat 32 (2 + (1800 - (cur.toNat + 2) % 1800) % 1800)

/-- The frame of a HEAD_SEL, with TICK 0: the first boundary past every write window sent, or that of a CLK_SET that is pending (R176, R184).
DEDUCED: log 135. -/
def State.headFrame (s : State) (n : Nat) : Word :=
  let a := s.act n
  let next := match (a.win.toList ++ a.winQueue).getLast? with
    | some w => if frameBefore a.frameNo w.lastFrame then w.lastFrame + 1 else a.frameNo + 1
    | none => a.frameNo + 1
  match (s.act n).clkAt with
  | some f => if frameBefore next f then f else next
  | none => next

/-- CLK_SET where TIM_OFS of the selected head has moved, outside a write window (R172). -/
def State.clkFollow (s : State) (n : Nat) : State :=
  let k := s.rdN Reg.demod_SEL_HEAD n
  let tim := s.rdInt Reg.demod_TIM_OFS n (k - 1)
  match (s.act n).clkZone, s.sideDesc n with
  | some z, some d =>
    if 1 ≤ k ∧ (s.act n).headPend = none ∧ tim ≠ (s.act n).clkTim ∧ s.rdB Reg.wa_WINDOW n = false then
      let ratio := ((d.zones[z]?).map (·.ratio)).getD 0
      let x := sideOf n
      let frame := s.clkFrame n
      (s.ctl (hdaOf n) 0x07 x ([x, 0] ++ wBytes (BitVec.ofNat 32 ratio) ++ wBytes frame ++ [(tim % 64).toNat])).updAct n
        (fun a => { a with clkTim := tim, clkAt := some frame })
    else s
  | _, _ => s

/-- A CLK_SET or a head switch has taken effect: the side's samples cannot be placed until the next marker, and those of the old head are not
the new one's (R214). -/
def State.streamsOff (s : State) (n : Nat) (drop : Bool) : State :=
  let mine (k : Nat) : Bool := k == 2 + sideOf n || k == 4 + sideOf n
  let s := s.updPort (hdaOf n) (fun p => { p with streams := p.streams.map (fun x => if mine x.1 then (x.1, { x.2 with placed := false }) else x) })
  if drop then s.updLane (s.str.laneOf n) (fun l => { l with segsA := [], segsB := [] }) else s

/-- The head changes (R175 to R178, R215, R228): AGE of every head reads 255, TARGET moves by the two RAD_OFS, a step beyond MA_RANGE is the
VCM's alone, the head left begins its ramp, the new head's front ends and streams come into force. DEDUCED: log 164. -/
def State.headSwitch (s : State) (n k : Nat) : State :=
  let old := s.rdN Reg.demod_SEL_HEAD n
  let was := s.rdInt Reg.demod_TARGET n 0
  let s := s.wrN Reg.demod_SEL_HEAD n k
  let s := (List.range 10).foldl (fun s j => s.wrAt Reg.demod_AGE n j 255) s
  let s := s.setTarget n
  let step := (s.rdInt Reg.demod_TARGET n 0 - was).natAbs
  let y := s.rd Reg.loop_Y (maLoop n)
  let s := s.updAct n (fun a => { a with
    headPend := none, maOld := if old = 0 then none else some (old, y, 8), maWait := decide (s.rdN Reg.demod_MA_RANGE n < step) })
  let s := ((s.feShow (s.str.laneOf n) (s.feOf n k)).tick).streamsOff n true
  if (s.act n).headsOn then s else s.smpCtl n (s.sampleBits n k)

/-- A HEAD_SEL whose boundary this is takes effect. -/
def State.headBoundary (s : State) (n : Nat) (f : Word) : State :=
  match (s.act n).headPend with
  | some p => if frameBefore f p.2 then s else s.headSwitch n p.1
  | none => s

/-- One frame of the ramp of the head left by a switch: eighths of the drive it had (R177). -/
def State.rampBoundary (s : State) (n : Nat) : State :=
  s.updAct n (fun a => { a with maOld := match a.maOld with
    | some (k, y, left) => if left ≤ 1 then none else some (k, y, left - 1)
    | none => none })

/-- The FIFO at the boundary of frame F (R292). -/
def State.fifoBoundary (s : State) (n : Nat) (f : Word) : State :=
  let a := s.act n
  let late := a.fifo.takeWhile (fun x => frameBefore x.frame f)
  let rest := a.fifo.drop late.length
  let s := s.bumpBy Reg.spf_SP_LATE_CNT n 0 late.length
  let (hit, rest) := match rest with
    | x :: r => if x.frame = f then (some x, r) else (none, rest)
    | [] => (none, [])
  let s := s.updAct n (fun a => { a with fifo := rest })
  let s := s.wrN Reg.spf_SP_DEPTH n rest.length
  match hit with
  | some x =>
    let s := s.wrB Reg.demod_SPEC_TARGET n (x.spec || (s.openOfSrc (s.engine n) 3).isSome)
    let s := s.updAct n (fun a => { a with base := x.pos, ffAcc := x.acc, hold := if x.spec then a.hold else x.pos })
    let s := if x.spec then s else s.wr Reg.spf_SP_HOLD_POS n (toW x.pos)
    s.setTarget n
  | none =>
    let s := s.updAct n (fun a => { a with base := if s.rdB Reg.demod_SPEC_TARGET n then a.base else a.hold, ffAcc := 0 })
    s.setTarget n

/-- One instance ages by a boundary; an MA in its safe action ramps by one frame, a retract sends its word (R302, R303). -/
def State.loopBoundary (s : State) (g : Nat) : State :=
  let n := loopAct g
  let s := s.updLoop g (fun l => { l with age := l.age + 1 })
  if s.loopMode g = 4 then
    match loopKind g with
    | .ma =>
      let y := s.rd Reg.loop_Y g
      let speed := match s.str.port (loopHda g) with | some p => p.speed | none => 0
      let step := fMul (F32.abs (s.rd Reg.loop_SAFE_RATE g)) (F32.ofRat 1 (nominalRpm speed / 60 * 1800))
      let y' := if F32.le (F32.abs y) step ∨ F32.mag step = 0 then 0
                else (if F32.neg y then fAdd y step else fSub y step)
      let s := (s.loopOut n 2 y' (s.act n).frameNo 0).wr Reg.loop_Y g y'
      if F32.mag y' = 0 then s.loopActionEnd g else s
    | .vcm => if (s.loop g).retract = 0 then s
              else
                let y := if (s.loop g).retract = 1 then s.retBrake g else s.rd Reg.loop_Y g
                (s.loopOut n 1 y ((s.act n).frameNo + 1) 0).wr Reg.loop_Y g y
    | _ => s
  else s

/-- A frame boundary of the actuator's side: FRAME_NO and INDEX count it, the gate's arm for it takes hold, a pending head switch, FRAME_SET,
the FIFO and the loop instances act (R126, R166, R172, R176, R182, R183, R292, R302). -/
def execFrameBoundary (n : Act) (s : State) : Res :=
  .next (
    if (s.act n).headsOn then s
    else
      let a := s.act n
      let f := a.frameNo + 1
      let spec := s.rdB Reg.demod_SPEC_TARGET n
      let s := s.updAct n (fun a => { a with
        frameNo := f, index := (a.index + 1) % 1800, committed := !spec,
        armed := if a.armed = some f then a.armed else none })
      -- the arm for this frame takes hold, and a window frame without one is counted (R126, R286)
      let open_ := a.armed == some f
      let inWin := (a.win.toList ++ a.winQueue).any (fun w => !(frameBefore f w.armFrom) && !(frameBefore w.lastFrame f))
      let s := (s.wrB Reg.wa_GATE_OPEN n open_).wrB Reg.wa_WINDOW n inWin
      let s := if inWin && !open_ then s.bump Reg.wa_NOARM_CNT n else s
      let s := if a.clkAt = some f then s.streamsOff n false else s
      let s := (s.headBoundary n f).fifoBoundary n f
      let s := (s.rampBoundary n).clkFollow n
      -- FRAME_SET in the first frame after acquisition, with the number of the boundary that follows (R133, R166)
      let s := if a.frameSetDue then
          (s.ctl (hdaOf n) 0x10 (sideOf n) ([sideOf n, 0] ++ wBytes (f + 1))).updAct n (fun a => { a with frameSetDue := false, synced := true })
        else s
      [vcmLoop n, maLoop n, laserLoop n].foldl (fun s g => s.loopBoundary g) s)

end Sys2Proof.Machine
end

