-- ==== Sys2Proof/Machine/Ladder.lean ====
section
/-!
DEFINITION. Machine/Ladder.lean: the recovery pool's records on the ladder of 09_recovery_and_defects.md: which work waits for a decoder or
for the media, what a step needs, and how a record moves from step to step.
-/

namespace Sys2Proof.Machine

/-! ### The recovery pool's waiting work (R236) -/

/-- Class of a recovery record: 4 where it belongs to no command (R236). -/
def RecRecord.prio (r : RecRecord) : Nat := if r.n.noCmd then 4 else r.n.prio

/-- The record waits for media: a reread, a neighbour or its segment (R242). -/
def RecRecord.waits (r : RecRecord) : Bool := !r.ready && r.decoder.isNone && 2 ≤ r.step && r.step ≤ 4

/-- A recovery operation of the record is the one in hand, or its sectors wait for confirmation. -/
def State.recBusy (s : State) (r : RecRecord) : Bool :=
  !(r.early.isEmpty) || (match (s.act r.n.act).op with
    | some o => o.recov == some (r.n.head, r.n.track, r.n.sector, r.stamp)
    | none => false)

/-- Before in the order of R236: PRIO, then stamp. -/
def RecRecord.before (a b : RecRecord) : Bool := a.prio < b.prio || (a.prio == b.prio && a.stamp < b.stamp)

/-- Decoder d's mask includes actuator n (R39). -/
def State.decServes (s : State) (d n : Nat) : Bool := (s.str.rpool.getD d 0).testBit n

/-- Give the record at position `i` the free decoder of lowest number that serves its actuator. -/
def State.assignOne (s : State) (i : Nat) : State :=
  match s.pool.records[i]? with
  | some r =>
    if r.ready = false ∨ r.decoder.isSome ∨ r.step < 1 ∨ 4 < r.step ∨ 2 ≤ s.reactAct r.n.act ∨ s.rdN Reg.dis_STATE r.n.act ≠ 0 then s
    else
      match (List.range 16).find? (fun d => s.rdAt Reg.pool_BUSY 0 d == 0 && s.decServes d r.n.act) with
      | some d =>
        let s := (s.wrAt Reg.pool_BUSY 0 d 1).wrAt Reg.pool_STEP 0 d (BitVec.ofNat 32 r.step)
        let s := s.wrAt Reg.pool_ACT 0 d (BitVec.ofNat 32 r.n.act)
        let s := s.wrAt Reg.pool_SLOT 0 d (BitVec.ofNat 32 (if r.n.noCmd then 0 else r.n.slot))
        s.updPool (fun p => { p with records := listSet p.records i { r with decoder := some d } })
      | none => s
  | none => s

/-- Work that waits for a decoder takes the free ones, in order. -/
def State.assign (s : State) : State :=
  let order := sortBy (fun (a b : RecRecord × Nat) => a.1.before b.1 || (!(b.1.before a.1) && a.2 ≤ b.2)) s.pool.records.zipIdx
  order.foldl (fun s p => s.assignOne p.2) s

/-- A neighbour at the same index is usable: same zone of the surface, same band, and written (R241). -/
def State.neighbour (s : State) (m : Notice) (t : Nat) : Bool :=
  match s.sideDesc m.act with
  | none => false
  | some d =>
    zoneIdx d t == zoneIdx d m.track && (zoneIdx d t).isSome &&
      (match d.posLba m.head t m.sector, d.posLba m.head m.track m.sector with
       | some (c, l), some (c', _) => c == c' && (c || zoneOfs l < (s.zone m.act (zoneOf l)).mwp)
       | _, _ => false)

/-- The sectors a record's next read takes: head, track, first and count. Step 2 rereads the sector, step 3 reads a neighbour not read yet, the
lower track first, and step 4 the segment. DEDUCED: log 53. -/
def State.recTarget (s : State) (r : RecRecord) (usable : Nat → Bool) : Option (Nat × Nat × Nat) :=
  let got (t : Nat) : Bool := r.reads.any (fun x => x.track == t && x.sector == r.n.sector)
  match r.step with
  | 2 => some (r.n.track, r.n.sector, 1)
  | 3 => if 1 ≤ r.n.track ∧ usable (r.n.track - 1) ∧ !(got (r.n.track - 1)) then some (r.n.track - 1, r.n.sector, 1)
         else if usable (r.n.track + 1) ∧ !(got (r.n.track + 1)) then some (r.n.track + 1, r.n.sector, 1) else none
  | 4 => (s.sideDesc r.n.act).map (fun d => let f := r.n.sector / 50 * 50; (r.n.track, f, min 50 (d.spt r.n.track - f)))
  | _ => none

/-- Every read that the record's step needs is confirmed: its reread, each usable neighbour, or the whole segment (R239, R241, R244). -/
def State.recComplete (s : State) (r : RecRecord) : Bool :=
  match r.step with
  | 2 => true
  | 3 => (s.recTarget r (s.neighbour r.n)).isNone
  | _ => match s.sideDesc r.n.act with
    | some d => let f := r.n.sector / 50 * 50
      (List.range (min 50 (d.spt r.n.track - f))).all (fun j => r.reads.any (fun x => x.track == r.n.track && x.sector == f + j))
    | none => true

/-- Sectors of a confirmation epoch reach the recovery records that asked for them: a record whose step has all it needs waits for a decoder
(R239, R242). -/
def State.poolCommit (s : State) (n : Nat) (ep : BitVec 16) : State :=
  if s.pool.records.all (fun r => r.n.act != n || r.early.all (fun x => x.1 != ep)) then s
  else
    (s.updPool (fun p => { p with records := p.records.map (fun r =>
      if r.n.act ≠ n then r
      else
        match (r.early.filter (fun x => x.1 == ep)).map (·.2) with
        | [] => r
        | l =>
          let r : RecRecord := { r with reads := r.reads ++ l, early := r.early.filter (fun x => x.1 != ep) }
          if s.recComplete r then
            { r with ready := true, rereads := if r.step = 2 then r.rereads + 1 else r.rereads }
          else r) })).assign

/-! ### Steps (R238 to R247) -/

/-- One revolution in µs, at the measured period or the nominal one. -/
def State.revUs (s : State) (n : Nat) : Nat :=
  let p := s.rdN Reg.demod_FRAME_PERIOD n
  let sp := match s.str.port (hdaOf n) with | some q => q.speed | none => 0
  (if p = 0 then (nominalPeriod sp).1 else p) * 1800 / 1000000

/-- Time left of a record in µs; none without a limit. -/
def State.timeLeft (s : State) (r : RecRecord) : Option Nat := r.deadline.map (fun d => d - s.alm.us64.toNat)

def State.timeFor (s : State) (r : RecRecord) (revs : Nat) : Bool :=
  match s.timeLeft r with
  | some t => decide (revs * s.revUs r.n.act ≤ t)
  | none => true

/-- Rereads of step 2, 1 to 15. -/
def State.rereadMax (s : State) : Nat := max 1 (s.rdN Reg.pool_REREAD_MAX 0)

/-- Step k can run on the record: enabled, its inputs there, and time enough (R238, R246). -/
def State.stepOpen (s : State) (r : RecRecord) (k : Nat) : Bool :=
  let reserve := s.rdN Reg.pool_STEP4_RESERVE 0
  s.rdBit Reg.pool_STEP_EN 0 (k - 1) &&
    (match k with
     | 1 => r.n.capValid
     | 2 => !r.limited && s.timeFor r reserve
     | 3 => !r.limited && s.timeFor r (reserve + 3)
         && (s.neighbour r.n (r.n.track + 1) || (1 ≤ r.n.track && s.neighbour r.n (r.n.track - 1)))
     | _ => !r.limited)

/-- The first step from `k` on that can run, 5 for none. DEDUCED: log 53. -/
def State.nextStep (s : State) (r : RecRecord) (k : Nat) : Nat := (([1, 2, 3, 4].filter (fun j => k ≤ j)).find? (s.stepOpen r)).getD 5

def State.setRec (s : State) (old new : RecRecord) : State :=
  s.updPool (fun p => { p with records := p.records.map (fun r => if r = old then new else r) })

/-- The samples of a record's capture are in its capture record. -/
def State.capReady (s : State) (r : RecRecord) : Bool :=
  match r.n.cap with
  | some c => s.pool.caps.any (fun x => x.1 == c && x.2.isSome)
  | none => false

/-- The offset of reread r (R239), asked of the servo as the engine-requested offset of R177. -/
def State.rereadOfs (s : State) (r : Nat) : Int :=
  let a : Int := s.rdN Reg.pool_RR_OFS1 0
  let b : Int := s.rdN Reg.pool_RR_OFS2 0
  ([0, a, -a, b, -b] : List Int).getD ((r - 1) % 5) 0

/-- A record leaves the ladder: its capture is freed and its decoder (R258). -/
def State.recDrop (s : State) (r : RecRecord) : State :=
  let s := match r.decoder with | some d => s.decFree d | none => s
  let s := s.updPool (fun p => { p with records := p.records.filter (fun x => x != r) })
  let s := s.capFree r.n.act r.n.cap
  s.wrN Reg.pool_REC_HELD 0 s.pool.records.length

/-- An Error Information entry (R256). -/
def State.errEntry (s : State) (c : Cmd) (status lba : Nat) : State :=
  s.updHost (fun h => { h with
    errCount := h.errCount + 1, errs := ((⟨h.errCount + 1, c.sq, c.sqe.cid, status, lba, c.sqe.nsid.toNat⟩ : ErrEnt) :: h.errs).take 256 })

/-- An LBA that no attempt recovered goes on the lost-range list with cause 5 (R247). -/
def State.giveUp (s : State) (r : RecRecord) : State :=
  let s := s.recDrop r
  (s.lostAdd r.n.act r.n.conv r.n.lba 1 5).bump Reg.poolAct_UNRECOV_CNT r.n.act

/-- A record goes on as deferred recovery from step `k` on (R247). -/
def State.defer (s : State) (r : RecRecord) (k : Nat) : State :=
  let r0 : RecRecord := { r with
    n := { r.n with noCmd := true, prio := 4, slot := 0 }, deadline := s.bgDeadline, limited := false, decoder := none, ready := false, early := [] }
  let s := match r.decoder with | some d => s.decFree d | none => s
  let s := s.bump Reg.poolAct_DEFER_CNT r.n.act
  let k := s.nextStep r0 k
  let r' : RecRecord := { r0 with step := k, ready := k == 1 && s.capReady r0 }
  let s := s.setRec r r'
  if k = 5 then s.giveUp r' else s.assign

/-- Step 5 (R246, R247, R256): a command's read completes with Unrecovered Read Error. Its record goes on deferred, from the step after the last
one completed, or ends with a lost range; `expired` where their deadline takes every record of the command there. -/
def State.stepFive (s : State) (r : RecRecord) (last : Nat) (expired : Bool) : State :=
  if r.n.noCmd then s.giveUp r
  else
    let n := r.n.act
    let mine (x : RecRecord) : Bool := !x.n.noCmd && x.n.slot == r.n.slot && x.stamp == r.stamp
    let owner := (s.cmd r.n.slot).filter (fun c => c.stamp == r.stamp)
    let on := s.rdB Reg.pool_DEFER_EN 0
    let all := s.pool.records.filter mine
    let s := all.foldl (fun s x =>
      if on = false ∧ (expired ∨ x = r) then s.giveUp x
      else s.defer x (if x = r then last + 1 else x.step)) s
    match owner with
    | some c =>
      let status := stUnrecovered (s.isLost n r.n.conv r.n.lba)
      let s := s.bumpBy Reg.poolAct_URE_CNT n 0 (if expired then all.length else 1)
      let s := s.updHost (fun h => { h with dataErrors := h.dataErrors + 1 })
      let s := s.errEntry c status r.n.lba
      (s.complete r.n.slot status).settle
    | none => s

/-- A record moves to the first step from `k` on that can run. DEDUCED: log 53. -/
def State.toStep (s : State) (r : RecRecord) (k : Nat) : State :=
  let j := s.nextStep r k
  if j = 5 then s.stepFive { r with decoder := none } 4 false
  else
    let r' : RecRecord := { r with step := j, decoder := none, ready := j == 1 && s.capReady r, early := [] }
    (s.setRec r r').assign

end Sys2Proof.Machine
end

