-- ==== Sys2Proof/Machine/Tiller.lean ====
section
/-!
DEFINITION. Machine/Tiller.lean: the Tiller sequencer of 07_tiller_engines.md: the media queue, the choice of class, epochs,
confirmation, and the four operations an engine submits.
-/

namespace Sys2Proof.Machine

/-! ### The age rule (R192) -/

/-- AGE_LIMIT in ms (R205). -/
def State.ageLimit (s : State) (e : Nat) : Nat := let a := s.rdN Reg.engine_AGE_LIMIT e; if 100 ≤ a ∧ a ≤ 10000 then a else 1000

/-- Age of an entry in µs, from ARRIVAL modulo 2^32 (R190, R192). -/
def State.entryAge (s : State) (e : MqEntry) : Nat := (s.alm.us64.toNat % 2 ^ 32 + 2 ^ 32 - e.arrival) % 2 ^ 32

/-- The oldest entry of the selected class that is past AGE_LIMIT (R192). -/
def State.overAge (s : State) (n : Nat) : Option MqEntry :=
  let e := s.engine n
  let c := s.rdN Reg.engine_CLASS_SEL e
  let old := ((s.act n).mq.filter (fun x => x.prio == c && x.opc != 4 && s.ageLimit e * 1000 < s.entryAge x))
  old.foldl (fun b x => match b with | none => some x | some y => if s.entryAge y < s.entryAge x then some x else some y) none

/-- OP_STATUS 1 to 3 of an operation on an entry (R191 to R193), 0 where it passes. -/
def State.entryCheck (s : State) (n : Nat) (x : MqEntry) : Nat :=
  let e := s.engine n
  if x.prio ≠ s.rdN Reg.engine_CLASS_SEL e then 1
  else if (match s.overAge n with | some o => o.idx != x.idx | none => false) = true then 2
  else if (s.act n).ready? x = false then 3
  else 0

/-! ### Epochs (R195 to R199) -/

/-- The pre-seek conditions of R181. -/
def State.preseekOk (s : State) (n : Nat) : Bool :=
  let a := s.act n
  [0, 1, 2, 3, 4].all (fun c => a.readyOf c == []) && a.win.isNone && a.armed.isNone && a.winQueue == []
    && (s.openOfSrc (s.engine n) 3).isNone && s.rdN Reg.demod_STATE n == 2 && s.rdN Reg.demod_PRESEEK_ACC n != 0

/-- RUNAHEAD_MAX as it reads: 0 without partition 6 (R205). -/
def State.runaheadMax (s : State) (e : Nat) : Nat :=
  match s.str.part 6 with
  | some p => if p.sizeMib = 0 then 0 else s.rdN Reg.engine_RUNAHEAD_MAX e
  | none => 0

/-- The run-ahead conditions of R201: no entry of PRIO 0 to 3 READY, a read cache, and a committed read to continue. -/
def State.runaheadOk (s : State) (n : Nat) : Bool :=
  let e := s.engine n
  [0, 1, 2, 3].all (fun c => (s.act n).readyOf c == []) && s.runaheadMax e != 0 && (s.act n).lastRead.isSome

/-- A free slot of the four. -/
def State.freeSlot (s : State) (e : Nat) : Option Nat := (List.range 4).find? (fun i => !(s.slotOpen e i))

/-- A grain of an earlier use of an epoch number is still held. -/
def State.epochHeld (s : State) (n : Nat) (ep : BitVec 16) : Bool :=
  s.held.any (fun g => g.tag.act == n && g.tag.spec && g.tag.epoch == ep)

/-- Open an epoch: it takes NEXT (R195). The number is none where no slot is free or the number is held. -/
def State.openEpoch (s : State) (n src : Nat) : State × Option (BitVec 16) :=
  let e := s.engine n
  let ep : BitVec 16 := (s.rd Reg.engine_NEXT e).setWidth 16
  match s.freeSlot e with
  | none => (s, none)
  | some i =>
    if s.epochHeld n ep then (s.bump Reg.engine_EPOCH_STALL_CNT e, none)
    else
      let s := s.wr Reg.engine_NEXT e (s.rd Reg.engine_NEXT e + 1)
      let s := s.wrAt Reg.engine_SLOT_EPOCH e i (ep.setWidth 32)
      let s := s.wrAt Reg.engine_SLOT_SRC e i (BitVec.ofNat 32 src)
      let s := s.wrAt Reg.engine_SLOT_OPEN e i 1
      let s := s.wrN Reg.engine_OPEN_CNT e (s.rdN Reg.engine_OPEN_CNT e + 1)
      (s.trace 0 .epochOpen n [ep.toNat, src], some ep)

/-- A class is charged sectors of media time (R191). -/
def State.charge (s : State) (n prio c : Nat) : State :=
  if 1 ≤ prio ∧ prio ≤ 3 then s.updAct n (fun a => { a with deficit := listSet a.deficit (prio - 1) (a.deficit.getD (prio - 1) 0 - c) }) else s

/-- Key of a class's charge in an epoch's shadow, beside the counters' own: a chaffed epoch charges nothing (R191, R199). DEDUCED: log 167. -/
def chargeKey (prio : Nat) : Nat := 0x10000 + prio

/-- SYNC_DEV_MEAN over the last 1,024 found marks, in 1/16 bit (R225, R234). -/
def State.syncDev (s : State) (l : Nat) (f : Int) : State :=
  let s := s.updLane l (fun x => { x with devs := (f :: x.devs).take 1024 })
  let d := (s.lane l).devs
  s.wr Reg.lane_SYNC_DEV_MEAN l (toW ((16 * d.foldl (· + ·) 0).fdiv (max d.length 1)))

/-- One shadowed count becomes visible (R198): a charge, an F − P (held plus 24), or a lane counter. -/
def State.unshadow (s : State) (n l id v : Nat) : State :=
  if 0x10000 ≤ id then s.charge n (id - 0x10000) v
  else if id = Reg.lane_SYNC_DEV_MEAN.id then s.syncDev l ((v : Int) - 24)
  else
    match Regs.laneFields.find? (fun f => f.id == id) with
    | some f => if f.id = Reg.lane_ITER_SUM.id then s.wr f l (s.rd f l + BitVec.ofNat 32 v) else s.bumpBy f l 0 v
    | none => s

/-- A grain whose epoch commits goes where KIND sends it (R15, R227): user data towards the host; metadata has reached the pool with its sector. -/
def State.route (s : State) (g : Grain) : State := if g.tag.kind = 0 then s.deliver g else s

/-- Commit the epoch in slot i (R16, R182, R198): its grains may leave, its setpoints and TARGET become committed, its
shadow counts become visible, and the sectors of it that failed decoding enter recovery. -/
def State.commitSlot (s : State) (n i : Nat) : State :=
  let e := s.engine n
  let ep := s.slotEpoch e i
  let src := s.slotSrc e i
  if s.slotOpen e i then
    let s := s.slotFree e i
    let mine (g : Grain) : Bool := g.tag.act == n && g.tag.spec && g.tag.epoch == ep
    let grains := s.held.filter mine
    let s := { s with held := s.held.filter (fun g => !(mine g)) }
    let counts := (s.act n).shadow.filter (fun x => x.1 == ep)
    let l := s.str.laneOf n
    let s : State := counts.foldl (fun (s : State) c => s.unshadow n l c.2.1 c.2.2) s
    let s := s.updAct n (fun a => { a with
      shadow := a.shadow.filter (fun x => x.1 != ep),
      pend := a.pend.filter (fun x => x.epoch != ep),
      gather := a.gather.map (fun (g : Gathered) => if g.epoch = some ep then { g with epoch := none } else g),
      op := a.op.map (fun o => if o.opc = 3 ∧ o.epoch = ep then { o with spec := false } else o),
      fifo := a.fifo.map (fun x => if x.spec && x.epoch == ep then { x with spec := false } else x) })
    let s : State := if src = 3 ∧ s.rdB Reg.demod_SPEC_TARGET n = true then
        let s := s.wrB Reg.demod_SPEC_TARGET n false
        let s := s.updAct n (fun a => { a with committed := false, hold := a.base })
        s.wr Reg.spf_SP_HOLD_POS n (toW (s.act n).base)
      else s
    let s := grains.foldl (fun s g => s.route g) s
    let s := (s.releaseNotices n ep).poolCommit n ep
    s.trace 0 .epochCommit n [ep.toNat, src]
  else s

/-- The result fields of an epoch command (R205). -/
def State.epochRes (s : State) (e : Nat) (ep : BitVec 16) (reason : Nat) : State :=
  ((s.wr Reg.engine_RES_EPOCH e (ep.setWidth 32)).wrB Reg.engine_RES_OK e (decide (reason = 0))).wrN Reg.engine_REASON e reason

/-- A refused open: no epoch was opened, so RES_EPOCH stays. DEDUCED: log 142. -/
def State.openRefused (s : State) (e reason : Nat) : State := (s.wrB Reg.engine_RES_OK e false).wrN Reg.engine_REASON e reason

def execEpochOpen (e : Eng) (writer : Initiator) (src : BitVec 3) (s : State) : Res :=
  .next (s.guard writer (Reg.engine_EPOCH_OP.addr e 0) (fun s =>
    match s.engAct e with
    | none => s
    | some n =>
      if (s.freeSlot e).isNone then s.openRefused e 1
      else if (src = 1 ∧ s.runaheadOk n = false) ∨ (src = 3 ∧ s.preseekOk n = false) ∨ (src ≠ 1 ∧ src ≠ 3) then s.openRefused e 4
      else
        match s.openEpoch n src.toNat with
        | (s, some ep) =>
          let s := if src = 3 then s.wrB Reg.demod_SPEC_TARGET n true else s.updAct n (fun a => { a with raDone := 0 })
          s.epochRes e ep 0
        | (s, none) => s.openRefused e 2))

/-- Commit; a chaff of the same epoch in the same cycle wins (R196). -/
def execEpochCommit (e : Eng) (writer : Initiator) (num : BitVec 16) (chaffSameCycle : Bool) (s : State) : Res :=
  .next (s.guard writer (Reg.engine_EPOCH_OP.addr e 0) (fun s =>
    match s.engAct e with
    | none => s
    | some n =>
      match s.epochSlot e num with
      | none => s.epochRes e num 3
      | some i => if chaffSameCycle then ((s.chaffSlot n i).mqRefresh n).epochRes e num 0 else (s.commitSlot n i).epochRes e num 0))

def execEpochChaff (e : Eng) (writer : Initiator) (num : BitVec 16) (s : State) : Res :=
  .next (s.guard writer (Reg.engine_EPOCH_OP.addr e 0) (fun s =>
    match s.engAct e with
    | none => s
    | some n =>
      match s.epochSlot e num with
      | none => s.epochRes e num 3
      | some i =>
        ((s.chaffSlot n i).mqRefresh n).epochRes e num 0))

/-- One frame after an entry of PRIO 0 to 3 became READY under an open pre-seek that the engine left standing (R197). -/
def execPreseekChaffTimeout (n : Act) (s : State) : Res :=
  .next (
    let e := s.engine n
    if [0, 1, 2, 3].any (fun c => (s.act n).readyOf c != []) then
      match (List.range 4).find? (fun i => s.slotOpen e i && s.slotSrc e i == 3) with
      | some i => (s.chaffSlot n i).mqRefresh n
      | none => s
    else s)

/-! ### Confirmation (R180, R200, R201) -/

/-- Whether every frame that a sector spans, and the one after, is judged; and whether all satisfy R180. -/
def State.confirmState (s : State) (n : Nat) (p : PendSector) : Option Bool :=
  let tol : Int := s.rdN Reg.demod_READ_TOL n
  let rec_ := (s.act n).recent
  let len := (p.last - p.first).toNat + 2
  let frames := (List.range (min len 64)).map (fun i => p.first + BitVec.ofNat 32 i)
  let got := frames.map (fun f => rec_.find? (fun r => r.no == f))
  if got.any (fun g => match g with | some r => !(r.valid && !r.coarse && (r.pes.natAbs : Int) ≤ tol) | none => false) then some false
  else if got.all (·.isSome) then some true
  else none

/-- The span's entry goes to the head of its class (R200): it stands first in the queue, its LBAs of the span still to be read. -/
def State.requeue (s : State) (n : Nat) (ps : List PendSector) : State :=
  let mine (m : MqEntry) : Bool := ps.any (fun p => p.entry == m.idx && p.stamp == m.stamp)
  s.updAct n (fun a => { a with mq := a.mq.filter mine ++ a.mq.filter (fun m => !(mine m)) })

/-- Close the span of a confirmation epoch once its sectors are decided: commit when all are confirmed, chaff when one fails, which ends the
read in hand where it is that read's own span. `whole`: no further sector of the span is to come. The span's LBAs are done in the entry they
were read for. -/
def State.spanDecide (s : State) (n : Nat) (ep : BitVec 16) (whole : Bool) : State :=
  let e := s.engine n
  match s.epochSlot e ep with
  | none => s
  | some i =>
    let ps := (s.act n).pend.filter (fun p => p.epoch == ep)
    let st := ps.map (s.confirmState n)
    if st.any (fun x => x == some false) then
      let own : Bool := match (s.act n).op with | some o => o.confEpoch == some ep | none => false
      let s := (s.chaffSlot n i).requeue n ps
      (if own then s.endWork n else s).mqRefresh n
    else if whole ∧ st.all (fun x => x == some true) then
      let s := s.commitSlot n i
      match ps.getLast? with
      | some p =>
        let s := s.updAct n (fun a => { a with lastRead := match a.op with
          | some o => if o.head = p.head ∧ o.track = p.track then some (p.head, p.track) else none
          | none => some (p.head, p.track) })
        match (s.act n).mq.find? (fun m => m.idx == p.entry && m.stamp == p.stamp) with
        | none => s
        | some m =>
          let s := s.mqDone n p.entry (ps.filterMap (·.lba))
          if m.work = .parity ∧ (s.act n).mq.all (fun y => !(y.idx == p.entry && y.stamp == p.stamp)) then s.parityRead n m p.head p.track (p.sector / 50)
          else s
      | none => s
    else s

/-- CONF_SPAN, 2 to 32 (R205). -/
def State.confSpan (s : State) (e : Nat) : Nat := let c := s.rdN Reg.engine_CONF_SPAN e; if 2 ≤ c ∧ c ≤ 32 then c else 8

/-- A slot for a confirmation epoch: the oldest open epoch of SRC 1 or 3 gives way (R200). -/
def State.makeRoom (s : State) (n : Nat) : State :=
  let e := s.engine n
  if (s.freeSlot e).isSome then s
  else
    let next := s.rdN Reg.engine_NEXT e
    let spec := (List.range 4).filter (fun i => s.slotOpen e i && (s.slotSrc e i == 1 || s.slotSrc e i == 3))
    let age (i : Nat) : Nat := (next + 65536 - (s.slotEpoch e i).toNat) % 65536
    match spec.foldl (fun b i => match b with | none => some i | some j => if age j < age i then some i else some j) none with
    | some i => s.chaffSlot n i
    | none => s

/-- Open the confirmation epoch of the operation's next span; with no epoch free the read ends here (R200). -/
def State.openSpan (s : State) (n : Nat) : State :=
  let s := s.makeRoom n
  match s.openEpoch n 2 with
  | (s, some ep) => s.updAct n (fun a => { a with op := a.op.map (fun o => { o with confEpoch := some ep, spanDone := 0 }) })
  | (s, none) => s.endWork n

/-! ### Operations (R204) -/

/-- Fields of OP_DESC. -/
def State.opDesc (s : State) (e w : Nat) : Nat := (s.rdAt Reg.engine_OP_DESC e w).toNat
def State.opHead (s : State) (e : Nat) : Nat := s.opDesc e 0 / 16 % 16
def State.opEntry (s : State) (e : Nat) : Nat := s.opDesc e 0 / 65536 % 2048
def State.opTrack (s : State) (e : Nat) : Nat := s.opDesc e 1 % 16777216
def State.opFirst (s : State) (e : Nat) : Nat := s.opDesc e 2 % 65536
def State.opCount (s : State) (e : Nat) : Nat := s.opDesc e 2 / 65536
def State.opEpoch (s : State) (e : Nat) : BitVec 16 := BitVec.ofNat 16 (s.opDesc e 3)
def State.opSpec (s : State) (e : Nat) : Bool := s.opDesc e 3 / 65536 % 2 == 1

/-- Offsets of a head in a zone, by the key of `ActSt.offs`. -/
def offKey (k z : Nat) : Nat := 1024 * k + z

/-- Leaving a head and zone keeps what was learned; entering one loads its offsets, unconfirmed and with AGE 255 (R175, R176).
Where no records have been read the offsets stay. DEDUCED: log 144. -/
def State.loadOffsets (s : State) (n k : Nat) (zone : Option Nat) : State :=
  let k0 := match (s.act n).headPend with | some p => p.1 | none => s.rdN Reg.demod_SEL_HEAD n
  let s := match (s.act n).clkZone with
    | some z0 => if (s.act n).offs.any (fun x => x.1 == offKey k0 z0) then
        s.updAct n (fun a => { a with
          offs := assocSet a.offs (offKey k0 z0) (s.rdInt Reg.demod_RAD_OFS n (k0 - 1), s.rdInt Reg.demod_TIM_OFS n (k0 - 1)) }) else s
    | none => s
  let s := match zone.bind (fun z => (s.act n).offs.lookup (offKey k z)) with
    | some v => (s.wrInt Reg.demod_RAD_OFS n (k - 1) v.1).wrInt Reg.demod_TIM_OFS n (k - 1) v.2
    | none => s
  let s := s.wrAt Reg.demod_AGE n (k - 1) 255
  s.updAct n (fun a => { a with unconfirmed := a.unconfirmed ||| BitVec.ofNat 11 (2 ^ k) })

/-- The head in use, or about to be: that of a HEAD_SEL on its way. -/
def State.headNow (s : State) (n : Nat) : Nat := match (s.act n).headPend with | some p => p.1 | none => s.rdN Reg.demod_SEL_HEAD n

/-- Head switch and zone crossing: HEAD_SEL, CLK_SET and GAIN (R172, R176). The head changes at HEAD_SEL's boundary; on a side without a frame
count at once (R133). -/
def State.selectHead (s : State) (n k track : Nat) : State :=
  let h := hdaOf n
  let sd := sideOf n
  let zone := (s.sideDesc n).bind (fun d => zoneIdx d track)
  let switch := s.headNow n != k
  let zoneChange := zone != (s.act n).clkZone
  let s := if switch ∨ zoneChange then s.loadOffsets n k zone else s
  let tim := s.rdInt Reg.demod_TIM_OFS n (k - 1)
  let s := if switch then
      let f := s.headFrame n
      let s := (s.ctl h 0x05 sd ([sd, k] ++ wBytes f ++ hBytes 0)).updAct n (fun a => { a with headPend := some (k, f) })
      if (s.act n).synced then s else s.headSwitch n k
    else if zoneChange then s.setTarget n
    else s
  if switch ∨ zoneChange ∨ tim ≠ (s.act n).clkTim ∨ (s.act n).clkAt = none then
    let frame := s.clkFrame n
    let ratio := match (s.sideDesc n), zone with | some d, some z => ((d.zones[z]?).map (·.ratio)).getD 0 | _, _ => 0
    let s := s.ctl h 0x07 sd ([sd, 0] ++ wBytes (BitVec.ofNat 32 ratio) ++ wBytes frame ++ [(tim % 64).toNat])
    let s := s.updAct n (fun a => { a with clkZone := zone, clkTim := tim, clkAt := some frame })
    if switch then
      -- GAIN of both readers for the new head (R176, R215)
      let f := s.feOf n k
      (s.ctl h 0x08 sd [sd, 0, f.codeA]).ctl h 0x08 sd [sd, 1, f.codeB]
    else s
  else s

/-- The lane and head the actuator now uses (R234 shows them). -/
def State.opStatus (s : State) (e st : Nat) : State := s.wrN Reg.engine_OP_STATUS e st

/-- An operation starts, without the offset of a reread unless it is one (R177, R239); only a run-ahead one continues the read before it (R201). -/
def State.opStart (s : State) (n : Nat) (o : OpSt) : State :=
  let e := s.engine n
  let s := (if o.recov.isSome then s else s.opStatus e 0).wr Reg.engine_OP_BUSY e 1
  let s := s.updAct n (fun a => { a with op := some o, lastRead := if o.opc = 4 then a.lastRead else none, offset := if o.recov.isSome then a.offset else 0 })
  (s.setTarget n true).trace 0 .operation n [o.opc, o.head, o.track, o.first, o.count]

/-- Head, count, track and sectors of a descriptor are in range (R204). DEDUCED: log 143. -/
def State.descOk (s : State) (e n : Nat) (needCount : Bool) : Bool :=
  1 ≤ s.opHead e && s.opHead e ≤ 10 && (!needCount || 1 ≤ s.opCount e)
    && (match (s.sideDesc n).bind (fun d => d.zoneOfTrack (s.opTrack e)) with
        | some z => !needCount || decide (s.opFirst e + s.opCount e ≤ z.spt)
        | none => false)

/-- A recovery operation of actuator n waits whose class equals or outranks the class selected (R242). -/
def State.recWaits (s : State) (n : Nat) : Bool :=
  s.pool.records.any (fun r => r.n.act == n && r.waits && !(s.recBusy r) && r.prio ≤ s.rdN Reg.engine_CLASS_SEL (s.engine n))

/-- An actuator whose media work is barred: reaction 2 or higher, a disable, or its engine or link away (R107, R151, R438, R446). -/
def State.mediaBarred (s : State) (n : Nat) : Bool :=
  2 ≤ s.reactAct n || s.rdN Reg.dis_STATE n != 0 || s.rdN Reg.dis_STATE (64 + n / 2) != 0 || (s.act n).noEngine
    || !(s.up (n / 2))

/-- The media credit is used up: no operation starts (R424). DEDUCED: log 86. -/
def State.creditOut (s : State) (n : Nat) : Bool := decide (s.rdInt Reg.thermAct_MEDIA_CREDIT n 0 ≤ 0)

def State.opRead (e n : Nat) (s : State) : State :=
    if s.descOk e n true = false then s.opStatus e 5
    else
      match (s.act n).mq.find? (fun x => x.idx == s.opEntry e && x.opc == 1) with
      | none => s.opStatus e 5
      | some x =>
        let c := s.entryCheck n x
        if c ≠ 0 then s.opStatus e c
        else if s.opSpec e then s.opStatus e 4
        else if s.mediaBarred n then s.opStatus e 5
        else
          let s := s.selectHead n (s.opHead e) (s.opTrack e)
          let s := s.opStart n ⟨1, s.opHead e, x.idx, s.opTrack e, s.opFirst e, s.opCount e, 0, false, 0, none, 0, none⟩
          s.openSpan n

/-- A seek ends once ON_TRACK holds on its track and head (R179, R204). DEDUCED: log 143. -/
def State.seekEnd (s : State) (n : Nat) : State :=
  match (s.act n).op with
  | some o =>
    if o.opc = 3 ∧ s.rdB Reg.demod_ON_TRACK n ∧ s.rdN Reg.demod_SEL_HEAD n = o.head
        ∧ s.rd Reg.demod_TARGET n = toW (s.targetOf n (256 * o.track)) then s.endWork n else s
  | none => s

def State.opSeek (e n : Nat) (s : State) : State :=
    if s.descOk e n false = false then s.opStatus e 5
    else if s.opEntry e ≠ 0x7FF then s.opStatus e 5
    else if s.opSpec e then
      if s.openOfSrc e 3 = some (s.opEpoch e) then
        let s := s.selectHead n (s.opHead e) (s.opTrack e)
        let s := s.wrB Reg.demod_SPEC_TARGET n true
        (s.opStart n ⟨3, s.opHead e, 0x7FF, s.opTrack e, 0, 0, s.opEpoch e, true, 0, none, 0, none⟩).seekEnd n
      else s.opStatus e 4
    else if s.mediaBarred n then s.opStatus e 5
    else
      let s := s.selectHead n (s.opHead e) (s.opTrack e)
      (s.opStart n ⟨3, s.opHead e, 0x7FF, s.opTrack e, 0, 0, 0, false, 0, none, 0, none⟩).seekEnd n

def State.opRunahead (e n : Nat) (s : State) : State :=
    if s.descOk e n true = false ∨ s.runaheadMax e < (s.act n).raDone + s.opCount e ∨ s.opEntry e ≠ 0x7FF then s.opStatus e 5
    else if s.openOfSrc e 1 ≠ some (s.opEpoch e) ∨ (s.act n).lastRead ≠ some (s.opHead e, s.opTrack e) then s.opStatus e 4
    else if s.runaheadOk n = false then s.opStatus e 1
    else if s.mediaBarred n then s.opStatus e 5
    else
      let s := s.selectHead n (s.opHead e) (s.opTrack e)
      s.opStart n ⟨4, s.opHead e, 0x7FF, s.opTrack e, s.opFirst e, s.opCount e, s.opEpoch e, true, 0, none, 0, none⟩

/-- The operation in hand ends at the next sector boundary and its entry stays queued (R194, R424). A run-ahead epoch stays open: the engine
chaffs it (R201). -/
def State.opCut (s : State) (n : Nat) : State :=
  match (s.act n).op with
  | some o =>
    let s := if o.opc = 2 then s.seqClose n else s
    let s := s.endWork n
    let s := match o.confEpoch with | some ep => s.spanDecide n ep true | none => s
    s.mqRefresh n
  | none => s

/-- Class of an operation: its entry's, its recovery record's, or 4 (R191, R242). -/
def State.opPrio (s : State) (n : Nat) (o : OpSt) : Nat :=
  match o.recov with
  | some k => (((s.pool.records.find? (fun r => r.n.act == n && (r.n.head, r.n.track, r.n.sector, r.stamp) == k)).map (·.prio))).getD 4
  | none => match (s.act n).mq.find? (fun x => x.idx == o.entry) with | some x => x.prio | none => 4

/-- An urgent entry is READY while an operation of another class runs, a recovery operation included: it ends at the next sector boundary
(R194, R242). A write's window is closed and settled by its WDONE (R154, R285). -/
def execPreemption (n : Act) (s : State) : Res :=
  .next (
    let e := s.engine n
    let a := s.act n
    match a.op with
    | some o =>
      -- a seek belongs to no class (R204)
      if a.readyOf 0 ≠ [] ∧ s.opPrio n o ≠ 0 ∧ o.opc ≠ 3 then
        let s := (s.bump Reg.engine_PREEMPT_CNT e).guarantee 5 (if s.opPrio n o = 4 then 7 else 6) n
        (s.opCut n).trace 0 .preempt n []
      else s
    | none => s)

/-! ### Recovery operations (R242) -/

/-- The sequencer issues the first waiting recovery operation of the actuator whose class equals or outranks the class selected, where no
operation runs (R242). The head and zone are selected as for any operation; the engine's microcode moves the head. DEDUCED: log 53. -/
def State.recIssue (s : State) (n : Nat) : State :=
  if (s.act n).op.isSome ∨ s.mediaBarred n ∨ s.creditOut n ∨ (s.act n).ready = false then s
  else
    let mine := s.pool.records.filter (fun r => r.n.act == n && r.waits && !(s.recBusy r) && r.prio ≤ s.rdN Reg.engine_CLASS_SEL (s.engine n))
    match mine.foldl (fun (b : Option RecRecord) r => match b with | none => some r | some x => if r.before x then some r else b) none with
    | none => s
    | some r =>
      -- with too little time left for a reread or a neighbour the ladder goes on (R246)
      if (match s.timeLeft r with | some t => t == 0 | none => false) = true then s.stepFive r (r.step - 1) true
      else if r.step ≤ 3 ∧ s.stepOpen r r.step = false then s.toStep r (r.step + 1)
      else
      match s.recTarget r (s.neighbour r.n) with
      | none => s
      | some (t, f, c) =>
        let s := s.selectHead n r.n.head t
        let s := s.updAct n (fun a => { a with offset := if r.step = 2 then s.rereadOfs (r.rereads + 1) else 0 })
        let s := s.opStart n ⟨1, r.n.head, 0x7FF, t, f, c, 0, false, 0, none, 0, some (r.n.head, r.n.track, r.n.sector, r.stamp)⟩
        s.openSpan n

end Sys2Proof.Machine
end

