-- ==== Sys2Proof/Machine/Transit.lean ====
section
/-!
DEFINITION. Machine/Transit.lean: the transit demodulator of 06_transit_servo.md and the write gate that each frame evaluates
(R269 to R273 of 10_write_and_assist.md).
-/

namespace Sys2Proof.Machine

/-! ### Position (R161 to R164) -/

/-- What R162 makes of a frame outside coarse mode. -/
inductive PosRes where
  | pos (p : Int)
  | badIntervals
  | badTrack
  deriving DecidableEq, Repr

/-- POS of R162 in 1/256 track, with 30 decimal digits; the intervals are in 1/64 cycle. DESIGN CHOICE: log 45. -/
def posOf (d : SideDesc) (track : Nat) (d0 d1 : Int) : PosRes :=
  let pitch := Fix.ofF32 d.trackPitch
  let r := Fix.ofF32 d.odRadius - (track * pitch).fdiv 1000000
  let lambda := (Fix.mul (2 * Fix.pi) r * 1000000).fdiv (1800 * (max d.toneCycles 1))
  let g := Fix.div (2 * Fix.mul pitch (Fix.tan (Fix.ofF32 d.stripeAngle))) lambda
  if g ≤ 0 then .badTrack
  else if Fix.one.fdiv 4 < (Fix.div ((d0 - d1) * Fix.one) (64 * g)).natAbs then .badIntervals
  else
    let frac := Fix.div ((24 * 128 - (d0 + d1)) * Fix.one) (128 * g)
    let tid : Int := track * Fix.one
    let m := (tid - frac + 2 * Fix.one).fdiv (4 * Fix.one)
    let cand := 4 * m * Fix.one + frac
    if 3 * Fix.one < 2 * (cand - tid).natAbs then .badTrack
    else .pos ((2 * 256 * cand + Fix.one).fdiv (2 * Fix.one))

/-- A stripe found within its field: cycles 128 to 191, or 192 to 255 (R158, R161). -/
def inField (first : Int) (t : Option Int) : Bool := match t with | some x => 64 * first ≤ x && x < 64 * (first + 64) | none => false

/-- D_0 and D_1 where the four stripes are found within their fields (R161). -/
def intervals (o : TransitObs) : Option (Int × Int) :=
  if inField 128 o.a0 && inField 128 o.b0 && inField 192 o.a1 && inField 192 o.b1 then
    some (o.b0.getD 0 - o.a0.getD 0, o.b1.getD 0 - o.a1.getD 0)
  else none

/-- FMARK within ±2 cycles of its predicted place; ACQUIRE searches the whole frame once the tone PLL has locked (R161, R165). -/
def fmarkOk (acquire : Bool) (o : TransitObs) : Bool :=
  match o.fmark with
  | some x => if acquire then o.toneLock else decide (x.natAbs ≤ 128)
  | none => false

/-- One frame judged: valid, POS, and whether TRACK_ID's checks rejected it (R161, R164). DEDUCED: log 46. -/
def State.judge (s : State) (n : Nat) (d : SideDesc) (o : TransitObs) : Bool × Int × Bool :=
  let acquire := s.rdN Reg.demod_STATE n == 1
  match indexOf o.index, intervals o with
  | some i, some (d0, d1) =>
    if !(fmarkOk acquire o && (acquire || i == (s.act n).index)) then (false, 0, false)
    else if s.rdB Reg.demod_COARSE n then
      (true, match trackOf o.trackId with
        | some t => 256 * (t : Int)
        | none => 256 * ((s.predictPos n + 128).fdiv 256), false)
    else
      match trackOf o.trackId with
      | none => (false, 0, true)
      | some t =>
        match posOf d t d0 d1 with
        | .pos p => (true, p, false)
        | .badIntervals => (false, 0, false)
        | .badTrack => (false, 0, true)
  | _, _ => (false, 0, false)

def sat16 (x : Int) : Int := if x < -32767 then -32767 else if 32767 < x then 32767 else x

/-! ### Spindle speed (R169) -/

/-- Each side in TRACK or COAST keeps its last 1,800 frame periods; FRAME_PERIOD of the HDA is the mean of side A's, or of side B's while A is
in neither (R169). -/
def State.measurePeriod (s : State) (n ps : Nat) : State :=
  let h := hdaOf n
  let on (m : Nat) : Bool := s.rdN Reg.demod_STATE m == 2 || s.rdN Reg.demod_STATE m == 3
  if on n = false then s
  else
    let s := s.updAct n (fun a => { a with periods := (ps :: a.periods).take 1800 })
    let l := (s.act (if on (2 * h) then 2 * h else 2 * h + 1)).periods
    let mean := (l.foldl (· + ·) 0 + l.length / 2) / max l.length 1
    (s.wrN Reg.demod_FRAME_PERIOD (2 * h) mean).wrN Reg.demod_FRAME_PERIOD (2 * h + 1) mean

/-- FRAME_PERIOD lies within ±0.1 % of the period at the PORT SPEED (R269). -/
def State.spindleOk (s : State) (n : Nat) : Bool :=
  let sp := match s.str.port (hdaOf n) with | some p => p.speed | none => 0
  let (nom, tol) := nominalPeriod sp
  let p := s.rdN Reg.demod_FRAME_PERIOD n
  nom - tol ≤ p && p ≤ nom + tol

/-! ### Loss (R168) -/

/-- Entry to LOST. -/
def State.enterLost (s : State) (n : Nat) : State :=
  let s := s.gateClose n 3
  let s := (s.chaffAll n).endWork n
  let s := s.bump Reg.demod_LOST_CNT n
  let s := (s.wr Reg.demod_STATE n 4).wr Reg.demod_ON_TRACK n 0
  let s := s.updAct n (fun a => { a with synced := false, validRun := 0, havePos := false, posGap := 0, frameSetDue := false, onRun := 0, ready := false })
  let s := s.trace 1 .demodState n [4]
  s.raise 0x0602 n

/-- Tone PLL unlocked for 2 µs in any state above OFF (R165). -/
def execToneUnlock (n : Act) (s : State) : Res :=
  .next (
    let s := s.wr Reg.demod_TONE_LOCK n 0
    let d := s.rdN Reg.demod_STATE n
    if d = 0 ∨ d = 4 then s else s.enterLost n)

/-- 2 ms after the heads left the ramp without TRACK (R165). -/
def execTransitAcquisitionTimeout (n : Act) (s : State) : Res :=
  .next (if s.rdN Reg.demod_STATE n = 1 then s.raise 0x0601 n else s)

/-! ### Head load and unload (R157, R165, R506) -/

/-- The side may load: declared, enabled, up, and its spindle at speed. -/
def State.sideOn (s : State) (n : Nat) : Bool :=
  s.actExists n && s.bound (hdaOf n) && s.up (hdaOf n) && s.rdN Reg.dis_STATE n % 3 == 0 && s.rdN Reg.dis_STATE (64 + hdaOf n) == 0

/-- The heads leave the ramp: ACQUIRE, with TRN on before (R157, R165, R506). DEDUCED: log 85. -/
def execHeadsOffRamp (n : Act) (s : State) : Res :=
  .next (
    if (s.act n).headsOn ∧ s.sideOn n then
      let s := s.smpCtl n (s.sampleBits n (s.rdN Reg.demod_SEL_HEAD n))
      let s := s.updAct n (fun a => { a with
        headsOn := false, validRun := 0, index := 0, synced := false, frameSetDue := false,
        havePos := false, posGap := 0, recent := [], periods := [] })
      let s := (s.wr Reg.demod_STATE n 1).wr Reg.demod_MISS_RUN n 0
      let s := (s.wr Reg.demod_COARSE n 0).wr Reg.demod_ON_TRACK n 0
      -- an enable of the actuator has loaded its heads (R448)
      let s := if s.rdN Reg.dis_STATE n = 3 then s.wr Reg.dis_STATE n 0 else s
      s.trace 1 .demodState n [1]
    else s)

/-- The heads are back on the ramp: OFF, TRN off (R165, R506). -/
def State.rampReached (s : State) (n : Nat) : State :=
    let s := s.gateClose n 3
    let s := s.updAct n (fun a => { a with headsOn := true, validRun := 0, synced := false, frameSetDue := false, havePos := false, posGap := 0, ready := false })
    let s := (s.wr Reg.demod_STATE n 0).wr Reg.demod_TONE_LOCK n 0
    let s := (s.wr Reg.demod_ON_TRACK n 0).wr Reg.demod_COARSE n 0
    ((s.smpCtl n 0).trace 1 .demodState n [0]).disEnd n

def execHeadsOnRamp (n : Act) (s : State) : Res := .next (s.rampReached n)

/-- REACQ restarts ACQUIRE; ignored unless STATE is 0 or 4 with the heads on the ramp (R185). -/
def execReacq (n : Act) (writer : Initiator) (s : State) : Res :=
  .next (s.guard writer (Reg.demod_REACQ.addr n 0) (fun s =>
    let d := s.rdN Reg.demod_STATE n
    if (d = 0 ∨ d = 4) ∧ (s.act n).headsOn then
      let s := s.wr Reg.demod_STATE n 1
      (s.updAct n (fun a => { a with validRun := 0 })).trace 1 .demodState n [1]
    else s))

/-! ### Alignment (R171, R172, R174, R175) -/

/-- WG_TOL, 5 to 26 (R286). -/
def State.wgTol (s : State) (n : Nat) : Nat := let w := s.rdN Reg.wa_WG_TOL n; if 5 ≤ w ∧ w ≤ 26 then w else 20

/-- A missed burst: AGE and BURST_MISS_CNT rise (R174). -/
def State.burstMiss (s : State) (n k : Nat) : State :=
  ((s.bumpBy Reg.demod_AGE n (k - 1) 1).bump Reg.demod_BURST_MISS_CNT n).trace 1 .burstMiss n [k]

/-- Cycle of the revolution, as a quotient, at which the centre of burst g lies on a head with TIM_OFS `tim` (R171, R206). -/
def burstCycle (ratio : Nat) (tim : Int) (g : Nat) : Int × Int :=
  ((((burstFirst g + 128 : Nat) : Int) * 64 + tim) * 2 ^ 24, 64 * (max ratio 1))

/-- P_T (R174): POS of the last two valid frames carried along a line to the burst's centre; POS stands for cycle 192 of its frame. DEDUCED: log 162. -/
def State.burstPt (s : State) (n : Nat) (tc ratio : Nat) (tim : Int) (g : Nat) : Int :=
  let (num, den) := burstCycle ratio tim g
  let rev := 1800 * tc * den
  let x := num - den * ((s.rdN Reg.demod_POS_FRAME n % 1800 * tc + 192 : Nat) : Int)
  let x := (x + rev / 2) % rev - rev / 2
  let m := s.moved n
  s.rdInt Reg.demod_POS n 0 + (m.1 * x).fdiv (m.2 * tc * den)

/-- The burst falls in a frame that R161 rejects: the latest frame of that index was not valid, or no position is being delivered. -/
def State.burstRejected (s : State) (n : Nat) (tc ratio : Nat) (tim : Int) (g : Nat) : Bool :=
  let (num, den) := burstCycle ratio tim g
  let f := num.fdiv (den * tc) % 1800
  (s.rdN Reg.demod_STATE n != 2 && s.rdN Reg.demod_STATE n != 3)
    || (match (s.act n).recent.find? (fun r => ((r.no.toNat % 1800 : Nat) : Int) == f) with | some r => !r.valid | none => false)

/-- P_D within ±0.5 track (R174): both readers in MODE 0, else the reader in use. -/
def State.burstPd (s : State) (n k : Nat) (o : BurstObs) : Int :=
  let use : Bool × Bool := match s.str.modeOf n k with | 0 => (true, true) | 1 | 3 => (true, false) | _ => (false, true)
  let a (x : Int) : Int := if use.1 then x else 0
  let b (x : Int) : Int := if use.2 then x else 0
  max (-128) (min 128 (Config.nullPos (a o.pA) (a o.qA) (b o.pB) (b o.qB)))

/-- A burst passes under the selected head (R174, R175). With the heads on the ramp none does. -/
def execAlignmentBurst (n : Act) (o : BurstObs) (s : State) : Res :=
  .next (
    let k := s.rdN Reg.demod_SEL_HEAD n
    let j := k - 1
    if k < 1 ∨ 10 < k ∨ s.rdN Reg.demod_STATE n = 0 then s
    else
      match s.sideDesc n, (s.act n).clkZone with
      | some d, some z =>
        let ratio := ((d.zones[z]?).map (·.ratio)).getD 0
        let tc := max d.toneCycles 1
        let tim := s.rdInt Reg.demod_TIM_OFS n j
        match o.mark, burstId o.id, s.burstRejected n tc ratio tim o.burst with
        | some m, some (_, low), false =>
          let sh : Int := 2 ^ (s.rdN Reg.demod_ALIGN_SHIFT n)
          let rad := s.rdInt Reg.demod_RAD_OFS n j
          let pT := s.burstPt n tc ratio tim o.burst
          let track := nearest16 low ((pT - rad + 128).fdiv 256)
          let e := (pT - (track * 256 + s.burstPd n k o)) - rad
          let s := s.wrInt Reg.demod_RAD_OFS n j (rad + e.fdiv sh)
          let s := s.wrInt Reg.demod_TIM_OFS n j (tim + m.fdiv sh)
          let loose := (s.act n).unconfirmed.getLsbD k
          let s := if loose ∧ s.wgTol n < e.natAbs then s.wrAt Reg.demod_AGE n j 255
                   else (s.wrAt Reg.demod_AGE n j 0).updAct n (fun a => { a with unconfirmed := a.unconfirmed &&& ~~~(BitVec.ofNat 11 (2 ^ k)) })
          (s.setTarget n).clkFollow n
        | _, _, _ => s.burstMiss n k
      | _, _ => s.burstMiss n k)

/-- An entry written or loaded: AGE 255, unconfirmed (R175). -/
def State.loosen (s : State) (n k : Nat) : State :=
  (s.wrAt Reg.demod_AGE n (k - 1) 255).updAct n (fun a => { a with unconfirmed := a.unconfirmed ||| BitVec.ofNat 11 (2 ^ k) })

/-- A write of RAD_OFS: on the selected head the target moves (R175, R184). -/
def execRadOfs (n : Act) (k : Fin 10) (writer : Initiator) (value : BitVec 16) (s : State) : Res :=
  .next (s.guard writer (Reg.demod_RAD_OFS.addr n k) (fun s =>
    let s := (s.wrAt Reg.demod_RAD_OFS n k (value.setWidth 32)).loosen n (k + 1)
    if s.rdN Reg.demod_SEL_HEAD n = k.val + 1 then s.setTarget n else s))

def execTimOfs (n : Act) (k : Fin 10) (writer : Initiator) (value : BitVec 20) (s : State) : Res :=
  .next (s.guard writer (Reg.demod_TIM_OFS.addr n k) (fun s =>
    let s := (s.wrAt Reg.demod_TIM_OFS n k (value.setWidth 32)).loosen n (k + 1)
    s.clkFollow n))

/-! ### The write gate (R269 to R273, R278) -/

/-- The conditions of R269 on frame F − 1, beside the window's own: the first that fails as its CLOSE_CAUSE, 0 for none, and
whether one fails that closes an armed frame (R271). DEDUCED: log 51. -/
def State.gateCause (s : State) (n : Nat) (r : FrameRec) (before : Option FrameRec) (head : Nat) : Nat × Bool :=
  let tol : Int := s.wgTol n
  let bad := !r.valid || r.coarse
  let pes : Bool := !bad && decide (tol < r.pes.natAbs)
  let pair := match before with | some b => b.valid && !b.coarse && b.no + 1 == r.no | none => false
  let pairCounted := match before with | some b => b.counted | none => false
  let next := s.rdInt Reg.demod_PES_NEXT n 0
  let spin := !(s.spindleOk n)
  let flt := s.gateFault n
  let laser : Bool := match s.desc (hdaOf n) with | some d => d.assistType == 1 | none => false
  let assist := laser && (s.loopMode (laserLoop n) == 4 || s.loopMode (laserLoop n) == 5)
  let conds : List (Nat × Bool) :=
    [(3, bad), (7, s.rdB Reg.demod_SPEC_TARGET n || !r.counted), (1, pes), (3, !pair), (7, !pairCounted),
     (2, decide (tol < next.natAbs)), (4, decide (2 < (s.rdAt Reg.demod_AGE n (head - 1)).toNat)), (5, spin), (6, flt), (8, assist)]
  ((match conds.find? (·.2) with | some c => c.1 | none => 0), bad || pes || spin || flt)

/-- Frame f holds bits or pre-roll bits of a window (R269). -/
def WinSt.covers (w : WinSt) (f : Word) : Bool := !w.dead && !(frameBefore f w.armFrom) && !(frameBefore w.lastFrame f)

/-- The neighbour check of R273 after a WG_CLOSE above WG_DAMAGE. -/
def State.damageCheck (s : State) (n : Nat) (w : WinSt) (pes : Int) : State :=
  let dmg := s.rdN Reg.wa_WG_DAMAGE n
  if dmg = 0 ∨ pes.natAbs ≤ dmg ∨ (pes < 0 ∧ w.track = 0) then s
  else
    match s.sideDesc n with
    | none => s
    | some d =>
      let t := if pes < 0 then w.track - 1 else w.track + 1
      let ratio := match d.zoneOfTrack t with | some z => z.ratio | none => 0
      let tim := s.rdInt Reg.demod_TIM_OFS n (w.head - 1)
      let f := (s.act n).index
      let hit := (List.range (d.spt t)).filter (fun i =>
        let a := bitFrame d ratio tim (sectorFirst i)
        let b := bitFrame d ratio tim (sectorFirst i + sectorBits - 1)
        a == f || b == f || (a < f && f < b))
      let lbas := (hit.filterMap (fun i => d.posLba w.head t i)).filter (fun p => p.1 == w.conv
        && (p.1 || decide (zoneOfs p.2 < (s.zone n (zoneOf p.2)).mwp)))
      match lbas with
      | [] => s
      | p :: _ =>
        let hi := (lbas.map (·.2)).foldl max p.2
        let lo := (lbas.map (·.2)).foldl min p.2
        (s.mqWait n (bgEntry 1 w.conv lo (hi + 1 - lo) s.host.stamp .check)).bump Reg.wa_DAMAGE_CHK_CNT n

/-- The laser instance passes to automatic at the window's first armed frame (R278, R298). -/
def State.laserStart (s : State) (n : Nat) (w : WinSt) : State :=
  let g := laserLoop n
  let laser : Bool := match s.desc (hdaOf n) with | some d => d.assistType == 1 | none => false
  if laser ∧ s.loopMode g = 1 ∧ s.rdB Reg.wa_LASER_AUTO n = false then
    let s := (s.wr Reg.loop_Y g (F32.ofInt (w.entry.getD 6 0))).setMode g 2
    (s.updLoop g (fun l => { l with presetPend := true, age := 0 })).wr Reg.wa_LASER_AUTO n 1
  else s

/-- The gate evaluates frame F = this one + 1, and closes this one where it fails. DEDUCED: log 51. -/
def State.gateEval (s : State) (n : Nat) (r : FrameRec) (before : Option FrameRec) : State :=
  let a := s.act n
  let f := r.no + 1
  let win := (a.win.toList ++ a.winQueue).find? (fun w => w.covers f)
  let cur := (a.win.toList ++ a.winQueue).find? (fun w => w.covers r.no)
  -- an arm withheld from a frame that holds bits ends the window at the head-end (R126); the later ones wait for a new one
  let cut (s : State) : State := if win.any (fun w => !(frameBefore f w.frameNo)) then s.updAct n (fun a => { a with
      win := a.win.map (fun w => { w with dead := true }), winQueue := a.winQueue.map (fun w => { w with dead := true }) }) else s
  let head := match win, cur with | some w, _ => w.head | none, some w => w.head | none, none => s.rdN Reg.demod_SEL_HEAD n
  let (cause, hard) := s.gateCause n r before head
  let armed := a.armed == some r.no || a.armed == some f
  let s := if hard ∧ armed then
      let s := s.gateClose n cause
      match cur with
      | some w => if r.valid ∧ !r.coarse ∧ a.armed = some r.no then s.damageCheck n w r.pes else s
      | none => s
    else s
  if cause ≠ 0 then
    let s := s.updAct n (fun a => { a with goodRun := 0, reopening := a.reopening || win.isSome })
    if win.isSome then cut ((s.wrN Reg.wa_CLOSE_CAUSE n cause).trace 4 .armWithheld n [cause]) else s
  else
    let s := s.updAct n (fun a => { a with goodRun := a.goodRun + 1 })
    let need := max 1 (s.rdN Reg.wa_REOPEN_FRAMES n)
    let s := if need ≤ (s.act n).goodRun then s.updAct n (fun a => { a with reopening := false }) else s
    match win with
    | some w =>
      if (s.act n).reopening ∨ s.up (hdaOf n) = false ∨ a.synced = false then cut s
      else
        let x := sideOf n
        let s := (s.ctl (hdaOf n) 0x03 x ([x, 0] ++ wBytes f)).bump Reg.wa_ARM_CNT n
        let s := s.updAct n (fun a => { a with armed := some f })
        s.laserStart n w
    | none => s

/-! ### Run-ahead settlement (R201) -/

/-- A write or zone reset is admitted for the LBA, or the buffer holds it. -/
def State.newerData (s : State) (n : Nat) (conv : Bool) (lba : Nat) : Bool :=
  s.buf.any (fun g => g.tag.act == n && g.tag.nsConv == conv && g.tag.lba == lba && !g.written)
    || s.host.places.any (fun p => p.act == n && p.conv == conv && p.lba == lba)
    || (s.act n).mq.any (fun e => e.nsConv == conv && (e.opc == 2 || e.opc == 3) && e.lba ≤ lba && lba < e.lba + e.count)
    || s.host.waiting.any (fun e => e.1 == n && e.2.nsConv == conv && (e.2.opc == 2 || e.2.opc == 3) && e.2.lba ≤ lba && lba < e.2.lba + e.2.count)

/-- A settled grain enters the read cache, at a free index of partition 6; with none free the oldest grain makes room.
DESIGN CHOICE: log 184. -/
def State.cachePut (s : State) (l : List CacheGrain) (t : Tag) (payload : List Byte) : State :=
  let l := if s.grainCount 6 ≤ l.length then l.drop (l.length + 1 - s.grainCount 6) else l
  let x := freePlace (l.map (·.place))
  ({ s with cache := l ++ [⟨t, x⟩] } : State).putGrain idThresher 6 x t payload

/-- Run-ahead sectors whose position is decided: confirmed ones with SEAL_OK settle into the read cache. -/
def State.raSettle (s : State) (n : Nat) (ep : BitVec 16) : State :=
  ((s.act n).pend.filter (fun p => p.epoch == ep)).foldl (fun s p =>
    match s.confirmState n p with
    | none => s
    | some ok =>
      let lba := p.lba.getD 0
      let mine (g : Grain) : Bool := g.tag.act == n && g.tag.spec && g.tag.epoch == ep && g.tag.sector == p.sector && g.tag.track == p.track
      let s := s.updAct n (fun a => { a with pend := a.pend.filter (fun x => x != p) })
      match s.held.find? mine with
      | some g =>
        let s := { s with held := s.held.filter (fun g => !(mine g)) }
        if ok ∧ g.tag.sealOk ∧ s.newerData n g.tag.nsConv lba = false then
          let keep (c : CacheGrain) : Bool := !(c.tag.act == n && c.tag.nsConv == g.tag.nsConv && c.tag.lba == lba)
          (s.cachePut (s.cache.filter keep) { g.tag with spec := false } g.payload).bump Reg.engine_RA_SETTLED_CNT (s.engine n)
        else s
      | none => s) s

/-- No further sector of the span of confirmation epoch `ep` is to come (R200). -/
def State.spanWhole (s : State) (n : Nat) (ep : BitVec 16) : Bool :=
  match (s.act n).op with
  | some o => o.confEpoch != some ep || decide (s.confSpan (s.engine n) ≤ o.spanDone) || decide (o.count ≤ o.done)
  | none => true

/-- Sectors whose frames are judged are decided: confirmation epochs (R200) and run-ahead (R201). -/
def State.confirmAll (s : State) (n : Nat) : State :=
  let e := s.engine n
  (List.range 4).foldl (fun s i =>
    if s.slotOpen e i then
      let ep := s.slotEpoch e i
      if s.slotSrc e i = 2 then s.spanDecide n ep (s.spanWhole n ep)
      else if s.slotSrc e i = 1 then s.raSettle n ep else s
    else s) s

/-! ### One frame -/

/-- ACQUIRE: 3 consecutive valid frames with consecutive INDEX (R165); FRAME_SET is due in the next frame, and FRAME_NO counts from the INDEX of
this one (R166). DEDUCED: log 44. -/
def State.acquire (s : State) (n : Nat) (o : TransitObs) (valid : Bool) : State :=
  let a := s.act n
  let i := (indexOf o.index).getD 0
  let run := if valid then (if a.validRun = 0 ∨ i ≠ a.index then 1 else a.validRun + 1) else 0
  let s := s.updAct n (fun a => { a with validRun := run, index := if valid then i else a.index })
  if run < 3 then s
  else
    let s := (s.wr Reg.demod_STATE n 2).wr Reg.demod_MISS_RUN n 0
    let s := s.updAct n (fun a => { a with
      frameNo := BitVec.ofNat 32 i, validRun := 0, synced := false, frameSetDue := true, clkAt := none, havePos := false, posGap := 0, recent := [] })
    s.trace 1 .demodState n [2]

/-- A valid frame in TRACK or COAST (R163, R164, R177, R178, R179). DEDUCED: log 46. -/
def State.validFrame (s : State) (n : Nat) (pos : Int) : State :=
  let a := s.act n
  let coarse := s.rdB Reg.demod_COARSE n
  let old := s.rdInt Reg.demod_POS n 0
  let oldPes := s.rdInt Reg.demod_PES n 0
  let gap := if a.havePos then (a.frameNo - s.rd Reg.demod_POS_FRAME n).toNat else 0
  let pes := pos - s.rdInt Reg.demod_TARGET n 0
  let s := (s.wr Reg.demod_POS n (toW pos)).wr Reg.demod_POS_FRAME n a.frameNo
  let s := s.wrInt Reg.demod_PES n 0 (sat16 pes)
  let s := s.wrInt Reg.demod_PES_NEXT n 0 (sat16 (2 * pes - (if a.havePos then oldPes else pes)))
  let s := s.wr Reg.demod_MISS_RUN n 0
  -- the radial speed over the frames since the last valid one, against COARSE_VEL tracks per frame
  let far := if a.havePos then (pos - old).natAbs else 0
  let lim := s.rdN Reg.demod_COARSE_VEL n * 256 * gap
  let s := s.wrB Reg.demod_COARSE n (if coarse then decide (lim ≤ 2 * far) else decide (lim < far))
  let tol := s.rdN Reg.demod_SETTLE_TOL n
  let s := if coarse ∨ tol < pes.natAbs then (s.wr Reg.demod_ON_TRACK n 0).updAct n (fun a => { a with onRun := 0 })
           else
             let s := s.updAct n (fun a => { a with onRun := a.onRun + 1 })
             if max 1 (s.rdN Reg.demod_SETTLE_FRAMES n) ≤ (s.act n).onRun then s.wr Reg.demod_ON_TRACK n 1 else s
  let run := if s.rdN Reg.demod_STATE n = 3 then a.validRun + 1 else 0
  let s := s.updAct n (fun a => { a with
    posPrev := old, havePos := true, posGap := gap, validRun := run, maWait := a.maWait && decide (s.rdN Reg.demod_MA_RANGE n < pes.natAbs),
    recent := ((⟨a.frameNo, true, coarse, a.committed, sat16 pes⟩ : FrameRec) :: a.recent).take 64 })
  -- POS reaches the VCM and MA instances with FRAME_TS = FRAME_NO (R163)
  let s := (s.loopFeed (vcmLoop n) a.frameNo).loopFeed (maLoop n) a.frameNo
  let s := s.seekEnd n
  if s.rdN Reg.demod_STATE n = 3 ∧ 2 ≤ run then
    ((s.wr Reg.demod_STATE n 2).updAct n (fun a => { a with validRun := 0 })).trace 1 .demodState n [2]
  else s

/-- An invalid frame in TRACK or COAST (R165, R167, R179). -/
def State.invalidFrame (s : State) (n : Nat) : State :=
  let s := (s.bump Reg.demod_MISS_CNT n).bump Reg.demod_MISS_RUN n
  let s := s.wr Reg.demod_ON_TRACK n 0
  let coarse := s.rdB Reg.demod_COARSE n
  let s := s.updAct n (fun a => { a with
    onRun := 0, validRun := 0,
    recent := ((⟨a.frameNo, false, coarse, a.committed, 0⟩ : FrameRec) :: a.recent).take 64 })
  if s.rdN Reg.demod_STATE n = 2 then (s.wr Reg.demod_STATE n 3).trace 1 .demodState n [3] else s

end Sys2Proof.Machine
end

