-- ==== Sys2Proof/Machine/WriteAssist.lean ====
section
/-!
DEFINITION. Machine/WriteAssist.lean: the write path of 10_write_and_assist.md: write operations and their windows, WDONE and
ERR, the write parameter table, and the end of a window with its AGING update.
-/

namespace Sys2Proof.Machine

/-! ### What a sector takes (R249, R260, R264, R265) -/

/-- What one physical sector of a write operation carries: the LBA position of a data sector, its stored payload and seal. -/
structure SectorOut where
  pos : Option Nat
  channel : List Byte
  deriving DecidableEq, Repr

/-- A media key encrypts the stored payload where the namespace has one (R69, R260). -/
def State.stored (s : State) (n : Nat) (conv : Bool) (lba : Nat) (payload : List Byte) : List Byte :=
  match s.husk.keySlots.lookup (if conv then convNs n else zonedNs n) with
  | some k => Config.xtsEncrypt k lba payload
  | none => payload

/-- The LBA whose data position `pos` of a namespace holds: a conventional spare holds the LBA its relocation names, and a
relocated conventional LBA leaves its own position (R249, R250). -/
def State.posOwner (s : State) (n : Nat) (conv : Bool) (pos : Nat) : Option Nat :=
  match (s.led n).remap.find? (fun e => e.conv == conv && s.sparePos n e == pos) with
  | some e => some e.lba
  | none =>
    match s.remapOf n conv pos with
    | some e => if conv ∨ e.written then none else some pos
    | none => some pos

/-- The accumulators of a zone's open segment (R268). -/
def State.acc (s : State) (n z : Nat) : List Byte × List Byte := ((s.act n).accs.lookup z).getD parityZero

/-- Channel bytes of the sectors FIRST to FIRST + COUNT − 1 of a track, none where one of them may not be written by this
entry; `mwp` is the next zoned position, `acc` the running parity. -/
def State.buildSectors (s : State) (n : Nat) (d : SideDesc) (x : MqEntry) (k t i count : Nat) (mwp : Nat)
    (acc : List Byte × List Byte) : Option (List SectorOut) :=
  match count with
  | 0 => some []
  | count + 1 =>
    let spt := d.spt t
    if spt ≤ i then none
    else
      let seg := i / 50
      match dataIndex spt i with
      | none =>
        -- a parity sector of the segment
        let q := i - segParity spt seg
        let payload := match x.work with
          | .erase => []
          | .parity => let p := if x.nsConv then s.gathered n k t seg else acc; if q = 0 then p.1 else p.2
          | _ => if q = 0 then acc.1 else acc.2
        let ch := if x.work = .erase then sectorErased else sectorChannel i payload (sealParity k t seg q)
        let acc := if q = 1 then parityZero else acc
        (s.buildSectors n d x k t (i + 1) count mwp acc).map (fun r => ⟨none, ch⟩ :: r)
      | some _ =>
        match x.work, d.posLba k t i with
        | .erase, p =>
          let ok := match p with | some (c, l) => !c && zoneOf l == zoneOf x.lba | none => true
          if ok then (s.buildSectors n d x k t (i + 1) count mwp acc).map (fun r => ⟨p.map (·.2), sectorErased⟩ :: r) else none
        | .spare, some (c, l) =>
          match (s.led n).remap.find? (fun e => e.conv == x.nsConv && s.sparePos n e == x.lba && !e.written) with
          | some e =>
            if c = x.nsConv ∧ l = x.lba then
              let b := s.stored n c e.lba e.payload
              let acc := if c then acc else parityAdd (if i % 50 = 0 then parityZero else acc) (i % 50) b
              (s.buildSectors n d x k t (i + 1) count mwp acc).map (fun r => ⟨some l, sectorChannel i b (sealLba c e.lba)⟩ :: r)
            else none
          | none => none
        | .gap, some (c, l) =>
          if c = false ∧ l = mwp ∧ x.lba ≤ l ∧ l < x.lba + x.count then
            let b := s.stored n false l (List.replicate 4096 0)
            (s.buildSectors n d x k t (i + 1) count (mwp + 1) (parityAdd (if i % 50 = 0 then parityZero else acc) (i % 50) b)).map
              (fun r => ⟨some l, sectorChannel i b (sealLba false l)⟩ :: r)
          else none
        | .host, some (c, l) =>
          match s.posOwner n c l with
          | some own =>
            match s.bufFind n c own (x.stamp + 1) with
            | some g =>
              if c = x.nsConv ∧ x.lba ≤ own ∧ own < x.lba + x.count ∧ g.tag.stamp = x.stamp ∧ (c = true ∨ l = mwp) then
                let b := s.stored n c own (s.grainBytes 0 g.place)
                let acc := if c then acc else parityAdd (if i % 50 = 0 then parityZero else acc) (i % 50) b
                (s.buildSectors n d x k t (i + 1) count (mwp + 1) acc).map (fun r => ⟨some own, sectorChannel i b (sealLba c own)⟩ :: r)
              else none
            | none => none
          | none => none
        | _, _ => none

/-! ### Windows (R125, R127, R261, R262, R274 to R277) -/

/-- The starting level of a window (R277): LEVEL × AGING rounded on a laser HDA, at most MAX_LEVEL; AGING that is no number
gives a free value (log 20). -/
def State.startLevel (s : State) (n k level : Nat) (laser : Bool) : Nat :=
  let top := s.maxLevel (hdaOf n)
  let a := s.rdAt Reg.wa_AGING n (k - 1)
  if laser = false then level
  else if F32.bad a then min (Config.freeNat s.fresh) top
  else min (((2 * (level : Int) * F32.val a + 2 ^ 149).fdiv (2 ^ 150)).toNat) top

/-- WR_LEAD, at least 2 (R286). -/
def State.wrLead (s : State) (n : Nat) : Nat := max 2 (s.rdN Reg.wa_WR_LEAD n)

/-- The next FRAME_NO with INDEX f whose marker can still be sent in time (R262). -/
def nextFrame (cur : Word) (lead f : Nat) : Word :=
  let base := cur.toNat + 1 + lead
  cur + BitVec.ofNat 32 (1 + lead + (f + 1800 - base % 1800) % 1800)

/-- One window of the operation: the GAIN word where the write current changes, the AST frame, the marker and the data
frames, each as credits allow (R262). DESIGN CHOICE: log 130. -/
def State.sendWindow (s : State) (n : Nat) (d : SideDesc) (x : MqEntry) (k t i : Nat) (e : List Nat) (out : List SectorOut)
    (cur : Word) : State :=
  let h := hdaOf n
  let side := sideOf n
  let ratio := match d.zoneOfTrack t with | some z => z.ratio | none => 0
  let tim := s.rdInt Reg.demod_TIM_OFS n (k - 1)
  let b := sectorFirst i
  let len := out.length * sectorBits
  let f := bitFrame d ratio tim b
  let frame := nextFrame cur (s.wrLead n) f
  let laser : Bool := match s.desc h with | some q => q.assistType == 1 | none => false
  let pre := if i % 32 = 0 then 0 else e.getD 3 0
  let level := s.startLevel n k (e.getD 4 0) laser
  let s := s.tick
  let fOf (bit : Nat) : Word := frame + BitVec.ofNat 32 ((bitFrame d ratio tim bit + 1800 - f) % 1800)
  let preF : Word := frame - BitVec.ofNat 32 ((f + 1800 - bitFrame d ratio tim (b - pre)) % 1800)
  let id := (s.act n).nextWin
  let wc := e.getD 0 0
  let s := if (s.act n).curWc = some wc ∨ s.rdB Reg.wa_WINDOW n then s
           else (s.ctl h 0x08 side [side, 3, wc]).updAct n (fun a => { a with curWc := some wc })
  let ast := toLe 2 id.toNat ++ toLe 1 (if laser then 1 else 2) ++ toLe 1 (if laser then e.getD 1 0 else 0)
    ++ toLe 1 (if laser then e.getD 2 0 else 0) ++ toLe 1 pre ++ toLe 2 level ++ List.replicate 22 0
  let mark := toLe 4 frame.toNat ++ toLe 4 (bitOfs d ratio tim b) ++ toLe 1 k ++ toLe 1 0 ++ toLe 4 len ++ toLe 2 id.toNat
    ++ List.replicate 14 0
  let data := toFrames (out.flatMap (·.channel)) (len / 240 + 1)
  let w : WinSt := ⟨id, k, t, i, out.length, frame, bitOfs d ratio tim b, fOf (b + len - 1), preF, x.nsConv, out.map (·.pos),
    x.work, x.idx, x.stamp, x.prio, false, e ++ [level], 0, [], 0⟩
  let s := s.updAct n (fun a => { a with
    nextWin := a.nextWin + 1,
    win := if a.win.isNone then some w else a.win, winQueue := if a.win.isNone then a.winQueue else a.winQueue ++ [w],
    wrtWait := a.wrtWait ++ [(id, true, 8, ast), (id, true, 7, mark)] ++ data.map (fun p => (id, false, 7, p)) })
  let s := (s.wrN Reg.wa_WR_HEAD n k).wrN Reg.wa_LAST_WIN_ID n id.toNat
  s.wrtDrain n (s.act n).wrtWait.length

/-- The windows of an operation, one per 32-sector group (R261). Its grains cross into the actuator's Awn quadrant; a dead one takes none of them
(R20). -/
def State.sendWindows (s : State) (n : Nat) (d : SideDesc) (x : MqEntry) (k t i : Nat) (e : List Nat) (out : List SectorOut)
    (fuel : Nat) : State :=
  match fuel with
  | 0 => s
  | fuel + 1 =>
    if out = [] then s
    else if s.islandDead (8 + n / 16) then s.routeDrop (8 + n / 16)
    else
      let c := 32 - i % 32
      let cur := match (s.act n).winQueue.getLast?, (s.act n).win with
        | some w, _ => w.lastFrame - BitVec.ofNat 32 (s.wrLead n + 1)
        | none, some w => w.lastFrame - BitVec.ofNat 32 (s.wrLead n + 1)
        | none, none => (s.act n).frameNo
      -- no window before the boundary of a pending CLK_SET (R172)
      let cur := match (s.act n).clkAt with
        | some f => let c := f - BitVec.ofNat 32 (s.wrLead n + 1); if frameBefore cur c then c else cur
        | none => cur
      (s.sendWindow n d x k t i e (out.take c) cur).sendWindows n d x k t (i + c) e (out.drop c) fuel

/-- Grains of the entry whose TAG_CRC fails as the write path takes them (R14, R260, R266). -/
def State.checkTags (s : State) (n : Nat) (x : MqEntry) : State :=
  (s.buf.filter (fun g => g.tag.act == n && g.tag.nsConv == x.nsConv && g.tag.stamp == x.stamp && !g.written)).foldl (fun s g =>
    if s.grainGood 0 g.place then (match s.injTake 0x0700 n with | some s => s.badGrain 0x0700 n g true | none => s)
    else s.badGrain 0x0700 n g) s

/-- The Tiller engine writes HEAD, TRACK and SECTOR into the tags of the grains it schedules, TAG_CRC with them (R13). -/
def State.tagPlaces (s : State) (e n : Nat) (x : MqEntry) (k t i : Nat) (out : List SectorOut) : State :=
  s.buf.foldl (fun s g =>
    match out.findIdx? (fun o => o.pos == some g.tag.lba) with
    | some j =>
      if g.tag.act = n ∧ g.tag.nsConv = x.nsConv ∧ g.tag.stamp = x.stamp then
        let t' : Tag := { g.tag with head := k, track := t, sector := i + j }
        ({ s with buf := s.buf.map (fun y => if y.place = g.place then { y with tag := t' } else y) } : State).putTag (idEngine e) 0 g.place t'
      else s
    | none => s) s

def State.opWrite (e n : Nat) (s : State) : State :=
    match (s.act n).mq.find? (fun x => x.idx == s.opEntry e && x.opc == 2), s.sideDesc n with
    | some x, some d =>
      if s.descOk e n true = false then s.opStatus e 5
      else if s.opSpec e ∨ (s.openOfSrc e 3).isSome then (s.opStatus e 4).bump Reg.engine_WR_REFUSED_CNT e
      else
        -- a conventional spare whose remap entry is not yet durable is not written again (R249), nor a zone whose accumulators are lost (R268)
        let held := (!x.nsConv && (x.work == .host || x.work == .spare || x.work == .gap) && (s.accNeed n (zoneOf x.lba)).isSome) || x.nsConv
            && (s.led n).remap.any (fun r => r.conv && r.written && !r.durable && x.lba ≤ r.lba && r.lba < x.lba + x.count)
        let c := if held then 3 else s.entryCheck n x
        if c ≠ 0 then s.opStatus e c
        -- a position instance in TUNE bars writes (R301)
        else if s.mediaBarred n ∨ s.loopMode (vcmLoop n) = 3 ∨ s.loopMode (maLoop n) = 3 then s.opStatus e 5
        else
          let k := s.opHead e
          let t := s.opTrack e
          match s.wtEntry n k t with
          | none => (s.opStatus e 5).bump Reg.wa_WT_INVALID_CNT n
          | some ent =>
            let s := s.checkTags n x
            let z := zoneOf x.lba
            match s.buildSectors n d x k t (s.opFirst e) (s.opCount e) (z * 65536 + (s.zone n z).mwp) (s.acc n z) with
            | none => s.opStatus e 5
            | some out =>
              let s := s.selectHead n k t
              let s := s.opStart n ⟨2, k, x.idx, t, s.opFirst e, s.opCount e, 0, false, 0, none, 0, none⟩
              (s.tagPlaces e n x k t (s.opFirst e) out).sendWindows n d x k t (s.opFirst e) ent out out.length
    | _, _ => s.opStatus e 5

/-- The operation that OP_DESC describes (R204): an OPC that names none is a descriptor error. -/
def State.opSubmit (s : State) (e n : Nat) : State :=
  match s.opDesc e 0 % 16 with
  | 1 => s.opRead e n
  | 2 => s.opWrite e n
  | 3 => s.opSeek e n
  | 4 => s.opRunahead e n
  | _ => s.opStatus e 5

/-- OP_GO reaches the sequencer: ignored while busy (R205) or on an unbound engine; held while a recovery operation waits or the media
credit is used up (R242, R424). -/
def State.opGo (s : State) (e : Nat) (writer : Initiator) : State :=
  s.guard writer (Reg.engine_OP_GO.addr e 0) (fun s =>
    match s.engAct e with
    | some n =>
      if s.rdB Reg.engine_OP_BUSY e then s
      else if s.recWaits n ∨ (s.creditOut n ∧ s.mediaBarred n = false) then (s.wr Reg.engine_OP_BUSY e 1).updAct n (fun a => { a with heldGo := true })
      else s.opSubmit e n
    | none => s)

def execOpRead (e : Eng) (writer : Initiator) (s : State) : Res := .next (s.opGo e writer)

def execOpWrite (e : Eng) (writer : Initiator) (s : State) : Res := .next (s.opGo e writer)

def execOpSeek (e : Eng) (writer : Initiator) (s : State) : Res := .next (s.opGo e writer)

def execOpRunaheadRead (e : Eng) (writer : Initiator) (s : State) : Res := .next (s.opGo e writer)

/-- An OP_GO held for a recovery operation or for media credit starts once neither keeps it (R242, R424). DEDUCED: log 86. -/
def State.resumeGo (s : State) (n : Nat) : State :=
  if (s.act n).heldGo = false ∨ (s.act n).op.isSome ∨ s.recWaits n ∨ s.creditOut n then s
  else
    let e := s.engine n
    ((s.wr Reg.engine_OP_BUSY e 0).updAct n (fun a => { a with heldGo := false })).opSubmit e n

/-! ### One transit frame -/

def execTransitFrame (n : Act) (o : TransitObs) (s : State) : Res :=
  .next (
    let d := s.rdN Reg.demod_STATE n
    match s.sideDesc n with
    | none => s
    | some sd =>
      if d = 0 ∨ d = 4 then s
      else
        let s := s.wrB Reg.demod_TONE_LOCK n o.toneLock
        let (valid, pos, tidErr) := s.judge n sd o
        let s := if tidErr then s.bump Reg.demod_TID_ERR_CNT n else s
        if d = 1 then s.acquire n o valid
        else
          let s := s.measurePeriod n o.periodPs
          let before := (s.act n).recent.head?
          let s := if valid then s.validFrame n pos else s.invalidFrame n
          let s := match (s.act n).recent with
            | r :: _ => s.gateEval n r before
            | [] => s
          let s := s.confirmAll n
          if s.rdN Reg.demod_STATE n = 3 ∧ s.rdN Reg.demod_MISS_RUN n = 4 then s.enterLost n else (s.recIssue n).resumeGo n)

/-! ### The end of windows (R262, R263, R265, R268, R275, R278, R279, R286) -/

/-- A waiting WT_COMMIT takes effect once no window runs (R286). -/
def State.wtCommitTry (s : State) (n : Nat) : State :=
  if s.rdB Reg.wa_WT_PEND n ∧ (s.act n).win.isNone then
    (s.updAct n (fun a => { a with table := a.shadowTable })).wr Reg.wa_WT_PEND n 0
  else s

/-- AGING after a window (R279): float32, a result the spec does not state is a free value. DESIGN CHOICE: log 20. -/
def State.ageHead (s : State) (n : Nat) (w : WinSt) : State :=
  let k := w.head
  if w.autoFrames < 8 then s
  else
    let lev := F32.ofInt (w.entry.getD 4 0)
    let sum := w.outs.foldl (fun a o => F32.add? a (some o)) (some 0)
    let r := F32.div? (F32.div? sum (some 0x40800000)) (some lev)
    let a := s.rdAt Reg.wa_AGING n (k - 1)
    let v := (F32.add? (some a) (F32.div? (F32.sub? r (some a)) (some 0x41800000))).bind (fun x =>
      (F32.max x 0x3F000000).bind (fun y => F32.min y 0x40000000))
    let s := s.wrAt Reg.wa_AGING n (k - 1) (v.getD (Config.freeWord s.fresh))
    let s := s.tick
    if F32.lt 0x3FA00000 (s.rdAt Reg.wa_AGING n (k - 1)) ∧ (s.act n).agingSeen.getLsbD k = false then
      (s.updAct n (fun a => { a with agingSeen := a.agingSeen ||| BitVec.ofNat 11 (2 ^ k) })).audit 4 .aging n [n, k]
    else s

/-- The window in hand has no further arm; the laser goes back to manual at 0 (R278). An arm for a frame after its last one
stays, and the laser then starts for that frame's window. DEDUCED: log 145. -/
def State.windowEnd (s : State) (n : Nat) : State :=
  match (s.act n).win with
  | some w =>
    let s := (s.laserManual n).ageHead n w
    let s := s.wr Reg.wa_WINDOW n 0
    let s := s.updAct n (fun a => { a with
      win := a.win.map (fun x => { x with dead := true, autoFrames := 0, outs := [] }),
      armed := a.armed.filter (fun f => frameBefore w.lastFrame f) })
    match (s.act n).armed.bind (fun f => (s.act n).winQueue.find? (fun x => x.covers f)) with
    | some x => s.laserStart n x
    | none => s
  | none => s

def execWindowEnd (n : Act) (s : State) : Res := .next (s.windowEnd n)

/-- Take a window away; the next one moves up, and with none left the operation ends. -/
def State.dropWindow (s : State) (n : Nat) (id : BitVec 16) : State :=
  let s := s.updAct n (fun a =>
    let all := (a.win.toList ++ a.winQueue).filter (fun w => w.id != id)
    { a with win := all.head?, winQueue := all.tail, wrtWait := a.wrtWait.filter (fun f => f.1 != id) })
  let s := if (s.act n).win.isNone then
      let s := s.wr Reg.wa_WINDOW n 0
      match (s.act n).op with
      | some o => if o.opc = 2 then s.endWork n else s
      | none => s
    else s
  s.wtCommitTry n

/-- A data sector of a host window is on the media: its grain is freed, unless a read pins it (R263, R265, R268, R347). -/
def State.sectorWritten (s : State) (n : Nat) (w : WinSt) (i lba : Nat) : State :=
  let mine (g : BufGrain) : Bool := g.tag.act == n && g.tag.nsConv == w.conv && g.tag.lba == lba && g.tag.stamp == w.stamp
  -- a gap of the zone is filled with zeros (R448)
  let payload := match s.buf.find? mine with | some g => s.grainBytes 0 g.place | none => List.replicate 4096 0
  let s : State := { s with buf := s.buf.filterMap (fun g => if mine g then (if s.pinned g then some { g with written := true } else none) else some g) }
  let s := (s.mqDone n w.mqIdx [lba]).bufRefresh
  if w.conv then
    -- a write that goes to a spare still unwritten settles its relocation (R249)
    let s := match s.remapOf n true lba with
      | some e => if e.written then s else
          ((s.updLed n (fun l => { l with remap := l.remap.map (fun x => if x = e then { x with written := true, payload := [] } else x) })).bump
            Reg.poolAct_REALLOC_CNT n).stage n 1
      | none => s
    s.parityStale n (segKey w.head w.track (i / 50))
  else
    let z := zoneOf lba
    let acc := parityAdd (if i % 50 = 0 then parityZero else s.acc n z) (i % 50) (s.stored n false lba payload)
    let s := s.updAct n (fun a => { a with accs := assocSet a.accs z acc })
    let s := s.setZone n z (fun x => { x with mwp := zoneOfs lba + 1, used := max x.used (zoneOfs lba + 1) })
    if (s.zone n z).mwp = 65408 then (s.zoneMap n z 3).zoneParity n z else s

/-- A spare is on the media (R248, R249, R252): its entry takes effect for reads, and a conventional one is made durable at
once. In a zone it is a write at MWP like those before it (R265, R268). DEDUCED: log 32. -/
def State.spareWritten (s : State) (n : Nat) (w : WinSt) (i pos : Nat) : State :=
  let mine (e : RemapEnt) : Bool := e.conv == w.conv && s.sparePos n e == pos && !e.written
  let stored := match (s.led n).remap.find? mine with | some e => s.stored n w.conv e.lba e.payload | none => []
  let s := s.updLed n (fun l => { l with remap := l.remap.map (fun e => if mine e then { e with written := true, payload := [] } else e) })
  let s := s.bump Reg.poolAct_REALLOC_CNT n
  let s := (s.mqDone n w.mqIdx [pos]).stage n 1
  if w.conv then s.parityStale n (segKey w.head w.track (i / 50))
  else
    let z := zoneOf pos
    let acc := parityAdd (if i % 50 = 0 then parityZero else s.acc n z) (i % 50) stored
    let s := s.updAct n (fun a => { a with accs := assocSet a.accs z acc })
    let s := s.setZone n z (fun x => { x with mwp := if x.mwp = zoneOfs pos then x.mwp + 1 else x.mwp, used := max x.used (zoneOfs pos + 1) })
    s.zoneParity n z

/-- An erase entry has left the queue: the zone is erased, or written where a write waits (R374, R375). -/
def State.eraseDone (s : State) (n z : Nat) : State :=
  if s.eraseQueued n z then s
  else
    let s := s.setZone n z (fun x => { x with used := 0 })
    let s := s.zoneMap n z (if s.zoneBusy n z ∨ (s.zone n z).hwp ≠ 0 then 2 else 0)
    s.eraseNext n

/-- One covered sector of a window. -/
def State.coverSector (s : State) (n : Nat) (w : WinSt) (i : Nat) (pos : Option Nat) : State :=
  match w.task, pos with
  | .host, some lba | .gap, some lba => s.sectorWritten n w i lba
  | .host, none | .gap, none | .spare, none => -- the segment's parity is written: its accumulators start again
    let inZone (z : Nat) : Bool := w.lbas.any (fun l => match l with | some v => zoneOf v == z | none => false)
    let last := segParity ((s.sideDesc n).map (fun d => d.spt w.track) |>.getD 0) (i / 50) + 1
    if w.conv then s else s.updAct n (fun a => { a with accs := a.accs.filter (fun x => i != last || !inZone x.1) })
  | .spare, some p => s.spareWritten n w i p
  | .erase, some p => (s.mqDone n w.mqIdx [p]).eraseDone n (zoneOf p)
  | .parity, none =>
    match (s.act n).mq.find? (fun x => x.idx == w.mqIdx) with
    | some x =>
      let seg := i / 50
      let s := s.mqDone n w.mqIdx [x.lba + (i - segParity ((s.sideDesc n).map (fun d => d.spt w.track) |>.getD 0) seg)]
      if w.conv = false ∨ (s.act n).mq.any (fun y => y.idx == w.mqIdx) then s
      else
        let key := segKey w.head w.track seg
        (s.updAct n (fun a => { a with
          stale := a.stale.filter (fun y => y != key), gather := a.gather.filter (fun g => segKey g.head g.track (g.sector / 50) != key) })).parityRefresh n
    | none => s
  | _, _ => s

/-- WDONE (R128, R263). -/
def execWdone (h : Hda) (hdr : UpHdr) (side : Fin 2) (winId : BitVec 16) (bits : Word) (s : State) : Res :=
  .next (s.rxCtl h side 0x86 hdr ([side.val, 0] ++ hBytes winId.toNat ++ [0, 0] ++ wBytes bits) (fun s =>
    let n := actOf h side
    match ((s.act n).win.toList ++ (s.act n).winQueue).find? (fun w => w.id == winId) with
    | none => s
    | some w =>
      let s := if (s.act n).win.any (fun x => x.id == winId && !x.dead) then s.windowEnd n else s
      let c := min (bits.toNat / sectorBits) w.sectors
      let s := s.charge n w.prio c
      let s := (List.range c).foldl (fun s j => s.coverSector n w (w.first + j) (w.lbas.getD j none)) s
      let s := if bits.toNat < w.sectors * sectorBits then
          -- the rest, and every later window of the operation, is written again
          let s := s.bump Reg.wa_SHORT_WIN_CNT n
          (s.trace 4 .shortWindow n [winId.toNat, bits.toNat]).updAct n (fun a => { a with winQueue := a.winQueue.map (fun x => { x with dead := true }) })
        else s
      (s.dropWindow n winId).settle))

/-- ERR (R127, R132, R262): a rejected window is requeued; after an underrun its WDONE settles it; a rejected AST leaves the
window without assist; a CTL frame the head-end discarded counts in CTL_CRC_ERR (R155). -/
def execErr (h : Hda) (hdr : UpHdr) (code : Byte) (sid : BitVec 4) (side : Fin 2) (winId : BitVec 16) (s : State) : Res :=
  .next (s.rxCtl h side 0x85 hdr ([code.toNat, sid.toNat, side.val, 0] ++ hBytes winId.toNat) (fun s =>
    let s := if code = 1 then s.bump Reg.port_CTL_CRC_ERR h else s
    let n := actOf h side
    let mine (w : WinSt) : Bool := w.id == winId
    let any := ((s.act n).win.toList ++ (s.act n).winQueue).any mine
    if sid = 7 ∧ any ∧ (code = 5 ∨ code = 3) then
      let s := s.bump Reg.wa_WIN_REJ_CNT n
      let s := s.updAct n (fun a => { a with
        win := a.win.map (fun w => { w with dead := true }), winQueue := a.winQueue.map (fun w => { w with dead := true }) })
      if code = 5 then (s.laserManual n).dropWindow n winId else s
    else if sid = 8 ∧ code = 5 ∧ any then
      let off (w : WinSt) : WinSt := if w.id = winId then { w with entry := [] } else w
      s.updAct n (fun a => { a with win := a.win.map off, winQueue := a.winQueue.map off })
    else s.trace 7 .ctlError h [code.toNat, sid.toNat]))

/-! ### The write parameter table (R286) -/

/-- The shadow word at WT_ADDR is read or written; WT_ADDR moves on by 4. -/
def execWtData (n : Act) (who : Initiator) (value : Option Word) (s : State) : Res :=
  let act (s : State) : State :=
    let a := s.rdN Reg.wa_WT_ADDR n / 4
    -- R429: item 7 keeps the shadow to itself while it is busy
    if s.rdBit Reg.thermAct_CAL_BUSY n 6 ∧ value.isSome then s
    else
    let s := match value with
      | some v => if a < 0xA50 then s.updAct n (fun x => { x with shadowTable := Sparse.write x.shadowTable a 0 v.toNat }) else s
      | none => s.emit (.value who (BitVec.ofNat 32 (Sparse.read (s.act n).shadowTable a 0)))
    s.wrN Reg.wa_WT_ADDR n (4 * a + 4)
  .next (if who.toNat = idHost then s else s.guardAcc who (Reg.wa_WT_DATA.addr n 0) value.isSome act)

def execWtCommit (n : Act) (writer : Initiator) (s : State) : Res :=
  .next (s.guard writer (Reg.wa_WT_COMMIT.addr n 0) (fun s => (s.wr Reg.wa_WT_PEND n 1).wtCommitTry n))

/-! ### Entries reach the sequencer (R342) -/

/-- The oldest waiting entry of an actuator enters its sequencer where there is room. -/
def execMediaQueueEntry (n : Act) (s : State) : Res :=
  .next (
    let mine := s.host.waiting.filter (fun e => e.1 == n.val)
    match mine.foldl (fun (b : Option (Nat × MqEntry)) e => match b with
        | none => some e
        | some x => if e.2.stamp < x.2.stamp then some e else some x) none with
    | none => s
    | some e =>
      if s.str.queue.mediaDepth ≤ (s.act n).mq.length then s
      else
        let s := s.updHost (fun h => { h with waiting := h.waiting.erase e })
        let s := if (s.act n).ready? e.2 then s else s.bump Reg.qce_OVERLAP_HOLD_CNT 0
        (s.mqPut n e.2).settle)

end Sys2Proof.Machine
end

