-- ==== Sys2Proof/Machine/Thresher.lean ====
section
/-!
DEFINITION. Machine/Thresher.lean: the read channel of 08_read_channel.md: a lane's verdict on a sector, its grain or failure
notice, the capture ring, the tap memory, and the sample and motor streams that feed lanes and loops (R122, R123, R129).
-/

namespace Sys2Proof.Machine

/-! ### Tap memory (R217, R218) -/

/-- Halfword `i` of the active tap memory. -/
def LaneSt.tap (l : LaneSt) (i : Nat) : Nat := Sparse.read l.taps i 0

/-- Tap zone of a data zone for head k. -/
def LaneSt.tapZone (l : LaneSt) (k z : Nat) : Option Nat :=
  zoneSlot ((List.range 16).map (fun t => l.tap (0x5A00 + (k - 1) * 16 + t))) z

/-- VALID of a tap record. -/
def LaneSt.tapValid (l : LaneSt) (k kind t : Nat) : Bool := l.tap (((k - 1) * 48 + kind * 16 + t) * 48 + 47) % 2 == 1

def execTapData (l : Lane) (who : Initiator) (value : Option (BitVec 16)) (s : State) : Res :=
  let act (s : State) : State :=
    let a := s.rdN Reg.lane_TAP_ADDR l / 2
    -- bytes from 0xC000 on lie outside the 48 KiB and hold nothing
    -- R429: item 6 keeps the shadow to itself while it is busy
    let busy : Bool := match s.str.actOfLane s.husk.variantH l with | some n => s.rdBit Reg.thermAct_CAL_BUSY n 5 | none => false
    if busy ∧ value.isSome then s
    else
    let s := match value with
      | some v => if a < 0x6000 then s.updLane l (fun x => { x with shadow := Sparse.write x.shadow a 0 v.toNat }) else s
      | none => s.emit (.value who (BitVec.ofNat 32 (Sparse.read (s.lane l).shadow a 0)))
    let s := s.wrB Reg.lane_TAP_PEND l (decide ((s.lane l).shadow ≠ (s.lane l).taps))
    s.wrN Reg.lane_TAP_ADDR l (2 * a + 2)
  .next (if who.toNat = idHost then s else s.guardAcc who (Reg.lane_TAP_DATA.addr l 0) value.isSome act)

/-- The copy at the lane's next sector boundary; between commands every lane stands at one. -/
def execTapCommit (l : Lane) (writer : Initiator) (s : State) : Res :=
  .next (s.guard writer (Reg.lane_TAP_COMMIT.addr l 0) (fun s =>
    -- every halfword of the active memory is written
    let s := (List.range 0x6000).foldl (fun s i => if s.flt.armed = [] ∧ s.flt.injected = [] then s else s.injWrite 0x0A01 l i) s
    (s.updLane l (fun x => { x with taps := x.shadow })).wr Reg.lane_TAP_PEND l 0))

/-! ### Alignments (R222 to R226) -/

/-- Offset from P of the alignments after F, in priority order. -/
def hypOfs : List Int := [0, -1, 1, -2, 2]

/-- Alignments tried, by their place in the priority order (0 is F): `fPass` is whether F passed. -/
def tried (found : Option Int) (hyp fPass : Bool) : List Nat :=
  match found with
  | some f =>
    if hyp = false ∨ fPass then [0]
    else 0 :: (([1, 2, 3, 4, 5] : List Nat).filter (fun i => hypOfs.getD (i - 1) 9 != f))
  | none => if hyp then [1, 2, 3, 4, 5] else [1]

/-- What the lane makes of its alignments. -/
structure Judged where
  mask : Nat
  /-- place and decode of the accepted alignment -/
  accepted : Option (Nat × AlignOutcome)
  multi : Bool
  kind : Nat
  deriving DecidableEq, Repr

def judgeAligns (at_ : Nat → AlignOutcome) (found : Option Int) (hyp : Bool) : Judged :=
  let fPass := found.isSome && (at_ 0).passes
  let ts := tried found hyp fPass
  let mask := (ts.map (fun i => 2 ^ i)).sum
  let zeros := ts.filter (fun i => (at_ i).syndromeZero)
  let kind := if zeros.any (fun i => (at_ i).sealCrcOk && !(at_ i).sealLbaOk) then 3
    else if zeros.any (fun i => !(at_ i).sealCrcOk) then 2 else 1
  match ts.find? (fun i => (at_ i).passes) with
  | some a =>
    let hyps := ts.filter (fun i => i != 0)
    -- the acceptance waits for every alignment of higher priority; a decode ends after its iterations
    let when_ := (hyps.filter (fun i => i ≤ a)).foldl (fun m i => max m (at_ i).iters) 0
    let multi := hyps.any (fun i => a < i && (at_ i).passes && (at_ i).iters ≤ when_)
    ⟨mask, some (a, at_ a), multi, 0⟩
  | none => ⟨mask, none, false, kind⟩

/-- Taps of head k in tap zone t of a kind. -/
def LaneSt.tapsOf (l : LaneSt) (k kind t : Nat) : Taps := Taps.load l.tap (((k - 1) * 48 + kind * 16 + t) * 48)

/-- A lane's alignments on a window: F − P, and the decode of each place of the priority order (R219 to R224). -/
def laneDecode (t : Taps) (kind : Nat) (w : ReadWin) (tol norm otf i exp : Nat) : Option Int × (Nat → AlignOutcome) :=
  let z := equalise t kind (capY w.a) (capY w.b)
  let llr := detector t z.toList (List.replicate capLen 0)
  let found := syncFind (llr.map (·.2)) tol
  (found, fun p => alignOtf llr norm otf i exp (if p = 0 then found.getD 0 else hypOfs.getD (p - 1) 0))

/-- OTF_ITER, MS_NORM and SYNC_TOL as they act (R234). -/
def State.otfIter (s : State) (l : Nat) : Nat := let c := s.rdN Reg.lane_OTF_ITER l; if 1 ≤ c ∧ c ≤ 8 then c else 8
def State.msNorm (s : State) (l : Nat) : Nat := let c := s.rdN Reg.lane_MS_NORM l; if c = 0 then 16 else c
def State.syncTol (s : State) (l : Nat) : Nat := min 6 (s.rdN Reg.lane_SYNC_TOL l)

/-- DC_SHIFT and AGC_SHIFT as they act (R234). -/
def State.dcShift (s : State) (l : Nat) : Nat := let c := s.rdN Reg.lane_DC_SHIFT l; if 6 ≤ c ∧ c ≤ 15 then c else 12
def State.agcShift (s : State) (l : Nat) : Nat := let c := s.rdN Reg.lane_AGC_SHIFT l; if 6 ≤ c ∧ c ≤ 15 then c else 10

/-! ### What a verdict is for -/

/-- A sector that the sequencer asked for: namespace, LBA, whether its LBA belongs to the queue entry in hand, and the entry. -/
structure Asked where
  op : OpSt
  entry : Option MqEntry
  lba : Option (Bool × Nat)
  deriving DecidableEq, Repr

/-- The operation in hand covers this sector. -/
def State.asked (s : State) (n k t i : Nat) : Option Asked :=
  match (s.act n).op, s.sideDesc n with
  | some o, some d =>
    if (o.opc = 1 ∨ o.opc = 4) ∧ o.head = k ∧ o.track = t ∧ o.first ≤ i ∧ i < o.first + o.count then
      let own := (d.posLba k t i).bind (fun p => (s.posOwner n p.1 p.2).map (fun l => (p.1, l)))
      let entry := if o.opc = 1 then (s.act n).mq.find? (fun x => x.idx == o.entry) else none
      let mine := own.filter (fun p => match entry with
        | some x => x.nsConv == p.1 && (x.work == .parity || (x.lba ≤ p.2 && p.2 < x.lba + x.count))
        | none => o.opc == 4)
      some ⟨o, entry, mine⟩
    else none
  | _, _ => none

/-- Count in the lane's registers: for work of an epoch in its shadow, else at once (R198, R234). -/
def State.laneCount (s : State) (n l : Nat) (ep : Option (BitVec 16)) (f : RegField) (c : Nat) : State :=
  match ep with
  | some e => if c = 0 ∧ f.id ≠ Reg.lane_SYNC_DEV_MEAN.id then s else s.updAct n (fun a => { a with shadow := a.shadow ++ [(e, f.id, c)] })
  | none => s.unshadow n l f.id c

/-! ### The capture ring (R229 to R231) -/

/-- The capture memory takes a sector, in place of the oldest slot that no copy waits for (R229, R232). One slot has more words than an arming
inverts, so the first slot written takes all of it (R444). DEDUCED: log 181. -/
def State.ringPush (s : State) (l : Nat) (x : RingSlot) : State :=
  let b := fltBlk 0x0A02 l
  let armed := s.flt.armed.any (fun a => a.1 == b && a.2.1 == 2)
  let x := { x with ecc := if armed then max 1 (s.rdN Reg.flt_INJ_BITS b) else 0 }
  let put (r : List RingSlot) : State :=
    let s := s.updLane l (fun y => { y with ring := r ++ [x] })
    if armed then (s.updFlt (fun f => { f with armed := f.armed.filter (fun a => !(a.1 == b && a.2.1 == 2)) })).wr Reg.flt_INJ_ARMED b 0 else s
  let r := (s.lane l).ring
  if r.length < 64 then put r
  else
    match r.findIdx? (fun y => y.copyTo.isNone) with
    | some i => put (r.eraseIdx i)
    | none => s

/-- Allocate a capture record for the sector just stored, for work of an epoch: its index, or none where no record or no slot is free.
DEDUCED: log 173. -/
def State.capture (s : State) (l : Nat) (x : RingSlot) (ep : BitVec 16) : State × Option Nat :=
  let free := (List.range (s.rdN Reg.thresh_CAP_RECORDS 0)).find? (fun c => s.pool.caps.all (fun y => y.1 != c))
  match free, (s.lane l).ring.findIdx? (fun y => { y with ecc := 0 } == x) with
  | some c, some i =>
    let s := s.updPool (fun p => { p with caps := p.caps ++ [(c, none)] })
    let s := s.wrN Reg.thresh_CAP_FREE 0 (s.rdN Reg.thresh_CAP_FREE 0 - 1)
    let s := s.updLane l (fun y => { y with ring := y.ring.modify i (fun z => { z with copyTo := some (c, ep) }) })
    (s.wrN Reg.lane_RING_WAIT l (s.lane l).ringWait, some c)
  | _, _ => (s, none)

/-- The grains of a capture record: 8 of reader a, then 8 of reader b, 4,096 bytes each but the last (R230). The notice supplies what the tag
says of the sector. -/
def capGrains (m : Notice) (stamp : Nat) (x : RingSlot) : List Grain :=
  let tag (i src len : Nat) : Tag := { Tag.zero with
    kind := 1, act := m.act, nsConv := m.conv, prio := m.prio, noCmd := m.noCmd, slot := m.slot, idx := i, lba := m.lba,
    stamp := if m.noCmd then 0 else stamp, epoch := m.epoch, spec := true, specSrc := 2, head := x.head, track := x.track, sector := x.sector,
    len := len, sampleSrc := src, frameTs := x.frameTs }
  let of (src first : Nat) (w : List (Option Placed)) : List Grain :=
    if w = [] then []
    else
      let b := toLe 32438 (capPack w)
      (List.range 8).map (fun i => ⟨tag (first + i) src (if i = 7 then 3766 else 4096), (b.drop (4096 * i)).take 4096⟩)
  of 0 0 x.win.a ++ of 1 8 x.win.b

/-- The copy of the lane's first waiting slot ends (R230, R231): its grains stand in partition 1 and the samples are there for a record that
waits for them. -/
def execCaptureCopyDone (l : Lane) (secdedErr : Bool) (s : State) : Res :=
  .next (
    match (s.lane l).ring.find? (fun y => y.copyTo.isSome) with
    | none => s
    | some x =>
      match x.copyTo with
      | none => s
      | some (c, ep) =>
        let s := s.updLane l (fun y => { y with ring := y.ring.map (fun r => if r = x then { r with copyTo := none } else r) })
        let s := s.wrN Reg.lane_RING_WAIT l (s.lane l).ringWait
        let n := (s.str.actOfLane s.husk.variantH l).getD 64
        let mine (m : Notice) : Bool := m.cap == some c
        let rec_ := s.pool.records.find? (fun r => mine r.n)
        let s := s.laneCount n l (if (s.epochSlot (s.engine n) ep).isSome ∧ s.pool.early.any mine then some ep else none) Reg.lane_CAP_COPY_CNT 1
        let m? := match rec_ with | some r => some r.n | none => (s.pool.early ++ s.pool.waiting).find? mine
        let s := match m? with
          | some m =>
            let stamp := match rec_ with | some r => r.stamp | none => match s.cmd m.slot with | some q => q.stamp | none => 0
            (capGrains m stamp x).foldl (fun (s : State) (g : Grain) => s.putGrain idThresher 1 (16 * c + g.tag.idx) g.tag g.payload) s
          | none => s
        let s := s.updPool (fun p => { p with
          caps := p.caps.map (fun (y : Nat × Option ReadWin) => if y.1 = c then (c, some x.win) else y),
          records := p.records.map (fun (r : RecRecord) => if r.step = 1 ∧ mine r.n = true ∧ r.decoder.isNone then { r with ready := true } else r) })
        let s := s.assign
        if secdedErr ∨ 2 ≤ x.ecc then
          let fix (m : Notice) : Notice := if mine m then { m with capValid := false } else m
          let s := s.updPool (fun p => { p with
            early := p.early.map fix, waiting := p.waiting.map fix, records := p.records.map (fun (r : RecRecord) => { r with n := fix r.n }) })
          s.raise 0x0A02 l 0 (x.ecc != 0)
        else s)

/-! ### Front ends (R215) -/

/-- GAIN for a reader whose gain stayed outside 0.7 to 1.4 for the whole sector: the next code towards 1.0. -/
def State.gainStep (s : State) (n reader code : Nat) (w : List (Option Placed)) : State :=
  let top := match s.desc (hdaOf n) with | some d => d.gains.length - 1 | none => 0
  let g := (capSector w).filterMap (fun p => p.map (·.g))
  let whole (f : Int → Bool) : Bool := g != [] && g.all f
  let out := whole (fun x => decide (14 * chOne < 10 * x) || decide (10 * x < 7 * chOne))
  let up := decide (chOne < g.getLast?.getD chOne)
  let code' := if out && up && decide (code < top) then code + 1 else if out && !up && decide (0 < code) then code - 1 else code
  if code' = code then s else s.ctl (hdaOf n) 0x08 (sideOf n) [sideOf n, reader, code']

/-- Samples of reader a (SID 1) or b (SID 2) of the selected head pass the front end and are placed from an edge on (R214, R215). A lane
keeps the latest 2¹⁷ of each reader. DESIGN CHOICE: log 172. -/
def State.placeSamples (s : State) (n : Nat) (b : Bool) (frame : Word) (edge : Int) (xs : List Int) : State :=
  let l := s.str.laneOf n
  let k := s.rdN Reg.demod_SEL_HEAD n
  let f := s.feOf n k
  let (dc, g, ps) := feRun (s.dcShift l) (s.agcShift l) (s.rdN Reg.lane_AGC_TARGET l) (if b then f.dcB else f.dcA) (if b then f.gainB else f.gainA) xs
  let add (segs : List Seg) : List Seg :=
    let segs := match segs with
      | x :: rest => if x.frame = frame ∧ x.edge + x.vals.length = edge then { x with vals := x.vals ++ ps } :: rest else ⟨frame, edge, ps⟩ :: segs
      | [] => [⟨frame, edge, ps⟩]
    (segs.foldl (fun (a : List Seg × Nat) x => if a.2 < 131072 then (a.1 ++ [x], a.2 + x.vals.length) else a) ([], 0)).1
  let s := s.feShow l (if b then { f with dcB := dc, gainB := g } else { f with dcA := dc, gainA := g })
  s.updLane l (fun x => if b then { x with segsB := add x.segsB } else { x with segsA := add x.segsA })

/-! ### The verdict (R221, R224 to R228) -/

/-- Reader choice of R228: tap kind and whether it fell back, or none for FAIL_KIND 4. -/
def readerUse (mode : Nat) (missA missB fbEn validA validB : Bool) : Option (Nat × Bool) :=
  match mode with
  | 0 => if !missA && !missB then some (0, false)
         else if fbEn && !missA && validA then some (1, true)
         else if fbEn && !missB && validB then some (2, true) else none
  | 1 => if !missA then some (1, false) else if fbEn && !missB && validB then some (2, true) else none
  | 2 => if !missB then some (2, false) else if fbEn && !missA && validA then some (1, true) else none
  | 3 => if !missA then some (1, false) else none
  | _ => if !missB then some (2, false) else none

/-- Media keys decrypt the stored payload (R69, R227). -/
def State.plain (s : State) (n : Nat) (conv : Bool) (lba : Nat) (payload : List Byte) : List Byte :=
  match s.husk.keySlots.lookup (if conv then convNs n else zonedNs n) with
  | some k => Config.xtsDecrypt k lba payload
  | none => payload

/-- What an accepted alignment puts into a tag: place in the priority order and iterations (R225, R227). -/
def Tag.synced (t : Tag) (place iters : Nat) : Tag :=
  { t with sealOk := true, syncInferred := place != 0, syncOfsUsed := 2 ≤ place,
           syncOfs := if place = 0 then 0 else hypOfs.getD (place - 1) 0, ldpcIter := iters }

/-- The grain of an accepted sector or of the zeros of R372 (R13, R227): `lba` none for a parity sector, which is metadata. -/
def mkGrain (s : State) (n k : Nat) (a : Asked) (lba : Option (Bool × Nat)) (ep : BitVec 16) (o : SectorObs) (b : List Byte)
    (place : Option (Nat × Nat)) : Grain :=
  let run := a.op.opc == 4
  let x := a.entry.getD (bgEntry 1 false 0 1 0 .check)
  let host := !run && x.work == .host && a.entry.isSome
  let first := match s.cmd x.slot with | some c => c.lba | none => (lba.getD (false, 0)).2
  let l := (lba.getD (false, 0)).2
  let p := place.getD (0, 0)
  ⟨({ Tag.zero with
      kind := if lba.isSome then 0 else 2, act := n, nsConv := (lba.getD (false, 0)).1, prio := if host then x.prio else 4, noCmd := !host,
      slot := if host then x.slot else 0, idx := if host then l - first else 0, lba := l, stamp := if host then x.stamp else 0,
      epoch := ep, spec := true, specSrc := if run then 1 else 2, head := k, track := o.track, sector := o.sector, len := 4096,
      frameTs := (s.act n).frameNo.toNat } : Tag).synced p.1 p.2, b⟩

/-- The failure notice of a sector (R227). DEDUCED: log 52. -/
def mkNotice (a : Asked) (n k kind mask : Nat) (cap : Option Nat) (mode : Nat) (conv : Bool) (lba gidx : Nat)
    (ep : BitVec 16) (o : SectorObs) (miss : Nat × Nat) : Notice :=
  let x := a.entry.getD (bgEntry 1 conv lba 1 0 .check)
  let r := modeReads mode
  let host := x.work == .host
  ⟨kind, mask, cap.isSome, if cap.isSome then (if r.1 then 1 else 0) + (if r.2 then 2 else 0) else 0, k, n, conv, !host,
    if host then x.prio else 4, o.sector, if host then x.slot else 0, o.track, cap, lba, ep, gidx, miss.1, miss.2⟩

/-- The 32 bytes of a notice (R227). -/
def Notice.bytes (m : Notice) : List Byte :=
  let b (x : Bool) : Nat := if x then 1 else 0
  let w0 := m.kind + m.hyps % 64 * 2 ^ 4 + b m.capValid * 2 ^ 10 + m.capReaders * 2 ^ 11 + m.head * 2 ^ 16 + m.act * 2 ^ 20 + b m.conv * 2 ^ 26
    + b m.noCmd * 2 ^ 27 + m.prio * 2 ^ 28 + m.sector * 2 ^ 32 + (if m.noCmd then 0 else m.slot) * 2 ^ 48
  let w1 := m.track + m.cap.getD 0xFFFFFFFF * 2 ^ 32
  let w3 := m.epoch.toNat + m.gidx * 2 ^ 16 + m.missFirst * 2 ^ 32 + m.missLen * 2 ^ 48
  toLe 8 w0 ++ toLe 8 w1 ++ toLe 8 (sealLba m.conv m.lba) ++ toLe 8 w3

/-- Sector by sector the operation goes on: a full span opens the next, the last sector ends it (R200, R201). -/
def State.opAdvance (s : State) (n : Nat) : State :=
  match (s.act n).op with
  | none => s
  | some o =>
    let prio := s.opPrio n o
    let o := { o with done := o.done + 1, spanDone := o.spanDone + 1 }
    -- its class is charged the sector once the span commits (R191, R199)
    let s := s.updAct n (fun a => { a with
      op := some o, raDone := if o.opc = 4 then a.raDone + 1 else a.raDone,
      shadow := match o.confEpoch with | some ep => a.shadow ++ [(ep, chargeKey prio, 1)] | none => a.shadow })
    if o.opc = 4 then
      let s := s.raSettle n o.epoch
      if o.count ≤ o.done ∨ s.runaheadOk n = false then s.endWork n else s
    else
      let full := s.confSpan (s.engine n) ≤ o.spanDone
      let last := o.count ≤ o.done
      if full = false ∧ last = false then s
      else
        let s := match o.confEpoch with | some ep => s.spanDecide n ep true | none => s
        if (s.act n).op.isNone then s else if last then s.endWork n else s.openSpan n

/-- What a lane found in one sector: its ring slot, tap kind, FAIL_KIND decided before decoding (0: none), F − P, alignments, and the expected
SEAL_LBA. -/
structure Seen where
  slot : RingSlot
  tapKind : Nat
  fellBack : Bool
  kind0 : Nat
  found : Option Int
  j : Judged
  exp : Nat
  deriving DecidableEq, Repr

/-- The expected SEAL_LBA of a sector (R211, R250): its owner's, its place's in the parity, or none that any seal has. -/
def State.expected (s : State) (n k t i : Nat) : Nat :=
  match s.sideDesc n with
  | none => sealNone
  | some d =>
    match d.posLba k t i with
    | some p => match s.posOwner n p.1 p.2 with | some l => sealLba p.1 l | none => sealNone
    | none => if (dataIndex (d.spt t) i).isNone then sealParity k t (i / 50) (i - segParity (d.spt t) (i / 50)) else sealNone

/-- First and last frame that hold bits of a sector just passed (R171): the latest whose INDEX they have. -/
def State.sectorFrames (s : State) (n : Nat) (d : SideDesc) (ratio : Nat) (tim : Int) (i : Nat) : Word × Word :=
  let a := s.act n
  let f0 := bitFrame d ratio tim (sectorFirst i)
  let f1 := bitFrame d ratio tim (sectorFirst i + sectorBits - 1)
  let last := a.frameNo - BitVec.ofNat 32 ((a.index + 1800 - f1) % 1800)
  (last - BitVec.ofNat 32 ((f1 + 1800 - f0) % 1800), last)

/-- A halfword of a tap record was written with inverted parity (R444). -/
def State.tapInj (s : State) (l k kind t : Nat) : Bool :=
  s.injAny 0x0A01 l (fun w => w / 48 == (k - 1) * 48 + kind * 16 + t)

/-- The lane's work on a sector whose samples have come (R214 to R226, R228, R229). Samples of an earlier revolution are not the sector's. -/
def State.seen (s : State) (n l k : Nat) (o : SectorObs) : Seen :=
  let ln := s.lane l
  let mode := s.str.modeOf n k
  let tim := s.rdInt Reg.demod_TIM_OFS n (k - 1)
  let first : Int := (sectorFirst o.sector : Int) + tim.fdiv 64 - capBit
  let fresh (g : Seg) : Bool := decide (((s.act n).frameNo - g.frame).toNat < 900)
  let reads := modeReads mode
  let win : ReadWin := ⟨if reads.1 then segWindow (ln.segsA.filter fresh) first else [], if reads.2 then segWindow (ln.segsB.filter fresh) first else []⟩
  let ts := (((ln.segsA ++ ln.segsB).filter fresh).find? (fun g => decide (g.edge ≤ first + capBit))).map (·.frame.toNat)
  let whole (w : List (Option Placed)) : Bool := w != [] && (capSector w).all (·.isSome)
  let tz := ((s.sideDesc n).bind (fun d => zoneIdx d o.track)).bind (ln.tapZone k)
  let valid (kind : Nat) : Bool := match tz with | some t => ln.tapValid k kind t | none => false
  let use := readerUse mode (!(whole win.a)) (!(whole win.b)) (s.rdB Reg.lane_FALLBACK_EN l) (valid 1) (valid 2)
  let kind := match use with | some u => u.1 | none => (if mode = 0 then 0 else if mode = 1 ∨ mode = 3 then 1 else 2)
  let exp := s.expected n k o.track o.sector
  let (found, at_) := laneDecode (ln.tapsOf k kind (tz.getD 0)) kind win (s.syncTol l) (s.msNorm l) (s.otfIter l) o.sector exp
  let thr := s.rdN Reg.lane_ERASE_THR l
  let low (w : List (Option Placed)) : Bool := decide (capMean w < thr)
  let erased := found.isNone && (kind == 2 || low win.a) && (kind == 1 || low win.b)
  let kind0 := if use.isNone then 4 else if valid kind = false ∨ o.tapParityErr ∨ s.tapInj l k kind (tz.getD 0) then 6 else if erased then 5 else 0
  ⟨⟨k, o.track, o.sector, win, ts.getD 0, none, 0⟩, kind, (match use with | some u => u.2 | none => false), kind0,
    if kind0 = 4 ∨ kind0 = 6 then none else found,
    if kind0 ≠ 0 then ⟨0, none, false, kind0⟩ else judgeAligns at_ found (s.rdB Reg.lane_HYP_EN l), exp⟩

/-- One requested sector of the operation in hand. DEDUCED: log 52. -/
def State.askedVerdict (s : State) (n l k : Nat) (a : Asked) (mode : Nat) (x : Seen) (fr : Word × Word) (o : SectorObs) : State :=
  let ep := if a.op.opc = 4 then some a.op.epoch else a.op.confEpoch
  let epoch := ep.getD 0
  let kind := if x.kind0 ≠ 0 then x.kind0 else x.j.kind
  let full := match a.lba with | some (c, lba) => !c && (s.zone n (zoneOf lba)).cond == ZCond.full | none => false
  let pend (s : State) (ok : Bool) (lba : Option Nat) : State := s.updAct n (fun y => { y with pend := y.pend ++
    [(⟨epoch, fr.1, fr.2, ok, lba, k, o.track, o.sector, a.op.entry, (a.entry.map (·.stamp)).getD 0⟩ : PendSector)] })
  let hold (s : State) (g : Grain) : State := { s with held := s.held ++ [g] }
  let s := match a.op.recov with
    | some key =>
      -- a recovery read: its samples and outcome go to the record, its grain belongs to no command (R227, R242)
      let r : PoolRead := ⟨o.track, o.sector, x.slot.win, x.exp, x.j.accepted.map (fun (g : Nat × AlignOutcome) => g.2.payload)⟩
      let s := s.updPool (fun p => { p with records := p.records.map (fun (y : RecRecord) =>
        if y.n.act = n ∧ (y.n.head, y.n.track, y.n.sector, y.stamp) = key then { y with early := y.early ++ [(epoch, r)] } else y) })
      let s := match x.j.accepted with
        | some g => hold s (mkGrain s n k a none epoch o g.2.payload (some (g.1, g.2.iters)))
        | none => s
      pend s x.j.accepted.isSome none
    | none =>
      -- a data sector read for its segment's parity (R268)
      let part := a.entry.filter (fun (y : MqEntry) => y.work == Work.parity && parityBase (segKey k o.track (o.sector / 50)) == y.lba && o.sector % 50 < y.count)
      let s := match part, x.j.accepted with
        | some _, some (g : Nat × AlignOutcome) => s.updAct n (fun y => { y with gather := y.gather ++ [(⟨ep, k, o.track, o.sector, g.2.payload⟩ : Gathered)] })
        | _, _ => s
      let at_ (lba : Nat) : Option Nat := match a.entry with
        | some y => if y.work = Work.parity then part.map (fun (y : MqEntry) => y.lba + o.sector % 50) else some lba
        | none => some lba
      match x.j.accepted, a.lba with
      | some g, some (c, lba) =>
        pend (hold s (mkGrain s n k a (some (c, lba)) epoch o (s.plain n c lba g.2.payload) (some (g.1, g.2.iters)))) true (at_ lba)
      | none, some (c, lba) =>
        let skip : Bool := kind == 5 && (full || (c && match a.entry with | some y => y.work == Work.test | none => false))
        if skip then pend (hold s (mkGrain s n k a (some (c, lba)) epoch o (List.replicate 4096 0) none)) true (at_ lba)
        else if a.op.opc = 4 then s
        else
          let (s, cap) := s.capture l x.slot epoch
          let s := if cap.isNone then s.laneCount n l ep Reg.lane_CAP_DROP_CNT 1 else s
          let first := match a.entry with
            | some y => if y.work = Work.host then (match s.cmd y.slot with | some q => q.lba | none => lba) else lba
            | none => lba
          let miss := capMiss (if x.slot.win.a = [] then x.slot.win.b else x.slot.win.a)
          let m := mkNotice a n k kind x.j.mask cap mode c lba (lba - first) epoch o miss
          pend (s.updPool (fun p => { p with early := p.early ++ [m] })) false (at_ lba)
      | _, none => pend s x.j.accepted.isSome (at_ 0 |>.filter (fun _ => part.isSome))
  s.opAdvance n

/-- Add a sample's |y| to a histogram, in whole units rounded up. -/
def addPeak (h : List (Nat × Nat)) (p : Option Placed) : List (Nat × Nat) :=
  match p with
  | some v =>
    let b := (v.y.natAbs + 2 ^ 24 - 1) / 2 ^ 24
    assocSet h b ((h.lookup b).getD 0 + 1)
  | none => h

/-- A requested sector feeds the items of its actuator that measure what the lane decodes (R426, R428): 4 its samples, 5 its sync mark, 6 an
accepted sector of its head and tap zone. -/
def State.calSector (s : State) (n k tz : Nat) (x : Seen) (ok falseMark : Bool) : State :=
  s.updThm (fun t => { t with runs := t.runs.map (fun r =>
    if r.act ≠ n then r
    else if r.item = 4 ∧ r.phase = 1 then
      { r with sectors := r.sectors + 1, peaks := (capSector x.slot.win.a ++ capSector x.slot.win.b).foldl addPeak r.peaks }
    else if r.item = 5 then
      { r with sectors := r.sectors + 1, marks := (r.marks.1 + (if x.found.isSome then 1 else 0), r.marks.2.1 + (if falseMark then 1 else 0),
          r.marks.2.2 + (if x.found.isNone then 1 else 0)) }
    else if r.item = 6 ∧ ok then
      { r with sampled := assocSet r.sampled (16 * k + tz) ((r.sampled.lookup (16 * k + tz)).getD 0 + 1) }
    else r) })

/-- A lane's verdict on a sector (R221). -/
def execSectorVerdict (l : Lane) (o : SectorObs) (s : State) : Res :=
  .next (
    match s.str.actOfLane s.husk.variantH l with
    | none => s
    | some n =>
      let k := s.rdN Reg.demod_SEL_HEAD n
      match s.sideDesc n with
      | none => s
      | some d =>
        if k < 1 ∨ 10 < k then s
        else
          let x := s.seen n l k o
          let ratio := match d.zoneOfTrack o.track with | some z => z.ratio | none => 0
          let fr := s.sectorFrames n d ratio (s.rdInt Reg.demod_TIM_OFS n (k - 1)) o.sector
          let tz := ((zoneIdx d o.track).bind ((s.lane l).tapZone k)).getD 0
          -- the ring takes every sector that passes (R229)
          let s := s.ringPush l x.slot
          let s := if o.tapParityErr ∨ s.tapInj l k x.tapKind tz then s.raise 0x0A01 l 0 (s.tapInj l k x.tapKind tz) else s
          let f := s.feOf n k
          let s := (s.gainStep n 0 f.codeA x.slot.win.a).gainStep n 1 f.codeB x.slot.win.b
          let s := ((s.wrN Reg.lane_CUR_HEAD l k).wrN Reg.lane_CUR_TZ l tz).wrN Reg.lane_CUR_KIND l x.tapKind
          match s.asked n k o.track o.sector with
          | none => s
          | some a =>
            let ep := if a.op.opc = 4 then some a.op.epoch else a.op.confEpoch
            let c (s : State) (f : RegField) (b : Bool) : State := s.laneCount n l ep f (if b then 1 else 0)
            let s := match x.found with | some v => s.laneCount n l ep Reg.lane_SYNC_DEV_MEAN (v + 24).toNat | none => s
            let s := c s Reg.lane_SECT_CNT true
            let ok := x.j.accepted.isSome
            let place := match x.j.accepted with | some g => g.1 | none => 0
            let s := c (c s Reg.lane_OK_CNT ok) Reg.lane_FAIL_CNT (!ok)
            let s := s.laneCount n l ep Reg.lane_ITER_SUM (match x.j.accepted with | some g => g.2.iters | none => 0)
            let s := c s Reg.lane_SYNC_MISS_CNT x.found.isNone
            let s := c s Reg.lane_SYNC_FALSE_CNT (ok && x.found.isSome && place != 0)
            let s := c s Reg.lane_SYNC_INFER_CNT (ok && place != 0)
            let s := c s Reg.lane_SYNC_OFS_CNT (ok && 2 ≤ place)
            let s := c s Reg.lane_MULTI_HYP_CNT x.j.multi
            let s := c s Reg.lane_SEAL_CRC_ERR_CNT (!ok && x.j.kind == 2)
            let s := c s Reg.lane_SEAL_LBA_ERR_CNT (!ok && x.j.kind == 3)
            let s := c s Reg.lane_ERASED_CNT (!ok && x.j.kind == 5)
            let s := c s Reg.lane_FALLBACK_CNT x.fellBack
            let s := s.calSector n k tz x ok (ok && x.found.isSome && place != 0)
            let s := if ok then s else s.trace 3 .verdict n [l, x.j.kind, o.track, o.sector]
            ((s.askedVerdict n l k a (s.str.modeOf n k) x fr o).settle).resumeGo n)

/-! ### Sample and motor streams (R122, R123, R129) -/

/-- The side's digital gain follows an analogue gain change at its marker (R215). -/
def State.gainMarker (s : State) (n reader code : Nat) : State :=
  let k := s.rdN Reg.demod_SEL_HEAD n
  let l := s.str.laneOf n
  match (s.lane l).fe.find? (fun f => f.head == k), s.desc (hdaOf n) with
  | some f, some d =>
    let old := if reader = 0 then f.codeA else f.codeB
    let g := if reader = 0 then f.gainA else f.gainB
    if old = code then s
    else
      let go := F32.mag (d.gains.getD old 0x3F800000)
      let gn := F32.mag (d.gains.getD code 0x3F800000)
      let v := max (chOne / 4) (min (4 * chOne) ((g * go).fdiv (max gn 1)))
      s.feShow l (if reader = 0 then { f with codeA := code, gainA := v } else { f with codeB := code, gainB := v })
  | _, _ => s

/-- A marker places the samples that follow and restarts the packing; LOSS or UNSYNC places none until the next (R122, R123, R214). A reserved
SID, or one that only goes down, is discarded and counted (R121); SID 4 to 6 carry no marker. -/
def execSampleMarker (h : Hda) (hdr : UpHdr) (sid : BitVec 4) (side : Fin 2) (m : Marker) (s : State) : Res :=
  .next (
    if sid = 1 ∨ sid = 2 ∨ sid = 3 then
      let s := s.rxSeq h sid.toNat side hdr.seq
      let key := 2 * sid.toNat + side.val
      let s := s.updPort h (fun p => { p with streams := assocSet p.streams key (⟨m.frameNo, m.phase.toNat, 0, !m.loss && !m.unsync, 0, 0, []⟩ : StreamSt) })
      let s := if m.loss then s.bump Reg.port_SMP_LOSS h else s
      if sid = 3 then s else s.gainMarker (actOf h side) (sid.toNat - 1) m.gain.toNat
    else if sid = 4 ∨ sid = 5 ∨ sid = 6 then s.rxSeq h sid.toNat side hdr.seq
    else s.rxBad h)

/-- A data frame: its whole samples follow those before it since the stream's last marker. After a SEQ gap none is placed until the next
marker (R122, R123, R214); the transit reader's go to the demodulator. -/
def execSampleFrame (h : Hda) (hdr : UpHdr) (sid : BitVec 4) (side : Fin 2) (payload : BitVec 240) (s : State) : Res :=
  .next (
    if sid = 1 ∨ sid = 2 ∨ sid = 3 then
      let key := 2 * sid.toNat + side.val
      let gap := (s.port h).rxSeq.getD key 0 != hdr.seq.toNat
      let s := s.rxSeq h sid.toNat side hdr.seq
      match (s.port h).streams.lookup key with
      | none => s
      | some x =>
        let n := actOf h side
        let off (s : State) : State := s.updPort h (fun p => { p with streams := assocSet p.streams key { x with placed := false } })
        s.sampleIn (sampleTag n (sid.toNat - 1) 30 (s.act n).frameNo.toNat) (bad := off) fun s =>
        let w := sampleWidth sid.toNat
        let (xs, rest, bits) := unpack w (x.rest + payload.toNat * 2 ^ x.restBits) (x.restBits + 240) 41
        let placed := x.placed && !gap
        let after : StreamSt := { x with count := x.count + xs.length, placed := placed, rest := rest, restBits := bits, last := xs }
        let s := s.updPort h (fun p => { p with streams := assocSet p.streams key after })
        match s.sideDesc n, (s.act n).clkZone with
        | some d, some z =>
          if placed = false ∨ sid = 3 ∨ s.rdN Reg.demod_SEL_HEAD n = 0 then s
          else
            let ratio := ((d.zones[z]?).map (·.ratio)).getD 0
            let edge := edgesBefore d ratio (s.act n).clkTim (x.frame.toNat % 1800 : Nat) + x.phase + x.count
            s.placeSamples n (sid == 2) x.frame edge xs
        | _, _ => s
    else if sid = 4 ∨ sid = 5 ∨ sid = 6 then s.rxSeq h sid.toNat side hdr.seq
    else s.rxBad h)

/-- COAST becomes OFF below 60 rpm: a back-EMF amplitude, 2/3 of the sum of the three phases' squares, below (KE × 2π)² (R325). -/
def State.coastEnd (s : State) (h : Nat) : State :=
  match s.desc h, (s.port h).mot.bemf with
  | some d, [u, v, w] =>
    let m := Fix.ofF32 (d.mscale.getD 5 0)
    let k := Fix.mul (Fix.ofF32 d.ke) (2 * Fix.pi)
    if s.rdN Reg.spindle_SPIN_STATE h = 9 ∧ (s.spinSt h).retry = false ∧ 2 * (u * u + v * v + w * w) * (m * m) < 3 * (k * k)
    then s.spinState h 0 else s
  | _, _ => s

/-- Back-EMF values go to the phases U, V, W in turn, across records. -/
def MotSt.takeEmf (m : MotSt) (v : List Int) : MotSt :=
  v.foldl (fun m x => { m with bemf := listSet m.bemf m.bemfNext x, bemfNext := (m.bemfNext + 1) % 3 }) m

/-- A measurement record (R129): at most 11 values, kept with its frame and tick, and the latest of its MTYPE. MTYPE 7 and 8 are
reserved: their record is kept, and nothing reads it. -/
def execMotFrame (h : Hda) (hdr : UpHdr) (side : Fin 2) (frameNo : Word) (tick : BitVec 16) (mtype : Byte)
    (values : List (BitVec 16)) (s : State) : Res :=
  .next (
    let s := s.rxSeq h 4 side hdr.seq
    let v := (values.take 11).map (·.toInt)
    match v.getLast? with
    | none => s
    | some x => s.sampleIn (sampleTag (actOf h side) 3 30 frameNo.toNat) fun s =>
      let both (p : Int × Int) : Int × Int := if side = 0 then (x, p.2) else (p.1, x)
      let s := s.updPort h (fun p =>
        let m := { p.mot with recs := assocSet p.mot.recs (2 * mtype.toNat + side.val) ⟨frameNo, tick.toNat, v⟩ }
        let m := match mtype.toNat with
          | 1 => { m with shunt := some (v.getD (v.length - 2) x, x) }
          | 2 => { m with bus := x }
          | 3 => { m with vcm := both m.vcm }
          | 4 => { m with ma := both m.ma }
          | 5 => { m with pd := both m.pd }
          | 6 => m.takeEmf v
          | _ => m
        { p with mot := m })
      if mtype = 6 then s.coastEnd h else if mtype = 5 then s.loopFeed (laserLoop (actOf h side)) frameNo else s)

end Sys2Proof.Machine
end

