-- ==== Sys2Proof/Machine/Bind.lean ====
section
/-!
DEFINITION. Machine/Bind.lean: the end of training: the descriptor read, its checks and the binding of a port (R53, R54, R145,
R146).
-/

namespace Sys2Proof.Machine

/-- The further grounds of PORT_CAUSE 10 (R207, R367, R373, and the CAL section's of R432). -/
def Desc.geometryBad (d : Desc) : Bool :=
  d.calOfs % 0x10000 != 0 || decide (d.calSize < 0x100000) || [d.sideA, d.sideB].any (fun x => match x with | some y => y.geometryBad | none => false)

/-- The copy in use: 0, or 1 where copy 0 fails R145. -/
def chooseCopy (copy0 copy1 : List Byte) : Option (Nat × Desc) :=
  match parseDesc copy0 with
  | some d => some (0, d)
  | none => (parseDesc copy1).map (fun d => (1, d))

/-- The read of the descriptor completes in DESC: the port binds and goes UP, or is left unbound. -/
def execDescriptorRead (h : Hda) (copy0 copy1 : List Byte) (s : State) : Res :=
  .next (
    if s.training h ∧ s.rdN Reg.port_STATE h = 6 then
      let s := s.readCopy h 0 copy0
      let s := if (parseDesc copy0).isSome then s else s.readCopy h 1 copy1
      match chooseCopy copy0 copy1, s.str.port h with
      | some (c, d), some p =>
        let s := s.wrN Reg.port_DESC_COPY h c
        let cause := portCause s.str p d h (s.port h).serialBound d.geometryBad
        if cause = 0 then s.portUp h d else s.unbind h cause
      | _, _ => s.unbind h 8
    else s)

end Sys2Proof.Machine
end

