-- ==== Sys2Proof/Machine/Ledger.lean ====
section
/-!
DEFINITION. Machine/Ledger.lean: the ledger tracks (R147 to R149): what a sector and a generation of each kind hold (R148, R251, R253, R373,
R379), where they lie and with which seal and parity, and which generation a start takes.
-/

namespace Sys2Proof.Machine

/-! ### Entries -/

/-- The 16 bytes of a remap entry (R251). -/
def RemapEnt.bytes (e : RemapEnt) : List Byte :=
  toLe 6 e.lba ++ toLe 1 (if e.conv then 1 else 0) ++ toLe 1 e.step ++ toLe 4 e.spare ++ toLe 4 (e.hours % 2 ^ 28)

def RemapEnt.parse (b : List Byte) : RemapEnt :=
  ⟨byteAt b 6 % 2 == 1, leAt b 0 6, byteAt b 7, le32 b 8, le32 b 12 % 2 ^ 28, true, true, []⟩

/-- The 24 bytes of a lost range (R253). -/
def LostEnt.bytes (e : LostEnt) : List Byte :=
  toLe 8 e.first ++ toLe 4 e.count ++ toLe 1 (if e.conv then 1 else 0) ++ toLe 1 e.cause ++ toLe 2 0 ++ toLe 4 e.cycle ++ toLe 4 (e.hours % 2 ^ 28)

def LostEnt.parse (b : List Byte) : LostEnt :=
  ⟨byteAt b 12 % 2 == 1, le64 b 0, le32 b 8, byteAt b 13, le32 b 16, le32 b 20 % 2 ^ 28⟩

/-- The 64 bytes of a progress record (R379). -/
def Progress.bytes (p : Progress) : List Byte :=
  let b := toLe 1 2 ++ toLe 1 p.action ++ toLe 1 p.status ++ toLe 1 ((if p.oipbp then 1 else 0) + (if p.ses2 then 2 else 0)) ++ toLe 4 p.nsid
    ++ toLe 4 p.ovrpat.toNat ++ toLe 1 p.pass ++ toLe 1 p.passes ++ toLe 1 p.head ++ toLe 1 0 ++ toLe 4 p.next ++ toLe 4 p.done ++ toLe 4 p.total
    ++ toLe 4 0 ++ toLe 8 p.seq ++ toLe 4 p.startCycle ++ toLe 4 p.startHours ++ List.replicate 12 0
  b ++ toLe 4 (crc32c b)

/-- A valid progress record's contents. -/
def Progress.parse (b : List Byte) : Option Progress :=
  if b.length = 64 ∧ byteAt b 0 = 2 ∧ crc32c (b.take 60) = le32 b 60 then
    some ⟨byteAt b 1, byteAt b 2, byteAt b 3 % 2 == 1, byteAt b 3 / 2 % 2 == 1, le32 b 4, BitVec.ofNat 32 (le32 b 8), byteAt b 12, byteAt b 13,
      byteAt b 14, le32 b 16, le32 b 20, le32 b 24, le64 b 32, le32 b 40, le32 b 44⟩
  else none

/-- The STATE entry that heads a kind 3 generation (R373). -/
def stateEntry (clean : Bool) (zoneCnt wplCnt : Nat) : List Byte :=
  toLe 1 1 ++ toLe 1 (if clean then 1 else 0) ++ toLe 2 0 ++ toLe 4 zoneCnt ++ toLe 4 wplCnt ++ List.replicate 52 0

/-- A kind 4 entry (R148): the two XTS keys under AES key wrap take 72 bytes. -/
def keyEntry (nsid gen : Nat) (wrapped : List Byte) : List Byte := toLe 4 nsid ++ toLe 4 gen ++ wrapped ++ List.replicate 8 0

/-! ### Sectors and generations (R148, R373) -/

/-- A ledger sector's 4,096 bytes. -/
def ledgerSector (kind side gen part parts len : Nat) (entries : List (List Byte)) : List Byte :=
  let body := entries.flatten
  let b := [0x4C, 0x44, 0x47, 0x52] ++ toLe 1 kind ++ toLe 1 side ++ toLe 2 1 ++ toLe 8 gen ++ toLe 2 part ++ toLe 2 parts
    ++ toLe 2 entries.length ++ toLe 2 len ++ List.replicate 40 0 ++ body ++ List.replicate (4028 - body.length) 0
  b ++ toLe 4 (crc32c b)

/-- Entries of one length, sector by sector. -/
def ledgerPages (len : Nat) (es : List (List Byte)) : List (Nat × List (List Byte)) :=
  (List.range (pageCount len es.length)).map (fun j => (len, (es.drop (4028 / len * j)).take (4028 / len)))

/-- The map part: two bits for each zone (R373). -/
def LedgerSt.mapBytes (l : LedgerSt) (zoneCnt : Nat) : List (List Byte) :=
  let st (z : Nat) : Nat := if z < zoneCnt then ((l.zones.lookup z).getD ZoneSt.reset).map else 0
  (List.range ((zoneCnt + 3) / 4)).map (fun i => [BitVec.ofNat 8 (st (4 * i) + 4 * st (4 * i + 1) + 16 * st (4 * i + 2) + 64 * st (4 * i + 3))])

/-- The media keys of a side's namespaces as the ledger holds them (R68, R148). -/
def State.keyEntries (s : State) (n : Nat) : List (List Byte) :=
  ([zonedNs n, convNs n].filterMap (fun i => (s.husk.wrapped.lookup i).map (fun k =>
    keyEntry i ((s.husk.keyGen.lookup i).getD 0) (Config.keyWrap (s.husk.wrapKey.getD 0) k))))

/-- What a generation of a kind holds, sector by sector: ENTRY_LEN and entries. -/
def State.ledgerGen (s : State) (n : Nat) (d : SideDesc) (k : Nat) : List (Nat × List (List Byte)) :=
  let l := s.led n
  match k with
  | 1 => ledgerPages 16 (l.kept.map RemapEnt.bytes)
  | 2 => ledgerPages 24 (l.lost.map LostEnt.bytes)
  | 3 =>
    let ps := l.pointers
    ledgerPages 64 (stateEntry l.clean d.zoneCnt ps.length :: (match l.progress with | some p => [p.bytes] | none => []))
      ++ ledgerPages 8 (ps.map (fun p => toLe 4 p.1 ++ toLe 4 p.2)) ++ ledgerPages 1 (l.mapBytes d.zoneCnt)
  | _ => ledgerPages 88 (s.keyEntries n)

/-- Its sectors under a GEN. -/
def State.ledgerSectors (s : State) (n : Nat) (d : SideDesc) (k gen : Nat) : List (List Byte) :=
  let ps := s.ledgerGen n d k
  ps.zipIdx.map (fun p => ledgerSector k (sideOf n) gen p.2 ps.length p.1.1 p.1.2)

/-! ### Where they lie (R147) -/

/-- SEAL_LBA of sector i of a region. -/
def sealLedger (region i : Nat) : Nat := 0xFFFF000000000000 + region * 2 ^ 24 + i

/-- Head and first track of a region. -/
def SideDesc.region (d : SideDesc) (r : Nat) : Nat × Nat := if r = 0 then (d.head0, d.ledFirst0) else (d.head1, d.ledFirst1)

/-- The payload on a ledger sector; one never written counts as zero in its segment's parity. DEDUCED: log 175. -/
def LedgerSt.sector (l : LedgerSt) (r i : Nat) : List Byte := (l.sectors.lookup (r * 2 ^ 24 + i)).getD (List.replicate 4096 0)

/-- Write a generation's sectors into a region, each sealed, and the parity of the segments they touch (R147, R243). -/
def State.writeRegion (s : State) (n : Nat) (d : SideDesc) (k r : Nat) (bs : List (List Byte)) : State :=
  let (head, first) := d.region r
  let base := d.ledBase.getD (k - 1) 0
  let at_ (i : Nat) : Nat × Nat := walk d first i d.ledTracks
  let put (track sector : Nat) (payload : List Byte) (lba : Nat) (s : State) : State :=
    s.emit (.sector n head track sector (sectorChannel sector payload lba))
  let s := bs.zipIdx.foldl (fun (s : State) p =>
    let i := base + p.2
    let s := s.updLed n (fun l => { l with sectors := assocSet l.sectors (r * 2 ^ 24 + i) p.1 })
    put (at_ i).1 (at_ i).2 p.1 (sealLedger r i) s) s
  let segs := (bs.zipIdx.map (fun p => let q := at_ (base + p.2); (q.1, q.2 / 50))).eraseDups
  segs.foldl (fun s g =>
    let par := segParity (d.spt g.1) g.2
    let i0 := dataCount d.zones first g.1 + 48 * g.2
    let pq := (List.range (par - 50 * g.2)).foldl (fun a j => parityAdd a j ((s.led n).sector r (i0 + j))) parityZero
    put g.1 (par + 1) pq.2 (sealParity head g.1 g.2 1) (put g.1 par pq.1 (sealParity head g.1 g.2 0) s)) s

/-- A generation is written whole into region GEN mod 2, and then into the other (R149). -/
def State.writeGen (s : State) (n k gen : Nat) : State :=
  match s.sideDesc n with
  | some d =>
    let bs := s.ledgerSectors n d k gen
    (s.writeRegion n d k (gen % 2) bs).writeRegion n d k (1 - gen % 2) bs
  | none => s

/-! ### What a start reads (R149) -/

/-- A valid sector of a kind. -/
structure LedgerHit where
  gen : Nat
  part : Nat
  parts : Nat
  len : Nat
  entries : List (List Byte)
  deriving DecidableEq, Repr

def ledgerHit (kind side part : Nat) (b : List Byte) : Option LedgerHit :=
  let cnt := le16 b 0x14
  let len := le16 b 0x16
  if b.length = 4096 ∧ le32 b 0 = 0x5247444C ∧ byteAt b 4 = kind ∧ byteAt b 5 = side ∧ le16 b 6 = 1 ∧ le16 b 0x10 = part
      ∧ cnt * len ≤ 4028 ∧ crc32c (b.take 0xFFC) = le32 b 0xFFC then
    some ⟨le64 b 8, part, le16 b 0x12, len, (List.range cnt).map (fun j => (b.drop (0x40 + len * j)).take len)⟩
  else none

/-- Sectors as they read: region, place in it, payload. -/
abbrev LedgerRead := List (Nat × Nat × List Byte)

def ledgerHits (d : SideDesc) (side kind : Nat) (obs : LedgerRead) : List LedgerHit :=
  let base := d.ledBase.getD (kind - 1) 0
  (obs.filter (fun x => x.1 < 2 && base ≤ x.2.1 && x.2.1 < base + d.ledCount.getD (kind - 1) 0)).filterMap (fun x => ledgerHit kind side (x.2.1 - base) x.2.2)

/-- A GEN with every one of its PARTS sectors in one region or the other. DEDUCED: log 175. -/
def genWhole (hs : List LedgerHit) (g : Nat) : Bool :=
  hs.any (fun h => h.gen == g && h.parts != 0 && (List.range h.parts).all (fun j => hs.any (fun x => x.gen == g && x.parts == h.parts && x.part == j)))

/-- The highest such GEN, and its sectors in order: ENTRY_LEN and entries. -/
def ledgerTake (hs : List LedgerHit) : Option (Nat × List (Nat × List (List Byte))) :=
  let gs := (hs.map (·.gen)).filter (genWhole hs)
  match gs with
  | [] => none
  | g :: rest =>
    let top := rest.foldl max g
    let parts := ((hs.find? (fun h => h.gen == top)).map (·.parts)).getD 0
    some (top, (List.range parts).filterMap (fun j => (hs.find? (fun x => x.gen == top && x.part == j)).map (fun x => (x.len, x.entries))))

/-- Entries of one length in a generation. -/
def entriesOf (len : Nat) (ps : List (Nat × List (List Byte))) : List (List Byte) := (ps.filter (fun p => p.1 == len)).flatMap (·.2)

/-- A kind 3 generation as read: CLEAN, MWP offsets of its pointer list, zone states, progress record. -/
structure ZoneMapRead where
  clean : Bool
  pointers : List (Nat × Nat)
  states : List (Nat × Nat)
  progress : Option Progress
  deriving DecidableEq, Repr

def zoneMapRead (ps : List (Nat × List (List Byte))) : ZoneMapRead :=
  let heads := entriesOf 64 ps
  let st := heads.find? (fun b => byteAt b 0 == 1)
  let cnt := match st with | some b => le32 b 4 | none => 0
  let wpl := match st with | some b => le32 b 8 | none => 0
  let map := (entriesOf 1 ps).flatten
  ⟨match st with | some b => byteAt b 1 % 2 == 1 | none => false,
    ((entriesOf 8 ps).take wpl).map (fun b => (le32 b 0, le32 b 4)),
    (List.range cnt).filterMap (fun z => let v := byteAt map (z / 4) / 4 ^ (z % 4) % 4; if v = 1 ∨ map.length ≤ z / 4 then none else some (z, v)),
    heads.findSome? Progress.parse⟩

end Sys2Proof.Machine
end

