-- ==== Sys2Proof/Machine/Recovery.lean ====
section
/-!
DEFINITION. Machine/Recovery.lean: the recovery pool of 09_recovery_and_defects.md: records, the ladder, deferral, reallocation,
the lost-range list, and the ledger generations of R149.
-/

namespace Sys2Proof.Machine

/-! ### Events with a list behind them (R248, R254, R359, R378) -/

/-- Zone descriptor changed (R359). -/
def State.zoneEvent (s : State) (n z : Nat) : State :=
  let key := n * 2 ^ 20 + z
  (s.updHost (fun h => { h with changedZones := if h.changedZones.contains key then h.changedZones else h.changedZones ++ [key] })).event 2 0xEF 0xBF

/-- Lost ranges (R361): the namespaces of a side whose list changed. -/
def State.lostEvent (s : State) (n : Nat) : State :=
  let ids := [zonedNs n, convNs n]
  (s.updHost (fun h => { h with changedLost := h.changedLost ++ ids.filter (fun i => !(h.changedLost.contains i)) })).event 7 0xC0 0xC0

/-- Available Spare of an actuator: the lowest of its three figures (R363). -/
def State.availSpare (s : State) (n : Nat) : Nat :=
  match s.sideDesc n with
  | none => 100
  | some d =>
    let conv := if d.convLbas = 0 ∨ d.convSpares = 0 then 100 else s.rdN Reg.poolAct_CONV_SPARE_FREE n * 100 / d.convSpares
    let zones := if d.zoneCnt = 0 then 100
      else 100 * (d.zoneCnt - ((s.led n).zones.filter (fun z => z.2.recommended)).length) / d.zoneCnt
    let heads := 100 - 10 * ((List.range 10).filter (fun k => (s.act n).agingSeen.getLsbD (k + 1))).length
    min conv (min zones heads)

/-! ### Reallocation (R248, R249) -/

/-- Relocate a recovered LBA where a spare is free; `payload` is the recovered grain. DEDUCED: log 32. -/
def State.relocate (s : State) (n : Nat) (conv : Bool) (lba step : Nat) (payload : List Byte) : State × Bool :=
  let z := zoneOf lba
  let es := (s.led n).remap
  if conv then
    let k := (s.led n).convNext
    let total := match s.sideDesc n with | some d => d.convSpares | none => 0
    if k < total then
      let e : RemapEnt := ⟨true, lba, step, k, s.alm.hours, false, false, payload⟩
      let s := s.updLed n (fun l => { l with
        remap := sortBy remapLe (l.remap.filter (fun x => !(x.conv && x.lba == lba)) ++ [e]), convNext := k + 1 })
      let s := (s.wrN Reg.poolAct_CONV_SPARE_FREE n (total - (k + 1))).wrN Reg.poolAct_REMAP_ENTRIES n (s.led n).remap.length
      (s.mqWait n (bgEntry 2 true (s.sparePos n e) 1 s.host.stamp .spare), true)
    else (s.bump Reg.poolAct_ZSPARE_FULL_CNT n, false)
  else
    let k := ((es.filter (fun e => !e.conv && zoneOf e.lba == z)).map (fun e => e.spare + 1)).foldl max 0
    if k < 128 then
      let e : RemapEnt := ⟨false, lba, step, k, s.alm.hours, false, false, payload⟩
      let s := s.updLed n (fun l => { l with
        remap := sortBy remapLe (l.remap.filter (fun x => !(!x.conv && x.lba == lba)) ++ [e]) })
      let s := s.wrN Reg.poolAct_REMAP_ENTRIES n (s.led n).remap.length
      (if (s.zone n z).cond = .full then s.queueSpares n z else s, true)
    else
      let s := (s.bump Reg.poolAct_ZSPARE_FULL_CNT n).setZone n z (fun x => { x with recommended := true })
      (s.zoneEvent n z, false)

/-- A sector is accepted at a step (R238, R248, R256, R258). -/
def State.recAccept (s : State) (r : RecRecord) (stored : List Byte) : State :=
  let n := r.n.act
  let s := s.bumpBy Reg.poolAct_RCV_CNT n (r.step - 1) 1
  let b := s.plain n r.n.conv r.n.lba stored
  let newer := r.superseded || s.newerData n r.n.conv r.n.lba
  let (s, moved) := if 2 ≤ r.step ∧ newer = false then s.relocate n r.n.conv r.n.lba r.step b else (s, false)
  let s := s.recDrop r
  let s := if r.n.noCmd then s
    else s.deliver ⟨{ Tag.zero with
      act := n, nsConv := r.n.conv, prio := r.n.prio, slot := r.n.slot, idx := r.n.gidx, lba := r.n.lba, stamp := r.stamp,
      epoch := r.n.epoch, head := r.n.head, track := r.n.track, sector := r.n.sector, len := 4096, sealOk := true,
      recovStep := r.step, realloc := moved, frameTs := (s.act n).frameNo.toNat }, b⟩
  s.trace 3 .ladder n [r.step, r.n.track, r.n.sector]

/-! ### The commands -/

/-- The pool takes the oldest notice while it holds fewer than 1,024 records (R236, R246). -/
def execFailureNoticeTaken (s : State) : Res :=
  .next (
    match s.pool.waiting with
    | [] => s
    | m :: rest =>
      if 1024 ≤ s.pool.records.length then s
      else
        let s := (s.updPool (fun p => { p with waiting := rest })).noticeRefresh
        let cmd := if m.noCmd then none else (s.cmd m.slot).filter (fun c => !c.aborted)
        let m : Notice := match cmd with | some _ => m | none => { m with noCmd := true, prio := 4, slot := 0 }
        let now := s.alm.us64.toNat
        let (s, dl, stamp, limited) : State × Option Nat × Nat × Bool := match cmd with
          | none => (s, s.bgDeadline, s.host.stamp, false)
          | some c =>
            let tler := (s.host.tler.lookup c.sqe.nsid.toNat).getD 70
            let dl := match c.deadline with
              | some d => some d
              | none => if tler = 0 then none else some (now + 100000 * tler)
            (s.updCmd c.slot (fun x => { x with deadline := dl }), dl, c.stamp, c.reads && c.sqe.cdw12.getLsbD 31)
        let r : RecRecord := ⟨m, stamp, 0, 0, false, none, dl, limited, false, [], []⟩
        let s := s.updPool (fun p => { p with records := p.records ++ [r] })
        (s.wrN Reg.pool_REC_HELD 0 s.pool.records.length).toStep r 1)

/-- OUTER, DEEP_ITER and ITI_TAPS as they act (R259). -/
def State.outer (s : State) : Nat := let c := s.rdN Reg.pool_OUTER 0; if 1 ≤ c ∧ c ≤ 4 then c else 4
def State.deepIter (s : State) : Nat := let c := s.rdN Reg.pool_DEEP_ITER 0; if 8 ≤ c ∧ c ≤ 64 then c else 64
def State.itiTaps (s : State) : Nat := let c := s.rdN Reg.pool_ITI_TAPS 0; if 3 ≤ c ∧ c ≤ 15 then c else 11

/-- Tap kind and taps with which the pool decodes a record's sector: those of its head's mode (R228, R237). A record without VALID decodes with
what stands there. -/
def State.poolTaps (s : State) (m : Notice) : Nat × Taps :=
  let ln := s.lane (s.str.laneOf m.act)
  let kind := match s.str.modeOf m.act m.head with | 0 => 0 | 1 | 3 => 1 | _ => 2
  let tz := (((s.sideDesc m.act).bind (fun d => zoneIdx d m.track)).bind (ln.tapZone m.head)).getD 0
  (kind, ln.tapsOf m.head kind tz)

/-- The window in the record's capture record (R230). -/
def State.capWin (s : State) (r : RecRecord) : Option ReadWin :=
  if r.n.capValid then (s.pool.caps.find? (fun c => r.n.cap == some c.1)).bind (·.2) else none

/-- The reads of the record's own sector, oldest first: its rereads, and then the pass of step 4. -/
def RecRecord.own (r : RecRecord) : List ReadWin := (r.reads.filter (fun x => x.track == r.n.track && x.sector == r.n.sector)).map (·.win)

/-- What steps 2 and 3 combine: the capture first, then every reread (R240). -/
def State.ownReads (s : State) (r : RecRecord) : List ReadWin := (s.capWin r).toList ++ r.own.take r.rereads

/-- The sector's best samples (R245): the combination of step 2 where there is one, else the step 4 pass. -/
def State.bestReads (s : State) (r : RecRecord) : List ReadWin := if r.rereads = 0 then r.own.getLast?.toList else s.ownReads r

/-- Equalised samples of a record's sector, as a list for the detector. -/
def State.poolZ (s : State) (m : Notice) (y : Array Int × Array Int) : List Int :=
  let t := s.poolTaps m
  (equalise t.2 t.1 y.1 y.2).toList

/-- Hard decisions of the first detector pass. -/
def State.poolHard (s : State) (m : Notice) (z : List Int) : Array (Int × Bool) := detector (s.poolTaps m).2 z (List.replicate capLen 0)

/-- Deep decode of samples at step 1's alignments, `ext` with P ± 3 and P ± 4 (R237, R238). -/
def State.poolDecode (s : State) (m : Notice) (i exp : Nat) (y : Array Int × Array Int) (useF ext : Bool) : Option AlignOutcome :=
  let l := s.str.laneOf m.act
  let z := s.poolZ m y
  let found := if useF then syncFind ((s.poolHard m z).map (·.2)) (s.syncTol l) else none
  deepTry (s.poolTaps m).2 z (s.msNorm l) s.outer s.deepIter i exp (deepOffs found ext)

/-- Step 3 (R241): the combined samples less the interference of the neighbours read. -/
def State.poolClean (s : State) (r : RecRecord) : Array Int × Array Int :=
  let y := combine (s.ownReads r)
  let near := r.reads.filter (fun x => x.sector == r.n.sector && (x.track + 1 == r.n.track || x.track == r.n.track + 1))
  let bits := near.map (fun x => match x.payload with
    | some b => nbrEncoded x.sector b x.exp
    | none => nbrSigns (s.poolHard r.n (s.poolZ r.n (capY x.win.a, capY x.win.b))))
  (itiClean s.itiTaps bits y.1, itiClean s.itiTaps bits y.2)

/-- What a sector of the segment holds after the pass: the grain still held, the pass's decode, or step 1 on its samples (R244). -/
def State.segPayload (s : State) (r : RecRecord) (i : Nat) : Option (List Byte) :=
  match s.held.find? (fun g => g.tag.act == r.n.act && g.tag.head == r.n.head && g.tag.track == r.n.track && g.tag.sector == i && g.tag.kind == 0
      && g.tag.specSrc == 2 && g.tag.sealOk) with
  | some g => some (s.stored r.n.act g.tag.nsConv g.tag.lba g.payload)
  | none =>
    match r.reads.reverse.find? (fun x => x.track == r.n.track && x.sector == i) with
    | none => none
    | some x =>
      match x.payload with
      | some b => some b
      | none => (s.poolDecode r.n i x.exp (capY x.win.a, capY x.win.b) true (s.rdB Reg.pool_EXT_ALIGN 0)).map (·.payload)

/-- Step 4 (R244, R245): the payload that the parity gives for the record's sector, where its samples agree with it. -/
def State.poolParity (s : State) (r : RecRecord) : Option (List Byte) :=
  match s.sideDesc r.n.act with
  | none => none
  | some d =>
    let spt := d.spt r.n.track
    let first := r.n.sector / 50 * 50
    let p := segParity spt (r.n.sector / 50)
    let data := (List.range (p - first)).map (fun j => if first + j = r.n.sector then none else s.segPayload r (first + j))
    match parSolve data (s.segPayload r p) (s.segPayload r (p + 1)) with
    | none => none
    | some sol =>
      match sol.lookup (r.n.sector - first) with
      | none => none
      | some b =>
        let own := s.bestReads r
        let z := s.poolZ r.n (combine own)
        let hard := s.poolHard r.n z
        let m := alignPlace ((syncFind (hard.map (·.2)) (s.syncTol (s.str.laneOf r.n.act))).getD 0)
        let placed := own.any (fun w => (capSector w.a ++ capSector w.b).any (·.isSome))
        if placed ∧ disagree hard r.n.sector (s.expected r.n.act r.n.head r.n.track r.n.sector) m b * 1000 ≤ s.rdN Reg.pool_PAR_AGREE_MAX 0 * 36864
        then some b else none

/-- What a unit of work on a record gives: the payload as stored, where its step passes (R237 to R245). DEDUCED: log 53. -/
def State.poolOutcome (s : State) (r : RecRecord) : Option (List Byte) :=
  let exp := s.expected r.n.act r.n.head r.n.track r.n.sector
  match r.step with
  | 1 => (s.capWin r).bind (fun w => (s.poolDecode r.n r.n.sector exp (capY w.a, capY w.b) true (s.rdB Reg.pool_EXT_ALIGN 0)).map (·.payload))
  | 2 => (s.poolDecode r.n r.n.sector exp (combine (s.ownReads r)) false false).map (·.payload)
  | 3 => (s.poolDecode r.n r.n.sector exp (s.poolClean r) false false).map (·.payload)
  | _ => s.poolParity r

/-- Step 1 reads the capture record's grains: with one that fails its check the record is as one without a capture (R14, R397). -/
def State.capCheck (s : State) (r : RecRecord) : State × RecRecord :=
  match r.n.cap, s.capWin r with
  | some c, some w =>
    let used := ((if w.a = [] then [] else List.range 8) ++ (if w.b = [] then [] else (List.range 8).map (· + 8))).map (fun i => 16 * c + i)
    let bad := used.filter (fun x => !(s.grainGood 1 x))
    if r.step ≠ 1 ∨ bad = [] then (s, r)
    else
      let s := if bad.any (s.grainClean 1) then s.raise 0x0B00 0 0 (s.injAny 0x0B00 0 (fun y => bad.any (fun x => y == areaWord 1 x))) else s
      let r' : RecRecord := { r with n := { r.n with capValid := false } }
      (s.setRec r r', r')
  | _, _ => (s, r)

/-- Decoder d ends a unit of work (R237 to R247). DEDUCED: log 53. -/
def execDecodeUnitDone (d : Fin 16) (s : State) : Res :=
  .next (
    match s.pool.records.find? (fun r => r.decoder == some d.val) with
    | none => s
    | some r0 =>
      let s := (s.bumpBy Reg.pool_WORK_CNT 0 d 1).decFree d
      let r : RecRecord := { r0 with decoder := none, ready := false }
      let s := s.setRec r0 r
      -- an armed injection into a deep decoder's memory (R444)
      let s := match s.injTake 0x0B01 0 with | some s => s.raise 0x0B01 0 (BitVec.ofNat 32 r.n.act) true | none => s
      let (s, r) := s.capCheck r
      let late := match r.deadline with | some t => decide (t ≤ s.alm.us64.toNat) | none => false
      match s.poolOutcome r with
      | some b => (s.recAccept r b).assign
      | none =>
        if late then (s.stepFive r (r.step - (if r.step = 2 then 1 else 0)) true).assign
        else if r.step = 2 ∧ r.rereads < s.rereadMax ∧ s.stepOpen r 2 then s.assign
        else (s.toStep r (r.step + 1)).assign)

/-- A command's deadline passes: the running steps of its records stop (R246). -/
def execRecoveryDeadline (slot : BitVec 16) (s : State) : Res :=
  .next (
    match s.pool.records.find? (fun r => !r.n.noCmd && r.n.slot == slot.toNat && r.deadline.isSome) with
    | none => s
    | some r => ((s.bump Reg.poolAct_TIMEOUT_CNT r.n.act).stepFive r (r.step - 1) true).assign)

/-! ### Ledger generations (R149, R252, R254, R282, R374, R376) -/

/-- REMAP_FLUSH seconds have passed since the first addition: the generation's write begins. -/
def execRemapFlush (n : Act) (s : State) : Res :=
  .next (if (s.led n).staged.getD 0 false then s.updLed n (fun l => { l with writing := listSet l.writing 0 true }) else s)

/-- ZMAP_FLUSH seconds have passed: pending map changes are made durable (R374). -/
def execZmapFlush (n : Act) (s : State) : Res :=
  .next (if (s.led n).staged.getD 2 false then s.updLed n (fun l => { l with writing := listSet l.writing 2 true }) else s)

/-- The registers of R388 show the progress record in force. -/
def State.sanShow (s : State) (n : Nat) : State :=
  match (s.led n).progress with
  | some p => (s.wrN Reg.zone_SAN_UNITS_DONE n p.done).wrN Reg.zone_SAN_UNITS_TOTAL n p.total
  | none => s

/-- A generation of a kind is written and read back in both regions (R149). -/
def State.genDurable (s : State) (n k : Nat) : State :=
  let s := s.writeGen n k (s.gen n k + 1)
  let s := s.updLed n (fun l => { l with
    gens := listSet l.gens (k - 1) (l.gens.getD (k - 1) 0 + 1), staged := listSet l.staged (k - 1) false,
    writing := listSet l.writing (k - 1) false })
  let g : Word := BitVec.ofNat 32 (s.gen n k)
  match k with
  | 1 =>
    let s := s.updLed n (fun l => { l with remap := l.remap.map (fun e => { e with durable := e.durable || e.written }) })
    s.wr Reg.poolAct_REMAP_GEN n g
  | 2 =>
    let s := (s.updLed n (fun l => { l with lostShown := l.lost })).wr Reg.poolAct_LOST_GEN n g
    if (s.led n).lostEvent then (s.updLed n (fun l => { l with lostEvent := false })).lostEvent n else s
  | 3 =>
    let s := s.updLed n (fun l => { l with zones := l.zones.map (fun z => (z.1, { z.2 with durable := z.2.map })) })
    let s := (s.wr Reg.zone_ZMAP_GEN n g).wrB Reg.zone_CLEAN n (s.led n).clean
    let zs := (s.led n).zoneEvents
    zs.foldl (fun s z => s.zoneEvent n z) (s.updLed n (fun l => { l with zoneEvents := [] }))
  | _ => s

def execLedgerGenerationDurable (n : Act) (kind : Fin 4) (s : State) : Res :=
  .next (
    if (s.led n).staged.getD kind false ∧ s.up (hdaOf n) then
      -- one that does not fit is refused
      if s.ledgerFull n (kind + 1) then s.raise 0x0504 (hdaOf n) else (s.genDurable n (kind + 1)).settle
    else s)

end Sys2Proof.Machine
end

