-- ==== Sys2Proof/Machine/Nvme.lean ====
section
/-!
DEFINITION. Machine/Nvme.lean: the queue and command engine of 13_host_queues.md: arbitration and admission, queues, aborts,
features, asynchronous events and the controller's own enable, reset and shutdown.
-/

namespace Sys2Proof.Machine

/-! ### Fields of commands -/

/-- PRESUMED: log 34. -/
def sqeLba (e : Sqe) : Nat := e.cdw10.toNat + 2 ^ 32 * e.cdw11.toNat
def sqeNlb (e : Sqe) : Nat := e.cdw12.toNat % 65536 + 1

def stOpcode : Nat := st 0 0x01 true
def stRange : Nat := st 0 0x80 true
def stSanitize : Nat := st 0 0x1D false
def stSanFailed : Nat := st 1 0x1C true
def stFormat : Nat := st 0 0x84 false

/-- Admin opcodes of R333. -/
def adminOpcodes : List Nat := [0, 1, 2, 4, 5, 6, 8, 9, 0xA, 0xC, 0xD, 0x10, 0x11, 0x14, 0x15, 0x1D, 0x1E, 0x80, 0x84]

/-- Admin commands that NVMe permits while a sanitize runs. PRESUMED: log 36. -/
def sanAllowed : List Nat := [0, 1, 2, 4, 5, 6, 8, 9, 0xA, 0xC]

/-- Feature identifiers of R335. -/
def featureIds : List Nat := [1, 2, 4, 5, 6, 7, 8, 9, 0xB, 0xC, 0xE]

/-! ### Namespaces (R337) -/

/-- LBAs of a namespace. -/
def State.nsSize (s : State) (nsid : Nat) : Nat :=
  match s.sideDesc (nsAct nsid) with
  | some d => if nsIsConv nsid then d.convLbas else d.zoneCnt * 65536
  | none => 0

/-- The NSID names a namespace that exists: of an actuator that exists, and for a conventional one, created and not empty. -/
def State.nsExists (s : State) (nsid : Nat) : Bool :=
  1 ≤ nsid && nsid ≤ 128 && s.actExists (nsAct nsid) && !(s.fused (nsAct nsid / 2))
    && (!(nsIsConv nsid) || (s.host.created.getLsbD (nsAct nsid)
        && (match s.sideDesc (nsAct nsid) with | some d => d.convLbas != 0 | none => true)))

def State.nsActive (s : State) (nsid : Nat) : Bool := s.nsExists nsid && s.host.attached.getLsbD (nsid - 1)

/-- A thermal shutdown stands for the actuator (R363, R422). -/
def State.thermalStop (s : State) (n : Nat) : Bool :=
  s.flt.active.any (fun a => (a.ftype == 0x0506 || a.ftype == 0x0C01) && a.acts.getLsbD n)

/-- Commands to the actuator's namespaces are executed, or admitted and held until R107's, R112's, R324's or R438's time has
passed (R105, R337, R446). -/
def State.nsReady (s : State) (nsid : Nat) : Bool :=
  let n := nsAct nsid
  let a := s.act n
  s.bound (n / 2) && (a.ready || a.holding || 2 ≤ s.reactAct n) && !a.holdExpired && !a.reloadLate && !(s.thermalStop n)
    && s.rdN Reg.dis_STATE n == 0 && s.rdN Reg.dis_STATE (64 + n / 2) == 0

/-! ### Slots (R341) -/

/-- Slots in use of a pool: 0 shared, 1 the admin reserve, 2 the urgent reserve. -/
def State.poolUsed (s : State) (p : Nat) : Nat := (s.host.cmds.filter (fun c => c.pool == p)).length

/-- The pool a command draws from, none where no slot is left to it. -/
def State.slotPool (s : State) (admin urgent : Bool) : Option Nat :=
  let q := s.str.queue
  let shared := s.poolUsed 0 < 65536 - q.slotAdmin - q.slotUrgent
  if admin ∧ s.poolUsed 1 < q.slotAdmin then some 1
  else if urgent ∧ s.poolUsed 2 < q.slotUrgent then some 2
  else if shared then some 0 else none

/-- The lowest free slot. -/
def State.freeSlotNo (s : State) : Nat :=
  ((List.range (s.host.cmds.length + 1)).find? (fun i => s.host.cmds.all (fun c => c.slot != i))).getD s.host.cmds.length

/-! ### Arbitration (R343) -/

def Sq.waiting (q : Sq) : Bool := q.head != q.tail

/-- The next queue in round robin after `last` among those of a class that hold entries. -/
def State.rrNext (s : State) (cls last : Nat) : Option Sq :=
  let qs := sortBy (fun (a b : Sq) => a.id ≤ b.id) (s.host.sqs.filter (fun q => q.id != 0 && q.prio == cls && q.waiting))
  match qs.find? (fun q => last < q.id) with
  | some q => some q
  | none => qs.head?

/-- Commands a queue's turn may take: 2^AB, or every one when AB is 7, within the class's credit. -/
def State.burst (s : State) (credit : Nat) : Nat :=
  let ab := s.rdN Reg.qce_ARB_AB 0
  if ab = 7 then credit else min (2 ^ ab) credit

/-- Which queue the next fetch takes, with the arbitration state after it: the admin queue, then urgent queues, then the weighted
classes, without the first `passed` of these three (R343). -/
def State.arbitrate (s : State) (passed : Nat) : Option (Sq × HostSt) :=
  let h := s.host
  match (if passed = 0 then h.sqs.find? (fun q => q.id == 0 && q.waiting) else none) with
  | some q => some (q, h)
  | none =>
    match (if passed ≤ 1 then s.rrNext 0 (h.rr.getD 0 0) else none) with
    | some q => some (q, { h with rr := listSet h.rr 0 q.id })
    | none =>
      match (h.sqs.find? (fun q => q.id == h.turn.1 && q.id != 0 && q.waiting)), h.turn.2 with
      | some q, left + 1 =>
        some (q, { h with turn := (q.id, left), credit := listSet h.credit (q.prio - 1) (h.credit.getD (q.prio - 1) 0 - 1) })
      | _, _ =>
        let waits (c : Nat) : Bool := h.sqs.any (fun q => q.id != 0 && q.prio == c && q.waiting)
        let credit := if [1, 2, 3].any (fun c => waits c && h.credit.getD (c - 1) 0 != 0) then h.credit
          else [s.classWeight 1, s.classWeight 2, s.classWeight 3]
        match [1, 2, 3].find? (fun c => waits c && credit.getD (c - 1) 0 != 0) with
        | none => none
        | some c =>
          match s.rrNext c (h.rr.getD c 0) with
          | none => none
          | some q =>
            let left := s.burst (credit.getD (c - 1) 0)
            some (q, { h with
              rr := listSet h.rr c q.id, turn := (q.id, left - 1), credit := listSet credit (c - 1) (credit.getD (c - 1) 0 - 1) })

/-! ### Admission checks (R342, R357, R369, R371) -/

/-- Of the command sets of a namespace. -/
def ioOpcodeOk (conv : Bool) (opc : Nat) : Bool :=
  [0, 1, 2, 8, 0xC].contains opc || (!conv && [0x79, 0x7A, 0x7D].contains opc)

/-- A format runs on the namespace (R386). -/
def State.formatting (s : State) (nsid : Nat) : Bool :=
  (match (s.led (nsAct nsid)).progress with
    | some p => p.action == 3 && p.status == 1 && (p.nsid == 0xFFFFFFFF || p.nsid == nsid)
    | none => false)
  || s.host.cmds.any (fun c => match c.hold with
    | .format acts => acts.contains (nsAct nsid) && (c.sqe.nsid == 0xFFFFFFFF || c.sqe.nsid.toNat == nsid)
    | _ => false)

/-- Write pointer of a zone for the next write: what is buffered and what older admitted writes will bring (R368, R371). -/
def State.zoneWp (s : State) (n z : Nat) : Nat :=
  (s.zone n z).hwp + (s.host.places.filter (fun p => p.act == n && !p.conv && zoneOf p.lba == z)).length

/-- Zones of a side that are active, and open. -/
def State.activeZones (s : State) (n : Nat) : Nat := ((s.led n).zones.filter (fun z => z.2.cond.active)).length
def State.openZones (s : State) (n : Nat) : List (Nat × ZoneSt) := (s.led n).zones.filter (fun z => z.2.cond.open)

/-- The implicitly opened zone whose latest write was admitted earliest (R369). -/
def State.oldestImplicit (s : State) (n : Nat) : Option Nat :=
  ((s.openZones n).filter (fun z => z.2.cond == .implicit)).foldl (fun b z => match b with
    | none => some z.1
    | some y => if z.2.stamp < (s.zone n y).stamp then some z.1 else some y) none

/-- Status of opening zone z, 0 where the limits allow it (R369). -/
def State.openLimit (s : State) (n z : Nat) : Nat :=
  let c := (s.zone n z).cond
  if c.open then 0
  else if c = .empty ∧ 256 ≤ s.activeZones n then st 1 0xBD true
  else if 128 ≤ (s.openZones n).length ∧ (s.oldestImplicit n).isNone then st 1 0xBE true
  else 0

/-- Make room for one more open zone: the 129th closes an implicitly opened one (R369). -/
def State.makeOpen (s : State) (n z : Nat) : State :=
  if (s.zone n z).cond.open = true ∨ (s.openZones n).length < 128 then s
  else
    match s.oldestImplicit n with
    | some y => (s.setZone n y (fun x => { x with cond := .closed })).bump Reg.zone_IMPLICIT_CLOSE_CNT n
    | none => s

/-- Status of a zoned write or append, 0 where it may go on. -/
def State.zoneWriteCheck (s : State) (n : Nat) (append : Bool) (lba count : Nat) : Nat :=
  let z := zoneOf lba
  let wp := s.zoneWp n z
  let ofs := if append then wp else zoneOfs lba
  if append ∧ zoneOfs lba ≠ 0 then stInvalidField
  else if (s.zone n z).cond = .full ∨ 65408 ≤ wp then st 1 0xB9 true
  else if 65408 < ofs + count then st 1 0xB8 true
  else if zoneOfs lba ≠ wp ∧ !append then st 1 0xBC true
  else s.openLimit n z

/-- A device warm reset drains: new I/O is not taken (R108). -/
def State.rootBusy (s : State) : Bool := s.husk.rootDrained

/-- The status of an I/O command that does not pass admission, 0 where it does. PRESUMED: log 56. -/
def State.ioCheck (s : State) (e : Sqe) : Nat :=
  let opc := e.opc.toNat
  let nsid := e.nsid.toNat
  let conv := nsIsConv nsid
  if [0, 1, 2, 8, 0xC, 0x79, 0x7A, 0x7D].contains opc = false then stOpcode
  else if e.keyedSgl then stInvalidField
  else if s.host.sanRun.isSome then stSanitize
  else if s.host.sanFailed then stSanFailed
  else if opc = 0 ∧ nsid = 0xFFFFFFFF then (if s.rootBusy then stNotReady else 0)
  else if s.nsActive nsid = false then stNamespace
  else if ioOpcodeOk conv opc = false then stOpcode
  else if s.rootBusy ∨ s.nsReady nsid = false then stNotReady
  else if s.formatting nsid then stFormat
  else if opc = 0 then 0
  else
    let count := if opc = 0x79 ∨ opc = 0x7A then 1 else (sqeNlb e)
    let all := opc = 0x79 ∧ e.cdw13.getLsbD 8
    if (opc = 1 ∨ opc = 2 ∨ opc = 0x7D) ∧ 256 < count then stInvalidField
    else if opc = 0x79 ∧ [1, 2, 3, 4, 5, 0x10].contains (e.cdw13.toNat % 256) = false then stInvalidField
    else if opc = 0x7A ∧ 1 < e.cdw13.toNat % 256 then stInvalidField
    else if all = false ∧ s.nsSize nsid < (sqeLba e) + count then stRange
    else if conv = false ∧ (opc = 1 ∨ opc = 8 ∨ opc = 0x7D) then s.zoneWriteCheck (nsAct nsid) (opc = 0x7D) (sqeLba e) count
    else 0

/-- The action an admin command names is one of R333's: Namespace Management, Attachment, Device Self-test, Sanitize. PRESUMED: log 34, 56, 126. -/
def adminActionOk (e : Sqe) : Bool :=
  let v := e.cdw10.toNat
  match e.opc.toNat with
  | 0x0D | 0x15 => v % 16 ≤ 1
  | 0x14 => v % 16 == 1 || v % 16 == 2 || v % 16 == 15
  | 0x84 => v % 8 == 1 || ((v % 8 == 3 || v % 8 == 4) && !(e.cdw10.getLsbD 9))
  | _ => true

/-- The status of an admin command that does not pass admission, 0 where it does. -/
def State.adminCheck (s : State) (e : Sqe) : Nat :=
  let opc := e.opc.toNat
  if adminOpcodes.contains opc = false then stOpcode
  else if e.keyedSgl then stInvalidField
  else if s.host.sanRun.isSome ∧ sanAllowed.contains opc = false then stSanitize
  else if s.host.sanFailed ∧ sanAllowed.contains opc = false ∧ opc ≠ 0x84 then stSanFailed
  else if (opc = 9 ∨ opc = 0xA) ∧ featureIds.contains (e.cdw10.toNat % 256) = false then stInvalidField
  else if opc = 9 ∧ e.cdw10.getLsbD 31 then stInvalidField
  else if adminActionOk e = false then stInvalidField
  else if opc = 8 ∧ 16 ≤ (s.host.cmds.filter (fun c => c.admin && c.sqe.opc == 8)).length then st 1 0x03 true
  else if opc = 0xC ∧ 16 ≤ (s.host.cmds.filter (fun c => c.admin && c.sqe.opc == 0xC)).length then st 1 0x05 true
  else 0

/-! ### What admission does with a read or a write (R347, R348) -/

/-- LBA x of a zoned namespace reads as zeros with no media access (R372). -/
def State.readsZero (s : State) (n : Nat) (conv : Bool) (lba : Nat) : Bool :=
  !conv && (65408 ≤ zoneOfs lba || (s.zone n (zoneOf lba)).hwp ≤ zoneOfs lba)

/-- A placeholder of an older write stands for the LBA. -/
def State.placed (s : State) (n : Nat) (conv : Bool) (lba stamp : Nat) : Bool :=
  s.host.places.any (fun p => p.act == n && p.conv == conv && p.lba == lba && p.stamp < stamp)

/-- The newest of placeholder and grain is a grain: a buffer hit (R347). -/
def State.hit (s : State) (n : Nat) (conv : Bool) (lba stamp : Nat) : Option BufGrain :=
  match s.bufFind n conv lba stamp with
  | some g => if s.host.places.any (fun p => p.act == n && p.conv == conv && p.lba == lba && p.stamp < stamp && g.tag.stamp < p.stamp)
              then none else some g
  | none => none

/-- The recovered grain of a relocation not yet written (R249). -/
def State.stagedGrain (s : State) (n : Nat) (conv : Bool) (lba : Nat) : Option (List Byte) :=
  match s.remapOf n conv lba with
  | some e => if e.written ∨ e.payload = [] then none else some e.payload
  | none => none

/-- The grain of an LBA in the read cache (R201). -/
def State.cached (s : State) (n : Nat) (conv : Bool) (lba : Nat) : Option CacheGrain :=
  s.cache.find? (fun g => g.tag.act == n && g.tag.nsConv == conv && g.tag.lba == lba)

/-- What a read LBA needs from the media: not on the lost list, not zeros, no hit, no staged or cached grain. -/
def State.needsMedia (s : State) (c : Cmd) (conv noBuf : Bool) (lba : Nat) : Bool :=
  !(s.isLost c.act conv lba) &&
    (s.placed c.act conv lba c.stamp ||
      (!(s.readsZero c.act conv lba) && (noBuf || ((s.hit c.act conv lba c.stamp).isNone && (s.cached c.act conv lba).isNone))
        && (s.stagedGrain c.act conv lba).isNone))

/-- Admit a read or a verify: pins for its hits, media entries for the rest. -/
def State.admitRead (s : State) (c : Cmd) : State :=
  let conv := nsIsConv c.sqe.nsid.toNat
  let noBuf := c.sqe.opc == 0x0C || (c.sqe.opc == 0x02 && c.sqe.cdw12.getLsbD 30)
  let lbas := (List.range c.count).map (fun i => c.lba + i)
  let media := lbas.filter (s.needsMedia c conv noBuf)
  let hits := if noBuf then [] else lbas.filterMap (fun l => if media.contains l ∨ s.isLost c.act conv l then none else s.hit c.act conv l c.stamp)
  let s := s.updHost (fun h => { h with pins := h.pins ++ hits.map (fun g => (c.slot, c.act, conv, g.tag.lba, g.tag.stamp)) })
  let s := s.bumpBy Reg.qce_BUF_HIT_CNT 0 0 hits.length
  (runs media).foldl (fun s r => s.mqWait c.act ⟨0, c.prio, 1, conv, c.fua, c.slot, r.1, r.2, c.stamp, 0, [], .host⟩) s

/-- Give a write room for as many of its grains as are free, in stamp order (R348). -/
def State.giveRoom (s : State) : State :=
  let ws := sortBy (fun (a b : Cmd) => a.stamp ≤ b.stamp) (s.host.cmds.filter (fun c => c.writes && !c.aborted && c.room < c.left.length))
  ws.foldl (fun s c =>
    let free := s.rdN Reg.qce_BUF_FREE 0
    let give := min free (c.left.length - c.room)
    (s.updCmd c.slot (fun x => { x with room := x.room + give })).bufRefresh) s

/-- Admit a write: placeholders, its media entry, lost-range and zone bookkeeping (R255, R347 to R349, R368, R369, R374, R375). -/
def State.admitWrite (s : State) (c : Cmd) : State :=
  let conv := nsIsConv c.sqe.nsid.toNat
  let n := c.act
  let z := zoneOf c.lba
  let lbas := (List.range c.count).map (fun i => c.lba + i)
  -- a conventional LBA lost with cause 5 is written to a new spare (R249)
  let fresh := if conv then lbas.filter (fun l => (s.remapOf n true l).isNone
    && (s.led n).lost.any (fun e => e.conv && e.cause == 5 && e.first ≤ l && l < e.first + e.count)) else []
  let s := fresh.foldl (fun s l =>
    let k := (s.led n).convNext
    let total := match s.sideDesc n with | some d => d.convSpares | none => 0
    if k < total then
      (s.updLed n (fun d => { d with
        remap := sortBy remapLe (d.remap ++ [(⟨true, l, 5, k, s.alm.hours, false, false, []⟩ : RemapEnt)]), convNext := k + 1 })).wrN
          Reg.poolAct_CONV_SPARE_FREE n (total - (k + 1))
    else s.bump Reg.poolAct_ZSPARE_FULL_CNT n) s
  -- a spare write still waiting for one of these LBAs is this write's now
  let mine (e : MqEntry) : Bool := e.work == .spare && e.nsConv && conv
    && (s.led n).remap.any (fun r => r.conv && s.sparePos n r == e.lba && c.lba ≤ r.lba && r.lba < c.lba + c.count)
  let s := (s.updHost (fun h => { h with waiting := h.waiting.filter (fun e => !(e.1 == n && mine e.2)) })).mqDrop n mine
  let s := s.lostRemove n conv c.lba c.count
  let s : State := { s with cache := s.cache.filter (fun g => !(g.tag.act == n && g.tag.nsConv == conv && c.lba ≤ g.tag.lba && g.tag.lba < c.lba + c.count)) }
  let s := s.updPool (fun p => { p with records := p.records.map (fun r =>
    if r.n.act = n ∧ r.n.conv = conv ∧ c.lba ≤ r.n.lba ∧ r.n.lba < c.lba + c.count then { r with superseded := true } else r) })
  let s := s.updHost (fun h => { h with
    places := h.places ++ lbas.map (fun l => (⟨n, conv, l, c.stamp, c.slot, l - c.lba⟩ : Place)) })
  let s := if conv then s else s.gapFill n z c.prio
  let s := s.mqWait n ⟨0, c.prio, 2, conv, c.fua, c.slot, c.lba, c.count, c.stamp, 0, [], .host⟩
  let s := if conv then s
    else
      let s := s.makeOpen n z
      let s := s.setZone n z (fun x => { x with
        cond := if x.cond.open then x.cond else .implicit, stamp := c.stamp })
      if (s.zone n z).map = 0 then s.zoneMap n z 2 else if (s.zone n z).map = 1 then s.eraseZone n z c.prio else s.accRebuild n z c.prio
  -- a side's first write after a clean generation waits for one with CLEAN = 0 (R376)
  let s := if s.rdB Reg.zone_CLEAN n then s.stage n 3 else s
  let before := c.room
  let s := s.giveRoom
  match s.cmd c.slot with
  | some x => if before + x.room < c.count then s.bump Reg.qce_BUF_WAIT_CNT 0 else s
  | none => s

/-- The queue whose turn it is and the pool of its slot. A queue without a slot loses its turn to the next in the order; none is left
after a weighted class has lost its own, since all three draw from one pool (R341). -/
def State.takeTurn (s : State) (passed : Nat) : Nat → State × Option (Sq × HostSt × Nat)
  | 0 => (s, none)
  | fuel + 1 =>
    match s.arbitrate passed with
    | none => (s, none)
    | some (q, h) =>
      let admin := q.id == 0
      match s.slotPool admin (!admin && q.prio == 0) with
      | some pool => (s, some (q, h, pool))
      | none =>
        let weighted := !admin && q.prio != 0
        let s := (s.bump Reg.qce_SLOT_WAIT_CNT 0).updHost (fun x => { x with rr := h.rr, turn := if weighted then (0, 0) else x.turn })
        let s := s.trace 8 .slotWait noInst [q.id]
        if weighted then (s, none) else s.takeTurn (if admin then 1 else 2) fuel

/-- One arbitration turn with the entry it fetches (R341 to R343). -/
def State.fetchTurn (s : State) (e : Sqe) : State :=
  match s.takeTurn 0 3 with
  | (s, none) => s
  | (s, some (q, h, pool)) =>
      let admin := q.id == 0
      let stamp := s.host.stamp
      let slot := s.freeSlotNo
      let nsid := e.nsid.toNat
      let opc := e.opc.toNat
      let zoned := !(nsIsConv nsid)
      let io := !admin
      let n := nsAct nsid
      let status := if admin then s.adminCheck e else s.ioCheck e
      let lba := if io ∧ opc = 0x7D then zoneOf (sqeLba e) * 65536 + s.zoneWp n (zoneOf (sqeLba e)) else (sqeLba e)
      let user := io && [1, 2, 8, 0xC, 0x7D].contains opc
      let count := if user then (sqeNlb e) else 0
      let fua := io && (opc == 1 || opc == 8 || opc == 0x7D) && (e.cdw12.getLsbD 30 || !s.host.vwc)
      let c : Cmd := ⟨slot, q.id, e, admin, if admin then 0 else q.prio, stamp, pool, if io then n else 0, lba, count, false,
        if user then (List.range (sqeNlb e)).map (fun i => lba + i) else [], 0, fua, false, 0, if opc = 0x7D then BitVec.ofNat 32 lba else 0,
        if io ∧ opc = 0x7D then BitVec.ofNat 32 (lba / 2 ^ 32) else 0, .none, [], none⟩
      let s := s.updHost (fun _ => { h with
        sqs := h.sqs.map (fun x => if x.id = q.id then { x with head := (x.head + 1) % max x.size 1 } else x),
        cmds := h.cmds ++ [c], stamp := stamp + 1,
        classCnt := if admin then h.classCnt else listSet h.classCnt q.prio (h.classCnt.getD q.prio 0 + 1) })
      let used := s.host.cmds.length
      let s := (s.wrN Reg.qce_SLOT_USED 0 used).wrN Reg.qce_SLOT_FREE_MIN 0 (min (65536 - used) (s.rdN Reg.qce_SLOT_FREE_MIN 0))
      let s := s.wr64 Reg.qce_NEXT_STAMP_LO Reg.qce_NEXT_STAMP_HI 0 0 (stamp + 1)
      if status ≠ 0 then
        -- an Abort beyond the limit aborts nothing either (R351). DEDUCED: log 178
        (if admin ∧ opc = 8 then s.bump Reg.qce_ABORT_LOST_CNT 0 else s).complete slot status
      else if io ∧ (opc = 2 ∨ opc = 0xC) then s.admitRead c
      else if io ∧ (opc = 1 ∨ opc = 8 ∨ (opc = 0x7D ∧ zoned)) then s.admitWrite c
      else if io ∧ opc = 0x79 ∧ e.cdw13.toNat % 256 = 4 then
        -- a zone reset keeps its place among the media entries (R193)
        let zs := if e.cdw13.getLsbD 8 then ((s.led n).zones.filter (fun z => z.2.cond != .empty)).map (·.1) else [zoneOf (sqeLba e)]
        -- it invalidates what the read cache holds of the zone (R201)
        let s : State := { s with cache := s.cache.filter (fun g => !(g.tag.act == n && !g.tag.nsConv && zs.contains (zoneOf g.tag.lba))) }
        zs.foldl (fun s z => s.mqWait n ⟨0, q.prio, 3, false, false, slot, z * 65536, 65536, stamp, 0, [], .host⟩) s
      else if io ∧ opc = 0 then
        -- a Flush raises the media work it waits for (R283)
        let up (a : Nat) (x : MqEntry) : MqEntry :=
          if x.opc = 2 ∧ x.work = .host ∧ x.stamp < stamp ∧ flushes nsid a x.nsConv ∧ q.prio < x.prio then { x with prio := q.prio } else x
        let s := s.updHost (fun h => { h with waiting := h.waiting.map (fun w => (w.1, up w.1 w.2)) })
        let s := (List.range 64).foldl (fun s a => if (s.act a).mq = [] then s else (s.updAct a (fun x => { x with mq := x.mq.map (up a) })).mqRefresh a) s
        -- its own entry stands in the queue of each actuator it names until it completes (R190, R342)
        let grains := (s.buf.filter (fun g => !g.written && flushes nsid g.tag.act g.tag.nsConv)).map (fun g => (g.tag.act, g.tag.nsConv, g.tag.lba, g.tag.stamp))
        let s := s.updCmd slot (fun x => { x with hold := .flush [] grains })
        let acts := if nsid = 0xFFFFFFFF then (List.range 64).filter s.actExists else [nsAct nsid]
        acts.foldl (fun s a => s.mqWait a ⟨0, q.prio, 4, nsIsConv nsid, false, slot, 0, 1, stamp, 0, [], .host⟩) s
      else s

/-- Every existing actuator goes not ready, its commands held (R112). -/
def State.holdActs (s : State) : State :=
  ((List.range 64).filter s.actExists).foldl (fun s n => s.updAct n (fun a => { a with ready := false, holding := true })) s

/-- To PS0, PS1 or PS2: at once from an operational state; from PS3 or PS4 the gated islands wake and a return begins, in which the HDAs
spin up through R104 (R111, R112). -/
def State.psOperational (s : State) (t : Nat) : State :=
  let cur := s.rdN Reg.status_CUR_PS 0
  let s := (s.wrN Reg.status_TGT_PS 0 t).wrB Reg.status_PS_BUSY 0 (decide (3 ≤ cur))
  let s : State := { s with pwr := { s.pwr with lastOp := t } }
  if cur < 3 then
    let s := s.wrN Reg.status_CUR_PS 0 t
    if cur = t then s else s.audit 5 .powerState noInst [cur, t]
  else if s.pwr.returnAt.isSome then s
  else
    let s : State := { s with gated := 0 }
    if (List.range 64).all (fun n => !(s.actExists n) || !(s.bound (n / 2))) then
      -- no actuator has anything to return from
      ((s.wrN Reg.status_CUR_PS 0 t).wr Reg.status_PS_BUSY 0 0).audit 5 .powerState noInst [cur, t]
    else
    let hs := (List.range 32).filter (fun h => s.bound h && s.up h)
    ({ s with pwr := { s.pwr with returnAt := some s.alm.us64.toNat }, spinWait := hs } : State).holdActs

/-- A command that arrives in PS3 or PS4 (R111). DEDUCED: log 104. -/
def State.psWake (s : State) : State := if 3 ≤ s.rdN Reg.status_CUR_PS 0 then s.psOperational s.pwr.lastOp else s

/-- Admission runs while the controller is ready and no shutdown stands (R101, R356). -/
def execAdmission (entry : Sqe) (s : State) : Res :=
  .next (if s.host.rdy ∧ s.host.shst = 0 then s.psWake.fetchTurn entry else s)

/-! ### Doorbells (R25) -/

def execSubmissionQueueTailDoorbell (q : Nat) (tail : BitVec 16) (s : State) : Res :=
  .next (
    match s.sq q with
    | some x => if s.host.rdy ∧ tail.toNat < x.size then
        s.updHost (fun h => { h with sqs := h.sqs.map (fun y => if y.id = q then { y with tail := tail.toNat } else y) }) else s
    | none => s)

/-- Completions that waited for room in a queue are posted (R25, R350). -/
def State.postWaiting (s : State) : State :=
  s.host.cmds.foldl (fun s c => if c.hold = .posting then s.complete c.slot c.status c.dw0 c.dw1 else s) s

def execCompletionQueueHeadDoorbell (q : Nat) (head : BitVec 16) (s : State) : Res :=
  .next (
    match s.cq q with
    | some x => if s.host.rdy ∧ head.toNat < x.size then
        (s.updHost (fun h => { h with cqs := h.cqs.map (fun y => if y.id = q then { y with head := head.toNat } else y) })).postWaiting else s
    | none => s)

/-- The aggregation time ends on a vector with completions that wait (R335). -/
def execCoalescingTimeExpiry (vector : Nat) (s : State) : Res :=
  .next (
    if s.host.cqs.any (fun q => q.vec == vector && q.irq && q.count != 0) then
      (s.updHost (fun h => { h with cqs := h.cqs.map (fun x => if x.vec = vector then { x with count := 0 } else x) })).msixSend vector
    else s)

/-! ### A command's own row -/

/-- The admin command in a slot, of this opcode and not yet begun, has its effect. -/
def State.adminRow (s : State) (slot : BitVec 16) (opc : Nat) (act : Cmd → State → State) : State :=
  match s.cmd slot.toNat with
  | some c =>
    if c.admin ∧ c.sqe.opc.toNat = opc ∧ c.begun = false ∧ c.aborted = false ∧ c.hold ≠ .posting then
      act c (s.updCmd c.slot (fun x => { x with begun := true }))
    else s
  | none => s

/-- The I/O command in a slot. -/
def State.ioRow (s : State) (slot : BitVec 16) (opc : Nat) (act : Cmd → State → State) : State :=
  match s.cmd slot.toNat with
  | some c =>
    if c.admin = false ∧ c.sqe.opc.toNat = opc ∧ c.begun = false ∧ c.aborted = false ∧ c.hold ≠ .posting then
      act c (s.updCmd c.slot (fun x => { x with begun := true }))
    else s
  | none => s

/-- Set Features of a FID. -/
def State.setFeature (s : State) (slot : BitVec 16) (fid : Nat) (act : Cmd → State → State) : State :=
  match s.cmd slot.toNat with
  | some c => if c.sqe.cdw10.toNat % 256 = fid then s.adminRow slot 9 act else s
  | none => s

/-! ### Queues (R340, R354) -/

/-- PRESUMED: log 57. -/
def execCreateIoSq (slot : BitVec 16) (s : State) : Res :=
  .next (s.adminRow slot 1 (fun c s =>
    let qid := c.sqe.cdw10.toNat % 65536
    let size := c.sqe.cdw10.toNat / 65536 + 1
    let cq := c.sqe.cdw11.toNat / 65536
    if qid = 0 ∨ s.str.queue.ioqMax < qid ∨ (s.sq qid).isSome ∨ cq = 0 ∨ (s.cq cq).isNone then s.complete c.slot (st 1 0x01 true)
    else if size < 2 then s.complete c.slot (st 1 0x02 true)
    else if c.sqe.cdw11.getLsbD 0 = false then s.complete c.slot stInvalidField
    else (s.updHost (fun h => { h with sqs := h.sqs ++ [⟨qid, size, cq, c.sqe.cdw11.toNat / 2 % 4, 0, 0⟩] })).complete c.slot 0))

def execCreateIoCq (slot : BitVec 16) (s : State) : Res :=
  .next (s.adminRow slot 5 (fun c s =>
    let qid := c.sqe.cdw10.toNat % 65536
    let size := c.sqe.cdw10.toNat / 65536 + 1
    let vec := c.sqe.cdw11.toNat / 65536
    if qid = 0 ∨ s.str.queue.ioqMax < qid ∨ (s.cq qid).isSome then s.complete c.slot (st 1 0x01 true)
    else if size < 2 then s.complete c.slot (st 1 0x02 true)
    else if s.str.queue.msixMax ≤ vec then s.complete c.slot (st 1 0x08 true)
    else if c.sqe.cdw11.getLsbD 0 = false then s.complete c.slot stInvalidField
    else (s.updHost (fun h => { h with cqs := h.cqs ++ [⟨qid, size, vec, c.sqe.cdw11.getLsbD 1, 0, 0, 0⟩] })).complete c.slot 0))

def execDeleteIoCq (slot : BitVec 16) (s : State) : Res :=
  .next (s.adminRow slot 4 (fun c s =>
    let qid := c.sqe.cdw10.toNat % 65536
    if qid = 0 ∨ (s.cq qid).isNone then s.complete c.slot (st 1 0x01 true)
    else if s.host.sqs.any (fun q => q.cq == qid) then s.complete c.slot (st 1 0x0C true)
    else (s.updHost (fun h => { h with cqs := h.cqs.filter (fun q => q.id != qid) })).complete c.slot 0))

/-! ### Abort (R350 to R354) -/

/-- Resolve a slot as ABORTED with the status its entry will carry. -/
def State.abortSlot (s : State) (c : Cmd) (status : Nat) : State :=
  ((s.abortWork c).updCmd c.slot (fun x => { x with aborted := true, status := status })).trace 8 .abortResolve noInst [c.slot, status]

/-- Abort (R350): too late or without a command it counts as lost. -/
def execAbort (slot : BitVec 16) (sameCycleCompletion : Bool) (s : State) : Res :=
  .next (s.adminRow slot 8 (fun c s =>
    let q := c.sqe.cdw10.toNat % 65536
    let cid : BitVec 16 := BitVec.ofNat 16 (c.sqe.cdw10.toNat / 65536)
    match s.host.cmds.find? (fun x => x.sq == q && x.sqe.cid == cid && !x.admin && x.open) with
    | some t =>
      if sameCycleCompletion then (s.bump Reg.qce_ABORT_LOST_CNT 0).complete c.slot 0 1
      else
        let s := (s.bump Reg.qce_ABORT_OK_CNT 0).abortSlot t stAbort
        s.updCmd c.slot (fun x => { x with wait := [t.slot] })
    | none => (s.bump Reg.qce_ABORT_LOST_CNT 0).complete c.slot 0 1))

/-- Abort and Delete I/O SQ commands whose targets' entries are all written complete (R351, R354). -/
def State.waitersDone (s : State) : State :=
  s.host.cmds.foldl (fun s c =>
    if c.admin ∧ c.begun ∧ c.wait ≠ [] ∧ c.wait.all (fun t => (s.cmd t).isNone) then
      let s := if c.sqe.opc = 0 then
          s.updHost (fun h => { h with sqs := h.sqs.filter (fun q => q.id != c.sqe.cdw10.toNat % 65536) }) else s
      s.complete c.slot 0
    else s) s

/-- The aborted command's work in flight has stopped: its entry is written (R352). -/
def execAbortCompletion (slot : BitVec 16) (s : State) : Res :=
  .next (
    match s.cmd slot.toNat with
    | some c => if c.aborted ∧ c.hold ≠ .posting then (((s.complete c.slot c.status).waitersDone).giveRoom).settle else s
    | none => s)

def execDeleteIoSq (slot : BitVec 16) (s : State) : Res :=
  .next (s.adminRow slot 0 (fun c s =>
    let qid := c.sqe.cdw10.toNat % 65536
    match s.sq qid with
    | none => s.complete c.slot (st 1 0x01 true)
    | some q =>
      if qid = 0 then s.complete c.slot (st 1 0x01 true)
      else
        let ts := s.host.cmds.filter (fun x => x.sq == qid && !x.admin && x.open)
        let s := ts.foldl (fun s t => s.abortSlot t stSqDeleted) s
        let s := s.bumpBy Reg.qce_SQDEL_ABORT_CNT 0 0 ts.length
        let s := s.updHost (fun h => { h with sqs := h.sqs.map (fun x => if x.id = qid then { q with tail := q.head } else x) })
        let waits := (s.host.cmds.filter (fun x => x.sq == qid && !x.admin)).map (·.slot)
        if waits = [] then (s.updHost (fun h => { h with sqs := h.sqs.filter (fun x => x.id != qid) })).complete c.slot 0
        else s.updCmd c.slot (fun x => { x with wait := waits })))

/-! ### Controller enable, reset and shutdown (R101, R355, R356) -/

/-- Every feature at its default (R335). -/
def State.featureDefaults (s : State) : State :=
  let s := (s.wr Reg.qce_ARB_AB 0 3).wr Reg.qce_ARB_LPW 0 0
  let s := (s.wr Reg.qce_ARB_MPW 0 3).wr Reg.qce_ARB_HPW 0 7
  s.updHost (fun h => { h with
    tler := [], thresh := [], vwc := true, ncqr := (0, 0), coal := (0, 0), vecOff := [], aec := 0xFFFFFFFF, apst := none, ts := (0, 0) })
    |>.psOperational 0

/-- What a controller reset does (R355): slots ABORTED with no entry, queues deleted, RDY cleared. -/
def State.ctrlReset (s : State) : State :=
  let s := (s.host.cmds.filter (fun c => c.open)).foldl (fun s c => s.abortWork c) s
  let s := s.updHost (fun h => { h with
    cmds := [], sqs := [], cqs := [], places := [], pins := [], rr := [0, 0, 0, 0], turn := (0, 0), credit := [0, 0, 0], rdy := false,
    shst := 0, cc := h.cc &&& 0xFFFFFFFE, aerMasked := [], aerWait := [],
    -- a short self-test ends with it: result 2 (R387, log 34)
    test := match h.test.running with | some (false, _) => ⟨none, (1, 2, 0, 0, s.alm.hours) :: h.test.log⟩ | _ => h.test })
  let s : State := { s with buf := s.buf.filter (fun g => !g.written) }
  ((s.wr Reg.qce_SLOT_USED 0 0).featureDefaults).bufRefresh

def execControllerReset (s : State) : Res := .next (if s.host.cc.getLsbD 0 then s.ctrlReset else s)

/-- Culm has been released: the start is over and firmware was selected (R99, R101). -/
def State.culmReleased (s : State) : Bool := s.locked && s.husk.fwVersion.isSome && s.rdN Reg.ddr_TOTAL_MIB 0 != 0

/-- RDY follows CC.EN once Culm is released; the admin queues take the sizes AQA gives. -/
def State.ctrlReady (s : State) : State :=
  if s.host.cc.getLsbD 0 ∧ s.host.rdy = false ∧ s.culmReleased then
    let a := s.host.aqa.toNat
    s.updHost (fun h => { h with
      rdy := true, sqs := [⟨0, a % 4096 + 1, 0, 0, 0, 0⟩], cqs := [⟨0, a / 65536 % 4096 + 1, 0, true, 0, 0, 0⟩] })
  else s

/-- CC.EN becomes 1. IOSQES and IOCQES other than 6 and 4, once set, and a host page above 64 KiB leave RDY at 0 (R332). -/
def execControllerEnable (cc : Word) (s : State) : Res :=
  .next (
    if cc.getLsbD 0 = false ∨ s.host.cc.getLsbD 0 then s
    else
      let iosq := cc.toNat / 65536 % 16
      let iocq := cc.toNat / 1048576 % 16
      let ok := (iosq = 6 ∨ iosq = 0) ∧ (iocq = 4 ∨ iocq = 0) ∧ cc.toNat / 128 % 16 ≤ 4
      let s := s.updHost (fun h => { h with cc := cc, shutdownSeen := false })
      if ok then s.ctrlReady else s)

/-- Ledger additions staged anywhere. -/
def State.stagedAny (s : State) : Bool := (List.range 64).any (fun n => (s.led n).staged.any id && s.up (n / 2))

def State.undrained (s : State) : Bool := s.buf.any (fun g => !g.written)

/-- A side whose buffer is empty gets a clean generation (R376). -/
def State.cleanSides (s : State) : State :=
  (List.range 64).foldl (fun s n =>
    if s.actExists n ∧ (s.act n).ledgerRead ∧ s.rdB Reg.zone_CLEAN n = false ∧ s.buf.all (fun g => g.tag.act != n || g.written) then
      (s.stage n 3).updLed n (fun l => { l with clean := true }) else s) s

/-- CC.SHN: admission stops, and the drain begins. SHST 1 is processing; a drain with nothing to do ends at its own row. -/
def execShutdownNormal (s : State) : Res :=
  .next (if s.host.rdy ∧ s.host.shst = 0 then (s.updHost (fun h => { h with shst := 1, shutdownSeen := true })).cleanSides else s)

/-! ### Features (R335) -/

def execArbitration (slot : BitVec 16) (s : State) : Res :=
  .next (s.setFeature slot 1 (fun c s =>
    let v := c.sqe.cdw11.toNat
    let s := (s.wrN Reg.qce_ARB_AB 0 (v % 8)).wrN Reg.qce_ARB_LPW 0 (v / 256 % 256)
    ((s.wrN Reg.qce_ARB_MPW 0 (v / 65536 % 256)).wrN Reg.qce_ARB_HPW 0 (v / 16777216)).complete c.slot 0))

/-- Thresholds of sensors 0, 1 and 2, over and under. -/
def execTemperatureThreshold (slot : BitVec 16) (s : State) : Res :=
  .next (s.setFeature slot 4 (fun c s =>
    let v := c.sqe.cdw11.toNat
    let sel := v / 65536 % 16
    let typ := v / 1048576 % 4
    if (2 < sel ∧ sel ≠ 15) ∨ 1 < typ then s.complete c.slot stInvalidField
    else
      let keys := (if sel = 15 then [0, 1, 2] else [sel]).map (fun k => 2 * k + typ)
      (s.updHost (fun h => { h with thresh := keys.foldl (fun l k => assocSet l k (v % 65536)) h.thresh })).complete c.slot 0))

/-- TLER of a namespace; DULBE is not supported. -/
def execErrorRecovery (slot : BitVec 16) (s : State) : Res :=
  .next (s.setFeature slot 5 (fun c s =>
    let nsid := c.sqe.nsid.toNat
    if c.sqe.cdw11.getLsbD 16 then s.complete c.slot stInvalidField
    else if nsid ≠ 0xFFFFFFFF ∧ s.nsActive nsid = false then s.complete c.slot stNamespace
    else
      let ids := if nsid = 0xFFFFFFFF then (List.range 128).map (· + 1) else [nsid]
      (s.updHost (fun h => { h with tler := ids.foldl (fun l k => assocSet l k (c.sqe.cdw11.toNat % 65536)) h.tler })).complete c.slot 0))

def execVolatileWriteCache (slot : BitVec 16) (s : State) : Res :=
  .next (s.setFeature slot 6 (fun c s => (s.updHost (fun h => { h with vwc := c.sqe.cdw11.getLsbD 0 })).complete c.slot 0))

/-- The answer gives the counts allocated, each less 1. -/
def execNumberOfQueues (slot : BitVec 16) (s : State) : Res :=
  .next (s.setFeature slot 7 (fun c s =>
    let v := c.sqe.cdw11.toNat
    if v % 65536 = 65535 ∨ v / 65536 = 65535 then s.complete c.slot stInvalidField
    else
      let m := s.str.queue.ioqMax - 1
      (s.updHost (fun h => { h with ncqr := (v % 65536, v / 65536) })).complete c.slot 0 (BitVec.ofNat 32 (m + 65536 * m))))

def execInterruptCoalescing (slot : BitVec 16) (s : State) : Res :=
  .next (s.setFeature slot 8 (fun c s =>
    let v := c.sqe.cdw11.toNat
    (s.updHost (fun h => { h with coal := (v % 256, v / 256 % 256) })).complete c.slot 0))

def execInterruptVectorConfiguration (slot : BitVec 16) (s : State) : Res :=
  .next (s.setFeature slot 9 (fun c s =>
    let v := c.sqe.cdw11.toNat % 65536
    if s.str.queue.msixMax ≤ v then s.complete c.slot stInvalidField
    else
      let rest := s.host.vecOff.filter (fun x => x != v)
      (s.updHost (fun h => { h with vecOff := if c.sqe.cdw11.getLsbD 16 then rest ++ [v] else rest })).complete c.slot 0))

/-- An event the configuration disables is not retained either (R359). -/
def execAsynchronousEventConfiguration (slot : BitVec 16) (s : State) : Res :=
  .next (s.setFeature slot 0xB (fun c s =>
    let s := s.updHost (fun h => { h with aec := c.sqe.cdw11 })
    (s.updHost (fun h => { h with aerWait := h.aerWait.filter (fun e => s.eventOn e.1 e.2.1) })).complete c.slot 0))

/-- The table's entries: target state and idle time in ms; PS3 and PS4 only (R111). -/
def execAutonomousPowerStateTransition (slot : BitVec 16) (table : List (Nat × Nat)) (s : State) : Res :=
  .next (s.setFeature slot 0xC (fun c s =>
    if c.sqe.cdw11.getLsbD 0 = false then (s.updHost (fun h => { h with apst := none })).complete c.slot 0
    else if table.all (fun e => e.1 == 3 || e.1 == 4) then (s.updHost (fun h => { h with apst := some table })).complete c.slot 0
    else s.complete c.slot stInvalidField))

def execTimestamp (slot : BitVec 16) (ms : BitVec 48) (s : State) : Res :=
  .next (s.setFeature slot 0xE (fun c s =>
    let s := s.updHost (fun h => { h with ts := (ms.toNat, s.alm.us64.toNat) })
    (s.audit 3 .hostTimestamp noInst [ms.toNat]).complete c.slot 0))

/-- The host's time now: the timestamp and what has passed since. -/
def State.hostMs (s : State) : Nat := s.host.ts.1 + (s.alm.us64.toNat - s.host.ts.2) / 1000

/-- Default thresholds (R335, R363): sensor 0 and 1 J_WARN, sensor 2 H_WARN, in kelvin; under thresholds 0. -/
def State.threshOf (s : State) (sensor typ : Nat) : Nat :=
  match s.host.thresh.lookup (2 * sensor + typ) with
  | some v => v
  | none => if typ = 1 then 0 else (if sensor = 2 then s.str.therm.hWarn else s.str.therm.jWarn) + 273

/-- Dword 0 of Get Features. -/
def State.featureValue (s : State) (e : Sqe) : Word :=
  let b (x : Bool) : Nat := if x then 1 else 0
  BitVec.ofNat 32 (match e.cdw10.toNat % 256 with
    | 1 => s.rdN Reg.qce_ARB_AB 0 + 256 * s.rdN Reg.qce_ARB_LPW 0 + 65536 * s.rdN Reg.qce_ARB_MPW 0 + 16777216 * s.rdN Reg.qce_ARB_HPW 0
    | 2 => s.rdN Reg.status_CUR_PS 0
    | 4 => s.threshOf (e.cdw11.toNat / 65536 % 16) (e.cdw11.toNat / 1048576 % 4)
    | 5 => (s.host.tler.lookup e.nsid.toNat).getD 70
    | 6 => b s.host.vwc
    | 7 => (s.str.queue.ioqMax - 1) * 65537
    | 8 => s.host.coal.1 + 256 * s.host.coal.2
    | 9 => e.cdw11.toNat % 65536 + 65536 * b (s.host.vecOff.contains (e.cdw11.toNat % 65536))
    | 0xB => s.host.aec.toNat
    | 0xC => b s.host.apst.isSome
    | _ => 0)

/-- Timestamp and the transition table are returned as data. -/
def execGetFeatures (slot : BitVec 16) (s : State) : Res :=
  .next (s.adminRow slot 0xA (fun c s =>
    let fid := c.sqe.cdw10.toNat % 256
    let s := if fid = 0xE then s.emit (.hostData c.slot (toLe 6 s.hostMs ++ [0, 0]))
      else if fid = 0xC then s.emit (.hostData c.slot ((s.host.apst.getD []).flatMap (fun e => toLe 8 (8 * e.1 + 256 * e.2)) ))
      else s
    s.complete c.slot 0 (s.featureValue c.sqe)))

/-- A request waits, or takes an event retained (R359). PRESUMED: log 57. -/
def execAsynchronousEventRequest (slot : BitVec 16) (s : State) : Res :=
  .next (s.adminRow slot 0xC (fun _ s => s.aerServe 16))

end Sys2Proof.Machine
end

