-- ==== Sys2Proof/Machine/NvmeIo.lean ====
section
/-!
DEFINITION. Machine/NvmeIo.lean: the NVM commands of 13_host_queues.md: writes into the volatile buffer, reads in admission
order, Flush, Verify, and the failures of host memory (R331, R346 to R349).
-/

namespace Sys2Proof.Machine

/-! ### Grains into the buffer (R347, R348, R368) -/

/-- One grain of a write fills its placeholder: payload and tag go to a free index of partition 0, which is write-through (R12, R348, R402). -/
def State.bufferGrain (s : State) (c : Cmd) (lba : Nat) (payload : List Byte) : State :=
  let conv := nsIsConv c.sqe.nsid.toNat
  let x := freePlace (s.buf.map (·.place))
  let t : Tag := { Tag.zero with
    act := c.act, nsConv := conv, prio := c.prio, slot := c.slot, idx := lba - c.lba, lba := lba, stamp := c.stamp, len := 4096,
    frameTs := (s.act c.act).frameNo.toNat }
  let s := s.putGrain idDma 0 x t payload
  let s : State := { s with buf := s.buf ++ [⟨t, x, false, c.fua, false⟩] }
  let s := s.updHost (fun h => { h with places := h.places.filter (fun p => !(p.slot == c.slot && p.lba == lba && p.stamp == c.stamp)) })
  let s := s.updCmd c.slot (fun x => { x with left := x.left.filter (fun l => l != lba), room := x.room - 1 })
  let s := s.bufRefresh
  if conv then s
  else
    let z := zoneOf lba
    let s := s.setZone c.act z (fun x => { x with hwp := zoneOfs lba + 1 })
    if (s.zone c.act z).hwp = 65408 then s.zoneFull c.act z else s

/-- A write of zeros fills what room it has been given. -/
def State.fillZeroes (s : State) (slot fuel : Nat) : State :=
  match fuel, s.cmd slot with
  | fuel + 1, some c =>
    if c.begun ∧ c.sqe.opc = 0x08 ∧ c.admin = false ∧ c.room ≠ 0 then
      match c.left with
      | l :: _ => (s.bufferGrain c l (List.replicate 4096 0)).fillZeroes slot fuel
      | [] => s
    else s
  | _, _ => s

/-- A fetched grain reaches the buffer; in a zone they enter in LBA order. One whose TAG_CRC fails on the way is discarded, and its command
completes with Internal Error (R14). -/
def execDataGrainBuffered (slot : BitVec 16) (index : Nat) (payload : List Byte) (tagOk : Bool) (s : State) : Res :=
  .next (
    match s.cmd slot.toNat with
    | some c =>
      let lba := c.lba + index
      let inOrder := nsIsConv c.sqe.nsid.toNat || c.left.head? == some lba
      if c.begun ∧ c.writes ∧ c.sqe.opc ≠ 0x08 ∧ c.aborted = false ∧ c.room ≠ 0 ∧ c.left.contains lba ∧ inOrder then
        if tagOk then (s.bufferGrain c lba payload).settle
        else (((s.raise 0x0400 0).abortWork c).complete c.slot stInternal).settle
      else s
    | none => s)

/-- Freed space goes to the writes that wait for it, in stamp order. -/
def execBufWaitResume (s : State) : Res :=
  .next (
    let s := s.bufRefresh.giveRoom
    (s.host.cmds.foldl (fun s c => s.fillZeroes c.slot c.room) s).settle)

/-! ### Writes (R282, R284, R348) -/

/-- The data fetch of a write starts. -/
def execWrite (slot : BitVec 16) (s : State) : Res := .next (s.ioRow slot 0x01 (fun _ s => s))

/-- Append at the write pointer; the LBA it starts at is returned in dwords 0 and 1 (R333). -/
def execZoneAppend (slot : BitVec 16) (s : State) : Res := .next (s.ioRow slot 0x7D (fun _ s => s))

def execWriteZeroes (slot : BitVec 16) (s : State) : Res :=
  .next (s.ioRow slot 0x08 (fun c s => (s.fillZeroes c.slot c.count).settle))

/-! ### Reads (R255, R347, R372) -/

/-- The LBA waits in a media entry of the command. -/
def State.inMedia (s : State) (c : Cmd) (lba : Nat) : Bool :=
  let covers (e : MqEntry) : Bool := e.slot == c.slot && e.stamp == c.stamp && e.opc == 1 && e.lba ≤ lba && lba < e.lba + e.count
  (s.act c.act).mq.any covers || s.host.waiting.any (fun w => w.1 == c.act && covers w.2)

/-- What the command's LBA reads as without the media: its pinned grain, the recovered or the cached grain, or zeros. -/
def State.readSource (s : State) (c : Cmd) (lba : Nat) : Option (List Byte × Option BufGrain) :=
  let conv := nsIsConv c.sqe.nsid.toNat
  match s.host.pins.find? (fun p => p.1 == c.slot && p.2.2.2.1 == lba) with
  | some p =>
    (s.buf.find? (fun g => g.tag.act == p.2.1 && g.tag.nsConv == conv && g.tag.lba == lba && g.tag.stamp == p.2.2.2.2)).map
      (fun g => (s.grainBytes 0 g.place, some g))
  | none =>
    match s.stagedGrain c.act conv lba with
    | some b => some (b, none)
    | none =>
      match (if c.sqe.opc = 0x02 ∧ c.sqe.cdw12.getLsbD 30 = false then s.cached c.act conv lba else none) with
      | some g => some (s.grainBytes 6 g.place, none)
      | none => if s.readsZero c.act conv lba then some (List.replicate 4096 0, none) else none

/-- A cached grain that fails its check is discarded, and its LBA is read from the media (R14, R397). -/
def State.cacheCheck (s : State) (n : Nat) (conv : Bool) (lba : Nat) : State :=
  match s.cached n conv lba with
  | none => s
  | some g =>
    if s.grainGood 6 g.place then s
    else
      let inj := s.injAny 0x0400 0 (· == areaWord 6 g.place)
      let poisoned := !(s.grainClean 6 g.place)
      let s : State := { s with cache := s.cache.filter (fun y => y != g) }
      if poisoned then s.bump Reg.gran_DROP_POISON_CNT 0 else s.raise 0x0400 0 0 inj

/-- Serve the LBAs that need no media. -/
def State.serve (s : State) (c : Cmd) : State :=
  let conv := nsIsConv c.sqe.nsid.toNat
  c.left.foldl (fun s lba =>
    if s.inMedia c lba ∨ (s.cmd c.slot).isNone then s
    else
      let s := s.cacheCheck c.act conv lba
      match s.readSource c lba with
      | some (b, g) =>
        match g.filter (fun g => !(s.grainGood 0 g.place)) with
        | some g => (s.badGrain 0x0400 0 g).complete c.slot stInternal    -- a pinned grain fails its tag check (R14, R364)
        | none =>
          let s := if c.sqe.opc = 0x02 then s.emit (.grain c.slot (lba - c.lba) lba b) else s
          s.updCmd c.slot (fun x => { x with left := x.left.filter (fun l => l != lba) })
      | none => s.mqWait c.act ⟨0, c.prio, 1, conv, c.fua, c.slot, lba, 1, c.stamp, 0, [], .host⟩) s

/-- A read with an LBA on the lost-range list completes with Unrecovered Read Error (R255, R256). -/
def State.readStart (s : State) (c : Cmd) : State :=
  let conv := nsIsConv c.sqe.nsid.toNat
  match c.left.find? (fun l => s.isLost c.act conv l) with
  | some l =>
    let s := (s.bump Reg.poolAct_URE_CNT c.act).updHost (fun h => { h with dataErrors := h.dataErrors + 1 })
    ((s.errEntry c (stUnrecovered true) l).complete c.slot (stUnrecovered true)).settle
  | none => (s.serve c).settle

def execRead (slot : BitVec 16) (s : State) : Res := .next (s.ioRow slot 0x02 (fun c s => s.readStart c))

/-- Verify reads the media and runs the ladder; it transfers nothing (R333). -/
def execVerify (slot : BitVec 16) (s : State) : Res := .next (s.ioRow slot 0x0C (fun c s => s.readStart c))

/-! ### Flush (R283) -/

/-- It waits for the older buffered grains, and for the remap and lost-range additions staged. DEDUCED: log 37. -/
def execFlush (slot : BitVec 16) (s : State) : Res :=
  .next (s.ioRow slot 0x00 (fun c s =>
    let nsid := c.sqe.nsid.toNat
    let acts := if nsid = 0xFFFFFFFF then List.range 64 else [nsAct nsid]
    let gs := match c.hold with | .flush _ gs => gs | _ => []
    (s.updCmd c.slot (fun x => { x with hold := .flush (acts.flatMap (fun n => s.gensDue n [1, 2])) gs })).settle))

/-! ### Host memory fails (R331) -/

def execDmaError (slot : BitVec 16) (kind : DmaFail) (s : State) : Res :=
  .next (
    match s.cmd slot.toNat with
    | some c =>
      if c.open = false then s
      else
        let s := s.bump Reg.pcie_DMA_ERR_CNT 0
        let s := match kind with
          | .poisoned => s.bump Reg.pcie_POISON_CNT 0
          | .timeout => s.bump Reg.pcie_CPL_TMO_CNT 0
          | _ => s
        ((s.abortWork c).complete c.slot (st 0 0x04 false)).settle
    | none => s)

end Sys2Proof.Machine
end

