-- ==== Sys2Proof/Machine/Zones.lean ====
section
/-!
DEFINITION. Machine/Zones.lean: Zone Management Send and Receive (R370 to R372 of 14_zones_sanitize_format.md).
-/

namespace Sys2Proof.Machine

def stTransition : Nat := st 1 0xBF true

/-- The Zone Management Send command in a slot, with this action. -/
def State.zoneSend (s : State) (slot : BitVec 16) (zsa : Nat) (act : Cmd → State → State) : State :=
  match s.cmd slot.toNat with
  | some c => if c.sqe.cdw13.toNat % 256 = zsa then s.ioRow slot 0x79 act else s
  | none => s

/-- The zones an action names: one, or with Select All every zone whose condition permits it. -/
def State.zonesOf (s : State) (c : Cmd) (permits : ZCond → Bool) : List Nat :=
  if c.sqe.cdw13.getLsbD 8 then
    match s.sideDesc c.act with
    | some d => (List.range d.zoneCnt).filter (fun z => permits (s.zone c.act z).cond)
    | none => []
  else [zoneOf (sqeLba c.sqe)]

/-- Apply an action, or refuse it where the one zone's condition forbids it. -/
def State.zoneAct (s : State) (c : Cmd) (permits : ZCond → Bool) (act : List Nat → State → State) : State :=
  let zs := s.zonesOf c permits
  if zs.all (fun z => permits (s.zone c.act z).cond) then act zs s else s.complete c.slot stTransition

/-- Close: an open zone to Closed, or to Empty when nothing has been written. -/
def execZoneClose (slot : BitVec 16) (s : State) : Res :=
  .next (s.zoneSend slot 1 (fun c s => s.zoneAct c (fun q => q.active) (fun zs s =>
    (zs.foldl (fun s z => s.setZone c.act z (fun x => { x with
      cond := if x.cond.open then (if s.zoneWp c.act z = 0 then .empty else .closed) else x.cond })) s).complete c.slot 0)))

/-- Finish: to Full. Select All takes the zones that are open or Closed. DEDUCED: log 54. -/
def execZoneFinish (slot : BitVec 16) (s : State) : Res :=
  .next (s.zoneSend slot 2 (fun c s =>
    s.zoneAct c (fun q => if c.sqe.cdw13.getLsbD 8 then q.active else true) (fun zs s =>
      let todo := zs.filter (fun z => (s.zone c.act z).cond != .full)
      let s := todo.foldl (fun s z =>
        let s := if (s.zone c.act z).map = 1 then s.eraseZone c.act z c.prio else s
        s.zoneFull c.act z) s
      if todo = [] then s.complete c.slot 0
      else (s.updCmd c.slot (fun x => { x with hold := .finish todo })).settle)))

/-- Open: to Explicitly Opened under R369; Select All takes the Closed zones. -/
def execZoneOpen (slot : BitVec 16) (s : State) : Res :=
  .next (s.zoneSend slot 3 (fun c s =>
    s.zoneAct c (fun q => if c.sqe.cdw13.getLsbD 8 then q == .closed else q != .full) (fun zs s =>
      -- the limits are met zone by zone; the first one that fails decides
      let r := zs.foldl (fun (p : State × Nat) z =>
        if p.2 ≠ 0 then p
        else
          let v := p.1.openLimit c.act z
          if v ≠ 0 then (p.1, v)
          else
            let t := p.1.makeOpen c.act z
            let t := t.setZone c.act z (fun x => { x with cond := .explicit, stamp := c.stamp })
            (if (t.zone c.act z).map = 0 then t.zoneMap c.act z 2 else t, 0)) (s, 0)
      let s := r.1
      if r.2 ≠ 0 then s.complete c.slot r.2
      else
        let due := zs.filter (fun z => (s.zone c.act z).map == 2 && (s.zone c.act z).durable != 2)
        if due = [] then s.complete c.slot 0
        else (s.updCmd c.slot (fun x => { x with hold := .opening due })).settle)))

/-- Reset: to Empty, once the older work is done. DEDUCED: log 55. -/
def execZoneReset (slot : BitVec 16) (s : State) : Res :=
  .next (s.zoneSend slot 4 (fun c s =>
    let zs := (if c.sqe.cdw13.getLsbD 8 then ((s.led c.act).zones.filter (fun z => z.2.cond != .empty)).map (·.1)
      else [zoneOf (sqeLba c.sqe)]).filter (fun z => (s.zone c.act z).cond != .empty)
    if zs = [] then
      let mine (e : MqEntry) : Bool := e.opc == 3 && e.slot == c.slot && e.stamp == c.stamp
      let s := (s.updHost (fun h => { h with waiting := h.waiting.filter (fun w => !(w.1 == c.act && mine w.2)) })).mqDrop c.act mine
      s.complete c.slot 0
    else (s.updCmd c.slot (fun x => { x with hold := .reset zs })).settle))

def execZoneOffline (slot : BitVec 16) (s : State) : Res :=
  .next (s.zoneSend slot 5 (fun c s => s.complete c.slot stTransition))

def execSetZoneDescriptorExtension (slot : BitVec 16) (s : State) : Res :=
  .next (s.zoneSend slot 0x10 (fun c s => s.complete c.slot stInvalidField))

/-! ### Zone Management Receive -/

/-- Zone state code of a condition (log 34). -/
def ZCond.code (c : ZCond) : Nat := match c with | .empty => 1 | .implicit => 2 | .explicit => 3 | .closed => 4 | .full => 0xE

/-- Conditions a Reporting Options value lists: 0 all, then Empty, Implicitly Opened, Explicitly Opened, Closed, Full. -/
def reportHas (opt : Nat) (c : ZCond) : Bool :=
  match opt with
  | 0 => true
  | 1 => c == .empty
  | 2 => c == .implicit
  | 3 => c == .explicit
  | 4 => c == .closed
  | 5 => c == .full
  | _ => false

/-- A zone descriptor of 64 bytes. PRESUMED: log 34. -/
def State.zoneDesc (s : State) (n z : Nat) : List Byte :=
  let x := s.zone n z
  let wp := if x.cond = .full then 0xFFFFFFFFFFFFFFFF else z * 65536 + x.hwp
  toLe 1 2 ++ toLe 1 (16 * x.cond.code) ++ toLe 1 (if x.recommended then 4 else 0) ++ toLe 5 0 ++ toLe 8 65408 ++ toLe 8 (z * 65536)
    ++ toLe 8 wp ++ List.replicate 32 0

/-- The Zone Management Receive command in a slot, with this action. -/
def State.zoneRecv (s : State) (slot : BitVec 16) (zra : Nat) (act : Cmd → State → State) : State :=
  match s.cmd slot.toNat with
  | some c => if c.sqe.cdw13.toNat % 256 = zra then s.ioRow slot 0x7A act else s
  | none => s

/-- Report Zones: the zones from the LBA's on that match, partial reports counting only what fits. -/
def execReportZones (slot : BitVec 16) (s : State) : Res :=
  .next (s.zoneRecv slot 0 (fun c s =>
    let opt := c.sqe.cdw13.toNat / 256 % 256
    let cnt := match s.sideDesc c.act with | some d => d.zoneCnt | none => 0
    let zs := (List.range cnt).filter (fun z => zoneOf (sqeLba c.sqe) ≤ z && reportHas opt (s.zone c.act z).cond)
    let room := 4 * (c.sqe.cdw12.toNat + 1)
    let fit := (room - 64) / 64
    let n := if c.sqe.cdw13.getLsbD 16 then min fit zs.length else zs.length
    let b := toLe 8 n ++ List.replicate 56 0 ++ (zs.take fit).flatMap (s.zoneDesc c.act)
    (s.emit (.hostData c.slot (b.take room))).complete c.slot 0))

def execExtendedReportZones (slot : BitVec 16) (s : State) : Res :=
  .next (s.zoneRecv slot 1 (fun c s => s.complete c.slot stInvalidField))

end Sys2Proof.Machine
end

