-- ==== Sys2Proof/Machine/Mailbox.lean ====
section
/-!
DEFINITION. Machine/Mailbox.lean: the mailbox channels, lock registers, window registers, violation records and plain register
writes of 03_trust_and_mailboxes.md.
-/

namespace Sys2Proof.Machine

/-! ### Mailbox directions (R76 to R86) -/

/-- Address of a register of direction d of channel c (R79). -/
def mbAddr (ch d off : Nat) : Nat := windowBase 1 + ch * 0x100 + d * 0x80 + off

/-- An access to a mailbox register by an initiator: the host reaches channels 0 to 15 through BAR index 2, where the offsets of the others
are reserved (R26, R27). -/
def State.mbAccess (s : State) (who : Initiator) (ch d off : Nat) (wr : Bool) (act : State → State) : State :=
  if who.toNat = idHost then
    (if ch < 16 then act (s.wake 7)
     else (s.violate idHost (2 * 2 ^ 32 + (ch * 0x100 + d * 0x80 + off)) wr false).refused who wr)
  else s.guardAcc who (mbAddr ch d off) wr act

/-- On channels 40 to 63 the fields of the Husk end, which sends in direction 1 and receives in direction 0, are Husk's (R76). -/
def huskEnd (ch d : Nat) (sending : Bool) : Bool := 40 ≤ ch && (d == 1) == sending

def mayAct (who : Initiator) (ch d : Nat) (sending : Bool) : Bool := who.toNat == idHusk || !(huskEnd ch d sending)

/-- Interrupts of a direction that go to the host end on channels 0 to 15: FULL_I, EMPTY_I, ABORT_I, CROSS_I (R79). -/
def Mbox.lines (m : Mbox) : List Bool := [m.fullI && m.fullIe, m.emptyI && m.emptyIe, m.abortI && m.abortIe, m.crossI && m.crossIe]

/-- DEDUCED: log 62. -/
def hostLine (d i : Nat) : Bool := if d = 0 then i != 0 else i == 0 || i == 3

/-- Change a direction; each host-end interrupt whose ISTAT bit and enable become both 1 sends its message (R79). -/
def State.mbPut (s : State) (ch d : Nat) (f : Mbox → Mbox) : State :=
  let a := s.mb ch d
  let b := f a
  let s := s.updMbox ch d (fun _ => b)
  if ch < 16 then
    (List.range 4).foldl (fun s i =>
      if hostLine d i && b.lines.getD i false && !(a.lines.getD i false) then s.msixSend b.hostVec.toNat else s) s
  else s

/-- The data registers all 0. -/
def noData : Vector Word 16 := Vector.replicate 16 0

/-- GO (R80). -/
def State.mbGo (s : State) (ch d : Nat) (who : Initiator) : State :=
  if (s.mb ch d).full then s.mbPut ch d (fun m => { m with ovr := true })
  else
    let s := s.mbPut ch d (fun m => { m with full := true, sender := who, msgCnt := m.msgCnt + 1, fullI := true })
    -- requests to Husk keep the order in which they became FULL (R72)
    if d = 0 ∧ ((40 ≤ ch ∧ ch < 47) ∨ (48 ≤ ch ∧ ch < 60)) then s.updHusk (fun k => { k with requests := k.requests ++ [ch] }) else s

/-- RELEASE: ignored in compatibility mode and while FULL is 0 (R81, R82). -/
def State.mbRelease (s : State) (ch d : Nat) : State :=
  if (s.chan ch).compat ∨ (s.mb ch d).full = false then s
  else s.mbPut ch d (fun m => { m with full := false, data := noData, emptyI := true })

/-- A message removed by a receiver reset is no request any more. -/
def State.mbUnqueue (s : State) (ch d : Nat) : State :=
  if d = 0 then s.updHusk (fun k => { k with requests := k.requests.filter (fun c => c != ch) }) else s

/-- RCV_RESET (R83); written together with RELEASE it is the one that applies. -/
def State.mbRcvReset (s : State) (ch d : Nat) : State :=
  if (s.mb ch d).full then
    (s.mbPut ch d (fun m => { m with full := false, data := noData, aborted := true, abortI := m.abortI || !(s.chan ch).compat })).mbUnqueue ch d
  else s

/-- A read of DATA[SIZE − 1] of a compatibility channel (R82). -/
def State.mbCompatRead (s : State) (ch d : Nat) (who : Initiator) : State :=
  if (s.chan ch).compat then
    let m := s.mb ch d
    let s := s.emit (.value who (m.data.toArray.getD ((s.chan ch).regs - 1) 0))
    if m.full then s.mbPut ch d (fun m => { m with full := false }) else s
  else s

/-- Both directions FULL, one of them newly so (R84). DEDUCED: log 62. -/
def State.mbCross (s : State) (ch : Nat) (newly : Bool) : State :=
  if newly && (s.mb ch 0).full && (s.mb ch 1).full then
    (s.mbPut ch 0 (fun m => { m with cross := true, crossI := true })).mbPut ch 1 (fun m => { m with cross := true, crossI := true })
  else s

/-- A receiver's action on a direction under the checks of R63 and R76. -/
def State.mbRecv (s : State) (ch d : Nat) (a : RecvAct) : State :=
  match a with
  | .none => s
  | .release w => s.mbAccess w ch d 0x40 true (fun s => if mayAct w ch d false then s.mbRelease ch d else s)
  | .rcvReset w => s.mbAccess w ch d 0x40 true (fun s => if mayAct w ch d false then s.mbRcvReset ch d else s)
  | .compatRead w => s.mbAccess w ch d (4 * ((s.chan ch).regs - 1)) false (fun s => s.mbCompatRead ch d w)

/-- A cycle of channel ch with a GO in direction d: GO, the receivers' actions, then CROSS (R85). -/
def execGo (ch : Fin 64) (dir : Fin 2) (sender : Initiator) (same other : RecvAct) (s : State) : Res :=
  .next (
    let d := dir.val
    let was := (s.mb ch d).full
    let s := s.mbAccess sender ch d 0x40 true (fun s => if mayAct sender ch d true then s.mbGo ch d sender else s)
    let s := (s.mbRecv ch d same).mbRecv ch (1 - d) other
    s.mbCross ch (!was && (s.mb ch d).full))

def execRelease (ch : Fin 64) (dir : Fin 2) (receiver : Initiator) (s : State) : Res := .next (s.mbRecv ch dir (.release receiver))

def execRcvReset (ch : Fin 64) (dir : Fin 2) (receiver : Initiator) (s : State) : Res := .next (s.mbRecv ch dir (.rcvReset receiver))

def execCompatLastDataRead (ch : Fin 64) (dir : Fin 2) (reader : Initiator) (s : State) : Res :=
  .next (s.mbRecv ch dir (.compatRead reader))

/-- A write of DATA[i] (R79): beyond SIZE ignored, while FULL ignored with OVR. -/
def State.mbData (s : State) (ch d i : Nat) (v : Word) : State :=
  if (s.chan ch).regs ≤ i then s
  else s.mbPut ch d (fun m => if m.full then { m with ovr := true } else { m with data := vupd m.data i (fun _ => v) })

/-- A write of the control register (0x40): GO where the writer may send; then RCV_RESET, or RELEASE where RCV_RESET is not written with
it; then CROSS (R76, R83, R85). -/
def State.mbCtl (s : State) (who : Initiator) (ch d : Nat) (v : Word) : State :=
  let was := (s.mb ch d).full
  let s := if v.getLsbD 0 ∧ mayAct who ch d true then s.mbGo ch d who else s
  let s :=
    if mayAct who ch d false = false then s
    else if v.getLsbD 2 then s.mbRcvReset ch d
    else if v.getLsbD 1 then s.mbRelease ch d else s
  s.mbCross ch (!was && (s.mb ch d).full)

def execMailboxDataWrite (ch : Fin 64) (dir : Fin 2) (i : Fin 16) (writer : Initiator) (value : Word) (s : State) : Res :=
  .next (s.mbAccess writer ch dir (4 * i) true (fun s => if mayAct writer ch dir true then s.mbData ch dir i value else s))

/-- A write of the status (0x44), enable (0x48) or ISTAT (0x4C) register of a direction: the bits of Husk's own interrupts on
channels 40 to 63 are Husk's (R76, R79). HOST_VEC holds all 13 bits; a message names it as it stands, above 4,096 too.
DESIGN CHOICE: log 150. -/
def State.mbReg (s : State) (who : Initiator) (ch d off : Nat) (v : Word) : State :=
  let husk := who.toNat == idHusk
  let full := husk || !(huskEnd ch d false)   -- FULL_I goes to the receiver
  let send := husk || !(huskEnd ch d true)    -- EMPTY_I and ABORT_I go to the sender
  s.mbPut ch d (fun m =>
    if off = 0x44 then
      { m with aborted := m.aborted && !(v.getLsbD 1), cross := m.cross && !(v.getLsbD 2), ovr := m.ovr && !(v.getLsbD 3) }
    else if off = 0x48 then
      { m with
        fullIe := if full then v.getLsbD 0 else m.fullIe, emptyIe := if send then v.getLsbD 1 else m.emptyIe,
        abortIe := if send then v.getLsbD 2 else m.abortIe, crossIe := v.getLsbD 3, hostVec := (v >>> 16).setWidth 13 }
    else if off = 0x4C then
      { m with
        fullI := m.fullI && !(full && v.getLsbD 0), emptyI := m.emptyI && !(send && v.getLsbD 1),
        abortI := m.abortI && !(send && v.getLsbD 2), crossI := m.crossI && !(v.getLsbD 3) }
    else m)

/-- A write of any register of a direction. -/
def State.mbWrite (s : State) (who : Initiator) (ch d off : Nat) (v : Word) : State :=
  if off < 0x40 then (if mayAct who ch d true then s.mbData ch d (off / 4) v else s)
  else if off = 0x40 then s.mbCtl who ch d v
  else s.mbReg who ch d off v

/-! ### Locks (R87 to R90) -/

def State.lock (s : State) (i : Nat) : Lock := s.locks.toArray.getD i Lock.reset
def State.updLock (s : State) (i : Nat) (f : Lock → Lock) : State := { s with locks := vupd s.locks i f }

/-- A write to lock register i by the holder or Husk (R88). -/
def State.lockWrite (s : State) (i : Nat) (who : Initiator) : State :=
  s.updLock i (fun l => if l.owner = some who ∨ (l.owner.isSome ∧ who.toNat = idHusk) then { l with owner := none } else l)

def State.lockFree (s : State) (i : Nat) (who : Initiator) : State := s.guard who (windowBase 2 + 4 * i) (fun s => s.lockWrite i who)

def execLockRelease (i : Fin 256) (writer : Initiator) (s : State) : Res := .next (s.lockFree i writer)

/-- What a read of a lock returns. -/
def lockValue (got held : Bool) (owner : Initiator) : Word :=
  BitVec.ofNat 32 ((if got then 1 else 0) + (if held then 2 else 0) + 256 * owner.toNat)

/-- The first reader in ascending ID from RR_PTR, wrapping (R89). DEDUCED: log 63. -/
def lockWinner (ptr : Byte) (readers : List Initiator) : Option Initiator :=
  readers.foldl (fun b r => match b with | none => some r | some x => if (r - ptr).toNat < (x - ptr).toNat then some r else some x) none

/-- One cycle of lock register i: a release write, then the reads (R89). A tie of two or more readers moves RR_PTR. DEDUCED: log 63. -/
def execLockAcquire (i : Fin 256) (release : Option Initiator) (readers : List Initiator) (s : State) : Res :=
  .next (
    let s := match release with | some w => s.lockFree i w | none => s
    -- readers stopped by R63 read as zero and take no part
    let a := windowBase 2 + 4 * i.val
    let ok (r : Initiator) : Bool := r.toNat != idHost && s.access r.toNat a false == .ok
    let s := if readers.any ok then s.wake 7 else s
    let ins := (readers.filter ok).eraseDups
    let s := readers.foldl (fun s r => if ok r then s else if r.toNat = idHost then s
      else s.guardAcc r a false id) s
    match (s.lock i).owner with
    | some o => ins.foldl (fun s r => s.emit (.value r (lockValue false true o))) s
    | none =>
      match lockWinner (s.lock i).rrPtr ins with
      | none => s
      | some w =>
        let s := s.updLock i (fun l => ⟨some w, if 2 ≤ ins.length then w + 1 else l.rrPtr⟩)
        ins.foldl (fun s r => s.emit (.value r (lockValue (r == w) (r != w) w))) s)

/-- Every lock an initiator holds is released (R90). -/
def State.locksOf (s : State) (who : Nat) : State :=
  { s with locks := s.locks.map (fun l => if l.owner.map (·.toNat) = some who then { l with owner := none } else l) }

/-! ### Window registers (R64, R65) -/

/-- The window as it would stand after the write of register `reg`. -/
def Win.written (x : Win) (reg : Nat) (v : Word) : Win :=
  let n := v.toNat
  if reg = 0 then { x with base := x.base / 2 ^ 20 * 2 ^ 20 + n / 4096 }
  else if reg = 1 then { x with base := n % 65536 * 2 ^ 20 + x.base % 2 ^ 20 }
  else if reg = 2 then { x with lim := x.lim / 2 ^ 20 * 2 ^ 20 + n / 4096 }
  else { x with
    lim := n % 65536 * 2 ^ 20 + x.lim % 2 ^ 20, rd := v.getLsbD 16, wr := v.getLsbD 17, exec := v.getLsbD 18, en := v.getLsbD 31 }

/-- After the Sheaf lock a window stays within its default (R65). -/
def Win.widens (x d : Win) (used : Bool) : Bool :=
  x.en && (!used || (x.base ≤ x.lim && (x.base < d.base || d.lim < x.lim)) || (x.rd && !d.rd) || (x.wr && !d.wr) || (x.exec && !d.exec))

/-- Husk's write of register `reg` of window w of an initiator (R64, R65). -/
def State.winWrite (s : State) (id w reg : Nat) (value : Word) : State :=
  let k := 8 * id + w
  let x := (s.win id w).written reg value
  let d := (defaultWins s.str s.installed id)[w]?
  if s.locked ∧ x.widens (d.getD Win.reset) d.isSome then s
  else { s with wins := if x = Win.reset then assocDel s.wins k else assocSet s.wins k x }

def execWindowRegisterWrite (writer : Initiator) (id : Byte) (w : Fin 8) (reg : Fin 4) (value : Word) (s : State) : Res :=
  .next (s.guard writer (windowBase 0 + 0x10000 + 0x80 * id.toNat + 0x10 * w + 4 * reg) (fun s => s.winWrite id.toNat w reg value))

/-! ### Violations (R66, R67) -/

/-- The violation registers as they stand after Husk's write of one of them. -/
def Viol.written (x : Viol) (reg : Nat) (v : Word) : Viol :=
  let a := x.addr.toNat
  if reg = 0 then { x with cnt := v.toNat }
  else if reg = 1 then { x with addr := BitVec.ofNat 48 (a / 2 ^ 32 * 2 ^ 32 + v.toNat) }
  else if reg = 2 then { x with addr := BitVec.ofNat 48 (v.toNat % 65536 * 2 ^ 32 + a % 2 ^ 32), wr := v.getLsbD 16, dom := v.getLsbD 17 }
  else x

def State.violWrite (s : State) (id reg : Nat) (v : Word) : State := { s with viol := assocSet s.viol id ((s.violOf id).written reg v) }

def execViolationAuditSecond (s : State) : Res :=
  .next (
    (s.viol.filter (fun v => v.2.cnt != v.2.recorded)).foldl (fun s v =>
      let x := v.2
      let w8 := x.addr.toNat / 2 ^ 32 + (if x.wr then 65536 else 0) + (if x.dom then 131072 else 0)
      let s := s.audit 2 .violation noInst [v.1, x.cnt - x.recorded, x.addr.toNat % 2 ^ 32, w8]
      { s with viol := assocSet s.viol v.1 { x with recorded := x.cnt } }) s)

/-! ### Registers with no behaviour of their own (R8 to R10, R25 to R27) -/

/-- A word of the MSI-X table (R25): vector control bit 0 is the mask, 1 at reset. PRESUMED: log 30. -/
def State.msixWrite (s : State) (i : Nat) (v : Word) : State :=
  let d : Word := if i % 4 = 3 then 1 else 0
  let v := if i % 4 = 3 then v &&& 1 else v
  let s := s.updHost (fun h => { h with msix := if v = d then assocDel h.msix i else assocSet h.msix i v })
  let e := i / 4
  if i % 4 = 3 ∧ v = 0 ∧ s.host.pba.contains e then
    (s.updHost (fun h => { h with pba := h.pba.filter (fun x => x != e) })).emit (.msix e)
  else s

def lowHalf (x : BitVec 64) (v : Word) : BitVec 64 := (x &&& 0xFFFFFFFF00000000) ||| v.setWidth 64
def highHalf (x : BitVec 64) (v : Word) : BitVec 64 := (x &&& 0x00000000FFFFFFFF) ||| (v.setWidth 64 <<< 32)

/-- Where the lower half of a 64-bit NVMe register waits for the higher one (R9). -/
def barKey (ofs : Nat) : Nat := 2 ^ 48 + ofs

/-- The write of a higher half, with the lower half that waits for it or without one (R9). -/
def State.bar0High (s : State) (lo : Nat) (both : Word → HostSt → HostSt) (high : HostSt → HostSt) : State :=
  match s.staged.lookup (barKey lo) with
  | some l => { s.updHost (both l) with staged := assocDel s.staged (barKey lo) }
  | none => s.updHost high

/-- A host write in BAR index 0: queue attributes and bases, which stand while CC.EN is 0, and the MSI-X table; CC, NSSR and the
doorbells have commands of their own. A reserved offset is a violation (R25, R27). PRESUMED: log 60. -/
def State.bar0Write (s : State) (ofs : Nat) (v : Word) : State :=
  let off := s.host.cc.getLsbD 0 = false
  if ofs = 0x24 then (if off then s.updHost (fun h => { h with aqa := v }) else s)
  else if ofs = 0x28 ∨ ofs = 0x30 then (if off then { s with staged := assocSet s.staged (barKey ofs) v } else s)
  else if ofs = 0x2C then (if off then s.bar0High 0x28 (fun l h => { h with asq := highHalf (lowHalf h.asq l) v }) (fun h => { h with asq := highHalf h.asq v }) else s)
  else if ofs = 0x34 then (if off then s.bar0High 0x30 (fun l h => { h with acq := highHalf (lowHalf h.acq l) v }) (fun h => { h with acq := highHalf h.acq v }) else s)
  else if 0x20000 ≤ ofs ∧ ofs < 0x30010 then (if ofs % 4 = 0 then s.msixWrite ((ofs - 0x20000) / 4) v else s)
  else if ofs < 0x9008 ∨ (0x38000 ≤ ofs ∧ ofs < 0x38208) then s
  else s.violate idHost ofs true false

/-- A host write in BAR index 2 (R26, R27): VIOL_ADDR_HI holds the BAR index. DEDUCED: log 61. -/
def State.bar2Write (s : State) (ofs : Nat) (v : Word) : State :=
  let who := BitVec.ofNat 8 idHost
  if ofs < 0x1000 ∧ ofs % 0x80 < 0x50 then (if ofs % 4 = 0 then (s.wake 7).mbWrite who (ofs / 0x100) (ofs / 0x80 % 2) (ofs % 0x80) v else s)
  else if 0x8000 ≤ ofs ∧ ofs < 0x10000 then s
  else s.violate idHost (2 * 2 ^ 32 + ofs) true false

/-- Put registers take writes from the Culm cores alone (R462). -/
def putOnly (f : RegField) (who : Nat) : Bool := (f == Reg.alm_PUT_DATA || f == Reg.alm_PUT_CODE) && !(isCulm who)

/-- The block instances that have a register at an address. -/
def blksAt (addr : Nat) : List (Blk × Nat) :=
  [Blk.status, .port, .demod, .engine, .lane, .thresh, .pool, .poolAct, .wa, .unit, .loop, .spf, .spindle, .qce, .pcie, .zone,
    .ddrCh, .ddr, .gran, .slot, .therm, .thermAct, .flt, .frt, .dis, .alm, .snap, .orr].flatMap (fun b =>
    ((List.range b.count).filter (fun i =>
      (Regs.ofBlk b).any (fun f => (List.range f.n).any (fun j => f.addr i j == addr)))).map (fun i => (b, i)))

/-- INJ_CNT of R415 and R416 is INJ_CNT of the fault block of a DDR channel or the Granary (R440). -/
def injAlias (addr : Nat) : Option Nat :=
  ((List.range 4).find? (fun c => addr == Blk.addr .ddrCh c + 0x20)).map (· + 2)
    |>.orElse (fun _ => if addr = Blk.addr .gran 0 + 0x40 then some 1 else none)

/-- A 32-bit word into memory that is not a register. -/
def State.wordWrite (s : State) (a : Nat) (v : Word) : State := s.memWrite a (toLe 4 v.toNat)

/-- A write that stages 1 and 2 let through. Of the Husk-only regions the private SRAM is memory; the spec gives OTP and the crypto block
no register. -/
def State.plainWrite (s : State) (who : Initiator) (addr : Nat) (v : Word) : State :=
  match windowIdx addr with
  | some i =>
    let o := addr % 0x100000
    if i = 1 then (if o < 0x4000 ∧ o % 0x80 < 0x50 then s.mbWrite who (o / 0x100) (o / 0x80 % 2) (o % 0x80) v else s)
    else if i = 2 then (if o < 0x400 then s.lockWrite (o / 4) who else s)
    else if i = 0 ∧ 0x10000 ≤ o ∧ o < 0x18000 then s.winWrite ((o - 0x10000) / 0x80) (o / 0x10 % 8) (o / 4 % 4) v
    else if i = 0 ∧ 0x18000 ≤ o ∧ o < 0x19000 then s.violWrite ((o - 0x18000) / 0x10) (o / 4 % 4) v
    else if 0x20 ≤ i ∧ i < 0x64 ∧ 0x80000 ≤ o ∧ o < 0xC0000 then
      { s with engMem := (toLe 4 v.toNat).zipIdx.foldl (fun m b => Sparse.write m ((i - 0x20) * 0x40000 + (o - 0x80000) + b.2) 0 b.1) s.engMem }
    else if (injAlias addr).isSome then
      s.wr Reg.flt_INJ_CNT ((injAlias addr).getD 0) ((v >>> 8) &&& 0xFF)
    else
      (blksAt addr).foldl (fun s b =>
        if (Regs.ofBlk b.1).any (fun f => putOnly f who.toNat && (List.range f.n).any (fun j => f.addr b.2 j == addr)) then s
        else s.wrBlk who.toNat b.1 b.2 addr v) s
  | none => if inSram addr then s.wordWrite addr v else s

def execRegisterWrite (writer : Initiator) (target : Target) (value : Word) (s : State) : Res :=
  .next (
    match target with
    | .internal a => s.guard writer a.toNat (fun s => if a.toNat % 4 = 0 then s.plainWrite writer a.toNat value else s)
    | .bar 0 ofs => if writer.toNat = idHost then s.bar0Write ofs value else s
    | .bar 2 ofs => if writer.toNat = idHost then s.bar2Write ofs value else s
    | .bar _ _ => s)

end Sys2Proof.Machine
end

