-- ==== Sys2Proof/Machine/Almanac.lean ====
section
/-!
DEFINITION. Machine/Almanac.lean: the time counts, put registers, snapshots, the NOR copy and the clearing of classes of
18_almanac.md. Writing a record of either class is `State.audit` and `State.trace` (Machine/Ops.lean).
-/

namespace Sys2Proof.Machine

/-! ### Time (R450) -/

/-- Microseconds in an operating hour. -/
def hourUs : Nat := 3600000000

/-- USEC wraps: the counts move to the wrap and the hour mark is written, with CLR_GEN, the PTP time if locked, and the host
Timestamp or 0 (R450, R453). -/
def State.hourMark (s : State) : State :=
  let d := hourUs - s.alm.usec
  let s := s.updAlm (fun a => { a with us64 := a.us64 + BitVec.ofNat 64 d, usec := 0, hours := (a.hours + 1) % 2 ^ 28 })
  let ns := s.orr.ptp.2.1 + (s.alm.us64.toNat - s.orr.ptp.2.2) * 1000
  let ptp := if s.rdB Reg.orr_PTP_LOCK 0 then [s.orr.ptp.1 + ns / 1000000000, ns % 1000000000] else [0, 0]
  s.audit 6 .hourMark noInst ([s.alm.clrGen] ++ ptp ++ [if s.host.ts.1 = 0 then 0 else s.hostMs])

/-- DESIGN CHOICE: log 9. -/
def execHourMark (s : State) : Res := .next s.hourMark

/-- Let `d` µs pass, with the hour mark where USEC wraps. DESIGN CHOICE: log 9. -/
def State.passUs (s : State) (d : Nat) : State :=
  let s := if hourUs ≤ s.alm.usec + d then
      let rest := s.alm.usec + d - hourUs
      s.hourMark.updAlm (fun a => { a with us64 := a.us64 + BitVec.ofNat 64 rest, usec := rest })
    else s.updAlm (fun a => { a with us64 := a.us64 + BitVec.ofNat 64 d, usec := a.usec + d })
  s

/-! ### Put registers (R462) -/

def State.putWords (s : State) : List Nat :=
  s.rdN Reg.alm_PUT_CODE 0 :: (List.range 8).map (fun i => (s.rdAt Reg.alm_PUT_DATA 0 i).toNat)

/-- The put registers act for the Culm cores alone; a write by another initiator is ignored without a violation. -/
def State.put (s : State) (who : Initiator) (act : State → State) : State :=
  s.guard who (windowBase 0x11 + 0x200A4) (fun s => if isCulm who.toNat then act s else s)

def execTracePut (writer : Initiator) (s : State) : Res :=
  .next (s.put writer (fun s => s.trace 10 .tracePut (writer.toNat - 0x10) s.putWords true))

/-- At most 1,000 audit puts in a whole second of US64; a record dropped shows in LOSS of the next one (R451). -/
def execAuditPut (writer : Initiator) (s : State) : Res :=
  .next (s.put writer (fun s =>
    let sec := s.alm.us64.toNat / 1000000
    let s := s.updAlm (fun a => { a with putSecond := sec, puts := if a.putSecond = sec then a.puts else 0 })
    if 1000 ≤ s.alm.puts then (s.bump Reg.alm_AUDIT_PUT_DROP 0).updAlm (fun a => { a with auditLoss := true })
    else (s.updAlm (fun a => { a with puts := a.puts + 1 })).audit 3 .put (writer.toNat - 0x10) s.putWords true))

/-! ### Snapshots (R458 to R461) -/

def State.snap (s : State) (h : Nat) : Snap := s.alm.snaps.toArray.getD h Snap.reset
def State.updSnap (s : State) (h : Nat) (f : Snap → Snap) : State := s.updAlm (fun a => { a with snaps := vupd a.snaps h f })

/-- The status word: OPEN and BROKEN. -/
def Snap.status (p : Snap) : Word := (if p.isOpen then 1 else 0) + (if p.broken then 2 else 0)

/-- The registers of handles 1 and 3. -/
def State.snapRefresh (s : State) (h : Nat) : State :=
  let p := s.snap h
  let s := s.wr Reg.snap_ST h p.status
  let s := s.wr64 Reg.snap_FIRST_LO Reg.snap_FIRST_HI h 0 p.first
  s.wr64 Reg.snap_LAST_LO Reg.snap_LAST_HI h 0 p.last

/-- Close a handle: when the last open one closes, at most C records remain (R456). DEDUCED: log 65. -/
def State.snapClose (s : State) (h : Nat) : State :=
  ((s.updSnap h (fun p => { p with isOpen := false })).auditFit).snapRefresh h

/-- Open a handle over the records held now; what it held closes first. With none held the range is empty. DEDUCED: log 65. -/
def State.snapOpen (s : State) (h : Nat) : State :=
  let s := s.snapClose h
  let first := match s.alm.audit with | r :: _ => r.seq | [] => s.alm.auditLast + 1
  (s.updSnap h (fun _ => ⟨true, false, first, s.alm.auditLast, first⟩)).snapRefresh h

/-- OPEN of handle 1 or 3; CLOSE in the same write applies (R463). -/
def execSnapshotOpen (handle : Fin 4) (writer : Initiator) (close : Bool) (s : State) : Res :=
  .next (
    if handle.val = 1 ∨ handle.val = 3 then
      s.guard writer (windowBase 0x11 + 0x20000 + 0x100 * handle) (fun s => if close then s.snapClose handle else s.snapOpen handle)
    else s)

def execSnapshotClose (handle : Fin 4) (writer : Initiator) (s : State) : Res :=
  .next (
    if handle.val = 1 ∨ handle.val = 3 then
      s.guard writer (windowBase 0x11 + 0x20000 + 0x100 * handle) (fun s => s.snapClose handle)
    else s)

/-- 60 s without a read of an open snapshot. -/
def execSnapshotIdleClose (handle : Fin 4) (s : State) : Res :=
  .next (if (s.snap handle).isOpen then (s.snapClose handle).bump Reg.alm_SNAP_IDLE_CNT 0 else s)

def hostId : Initiator := BitVec.ofNat 8 idHost

/-- A read of the status word by the host. -/
def State.snapShow (s : State) : State := s.emit (.value hostId (s.snap 0).status)

def execHostSnapshotOpen (s : State) : Res := .next (s.snapOpen 0).snapShow
def execHostSnapshotClose (s : State) : Res := .next ((s.snapClose 0).emit (.value hostId 0))
def execPageSeqAdvance (s : State) : Res := .next (s.updSnap 0 (fun p => { p with page := p.page + 504 })).snapShow

/-! ### The NOR ring (R457) -/

/-- Sectors of 64 KiB that new sectors are taken from. -/
def State.norSectors (s : State) : Nat := s.str.alm.norRingMib * 16

/-- The sector with the highest SECT_SEQ. -/
def norNewest (l : List NorSector) : Option NorSector :=
  l.foldl (fun b x => match b with | none => some x | some y => if y.sectSeq < x.sectSeq then some x else some y) none

/-- The sector index a new sector takes: one without a valid header, else the lowest SECT_SEQ. -/
def State.norVictim (s : State) : Nat :=
  let l := s.alm.nor.filter (fun x => x.index < s.norSectors)
  match (List.range s.norSectors).find? (fun i => l.all (fun x => x.index != i)) with
  | some i => i
  | none => match l.foldl (fun b x => match b with | none => some x | some y => if x.sectSeq < y.sectSeq then some x else some y) none with
    | some x => x.index
    | none => 0

/-- Erase a sector, write its header, and put a record into slot 1. -/
def State.norStart (s : State) (r : Rec) : State :=
  let i := s.norVictim
  let q := match norNewest s.alm.nor with | some x => x.sectSeq + 1 | none => 0
  s.updAlm (fun a => { a with nor := a.nor.filter (fun x => x.index != i) ++ [⟨i, q, r.seq, s.alm.clrGen, [r]⟩], norSkip := false })

/-- Put one record into the newest sector, or into a new one when it is full or its last write failed. -/
def State.norPut (s : State) (r : Rec) : State :=
  let s := match norNewest s.alm.nor with
    | some x =>
      if x.recs.length < 1023 ∧ s.alm.norSkip = false ∧ x.index < s.norSectors then
        s.updAlm (fun a => { a with nor := a.nor.map (fun (y : NorSector) => if y.index = x.index then { y with recs := y.recs ++ [r] } else y) })
      else s.norStart r
    | none => s.norStart r
  s.updAlm (fun a => { a with norNext := r.seq + 1 })

/-- Copy every audit record not copied yet. DEDUCED: log 66. -/
def State.norFlush (s : State) : State :=
  (s.alm.audit.filter (fun r => s.alm.norNext ≤ r.seq)).foldl (fun s r => s.norPut r) s

/-- Husk's copy: with a write failure the record stays for the next sector, and a record tells of it. -/
def execNorCopy (ok : Bool) (s : State) : Res :=
  .next (
    if s.locked = false ∨ s.husk.halted ∨ s.alm.audit.all (fun r => r.seq < s.alm.norNext) then s
    else if ok then s.norFlush
    else ((s.bump Reg.alm_NOR_ERR_CNT 0).updAlm (fun a => { a with norSkip := true })).audit 3 .norFail noInst [])

/-! ### Clearing (R460) -/

/-- The checks of an authorisation object; 0 where it passes. -/
def State.clearCheck (s : State) (cls : Nat) (b : List Byte) : Nat :=
  if b.take 4 ≠ [0x41, 0x43, 0x4C, 0x31] ∨ byteAt b 4 ≠ cls ∨ zeroBytes b 5 3 = false ∨ zeroBytes b 20 12 = false then 1
  else if sigCheck s.husk.slots (b.take 32) ((b.drop 32).take 256) none ≠ .ok then 3
  else if le64 b 8 ≠ s.husk.serial.toNat ∨ le32 b 16 ≠ s.alm.clrGen + 1 then 8
  else 0

/-- CLR_GEN rises, and the class is cleared. DEDUCED: log 66. -/
def State.clearClass (s : State) (cls who : Nat) : State :=
  let gen := s.alm.clrGen + 1
  let s := s.updAlm (fun a => { a with clrGen := gen })
  if cls = 2 then
    let last := s.alm.auditLast
    let s := s.bumpBy Reg.alm_SNAP_BREAK_CNT 0 0 (s.alm.snaps.toList.filter Snap.live).length
    let s := s.updAlm (fun a => { a with
      snaps := a.snaps.map (fun p => if p.live then { p with broken := true } else p), audit := [], nor := [], norNext := last + 1, norSkip := false })
    let s := [0, 1, 2, 3].foldl (fun s h => s.snapRefresh h) s
    (s.audit 8 .clear noInst [gen, last, who]).norFlush
  else
    let last := s.alm.traceHead - 1
    let s := s.updAlm (fun a => { a with traceHead := 1, traceLoss := false })
    let s := match s.str.part 2 with
      | some p =>
        if 0 < s.str.alm.traceMib then
          let r : Rec := ⟨1, s.rd Reg.status_PWR_CYCLE 0, s.alm.hours, s.alm.usec, 24, .clear, noInst, 0, [gen, last, who]⟩
          (s.dmaWrite idMgmt false p.base (r.bytes 1)).updAlm (fun a => { a with traceHead := 2 })
        else s
      | none => s
    s.audit 8 .clear noInst [gen, last, who]

end Sys2Proof.Machine
end

