-- ==== Sys2Proof/Machine/Fabric.lean ====
section
/-!
DEFINITION. Machine/Fabric.lean: what the rest of the block needs of 19_orrery_fabric.md: messages, tokens and the manager's
ledger of them, and the spin-up groups of R104.
-/

namespace Sys2Proof.Machine

def State.updOrr (s : State) (f : OrrSt → OrrSt) : State := { s with orr := f s.orr }

/-- No member ID (R483). -/
def noMember : Nat := 0x3FF

def State.memberId (s : State) : Nat := s.rdN Reg.orr_MEMBER_ID 0
def State.isManager (s : State) : Bool := s.rdN Reg.orr_ROLE 0 == 3

/-! ### Messages (R464, R469) -/

/-- A message before its CRC. -/
def orrHead (magic ver typ len src dst epoch seq serial : Nat) (body : List Byte) : List Byte :=
  toLe 4 magic ++ toLe 1 ver ++ toLe 1 typ ++ toLe 2 len ++ toLe 2 src ++ toLe 2 dst ++ toLe 4 epoch ++ toLe 8 seq ++ toLe 8 serial ++ body

/-- MAGIC, "ORR1". -/
def orrMagic : Nat := 0x3152524F

/-- A message as it leaves: header, body, CRC. -/
def orrBytes (typ src dst epoch seq serial : Nat) (body : List Byte) : List Byte :=
  let m := orrHead orrMagic 1 typ (36 + body.length) src dst epoch seq serial body
  m ++ toLe 4 (crc32c m)

/-- Good MAGIC, VER, LEN and CRC (R469). -/
def orrFormOk (h : OrrHdr) (typ : Nat) (body : List Byte) : Bool :=
  h.magic.toNat == orrMagic && h.ver == 1 && h.len.toNat == 36 + body.length && h.len.toNat ≤ 1068
    && h.crc.toNat == crc32c (orrHead h.magic.toNat h.ver.toNat typ h.len.toNat h.srcId.toNat h.dstId.toNat h.epoch.toNat
        h.seq.toNat h.serial.toNat body)

/-- Types 0x01 to 0x20 and 0x50 go to the group address, the others are unicast (R470). -/
def orrGroup (typ : Nat) : Bool := (1 ≤ typ && typ ≤ 0x20) || typ == 0x50

/-! ### Bodies (R470) -/

def heartbeatBody (standby limit committed members : Nat) : List Byte :=
  toLe 1 3 ++ toLe 1 0 ++ toLe 2 standby ++ toLe 4 limit ++ toLe 4 committed ++ toLe 2 members ++ toLe 2 0
def claimBody (prio : Nat) : List Byte := toLe 1 prio ++ toLe 7 0
def joinBody (eligible : Bool) (prio ports : Nat) : List Byte := toLe 1 (if eligible then 1 else 0) ++ toLe 1 prio ++ toLe 2 0 ++ toLe 4 ports
def joinAckBody (id result : Nat) : List Byte := toLe 2 id ++ toLe 1 result ++ toLe 5 0
def tokenReqBody (reqId : Nat) (spin : Bool) (group watts : Nat) : List Byte :=
  toLe 4 reqId ++ toLe 1 (if spin then 1 else 0) ++ toLe 1 group ++ toLe 2 0 ++ toLe 4 watts ++ toLe 4 0
def tokenGrantBody (reqId id watts : Nat) : List Byte := toLe 4 reqId ++ toLe 4 id ++ toLe 4 watts ++ toLe 4 0
def tokenReturnBody (id : Nat) : List Byte := toLe 4 id ++ toLe 4 0
def tokenStateBody (l : List (Nat × Nat)) : List Byte := toLe 1 l.length ++ toLe 7 0 ++ l.flatMap (fun t => toLe 4 t.1 ++ toLe 4 t.2)
def drawBody (steady total ps ups : Nat) : List Byte := toLe 4 steady ++ toLe 4 total ++ toLe 1 ps ++ toLe 1 ups ++ toLe 6 0
def imageOfferBody (id target len : Nat) : List Byte := toLe 4 id ++ toLe 1 target ++ toLe 3 0 ++ toLe 4 len
def imageChunkBody (id index : Nat) (data : List Byte) : List Byte := toLe 4 id ++ toLe 4 index ++ data
def imageNeedBody (id missing : Nat) : List Byte := toLe 4 id ++ toLe 4 missing
def imageResultBody (id status step : Nat) : List Byte := toLe 4 id ++ toLe 1 status ++ toLe 1 step ++ toLe 2 0
def auditPageBody (flags : Nat) (l : List (List Byte)) : List Byte := toLe 1 flags ++ toLe 1 l.length ++ toLe 6 0 ++ l.flatten
def calWindowBody (id start len : Nat) : List Byte := toLe 2 id ++ toLe 2 0 ++ toLe 4 start ++ toLe 4 len

/-- Send a message on each port whose link is up. DEDUCED: log 82. -/
def State.orrSend (s : State) (typ dst : Nat) (body : List Byte) : State :=
  let seq := s.orr.sent + 1
  let src := if s.memberId = noMember then 0xFFFF else s.memberId
  let b := orrBytes typ src dst (s.rdN Reg.orr_MGR_EPOCH 0) seq s.husk.serial.toNat body
  let s := s.updOrr (fun o => { o with sent := seq })
  [0, 1].foldl (fun s p => if s.rdBit Reg.orr_PORT_UP 0 p then s.emit (.orr p (orrGroup typ) typ dst b) else s) s

/-! ### The manager's ledger (R467, R474) -/

def Member.standing (m : Member) : Nat := ((m.tokens.filter (fun t => !t.spin)).map (·.watts)).foldl (· + ·) 0
def Member.spinW (m : Member) : Nat := ((m.tokens.filter (fun t => t.spin)).map (·.watts)).foldl (· + ·) 0

/-- What a member commits: the greater of its latest draw and its standing token, and its spin tokens. -/
def Member.commit (m : Member) : Nat := max m.steady m.standing + m.spinW

def State.committed (s : State) : Nat := (s.orr.members.map Member.commit).foldl (· + ·) 0

/-- RACK_BUDGET − RACK_MARGIN. -/
def State.rackLimit (s : State) : Nat := s.rdN Reg.orr_RACK_BUDGET 0 - s.rdN Reg.orr_RACK_MARGIN 0

/-- Member a ranks before b (R465). -/
def ranks (pa sa pb sb : Nat) : Bool := pb < pa || (pa == pb && sa < sb)

/-- The highest-ranked eligible member other than the manager (R467). -/
def State.standbyPick (s : State) : Nat :=
  match (s.orr.members.filter (fun m => m.eligible && m.id != s.memberId)).foldl (fun b m => match b with
    | none => some m
    | some x => if ranks m.prio m.serial x.prio x.serial then some m else some x) (none : Option Member) with
  | some m => m.id
  | none => noMember

/-- The registers follow what is held and what is granted (R483). -/
def State.orrRefresh (s : State) : State :=
  let t := s.orr.tokens
  let s := s.wrN Reg.orr_TOKENS_HELD 0 t.length
  let s := s.wrN Reg.orr_TOKEN_W_HELD 0 ((t.map (·.watts)).foldl (· + ·) 0)
  let s := s.wrB Reg.orr_STANDING_HELD 0 (t.any (fun x => !x.spin))
  let s := s.wrB Reg.orr_REQ_PEND 0 (s.orr.reqs != [])
  if s.isManager then
    let s := s.wrN Reg.orr_MEMBERS 0 s.orr.members.length
    (s.wrN Reg.orr_COMMITTED 0 s.committed).wrN Reg.orr_STANDBY_ID 0 s.standbyPick
  else s

def State.updMember (s : State) (id : Nat) (f : Member → Member) : State :=
  s.updOrr (fun o => { o with members := o.members.map (fun m => if m.id = id then f m else m) })

/-! ### Tokens (R472 to R474, R482) -/

/-- A grant to this device: the request it answers is met, and a spin token goes to its group. -/
def State.tokenTake (s : State) (reqId id watts : Nat) : State :=
  match s.orr.reqs.find? (fun r => r.reqId == reqId) with
  | some r =>
    let s := s.updOrr (fun o => { o with
      reqs := o.reqs.filter (fun x => x.reqId != reqId), tokens := o.tokens ++ [(⟨reqId, id, r.spin, watts⟩ : Token)] })
    let s : State := { s with spin := s.spin.map (fun g => if g.reqId = reqId then { g with token := true } else g) }
    s.orrRefresh
  | none => s

/-- Grant from the head of the queue while it fits; a request that can never fit is recorded once (R474, R475). -/
def State.grant (s : State) (fuel : Nat) : State :=
  match fuel with
  | 0 => s
  | fuel + 1 =>
    if s.isManager = false ∨ s.orr.holdGrants then s
    else
      match s.orr.queue with
      | [] => s
      | r :: rest =>
        if s.rackLimit < r.watts then
          if r.told then s
          else (s.updOrr (fun o => { o with queue := { r with told := true } :: rest })).audit 5 .orrery noInst [r.member, r.watts]
        else if s.committed + r.watts ≤ s.rackLimit then
          let id := s.orr.nextToken
          let s := s.updOrr (fun o => { o with queue := rest, nextToken := id + 1 })
          let s := s.updMember r.member (fun m => { m with tokens := m.tokens ++ [⟨r.reqId, id, r.spin, r.watts⟩] })
          let s := if r.member = s.memberId then s.tokenTake r.reqId id r.watts
            else s.orrSend 0x11 r.member (tokenGrantBody r.reqId id r.watts)
          State.grant s.orrRefresh fuel
        else s

/-- Queue a request at the manager; a copy keeps its place (R474). -/
def State.enqueue (s : State) (r : TokReq) : State :=
  let s := if s.orr.queue.any (fun x => x.member == r.member && x.reqId == r.reqId) then s
    else s.updOrr (fun o => { o with queue := o.queue ++ [r] })
  s.grant (s.orr.queue.length + 1)

/-- A manager is known: the one joined, not lost. -/
def State.hasManager (s : State) : Bool := s.rdN Reg.orr_ROLE 0 != 0 && !s.orr.mgrLost && s.rdN Reg.orr_MGR_ID 0 != noMember

/-- Ask for a token. A device that is manager passes its own request through the same queue. -/
def State.tokenAsk (s : State) (reqId : Nat) (spin : Bool) (group watts : Nat) : State :=
  let r : TokReq := ⟨s.memberId, reqId, spin, group, watts, false⟩
  let s := (s.updOrr (fun o => { o with nextReq := max o.nextReq (reqId + 1), reqs := o.reqs ++ [r] })).orrRefresh
  if s.isManager then s.enqueue r else if s.hasManager then s.orrSend 0x10 (s.rdN Reg.orr_MGR_ID 0) (tokenReqBody r.reqId r.spin r.group r.watts) else s

/-- Give a token back (R474, R478): a return stays pending until it is acknowledged. -/
def State.tokenGive (s : State) (id : Nat) : State :=
  let s := s.updOrr (fun o => { o with tokens := o.tokens.filter (fun t => t.id != id) })
  if s.isManager then
    let s := s.updMember s.memberId (fun m => { m with tokens := m.tokens.filter (fun t => t.id != id) })
    s.orrRefresh.grant (s.orr.queue.length + 1)
  else
    let s := (s.updOrr (fun o => { o with returns := o.returns.filter (fun x => x != id) ++ [id] })).orrRefresh
    if s.hasManager then s.orrSend 0x12 (s.rdN Reg.orr_MGR_ID 0) (tokenReturnBody id) else s

/-- Ports declared and not fused off. DEDUCED: log 80. -/
def State.portsDeclared (s : State) : Nat := ((List.range 32).filter s.declared).length

/-- The standing token, asked for before the first link training and on an exit from PS4 (R472); with no port declared there is
no training to ask for. DEDUCED: log 80. -/
def State.askStanding (s : State) : State :=
  if s.portsDeclared = 0 ∨ s.orr.tokens.any (fun t => !t.spin) ∨ s.orr.reqs.any (fun r => !r.spin) then s
  else s.tokenAsk s.orr.nextReq false 0xFF (1500 + (s.rdN Reg.orr_HDA_W 0 + s.rdN Reg.orr_RUN_W 0) * s.portsDeclared)

/-- Withdraw requests of a kind that no longer apply (R482). -/
def State.withdrawReqs (s : State) (p : TokReq → Bool) : State :=
  (s.updOrr (fun o => { o with
    reqs := o.reqs.filter (fun r => !(p r)), queue := o.queue.filter (fun r => !(r.member == s.memberId && p r)) })).orrRefresh

/-- Return every token of a kind. -/
def State.giveAll (s : State) (p : Token → Bool) : State := (s.orr.tokens.filter p).foldl (fun s t => s.tokenGive t.id) s

/-! ### Spin-up groups (R104) -/

/-- A bound port is neither UP nor past its three attempts. DEDUCED: log 79. -/
def State.portPending (s : State) (h : Nat) : Bool :=
  s.declared h && s.bound h && !(s.up h) && !((s.port h).waitRetry) && !((s.port h).held)

/-- Cut a list into groups of 4. -/
def fours (l : List Nat) (fuel : Nat) : List (List Nat) :=
  match fuel with
  | 0 => []
  | fuel + 1 => if l = [] then [] else l.take 4 :: fours (l.drop 4) fuel

/-- Once no bound port is on its way up, the bound ports, in ascending h, are cut into groups of 4; a group's members are those of its HDAs
that wait, and a group none of whose HDAs waits is not formed. DEDUCED: log 79. -/
def State.spinForm (s : State) : State :=
  if s.spinWait = [] ∨ (List.range 32).any s.portPending then s
  else
    let hs := s.spinWait.filter (fun h => s.spin.all (fun g => !(g.hdas.contains h)))
    let cut := (fours ((List.range 32).filter s.bound) 32).zipIdx.map (fun p => (p.2, p.1.filter (fun h => hs.contains h)))
    let gs := (cut.filter (fun p => p.2 != [])).map (fun p => (⟨p.1, p.2, 0, false, false⟩ : SpinGroup))
    { s with spinWait := [], spin := s.spin ++ gs, spinCount := s.spinCount + gs.length }

/-- 2 s have passed since the latest start. -/
def State.spinSpaced (s : State) : Bool := match s.spinLast with | some t => t + 2000000 ≤ s.alm.us64.toNat | none => true

/-- Peak spin-up power of a group, in 0.1 W. -/
def State.groupWatts (s : State) (hs : List Nat) : Nat :=
  (hs.map (fun h => match s.desc h with | some d => d.spinPeak | none => 0)).foldl (· + ·) 0

/-- The next group that has not started asks for its token once the spacing allows it to start. -/
def State.spinAsk (s : State) : State :=
  let s := s.spinForm
  match s.spin.find? (fun g => !g.started) with
  | some g =>
    if g.reqId ≠ 0 ∨ s.spinSpaced = false then s
    else
      let q := s.orr.nextReq
      let s : State := { s with spin := s.spin.map (fun x => if x = g then { x with reqId := q } else x) }
      s.tokenAsk q true (if g.index = 0xFE then 0xFE else g.index % 256) (s.groupWatts g.hdas)
  | none => s

/-- Groups none of whose HDAs is still on its way to LOCKED release their tokens (R104, R323). -/
def State.spinRelease (s : State) : State :=
  let done (g : SpinGroup) : Bool := g.started && g.hdas.all (fun h => !((s.spinSt h).begun) || !(s.up h))
  let gone := s.spin.filter done
  let s : State := { s with spin := s.spin.filter (fun g => !(done g)) }
  (s.orr.tokens.filter (fun t => gone.any (fun g => g.reqId == t.reqId))).foldl (fun s t => s.tokenGive t.id) s

end Sys2Proof.Machine
end

