-- ==== Sys2Proof/Machine/Husk.lean ====
section
/-!
DEFINITION. Machine/Husk.lean: the objects Husk verifies (R98, R188, R502), the requests it serves (R55, R56, R70 to R75, R106,
R189, R443, R460), the Tiller loaders (R78) and the NVMe-MI relay (R77).
-/

namespace Sys2Proof.Machine

/-! ### Microcode objects and firmware bundles -/

def stepOk (v : Nat) : Bool := v == 0x00B1 || v == 0xFFFF

/-- Step 1 of R189 on the object of R188: 0, or status 1, 3 or 5. -/
def mcCheck (slots : List KeySlot) (floor : Nat) (b : List Byte) : Nat :=
  let n := le32 b 0x14
  if le32 b 0 ≠ 0x31434D54 ∨ le16 b 4 ≠ 1 ∨ le16 b 6 ≠ 32 ∨ n % 8 ≠ 0 ∨ n < 8 ∨ 262144 < n ∨ le32 b 8 ≠ 32 + n + 256
      ∨ 3 < byteAt b 0xC ∨ byteAt b 0xD ≠ 0 ∨ stepOk (le16 b 0x10) = false ∨ le16 b 0x12 ≠ 0 ∨ n ≤ le32 b 0x18 then 1
  else if objectSig slots b (32 + n + 256) (byteAt b 0xC) ≠ .ok then 3
  else if le16 b 0xE < floor then 5 else 0

/-- A directory entry of a bundle: ITYPE, OFFSET, LEN, ENTRY, and its zero bytes. -/
def dirEntry (b : List Byte) (i : Nat) : Nat × Nat × Nat × Nat × Nat :=
  let o := 64 + 16 * i
  (le16 b o, le32 b (o + 4), le32 b (o + 8), le32 b (o + 12), le16 b (o + 2))

/-- The item of a type, if the bundle has one: OFFSET, LEN, ENTRY. -/
def bundleItem (b : List Byte) (t : Nat) : Option (Nat × Nat × Nat) :=
  ((List.range (le16 b 0xC)).map (dirEntry b)).findSome? (fun e => if e.1 = t then some (e.2.1, e.2.2.1, e.2.2.2.1) else none)

def bundleBytes (b : List Byte) (t : Nat) : List Byte :=
  match bundleItem b t with | some (o, n, _) => (b.drop o).take n | none => []

/-- Byte `i` of a bundle lies in its header, its directory or an item; every other byte before the signature block is padding (R502). -/
def bundleCovers (es : List (Nat × Nat × Nat × Nat × Nat)) (cnt i : Nat) : Bool :=
  i < 64 + 16 * cnt || es.any (fun e => e.2.1 ≤ i && i < e.2.1 + e.2.2.1)

/-- The padding of a bundle is zero. -/
def padZero (es : List (Nat × Nat × Nat × Nat × Nat)) (cnt : Nat) (b : List Byte) : Bool :=
  b.zipIdx.all (fun x => x.1 == 0 || bundleCovers es cnt x.2)

/-- Header and directory of a bundle (checks 1 and 2 of R98). -/
def bundleForm (b : List Byte) : Bool :=
  let n := le32 b 8
  let cnt := le16 b 0xC
  let es := (List.range cnt).map (dirEntry b)
  let top := if 257 ≤ n then n - 257 else 0
  le32 b 0 == 0x31425746 && le16 b 4 == 1 && le16 b 6 == 64 && n % 8 == 0 && n ≤ 0x800000 && (cnt == 3 || cnt == 4)
    && 64 + 16 * cnt + 256 ≤ n && byteAt b 0xF == 0 && byteAt b 0xE ≤ 3 && stepOk (le16 b 0x12)
    && decide ((es.map (·.1)).Nodup) && es.all (fun e => 1 ≤ e.1 && e.1 ≤ 4) && [1, 2, 3].all (fun t => es.any (fun e => e.1 == t))
    && es.all (fun e => e.2.2.2.2 == 0 && e.2.1 % 8 == 0 && 64 + 16 * cnt ≤ e.2.1 && e.2.1 + e.2.2.1 ≤ top + 1
      && (if e.1 ≤ 2 then decide (e.2.2.2.1 < e.2.2.1) else e.2.2.2.1 == 0)
      && (e.1 != 1 || e.2.2.1 ≤ 0x60000) && (e.1 != 4 || e.2.2.1 % 16 == 0))
    && padZero es cnt (b.take (top + 1))

/-- R98 on a bundle: 0, or the status R75 gives its failure. -/
def bundleCheck (slots : List KeySlot) (floor : Nat) (b : List Byte) : Nat :=
  if bundleForm b = false then 1
  else if objectSig slots b (le32 b 8) (byteAt b 0xE) ≠ .ok then 3
  else if le16 b 0x10 < floor then 5
  else mcCheck slots floor (bundleBytes b 3)

/-- The bundle in use (BUNDLE of R52). -/
def State.bundle (s : State) : List Byte :=
  match s.rdN Reg.status_BUNDLE 0 with | 1 => s.husk.bundleA | 2 => s.husk.bundleB | _ => []

/-! ### Taking a request and answering it (R72, R74) -/

/-- Opcodes of R73. DEDUCED: log 67. -/
def huskOpcodes : List Nat := [0x10, 0x20, 0x30, 0x31, 0x40, 0x41, 0x51, 0x52, 0x60, 0x70, 0x71, 0x7F]

/-- Husk serves requests: its firmware or boot ROM runs past the Sheaf lock, not halted, no other request in hand. -/
def State.huskFree (s : State) : Bool := s.locked && !s.husk.halted && s.husk.loading.isNone && !s.husk.rootDrained

/-- The request Husk takes next: the oldest whose channel's reply has been released (R72). -/
def State.huskNext (s : State) : Option Nat := s.husk.requests.find? (fun c => !((s.mb c 1).full))

/-- Husk sends in direction 1 of a channel: DATA from 0, GO, then CROSS. -/
def State.huskSend (s : State) (ch : Nat) (words : List Nat) : State :=
  let was := (s.mb ch 1).full
  let s := words.zipIdx.foldl (fun s w => s.mbData ch 1 w.2 (BitVec.ofNat 32 w.1)) s
  let s := s.mbGo ch 1 (BitVec.ofNat 8 idHusk)
  s.mbCross ch (!was && (s.mb ch 1).full)

def State.huskReply (s : State) (ch opc status step : Nat) : State := s.huskSend ch [status, opc, step]

/-- Take the request on a channel when it is the next one and holds this opcode: copy, RELEASE, process, reply. `listed` are the
registers R73 lists; another nonzero one, and an unknown opcode, get status 7. `act` answers the status and register 2, or
none where the reply comes later; it is given the registers and the sender. DEDUCED: log 67. -/
def State.huskReq (s : State) (ch opc : Nat) (listed : List Nat)
    (act : (Nat → Nat) → Nat → State → State × Option (Nat × Nat)) : State :=
  if s.huskFree ∧ s.huskNext = some ch then
    let m := s.mb ch 0
    let reg (i : Nat) : Nat := (m.data.toArray.getD i 0).toNat
    let known := huskOpcodes.contains (reg 0)
    if known ∧ reg 0 ≠ opc then s
    else
      let s := (s.updHusk (fun k => { k with requests := k.requests.filter (fun c => c != ch) })).mbRelease ch 0
      if known = false ∨ (List.range 16).any (fun i => 1 ≤ i && !(listed.contains i) && reg i != 0) then s.huskReply ch (reg 0) 7 0
      else
        match act reg m.sender.toNat s with
        | (s, some (status, step)) => s.huskReply ch opc status step
        | (s, none) => s
  else s

/-- A 64-bit address in registers 2 and 3. -/
def regAddr (reg : Nat → Nat) : Nat := reg 2 + 2 ^ 32 * reg 3

/-! ### UPDATE (R75) -/

/-- Statuses of the failing steps of R48 (R74). DEDUCED: log 72. -/
def stepStatus (n : Nat) : Nat := match n with | 3 | 4 => 3 | 5 => 5 | 8 => 2 | _ => 1

/-- Steps 2 to 5, 7 and 8 of R48 on an image of `n` bytes: the failing step, 0 if none. -/
def State.imageCheck (s : State) (b : List Byte) (n : Nat) : Nat :=
  (validateBody ⟨s.husk.slots, s.husk.floor, some 0xFFFFFFFF, s.husk.variantH⟩ (b.take n)).1

/-- The NOR areas of R97: offset and size. -/
inductive NorArea where
  | bundleA | bundleB | imageA | imageB | cal | sanitize | audit | reserved
  deriving DecidableEq, Repr

def NorArea.offset : NorArea → Nat
  | .bundleA => 0x00000000 | .bundleB => 0x02000000 | .imageA => 0x04000000 | .imageB => 0x04100000
  | .cal => 0x04200000 | .sanitize => 0x04A00000 | .audit => 0x04E00000 | .reserved => 0x05E00000

def NorArea.size : NorArea → Nat
  | .bundleA | .bundleB => 0x2000000 | .imageA | .imageB => 0x100000
  | .cal => 0x800000 | .sanitize => 0x400000 | .audit => 0x1000000 | .reserved => 0x2200000

/-- The area a firmware bundle or an image copy lies in. -/
def norTarget (fw : Bool) (copy : Nat) : NorArea :=
  if fw then (if copy = 0 then .bundleA else .bundleB) else (if copy = 0 then .imageA else .imageB)

/-- UPDATE with register 1 (TARGET), an address and a length in partition 4: the state, the status and the failure step. After the
refusal of a copy in use, a length of 0, a range outside partition 4 and a length above the target's NOR area are answered with
status 1 and register 2 zero. DESIGN CHOICE: logs 12, 69 and 153. -/
def State.huskUpdate (s : State) (r1 addr len : Nat) (norOk : Bool) : State × Nat × Nat :=
  let copy := r1 / 2 % 2
  let fw := r1 % 2 = 1
  let b := s.memRead addr len
  if 4 ≤ r1 then (s, 1, 0)
  else if fw ∧ s.rdN Reg.status_BUNDLE 0 = copy + 1 then (s, 8, 0)
  else if !fw ∧ s.rdN Reg.status_COPY 0 = copy + 1 then (s, 8, 0)
  else if len = 0 ∨ s.inPart 4 addr len = false ∨ (norTarget fw copy).size < len then (s, 1, 0)
  else
    let step := if fw then 0 else s.imageCheck b len
    let bad := if fw then bundleCheck s.husk.slots s.husk.floor b else if step = 0 then 0 else stepStatus step
    if bad ≠ 0 then (s, bad, step)
    else
      -- a failed write leaves the area with bytes the spec does not give
      let put := if norOk then b else Config.mediaBytes s.fresh
      let s := if norOk then s else s.tick
      let s := s.updHusk (fun k =>
        if fw then (if copy = 0 then { k with bundleA := put } else { k with bundleB := put })
        else (if copy = 0 then { k with imageA := put } else { k with imageB := put }))
      if norOk then (s.audit 3 .update noInst [r1, len], 0, 0) else (s, 6, 0)

def execUpdate (ch : Fin 64) (norOk : Bool) (s : State) : Res :=
  .next (s.huskReq ch 0x10 [1, 2, 3, 4] (fun reg _ s =>
    let (s, st, step) := s.huskUpdate (reg 1) (regAddr reg) (reg 4) norOk
    (s, some (st, step))))

/-! ### Media keys (R68, R69, R73, R148) -/

/-- Generate, wrap and store a key: a new KEY_GEN on the ledger, and the key in its inline slot. DESIGN CHOICE: log 3, DEDUCED: log 72. -/
def State.keyNew (s : State) (nsid : Nat) : State :=
  let k := Config.randomKey s.fresh
  let s := s.tick
  let s := s.updHusk (fun h => { h with
    wrapped := assocSet h.wrapped nsid k, keySlots := assocSet h.keySlots nsid k,
    keyGen := assocSet h.keyGen nsid ((h.keyGen.lookup nsid).getD 0 + 1) })
  (s.stage (nsAct nsid) 4).audit 2 .keyNew noInst [nsid]

/-- Destroy a key: the wrapped copies go, and the slot is cleared. -/
def State.keyDestroy (s : State) (nsid : Nat) : State :=
  let s := s.updHusk (fun h => { h with wrapped := assocDel h.wrapped nsid, keySlots := assocDel h.keySlots nsid })
  (s.stage (nsAct nsid) 4).audit 2 .keyDestroy noInst [nsid]

/-- The media keys of a side's namespaces come into the inline key slots (R68, R69). -/
def State.keysOf (s : State) (n : Nat) : State :=
  [zonedNs n, convNs n].foldl (fun s i => match s.husk.wrapped.lookup i with
    | some k => s.updHusk (fun h => { h with keySlots := assocSet h.keySlots i k })
    | none => s) s

/-- The NSIDs of actuators that exist. -/
def State.allNs (s : State) : List Nat := ((List.range 128).map (· + 1)).filter (fun i => s.actExists (nsAct i))

def execNsKeyNew (ch : Fin 64) (ledgerOk : Bool) (s : State) : Res :=
  .next (s.huskReq ch 0x30 [1] (fun reg _ s =>
    if s.allNs.contains (reg 1) = false then (s, some (2, 0))
    else if ledgerOk = false then (s, some (6, 0))
    else (s.keyNew (reg 1), some (0, 0))))

def execNsKeyDestroy (ch : Fin 64) (ledgerOk : Bool) (s : State) : Res :=
  .next (s.huskReq ch 0x31 [1] (fun reg _ s =>
    if reg 1 ≠ 0xFFFFFFFF ∧ s.allNs.contains (reg 1) = false then (s, some (2, 0))
    else if ledgerOk = false then (s, some (6, 0))
    else
      let ids := if reg 1 = 0xFFFFFFFF then s.husk.wrapped.map (·.1) else [reg 1]
      (ids.foldl (fun s i => s.keyDestroy i) s, some (0, 0))))

/-! ### Clearing (R460) -/

def State.clearReq (s : State) (ch opc cls : Nat) : State :=
  s.huskReq ch opc [2, 3] (fun reg who s =>
    match s.clearCheck cls (s.memRead (regAddr reg) 288) with
    | 0 => (s.clearClass cls who, some (0, 0))
    | n => (s, some (n, 0)))

def execAuditClear (ch : Fin 64) (s : State) : Res := .next (s.clearReq ch 0x40 2)
def execTraceClear (ch : Fin 64) (s : State) : Res := .next (s.clearReq ch 0x41 1)

/-! ### Live changes (R55, R56) -/

/-- A THERMAL record that moves towards safety only. -/
def ThermRec.safer (new old : ThermRec) : Bool :=
  new.jWarn ≤ old.jWarn && new.jThr ≤ old.jThr && new.jShut ≤ old.jShut && new.hWarn ≤ old.hWarn && new.hThr ≤ old.hThr
    && new.hShut ≤ old.hShut && new.edge0 ≤ old.edge0 && new.edge1 ≤ old.edge1 && new.edge2 ≤ old.edge2 && new.dimmRef ≤ old.dimmRef
    && old.hyst ≤ new.hyst && old.k ≤ new.k && new.floor ≤ old.floor

/-- Status of a THERMAL body: format, limits; direction where `set` (a LIVE_SET) asks for it. -/
def State.thermStatus (s : State) (b : List Byte) (set : Bool) : Nat :=
  let t := thermFields b
  if byteAt b 15 ≠ 0 then 1 else if t.ok = false then 2 else if set ∧ t.safer s.husk.imageTherm = false then 2 else 0

/-- Status of a GRANARY body. -/
def State.granStatus (s : State) (b : List Byte) (set : Bool) : Nat :=
  let g : GranRec := ⟨byteAt b 0, byteAt b 1, byteAt b 2 == 1⟩
  if 1 < byteAt b 2 ∨ zeroBytes b 3 5 = false then 1
  else if g.ways ≠ s.husk.imageGran.ways then 4
  else if g.ok = false then 2
  else if set ∧ s.husk.imageGran.lockBudget < g.lockBudget then 2 else 0

/-- Accept a record for the next round. -/
def State.liveAccept (s : State) (typ : Nat) (b : List Byte) : State :=
  s.updHusk (fun k =>
    if typ = 0xA then { k with liveTherm := k.liveTherm ++ [thermFields b] }
    else { k with liveGran := k.liveGran ++ [(⟨byteAt b 0, byteAt b 1, byteAt b 2 == 1⟩ : GranRec)] })

def execLiveSet (ch : Fin 64) (s : State) : Res :=
  .next (s.huskReq ch 0x51 [1, 2, 3, 4, 5] (fun reg _ s =>
    let typ := reg 1 % 65536
    let len := reg 1 / 65536
    let body := [2, 3, 4, 5].flatMap (fun i => toLe 4 (reg i))
    if typ ≠ 0xA ∧ typ ≠ 5 then (s, some (4, 0))
    else if len ≠ (if typ = 0xA then 24 else 16) then (s, some (1, 0))
    else if typ = 5 ∧ (reg 4 ≠ 0 ∨ reg 5 ≠ 0) then (s, some (7, 0))
    else
      let b := if typ = 0xA then body else body.take 8
      match (if typ = 0xA then s.thermStatus b true else s.granStatus b true) with
      | 0 => (s.liveAccept typ b, some (0, 0))
      | n => (s, some (n, 0))))

/-- Status of a live patch of `n` bytes with its records. Where no image is loaded (COPY 0), the recovery structure stands for the loaded
image, with key 0, SEC_VER 0 and BUILD_SEQ 0. DEDUCED: log 72; DESIGN CHOICE: log 154. -/
def State.patchCheck (s : State) (b : List Byte) (n : Nat) : Nat × List RawRec :=
  if le32 b 0 ≠ 0x31464853 ∨ le16 b 4 ≠ 1 ∨ le16 b 6 ≠ 64 ∨ byteAt b 0xF ≠ 1 ∨ stepOk (le16 b 0x12) = false then (1, [])
  else if objectSig s.husk.slots b n (byteAt b 0xE) ≠ .ok ∨ byteAt b 0xE ≠ s.str.keyIdx then (3, [])
  else if le16 b 0x10 ≠ s.str.secVer ∨ le64 b 0x18 ≤ max s.str.buildSeq s.husk.patchSeq then (5, [])
  else
    match cutRecords b (le16 b 0xC) 64 (n - 256) with
    | none => (1, [])
    | some (rs, stop) =>
      if stop ≠ n - 256 ∨ rs.length ≠ le16 b 0xC ∨ rs.getLast? ≠ some ⟨0xFFFF, 0, 0, []⟩ ∨ recOrderOk rs = false then (1, [])
      else
        let es := rs.filter (fun r => r.type != 0xFFFF)
        if es.any (fun r => (r.type != 0xA && r.type != 5) || r.rflags != 1 || r.inst != 0) then (4, [])
        else if es.any (fun r => r.body.length != (if r.type = 0xA then 16 else 8)) then (1, [])
        else
          match es.findSome? (fun r =>
              match (if r.type = 0xA then s.thermStatus r.body false else s.granStatus r.body false) with
              | 0 => none | k => some k) with
          | some k => (k, [])
          | none => (0, es)

def execLivePatch (ch : Fin 64) (s : State) : Res :=
  .next (s.huskReq ch 0x52 [2, 3] (fun reg _ s =>
    let a := regAddr reg
    let n := le32 (s.memRead a 64) 8
    if s.inPart 4 a 64 = false ∨ n % 8 ≠ 0 ∨ n < 328 ∨ 1048576 < n ∨ s.inPart 4 a n = false then (s, some (1, 0))
    else
      let b := s.memRead a n
      match s.patchCheck b n with
      | (0, es) =>
        let s := es.foldl (fun s r => s.liveAccept r.type r.body) s
        (s.updHusk (fun k => { k with patchSeq := le64 b 0x18 }), some (0, 0))
      | (k, _) => (s, some (k, 0))))

/-! ### Releases, revocation and the floor (R70, R71, R443) -/

def execFaultRelease (ch : Fin 64) (s : State) : Res :=
  .next (s.huskReq ch 0x60 [1] (fun reg _ s =>
    let ft := reg 1 % 65536
    let i := reg 1 / 65536 % 256
    let b := fltBlk ft i
    if 2 ^ 24 ≤ reg 1 ∨ faultKnown ft i = false then (s, some (1, 0))
    else if ft = 0x0101 ∨ s.rdBit Reg.flt_FLT_LATCH b (fltIdx ft) = false then (s, some (2, 0))
    else
      let s := s.wrBit Reg.flt_FLT_LATCH b (fltIdx ft) false
      let s := s.audit 1 .faultRelease i [ft, i]
      (if s.flt.quiet.contains (ft, i) then s.recover ft i else s, some (0, 0))))

/-- Status of a revocation object (R70). -/
def State.revokeCheck (s : State) (b : List Byte) : Nat :=
  let t := byteAt b 4
  let blk := (b.drop 16).take 256
  let signer := le16 blk 2
  let live (i : Nat) : Bool := match s.husk.slots[i]? with | some k => !k.revoked | none => false
  if b.take 4 ≠ [0x52, 0x56, 0x4B, 0x31] ∨ 3 < t ∨ zeroBytes b 5 11 = false then 1
  else if sigCheck (s.husk.slots.map (fun k => { k with revoked := false })) (b.take 16) blk none ≠ .ok then 3
  else if live signer = false ∨ signer = t ∨ (s.rdN Reg.status_COPY 0 ≠ 0 ∧ s.str.keyIdx = t)
      ∨ (live t = true ∧ [0, 1, 2, 3].all (fun i => i == t || !(live i))) then 8
  else 0

def execSlotRevoke (ch : Fin 64) (s : State) : Res :=
  .next (s.huskReq ch 0x70 [2, 3] (fun reg _ s =>
    let b := s.memRead (regAddr reg) 272
    match s.revokeCheck b with
    | 0 =>
      let t := byteAt b 4
      let s := s.updHusk (fun k => { k with slots := k.slots.zipIdx.map (fun x => if x.2 = t then { x.1 with revoked := true } else x.1) })
      (s.audit 2 .revoke noInst [t], some (0, 0))
    | n => (s, some (n, 0))))

/-- The versions a new floor may not pass (R71): of images passing steps 1 to 4, of bundles that verify, and of their microcode. -/
def State.floorLimits (s : State) : List Nat :=
  let k := s.husk
  let img (b : List Byte) : List Nat :=
    let n := le32 b 8
    if step2 b && n ≤ 1048576 && objectSig k.slots b n (byteAt b 0xE) == .ok then [le16 b 0x10] else []
  let fw (b : List Byte) : List Nat :=
    let n := le32 b 8
    if 256 ≤ n && n ≤ 0x2000000 && objectSig k.slots b n (byteAt b 0xE) == .ok then
      le16 b 0x10 :: (if (bundleItem b 3).isSome then [le16 (bundleBytes b 3) 0xE] else [])
    else []
  img k.imageA ++ img k.imageB ++ fw k.bundleA ++ fw k.bundleB

def execFloorRaise (ch : Fin 64) (s : State) : Res :=
  .next (s.huskReq ch 0x71 [1] (fun reg _ s =>
    let f := reg 1
    if 65536 ≤ f then (s, some (1, 0))
    else if f ≤ s.husk.floor ∨ s.floorLimits.any (fun v => v < f) then (s, some (2, 0))
    else
      let old := s.husk.floor
      let s := (s.updHusk (fun k => { k with floor := f })).wrN Reg.status_SEC_FLOOR 0 f
      (s.audit 2 .floorRaise noInst [old, f], some (0, 0))))

/-! ### Resets Husk serves (R106 to R108) -/

/-- WARM_RESET: register 1 holds the kind in [3:0] and the engine in [15:8]. -/
def State.warmReq (s : State) (ch kind : Nat) (act : Nat → State → State × Nat) : State :=
  let r1 := ((s.mb ch 0).data.toArray.getD 1 0).toNat
  if r1 % 16 ≠ kind then s
  else s.huskReq ch 0x7F [1] (fun _ _ s =>
    if r1 / 16 % 16 ≠ 0 ∨ 65536 ≤ r1 then (s, some (1, 0))
    else
      let (s, st) := act (r1 / 256 % 256) s
      (s, some (st, 0)))

/-- Kind 1: new I/O is turned away and the buffer drains (R108). -/
def execDeviceWarmReset (ch : Fin 64) (s : State) : Res :=
  .next (s.warmReq ch 1 (fun _ s => (s.updHusk (fun k => { k with rootDrained := true }), 0)))

/-- The inline key slots are cleared at every reset; Husk fills the slots of the sides whose ledger it has read again from the wrapped
keys (R68, R69). DEDUCED: log 106. -/
def State.keyReset (s : State) : State :=
  let s := s.updHusk (fun k => { k with keySlots := [] })
  ((List.range 64).filter (fun n => (s.act n).ledgerRead)).foldl (fun s n => s.keysOf n) s

/-- Kind 2: the Culm cores restart from partition 4; outstanding admin commands end with Internal Error. -/
def State.culmRestart (s : State) : State :=
  let s := (List.range 16).foldl (fun s c => s.locksOf (idCulm c)) s
  ((s.host.cmds.filter (fun c => c.admin && c.hold != .posting)).foldl (fun s c => s.complete c.slot stInternal) s).keyReset

def execCulmReset (ch : Fin 64) (s : State) : Res := .next (s.warmReq ch 2 (fun _ s => (s.culmRestart, 0)))

/-- What R107 does to the engine's actuator: epochs chaffed, media work ended, the gate closed, loops back to the committed
setpoint. -/
def State.engineStop (s : State) (e : Nat) : State :=
  match s.engAct e with
  | some n =>
    let s := s.chaffAll n
    let s := (s.endWork n).gateClose n 6
    let s := (s.wr Reg.engine_RUN e 0).wr Reg.engine_LOADED e 0
    (((s.updAct n (fun a => { a with noEngine := true, heldGo := false, fifo := [] })).wr Reg.spf_SP_DEPTH n 0).updLoop (vcmLoop n)
      (fun l => { l with presetPend := true })).updLoop (maLoop n) (fun l => { l with presetPend := true })
  | none => s

/-- Clear local memory, or fill it from offset 0 and zero the rest. DESIGN CHOICE: log 129. -/
def State.engineFill (s : State) (e : Nat) (b : List Byte) : State :=
  let base := e * 0x40000
  let rest := s.engMem.filter (fun x => x.1 < base || base + 0x40000 ≤ x.1)
  { s with engMem := b.zipIdx.foldl (fun m x => Sparse.write m (base + x.2) 0 x.1) rest }

/-- Start a load of a verified object (R78, R189): a copy goes to partition 5 and LOAD to the quadrant's loader. The copy lies at the
partition's base. DESIGN CHOICE: log 155. -/
def State.loadStart (s : State) (ch e : Nat) (obj : List Byte) : State :=
  let base := match s.str.part 5 with | some p => p.base | none => 0
  let s := s.memWrite base (obj.take (le32 obj 8))
  let n := le32 obj 0x14
  let entry := le32 obj 0x18
  let s := s.updHusk (fun k => { k with loading := some (ch, e, base + 32, n, entry) })
  s.huskSend (60 + e / 17) [0xA0, e, (base + 32) % 2 ^ 32, (base + 32) / 2 ^ 32, n, entry]

/-- Load an engine from the selected bundle's object (R106, R189). -/
def State.bundleLoad (s : State) (e : Nat) : State :=
  let obj := bundleBytes s.bundle 3
  if mcCheck s.husk.slots s.husk.floor obj = 0 then s.loadStart 64 e obj else s

/-- Every field of the engine at its Reset value but those R205 marks; the fields that show the media queue follow it again at its next
change. DEDUCED: log 139. -/
def State.engineFresh (s : State) (e : Nat) : State :=
  let kept := [Reg.engine_BOUND_ACT, Reg.engine_IS_SPARE, Reg.engine_MQ_DEPTH]
  (Regs.engineFields.filter (fun f => !(kept.contains f))).foldl (fun s f =>
    (List.range f.n).foldl (fun s j => s.wrAt f e j f.reset) s) s

/-- Kind 3: an unbound engine is refused as R186 refuses a load. -/
def execTillerEngineReset (ch : Fin 64) (s : State) : Res :=
  .next (s.warmReq ch 3 (fun e s =>
    if 67 < e ∨ (s.engAct e).isNone then (s, 8)
    else ((((s.locksOf (idEngine e)).engineStop e).engineFresh e).engineFill e [] |>.bundleLoad e |>.keyReset, 0)))

/-- Codes 0 and 4 to 15. -/
def execWarmResetRefused (ch : Fin 64) (s : State) : Res :=
  .next (
    let r1 := ((s.mb ch 0).data.toArray.getD 1 0).toNat
    if 1 ≤ r1 % 16 ∧ r1 % 16 ≤ 3 then s else s.huskReq ch 0x7F [1] (fun _ _ s => (s, some (7, 0))))

/-- 5 s without the reloaded microcode running (R107). -/
def execTillerReloadTimeout (n : Act) (s : State) : Res :=
  .next (if (s.act n).noEngine then (s.updAct n (fun a => { a with reloadLate := true })).failActs n stNotReady else s)

/-! ### TILLER_LOAD and the loaders (R78, R189) -/

def execTillerLoad (ch : Fin 64) (ddrErr : Bool) (s : State) : Res :=
  .next (s.huskReq ch 0x20 [1, 2, 3, 4] (fun reg _ s =>
    let e := reg 1
    let a := regAddr reg
    let obj := s.memRead a (reg 4)
    if 67 < e ∨ (s.engAct e).isNone then (s, some (8, 0))
    else if ddrErr then (s, some (6, 0))
    else if (s.str.parts.any (fun p => p.base ≤ a && a + reg 4 ≤ p.stop)) = false ∨ reg 4 ≠ le32 obj 8 then (s, some (1, 0))
    else
      match mcCheck s.husk.slots s.husk.floor obj with
      | 0 => ((if s.rdB Reg.engine_RUN e then s.engineStop e else s).loadStart ch e obj, none)
      | k => (s, some (k, 0))))

/-- The engine runs the verified code (step 4 of R189). -/
def State.engineRun (s : State) (e src : Nat) : State :=
  let h := s.memRead (src - 32) 32
  let s := (s.wr Reg.engine_RUN e 1).wr Reg.engine_LOADED e 1
  let s := (s.wrN Reg.engine_MC_VERSION e (le32 h 0x1C)).wrN Reg.engine_MC_SEC_VER e (le16 h 0xE)
  let s := s.wrN Reg.engine_MC_KEY_IDX e (byteAt h 0xC)
  match s.engAct e with
  | some n => s.updAct n (fun a => { a with noEngine := false, reloadLate := false })
  | none => s

/-- Husk takes the loader's answer and ends the load in hand. DEDUCED: log 71. -/
def State.loadEnd (s : State) (q status : Nat) : State :=
  match s.husk.loading with
  | some (ch, e, src, _, _) =>
    if e / 17 ≠ q then s
    else
      let s := (s.mbRelease (60 + q) 0).updHusk (fun k => { k with loading := none })
      let s := if status = 0 then s.engineRun e src else s
      if ch < 64 then s.huskReply ch 0x20 (match status with | 0 => 0 | 1 => 8 | 2 => 6 | _ => 7) 0 else s
  | none => s

/-- The loader's answer in direction 0: status and the echoed opcode. -/
def State.loaderAnswer (s : State) (q status opc : Nat) : State :=
  let ch := 60 + q
  let was := (s.mb ch 0).full
  let s := (s.mbData ch 0 0 (BitVec.ofNat 32 status)).mbData ch 0 1 (BitVec.ofNat 32 opc)
  let s := s.mbGo ch 0 (BitVec.ofNat 8 (idLoader q))
  s.mbCross ch (!was && (s.mb ch 0).full)

/-- The command on channel 60 + q, taken by the loader. -/
def State.loaderTake (s : State) (q : Nat) (act : (Nat → Nat) → State → State) : State :=
  let m := s.mb (60 + q) 1
  if m.full then act (fun i => (m.data.toArray.getD i 0).toNat) (s.mbRelease (60 + q) 1) else s

def State.loaderKnows (s : State) (q e : Nat) : Bool := e / 17 == q && (s.engAct e).isSome

/-- The loader fills local memory (R78): page by page through its windows (R61, R62), CODE_LEN bytes and zeros behind them. -/
def State.loaderFill (s : State) (q e : Nat) (b : List Byte) : State :=
  let at_ (i : Nat) : Nat := windowBase (0x20 + e) + 0x80000 + 4096 * i
  let shut := (List.range 64).filter (fun i => s.access (idLoader q) (at_ i) true != .ok)
  let s := shut.foldl (fun s i => match s.access (idLoader q) (at_ i) true with
    | .viol dom => s.violate (idLoader q) (at_ i) true dom
    | _ => s) s
  if shut = [] then s.engineFill e b
  else
    let page (m : List (Nat × Byte)) (i : Nat) : List (Nat × Byte) :=
      (List.range 4096).foldl (fun m k => Sparse.write m (e * 0x40000 + 4096 * i + k) 0 (b.getD (4096 * i + k) 0)) m
    { s with engMem := ((List.range 64).filter (fun i => !(shut.contains i))).foldl page s.engMem }

/-- LOAD; a message that is neither LOAD nor HALT is answered with status 7. A LOAD whose DDR read fails leaves the engine halted with its
local memory as it was. DESIGN CHOICE: log 155. -/
def State.loaderLoad (s : State) (q : Nat) (ddrErr : Bool) : State :=
  if (s.mb (60 + q) 1).data.toArray.getD 0 0 = 0xA1 then s
  else s.loaderTake q (fun reg s =>
    let e := reg 1
    if reg 0 ≠ 0xA0 then s.loaderAnswer q 7 (reg 0)
    else if s.loaderKnows q e = false then (s.loaderAnswer q 1 0xA0).loadEnd q 1
    else if ddrErr then ((s.wr Reg.engine_RUN e 0).loaderAnswer q 2 0xA0).loadEnd q 2
    else
      let n := min (reg 4) 0x40000
      let code := s.dmaRead (idLoader q) true (regAddr reg) n
      let s := (s.dmaReadViol (idLoader q) true (regAddr reg) n).loaderFill q e code
      ((s.wr Reg.engine_RUN e 1).loaderAnswer q 0 0xA0).loadEnd q 0)

def execLoad (q : Quad) (ddrErr : Bool) (s : State) : Res := .next (s.loaderLoad q ddrErr)

def execHalt (q : Quad) (s : State) : Res :=
  .next (
    if (s.mb (60 + q) 1).data.toArray.getD 0 0 ≠ 0xA1 then s
    else s.loaderTake q (fun reg s =>
      if s.loaderKnows q (reg 1) then (s.wr Reg.engine_RUN (reg 1) 0).loaderAnswer q 0 0xA1 else s.loaderAnswer q 1 0xA1))

/-! ### The NVMe-MI relay (R77) -/

/-- The relay buffers: request and response, in the last 16 KiB of partition 4. -/
def State.miReqBuf (s : State) : Nat := match s.str.part 4 with | some p => p.stop - 16384 | none => 0
def State.miRespBuf (s : State) : Nat := match s.str.part 4 with | some p => p.stop - 8192 | none => 0

/-- Internal Error to the management controller. DEDUCED: log 73. -/
def State.miError (s : State) (m : MiMsg) : State := s.emit (.mctp (Config.miReply 1 m.bytes) m.tag false)

/-- A message from the management controller. Other message types are the management agent's own and change nothing here. DEDUCED: log 73. -/
def execMctpMessage (nvmeMi : Bool) (tag : Byte) (tagOwner : Bool) (message : List Byte) (s : State) : Res :=
  .next (
    if nvmeMi = false ∨ s.phase = .off ∨ s.husk.halted then s
    else
      let m : MiMsg := ⟨message, tag, tagOwner⟩
      if s.culmReleased = false then (s.miError m).audit 3 .miTimeout noInst []
      else if 4 ≤ s.husk.miWait.length then s.miError m
      else s.updHusk (fun k => { k with miWait := k.miWait ++ [m] }))

/-- Husk relays the oldest waiting message once Culm has released the previous one and its answer or timeout has come. Of a message longer
than the buffer its first 8,192 bytes go; an empty one goes with LENGTH 0. DEDUCED: log 70; DESIGN CHOICE: log 156. -/
def execMiRelay (s : State) : Res :=
  .next (
    match s.husk.miWait with
    | m :: rest =>
      if s.culmReleased ∧ s.husk.halted = false ∧ s.husk.miOut = none ∧ (s.mb 47 1).full = false then
        let b := m.bytes.take 8192
        let seq := s.husk.miSeq + 1
        let s := s.memWrite s.miReqBuf b
        let s := s.updHusk (fun k => { k with miWait := rest, miOut := some m, miSeq := seq })
        s.huskSend 47 [0x90, b.length + m.tag.toNat * 65536 + (if m.owner then 2 ^ 24 else 0), s.miReqBuf % 2 ^ 32, s.miReqBuf / 2 ^ 32, seq % 2 ^ 32]
      else s
    | [] => s)

/-- MI_RESPONSE: copied, released, and passed on when it answers the outstanding relay; else dropped. -/
def execMiResponse (s : State) : Res :=
  .next (
    let m := s.mb 47 0
    let reg (i : Nat) : Nat := (m.data.toArray.getD i 0).toNat
    if m.full = false ∨ s.locked = false ∨ s.husk.halted then s
    else
      let b := s.memRead s.miRespBuf (min (reg 1 % 16384) 8192)
      let s := s.mbRelease 47 0
      match s.husk.miOut with
      | some x =>
        if reg 0 = 0x91 ∧ reg 4 = s.husk.miSeq % 2 ^ 32 then
          (s.updHusk (fun k => { k with miOut := none })).emit (.mctp b x.tag false)
        else s
      | none => s)

/-- 5 s without an answer: Husk answers with Internal Error itself. -/
def execMiRelayTimeout (s : State) : Res :=
  .next (
    match s.husk.miOut with
    | some m => ((s.updHusk (fun k => { k with miOut := none })).miError m).audit 3 .miTimeout noInst [s.husk.miSeq]
    | none => s)

end Sys2Proof.Machine
end

