-- ==== Sys2Proof/Machine/Memory.lean ====
section
/-!
DEFINITION. Machine/Memory.lean: the Granary, the Gleaning buffer, range operations, and DDR's ECC, poison, scrubbing and sensors
of 15_memory_and_granary.md.
-/

namespace Sys2Proof.Machine

def State.updGran (s : State) (f : GranSt → GranSt) : State := { s with gran := f s.gran }

/-! ### Sets and lines (R401, R402) -/

def State.ways (s : State) : Nat := max 1 (s.rdN Reg.gran_WAYS 0)
def State.sets (s : State) : Nat := 131072 / s.ways

/-- The set of a line number. -/
def State.setOf (s : State) (l : Nat) : Nat := (Nat.xor l (l / s.sets)) % s.sets

/-- The partition a line lies in. -/
def State.linePart (s : State) (l : Nat) : Option PartRec := s.str.parts.find? (fun p => p.base ≤ 128 * l && 128 * l < p.stop)

/-- Lines of partitions 0, 3 and 5 are write-through. -/
def State.writeThrough (s : State) (l : Nat) : Bool := match s.linePart l with | some p => p.id == 0 || p.id == 3 || p.id == 5 | none => true

def State.gline (s : State) (l : Nat) : Option GLine := s.gran.lines.find? (fun x => x.line == l && x.valid)
def State.reserved (s : State) (l : Nat) : Option GLine := s.gran.lines.find? (fun x => x.line == l && !x.valid && x.lock)
def State.lockedIn (s : State) (set : Nat) : Nat := (s.gran.lines.filter (fun x => x.set == set && x.lock)).length

def State.granRefresh (s : State) : State :=
  (s.wrN Reg.gran_LOCKED_LINES 0 (s.gran.lines.filter (·.lock)).length).wrN Reg.gran_GLEAN_USED 0 s.gran.glean.length

/-- A dirty line enters the Gleaning buffer; with all 64 entries busy it waits for the oldest write-back (R404). DEDUCED: log 76. -/
def State.gleanPut (s : State) (l : Nat) : State :=
  let s := if 64 ≤ s.gran.glean.length then
      ((s.updGran (fun g => { g with glean := g.glean.drop 1 })).bump Reg.gran_GLEAN_STALL_CNT 0).bump Reg.gran_WB_CNT 0
    else s
  s.updGran (fun g => { g with glean := g.glean ++ [l] })

/-- The way a line fills: the one replacement chose, or the next unlocked one of the set. DESIGN CHOICE: log 77. -/
def State.victim (s : State) (set choice : Nat) : Nat :=
  let w := s.ways
  let locked (i : Nat) : Bool := s.gran.lines.any (fun x => x.set == set && x.way == i && x.lock)
  ((List.range w).map (fun i => (choice + i) % w)).find? (fun i => !(locked i)) |>.getD 0

/-- What a way holds leaves the main array. -/
def State.vacate (s : State) (set way : Nat) : State :=
  match s.gran.lines.find? (fun x => x.set == set && x.way == way) with
  | some x =>
    let s := s.updGran (fun g => { g with lines := g.lines.filter (fun y => !(y.set == set && y.way == way)) })
    if x.valid ∧ x.dirty then s.gleanPut x.line else s
  | none => s

/-- Install a line in a way. DEDUCED: log 75. -/
def State.install (s : State) (l way : Nat) (lock sec : Bool) : State :=
  let set := s.setOf l
  let s := (s.vacate set way).injWrite 0x0202 0 (64 * set + way)
  (s.updGran (fun g => { g with lines := g.lines ++ [(⟨l, set, way, true, false, lock, sec, []⟩ : GLine)] })).granRefresh

/-- Bring an absent line in: into its reserved slot where that may be refilled, else into the way replacement chose (R410). -/
def State.allocate (s : State) (l choice : Nat) (refill sec : Bool) : State :=
  match s.reserved l with
  | some x => if refill then s.install l x.way true sec else s.install l (s.victim (s.setOf l) choice) false sec
  | none => s.install l (s.victim (s.setOf l) choice) false sec

/-! ### ECC and poison (R395, R396, R403) -/

/-- DDR line index (R440): offset / 128. -/
def lineIdx (l : Nat) : Nat := l - ddrBase / 128

/-- Record the latest error of a channel. -/
def State.errAddr (s : State) (l : Nat) (ue scrub : Bool) : State :=
  let c := lineIdx l % 4
  let s := s.wr64 Reg.ddrCh_ERR_ADDR_LO Reg.ddrCh_ERR_ADDR_HI c 0 (128 * l)
  (s.wrB Reg.ddrCh_ERR_UE c ue).wrB Reg.ddrCh_ERR_SCRUB c scrub

/-- A line becomes poisoned by an uncorrectable DDR burst. -/
def State.ddrPoison (s : State) (l : Nat) (scrub : Bool) : State :=
  let c := lineIdx l % 4
  let s := s.updGran (fun g => { g with poison := if g.poison.contains l then g.poison else g.poison ++ [l] })
  ((s.bump Reg.ddrCh_UE_CNT c).errAddr l true scrub).raise 0x0302 c (BitVec.ofNat 32 (lineIdx l)) (s.injAny 0x0302 c (· == l))

/-- What DDR's own check makes of a read: a real error, or the check bits an armed write left (R444). -/
def State.ddrRead (s : State) (l : Nat) (e : EccEvent) (scrub : Bool) : State :=
  match eccWorse e (s.injEcc 0x0302 (lineIdx l % 4) l) with
  | .clean => s
  | .correctable => (s.bump Reg.ddrCh_CE_CNT (lineIdx l % 4)).errAddr l false scrub
  | .uncorrectable => s.ddrPoison l scrub

/-- A line is written to DDR. -/
def State.ddrWrite (s : State) (l : Nat) : State := s.injWrite 0x0302 (lineIdx l % 4) l

/-! ### Accesses (R401, R403, R405) -/

/-- A tag parity error: the tag is dropped, its lock cleared, and the data of a line that might have been dirty is lost. -/
def State.tagError (s : State) (set way : Nat) : State :=
  let inj := s.injAny 0x0202 0 (· == 64 * set + way)
  let s := s.bump Reg.gran_TAG_PAR_CNT 0
  match s.gran.lines.find? (fun x => x.set == set && x.way == way) with
  | some x =>
    let s := s.updGran (fun g => { g with lines := g.lines.filter (fun y => !(y.set == set && y.way == way)) })
    let s := if x.valid ∧ x.dirty then s.memWrite (128 * x.line) x.old else s
    let s := s.granRefresh
    if x.valid ∧ s.writeThrough x.line = false then s.raise 0x0202 0 (BitVec.ofNat 32 (set % 65536 + 65536 * way)) inj else s
  | none => s

/-- What the consumer of a poisoned line does (R397). DEDUCED: log 78. -/
def State.poisonRead (s : State) (who : Initiator) (l : Nat) : State :=
  match s.linePart l with
  | some p =>
    let x := (128 * l - p.base) / 4096
    -- the grain's own consumer finds the poison in partition 0 (`State.grainGood`)
    if p.id = 1 then
      s.updPool (fun q => { q with records := q.records.map (fun r =>
        if r.n.cap = some (x / 16) then { r with n := { r.n with capValid := false, cap := none } } else r) })
    else if p.id = 6 then
      if s.cache.any (fun g => g.place == x) then ({ s with cache := s.cache.filter (fun g => g.place != x) } : State).bump Reg.gran_DROP_POISON_CNT 0 else s
    else if p.id = 4 then s.emit (.busError who)
    else s
  | none => s

/-- Write bytes of a line: a write-back line becomes dirty over what DDR holds; a whole line clears poison (R396, R402). -/
def State.lineWrite (s : State) (l ofs : Nat) (b : List Byte) : State :=
  let s := if s.writeThrough l then s
    else
      let below := s.memRead (128 * l) 128
      s.updGran (fun g => { g with lines := g.lines.map (fun x =>
        if x.line = l ∧ x.valid then { x with dirty := true, old := if x.dirty then x.old else below } else x) })
  let s := if b.length = 128 then s.updGran (fun g => { g with poison := g.poison.filter (fun p => p != l) }) else s
  let s := s.memWrite (128 * l + ofs) b
  let s := s.injWrite 0x0203 0 l
  if s.writeThrough l then s.ddrWrite l else s

/-- A double-bit error in the line read: a clean line is fetched again, a dirty one is poisoned (R403). -/
def State.granEcc (s : State) (l : Nat) (e : EccEvent) (ddr : EccEvent) : State :=
  let inj := s.injAny 0x0203 0 (· == l)
  match eccWorse e (s.injEcc 0x0203 0 l), s.gline l with
  | .correctable, _ => s.bump Reg.gran_CE_CNT 0
  | .uncorrectable, some x =>
    let s := (s.bump Reg.gran_UE_CNT 0).raise 0x0203 0 (BitVec.ofNat 32 (lineIdx l)) inj
    if x.dirty then s.updGran (fun g => { g with poison := if g.poison.contains l then g.poison else g.poison ++ [l] })
    else ((s.bump Reg.gran_MISS_CNT 0).ddrRead l ddr false).injWrite 0x0203 0 l
  | _, _ => s

/-- One access to one line, past the checks of R63. -/
def State.lineAccess (s : State) (who : Initiator) (sec : Bool) (l ofs : Nat) (wr : Option (List Byte)) (n : Nat) (o : MemObs) : State :=
  let set := s.setOf l
  let s := if o.tagParityErr then s.tagError set (o.victim % s.ways) else s
  let s := (s.gran.lines.filter (fun x => x.set == set && s.injAny 0x0202 0 (· == 64 * set + x.way))).foldl (fun s x => s.tagError set x.way) s
  let whole := match wr with | some b => b.length == 128 | none => false
  let s :=
    match s.gline l with
    | some _ => (s.bump Reg.gran_HIT_CNT 0).granEcc l o.granEcc o.ddrEcc
    | none =>
      if s.gran.glean.contains l then
        -- served from the Gleaning copy and recalled; the write-back in flight goes on
        let s := s.bump Reg.gran_GLEAN_HIT_CNT 0
        let s := if o.evictionInProgress then s.bump Reg.gran_EVICT_RACE_CNT 0 else s
        s.allocate l o.victim (s.rdB Reg.gran_LOCK_REFILL 0) sec
      else
        let s := s.bump Reg.gran_MISS_CNT 0
        let s := if whole then s else s.ddrRead l o.ddrEcc false
        (s.allocate l o.victim (s.rdB Reg.gran_LOCK_REFILL 0) sec).injWrite 0x0203 0 l
  match wr with
  | some b => s.lineWrite l ofs b
  | none =>
    if s.gran.poison.contains l then s.poisonRead who l
    else s.emit (.bytes who (s.memRead (128 * l + ofs) n))

/-- The lines of an access: line, offset in it, place in the data, bytes. -/
def pieces (a n fuel at_ : Nat) : List (Nat × Nat × Nat × Nat) :=
  match fuel with
  | 0 => []
  | fuel + 1 => if n = 0 then [] else
      let k := min n (128 - a % 128)
      (a / 128, a % 128, at_, k) :: pieces (a + k) (n - k) fuel (at_ + k)

/-- Husk's access to its own regions (R22): SRAM is memory; the boot ROM and OTP take no write and read what the part holds, a free
value. DESIGN CHOICE: log 151. -/
def State.huskAccess (s : State) (who : Initiator) (a : Nat) (wr : Option (List Byte)) (n : Nat) : State :=
  match wr with
  | some b => if inSram a then s.memWrite a b else s
  | none => s.emit (.bytes who (if inSram a then s.memRead a n else (List.range n).map (fun i => Config.huskByte (a + i))))

def execMainMemoryAccess (who : Initiator) (secure : Bool) (addr : BitVec 48) (wr : Option (List Byte)) (len : Nat) (obs : MemObs)
    (s : State) : Res :=
  .next (
    let sec := if carriesSec who.toNat then secure else isSecure who.toNat
    let n := match wr with | some b => b.length | none => len
    if who.toNat = idHost then s
    else (pieces addr.toNat n n 0).foldl (fun s p =>
      match s.memAcc who.toNat sec (128 * p.1 + p.2.1) wr.isSome with
      | .ok =>
        if 128 * p.1 < ddrBase then s.huskAccess who (128 * p.1 + p.2.1) (wr.map (fun b => (b.drop p.2.2.1).take p.2.2.2)) p.2.2.2
        else (s.wake 7).lineAccess who sec p.1 p.2.1 (wr.map (fun b => (b.drop p.2.2.1).take p.2.2.2)) p.2.2.2 obs
      | .viol dom =>
        let s := s.violate who.toNat (128 * p.1 + p.2.1) wr.isSome dom
        if wr.isSome then s else s.emit (.bytes who (List.replicate p.2.2.2 0))
      | _ => s) s)

/-- A write-back completes and its entry is freed. -/
def execGleaningWriteBackDone (line : Nat) (s : State) : Res :=
  .next (
    if s.gran.glean.contains line then
      (((s.updGran (fun g => { g with glean := g.glean.erase line })).ddrWrite line).bump Reg.gran_WB_CNT 0).granRefresh
    else s)

/-! ### Range operations (R406 to R411) -/

def State.slotBase (s : State) (i : Nat) : Nat := s.rdN Reg.slot_BASE_LO i * 128 + 2 ^ 32 * s.rdN Reg.slot_BASE_HI i

/-- GO: a refused request gets its STATUS at once; another waits its turn. -/
def execGranaryRangeGo (i : Fin 8) (writer : Initiator) (s : State) : Res :=
  .next (s.guard writer (Reg.slot_GO.addr i 0) (fun s =>
    if s.rdB Reg.slot_BUSY i then s
    else
      let op := s.rdN Reg.slot_OP i
      let n := s.rdN Reg.slot_LINES i
      let b := s.slotBase i
      let s := s.wrN Reg.slot_OWNER i writer.toNat
      let s := ((s.wr Reg.slot_DONE_LINES i 0).wr Reg.slot_SKIP_LINES i 0).wr Reg.slot_LOCK_FULL i 0
      if op = 0 ∨ 5 < op then s.wr Reg.slot_STATUS i 3
      else if n = 0 ∨ b < ddrBase ∨ ddrBase + s.installed < b + 128 * n then s.wr Reg.slot_STATUS i 2
      else ((s.wr Reg.slot_BUSY i 1).wr Reg.slot_STATUS i 1).updGran (fun g => { g with queue := g.queue ++ [i.val] })))

/-- The owner may write the line (R408). -/
def State.mayRange (s : State) (owner l : Nat) : Bool :=
  s.stage1 owner (128 * l) true && (isSecure owner || (match s.linePart l with | some p => p.id != 5 | none => true))

/-- A valid line becomes invalid, with or without its write-back; a locked way stays as a reserved slot (R409, R410). -/
def State.invalidate (s : State) (l : Nat) (wb : Bool) : State :=
  match s.gline l with
  | some x =>
    let s := if x.dirty then (if wb then (s.ddrWrite l).bump Reg.gran_WB_CNT 0 else s.memWrite (128 * l) x.old) else s
    if x.lock then
      (s.updGran (fun g => { g with lines := g.lines.map (fun y => if y = x then { y with valid := false, dirty := false, old := [] } else y) })).bump
        Reg.gran_LOCK_INVAL_CNT 0
    else s.updGran (fun g => { g with lines := g.lines.filter (fun y => y != x) })
  | none => s

/-- Preload one line (R406): the way of an absent line is replacement's choice, which the spec leaves open. DESIGN CHOICE: log 77. -/
def State.preload (s : State) (l : Nat) : State :=
  match s.gline l, s.reserved l with
  | some x, some r =>
    if x.lock then s
    else (s.updGran (fun g => { g with
      lines := (g.lines.filter (fun y => y != x && y != r)) ++ [{ x with way := r.way, lock := true }] })).granRefresh
  | some _, none => s
  | none, _ => (s.allocate l (Config.freeNat s.fresh) true (match s.linePart l with | some p => p.id == 5 | none => false)).tick

/-- Lock a valid line within LOCK_BUDGET. -/
def State.lockLine (s : State) (i l : Nat) : State :=
  match s.gline l with
  | some x =>
    if x.lock then s
    else if s.lockedIn x.set < s.rdN Reg.gran_LOCK_BUDGET 0 then
      s.updGran (fun g => { g with lines := g.lines.map (fun y => if y = x then { y with lock := true } else y) })
    else (s.bump Reg.slot_LOCK_FULL i).bump Reg.gran_LOCK_REFUSED_CNT 0
  | none => s

def State.unlockLine (s : State) (l : Nat) : State :=
  s.updGran (fun g => { g with lines := (g.lines.filter (fun y => !(y.line == l && y.lock && !y.valid))).map (fun y =>
    if y.line = l then { y with lock := false } else y) })

/-- Run operation `op` of slot i when its turn has come: over the lines of the range, or over every way and Gleaning entry where
those are fewer. -/
def State.rangeOp (s : State) (i op : Nat) (act : Nat → State → State) : State :=
  if s.gran.queue.head? ≠ some i ∨ s.gran.ranDone ∨ s.rdN Reg.slot_OP i ≠ op then s
  else
    let n := s.rdN Reg.slot_LINES i
    let l0 := s.slotBase i / 128
    let owner := s.rdN Reg.slot_OWNER i
    let ls := if n ≤ 131136 then (List.range n).map (fun k => l0 + k)
      else ((s.gran.lines.map (·.line)).eraseDups).filter (fun l => l0 ≤ l && l < l0 + n)
    let skip := ls.filter (fun l => !(s.mayRange owner l))
    let s := (ls.filter (s.mayRange owner)).foldl (fun s l => act l s) s
    let s := (s.wrN Reg.slot_DONE_LINES i (min n 131136)).wrN Reg.slot_SKIP_LINES i skip.length
    let s := match skip with
      | l :: _ => s.violate owner (128 * l) true (s.stage1 owner (128 * l) true)
      | [] => s
    ((s.updGran (fun g => { g with ranDone := true })).granRefresh).trace 9 .rangeOp i [op, l0, n]

def execCleanAndInvalidate (i : Fin 8) (s : State) : Res := .next (s.rangeOp i 1 (fun l s => s.invalidate l true))
def execDiscardAndInvalidate (i : Fin 8) (s : State) : Res := .next (s.rangeOp i 2 (fun l s => s.invalidate l false))
def execPreload (i : Fin 8) (s : State) : Res := .next (s.rangeOp i 3 (fun l s => s.preload l))
def execPreloadAndLock (i : Fin 8) (s : State) : Res := .next (s.rangeOp i 4 (fun l s => (s.preload l).lockLine i l))
def execUnlock (i : Fin 8) (s : State) : Res := .next (s.rangeOp i 5 (fun l s => s.unlockLine l))

/-- Every write-back of the operation has been accepted: BUSY clears and the next slot's turn comes. -/
def execRangeOperationDone (i : Fin 8) (s : State) : Res :=
  .next (
    if s.gran.queue.head? = some i.val ∧ s.gran.ranDone then
      ((s.wr Reg.slot_BUSY i 0).wr Reg.slot_STATUS i 0).updGran (fun g => { g with queue := g.queue.drop 1, ranDone := false })
    else s)

/-- Emptying the Granary before self-refresh (R413, R414). -/
def State.granEmpty (s : State) : State :=
  let s := (s.gran.lines.filter (·.valid)).foldl (fun s x => s.invalidate x.line true) s
  let s := s.gran.glean.foldl (fun s l => (s.ddrWrite l).bump Reg.gran_WB_CNT 0) s
  (s.updGran (fun g => { g with glean := [] })).granRefresh

/-! ### Scrubbing and sensors (R398, R399) -/

/-- The scrubber reads a line; in self-refresh it is suspended. A correctable line dirty in the Granary is left alone. -/
def execPatrolScrub (line : Nat) (ecc : EccEvent) (s : State) : Res :=
  .next (
    let c := line % 4
    let l := ddrBase / 128 + line
    let total := s.installed / 128
    if s.rdB Reg.ddrCh_SCRUB_EN c = false ∨ total ≤ line ∨ s.rdN Reg.status_CUR_PS 0 = 4 then s
    else
      let dirty := s.gran.lines.any (fun x => x.line == l && x.dirty)
      let s := match eccWorse ecc (s.injEcc 0x0302 c l) with
        | .clean => s
        | .correctable => if dirty then s else (s.ddrRead l .correctable true).ddrWrite l
        | .uncorrectable => (s.ddrPoison l true).audit 1 .scrub c [128 * l]
      if total ≤ line + 4 then s.bump Reg.ddrCh_SCRUB_PASS_CNT c else s)

/-- One DIMM's sensor. -/
def State.dimmRead (s : State) (c d : Nat) (t : Option Int) : State :=
  let th := s.str.therm
  let k := 2 * c + d
  match t with
  | some v =>
    let s := s.updGran (fun g => { g with dimmFails := assocDel g.dimmFails k })
    let s := s.wrInt (if d = 0 then Reg.ddrCh_DIMM_TEMP_0 else Reg.ddrCh_DIMM_TEMP_1) c 0 v
    let s := if (th.dimmRef : Int) ≤ v then s.wrBit Reg.ddrCh_REF_2X c d true
      else if v < (th.dimmRef : Int) - th.hyst then s.wrBit Reg.ddrCh_REF_2X c d false else s
    if 95 ≤ v then s.raise 0x0304 c else s
  | none =>
    let n := (s.gran.dimmFails.lookup k).getD 0 + 1
    let s := s.updGran (fun g => { g with dimmFails := assocSet g.dimmFails k n })
    if n = 3 then (s.wrBit Reg.ddrCh_REF_2X c d true).raise 0x0303 c else s

/-- The reading of every DIMM present, `temps` at 2 × channel + slot. -/
def execDimmSensorRead (temps : List (Option Int)) (s : State) : Res :=
  .next ((List.range 8).foldl (fun s k =>
    if k % 2 < s.rdN Reg.ddrCh_DIMMS (k / 2) then s.dimmRead (k / 2) (k % 2) (temps.getD k none) else s) s)

end Sys2Proof.Machine
end

