-- ==== Sys2Proof/Machine/Spindle.lean ====
section
/-!
DEFINITION. Machine/Spindle.lean: the commands of 12_spindle_motor.md: starts and stops, the driven period with its current
reconstruction, loops, field weakening and MOTOR word, and observer loss. Arithmetic on the block's own floats is binary32, one
rounding per operation; an operation without a finite result gives a free value (DESIGN CHOICE: log 40).
-/

namespace Sys2Proof.Machine

/-! ### Motor parameters (R309, R144) -/

def f32Sqrt3 : Word := 0x3FDDB3D7
def f32Pi : Word := 0x40490FDB
def f32Half : Word := 0x3F000000

/-- R, L, KE, pole pairs and the nominal bus of HDA h. -/
def State.motorPar (s : State) (h : Nat) : Word × Word × Word × Nat × Word :=
  match s.desc h with
  | some d => (d.rPhase, d.lPhase, d.ke, d.polePairs, d.busNom)
  | none => (0, 0, 0, 1, 0)

/-- λ = KE ÷ POLE_PAIRS (R309). -/
def State.lambda (s : State) (h : Nat) : Word :=
  let (_, _, ke, p, _) := s.motorPar h
  fDiv ke (F32.ofInt p)

/-- The target speed in rpm: PORT SPEED. -/
def State.targetRpm (s : State) (h : Nat) : Nat := nominalRpm (match s.str.port h with | some p => p.speed | none => 0)

/-- The bus voltage: the latest MTYPE 2 value × its MSCALE (R315). -/
def State.busVolts (s : State) (h : Nat) : Word := fMul (F32.ofInt (s.port h).mot.bus) (s.mscale h 2)

/-- PWM_PERIOD, 1,000 to 5,000 ticks, else 2,500 (R328). -/
def State.pwmPeriod (s : State) (h : Nat) : Nat :=
  let p := s.rdN Reg.spindle_PWM_PERIOD h
  if 1000 ≤ p ∧ p ≤ 5000 then p else 2500

/-! ### The commutation table (R315) -/

/-- Entry j: sin(2π j ÷ 1,024) with 15 fraction bits, rounded to nearest, at most 32,767. -/
def sinEntry (j : Nat) : Int :=
  let x := Fix.sin (2 * Fix.pi * j / 1024)
  min 32767 ((2 * x * 32768 + Fix.one).fdiv (2 * Fix.one))

/-- sin θ, interpolated by the 6 low bits, as a float. DESIGN CHOICE: log 83. -/
def sinOf (theta : Nat) : Word :=
  let t := theta % 65536
  let j := t / 64
  let a := sinEntry j
  let b := sinEntry ((j + 1) % 1024)
  F32.ofRat (a * 64 + (b - a) * (t % 64)) (64 * 32768)

def cosOf (theta : Nat) : Word := sinOf (theta + 16384)

/-! ### The PWM pattern (R311, R313, R314) -/

/-- Phases by duty, highest first, ties U before V before W. -/
def dutyOrder (d : List Nat) : List Nat :=
  sortBy (fun a b => d.getD b 0 < d.getD a 0 || (d.getD a 0 == d.getD b 0 && a ≤ b)) [0, 1, 2]

/-- Rising and falling edge of a phase without a shift, to the nearest tick. -/
def riseAt (period duty : Nat) : Nat := (2 * period * (65536 - duty) + 131072) / 262144
def fallAt (period duty : Nat) : Nat := (2 * period * (65536 + duty) + 131072) / 262144

/-- Shifts of U, V, W, SHUNT_T1 and SHUNT_T2, and whether a window stays too narrow to sample. -/
def shuntPlan (period min_ back : Nat) (d : List Nat) : List Int × Nat × Nat × Bool :=
  let o := dutyOrder d
  let (mx, md, mn) := (o.getD 0 0, o.getD 1 1, o.getD 2 2)
  let rise (x : Nat) : Int := riseAt period (d.getD x 0)
  let fall (x : Nat) : Int := fallAt period (d.getD x 0)
  let w1 := rise md - rise mx
  let w2 := rise mn - rise md
  let want1 := if w1 < min_ then (min_ : Int) - w1 else 0
  let want2 := if w2 < min_ then (min_ : Int) - w2 else 0
  let s1 := min want1 (rise mx)
  let s2 := min want2 ((period : Int) - fall mn)
  let shift (x : Nat) : Int := if x = mx then -s1 else if x = mn then s2 else 0
  ([shift 0, shift 1, shift 2], (rise md - back).toNat, (rise mn + s2 - back).toNat, decide (s1 < want1) || decide (s2 < want2))

/-! ### Instances of the block (R287, R316, R320) -/

/-- An instance to OFF: ENABLE 0 (R304, R324). -/
def State.instOff (s : State) (g : Nat) : State :=
  let m := s.loopMode g
  if m = 0 then s
  else
    let s := if m = 2 ∨ m = 3 then s.wrN Reg.loop_SAFE_CAUSE g 4 else s
    let s := if s.rdN Reg.loop_TUNE_ST g = 1 then s.wrN Reg.loop_TUNE_ST g 3 else s
    let s := (s.wr Reg.loop_ENABLE g 0).wr Reg.loop_I g 0
    (s.setMode g 0).updLoop g (fun _ => LoopSt.reset)

def State.instsOff (s : State) (h : Nat) : State := (s.instOff (spinLoop h 0)).instOff (spinLoop h 1)

/-- Enable an instance in MANUAL at an output, automatic from its next run; one that is enabled stays. -/
def State.instOn (s : State) (g : Nat) (man : Word) : State :=
  let m := s.loopMode g
  if 1 ≤ m ∧ m ≤ 3 then s
  else
    let s := (s.instOff g).wr Reg.loop_MAN_OUT g man
    let s := s.loopEnable g
    if s.loopMode g = 1 then s.updLoop g (fun l => { l with modePend := some 1 }) else s

/-! ### States (R320 to R326) -/

/-- SENSE: MODE 0, both instances OFF. -/
def State.spinSense (s : State) (h : Nat) : State :=
  let s := (s.instsOff h).motorOff h
  (s.updSpin h (fun x => { x with retry := false, bad := 0, good := 0, held := false, skips := 0, above := false })).spinState h 1

/-- A start at SENSE (R321). PWM_PERIOD applies from here (R326). -/
def State.spinStart (s : State) (h : Nat) : State :=
  let s := s.updSpin h (fun x => { x with attempts := 0, begun := true, period := s.pwmPeriod h })
  let s := (s.wr Reg.spindle_START_PATH h 0).wr Reg.spindle_SPIN_RES h 0
  (s.bump Reg.spindle_START_CNT h).spinSense h

def State.spinFail (s : State) (h : Nat) : State :=
  let s := ((s.instsOff h).motorOff h).updSpin h (fun x => { x with begun := false, retry := false })
  (s.spinState h 10).spinRelease

/-- A start attempt fails: a 500 ms coast and another, or FAILED with a spindle-start fault after the third (R321). -/
def State.attemptLost (s : State) (h : Nat) : State :=
  let n := (s.spinSt h).attempts + 1
  let s := s.updSpin h (fun x => { x with attempts := n })
  if n < 3 then
    let s := (s.instsOff h).motorOff h
    (s.spinState h 9).updSpin h (fun x => { x with retry := true })
  else (s.spinFail h).raise 0x0902 h

/-- ω_e × λ for an electrical speed. -/
def State.backEmf (s : State) (h : Nat) (we : Word) : Word := fMul we (s.lambda h)

/-- RUN: both instances; SPD_REF ramps from the speed as it is (R316, R320). -/
def State.spinRun (s : State) (h : Nat) (we : Word) : State :=
  let s := s.instOn (spinLoop h 0) 0
  let s := s.instOn (spinLoop h 1) (s.backEmf h we)
  let s := s.wr Reg.spindle_SPD_REF h (s.rd Reg.spindle_SPD_EST h)
  let s := s.updSpin h (fun x => { x with bad := 0, skips := 0, above := false })
  s.spinState h 5

/-- ALIGN: the current instance alone, θ = 0. -/
def State.spinAlign (s : State) (h : Nat) : State :=
  let s := s.instOn (spinLoop h 1) 0
  let s := s.updSpin h (fun x => { x with theta := 0, rpm := 0, good := 0, bad := 0, held := false, hist := [] })
  (s.wr Reg.spindle_ANGLE h 0).spinState h 3

/-- Electrical speed of a mechanical speed in rpm. -/
def State.elecOf (s : State) (h : Nat) (rpm : Word) : Word :=
  let (_, _, _, p, _) := s.motorPar h
  fDiv (fMul (fMul rpm (F32.ofInt p)) f32Pi) (F32.ofInt 30)

/-- Back-EMF as observed: its amplitude, the signed speed, and whether it counts as stopped: below KE × 30 rpm (R321). -/
def State.senseBemf (s : State) (h : Nat) (b : BemfObs) : State × Bool :=
  let (_, _, ke, _, _) := s.motorPar h
  let stopped := F32.lt b.amplitude (fMul ke f32Pi)
  let spd := if stopped then 0 else if b.backward then F32.negate b.rpm else b.rpm
  let s := s.updSpin h (fun x => { x with emf := b.amplitude, hist := [Fix.ofF32 spd] })
  (s.wr Reg.spindle_SPD_EST h spd, stopped)

/-- Seed the observer with the back-EMF angle and speed, and enter RUN. -/
def State.spinSeed (s : State) (h : Nat) (b : BemfObs) : State :=
  (s.wr Reg.spindle_ANGLE h (b.angle.setWidth 32)).spinRun h (s.elecOf h b.rpm)

/-- Brake duty: min(65,535, 65,536 × BRAKE_I × R_PHASE ÷ e) (R321). -/
def State.brakeDuty (s : State) (h : Nat) : Nat :=
  let (r, _, _, _, _) := s.motorPar h
  let e := (s.spinSt h).emf
  let x := F32.toIntUp (fDiv (fMul (fMul (F32.ofInt 65536) (s.rd Reg.spindle_BRAKE_I h)) r) e)
  if F32.mag e = 0 then 65535 else min 65535 x.toNat

/-- A brake interval begins: MODE 2 at the duty of the last back-EMF amplitude (R321). -/
def State.brakeOn (s : State) (h : Nat) : State :=
  let d := s.brakeDuty h
  (s.updSpin h (fun x => { x with sensing := false, brake := d })).motor h 2 [d, 0, 0] 0 0 [0, 0, 0]

def execSenseEnd (h : Hda) (bemf : BemfObs) (s : State) : Res :=
  .next (
    if s.rdN Reg.spindle_SPIN_STATE h ≠ 1 then s
    else
      let (s, stopped) := s.senseBemf h bemf
      if stopped = false ∧ bemf.backward then
        let s := (s.bump Reg.spindle_BRAKE_CNT h).wr Reg.spindle_START_PATH h 3
        (s.spinState h 2).brakeOn h
      else if stopped = false ∧ F32.lt (F32.ofInt (s.rdN Reg.spindle_CATCH_RPM h)) bemf.rpm then
        ((s.bump Reg.spindle_CATCH_CNT h).wr Reg.spindle_START_PATH h 1).spinSeed h bemf
      else (s.wr Reg.spindle_START_PATH h 2).spinAlign h)

def execAlignEnd (h : Hda) (s : State) : Res :=
  .next (if s.rdN Reg.spindle_SPIN_STATE h = 3 then s.spinState h 4 else s)

def execHandoffTimeout (h : Hda) (s : State) : Res :=
  .next (if s.rdN Reg.spindle_SPIN_STATE h = 4 then s.attemptLost h else s)

def execStartRetry (h : Hda) (s : State) : Res :=
  .next (if (s.spinSt h).retry ∧ s.rdN Reg.spindle_SPIN_STATE h = 9 then s.spinSense h else s)

/-- In BRAKE, a 20 ms sense window or a 100 ms brake interval ends. A window that no longer shows backward motion ends the braking
as a stopped one does. -/
def execBrakeIntervalEnd (h : Hda) (bemf : BemfObs) (s : State) : Res :=
  .next (
    if s.rdN Reg.spindle_SPIN_STATE h ≠ 2 then s
    else if (s.spinSt h).sensing then
      let (s, stopped) := s.senseBemf h bemf
      if stopped ∨ bemf.backward = false ∨ F32.lt bemf.rpm (F32.ofInt (s.rdN Reg.spindle_BRAKE_EXIT_RPM h)) then s.spinAlign h
      else s.brakeOn h
    else (s.updSpin h (fun x => { x with sensing := true })).motorOff h)

def execBrakeTimeout (h : Hda) (s : State) : Res :=
  .next (if s.rdN Reg.spindle_SPIN_STATE h = 2 then (s.spinFail h).raise 0x0902 h else s)

/-- 2 × SPIN_TIME without LOCKED (R323): coast, and one retry as a group of one. -/
def execSpinupTimeout (h : Hda) (s : State) : Res :=
  .next (
    if (s.spinSt h).begun = false then s
    else
      let late := (s.spinSt h).late
      let s := (s.bump Reg.spindle_SPINUP_TMO_CNT h).instsOff h
      let s := (s.raise 0x0903 h).audit 5 .spinTimeout h [h]
      if late then s.spinFail h
      else
        let s := ((s.spindleCoast h).updSpin h (fun x => { x with begun := false, late := true })).spinRelease
        ({ s with spin := s.spin ++ [(⟨0xFE, [h.val], 0, false, false⟩ : SpinGroup)] } : State).spinAsk)

/-! ### Observer loss (R324) -/

def State.obsLoss (s : State) (h : Nat) : State :=
  let s := s.raise 0x0901 h
  let s := [2 * h, 2 * h + 1].foldl (fun s n => s.gateClose n 6) s
  let s := ((s.instsOff h).motorOff h).bump Reg.spindle_OBS_LOSS_CNT h
  (s.updSpin h (fun x => { x with bad := 0, good := 0, skips := 0 })).spinState h 7

/-- The heads come off: epochs chaffed, media work ended, VCM retract with cause 7, commands held (R324). -/
def State.spinUnload (s : State) (h : Nat) : State :=
  let s := ((s.instsOff h).motorOff h).updSpin h (fun x => { x with begun := false, unloads := x.unloads + 1 })
  let s := [2 * h, 2 * h + 1].foldl (fun s n =>
    if s.actExists n then
      let s := (s.chaffAll n).endWork n
      let s := (s.gateClose n 6).loopSafeAction (vcmLoop n) 7
      s.updAct n (fun a => { a with holding := a.ready || a.holding, ready := false })
    else s) s
  s.spinState h 8

/-- The newest speeds of a list that together span one revolution, PWM periods of `period` ticks apart (R310). -/
def lastRev (period : Nat) : Int → List Int → List Int
  | _, [] => []
  | left, x :: xs => if left ≤ 0 then [] else x :: lastRev period (left - Int.natAbs x * period) xs

def meanOf (l : List Int) : Int := if l = [] then 0 else l.foldl (· + ·) 0 / l.length

/-- SPD_EST of one more period. -/
def SpinSt.addSpeed (x : SpinSt) (rpm : Int) : SpinSt :=
  { x with hist := lastRev x.period (6000000000 * Fix.one) (rpm :: x.hist) }

/-- The speed used for lock and for the 85 % limit: FRAME_PERIOD while a side is in TRACK or COAST, else the mean of SPD_EST
(R310). Answers whether it lies within ±0.1 % of the target, and whether it is below 85 % of it. -/
def State.speedTest (s : State) (h : Nat) : Bool × Bool :=
  let on (n : Nat) : Bool := s.rdN Reg.demod_STATE n == 2 || s.rdN Reg.demod_STATE n == 3
  if on (2 * h) ∨ on (2 * h + 1) then
    let n := if on (2 * h) then 2 * h else 2 * h + 1
    let (nom, _) := nominalPeriod (match s.str.port h with | some p => p.speed | none => 0)
    let p := s.rdN Reg.demod_FRAME_PERIOD n
    (s.spindleOk n, p != 0 && decide (100 * nom < 85 * p))
  else
    let t : Int := s.targetRpm h
    let m := meanOf (s.spinSt h).hist
    (decide (999 * t * Fix.one ≤ 1000 * m) && decide (1000 * m ≤ 1001 * t * Fix.one), decide (100 * m < 85 * t * Fix.one))

def execReacqTimeout (h : Hda) (s : State) : Res :=
  .next (if s.rdN Reg.spindle_SPIN_STATE h = 7 then s.spinUnload h else s)

/-- Re-acquisition from back-EMF, as SENSE does. What cannot be caught unloads below 85 % of the target, or waits for its time-out. -/
def execReacquisitionDone (h : Hda) (bemf : BemfObs) (s : State) : Res :=
  .next (
    if s.rdN Reg.spindle_SPIN_STATE h ≠ 7 then s
    else
      let (s, stopped) := s.senseBemf h bemf
      if stopped = false ∧ bemf.backward = false ∧ F32.lt (F32.ofInt (s.rdN Reg.spindle_CATCH_RPM h)) bemf.rpm then
        (s.bump Reg.spindle_REACQ_OK_CNT h).spinSeed h bemf
      else if (s.speedTest h).2 then s.spinUnload h
      else s)

/-- Both sides' demodulators are in OFF (R165). -/
def State.headsParked (s : State) (h : Nat) : Bool := s.rdN Reg.demod_STATE (2 * h) == 0 && s.rdN Reg.demod_STATE (2 * h + 1) == 0

def execUnloadDone (h : Hda) (s : State) : Res :=
  .next (
    if s.rdN Reg.spindle_SPIN_STATE h = 8 ∧ s.headsParked h then (s.bump Reg.spindle_RESTART_CNT h).spinStart h else s)

/-- Bus below 0.6 × BUS_NOM for 1 ms (R326). -/
def execBusUndervoltage (h : Hda) (s : State) : Res :=
  .next (
    if s.bound h = false then s
    else
      let s := ((s.instsOff h).spindleCoast h).spinRelease
      s.raise 0x0904 h)

/-! ### SPIN_CMD (R322, R325, R327) -/

/-- SPIN_RES of a start from SPIN_CMD, 0 where it is accepted. DEDUCED: log 84. -/
def State.startRes (s : State) (h : Nat) (cmd : Bool) : Nat :=
  if s.headsParked h = false then 1
  else if !(s.up h) || !(s.safeN.getLsbD h) then 2
  else if [0, 10].contains (s.rdN Reg.spindle_SPIN_STATE h) = false ∧ (cmd ∨ s.rdN Reg.spindle_SPIN_STATE h ≠ 9) then 3
  else if cmd ∧ s.orr.tokens = [] then 4 else 0

/-- A start by SPIN_CMD; or by Bolrus itself under R104, which may also take an HDA out of COAST and needs the group's token. DEDUCED: log 85. -/
def execSpinStart (h : Hda) (writer : Option Initiator) (s : State) : Res :=
  .next (
    match writer with
    | some w => s.guard w (Reg.spindle_SPIN_CMD.addr h 0) (fun s =>
        let r := s.startRes h true
        if r = 0 then s.spinStart h else s.wrN Reg.spindle_SPIN_RES h r)
    | none =>
      if s.spin.any (fun g => g.token && g.started && g.hdas.contains h.val) ∧ s.startRes h false = 0 then s.spinStart h else s)

/-- Stop into COAST: by SPIN_CMD, refused while a head is off the ramp; or by Bolrus (R112). -/
def State.spinStop (s : State) (h : Nat) : State :=
  let s := (s.instsOff h).motorOff h
  let s := s.updSpin h (fun x => { x with begun := false, retry := false })
  (s.spinState h 9).spinRelease

def execSpinStop (h : Hda) (writer : Option Initiator) (s : State) : Res :=
  .next (
    match writer with
    | some w => s.guard w (Reg.spindle_SPIN_CMD.addr h 0) (fun s =>
        if s.headsParked h then (s.wr Reg.spindle_SPIN_RES h 0).spinStop h else s.wr Reg.spindle_SPIN_RES h 1)
    | none => if s.headsParked h then s.spinStop h else s)

/-- Tune of the speed instance (R300, R301, R327). -/
def execSpinTune (h : Hda) (writer : Initiator) (s : State) : Res :=
  .next (s.guard writer (Reg.spindle_SPIN_CMD.addr h 0) (fun s =>
    if s.rdN Reg.spindle_SPIN_STATE h = 6 ∧ s.headsParked h then
      let g := spinLoop h 0
      let s := s.wr Reg.spindle_SPIN_RES h 0
      if s.tuneBarred g then s.wr Reg.loop_TUNE_ST g 5
      else if 1 ≤ s.loopMode g ∧ s.loopMode g ≤ 2 then s.updLoop g (fun l => { l with modePend := some 2 }) else s
    else s.wr Reg.spindle_SPIN_RES h 1))

/-! ### The driven period (R310 to R319) -/

/-- The phase currents from the period's samples: U, V, W (R313). -/
def State.phaseCurrents (s : State) (h : Nat) (v : Int × Int) : List Word :=
  let k := s.mscale h 1
  let o := dutyOrder (s.spinSt h).duty
  let imax := fMul (F32.ofInt v.1) k
  let imin := F32.negate (fMul (F32.ofInt v.2) k)
  let imid := F32.negate (fAdd imax imin)
  [0, 1, 2].map (fun x => if x = o.getD 0 0 then imax else if x = o.getD 2 2 then imin else imid)

/-- Clarke and Park (R315 step 2): (id, iq). -/
def clarkePark (i : List Word) (theta : Nat) : Word × Word :=
  let a := i.getD 0 0
  let b := fDiv (fAdd a (fMul 0x40000000 (i.getD 1 0))) f32Sqrt3
  let c := cosOf theta
  let sn := sinOf theta
  (fAdd (fMul a c) (fMul b sn), fSub (fMul b c) (fMul a sn))

/-- V_max = MOD_MAX × VBUS ÷ √3 (R316). -/
def State.vMax (s : State) (h : Nat) (vbus : Word) : Word := fDiv (fMul (s.rd Reg.spindle_MOD_MAX h) vbus) f32Sqrt3

/-- Field weakening: id_ref (R319). -/
def State.idRef (s : State) (h : Nat) (iqRef we vbus : Word) : Word :=
  let (r, l, _, _, _) := s.motorPar h
  let vmax := s.vMax h vbus
  let vq := fAdd (fMul r iqRef) (s.backEmf h we)
  let wl := fMul we l
  let vd := F32.negate (fMul wl iqRef)
  let need := fSqrt (fAdd (fMul vq vq) (fMul vd vd))
  if F32.le need vmax ∨ F32.mag wl = 0 then 0
  else F32.negate (fMin (s.rd Reg.spindle_ID_MAX h) (fDiv (fSub need vmax) wl))

/-- The limits in force before the runs (R316, R317). -/
def State.spinLimits (s : State) (h : Nat) (vd vbus : Word) : State :=
  let g0 := spinLoop h 0
  let g1 := spinLoop h 1
  let iqMax := s.rd Reg.spindle_IQ_MAX h
  let ceil := if (s.spinSt h).begun then
      let peak := F32.ofRat (match s.desc h with | some d => d.spinPeak | none => 0) 10
      fDiv peak (fMul 0x3FC00000 (fMax (s.rd Reg.loop_Y g1) f32Half))
    else iqMax
  let vm := s.vMax h vbus
  let lim := fSqrt (fMax 0 (fSub (fMul vm vm) (fMul vd vd)))
  let s := (s.wr Reg.loop_OUT_MAX g1 lim).wr Reg.loop_OUT_MIN g1 (F32.negate lim)
  (s.wr Reg.loop_OUT_MAX g0 (fMin iqMax ceil)).wr Reg.loop_OUT_MIN g0 (F32.negate (s.rd Reg.spindle_IQ_BRAKE h))

/-- SPD_REF moves at SPD_RAMP towards the target. -/
def State.rampRef (s : State) (h : Nat) : State :=
  let tgt := F32.ofInt (s.targetRpm h)
  let r := s.rd Reg.spindle_SPD_REF h
  let step := fDiv (fMul (s.rd Reg.spindle_SPD_RAMP h) (F32.ofInt (s.spinSt h).period)) (F32.ofInt 100000000)
  let up := fAdd r step
  let dn := fSub r step
  s.wr Reg.spindle_SPD_REF h (if F32.lt up tgt then up else if F32.lt tgt dn then dn else tgt)

/-- The open loop of RAMP: speed at RAMP_RATE up to HANDOFF_RPM, θ with it (R321). DESIGN CHOICE: log 83. -/
def State.openLoop (s : State) (h : Nat) : State :=
  let (_, _, _, p, _) := s.motorPar h
  let per : Int := (s.spinSt h).period
  let top : Int := (s.rdN Reg.spindle_HANDOFF_RPM h) * Fix.one
  s.updSpin h (fun x =>
    let rpm := min top (x.rpm + Fix.ofF32 (s.rd Reg.spindle_RAMP_RATE h) * per / 100000000)
    { x with rpm := rpm, theta := (x.theta + rpm * p * per / 6000000000) % Fix.one })

/-- θ of the open loop in 1/65,536 revolution. -/
def SpinSt.angle (x : SpinSt) : Nat := (x.theta * 65536 / Fix.one).toNat % 65536

/-- Duties of U, V, W from (vd, vq) at an angle (R315 steps 6 to 8). DESIGN CHOICE: log 83. -/
def dutiesOf (vd vq vbus : Word) (theta : Nat) : List Nat :=
  let c := cosOf theta
  let sn := sinOf theta
  let a := fSub (fMul vd c) (fMul vq sn)
  let b := fAdd (fMul vd sn) (fMul vq c)
  let half := F32.negate (fMul a f32Half)
  let q := fMul (fMul b f32Sqrt3) f32Half
  let v := [a, fAdd half q, fSub half q]
  let hi := v.foldl (fun m x => fMax m x) a
  let lo := v.foldl (fun m x => fMin m x) a
  let v0 := F32.negate (fMul (fAdd hi lo) f32Half)
  v.map (fun x =>
    let d := F32.toIntUp (fMul (F32.ofInt 65536) (fAdd f32Half (fDiv (fAdd x v0) vbus)))
    min 65535 d.toNat)

/-- Counts of θ that one and a half periods of ω_e are. -/
def State.advance (s : State) (h : Nat) (we : Word) : Int :=
  (Fix.ofF32 we * 3 * (s.spinSt h).period * 65536 / 200000000).fdiv (2 * Fix.pi)

/-- Microamperes of a current, for the housekeeping channels (R420). -/
def microAmps (i : Word) : Nat := (Fix.ofF32 i * 1000000 / Fix.one).natAbs

/-- Lock, the end of a start, and the fall below 85 % (R310, R320, R324). -/
def State.spinLock (s : State) (h : Nat) : State :=
  let (lock, low) := s.speedTest h
  let st := s.rdN Reg.spindle_SPIN_STATE h
  if st ≠ 5 ∧ st ≠ 6 then s
  else if low ∧ (s.spinSt h).above ∧ st = 5 then s.spinUnload h
  else
    let s := s.updSpin h (fun x => { x with above := x.above || !low })
    if st = 5 ∧ lock then
      let first := (s.spinSt h).begun
      let s := s.updSpin h (fun x => { x with begun := false, late := false, attempts := 0, ups := if first then x.ups + 1 else x.ups })
      (s.spinState h 6).spinRelease
    else if st = 6 ∧ lock = false then s.spinState h 5 else s

/-- The observer's residual test (R318), of the magnitude of the difference between (id, iq) and the prediction: OBS_VALID after 8
periods at or below OBS_RES_THR, and the runs above it that declare a loss. -/
def State.residual (s : State) (h : Nat) (dId dIq : Word) : State :=
  let high := F32.lt (s.rd Reg.spindle_OBS_RES_THR h) (fSqrt (fAdd (fMul dId dId) (fMul dIq dIq)))
  let s := s.updSpin h (fun x =>
    let good := if high then 0 else min 8 (x.good + 1)
    { x with good := good, bad := if high then x.bad + 1 else 0, held := x.held || good == 8 })
  s.wrB Reg.spindle_OBS_VALID h ((s.spinSt h).good == 8)

/-- One driven period (R312 to R319), the repeated word of a brake interval, or the speed test of REACQ (R324). -/
def execSpindlePeriod (h : Hda) (obs : SpindleObs) (s : State) : Res :=
  .next (
    let st := s.rdN Reg.spindle_SPIN_STATE h
    if st = 2 then
      if (s.spinSt h).sensing then s else s.motor h 2 [(s.spinSt h).brake, 0, 0] 0 0 [0, 0, 0]
    else if st = 7 then (if (s.speedTest h).2 then s.spinUnload h else s)
    else if st < 3 ∨ 6 < st then s
    else
      let g0 := spinLoop h 0
      let g1 := spinLoop h 1
      let (r, l, _, p, _) := s.motorPar h
      let vbus := s.busVolts h
      let shunt := (s.port h).mot.shunt
      let s := s.updPort h (fun x => { x with mot := { x.mot with shunt := none } })
      let measured := shunt.isSome && !((s.spinSt h).skipNow)
      let i := match shunt with | some v => if measured then s.phaseCurrents h v else [0, 0, 0] | none => [0, 0, 0]
      -- sums for channels 88 to 95
      let s := if measured then s.updSpin h (fun x => { x with
          iSum := x.iSum + microAmps (i.getD ((dutyOrder x.duty).getD 0 0) 0) + microAmps (i.getD ((dutyOrder x.duty).getD 2 2) 0),
          iCnt := x.iCnt + 2, iMax := (i.map microAmps).foldl max x.iMax }) else s
      let trip := i.any (fun x => F32.lt (s.rd Reg.spindle_I_TRIP h) (F32.abs x))
      if trip then (s.spinFail h).raise 0x0905 h
      else
        let s := s.updSpin h (fun x => { x with skips := if measured then 0 else x.skips + 1 })
        let open_ := st == 3 || st == 4
        let s := if st = 4 then s.openLoop h else s
        let theta := if open_ then (s.spinSt h).angle else obs.angle.toNat
        let we := if open_ then s.elecOf h (F32.ofRat ((s.spinSt h).rpm / 10 ^ 20) (10 ^ 10)) else obs.omegaE
        let (id, iq) := if measured then clarkePark i theta else (obs.predId, obs.predIq)
        let s := s.residual h (fSub id obs.predId) (fSub iq obs.predIq)
        let spd := fDiv (fMul (F32.ofInt 30) we) (fMul f32Pi (F32.ofInt p))
        let s := (s.wrN Reg.spindle_ANGLE h theta).wr Reg.spindle_SPD_EST h spd
        let s := if open_ then s else s.updSpin h (fun x => x.addSpeed (Fix.ofF32 spd))
        let s := (s.wr Reg.spindle_ID_MEAS h id).wr Reg.spindle_IQ_MEAS h iq
        let s := s.wr Reg.spindle_VBUS h vbus
        let x := s.spinSt h
        if (st = 5 ∨ st = 6) ∧ (8 ≤ x.bad ∨ 8 ≤ x.skips) then s.obsLoss h
        else if st = 4 ∧ x.held ∧ 8 ≤ x.bad then s.attemptLost h
        else
          let handoff := st == 4 && decide ((s.rdN Reg.spindle_HANDOFF_RPM h : Int) * Fix.one ≤ x.rpm) && x.good == 8
          let s := if handoff then s.spinRun h we else s.spinLock h
          let st := s.rdN Reg.spindle_SPIN_STATE h
          if st < 3 ∨ 6 < st then s
          else
            let both := st == 5 || st == 6
            let iqRef0 := if both then s.rd Reg.loop_Y g0 else s.rd Reg.spindle_ALIGN_I h
            let idRef := s.idRef h iqRef0 we vbus
            let vd := fAdd (fSub (fMul r idRef) (fMul (fMul we l) iq)) (fMul (s.rd Reg.spindle_ID_KP h) (fSub idRef id))
            let s := s.spinLimits h vd vbus
            let s := if both then s.rampRef h else s
            let per := F32.ofRat x.period 100000000
            let s := if both then
                s.loopInput g0 ⟨spd, s.rd Reg.spindle_SPD_REF h, 0, fMul per (F32.ofInt (s.rdN Reg.loop_DIV g0 + 1)), 0⟩ else s
            let iqRef := if both then s.rd Reg.loop_Y g0 else iqRef0
            let s := s.loopInput g1 ⟨iq, iqRef, fMul we (fAdd (s.lambda h) (fMul l idRef)), per, 0⟩
            -- a watchdog of the block's own instances may have stopped it
            let st := s.rdN Reg.spindle_SPIN_STATE h
            if st < 3 ∨ 6 < st then s
            else
              let vq := s.rd Reg.loop_Y g1
              let s := (s.wr Reg.spindle_ID_REF h idRef).wrB Reg.spindle_FW_ACTIVE h (F32.lt idRef 0)
              let s := if F32.lt idRef 0 then s.bumpWrap Reg.spindle_FW_PERIODS h 0 else s
              let d := dutiesOf vd vq vbus (((theta : Int) + s.advance h we) % 65536).toNat
              let (shift, t1, t2, skip) := shuntPlan x.period (s.rdN Reg.spindle_SHUNT_MIN h) (s.rdN Reg.spindle_SHUNT_BACK h) d
              let s := s.updSpin h (fun y => { y with duty := d, skipNow := skip })
              let s := if skip then s.bump Reg.spindle_SHUNT_SKIP_CNT h else s
              -- the spindle input, for DRAW (R473)
              let w := Fix.ofF32 (fMul 0x3FC00000 (fAdd (fMul vd id) (fMul vq iq)))
              let s := s.updSpin h (fun y => { y with wSum := y.wSum + w, wCnt := y.wCnt + 1 })
              s.motor h 1 d t1 t2 shift)

end Sys2Proof.Machine
end

