-- ==== Sys2Proof/Machine/Faults.lean ====
section
/-!
DEFINITION. Machine/Faults.lean: the commands of 17_faults_and_safe_state.md: detection, recovery, the W1C and injection
registers, and the disabling and enabling of actuators and HDAs.
-/

namespace Sys2Proof.Machine

/-- FLT_INFO of a detection (R440): line, set and way, channel, instance or LOSS_CAUSE; zero for every other type. -/
def detailOf (ftype : Nat) (info : Word) : Word :=
  if ftype = 0x0302 ∨ ftype = 0x0202 ∨ ftype = 0x0203 ∨ ftype = 0x0C03 ∨ ftype = 0x0503 ∨ ftype / 256 = 8 then info else 0

/-- A block's own check reports a fault. -/
def execFaultDetection (ftype : BitVec 16) (inst : Nat) (info : Word) (injected : Bool) (s : State) : Res :=
  .next (
    if faultKnown ftype.toNat inst then (s.detect ftype.toNat inst info (detailOf ftype.toNat info) injected).failHeld else s)

/-- The condition of a fault in force is absent, its bus and the currents measured included (R443). -/
def State.absent (s : State) (ftype inst : Nat) : Bool :=
  if ftype = 0x0904 ∨ ftype = 0x0905 then
    let (_, _, _, _, nom) := s.motorPar inst
    F32.le (fMul 0x3F19999A nom) (s.busVolts inst)
      && (match (s.port inst).mot.shunt with
          | some v => (s.phaseCurrents inst v).all (fun i => F32.lt (F32.abs i) (s.rd Reg.spindle_I_TRIP inst))
          | none => true)
  else if ftype = 0x0C02 then s.regs.all (fun p => p.1 / 0x100000 != Reg.therm_SENS_FAIL.id)
  else if ftype = 0x0C03 then s.thm.limRuns.all (fun k => k < 3)
  else if ftype = 0x0505 then s.rdAt Reg.therm_HDA_STALE 0 inst == 0
  else if ftype = 0x0303 then s.gran.dimmFails.all (fun p => p.1 / 2 != inst || p.2 < 3)
  else if ftype = 0x0304 then decide (s.rdInt Reg.ddrCh_DIMM_TEMP_0 inst 0 < 95) && decide (s.rdInt Reg.ddrCh_DIMM_TEMP_1 inst 0 < 95)
  else if ftype = 0x0504 then [1, 2, 3, 4].all (fun k => !(s.ledgerFull (2 * inst) k) && !(s.ledgerFull (2 * inst + 1) k))
  else s.faultAbsent ftype inst

/-- FLT_QUIET has passed without the condition: the type recovers, or is ready to at its release (R443). -/
def execFaultRecovery (ftype : BitVec 16) (inst : Nat) (s : State) : Res :=
  .next (
    let t := ftype.toNat
    if s.flt.active.any (fun a => a.ftype == t && a.inst == inst) ∧ s.absent t inst then
      if s.rdBit Reg.flt_FLT_LATCH (fltBlk t inst) (fltIdx t) then
        if s.flt.quiet.contains (t, inst) then s else s.updFlt (fun f => { f with quiet := f.quiet ++ [(t, inst)] })
      else (s.recover t inst).spinAsk
    else s)

/-- 60 s of a reaction, or of an unload, with the actuator's commands held (R324, R438). -/
def execReactionHoldTimeout (n : Act) (s : State) : Res :=
  .next (
    if 2 ≤ s.reactAct n then (s.updAct n (fun a => { a with holdExpired := true })).failActs n stNotReady
    else if (s.act n).holding then (s.updAct n (fun a => { a with holding := false })).failActs n stNotReady
    else s)

/-- A W1C write at + 0x00, or of the pending bits of a Heliostat unit at + 0x40 to + 0x4C, ignored while the type is ACTIVE or
latched (R440, R449). -/
def execFltStat (blk : Fin 270) (writer : Initiator) (offset : Byte) (value : Word) (s : State) : Res :=
  .next (s.guard writer (fltAddr blk + offset.toNat) (fun s =>
    let b := blk.val
    let free (t : Nat) : Bool := !(s.rdBit Reg.flt_FLT_ACT b t) && !(s.rdBit Reg.flt_FLT_LATCH b t)
    let unit_ := 168 ≤ b && b < 172
    let u := b - 168
    let clearPend (p : BitVec 256) (m : Nat) (at_ : Nat) : BitVec 256 := p &&& ~~~(BitVec.ofNat 256 (m * 2 ^ (64 * u + at_)))
    if offset = 0 then
      let s := (List.range 16).foldl (fun s t => if value.getLsbD t && free t then s.wrBit Reg.flt_FLT_STAT b t false else s) s
      if unit_ then
        s.updFlt (fun f => { f with
          wdPend := if value.getLsbD 1 && free 1 then clearPend f.wdPend (2 ^ 64 - 1) 0 else f.wdPend,
          arithPend := if value.getLsbD 2 && free 2 then clearPend f.arithPend (2 ^ 64 - 1) 0 else f.arithPend })
      else s
    else if unit_ = false then s
    else if (offset = 0x40 ∨ offset = 0x44) ∧ free 1 then
      s.updFlt (fun f => { f with wdPend := clearPend f.wdPend value.toNat (if offset = 0x40 then 0 else 32) })
    else if (offset = 0x48 ∨ offset = 0x4C) ∧ free 2 then
      s.updFlt (fun f => { f with arithPend := clearPend f.arithPend value.toNat (if offset = 0x48 then 0 else 32) })
    else s))

/-! ### Injection (R444) -/

/-- The types of a fault block that a checker with check bits raises: tag integrity, and the ECC and parity checks of R436. -/
def hasChecker (b t : Nat) : Bool :=
  let c := blkClass b
  (t == 0 && [2, 4, 6, 7, 8, 9, 0xA, 0xB, 0xC].contains c)
    || (c == 2 && (t == 2 || t == 3)) || (c == 3 && t == 2) || (c == 0xA && (t == 1 || t == 2)) || (c == 0xB && t == 1)

/-- Where an arming is written: INJ_ARM of any block, ECC_INJ of a DDR channel or the Granary, TAG_INJ of the Granary (R440). -/
def injAddr (b : Nat) : InjAlias → Option Nat
  | .injArm => some (fltAddr b + 0x1C)
  | .eccInj => if 2 ≤ b ∧ b < 6 then some (Reg.ddrCh_ECC_INJ.addr (b - 2) 0) else if b = 1 then some (Reg.gran_ECC_INJ.addr 0 0) else none
  | .tagInj => if b = 1 then some (Reg.gran_TAG_INJ.addr 0 0) else none

def execInjArm (blk : Fin 270) (writer : Initiator) (alias_ : InjAlias) (s : State) : Res :=
  .next (
    let b := blk.val
    match injAddr b alias_ with
    | some a => s.guard writer a (fun s =>
      let t := match alias_ with
        | .injArm => s.rdN Reg.flt_INJ_SEL b
        | .eccInj => if b = 1 then 3 else 2
        | .tagInj => 2
      let s := s.audit 2 .injArm blk [b, t, writer.toNat]
      if hasChecker b t then
        let n := max 1 (s.rdN Reg.flt_INJ_CNT b)
        (s.updFlt (fun f => { f with armed := f.armed.filter (fun x => !(x.1 == b)) ++ [(b, t, n)] })).wr Reg.flt_INJ_ARMED b 1
      else (s.updFlt (fun f => { f with armed := f.armed.filter (fun x => !(x.1 == b)) })).wr Reg.flt_INJ_ARMED b 0)
    | none => s)

/-! ### Disabling and enabling (R446 to R448) -/

/-- Unacknowledged buffered grains of an actuator go, and each zone's host write pointer falls back to the end of what remains. -/
def State.dropUnacked (s : State) (n : Nat) : State :=
  let gone := s.buf.filter (fun g => g.tag.act == n && !g.acked && !g.written)
  let zs := ((gone.filter (fun g => !g.tag.nsConv)).map (fun g => zoneOf g.tag.lba)).eraseDups
  let s : State := { s with buf := s.buf.filter (fun g => !(g.tag.act == n && !g.acked && !g.written)) }
  let s := zs.foldl (fun s z =>
    let ends := (s.buf.filter (fun g => g.tag.act == n && !g.tag.nsConv && zoneOf g.tag.lba == z)).map (fun g => zoneOfs g.tag.lba + 1)
    let top := ends.foldl max (s.zone n z).mwp
    s.setZone n z (fun x => { x with hwp := min x.hwp top })) s
  s.bufRefresh

/-- Acknowledged grains of an actuator become lost ranges with a cause (R447 step 5, R108 step 3); answers their number. -/
def State.loseBuffered (s : State) (n cause : Nat) : State × Nat :=
  let gone := (s.buf.filter (fun g => g.tag.act == n && g.acked && !g.written)).map (fun g => (g.tag.nsConv, g.tag.lba))
  let gone := gone.eraseDups
  let s := if s.rdAt Reg.status_PORT_CAUSE 0 (hdaOf n) = 9 ∧ cause = 2 ∧ gone ≠ [] then
      -- the replaced HDA's ledger never takes them: partition 3 holds and reports them (R447)
      (s.updAct n (fun a => { a with lostHeld := lostMerge (sortBy lostLe (a.lostHeld ++
        (gone.filter (fun x => !(s.isLost n x.1 x.2))).map (fun x => (⟨x.1, x.2, 1, cause, (s.rd Reg.status_PWR_CYCLE 0).toNat, s.alm.hours⟩ : LostEnt)))) })).lostEvent n
    else gone.foldl (fun s x => s.lostAdd n x.1 x.2 1 cause) s
  let s : State := { s with buf := s.buf.filter (fun g => g.tag.act != n) }
  let s := s.mqDrop n (fun e => e.opc == 2 && e.work == .host)
  (s.bufRefresh, gone.length)

/-- Heads to the ramp and the instances of the side to OFF (R304, R447 step 6). -/
def State.unloadSide (s : State) (n : Nat) : State :=
  let s := (s.loopDisable (laserLoop n)).loopDisable (maLoop n)
  let s := s.loopDisable (vcmLoop n)
  s.updAct n (fun a => { a with ready := false, holding := false })

/-- Steps 1 to 6 for one actuator. -/
def State.disableAct (s : State) (n blk : Nat) (force : Bool) : State :=
  let s := (s.failActs n stNotReady).dropUnacked n
  let s := (((s.chaffAll n).endWork n).gateClose n 6).laneStop n
  let s := if force then
      let s := (s.pool.records.filter (fun r => r.n.act == n)).foldl (fun s r => s.recDrop r) s
      -- a Flush of every namespace that waits for one of the grains (R449)
      let waits (c : Cmd) : Bool := c.open && (match c.hold with
        | .flush _ gs => s.buf.any (fun g => g.tag.act == n && g.acked && !g.written && gs.contains (g.tag.act, g.tag.nsConv, g.tag.lba, g.tag.stamp))
        | _ => false)
      let s := (s.host.cmds.filter waits).foldl (fun s c => s.complete c.slot stNotReady) s
      let (s, k) := s.loseBuffered n 2
      s.bumpBy Reg.dis_FORCE_LOST_CNT blk 0 k
    else s
  (s.unloadSide n).disEnd n

/-- Registers of a target: its block, its actuators, its port. -/
def disBlk : DisTarget → Nat
  | .act n => n
  | .hda h => 64 + h.val

def disActs (s : State) : DisTarget → List Nat
  | .act n => if s.actExists n then [n.val] else []
  | .hda h => [2 * h.val, 2 * h.val + 1].filter s.actExists

def execDis (target : DisTarget) (writer : Initiator) (force alsoEn : Bool) (s : State) : Res :=
  .next (
    let b := disBlk target
    s.guard writer (Reg.dis_DIS.addr b 0) (fun s =>
      let st := s.rdN Reg.dis_STATE b
      let acts := disActs s target
      if alsoEn ∨ st = 1 ∨ st = 3 then s
      else if st = 2 then s.wr Reg.dis_RES b 0
      else if force = false ∧ (acts.map s.ackGrains).foldl (· + ·) 0 ≠ 0 then s.wr Reg.dis_RES b 1
      else
        let s := (s.wr Reg.dis_RES b 0).wr Reg.dis_STATE b 1
        let s := s.audit 3 .disable b [b, if force then 1 else 0]
        let s := acts.foldl (fun s n => s.disableAct n b force) s
        match target with
        | .act n => s.disEnd n
        | .hda h => s.disEnd (2 * h.val)))

/-- An enable: refused while the port is unbound or, for an actuator, not UP, and while REACT 2 or higher is in force (R448). A link that DOWN
holds stays in FAILED until RETRAIN (R504). -/
def execEn (target : DisTarget) (writer : Initiator) (s : State) : Res :=
  .next (
    let b := disBlk target
    s.guard writer (Reg.dis_EN.addr b 0) (fun s =>
      let st := s.rdN Reg.dis_STATE b
      let (bad, react, h) := match target with
        | .act n => (!(s.bound (n.val / 2)) || !(s.up (n.val / 2)), s.reactAct n, n.val / 2)
        | .hda h => (!(s.bound h), s.reactHda h, h.val)
      if st = 1 ∨ st = 3 then s
      else if bad then s.wr Reg.dis_RES b 3
      else if 2 ≤ react then s.wr Reg.dis_RES b 2
      else if st = 0 then s.wr Reg.dis_RES b 0
      else
        let s := (s.wr Reg.dis_RES b 0).wr Reg.dis_STATE b 3
        match target with
        | .act _ => s
        | .hda _ => if (s.port h).held then s.wr Reg.port_STATE h 9 else s.attempt h))

end Sys2Proof.Machine
end

