-- ==== Sys2Proof/Machine/Calib.lean ====
section
/-!
DEFINITION. Machine/Calib.lean: calibration records (R432, R433) as bytes, their loading, their storing, and one step of each
calibration item (R426 to R430).
-/

namespace Sys2Proof.Machine

/-! ### Records (R432) -/

/-- A record: header, body, CRC. -/
def calBytes (kind side gen : Nat) (temp : Int) (hours cycle : Nat) (body : List Byte) : List Byte :=
  let b := [0x43, 0x41, 0x4C, 0x31, BitVec.ofNat 8 kind, BitVec.ofNat 8 side] ++ toLe 2 1 ++ toLe 4 (36 + body.length) ++ toLe 4 gen
    ++ toLe 2 (temp % 65536).toNat ++ toLe 2 0 ++ toLe 4 (hours % 2 ^ 28) ++ toLe 4 cycle ++ toLe 4 0 ++ body
  b ++ toLe 4 (crc32c b)

/-- LEN of a kind; kind 4 depends on the side's ZONES COUNT. -/
def calLen (kind zcount : Nat) : Nat :=
  match kind with
  | 1 => 7756
  | 2 => 46436
  | 3 => 10716
  | 4 => 44 + 80 * zcount
  | 5 => 40
  | _ => 164

/-- A copy is valid: MAGIC, KIND, SIDE, VER, LEN and CRC (R433). -/
def calValid (kind side zcount : Nat) (b : List Byte) : Bool :=
  let n := calLen kind zcount
  b.take 4 == [0x43, 0x41, 0x4C, 0x31] && byteAt b 4 == kind && byteAt b 5 == side && le16 b 6 == 1 && le32 b 8 == n
    && n ≤ b.length && crc32c (b.take (n - 4)) == le32 b (n - 4)

/-- GEN `a` is higher than GEN `b`, modulo 2^32. -/
def genHigher (a b : Nat) : Bool := a != b && (a + 2 ^ 32 - b) % 2 ^ 32 < 2 ^ 31

/-- The copy in use: the valid one with the higher GEN; none where defaults apply. -/
def calPick (ok : List Byte → Bool) (c0 c1 : List Byte) : Option (Nat × List Byte) :=
  match ok c0, ok c1 with
  | true, true => if genHigher (le32 c1 0xC) (le32 c0 0xC) then some (1, c1) else some (0, c0)
  | true, false => some (0, c0)
  | false, true => some (1, c1)
  | false, false => none

/-- A 16-bit field as a signed number. -/
def sgn16 (x : Nat) : Int := if x < 32768 then x else (x : Int) - 65536
def sgn32 (x : Nat) : Int := if x < 2 ^ 31 then x else (x : Int) - 2 ^ 32

/-- Nonzero halfwords and words of a byte string, by index. -/
def halves (b : List Byte) (n : Nat) : List (Nat × Nat) :=
  (List.range n).filterMap (fun i => if le16 b (2 * i) = 0 then none else some (i, le16 b (2 * i)))
def words (b : List Byte) (n : Nat) : List (Nat × Nat) :=
  (List.range n).filterMap (fun i => if le32 b (4 * i) = 0 then none else some (i, le32 b (4 * i)))

/-- The default tap record of a kind (R433), at its first halfword. -/
def tapDefault (base kind : Nat) : List (Nat × Nat) :=
  (match kind with
    | 0 => [(base + 10, 0x0800), (base + 30, 0x0800)]
    | 1 => [(base + 10, 0x1000)]
    | _ => [(base + 30, 0x1000)]) ++
  [(base + 40, 0x1000), (base + 41, 0x1000), (base + 45, 10), (base + 46, 0x0100), (base + 47, 1)]

/-- Every default tap record, and TZ_FIRST with one tap zone per head. -/
def tapDefaults : List (Nat × Nat) :=
  (List.range 480).flatMap (fun r => tapDefault (r * 48) (r / 16 % 3))
    ++ (List.range 10).flatMap (fun k => (List.range 15).map (fun t => (0x5A00 + k * 16 + t + 1, 0xFFFF)))

/-- ZONES COUNT of an actuator's side. -/
def State.zcount (s : State) (n : Nat) : Nat := match s.sideDesc n with | some d => d.zones.length | none => 0

/-- Trigger an item, if it has no run yet (R427). -/
def State.calTrigger (s : State) (act item : Nat) : State :=
  if s.thm.runs.any (fun r => r.act == act && r.item == item) then s
  else
    let r : CalRun := ⟨act, item, 0, 0, false, false, [], [], (0, 0, 0), 0, 0, false, false, 0, (0, 0, 0), [], [], []⟩
    let before (a b : CalRun) : Bool := a.act < b.act || (a.act == b.act && a.item ≤ b.item)
    s.updThm (fun t => { t with runs := sortBy before (t.runs ++ [r]) })

/-- Load the record of kind 2 to 5 of an actuator, or its defaults, which trigger their items (R433). -/
def State.calLoad (s : State) (n kind : Nat) (copies : List Byte × List Byte) : State :=
  let z := s.zcount n
  let pick := calPick (calValid kind (n % 2) z) copies.1 copies.2
  let sh := 2 * (kind - 2)
  let src := match pick with | some p => p.1 | none => 2
  let old := s.rdN Reg.thermAct_REC_SRC n
  let s := s.wrN Reg.thermAct_REC_SRC n (old - old / 2 ^ sh % 4 * 2 ^ sh + src * 2 ^ sh)
  let s := s.updAct n (fun a => { a with calGen := listSet a.calGen (kind - 2) (match pick with | some p => le32 p.2 0xC | none => 0) })
  let s := match pick with
    | some p => if kind = 2 then s.wrN Reg.thermAct_T_LAST_H n (le16 p.2 0x10) else s
    | none => s
  let body := (pick.map (fun p => p.2.drop 32)).getD []
  let l := s.str.laneOf n
  match kind with
  | 2 =>
    let t := if pick.isSome then halves body 23200 else tapDefaults
    let s := s.updLane l (fun x => { x with taps := t, shadow := t })
    if pick.isSome then s else s.calTrigger n 6
  | 3 =>
    if pick.isSome then
      let s := s.updAct n (fun a => { a with
        table := words body 2640, shadowTable := words body 2640, calPending := leAt body 10600 80 })
      (List.range 10).foldl (fun s k => s.wrAt Reg.wa_AGING n k (BitVec.ofNat 32 (le32 body (10560 + 4 * k)))) s
    else
      let s := s.updAct n (fun a => { a with table := [], shadowTable := [], calPending := 2 ^ 640 - 1 })
      ((List.range 10).foldl (fun s k => s.wrAt Reg.wa_AGING n k 0x3F800000) s).calTrigger n 7
  | 4 =>
    let at_ (k zz : Nat) : Int × Int :=
      let o := 8 + ((k - 1) * z + zz) * 8
      if pick.isSome then (sgn16 (le16 body o), sgn32 (le32 body (o + 4))) else (0, 0)
    let l := (List.range 10).flatMap (fun k => (List.range z).map (fun zz => (offKey (k + 1) zz, at_ (k + 1) zz)))
    s.updAct n (fun a => { a with offs := l, offsSaved := l })
  | _ =>
    if pick.isSome then (s.wrN Reg.lane_AGC_TARGET l (byteAt body 0 % 128)).wrN Reg.lane_SYNC_TOL l (byteAt body 1 % 16)
    else (((s.wr Reg.lane_AGC_TARGET l Reg.lane_AGC_TARGET.reset).wr Reg.lane_SYNC_TOL l Reg.lane_SYNC_TOL.reset).calTrigger n 4).calTrigger n 5

/-- The body of an actuator's record as things stand. -/
def State.calBody (s : State) (n kind : Nat) : List Byte :=
  let a := s.act n
  let l := s.lane (s.str.laneOf n)
  match kind with
  | 2 => (List.range 23200).flatMap (fun i => toLe 2 (l.tap i))
  | 3 => (List.range 2640).flatMap (fun i => toLe 4 (Sparse.read a.table i 0))
      ++ (List.range 10).flatMap (fun k => toLe 4 (s.rdAt Reg.wa_AGING n k).toNat) ++ toLe 80 a.calPending
  | 4 =>
    let z := s.zcount n
    toLe 4 z ++ toLe 4 0 ++ (List.range 10).flatMap (fun k => (List.range z).flatMap (fun zz =>
      let v := (a.offs.lookup (offKey (k + 1) zz)).getD (0, 0)
      toLe 2 (v.1 % 65536).toNat ++ toLe 2 0 ++ toLe 4 (v.2 % 2 ^ 32).toNat))
  | _ => [BitVec.ofNat 8 (s.rdN Reg.lane_AGC_TARGET (s.str.laneOf n)), BitVec.ofNat 8 (s.rdN Reg.lane_SYNC_TOL (s.str.laneOf n)), 0, 0]

/-- Store an HDA record: GEN rises, copy 0 then copy 1 (R432, R433); a store that fails leaves an audit record. A
CAL section below 0x08_0000 takes none: Bolrus writes no flash there (R142). DESIGN CHOICE: log 89. -/
def State.calStore (s : State) (n kind : Nat) (ok : Bool) : State :=
  if ok ∧ 0x80000 ≤ (match s.desc (n / 2) with | some d => d.calOfs | none => 0) then
    let gen := ((s.act n).calGen.getD (kind - 2) 0 + 1) % 2 ^ 32
    let b := calBytes kind (n % 2) gen (s.rdInt Reg.therm_HDA_T 0 (n / 2)) s.alm.hours (s.rdN Reg.status_PWR_CYCLE 0) (s.calBody n kind)
    let ofs := (match s.desc (n / 2) with | some d => d.calOfs | none => 0) + ((kind - 2) * 2 + n % 2) * 0x10000
    let s := s.updAct n (fun a => { a with calGen := listSet a.calGen (kind - 2) gen })
    (s.emit (.calRecord (n / 2) ofs b)).emit (.calRecord (n / 2) (ofs + 0x80000) b)
  else s.audit 4 .calFail n [n, kind]

/-- Kind 4 and AGING are stored once an offset has moved far enough since the last store (R432). -/
def State.storeOffsets (s : State) (n : Nat) (ok : Bool) : State :=
  let k := s.rdN Reg.demod_SEL_HEAD n
  let s := match (s.act n).clkZone with
    | some z => if (s.act n).offs.any (fun x => x.1 == offKey k z) then
        s.updAct n (fun a => { a with offs := assocSet a.offs (offKey k z) (s.rdInt Reg.demod_RAD_OFS n (k - 1), s.rdInt Reg.demod_TIM_OFS n (k - 1)) })
      else s
    | none => s
  let a := s.act n
  let moved := a.offs.any (fun x =>
    let o := (a.offsSaved.lookup x.1).getD (0, 0)
    decide (4 ≤ (x.2.1 - o.1).natAbs) || decide (4 ≤ (x.2.2 - o.2).natAbs))
  if moved then
    let s := (s.calStore n 4 ok).calStore n 3 ok
    if ok then s.updAct n (fun x => { x with offsSaved := x.offs }) else s
  else s

/-- The body of the DDR strobe record: serials, rate, and delays with the drift applied to their rank. -/
def State.strobeBody (s : State) : List Byte :=
  let delay (i : Nat) : List Byte :=
    let d := s.thm.strobe.getD (i / 80) 0
    let w := (Config.ddrDelay i).toNat
    (List.range 3).flatMap (fun j => toLe 2 (((w / 65536 ^ j % 65536 : Nat) + d) % 65536).toNat)
  (List.range 8).flatMap (fun j => toLe 4 (s.gran.trained.getD j 0)) ++ toLe 1 (s.rdN Reg.ddr_RATE 0) ++ toLe 7 0
    ++ (List.range 1280).flatMap delay

/-- Store the controller record of kind 1 in both NOR copies. -/
def State.strobeStore (s : State) (ok : Bool) : State :=
  if ok then
    let gen := (s.thm.gen.1 + 1) % 2 ^ 32
    let b := calBytes 1 0xFF gen (s.rdInt Reg.therm_J_TEMP 0 0) s.alm.hours (s.rdN Reg.status_PWR_CYCLE 0) s.strobeBody
    (s.updThm (fun t => { t with gen := (gen, t.gen.2) })).updHusk (fun k => { k with calNor := assocSet (assocSet k.calNor 0 b) 2 b })
  else s.audit 4 .calFail noInst [1]

/-! ### Runs (R426 to R431) -/

def State.setRun (s : State) (act item : Nat) (f : CalRun → CalRun) : State :=
  s.updThm (fun t => { t with runs := t.runs.map (fun r => if r.act = act ∧ r.item = item then f r else r) })

/-- CAL_BUSY and CAL_DEFER show the runs. -/
def State.calShow (s : State) (act : Nat) : State :=
  let bits (p : CalRun → Bool) : Nat :=
    ((s.thm.runs.filter (fun r => r.act == act && p r)).map (fun r => 2 ^ (r.item - 1))).foldl (· + ·) 0
  let busy := bits (fun r => r.phase != 0)
  let defer := bits (fun r => r.phase == 0 && r.counted)
  if act = 64 then (s.wrN Reg.therm_CAL_BUSY_C 0 busy).wrN Reg.therm_CAL_DEFER_C 0 defer
  else
    let s := (s.wrN Reg.thermAct_CAL_BUSY act busy).wrN Reg.thermAct_CAL_DEFER act defer
    s.wrB Reg.thermAct_CAL_STALE act (s.thm.runs.any (fun r => r.act == act && r.stale))

/-- A counter of an item's scope. -/
def State.calCount (s : State) (act : Nat) (fa fc : RegField) : State := if act = 64 then s.bump fc 0 else s.bump fa act

/-- The data zones of a write zone of head k (R217, R274). -/
def State.inWriteZone (s : State) (n k w z : Nat) : Bool :=
  match s.sideDesc n with
  | some d =>
    match d.zonePos z with
    | some (hd, t, _) => hd == k && (match zoneIdx d t with
        | some dz => zoneSlot ((List.range 16).map (fun i => tabHalf (s.act n).table (0x2800 + (k - 1) * 32 + 2 * i))) dz == some w
        | none => false)
    | none => false
  | none => false

/-- The lowest zone in map state 0 or 1 of a write zone (R428). -/
def State.testZone (s : State) (n k w : Nat) : Option Nat :=
  (List.range (match s.sideDesc n with | some d => d.zoneCnt | none => 0)).find? (fun z =>
    (s.zone n z).map ≤ 1 && s.inWriteZone n k w z)

/-- Item 6 may measure this head and tap zone: 256 accepted sectors since the trigger, or item 7's test sectors (R426). -/
def CalRun.covers (r : CalRun) (k tz : Nat) : Bool := 256 ≤ (r.sampled.lookup (16 * k + tz)).getD 0 || r.tested.contains k

/-- An item's precondition (R426); item 7's exclusive media may also need a CAL_WINDOW (R481). -/
def State.calPre (s : State) (r : CalRun) : Bool :=
  let n := r.act
  if r.item = 2 then
    s.rdN Reg.ddr_TOTAL_MIB 0 != 0 && s.rdN Reg.status_CUR_PS 0 != 4
      && (List.range 4).all (fun c => !(s.rdBit Reg.flt_FLT_STAT (2 + c) 2))
  else
    let d := s.rdN Reg.demod_STATE n
    s.up (n / 2) && !(s.act n).headsOn && (d == 2 || d == 3)
      && (r.item != 6 || r.phase == 2 || r.tested != [] || r.sampled.any (fun x => 256 ≤ x.2))
      && (r.item != 7 || ((s.act n).win.isNone && (r.phase == 0 || r.band == s.rdN Reg.wa_BAND n)
          && (if r.phase = 0 ∨ (r.phase = 1 ∧ r.grids = 0)
              then (List.range (match s.sideDesc n with | some d => d.zoneCnt | none => 0)).any (fun z => (s.zone n z).map ≤ 1)
              else (s.testZone n r.place.1 r.place.2.1).isSome)
          && (s.rdB Reg.orr_CAL_GATE 0 == false || (match s.orr.window with
              | some w => w.1 ≤ s.alm.us64.toNat && s.alm.us64.toNat < w.2
              | none => false))))

/-- First halfword of a tap record, and of an entry's first word. -/
def tapBase (p : Nat × Nat × Nat) : Nat := ((p.1 - 1) * 48 + p.2.1 * 16 + p.2.2) * 48
def entryWord (p : Nat × Nat × Nat) : Nat := (((p.1 - 1) * 16 + p.2.1) * 4 + p.2.2) * 4

/-- An item's setting as it stands, in its own units (R429). -/
def State.calSetting (s : State) (r : CalRun) : List Int :=
  let l := s.str.laneOf r.act
  match r.item with
  | 2 => s.thm.strobe
  | 4 => [s.rdN Reg.lane_AGC_TARGET l]
  | 5 => [s.rdN Reg.lane_SYNC_TOL l]
  | 6 => (List.range 48).map (fun i => sgn16 ((s.lane l).tap (tapBase r.place + i)))
  | _ =>
    let w := Sparse.read (s.act r.act).table (entryWord r.place) 0
    [w % 256, w / 256 % 64]

/-- Put a setting in force. -/
def State.calApply (s : State) (r : CalRun) (v : List Int) : State :=
  let l := s.str.laneOf r.act
  match r.item with
  | 2 => s.updThm (fun t => { t with strobe := v })
  | 4 => s.wrN Reg.lane_AGC_TARGET l (v.getD 0 0).toNat
  | 5 => s.wrN Reg.lane_SYNC_TOL l (v.getD 0 0).toNat
  | 6 => s.updLane l (fun x =>
      let t := (List.range 48).foldl (fun t i => Sparse.write t (tapBase r.place + i) 0 ((v.getD i 0) % 65536).toNat) x.taps
      { x with taps := t, shadow := t })
  | _ => s.updAct r.act (fun a =>
      let i := entryWord r.place
      let w := Sparse.read a.table i 0
      let t := Sparse.write a.table i 0 (w / 65536 * 65536 + ((v.getD 1 0) % 64).toNat * 256 + ((v.getD 0 0) % 256).toNat)
      { a with table := t, shadowTable := t })

/-- One tap towards a target: 16 LSB for a tap halfword, 1 for everything else (R426). -/
def tapStep (item : Nat) (v t : Int) : Int :=
  let m : Int := if item = 6 then 16 else 1
  if v < t then min t (v + m) else max t (v - m)

/-- The trigger temperature and T_LAST of a scope: die or HDA (R427). DEDUCED: log 88. -/
def State.calTemp (s : State) (act : Nat) : Int := if act = 64 then s.rdInt Reg.therm_J_TEMP 0 0 else s.rdInt Reg.therm_HDA_T 0 (act / 2)
/-- DEDUCED: log 88. -/
def State.calTLast (s : State) (act : Nat) : Int := if act = 64 then s.rdInt Reg.therm_T_LAST_J 0 0 else s.rdInt Reg.thermAct_T_LAST_H act 0

/-- The write zones of head k that hold an entry of a band marked VALID. -/
def State.validZones (s : State) (n k band : Nat) : List Nat :=
  (List.range 16).filter (fun w => Sparse.read (s.act n).table (entryWord (k, w, band) + 3) 0 / 65536 % 2 == 1)

/-- The element of a list nearest to `x`, the earlier one of two. -/
def nearestTo (x : Nat) (l : List Nat) : Option Nat :=
  l.foldl (fun (b : Option Nat) (y : Nat) => match b with
    | some z => if ((y : Int) - x).natAbs < ((z : Int) - x).natAbs then some y else some z
    | none => some y) none

/-- A write zone with no zone to test in takes the entry of the nearest calibrated write zone of its head, or of the nearest head; its
CAL_PENDING bit stays (R433). DEDUCED: log 180. -/
def State.borrowEntries (s : State) (n band : Nat) : State :=
  let tab := (s.act n).table
  let dst := ((List.range 10).map (· + 1)).flatMap (fun k => ((List.range 16).filter (fun w =>
    !((s.validZones n k band).contains w) && tabHalf tab (0x2800 + (k - 1) * 32 + 2 * w) != 0xFFFF && (s.testZone n k w).isNone)).map (fun w => (k, w)))
  let source (k w : Nat) : Option (Nat × Nat) :=
    match nearestTo w (s.validZones n k band) with
    | some v => some (k, v)
    | none => (nearestTo k (((List.range 10).map (· + 1)).filter (fun j => s.validZones n j band != []))).bind (fun j =>
        (nearestTo w (s.validZones n j band)).map (fun v => (j, v)))
  let t := dst.foldl (fun t p => match source p.1 p.2 with
    | some q => (List.range 4).foldl (fun t i => Sparse.write t (entryWord (p.1, p.2, band) + i) 0 (Sparse.read tab (entryWord (q.1, q.2, band) + i) 0)) t
    | none => t) tab
  s.updAct n (fun a => { a with table := t, shadowTable := t })

/-- A write zone whose CAL_PENDING bit is 1 in the band in force has a zone to test in (R433). -/
def State.pendingZone (s : State) (n : Nat) : Bool :=
  let band := s.rdN Reg.wa_BAND n
  ((List.range 10).map (· + 1)).any (fun k => (List.range 16).any (fun w =>
    (s.act n).calPending.testBit (((k - 1) * 16 + w) * 4 + band) && (s.testZone n k w).isSome))

/-- A run completes: its record is stored, T_LAST moves, the count rises (R427, R429). -/
def State.calDone (s : State) (r : CalRun) : State :=
  let s := s.updThm (fun t => { t with runs := t.runs.filter (fun x => !(x.act == r.act && x.item == r.item)) })
  let s := s.calCount r.act Reg.thermAct_CAL_DONE_CNT Reg.therm_CAL_DONE_CNT_C
  let s := match r.item with
    | 2 => s.strobeStore r.stored
    | 6 => s.calStore r.act 2 r.stored
    | 7 => (s.borrowEntries r.act r.band).calStore r.act 3 r.stored
    | _ => s.calStore r.act 5 r.stored
  if r.act = 64 then s.wrInt Reg.therm_T_LAST_J 0 0 (s.calTemp 64)
  else
    let s := s.wrInt Reg.thermAct_T_LAST_H r.act 0 (s.calTemp r.act)
    let left := s.thm.runs.filter (fun x => x.act == r.act)
    let s := if left.isEmpty then s.storeOffsets r.act r.stored else s
    if left.any (fun x => x.item == 6 || x.item == 7) then s else s.updAct r.act (fun a => { a with calValid := true })

/-- Start a run whose precondition holds. -/
def State.calStart (s : State) (r : CalRun) : State :=
  let s := s.setRun r.act r.item (fun x => { x with
    phase := 1, since := 0, counted := false, stale := false, sectors := if r.item = 4 then 0 else x.sectors, peaks := [], band := s.rdN Reg.wa_BAND r.act, grids := 0,
    start := if r.item = 6 ∨ r.item = 7 then [] else s.calSetting r })
  s.calShow r.act

/-- Defer: counted once per trigger (R430). -/
def State.calDefer (s : State) (r : CalRun) : State :=
  let s := if r.counted then s else s.calCount r.act Reg.thermAct_CAL_DEFER_CNT Reg.therm_CAL_DEFER_CNT_C
  (s.setRun r.act r.item (fun x => { x with
    phase := 0, counted := true, since := if r.counted then r.since else s.alm.us64.toNat })).calShow r.act

/-- A lapse aborts the run: the setting goes back at once, the trigger stays (R430). -/
def State.calAbort (s : State) (r : CalRun) : State :=
  let s := if r.start = [] then s else s.calApply r r.start
  let s := s.calCount r.act Reg.thermAct_CAL_ABORT_CNT Reg.therm_CAL_ABORT_CNT_C
  s.calDefer { r with counted := false }

/-- The winner of a grid: lowest mean, ties to the centre (R428). -/
def gridWinner (means : List Nat) (micro : Bool) : Nat :=
  let idx := if micro then [4, 1, 7] else [4, 0, 1, 2, 3, 5, 6, 7, 8]
  idx.foldl (fun b i => if means.getD i 0 < means.getD b 0 then i else b) 4

/-- A measurement ends (R428). -/
def State.calMeasured (s : State) (r : CalRun) (m : CalMeas) (stored : Bool) : State :=
  let put (s : State) (f : CalRun → CalRun) : State := s.setRun r.act r.item (fun x => f { x with stored := stored })
  match r.item, m with
  | 2, .drift d => put s (fun x => { x with phase := 2, target := (List.range 16).map (fun i => d.getD i 0), last := true })
  | 6, .taps k kind zone rec_ last =>
    if 1 ≤ k ∧ k ≤ 10 ∧ kind < 3 ∧ zone < 16 ∧ r.covers k zone then
      let r1 := { r with place := (k, kind, zone) }
      let t : List Int := (List.range 48).map (fun i => (rec_.getD i 0).toInt)
      put s (fun x => { x with phase := 2, place := (k, kind, zone), start := s.calSetting r1, target := t, last := last })
    else s
  | 7, .grid k w means pd last =>
    if k < 1 ∨ 10 < k ∨ 16 ≤ w ∨ (s.testZone r.act k w).isNone then s
    else
      let band := r.band
      let p := (k, w, band)
      let r1 := { r with place := p }
      let i := entryWord p
      let tab := (s.act r.act).table
      let micro := (match s.desc (r.act / 2) with | some d => d.assistType == 2 | none => false)
      -- the first test write makes map state 1 durable on the zone used
      let s := match s.testZone r.act k w with
        | some z => if (s.zone r.act z).map = 0 then s.zoneMap r.act z 1 else s
        | none => s
      let valid := Sparse.read tab (i + 3) 0 / 65536 % 2 == 1
      let s := if valid then s
        else s.updAct r.act (fun a =>
          -- a full run starts from WC 0x80, PHASE 32, WIDTH 32, PREROLL 32, LEVEL MAX_LEVEL ÷ 2 (R433)
          let t := Sparse.write a.table i 0 (0x80 + 32 * 256 + 32 * 65536 + 32 * 16777216)
          let t := Sparse.write t (i + 1) 0 (s.maxLevel (r.act / 2) / 2 + 65536 * (pd % 65536))
          { a with table := t, shadowTable := t })
      let here := if r.place = p ∧ r.grids ≠ 0 then r.target else s.calSetting r1
      let g := (if r.place = p then r.grids else 0) + 1
      let win := gridWinner means micro
      let pairs := ([-8, 0, 8] : List Int).flatMap (fun a => ([-4, 0, 4] : List Int).map (fun b => (here.getD 0 0 + a, here.getD 1 0 + (if micro then 0 else b))))
      let s := match (s.testZone r.act k w).bind (fun z => (s.sideDesc r.act).bind (fun d => d.zonePos z)) with
        | some q => s.emit (.testGrid r.act k q.2.1 pairs)
        | none => s
      -- item 6 may use these sectors (R426)
      let s := s.setRun r.act 6 (fun x => { x with tested := if x.tested.contains k then x.tested else x.tested ++ [k] })
      let c0 := here.getD 0 0 + 8 * ((win / 3 : Nat) - 1 : Int)
      let c1 := if micro then here.getD 1 0 else here.getD 1 0 + 4 * ((win % 3 : Nat) - 1 : Int)
      let centre := [min 255 (max 0 c0), min 63 (max 0 c1)]
      if win = 4 ∨ 8 ≤ g then
        put s (fun x => { x with phase := 2, place := p, start := s.calSetting r1, target := centre, grids := 0, last := last })
      else put s (fun x => { x with place := p, target := centre, grids := g })
  | _, _ => s

/-- Channel bits of test sector i, written as physical sector p: a payload that the spec does not give, under its own seal (R428). -/
def testSector (i p : Nat) : List Byte := sectorChannel p ((List.range 4096).map (Config.testByte i)) (sealTest i)

/-- PK: the smallest |y| that at most 1 sample in 1,024 exceeds (R428), in whole units. DEDUCED: log 180. -/
def peakOf (h : List (Nat × Nat)) : Nat :=
  let total := (h.map (·.2)).sum
  ((List.range 257).find? (fun v => 1024 * ((h.filter (fun x => v < x.1)).map (·.2)).sum ≤ total)).getD 257

/-- Items 4 and 5 have seen enough sectors: their target (R428). -/
def State.laneTarget (s : State) (r : CalRun) : Option Int :=
  let l := s.str.laneOf r.act
  if r.item = 4 ∧ 1024 ≤ r.sectors then
    let pk := peakOf r.peaks
    some (min 56 (max 8 ((s.rdN Reg.lane_AGC_TARGET l * 56 * 2 + pk) / (2 * max 1 pk))) : Nat)
  else if r.item = 5 ∧ 4096 ≤ r.sectors then
    let (found, bad, missed) := r.marks
    let t : Int := s.rdN Reg.lane_SYNC_TOL l
    some (min 6 (max 0 (if found < 1000 * bad then t - 1 else if r.sectors < 1000 * missed ∧ 10000 * bad < found then t + 1 else t)))
  else none

/-- A record or entry has reached its target: the run completes, or measures on. -/
def State.calReached (s : State) (r : CalRun) : State :=
  let s := if r.item = 7 then
      s.updAct r.act (fun a =>
        let i := entryWord r.place + 3
        let w := Sparse.read a.table i 0
        let t := if w / 65536 % 2 = 1 then a.table else Sparse.write a.table i 0 (w + 65536)
        let b := ((r.place.1 - 1) * 16 + r.place.2.1) * 4 + r.place.2.2
        { a with table := t, shadowTable := t, calPending := if a.calPending.testBit b then a.calPending - 2 ^ b else a.calPending })
    else s
  if r.last then (s.calDone r).calShow r.act
  else s.setRun r.act r.item (fun x => { x with phase := 1, start := [] })

/-- One round of a run (R429, R430). -/
def State.calRound (s : State) (r : CalRun) (obs : List (CalMeas × Bool)) : State :=
  if r.phase = 0 then
    -- items of one scope run one at a time, in item order
    if s.thm.runs.any (fun x => x.act == r.act && x.phase != 0) then s
    else if s.calPre r then s.calStart r else s.calDefer r
  else if s.calPre r = false then s.calAbort r
  else
    let s := if r.phase = 1 then obs.foldl (fun s o =>
        match s.thm.runs.find? (fun x => x.act == r.act && x.item == r.item) with
        | some x => if x.phase = 1 then s.calMeasured x o.1 o.2 else s
        | none => s) s else s
    let s := if r.phase = 1 then
        match (s.thm.runs.find? (fun x => x.act == r.act && x.item == r.item)).bind s.laneTarget with
        | some t => s.setRun r.act r.item (fun x => { x with phase := 2, target := [t], last := true, stored := !(obs.any (fun o => o.1 == .lane && !o.2)) })
        | none => s
      else s
    match s.thm.runs.find? (fun x => x.act == r.act && x.item == r.item) with
    | some x =>
      if x.phase ≠ 2 then s
      else
        let v := (s.calSetting x).zip x.target
        let v := v.map (fun p => tapStep x.item p.1 p.2)
        let s := s.calApply x v
        if v = x.target then s.calReached x else s
    | none => s

end Sys2Proof.Machine
end

