-- ==== Sys2Proof/Machine/Thermal.lean ====
section
/-!
DEFINITION. Machine/Thermal.lean: the housekeeping round of 16_thermal_and_calibration.md (R417 to R425), the requests for
calibration and the exclusive-media slots (R427, R430, R431).
-/

namespace Sys2Proof.Machine

/-- Integer division rounded to nearest, halves up. DEDUCED: log 91. -/
def roundDiv (a b : Int) : Int := (2 * a + b).fdiv (2 * b)

/-- Hold the fields of a record as an audit record gives them. -/
def ThermRec.list (t : ThermRec) : List Nat :=
  [t.jWarn, t.jThr, t.jShut, t.hWarn, t.hThr, t.hShut, t.hyst, t.k, t.floor, t.calJ, t.calH, t.dimmRef, t.edge0, t.edge1, t.edge2]

/-! ### Step 1: live records (R56) -/

/-- DEDUCED: log 68. -/
def State.liveApply (s : State) : State :=
  let s := s.husk.liveTherm.foldl (fun (s : State) (t : ThermRec) =>
    let old := s.str.therm
    let s : State := { s with cfg := some { s.str with therm := t } }
    (s.bump Reg.status_LIVE_CNT 0).audit 3 .liveChange noInst (0xA :: old.list ++ t.list)) s
  let s := s.husk.liveGran.foldl (fun (s : State) (g : GranRec) =>
    let old := s.str.gran
    let s : State := { s with cfg := some { s.str with gran := g } }
    let s := (s.wrN Reg.gran_LOCK_BUDGET 0 g.lockBudget).wrB Reg.gran_LOCK_REFILL 0 g.lockRefill
    (s.bump Reg.status_LIVE_CNT 0).audit 3 .liveChange noInst
      [5, old.ways, old.lockBudget, if old.lockRefill then 1 else 0, g.ways, g.lockBudget, if g.lockRefill then 1 else 0]) s
  s.updHusk (fun k => { k with liveTherm := [], liveGran := [] })

/-! ### Step 2: latching (R417 to R420) -/

/-- A sensor's temperature in 1/16 °C: round(16 (N − N_TRIM) ÷ −6) above T_TRIM. DEDUCED: log 91. -/
def State.sensTemp (s : State) (i n : Nat) : Int :=
  s.rdInt Reg.therm_T_TRIM 0 0 + roundDiv (-(16 * ((n : Int) - (s.rdAt Reg.therm_SENS_TRIM 0 i).toNat))) 6

/-- The middle of a list in order; of an even number, the lower of the two in the middle. DEDUCED: log 91. -/
def median (l : List Int) : Int := (sortBy (fun (a b : Int) => decide (a ≤ b)) l).getD ((l.length - 1) / 2) 0

/-- One die sensor is marked failed. -/
def State.sensFail (s : State) (i : Nat) : State := (s.wrAt Reg.therm_SENS_FAIL 0 i 1).raise 0x0C02 0

def State.latchDie (s : State) (counts : List Nat) : State :=
  let failed (s : State) (i : Nat) : Bool := s.rdAt Reg.therm_SENS_FAIL 0 i == 1
  let ids := List.range 16
  let s := ids.foldl (fun s i =>
    let n := counts.getD i 0
    let s := s.wrInt Reg.therm_SENS_T 0 i (s.sensTemp i n)
    let s := s.wrAt Reg.therm_HK_VAL 0 i (BitVec.ofInt 32 (s.sensTemp i n))
    if failed s i = false ∧ (n < 4000 ∨ 12000 < n) then s.sensFail i else s) s
  let temp (i : Nat) : Int := s.sensTemp i (counts.getD i 0)
  let valid := ids.filter (fun i => !(failed s i))
  let off (i : Nat) : Bool :=
    let others := (valid.filter (fun j => j != i)).map temp
    !others.isEmpty && decide (240 < (temp i - median others).natAbs)
  let s := s.updThm (fun t => { t with devRuns := ids.map (fun i => if valid.contains i && off i then t.devRuns.getD i 0 + 1 else 0) })
  let s := valid.foldl (fun s i => if 3 ≤ s.thm.devRuns.getD i 0 then s.sensFail i else s) s
  let valid := ids.filter (fun i => !(failed s i))
  let s := s.wrN Reg.therm_SENS_VALID 0 ((valid.map (fun i => 2 ^ i)).foldl (· + ·) 0)
  match valid with
  | [] => s
  | i :: rest => s.wrInt Reg.therm_J_TEMP 0 0 ((rest.map temp).foldl max (temp i))

/-- The HDA's temperature and HDA_STALE (R419). A value outside its range leaves the temperature as it was. DEDUCED: log 140. -/
def State.latchHda (s : State) (h : Nat) : State :=
  if s.up h then
    let s := s.updPort h (fun p => { p with quietRounds := p.quietRounds + 1, moved := false })
    let p := s.port h
    match p.temps with
    | t :: _ =>
      let valid := hdaValid t
      let bad : Bool := 10 < p.quietRounds || !valid
      let old := s.rdAt Reg.therm_HDA_STALE 0 h
      let s := if valid then (s.wrInt Reg.therm_HDA_T 0 h t).wrAt Reg.therm_HK_VAL 0 (16 + h) (BitVec.ofInt 32 t) else s
      let s := s.wrAt Reg.therm_HDA_STALE 0 h (if bad then 1 else 0)
      if bad ∧ old = 0 then s.raise 0x0505 h else s
    | [] =>
      let old := s.rdAt Reg.therm_HDA_STALE 0 h
      if 10 < p.quietRounds ∧ old = 0 then (s.wrAt Reg.therm_HDA_STALE 0 h 1).raise 0x0505 h else s
  else
    let s := s.updPort h (fun p => { p with quietRounds := 0, temps := [], moved := false })
    ((s.wrAt Reg.therm_HDA_T 0 h 0).wrAt Reg.therm_HDA_STALE 0 h 0).wrAt Reg.therm_HK_VAL 0 (16 + h) 0

/-- Channels 48 to 95. -/
def State.latchRest (s : State) (rails : List Int) : State :=
  let put (s : State) (c : Nat) (v : Int) : State := s.wrAt Reg.therm_HK_VAL 0 c (BitVec.ofInt 32 v)
  let s := (List.range 32).foldl (fun s h =>
    put s (48 + h) (if s.up h then roundDiv (Fix.ofF32 (s.busVolts h) * 1000) Fix.one else 0)) s
  let s := (List.range 8).foldl (fun s i => put s (80 + i) (rails.getD i 0)) s
  let s := (List.range 4).foldl (fun s q =>
    let hs := ((List.range 8).map (fun i => 8 * q + i)).map s.spinSt
    let mean : Nat := (hs.map (fun x => x.iSum / (1000 * max 1 x.iCnt))).foldl (· + ·) 0
    let top : Nat := (hs.map (fun x => x.iMax / 1000)).foldl max 0
    put (put s (88 + q) mean) (92 + q) top) s
  (List.range 32).foldl (fun s h => s.updSpin h (fun x => { x with iSum := 0, iCnt := 0, iMax := 0 })) s

/-! ### Step 3: thresholds and bands (R421, R422, R425) -/

/-- A state sets at its threshold and clears below it by HYST. -/
def thermSet (old : Bool) (t : Int) (thr hyst : Nat) : Bool :=
  decide ((thr : Int) * 16 ≤ t) || (old && decide (((thr : Int) - hyst) * 16 ≤ t))

/-- The three states of a source: WARN, THR and SHUT, with THR held set. -/
def thermStates (old : Nat) (t : Int) (w th sh hyst : Nat) (hold : Bool) : Nat :=
  (if thermSet (old.testBit 0) t w hyst then 1 else 0) + (if thermSet (old.testBit 1) t th hyst || hold then 2 else 0)
    + (if thermSet (old.testBit 2) t sh hyst then 4 else 0)

def kelvin (t : Int) : Int := t.fdiv 16 + 273

/-- A sensor crosses its over or under threshold (R359). DEDUCED: log 93. -/
def State.threshEvents (s : State) (sensor : Nat) (old new : Int) : State :=
  let hot (t : Int) : Bool := decide ((s.threshOf sensor 0 : Int) ≤ kelvin t)
  let cold (t : Int) : Bool := decide (kelvin t ≤ (s.threshOf sensor 1 : Int))
  if (hot new && !(hot old)) || (cold new && !(cold old)) then s.event 1 1 2 else s

/-- Fewer than 8 sensors are valid (R418). -/
def State.dieHeld (s : State) : Bool := ((List.range 16).filter (fun i => s.rdBit Reg.therm_SENS_VALID 0 i)).length < 8

/-- An HDA has a temperature and a throttle state (R419). -/
def State.hdaHas (s : State) (h : Nat) : Bool := s.up h && !(s.port h).temps.isEmpty
/-- DEDUCED: log 92. -/
def State.hdaStale (s : State) (h : Nat) : Bool := s.up h && s.rdAt Reg.therm_HDA_STALE 0 h == 1

/-- New states of a source are in force: audit records, and the shutdown fault when SHUT sets. DEDUCED: log 94. -/
def State.thermNew (s : State) (inst old new ftype fi : Nat) : State :=
  let s := if old = new then s else s.audit 4 .thermState inst [inst, old, new]
  if new.testBit 2 ∧ old.testBit 2 = false then s.raise ftype fi else s

def State.thermJ (s : State) : State :=
  let t := s.rdInt Reg.therm_J_TEMP 0 0
  let r := s.str.therm
  let old := s.rdN Reg.therm_J_ST 0
  let new := thermStates old t r.jWarn r.jThr r.jShut r.hyst s.dieHeld
  let s := (s.wrN Reg.therm_J_ST 0 new).thermNew noInst old new 0x0C01 0
  let b := s.rdN Reg.therm_J_BAND 0
  let b2 := bandOf t b r.hyst [60, 85]
  if b2 = b then s
  else
    -- the Awn equaliser preset of each port for its next training
    let f := if b2 = 0 then Reg.therm_EQ_J0 else if b2 = 1 then Reg.therm_EQ_J1 else Reg.therm_EQ_J2
    (List.range 32).foldl (fun s h => s.wr Reg.port_EQ_PRESET h (s.rdAt f 0 h)) (s.wrN Reg.therm_J_BAND 0 b2)

def State.thermH (s : State) (h : Nat) : State :=
  let r := s.str.therm
  let old := (s.rdAt Reg.therm_H_ST 0 h).toNat
  let new := if s.hdaHas h then thermStates old (s.rdInt Reg.therm_HDA_T 0 h) r.hWarn r.hThr r.hShut r.hyst (s.hdaStale h)
    else if s.hdaStale h then 2 else 0
  let s := (s.wrAt Reg.therm_H_ST 0 h (BitVec.ofNat 32 new)).thermNew h old new 0x0506 h
  s.wrAt Reg.therm_H_BAND 0 h (s.rd Reg.wa_BAND (2 * h))

/-! ### Step 4: fractions and media credits (R423, R424) -/

/-- The fraction of a source. -/
def thermFrac (r : ThermRec) (states : Nat) (hold : Bool) (t : Int) (thr : Nat) : Nat :=
  if hold then r.floor
  else if states.testBit 1 then
    let d := (t - (thr : Int) * 16).toNat
    max r.floor (100 - r.k * d / 32)
  else 100

/-- The fraction of the power state in force (R111, R114). -/
def State.psFrac (s : State) : Nat := if s.rdN Reg.status_CUR_PS 0 = 1 then 75 else 100

/-- Bits of CAUSE: HDA, junction, power state, shutdown (R362). -/
def State.fracOf (s : State) (n : Nat) : Nat × Nat :=
  let h := (s.rdAt Reg.therm_H_FRAC 0 (n / 2)).toNat
  let j := s.rdN Reg.therm_J_FRAC 0
  let p := s.psFrac
  let shut := (s.rdAt Reg.therm_H_ST 0 (n / 2)).getLsbD 2 || (s.rd Reg.therm_J_ST 0).getLsbD 2
  (min h (min j p), (if h < 100 then 1 else 0) + (if j < 100 then 2 else 0) + (if p < 100 then 4 else 0) + (if shut then 8 else 0))

/-- Media work of the actuator is under way: an operation, a recovery operation (R242) or an exclusive-media slot. -/
def State.mediaBusy (s : State) (n : Nat) : Bool := (s.act n).op.isSome || (s.act n).xslot || s.recWaits n

/-- The credit after a round that lasted 1,000 µs. DEDUCED: log 87. -/
def creditNext (credit : Int) (frac : Nat) (busy : Bool) : Int :=
  if frac = 100 then 10000 else min 10000 (credit - (if busy then 1000 else 0) + 10 * frac)

def State.fracAct (s : State) (n : Nat) : State :=
  let (f, cause) := s.fracOf n
  let old := s.rdN Reg.thermAct_FRAC n
  let s := (s.wrN Reg.thermAct_FRAC n f).wrN Reg.thermAct_CAUSE n cause
  let s := if old ≠ f ∧ s.classWaits n 5 then s.audit 4 .thermFraction n [4, 5, n, old, f] else s
  let s := if f < old ∧ cause % 4 ≠ 0 then s.breaksFor n 4 [6, 7] else s
  let c := creditNext (s.rdInt Reg.thermAct_MEDIA_CREDIT n 0) f (s.mediaBusy n)
  let s := s.wrInt Reg.thermAct_MEDIA_CREDIT n 0 c
  if c ≤ -2000 then s.opCut n else if 0 < c then s.resumeGo n else s

def State.fractions (s : State) : State :=
  let r := s.str.therm
  let s := s.wrN Reg.therm_J_FRAC 0 (thermFrac r (s.rdN Reg.therm_J_ST 0) s.dieHeld (s.rdInt Reg.therm_J_TEMP 0 0) r.jThr)
  let s := (List.range 32).foldl (fun s h =>
    s.wrAt Reg.therm_H_FRAC 0 h (BitVec.ofNat 32 (thermFrac r (s.rdAt Reg.therm_H_ST 0 h).toNat (s.hdaStale h)
      (s.rdInt Reg.therm_HDA_T 0 h) r.hThr))) s
  let acts := (List.range 64).filter s.actExists
  let s := acts.foldl (fun s n => s.fracAct n) s
  let new := (List.range 64).map (fun n => if s.actExists n then s.rdN Reg.thermAct_FRAC n else 100)
  let s := if new = s.thm.fracOld then s else (s.updThm (fun t => { t with fracOld := new })).event 7 0xC1 0xC1
  if new.any (fun f => f < 100) then s.updHost (fun h => { h with thrMs := h.thrMs + 1 }) else s

/-! ### Exclusive-media slots (R431) -/

def State.xslotMs (s : State) : Nat := let v := s.rdN Reg.therm_XSLOT_MS 0; if 1 ≤ v ∧ v ≤ 50 then v else 50
def State.xduty (s : State) : Nat := let v := s.rdN Reg.therm_XDUTY 0; if 1 ≤ v ∧ v ≤ 10 then v else 10

/-- A slot ends; a PRIO 4 operation under way in it ends at its sector boundary. -/
def State.slotEnd (s : State) (n : Nat) : State :=
  if (s.act n).xslot then
    let s := (s.updAct n (fun a => { a with xslot := false })).updThm (fun t => { t with slotFrom := t.slotFrom.filter (fun x => x.1 != n) })
    match (s.act n).op with
    | some o => if (s.act n).mq.any (fun e => e.idx == o.entry && 4 ≤ e.prio) then s.opCut n else s
    | none => s
  else s

/-- PRIO 4 work that takes exclusive media waits: item 7, then a self-test. -/
def State.wantsSlot (s : State) (n : Nat) : Bool :=
  s.thm.runs.any (fun r => r.act == n && r.item == 7 && r.phase == 1)
    || (match s.host.test.running with | some (_, l) => l.contains n | none => false)

/-- DEDUCED: log 97. -/
def State.slotRound (s : State) (n : Nat) : State :=
  let a := s.act n
  let s := if s.alm.us64.toNat % 1000000 = 0 then s.wr Reg.thermAct_XSLOT_US n 0 else s
  let waiting := [0, 1, 2, 3].any (fun c => !(a.readyOf c).isEmpty)
  if a.xslot then
    let s := if waiting then s.bumpBy Reg.thermAct_XSLOT_US n 0 1000 else s
    let from_ := (s.thm.slotFrom.lookup n).getD 0
    if from_ + s.xslotMs * 1000 ≤ s.alm.us64.toNat ∨ s.xduty * 10000 ≤ s.rdN Reg.thermAct_XSLOT_US n ∨ a.readyOf 0 ≠ [] then s.slotEnd n else s
  else if s.wantsSlot n ∧ waiting ∧ a.readyOf 0 = [] ∧ a.op = none ∧ s.creditOut n = false
      ∧ s.rdN Reg.thermAct_XSLOT_US n < s.xduty * 10000 then
    (s.updAct n (fun a => { a with xslot := true })).updThm (fun t => { t with slotFrom := assocSet t.slotFrom n s.alm.us64.toNat })
  else s

def execExclusiveMediaSlotEnd (n : Act) (s : State) : Res := .next (s.slotEnd n)

/-! ### Step 5: calibration (R427, R429) -/

/-- Items whose temperature has moved by more than their basis. A side's items wait for its records (R105). DEDUCED: log 96. -/
def State.calTriggers (s : State) : State :=
  let moved (act basis : Nat) : Bool := decide (basis * 16 < (s.calTemp act - s.calTLast act).natAbs)
  let s := (List.range 64).foldl (fun s n =>
    if s.actExists n && (s.act n).ledgerRead && s.hdaHas (n / 2) && moved n s.str.therm.calH then
      [4, 5, 6, 7].foldl (fun s i => s.calTrigger n i) s
    else s) s
  -- an entry that waits for its band, or for a zone to test in, is calibrated when it can be (R433)
  let s := (List.range 64).foldl (fun s n => if s.actExists n && (s.act n).ledgerRead && s.pendingZone n then s.calTrigger n 7 else s) s
  if s.rdN Reg.ddr_TOTAL_MIB 0 ≠ 0 ∧ moved 64 s.str.therm.calJ then s.calTrigger 64 2 else s

def CalScope.id : CalScope → Nat
  | .act n => n.val
  | .controller => 64

def State.calStep (s : State) (obs : List CalObs) : State :=
  let s := s.calTriggers
  s.thm.runs.foldl (fun (s : State) (r : CalRun) =>
    match s.thm.runs.find? (fun x => x.act == r.act && x.item == r.item) with
    | some x => s.calRound x ((obs.filter (fun o => CalScope.id o.scope == x.act && o.item == x.item)).map (fun o => (o.meas, o.stored)))
    | none => s) s

/-! ### Step 6: channel limits (R420) -/

/-- DEDUCED: log 90. -/
def State.limitCheck (s : State) : State :=
  (List.range 48).foldl (fun s i =>
    let c := 48 + i
    let v := s.rdInt Reg.therm_HK_VAL 0 c
    let lo := (s.rdAt Reg.therm_HK_LO 0 c).toNat
    let hi := (s.rdAt Reg.therm_HK_HI 0 c).toNat
    let bad : Bool := hi != 0 && (80 ≤ c || s.up i) && (decide (v < lo) || decide ((hi : Int) < v))
    let k := if bad then s.thm.limRuns.getD c 0 + 1 else 0
    let s := s.updThm (fun t => { t with limRuns := listSet t.limRuns c k })
    if k = 3 then s.raise 0x0C03 0 (BitVec.ofNat 32 c) else s) s

/-! ### What the round shows to the host (R345, R359) -/

/-- A latched fault awaits release: Critical Warning bit 2 (R363). -/
def State.anyLatch (s : State) : Bool := s.regs.any (fun p => p.1 / 0x100000 == Reg.flt_FLT_LATCH.id)

/-- The spare and reliability events, posted at the round that first sees their cause. DEDUCED: log 127. -/
def State.healthEvents (s : State) : State :=
  let low := (List.range 64).filter (fun n => s.actExists n && decide (s.availSpare n < 10))
  let fell := low.any (fun n => !(s.thm.spareLow.getLsbD n))
  let latch := s.anyLatch
  let rose := latch && !s.thm.latched
  let bits : BitVec 64 := BitVec.ofNat 64 ((low.map (fun n => 2 ^ n)).foldl (· + ·) 0)
  let s := s.updThm (fun t => { t with spareLow := bits, latched := latch })
  let s := if fell then s.event 1 2 2 else s
  if rose then s.event 1 0 2 else s

/-- The 100 ms windows of fetch end at multiples of 100,000 µs (R345, R365). DEDUCED: log 87. -/
def State.fetchWindow (s : State) : State :=
  let q := s.alm.us64.toNat / 100000
  if q = s.rdN Reg.qce_WIN_SEQ 0 then s
  else
    let s := (List.range 4).foldl (fun s c => s.wrAt Reg.qce_FETCH_SHARE 0 c (BitVec.ofNat 32 (s.host.classCnt.getD c 0))) s
    (s.wrN Reg.qce_WIN_SEQ 0 q).updHost (fun h => { h with classCnt := [0, 0, 0, 0] })

/-! ### The round -/

/-- DESIGN CHOICE: log 9. -/
def State.round (s : State) (obs : RoundObs) : State :=
  let oldJ := s.rdInt Reg.therm_J_TEMP 0 0
  let top (s : State) : Int := ((List.range 32).filter s.hdaHas).map (fun h => s.rdInt Reg.therm_HDA_T 0 h) |>.foldl max (-2000)
  let oldH := top s
  let s := s.faultAuditRound.liveApply
  let s := s.latchDie obs.counts
  let s := (List.range 32).foldl (fun s h => s.latchHda h) s
  let s := s.latchRest obs.railsMv
  let s := s.thermJ
  let s := (List.range 32).foldl (fun s h => s.thermH h) s
  let newJ := s.rdInt Reg.therm_J_TEMP 0 0
  let newH := top s
  let s := ((s.threshEvents 0 oldJ newJ).threshEvents 1 oldJ newJ).threshEvents 2 oldH newH
  let r := s.str.therm
  let s := s.updHost (fun h => { h with warnMs :=
    (h.warnMs.1 + (if (r.jWarn : Int) * 16 ≤ newJ then 1 else 0), h.warnMs.2 + (if (r.jThr : Int) * 16 ≤ newJ then 1 else 0)) })
  let s := s.fractions
  let s := ((List.range 64).filter s.actExists).foldl (fun s n => s.slotRound n) s
  let s := s.calStep obs.cal
  let s := s.limitCheck.healthEvents.fetchWindow
  -- a return from PS4 asks for its standing token (R472)
  let s := if s.pwr.returnAt.isSome then s.askStanding else s
  (s.bumpWrap Reg.therm_HK_ROUND_CNT 0 0).spinAsk

/-- A round at the next multiple of 1,000 µs; skipped while the last one runs. -/
def execHousekeepingRound (obs : RoundObs) (s : State) : Res :=
  .next (
    if s.locked = false then s
    else
      let s := s.passUs (1000 - s.alm.us64.toNat % 1000)
      if obs.previousRunning then s.bump Reg.therm_HK_SKIP_CNT 0 else s.round obs)

/-- CAL_REQ: items 4 to 7 of an actuator, item 2 of the controller. A request during a run of the same item has no effect by the time
the run ends (R427). DEDUCED: log 95. -/
def execCalReq (scope : CalScope) (writer : Initiator) (mask : Byte) (s : State) : Res :=
  .next (match scope with
    | .act n => s.guard writer (Reg.thermAct_CAL_REQ.addr n 0) (fun s =>
        if s.actExists n then [4, 5, 6, 7].foldl (fun s i => if mask.getLsbD (i - 1) then s.calTrigger n i else s) s else s)
    | .controller => s.guard writer (Reg.therm_CAL_REQ_C.addr 0 0) (fun s => if mask.getLsbD 1 then s.calTrigger 64 2 else s))

/-- An item has been deferred for longer than CAL_DEFER_MAX (R430). -/
def execCalDeferMaxExpiry (scope : CalScope) (item : Fin 8) (s : State) : Res :=
  .next (
    match s.thm.runs.find? (fun r => r.act == CalScope.id scope && r.item == item.val) with
    | some r =>
      if r.phase = 0 ∧ r.counted ∧ r.stale = false then
        let s := s.setRun r.act r.item (fun x => { x with stale := true })
        (s.calShow r.act).audit 4 .calStale r.act [r.act, r.item]
      else s
    | none => s)

end Sys2Proof.Machine
end

