-- ==== Sys2Proof/Machine/Power.lean ====
section
/-!
DEFINITION. Machine/Power.lean: pins, starts and resets (R92 to R110, R389 to R392, R489 to R491), shutdown notifications (R356), the
power states (R111 to R114), and readiness (R104, R105, R377, R378).
-/

namespace Sys2Proof.Machine

/-! ### What a reset that reloads structure leaves (R106, R109, R450) -/

/-- Acknowledged writes that are not on the media. -/
def State.unsaved (s : State) : Bool := s.buf.any (fun g => g.acked && !g.written)

/-- What lies in OTP and NOR. DEDUCED: log 106. -/
def Husk.wipe (k : Husk) : Husk :=
  { Husk.reset with
    slots := k.slots, floor := k.floor, rootSecret := k.rootSecret, serial := k.serial, tTrim := k.tTrim, sensTrim := k.sensTrim, variantH := k.variantH,
    bundleA := k.bundleA, bundleB := k.bundleB, imageA := k.imageA, imageB := k.imageB, calNor := k.calNor, sanitizeNor := k.sanitizeNor }

/-- Nothing of an actuator outlives it but its progress record, which the NOR mirror holds (R380). -/
def ActSt.wipe (a : ActSt) : ActSt := { ActSt.reset with led := { LedgerSt.reset with progress := a.led.progress } }

/-- The host state that outlives a reset: namespaces, sanitize and self-test results, the counts of the SMART log, and, within a power
cycle, the admission stamp (R16). DEDUCED: log 101. -/
def HostSt.wipe (h : HostSt) (power : Bool) : HostSt :=
  { HostSt.reset with
    stamp := if power then 0 else h.stamp,
    created := h.created, attached := h.attached, unsafe_ := h.unsafe_, warnMs := h.warnMs, dataErrors := h.dataErrors, errCount := h.errCount,
    sanFailed := h.sanFailed, sanRun := h.sanRun, sanCdw := h.sanCdw, sanDone := h.sanDone, thrMs := if power then 0 else h.thrMs,
    test := match h.test.running with | some (false, _) => { h.test with running := none } | _ => h.test }

/-- The audit SEQ, CLR_GEN and the NOR ring remain; C0's counts run on unless power was lost. DEDUCED: log 64. -/
def AlmSt.wipe (a : AlmSt) (power : Bool) : AlmSt :=
  let a1 : AlmSt := { AlmSt.reset with auditLast := a.auditLast, clrGen := a.clrGen, nor := a.nor, norNext := a.auditLast + 1 }
  if power then a1 else { a1 with us64 := a.us64, hours := a.hours, usec := a.usec }

/-- SAFE_n low, write gates closed, DDR and every register at its Reset value. DEDUCED: log 100 and 101. -/
def State.wipe (s : State) (power : Bool) : State :=
  let r := State.reset
  let lost := s.unsaved || (s.phase == .off && s.rdB Reg.status_BUF_LOST 0)
  let w : State := { r with
    pending := s.pending, out := s.out, fresh := s.fresh, husk := s.husk.wipe, acts := s.acts.map ActSt.wipe,
    host := s.host.wipe power, alm := s.alm.wipe power, pins := s.pins,
    spn := if power then r.spn else s.spn.map (fun x => { SpinSt.reset with ups := x.ups, unloads := x.unloads }),
    gran := { GranSt.reset with trained := s.gran.trained } }
  let w := if power then w
    else (w.wr Reg.status_PWR_CYCLE 0 (s.rd Reg.status_PWR_CYCLE 0)).wr64 Reg.qce_NEXT_STAMP_LO Reg.qce_NEXT_STAMP_HI 0 0 w.host.stamp
  let w := w.wrB Reg.status_BUF_LOST 0 lost
  let bad := s.unsaved || (power && s.cfg.isSome && !s.host.shutdownSeen)
  if bad then w.updHost (fun h => { h with unsafe_ := h.unsafe_ + 1 }) else w

/-! ### Applying structure (R48 to R51) -/

def portMask (p : Nat → Bool) : Nat := (((List.range 32).filter p).map (fun h => 2 ^ h)).foldl (· + ·) 0

/-- Windows, mailbox map, QUEUE, PORT and BIND (R61, R99). -/
def State.applyStructure (s : State) (c : Structure) : State :=
  let s : State := { s with cfg := some c, wins := programWins c s.installed }
  let m := portMask s.declared
  (s.wrN Reg.status_PORT_DECL 0 m).wrN Reg.status_PORT_BOUND 0 m

/-- Validate copies A and B through step 8; the copy that passes first, and its structure (R49). -/
def State.validate (s : State) (aErr bErr : Bool) : State :=
  let env : TrustEnv := ⟨s.husk.slots, s.husk.floor, s.husk.fwVersion, s.husk.variantH⟩
  let (fa, ca) := validateCopy env aErr s.husk.imageA
  let s := s.wrN Reg.status_FAIL_A 0 fa
  match ca with
  | some c => (s.updHusk (fun k => { k with candidate := 1 })).applyStructure c
  | none =>
    let (fb, cb) := validateCopy env bErr s.husk.imageB
    let s := s.wrN Reg.status_FAIL_B 0 fb
    match cb with
    | some c => (s.updHusk (fun k => { k with candidate := 2 })).applyStructure c
    | none => (s.updHusk (fun k => { k with candidate := 0 })).applyStructure Structure.recovery

/-- Select the firmware bundle (R98). -/
def State.selectBundle (s : State) (aErr bErr : Bool) : State :=
  let ok (err : Bool) (b : List Byte) : Bool := !err && bundleCheck s.husk.slots s.husk.floor b == 0
  if ok aErr s.husk.bundleA then
    (s.wr Reg.status_BUNDLE 0 1).updHusk (fun k => { k with fwVersion := some (le32 k.bundleA 0x14) })
  else if ok bErr s.husk.bundleB then
    (s.wr Reg.status_BUNDLE 0 2).updHusk (fun k => { k with fwVersion := some (le32 k.bundleB 0x14) })
  else (s.wr Reg.status_BUNDLE 0 0).updHusk (fun k => { k with fwVersion := none })

/-- A start up to DDR training, with its CAUSE (R99, R110); Husk derives its two keys (R68). DESIGN CHOICE: log 12. -/
def State.boot (s : State) (obs : BootObs) (cause : Nat) : State :=
  let s := (s.wrN Reg.status_CAUSE 0 cause).wrN Reg.status_SEC_FLOOR 0 s.husk.floor
  let s := s.updHusk (fun k => { k with
    identityKey := some (Config.deriveKey 0 k.rootSecret), wrapKey := some (Config.deriveKey 1 k.rootSecret) })
  let s := s.selectBundle obs.bundleAErr obs.bundleBErr
  let s := s.validate obs.imageAErr obs.imageBErr
  { s with phase := .training }

/-- The newest record of the NOR ring. DEDUCED: log 64. -/
def State.norLast (s : State) : Option Rec := (norNewest s.alm.nor).bind (fun x => x.recs.getLast?)

/-- HOURS, USEC and PWR_CYCLE resume from the newest persisted record (R99, R450). -/
def State.resumeTime (s : State) : State :=
  match s.norLast with
  | some r => (s.updAlm (fun a => { a with hours := r.hours, usec := r.usec })).wr Reg.status_PWR_CYCLE 0 (r.pwrCycle + 1)
  | none => s.wr Reg.status_PWR_CYCLE 0 1

/-- PWR_OK rises: MGR_SEL and MGMT_I3C are sampled here (R490). Rails and references are within tolerance (R93). DESIGN CHOICE: log 12, DEDUCED: log 99. -/
def execPwrOkRising (obs : BootObs) (s : State) : Res :=
  .next (
    if s.pins.pwrOk then s
    else
      let s := s.wipe true
      let s : State := { s with pins := { s.pins with group1 := true, vddIo := true, pwrOk := true, mgrSel := obs.mgrSel, i3c := obs.i3c } }
      s.resumeTime.boot obs 0)

/-- PWR_OK falls; a low shorter than 1 µs is ignored (R490). DEDUCED: log 98. -/
def execPwrOkFalling (lowNs : Nat) (s : State) : Res :=
  .next (
    if lowNs < 1000 ∨ s.pins.pwrOk = false then s
    else
      let s := s.wipe true
      { s with pins := { s.pins with pwrOk := false } })

/-- RST_N is low; ignored while PWR_OK is low, recognised from 1 µs (R94, R95). DEDUCED: log 98 and 100. -/
def execRstNLow (lowNs : Nat) (s : State) : Res :=
  .next (
    if lowNs < 1000 ∨ s.pins.pwrOk = false then s
    else if s.husk.rstLow then s
    else (s.wipe false).updHusk (fun k => { k with rstLow := true }))

/-- RST_N rises after a recognised low (R106). -/
def execPinReset (obs : BootObs) (s : State) : Res :=
  .next (
    if s.pins.pwrOk ∧ s.husk.rstLow then (s.updHusk (fun k => { k with rstLow := false })).boot obs 1 else s)

def execGroup1WithinTolerance (s : State) : Res := .next { s with pins := { s.pins with group1 := true, vddIo := true } }

/-- SAFE_n is left undriven and reads low; FAULT_N has lost its pull-up (R489, R491). -/
def execVddIoOutOfTolerance (s : State) : Res := .next { s with pins := { s.pins with vddIo := false } }

/-- The levels at the balls (R96, R489, R491). -/
def State.safeBall (s : State) (h : Nat) : Bool := s.pins.vddIo && s.safeN.getLsbD h
def State.faultBallLow (s : State) : Bool := !s.pins.vddIo || s.faultNLow

/-! ### The rest of a start: DDR, image fields, lock (R391, R392, R50, R51) -/

/-- R389 on one DIMM. -/
def dimmOk (d : Dimm) : Bool := d.rdimm && [8, 16, 32, 64].contains d.gib && (d.ranks == 1 || d.ranks == 2)

/-- R389 and R390: the channels that do not meet them. -/
def dimmsBad (l : List (List Dimm)) : Nat :=
  let bad (c : Nat) : Bool := let x := l.getD c []; !(x.length == 1 || x.length == 2) || !(x.all dimmOk)
  let form (x : List Dimm) : List (Nat × Nat × Bool) := x.map (fun d => (d.gib, d.ranks, d.x8))
  let first := ((List.range 4).filter bad).map (fun c => 2 ^ c) |>.foldl (· + ·) 0
  if first ≠ 0 then first
  else if (List.range 4).all (fun c => form (l.getD c []) == form (l.getD 0 [])) then 0 else 15

/-- SERIAL[2c + slot], zero when absent (R432). -/
def serials (l : List (List Dimm)) : List Nat :=
  (List.range 8).map (fun j => match (l.getD (j / 2) [])[j % 2]? with | some d => d.serial.toNat | none => 0)

/-- The rate that every channel trains at (R391): 3, 2 or 1 as RATE codes it; none with the channels that fail at 4800. -/
def trainRate (o : TrainObs) : Option Nat :=
  if o.fail6400 = 0 then some 3 else if o.fail5600 = 0 then some 2 else if o.fail4800 = 0 then some 1 else none

/-- DDR is trained: from the stored results when the record fits the DIMMs, and the results are stored (R391, R433). DESIGN CHOICE: log 41, DEDUCED: log 102. -/
def State.ddrTrained (s : State) (l : List (List Dimm)) (rate : Nat) : State :=
  let ser := serials l
  let same (b : List Byte) : Bool := calValid 1 0xFF 0 b && (List.range 8).all (fun j => le32 b (32 + 4 * j) == ser.getD j 0)
  let pick := calPick same ((s.husk.calNor.lookup 0).getD []) ((s.husk.calNor.lookup 2).getD [])
  let s := (s.wrB Reg.ddr_FAST_TRAIN 0 pick.isSome).wrN Reg.ddr_RATE 0 rate
  let old := s.rdN Reg.therm_REC_SRC_C 0
  let s := s.wrN Reg.therm_REC_SRC_C 0 (old / 4 * 4 + (match pick with | some p => p.1 | none => 2))
  let s := match pick with
    | some p => (s.wrN Reg.therm_T_LAST_J 0 (le16 p.2 0x10)).updThm (fun t => { t with gen := (le32 p.2 0xC, t.gen.2) })
    | none => s
  let s := s.updGran (fun g => { g with trained := ser })
  let s := (List.range 4).foldl (fun s c =>
    let x := l.getD c []
    let d : Dimm := x.headD ⟨0, 0, false, false, 0⟩
    let s := ((s.wr Reg.ddrCh_TRAINED c 1).wrN Reg.ddrCh_DIMMS c x.length).wrN Reg.ddrCh_RANKS c d.ranks
    (s.wrB Reg.ddrCh_X8 c d.x8).wrN Reg.ddrCh_DIMM_GIB c d.gib) s
  let gib := ((l.flatMap id).map (·.gib)).foldl (· + ·) 0
  let s := (s.wrN Reg.ddr_TOTAL_MIB 0 (gib * 1024)).memWins
  s.strobeStore true

/-- Bits of an RWL settings entry into the RWL fields they cover (R502), the fault reaction table's among them. -/
def State.rwlEntry (s : State) (addr value mask : Nat) : State :=
  (blksAt addr).foldl (fun s b =>
    (Regs.ofBlk b.1).foldl (fun s f =>
      (List.range f.n).foldl (fun s j =>
        if f.addr b.2 j = addr ∧ f.acc = .RWL then
          let m := f.extract (BitVec.ofNat 32 mask)
          s.wrAt f b.2 j ((s.rdAt f b.2 j &&& ~~~m) ||| (f.extract (BitVec.ofNat 32 value) &&& m))
        else s) s) s) s

/-- Every RWL field from the selected bundle, and the sensor trim from OTP (R417). DEDUCED: log 10 and 103. -/
def State.rwlFields (s : State) : State :=
  let b := bundleBytes s.bundle 4
  let s := (List.range (b.length / 16)).foldl (fun s i =>
    s.rwlEntry (le64 b (16 * i)) (le32 b (16 * i + 8)) (le32 b (16 * i + 12))) s
  let s := s.wrN Reg.therm_T_TRIM 0 s.husk.tTrim
  (List.range 16).foldl (fun s i => s.wrAt Reg.therm_SENS_TRIM 0 i (BitVec.ofNat 32 (s.husk.sensTrim.getD i 0))) s

/-- Every field whose Reset reads image (R51), with the Awn band presets of record kind 6 (R425, R433). DEDUCED: log 10. -/
def State.imageFields (s : State) : State :=
  let c := s.str
  let s := (s.wrN Reg.gran_WAYS 0 c.gran.ways).wrN Reg.gran_LOCK_BUDGET 0 c.gran.lockBudget
  let s := (s.wrB Reg.gran_LOCK_REFILL 0 c.gran.lockRefill).wrN Reg.gran_SETS 0 (131072 / max 1 c.gran.ways)
  let s := (List.range 68).foldl (fun s e =>
    let a := s.engAct e
    ((s.wrN Reg.engine_BOUND_ACT e (a.getD 0xFF)).wrB Reg.engine_IS_SPARE e (e % 17 == 16)).wrN Reg.engine_MQ_DEPTH e c.queue.mediaDepth) s
  let s := (List.range 64).foldl (fun s l =>
    match c.actOfLane s.husk.variantH l with
    | some n =>
      let m := ((List.range 10).map (fun k => c.modeOf n (k + 1) * 8 ^ k)).foldl (· + ·) 0
      ((s.wrN Reg.lane_ACT l n).wr Reg.lane_IN_USE l 1).wrN Reg.lane_HEAD_MODE l m
    | none => s) s
  let recs := match c.part 1 with | some p => p.sizeMib * 1048576 / 66560 | none => 0
  let s := ((s.wrN Reg.thresh_CAP_RECORDS 0 recs).wrN Reg.thresh_CAP_FREE 0 recs).wrN Reg.thresh_CAP_LOW 0 recs
  let s := (s.wrN Reg.qce_BUF_LOW 0 s.bufCap).bufRefresh
  let pick := calPick (calValid 6 0xFF 0) ((s.husk.calNor.lookup 1).getD []) ((s.husk.calNor.lookup 3).getD [])
  let old := s.rdN Reg.therm_REC_SRC_C 0
  let s := s.wrN Reg.therm_REC_SRC_C 0 (old % 4 + 4 * (match pick with | some p => p.1 | none => 2))
  let s := match pick with | some p => s.updThm (fun t => { t with gen := (t.gen.1, le32 p.2 0xC) }) | none => s
  let s := (List.range 32).foldl (fun s h =>
    let pre := match c.port h with | some p => p.eqPreset | none => 0
    let at_ (bit : Nat) : Word := BitVec.ofNat 32 (match pick with | some p => le32 p.2 (32 + 4 * h) / 2 ^ bit % 8 | none => pre)
    let s := (s.wrN Reg.port_EQ_PRESET h pre).wrN Reg.spindle_SPEED_SEL h (match c.port h with | some p => p.speed | none => 0)
    ((s.wrAt Reg.therm_EQ_J0 0 h (at_ 0)).wrAt Reg.therm_EQ_J1 0 h (at_ 4)).wrAt Reg.therm_EQ_J2 0 h (at_ 8)) s
  let s := (s.wrN Reg.frt_FRT_CNT 0 c.fault.length).wrN Reg.status_SEC_VER 0 c.secVer
  let s := s.wr64 Reg.status_BUILD_SEQ_LO Reg.status_BUILD_SEQ_HI 0 0 c.buildSeq
  c.fault.zipIdx.foldl (fun s x =>
    let s := s.wrAt Reg.frt_FTYPE 0 x.2 (BitVec.ofNat 32 x.1.ftype)
    (s.wrAt Reg.frt_REACT 0 x.2 (BitVec.ofNat 32 x.1.react)).wrAt Reg.frt_LATCH 0 x.2 (if x.1.latch then 1 else 0)) s

/-- The Sheaf lock: RWL fields and the fault reaction table are fixed, and the Orrery listens (R466). -/
def State.lockSheaf (s : State) : State :=
  let s := (s.rwlFields.wr Reg.status_LOCKED 0 1).wr Reg.frt_FRT_LOCKED 0 1
  let s : State := { s with phase := .locked, orr := { s.orr with stage := 1 } }
  s.wrB Reg.orr_STRAP 0 s.pins.mgrSel

/-- A bound engine starts on the bundle's microcode: Husk commands its quadrant's loader, as for any load (R78, R99, R189). -/
def State.engineBoot (s : State) (e : Nat) (obj : List Byte) : State := (s.loadStart 64 e obj).loaderLoad (e / 17) false

/-- Culm's code goes to partition 4 from its base, and ends below the relay buffers (R77, R99, R502). -/
def State.culmCopy (s : State) : State :=
  match s.str.part 4 with
  | some p => s.memWrite p.base ((bundleBytes s.bundle 2).take (s.miReqBuf - p.base))
  | none => s

/-- A fused-off port that the image declares (R4). -/
def State.fusedPort (s : State) (h : Nat) : State :=
  ((s.wrAt Reg.status_PORT_CAUSE 0 h 7).raise 0x0103 h).audit 3 .fusedPort h [h, 7]

/-- R51 on the structure in force, loaded as `copy` (0: the recovery structure), up to Culm's release. DEDUCED: log 42. -/
def State.finishStart (s : State) (copy : Nat) : State :=
  let c := s.str
  let s := (s.wrN Reg.status_COPY 0 copy).imageFields
  let s := s.lockSheaf.updHusk (fun k => { k with imageTherm := c.therm, imageGran := c.gran })
  let s := s.audit 3 .load noInst [copy, c.secVer, c.buildSeq, s.rdN Reg.status_FAIL_A 0, s.rdN Reg.status_FAIL_B 0]
  let s := ((List.range 32).filter (fun h => (c.port h).isSome && s.fused h)).foldl (fun s h => s.fusedPort h) s
  let s := if copy = 0 then s.raise 0x0102 0 else s
  let s := if s.husk.fwVersion.isSome then
      let s := s.culmCopy
      let obj := bundleBytes s.bundle 3
      ((List.range 68).filter (fun e => (s.engAct e).isSome)).foldl (fun s e => s.engineBoot e obj) s
    else s
  s.ctrlReady

/-- Step 9 of R48, falling back to copy B on the DDR already trained, then to the recovery structure (R49, R50). -/
def State.stepNine (s : State) (bErr : Bool) : State :=
  let mib := s.rdN Reg.ddr_TOTAL_MIB 0
  match s.husk.candidate with
  | 0 => s.finishStart 0
  | 1 =>
    if step9 s.str mib then s.finishStart 1
    else
      let s := s.wr Reg.status_FAIL_A 0 9
      let (fb, cb) := validateCopy ⟨s.husk.slots, s.husk.floor, s.husk.fwVersion, s.husk.variantH⟩ bErr s.husk.imageB
      match cb with
      | some c =>
        if step9 c mib then ((s.updHusk (fun k => { k with candidate := 2 })).applyStructure c).finishStart 2
        else ((s.wr Reg.status_FAIL_B 0 9).applyStructure Structure.recovery).finishStart 0
      | none => ((s.wrN Reg.status_FAIL_B 0 fb).applyStructure Structure.recovery).finishStart 0
  | _ => if step9 s.str mib then s.finishStart 2 else ((s.wr Reg.status_FAIL_B 0 9).applyStructure Structure.recovery).finishStart 0

/-- A DDR training failure (R392): the structure stays, with no port bound; Culm is not released. DEDUCED: log 102. -/
def State.ddrFailed (s : State) (mask : Nat) (bErr : Bool) : State :=
  let s := s.wrN Reg.ddr_CH_FAIL 0 mask
  let s := match s.husk.candidate with
    | 1 =>
      let (fb, _) := validateCopy ⟨s.husk.slots, s.husk.floor, s.husk.fwVersion, s.husk.variantH⟩ bErr s.husk.imageB
      (s.wr Reg.status_FAIL_A 0 9).wrN Reg.status_FAIL_B 0 (if fb = 0 then 9 else fb)
    | 2 => s.wr Reg.status_FAIL_B 0 9
    | _ => s
  let s : State := { s with cfg := some { s.str with fault := [], therm := ThermRec.default } }
  let s := ((s.wr Reg.status_PORT_BOUND 0 0).lockSheaf).updHusk (fun k => { k with imageTherm := ThermRec.default, imageGran := s.str.gran })
  (List.range 4).foldl (fun s c => if mask.testBit c then s.raise 0x0301 c else s) s

/-- DESIGN CHOICE: log 12. -/
def execDdrTrainingDone (obs : TrainObs) (s : State) : Res :=
  .next (
    if s.phase ≠ .training then s
    else
      let l := [obs.ch0, obs.ch1, obs.ch2, obs.ch3]
      let bad := dimmsBad l
      if bad ≠ 0 then s.ddrFailed bad obs.boot.imageBErr
      else
        match trainRate obs with
        | some r => (s.ddrTrained l r).stepNine obs.boot.imageBErr
        | none => s.ddrFailed obs.fail4800.toNat obs.boot.imageBErr)

/-! ### Device warm reset (R108) -/

/-- The drain ends, or its 30 s: what is left becomes lost ranges with cause 3, NOR is up to date, tokens go back, and the device
resets. -/
def execWarmResetDrainEnd (obs : BootObs) (s : State) : Res :=
  .next (
    if s.husk.rootDrained = false then s
    else
      let left := s.unsaved
      let s := if left then ((List.range 64).filter s.actExists).foldl (fun s n => (s.loseBuffered n 3).1) s else s.cleanSides
      let s := (s.audit 5 .drain noInst [if left then 1 else 0]).norFlush
      let s := s.giveAll (fun t => !t.spin)
      let s : State := { s with buf := [] }
      ((s.wipe false).wrB Reg.status_DRAIN_INCOMPLETE 0 left).boot obs 2)

/-! ### PCIe (R86, R100, R106, R366) -/

def State.linkClear (s : State) : State :=
  ((s.wr Reg.pcie_LINK_UP 0 0).wr Reg.pcie_LINK_RATE 0 0).wr Reg.pcie_LINK_WIDTH 0 0 |>.wr Reg.pcie_FLIT 0 0

/-- Controller reset, direction 1 of channels 0 to 15 emptied, HOST_VEC cleared (R86); the registers of the function at their reset
values. DEDUCED: log 101. -/
def State.hostReset (s : State) : State :=
  let s := s.ctrlReset
  let s := (List.range 16).foldl (fun s ch =>
    let s := s.mbRcvReset ch 1
    (s.updMbox ch 0 (fun m => { m with hostVec := 0 })).updMbox ch 1 (fun m => { m with hostVec := 0 })) s
  (s.updHost (fun h => { h with cc := 0, aqa := 0, asq := 0, acq := 0, msix := [], pba := [] })).keyReset

def execPerstNRising (s : State) : Res := .next (if s.pins.pwrOk then { s with pins := { s.pins with perstN := true } } else s)

/-- Link training is over: 4, 5 or 6 codes the rate. -/
def execPcieLinkUp (rate width : Nat) (flit : Bool) (s : State) : Res :=
  .next (
    if s.pins.pwrOk ∧ s.pins.perstN ∧ 4 ≤ rate ∧ rate ≤ 6 then
      ((s.wr Reg.pcie_LINK_UP 0 1).wrN Reg.pcie_LINK_RATE 0 rate).wrN Reg.pcie_LINK_WIDTH 0 width |>.wrB Reg.pcie_FLIT 0 flit
    else s)

def execPcieConventionalReset (kind : PcieReset) (s : State) : Res :=
  .next (
    let s := s.linkClear.hostReset
    match kind with
    | .perstLow => { s with pins := { s.pins with perstN := false } }
    | _ => s)

def execFunctionLevelReset (s : State) : Res := .next s.hostReset

/-- NSSR: any other value has no effect. -/
def execNvmSubsystemReset (nssr : Word) (s : State) : Res :=
  .next (if nssr = 0x4E564D65 then (s.linkClear.hostReset).updHost (fun h => { h with nssro := true }) else s)

/-- Retry status until Husk has applied the QUEUE record (R100). -/
def execConfigurationRequest (s : State) : Res :=
  .next (
    if s.phase = .off then (s.bump Reg.pcie_CRS_CNT 0).emit (.config true)
    else s.emit (.config false))

/-! ### Shutdown notifications (R356, R457): SHST 1 is a normal one in progress, 3 an abrupt one -/

def State.shutdownEnd (s : State) : State := s.norFlush.updHost (fun h => { h with shst := 2 })

def execShutdownAbrupt (s : State) : Res :=
  .next (
    if s.host.rdy ∧ s.host.shst = 0 then
      let s := s.updHost (fun h => { h with shst := 3, shutdownSeen := true })
      if s.stagedAny then s else s.shutdownEnd
    else s)

/-- The staged additions are durable and, for a normal notification, the buffer is on the media. -/
def execShutdownDrainDone (s : State) : Res :=
  .next (
    if s.stagedAny = false ∧ ((s.host.shst = 1 ∧ s.undrained = false) ∨ s.host.shst = 3) then s.shutdownEnd else s)

/-- 30 s of a normal shutdown. -/
def execShutdownTimeout (s : State) : Res :=
  .next (
    if s.host.shst = 1 then (s.audit 5 .drain noInst [s.buf.length]).shutdownEnd
    else s)

/-! ### Power states (R111 to R114, R400) -/

/-- Park an actuator on its ramp with its commands held: epochs chaffed, its decode work stopped (R113, R195, R233). -/
def State.park (s : State) (n : Nat) : State :=
  let s := (((s.chaffAll n).endWork n).gateClose n 6).laneStop n
  (s.unloadSide n).updAct n (fun a => { a with holding := true })

/-- PS2: side A of each HDA stays loaded (R113). -/
def State.ps2Enter (s : State) : State :=
  let s : State := { s with pwr := { s.pwr with sideB := 0 } }
  (List.range 32).foldl (fun s h => if s.up h && s.actExists (2 * h) && s.actExists (2 * h + 1) then s.park (2 * h + 1) else s) s

/-- A transition to a power state begins (R111, R112). DEDUCED: log 104. -/
def State.psEnter (s : State) (t : Nat) : State :=
  let cur := s.rdN Reg.status_CUR_PS 0
  if t ≤ 2 then
    let s := s.psOperational t
    if t = 2 ∧ cur < 2 then s.ps2Enter else s
  else if cur = t ∧ s.rdB Reg.status_PS_BUSY 0 = false then s
  else
    let s := (s.wrN Reg.status_TGT_PS 0 t).wr Reg.status_PS_BUSY 0 1
    let s : State := { s with pwr := { s.pwr with returnAt := none } }
    if cur < 3 then s.cleanSides else s

def execPowerManagement (slot : BitVec 16) (s : State) : Res :=
  .next (s.setFeature slot 2 (fun c s =>
    let t := c.sqe.cdw11.toNat % 32
    if 4 < t then s.complete c.slot stInvalidField else (s.complete c.slot 0).psEnter t))

/-- The idle timer of the state in force has run out with no command outstanding (R111). -/
def execAutonomousTransition (s : State) : Res :=
  .next (
    let cur := s.rdN Reg.status_CUR_PS 0
    match s.host.apst with
    | some l =>
      match l[cur]? with
      | some (t, _) =>
        if (t = 3 ∨ t = 4) ∧ cur < t ∧ s.rdB Reg.status_PS_BUSY 0 = false ∧ s.host.cmds.all (fun c => c.admin && c.sqe.opc == 0xC) then s.psEnter t else s
      | none => s
    | none => s)

/-- Heads on the ramp and the spindle stopped; offsets are stored first (R112, R432). -/
def State.spinDown (s : State) (h : Nat) : State :=
  if s.up h then
    let s := [2 * h, 2 * h + 1].foldl (fun s n =>
      if s.actExists n then ((s.storeOffsets n true).park n).rampReached n else s) s
    let s := (s.spinStop h).spinState h 0
    [2 * h, 2 * h + 1].foldl (fun s n => if s.actExists n then s.updAct n (fun a => { a with holding := true }) else s) s
  else s

/-- The islands PS4 clock-gates (R111): Culm, the Granary, the Tiller quadrants and the Thresher. -/
def ps4Gated : BitVec 18 := BitVec.ofNat 18 (2 ^ 2 + 2 ^ 7 + 2 ^ 12 + 2 ^ 13 + 2 ^ 14 + 2 ^ 15 + 2 ^ 16)

/-- What PS4 adds to PS3: NOR up to date, the Granary emptied, lanes unpowered, spin requests withdrawn, tokens returned, and islands
clock-gated. DEDUCED: log 104. -/
def State.ps4Extra (s : State) : State :=
  let s := s.granEmpty.norFlush
  let s := (List.range 32).foldl (fun s h => if s.up h then s.linkOff h else s) s
  let s : State := { s with spin := [], spinWait := [] }
  { (s.withdrawReqs (fun _ => true)).giveAll (fun _ => true) with gated := ps4Gated }

/-- PS3 or PS4 is entered once the buffer is on the media and, for PS4, no Granary slot is busy (R111, R112, R413). -/
def execPowerStateEntryDone (s : State) : Res :=
  .next (
    let cur := s.rdN Reg.status_CUR_PS 0
    let t := s.rdN Reg.status_TGT_PS 0
    if s.rdB Reg.status_PS_BUSY 0 = false ∨ t < 3 then s
    else if s.undrained ∨ (t = 4 ∧ s.gran.queue ≠ []) then s
    else
      let s := (List.range 32).foldl (fun s h => s.spinDown h) s
      let s := if t = 4 ∧ cur ≠ 4 then s.ps4Extra else s
      let s := (s.wrN Reg.status_CUR_PS 0 t).wr Reg.status_PS_BUSY 0 0
      s.audit 5 .powerState noInst [cur, t])

/-- A return is over once no actuator's commands are held for it. -/
def State.psSettle (s : State) : State :=
  if s.pwr.returnAt.isSome ∧ ((List.range 64).all (fun n => !(s.actExists n) || !((s.act n).holding) || !(s.bound (n / 2)))) then
    let t := s.rdN Reg.status_TGT_PS 0
    let cur := s.rdN Reg.status_CUR_PS 0
    let s := (s.wrN Reg.status_CUR_PS 0 t).wr Reg.status_PS_BUSY 0 0
    let s : State := { s with pwr := { s.pwr with returnAt := none } }
    let s := s.audit 5 .powerState noInst [cur, t]
    if t = 2 then s.ps2Enter else s
  else s

/-- 60 s of a return without this actuator (R112). -/
def execPowerStateReturnTimeout (n : Act) (s : State) : Res :=
  .next (
    if s.pwr.returnAt.isSome ∧ (s.act n).holding then
      let s := (s.updAct n (fun a => { a with holding := false })).failActs n stNotReady
      (s.audit 5 .powerReturn n [n]).psSettle
    else s)

/-- In PS2: the loaded side's queue is empty and the parked side has work, or has waited 500 ms (R113). -/
def execPs2SideSwitch (h : Hda) (waited : Bool) (s : State) : Res :=
  .next (
    let b := s.pwr.sideB.getLsbD h
    let loaded := 2 * h.val + (if b then 1 else 0)
    let other := 2 * h.val + (if b then 0 else 1)
    if s.rdN Reg.status_CUR_PS 0 = 2 ∧ s.actExists loaded ∧ s.actExists other ∧ s.up h
        ∧ (waited ∨ ((s.act loaded).mq = [] ∧ (s.act other).mq ≠ [])) then
      let s := s.park loaded
      { s with pwr := { s.pwr with sideB := s.pwr.sideB ^^^ hdaMask h } }
    else s)

/-! ### Spin-up and readiness (R104, R105) -/

/-- The first group that has not started starts once its token is held and 2 s have passed since the group before it. An HDA that is
not UP or whose SAFE_n is low stays as it is (R326). -/
def execSpinUpGroupStart (s : State) : Res :=
  .next (
    match s.spin.find? (fun g => !g.started) with
    | some g =>
      if g.token ∧ s.spinSpaced then
        let s : State := { s with
          spin := s.spin.map (fun x => if x = g then { x with started := true } else x), spinLast := some s.alm.us64.toNat }
        let s := g.hdas.foldl (fun s h =>
          let st := s.rdN Reg.spindle_SPIN_STATE h
          if (st = 0 ∨ st = 9 ∨ st = 10) ∧ s.up h ∧ s.safeN.getLsbD h then s.spinStart h else s) s
        s.spinRelease.spinAsk
      else s
    | none => s)

/-- The lowest offset of [lo, hi) at which the probe fails, hi where none does, by binary search (R377). -/
def probeSearch (erased : List Nat) (lo hi : Nat) : Nat → Nat
  | 0 => lo
  | fuel + 1 =>
    if hi ≤ lo then lo
    else
      let mid := (lo + hi) / 2
      if erased.contains mid then probeSearch erased lo mid fuel else probeSearch erased (mid + 1) hi fuel

/-- A zone from its map (R377): the state, and the MWP of a zone that a scan found short of its capacity. -/
def scanZone (map : ZoneMapRead) (scans : List ScanObs) (z m : Nat) : ZoneSt × Option Nat :=
  let empty (m used : Nat) : ZoneSt := ⟨.empty, 0, 0, m, m, used, false, 0⟩
  let full : ZoneSt := ⟨.full, 65408, 65408, m, m, 65536, false, 0⟩
  let closed (p : Nat) : ZoneSt := ⟨.closed, p, p, m, m, 65536, false, 0⟩
  match m with
  | 0 => (empty 0 0, none)
  | 1 => (empty 1 65536, none)
  | 3 => (full, none)
  | _ =>
    if map.clean then
      let p := (map.pointers.lookup z).getD 0
      (if 65408 ≤ p then full else closed p, none)
    else
      let x := (scans.find? (fun x => x.zone == z)).getD ⟨z, [], false⟩
      let o := probeSearch x.erased 0 65408 17
      let p := if x.torn then o - 1 else o
      if 65408 ≤ o then (full, none)
      else if p = 0 then (⟨.empty, 0, 0, 1, m, 65536, false, 0⟩, some 0)
      else (closed p, some p)

/-- The newer of two progress records (R383). -/
def laterProgress (a b : Option Progress) : Option Progress :=
  match a, b with
  | some x, some y => if x.seq < y.seq then some y else some x
  | none, b => b
  | a, none => a

/-- A sanitize in progress has not yet ended a unit of the side, whose media keys it replaces first (R381, R382). -/
def State.sanOwes (s : State) (n : Nat) : Bool :=
  match (s.led n).progress with | some p => p.action != 3 && p.status == 1 && p.done == 0 | none => false

/-- The media keys of a side's kind 4 generation come into Husk and the inline key slots, unless Husk holds one of a later KEY_GEN (R68, R69,
R148). A side that a sanitize has still to rekey gets a new key in place of one it reads (R382). -/
def State.readKeys (s : State) (n : Nat) (es : List (List Byte)) : State :=
  let own := es.filter (fun b => le32 b 0 == zonedNs n || le32 b 0 == convNs n)
  let s := own.foldl (fun (s : State) b =>
    let id := le32 b 0
    let known (s : State) : State := s.updHusk (fun h => { h with keyGen := assocSet h.keyGen id (le32 b 4) })
    if le32 b 4 ≤ (s.husk.keyGen.lookup id).getD 0 then s
    else if s.sanOwes n then ((known s).keyDestroy id).keyNew id
    else
      match Config.keyUnwrap (s.husk.wrapKey.getD 0) ((b.drop 8).take 72) with
      | some k => (known s).updHusk (fun h => { h with wrapped := assocSet h.wrapped id k })
      | none => s) s
  s.keysOf n

/-- The ledger of a side as it reads: for each kind the generation of R149, the zones it gives, and the lost tail of each zone scanned (R105,
R377, R378, R383). DESIGN CHOICE: log 105. -/
def State.readLedger (s : State) (n : Nat) (obs : LedgerObs) : State :=
  match s.sideDesc n with
  | none => s
  | some d =>
    let take (k : Nat) : Nat × List (Nat × List (List Byte)) := (ledgerTake (ledgerHits d (sideOf n) k obs.sectors)).getD (0, [])
    let remap := (entriesOf 16 (take 1).2).map RemapEnt.parse
    let lost := (entriesOf 24 (take 2).2).map LostEnt.parse
    let map := zoneMapRead (take 3).2
    let next := ((remap.filter (·.conv)).map (fun r => r.spare + 1)).foldl max 0
    let p := laterProgress (s.led n).progress map.progress
    let s := s.updLed n (fun l => { l with
      remap := sortBy remapLe remap, lost := sortBy lostLe lost, lostShown := sortBy lostLe lost, zones := [], clean := map.clean, convNext := next, progress := p,
      gens := [1, 2, 3, 4].map (fun k => (take k).1),
      sectors := obs.sectors.foldl (fun a x => assocSet a (x.1 * 2 ^ 24 + x.2.1) x.2.2) l.sectors })
    let g (k : Nat) : Word := BitVec.ofNat 32 (take k).1
    let s := ((s.wr Reg.poolAct_REMAP_GEN n (g 1)).wr Reg.poolAct_LOST_GEN n (g 2)).wr Reg.zone_ZMAP_GEN n (g 3)
    let s := (s.wrN Reg.poolAct_REMAP_ENTRIES n remap.length).wrN Reg.poolAct_LOST_RANGES n lost.length
    let s := s.wrN Reg.poolAct_CONV_SPARE_FREE n (d.convSpares - next)
    let s := s.wrB Reg.zone_CLEAN n map.clean
    let s : State := match p with
      | some x => if x.status = 1 ∧ x.action ≠ 3 ∧ s.host.sanRun = none then s.updHost (fun h => { h with sanRun := some x.action }) else s
      | none => s
    let cause : Nat := if s.rdN Reg.status_CAUSE 0 = 2 ∧ s.rdB Reg.status_DRAIN_INCOMPLETE 0 then 3 else 1
    let s := map.states.foldl (fun s zm =>
      let (st, short) := scanZone map obs.scans zm.1 zm.2
      -- the spares that the durable generation records follow a Full zone's last LBA (R252)
      let spares := (remap.filter (fun r => !r.conv && zoneOf r.lba == zm.1)).length
      let st : ZoneSt := if st.cond = .full then { st with mwp := 65408 + spares } else st
      let s := s.setZone n zm.1 (fun _ => st)
      match short with
      | some p =>
        let s := if p = 0 then s.stage n 3 else s
        let s := s.lostAdd n false (zm.1 * 65536 + p) (65408 - p) cause
        (s.updLed n (fun l => { l with zoneEvents := l.zoneEvents ++ [zm.1] })).stage n 3
      | none => s) s
    let s := ((s.wr Reg.zone_SCAN_LEFT n 0).zoneRefresh n).sanShow n
    (s.readKeys n (entriesOf 88 (take 4).2)).updAct n (fun a => { a with ledgerRead := true })

/-- Calibration records of kinds 2 to 5; with kinds 2 and 3 valid the side needs no calibration run to become ready (R433). -/
def State.readCal (s : State) (n : Nat) (obs : LedgerObs) : State :=
  let s := [2, 3, 4, 5].foldl (fun s k => s.calLoad n k (obs.cal.getD (k - 2) ([], []))) s
  s.updAct n (fun a => { a with calValid := !(s.thm.runs.any (fun r => r.act == n && (r.item == 6 || r.item == 7))) })

/-- An actuator's conditions, beside its records: spindle locked, heads loaded, nothing that keeps it from service (R105). -/
def State.canServe (s : State) (n : Nat) : Bool :=
  let h := n / 2
  s.actExists n && s.bound h && s.up h && s.rdB Reg.spindle_LOCKED h && !(s.act n).headsOn && s.rdN Reg.demod_STATE n == 2
    && s.rdN Reg.dis_STATE n == 0 && s.rdN Reg.dis_STATE (64 + h) == 0 && s.reactAct n < 2
    && (s.rdN Reg.status_CUR_PS 0 != 2 || s.pwr.sideB.getLsbD h == (n % 2 == 1) || !(s.actExists (4 * h + 1 - n)))

def execNamespaceReady (n : Act) (ledger : LedgerObs) (s : State) : Res :=
  .next (
    if s.canServe n = false then s
    else
      let s := if (s.act n).ledgerRead then s else (s.readLedger n ledger).readCal n ledger
      -- a side that a crypto erase has still to reach has its new kind 4 generation first (R382)
      if (s.act n).calValid ∧ !(s.sanOwes n && (s.led n).staged.getD 3 false) then
        (s.updAct n (fun a => { a with ready := true, holding := false })).psSettle
      else s)

end Sys2Proof.Machine
end

