-- ==== Sys2Proof/Machine/Orrery.lean ====
section
/-!
DEFINITION. Machine/Orrery.lean: the commands of 19_orrery_fabric.md. Messages, tokens and the ledger are Machine/Fabric.lean.
-/

namespace Sys2Proof.Machine

/-! ### Receiving (R464, R469) -/

/-- What a receiver does with a message of a type before its body: form, copy, destination and epoch. `follow`: the standby takes it whatever
its destination (R476). `anyEpoch`: HEARTBEAT, CLAIM and JOIN. A message from a member ends its absence (R475). -/
def State.orrTake (s : State) (h : OrrHdr) (typ : Nat) (bytes : List Byte) (anyEpoch : Bool) (body : State → State) (follow : Bool := false) : State :=
  let pair := (h.serial.toNat, h.seq.toNat)
  if s.orr.stage = 0 ∨ orrFormOk h typ bytes = false ∨ s.orr.seen.contains pair then s
  else
    let s := s.updOrr (fun o => { o with seen := o.seen ++ [pair], hiEpoch := max o.hiEpoch h.epoch.toNat })
    let mine := h.dstId == 0xFFFF || (s.memberId != noMember && h.dstId.toNat == s.memberId)
      || (follow && s.rdN Reg.orr_ROLE 0 == 2)
    if mine = false ∨ (anyEpoch = false ∧ h.epoch.toNat < s.rdN Reg.orr_MGR_EPOCH 0) then s
    else
      (body s).updOrr (fun o => { o with
        members := o.members.map (fun m => if m.serial = h.serial.toNat then { m with absent := false } else m) })

/-- The device keeps a ledger: the manager its own, the standby the one it follows (R474, R476). DEDUCED: log 110. -/
def State.keepsLedger (s : State) : Bool := 2 ≤ s.rdN Reg.orr_ROLE 0

/-- The ledger's entry for a sender; one is made for a member it does not show yet. DEDUCED: log 110. -/
def State.ledgerOf (s : State) (h : OrrHdr) : State :=
  if s.orr.members.any (fun m => m.id == h.srcId.toNat) then s
  else
    let c := s.orr.claims.find? (fun c => c.2 == h.serial.toNat)
    let m : Member := ⟨h.srcId.toNat, h.serial.toNat, c.isSome, (match c with | some x => x.1 | none => 0), 0, 0, [], false⟩
    s.updOrr (fun o => { o with members := o.members ++ [m] })

/-- A queued request may fit after the ledger changed. -/
def State.regrant (s : State) : State := s.orrRefresh.grant (s.orr.queue.length + 1)

/-! ### What a device sends of itself -/

def State.mgrDst (s : State) : Nat := s.rdN Reg.orr_MGR_ID 0

/-- DEDUCED: log 82. -/
def State.eligible (s : State) : Bool :=
  match s.rdN Reg.orr_ROLE_SRC 0 with | 0 => s.rdB Reg.orr_STRAP 0 | 2 => true | _ => false

/-- JOIN (R470), repeated until JOIN_ACK. -/
def State.sendJoin (s : State) : State :=
  let s := s.updOrr (fun o => { o with joinPend := true, joinFull := false })
  s.orrSend 0x03 0xFFFF (joinBody s.eligible (s.rdN Reg.orr_PRIO 0) (s.rdN Reg.status_PORT_DECL 0))

def State.sendHeartbeat (s : State) : State :=
  s.orrSend 0x01 0xFFFF (heartbeatBody s.standbyPick s.rackLimit s.committed s.orr.members.length)

/-- TOKEN_STATE: the tokens held, the standing token first, at most 16. -/
def State.sendTokenState (s : State) : State :=
  let t := (s.orr.tokens.filter (fun t => !t.spin) ++ s.orr.tokens.filter (fun t => t.spin)).take 16
  s.orrSend 0x14 s.mgrDst (tokenStateBody (t.map (fun t => (t.id, t.watts))))

/-- A transfer ends, its staged data is not used (R479). -/
def State.dropXfer (s : State) : State := s.updOrr (fun o => { o with xfer := none })

/-- Become the manager of an epoch: its own requests pass through its queue, its returns apply (R466, R472, R476). -/
def State.becomeManager (s : State) (epoch : Nat) : State :=
  let s := s.wrN Reg.orr_MGR_EPOCH 0 epoch
  let s := s.updOrr (fun o => { o with hiEpoch := max o.hiEpoch epoch, stage := 3, mgrLost := false, joinPend := false, joinFull := false, returns := [] })
  let used := s.orr.members.map (·.id)
  let id := if s.memberId = noMember then ((List.range 1000).find? (fun i => !(used.contains i))).getD 0 else s.memberId
  let s := ((s.wrN Reg.orr_ROLE 0 3).wrN Reg.orr_MEMBER_ID 0 id).wrN Reg.orr_MGR_ID 0 id
  let me : Member := ⟨id, s.husk.serial.toNat, s.eligible, s.rdN Reg.orr_PRIO 0, s.rdN Reg.status_PORT_DECL 0, s.rdN Reg.orr_STEADY 0,
    s.orr.tokens, false⟩
  let top := (s.orr.tokens.map (·.id)).foldl max 0
  let s := s.updOrr (fun o => { o with
    members := o.members.filter (fun m => m.id != id) ++ [me], nextToken := max o.nextToken (top + 1), queue := [] })
  let s := s.orrRefresh.sendHeartbeat
  s.orr.reqs.foldl (fun s r => s.enqueue { r with member := id }) s

/-! ### Election and membership (R465 to R467, R471, R476, R477) -/

/-- The end of a listening second: of the first, an eligible device claims; of the second, the best claim becomes manager. DEDUCED: log 111. -/
def execElectionListenEnd (s : State) : Res :=
  .next (
    if s.orr.stage = 1 then
      if s.eligible then
        (s.updOrr (fun o => { o with stage := 2 })).orrSend 0x02 0xFFFF (claimBody (s.rdN Reg.orr_PRIO 0))
      else s
    else if s.orr.stage = 2 then
      let me := s.husk.serial.toNat
      let beaten := s.orr.claims.any (fun c => ranks c.1 c.2 (s.rdN Reg.orr_PRIO 0) me)
      if beaten then (s.updOrr (fun o => { o with stage := 3 })).sendJoin
      else (s.becomeManager ((s.orr.hiEpoch + 1) % 2 ^ 32)).askStanding
    else s)

def execClaim (hdr : OrrHdr) (prio : Byte) (s : State) : Res :=
  .next (s.orrTake hdr 0x02 (claimBody prio.toNat) true (fun s => s.updOrr (fun o => { o with
    claims := o.claims.filter (fun c => c.2 != hdr.serial.toNat) ++ [(prio.toNat, hdr.serial.toNat)] })))

/-- Follow a HEARTBEAT's manager: its ID, the standby it names, and the own role by that name. -/
def State.followManager (s : State) (mgr standby : Nat) : State :=
  let s := (s.wrN Reg.orr_MGR_ID 0 mgr).wrN Reg.orr_STANDBY_ID 0 standby
  let s := s.updOrr (fun o => { o with mgrLost := false })
  if s.memberId = noMember ∨ s.rdN Reg.orr_ROLE 0 = 0 then s
  else s.wrN Reg.orr_ROLE 0 (if standby = s.memberId then 2 else 1)

/-- Step down: grants stop, the ledger goes, and the device joins as a member that still holds its tokens (R477, R478). DEDUCED: log 111. -/
def State.stepDown (s : State) (epoch mgr standby : Nat) : State :=
  let s := s.updOrr (fun o => { o with members := [], queue := [], holdGrants := false, needs := [] })
  let s := ((s.wrN Reg.orr_MEMBERS 0 0).wrN Reg.orr_COMMITTED 0 0).wrN Reg.orr_ROLE 0 1
  ((s.wrN Reg.orr_MGR_EPOCH 0 epoch).dropXfer.followManager mgr standby).sendJoin.sendTokenState

def execHeartbeat (hdr : OrrHdr) (msg : HeartbeatMsg) (s : State) : Res :=
  .next (s.orrTake hdr 0x01 (heartbeatBody msg.standbyId.toNat msg.limit.toNat msg.committed.toNat msg.members.toNat) true (fun s =>
    let e := hdr.epoch.toNat
    let own := s.rdN Reg.orr_MGR_EPOCH 0
    let mgr := hdr.srcId.toNat
    let sb := msg.standbyId.toNat
    if s.orr.stage ≤ 2 then
      ((s.wrN Reg.orr_MGR_EPOCH 0 e).updOrr (fun o => { o with stage := 3 })).followManager mgr sb |>.sendJoin
    else if s.isManager then (if own < e then s.stepDown e mgr sb else s)
    else if own < e then
      let s := ((s.wrN Reg.orr_MGR_EPOCH 0 e).dropXfer).followManager mgr sb
      if s.memberId = noMember then s else s.sendTokenState
    else if own = e then s.followManager mgr sb
    else s))

def execHeartbeatSend (s : State) : Res := .next (if s.isManager then s.orrRefresh.sendHeartbeat else s)

/-- The manager's answer to a JOIN: the ID its serial holds, else the lowest free one, else full. The last commitment of an absent member
ends with its JOIN (R475). DEDUCED: log 113. -/
def execJoin (hdr : OrrHdr) (eligible : Bool) (prio : Byte) (portDecl : Word) (s : State) : Res :=
  .next (s.orrTake hdr 0x03 (joinBody eligible prio.toNat portDecl.toNat) true (fun s =>
    if s.isManager = false then s
    else
      let serial := hdr.serial.toNat
      let used := s.orr.members.map (·.id)
      let answer (s : State) (id result : Nat) : State := s.orrSend 0x04 0xFFFF (joinAckBody id result)
      match s.orr.members.find? (fun m => m.serial == serial), (List.range 1000).find? (fun i => !(used.contains i)) with
      | some m, _ =>
        let s := s.updMember m.id (fun m => { m with
          eligible := eligible, prio := prio.toNat, ports := portDecl.toNat, tokens := [],
          steady := if m.absent then 0 else m.steady, absent := false })
        (answer s.orrRefresh m.id 0).regrant
      | none, some i =>
        let m : Member := ⟨i, serial, eligible, prio.toNat, portDecl.toNat, 0, [], false⟩
        answer (s.updOrr (fun o => { o with members := o.members ++ [m] })).orrRefresh i 0
      | none, none => answer s noMember 1))

/-- DEDUCED: log 81. -/
def execJoinAck (hdr : OrrHdr) (memberId : BitVec 16) (result : Byte) (s : State) : Res :=
  .next (s.orrTake hdr 0x04 (joinAckBody memberId.toNat result.toNat) false (fun s =>
    if s.orr.joinPend = false then s
    else if result = 0 then
      let s := s.updOrr (fun o => { o with joinPend := false, joinFull := false })
      let s := (s.wrN Reg.orr_MEMBER_ID 0 memberId.toNat).wrN Reg.orr_MGR_ID 0 hdr.srcId.toNat
      let s := s.wrN Reg.orr_ROLE 0 (if s.rdN Reg.orr_STANDBY_ID 0 = s.memberId then 2 else 1)
      s.askStanding
    else s.updOrr (fun o => { o with joinPend := false, joinFull := true })))

/-- 10 s after RESULT 1. -/
def execJoinRetry (s : State) : Res := .next (if s.orr.joinFull then s.sendJoin else s)

/-- 250 ms without an answer: JOIN, TOKEN_REQ and TOKEN_RETURN go again (R471). -/
def execRequestResend (s : State) : Res :=
  .next (
    let s := if s.orr.joinPend then s.sendJoin else s
    if s.isManager ∨ s.hasManager = false ∨ s.memberId = noMember then s
    else
      let s := s.orr.reqs.foldl (fun s r => s.orrSend 0x10 s.mgrDst (tokenReqBody r.reqId r.spin r.group r.watts)) s
      s.orr.returns.foldl (fun s i => s.orrSend 0x12 s.mgrDst (tokenReturnBody i)) s)

/-- 1 s without a HEARTBEAT of the adopted epoch: the standby takes over, every other member goes on with what it holds. -/
def execManagerLost (s : State) : Res :=
  .next (
    let role := s.rdN Reg.orr_ROLE 0
    if (role = 1 ∨ role = 2) ∧ s.orr.mgrLost = false then
      let s := (s.bump Reg.orr_HB_MISS_CNT 0).audit 5 .orrery noInst [role, s.rdN Reg.orr_MGR_EPOCH 0]
      if role = 2 then
        let s := (s.updOrr (fun o => { o with holdGrants := true })).dropXfer
        (s.becomeManager ((s.rdN Reg.orr_MGR_EPOCH 0 + 1) % 2 ^ 32)).bump Reg.orr_TAKEOVER_CNT 0
      else s.updOrr (fun o => { o with mgrLost := true })
    else s)

/-- 2 s after a takeover (R476). -/
def execTakeoverHoldEnd (s : State) : Res :=
  .next (if s.orr.holdGrants then (s.updOrr (fun o => { o with holdGrants := false })).regrant else s)

/-- 10 s without a message, and then ABSENT_HOLD: the member and its waiting requests go (R475). DEDUCED: log 112. -/
def execMemberAbsent (id : Nat) (holdPassed : Bool) (s : State) : Res :=
  .next (
    if s.isManager = false ∨ id = s.memberId then s
    else if holdPassed = false then s.updMember id (fun m => { m with absent := true })
    else if s.orr.members.any (fun m => m.id == id && m.absent) then
      (s.updOrr (fun o => { o with
        members := o.members.filter (fun m => m.id != id), queue := o.queue.filter (fun r => r.member != id) })).regrant
    else s)

/-! ### Tokens (R472 to R474, R476, R482) -/

/-- A request at the manager; one already granted gets its grant again. -/
def execTokenReq (hdr : OrrHdr) (msg : TokenReqMsg) (s : State) : Res :=
  .next (s.orrTake hdr 0x10 (tokenReqBody msg.reqId.toNat msg.spin msg.group.toNat msg.watts.toNat) false (fun s =>
    let id := hdr.srcId.toNat
    match s.isManager, s.orr.members.find? (fun m => m.id == id) with
    | true, some m =>
      match m.tokens.find? (fun t => t.reqId == msg.reqId.toNat) with
      | some t => s.orrSend 0x11 id (tokenGrantBody t.reqId t.id t.watts)
      | none => s.enqueue ⟨id, msg.reqId.toNat, msg.spin, msg.group.toNat, msg.watts.toNat, false⟩
    | _, _ => s))

/-- A grant: to this device, or one the standby follows. A grant of a request no longer needed goes back at once (R482). -/
def execTokenGrant (hdr : OrrHdr) (reqId : Word) (tokenId : Word) (watts : Word) (s : State) : Res :=
  .next (s.orrTake hdr 0x11 (tokenGrantBody reqId.toNat tokenId.toNat watts.toNat) false (follow := true) (fun s =>
    let id := tokenId.toNat
    let dst := hdr.dstId.toNat
    if s.isManager then s
    else if dst ≠ s.memberId ∧ dst ≠ 0xFFFF then
      let add (m : Member) : Member :=
        { m with tokens := m.tokens.filter (fun t => t.id != id) ++ [⟨reqId.toNat, id, m.tokens.any (fun t => !t.spin), watts.toNat⟩] }
      (s.updMember dst add).updOrr (fun o => { o with nextToken := max o.nextToken (id + 1) })
    else if s.orr.reqs.any (fun r => r.reqId == reqId.toNat) then s.tokenTake reqId.toNat id watts.toNat
    else if s.orr.tokens.any (fun t => t.id == id) ∨ s.orr.returns.contains id then s
    else s.tokenGive id))

/-- A return at the manager, or followed by the standby. -/
def execTokenReturn (hdr : OrrHdr) (tokenId : Word) (s : State) : Res :=
  .next (s.orrTake hdr 0x12 (tokenReturnBody tokenId.toNat) false (follow := true) (fun s =>
    if s.keepsLedger then
      let s := s.updMember hdr.srcId.toNat (fun m => { m with tokens := m.tokens.filter (fun t => t.id != tokenId.toNat) })
      if s.isManager then (s.orrRefresh.orrSend 0x13 hdr.srcId.toNat (tokenReturnBody tokenId.toNat)).regrant else s
    else s))

def execReturnAck (hdr : OrrHdr) (tokenId : Word) (s : State) : Res :=
  .next (s.orrTake hdr 0x13 (tokenReturnBody tokenId.toNat) false (fun s =>
    (s.updOrr (fun o => { o with returns := o.returns.filter (fun i => i != tokenId.toNat) })).orrRefresh))

/-- The manager sets its ledger from a member's reply; the first entry is its standing token. DEDUCED: log 110. -/
def execTokenState (hdr : OrrHdr) (tokens : List (Word × Word)) (s : State) : Res :=
  .next (s.orrTake hdr 0x14 (tokenStateBody (tokens.map (fun t => (t.1.toNat, t.2.toNat)))) false (fun s =>
    if s.isManager = false then s
    else
      let l : List Token := (tokens.take 16).zipIdx.map (fun (x : (Word × Word) × Nat) => ⟨0, x.1.1.toNat, x.2 != 0, x.1.2.toNat⟩)
      let top := (l.map (·.id)).foldl max 0
      let s := (s.ledgerOf hdr).updMember hdr.srcId.toNat (fun m => { m with tokens := l })
      (s.updOrr (fun o => { o with nextToken := max o.nextToken (top + 1) })).regrant))

/-! ### Draw (R473) -/

/-- MP of CUR_PS (R111), in 0.1 W. -/
def psWatts (t : Nat) : Nat := match t with | 0 => 1500 | 1 => 1250 | 2 => 950 | 3 => 150 | _ => 40

/-- The spindle input of an HDA, 1.5 × (vd × id + vq × iq), averaged over the periods since the last DRAW, in 0.1 W. DEDUCED: log 183. -/
def State.spindleInput (s : State) (h : Nat) : Nat :=
  let x := s.spinSt h
  if x.wCnt = 0 then 0 else (10 * x.wSum / (Fix.one * x.wCnt)).toNat

/-- STEADY and TOTAL (R473). -/
def State.drawOf (s : State) : Nat × Nat :=
  let ups := ((List.range 32).filter s.up).length
  let onToken (h : Nat) : Bool := s.spin.any (fun g => g.token && g.hdas.contains h)
  let sum (p : Nat → Bool) : Nat := (((List.range 32).filter p).map s.spindleInput).foldl (· + ·) 0
  let steady := psWatts (s.rdN Reg.status_CUR_PS 0) + s.rdN Reg.orr_HDA_W 0 * ups + sum (fun h => !(onToken h))
  (steady, steady + sum onToken)

def execDrawSend (s : State) : Res :=
  .next (
    if s.memberId = noMember then s
    else
      let d := s.drawOf
      let s := (List.range 32).foldl (fun s h => if (s.spinSt h).wCnt = 0 then s else s.updSpin h (fun x => { x with wSum := 0, wCnt := 0 })) s
      let s := s.wrN Reg.orr_STEADY 0 d.1
      let s := s.orrSend 0x20 0xFFFF (drawBody d.1 d.2 (s.rdN Reg.status_CUR_PS 0) ((List.range 32).filter s.up).length)
      if s.isManager then (s.updMember s.memberId (fun m => { m with steady := d.1 })).regrant else s)

/-- A member's draw, at the manager and at the standby. -/
def execDraw (hdr : OrrHdr) (steady : Word) (total : Word) (curPs : Byte) (portsUp : Byte) (s : State) : Res :=
  .next (s.orrTake hdr 0x20 (drawBody steady.toNat total.toNat curPs.toNat portsUp.toNat) false (follow := true) (fun s =>
    if s.keepsLedger then
      let s := if s.isManager then s else s.ledgerOf hdr
      let s := s.updMember hdr.srcId.toNat (fun m => { m with steady := steady.toNat })
      if s.isManager then s.regrant else s
    else s))

/-! ### Images (R479) -/

/-- Where an object is staged: somewhere in the first half of partition 4. DESIGN CHOICE: log 35. -/
def State.imageBase (s : State) : Nat :=
  match s.str.part 4 with | some p => p.base + Config.stageOffset p.base % ((p.stop - p.base) / 2 + 1) | none => 0

/-- First chunk not received, or 0xFFFFFFFF. -/
def Xfer.missing (x : Xfer) : Nat :=
  ((List.range ((x.length + 1023) / 1024)).find? (fun i => !(x.got.contains i))).getD 0xFFFFFFFF

def State.sendNeed (s : State) (x : Xfer) : State := s.orrSend 0x32 s.mgrDst (imageNeedBody x.id x.missing)

/-- A complete object goes to Husk as UPDATE, and its status to the manager; a halted Husk takes nothing (R443). DEDUCED: log 114. -/
def State.imageDone (s : State) (x : Xfer) (norOk : Bool) : State :=
  if s.husk.halted then s
  else
    let r := (s.sendNeed x).huskUpdate x.target s.imageBase x.length norOk
    r.1.dropXfer.orrSend 0x33 s.mgrDst (imageResultBody x.id r.2.1 r.2.2)

/-- An offer replaces a transfer that still runs. DEDUCED: log 114. -/
def execImageOffer (hdr : OrrHdr) (xferId : Word) (target : Byte) (length : Word) (s : State) : Res :=
  .next (s.orrTake hdr 0x30 (imageOfferBody xferId.toNat target.toNat length.toNat) false (fun s =>
    let x : Xfer := ⟨xferId.toNat, target.toNat, length.toNat, []⟩
    let s := s.updOrr (fun o => { o with xfer := some x })
    if x.length = 0 then s.imageDone x true else s))

def execImageChunk (hdr : OrrHdr) (xferId : Word) (index : Word) (data : List Byte) (norOk : Bool) (s : State) : Res :=
  .next (s.orrTake hdr 0x31 (imageChunkBody xferId.toNat index.toNat data) false (fun s =>
    match s.orr.xfer with
    | none => s
    | some x =>
      let i := index.toNat
      let want := min 1024 (x.length - 1024 * i)
      if x.id ≠ xferId.toNat ∨ x.length ≤ 1024 * i ∨ data.length < want then s
      else
        let a := s.imageBase + 1024 * i
        let s := if s.inPart 4 a want then s.dmaWrite idMgmt false a (data.take want) else s
        let x : Xfer := { x with got := x.got.filter (fun j => j != i) ++ [i] }
        let s := s.updOrr (fun o => { o with xfer := some x })
        if x.missing = 0xFFFFFFFF then s.imageDone x norOk else s))

def execImageNeedSend (s : State) : Res :=
  .next (match s.orr.xfer with | some x => s.sendNeed x | none => s)

/-- The manager learns where to resume. DEDUCED: log 134. -/
def execImageNeed (hdr : OrrHdr) (xferId : Word) (firstMissing : Word) (s : State) : Res :=
  .next (s.orrTake hdr 0x32 (imageNeedBody xferId.toNat firstMissing.toNat) false (fun s =>
    if s.isManager then s.updOrr (fun o => { o with
      needs := o.needs.filter (fun n => n.1 != hdr.srcId.toNat) ++ [(hdr.srcId.toNat, xferId.toNat, firstMissing.toNat)] })
    else s))

/-- DEDUCED: log 134. -/
def execImageResult (hdr : OrrHdr) (xferId : Word) (status : Byte) (step : Byte) (s : State) : Res :=
  .next (s.orrTake hdr 0x33 (imageResultBody xferId.toNat status.toNat step.toNat) false (fun s =>
    if s.isManager then s.updOrr (fun o => { o with
      needs := o.needs.filter (fun n => n.1 != hdr.srcId.toNat || n.2.1 != xferId.toNat),
      results := o.results ++ [(hdr.srcId.toNat, xferId.toNat, status.toNat, step.toNat)] })
    else s))

/-- 5 s without a chunk. -/
def execImageTransferTimeout (s : State) : Res := .next s.dropXfer

/-! ### Audit pulls (R480) -/

def execAuditPull (hdr : OrrHdr) (fromSeq : BitVec 64) (s : State) : Res :=
  .next (s.orrTake hdr 0x40 (toLe 8 fromSeq.toNat) false (fun s =>
    let s := s.snapOpen 2
    s.updOrr (fun o => { o with pull := some (max fromSeq.toNat (s.snap 2).first) })))

/-- One page of up to 16 records; the last closes the handle, and so does a break. DEDUCED: log 115. -/
def execAuditPageSend (s : State) : Res :=
  .next (
    match s.orr.pull with
    | none => s
    | some q =>
      let p := s.snap 2
      let finish (s : State) : State := (s.snapClose 2).updOrr (fun o => { o with pull := none })
      let page (s : State) (flags : Nat) (l : List Rec) : State :=
        s.orrSend 0x41 s.mgrDst (auditPageBody flags (l.map (fun r => r.bytes 2)))
      if p.broken ∨ p.isOpen = false then finish (page s 2 [])
      else
        let l := (s.alm.audit.filter (fun r => q ≤ r.seq && r.seq ≤ p.last)).take 16
        let next := match l.getLast? with | some r => r.seq + 1 | none => p.last + 1
        let s := s.updOrr (fun o => { o with pull := some next })
        if p.last < next then finish (page s 1 l) else page s 0 l)

/-- The manager collects the records of a page. DEDUCED: log 134. -/
def execAuditPage (hdr : OrrHdr) (last : Bool) (broken : Bool) (records : List (List Byte)) (s : State) : Res :=
  .next (s.orrTake hdr 0x41 (auditPageBody ((if last then 1 else 0) + (if broken then 2 else 0)) records) false (fun s =>
    let id := hdr.srcId.toNat
    if s.isManager then s.updOrr (fun o => { o with pages := assocSet o.pages id ((o.pages.lookup id).getD [] ++ records.take 16) }) else s))

/-! ### Calibration windows (R481) -/

def execCalWindow (hdr : OrrHdr) (member : BitVec 16) (startMs : Word) (lengthMs : Word) (s : State) : Res :=
  .next (s.orrTake hdr 0x50 (calWindowBody member.toNat startMs.toNat lengthMs.toNat) false (fun s =>
    if s.rdB Reg.orr_CAL_GATE 0 ∧ member.toNat = s.memberId then
      let t0 : Nat := s.alm.us64.toNat + 1000 * startMs.toNat
      s.updOrr (fun o => { o with window := some (t0, t0 + 1000 * lengthMs.toNat) })
    else s))

/-! ### Time (R468) and ports (R464) -/

/-- PTP_LOCK changes with a record. -/
def State.setPtpLock (s : State) (v : Bool) : State :=
  if s.rdB Reg.orr_PTP_LOCK 0 = v then s
  else (s.wrB Reg.orr_PTP_LOCK 0 v).audit 6 (if v then .ptpLock else .ptpLoss) noInst []

/-- A slave clock: not the manager, unless it is a boundary clock. DEDUCED: log 116. -/
def State.ptpSlave (s : State) : Bool := !s.isManager || s.rdB Reg.orr_PTP_BC 0

/-- PTP_OFS holds the offset, at its ends where the offset is beyond them. DEDUCED: log 116. -/
def execPtpSync (offsetNs : Int) (seconds : BitVec 48) (nanoseconds : Word) (s : State) : Res :=
  .next (
    if s.orr.stage = 0 ∨ s.ptpSlave = false then s
    else
      let s := s.wrInt Reg.orr_PTP_OFS 0 0 (max (-2 ^ 31) (min (2 ^ 31 - 1) offsetNs))
      let n := offsetNs.natAbs
      let s := s.updOrr (fun o => { o with
        ptp := (seconds.toNat, nanoseconds.toNat, s.alm.us64.toNat), ptpRun := if n ≤ 1000 then o.ptpRun + 1 else 0 })
      if 10000 < n then s.setPtpLock false else if 16 ≤ s.orr.ptpRun then s.setPtpLock true else s)

/-- 2 s without a Sync. -/
def execPtpSyncTimeout (s : State) : Res := .next ((s.updOrr (fun o => { o with ptpRun := 0 })).setPtpLock false)

/-- Every 125 ms the manager sends Sync on each port whose link is up. -/
def execPtpSyncInterval (s : State) : Res :=
  .next (
    if s.isManager then [0, 1].foldl (fun s p => if s.rdBit Reg.orr_PORT_UP 0 p then s.emit (.ptp p (s.rdN Reg.orr_PTP_DOMAIN 0)) else s) s else s)

def execOrreryPortUpChange (p : Fin 2) (up : Bool) (s : State) : Res := .next (s.wrBit Reg.orr_PORT_UP 0 p up)

end Sys2Proof.Machine
end

