-- ==== Sys2Proof/Machine/HostLogs.lean ====
section
/-!
DEFINITION. Machine/HostLogs.lean: Identify and Get Log Page (R332 to R337, R361 to R363, R384 and R387). Layouts that the rules leave
to NVMe are NVMe's (log 34); a byte that neither gives is a free value.
-/

namespace Sys2Proof.Machine

/-- `n` bytes nothing gives. -/
def State.openBytes (s : State) (n : Nat) : List Byte := (List.range n).map (Config.logByte s.fresh)

/-- `b` with `p` at an offset. -/
def patch (b : List Byte) (ofs : Nat) (p : List Byte) : List Byte := b.take ofs ++ p ++ b.drop (ofs + p.length)

def patches (b : List Byte) (l : List (Nat × List Byte)) : List Byte := l.foldl (fun b x => patch b x.1 x.2) b

def zeros (n : Nat) : List Byte := List.replicate n 0

/-- NSIDs as a list of words that fills `n` bytes. -/
def nsList (ids : List Nat) (n : Nat) : List Byte := (ids.flatMap (fun i => toLe 4 i) ++ zeros n).take n

/-! ### Identify (R334, R337) -/

/-- A power state descriptor (R111): MP in 0.01 W, not operational, ENLAT, EXLAT. -/
def psDesc (t : Nat) : List Byte :=
  let en := [0, 1000, 500000, 20000000, 21000000].getD t 0
  let ex := [0, 1000, 500000, 35000000, 40000000].getD t 0
  toLe 2 (10 * psWatts t) ++ toLe 1 0 ++ toLe 1 (if 3 ≤ t then 2 else 0) ++ toLe 4 en ++ toLe 4 ex ++ zeros 20

def State.identifyController (s : State) : List Byte :=
  patches (s.openBytes 4096) [
    (77, toLe 1 8), (78, toLe 2 1), (80, toLe 4 0x20000), (84, toLe 4 60000000), (88, toLe 4 30000000), (256, toLe 2 0x5E),
    (258, toLe 1 15), (259, toLe 1 15), (262, toLe 1 255), (263, toLe 1 4), (265, toLe 1 1), (316, toLe 2 1500),
    (328, toLe 4 0x20000005), (338, toLe 2 64), (340, toLe 2 64), (512, toLe 1 0x66), (513, toLe 1 0x44),
    (516, toLe 4 (if s.husk.variantH then 64 else 128)), (520, toLe 2 0xC8), (524, toLe 1 4), (525, toLe 1 7), (526, toLe 4 0),
    (2048, [0, 1, 2, 3, 4].flatMap psDesc)]

/-- Identify Namespace of an NSID that exists. -/
def State.identifyNamespace (s : State) (nsid : Nat) : List Byte :=
  let n := s.nsSize nsid
  let group := nsAct nsid + 1
  patches (zeros 4096) [(0, toLe 8 n ++ toLe 8 n ++ toLe 8 n), (100, toLe 2 group ++ toLe 2 group), (128, [0, 0, 12, 0])]

/-- Identify Namespace for the Zoned command set. -/
def identifyZoned : List Byte := patches (zeros 4096) [(4, toLe 4 255 ++ toLe 4 127), (2816, toLe 8 65536)]

/-- Namespace Identification Descriptors: the command set of the namespace. -/
def nsDescs (nsid : Nat) : List Byte := ([4, 1, 0, 0, (if nsIsConv nsid then 0 else 2)] ++ zeros 4096).take 4096

/-- The data of a CNS value; none where it is not supported. Inactive NSIDs read as zeros. PRESUMED: log 34. -/
def State.identifyData (s : State) (e : Sqe) : Option (List Byte) :=
  let cns := e.cdw10.toNat % 256
  let csi := e.cdw11.toNat / 16777216
  let id := e.nsid.toNat
  let ns (b : List Byte) (ok : Bool) : List Byte := if ok then b else zeros 4096
  let csiOf (i : Nat) : Nat := if nsIsConv i then 0 else 2
  let active := s.allNs.filter s.nsActive
  let alloc := s.allNs.filter s.nsExists
  let from_ (l : List Nat) : List Byte := nsList (l.filter (fun i => id < i)) 4096
  match cns with
  | 0x00 => some (ns (s.identifyNamespace id) (s.nsActive id))
  | 0x01 => some s.identifyController
  | 0x02 => some (from_ active)
  | 0x03 => some (ns (nsDescs id) (s.nsActive id))
  | 0x05 => if csi = 0 then some (zeros 4096) else if csi = 2 then some (ns identifyZoned (s.nsActive id && !(nsIsConv id))) else none
  | 0x06 => if csi = 0 then some (zeros 4096) else if csi = 2 then some (patch (zeros 4096) 0 [8]) else none
  | 0x07 => if csi = 0 ∨ csi = 2 then some (from_ (active.filter (fun i => csiOf i == csi))) else none
  | 0x10 => some (from_ alloc)
  | 0x11 => some (ns (s.identifyNamespace id) (s.nsExists id))
  | 0x12 => some (if s.nsActive id then patch (zeros 4096) 0 [1, 0, 1, 0] else zeros 4096)
  | 0x13 => some (if e.cdw10.toNat / 65536 ≤ 1 then patch (zeros 4096) 0 [1, 0, 1, 0] else zeros 4096)
  | 0x1A => if csi = 0 ∨ csi = 2 then some (from_ (alloc.filter (fun i => csiOf i == csi))) else none
  | 0x1B => if csi = 2 then some (ns identifyZoned (s.nsExists id && !(nsIsConv id))) else if csi = 0 then some (zeros 4096) else none
  | 0x1C => some (patch (zeros 4096) 0 [5])
  | _ => none

def execIdentify (slot : BitVec 16) (s : State) : Res :=
  .next (s.adminRow slot 6 (fun c s =>
    match s.identifyData c.sqe with
    | some b => ((s.emit (.hostData c.slot b)).tick).complete c.slot 0
    | none => s.complete c.slot stInvalidField))

/-! ### The health logs (R363) -/

/-- Percentage Used of an actuator: 100 × (AGING − 1.0) of its worst laser head, rounded down. -/
def State.percentUsed (s : State) (n : Nat) : Nat :=
  match s.desc (hdaOf n) with
  | some d => if d.assistType = 2 then 0 else
      ((List.range 10).map (fun k =>
        ((100 * (F32.val (s.rdAt Reg.wa_AGING n k) - 2 ^ 149)).fdiv (2 ^ 149)).toNat)).foldl max 0
  | none => 0

/-- Highest HDA temperature among some ports, in kelvin. -/
def State.topHda (s : State) (hs : List Nat) : Nat :=
  (((hs.filter s.hdaHas).map (fun h => (kelvin (s.rdInt Reg.therm_HDA_T 0 h)).toNat)).foldl max 0)

def State.jKelvin (s : State) : Nat := (kelvin (s.rdInt Reg.therm_J_TEMP 0 0)).toNat

/-- A temperature at or beyond its threshold (Critical Warning bit 1). -/
def State.tempWarn (s : State) (hs : List Nat) : Bool :=
  [(0, s.jKelvin), (1, s.jKelvin), (2, s.topHda hs)].any (fun x => decide (s.threshOf x.1 0 ≤ x.2) || decide (x.2 ≤ s.threshOf x.1 1))

/-- SMART / Health over some actuators. -/
def State.smart (s : State) (acts : List Nat) : List Byte :=
  let hs := (acts.map hdaOf).eraseDups
  let spare := (acts.map s.availSpare).foldl min 100
  let used := (acts.map s.percentUsed).foldl max 0
  let cw := (if spare < 10 then 1 else 0) + (if s.tempWarn hs then 2 else 0) + (if s.anyLatch then 4 else 0)
  patches (zeros 512) [
    (0, toLe 1 cw), (1, toLe 2 s.jKelvin), (3, toLe 1 spare), (4, toLe 1 10), (5, toLe 1 (min used 255)), (32, s.openBytes 80),
    (112, toLe 16 (s.rdN Reg.status_PWR_CYCLE 0)), (128, toLe 16 s.alm.hours), (144, toLe 16 s.host.unsafe_),
    (160, toLe 16 s.host.dataErrors), (176, toLe 16 s.host.errCount), (192, toLe 4 (s.host.warnMs.1 / 60000)),
    (196, toLe 4 (s.host.warnMs.2 / 60000)), (200, toLe 2 s.jKelvin), (202, toLe 2 (s.topHda hs))]

def State.liveActs (s : State) : List Nat := (List.range 64).filter s.actExists

/-- Endurance Group Information of actuator n. -/
def State.enduranceLog (s : State) (n : Nat) : List Byte :=
  let spare := s.availSpare n
  patches (zeros 512) [(0, toLe 1 (if spare < 10 then 1 else 0)), (3, toLe 1 spare), (4, toLe 1 10), (5, toLe 1 (min (s.percentUsed n) 255)),
    (32, s.openBytes 160)]

/-- Rotational Media Information of actuator n: its HDA's nominal speed, spin-ups and unloads. -/
def State.rotationalLog (s : State) (n : Nat) : List Byte :=
  let h := hdaOf n
  patches (s.openBytes 512) [(0, toLe 2 (n + 1)), (2, toLe 2 1), (4, toLe 2 (s.targetRpm h)), (6, toLe 2 0),
    (8, toLe 4 (s.spinSt h).ups), (16, toLe 4 (s.spinSt h).unloads), (24, zeros 488)]

/-! ### The other logs -/

def errBytes (e : ErrEnt) : List Byte :=
  toLe 8 e.n ++ toLe 2 e.sq ++ toLe 2 e.cid.toNat ++ toLe 2 (2 * e.status) ++ toLe 2 0 ++ toLe 8 e.lba ++ toLe 4 e.nsid ++ zeros 36

/-- Error Information: 256 entries, newest first. -/
def State.errorLog (s : State) : List Byte :=
  (((sortBy (fun (a b : ErrEnt) => decide (b.n ≤ a.n)) s.host.errs).take 256).flatMap errBytes ++ zeros 16384).take 16384

/-- Firmware Slot Information: AFI and, for a slot that holds an object, a revision the part writes. -/
def State.fwLog (s : State) : List Byte :=
  let rev (i : Nat) (b : List Byte) : Nat × List Byte :=
    (8 + 8 * i, if b = [] then zeros 8 else (List.range 8).map (fun j => Config.logByte s.fresh (8 * i + j)))
  patches (zeros 512) [(0, toLe 1 (s.rdN Reg.status_BUNDLE 0)), rev 0 s.husk.bundleA, rev 1 s.husk.bundleB, rev 2 s.husk.imageA, rev 3 s.husk.imageB]

/-- Commands Supported and Effects of a command set: supported, and logical block content changed for those that write. -/
def effectsLog (zoned : Bool) : List Byte :=
  let adm (o : Nat) : Nat := if adminOpcodes.contains o then (if o = 0x80 ∨ o = 0x84 then 3 else if o = 0x0D ∨ o = 0x15 then 9 else 1) else 0
  let io (o : Nat) : Nat := if ioOpcodeOk (!zoned) o then (if [1, 8, 0x79, 0x7D].contains o then 3 else 1) else 0
  (List.range 256).flatMap (fun o => toLe 4 (adm o)) ++ (List.range 256).flatMap (fun o => toLe 4 (io o)) ++ zeros 2048

/-- Device Self-test: the running test and the last 20 results, newest first; the share completed is not given. DEDUCED: log 123. -/
def State.testLog (s : State) : List Byte :=
  let t := s.host.test
  let head : List Byte := match t.running with
    | some (ext, _) => toLe 1 (if ext then 2 else 1) ++ [Config.logByte s.fresh 0 &&& 0x7F] ++ zeros 2
    | none => zeros 4
  let ent (e : Nat × Nat × Nat × Nat × Nat) : List Byte :=
    toLe 1 (16 * e.1 + e.2.1) ++ toLe 1 e.2.2.1 ++ toLe 1 (if e.2.2.2.1 = 0 then 0 else 1) ++ toLe 1 0 ++ toLe 8 e.2.2.2.2 ++ toLe 4 e.2.2.2.1 ++ zeros 12
  let rest := (t.log.take 20).flatMap ent
  head ++ rest ++ (List.range (20 - min 20 t.log.length)).flatMap (fun _ => (0x0F : Byte) :: zeros 27)

/-- Data tracks of a side, ledger regions excluded (R381). -/
def SideDesc.allTracks (d : SideDesc) : Nat :=
  ((List.range 10).map (fun k => d.tracks - (match d.ledgerOn (k + 1) with | some x => x.2 | none => 0))).foldl (· + ·) 0

/-- Passes of the latest Sanitize command; OWPASS 0 is 16. -/
def State.sanPasses (s : State) : Nat := let p := s.host.sanCdw.toNat / 16 % 16; if p = 0 then 16 else p

/-- Seconds one overwrite is expected to take: data tracks × PASSES × one revolution, for the largest actuator. -/
def State.sanEto (s : State) : Nat :=
  (s.liveActs.map (fun n => match s.sideDesc n with
    | some d => (d.allTracks * s.sanPasses * 60 + s.targetRpm (hdaOf n) - 1) / max 1 (s.targetRpm (hdaOf n))
    | none => 0)).foldl max 0

/-- Sanitize records of the sides. -/
def State.sanRecords (s : State) : List Progress := (s.liveActs.filterMap (fun n => (s.led n).progress)).filter (fun p => p.action != 3)

/-- Sanitize Status. -/
def State.sanLog (s : State) : List Byte :=
  let rs := s.sanRecords
  let sum (f : Progress → Nat) : Nat := (rs.map f).foldl (· + ·) 0
  let done := 65536 * sum (·.done) / max 1 (sum (·.total))
  let state := if s.host.sanRun.isSome then 2 else if s.host.sanFailed then 3 else if s.host.sanDone then 1 else 0
  let passes := if s.host.sanRun = some 1 ∨ state = 3 then ((rs.filter (fun p => p.action == 1)).map (fun p => if p.status = 2 then p.passes else p.pass - 1)).foldl min 16
    else if s.host.sanDone ∧ s.host.sanCdw.toNat % 8 = 3 then s.sanPasses else 0
  patches (zeros 512) [(0, toLe 2 (if state = 2 then min done 65535 else 65535)),
    (2, toLe 2 (state + 8 * passes + (if s.host.sanDone then 256 else 0))), (4, toLe 4 s.host.sanCdw.toNat),
    (8, toLe 4 s.sanEto), (12, toLe 4 0xFFFFFFFF), (16, toLe 4 1), (20, toLe 4 0xFFFFFFFF ++ toLe 4 0xFFFFFFFF ++ toLe 4 0xFFFFFFFF)]

/-- Changed Zone List of a zoned NSID: 511 zones, or none listed beyond that. -/
def State.zoneLog (s : State) (nsid : Nat) : List Byte :=
  let zs := (s.host.changedZones.filter (fun x => x / 2 ^ 20 == nsAct nsid)).map (fun x => x % 2 ^ 20 * 65536)
  if 511 < zs.length then patch (zeros 4096) 0 [0xFF, 0xFF]
  else (toLe 8 zs.length ++ zs.flatMap (fun z => toLe 8 z) ++ zeros 4096).take 4096

/-- Changed Namespace List (R359). -/
def State.nsLog (s : State) : List Byte :=
  if 1024 < s.host.changedNs.length then nsList [0xFFFFFFFF] 4096
  else nsList (sortBy (fun (a b : Nat) => decide (a ≤ b)) s.host.changedNs) 4096

/-- Lost Ranges of one NSID from a generation and its list (R361). DEDUCED: log 118. -/
def lostLog (gen : Nat) (l : List LostEnt) : List Byte := toLe 8 gen ++ toLe 4 l.length ++ toLe 4 0 ++ l.flatMap LostEnt.bytes

/-- The ranges log 0xC0 lists of a namespace: those of the durable generation, and those that partition 3 alone holds (R361, R447). -/
def State.lostOf (s : State) (id : Nat) : List LostEnt :=
  let n := nsAct id
  (if (s.act n).lostHeld = [] then (s.led n).lostShown else lostMerge (sortBy lostLe ((s.led n).lostShown ++ (s.act n).lostHeld))).filter
    (fun x => x.conv == nsIsConv id)

/-- Throttle State (R362). -/
def State.throttleLog (s : State) : List Byte :=
  let th := s.topHda (List.range 32)
  toLe 2 s.jKelvin ++ toLe 2 th ++ toLe 4 s.host.thrMs ++ zeros 8
    ++ (List.range 64).flatMap (fun n => if s.actExists n then toLe 1 (s.rdN Reg.thermAct_FRAC n) ++ toLe 1 (s.rdN Reg.thermAct_CAUSE n) else [100, 0])
    ++ zeros 48

/-! ### Get Log Page (R336) -/

/-- The page of a log identifier, or the status that refuses it. PRESUMED: log 34, DEDUCED: log 117. -/
def State.logPage (s : State) (e : Sqe) : Sum (List Byte) Nat :=
  let id := e.nsid.toNat
  let lsi := e.cdw11.toNat / 65536
  let all := id = 0 ∨ id = 0xFFFFFFFF
  let group := 1 ≤ lsi ∧ lsi ≤ 64 ∧ s.actExists (lsi - 1)
  match e.cdw10.toNat % 256 with
  | 0x01 => .inl s.errorLog
  | 0x02 => if all then .inl (s.smart s.liveActs) else if s.nsActive id then .inl (s.smart [nsAct id]) else .inr stNamespace
  | 0x03 => .inl s.fwLog
  | 0x04 => .inl s.nsLog
  | 0x05 =>
    let csi := e.cdw14.toNat / 16777216
    if csi = 0 ∨ csi = 2 then .inl (effectsLog (csi = 2)) else .inr stInvalidField
  | 0x06 => .inl s.testLog
  | 0x09 => if group then .inl (s.enduranceLog (lsi - 1)) else .inr stInvalidField
  | 0x16 => if group then .inl (s.rotationalLog (lsi - 1)) else .inr stInvalidField
  | 0x81 => .inl s.sanLog
  | 0xBF => if s.nsActive id = false then .inr stNamespace else if nsIsConv id then .inr stInvalidField else .inl (s.zoneLog id)
  | 0xC0 =>
    if id = 0xFFFFFFFF then .inl (nsList (s.host.changedLost.take 128) 512)
    else if s.nsActive id = false then .inr stNamespace
    else
      let now := (s.gen (nsAct id) 2, s.lostOf id)
      let r := if e.cdw12 = 0 ∧ e.cdw13 = 0 then now
        else match s.host.lostSnap.find? (fun x => x.1 == id) with | some x => x.2 | none => now
      .inl (lostLog r.1 r.2)
  | 0xC1 => .inl s.throttleLog
  | _ => .inr stInvalidField

/-- What a read with RAE = 0 clears: the list behind the log, and the mask of its events (R359, R361). -/
def State.logClear (s : State) (lid id : Nat) : State :=
  let keep : Nat × Nat → Bool := match lid with
    | 0x02 => fun e => e.1 != 1
    | 0x04 => fun e => e != (2, 0)
    | 0xBF => fun e => e != (2, 0xEF)
    | 0xC0 => fun e => e != (7, 0xC0)
    | 0xC1 => fun e => e != (7, 0xC1)
    | _ => fun _ => true
  let s := s.updHost (fun h => { h with
    aerMasked := h.aerMasked.filter keep,
    changedNs := if lid = 0x04 then [] else h.changedNs,
    changedZones := if lid = 0xBF then h.changedZones.filter (fun x => x / 2 ^ 20 != nsAct id) else h.changedZones,
    changedLost := if lid = 0xC0 ∧ id = 0xFFFFFFFF then [] else h.changedLost })
  s.aerServe 16

/-- A read from offset 0 of log 0xC0 fixes what its later offsets give (R361). DEDUCED: log 118. -/
def State.lostKeep (s : State) (e : Sqe) : State :=
  let id := e.nsid.toNat
  if e.cdw10.toNat % 256 = 0xC0 ∧ id ≠ 0xFFFFFFFF ∧ e.cdw12 = 0 ∧ e.cdw13 = 0 then
    let v := (s.gen (nsAct id) 2, s.lostOf id)
    s.updHost (fun h => { h with lostSnap := h.lostSnap.filter (fun x => x.1 != id) ++ [(id, v)] })
  else s

def execGetLogPage (slot : BitVec 16) (s : State) : Res :=
  .next (s.adminRow slot 2 (fun c s =>
    let e := c.sqe
    let ofs := e.cdw12.toNat + 2 ^ 32 * e.cdw13.toNat
    let len := 4 * (e.cdw10.toNat / 65536 + 65536 * (e.cdw11.toNat % 65536) + 1)
    match s.logPage e with
    | .inr st => s.complete c.slot st
    | .inl b =>
      if ofs % 4 ≠ 0 ∨ b.length < ofs then s.complete c.slot stInvalidField
      else
        let page := (b.drop ofs).take len
        let s := ((s.lostKeep e).emit (.hostData c.slot (page ++ zeros (len - page.length)))).tick
        let s := if e.cdw10.getLsbD 15 then s else s.logClear (e.cdw10.toNat % 256) e.nsid.toNat
        s.complete c.slot 0))

end Sys2Proof.Machine
end

