-- ==== Sys2Proof/Machine/HostAdmin.lean ====
section
/-!
DEFINITION. Machine/HostAdmin.lean: namespace management, firmware, NVMe-MI and Device Self-test (R333, R337 to R339, R387).
-/

namespace Sys2Proof.Machine

/-- The admin command in a slot whose CDW10, cut to some low bits, names this action. -/
def State.adminAction (s : State) (slot : BitVec 16) (opc modulus v : Nat) (act : Cmd → State → State) : State :=
  match s.cmd slot.toNat with
  | some c => if c.sqe.cdw10.toNat % modulus = v then s.adminRow slot opc act else s
  | none => s

/-! ### Namespaces (R338) -/

/-- Create, attach, detach and delete post the notice, and the Almanac keeps a record (R338, R453). -/
def State.nsNotice (s : State) (nsid what : Nat) : State :=
  let s := s.audit 3 .nsManage noInst [what, nsid]
  (s.updHost (fun h => { h with changedNs := h.changedNs.filter (fun i => i != nsid) ++ [nsid] })).event 2 0 4

def State.setAttached (s : State) (nsid : Nat) (v : Bool) : State :=
  let m : BitVec 128 := BitVec.ofNat 128 (2 ^ (nsid - 1))
  s.updHost (fun h => { h with attached := if v then h.attached ||| m else h.attached &&& ~~~m })

/-- Create of NSID 2n + 2, with a media key of its own; it is not attached. DEDUCED: log 119. -/
def execNamespaceCreate (slot : BitVec 16) (nvmSet : BitVec 16) (nsze ncap : BitVec 64) (flbas csi : Byte) (s : State) : Res :=
  .next (s.adminAction slot 0x0D 16 0 (fun c s =>
    let n := nvmSet.toNat - 1
    let lbas := match s.sideDesc n with | some d => d.convLbas | none => 0
    if csi ≠ 0 ∨ flbas ≠ 0 ∨ nvmSet = 0 ∨ 64 ≤ n ∨ s.actExists n = false ∨ lbas = 0 ∨ nsze.toNat ≠ lbas ∨ ncap.toNat ≠ lbas then
      s.complete c.slot stInvalidField
    else if s.host.created.getLsbD n then s.complete c.slot (st 1 0x16 true)
    else
      let id := convNs n
      let s := (s.updHost (fun h => { h with created := h.created ||| BitVec.ofNat 64 (2 ^ n) })).setAttached id false
      ((((s.keyNew id).stage n 4).nsNotice id 0).complete c.slot 0 (BitVec.ofNat 32 id)).settle))

/-- Work of a namespace that no longer applies: queue entries, deferred records, cached grains and ledger entries. -/
def State.nsClear (s : State) (n : Nat) (conv : Bool) : State :=
  let mine (e : MqEntry) : Bool := e.nsConv == conv
  let s := (s.updHost (fun h => { h with
    waiting := h.waiting.filter (fun w => !(w.1 == n && mine w.2)), places := h.places.filter (fun p => !(p.act == n && p.conv == conv)),
    pins := h.pins.filter (fun p => !(p.2.1 == n && p.2.2.1 == conv)) })).mqDrop n mine
  let s := (s.pool.records.filter (fun r => r.n.act == n && r.n.conv == conv)).foldl (fun s r => s.recDrop r) s
  let s : State := { s with
    buf := s.buf.filter (fun g => !(g.tag.act == n && g.tag.nsConv == conv)),
    cache := s.cache.filter (fun g => !(g.tag.act == n && g.tag.nsConv == conv)) }
  let spares := match s.sideDesc n with | some d => d.convSpares | none => 0
  let s := s.updLed n (fun l => { l with
    remap := l.remap.filter (fun e => e.conv != conv), lost := l.lost.filter (fun e => e.conv != conv),
    convNext := if conv then 0 else l.convNext })
  let s := if conv then s.wrN Reg.poolAct_CONV_SPARE_FREE n spares else s
  ((s.stage n 1).stage n 2).bufRefresh

/-- A command of the NSID other than the one in this slot holds a slot. -/
def State.nsBusy (s : State) (nsid slot : Nat) : Bool := s.host.cmds.any (fun c => c.slot != slot && c.sqe.nsid.toNat == nsid)

/-- Delete: the command stands unbegun in its slot until no other command of the NSID holds one. DESIGN CHOICE: log 58. -/
def execNamespaceDelete (slot : BitVec 16) (s : State) : Res :=
  .next (
    match s.cmd slot.toNat with
    | none => s
    | some c =>
      let id := c.sqe.nsid.toNat
      if s.nsBusy id c.slot ∧ nsIsConv id ∧ s.nsExists id then s
      else s.adminAction slot 0x0D 16 1 (fun c s =>
        let n := nsAct id
        if id = 0xFFFFFFFF ∨ (nsIsConv id = false ∧ s.nsExists id) then s.complete c.slot stInvalidField
        else if s.nsExists id = false then s.complete c.slot stNamespace
        else
          let s := (s.keyDestroy id).nsClear n true
          let s := (s.updHost (fun h => { h with created := h.created &&& ~~~(BitVec.ofNat 64 (2 ^ n)) })).setAttached id false
          let s := (s.stage n 4).nsNotice id 1
          (s.updCmd c.slot (fun x => { x with hold := .gens (s.gensDue n [1, 2, 4]) })).settle))

/-- Attach or detach, for the controller list [1]. PRESUMED: log 120. -/
def State.attach (s : State) (slot : BitVec 16) (sel : Nat) (controllers : List (BitVec 16)) : State :=
  s.adminAction slot 0x15 16 sel (fun c s =>
    let id := c.sqe.nsid.toNat
    if s.nsExists id = false then s.complete c.slot stNamespace
    else if controllers ≠ [1] ∨ s.host.attached.getLsbD (id - 1) = (sel == 0) then s.complete c.slot stInvalidField
    else ((s.setAttached id (sel == 0)).nsNotice id (2 + sel)).complete c.slot 0)

def execNamespaceAttach (slot : BitVec 16) (controllers : List (BitVec 16)) (s : State) : Res := .next (s.attach slot 0 controllers)
def execNamespaceDetach (slot : BitVec 16) (controllers : List (BitVec 16)) (s : State) : Res := .next (s.attach slot 1 controllers)

/-! ### Firmware (R339) -/

/-- Stage a piece of an object; the piece at offset 0 starts a new one. DESIGN CHOICE: log 35. -/
def execFirmwareImageDownload (slot : BitVec 16) (data : List Byte) (s : State) : Res :=
  .next (s.adminRow slot 0x11 (fun c s =>
    let n := 4 * (c.sqe.cdw10.toNat + 1)
    let o := 4 * c.sqe.cdw11.toNat
    let a := s.imageBase + o
    if data.length < n ∨ s.inPart 4 a n = false then s.complete c.slot stInvalidField
    else
      let s := s.dmaWrite idDma false a (data.take n)
      (s.updHost (fun h => { h with fwLen := if o = 0 then n else max h.fwLen (o + n) })).complete c.slot 0))

/-- Commit: commit action in CDW10 [5:3], slot in [2:0]. Husk's status decides; a halted Husk answers nothing (R443), and the command
stays in its slot. DEDUCED: log 121. -/
def execFirmwareCommit (slot : BitVec 16) (norOk : Bool) (s : State) : Res :=
  .next (
    if s.husk.halted then s
    else s.adminRow slot 0x10 (fun c s =>
      let v := c.sqe.cdw10.toNat
      let fs := v % 8
      let ca := v / 8 % 8
      if 3 < ca then s.complete c.slot stInvalidField
      else if 2 ≤ ca ∨ fs = 0 ∨ 4 < fs then s.complete c.slot (st 1 0x06 true)
      else
        -- slots 1 and 2 are the bundles, 3 and 4 the Sheaf images
        let target := (if fs ≤ 2 then 1 else 0) + 2 * ((fs - 1) % 2)
        let r := s.huskUpdate target s.imageBase s.host.fwLen norOk
        let s := r.1
        match r.2.1 with
        | 0 => (s.updHost (fun h => { h with fwLen := 0 })).complete c.slot (if ca = 1 then st 1 0x0B false else 0)
        | 8 => s.complete c.slot (st 1 0x06 true)
        | _ => s.complete c.slot (st 1 0x07 true)))

/-! ### NVMe-MI (R333) -/

/-- The message goes to the management endpoint, whose answer the next Receive returns; the NVMe-MI standard gives it. PRESUMED: log 122. -/
def execNvmeMiSend (slot : BitVec 16) (message : List Byte) (s : State) : Res :=
  .next (s.adminRow slot 0x1D (fun c s => (s.updHost (fun h => { h with miResp := some (Config.miReply 0 message) })).complete c.slot 0))

/-- PRESUMED: log 122. -/
def execNvmeMiReceive (slot : BitVec 16) (s : State) : Res :=
  .next (s.adminRow slot 0x1E (fun c s =>
    match s.host.miResp with
    | some b => ((s.emit (.hostData c.slot b)).updHost (fun h => { h with miResp := none })).complete c.slot 0
    | none => s.complete c.slot 0))

/-! ### Device Self-test (R387) -/

/-- Result codes of the log (log 34): passed, aborted by command, failed in a known segment, aborted by Format, by Sanitize. -/
def State.testEnd (s : State) (result segment nsid : Nat) : State :=
  match s.host.test.running with
  | some (ext, acts) =>
    let mine (e : MqEntry) : Bool := e.work == .test
    let s := s.updHost (fun h => { h with
      test := ⟨none, ((if ext then 2 else 1), result, segment, nsid, s.alm.hours) :: h.test.log⟩, waiting := h.waiting.filter (fun w => !(mine w.2)) })
    acts.foldl (fun s n => s.mqDrop n mine) s
  | none => s

/-- The reads of an extended test of an actuator: every zone below its MWP, and the band, whose unwritten sectors are passed over. PRIO 4, with
no command, so that a failing sector becomes a ladder record with NO_CMD = 1 (R387). -/
def State.testReads (s : State) (n : Nat) : State :=
  let zs := (s.led n).zones.filter (fun z => z.2.mwp != 0)
  let s := zs.foldl (fun s z => s.mqWait n (bgEntry 1 false (z.1 * 65536) (min z.2.mwp 65408) s.host.stamp .test)) s
  match s.sideDesc n with
  | some d => if d.convLbas = 0 then s else s.mqWait n (bgEntry 1 true 0 d.convLbas s.host.stamp .test)
  | none => s

/-- Start a test of the actuator of the NSID, or of every actuator. -/
def State.testStart (s : State) (slot : BitVec 16) (stc : Nat) : State :=
  s.adminAction slot 0x14 16 stc (fun c s =>
    let id := c.sqe.nsid.toNat
    let all := id = 0 ∨ id = 0xFFFFFFFF
    if ¬all ∧ s.nsActive id = false then s.complete c.slot stNamespace
    else if s.host.test.running.isSome then s.complete c.slot (st 1 0x1D false)
    else
      let acts := if all then s.liveActs else [nsAct id]
      let s := s.updHost (fun h => { h with test := { h.test with running := some (stc == 2, acts) } })
      (if stc = 2 then acts.foldl (fun s n => s.testReads n) s else s).complete c.slot 0)

def execShortDeviceSelfTest (slot : BitVec 16) (s : State) : Res := .next (s.testStart slot 1)
def execExtendedDeviceSelfTest (slot : BitVec 16) (s : State) : Res := .next (s.testStart slot 2)

def execDeviceSelfTestAbort (slot : BitVec 16) (s : State) : Res :=
  .next (s.adminAction slot 0x14 16 15 (fun c s => (s.testEnd 1 0 0).complete c.slot 0))

/-- A test ends: the first failing step and the first failing actuator, if any. DEDUCED: log 123. -/
def execDeviceSelfTestDone (firstFail : Option (Nat × Act)) (s : State) : Res :=
  .next (match firstFail with
    | some (seg, n) => s.testEnd 7 seg (zonedNs n)
    | none => s.testEnd 0 0 0)

end Sys2Proof.Machine
end

