-- ==== Sys2Proof/Machine/Sanitize.lean ====
section
/-!
DEFINITION. Machine/Sanitize.lean: Sanitize, Format NVM and their progress records (R379 to R386).
-/

namespace Sys2Proof.Machine

/-! ### Progress records (R379, R380) -/

/-- Write a side's record to its ledger and, in alternate slots, to the NOR mirror. DEDUCED: log 125. -/
def State.putProgress (s : State) (n : Nat) (p : Progress) : State :=
  let q := match (s.led n).progress with | some o => o.seq + 1 | none => 1
  let p : Progress := { p with seq := q }
  let s := (s.updLed n (fun l => { l with progress := some p })).stage n 3
  (s.updHusk (fun k => { k with sanitizeNor := assocSet k.sanitizeNor (2 * n + q % 2) p.bytes })).sanShow n

/-- The tracks of head k a record covers: a sanitize every data track, a format those of the conventional band. First track and count. -/
def SideDesc.unitSpan (d : SideDesc) (band : Bool) (k : Nat) : Nat × Nat :=
  if band then (d.tracks - d.tc, d.tc) else (0, d.tracks - (match d.ledgerOn k with | some x => x.2 | none => 0))

/-- The `i`-th of those tracks: a ledger region among them is stepped over. -/
def SideDesc.unitTrack (d : SideDesc) (band : Bool) (k i : Nat) : Nat :=
  if band then d.tracks - d.tc + i
  else match d.ledgerOn k with
    | some (a, c) => if i < a then i else i + c
    | none => i

/-- The place of a track among them. -/
def SideDesc.unitIndex (d : SideDesc) (band : Bool) (k t : Nat) : Nat :=
  if band then t - (d.tracks - d.tc)
  else match d.ledgerOn k with
    | some (a, c) => if t < a then t else t - c
    | none => t

def tenHeads : List Nat := [1, 2, 3, 4, 5, 6, 7, 8, 9, 10]

/-- Units of one pass. -/
def SideDesc.unitsPerPass (d : SideDesc) (band : Bool) : Nat :=
  (tenHeads.map (fun k => ((d.unitSpan band k).2 + 1023) / 1024)).foldl (· + ·) 0

/-- Data tracks of the unit in hand, at most 1,024 of one head (R380). -/
def SideDesc.unitTracks (d : SideDesc) (p : Progress) : List Nat :=
  let band := p.action == 3
  let i := d.unitIndex band p.head p.next
  (List.range (min 1024 ((d.unitSpan band p.head).2 - i))).map (fun j => d.unitTrack band p.head (i + j))

/-- The word that fills a sector: OVRPAT, inverted in even passes with OIPBP (R381); zero for a format (R385). -/
def Progress.fill (p : Progress) : Word := if p.action = 3 then 0 else if p.oipbp ∧ p.pass % 2 = 0 then ~~~p.ovrpat else p.ovrpat

/-- The payload as stored and the SEAL_LBA of physical data sector i: an LBA of the band under its own seal and key, so that it reads as
the fill; any other under the sanitize seal (R381). -/
def State.unitSector (s : State) (n : Nat) (d : SideDesc) (fill : Word) (k t i : Nat) : List Byte × Nat :=
  let b : List Byte := (List.range 1024).flatMap (fun _ => toLe 4 fill.toNat)
  match d.posLba k t i with
  | some (true, x) => if x < d.convLbas then (s.stored n true x b, sealLba true x) else (b, sealSanitize)
  | _ => (b, sealSanitize)

/-- Channel bytes of every sector of a track of a unit, its parity as R243 gives it. -/
def State.unitTrackBits (s : State) (n : Nat) (d : SideDesc) (fill : Word) (k t : Nat) : List (List Byte) :=
  let spt := d.spt t
  (List.range spt).map (fun i =>
    let seg := i / 50
    match dataIndex spt i with
    | some _ => let x := s.unitSector n d fill k t i; sectorChannel i x.1 x.2
    | none =>
      let par := segParity spt seg
      let pq := (List.range (par - 50 * seg)).foldl (fun a j => parityAdd a j (s.unitSector n d fill k t (50 * seg + j)).1) parityZero
      sectorChannel i (if i = par then pq.1 else pq.2) (sealParity k t seg (i - par)))

/-- The record after the unit in hand: next tracks of the head, next head, next pass (R381). -/
def SideDesc.nextUnit (d : SideDesc) (p : Progress) : Progress :=
  let band := p.action == 3
  let i := d.unitIndex band p.head p.next + 1024
  if i < (d.unitSpan band p.head).2 then { p with next := d.unitTrack band p.head i, done := p.done + 1 }
  else
    match tenHeads.find? (fun k => p.head < k && (d.unitSpan band k).2 != 0) with
    | some k => { p with head := k, next := d.unitTrack band k 0, done := p.done + 1 }
    | none => { p with pass := min p.passes (p.pass + 1), head := 1, next := d.unitTrack band 1 0, done := p.done + 1 }

/-- Units of a record: none known while the side's descriptor is not. -/
def State.unitsTotal (s : State) (n : Nat) (action passes : Nat) : Nat :=
  if action = 2 then 1
  else match s.sideDesc n with | some d => passes * d.unitsPerPass (action == 3) | none => 0

def State.startProgress (s : State) (n action nsid passes : Nat) (oipbp ses2 : Bool) (ovrpat : Word) (band : Bool) : State :=
  let first := match s.sideDesc n with | some d => d.unitTrack (action == 3) 1 0 | none => 0
  let total := if action = 3 ∧ band = false then 0 else s.unitsTotal n action passes
  let cyc := s.rdN Reg.status_PWR_CYCLE 0
  s.putProgress n ⟨action, if action = 3 ∧ total = 0 then 2 else 1, oipbp, ses2, nsid, ovrpat, 1, passes, 1, first, 0, total, 0, cyc, s.alm.hours⟩

/-! ### What both take away -/

/-- Outstanding I/O of some namespaces completes with a status. DEDUCED: log 124. -/
def State.endIo (s : State) (hit : Nat → Bool) (status : Nat) : State :=
  (s.host.cmds.filter (fun c => !c.admin && c.open && hit c.sqe.nsid.toNat)).foldl (fun s c => (s.abortWork c).complete c.slot status) s

/-- Every zone of a side to map state 1, Empty, and the next owed erase queued (R374, R381). -/
def State.zonesOwe (s : State) (n : Nat) : State :=
  let s := (s.updLed n (fun l => { l with zones := [] })).zoneRefresh n
  ((s.updAct n (fun a => { a with accs := [] })).stage n 3).eraseNext n

/-- New media keys for namespaces, and each side's kind 4 generation (R68, R382). -/
def State.rekey (s : State) (ids : List Nat) : State :=
  let s := ids.foldl (fun s i => s.keyDestroy i) s
  let s := ids.foldl (fun s i => s.keyNew i) s
  ((ids.map nsAct).eraseDups).foldl (fun s n => s.stage n 4) s

/-! ### Sanitize (R381 to R384) -/

/-- A side's lists empty and its zones owe their erase (R381, R382). -/
def State.sanSide (s : State) (n : Nat) : State := (((s.nsClear n false).nsClear n true).zonesOwe n)

/-- Begin a sanitize of an action: refused while a format runs on a side (R386). DEDUCED: log 121 and 124. -/
def State.sanStart (s : State) (c : Cmd) (action passes : Nat) : State :=
  let acts := s.liveActs
  if acts.any (fun n => s.formatting (zonedNs n) || s.formatting (convNs n)) then s.complete c.slot stFormat
  else
    let s := s.testEnd 9 0 0
    let s := s.endIo (fun _ => true) stSanitize
    let s : State := { s with buf := [], cache := [] }
    let s := acts.foldl (fun s n => s.mqDrop n (fun _ => true)) (s.updHost (fun h => { h with waiting := [], places := [], pins := [] }))
    let s := s.bufRefresh
    -- NS_KEY_DESTROY of every namespace, then NS_KEY_NEW for each
    let s := (s.husk.wrapped.map (·.1)).foldl (fun s i => s.keyDestroy i) s
    let s := (s.allNs.filter s.nsExists).foldl (fun s i => s.keyNew i) s
    let s := if action = 1 then acts.foldl (fun s n => s.stage n 4) s else s
    let s := s.updHost (fun h => { h with sanRun := some action, sanCdw := c.sqe.cdw10, sanDone := false })
    let s := acts.foldl (fun s n => s.startProgress n action 0xFFFFFFFF passes (c.sqe.cdw10.getLsbD 8) false c.sqe.cdw11 false) s
    s.complete c.slot 0

/-- A halted Husk replaces no key: the command stays in its slot (R443). -/
def execSanitizeOverwrite (slot : BitVec 16) (s : State) : Res :=
  .next (if s.husk.halted then s else s.adminAction slot 0x84 8 3 (fun c s =>
    let p := c.sqe.cdw10.toNat / 16 % 16
    s.sanStart c 1 (if p = 0 then 16 else p)))

def execSanitizeCryptoErase (slot : BitVec 16) (s : State) : Res :=
  .next (if s.husk.halted then s else s.adminAction slot 0x84 8 4 (fun c s => s.sanStart c 2 1))

/-- Exit Failure Mode is accepted (R384). -/
def execExitFailureMode (slot : BitVec 16) (s : State) : Res :=
  .next (s.adminAction slot 0x84 8 1 (fun c s => (s.updHost (fun h => { h with sanFailed := false })).complete c.slot 0))

/-- Every side is done: the sanitize ends, and a failure before it is cured (R383, R384). -/
def State.sanEnd (s : State) : State :=
  let left := s.liveActs.any (fun n => match (s.led n).progress with | some p => p.action != 3 && p.status == 1 | none => true)
  if s.host.sanRun.isNone ∨ left then s
  else s.updHost (fun h => { h with sanRun := none, sanDone := true, sanFailed := false })

/-- A unit of a side's sanitize or format is done. A side whose port is not UP has none done. -/
def execSanitizeUnitDone (n : Act) (s : State) : Res :=
  .next (
    match (s.led n).progress, s.sideDesc n with
    | some p, some d =>
      if p.status ≠ 1 ∨ s.up (hdaOf n) = false then s
      else
        let p : Progress := { p with total := if p.total = 0 then s.unitsTotal n p.action p.passes else p.total }
        let q := if p.action = 2 then { p with done := 1 } else d.nextUnit p
        let s := if p.action = 2 then s else s.emit (.unit n p.head (d.unitTracks p) p.fill)
        if q.done < q.total then s.putProgress n q
        else if p.action = 3 then (s.putProgress n { q with status := 2 }).settle
        else
          let s := if p.action = 2 then (s.sanSide n).stage n 4 else s.sanSide n
          ((s.putProgress n { q with status := 2 }).sanEnd).settle
    | _, _ => s)

/-- A track that cannot be written within 10 s fails the sanitize. DEDUCED: log 125. -/
def execSanitizeTrackTimeout (n : Act) (s : State) : Res :=
  .next (
    match (s.led n).progress, s.host.sanRun with
    | some p, some _ =>
      if p.action = 3 ∨ p.status ≠ 1 then s
      else
        let s := s.liveActs.foldl (fun s m => match (s.led m).progress with
          | some q => if q.action ≠ 3 ∧ q.status = 1 then s.putProgress m { q with status := 3 } else s
          | none => s) s
        s.updHost (fun h => { h with sanRun := none, sanFailed := true })
    | _, _ => s)

/-! ### Format NVM (R385, R386) -/

/-- One namespace of a format: its I/O ends, its buffered grains go, a new key with SES 2, its lists empty, and a zoned one owes its
erase. DESIGN CHOICE: log 58, DEDUCED: log 121. -/
def State.formatNs (s : State) (ses2 : Bool) (nsid : Nat) : State :=
  let n := nsAct nsid
  let s := s.endIo (fun i => i == nsid) stFormat
  let s := if ses2 then s.rekey [nsid] else s
  let s := s.nsClear n (nsIsConv nsid)
  if nsIsConv nsid then s.updAct n (fun a => { a with stale := [] }) else s.zonesOwe n

/-- LBAF 0 and SES 0 or 2 only. A format of an actuator on which one runs stands unbegun in its slot until that one ends. PRESUMED: log 126. -/
def execFormatNvm (slot : BitVec 16) (s : State) : Res :=
  .next (
    match s.cmd slot.toNat with
    | none => s
    | some c =>
      let v := c.sqe.cdw10.toNat
      let id := c.sqe.nsid.toNat
      let ses := v / 512 % 8
      let ids := if id = 0xFFFFFFFF then s.allNs.filter s.nsActive else [id]
      let acts := (ids.map nsAct).eraseDups
      let good := (ses = 0 ∨ ses = 2) ∧ v / 16 % 32 = 0
      if acts.any (fun n => s.formatting (zonedNs n) || s.formatting (convNs n)) ∨ (ses = 2 ∧ s.husk.halted) then s
      else s.adminRow slot 0x80 (fun c s =>
        if v % 16 ≠ 0 ∨ v / 4096 % 4 ≠ 0 then s.complete c.slot (st 1 0x0A true)
        else if ¬good then s.complete c.slot stInvalidField
        else if ids.any (fun i => s.nsActive i == false) then s.complete c.slot stNamespace
        else if id ≠ 0xFFFFFFFF ∧ s.nsReady id = false then s.complete c.slot stNotReady
        else
          let s := s.testEnd 4 0 0
          let s := ids.foldl (fun s i => s.formatNs (ses == 2) i) s
          let s := acts.foldl (fun s n =>
            s.startProgress n 3 id 1 false (ses == 2) 0 (ses == 0 && ids.contains (convNs n))) s
          (s.updCmd c.slot (fun x => { x with hold := .format acts })).settle))

end Sys2Proof.Machine
end

