-- ==== Sys2Proof/Machine/Dispatch.lean ====
section
/-!
DEFINITION. Machine/Dispatch.lean: one arm per command.
-/

namespace Sys2Proof.Machine

def exec (i : Instr) (s : State) : Host.Outcome State Fault Refusal :=
  match i with
  | .pwrOkRising obs => Sys2Proof.Machine.execPwrOkRising obs s
  | .ddrTrainingDone obs => Sys2Proof.Machine.execDdrTrainingDone obs s
  | .pwrOkFalling lowNs => Sys2Proof.Machine.execPwrOkFalling lowNs s
  | .rstNLow lowNs => Sys2Proof.Machine.execRstNLow lowNs s
  | .pinReset obs => Sys2Proof.Machine.execPinReset obs s
  | .perstNRising => Sys2Proof.Machine.execPerstNRising s
  | .pcieConventionalReset kind => Sys2Proof.Machine.execPcieConventionalReset kind s
  | .functionLevelReset => Sys2Proof.Machine.execFunctionLevelReset s
  | .nvmSubsystemReset nssr => Sys2Proof.Machine.execNvmSubsystemReset nssr s
  | .configurationRequest => Sys2Proof.Machine.execConfigurationRequest s
  | .controllerEnable cc => Sys2Proof.Machine.execControllerEnable cc s
  | .controllerReset => Sys2Proof.Machine.execControllerReset s
  | .shutdownNormal => Sys2Proof.Machine.execShutdownNormal s
  | .shutdownAbrupt => Sys2Proof.Machine.execShutdownAbrupt s
  | .shutdownDrainDone => Sys2Proof.Machine.execShutdownDrainDone s
  | .shutdownTimeout => Sys2Proof.Machine.execShutdownTimeout s
  | .update ch norOk => Sys2Proof.Machine.execUpdate ch norOk s
  | .tillerLoad ch ddrErr => Sys2Proof.Machine.execTillerLoad ch ddrErr s
  | .nsKeyNew ch ledgerOk => Sys2Proof.Machine.execNsKeyNew ch ledgerOk s
  | .nsKeyDestroy ch ledgerOk => Sys2Proof.Machine.execNsKeyDestroy ch ledgerOk s
  | .auditClear ch => Sys2Proof.Machine.execAuditClear ch s
  | .traceClear ch => Sys2Proof.Machine.execTraceClear ch s
  | .liveSet ch => Sys2Proof.Machine.execLiveSet ch s
  | .livePatch ch => Sys2Proof.Machine.execLivePatch ch s
  | .faultRelease ch => Sys2Proof.Machine.execFaultRelease ch s
  | .slotRevoke ch => Sys2Proof.Machine.execSlotRevoke ch s
  | .floorRaise ch => Sys2Proof.Machine.execFloorRaise ch s
  | .deviceWarmReset ch => Sys2Proof.Machine.execDeviceWarmReset ch s
  | .warmResetDrainEnd obs => Sys2Proof.Machine.execWarmResetDrainEnd obs s
  | .culmReset ch => Sys2Proof.Machine.execCulmReset ch s
  | .tillerEngineReset ch => Sys2Proof.Machine.execTillerEngineReset ch s
  | .tillerReloadTimeout n => Sys2Proof.Machine.execTillerReloadTimeout n s
  | .warmResetRefused ch => Sys2Proof.Machine.execWarmResetRefused ch s
  | .miRelay => Sys2Proof.Machine.execMiRelay s
  | .miResponse => Sys2Proof.Machine.execMiResponse s
  | .miRelayTimeout => Sys2Proof.Machine.execMiRelayTimeout s
  | .load q ddrErr => Sys2Proof.Machine.execLoad q ddrErr s
  | .halt q => Sys2Proof.Machine.execHalt q s
  | .go ch dir sender same other => Sys2Proof.Machine.execGo ch dir sender same other s
  | .release ch dir receiver => Sys2Proof.Machine.execRelease ch dir receiver s
  | .rcvReset ch dir receiver => Sys2Proof.Machine.execRcvReset ch dir receiver s
  | .compatLastDataRead ch dir reader => Sys2Proof.Machine.execCompatLastDataRead ch dir reader s
  | .mailboxDataWrite ch dir ix writer value => Sys2Proof.Machine.execMailboxDataWrite ch dir ix writer value s
  | .lockAcquire ix release readers => Sys2Proof.Machine.execLockAcquire ix release readers s
  | .lockRelease ix writer => Sys2Proof.Machine.execLockRelease ix writer s
  | .windowRegisterWrite writer id w reg value => Sys2Proof.Machine.execWindowRegisterWrite writer id w reg value s
  | .registerWrite writer target value => Sys2Proof.Machine.execRegisterWrite writer target value s
  | .violationAuditSecond => Sys2Proof.Machine.execViolationAuditSecond s
  | .submissionQueueTailDoorbell q tail => Sys2Proof.Machine.execSubmissionQueueTailDoorbell q tail s
  | .completionQueueHeadDoorbell q head => Sys2Proof.Machine.execCompletionQueueHeadDoorbell q head s
  | .admission entry => Sys2Proof.Machine.execAdmission entry s
  | .mediaQueueEntry n => Sys2Proof.Machine.execMediaQueueEntry n s
  | .dataGrainBuffered slot index payload tagOk => Sys2Proof.Machine.execDataGrainBuffered slot index payload tagOk s
  | .bufWaitResume => Sys2Proof.Machine.execBufWaitResume s
  | .dmaError slot kind => Sys2Proof.Machine.execDmaError slot kind s
  | .createIoSq slot => Sys2Proof.Machine.execCreateIoSq slot s
  | .deleteIoSq slot => Sys2Proof.Machine.execDeleteIoSq slot s
  | .createIoCq slot => Sys2Proof.Machine.execCreateIoCq slot s
  | .deleteIoCq slot => Sys2Proof.Machine.execDeleteIoCq slot s
  | .getLogPage slot => Sys2Proof.Machine.execGetLogPage slot s
  | .identify slot => Sys2Proof.Machine.execIdentify slot s
  | .abort slot sameCycleCompletion => Sys2Proof.Machine.execAbort slot sameCycleCompletion s
  | .abortCompletion slot => Sys2Proof.Machine.execAbortCompletion slot s
  | .arbitration slot => Sys2Proof.Machine.execArbitration slot s
  | .powerManagement slot => Sys2Proof.Machine.execPowerManagement slot s
  | .temperatureThreshold slot => Sys2Proof.Machine.execTemperatureThreshold slot s
  | .errorRecovery slot => Sys2Proof.Machine.execErrorRecovery slot s
  | .volatileWriteCache slot => Sys2Proof.Machine.execVolatileWriteCache slot s
  | .numberOfQueues slot => Sys2Proof.Machine.execNumberOfQueues slot s
  | .interruptCoalescing slot => Sys2Proof.Machine.execInterruptCoalescing slot s
  | .interruptVectorConfiguration slot => Sys2Proof.Machine.execInterruptVectorConfiguration slot s
  | .asynchronousEventConfiguration slot => Sys2Proof.Machine.execAsynchronousEventConfiguration slot s
  | .autonomousPowerStateTransition slot table => Sys2Proof.Machine.execAutonomousPowerStateTransition slot table s
  | .timestamp slot ms => Sys2Proof.Machine.execTimestamp slot ms s
  | .getFeatures slot => Sys2Proof.Machine.execGetFeatures slot s
  | .asynchronousEventRequest slot => Sys2Proof.Machine.execAsynchronousEventRequest slot s
  | .namespaceCreate slot nvmSet nsze ncap flbas csi => Sys2Proof.Machine.execNamespaceCreate slot nvmSet nsze ncap flbas csi s
  | .namespaceDelete slot => Sys2Proof.Machine.execNamespaceDelete slot s
  | .namespaceAttach slot controllers => Sys2Proof.Machine.execNamespaceAttach slot controllers s
  | .namespaceDetach slot controllers => Sys2Proof.Machine.execNamespaceDetach slot controllers s
  | .firmwareImageDownload slot data => Sys2Proof.Machine.execFirmwareImageDownload slot data s
  | .firmwareCommit slot norOk => Sys2Proof.Machine.execFirmwareCommit slot norOk s
  | .nvmeMiSend slot message => Sys2Proof.Machine.execNvmeMiSend slot message s
  | .nvmeMiReceive slot => Sys2Proof.Machine.execNvmeMiReceive slot s
  | .shortDeviceSelfTest slot => Sys2Proof.Machine.execShortDeviceSelfTest slot s
  | .extendedDeviceSelfTest slot => Sys2Proof.Machine.execExtendedDeviceSelfTest slot s
  | .deviceSelfTestAbort slot => Sys2Proof.Machine.execDeviceSelfTestAbort slot s
  | .deviceSelfTestDone firstFail => Sys2Proof.Machine.execDeviceSelfTestDone firstFail s
  | .formatNvm slot => Sys2Proof.Machine.execFormatNvm slot s
  | .sanitizeOverwrite slot => Sys2Proof.Machine.execSanitizeOverwrite slot s
  | .sanitizeCryptoErase slot => Sys2Proof.Machine.execSanitizeCryptoErase slot s
  | .exitFailureMode slot => Sys2Proof.Machine.execExitFailureMode slot s
  | .sanitizeUnitDone n => Sys2Proof.Machine.execSanitizeUnitDone n s
  | .sanitizeTrackTimeout n => Sys2Proof.Machine.execSanitizeTrackTimeout n s
  | .flush slot => Sys2Proof.Machine.execFlush slot s
  | .write slot => Sys2Proof.Machine.execWrite slot s
  | .read slot => Sys2Proof.Machine.execRead slot s
  | .writeZeroes slot => Sys2Proof.Machine.execWriteZeroes slot s
  | .verify slot => Sys2Proof.Machine.execVerify slot s
  | .zoneAppend slot => Sys2Proof.Machine.execZoneAppend slot s
  | .zoneClose slot => Sys2Proof.Machine.execZoneClose slot s
  | .zoneFinish slot => Sys2Proof.Machine.execZoneFinish slot s
  | .zoneOpen slot => Sys2Proof.Machine.execZoneOpen slot s
  | .zoneReset slot => Sys2Proof.Machine.execZoneReset slot s
  | .zoneOffline slot => Sys2Proof.Machine.execZoneOffline slot s
  | .setZoneDescriptorExtension slot => Sys2Proof.Machine.execSetZoneDescriptorExtension slot s
  | .reportZones slot => Sys2Proof.Machine.execReportZones slot s
  | .extendedReportZones slot => Sys2Proof.Machine.execExtendedReportZones slot s
  | .zmapFlush n => Sys2Proof.Machine.execZmapFlush n s
  | .powerStateEntryDone => Sys2Proof.Machine.execPowerStateEntryDone s
  | .autonomousTransition => Sys2Proof.Machine.execAutonomousTransition s
  | .powerStateReturnTimeout n => Sys2Proof.Machine.execPowerStateReturnTimeout n s
  | .ps2SideSwitch h waited => Sys2Proof.Machine.execPs2SideSwitch h waited s
  | .laneSet h four => Sys2Proof.Machine.execLaneSet h four s
  | .laneAck h hdr action status alnSeq => Sys2Proof.Machine.execLaneAck h hdr action status alnSeq s
  | .laneChangeFailure h => Sys2Proof.Machine.execLaneChangeFailure h s
  | .trainingAttempt h => Sys2Proof.Machine.execTrainingAttempt h s
  | .trainingStateDone h farPrecode => Sys2Proof.Machine.execTrainingStateDone h farPrecode s
  | .trainingStateTimeout h => Sys2Proof.Machine.execTrainingStateTimeout h s
  | .trainingRetry h => Sys2Proof.Machine.execTrainingRetry h s
  | .helloAck h hdr msg => Sys2Proof.Machine.execHelloAck h hdr msg s
  | .descriptorRead h copy0 copy1 => Sys2Proof.Machine.execDescriptorRead h copy0 copy1 s
  | .linkLoss h cause lane => Sys2Proof.Machine.execLinkLoss h cause lane s
  | .retrain h writer alsoDown => Sys2Proof.Machine.execRetrain h writer alsoDown s
  | .down h writer => Sys2Proof.Machine.execDown h writer s
  | .flashRead h writer => Sys2Proof.Machine.execFlashRead h writer s
  | .flashWrite h writer => Sys2Proof.Machine.execFlashWrite h writer s
  | .flashErase h writer => Sys2Proof.Machine.execFlashErase h writer s
  | .flashDone h hdr status => Sys2Proof.Machine.execFlashDone h hdr status s
  | .hskFlashData h hdr tag offset data => Sys2Proof.Machine.execHskFlashData h hdr tag offset data s
  | .hskTemperatures h hdr values => Sys2Proof.Machine.execHskTemperatures h hdr values s
  | .hskRails h hdr values => Sys2Proof.Machine.execHskRails h hdr values s
  | .hskEvent h hdr code => Sys2Proof.Machine.execHskEvent h hdr code s
  | .motFrame h hdr side frameNo tick mtype values => Sys2Proof.Machine.execMotFrame h hdr side frameNo tick mtype values s
  | .sampleMarker h hdr sid side marker => Sys2Proof.Machine.execSampleMarker h hdr sid side marker s
  | .sampleFrame h hdr sid side payload => Sys2Proof.Machine.execSampleFrame h hdr sid side payload s
  | .aln h lane arrival alnSeq corrected uncorrectable => Sys2Proof.Machine.execAln h lane arrival alnSeq corrected uncorrectable s
  | .deskewMove h lane => Sys2Proof.Machine.execDeskewMove h lane s
  | .stopAck h hdr reason safeLevel => Sys2Proof.Machine.execStopAck h hdr reason safeLevel s
  | .stopAckTimeout h => Sys2Proof.Machine.execStopAckTimeout h s
  | .credit h hdr sid side frames => Sys2Proof.Machine.execCredit h hdr sid side frames s
  | .err h hdr code sid side winId => Sys2Proof.Machine.execErr h hdr code sid side winId s
  | .wdone h hdr side winId bits => Sys2Proof.Machine.execWdone h hdr side winId bits s
  | .keepalive h hdr => Sys2Proof.Machine.execKeepalive h hdr s
  | .spinUpGroupStart => Sys2Proof.Machine.execSpinUpGroupStart s
  | .namespaceReady n ledger => Sys2Proof.Machine.execNamespaceReady n ledger s
  | .transitFrame n obs => Sys2Proof.Machine.execTransitFrame n obs s
  | .toneUnlock n => Sys2Proof.Machine.execToneUnlock n s
  | .transitAcquisitionTimeout n => Sys2Proof.Machine.execTransitAcquisitionTimeout n s
  | .headsOffRamp n => Sys2Proof.Machine.execHeadsOffRamp n s
  | .headsOnRamp n => Sys2Proof.Machine.execHeadsOnRamp n s
  | .reacq n writer => Sys2Proof.Machine.execReacq n writer s
  | .alignmentBurst n obs => Sys2Proof.Machine.execAlignmentBurst n obs s
  | .radOfs n k writer value => Sys2Proof.Machine.execRadOfs n k writer value s
  | .timOfs n k writer value => Sys2Proof.Machine.execTimOfs n k writer value s
  | .epochOpen e writer src => Sys2Proof.Machine.execEpochOpen e writer src s
  | .epochCommit e writer num chaffSameCycle => Sys2Proof.Machine.execEpochCommit e writer num chaffSameCycle s
  | .epochChaff e writer num => Sys2Proof.Machine.execEpochChaff e writer num s
  | .preseekChaffTimeout n => Sys2Proof.Machine.execPreseekChaffTimeout n s
  | .opRead e writer => Sys2Proof.Machine.execOpRead e writer s
  | .opWrite e writer => Sys2Proof.Machine.execOpWrite e writer s
  | .opSeek e writer => Sys2Proof.Machine.execOpSeek e writer s
  | .opRunaheadRead e writer => Sys2Proof.Machine.execOpRunaheadRead e writer s
  | .preemption n => Sys2Proof.Machine.execPreemption n s
  | .sectorVerdict l obs => Sys2Proof.Machine.execSectorVerdict l obs s
  | .captureCopyDone l secdedErr => Sys2Proof.Machine.execCaptureCopyDone l secdedErr s
  | .tapData l who value => Sys2Proof.Machine.execTapData l who value s
  | .tapCommit l writer => Sys2Proof.Machine.execTapCommit l writer s
  | .failureNoticeTaken => Sys2Proof.Machine.execFailureNoticeTaken s
  | .decodeUnitDone d => Sys2Proof.Machine.execDecodeUnitDone d s
  | .recoveryDeadline slot => Sys2Proof.Machine.execRecoveryDeadline slot s
  | .remapFlush n => Sys2Proof.Machine.execRemapFlush n s
  | .ledgerGenerationDurable n kind => Sys2Proof.Machine.execLedgerGenerationDurable n kind s
  | .wtData n who value => Sys2Proof.Machine.execWtData n who value s
  | .wtCommit n writer => Sys2Proof.Machine.execWtCommit n writer s
  | .windowEnd n => Sys2Proof.Machine.execWindowEnd n s
  | .loopRun g ts => Sys2Proof.Machine.execLoopRun g ts s
  | .loopWatchdog g => Sys2Proof.Machine.execLoopWatchdog g s
  | .retractPhaseEnd n => Sys2Proof.Machine.execRetractPhaseEnd n s
  | .enable g writer on => Sys2Proof.Machine.execEnable g writer on s
  | .modeReq g writer mode => Sys2Proof.Machine.execModeReq g writer mode s
  | .swap g writer => Sys2Proof.Machine.execSwap g writer s
  | .tuneTimeout g => Sys2Proof.Machine.execTuneTimeout g s
  | .spPush n writer => Sys2Proof.Machine.execSpPush n writer s
  | .frameBoundary n => Sys2Proof.Machine.execFrameBoundary n s
  | .spinStart h writer => Sys2Proof.Machine.execSpinStart h writer s
  | .spinStop h writer => Sys2Proof.Machine.execSpinStop h writer s
  | .spinTune h writer => Sys2Proof.Machine.execSpinTune h writer s
  | .spindlePeriod h obs => Sys2Proof.Machine.execSpindlePeriod h obs s
  | .senseEnd h bemf => Sys2Proof.Machine.execSenseEnd h bemf s
  | .alignEnd h => Sys2Proof.Machine.execAlignEnd h s
  | .handoffTimeout h => Sys2Proof.Machine.execHandoffTimeout h s
  | .startRetry h => Sys2Proof.Machine.execStartRetry h s
  | .brakeIntervalEnd h bemf => Sys2Proof.Machine.execBrakeIntervalEnd h bemf s
  | .brakeTimeout h => Sys2Proof.Machine.execBrakeTimeout h s
  | .spinupTimeout h => Sys2Proof.Machine.execSpinupTimeout h s
  | .reacqTimeout h => Sys2Proof.Machine.execReacqTimeout h s
  | .reacquisitionDone h bemf => Sys2Proof.Machine.execReacquisitionDone h bemf s
  | .unloadDone h => Sys2Proof.Machine.execUnloadDone h s
  | .busUndervoltage h => Sys2Proof.Machine.execBusUndervoltage h s
  | .faultDetection ftype inst info injected => Sys2Proof.Machine.execFaultDetection ftype inst info injected s
  | .faultRecovery ftype inst => Sys2Proof.Machine.execFaultRecovery ftype inst s
  | .reactionHoldTimeout n => Sys2Proof.Machine.execReactionHoldTimeout n s
  | .fltStat blk writer offset value => Sys2Proof.Machine.execFltStat blk writer offset value s
  | .injArm blk writer alias_ => Sys2Proof.Machine.execInjArm blk writer alias_ s
  | .dis target writer force alsoEn => Sys2Proof.Machine.execDis target writer force alsoEn s
  | .en target writer => Sys2Proof.Machine.execEn target writer s
  | .housekeepingRound obs => Sys2Proof.Machine.execHousekeepingRound obs s
  | .calReq scope writer mask => Sys2Proof.Machine.execCalReq scope writer mask s
  | .calDeferMaxExpiry scope item => Sys2Proof.Machine.execCalDeferMaxExpiry scope item s
  | .exclusiveMediaSlotEnd n => Sys2Proof.Machine.execExclusiveMediaSlotEnd n s
  | .dimmSensorRead temps => Sys2Proof.Machine.execDimmSensorRead temps s
  | .patrolScrub line ecc => Sys2Proof.Machine.execPatrolScrub line ecc s
  | .granaryRangeGo ix writer => Sys2Proof.Machine.execGranaryRangeGo ix writer s
  | .cleanAndInvalidate ix => Sys2Proof.Machine.execCleanAndInvalidate ix s
  | .discardAndInvalidate ix => Sys2Proof.Machine.execDiscardAndInvalidate ix s
  | .preload ix => Sys2Proof.Machine.execPreload ix s
  | .preloadAndLock ix => Sys2Proof.Machine.execPreloadAndLock ix s
  | .unlock ix => Sys2Proof.Machine.execUnlock ix s
  | .rangeOperationDone ix => Sys2Proof.Machine.execRangeOperationDone ix s
  | .gleaningWriteBackDone line => Sys2Proof.Machine.execGleaningWriteBackDone line s
  | .tracePut writer => Sys2Proof.Machine.execTracePut writer s
  | .auditPut writer => Sys2Proof.Machine.execAuditPut writer s
  | .snapshotOpen handle writer close => Sys2Proof.Machine.execSnapshotOpen handle writer close s
  | .snapshotClose handle writer => Sys2Proof.Machine.execSnapshotClose handle writer s
  | .snapshotIdleClose handle => Sys2Proof.Machine.execSnapshotIdleClose handle s
  | .hostSnapshotOpen => Sys2Proof.Machine.execHostSnapshotOpen s
  | .hostSnapshotClose => Sys2Proof.Machine.execHostSnapshotClose s
  | .pageSeqAdvance => Sys2Proof.Machine.execPageSeqAdvance s
  | .norCopy ok => Sys2Proof.Machine.execNorCopy ok s
  | .hourMark => Sys2Proof.Machine.execHourMark s
  | .heartbeatSend => Sys2Proof.Machine.execHeartbeatSend s
  | .heartbeat hdr msg => Sys2Proof.Machine.execHeartbeat hdr msg s
  | .electionListenEnd => Sys2Proof.Machine.execElectionListenEnd s
  | .claim hdr prio => Sys2Proof.Machine.execClaim hdr prio s
  | .join hdr eligible prio portDecl => Sys2Proof.Machine.execJoin hdr eligible prio portDecl s
  | .joinAck hdr memberId result => Sys2Proof.Machine.execJoinAck hdr memberId result s
  | .requestResend => Sys2Proof.Machine.execRequestResend s
  | .tokenReq hdr msg => Sys2Proof.Machine.execTokenReq hdr msg s
  | .tokenGrant hdr reqId tokenId watts => Sys2Proof.Machine.execTokenGrant hdr reqId tokenId watts s
  | .tokenReturn hdr tokenId => Sys2Proof.Machine.execTokenReturn hdr tokenId s
  | .returnAck hdr tokenId => Sys2Proof.Machine.execReturnAck hdr tokenId s
  | .tokenState hdr tokens => Sys2Proof.Machine.execTokenState hdr tokens s
  | .drawSend => Sys2Proof.Machine.execDrawSend s
  | .draw hdr steady total curPs portsUp => Sys2Proof.Machine.execDraw hdr steady total curPs portsUp s
  | .memberAbsent id holdPassed => Sys2Proof.Machine.execMemberAbsent id holdPassed s
  | .managerLost => Sys2Proof.Machine.execManagerLost s
  | .takeoverHoldEnd => Sys2Proof.Machine.execTakeoverHoldEnd s
  | .imageOffer hdr xferId target length => Sys2Proof.Machine.execImageOffer hdr xferId target length s
  | .imageChunk hdr xferId index data norOk => Sys2Proof.Machine.execImageChunk hdr xferId index data norOk s
  | .imageNeedSend => Sys2Proof.Machine.execImageNeedSend s
  | .imageNeed hdr xferId firstMissing => Sys2Proof.Machine.execImageNeed hdr xferId firstMissing s
  | .imageResult hdr xferId status step => Sys2Proof.Machine.execImageResult hdr xferId status step s
  | .imageTransferTimeout => Sys2Proof.Machine.execImageTransferTimeout s
  | .auditPull hdr fromSeq => Sys2Proof.Machine.execAuditPull hdr fromSeq s
  | .auditPageSend => Sys2Proof.Machine.execAuditPageSend s
  | .auditPage hdr last broken records => Sys2Proof.Machine.execAuditPage hdr last broken records s
  | .calWindow hdr member startMs lengthMs => Sys2Proof.Machine.execCalWindow hdr member startMs lengthMs s
  | .ptpSync offsetNs seconds nanoseconds => Sys2Proof.Machine.execPtpSync offsetNs seconds nanoseconds s
  | .ptpSyncTimeout => Sys2Proof.Machine.execPtpSyncTimeout s
  | .group1WithinTolerance => Sys2Proof.Machine.execGroup1WithinTolerance s
  | .vddIoOutOfTolerance => Sys2Proof.Machine.execVddIoOutOfTolerance s
  | .pcieLinkUp rate width flit => Sys2Proof.Machine.execPcieLinkUp rate width flit s
  | .mctpMessage nvmeMi tag tagOwner message => Sys2Proof.Machine.execMctpMessage nvmeMi tag tagOwner message s
  | .coalescingTimeExpiry vector => Sys2Proof.Machine.execCoalescingTimeExpiry vector s
  | .joinRetry => Sys2Proof.Machine.execJoinRetry s
  | .ptpSyncInterval => Sys2Proof.Machine.execPtpSyncInterval s
  | .orreryPortUpChange p up => Sys2Proof.Machine.execOrreryPortUpChange p up s
  | .mainMemoryAccess who secure addr wr len obs => Sys2Proof.Machine.execMainMemoryAccess who secure addr wr len obs s

end Sys2Proof.Machine
end

