-- ==== Sys2Proof/Machine/Step.lean ====
section
/-!
DEFINITION. Machine/Step.lean: one step of the block: the command at the front of the queue, on the state with the queue's
rest. With no command waiting the block idles, and its link transmitters' clock runs on (logs 1 and 159): what else the spec does at a
clock is rows of the table.
-/

namespace Sys2Proof.Machine

/-- Take the front command and run it. DESIGN CHOICE: logs 1, 14 and 159. -/
def step (s : State) : Host.Outcome State Fault Refusal :=
  match s.pending with
  | [] => .next s.idle
  | c :: rest => exec c { s with pending := rest }

/-- Put the command a word spells at the front of the queue. The table gives no row any bits, so no word spells one. DESIGN CHOICE: log 13. -/
def State.withFetchWord (s : State) (nbits w : Nat) : State :=
  match decodeTableWord nbits w with
  | some c => { s with pending := c :: s.pending }
  | none => s

end Sys2Proof.Machine
end

