-- ==== Sys2Proof/Machine/Reads.lean ====
section
/-!
DEFINITION. Machine/Reads.lean: what a register read returns (R8, R10, R24, R27): the read column of every register map of spec/.
The table gives no row to a plain read, which changes no state: these are functions of the state. The reads that act (locks, R87; the last
data word of a compatibility channel, R82; the table windows, R218 and R286; the host's snapshot port, R461) are rows, and show here what
they return without their action.
-/

namespace Sys2Proof.Machine

/-! ### Fields of the register file (R8, R10) -/

/-- One field as an initiator reads it: a WO field reads zero, an HO field reads zero to every initiator but Husk (R10). -/
def State.fieldRead (s : State) (who : Nat) (f : RegField) (i j : Nat) : Word :=
  match f.acc with
  | .WO => 0
  | .HO => if who = idHusk then s.rdAt f i j else 0
  | .RW | .RO | .W1C | .RWL =>
    if f = Reg.flt_FLT_STAT then s.fltStat i
    else if f = Reg.engine_RUNAHEAD_MAX then BitVec.ofNat 32 (s.runaheadMax i)
    else if f = Reg.lane_TAP_DATA then BitVec.ofNat 32 (Sparse.read (s.lane i).shadow (s.rdN Reg.lane_TAP_ADDR i / 2) 0)
    else if f = Reg.wa_WT_DATA then BitVec.ofNat 32 (Sparse.read (s.act i).shadowTable (s.rdN Reg.wa_WT_ADDR i / 4) 0)
    else s.rdAt f i j

/-- The fields of one block instance at an address, each in its place; every other bit is reserved and reads as zero (R8). -/
def State.blkRead (s : State) (who : Nat) (b : Blk) (i addr : Nat) : Word :=
  (Regs.ofBlk b).foldl (fun v f =>
    (List.range f.n).foldl (fun v j => if f.addr i j = addr then v ||| (f.trunc (s.fieldRead who f i j) <<< f.lo) else v) v) 0

/-! ### The structures that are not in the register file -/

def b2w (b : Bool) (k : Nat) : Word := if b then BitVec.ofNat 32 (2 ^ k) else 0

/-- Word k of a little-endian quantity. -/
def natWord (x k : Nat) : Word := BitVec.ofNat 32 (x / 2 ^ (32 * k))

/-- A register of direction d of a mailbox channel (R79). -/
def State.mbRead (s : State) (ch d off : Nat) : Word :=
  let m := s.mb ch d
  let c := s.chan ch
  if off < 0x40 then (if off / 4 < c.regs then m.data.toArray.getD (off / 4) 0 else 0)
  else if off = 0x44 then
    b2w m.full 0 ||| b2w m.aborted 1 ||| b2w m.cross 2 ||| b2w m.ovr 3 ||| BitVec.ofNat 32 (16 * (c.size % 4)) ||| b2w c.compat 6 ||| b2w c.secure 7
      ||| (m.sender.setWidth 32 <<< 8) ||| (m.msgCnt.setWidth 32 <<< 16)
  else if off = 0x48 then b2w m.fullIe 0 ||| b2w m.emptyIe 1 ||| b2w m.abortIe 2 ||| b2w m.crossIe 3 ||| (m.hostVec.setWidth 32 <<< 16)
  else if off = 0x4C then b2w m.fullI 0 ||| b2w m.emptyI 1 ||| b2w m.abortI 2 ||| b2w m.crossI 3
  else 0

/-- LOCK_PEEK of lock i (R87). -/
def Lock.peek (l : Lock) : Word := b2w l.owner.isSome 1 ||| ((l.owner.getD 0).setWidth 32 <<< 8) ||| (l.rrPtr.setWidth 32 <<< 16)

/-- A window register (R64). -/
def Win.read (x : Win) (reg : Nat) : Word :=
  if reg = 0 then BitVec.ofNat 32 (x.base % 2 ^ 20 * 4096)
  else if reg = 1 then BitVec.ofNat 32 (x.base / 2 ^ 20)
  else if reg = 2 then BitVec.ofNat 32 (x.lim % 2 ^ 20 * 4096)
  else BitVec.ofNat 32 (x.lim / 2 ^ 20) ||| b2w x.rd 16 ||| b2w x.wr 17 ||| b2w x.exec 18 ||| b2w x.en 31

/-- A violation register (R66). -/
def Viol.read (x : Viol) (reg : Nat) : Word :=
  if reg = 0 then BitVec.ofNat 32 x.cnt
  else if reg = 1 then natWord x.addr.toNat 0
  else if reg = 2 then natWord x.addr.toNat 1 ||| b2w x.wr 16 ||| b2w x.dom 17
  else 0

/-- Word k of a media queue entry as its engine sees it (R190). -/
def MqEntry.word (e : MqEntry) (ready : Bool) (k : Nat) : Word :=
  match k with
  | 0 => 1 ||| b2w ready 1 ||| BitVec.ofNat 32 (4 * e.prio + 32 * e.opc) ||| b2w e.nsConv 8 ||| b2w e.fua 9 ||| BitVec.ofNat 32 (65536 * e.slot)
  | 1 => natWord e.lba 0
  | 2 => natWord e.lba 1
  | 3 => BitVec.ofNat 32 e.count
  | 4 => natWord e.stamp 0
  | 5 => natWord e.stamp 1
  | 6 => BitVec.ofNat 32 e.arrival
  | _ => 0

/-- The media queue window of an engine: entry i at 0x4_0000 + 32i; an entry not in use reads as zero (R190). -/
def State.mqRead (s : State) (e o : Nat) : Word :=
  match s.engAct e with
  | none => 0
  | some n =>
    let a := s.act n
    match a.mq.find? (fun x => x.idx == (o - 0x40000) / 32) with
    | some x => x.word (a.ready? x) (o / 4 % 8)
    | none => 0

/-- Word w of record `seq` through a handle: zero outside FIRST to LAST, while closed, or while broken (R459, R461, R462). -/
def State.snapWord (s : State) (h seq w : Nat) : Word :=
  let p := s.snap h
  if p.isOpen = false ∨ p.broken ∨ seq < p.first ∨ p.last < seq then 0
  else
    match s.alm.audit.find? (fun r => r.seq == seq) with
    | some r => BitVec.ofNat 32 (le32 (r.bytes 2) (4 * w))
    | none => 0

/-- The Almanac registers that R450 to R460 keep (R462). US64_HI is what the latch of a read of US64_LO takes at that moment. -/
def State.almRead (s : State) (o : Nat) : Word :=
  let a := s.alm
  if o = 0x00 then natWord a.us64.toNat 0
  else if o = 0x04 then natWord a.us64.toNat 1
  else if o = 0x08 then BitVec.ofNat 32 a.hours
  else if o = 0x0C then BitVec.ofNat 32 a.usec
  else if o = 0x10 then natWord s.husk.serial.toNat 0
  else if o = 0x14 then natWord s.husk.serial.toNat 1
  else if o = 0x18 then BitVec.ofNat 32 a.clrGen
  else if o = 0x20 then natWord a.traceHead 0
  else if o = 0x24 then natWord a.traceHead 1
  else if o = 0x30 then natWord a.auditLast 0
  else if o = 0x34 then natWord a.auditLast 1
  else if (o / 0x100 = 1 ∨ o / 0x100 = 3) ∧ 0x40 ≤ o % 0x100 ∧ o % 0x100 < 0x80 then
    let h := o / 0x100
    s.snapWord h ((s.rd Reg.snap_IDX_LO h).toNat + 2 ^ 32 * (s.rd Reg.snap_IDX_HI h).toNat) ((o % 0x100 - 0x40) / 4)
  else 0

/-- Entry j of the commutation table (R315): sin(2πj ÷ 1,024), 16 bits, two entries to a word. -/
def sinWord (k : Nat) : Word :=
  BitVec.ofInt 16 (sinEntry (2 * k + 1)) ++ BitVec.ofInt 16 (sinEntry (2 * k))

/-- The per-instance pending bits of a Heliostat unit (R440): WD_PEND at + 0x40 and + 0x44, ARITH_PEND at + 0x48 and + 0x4C. -/
def State.pendRead (s : State) (u o : Nat) : Word :=
  let x := if o < 0x48 then s.flt.wdPend else s.flt.arithPend
  BitVec.ofNat 32 (x.toNat / 2 ^ (64 * u + 32 * (o / 4 % 2)))

/-! ### One read (R24, R63) -/

/-- What stands at an internal address that stages 1 and 2 let an initiator read. Channel registers, locks, windows, violation records,
engine memory and the tables above are of their own; everything else is the register file, and what no table lists reads as zero. -/
def State.plainRead (s : State) (who addr : Nat) : Word :=
  match windowIdx addr with
  | some i =>
    let o := addr % 0x100000
    if i = 1 then (if o < 0x4000 then s.mbRead (o / 0x100) (o / 0x80 % 2) (o % 0x80) else 0)
    else if i = 2 then
      (if o < 0x400 then lockValue false (s.lock (o / 4)).owner.isSome ((s.lock (o / 4)).owner.getD 0)
       else if o < 0x800 then (s.lock ((o - 0x400) / 4)).peek else 0)
    else if i = 0 ∧ 0x10000 ≤ o ∧ o < 0x18000 then (if who = idHusk then (s.win ((o - 0x10000) / 0x80) (o / 0x10 % 8)).read (o / 4 % 4) else 0)
    else if i = 0 ∧ 0x18000 ≤ o ∧ o < 0x19000 then (if who = idHusk then (s.violOf ((o - 0x18000) / 0x10)).read (o / 4 % 4) else 0)
    else if 0x20 ≤ i ∧ i < 0x64 ∧ 0x80000 ≤ o ∧ o < 0xC0000 then
      BitVec.ofNat 32 (le32 ((List.range 4).map (fun k => Sparse.read s.engMem ((i - 0x20) * 0x40000 + (o - 0x80000) + k) 0)) 0)
    else if 0x20 ≤ i ∧ i < 0x64 ∧ 0x40000 ≤ o ∧ o < 0x80000 then s.mqRead (i - 0x20) o
    else if 0x0C ≤ i ∧ i < 0x10 ∧ 0x78000 ≤ o ∧ o < 0x78800 then sinWord ((o - 0x78000) / 4)
    else if 0x70 ≤ i ∧ i < 0x74 ∧ 0x140 ≤ o ∧ o < 0x150 then s.pendRead (i - 0x70) (o - 0x100)
    else
      let v := (blksAt addr).foldl (fun v b => v ||| s.blkRead who b.1 b.2 addr) 0
      let v := match injAlias addr with | some b => v ||| (s.rd Reg.flt_INJ_CNT b <<< 8) | none => v
      if i = 0x11 ∧ 0x20000 ≤ o ∧ o < 0x30000 then v ||| s.almRead (o - 0x20000) else v
  | none => if inSram addr then BitVec.ofNat 32 (le32 (s.memRead addr 4) 0) else 0

/-- A read of a 32-bit register by an initiator with an internal address: zero where R20, R24 and R63 refuse it. -/
def State.regRead (s : State) (who : Initiator) (addr : Nat) : Word :=
  if addr % 4 = 0 ∧ s.access who.toNat addr false = .ok then s.plainRead who.toNat addr else 0

/-! ### The host's registers (R25, R26, R332, R461) -/

/-- CAP (R332): MQES 15:0, CQR 16, AMS 18:17, TO 31:24 (500 ms units: R101's 120), DSTRD 35:32, NSSRS 36, CSS 44:37, MPSMIN 51:48, MPSMAX 55:52.
PRESUMED: log 185. -/
def ctrlCap : BitVec 64 :=
  0xFFFF ||| (1 <<< 16) ||| (1 <<< 17) ||| (120 <<< 24) ||| (0 <<< 32) ||| (1 <<< 36) ||| (0x41 <<< 37) ||| (0 <<< 48) ||| (4 <<< 52)

/-- VS: NVMe 2.0 (R332). -/
def ctrlVs : Word := 0x00020000

/-- A host read in BAR index 0 (R25, R332); a doorbell reads as zero. PRESUMED: log 185. -/
def State.bar0Read (s : State) (ofs : Nat) : Word :=
  if ofs = 0x00 then natWord ctrlCap.toNat 0
  else if ofs = 0x04 then natWord ctrlCap.toNat 1
  else if ofs = 0x08 then ctrlVs
  else if ofs = 0x14 then s.host.cc
  else if ofs = 0x1C then b2w s.host.rdy 0 ||| BitVec.ofNat 32 (4 * s.host.shst) ||| b2w s.host.nssro 4
  else if ofs = 0x24 then s.host.aqa
  else if ofs = 0x28 then natWord s.host.asq.toNat 0
  else if ofs = 0x2C then natWord s.host.asq.toNat 1
  else if ofs = 0x30 then natWord s.host.acq.toNat 0
  else if ofs = 0x34 then natWord s.host.acq.toNat 1
  else if 0x20000 ≤ ofs ∧ ofs < 0x30010 then
    let i := (ofs - 0x20000) / 4
    (s.host.msix.lookup i).getD (if i % 4 = 3 then 1 else 0)
  else if 0x38000 ≤ ofs ∧ ofs < 0x38208 then
    (List.range 32).foldl (fun v k => v ||| b2w (s.host.pba.contains (32 * ((ofs - 0x38000) / 4) + k)) k) 0
  else 0

/-- A host read in BAR index 2: mailbox channels 0 to 15, and the snapshot port of handle 0 (R26, R461). -/
def State.bar2Read (s : State) (ofs : Nat) : Word :=
  let p := s.snap 0
  if ofs < 0x1000 then s.mbRead (ofs / 0x100) (ofs / 0x80 % 2) (ofs % 0x80)
  else if ofs = 0x8000 ∨ ofs = 0x8008 ∨ ofs = 0x800C then p.status
  else if ofs = 0x8010 then natWord p.first 0
  else if ofs = 0x8014 then natWord p.first 1
  else if ofs = 0x8018 then natWord p.last 0
  else if ofs = 0x801C then natWord p.last 1
  else if ofs = 0x8020 then natWord p.page 0
  else if ofs = 0x8024 then natWord p.page 1
  else if 0x8200 ≤ ofs ∧ ofs < 0x8200 + 64 * 504 then s.snapWord 0 (p.page + (ofs - 0x8200) / 64) (ofs / 4 % 16)
  else 0

/-! ### The SPI NOR flash (R97) -/

/-- The 64 KiB of a ring sector (R457): its header in slot 0, records in slots 1 to 1,023; flash not written since its erase reads as 0xFF. -/
def NorSector.bytes (x : NorSector) : List Byte :=
  let h := [0x41, 0x4C, 0x4D, 0x31] ++ toLe 8 x.sectSeq ++ toLe 8 x.firstSeq ++ toLe 4 x.clrGen ++ List.replicate 36 (0 : Byte)
  h ++ toLe 4 (crc32c h) ++ x.recs.flatMap (fun r => r.bytes 2)

/-- A byte of the NOR flash: R97's areas at their offsets. The calibration and sanitize areas hold records whose places within them the spec
does not give: they are held by record number (Husk.calNor, Husk.sanitizeNor). The reserved area is never written. -/
def State.norByte (s : State) (ofs : Nat) : Option Byte :=
  let within (a : NorArea) : Bool := a.offset ≤ ofs && ofs < a.offset + a.size
  if within .bundleA then some (s.husk.bundleA.getD ofs 0xFF)
  else if within .bundleB then some (s.husk.bundleB.getD (ofs - NorArea.offset .bundleB) 0xFF)
  else if within .imageA then some (s.husk.imageA.getD (ofs - NorArea.offset .imageA) 0xFF)
  else if within .imageB then some (s.husk.imageB.getD (ofs - NorArea.offset .imageB) 0xFF)
  else if within .audit then
    let o := ofs - NorArea.offset .audit
    match s.alm.nor.find? (fun x => x.index == o / 65536) with
    | some x => some (x.bytes.getD (o % 65536) 0xFF)
    | none => some 0xFF
  else if within .reserved then some 0xFF
  else none

end Sys2Proof.Machine
end

