-- ==== Sys2Proof/Machine/Package.lean ====
section
/-!
DEFINITION. Machine/Package.lean: what 20_electrical_and_package.md fixes as data: supply rails (R484, R485), the names and places of the balls
(R494 to R499) and the ordering codes (R500, R501). The limits a board must meet (R486 to R488, R492, R493) have no effect on
the state (DEDUCED: log 188).
-/

namespace Sys2Proof.Machine

/-! ### Rails (R484, R485) -/

/-- A supply rail: nominal in mV, tolerance in tenths of a percent, currents in 0.01 A (PS0 maximum and typical, PS3, PS4), and the absolute
maximum in mV (R484; the minimum of every rail is −300 mV). -/
structure Rail where
  name : String
  nominal : Nat
  tol : Nat
  ps0Max : Nat
  ps0Typ : Nat
  ps3 : Nat
  ps4 : Nat
  absMax : Nat
  deriving DecidableEq, Repr

/-- The nine rails; VDD_IO, `io` mV, is 1,800 or 3,300. -/
def rails (io : Nat) : List Rail :=
  [⟨"VDD_CORE", 750, 30, 12000, 9040, 1200, 310, 1000⟩, ⟨"VDD_SRAM", 800, 30, 1200, 900, 150, 50, 1000⟩,
   ⟨"VDD_AWN09", 900, 20, 2400, 1600, 300, 40, 1000⟩, ⟨"VDD_AWN12", 1200, 30, 600, 400, 60, 10, 1400⟩,
   ⟨"VDD_PCIE09", 900, 20, 600, 500, 60, 40, 1000⟩, ⟨"VDD_PCIE12", 1200, 30, 200, 150, 20, 10, 1400⟩,
   ⟨"VDD_DDR", 1100, 30, 1000, 800, 40, 10, 1400⟩, ⟨"VDD_IO", io, 50, 30, 20, 3, 3, 3800⟩,
   ⟨"VDD_AON", 800, 50, 10, 5, 5, 5, 1000⟩]

/-- Total power in 10 µW of one column of R485. -/
def railPower (io : Nat) (col : Rail → Nat) : Nat := ((rails io).map (fun r => r.nominal * col r)).sum

/-- A rail's level in mV is within its tolerance. -/
def Rail.ok (r : Rail) (mv : Nat) : Bool := r.nominal * (1000 - r.tol) ≤ 1000 * mv && 1000 * mv ≤ r.nominal * (1000 + r.tol)

/-! ### Ball names (R494) -/

/-- The 19 row letters. -/
def rowLetters : List String :=
  ["A", "B", "C", "D", "E", "F", "G", "H", "J", "K", "L", "M", "N", "P", "T", "U", "V", "W", "Y"]

/-- The letters of row `r`, 1 to 68. -/
def rowName (r : Nat) : String :=
  let k := r - 1
  (["", "A", "B", "C"].getD (k / 19) "") ++ rowLetters.getD (k % 19) ""

/-- A ball: its row and its column, both from 1. -/
structure Ball where
  row : Nat
  col : Nat
  deriving DecidableEq, Repr

/-- Row, then column. -/
def Ball.name (b : Ball) : String := rowName b.row ++ toString b.col

/-- The five regions (R495). -/
inductive Region where
  | west | east | north | centre | south
  deriving DecidableEq, Repr

def Ball.region (b : Ball) : Region :=
  if b.col ≤ 10 then .west else if 59 ≤ b.col then .east
  else if b.row ≤ 20 then .north else if b.row ≤ 48 then .centre else .south

/-! ### Awn (R496) -/

/-- P ball of physical lane i of HDA h: DN where `down`, else UP. The N ball is one column further. -/
def awnBall (h i : Nat) (down : Bool) : Ball :=
  let q := h / 8
  ⟨3 + 32 * (q % 2) + 4 * (h % 8) + i, if q < 2 then (if down then 2 else 6) else (if down then 66 else 62)⟩

/-- P ball of the reference clock of quadrant q. -/
def awnRef (q : Nat) : Ball := ⟨if q % 2 = 0 then 1 else 68, if q < 2 then 2 else 66⟩

/-! ### DDR (R497) -/

/-- A signal of a DDR subchannel, in the order in which it takes its balls. -/
inductive DdrSig where
  | dq (k : Nat) | dqsT (g : Nat) | dqsC (g : Nat) | ck (k : Nat) (n : Bool) | ca (k : Nat) | cs (k : Nat) | par
  | side (k : Nat) | reserved (k : Nat)
  deriving DecidableEq, Repr

/-- The 80 signals of a subchannel. Sideband 0 and 1 are SPD_SCL and SPD_SDA on A, DRAM_RESET_N and DIMM_ALERT_N on B. -/
def ddrSigs : List DdrSig :=
  (List.range 10).flatMap (fun g => (List.range 4).map (fun k => DdrSig.dq (4 * g + k)) ++ [.dqsT g, .dqsC g])
    ++ [.ck 0 false, .ck 0 true, .ck 1 false, .ck 1 true] ++ (List.range 7).map DdrSig.ca ++ (List.range 4).map DdrSig.cs
    ++ [.par, .side 0, .side 1, .reserved 0, .reserved 1]

/-- The local columns that carry signals. -/
def ddrCols : List Nat := [1, 2, 4, 5, 7, 8, 10, 11]

/-- The ball of position k of subchannel A or B of DDR channel c. -/
def ddrBall (c : Nat) (subB : Bool) (k : Nat) : Ball :=
  ⟨(if subB then 11 else 1) + k / 8, 10 + 12 * c + ddrCols.getD (k % 8) 0⟩

/-- The signal on a ball of the north region: none where it is power or ground. -/
def ddrAt (b : Ball) : Option (Nat × Bool × DdrSig) :=
  let x := b.col - 11
  match ddrCols.idxOf? (x % 12 + 1) with
  | some j =>
    let k := 8 * ((b.row - 1) % 10) + j
    (ddrSigs[k]?).map (fun g => (x / 12, 10 < b.row, g))
  | none => none

/-! ### The south region (R498) -/

/-- P ball of PCIe lane i. -/
def pcieBall (i : Nat) (tx : Bool) : Ball := ⟨if tx then 62 else 64, 11 + 3 * i⟩

/-- P ball of Orrery port p. -/
def orreryBall (p : Nat) (tx : Bool) : Ball := ⟨58, (if tx then 20 else 23) + 6 * p⟩

def safeBall (h : Nat) : Ball := ⟨68, 11 + h⟩

/-- The other named balls of the region, by row and first column. -/
def southNames : List (Nat × Nat × List String) :=
  [(58, 11, ["PCIE_REFCLK_P", "PCIE_REFCLK_N"]),
   (58, 35, ["VSENSE_CORE", "VSENSE_GND", "VSENSE_SRAM", "VSENSE_AWN09"]),
   (58, 57, ["XTAL_IN", "XTAL_OUT"]),
   (67, 11, ["PERST_N", "PWR_OK", "RST_N", "FAULT_N", "MGR_SEL", "MGMT_I3C", "MGMT_SCL", "MGMT_SDA", "MGMT_ALERT_N"]),
   (67, 21, ["TCK", "TMS", "TDI", "TDO", "TRST_N", "TEST_MODE"]),
   (68, 43, ["SPI_CLK", "SPI_CS_N", "SPI_DQS", "SPI_RESET_N", "SPI_DQ0", "SPI_DQ1", "SPI_DQ2", "SPI_DQ3", "SPI_DQ4", "SPI_DQ5", "SPI_DQ6",
     "SPI_DQ7"])]

/-- The ball of a named system, management, test or SPI signal. -/
def southBall (name : String) : Option Ball :=
  southNames.findSome? (fun e => (e.2.2.idxOf? name).map (fun k => ⟨e.1, e.2.1 + k⟩))

/-! ### Groups (R499) -/

/-- Balls of each group. -/
def ballGroups : List (String × Nat) :=
  [("Awn lanes and references", 32 * 4 * 4 + 4 * 2), ("SAFE_n", 32), ("PCIe lanes, reference, PERST_N", 67), ("DDR", 640), ("Orrery", 8),
   ("SPI NOR", 12), ("management", 4), ("system", 6), ("test", 6), ("remote sense", 4), ("reserved in row CK", 29), ("VDD_CORE", 640),
   ("VDD_SRAM", 128), ("VDD_AWN09", 224), ("VDD_AWN12", 96), ("VDD_PCIE09", 40), ("VDD_PCIE12", 24), ("VDD_DDR", 208), ("VDD_IO", 24),
   ("VDD_AON", 8), ("VSS", 1904)]

/-- Balls in all. -/
def ballCount : Nat := (ballGroups.map (·.2)).sum

/-! ### Ordering codes and marking (R500, R501) -/

/-- An ordering code: ports, PCIe Device ID and Identify NN. -/
structure OrderCode where
  code : String
  ports : Nat
  deviceId : Nat
  nn : Nat
  deriving DecidableEq, Repr

/-- The code of a part: the fuses of R3 make it WB3264-H. -/
def orderCode (variantH : Bool) : OrderCode :=
  if variantH then ⟨"WB3264-H", 16, 0x3216, 64⟩ else ⟨"WB3264-A", 32, 0x3264, 128⟩

def hexDigit (n : Nat) : String := ["0", "1", "2", "3", "4", "5", "6", "7", "8", "9", "A", "B", "C", "D", "E", "F"].getD n ""

/-- The lid's lines: date is the assembly date code with the lot code (R501). -/
def lidLines (variantH : Bool) (date : String) (serial : BitVec 64) : List String :=
  let digit (k : Nat) : String := hexDigit (serial.toNat / 16 ^ (15 - k) % 16)
  let group (g : Nat) : String := digit (4 * g) ++ digit (4 * g + 1) ++ digit (4 * g + 2) ++ digit (4 * g + 3)
  ["GURRAFY", (orderCode variantH).code ++ " B1", date, group 0 ++ " " ++ group 1 ++ " " ++ group 2 ++ " " ++ group 3]

end Sys2Proof.Machine
end

