-- ==== Sys2Proof/Safety.lean ====
section
/-!
DEFINITION. Safety.lean: what a step may never break, in the terms the statements use: what OTP holds changes one way only, main
memory and the register file keep their canonical form, no command touches the queue, and what has been recorded or sent
stays so.
-/

namespace Sys2Proof.Machine

/-- What OTP holds in `b` may follow what it holds in `a` (R3, R68, R70, R71): the fuses, the device root secret, the serial number and the
trims stay, the floor never falls, no key slot changes its digest, and a revoked slot stays revoked. -/
abbrev OtpLe (a b : Husk) : Prop :=
  b.variantH = a.variantH ∧ b.rootSecret = a.rootSecret ∧ b.serial = a.serial ∧ b.tTrim = a.tTrim ∧ b.sensTrim = a.sensTrim ∧ a.floor ≤ b.floor ∧
  b.slots.map (fun k => k.digest) = a.slots.map (fun k => k.digest) ∧
  ∀ (i : Nat) (k : KeySlot), a.slots[i]? = some k → k.revoked = true → ∃ k' : KeySlot, b.slots[i]? = some k' ∧ k'.revoked = true

/-- The register file lists each copy of a register at most once, keys rising. -/
abbrev State.fileOk (s : State) : Prop := Sparse.rising 0 s.regs = true

/-- What a command may do to a state `r`, whatever command it is. -/
structure Keeps (r s : State) : Prop where
  pending : s.pending = r.pending
  otp : OtpLe r.husk s.husk
  mem : Memory.wf r.mem = true → Memory.wf s.mem = true
  regs : r.fileOk → s.fileOk
  seq : r.alm.auditLast ≤ s.alm.auditLast
  sent : r.out <+: s.out
  fresh : r.fresh ≤ s.fresh

/-- The structure in force binds every actuator to an engine and a lane that exist (R5, R37, R38). -/
abbrev State.bindsOk (s : State) : Prop := ∀ n, n < 64 → s.engine n < 68 ∧ s.str.laneOf n < 64

/-! ### Conditions and answers that several statements name -/

/-- An initiator other than the host whose access to an address passes the stages of R63 and reaches a powered island (R20). -/
abbrev State.may (s : State) (who : Initiator) (addr : Nat) (wr : Bool) : Prop := who.toNat ≠ idHost ∧ s.access who.toNat addr wr = .ok

/-- An initiator that reaches a register of a mailbox direction: the host on channels 0 to 15 through BAR index 2, every other
through the internal space (R26, R63). -/
abbrev State.mbReach (s : State) (who : Initiator) (ch d off : Nat) (wr : Bool) : Prop :=
  (who.toNat = idHost ∧ ch < 16) ∨ s.may who (mbAddr ch d off) wr

/-- Nothing changes, but that an access may wake an island a power state had gated (R20). -/
abbrev State.onlyWakes (s t : State) : Prop := t = { s with gated := t.gated }

/-- Every mailbox direction but one stays. -/
abbrev State.mbOthers (s t : State) (ch d : Nat) : Prop := ∀ (c : Fin 64) (e : Fin 2), c.val ≠ ch ∨ e.val ≠ d → t.mb c e = s.mb c e

/-- Data register `i` of a direction. -/
def State.mbWord (s : State) (ch d i : Nat) : Nat := ((s.mb ch d).data.toArray.getD i 0).toNat

/-- Husk takes the request of channel `ch` next, on a native channel, with this opcode and zero beyond the registers listed (R72, R73). -/
abbrev State.huskAsks (s : State) (ch opc : Nat) (listed : List Nat) : Prop :=
  s.huskFree = true ∧ s.huskNext = some ch ∧ (s.chan ch).compat = false ∧ s.mbWord ch 0 0 = opc ∧
  ∀ i, 1 ≤ i → i < 16 → i ∉ listed → s.mbWord ch 0 i = 0

/-- The request is released, and Husk's reply waits on the channel: status, echoed opcode, register 2 (R72, R74). -/
abbrev State.huskAnswered (s : State) (ch opc status step : Nat) : Prop :=
  (s.mb ch 0).full = false ∧ (s.mb ch 1).full = true ∧ (s.mb ch 1).sender.toNat = idHusk ∧
  s.mbWord ch 1 0 = status ∧ s.mbWord ch 1 1 = opc ∧ s.mbWord ch 1 2 = step ∧ ch ∉ s.husk.requests

/-- An operation the sequencer may start (R204, R205, R242, R424). -/
abbrev State.goes (s : State) (e : Eng) (w : Initiator) (n : Nat) : Prop :=
  s.may w (Reg.engine_OP_GO.addr e 0) true ∧ s.engAct e = some n ∧ s.rdB Reg.engine_OP_BUSY e = false ∧ s.recWaits n = false ∧ s.creditOut n = false ∧
  s.mediaBarred n = false

/-- A slot holds a command of this opcode whose own row has not come yet (R341, R350); an admin command is of queue 0, and no sequencer holds a
Flush entry of a slot whose command is no Flush (R190). -/
abbrev State.unbegun (s : State) (slot : BitVec 16) (admin : Bool) (opc : Nat) (c : Cmd) : Prop :=
  s.cmd slot.toNat = some c ∧ c.admin = admin ∧ c.sqe.opc.toNat = opc ∧ c.begun = false ∧ c.aborted = false ∧ c.hold ≠ .posting ∧
  (admin = true → c.sq = 0) ∧ (admin = true ∨ opc ≠ 0 → ∀ n : Act, ∀ e ∈ (s.act n).mq, e.opc ≠ 4 ∨ e.slot ≠ c.slot)

/-- The completion queue of a command has room for its entry (R25, R350). -/
abbrev State.cqRoom (s : State) (c : Cmd) (q : Cq) : Prop :=
  s.cq (if c.admin then 0 else match s.sq c.sq with | some x => x.cq | none => 0) = some q ∧ q.full = false

/-- The command's entry is written with this status and its slot leaves use (R330, R341, R350). -/
abbrev State.answered (s t : State) (c : Cmd) (q : Cq) (status : Nat) (dw0 : Word := 0) (dw1 : Word := 0) : Prop :=
  t.cmd c.slot = none ∧
  Output.cqe q.id c.sq (match s.sq c.sq with | some x => x.head | none => 0) c.sqe.cid status dw0 dw1 ∈ t.out.drop s.out.length

/-- What no completion of an admin command touches by itself. -/
abbrev State.mediaKept (s t : State) : Prop := t.acts = s.acts ∧ t.loops = s.loops ∧ t.husk = s.husk ∧ t.mem = s.mem

/-- A message of type `typ` with these body bytes whose form, copy, destination and epoch the receiver takes (R464, R469); `any`: HEARTBEAT,
CLAIM and JOIN. -/
abbrev State.orrHears (s : State) (h : OrrHdr) (typ : Nat) (bytes : List Byte) (any : Bool) : Prop :=
  s.orr.stage ≠ 0 ∧ orrFormOk h typ bytes = true ∧ (h.serial.toNat, h.seq.toNat) ∉ s.orr.seen ∧
  (h.dstId = 0xFFFF ∨ (s.memberId ≠ noMember ∧ h.dstId.toNat = s.memberId)) ∧ (any = true ∨ s.rdN Reg.orr_MGR_EPOCH 0 ≤ h.epoch.toNat)

end Sys2Proof.Machine
end

