-- ==== Sys2Proof/Certificates/Slice0/Obligations.lean ====
section
/-!
DEFINITION. Certificates/Slice0/Obligations.lean: the statements about the block, chapter by chapter of the spec. Where a statement names
an address or a value, it is computed with the expressions the spec's rules give. `State.fileOk` and `Memory.wf`, which every step
keeps, stand as premises where a statement reads back what a write left. Where a statement's clause rests on a choice of the model's own,
its docstring names the entry of the assumption log.
-/

open Sys2Proof Sys2Proof.Machine

/-! ### The queue, reset, and what every step keeps -/

/-- A step runs the command at the front of the queue on the state with the queue's rest. With no command waiting it runs the link
transmitters' clock on (`State.idle`) and nothing else: the queue, main memory, the actuators, the structure and the host's state stay.
What rests on the model's own choices, not on a rule: logs 1 and 159 (the queue, its idling and the 10 µs of an idle step). -/
def Obligations.StepRunsFrontCommand : Prop :=
  (∀ (s : State) (c : Instr) (rest : List Instr), s.pending = c :: rest → step s = exec c { s with pending := rest }) ∧
  (∀ s : State, s.pending = [] → step s = .next s.idle ∧ s.idle.pending = [] ∧ s.idle.mem = s.mem ∧ s.idle.acts = s.acts ∧
    s.idle.cfg = s.cfg ∧ s.idle.husk = s.husk ∧ s.out <+: s.idle.out)

/-- Every command answers a next state and leaves the queue alone, so a step only takes its front. What rests on the model's own choices,
not on a rule: log 2 (a command whose condition does not hold answers the same state). -/
def Obligations.EveryCommandCompletes : Prop :=
  ∀ (c : Instr) (s : State), ∃ t, exec c s = .next t ∧ t.pending = s.pending

/-- Whatever step it is, main memory and the register file keep their canonical form. What rests on the model's own choices, not on a
rule: log 7 (what unwritten memory reads). -/
def Obligations.StepsKeepCanonicalForm : Prop :=
  ∀ s t : State, step s = .next t → Memory.wf s.mem = true → s.fileOk → Memory.wf t.mem = true ∧ t.fileOk

/-- Whatever step it is, OTP changes one way only (R3, R68, R70, R71): fuses, the device root secret, serial and trims stay, the floor
never falls, a revoked slot stays revoked and no slot changes its digest. -/
def Obligations.OtpChangesOneWayOnly : Prop :=
  ∀ s t : State, step s = .next t → OtpLe s.husk t.husk

/-- Whatever step it is, resets among them, no audit SEQ is used again (R451), nothing that has left the block is taken back, and no free
value is drawn twice. What rests on the model's own choices, not on a rule: logs 6 and 8 (the list of outputs and the counter of free
values are the model's own). -/
def Obligations.RecordsAndOutputsOnlyGrow : Prop :=
  ∀ s t : State, step s = .next t → s.alm.auditLast ≤ t.alm.auditLast ∧ s.out <+: t.out ∧ s.fresh ≤ t.fresh

/-- Whatever step it is, a structure in force binds actuators to engines 0 to 67 and lanes 0 to 63 only (R37, R38). -/
def Obligations.BindingsStayInRange : Prop :=
  ∀ s t : State, step s = .next t → s.bindsOk → t.bindsOk

/-- The state after reset meets the invariants, with nothing waiting, nothing in memory, every lock free, every mailbox empty and every
register at its Reset value but the channel limits R420 gives. What rests on the model's own choices, not on a rule: logs 5, 7 and 11
(contents the spec gives no reset value for). -/
def Obligations.ResetState : Prop :=
  State.reset.fileOk ∧ State.reset.bindsOk ∧ Memory.wf State.reset.mem = true ∧ State.reset.mem = [] ∧ State.reset.pending = [] ∧
  (∀ i : Fin 256, State.reset.lock i = ⟨none, 0⟩) ∧
  (∀ (c : Fin 64) (d : Fin 2), (State.reset.mb c d).full = false ∧ (State.reset.mb c d).msgCnt = 0) ∧
  (∀ f : RegField, f.id ≠ Reg.therm_HK_LO.id → f.id ≠ Reg.therm_HK_HI.id → ∀ i j, i * f.n + j < 0x100000 → State.reset.rdAt f i j = f.reset) ∧
  State.reset.rdAt Reg.therm_HK_LO 0 80 = 713 ∧ State.reset.rdAt Reg.therm_HK_HI 0 80 = 787 ∧ State.reset.locked = false

/-! ### 03: mailboxes, locks, requests to Husk, loaders and the relay -/

/-- GO with no other action in the cycle (R80, R84): a free direction takes the message, with its sender, count and interrupt flag, and
CROSS is set in both directions exactly where the other one is FULL; a FULL one ignores GO and sets OVR. Nothing of any other channel, no
register, no lock and no memory changes. A write of DATA[i] (R79): below the channel's size it stores the word while FULL is 0 and sets
OVR while FULL is 1; at or beyond the size it is ignored and sets nothing. RCV_RESET, and the compatibility mode (R82, R83): RCV_RESET
aborts a waiting message, raising ABORT_I in native mode alone, and has no effect on an empty direction; in compatibility mode RELEASE is
ignored, and a read of DATA[SIZE − 1] returns the register, empties the direction and leaves its data. GO and a receiver's action in one
cycle (R85): the GO comes first, so a FULL direction refuses it with OVR and is then emptied, and a message sent into a free one is
aborted at once. -/
def Obligations.MailboxSending : Prop :=
  (∀ (s : State) (ch : Fin 64) (d : Fin 2) (w : Initiator), s.mbReach w ch d 0x40 true → mayAct w ch d true = true →
    ∃ t, exec (.go ch d w .none .none) s = .next t ∧ t.regs = s.regs ∧ t.mem = s.mem ∧ t.locks = s.locks ∧
      (∀ (c : Fin 64) (e : Fin 2), c ≠ ch → t.mb c e = s.mb c e) ∧
      ((s.mb ch d).full = true → t.mb ch d = { s.mb ch d with ovr := true } ∧ t.mb ch (1 - d.val) = s.mb ch (1 - d.val)) ∧
      ((s.mb ch d).full = false →
        t.mb ch d = { s.mb ch d with
          full := true, sender := w, msgCnt := (s.mb ch d).msgCnt + 1, fullI := true,
          cross := (s.mb ch d).cross || (s.mb ch (1 - d.val)).full, crossI := (s.mb ch d).crossI || (s.mb ch (1 - d.val)).full } ∧
        t.mb ch (1 - d.val) = (if (s.mb ch (1 - d.val)).full then { s.mb ch (1 - d.val) with cross := true, crossI := true }
          else s.mb ch (1 - d.val)))) ∧
  (∀ (s : State) (ch : Fin 64) (d : Fin 2) (i : Fin 16) (w : Initiator) (v : Word),
    s.mbReach w ch d (4 * i.val) true → mayAct w ch d true = true →
    ∃ t, exec (.mailboxDataWrite ch d i w v) s = .next t ∧ t.regs = s.regs ∧ t.mem = s.mem ∧ s.mbOthers t ch d ∧
      ((s.chan ch).regs ≤ i.val → s.onlyWakes t) ∧
      (i.val < (s.chan ch).regs → (s.mb ch d).full = true → t.mb ch d = { s.mb ch d with ovr := true }) ∧
      (i.val < (s.chan ch).regs → (s.mb ch d).full = false → t.mbWord ch d i = v.toNat ∧
        (∀ j : Fin 16, j ≠ i → t.mbWord ch d j = s.mbWord ch d j) ∧
        t.mb ch d = { s.mb ch d with data := (t.mb ch d).data })) ∧
  (∀ (s : State) (ch : Fin 64) (d : Fin 2) (w : Initiator),
    (s.mbReach w ch d 0x40 true → mayAct w ch d false = true →
      ∃ t, exec (.rcvReset ch d w) s = .next t ∧ t.regs = s.regs ∧ t.mem = s.mem ∧ s.mbOthers t ch d ∧ ((s.mb ch d).full = false → s.onlyWakes t) ∧
        ((s.mb ch d).full = true → (∀ i : Fin 16, t.mbWord ch d i = 0) ∧
          t.mb ch d = { s.mb ch d with
            full := false, data := (t.mb ch d).data, aborted := true, abortI := (s.mb ch d).abortI || !(s.chan ch).compat })) ∧
    ((s.chan ch).compat = true →
      (s.mbReach w ch d 0x40 true → ∃ t, exec (.release ch d w) s = .next t ∧ s.onlyWakes t) ∧
      (s.mbReach w ch d (4 * ((s.chan ch).regs - 1)) false →
        ∃ t, exec (.compatLastDataRead ch d w) s = .next t ∧ t.regs = s.regs ∧ t.mem = s.mem ∧ s.mbOthers t ch d ∧
          t.mb ch d = { s.mb ch d with full := false } ∧
          (Output.value w ((s.mb ch d).data.toArray.getD ((s.chan ch).regs - 1) 0)) ∈ t.out))) ∧
  (∀ (s : State) (ch : Fin 64) (d : Fin 2) (w r : Initiator), s.mbReach w ch d 0x40 true → mayAct w ch d true = true →
    s.mbReach r ch d 0x40 true → mayAct r ch d false = true → (s.chan ch).compat = false →
    (∃ t, exec (.go ch d w (.rcvReset r) .none) s = .next t ∧ (t.mb ch d).full = false ∧ (t.mb ch d).aborted = true ∧
      (t.mb ch d).ovr = ((s.mb ch d).ovr || (s.mb ch d).full) ∧
      (t.mb ch d).msgCnt = (if (s.mb ch d).full then (s.mb ch d).msgCnt else (s.mb ch d).msgCnt + 1)) ∧
    ((s.mb ch d).full = true → ∃ t, exec (.go ch d w (.release r) .none) s = .next t ∧ (t.mb ch d).full = false ∧ (t.mb ch d).ovr = true ∧
      (t.mb ch d).emptyI = true ∧ (t.mb ch d).msgCnt = (s.mb ch d).msgCnt))

/-- RELEASE (R81): in native mode with FULL = 1 it clears FULL and every data register and raises EMPTY_I; with FULL = 0 it is ignored. -/
def Obligations.NativeReleaseEmpties : Prop :=
  ∀ (s : State) (ch : Fin 64) (d : Fin 2) (w : Initiator), s.mbReach w ch d 0x40 true → mayAct w ch d false = true →
    (s.chan ch).compat = false →
    ∃ t, exec (.release ch d w) s = .next t ∧
      ((s.mb ch d).full = false → s.onlyWakes t) ∧
      ((s.mb ch d).full = true → (t.mb ch d).full = false ∧ (∀ i : Fin 16, t.mbWord ch d i = 0) ∧ (t.mb ch d).emptyI = true ∧
        t.mb ch d = { s.mb ch d with full := false, data := (t.mb ch d).data, emptyI := true } ∧ t.regs = s.regs ∧ t.mem = s.mem ∧
        s.mbOthers t ch d)

/-- A write to a lock register (R88): the holder's or Husk's releases it; any other initiator's, and one to a free lock, is ignored. -/
def Obligations.LockWritesReleaseForHolderOrHusk : Prop :=
  ∀ (s : State) (i : Fin 256) (w : Initiator), s.may w (windowBase 2 + 4 * i.val) true →
    ∃ t, exec (.lockRelease i w) s = .next t ∧ t = { s with locks := t.locks, gated := t.gated } ∧
      (∀ j : Fin 256, j ≠ i → t.lock j = s.lock j) ∧ (t.lock i).rrPtr = (s.lock i).rrPtr ∧
      ((s.lock i).owner = none → t.lock i = s.lock i) ∧
      ((s.lock i).owner = some w → (t.lock i).owner = none) ∧
      (∀ o, (s.lock i).owner = some o → o ≠ w → (t.lock i).owner = if w.toNat = idHusk then none else some o)

/-- Reads of a lock register in one cycle (R87, R89): of a free lock exactly one reader acquires it, the first from RR_PTR upwards; each
reader's value names the holder; of a held lock nobody does. The manual's example (R89): lock 7, RR_PTR 0x20, readers 0x12 and 0x4D; and a
holder's release in the same cycle lets a reader in. What rests on the model's own choices, not on a rule: log 63 (a single reader leaves
RR_PTR). -/
def Obligations.LockReadsAcquireOnce : Prop :=
  (∀ (s : State) (i : Fin 256) (a b : Initiator), a ≠ b →
    s.may a (windowBase 2 + 4 * i.val) false → s.may b (windowBase 2 + 4 * i.val) false →
    ∃ t, exec (.lockAcquire i none [a, b]) s = .next t ∧
      (∀ j : Fin 256, j ≠ i → t.lock j = s.lock j) ∧ t.regs = s.regs ∧ t.mbox = s.mbox ∧
      (∀ o, (s.lock i).owner = some o → t.lock i = s.lock i ∧
        t.out = s.out ++ [.value a (lockValue false true o), .value b (lockValue false true o)]) ∧
      ((s.lock i).owner = none →
        let aFirst := (a - (s.lock i).rrPtr).toNat ≤ (b - (s.lock i).rrPtr).toNat
        let won := if aFirst then a else b
        (t.lock i).owner = some won ∧ (t.lock i).rrPtr = won + 1 ∧
        t.out = s.out ++ (if aFirst then [.value a (lockValue true false a), .value b (lockValue false true a)]
          else [.value a (lockValue false true b), .value b (lockValue true false b)]))) ∧
  (lockWinner 0x20 [0x12, 0x4D] = some 0x4D ∧ lockValue true false 0x4D = 0x4D01 ∧ lockValue false true 0x4D = 0x4D02 ∧
  ∀ (s : State) (i : Fin 256) (o r : Initiator), (s.lock i).owner = some o → o ≠ r →
    s.may o (windowBase 2 + 4 * i.val) true → s.may r (windowBase 2 + 4 * i.val) false →
    ∃ t, exec (.lockAcquire i (some o) [r]) s = .next t ∧ (t.lock i).owner = some r ∧ (t.lock i).rrPtr = (s.lock i).rrPtr ∧
      t.out = s.out ++ [.value r (lockValue true false r)])

/-- Outside the windows and domains nothing is learnt and nothing happens (R24, R63, R66): a mailbox GO, a lock write or a register write
that fails stage 1 or 2 only counts a violation of its initiator, and a lock read that fails them counts one and reads as zero. The
violation records of a second (R67): one record for each initiator whose count has changed, and the count as recorded. -/
def Obligations.ViolationsAreCountedAndRecorded : Prop :=
  (∀ (s : State) (w : Initiator) (dom : Bool), w.toNat ≠ idHost →
    (∀ (ch : Fin 64) (d : Fin 2), s.access w.toNat (mbAddr ch d 0x40) true = .viol dom →
      exec (.go ch d w .none .none) s = .next (s.violate w.toNat (mbAddr ch d 0x40) true dom)) ∧
    (∀ i : Fin 256, s.access w.toNat (windowBase 2 + 4 * i.val) true = .viol dom →
      exec (.lockRelease i w) s = .next (s.violate w.toNat (windowBase 2 + 4 * i.val) true dom)) ∧
    (∀ i : Fin 256, s.access w.toNat (windowBase 2 + 4 * i.val) false = .viol dom →
      exec (.lockAcquire i none [w]) s = .next ((s.violate w.toNat (windowBase 2 + 4 * i.val) false dom).emit (.value w 0))) ∧
    (∀ (a : BitVec 48) (v : Word), a.toNat % 4 = 0 → s.access w.toNat a.toNat true = .viol dom →
      ∃ t, exec (.registerWrite w (.internal a) v) s = .next t ∧ t = { s with viol := t.viol } ∧
        (t.violOf w.toNat).cnt = min ((s.violOf w.toNat).cnt + 1) 0xFFFFFFFF ∧ (t.violOf w.toNat).addr = a ∧
        (t.violOf w.toNat).wr = true ∧ (t.violOf w.toNat).dom = dom ∧
        ∀ id : Nat, id ≠ w.toNat → t.violOf id = s.violOf id)) ∧
  (∀ s : State, (s.viol.map (·.1)).Nodup →
    ∃ t, exec .violationAuditSecond s = .next t ∧
      t.alm.auditLast = s.alm.auditLast + (s.viol.filter (fun v => v.2.cnt != v.2.recorded)).length ∧
      (∀ id v, s.viol.lookup id = some v → t.viol.lookup id = some { v with recorded := v.cnt }) ∧ t.mem = s.mem ∧ t.mbox = s.mbox)

/-- Window registers (R65): Husk's write stands unless, after the Sheaf lock, the window would then be enabled and reach beyond its
default; any other initiator's has no effect (R10, R64), and is a violation where the initiator is non-secure (R23, R24, R63). A register
write follows each field's access code (R10), at the first write-and-assist register of actuator 0: the RW field takes its bits at any
time, the RWL fields Husk's alone, until the Sheaf lock (R57), the RO field never; no other register changes. -/
def Obligations.WindowAndRegisterWrites : Prop :=
  (∀ (s : State) (id : Byte) (w : Fin 8) (reg : Fin 4) (v : Word),
    let d := (defaultWins s.str s.installed id.toNat)[w.val]?
    let x := (s.win id.toNat w).written reg v
    (∃ t, exec (.windowRegisterWrite 0 id w reg v) s = .next t ∧ t = { s with wins := t.wins, gated := t.gated } ∧
      (s.locked = false ∨ x.en = false → t.win id.toNat w = x) ∧
      (s.locked = true → x.en = true → d = none → t.win id.toNat w = s.win id.toNat w) ∧
      (∀ y, s.locked = true → x.en = true → d = some y →
        t.win id.toNat w =
          if (x.base ≤ x.lim ∧ (x.base < y.base ∨ y.lim < x.lim)) ∨ (x.rd && !y.rd) = true ∨ (x.wr && !y.wr) = true ∨ (x.exec && !y.exec) = true
          then s.win id.toNat w else x) ∧
      (∀ (id' : Byte) (w' : Fin 8), (id', w') ≠ (id, w) → t.win id'.toNat w' = s.win id'.toNat w')) ∧
    ∀ c : Initiator, c.toNat ≠ idHusk → c.toNat ≠ idHost →
      let a := windowBase 0 + 0x10000 + 0x80 * id.toNat + 0x10 * w.val + 4 * reg.val
      s.stage1 c.toNat a true = true →
      exec (.windowRegisterWrite c id w reg v) s = .next (if isSecure c.toNat then s else s.violate c.toNat a true true)) ∧
  (∀ (s : State) (w : Initiator) (v : Word), s.fileOk → s.may w (Reg.wa_WG_TOL.addr 0 0) true →
    ∃ t, exec (.registerWrite w (.internal (BitVec.ofNat 48 (Reg.wa_WG_TOL.addr 0 0))) v) s = .next t ∧
      t.rd Reg.wa_WG_DAMAGE 0 = Reg.wa_WG_DAMAGE.extract v ∧ t.rd Reg.wa_WG_AGE_MAX 0 = s.rd Reg.wa_WG_AGE_MAX 0 ∧
      (s.locked = true ∨ w.toNat ≠ idHusk → t.rd Reg.wa_WG_TOL 0 = s.rd Reg.wa_WG_TOL 0 ∧ t.rd Reg.wa_REOPEN_FRAMES 0 = s.rd Reg.wa_REOPEN_FRAMES 0) ∧
      (s.locked = false → w.toNat = idHusk →
        t.rd Reg.wa_WG_TOL 0 = Reg.wa_WG_TOL.extract v ∧ t.rd Reg.wa_REOPEN_FRAMES 0 = Reg.wa_REOPEN_FRAMES.extract v) ∧
      t = { s with regs := t.regs, gated := t.gated } ∧
      ∀ (f : RegField) (i j : Nat), i * f.n + j < 0x100000 → f.id ∉ [Reg.wa_WG_DAMAGE.id, Reg.wa_WG_TOL.id, Reg.wa_REOPEN_FRAMES.id] →
        t.rdAt f i j = s.rdAt f i j)

/-- What a register read returns. A read that the stages of R63 or a dead island stop returns zero (R20, R24). A bit of a register map
that no field covers reads as zero (R8). A write-only field reads as zero, and a Husk-only one as zero to every initiator but Husk (R10):
so do the window and violation registers (R64, R66), which Husk reads as they stand. LOCK_PEEK shows a lock without acquiring it (R87),
and the status register of a mailbox direction shows its flags, its sender and its count (R79). -/
def Obligations.RegisterReads : Prop :=
  (∀ (s : State) (who : Initiator) (addr : Nat), s.access who.toNat addr false ≠ .ok → s.regRead who addr = 0) ∧
  (∀ (s : State) (who : Nat) (b : Blk) (i addr k : Nat),
    (∀ f ∈ Regs.ofBlk b, ∀ j, j < f.n → f.addr i j = addr → k < f.lo ∨ f.lo + f.width ≤ k) → (s.blkRead who b i addr).getLsbD k = false) ∧
  (∀ (s : State) (who i j : Nat) (f : RegField), f.acc = .WO ∨ (f.acc = .HO ∧ who ≠ idHusk) → s.fieldRead who f i j = 0) ∧
  (∀ (s : State) (who : Initiator) (id : Byte) (w : Fin 8) (reg : Fin 4),
    s.regRead who (windowBase 0 + 0x10000 + 0x80 * id.toNat + 0x10 * w.val + 4 * reg.val) =
      if who.toNat = idHusk then (s.win id.toNat w).read reg else 0) ∧
  (∀ (s : State) (who : Initiator) (id : Byte) (reg : Fin 4),
    s.regRead who (windowBase 0 + 0x18000 + 0x10 * id.toNat + 4 * reg.val) = if who.toNat = idHusk then (s.violOf id.toNat).read reg else 0) ∧
  (∀ (s : State) (who : Initiator) (i : Fin 256), s.may who (windowBase 2 + 0x400 + 4 * i.val) false →
    let x := s.regRead who (windowBase 2 + 0x400 + 4 * i.val)
    x.getLsbD 1 = (s.lock i).owner.isSome ∧ (∀ o, (s.lock i).owner = some o → (x >>> 8).setWidth 8 = o) ∧ (x >>> 16).setWidth 8 = (s.lock i).rrPtr) ∧
  (∀ (s : State) (who : Initiator) (ch : Fin 64) (d : Fin 2), s.may who (mbAddr ch d 0x44) false →
    let x := s.regRead who (mbAddr ch d 0x44)
    x.getLsbD 0 = (s.mb ch d).full ∧ x.getLsbD 1 = (s.mb ch d).aborted ∧ x.getLsbD 2 = (s.mb ch d).cross ∧ x.getLsbD 3 = (s.mb ch d).ovr ∧
      (x >>> 8).setWidth 8 = (s.mb ch d).sender ∧ (x >>> 16).setWidth 16 = (s.mb ch d).msgCnt)

/-- Husk answers an opcode it does not know, and a nonzero register beyond those listed, with status 7 and does nothing else (R74): the
state differs in that channel, in the order of requests and in nothing else. LIVE_SET and LIVE_PATCH (R55, R56): an accepted record waits
for the next round and nothing else of the machine's settings changes; a refused one is answered with its status and changes nothing but
the channel. FAULT_RELEASE (R443): of a latched type whose condition is still present it clears the latch; a type that is not latched, or
the image fault, is refused with status 2. What rests on the model's own choices, not on a rule: logs 67 and 68 (opcodes of other
directions; the order of live records). -/
def Obligations.HuskAnswers : Prop :=
  (∀ (s : State) (ch : Fin 64), 40 ≤ ch.val → s.huskFree = true → s.huskNext = some ch.val → (s.chan ch).compat = false →
    (huskOpcodes.contains (s.mbWord ch 0 0) = false →
      ∃ t, exec (.update ch true) s = .next t ∧ t.huskAnswered ch (s.mbWord ch 0 0) 7 0 ∧ t.regs = s.regs ∧ t.mem = s.mem ∧ t.alm = s.alm) ∧
    (s.mbWord ch 0 0 = 0x71 → s.mbWord ch 0 2 ≠ 0 →
      ∃ t, exec (.floorRaise ch) s = .next t ∧ t.huskAnswered ch 0x71 7 0 ∧ t.husk.floor = s.husk.floor ∧ t.regs = s.regs ∧ t.mem = s.mem) ∧
    (s.mbWord ch 0 0 = 0x7F → s.mbWord ch 0 1 % 16 = 0 → s.mbWord ch 0 1 < 65536 → (∀ i, 2 ≤ i → i < 16 → s.mbWord ch 0 i = 0) →
      ∃ t, exec (.warmResetRefused ch) s = .next t ∧ t.huskAnswered ch 0x7F 7 0 ∧ t.regs = s.regs ∧ t.mem = s.mem)) ∧
  (∀ (s : State) (ch : Fin 64), 40 ≤ ch.val →
    (s.huskAsks ch 0x51 [1, 2, 3, 4, 5] → s.mbWord ch 0 1 = 24 * 65536 + 0xA →
      let b := [2, 3, 4, 5].flatMap (fun i => toLe 4 (s.mbWord ch 0 i))
      let st := s.thermStatus b true
      ∃ t, exec (.liveSet ch) s = .next t ∧ t.huskAnswered ch 0x51 st 0 ∧ t.regs = s.regs ∧ t.mem = s.mem ∧ t.cfg = s.cfg ∧
        t.husk.liveTherm = (if st = 0 then s.husk.liveTherm ++ [thermFields b] else s.husk.liveTherm) ∧ t.husk.liveGran = s.husk.liveGran) ∧
    (s.huskAsks ch 0x51 [1, 2, 3, 4, 5] → s.mbWord ch 0 1 = 16 * 65536 + 5 → s.mbWord ch 0 4 = 0 → s.mbWord ch 0 5 = 0 →
      let b := toLe 4 (s.mbWord ch 0 2) ++ toLe 4 (s.mbWord ch 0 3)
      let st := s.granStatus b true
      ∃ t, exec (.liveSet ch) s = .next t ∧ t.huskAnswered ch 0x51 st 0 ∧ t.regs = s.regs ∧ t.cfg = s.cfg ∧
        t.husk.liveGran.length = s.husk.liveGran.length + (if st = 0 then 1 else 0) ∧ t.husk.liveTherm = s.husk.liveTherm) ∧
    (s.huskAsks ch 0x52 [2, 3] →
      let a := s.mbWord ch 0 2 + 2 ^ 32 * s.mbWord ch 0 3
      let n := le32 (s.memRead a 64) 8
      n % 8 = 0 → 328 ≤ n → n ≤ 1048576 → s.inPart 4 a 64 = true → s.inPart 4 a n = true →
      let p := s.patchCheck (s.memRead a n) n
      ∃ t, exec (.livePatch ch) s = .next t ∧ t.huskAnswered ch 0x52 p.1 0 ∧ t.regs = s.regs ∧ t.mem = s.mem ∧ t.cfg = s.cfg ∧
        t.husk.patchSeq = (if p.1 = 0 then le64 (s.memRead a n) 0x18 else s.husk.patchSeq) ∧
        (p.1 ≠ 0 → t.husk.liveTherm = s.husk.liveTherm ∧ t.husk.liveGran = s.husk.liveGran))) ∧
  (∀ (s : State) (ch : Fin 64) (ft i : Nat), 40 ≤ ch.val → s.fileOk → s.huskAsks ch 0x60 [1] → ft < 65536 → i < 256 →
    s.mbWord ch 0 1 = ft + 65536 * i → faultKnown ft i = true → fltBlk ft i < 270 →
    (ft ≠ 0x0101 → s.rdBit Reg.flt_FLT_LATCH (fltBlk ft i) (fltIdx ft) = true → s.flt.quiet.contains (ft, i) = false →
      ∃ t, exec (.faultRelease ch) s = .next t ∧ t.huskAnswered ch 0x60 0 0 ∧
        t.rdBit Reg.flt_FLT_LATCH (fltBlk ft i) (fltIdx ft) = false ∧ t.alm.auditLast = s.alm.auditLast + 1 ∧
        t.flt = s.flt ∧ t.mem = s.mem) ∧
    (ft = 0x0101 ∨ s.rdBit Reg.flt_FLT_LATCH (fltBlk ft i) (fltIdx ft) = false →
      ∃ t, exec (.faultRelease ch) s = .next t ∧ t.huskAnswered ch 0x60 2 0 ∧ t.regs = s.regs ∧ t.flt = s.flt ∧ t.alm = s.alm))

/-- UPDATE (R75): the copy in use is refused with status 8; else an object that passes Husk's checks replaces the target copy, and one
that fails leaves NOR as it is and is answered with the failing check's status and step. AUDIT_CLEAR and TRACE_CLEAR (R460): a valid
object raises CLR_GEN and leaves in its class the record of the clear alone; a refused one changes no record. What rests on the model's
own choices, not on a rule: logs 3, 66 and 69 (uninterpreted signatures, the record of a clear, a failed NOR write). -/
def Obligations.UpdateAndClears : Prop :=
  (∀ (s : State) (ch : Fin 64) (r1 addr len : Nat), 40 ≤ ch.val → s.huskAsks ch 0x10 [1, 2, 3, 4] → s.mbWord ch 0 1 = r1 → r1 < 4 →
    addr = s.mbWord ch 0 2 + 2 ^ 32 * s.mbWord ch 0 3 → s.mbWord ch 0 4 = len →
    let copy := r1 / 2
    let b := s.memRead addr len
    (r1 % 2 = 0 → s.rdN Reg.status_COPY 0 = copy + 1 → ∃ t, exec (.update ch true) s = .next t ∧ t.huskAnswered ch 0x10 8 0 ∧
      t.husk.imageA = s.husk.imageA ∧ t.husk.imageB = s.husk.imageB) ∧
    (r1 % 2 = 1 → s.rdN Reg.status_BUNDLE 0 = copy + 1 → ∃ t, exec (.update ch true) s = .next t ∧ t.huskAnswered ch 0x10 8 0 ∧
      t.husk.bundleA = s.husk.bundleA ∧ t.husk.bundleB = s.husk.bundleB) ∧
    (r1 % 2 = 0 → s.rdN Reg.status_COPY 0 ≠ copy + 1 → 0 < len → len ≤ 0x100000 → s.inPart 4 addr len = true →
      let step := s.imageCheck b len
      ∃ t, exec (.update ch true) s = .next t ∧ t.huskAnswered ch 0x10 (if step = 0 then 0 else stepStatus step) step ∧
        t.husk.imageA = (if step = 0 ∧ copy = 0 then b else s.husk.imageA) ∧ t.husk.imageB = (if step = 0 ∧ copy = 1 then b else s.husk.imageB) ∧
        t.husk.bundleA = s.husk.bundleA ∧ t.husk.bundleB = s.husk.bundleB) ∧
    (r1 % 2 = 1 → s.rdN Reg.status_BUNDLE 0 ≠ copy + 1 → 0 < len → len ≤ 0x2000000 → s.inPart 4 addr len = true →
      let bad := bundleCheck s.husk.slots s.husk.floor b
      ∃ t, exec (.update ch true) s = .next t ∧ t.huskAnswered ch 0x10 bad 0 ∧
        t.husk.bundleA = (if bad = 0 ∧ copy = 0 then b else s.husk.bundleA) ∧ t.husk.bundleB = (if bad = 0 ∧ copy = 1 then b else s.husk.bundleB) ∧
        t.husk.imageA = s.husk.imageA ∧ t.husk.imageB = s.husk.imageB)) ∧
  (∀ (s : State) (ch : Fin 64), 40 ≤ ch.val →
    let b := s.memRead (s.mbWord ch 0 2 + 2 ^ 32 * s.mbWord ch 0 3) 288
    (s.huskAsks ch 0x40 [2, 3] →
      ∃ t, exec (.auditClear ch) s = .next t ∧ t.huskAnswered ch 0x40 (s.clearCheck 2 b) 0 ∧
        (s.clearCheck 2 b = 0 → t.alm.clrGen = s.alm.clrGen + 1 ∧ t.alm.auditLast = s.alm.auditLast + 1 ∧ t.alm.traceHead = s.alm.traceHead ∧
          t.alm.audit.length ≤ 1 ∧ ∀ r ∈ t.alm.audit, r.seq = t.alm.auditLast) ∧
        (s.clearCheck 2 b ≠ 0 → t.alm = s.alm)) ∧
    (s.huskAsks ch 0x41 [2, 3] →
      ∃ t, exec (.traceClear ch) s = .next t ∧ t.huskAnswered ch 0x41 (s.clearCheck 1 b) 0 ∧
        (s.clearCheck 1 b = 0 → t.alm.clrGen = s.alm.clrGen + 1 ∧ t.alm.auditLast = s.alm.auditLast + 1 ∧ t.alm.traceHead ≤ 2) ∧
        (s.clearCheck 1 b ≠ 0 → t.alm = s.alm ∧ t.mem = s.mem)))

/-- Media keys (R68, R69, R73): NS_KEY_NEW of an existing namespace wraps the new key and puts it in the namespace's slot, NS_KEY_DESTROY
removes both; the keys of other namespaces stay. A ledger out of reach is answered with status 6 and changes no key. What rests on the
model's own choices, not on a rule: logs 3 and 72 (random keys, statuses of a bad NSID). -/
def Obligations.KeyRequestsChangeOneKey : Prop :=
  ∀ (s : State) (ch : Fin 64) (nsid : Nat), 40 ≤ ch.val → s.mbWord ch 0 1 = nsid → s.allNs.contains nsid = true →
    (s.huskAsks ch 0x30 [1] →
      (∃ t, exec (.nsKeyNew ch true) s = .next t ∧ t.huskAnswered ch 0x30 0 0 ∧
        (∃ k, t.husk.keySlots.lookup nsid = some k ∧ t.husk.wrapped.lookup nsid = some k) ∧
        (∀ i, i ≠ nsid → t.husk.keySlots.lookup i = s.husk.keySlots.lookup i ∧ t.husk.wrapped.lookup i = s.husk.wrapped.lookup i) ∧
        t.fresh = s.fresh + 1) ∧
      ∃ t, exec (.nsKeyNew ch false) s = .next t ∧ t.huskAnswered ch 0x30 6 0 ∧ t.husk.keySlots = s.husk.keySlots ∧ t.husk.wrapped = s.husk.wrapped) ∧
    (s.huskAsks ch 0x31 [1] →
      ∃ t, exec (.nsKeyDestroy ch true) s = .next t ∧ t.huskAnswered ch 0x31 0 0 ∧
        t.husk.keySlots.lookup nsid = none ∧ t.husk.wrapped.lookup nsid = none ∧
        ∀ i, i ≠ nsid → t.husk.keySlots.lookup i = s.husk.keySlots.lookup i ∧ t.husk.wrapped.lookup i = s.husk.wrapped.lookup i)

/-- SLOT_REVOKE and FLOOR_RAISE (R70, R71): a valid object burns exactly its TARGET's revoked bit; a permitted floor becomes the floor and
SEC_FLOOR; anything else leaves OTP as it is and is answered with its status. -/
def Obligations.RevokeAndFloorFollowTheirChecks : Prop :=
  ∀ (s : State) (ch : Fin 64), 40 ≤ ch.val → s.fileOk →
    (s.huskAsks ch 0x70 [2, 3] →
      let b := s.memRead (s.mbWord ch 0 2 + 2 ^ 32 * s.mbWord ch 0 3) 272
      ∃ t, exec (.slotRevoke ch) s = .next t ∧ t.huskAnswered ch 0x70 (s.revokeCheck b) 0 ∧ t.husk.floor = s.husk.floor ∧
        ∀ i, t.husk.slots[i]? = (s.husk.slots[i]?).map (fun k => if s.revokeCheck b = 0 ∧ i = byteAt b 4 then { k with revoked := true } else k)) ∧
    (s.huskAsks ch 0x71 [1] → s.mbWord ch 0 1 < 65536 →
      let f := s.mbWord ch 0 1
      let ok := s.husk.floor < f ∧ ∀ v ∈ s.floorLimits, f ≤ v
      ∃ t, exec (.floorRaise ch) s = .next t ∧ t.husk.slots = s.husk.slots ∧
        (ok → t.huskAnswered ch 0x71 0 0 ∧ t.husk.floor = f ∧ t.rdN Reg.status_SEC_FLOOR 0 = f) ∧
        (¬ok → t.huskAnswered ch 0x71 2 0 ∧ t.husk.floor = s.husk.floor ∧ t.regs = s.regs))

/-- TILLER_LOAD, LOAD and HALT (R78, R189): LOAD fills the engine's local memory with what its loader reads, sets it running and answers;
HALT stops the engine and leaves its memory; an engine the loader does not know is answered with status 1, a DDR error with 2, another
opcode with status 7. TILLER_LOAD answers an engine without an actuator with status 8, a DDR error with 6 and a failed check with its
status; a passed one goes to partition 5 and to the quadrant's loader (R189), and once the loader has answered Husk replies with 0, or
with 6 after its DDR error. A reload that has not come within 5 s marks the actuator (R107). WARM_RESET (R106 to R108): kind 1 starts the
drain, kind 2 frees the Culm cores' locks, kind 3 frees the engine's and stops it with its memory cleared, and of an engine that no
actuator is bound to is refused with status 8. What rests on the model's own choices, not on a rule: logs 71 and 155 (the map from loader
to reply statuses, and what a LOAD with a DDR error leaves). -/
def Obligations.LoadersAndWarmReset : Prop :=
  (∀ (s : State) (q : Quad), s.fileOk → (s.mb (60 + q) 1).full = true → (s.mb (60 + q) 0).full = false → (s.chan (60 + q)).compat = false →
    s.husk.loading = none →
    (s.mbWord (60 + q) 1 0 = 0xA1 → s.loaderKnows q (s.mbWord (60 + q) 1 1) = true →
      ∃ t, exec (.halt q) s = .next t ∧ t.rd Reg.engine_RUN (s.mbWord (60 + q) 1 1) = 0 ∧ t.engMem = s.engMem ∧
        (t.mb (60 + q) 1).full = false ∧ (t.mb (60 + q) 0).full = true ∧ t.mbWord (60 + q) 0 0 = 0 ∧ t.mbWord (60 + q) 0 1 = 0xA1) ∧
    (s.mbWord (60 + q) 1 0 = 0xA0 → s.loaderKnows q (s.mbWord (60 + q) 1 1) = true → s.mbWord (60 + q) 1 4 ≤ 0x40000 →
      let e := s.mbWord (60 + q) 1 1
      let b := s.dmaRead (idLoader q) true (s.mbWord (60 + q) 1 2 + 2 ^ 32 * s.mbWord (60 + q) 1 3) (s.mbWord (60 + q) 1 4)
      (∀ i, i < 64 → s.access (idLoader q) (windowBase (0x20 + e) + 0x80000 + 4096 * i) true = .ok) →
      ∃ t, exec (.load q false) s = .next t ∧ t.rd Reg.engine_RUN e = 1 ∧ t.mem = s.mem ∧
        t.mbWord (60 + q) 0 0 = 0 ∧ t.mbWord (60 + q) 0 1 = 0xA0 ∧ (t.mb (60 + q) 0).full = true ∧
        t.engMem = (s.engineFill e b).engMem) ∧
    (s.mbWord (60 + q) 1 0 = 0xA0 → s.loaderKnows q (s.mbWord (60 + q) 1 1) = true →
      ∃ t, exec (.load q true) s = .next t ∧ t.rd Reg.engine_RUN (s.mbWord (60 + q) 1 1) = 0 ∧ t.engMem = s.engMem ∧
        t.mbWord (60 + q) 0 0 = 2 ∧ t.mbWord (60 + q) 0 1 = 0xA0) ∧
    (s.mbWord (60 + q) 1 0 = 0xA0 → s.loaderKnows q (s.mbWord (60 + q) 1 1) = false →
      ∃ t, exec (.load q false) s = .next t ∧ t.mbWord (60 + q) 0 0 = 1 ∧ t.regs = s.regs ∧ t.engMem = s.engMem) ∧
    (s.mbWord (60 + q) 1 0 ≠ 0xA0 → s.mbWord (60 + q) 1 0 ≠ 0xA1 →
      ∃ t, exec (.load q false) s = .next t ∧ t.mbWord (60 + q) 0 0 = 7 ∧ t.mbWord (60 + q) 0 1 = s.mbWord (60 + q) 1 0 ∧
        t.regs = s.regs ∧ t.engMem = s.engMem)) ∧
  (∀ (s : State) (q : Quad) (ch : Fin 64) (e src n en : Nat), s.fileOk → ch.val < 60 → s.husk.loading = some (ch.val, e, src, n, en) →
    (s.chan ch).compat = false → (s.mb ch 1).full = false → (s.mb ch 0).full = false → ch.val ∉ s.husk.requests →
    (s.mb (60 + q) 1).full = true → (s.mb (60 + q) 0).full = false →
    (s.chan (60 + q)).compat = false → s.mbWord (60 + q) 1 0 = 0xA0 → s.mbWord (60 + q) 1 1 = e → s.loaderKnows q e = true →
    (∃ t, exec (.load q false) s = .next t ∧ t.huskAnswered ch 0x20 0 0 ∧ t.husk.loading = none ∧ (t.mb (60 + q) 0).full = false ∧
      t.rd Reg.engine_RUN e = 1 ∧ t.rd Reg.engine_LOADED e = 1) ∧
    ∃ t, exec (.load q true) s = .next t ∧ t.huskAnswered ch 0x20 6 0 ∧ t.husk.loading = none ∧ t.rd Reg.engine_RUN e = 0) ∧
  (∀ (s : State) (ch : Fin 64), 40 ≤ ch.val →
    (s.huskAsks ch 0x20 [1, 2, 3, 4] →
      let e := s.mbWord ch 0 1
      let a := s.mbWord ch 0 2 + 2 ^ 32 * s.mbWord ch 0 3
      let obj := s.memRead a (s.mbWord ch 0 4)
      (s.engAct e = none → ∃ t, exec (.tillerLoad ch false) s = .next t ∧ t.huskAnswered ch 0x20 8 0 ∧ t.regs = s.regs ∧ t.mem = s.mem) ∧
      (e ≤ 67 → s.engAct e ≠ none → ∃ t, exec (.tillerLoad ch true) s = .next t ∧ t.huskAnswered ch 0x20 6 0 ∧ t.regs = s.regs ∧ t.mem = s.mem) ∧
      (e ≤ 67 → s.engAct e ≠ none → s.mbWord ch 0 4 = le32 obj 8 → s.rdB Reg.engine_RUN e = false →
        s.str.parts.any (fun p => p.base ≤ a && a + s.mbWord ch 0 4 ≤ p.stop) = true → ch.val < 60 →
        (s.chan (60 + e / 17)).compat = false → (s.mb (60 + e / 17) 1).full = false →
        let st := mcCheck s.husk.slots s.husk.floor obj
        ∃ t, exec (.tillerLoad ch false) s = .next t ∧ t.regs = s.regs ∧ (t.mb ch 0).full = false ∧
          (st = 0 → t.husk.loading.isSome = true ∧ (t.mb (60 + e / 17) 1).full = true ∧ t.mbWord (60 + e / 17) 1 0 = 0xA0 ∧
            t.mbWord (60 + e / 17) 1 1 = e) ∧
          (st ≠ 0 → t.huskAnswered ch 0x20 st 0 ∧ t.husk.loading = s.husk.loading ∧ t.mem = s.mem))) ∧
    (∀ n : Act, (s.act n).noEngine = true → (∀ c ∈ s.host.cmds, c.admin = true) →
      ∃ t, exec (.tillerReloadTimeout n) s = .next t ∧ (t.act n).reloadLate = true ∧ t.regs = s.regs ∧ t.mem = s.mem ∧
        ∀ m : Act, m ≠ n → t.act m = s.act m)) ∧
  (∀ (s : State) (ch : Fin 64), 40 ≤ ch.val → s.huskAsks ch 0x7F [1] →
    (s.mbWord ch 0 1 = 1 → ∃ t, exec (.deviceWarmReset ch) s = .next t ∧ t.huskAnswered ch 0x7F 0 0 ∧ t.husk.rootDrained = true ∧ t.regs = s.regs ∧ t.mem = s.mem) ∧
    (s.mbWord ch 0 1 = 2 → (∀ c ∈ s.host.cmds, c.admin = false ∨ c.hold = .posting) →
      ∃ t, exec (.culmReset ch) s = .next t ∧ t.huskAnswered ch 0x7F 0 0 ∧ t.regs = s.regs ∧
        (∀ (i : Fin 256) (c : Nat) (o : Initiator), c < 16 → (s.lock i).owner = some o → o.toNat = idCulm c → (t.lock i).owner = none) ∧
        ∀ (i : Fin 256) (o : Initiator), (s.lock i).owner = some o → isCulm o.toNat = false → t.lock i = s.lock i) ∧
    (∀ e, s.mbWord ch 0 1 = 3 + 256 * e → e < 256 → s.engAct e = none →
      ∃ t, exec (.tillerEngineReset ch) s = .next t ∧ t.huskAnswered ch 0x7F 8 0 ∧ t.regs = s.regs ∧ t.engMem = s.engMem) ∧
    (∀ (e : Nat) (n : Act), s.fileOk → s.bindsOk → s.mbWord ch 0 1 = 3 + 256 * e → e < 68 → s.engAct e = some n.val →
      mcCheck s.husk.slots s.husk.floor (bundleBytes s.bundle 3) ≠ 0 →
      ∃ t, exec (.tillerEngineReset ch) s = .next t ∧ t.huskAnswered ch 0x7F 0 0 ∧ t.rd Reg.engine_RUN e = 0 ∧ t.rd Reg.engine_LOADED e = 0 ∧
        (t.act n).noEngine = true ∧ (t.act n).op = none ∧ (∀ x ∈ t.engMem, x.1 < e * 0x40000 ∨ e * 0x40000 + 0x40000 ≤ x.1) ∧
        ∀ (i : Fin 256) (o : Initiator), (s.lock i).owner = some o → o.toNat = idEngine e → (t.lock i).owner = none))

/-- The NVMe-MI relay (R77): a message waits in Husk; the oldest goes to Culm once the previous one is released and answered; the answer
to the outstanding relay goes to the controller with its tag, and any other is dropped; a timeout answers with an error and a record. What
rests on the model's own choices, not on a rule: logs 70, 73 and 122 (the relay number counts itself; other messages; response contents). -/
def Obligations.RelayCarriesOneMessageAtATime : Prop :=
  ∀ (s : State), s.locked = true → s.phase ≠ .off → s.husk.halted = false → s.culmReleased = true →
    (∀ (tag : Byte) (own : Bool) (b : List Byte), s.husk.miWait.length < 4 →
      ∃ t, exec (.mctpMessage true tag own b) s = .next t ∧ t.husk.miWait = s.husk.miWait ++ [⟨b, tag, own⟩] ∧ t.out = s.out ∧ t.regs = s.regs) ∧
    (∀ (tag : Byte) (own : Bool) (b : List Byte), 4 ≤ s.husk.miWait.length →
      ∃ t, exec (.mctpMessage true tag own b) s = .next t ∧ t.husk = s.husk ∧ t.out = s.out ++ [.mctp (Config.miReply 1 b) tag false]) ∧
    (∀ m rest, s.husk.miWait = m :: rest → s.husk.miOut = none → (s.mb 47 1).full = false → (s.mb 47 0).full = false → m.bytes.length ≤ 8192 →
      s.husk.miSeq < 2 ^ 32 - 1 →
      ∃ t, exec .miRelay s = .next t ∧ t.husk.miWait = rest ∧ t.husk.miOut = some m ∧ t.husk.miSeq = s.husk.miSeq + 1 ∧
        (t.mb 47 1).full = true ∧ t.mbWord 47 1 0 = 0x90 ∧ t.mbWord 47 1 1 % 16384 = m.bytes.length ∧ t.mbWord 47 1 4 = s.husk.miSeq + 1 ∧
        t.mem = (s.memWrite s.miReqBuf m.bytes).mem ∧ t.regs = s.regs) ∧
    (∀ m, s.husk.miOut = some m → (s.mb 47 0).full = true → (s.chan 47).compat = false → s.mbWord 47 0 0 = 0x91 →
      ∃ t, exec .miResponse s = .next t ∧ (t.mb 47 0).full = false ∧ t.regs = s.regs ∧ t.mem = s.mem ∧
        (s.mbWord 47 0 4 = s.husk.miSeq % 2 ^ 32 → t.husk.miOut = none ∧
          t.out = s.out ++ [.mctp (s.memRead s.miRespBuf (min (s.mbWord 47 0 1 % 16384) 8192)) m.tag false]) ∧
        (s.mbWord 47 0 4 ≠ s.husk.miSeq % 2 ^ 32 → t.husk = s.husk ∧ t.out = s.out)) ∧
    (∀ m, s.husk.miOut = some m →
      ∃ t, exec .miRelayTimeout s = .next t ∧ t.husk.miOut = none ∧ t.out = s.out ++ [.mctp (Config.miReply 1 m.bytes) m.tag false] ∧
        t.alm.auditLast = s.alm.auditLast + 1)

/-! ### 04: pins, starts, resets and power states -/

/-- PWR_OK and RST_N (R95, R99, R106, R110, R490): a low of at least 1 µs on either drives every SAFE_n low and clears memory, mailboxes,
locks and windows, and a shorter one does nothing; a rise of PWR_OK starts the block with CAUSE 0, a rise of RST_N with CAUSE 1. Pins of
the board and of PCIe (R92, R100, R489, R491): without VDD_IO every SAFE_n and FAULT_N read low; PERST_N rises; the trained link shows its
rate and width; a configuration request is answered with retry status before the QUEUE record is applied. What rests on the model's own
choices, not on a rule: logs 98 and 99 (a short low; what PWR_OK says of the rails). -/
def Obligations.PowerPinsAndBoard : Prop :=
  (∀ (s : State) (ns : Nat) (obs : BootObs),
    (ns < 1000 → exec (.pwrOkFalling ns) s = .next s ∧ exec (.rstNLow ns) s = .next s) ∧
    (1000 ≤ ns → s.pins.pwrOk = true →
      (∃ t, exec (.pwrOkFalling ns) s = .next t ∧ t.pins.pwrOk = false ∧ t.phase = .off ∧ t.cfg = none ∧ t.safeN = 0 ∧ t.mem = [] ∧
        t.wins = [] ∧ (∀ i : Fin 256, t.lock i = ⟨none, 0⟩) ∧ (∀ (c : Fin 64) (d : Fin 2), t.mb c d = Mbox.reset) ∧
        t.husk.slots = s.husk.slots ∧ t.husk.imageA = s.husk.imageA ∧ t.husk.keySlots = []) ∧
      (s.husk.rstLow = false → ∃ t, exec (.rstNLow ns) s = .next t ∧ t.pins = s.pins ∧ t.husk.rstLow = true ∧ t.phase = .off ∧ t.safeN = 0 ∧
        t.mem = [] ∧ (∀ i : Fin 256, t.lock i = ⟨none, 0⟩) ∧ (∀ (c : Fin 64) (d : Fin 2), t.mb c d = Mbox.reset) ∧
        t.rd Reg.status_PWR_CYCLE 0 = s.rd Reg.status_PWR_CYCLE 0)) ∧
    (s.pins.pwrOk = false →
      ∃ t, exec (.pwrOkRising obs) s = .next t ∧ t.pins.pwrOk = true ∧ t.pins.mgrSel = obs.mgrSel ∧ t.pins.i3c = obs.i3c ∧ t.phase = .training ∧
        t.cfg.isSome = true ∧ t.safeN = 0 ∧ t.mem = [] ∧ t.rdN Reg.status_CAUSE 0 = 0 ∧ t.locked = false ∧
        (s.alm.nor = [] → t.rdN Reg.status_PWR_CYCLE 0 = 1)) ∧
    (s.pins.pwrOk = true → s.husk.rstLow = true → s.fileOk →
      ∃ t, exec (.pinReset obs) s = .next t ∧ t.husk.rstLow = false ∧ t.phase = .training ∧ t.cfg.isSome = true ∧ t.rdN Reg.status_CAUSE 0 = 1)) ∧
  (∀ (s : State),
    (∃ t, exec .group1WithinTolerance s = .next t ∧ t = { s with pins := t.pins } ∧ t.pins.group1 = true ∧ t.pins.vddIo = true) ∧
    (∃ t, exec .vddIoOutOfTolerance s = .next t ∧ t = { s with pins := t.pins } ∧ (∀ h, t.safeBall h = false) ∧ t.faultBallLow = true) ∧
    (s.pins.pwrOk = true → ∃ t, exec .perstNRising s = .next t ∧ t = { s with pins := t.pins } ∧ t.pins.perstN = true) ∧
    (∀ rate width : Nat, ∀ flit : Bool, s.fileOk → s.pins.pwrOk = true → s.pins.perstN = true → 4 ≤ rate → rate ≤ 6 → width ≤ 16 →
      ∃ t, exec (.pcieLinkUp rate width flit) s = .next t ∧ t = { s with regs := t.regs } ∧ t.rdB Reg.pcie_LINK_UP 0 = true ∧
        t.rdN Reg.pcie_LINK_RATE 0 = rate ∧ t.rdN Reg.pcie_LINK_WIDTH 0 = width ∧ t.rdB Reg.pcie_FLIT 0 = flit) ∧
    (s.phase = .off → ∃ t, exec .configurationRequest s = .next t ∧ t.out = s.out ++ [.config true]) ∧
    (s.phase ≠ .off → ∃ t, exec .configurationRequest s = .next t ∧ t.out = s.out ++ [.config false] ∧ t.regs = s.regs))

/-- PCIe resets (R86, R106): each empties direction 1 of channels 0 to 15 and clears HOST_VEC, disables the controller and leaves
direction 0, the other channels and main memory's structure in force; a conventional reset takes the link down; NSSR needs its value.
Device warm reset (R108): once its drain ends the block starts again with CAUSE 2, everything volatile cleared; with nothing unsaved no
drain is incomplete. What rests on the model's own choices, not on a rule: logs 100 and 101 (what each reset keeps). -/
def Obligations.PcieAndWarmResets : Prop :=
  (∀ (s : State) (k : PcieReset) (nssr : Word), s.fileOk →
    (∃ t, exec (.pcieConventionalReset k) s = .next t ∧ t.host.cc = 0 ∧ t.rdB Reg.pcie_LINK_UP 0 = false ∧ t.cfg = s.cfg ∧
      (k = .perstLow → t.pins.perstN = false) ∧
      (∀ c : Fin 16, (t.mb c 1).full = false ∧ (t.mb c 1).hostVec = 0 ∧ (t.mb c 0).hostVec = 0 ∧ (t.mb c 0).full = (s.mb c 0).full ∧ (t.mb c 0).data = (s.mb c 0).data) ∧
      ∀ (c : Fin 64) (d : Fin 2), 16 ≤ c.val → t.mb c d = s.mb c d) ∧
    (∃ t, exec .functionLevelReset s = .next t ∧ t.host.cc = 0 ∧ t.host.asq = 0 ∧ t.cfg = s.cfg ∧ t.pins = s.pins ∧
      (∀ c : Fin 16, (t.mb c 1).full = false ∧ (t.mb c 1).hostVec = 0 ∧ (t.mb c 0).full = (s.mb c 0).full) ∧
      ∀ (c : Fin 64) (d : Fin 2), 16 ≤ c.val → t.mb c d = s.mb c d) ∧
    (nssr = 0x4E564D65 → ∃ t, exec (.nvmSubsystemReset nssr) s = .next t ∧ t.host.nssro = true ∧ t.host.cc = 0 ∧ t.rdB Reg.pcie_LINK_UP 0 = false) ∧
    (nssr ≠ 0x4E564D65 → exec (.nvmSubsystemReset nssr) s = .next s)) ∧
  (∀ (s : State) (obs : BootObs),
    (s.husk.rootDrained = false → exec (.warmResetDrainEnd obs) s = .next s) ∧
    (s.husk.rootDrained = true → ∃ t, exec (.warmResetDrainEnd obs) s = .next t ∧ t.phase = .training ∧ t.mem = [] ∧ t.safeN = 0 ∧
      t.rdN Reg.status_CAUSE 0 = 2 ∧ t.rdB Reg.status_DRAIN_INCOMPLETE 0 = s.unsaved ∧ t.pins = s.pins ∧
      (∀ i : Fin 256, t.lock i = ⟨none, 0⟩) ∧ s.alm.auditLast < t.alm.auditLast))

/-- DDR training ends the start (R50, R51, R391, R392): on good DIMMs that train, the image in the candidate copy is locked in when step 9
passes it; where it fails step 9 and no other copy stands by, or no image passed, the recovery structure is; on a channel that fails at
every rate the block is locked with the recovery structure's fault reactions; in another phase the command has nothing to end. Shutdown
notifications (R356): a normal one stops admission and stages a clean generation of each drained side (R376); an abrupt one with nothing
staged is complete at once, and else once its staged generations are durable; a drained normal one is complete when its drain ends, and 30
s of a normal one complete it with a record. What rests on the model's own choices, not on a rule: logs 41 and 102 (delays; what a
training failure leaves). -/
def Obligations.TrainingAndShutdown : Prop :=
  (∀ (s : State) (obs : TrainObs), s.fileOk →
    let l := [obs.ch0, obs.ch1, obs.ch2, obs.ch3]
    let mib := 1024 * ((l.flatMap id).map (·.gib)).sum
    (s.phase ≠ .training → exec (.ddrTrainingDone obs) s = .next s) ∧
    (s.phase = .training → dimmsBad l = 0 → (trainRate obs).isSome = true →
      (s.husk.candidate = 0 →
        ∃ t, exec (.ddrTrainingDone obs) s = .next t ∧ t.phase = .locked ∧ t.cfg = s.cfg ∧ t.gran.trained = serials l ∧
          s.alm.auditLast < t.alm.auditLast) ∧
      (s.husk.candidate = 1 ∨ s.husk.candidate = 2 → step9 s.str mib = true →
        ∃ t, exec (.ddrTrainingDone obs) s = .next t ∧ t.phase = .locked ∧ t.cfg = s.cfg ∧ t.gran.trained = serials l ∧
          s.alm.auditLast < t.alm.auditLast) ∧
      (s.husk.candidate = 2 → step9 s.str mib = false →
        ∃ t, exec (.ddrTrainingDone obs) s = .next t ∧ t.phase = .locked ∧ t.cfg = some Structure.recovery)) ∧
    (s.phase = .training → dimmsBad l = 0 → trainRate obs = none → s.husk.candidate = 0 →
      ∃ t, exec (.ddrTrainingDone obs) s = .next t ∧ t.phase = .locked ∧ (t.cfg.map (·.fault)) = some [] ∧ t.gran = s.gran)) ∧
  (∀ s : State, s.host.rdy = true → s.host.shst = 0 →
    ((∀ n : Act, s.actExists n = true → s.rdB Reg.zone_CLEAN n = true) →
      ∃ t, exec .shutdownNormal s = .next t ∧ t = { s with host := { s.host with shst := 1, shutdownSeen := true } }) ∧
    (∀ n : Act, s.actExists n = true → (s.act n).ledgerRead = true → s.rdB Reg.zone_CLEAN n = false → s.buf = [] → s.ledgerFull n 3 = false →
      (∀ m : Act, m ≠ n → s.rdB Reg.zone_CLEAN m = true) →
      ∃ t, exec .shutdownNormal s = .next t ∧ t.host = { s.host with shst := 1, shutdownSeen := true } ∧ (t.led n).clean = true ∧
        ∀ m : Act, m ≠ n → t.act m = s.act m) ∧
    (s.stagedAny = false →
      ∃ t, exec .shutdownAbrupt s = .next t ∧ t.host = { s.host with shst := 2, shutdownSeen := true } ∧ t.acts = s.acts ∧ t.mem = s.mem) ∧
    (s.stagedAny = true →
      ∃ t, exec .shutdownAbrupt s = .next t ∧ t = { s with host := { s.host with shst := 3, shutdownSeen := true } })) ∧
  (∀ s : State,
    (s.stagedAny = false → (s.host.shst = 1 ∧ s.undrained = false) ∨ s.host.shst = 3 →
      ∃ t, exec .shutdownDrainDone s = .next t ∧ t.host = { s.host with shst := 2 } ∧ t.acts = s.acts ∧ t.mem = s.mem) ∧
    (s.host.shst = 1 → ∃ t, exec .shutdownTimeout s = .next t ∧ t.host = { s.host with shst := 2 } ∧ t.acts = s.acts ∧
      s.alm.auditLast < t.alm.auditLast))

/-- Power states (R111 to R113): an idle timer targets its state and sets PS_BUSY; a drained entry reaches the target and clears PS_BUSY
with a record; an actuator late in a return no longer holds its commands; in PS2 the sides of an HDA change places. Spin-up (R104) and
readiness (R105): a group that holds its token starts once the spacing has passed, and not before; the records of an actuator that can
serve are read, and once they are it becomes ready. What rests on the model's own choices, not on a rule: logs 79, 104 and 105 (when
groups form; entry as one step; the ledger read as an operand). -/
def Obligations.PowerStatesAndSpinUp : Prop :=
  (∀ s : State, s.fileOk →
    (∀ l t x, s.host.apst = some l → l[s.rdN Reg.status_CUR_PS 0]? = some (t, x) → t = 3 ∨ t = 4 → s.rdN Reg.status_CUR_PS 0 < t →
      s.rdB Reg.status_PS_BUSY 0 = false → s.host.cmds = [] →
      3 ≤ s.rdN Reg.status_CUR_PS 0 ∨ (∀ n, n < 64 → s.rdB Reg.zone_CLEAN n = true) →
      ∃ u, exec .autonomousTransition s = .next u ∧ u.pwr.returnAt = none ∧ u.rdN Reg.status_TGT_PS 0 = t ∧
        u.rdB Reg.status_PS_BUSY 0 = true ∧ u.acts = s.acts ∧ u.mem = s.mem) ∧
    (∀ t, s.rdN Reg.status_TGT_PS 0 = t → t = 3 ∨ t = 4 → s.rdB Reg.status_PS_BUSY 0 = true → s.undrained = false → (t = 3 ∨ s.gran.queue = []) →
      ∃ u, exec .powerStateEntryDone s = .next u ∧ u.rdN Reg.status_CUR_PS 0 = t ∧ u.rdB Reg.status_PS_BUSY 0 = false ∧
        s.alm.auditLast < u.alm.auditLast) ∧
    (∀ n : Act, s.pwr.returnAt.isSome = true → (s.act n).holding = true →
      ∃ u, exec (.powerStateReturnTimeout n) s = .next u ∧ s.alm.auditLast < u.alm.auditLast ∧
        (s.rdN Reg.status_TGT_PS 0 ≠ 2 → (∀ c ∈ s.host.cmds, c.admin = true) → (u.act n).holding = false ∧ ∀ m : Act, m ≠ n → u.act m = s.act m)) ∧
    (∀ h : Hda, let loaded := 2 * h.val + (if s.pwr.sideB.getLsbD h then 1 else 0)
      let other := 2 * h.val + (if s.pwr.sideB.getLsbD h then 0 else 1)
      s.rdN Reg.status_CUR_PS 0 = 2 → s.actExists loaded = true → s.actExists other = true → s.up h = true →
      ∃ u, exec (.ps2SideSwitch h true) s = .next u ∧ u.pwr.sideB = s.pwr.sideB ^^^ hdaMask h ∧ u.pwr.returnAt = s.pwr.returnAt)) ∧
  (∀ s : State,
    (∀ g, s.spin.find? (fun g => !g.started) = some g → (g.token = false ∨ s.spinSpaced = false) → exec .spinUpGroupStart s = .next s) ∧
    (∀ g, s.spin.find? (fun g => !g.started) = some g → g.token = true → s.spinSpaced = true →
      ∃ t, exec .spinUpGroupStart s = .next t ∧ t.spinLast = some s.alm.us64.toNat ∧
        ∀ h : Hda, g.hdas = [h.val] → s.up h = true → s.safeN.getLsbD h = true → s.rdN Reg.spindle_SPIN_STATE h = 0 ∨ s.rdN Reg.spindle_SPIN_STATE h = 9 ∨ s.rdN Reg.spindle_SPIN_STATE h = 10 →
          t.rdN Reg.spindle_SPIN_STATE h = 1 ∧ (t.spinSt h).begun = true) ∧
    (∀ (n : Act) (l : LedgerObs), s.canServe n = false → exec (.namespaceReady n l) s = .next s) ∧
    (∀ (n : Act) (l : LedgerObs), s.canServe n = true → (s.act n).ledgerRead = true → (s.act n).calValid = true → s.sanOwes n = false → s.pwr.returnAt = none →
      ∃ t, exec (.namespaceReady n l) s = .next t ∧ (t.act n).ready = true ∧ (t.act n).holding = false ∧
        (∀ m : Act, m ≠ n → t.act m = s.act m) ∧ t.regs = s.regs ∧ t.mem = s.mem) ∧
    (∀ (n : Act) (l : LedgerObs), s.canServe n = true → (s.act n).ledgerRead = false → (s.sideDesc n).isSome = true → s.pwr.returnAt = none →
      ∃ t, exec (.namespaceReady n l) s = .next t ∧ (t.act n).ledgerRead = true))

/-! ### 05: the Awn link -/

/-- Training (R137, R138): an attempt starts in SIGNAL with no lane in use or locked; the image's lanes are in use and locked from the
next state on; equalisation leaves a value per lane and precoding where both ends ask for it (R115); DESKEW ends with HELLO; a failed
attempt is tried again at once, the fourth and later ones wait, and the retry starts another. HELLO_ACK and the descriptor (R53, R54,
R103, R132, R137): the grants of the sides present are taken and the port goes to DESC; a descriptor that contradicts nothing takes it UP,
with SAFE_n high unless a reaction of 3 or 4 holds it low (R439); one that does leaves it unbound with the least contradiction's number,
and no good copy with cause 8. What rests on the model's own choices, not on a rule: logs 8, 42, 43, 136 and 137 (equaliser results;
PORT_BOUND; undeclared ports; LANES while nothing is locked; UP under a reaction). -/
def Obligations.LinkTrainingBindsThePort : Prop :=
  (∀ (s : State) (h : Hda), s.fileOk →
    (s.declared h = true → s.bound h = true → (s.port h).held = false → (s.port h).waitRetry = false → s.rdN Reg.port_STATE h = 0 ∨ s.rdN Reg.port_STATE h = 9 →
      s.shelfToken = true →
      ∃ t, exec (.trainingAttempt h) s = .next t ∧ t.rdN Reg.port_STATE h = 1 ∧ t.rdN Reg.port_LANE_LOCK h = 0 ∧
        t.rdN Reg.port_LANES h = 0 ∧ t.acts = s.acts ∧ t.safeN = s.safeN ∧ ∀ k : Hda, k ≠ h → t.port k = s.port k) ∧
    (s.training h = true → ∀ far : Bool,
      (s.rdN Reg.port_STATE h = 1 → s.imageLanes h ≤ 4 →
        ∃ t, exec (.trainingStateDone h far) s = .next t ∧ t.rdN Reg.port_STATE h = 2 ∧ t.rdN Reg.port_LANES h = s.imageLanes h ∧
          t.rdN Reg.port_LANE_LOCK h = 2 ^ s.imageLanes h - 1 ∧ t.ports = s.ports) ∧
      (s.rdN Reg.port_STATE h = 2 → ∃ t, exec (.trainingStateDone h far) s = .next t ∧ t.rdN Reg.port_STATE h = 3 ∧ t.ports = s.ports) ∧
      (s.rdN Reg.port_STATE h = 3 →
        ∃ t, exec (.trainingStateDone h far) s = .next t ∧ t.rdN Reg.port_STATE h = 4 ∧ t.fresh = s.fresh + s.rdN Reg.port_LANES h ∧
          t.port h = { s.port h with precode := s.rdB Reg.port_PRECODE_ALLOW h && far }) ∧
      (s.rdN Reg.port_STATE h = 4 →
        ∃ t, exec (.trainingStateDone h far) s = .next t ∧ t.rdN Reg.port_STATE h = 5 ∧
          t.out = s.out ++ [.ctl h 1 (s.port h).tag.toNat 0 ((s.port h).txSeq.getD 12 0) [1, s.rdN Reg.port_LANES h]])) ∧
    (s.training h = true → (s.port h).attempts < 2 → s.shelfToken = true →
      ∃ t, exec (.trainingStateTimeout h) s = .next t ∧ t.rdN Reg.port_STATE h = 1 ∧ (t.port h).attempts = (s.port h).attempts + 1) ∧
    (s.training h = true → 3 ≤ (s.port h).attempts →
      ∃ t, exec (.trainingStateTimeout h) s = .next t ∧ t.rdN Reg.port_STATE h = 9 ∧ (t.port h).waitRetry = true ∧ t.flt = s.flt) ∧
    ((s.port h).waitRetry = true → s.bound h = true → (s.port h).held = false → s.rdN Reg.port_STATE h = 9 → s.shelfToken = true →
      ∃ t, exec (.trainingRetry h) s = .next t ∧ t.rdN Reg.port_STATE h = 1 ∧ (t.port h).waitRetry = false)) ∧
  (∀ (s : State) (h : Hda), s.fileOk → s.training h = true →
    (∀ (hdr : UpHdr) (m : HelloAck),
      crcHolds hdr 0 0x81 ([m.protoVer.toNat, m.heRev.toNat, m.maxLanes.toNat, m.sides.toNat] ++ hBytes m.credWrt.toNat ++ hBytes m.credAst.toNat ++
        hBytes m.credCtl.toNat) = true →
      s.rdN Reg.port_STATE h = 5 → m.protoVer = 1 → 2048 ≤ m.credWrt.toNat → 256 ≤ m.credAst.toNat → 64 ≤ m.credCtl.toNat →
      ∃ t, exec (.helloAck h hdr m) s = .next t ∧ t.rdN Reg.port_STATE h = 6 ∧
        t.rdN Reg.port_CRED_WRT_A h = (if m.sides.toNat.testBit 0 then m.credWrt.toNat else 0) ∧
        t.rdN Reg.port_CRED_AST_B h = (if m.sides.toNat.testBit 1 then m.credAst.toNat else 0) ∧ t.acts = s.acts) ∧
    (∀ (c0 c1 : List Byte) (c : Nat) (d : Desc) (p : PortRec), s.rdN Reg.port_STATE h = 6 → chooseCopy c0 c1 = some (c, d) → s.str.port h = some p →
      let cause := portCause s.str p d h (s.port h).serialBound d.geometryBad
      ∃ t, exec (.descriptorRead h c0 c1) s = .next t ∧ t.cfg = s.cfg ∧
        (cause = 0 → t.rdN Reg.port_STATE h = 7 ∧ (t.port h).desc = some d ∧ (t.port h).serialBound = some d.serial ∧ t.acts = s.acts ∧
          (s.reactHda h < 3 → t.safeN = s.safeN ||| hdaMask h ∧ t.spinWait.contains h.val = true) ∧
          (3 ≤ s.reactHda h → t.safeN = s.safeN ∧ t.spinWait = s.spinWait)) ∧
        (cause ≠ 0 → t.bound h = false ∧ (t.rdAt Reg.status_PORT_CAUSE 0 h).toNat = cause ∧ t.safeN.getLsbD h = false)) ∧
    (∀ (c0 c1 : List Byte), s.rdN Reg.port_STATE h = 6 → chooseCopy c0 c1 = none →
      ∃ t, exec (.descriptorRead h c0 c1) s = .next t ∧ t.bound h = false ∧ (t.rdAt Reg.status_PORT_CAUSE 0 h).toNat = 8))

/-- Link loss and the link's two commands (R151, R504, R505): a port that loses its link is no longer UP, names the cause, drives SAFE_n
low and its actuators are not ready; RETRAIN starts an attempt, DOWN holds the port in FAILED, and so does a write of both bits. What
rests on the model's own choices, not on a rule: log 43 (undeclared ports). -/
def Obligations.LinkLossStopsThePort : Prop :=
  ∀ (s : State) (h : Hda) (w : Initiator), s.fileOk →
    (∀ (cause : Fin 6) (lane : Fin 4), s.up h = true → cause.val ≠ 5 →
      ∃ t, exec (.linkLoss h cause lane) s = .next t ∧ t.up h = false ∧ t.rdN Reg.port_LOSS_CAUSE h = cause.val + 1 ∧ t.safeN.getLsbD h = false ∧
        (∀ x : Fin 2, s.actExists (2 * h + x) = true → (t.act (2 * h + x)).ready = false ∧ (t.act (2 * h + x)).win = none) ∧ t.cfg = s.cfg) ∧
    (s.may w (Reg.port_RETRAIN.addr h 0) true → s.linkCtl h = true →
      (s.up h = false → s.shelfToken = true →
        ∃ t, exec (.retrain h w false) s = .next t ∧ t.rdN Reg.port_STATE h = 1 ∧ (t.port h).held = false ∧ t.acts = s.acts) ∧
      ∃ t, exec (.retrain h w true) s = .next t ∧ t.rdN Reg.port_STATE h = 9 ∧ (t.port h).held = true) ∧
    (s.may w (Reg.port_DOWN.addr h 0) true → s.linkCtl h = true →
      ∃ t, exec (.down h w) s = .next t ∧ t.rdN Reg.port_STATE h = 9 ∧ t.rdN Reg.port_LOSS_CAUSE h = 6 ∧ (t.port h).held = true ∧ t.cfg = s.cfg)

/-- Words from the head-end (R120, R128, R131, R134, R153): a word whose CRC does not hold is counted and has no effect; a good one moves
its stream's expected SEQ on; STOP_ACK and its timeout settle one STOP; CREDIT adds credits. Head-end flash (R156): a command on a port
that is not UP answers 4, a write or erase below 0x80000 answers 3; an accepted one is busy until FLASH_DONE with its TAG, whose STATUS it
takes, and a write with bytes left goes on with its next word; the data of a read goes to its DDR address. What rests on the model's own
choices, not on a rule: logs 130 and 160 (frames that wait for credit leave as it comes; a range past the last offset). -/
def Obligations.HeadEndWordsAndFlash : Prop :=
  (∀ (s : State) (h : Hda) (hdr : UpHdr), s.fileOk → (s.port h).rxSeq.length = 32 →
    (crcHolds hdr 0 0x0F [] = false →
      ∃ t, exec (.keepalive h hdr) s = .next t ∧ t.ports = s.ports ∧ t.rdN Reg.port_CTL_CRC_ERR h = min (s.rdN Reg.port_CTL_CRC_ERR h + 1) 0xFFFFFFFF) ∧
    (crcHolds hdr 0 0x0F [] = true →
      ∃ t, exec (.keepalive h hdr) s = .next t ∧ (t.port h).rxSeq.getD 12 0 = (hdr.seq.toNat + 1) % 1024 ∧ t.mem = s.mem ∧ t.acts = s.acts ∧
        (hdr.seq.toNat = (s.port h).rxSeq.getD 12 0 → t.regs = s.regs)) ∧
    (∀ (r : Byte) (lv : Bool), crcHolds hdr 0 0x82 [r.toNat, if lv then 1 else 0] = true →
      ∃ t, exec (.stopAck h hdr r lv) s = .next t ∧ (t.port h).stopWait = (s.port h).stopWait - (if r = 0xFF then 0 else 1) ∧
        (t.port h).stopMiss = (s.port h).stopMiss ∧ t.safeN = s.safeN) ∧
    (∀ frames : BitVec 16, crcHolds hdr 0 0x83 ([8, 0] ++ hBytes frames.toNat) = true → (s.act (2 * h)).wrtWait = [] →
      ∃ t, exec (.credit h hdr 8 0 frames) s = .next t ∧ t.rdN Reg.port_CRED_AST_A h = min (s.rdN Reg.port_CRED_AST_A h + frames.toNat) 65535 ∧
        t.rdN Reg.port_CRED_AST_B h = s.rdN Reg.port_CRED_AST_B h ∧ t.acts = s.acts) ∧
    ((s.port h).stopWait ≠ 0 →
      ∃ t, exec (.stopAckTimeout h) s = .next t ∧ (t.port h).stopWait = (s.port h).stopWait - 1 ∧ (t.port h).stopMiss = (s.port h).stopMiss + 1 ∧
        t.regs = s.regs ∧ t.safeN = s.safeN) ∧
    ((s.port h).stopWait = 0 → exec (.stopAckTimeout h) s = .next s)) ∧
  (∀ (s : State) (h : Hda) (w : Initiator), s.fileOk → s.may w (Reg.port_FL_CMD.addr h 0) true → s.rdB Reg.port_FL_BUSY h = false →
    let ofs := s.rdN Reg.port_FL_OFS h
    let len := s.rdN Reg.port_FL_LEN h
    (s.up h = false → (∃ t, exec (.flashRead h w) s = .next t ∧ t.rdN Reg.port_FL_STATUS h = 4 ∧ t.ports = s.ports) ∧
      (∃ t, exec (.flashWrite h w) s = .next t ∧ t.rdN Reg.port_FL_STATUS h = 4) ∧ ∃ t, exec (.flashErase h w) s = .next t ∧ t.rdN Reg.port_FL_STATUS h = 4) ∧
    (s.up h = true → ofs < 0x80000 →
      (∃ t, exec (.flashWrite h w) s = .next t ∧ t.rdN Reg.port_FL_STATUS h = 3 ∧ t.ports = s.ports ∧ t.out = s.out) ∧
      ∃ t, exec (.flashErase h w) s = .next t ∧ t.rdN Reg.port_FL_STATUS h = 3 ∧ t.ports = s.ports ∧ t.out = s.out) ∧
    (s.up h = true → len ≤ 262144 → ofs + len ≤ 2 ^ 32 → s.inPart 4 (s.flDdr h) len = true →
      (∃ t, exec (.flashRead h w) s = .next t ∧ t.rdB Reg.port_FL_BUSY h = true ∧ t.rdN Reg.port_FL_STATUS h = 0 ∧ t.mem = s.mem ∧
        (t.port h).flash = some ⟨1, (s.port h).tag, ofs, len, s.flDdr h, 0⟩) ∧
      (0x80000 ≤ ofs → ∃ t, exec (.flashWrite h w) s = .next t ∧ t.rdB Reg.port_FL_BUSY h = true ∧ t.mem = s.mem ∧
        (t.port h).flash = some ⟨2, (s.port h).tag, ofs, len, s.flDdr h, 0⟩)) ∧
    (s.up h = true → 0x80000 ≤ ofs → ∃ t, exec (.flashErase h w) s = .next t ∧ t.rdB Reg.port_FL_BUSY h = true ∧ t.mem = s.mem ∧
      (t.port h).flash = some ⟨3, (s.port h).tag, ofs, len, s.flDdr h, 0⟩)) ∧
  (∀ (s : State) (h : Hda) (hdr : UpHdr) (f : FlashOp), s.fileOk → (s.port h).flash = some f →
    (∀ status : Byte, crcHolds hdr 0 0x84 [status.toNat] = true → f.tag = hdr.tag →
      (f.cmd ≠ 2 ∨ status ≠ 0 ∨ f.len ≤ f.moved + 16 →
        ∃ t, exec (.flashDone h hdr status) s = .next t ∧ t.rdB Reg.port_FL_BUSY h = false ∧ t.rdN Reg.port_FL_STATUS h = status.toNat % 8 ∧
          (t.port h).flash = none ∧ t.mem = s.mem) ∧
      (f.cmd = 2 → status = 0 → f.moved + 16 < f.len →
        ∃ t, exec (.flashDone h hdr status) s = .next t ∧ t.rdB Reg.port_FL_BUSY h = s.rdB Reg.port_FL_BUSY h ∧
          (t.port h).flash = some { f with moved := f.moved + 16, tag := (s.port h).tag } ∧ t.mem = s.mem)) ∧
    (∀ (ofs : Word) (data : List Byte), f.cmd = 1 → f.ofs ≤ ofs.toNat → ofs.toNat < f.ofs + f.len →
      ∃ t, exec (.hskFlashData h hdr f.tag ofs data) s = .next t ∧
        t.mem = (s.dmaWrite (idAwn h) false (f.ddr + (ofs.toNat - f.ofs)) ((data.take 24).take (f.len - (ofs.toNat - f.ofs)))).mem ∧ t.acts = s.acts))

/-- The lane-count change and deskew (R113, R139, R141): to 2 lanes in PS2 by a switch word that names an ALN_SEQ two periods ahead, to 4
in PS0 and PS1 by a prepare first, whose good answer locks all four lanes and starts the switch; the head-end's answer names the upstream
ALN; the switch is over once the named ALN of both directions has gone by; a refusal or a failure leaves 2 lanes. An ALN counts its lane's
codewords (R116) and a deskew out of range is link loss with cause 5. A deskew moves one slot, once per round, for an offset held 8
periods. Housekeeping and motor frames (R129, R130): each is recorded in its port, where no tag error is injected. What rests on the
model's own choices, not on a rule: log 158 (the counts of an ALN come with it). -/
def Obligations.LanesAndHousekeepingFrames : Prop :=
  (∀ (s : State) (h : Hda) (hdr : UpHdr) (q : Word), s.fileOk →
    (s.up h = true → s.imageLanes h = 4 → (s.port h).laneChange = .none →
      (s.rdN Reg.port_LANES h = 4 → s.rdN Reg.status_CUR_PS 0 = 2 →
        ∃ t, exec (.laneSet h false) s = .next t ∧ (t.port h).laneChange = .switching 2 ((s.port h).alnSeq + 2) none false false ∧
          t.rdN Reg.port_LANES h = 4) ∧
      (s.rdN Reg.port_LANES h = 2 → s.rdN Reg.status_CUR_PS 0 < 2 → (s.port h).laneBad = false →
        ∃ t, exec (.laneSet h true) s = .next t ∧ (t.port h).laneChange = .preparing ∧ t.rdN Reg.port_LANES h = 2)) ∧
    (crcHolds hdr 0 0x87 ([1, 0] ++ wBytes q) = true → (s.port h).laneChange = .preparing →
      ∃ t, exec (.laneAck h hdr 1 0 q) s = .next t ∧ (t.port h).laneChange = .switching 4 ((s.port h).alnSeq + 2) none false false ∧
        t.rdN Reg.port_LANE_LOCK h = 15) ∧
    (crcHolds hdr 0 0x87 ([1, 1] ++ wBytes q) = true → (s.port h).laneChange = .preparing →
      ∃ t, exec (.laneAck h hdr 1 1 q) s = .next t ∧ (t.port h).laneChange = .none ∧ t.rdN Reg.port_LANES h = 2) ∧
    (∀ (k : Nat) (dn : Word) (d u : Bool), crcHolds hdr 0 0x87 ([2, 0] ++ wBytes q) = true → (s.port h).laneChange = .switching k dn none d u →
      ∃ t, exec (.laneAck h hdr 2 0 q) s = .next t ∧ (t.port h).laneChange = .switching k dn (some q) d u) ∧
    ((s.port h).laneChange ≠ .none →
      ∃ t, exec (.laneChangeFailure h) s = .next t ∧ (t.port h).laneChange = .none ∧ t.rdN Reg.port_LANES h = 2 ∧ t.rdN Reg.port_LANE_LOCK h = 3) ∧
    (∀ lane : Fin 4, s.up h = true → lane.val < s.rdN Reg.port_LANES h →
      (∀ (k : Nat) (dn : Word), k ≤ 4 → (s.rdAt Reg.port_DESKEW h lane).toNat ≤ 16 → (s.port h).laneChange = .switching k dn (some q) true false →
        ∃ t, exec (.aln h lane 0 q 0 0) s = .next t ∧ t.rdN Reg.port_LANES h = k ∧ (t.port h).laneChange = .none) ∧
      (∀ c u : Nat, (s.rdAt Reg.port_DESKEW h lane).toNat ≤ 16 → (s.port h).laneChange = .none →
        ∃ t, exec (.aln h lane 0 q c u) s = .next t ∧ (t.rdAt Reg.port_FEC_CORR h lane).toNat = min ((s.rdAt Reg.port_FEC_CORR h lane).toNat + c) 0xFFFFFFFF ∧
          (t.rdAt Reg.port_FEC_UNCORR h lane).toNat = min ((s.rdAt Reg.port_FEC_UNCORR h lane).toNat + u) 0xFFFFFFFF ∧ t.acts = s.acts) ∧
      (∀ off : Int, (s.rdAt Reg.port_DESKEW h lane).toNat + off < 0 ∨ 16 < (s.rdAt Reg.port_DESKEW h lane).toNat + off →
        ∃ t, exec (.aln h lane off q 0 0) s = .next t ∧ t.up h = false ∧ t.rdN Reg.port_LOSS_CAUSE h = 5)) ∧
    (∀ (lane : Fin 4) (d : Int × Nat), s.up h = true → (s.port h).moved = false → (s.port h).drift[lane.val]? = some d → 8 ≤ d.2 →
      let v : Int := (s.rdAt Reg.port_DESKEW h lane).toNat + d.1
      0 ≤ v → v ≤ 16 →
      ∃ t, exec (.deskewMove h lane) s = .next t ∧ ((t.rdAt Reg.port_DESKEW h lane).toNat : Int) = v ∧ (t.port h).moved = true ∧ t.acts = s.acts)) ∧
  (∀ (s : State) (h : Hda) (hdr : UpHdr) (values : List (BitVec 16)), s.fileOk →
    (s.injTake 0x0C00 0 = none →
      (∃ t, exec (.hskTemperatures h hdr values) s = .next t ∧ (t.port h).temps = values.map (·.toInt) ∧ (t.port h).quietRounds = 0 ∧ t.mem = s.mem ∧ t.acts = s.acts) ∧
      ∃ t, exec (.hskRails h hdr values) s = .next t ∧ (t.port h).rails = values.map (·.toInt) ∧ (t.port h).temps = (s.port h).temps ∧ t.acts = s.acts ∧ t.flt = s.flt) ∧
    (∀ code : Byte, ∃ t, exec (.hskEvent h hdr code) s = .next t ∧ (t.port h).temps = (s.port h).temps ∧ t.acts = s.acts ∧ t.flt = s.flt ∧ t.out = s.out) ∧
    (∀ (side : Fin 2) (frame : Word) (tick : BitVec 16) (a b c : BitVec 16), s.injTake 0x0900 h = none →
      ∃ t, exec (.motFrame h hdr side frame tick 2 [a, b, c]) s = .next t ∧ (t.port h).mot.bus = c.toInt ∧
        (t.port h).mot.vcm = (s.port h).mot.vcm ∧ t.acts = s.acts ∧ t.mem = s.mem))

/-! ### 06: the transit demodulator -/

/-- States of the demodulator (R157, R165, R168, R185): the heads leave the ramp into ACQUIRE and return to OFF; tone loss above OFF is
LOST, which the count and the synchronisation follow; ACQUIRE that does not reach TRACK raises its fault; REACQ restarts ACQUIRE from OFF
or LOST only, with the heads on the ramp. No other actuator changes. One transit frame (R161 to R167): in OFF and LOST it does nothing;
the third consecutive valid frame of ACQUIRE enters TRACK and numbers the frames by its INDEX, which FRAME_SET is due to name; in TRACK a
valid frame sets POS, POS_FRAME and MISS_RUN, and an invalid one counts a miss, leaves the track and enters COAST. What rests on the
model's own choices, not on a rule: logs 44, 45 and 46 (FRAME_SET, precision of POS, coarse frames). -/
def Obligations.DemodulatorFollowsItsFrames : Prop :=
  (∀ (s : State) (n : Act), s.fileOk →
    ((s.act n).headsOn = true → s.sideOn n = true →
      ∃ t, exec (.headsOffRamp n) s = .next t ∧ t.rdN Reg.demod_STATE n = 1 ∧ (t.act n).headsOn = false ∧ (t.act n).recent = [] ∧
        t.rdB Reg.demod_COARSE n = false ∧ (∀ m : Act, m ≠ n → t.act m = s.act m) ∧ t.flt = s.flt) ∧
    (∃ t, exec (.headsOnRamp n) s = .next t ∧ t.rdN Reg.demod_STATE n = 0 ∧ t.rdB Reg.demod_TONE_LOCK n = false ∧ (t.act n).headsOn = true ∧
      (t.act n).ready = false ∧ (∀ m : Act, m ≠ n → t.act m = s.act m) ∧ t.flt = s.flt) ∧
    (s.rdN Reg.demod_STATE n = 0 ∨ s.rdN Reg.demod_STATE n = 4 →
      ∃ t, exec (.toneUnlock n) s = .next t ∧ t.rdB Reg.demod_TONE_LOCK n = false ∧ t.rdN Reg.demod_STATE n = s.rdN Reg.demod_STATE n ∧ t.acts = s.acts ∧ t.mem = s.mem) ∧
    (s.rdN Reg.demod_STATE n ≠ 0 → s.rdN Reg.demod_STATE n ≠ 4 →
      ∃ t, exec (.toneUnlock n) s = .next t ∧ t.rdN Reg.demod_STATE n = 4 ∧ t.rdN Reg.demod_LOST_CNT n = min (s.rdN Reg.demod_LOST_CNT n + 1) 0xFFFFFFFF ∧
        (t.act n).synced = false ∧ (t.act n).ready = false ∧ (t.act n).op = none ∧ t.cfg = s.cfg) ∧
    (s.rdN Reg.demod_STATE n = 1 → s.bindsOk →
      ∃ t, exec (.transitAcquisitionTimeout n) s = .next t ∧ t.rdBit Reg.flt_FLT_STAT (40 + n) 1 = true ∧ t.rdN Reg.demod_STATE n = 1 ∧
        ∃ a ∈ t.flt.active, a.ftype = 0x0601 ∧ a.inst = n.val) ∧
    (s.rdN Reg.demod_STATE n ≠ 1 → exec (.transitAcquisitionTimeout n) s = .next s) ∧
    (∀ w : Initiator, s.may w (Reg.demod_REACQ.addr n 0) true →
      (s.rdN Reg.demod_STATE n = 0 ∨ s.rdN Reg.demod_STATE n = 4 → (s.act n).headsOn = true →
        ∃ t, exec (.reacq n w) s = .next t ∧ t.rdN Reg.demod_STATE n = 1 ∧ (t.act n).validRun = 0 ∧ t.flt = s.flt) ∧
      (s.rdN Reg.demod_STATE n ≠ 0 → s.rdN Reg.demod_STATE n ≠ 4 → ∃ t, exec (.reacq n w) s = .next t ∧ s.onlyWakes t))) ∧
  (∀ (s : State) (n : Act) (o : TransitObs) (d : SideDesc), s.fileOk → s.sideDesc n = some d →
    (s.rdN Reg.demod_STATE n = 0 ∨ s.rdN Reg.demod_STATE n = 4 → exec (.transitFrame n o) s = .next s) ∧
    (s.rdN Reg.demod_STATE n = 1 → (s.act n).validRun = 2 → indexOf o.index = some (s.act n).index →
      ((s.wrB Reg.demod_TONE_LOCK n o.toneLock).judge n d o).1 = true →
      ∃ t, exec (.transitFrame n o) s = .next t ∧ t.rdN Reg.demod_STATE n = 2 ∧ (t.act n).frameNo = BitVec.ofNat 32 (s.act n).index ∧
        (t.act n).frameSetDue = true ∧ t.rdN Reg.demod_MISS_RUN n = 0 ∧ ∀ m : Act, m ≠ n → t.act m = s.act m) ∧
    (s.rdN Reg.demod_STATE n = 2 → (s.act n).win = none → (s.act n).winQueue = [] → (s.act n).armed = none → (s.act n).op = none →
      (s.act n).heldGo = false → (s.act n).ready = false ∨ s.pool.records = [] → (∀ i, i < 4 → s.slotOpen (s.engine n) i = false) →
      (∀ p b, (s.wrB Reg.demod_TONE_LOCK n o.toneLock).judge n d o = (true, p, b) →
        ∃ t, exec (.transitFrame n o) s = .next t ∧ t.rd Reg.demod_POS n = toW p ∧ t.rd Reg.demod_POS_FRAME n = (s.act n).frameNo ∧
          t.rdN Reg.demod_MISS_RUN n = 0 ∧ t.rdN Reg.demod_STATE n = 2 ∧ t.rdN Reg.demod_MISS_CNT n = s.rdN Reg.demod_MISS_CNT n) ∧
      (((s.wrB Reg.demod_TONE_LOCK n o.toneLock).judge n d o).1 = false → s.rdN Reg.demod_MISS_RUN n ≠ 3 →
        ∃ t, exec (.transitFrame n o) s = .next t ∧ t.rdN Reg.demod_STATE n = 3 ∧ t.rdN Reg.demod_MISS_CNT n = min (s.rdN Reg.demod_MISS_CNT n + 1) 0xFFFFFFFF ∧
          t.rdB Reg.demod_ON_TRACK n = false ∧ t.rd Reg.demod_POS n = s.rd Reg.demod_POS n)))

/-- Alignment (R171, R174, R175, R184): a missed burst, or one in a frame that was rejected, ages the head's entry and counts; a good one
moves RAD_OFS and TIM_OFS by their measured errors over 2^ALIGN_SHIFT, makes a confirmed entry fresh, confirms another within WG_TOL and
leaves one beyond it unconfirmed at AGE 255; a written offset is unconfirmed with AGE 255. Sample streams (R120 to R123): a marker places
its stream and says whether the samples after it count; a data frame's whole samples follow those before it; a gap in SEQ is counted and
places none until the next marker; a reserved SID, or one that only goes down, is counted and has no other effect. What rests on the
model's own choices, not on a rule: log 162 (P_T between two frames). -/
def Obligations.BurstsAndSamples : Prop :=
  (∀ (s : State) (n : Act) (o : BurstObs) (d : SideDesc) (z : Nat), s.fileOk → 1 ≤ s.rdN Reg.demod_SEL_HEAD n → s.rdN Reg.demod_SEL_HEAD n ≤ 10 →
    s.rdN Reg.demod_STATE n ≠ 0 → s.sideDesc n = some d → (s.act n).clkZone = some z →
    let k := s.rdN Reg.demod_SEL_HEAD n
    let ratio := ((d.zones[z]?).map (·.ratio)).getD 0
    let tc := max d.toneCycles 1
    let rad := s.rdInt Reg.demod_RAD_OFS n (k - 1)
    let tim := s.rdInt Reg.demod_TIM_OFS n (k - 1)
    (o.mark = none ∨ burstId o.id = none ∨ s.burstRejected n tc ratio tim o.burst = true →
      ∃ t, exec (.alignmentBurst n o) s = .next t ∧ (t.rdAt Reg.demod_AGE n (k - 1)).toNat = min ((s.rdAt Reg.demod_AGE n (k - 1)).toNat + 1) 255 ∧
        t.rdN Reg.demod_BURST_MISS_CNT n = min (s.rdN Reg.demod_BURST_MISS_CNT n + 1) 0xFFFFFFFF ∧
        t.rdAt Reg.demod_RAD_OFS n (k - 1) = s.rdAt Reg.demod_RAD_OFS n (k - 1) ∧ t.acts = s.acts) ∧
    (∀ (m : Int) (g low : Nat), o.mark = some m → burstId o.id = some (g, low) → s.burstRejected n tc ratio tim o.burst = false →
      let pT := s.burstPt n tc ratio tim o.burst
      let e := pT - (nearest16 low ((pT - rad + 128).fdiv 256) * 256 + s.burstPd n k o) - rad
      let sh : Int := 2 ^ s.rdN Reg.demod_ALIGN_SHIFT n
      let loose := (s.act n).unconfirmed.getLsbD k
      ∃ t, exec (.alignmentBurst n o) s = .next t ∧
        t.rdAt Reg.demod_RAD_OFS n (k - 1) = Reg.demod_RAD_OFS.trunc (BitVec.ofInt 32 (rad + e.fdiv sh)) ∧
        t.rdAt Reg.demod_TIM_OFS n (k - 1) = Reg.demod_TIM_OFS.trunc (BitVec.ofInt 32 (tim + m.fdiv sh)) ∧
        (loose = false ∨ e.natAbs ≤ s.wgTol n → t.rdAt Reg.demod_AGE n (k - 1) = 0 ∧ (t.act n).unconfirmed.getLsbD k = false) ∧
        (loose = true → s.wgTol n < e.natAbs → t.rdAt Reg.demod_AGE n (k - 1) = 255 ∧ (t.act n).unconfirmed.getLsbD k = true) ∧
        ∀ m : Act, m ≠ n → t.act m = s.act m)) ∧
  (∀ (s : State) (n : Act) (k : Fin 10) (w : Initiator), s.fileOk →
    (∀ v : BitVec 16, s.may w (Reg.demod_RAD_OFS.addr n k) true →
      ∃ t, exec (.radOfs n k w v) s = .next t ∧ (t.rdAt Reg.demod_RAD_OFS n k).toNat = v.toNat ∧ (t.rdAt Reg.demod_AGE n k).toNat = 255 ∧
        (t.act n).unconfirmed.getLsbD (k + 1) = true ∧ t.rdAt Reg.demod_TIM_OFS n k = s.rdAt Reg.demod_TIM_OFS n k) ∧
    (∀ v : BitVec 20, s.may w (Reg.demod_TIM_OFS.addr n k) true →
      ∃ t, exec (.timOfs n k w v) s = .next t ∧ (t.rdAt Reg.demod_TIM_OFS n k).toNat = v.toNat ∧ (t.rdAt Reg.demod_AGE n k).toNat = 255 ∧
        (t.act n).unconfirmed.getLsbD (k + 1) = true ∧ t.rdAt Reg.demod_RAD_OFS n k = s.rdAt Reg.demod_RAD_OFS n k)) ∧
  (∀ (s : State) (h : Hda) (hdr : UpHdr) (side : Fin 2) (sid : BitVec 4) (m : Marker) (b : BitVec 240), s.fileOk →
    let key := 2 * sid.toNat + side.val
    let n := actOf h side
    (sid = 1 ∨ sid = 2 ∨ sid = 3 →
      (∃ t, exec (.sampleMarker h hdr sid side m) s = .next t ∧ t.acts = s.acts ∧ t.mem = s.mem ∧
        (t.port h).streams = assocSet (s.port h).streams key ⟨m.frameNo, m.phase.toNat, 0, !m.loss && !m.unsync, 0, 0, []⟩) ∧
      (∀ x : StreamSt, (s.port h).streams.lookup key = some x → s.injTake 0x0A00 (s.str.laneOf n) = none → s.injTake 0x0600 n = none →
        let gap := (s.port h).rxSeq.getD key 0 ≠ hdr.seq.toNat
        let u := unpack (sampleWidth sid.toNat) (x.rest + b.toNat * 2 ^ x.restBits) (x.restBits + 240) 41
        ∃ t, exec (.sampleFrame h hdr sid side b) s = .next t ∧ t.acts = s.acts ∧ t.mem = s.mem ∧
          (t.port h).streams = assocSet (s.port h).streams key
            { x with count := x.count + u.1.length, placed := x.placed && !decide gap, rest := u.2.1, restBits := u.2.2, last := u.1 } ∧
          t.rdN Reg.port_SEQ_GAP h = (if gap then min (s.rdN Reg.port_SEQ_GAP h + 1) 0xFFFFFFFF else s.rdN Reg.port_SEQ_GAP h))) ∧
    (sid = 0 ∨ 7 ≤ sid.toNat →
      (∃ t, exec (.sampleMarker h hdr sid side m) s = .next t ∧ t = { s with regs := t.regs } ∧
        t.rdN Reg.port_SEQ_GAP h = min (s.rdN Reg.port_SEQ_GAP h + 1) 0xFFFFFFFF) ∧
      ∃ t, exec (.sampleFrame h hdr sid side b) s = .next t ∧ t = { s with regs := t.regs } ∧
        t.rdN Reg.port_SEQ_GAP h = min (s.rdN Reg.port_SEQ_GAP h + 1) 0xFFFFFFFF))

/-! ### 07: the Tiller sequencer -/

/-- Epochs (R181, R195 to R199, R201, R205): an allowed open takes NEXT and a slot, and a pre-seek's marks the target as speculative; a
commit or a chaff frees the slot of the number given and takes its grains out of the held ones; with no slot, a number still held, a wrong
SRC or an unknown number nothing but the result fields and the stall count changes. A pre-seek under READY work is chaffed (R197), and an
urgent entry ends the operation of another class (R194): either way the queue's entries stay and nothing more is read or written. What
rests on the model's own choices, not on a rule: logs 50 and 142 (a chaff that Bolrus makes by itself writes no result; RES_EPOCH of a
refused open stays). -/
def Obligations.EpochsAndUrgentWork : Prop :=
  (∀ (s : State) (e : Eng) (w : Initiator) (n : Nat), s.fileOk → s.may w (Reg.engine_EPOCH_OP.addr e 0) true → s.engAct e = some n →
    let next : BitVec 16 := (s.rd Reg.engine_NEXT e).setWidth 16
    ((s.freeSlot e).isSome = true → s.epochHeld n next = false →
      (s.runaheadOk n = true →
        ∃ t, exec (.epochOpen e w 1) s = .next t ∧ t.rdB Reg.engine_RES_OK e = true ∧ t.rdN Reg.engine_REASON e = 0 ∧
          t.rdN Reg.engine_RES_EPOCH e = s.rdN Reg.engine_NEXT e % 65536 ∧ t.rdN Reg.engine_NEXT e = (s.rdN Reg.engine_NEXT e + 1) % 65536 ∧
          t.epochSlot e next ≠ none ∧ t.held = s.held ∧ ∀ m : Act, m.val ≠ n → t.act m = s.act m) ∧
      (s.preseekOk n = true →
        ∃ t, exec (.epochOpen e w 3) s = .next t ∧ t.rdB Reg.engine_RES_OK e = true ∧ t.rdN Reg.engine_RES_EPOCH e = s.rdN Reg.engine_NEXT e % 65536 ∧
          t.rdB Reg.demod_SPEC_TARGET n = true ∧ t.held = s.held ∧ t.acts = s.acts)) ∧
    ((s.freeSlot e).isSome = true → s.epochHeld n next = true → s.runaheadOk n = true →
      ∃ t, exec (.epochOpen e w 1) s = .next t ∧ t.rdB Reg.engine_RES_OK e = false ∧ t.rdN Reg.engine_REASON e = 2 ∧ t.held = s.held ∧ t.acts = s.acts ∧
        t.rdN Reg.engine_EPOCH_STALL_CNT e = min (s.rdN Reg.engine_EPOCH_STALL_CNT e + 1) 0xFFFFFFFF) ∧
    (s.freeSlot e = none → ∀ src, ∃ t, exec (.epochOpen e w src) s = .next t ∧ t.rdB Reg.engine_RES_OK e = false ∧ t.rdN Reg.engine_REASON e = 1 ∧
      t.held = s.held ∧ t.acts = s.acts ∧ t.rdN Reg.engine_NEXT e = s.rdN Reg.engine_NEXT e) ∧
    ((s.freeSlot e).isSome = true → ∀ src : BitVec 3, src ≠ 1 → src ≠ 3 →
      ∃ t, exec (.epochOpen e w src) s = .next t ∧ t.rdB Reg.engine_RES_OK e = false ∧ t.rdN Reg.engine_REASON e = 4 ∧ t.acts = s.acts) ∧
    (∀ (num : BitVec 16) (i : Nat), s.epochSlot e num = some i →
      (∃ t, exec (.epochCommit e w num false) s = .next t ∧ t.rdB Reg.engine_RES_OK e = true ∧ t.rdN Reg.engine_RES_EPOCH e = num.toNat ∧
        (∀ g ∈ t.held, g.tag.act = n → g.tag.spec = true → g.tag.epoch ≠ num) ∧
        (s.host.cmds = [] → t.slotOpen e i = false)) ∧
      (∃ t, exec (.epochChaff e w num) s = .next t ∧ t.rdB Reg.engine_RES_OK e = true ∧ t.rdN Reg.engine_RES_EPOCH e = num.toNat ∧
        t.slotOpen e i = false ∧ t.held = s.held.filter (fun g => !(g.tag.act == n && g.tag.spec && g.tag.epoch == num)) ∧
        (t.act n).mq = (s.act n).mq ∧ t.out = s.out ∧ t.host = s.host) ∧
      ∃ t, exec (.epochCommit e w num true) s = .next t ∧ t.slotOpen e i = false ∧ t.out = s.out ∧ t.host = s.host) ∧
    (∀ num : BitVec 16, s.epochSlot e num = none →
      (∃ t, exec (.epochCommit e w num false) s = .next t ∧ t.rdB Reg.engine_RES_OK e = false ∧ t.rdN Reg.engine_REASON e = 3 ∧ t.held = s.held ∧ t.acts = s.acts) ∧
      ∃ t, exec (.epochChaff e w num) s = .next t ∧ t.rdB Reg.engine_RES_OK e = false ∧ t.rdN Reg.engine_REASON e = 3 ∧ t.held = s.held ∧ t.acts = s.acts)) ∧
  (∀ (s : State) (n : Act), s.fileOk → s.bindsOk →
    (∀ i, (List.range 4).find? (fun i => s.slotOpen (s.engine n) i && s.slotSrc (s.engine n) i == 3) = some i → (s.act n).readyOf 0 ≠ [] →
      ∃ t, exec (.preseekChaffTimeout n) s = .next t ∧ t.slotOpen (s.engine n) i = false ∧ (t.act n).mq = (s.act n).mq ∧ t.out = s.out) ∧
    ((∀ c, c < 4 → (s.act n).readyOf c = []) → exec (.preseekChaffTimeout n) s = .next s) ∧
    (∀ o : OpSt, (s.act n).op = some o → (s.act n).readyOf 0 ≠ [] → s.opPrio n o ≠ 0 → o.confEpoch = none → o.opc = 1 ∨ o.opc = 4 →
      ∃ t, exec (.preemption n) s = .next t ∧ (t.act n).op = none ∧ t.rdB Reg.engine_OP_BUSY (s.engine n) = false ∧ (t.act n).mq = (s.act n).mq ∧
        t.rdN Reg.engine_PREEMPT_CNT (s.engine n) = min (s.rdN Reg.engine_PREEMPT_CNT (s.engine n) + 1) 0xFFFFFFFF) ∧
    ((s.act n).op = none → exec (.preemption n) s = .next s))

/-- Operations (R191 to R193, R201, R204, R205, R260): OP_GO runs what OPC names. One that passes its checks selects its head, now or with
a HEAD_SEL on its way, and starts; one that does not leaves the actuator alone and says why in OP_STATUS, an OPC that names no operation
among them; a write under a speculative epoch is refused and counted; a busy engine ignores OP_GO. The oldest entry that waits for an
actuator enters its sequencer where it has room (R342); then what is ready completes. What rests on the model's own choices, not on a
rule: logs 86 and 143 (credit of a held OP_GO; the end of a seek). -/
def Obligations.OperationsAndWaitingEntries : Prop :=
  (∀ (s : State) (e : Eng) (w : Initiator) (n : Nat), s.fileOk → s.bindsOk →
    let opc := s.opDesc e 0 % 16
    (s.goes e w n → opc = 3 → s.descOk e n false = true →
      (s.opEntry e = 0x7FF → s.opSpec e = false →
        ∃ t, exec (.opSeek e w) s = .next t ∧ t.headNow n = s.opHead e ∧ t.rdN Reg.engine_OP_STATUS e = 0 ∧
          (s.rdB Reg.demod_ON_TRACK n = false → t.rdB Reg.engine_OP_BUSY e = true ∧
            (t.act n).op = some ⟨3, s.opHead e, 0x7FF, s.opTrack e, 0, 0, 0, false, 0, none, 0, none⟩)) ∧
      (s.opEntry e ≠ 0x7FF → ∃ t, exec (.opSeek e w) s = .next t ∧ t.rdN Reg.engine_OP_STATUS e = 5 ∧ t.acts = s.acts ∧ t.out = s.out)) ∧
    (s.goes e w n → opc = 4 → s.descOk e n true = true → s.opEntry e = 0x7FF → (s.act n).raDone + s.opCount e ≤ s.runaheadMax e →
      s.openOfSrc e 1 = some (s.opEpoch e) → (s.act n).lastRead = some (s.opHead e, s.opTrack e) → s.runaheadOk n = true →
      ∃ t, exec (.opRunaheadRead e w) s = .next t ∧ t.headNow n = s.opHead e ∧ t.rdN Reg.engine_OP_STATUS e = 0 ∧ t.rdB Reg.engine_OP_BUSY e = true ∧
        (t.act n).op = some ⟨4, s.opHead e, 0x7FF, s.opTrack e, s.opFirst e, s.opCount e, s.opEpoch e, true, 0, none, 0, none⟩) ∧
    (∀ x, s.goes e w n → opc = 1 → s.descOk e n true = true → s.opSpec e = false →
      (s.act n).mq.find? (fun x => x.idx == s.opEntry e && x.opc == 1) = some x →
      (s.entryCheck n x = 0 → (s.freeSlot e).isSome = true → s.epochHeld n ((s.rd Reg.engine_NEXT e).setWidth 16) = false →
        ∃ t, exec (.opRead e w) s = .next t ∧ t.headNow n = s.opHead e ∧ t.rdN Reg.engine_OP_STATUS e = 0 ∧ t.rdB Reg.engine_OP_BUSY e = true ∧
          (t.act n).op = some ⟨1, s.opHead e, x.idx, s.opTrack e, s.opFirst e, s.opCount e, 0, false, 0, some ((s.rd Reg.engine_NEXT e).setWidth 16), 0, none⟩ ∧
          t.epochSlot e ((s.rd Reg.engine_NEXT e).setWidth 16) ≠ none) ∧
      (s.entryCheck n x ≠ 0 → ∃ t, exec (.opRead e w) s = .next t ∧ t.rdN Reg.engine_OP_STATUS e = s.entryCheck n x ∧ t.acts = s.acts ∧ t.out = s.out)) ∧
    (∀ x d ent, s.goes e w n → opc = 2 → s.descOk e n true = true → s.opSpec e = false → s.openOfSrc e 3 = none → (s.act n).led.remap = [] →
      (s.act n).mq.find? (fun x => x.idx == s.opEntry e && x.opc == 2) = some x → s.sideDesc n = some d → s.entryCheck n x = 0 →
      x.nsConv = true ∨ s.accNeed n (zoneOf x.lba) = none → s.loopMode (vcmLoop n) ≠ 3 → s.loopMode (maLoop n) ≠ 3 →
      s.wtEntry n (s.opHead e) (s.opTrack e) = some ent → (∀ g ∈ s.buf, s.grainGood 0 g.place = true) → s.injTake 0x0700 n = none →
      (s.buildSectors n d x (s.opHead e) (s.opTrack e) (s.opFirst e) (s.opCount e) (zoneOf x.lba * 65536 + (s.zone n (zoneOf x.lba)).mwp) (s.acc n (zoneOf x.lba))).isSome = true →
      ∃ t, exec (.opWrite e w) s = .next t ∧ t.headNow n = s.opHead e ∧ t.rdN Reg.engine_OP_STATUS e = 0 ∧ (t.act n).win.isSome = true ∧
        (t.act n).mq = (s.act n).mq) ∧
    (∀ x d, s.goes e w n → opc = 2 → s.descOk e n true = true → s.opSpec e = true → (s.act n).mq.find? (fun x => x.idx == s.opEntry e && x.opc == 2) = some x →
      s.sideDesc n = some d →
      ∃ t, exec (.opWrite e w) s = .next t ∧ t.rdN Reg.engine_OP_STATUS e = 4 ∧
        t.rdN Reg.engine_WR_REFUSED_CNT e = min (s.rdN Reg.engine_WR_REFUSED_CNT e + 1) 0xFFFFFFFF ∧ t.acts = s.acts ∧ t.out = s.out ∧ t.buf = s.buf) ∧
    (s.goes e w n → opc = 0 ∨ 5 ≤ opc → ∃ t, exec (.opRead e w) s = .next t ∧ t.rdN Reg.engine_OP_STATUS e = 5 ∧ t.acts = s.acts ∧ t.out = s.out) ∧
    (∀ c ∈ [Instr.opRead e w, .opWrite e w, .opSeek e w, .opRunaheadRead e w], s.may w (Reg.engine_OP_GO.addr e 0) true → s.rdB Reg.engine_OP_BUSY e = true →
      ∃ t, exec c s = .next t ∧ s.onlyWakes t)) ∧
  (∀ (s : State) (n : Act) (x : MqEntry), (n.val, x) ∈ s.host.waiting → (∀ y ∈ s.host.waiting, y.1 = n.val → y ≠ (n.val, x) → x.stamp < y.2.stamp) →
    (s.act n).mq.length < s.str.queue.mediaDepth →
    ∃ t, exec (.mediaQueueEntry n) s = .next t ∧ ∃ u : State, t = u.settle ∧ u.host.waiting = s.host.waiting.erase (n.val, x) ∧
      (u.act n).mq.length = (s.act n).mq.length + 1 ∧ u.host.cmds = s.host.cmds ∧ (∀ m : Act, m ≠ n → u.act m = s.act m))

/-! ### 08 to 10: the Thresher, recovery and the ledgers, writes and assist -/

/-- Tap memory (R217, R218): TAP_DATA writes or reads the shadow's halfword at TAP_ADDR and steps the address; TAP_COMMIT makes the shadow
the taps in use. Neither touches another lane. The write parameter table (R286): WT_DATA writes or reads the shadow's word at WT_ADDR and
steps it; a commit takes effect when no window runs and waits in WT_PEND while one does. -/
def Obligations.TapAndWriteTables : Prop :=
  (∀ (s : State) (l : Lane) (w : Initiator), s.fileOk →
    (∀ m, s.str.actOfLane s.husk.variantH l = some m → s.rdBit Reg.thermAct_CAL_BUSY m 5 = false) →
    (∀ v : BitVec 16, s.may w (Reg.lane_TAP_DATA.addr l 0) true → s.rdN Reg.lane_TAP_ADDR l < 0xC000 →
      let a := s.rdN Reg.lane_TAP_ADDR l / 2
      ∃ t, exec (.tapData l w (some v)) s = .next t ∧ (t.lane l).shadow = Sparse.write (s.lane l).shadow a 0 v.toNat ∧ (t.lane l).taps = (s.lane l).taps ∧
        t.rdN Reg.lane_TAP_ADDR l = 2 * a + 2 ∧ t.out = s.out ∧ ∀ k : Lane, k ≠ l → t.lane k = s.lane k) ∧
    (s.may w (Reg.lane_TAP_DATA.addr l 0) false → s.rdN Reg.lane_TAP_ADDR l < 0xC000 →
      ∃ t, exec (.tapData l w none) s = .next t ∧ t.lanes = s.lanes ∧
        t.out = s.out ++ [.value w (BitVec.ofNat 32 (Sparse.read (s.lane l).shadow (s.rdN Reg.lane_TAP_ADDR l / 2) 0))]) ∧
    (s.may w (Reg.lane_TAP_COMMIT.addr l 0) true →
      ∃ t, exec (.tapCommit l w) s = .next t ∧ (t.lane l).taps = (s.lane l).shadow ∧ (t.lane l).shadow = (s.lane l).shadow ∧
        t.rdB Reg.lane_TAP_PEND l = false ∧ ∀ k : Lane, k ≠ l → t.lane k = s.lane k)) ∧
  (∀ (s : State) (n : Act) (w : Initiator), s.fileOk → s.rdBit Reg.thermAct_CAL_BUSY n 6 = false →
    (∀ v : Word, s.may w (Reg.wa_WT_DATA.addr n 0) true → s.rdN Reg.wa_WT_ADDR n < 0x2940 →
      let a := s.rdN Reg.wa_WT_ADDR n / 4
      ∃ t, exec (.wtData n w (some v)) s = .next t ∧ (t.act n).shadowTable = Sparse.write (s.act n).shadowTable a 0 v.toNat ∧ (t.act n).table = (s.act n).table ∧
        t.rdN Reg.wa_WT_ADDR n = (4 * a + 4) % 16384 ∧ t.out = s.out ∧ ∀ m : Act, m ≠ n → t.act m = s.act m) ∧
    (s.may w (Reg.wa_WT_DATA.addr n 0) false →
      ∃ t, exec (.wtData n w none) s = .next t ∧ t.acts = s.acts ∧
        t.out = s.out ++ [.value w (BitVec.ofNat 32 (Sparse.read (s.act n).shadowTable (s.rdN Reg.wa_WT_ADDR n / 4) 0))]) ∧
    (s.may w (Reg.wa_WT_COMMIT.addr n 0) true →
      ((s.act n).win = none → ∃ t, exec (.wtCommit n w) s = .next t ∧ (t.act n).table = (s.act n).shadowTable ∧ t.rdB Reg.wa_WT_PEND n = false) ∧
      ((s.act n).win.isSome = true → ∃ t, exec (.wtCommit n w) s = .next t ∧ t.acts = s.acts ∧ t.rdB Reg.wa_WT_PEND n = true)))

/-- The capture ring (R229 to R231): the first slot that waits gives its samples to its capture record and no longer waits, counted; a
slot with a SECDED error makes its capture invalid in every notice that names it. A requested sector of a read whose span goes on (R221,
R224, R226 to R228): where an alignment is accepted, its grain is held under the operation's epoch with the payload decrypted; where none
is, its failure notice, with the kind decided before or after decoding, waits for the epoch. A sector that nobody asked for goes to the
ring alone. A lane that serves no actuator does nothing. What rests on the model's own choices, not on a rule: logs 52 and 172 (the order
of FAIL_KIND values; what a lane keeps). -/
def Obligations.CapturesAndVerdicts : Prop :=
  (∀ (s : State) (l : Lane), s.fileOk →
    ((∀ x ∈ (s.lane l).ring, x.copyTo = none) → ∀ b, exec (.captureCopyDone l b) s = .next s) ∧
    (∀ (x : RingSlot) (c : Nat) (ep : BitVec 16), (s.lane l).ring.find? (fun y => y.copyTo.isSome) = some x → x.copyTo = some (c, ep) →
      let ring := (s.lane l).ring.map (fun r => if r = x then { r with copyTo := none } else r)
      (x.ecc < 2 →
        ∃ t, exec (.captureCopyDone l false) s = .next t ∧ (t.lane l).ring = ring ∧ (∀ y ∈ s.pool.caps, y.1 = c → (c, some x.win) ∈ t.pool.caps) ∧
          ((∀ m ∈ s.pool.early, m.cap ≠ some c) → t.rdN Reg.lane_CAP_COPY_CNT l = min (s.rdN Reg.lane_CAP_COPY_CNT l + 1) 0xFFFFFFFF)) ∧
      ∃ t, exec (.captureCopyDone l true) s = .next t ∧ ∃ u : State, t = u.raise 0x0A02 l 0 (x.ecc != 0) ∧ (u.lane l).ring = ring ∧
        ∀ m ∈ u.pool.early ++ u.pool.waiting, m.cap = some c → m.capValid = false)) ∧
  (∀ (s : State) (l : Lane) (o : SectorObs),
    (s.str.actOfLane s.husk.variantH l = none → exec (.sectorVerdict l o) s = .next s) ∧
    (∀ (n : Nat) (d : SideDesc), s.str.actOfLane s.husk.variantH l = some n → s.sideDesc n = some d →
      1 ≤ s.rdN Reg.demod_SEL_HEAD n → s.rdN Reg.demod_SEL_HEAD n ≤ 10 → o.tapParityErr = false → s.flt.injected = [] →
      let k := s.rdN Reg.demod_SEL_HEAD n
      let x := s.seen n l k o
      (s.asked n k o.track o.sector = none →
        ∃ t, exec (.sectorVerdict l o) s = .next t ∧ t.held = s.held ∧ t.pool = s.pool ∧ t.acts = s.acts ∧
          ((s.lane l).ring.length < 64 → s.flt.armed = [] → (t.lane l).ring = (s.lane l).ring ++ [x.slot])) ∧
      (∀ (a : Asked) (c : Bool) (lba : Nat) (ep : BitVec 16), s.asked n k o.track o.sector = some a → a.op.opc = 1 → a.op.recov = none →
        a.op.confEpoch = some ep → a.lba = some (c, lba) → a.op.spanDone + 1 < s.confSpan (s.engine n) → a.op.done + 1 < a.op.count →
        let kind := if x.kind0 ≠ 0 then x.kind0 else x.j.kind
        ∃ t, exec (.sectorVerdict l o) s = .next t ∧ ∃ u : State, t = (u.settle).resumeGo n ∧
          (∀ g, x.j.accepted = some g → ∃ h : Grain, u.held = s.held ++ [h] ∧ h.tag.act = n ∧ h.tag.nsConv = c ∧ h.tag.lba = lba ∧ h.tag.epoch = ep ∧
            h.tag.spec = true ∧ h.tag.sealOk = true ∧ h.payload = s.plain n c lba g.2.payload ∧ u.pool = s.pool) ∧
          (x.j.accepted = none → kind ≠ 5 → u.held = s.held ∧ ∃ m : Notice, u.pool.early = s.pool.early ++ [m] ∧ m.kind = kind ∧ m.act = n ∧ m.conv = c ∧
            m.lba = lba ∧ m.epoch = ep ∧ m.head = k ∧ m.track = o.track ∧ m.sector = o.sector))))

/-! ### 08 to 10 -/

/-- The pool (R236, R238, R246): the oldest notice is taken while fewer than 1,024 records are held and, with a valid capture and step 1
enabled, starts there; with none waiting or no record free it stays. A decoder that ends a unit is free and has counted it; where the unit
passes, the record leaves the pool, counted by its step. A deadline is counted and completes the command with an error. Ledger generations
(R149, R252, R374): a timer starts the write of what is staged; a durable generation raises GEN, is shown in its register, and one that
does not fit is refused with fault 0x0504; with nothing staged, or the link away, none of them does anything. What rests on the model's
own choices, not on a rule: logs 32 and 53 (what a generation holds; steps that cannot be taken). -/
def Obligations.RecoveryAndLedgers : Prop :=
  (∀ (s : State), s.fileOk →
    (∀ m rest, s.pool.waiting = m :: rest → s.pool.records.length < 1024 → m.capValid = true → s.rdBit Reg.pool_STEP_EN 0 0 = true →
      ∃ t, exec .failureNoticeTaken s = .next t ∧ t.pool.waiting = rest ∧ t.pool.records.length = s.pool.records.length + 1 ∧
        (∃ r ∈ t.pool.records, r.n.lba = m.lba ∧ r.n.act = m.act ∧ r.step = 1) ∧ t.acts = s.acts ∧ t.out = s.out) ∧
    (s.pool.waiting = [] ∨ 1024 ≤ s.pool.records.length → exec .failureNoticeTaken s = .next s) ∧
    (∀ (d : Fin 16) (r : RecRecord), s.pool.records.find? (fun r => r.decoder == some d.val) = some r →
      let r' : RecRecord := { r with decoder := none, ready := false }
      let u := ((s.bumpBy Reg.pool_WORK_CNT 0 d 1).decFree d).setRec r r'
      ∃ t, exec (.decodeUnitDone d) s = .next t ∧
        (u.injTake 0x0B01 0 = none → u.capCheck r' = (u, r') → r.step = 1 → r.n.noCmd = true → r.n.act < 64 → ∀ b, u.poolOutcome r' = some b →
          t.pool.records.length < s.pool.records.length ∧ (t.rdAt Reg.pool_WORK_CNT 0 d).toNat = min ((s.rdAt Reg.pool_WORK_CNT 0 d).toNat + 1) 0xFFFFFFFF ∧
          (t.rdAt Reg.poolAct_RCV_CNT r.n.act 0).toNat = min ((s.rdAt Reg.poolAct_RCV_CNT r.n.act 0).toNat + 1) 0xFFFFFFFF)) ∧
    (∀ d : Fin 16, s.pool.records.find? (fun r => r.decoder == some d.val) = none → exec (.decodeUnitDone d) s = .next s) ∧
    (∀ (slot : BitVec 16) (r : RecRecord) (c : Cmd),
      s.pool.records.find? (fun r => !r.n.noCmd && r.n.slot == slot.toNat && r.deadline.isSome) = some r → s.cmd r.n.slot = some c → c.stamp = r.stamp →
      r.n.act < 64 →
      ∃ t, exec (.recoveryDeadline slot) s = .next t ∧ ∃ (u : State) (st : Nat), t = ((u.complete r.n.slot st).settle).assign ∧
        u.host.dataErrors = s.host.dataErrors + 1 ∧
        u.rdN Reg.poolAct_TIMEOUT_CNT r.n.act = min (s.rdN Reg.poolAct_TIMEOUT_CNT r.n.act + 1) 0xFFFFFFFF) ∧
    (∀ slot : BitVec 16, s.pool.records = [] → exec (.recoveryDeadline slot) s = .next s)) ∧
  (∀ (s : State) (n : Act), s.fileOk →
    ((s.led n).staged.getD 0 false = true →
      ∃ t, exec (.remapFlush n) s = .next t ∧ (t.led n).writing = listSet (s.led n).writing 0 true ∧ (t.led n).gens = (s.led n).gens ∧ t.regs = s.regs ∧
        ∀ m : Act, m ≠ n → t.act m = s.act m) ∧
    ((s.led n).staged.getD 2 false = true →
      ∃ t, exec (.zmapFlush n) s = .next t ∧ (t.led n).writing = listSet (s.led n).writing 2 true ∧ (t.led n).gens = (s.led n).gens ∧ t.regs = s.regs ∧
        ∀ m : Act, m ≠ n → t.act m = s.act m) ∧
    ((s.led n).staged.getD 0 false = false → exec (.remapFlush n) s = .next s) ∧ ((s.led n).staged.getD 2 false = false → exec (.zmapFlush n) s = .next s) ∧
    (∀ k : Fin 4, (s.led n).staged.getD k false = true → s.up (hdaOf n) = true → (s.led n).gens.length = 4 →
      (s.ledgerFull n (k + 1) = false →
        ∃ t, exec (.ledgerGenerationDurable n k) s = .next t ∧ ∃ u : State, t = u.settle ∧ u.gen n (k + 1) = s.gen n (k + 1) + 1 ∧
          (k.val = 0 → u.rd Reg.poolAct_REMAP_GEN n = BitVec.ofNat 32 (s.gen n 1 + 1)) ∧ (k.val = 1 → u.rd Reg.poolAct_LOST_GEN n = BitVec.ofNat 32 (s.gen n 2 + 1)) ∧
          (k.val = 2 → u.rd Reg.zone_ZMAP_GEN n = BitVec.ofNat 32 (s.gen n 3 + 1))) ∧
      (s.ledgerFull n (k + 1) = true → exec (.ledgerGenerationDurable n k) s = .next (s.raise 0x0504 (hdaOf n)))) ∧
    (∀ k : Fin 4, (s.led n).staged.getD k false = false ∨ s.up (hdaOf n) = false → exec (.ledgerGenerationDurable n k) s = .next s))

/-- The end of a window (R262, R263, R278): its end closes the window, voids the arm of its frames and, with no window behind it, ends the
laser's automatic mode; WDONE takes the window away, a short one is counted, and a sector it covered leaves the buffer; ERR 5 on a window
takes it away, on its assist leaves it without. What rests on the model's own choices, not on a rule: logs 51 and 145 (the cause recorded
when several gate conditions fail; a window that ends while the next one is armed). -/
def Obligations.WindowsEndAndFreeTheirGrains : Prop :=
  ∀ (s : State) (h : Hda) (side : Fin 2) (hdr : UpHdr) (w : WinSt), s.fileOk → s.bindsOk →
    let n := 2 * h.val + side.val
    let wdoneOk (bits : Word) : Bool := crcHolds hdr side 0x86 ([side.val, 0] ++ hBytes w.id.toNat ++ [0, 0] ++ wBytes bits)
    let errOk (sid : BitVec 4) : Bool := crcHolds hdr side 0x85 ([5, sid.toNat, side.val, 0] ++ hBytes w.id.toNat)
    ((s.act n).win = some w → w.autoFrames < 8 →
      ∃ t, exec (.windowEnd ⟨n, by omega⟩) s = .next t ∧ t.rdB Reg.wa_WINDOW n = false ∧
        (t.act n).armed = (s.act n).armed.filter (fun f => frameBefore w.lastFrame f) ∧ (t.act n).win.map (·.dead) = some true ∧ t.buf = s.buf ∧
        ((s.act n).winQueue = [] → t.rdB Reg.wa_LASER_AUTO n = false ∧ t.loopMode (laserLoop n) ≠ 2)) ∧
    ((s.act n).win = none → exec (.windowEnd ⟨n, by omega⟩) s = .next s) ∧
    (((s.act n).win.toList ++ (s.act n).winQueue).find? (fun x => x.id == w.id) = some w →
      (∀ bits : Word, wdoneOk bits = true → ∃ t, exec (.wdone h hdr side w.id bits) s = .next t ∧ ∀ x ∈ (t.act n).win.toList ++ (t.act n).winQueue, x.id ≠ w.id) ∧
      (0 < w.sectors → wdoneOk 0 = true → ∃ t, exec (.wdone h hdr side w.id 0) s = .next t ∧ t.rdN Reg.wa_SHORT_WIN_CNT n = min (s.rdN Reg.wa_SHORT_WIN_CNT n + 1) 0xFFFFFFFF) ∧
      (∀ lba : Nat, w.sectors = 1 → w.lbas = [some lba] → w.task = .host → s.host.pins = [] → wdoneOk (BitVec.ofNat 32 sectorBits) = true →
        ∃ t, exec (.wdone h hdr side w.id (BitVec.ofNat 32 sectorBits)) s = .next t ∧
          ∀ g ∈ t.buf, ¬(g.tag.act = n ∧ g.tag.nsConv = w.conv ∧ g.tag.lba = lba ∧ g.tag.stamp = w.stamp)) ∧
      (errOk 7 = true → ∃ t, exec (.err h hdr 5 7 side w.id) s = .next t ∧ t.rdN Reg.wa_WIN_REJ_CNT n = min (s.rdN Reg.wa_WIN_REJ_CNT n + 1) 0xFFFFFFFF ∧
        (∀ x ∈ (t.act n).win.toList ++ (t.act n).winQueue, x.id ≠ w.id ∧ x.dead = true) ∧ t.buf = s.buf) ∧
      (errOk 8 = true → ∃ t, exec (.err h hdr 5 8 side w.id) s = .next t ∧ (∀ x ∈ (t.act n).win.toList ++ (t.act n).winQueue, x.id = w.id → x.entry = []) ∧ t.buf = s.buf)) ∧
    ((∀ x ∈ (s.act n).win.toList ++ (s.act n).winQueue, x.id ≠ w.id) →
      ∀ bits, wdoneOk bits = true → ∃ t, exec (.wdone h hdr side w.id bits) s = .next t ∧ t.acts = s.acts ∧ t.buf = s.buf ∧ t.host = s.host)

/-! ### 11: the Heliostat loops -/

/-- ENABLE, MODE_REQ, SWAP and the end of a tune (R296, R298, R299, R301, R304): a sound program starts in MANUAL at MAN_OUT, a laser's
within its limits, an unsound one shows its word; a stop from MANUAL or SAFE is OFF; requests wait for the next run; instances of the
spindle block ignore them. The setpoint FIFO and the frame boundary (R166, R182, R291, R292): an accepted push goes to the FIFO's end, a
refused one says why and nothing else, and one by an initiator that is no engine does nothing; at a boundary the frame is counted, a due
entry becomes the base of TARGET, and with none the last committed setpoint holds; with the heads on the ramp there are no frames. -/
def Obligations.LoopCommandsAndSetpoints : Prop :=
  (∀ (s : State) (g : Loop) (w : Initiator), s.fileOk →
    (s.may w (Reg.loop_ENABLE.addr g 0) true → loopKind g ≠ .spindle →
      (s.loopMode g = 0 → s.laserBarred g = false →
        (s.progErr g = none → s.up (loopHda g) = true → s.reactHda (loopHda g) < 3 →
          ∃ t, exec (.enable g w true) s = .next t ∧ t.loopMode g = 1 ∧ t.rdB Reg.loop_ENABLE g = true ∧ t.rdB Reg.loop_PROG_ERR g = false ∧
            (t.rd Reg.loop_Y g).toNat = (s.laserClamp g (s.rd Reg.loop_MAN_OUT g)).toNat ∧ t.loop g = LoopSt.reset ∧ t.acts = s.acts) ∧
        (∀ i, i < 32 → s.progErr g = some i →
          ∃ t, exec (.enable g w true) s = .next t ∧ t.loopMode g = 0 ∧ t.rdB Reg.loop_PROG_ERR g = true ∧ t.rdN Reg.loop_PROG_ERR_IDX g = i ∧ t.loops = s.loops)) ∧
      (s.loopMode g = 1 ∨ s.loopMode g = 5 →
        ∃ t, exec (.enable g w false) s = .next t ∧ t.loopMode g = 0 ∧ t.rdB Reg.loop_ENABLE g = false ∧ t.loop g = LoopSt.reset ∧ t.acts = s.acts)) ∧
    (s.may w (Reg.loop_ENABLE.addr g 0) true → loopKind g = .spindle → ∀ on, ∃ t, exec (.enable g w on) s = .next t ∧ s.onlyWakes t) ∧
    (s.may w (Reg.loop_MODE_REQ.addr g 0) true → loopKind g ≠ .spindle →
      (∀ m : BitVec 2, m = 0 ∨ m = 1 → 1 ≤ s.loopMode g → s.loopMode g ≤ 3 →
        ∃ t, exec (.modeReq g w m) s = .next t ∧ (t.loop g).modePend = some m.toNat ∧ t.loopMode g = s.loopMode g ∧ t.acts = s.acts ∧ t.out = s.out) ∧
      (s.tuneBarred g = true → ∃ t, exec (.modeReq g w 2) s = .next t ∧ t.rdN Reg.loop_TUNE_ST g = 5 ∧ t.loops = s.loops) ∧
      ∃ t, exec (.modeReq g w 3) s = .next t ∧ s.onlyWakes t) ∧
    (s.may w (Reg.loop_SWAP.addr g 0) true →
      (s.loopMode g ≠ 3 → ∃ t, exec (.swap g w) s = .next t ∧ (t.loop g).swapPend = true ∧ t.regs = s.regs ∧ ∀ k : Loop, k ≠ g → t.loop k = s.loop k) ∧
      (s.loopMode g = 3 → ∃ t, exec (.swap g w) s = .next t ∧ s.onlyWakes t)) ∧
    (∀ u : TuneSt, s.loopMode g = 3 → (s.loop g).tune = some u → u.prevMode < 3 →
      ∃ t, exec (.tuneTimeout g) s = .next t ∧ t.loopMode g = u.prevMode ∧ t.rdN Reg.loop_TUNE_ST g = 4 ∧ (t.loop g).tune = none ∧ t.acts = s.acts) ∧
    (s.loopMode g ≠ 3 → exec (.tuneTimeout g) s = .next s)) ∧
  (∀ (s : State) (n : Act), s.fileOk →
    (∀ w : Initiator, s.may w (Reg.spf_SP_PUSH.addr n 0) true → w.toNat = idEngine (s.engine n) → s.actExists n = true →
      (s.spRes n = 0 → ∃ t, exec (.spPush n w) s = .next t ∧ t.rdN Reg.spf_SP_RES n = 0 ∧
        (t.act n).fifo = (s.act n).fifo ++ [⟨s.rdInt Reg.spf_SP_POS n 0, s.rd Reg.spf_SP_ACC n, s.rd Reg.spf_SP_FRAME n,
          (s.rd Reg.spf_SP_EPOCH n).setWidth 16, s.rdB Reg.spf_SP_SPEC n⟩] ∧
        t.rdN Reg.spf_SP_DEPTH n = (s.act n).fifo.length + 1 ∧ t.loops = s.loops ∧ t.out = s.out) ∧
      (s.spRes n ≠ 0 → ∃ t, exec (.spPush n w) s = .next t ∧ t.rdN Reg.spf_SP_RES n = s.spRes n ∧ t.acts = s.acts ∧ t.out = s.out)) ∧
    (∀ w : Initiator, engineId w.toNat = none → s.stage1 w.toNat (Reg.spf_SP_PUSH.addr n 0) true = true → exec (.spPush n w) s = .next s) ∧
    ((s.act n).headsOn = true → exec (.frameBoundary n) s = .next s) ∧
    ((s.act n).headsOn = false →
      ∃ t, exec (.frameBoundary n) s = .next t ∧ (t.act n).frameNo = (s.act n).frameNo + 1 ∧ (t.act n).index = ((s.act n).index + 1) % 1800 ∧
        (∀ m : Act, m ≠ n → t.act m = s.act m) ∧
        (∀ (x : SpEntry) (rest : List SpEntry), (s.act n).fifo = x :: rest → x.frame = (s.act n).frameNo + 1 → x.spec = false →
          (t.act n).base = x.pos ∧ (t.act n).ffAcc = x.acc ∧ (t.act n).hold = x.pos ∧ (t.act n).fifo = rest) ∧
        ((s.act n).fifo = [] → s.rdB Reg.demod_SPEC_TARGET n = false → (t.act n).base = (s.act n).hold ∧ (t.act n).ffAcc = 0)))

/-- A run, an expired watchdog and the retract (R288, R289, R302, R303): LOOP_RUN takes the input that waits and nothing without one; OFF
and SAFE run nothing with it; a VCM or MA run in MANUAL latches its measurement and is counted; an MA instance older than its limit leaves
its mode for its safe action and its pending bit is set; the retract passes from brake to push to hold and ends with the heads on the
ramp. What rests on the model's own choices, not on a rule: logs 47, 48 and 166 (how the watchdog is presented; rounding of a biquad;
which input a run takes). -/
def Obligations.LoopRunsAndSafeActions : Prop :=
  ∀ (s : State) (g : Loop) (ts : Word), s.fileOk → s.bindsOk →
    ((s.loop g).input = none → exec (.loopRun g ts) s = .next s) ∧
    (∀ f : Word, (s.loop g).input = some f → s.injTake 0x0800 (g / 64) = none →
      (s.loopMode g = 0 ∨ s.loopMode g = 5 →
        ∃ t, exec (.loopRun g ts) s = .next t ∧ (t.loop g).input = none ∧ t.regs = s.regs ∧ t.out = s.out ∧ ∀ j : Loop, j ≠ g → t.loop j = s.loop j) ∧
      (s.loopMode g = 1 → (s.loop g).first = true → loopKind g = .vcm ∨ loopKind g = .ma → (s.act (loopAct g)).maWait = false →
        ∃ t, exec (.loopRun g ts) s = .next t ∧ (t.rd Reg.loop_MEAS g).toNat = (s.loopIns g ⟨0, 0, 0, ts, f⟩).1.toNat ∧
          t.rdN Reg.loop_RUN_CNT g = min (s.rdN Reg.loop_RUN_CNT g + 1) 0xFFFFFFFF ∧ t.cfg = s.cfg)) ∧
    (1 ≤ s.loopMode g → s.loopMode g ≤ 3 → loopKind g = .ma →
      (s.wdAge g < (s.loop g).age → (s.loop g).disabling = false →
        ∃ t, exec (.loopWatchdog g) s = .next t ∧ (t.loopMode g = 4 ∨ t.loopMode g = 5) ∧ t.flt.wdPend.getLsbD g = true ∧
          t.rdN Reg.loop_WD_CNT g = min (s.rdN Reg.loop_WD_CNT g + 1) 0xFFFFFFFF) ∧
      ((s.loop g).age ≤ s.wdAge g → exec (.loopWatchdog g) s = .next s)) ∧
    (∀ n : Act, let v := vcmLoop n
      (s.loopMode v ≠ 4 → exec (.retractPhaseEnd n) s = .next s) ∧
      (s.loopMode v = 4 → (s.loop v).retract = 1 →
        ∃ t, exec (.retractPhaseEnd n) s = .next t ∧ (t.loop v).retract = 2 ∧ t.loopMode v = 4 ∧
          (t.rd Reg.loop_Y v).toNat = (s.retSign v (F32.abs (s.rd Reg.unit_RET_PUSH (v / 64)))).toNat ∧ t.acts = s.acts) ∧
      (s.loopMode v = 4 → (s.loop v).retract = 3 → s.rdN Reg.dis_STATE (64 + n.val / 2) ≠ 1 →
        ∃ t, exec (.retractPhaseEnd n) s = .next t ∧ t.loopMode v = (if (s.loop v).disabling then 0 else 5) ∧ (t.act n).headsOn = true ∧
          t.rdN Reg.demod_STATE n = 0 ∧ (∀ m : Act, m ≠ n → t.act m = s.act m)))

/-! ### 12: the spindle -/

/-- A start (R320 to R323): SENSE leads to ALIGN when stopped, to BRAKE when backward and to RUN when it can be caught; ALIGN to RAMP; a
failed attempt coasts and is tried again, the third fails; braking that ends aligns, braking that never ends fails; a start out of time
coasts. Observer loss, unload and restart (R324, R326): a re-acquisition that catches runs on; one that does not in time takes the heads
off, and once they are parked the spindle starts again; a bus below its limit lets the spindle coast. What rests on the model's own
choices, not on a rule: logs 40, 83, 85 and 177 (values with no finite result; rounding; the attempt's end; the back-EMF's numbers). -/
def Obligations.SpindleStartsAndLosses : Prop :=
  (∀ (s : State) (h : Hda) (b : BemfObs), s.fileOk → s.bindsOk →
    (s.rdN Reg.spindle_SPIN_STATE h = 1 →
      ((s.senseBemf h b).2 = true → ∃ t, exec (.senseEnd h b) s = .next t ∧ t.rdN Reg.spindle_SPIN_STATE h = 3 ∧ t.rdN Reg.spindle_START_PATH h = 2 ∧ t.acts = s.acts) ∧
      ((s.senseBemf h b).2 = false → b.backward = true →
        ∃ t, exec (.senseEnd h b) s = .next t ∧ t.rdN Reg.spindle_SPIN_STATE h = 2 ∧ t.rdN Reg.spindle_START_PATH h = 3 ∧ (t.spinSt h).sensing = false ∧ t.loops = s.loops) ∧
      ((s.senseBemf h b).2 = false → b.backward = false → F32.lt (F32.ofInt (s.rdN Reg.spindle_CATCH_RPM h)) b.rpm = true →
        ∃ t, exec (.senseEnd h b) s = .next t ∧ t.rdN Reg.spindle_SPIN_STATE h = 5 ∧ t.rdN Reg.spindle_START_PATH h = 1)) ∧
    (s.rdN Reg.spindle_SPIN_STATE h ≠ 1 → exec (.senseEnd h b) s = .next s) ∧
    (s.rdN Reg.spindle_SPIN_STATE h = 3 → ∃ t, exec (.alignEnd h) s = .next t ∧ t.rdN Reg.spindle_SPIN_STATE h = 4 ∧ t.spn = s.spn ∧ t.loops = s.loops) ∧
    (s.rdN Reg.spindle_SPIN_STATE h = 4 →
      ((s.spinSt h).attempts < 2 → ∃ t, exec (.handoffTimeout h) s = .next t ∧ t.rdN Reg.spindle_SPIN_STATE h = 9 ∧ (t.spinSt h).retry = true ∧
        (t.spinSt h).attempts = (s.spinSt h).attempts + 1 ∧ t.flt = s.flt) ∧
      (2 ≤ (s.spinSt h).attempts → ∃ t, exec (.handoffTimeout h) s = .next t ∧ t.rdN Reg.spindle_SPIN_STATE h = 10 ∧ (t.spinSt h).begun = false)) ∧
    ((s.spinSt h).retry = true → s.rdN Reg.spindle_SPIN_STATE h = 9 →
      ∃ t, exec (.startRetry h) s = .next t ∧ t.rdN Reg.spindle_SPIN_STATE h = 1 ∧ (t.spinSt h).retry = false ∧ (t.spinSt h).attempts = (s.spinSt h).attempts) ∧
    (s.rdN Reg.spindle_SPIN_STATE h = 2 →
      ((s.spinSt h).sensing = false → ∃ t, exec (.brakeIntervalEnd h b) s = .next t ∧ (t.spinSt h).sensing = true ∧ t.rdN Reg.spindle_SPIN_STATE h = 2) ∧
      ((s.spinSt h).sensing = true → (s.senseBemf h b).2 = true → ∃ t, exec (.brakeIntervalEnd h b) s = .next t ∧ t.rdN Reg.spindle_SPIN_STATE h = 3) ∧
      ∃ t, exec (.brakeTimeout h) s = .next t ∧ t.rdN Reg.spindle_SPIN_STATE h = 10 ∧ (t.spinSt h).begun = false) ∧
    ((s.spinSt h).begun = true → ∃ t, exec (.spinupTimeout h) s = .next t ∧ (t.spinSt h).begun = false ∧ s.alm.auditLast < t.alm.auditLast ∧ t.cfg = s.cfg) ∧
    ((s.spinSt h).begun = false → exec (.spinupTimeout h) s = .next s)) ∧
  (∀ (s : State) (h : Hda) (b : BemfObs), s.fileOk → s.bindsOk →
    (s.rdN Reg.spindle_SPIN_STATE h = 7 →
      (∃ t, exec (.reacqTimeout h) s = .next t ∧ t.rdN Reg.spindle_SPIN_STATE h = 8 ∧ (t.spinSt h).unloads = (s.spinSt h).unloads + 1 ∧
        ∀ x : Fin 2, s.actExists (2 * h + x) = true → (t.act (2 * h + x)).ready = false ∧ (t.act (2 * h + x)).op = none) ∧
      ((s.senseBemf h b).2 = false → b.backward = false → F32.lt (F32.ofInt (s.rdN Reg.spindle_CATCH_RPM h)) b.rpm = true →
        ∃ t, exec (.reacquisitionDone h b) s = .next t ∧ t.rdN Reg.spindle_SPIN_STATE h = 5 ∧ t.acts = s.acts) ∧
      ((s.senseBemf h b).2 = true → ((s.senseBemf h b).1.speedTest h).2 = false → ∃ t, exec (.reacquisitionDone h b) s = .next t ∧ t.rdN Reg.spindle_SPIN_STATE h = 7 ∧ t.acts = s.acts)) ∧
    (s.rdN Reg.spindle_SPIN_STATE h ≠ 7 → exec (.reacqTimeout h) s = .next s ∧ exec (.reacquisitionDone h b) s = .next s) ∧
    (s.rdN Reg.spindle_SPIN_STATE h = 8 → s.headsParked h = true →
      ∃ t, exec (.unloadDone h) s = .next t ∧ t.rdN Reg.spindle_SPIN_STATE h = 1 ∧ (t.spinSt h).attempts = 0 ∧ (t.spinSt h).begun = true ∧ t.acts = s.acts) ∧
    (s.bound h = true → s.rdN Reg.spindle_SPIN_STATE h ≠ 0 → s.rdN Reg.spindle_SPIN_STATE h ≠ 10 →
      ∃ t, exec (.busUndervoltage h) s = .next t ∧ t.rdN Reg.spindle_SPIN_STATE h = 9 ∧ t.rdBit Reg.flt_FLT_STAT (172 + h) 4 = true) ∧
    (s.bound h = false → exec (.busUndervoltage h) s = .next s))

/-- SPIN_CMD (R300, R322, R325): a start or stop that meets its conditions takes effect, another answers with SPIN_RES and does nothing
else; a tune waits for the speed instance's next run, only at speed with the heads parked. A driven period (R312 to R318, R321, R324):
outside the driven states there is none; in ALIGN the angle is the open loop's and a period without samples counts as skipped; the eighth
such period in RUN or LOCKED loses the observer; a phase current above I_TRIP stops the start. What rests on the model's own choices, not
on a rule: logs 40, 83, 84 and 177 (values with no finite result; rounding; the group of one; the observer's numbers). -/
def Obligations.SpinCommandsAndPeriods : Prop :=
  (∀ (s : State) (h : Hda) (w : Initiator), s.fileOk → s.may w (Reg.spindle_SPIN_CMD.addr h 0) true →
    (s.startRes h true = 0 → ∃ t, exec (.spinStart h (some w)) s = .next t ∧ t.rdN Reg.spindle_SPIN_STATE h = 1 ∧ t.rdN Reg.spindle_SPIN_RES h = 0 ∧
      (t.spinSt h).begun = true ∧ t.acts = s.acts) ∧
    (s.startRes h true ≠ 0 → ∃ t, exec (.spinStart h (some w)) s = .next t ∧ t.rdN Reg.spindle_SPIN_RES h = s.startRes h true ∧
      t.rdN Reg.spindle_SPIN_STATE h = s.rdN Reg.spindle_SPIN_STATE h ∧ t.spn = s.spn ∧ t.loops = s.loops ∧ t.out = s.out) ∧
    (s.headsParked h = true → ∃ t, exec (.spinStop h (some w)) s = .next t ∧ t.rdN Reg.spindle_SPIN_STATE h = 9 ∧ t.rdN Reg.spindle_SPIN_RES h = 0 ∧
      (t.spinSt h).begun = false ∧ t.acts = s.acts) ∧
    (s.headsParked h = false → ∃ t, exec (.spinStop h (some w)) s = .next t ∧ t.rdN Reg.spindle_SPIN_RES h = 1 ∧ t.spn = s.spn ∧ t.out = s.out) ∧
    (s.rdN Reg.spindle_SPIN_STATE h = 6 → s.headsParked h = true → s.tuneBarred (spinLoop h 0) = false → 1 ≤ s.loopMode (spinLoop h 0) → s.loopMode (spinLoop h 0) ≤ 2 →
      ∃ t, exec (.spinTune h w) s = .next t ∧ t.rdN Reg.spindle_SPIN_RES h = 0 ∧ (t.loop (spinLoop h 0)).modePend = some 2 ∧ t.out = s.out) ∧
    (s.rdN Reg.spindle_SPIN_STATE h ≠ 6 → ∃ t, exec (.spinTune h w) s = .next t ∧ t.rdN Reg.spindle_SPIN_RES h = 1 ∧ t.loops = s.loops)) ∧
  (∀ (s : State) (h : Hda) (o : SpindleObs), s.fileOk → s.bindsOk →
    (s.rdN Reg.spindle_SPIN_STATE h < 2 ∨ 7 < s.rdN Reg.spindle_SPIN_STATE h → exec (.spindlePeriod h o) s = .next s) ∧
    (F32.lt (s.rd Reg.spindle_I_TRIP h) 0 = false → (s.port h).mot.shunt = none →
      (s.rdN Reg.spindle_SPIN_STATE h = 3 →
        ∃ t, exec (.spindlePeriod h o) s = .next t ∧ t.rdN Reg.spindle_ANGLE h = (s.spinSt h).angle ∧ (t.spinSt h).skips = (s.spinSt h).skips + 1) ∧
      (s.rdN Reg.spindle_SPIN_STATE h = 5 ∨ s.rdN Reg.spindle_SPIN_STATE h = 6 → (s.spinSt h).skips = 7 →
        ∃ t, exec (.spindlePeriod h o) s = .next t ∧ t.rdN Reg.spindle_SPIN_STATE h = 7 ∧ (t.spinSt h).skips = 0)) ∧
    (∀ v : Int × Int, 3 ≤ s.rdN Reg.spindle_SPIN_STATE h → s.rdN Reg.spindle_SPIN_STATE h ≤ 6 → (s.port h).mot.shunt = some v → (s.spinSt h).skipNow = false →
      (s.phaseCurrents h v).any (fun x => F32.lt (s.rd Reg.spindle_I_TRIP h) (F32.abs x)) = true →
      ∃ t, exec (.spindlePeriod h o) s = .next t ∧ t.rdN Reg.spindle_SPIN_STATE h = 10 ∧ (t.port h).mot.shunt = none))

/-! ### 13: host queues -/

/-- CC.EN and the doorbells (R25, R101, R332, R335, R355): the enable makes the admin queues and RDY, or leaves RDY at 0 on sizes it does
not take; its fall clears the queues and the slots and restores the features; a doorbell moves one queue and frees waiting entries.
Admission (R341, R342, R347, R356): a turn takes the entry its queue gives; a command that a check refuses completes at once with that
status; one that passes holds the lowest free slot with the next stamp, and a write its placeholders; with no slot a weighted queue's turn
is lost. What rests on the model's own choices, not on a rule: logs 30 and 34 (the MSI-X mask at reset; NVMe's layouts and status codes). -/
def Obligations.ControllerAndAdmission : Prop :=
  (∀ s : State, s.fileOk →
    (∀ cc : Word, s.host.cc.getLsbD 0 = false → cc.getLsbD 0 = true → s.host.rdy = false →
      ((cc.toNat / 65536 % 16 = 6 ∨ cc.toNat / 65536 % 16 = 0) → (cc.toNat / 1048576 % 16 = 4 ∨ cc.toNat / 1048576 % 16 = 0) → cc.toNat / 128 % 16 ≤ 4 →
        s.culmReleased = true →
        ∃ t, exec (.controllerEnable cc) s = .next t ∧ t.host.rdy = true ∧ t.host.cc = cc ∧ t.sq 0 = some ⟨0, s.host.aqa.toNat % 4096 + 1, 0, 0, 0, 0⟩ ∧
          t.cq 0 = some ⟨0, s.host.aqa.toNat / 65536 % 4096 + 1, 0, true, 0, 0, 0⟩ ∧ t.regs = s.regs ∧ t.acts = s.acts ∧ t.out = s.out) ∧
      (cc.toNat / 65536 % 16 ≠ 6 ∧ cc.toNat / 65536 % 16 ≠ 0 ∨ cc.toNat / 1048576 % 16 ≠ 4 ∧ cc.toNat / 1048576 % 16 ≠ 0 ∨ 4 < cc.toNat / 128 % 16 →
        ∃ t, exec (.controllerEnable cc) s = .next t ∧ t.host.rdy = false ∧ t.host.cc = cc ∧ t.host.sqs = s.host.sqs ∧ t.regs = s.regs)) ∧
    (s.host.cc.getLsbD 0 = true →
      ∃ t, exec .controllerReset s = .next t ∧ t.host.rdy = false ∧ t.host.cc.getLsbD 0 = false ∧ t.host.cmds = [] ∧ t.host.sqs = [] ∧ t.host.cqs = [] ∧
        t.host.shst = 0 ∧ t.host.vwc = true ∧ t.host.apst = none ∧ t.rdN Reg.qce_ARB_AB 0 = 3 ∧ t.rdN Reg.qce_ARB_HPW 0 = 7 ∧
        ∀ g ∈ t.buf, g ∈ s.buf ∧ g.written = false) ∧
    (s.host.cc.getLsbD 0 = false → exec .controllerReset s = .next s) ∧
    (∀ (n : Nat) (x : Sq) (tail : BitVec 16), s.sq n = some x → s.host.rdy = true →
      (tail.toNat < x.size → ∃ t, exec (.submissionQueueTailDoorbell n tail) s = .next t ∧ t.sq n = some { x with tail := tail.toNat } ∧
        (∀ m : Nat, m ≠ n → t.sq m = s.sq m) ∧ t.host.cmds = s.host.cmds ∧ t.regs = s.regs ∧ t.acts = s.acts ∧ t.out = s.out) ∧
      (x.size ≤ tail.toNat → exec (.submissionQueueTailDoorbell n tail) s = .next s)) ∧
    (∀ (n : Nat) (x : Cq) (head : BitVec 16), s.cq n = some x → s.host.rdy = true →
      (head.toNat < x.size → (∀ c ∈ s.host.cmds, c.hold ≠ .posting) →
        ∃ t, exec (.completionQueueHeadDoorbell n head) s = .next t ∧ t.cq n = some { x with head := head.toNat } ∧
          (∀ m : Nat, m ≠ n → t.cq m = s.cq m) ∧ t.host.cmds = s.host.cmds ∧ t.regs = s.regs ∧ t.acts = s.acts ∧ t.out = s.out) ∧
      (∀ c : Cmd, head.toNat < x.size → s.host.cmds = [c] → c.hold = .posting → (if c.admin then 0 else match s.sq c.sq with | some y => y.cq | none => 0) = n →
        Cq.full { x with head := head.toNat } = false →
        ∃ t, exec (.completionQueueHeadDoorbell n head) s = .next t ∧ s.answered t c x c.status c.dw0 c.dw1) ∧
      (x.size ≤ head.toNat → exec (.completionQueueHeadDoorbell n head) s = .next s)) ∧
    (∀ v : Nat, (s.host.cqs.any (fun q => q.vec == v && q.irq && q.count != 0) = true →
        ∃ t, exec (.coalescingTimeExpiry v) s = .next t ∧ (∀ q ∈ t.host.cqs, q.vec = v → q.count = 0) ∧ t.regs = s.regs ∧ t.acts = s.acts ∧
          (s.msixMasked v = false → t.out = s.out ++ [.msix v] ∧ t.host.pba = s.host.pba) ∧ (s.msixMasked v = true → t.out = s.out ∧ v ∈ t.host.pba)) ∧
      (s.host.cqs.any (fun q => q.vec == v && q.irq && q.count != 0) = false → exec (.coalescingTimeExpiry v) s = .next s))) ∧
  (∀ (s : State) (e : Sqe), s.fileOk → s.bindsOk →
    (s.host.rdy = false ∨ s.host.shst ≠ 0 → exec (.admission e) s = .next s) ∧
    (∀ (q : Sq) (h : HostSt), s.host.rdy = true → s.host.shst = 0 → s.rdN Reg.status_CUR_PS 0 < 3 → s.arbitrate 0 = some (q, h) → h.sqs = s.host.sqs →
      let status := if q.id == 0 then s.adminCheck e else s.ioCheck e
      let pool := s.slotPool (q.id == 0) (!(q.id == 0) && q.prio == 0)
      (pool = none → q.id ≠ 0 → q.prio ≠ 0 → ∃ t, exec (.admission e) s = .next t ∧ t.host.cmds = s.host.cmds ∧ t.host.sqs = s.host.sqs ∧ t.host.stamp = s.host.stamp ∧
        t.rdN Reg.qce_SLOT_WAIT_CNT 0 = min (s.rdN Reg.qce_SLOT_WAIT_CNT 0 + 1) 0xFFFFFFFF ∧ t.acts = s.acts ∧ t.out = s.out) ∧
      (∀ (p : Nat) (x : Cq), pool = some p → status ≠ 0 → s.cq (if q.id = 0 then 0 else q.cq) = some x → s.sq q.id = some q → x.full = false → h.cmds = s.host.cmds →
        h.cqs = s.host.cqs →
        ∃ t, exec (.admission e) s = .next t ∧ Output.cqe x.id q.id ((q.head + 1) % max q.size 1) e.cid status 0 0 ∈ t.out.drop s.out.length ∧
          t.cmd s.freeSlotNo = none ∧ t.host.stamp = s.host.stamp + 1) ∧
      (∀ p : Nat, pool = some p → status = 0 → h.cmds = s.host.cmds → q.id = 0 ∨ e.opc = 0 ∨ e.opc = 2 ∨ e.opc = 0x0C →
        ∃ t c, exec (.admission e) s = .next t ∧ t.cmd s.freeSlotNo = some c ∧ c.sqe = e ∧ c.admin = (q.id == 0) ∧ c.sq = q.id ∧ c.stamp = s.host.stamp ∧
          c.pool = p ∧ c.begun = false ∧ t.host.stamp = s.host.stamp + 1 ∧ t.out = s.out) ∧
      (∀ p : Nat, pool = some p → status = 0 → h.cmds = s.host.cmds → q.id ≠ 0 → e.opc = 1 → (s.led (nsAct e.nsid.toNat)).lost = [] →
        ∃ t c, exec (.admission e) s = .next t ∧ t.cmd s.freeSlotNo = some c ∧ c.sqe = e ∧ c.stamp = s.host.stamp ∧ c.begun = false ∧ t.buf = s.buf ∧
          ∀ i, i < sqeNlb e → ⟨nsAct e.nsid.toNat, nsIsConv e.nsid.toNat, sqeLba e + i, s.host.stamp, s.freeSlotNo, i⟩ ∈ t.host.places)))

/-- Queue creation and deletion (R333, R340, R354): a queue made holds what the command gives and one deleted is gone; a queue identifier,
a size or a vector that NVMe does not take is answered with its status and changes no queue. Abort, the end of aborted work, events and a
failed transfer (R331, R350 to R352, R359): an abort that finds its command outstanding marks it and waits for its entry, one that comes
too late says so in DW0; an event takes the waiting request, and otherwise the request waits. What rests on the model's own choices, not
on a rule: logs 31, 34 and 57 (event bits; NVMe's layouts and status codes). -/
def Obligations.QueueCommandsAndAborts : Prop :=
  (∀ (s : State) (slot : BitVec 16) (c : Cmd) (q : Cq), s.cqRoom c q →
    let n := c.sqe.cdw10.toNat % 65536
    let size := c.sqe.cdw10.toNat / 65536 + 1
    let hi := c.sqe.cdw11.toNat / 65536
    (s.unbegun slot true 1 c →
      (1 ≤ n → n ≤ s.str.queue.ioqMax → s.sq n = none → hi ≠ 0 → (s.cq hi).isSome = true → 2 ≤ size → c.sqe.cdw11.getLsbD 0 = true →
        ∃ t, exec (.createIoSq slot) s = .next t ∧ s.answered t c q 0 ∧ t.sq n = some ⟨n, size, hi, c.sqe.cdw11.toNat / 2 % 4, 0, 0⟩ ∧ s.mediaKept t) ∧
      (n = 0 ∨ s.str.queue.ioqMax < n ∨ (s.sq n).isSome = true ∨ hi = 0 ∨ s.cq hi = none →
        ∃ t, exec (.createIoSq slot) s = .next t ∧ s.answered t c q (st 1 0x01 true) ∧ t.host.sqs = s.host.sqs ∧ s.mediaKept t)) ∧
    (s.unbegun slot true 5 c →
      (1 ≤ n → n ≤ s.str.queue.ioqMax → s.cq n = none → 2 ≤ size → hi < s.str.queue.msixMax → c.sqe.cdw11.getLsbD 0 = true →
        ∃ t, exec (.createIoCq slot) s = .next t ∧ s.answered t c q 0 ∧ t.cq n = some ⟨n, size, hi, c.sqe.cdw11.getLsbD 1, 0, 0, 0⟩ ∧ s.mediaKept t) ∧
      (1 ≤ n → n ≤ s.str.queue.ioqMax → s.cq n = none → 2 ≤ size → s.str.queue.msixMax ≤ hi →
        ∃ t, exec (.createIoCq slot) s = .next t ∧ s.answered t c q (st 1 0x08 true) ∧ t.cq n = none ∧ s.mediaKept t)) ∧
    (s.unbegun slot true 4 c →
      (n ≠ 0 → (s.cq n).isSome = true → (∀ x ∈ s.host.sqs, x.cq ≠ n) →
        ∃ t, exec (.deleteIoCq slot) s = .next t ∧ s.answered t c q 0 ∧ t.cq n = none ∧ s.mediaKept t) ∧
      (n ≠ 0 → (s.cq n).isSome = true → (∃ x ∈ s.host.sqs, x.cq = n) →
        ∃ t, exec (.deleteIoCq slot) s = .next t ∧ s.answered t c q (st 1 0x0C true) ∧ (t.cq n).isSome = true ∧ s.mediaKept t)) ∧
    (s.unbegun slot true 0 c → n ≠ 0 →
      ((s.sq n).isSome = true → (∀ x ∈ s.host.cmds, x.sq ≠ n) →
        ∃ t, exec (.deleteIoSq slot) s = .next t ∧ s.answered t c q 0 ∧ t.sq n = none ∧ s.mediaKept t) ∧
      (s.sq n = none → ∃ t, exec (.deleteIoSq slot) s = .next t ∧ s.answered t c q (st 1 0x01 true) ∧ t.host.sqs = s.host.sqs ∧ s.mediaKept t))) ∧
  (∀ (s : State) (slot : BitVec 16) (c : Cmd) (q : Cq), s.fileOk → s.bindsOk → s.cqRoom c q →
    (s.unbegun slot true 8 c →
      let x := s.host.cmds.find? (fun x => x.sq == c.sqe.cdw10.toNat % 65536 && x.sqe.cid == BitVec.ofNat 16 (c.sqe.cdw10.toNat / 65536) && !x.admin && x.open)
      (∀ (b : Bool), x = none ∨ b = true →
        ∃ t, exec (.abort slot b) s = .next t ∧ s.answered t c q 0 1 ∧ t.rdN Reg.qce_ABORT_LOST_CNT 0 = min (s.rdN Reg.qce_ABORT_LOST_CNT 0 + 1) 0xFFFFFFFF ∧
          s.mediaKept t) ∧
      (∀ y : Cmd, x = some y → y.act < 64 →
        ∃ t z, exec (.abort slot false) s = .next t ∧ t.cmd y.slot = some z ∧ z.aborted = true ∧ z.status = stAbort ∧ z.left = [] ∧ (t.cmd c.slot).isSome = true ∧
          t.rdN Reg.qce_ABORT_OK_CNT 0 = min (s.rdN Reg.qce_ABORT_OK_CNT 0 + 1) 0xFFFFFFFF)) ∧
    (s.cmd slot.toNat = some c → c.aborted = true → c.hold ≠ .posting → ∃ t, exec (.abortCompletion slot) s = .next t ∧ s.answered t c q c.status) ∧
    (s.cmd slot.toNat = some c → c.aborted = false → exec (.abortCompletion slot) s = .next s) ∧
    (s.unbegun slot true 0xC c → s.host.cmds = [c] →
      (s.host.aerWait = [] →
        ∃ t x, exec (.asynchronousEventRequest slot) s = .next t ∧ t.cmd c.slot = some x ∧ x.begun = true ∧ t.out = s.out ∧ t.regs = s.regs ∧ s.mediaKept t) ∧
      (∀ ty info lid : Nat, s.host.aerWait = [(ty, info, lid)] → s.host.aerMasked.contains (ty, info) = false →
        ∃ t, exec (.asynchronousEventRequest slot) s = .next t ∧ s.answered t c q 0 (BitVec.ofNat 32 (ty + 256 * info + 65536 * lid)) ∧
          t.host.aerWait = [] ∧ t.host.aerMasked = s.host.aerMasked ++ [(ty, info)])) ∧
    (s.cmd slot.toNat = some c → c.open = true → s.host.cmds = [c] → c.act < 64 →
      ∀ k : DmaFail, ∃ t, exec (.dmaError slot k) s = .next t ∧ s.answered t c q (st 0 0x04 false) ∧
        t.rdN Reg.pcie_DMA_ERR_CNT 0 = min (s.rdN Reg.pcie_DMA_ERR_CNT 0 + 1) 0xFFFFFFFF))

/-- The features (R335, R111, R359): each Set Features keeps what its dword gives and completes, Number of Queues answers what is
allocated, and Get Features gives back the word in force; nothing of an actuator changes. What rests on the model's own choices, not on a
rule: logs 34 and 56 (NVMe's layouts, status codes and reserved bits). -/
def Obligations.FeaturesAreKept : Prop :=
  ∀ (s : State) (slot : BitVec 16) (c : Cmd) (q : Cq), s.fileOk → s.cqRoom c q →
    let v := c.sqe.cdw11.toNat
    let fid := c.sqe.cdw10.toNat % 256
    (s.unbegun slot true 9 c →
      (fid = 1 → ∃ t, exec (.arbitration slot) s = .next t ∧ s.answered t c q 0 ∧ t.rdN Reg.qce_ARB_AB 0 = v % 8 ∧ t.rdN Reg.qce_ARB_LPW 0 = v / 256 % 256 ∧
        t.rdN Reg.qce_ARB_MPW 0 = v / 65536 % 256 ∧ t.rdN Reg.qce_ARB_HPW 0 = v / 16777216 ∧ s.mediaKept t) ∧
      (fid = 2 → v % 32 ≤ 1 → s.rdN Reg.status_CUR_PS 0 < 3 →
        ∃ t, exec (.powerManagement slot) s = .next t ∧ s.answered t c q 0 ∧ t.rdN Reg.status_CUR_PS 0 = v % 32 ∧ t.acts = s.acts) ∧
      (fid = 2 → 4 < v % 32 → ∃ t, exec (.powerManagement slot) s = .next t ∧ s.answered t c q stInvalidField ∧ s.mediaKept t) ∧
      (fid = 4 → v / 65536 % 16 ≤ 2 → v / 1048576 % 4 ≤ 1 →
        ∃ t, exec (.temperatureThreshold slot) s = .next t ∧ s.answered t c q 0 ∧ t.threshOf (v / 65536 % 16) (v / 1048576 % 4) = v % 65536 ∧ s.mediaKept t) ∧
      (fid = 5 → c.sqe.cdw11.getLsbD 16 = false → s.nsActive c.sqe.nsid.toNat = true →
        ∃ t, exec (.errorRecovery slot) s = .next t ∧ s.answered t c q 0 ∧ t.host.tler.lookup c.sqe.nsid.toNat = some (v % 65536) ∧ s.mediaKept t) ∧
      (fid = 6 → ∃ t, exec (.volatileWriteCache slot) s = .next t ∧ s.answered t c q 0 ∧ t.host.vwc = c.sqe.cdw11.getLsbD 0 ∧ s.mediaKept t) ∧
      (fid = 7 → v % 65536 ≠ 65535 → v / 65536 ≠ 65535 →
        ∃ t, exec (.numberOfQueues slot) s = .next t ∧ s.answered t c q 0 (BitVec.ofNat 32 ((s.str.queue.ioqMax - 1) * 65537)) ∧ s.mediaKept t) ∧
      (fid = 8 → ∃ t, exec (.interruptCoalescing slot) s = .next t ∧ s.answered t c q 0 ∧ t.host.coal = (v % 256, v / 256 % 256) ∧ s.mediaKept t) ∧
      (fid = 9 → v % 65536 < s.str.queue.msixMax →
        ∃ t, exec (.interruptVectorConfiguration slot) s = .next t ∧ s.answered t c q 0 ∧
          (v % 65536 ∈ t.host.vecOff ↔ c.sqe.cdw11.getLsbD 16 = true) ∧ s.mediaKept t) ∧
      (fid = 0xB → ∃ t, exec (.asynchronousEventConfiguration slot) s = .next t ∧ s.answered t c q 0 ∧ t.host.aec = c.sqe.cdw11 ∧
        (∀ x ∈ t.host.aerWait, x ∈ s.host.aerWait ∧ t.eventOn x.1 x.2.1 = true) ∧ s.mediaKept t) ∧
      (∀ table : List (Nat × Nat), fid = 0xC → c.sqe.cdw11.getLsbD 0 = true →
        ((∀ x ∈ table, x.1 = 3 ∨ x.1 = 4) →
          ∃ t, exec (.autonomousPowerStateTransition slot table) s = .next t ∧ s.answered t c q 0 ∧ t.host.apst = some table ∧ s.mediaKept t) ∧
        ((∃ x ∈ table, x.1 ≠ 3 ∧ x.1 ≠ 4) →
          ∃ t, exec (.autonomousPowerStateTransition slot table) s = .next t ∧ s.answered t c q stInvalidField ∧ t.host.apst = s.host.apst ∧ s.mediaKept t)) ∧
      (∀ ms : BitVec 48, fid = 0xE → ∃ t, exec (.timestamp slot ms) s = .next t ∧ s.answered t c q 0 ∧ t.host.ts = (ms.toNat, s.alm.us64.toNat) ∧ t.acts = s.acts)) ∧
    (s.unbegun slot true 0xA c →
      ∃ t, exec (.getFeatures slot) s = .next t ∧ s.answered t c q 0 (s.featureValue c.sqe) ∧
        (fid = 0xE → Output.hostData c.slot (toLe 6 s.hostMs ++ [0, 0]) ∈ t.out.drop s.out.length) ∧ s.mediaKept t)

/-- The path of user data (R12, R282, R283, R347, R348, R372): a write waits for its grains, each of which is stored with its tag at a
free place of the buffer, and the last completes it; a read is answered from what needs no media, or waits for it; a lost LBA ends it; a
Flush waits for the grains buffered before it. What rests on the model's own choices, not on a rule: logs 34, 37 and 184 (NVMe's layouts
and status codes; what a Flush waits for; which free place a grain takes). -/
def Obligations.UserDataPath : Prop :=
  ∀ (s : State) (slot : BitVec 16) (c : Cmd) (q : Cq), s.fileOk → s.bindsOk → s.host.cmds = [c] → c.act < 64 → (s.act c.act).holdExpired = false →
    let conv := nsIsConv c.sqe.nsid.toNat
    (c.hold = .none →
      (∀ u : State, u = s.updCmd slot.toNat (fun x => { x with begun := true }) →
        (s.unbegun slot false 0x01 c → exec (.write slot) s = .next u) ∧
        (s.unbegun slot false 0x7D c → exec (.zoneAppend slot) s = .next u) ∧
        (s.unbegun slot false 0x08 c → c.left ≠ [] → c.room = 0 → exec (.writeZeroes slot) s = .next u) ∧
        (c.left ≠ [] → (∀ l ∈ c.left, s.inMedia c l = true ∧ s.isLost c.act conv l = false) →
          (s.unbegun slot false 0x02 c → exec (.read slot) s = .next u) ∧ (s.unbegun slot false 0x0C c → exec (.verify slot) s = .next u))) ∧
      (s.cqRoom c q → conv = true → c.fua = false → s.rdN Reg.zone_CLEAN c.act = 0 → ∀ (l : Nat), c.left = [l] → c.room ≠ 0 → c.lba ≤ l →
        let x := freePlace (s.buf.map (·.place))
        (∀ (b : List Byte), s.cmd slot.toNat = some c → c.admin = false → c.sqe.opc = 1 → c.begun = true → c.aborted = false →
          ∃ t, exec (.dataGrainBuffered slot (l - c.lba) b true) s = .next t ∧ s.answered t c q 0 c.dw0 c.dw1 ∧
            ∃ g ∈ t.buf, g.place = x ∧ g.tag.act = c.act ∧ g.tag.nsConv = true ∧ g.tag.lba = l ∧ g.tag.stamp = c.stamp ∧ g.tag.idx = l - c.lba ∧
              t.mem = (s.putGrain idDma 0 x g.tag b).mem ∧ g.acked = true ∧ g.written = false) ∧
        (s.unbegun slot false 0x08 c → 0 < c.count →
          ∃ t, exec (.writeZeroes slot) s = .next t ∧ s.answered t c q 0 c.dw0 c.dw1 ∧
            ∃ g ∈ t.buf, g.place = x ∧ g.tag.act = c.act ∧ g.tag.lba = l ∧ t.mem = (s.putGrain idDma 0 x g.tag (List.replicate 4096 0)).mem ∧ g.acked = true)) ∧
      (c.writes = true → c.sqe.opc ≠ 8 → c.aborted = false → c.left ≠ [] → s.bufCap < 2 ^ 32 →
        ∃ t x, exec .bufWaitResume s = .next t ∧ t.cmd c.slot = some x ∧ x.left = c.left ∧
          x.room = c.room + min (s.bufCap - s.buf.length - c.room) (c.left.length - c.room) ∧ t.buf = s.buf ∧ t.out = s.out) ∧
      (s.cqRoom c q → s.unbegun slot false 0x02 c ∨ s.unbegun slot false 0x0C c → ∀ l : Nat,
        (l ∈ c.left → s.isLost c.act conv l = true →
          (s.unbegun slot false 0x02 c → ∃ t, exec (.read slot) s = .next t ∧ s.answered t c q (stUnrecovered true) ∧ t.host.dataErrors = s.host.dataErrors + 1 ∧
            t.rdN Reg.poolAct_URE_CNT c.act = min (s.rdN Reg.poolAct_URE_CNT c.act + 1) 0xFFFFFFFF) ∧
          (s.unbegun slot false 0x0C c → ∃ t, exec (.verify slot) s = .next t ∧ s.answered t c q (stUnrecovered true))) ∧
        (∀ (b : List Byte) (x : Option BufGrain), c.left = [l] → s.isLost c.act conv l = false → s.inMedia c l = false → s.readSource c l = some (b, x) →
          (∀ g, x = some g → s.grainGood 0 g.place = true) → (∀ g, s.cached c.act conv l = some g → s.grainGood 6 g.place = true) →
          (s.unbegun slot false 0x02 c → ∃ t, exec (.read slot) s = .next t ∧ s.answered t c q 0 c.dw0 c.dw1 ∧
            Output.grain c.slot (l - c.lba) l b ∈ t.out.drop s.out.length) ∧
          (s.unbegun slot false 0x0C c → ∃ t, exec (.verify slot) s = .next t ∧ s.answered t c q 0 c.dw0 c.dw1)))) ∧
    (∀ gs, c.hold = .flush [] gs → s.unbegun slot false 0x00 c →
      (s.cqRoom c q → (∀ n, s.gensDue n [1, 2] = []) → (∀ g ∈ s.buf, g.written = true) →
        ∃ t, exec (.flush slot) s = .next t ∧ s.answered t c q 0 c.dw0 c.dw1) ∧
      ((∃ g ∈ s.buf, g.written = false ∧ (g.tag.act, g.tag.nsConv, g.tag.lba, g.tag.stamp) ∈ gs) →
        ∃ t x, exec (.flush slot) s = .next t ∧ t.cmd c.slot = some x ∧ x.begun = true ∧ t.out = s.out ∧ t.buf = s.buf))

/-- Identify, Get Log Page, firmware and NVMe-MI (R333, R334, R336, R339): a page that exists is sent to the host and one that does not is
refused; a piece of firmware is staged in the arena, a commit follows Husk's status, and a halted Husk answers none. What rests on the
model's own choices, not on a rule: logs 34, 35, 117, 121 and 122 (NVMe's layouts and status codes; the staging place; log 0x04; a halted
Husk). -/
def Obligations.PagesFirmwareAndMi : Prop :=
  ∀ (s : State) (slot : BitVec 16) (c : Cmd) (q : Cq), s.fileOk → s.cqRoom c q →
    (s.unbegun slot true 6 c →
      (∀ b, s.identifyData c.sqe = some b → ∃ t, exec (.identify slot) s = .next t ∧ s.answered t c q 0 ∧ Output.hostData c.slot b ∈ t.out.drop s.out.length ∧
        s.mediaKept t) ∧
      (s.identifyData c.sqe = none → ∃ t, exec (.identify slot) s = .next t ∧ s.answered t c q stInvalidField ∧ s.mediaKept t)) ∧
    (s.unbegun slot true 2 c →
      let ofs := c.sqe.cdw12.toNat + 2 ^ 32 * c.sqe.cdw13.toNat
      let len := 4 * (c.sqe.cdw10.toNat / 65536 + 65536 * (c.sqe.cdw11.toNat % 65536) + 1)
      (∀ b, s.logPage c.sqe = .inl b → ofs % 4 = 0 → ofs ≤ b.length → c.sqe.cdw10.getLsbD 15 = true →
        ∃ t, exec (.getLogPage slot) s = .next t ∧ s.answered t c q 0 ∧ t.host.aerMasked = s.host.aerMasked ∧ s.mediaKept t ∧
          Output.hostData c.slot ((b.drop ofs).take len ++ zeros (len - ((b.drop ofs).take len).length)) ∈ t.out.drop s.out.length) ∧
      (∀ b, s.logPage c.sqe = .inl b → ofs % 4 ≠ 0 ∨ b.length < ofs →
        ∃ t, exec (.getLogPage slot) s = .next t ∧ s.answered t c q stInvalidField ∧ s.mediaKept t) ∧
      (∀ v, s.logPage c.sqe = .inr v → ∃ t, exec (.getLogPage slot) s = .next t ∧ s.answered t c q v ∧ s.mediaKept t)) ∧
    (s.unbegun slot true 0x11 c → ∀ data : List Byte,
      let n := 4 * (c.sqe.cdw10.toNat + 1)
      let o := 4 * c.sqe.cdw11.toNat
      (n ≤ data.length → s.inPart 4 (s.imageBase + o) n = true → Memory.wf s.mem = true →
        ∃ t, exec (.firmwareImageDownload slot data) s = .next t ∧ s.answered t c q 0 ∧ t.mem = (s.dmaWrite idDma false (s.imageBase + o) (data.take n)).mem ∧
          t.host.fwLen = (if o = 0 then n else max s.host.fwLen (o + n)) ∧ t.acts = s.acts ∧
          ∀ a m, a + m ≤ s.imageBase + o ∨ s.imageBase + o + n ≤ a → t.memRead a m = s.memRead a m) ∧
      (data.length < n ∨ s.inPart 4 (s.imageBase + o) n = false →
        ∃ t, exec (.firmwareImageDownload slot data) s = .next t ∧ s.answered t c q stInvalidField ∧ s.mediaKept t)) ∧
    (∀ b : Bool, s.husk.halted = true → exec (.firmwareCommit slot b) s = .next s) ∧
    (s.unbegun slot true 0x10 c → s.husk.halted = false → ∀ b : Bool,
      let fs := c.sqe.cdw10.toNat % 8
      let ca := c.sqe.cdw10.toNat / 8 % 8
      let r := s.huskUpdate ((if fs ≤ 2 then 1 else 0) + 2 * ((fs - 1) % 2)) s.imageBase s.host.fwLen b
      (3 < ca → ∃ t, exec (.firmwareCommit slot b) s = .next t ∧ s.answered t c q stInvalidField ∧ s.mediaKept t) ∧
      (ca = 2 ∨ ca = 3 ∨ (ca < 2 ∧ (fs = 0 ∨ 4 < fs)) → ∃ t, exec (.firmwareCommit slot b) s = .next t ∧ s.answered t c q (st 1 0x06 true) ∧ s.mediaKept t) ∧
      (ca < 2 → 1 ≤ fs → fs ≤ 4 →
        ∃ t, exec (.firmwareCommit slot b) s = .next t ∧ (r.2.1 = 0 → t.host.fwLen = 0) ∧
          s.answered t c q (if r.2.1 = 0 then (if ca = 1 then st 1 0x0B false else 0) else if r.2.1 = 8 then st 1 0x06 true else st 1 0x07 true))) ∧
    (s.unbegun slot true 0x1D c → ∀ m : List Byte,
      ∃ t, exec (.nvmeMiSend slot m) s = .next t ∧ s.answered t c q 0 ∧ t.host.miResp = some (Config.miReply 0 m) ∧ s.mediaKept t) ∧
    (s.unbegun slot true 0x1E c →
      ∃ t, exec (.nvmeMiReceive slot) s = .next t ∧ s.answered t c q 0 ∧ t.host.miResp = none ∧
        (∀ b, s.host.miResp = some b → Output.hostData c.slot b ∈ t.out.drop s.out.length) ∧ s.mediaKept t)

/-- Namespaces and the self-test (R337, R338, R387): Create makes namespace 2n + 2 with a key and unattached, Delete takes it and its key
away, Attach and Detach change its one bit; a test runs until it ends or is aborted, each end leaving one result. What rests on the
model's own choices, not on a rule: logs 33, 34, 58, 119, 120 and 123 (namespaces at reset; NVMe's status codes; the wait of a Delete; the
key; self-test reads). -/
def Obligations.NamespacesAndSelfTests : Prop :=
  ∀ (s : State) (slot : BitVec 16) (c : Cmd) (q : Cq), s.fileOk → s.cqRoom c q → s.host.cmds = [c] →
    let v := c.sqe.cdw10.toNat % 16
    let id := c.sqe.nsid.toNat
    (s.unbegun slot true 0x0D c → v = 0 → ∀ (set : BitVec 16) (nsze ncap : BitVec 64) (flbas csi : Byte) (d : SideDesc),
      let n := set.toNat - 1
      (1 ≤ set.toNat → n < 64 → s.actExists n = true → s.sideDesc n = some d → d.convLbas ≠ 0 → s.host.created.getLsbD n = false → nsze.toNat = d.convLbas →
        ncap.toNat = d.convLbas → flbas = 0 → csi = 0 →
        ∃ t, exec (.namespaceCreate slot set nsze ncap flbas csi) s = .next t ∧ s.answered t c q 0 (BitVec.ofNat 32 (2 * n + 2)) ∧
          t.host.created.getLsbD n = true ∧ t.host.attached.getLsbD (2 * n + 1) = false ∧ (t.husk.wrapped.lookup (2 * n + 2)).isSome = true) ∧
      (csi ≠ 0 ∨ flbas ≠ 0 ∨ set = 0 →
        ∃ t, exec (.namespaceCreate slot set nsze ncap flbas csi) s = .next t ∧ s.answered t c q stInvalidField ∧ t.host.created = s.host.created ∧ s.mediaKept t)) ∧
    (s.unbegun slot true 0x0D c → v = 1 →
      (s.nsExists id = true → nsIsConv id = true → (s.led (nsAct id)).remap = [] → (s.led (nsAct id)).lost = [] → (s.led (nsAct id)).staged.length = 4 →
        ∃ t, exec (.namespaceDelete slot) s = .next t ∧ (t.cmd c.slot).isSome = true ∧ t.host.created.getLsbD (nsAct id) = false ∧
          t.host.attached.getLsbD (id - 1) = false ∧ t.husk.wrapped.lookup id = none ∧ ∀ g ∈ t.buf, ¬(g.tag.act = nsAct id ∧ g.tag.nsConv = true)) ∧
      (id = 0xFFFFFFFF ∨ (nsIsConv id = false ∧ s.nsExists id = true) →
        ∃ t, exec (.namespaceDelete slot) s = .next t ∧ s.answered t c q stInvalidField ∧ t.host.created = s.host.created ∧ s.mediaKept t)) ∧
    (s.unbegun slot true 0x15 c → s.nsExists id = true →
      (v = 0 → s.host.attached.getLsbD (id - 1) = false → ∃ t, exec (.namespaceAttach slot [1]) s = .next t ∧ s.answered t c q 0 ∧
        t.host.attached = s.host.attached ||| BitVec.ofNat 128 (2 ^ (id - 1)) ∧ id ∈ t.host.changedNs ∧ t.acts = s.acts) ∧
      (v = 1 → s.host.attached.getLsbD (id - 1) = true → ∃ t, exec (.namespaceDetach slot [1]) s = .next t ∧ s.answered t c q 0 ∧
        t.host.attached = s.host.attached &&& ~~~(BitVec.ofNat 128 (2 ^ (id - 1))) ∧ id ∈ t.host.changedNs ∧ t.acts = s.acts) ∧
      (∀ l : List (BitVec 16), l ≠ [1] → v = 0 → ∃ t, exec (.namespaceAttach slot l) s = .next t ∧ s.answered t c q stInvalidField ∧
        t.host.attached = s.host.attached ∧ s.mediaKept t)) ∧
    (s.unbegun slot true 0x14 c →
      (s.nsActive id = true → id ≠ 0 → id ≠ 0xFFFFFFFF →
        (s.host.test.running = none →
          (v = 1 → ∃ t, exec (.shortDeviceSelfTest slot) s = .next t ∧ s.answered t c q 0 ∧ t.host.test.running = some (false, [nsAct id]) ∧ s.mediaKept t) ∧
          (v = 2 → ∃ t, exec (.extendedDeviceSelfTest slot) s = .next t ∧ s.answered t c q 0 ∧ t.host.test.running = some (true, [nsAct id]) ∧ s.mediaKept t)) ∧
        (s.host.test.running.isSome = true → v = 1 →
          ∃ t, exec (.shortDeviceSelfTest slot) s = .next t ∧ s.answered t c q (st 1 0x1D false) ∧ t.host.test = s.host.test ∧ s.mediaKept t)) ∧
      (v = 15 → ∃ t, exec (.deviceSelfTestAbort slot) s = .next t ∧ s.answered t c q 0 ∧ t.host.test.running = none ∧ t.loops = s.loops ∧ t.husk = s.husk ∧ t.mem = s.mem ∧
        ∀ ext acts, s.host.test.running = some (ext, acts) → t.host.test.log = ((if ext then 2 else 1), 1, 0, 0, s.alm.hours) :: s.host.test.log)) ∧
    (∀ (ext : Bool) (acts : List Nat), s.host.test.running = some (ext, acts) →
      (∃ t, exec (.deviceSelfTestDone none) s = .next t ∧ t.host.test = ⟨none, ((if ext then 2 else 1), 0, 0, 0, s.alm.hours) :: s.host.test.log⟩ ∧
        t.out = s.out ∧ t.loops = s.loops ∧ t.husk = s.husk ∧ t.mem = s.mem) ∧
      ∀ (k : Nat) (n : Act), ∃ t, exec (.deviceSelfTestDone (some (k, n))) s = .next t ∧
        t.host.test = ⟨none, ((if ext then 2 else 1), 7, k, 2 * n.val + 1, s.alm.hours) :: s.host.test.log⟩) ∧
    (s.host.test.running = none → exec (.deviceSelfTestDone none) s = .next s)

/-! ### 14: zones, sanitize, format -/

/-- Zone management (R368 to R372): each action takes the zone to the condition the rule gives where the zone's condition permits it, is
refused with its status where it does not, and a reset waits for older work of its zone; reports list what is there. What rests on the
model's own choices, not on a rule: logs 34, 54 and 55 (NVMe's layouts and status codes; the order of erase and Finish; when a Reset takes
effect). -/
def Obligations.ZoneCommandsMoveTheZone : Prop :=
  ∀ (s : State) (slot : BitVec 16) (c : Cmd) (q : Cq), s.fileOk → s.bindsOk → s.cqRoom c q → s.host.cmds = [c] → c.act < 64 → (s.act c.act).holdExpired = false →
    let n := c.act
    let z := zoneOf (sqeLba c.sqe)
    let cond := (s.zone n z).cond
    let zsa := c.sqe.cdw13.toNat % 256
    (s.unbegun slot false 0x79 c → c.sqe.cdw13.getLsbD 8 = false →
      (zsa = 1 →
        (cond.active = true → ∃ t, exec (.zoneClose slot) s = .next t ∧ s.answered t c q 0 ∧ (∀ y : Nat, y ≠ z → t.zone n y = s.zone n y) ∧
          (t.zone n z).cond = (if cond.open then (if s.zoneWp n z = 0 then .empty else .closed) else cond)) ∧
        (cond.active = false → ∃ t, exec (.zoneClose slot) s = .next t ∧ s.answered t c q (st 1 0xBF true) ∧ s.mediaKept t)) ∧
      (zsa = 2 →
        (cond = .full → ∃ t, exec (.zoneFinish slot) s = .next t ∧ s.answered t c q 0 ∧ s.mediaKept t) ∧
        ∃ t, exec (.zoneFinish slot) s = .next t ∧ (t.zone n z).cond = .full) ∧
      (zsa = 3 →
        (cond ≠ .full → s.openLimit n z = 0 → (s.openZones n).length < 128 → ∃ t, exec (.zoneOpen slot) s = .next t ∧ (t.zone n z).cond = .explicit ∧
          ∀ y : Nat, y ≠ z → (t.zone n y).cond = (s.zone n y).cond) ∧
        (cond ≠ .full → s.openLimit n z ≠ 0 → ∃ t, exec (.zoneOpen slot) s = .next t ∧ s.answered t c q (s.openLimit n z) ∧ s.mediaKept t) ∧
        (cond = .full → ∃ t, exec (.zoneOpen slot) s = .next t ∧ s.answered t c q (st 1 0xBF true) ∧ s.mediaKept t)) ∧
      (zsa = 4 →
        (cond = .empty → ∃ t, exec (.zoneReset slot) s = .next t ∧ s.answered t c q 0 ∧ t.zone n z = s.zone n z) ∧
        (cond ≠ .empty → s.zoneOlder n z c.stamp = true →
          ∃ t x, exec (.zoneReset slot) s = .next t ∧ t.cmd c.slot = some x ∧ x.hold = .reset [z] ∧ t.zone n z = s.zone n z ∧ t.out = s.out) ∧
        (cond ≠ .empty → s.zoneOlder n z c.stamp = false → s.reactOf 0x0504 < 2 → (s.led n).remap = [] → (s.led n).lost = [] → (s.led n).staged.length = 4 →
          ∃ t, exec (.zoneReset slot) s = .next t ∧ (t.cmd c.slot).isSome = true ∧ (t.zone n z).cond = .empty ∧ (t.zone n z).hwp = 0 ∧ (t.zone n z).map = 1 ∧
            ∀ y : Nat, y ≠ z → t.zone n y = s.zone n y)) ∧
      (zsa = 5 → ∃ t, exec (.zoneOffline slot) s = .next t ∧ s.answered t c q (st 1 0xBF true) ∧ s.mediaKept t) ∧
      (zsa = 0x10 → ∃ t, exec (.setZoneDescriptorExtension slot) s = .next t ∧ s.answered t c q stInvalidField ∧ s.mediaKept t)) ∧
    (s.unbegun slot false 0x7A c →
      (∀ d : SideDesc, zsa = 0 → s.sideDesc n = some d → 15 ≤ c.sqe.cdw12.toNat →
        let zs := (List.range d.zoneCnt).filter (fun y => z ≤ y && reportHas (c.sqe.cdw13.toNat / 256 % 256) (s.zone n y).cond)
        let cnt := if c.sqe.cdw13.getLsbD 16 then min ((4 * (c.sqe.cdw12.toNat + 1) - 64) / 64) zs.length else zs.length
        ∃ t b, exec (.reportZones slot) s = .next t ∧ s.answered t c q 0 ∧ Output.hostData c.slot b ∈ t.out.drop s.out.length ∧ b.take 8 = toLe 8 cnt ∧
          b.length ≤ 4 * (c.sqe.cdw12.toNat + 1) ∧ s.mediaKept t) ∧
      (zsa = 1 → ∃ t, exec (.extendedReportZones slot) s = .next t ∧ s.answered t c q stInvalidField ∧ s.mediaKept t))

/-- Sanitize and Format (R379 to R386, R443): a sanitize empties the buffers, gives every namespace a new key and every actuator a record
that runs; a unit done moves its record on, a track that cannot be written ends it in failure; a format waits for its records; a halted
Husk takes none. What rests on the model's own choices, not on a rule: logs 34, 58, 121, 124, 125 and 126 (NVMe's status codes; waits; the
progress record). -/
def Obligations.SanitizeAndFormatRun : Prop :=
  ∀ (s : State) (slot : BitVec 16) (c : Cmd) (q : Cq), s.fileOk → s.bindsOk →
    (s.husk.halted = true → exec (.sanitizeOverwrite slot) s = .next s ∧ exec (.sanitizeCryptoErase slot) s = .next s) ∧
    (s.cqRoom c q → s.unbegun slot true 0x84 c → s.host.cmds = [c] →
      let v := c.sqe.cdw10.toNat
      (s.husk.halted = false → (∀ n ∈ s.liveActs, s.formatting (zonedNs n) = false ∧ s.formatting (convNs n) = false) →
        (v % 8 = 3 → ∃ t, exec (.sanitizeOverwrite slot) s = .next t ∧ s.answered t c q 0 ∧ t.host.sanRun = some 1 ∧ t.buf = [] ∧ t.cache = [] ∧ t.host.waiting = [] ∧
          ∀ n ∈ s.liveActs, ∃ p, (t.led n).progress = some p ∧ p.action = 1 ∧ p.status = 1 ∧ p.passes = (if v / 16 % 16 = 0 then 16 else v / 16 % 16) ∧ p.done = 0) ∧
        (v % 8 = 4 → ∃ t, exec (.sanitizeCryptoErase slot) s = .next t ∧ s.answered t c q 0 ∧ t.host.sanRun = some 2 ∧ t.buf = [] ∧ t.cache = [] ∧
          ∀ n ∈ s.liveActs, ∃ p, (t.led n).progress = some p ∧ p.action = 2 ∧ p.status = 1)) ∧
      (s.husk.halted = false → v % 8 = 3 → (∃ n ∈ s.liveActs, s.formatting (zonedNs n) = true) →
        ∃ t, exec (.sanitizeOverwrite slot) s = .next t ∧ s.answered t c q (st 0 0x84 false) ∧ t.host.sanRun = s.host.sanRun ∧ s.mediaKept t) ∧
      (v % 8 = 1 → ∃ t, exec (.exitFailureMode slot) s = .next t ∧ s.answered t c q 0 ∧ t.host.sanFailed = false ∧ s.mediaKept t)) ∧
    (∀ n : Act, s.host.cmds = [] →
      ((s.led n).progress = none → exec (.sanitizeUnitDone n) s = .next s) ∧
      (∀ (p : Progress) (d : SideDesc), (s.led n).progress = some p → s.sideDesc n = some d → p.status = 1 → s.up (hdaOf n) = true → p.total ≠ 0 →
        (p.action = 1 → (d.nextUnit p).done < p.total →
          ∃ t, exec (.sanitizeUnitDone n) s = .next t ∧ (t.led n).progress = some { d.nextUnit p with seq := p.seq + 1 } ∧
            Output.unit n p.head (d.unitTracks p) p.fill ∈ t.out.drop s.out.length) ∧
        (p.action = 2 → (s.led n).remap = [] → (s.led n).lost = [] → p.total = 1 →
          ∃ t, exec (.sanitizeUnitDone n) s = .next t ∧ (t.led n).progress.map (·.status) = some 2 ∧ (t.led n).zones = [])) ∧
      (∀ p : Progress, (s.led n).progress = some p → p.status ≠ 1 ∨ s.up (hdaOf n) = false → exec (.sanitizeUnitDone n) s = .next s) ∧
      (∀ p : Progress, (s.led n).progress = some p → s.host.sanRun.isSome = true → p.action ≠ 3 → p.status = 1 → s.actExists n = true →
        ∃ t, exec (.sanitizeTrackTimeout n) s = .next t ∧ t.host.sanRun = none ∧ t.host.sanFailed = true ∧ (t.led n).progress.map (·.status) = some 3) ∧
      (s.host.sanRun = none → exec (.sanitizeTrackTimeout n) s = .next s)) ∧
    (s.cqRoom c q → s.unbegun slot true 0x80 c → s.host.cmds = [c] →
      let id := c.sqe.nsid.toNat
      let n := nsAct id
      id ≠ 0xFFFFFFFF → s.formatting (zonedNs n) = false → s.formatting (convNs n) = false →
      (c.sqe.cdw10 = 0 → s.nsActive id = true → s.nsReady id = true → (s.led n).remap = [] → (s.led n).lost = [] → (s.led n).staged.length = 4 →
        ∃ t, exec (.formatNvm slot) s = .next t ∧ (t.cmd c.slot).isSome = true ∧ (t.led n).progress.map (·.action) = some 3 ∧
          ∀ g ∈ t.buf, ¬(g.tag.act = n ∧ g.tag.nsConv = nsIsConv id)) ∧
      (c.sqe.cdw10.toNat % 16 ≠ 0 ∨ c.sqe.cdw10.toNat / 4096 % 4 ≠ 0 → (c.sqe.cdw10.toNat / 512 % 8 = 2 → s.husk.halted = false) →
        ∃ t, exec (.formatNvm slot) s = .next t ∧ s.answered t c q (st 1 0x0A true) ∧ s.mediaKept t) ∧
      (c.sqe.cdw10.toNat % 16 = 0 → c.sqe.cdw10.toNat / 4096 % 4 = 0 → c.sqe.cdw10.toNat / 512 % 8 = 0 → c.sqe.cdw10.toNat / 16 % 32 ≠ 0 →
        ∃ t, exec (.formatNvm slot) s = .next t ∧ s.answered t c q stInvalidField ∧ s.mediaKept t) ∧
      (c.sqe.cdw10 = 0 → s.nsActive id = false → ∃ t, exec (.formatNvm slot) s = .next t ∧ s.answered t c q stNamespace ∧ s.mediaKept t)) ∧
    (∀ n, n = nsAct c.sqe.nsid.toNat → s.cmd slot.toNat = some c → c.sqe.nsid.toNat ≠ 0xFFFFFFFF → s.formatting (zonedNs n) = true →
      exec (.formatNvm slot) s = .next s)

/-! ### 15: main memory and the Granary -/

/-- Range operations (R406 to R411): GO takes a sound request into the queue and answers an unsound one by its STATUS; the slot whose turn
it is runs its own operation once over its lines, and its end gives the turn on; every other slot's row changes nothing. What rests on the
model's own choices, not on a rule: log 77 (the way of a preload). -/
def Obligations.RangeOperationsTakeTurns : Prop :=
  ∀ (s : State) (i : Fin 8), s.fileOk →
    (∀ w : Initiator, s.may w (Reg.slot_GO.addr i 0) true →
      let op := s.rdN Reg.slot_OP i
      let n := s.rdN Reg.slot_LINES i
      let ok := 1 ≤ n ∧ ddrBase ≤ s.slotBase i ∧ s.slotBase i + 128 * n ≤ ddrBase + s.installed
      (s.rdB Reg.slot_BUSY i = true → ∃ t, exec (.granaryRangeGo i w) s = .next t ∧ s.onlyWakes t) ∧
      (s.rdB Reg.slot_BUSY i = false →
        (op = 0 ∨ 5 < op → ∃ t, exec (.granaryRangeGo i w) s = .next t ∧ t.rdN Reg.slot_STATUS i = 3 ∧ t.rdB Reg.slot_BUSY i = false ∧ t.gran = s.gran) ∧
        (1 ≤ op → op ≤ 5 → ¬ok →
          ∃ t, exec (.granaryRangeGo i w) s = .next t ∧ t.rdN Reg.slot_STATUS i = 2 ∧ t.rdB Reg.slot_BUSY i = false ∧ t.gran = s.gran) ∧
        (1 ≤ op → op ≤ 5 → ok →
          ∃ t, exec (.granaryRangeGo i w) s = .next t ∧ t.rdN Reg.slot_STATUS i = 1 ∧ t.rdB Reg.slot_BUSY i = true ∧ t.rdN Reg.slot_OWNER i = w.toNat ∧
            t.rdN Reg.slot_DONE_LINES i = 0 ∧ t.gran = { s.gran with queue := s.gran.queue ++ [i.val] } ∧ t.mem = s.mem ∧ t.out = s.out))) ∧
    (s.gran.queue.head? ≠ some i.val ∨ s.gran.ranDone = true →
      exec (.cleanAndInvalidate i) s = .next s ∧ exec (.discardAndInvalidate i) s = .next s ∧ exec (.preload i) s = .next s ∧
      exec (.preloadAndLock i) s = .next s ∧ exec (.unlock i) s = .next s) ∧
    (s.gran.queue.head? = some i.val → s.gran.ranDone = false → s.rdN Reg.slot_LINES i = 1 →
      let l := s.slotBase i / 128
      s.mayRange (s.rdN Reg.slot_OWNER i) l = true →
      (∀ x : GLine, s.gran.lines = [x] → x.line = l → x.valid = true → x.lock = false →
        (s.rdN Reg.slot_OP i = 1 → ∃ t, exec (.cleanAndInvalidate i) s = .next t ∧ t.gran.lines = [] ∧ t.gran.ranDone = true ∧ t.rdN Reg.slot_DONE_LINES i = 1 ∧
          t.rdN Reg.gran_WB_CNT 0 = (if x.dirty then min (s.rdN Reg.gran_WB_CNT 0 + 1) 0xFFFFFFFF else s.rdN Reg.gran_WB_CNT 0)) ∧
        (s.rdN Reg.slot_OP i = 2 → ∃ t, exec (.discardAndInvalidate i) s = .next t ∧ t.gran.lines = [] ∧ t.gran.ranDone = true ∧
          t.rdN Reg.gran_WB_CNT 0 = s.rdN Reg.gran_WB_CNT 0) ∧
        (s.rdN Reg.slot_OP i = 4 → 1 ≤ s.rdN Reg.gran_LOCK_BUDGET 0 →
          ∃ t, exec (.preloadAndLock i) s = .next t ∧ t.gran.lines = [{ x with lock := true }] ∧ t.gran.ranDone = true)) ∧
      (∀ x : GLine, s.gran.lines = [x] → x.line = l → x.valid = true → x.lock = true → s.rdN Reg.slot_OP i = 5 →
        ∃ t, exec (.unlock i) s = .next t ∧ t.gran.lines = [{ x with lock := false }] ∧ t.gran.ranDone = true) ∧
      (s.gran.lines = [] → s.rdN Reg.slot_OP i = 3 →
        ∃ t x, exec (.preload i) s = .next t ∧ t.gran.lines = [x] ∧ x.line = l ∧ x.valid = true ∧ x.lock = false ∧ x.dirty = false ∧ t.gran.ranDone = true)) ∧
    (s.gran.queue.head? = some i.val → s.gran.ranDone = true →
      ∃ t, exec (.rangeOperationDone i) s = .next t ∧ t.rdB Reg.slot_BUSY i = false ∧ t.rdN Reg.slot_STATUS i = 0 ∧ t.gran.queue = s.gran.queue.drop 1 ∧
        t.gran.ranDone = false ∧ t.mem = s.mem) ∧
    (s.gran.queue.head? ≠ some i.val ∨ s.gran.ranDone = false → exec (.rangeOperationDone i) s = .next s)

/-- Accesses, write-backs, the scrubber and the sensors (R22, R398, R399, R401 to R405): a permitted access of one line reads or writes
its bytes and brings an absent line in, outside the Granary Husk's SRAM alone takes a write; a refused one reads zeros and changes no
line; the scrubber and the sensors leave what they found. What rests on the model's own choices, not on a rule: logs 74, 75, 76, 77, 78
and 151 (one memory above the Granary; counting; order; replacement; poisoned reads). -/
def Obligations.MemoryAccessesAndScrubbing : Prop :=
  ∀ s : State, s.fileOk → Memory.wf s.mem = true → s.flt.armed = [] → s.flt.injected = [] →
    (∀ (w : Initiator) (sec : Bool) (a : BitVec 48) (n victim : Nat),
      let o : MemObs := ⟨victim, .clean, .clean, false, false⟩
      let id := if carriesSec w.toNat then sec else isSecure w.toNat
      let l := a.toNat / 128
      w.toNat ≠ idHost → 1 ≤ n → a.toNat % 128 + n ≤ 128 →
      (s.memAcc w.toNat id a.toNat false = .ok → ddrBase ≤ a.toNat → l ∉ s.gran.poison →
        ((s.gline l).isSome = true →
          ∃ t, exec (.mainMemoryAccess w sec a none n o) s = .next t ∧ t.out = s.out ++ [.bytes w (s.memRead a.toNat n)] ∧ t.mem = s.mem ∧ t.gran = s.gran ∧
            t.rdN Reg.gran_HIT_CNT 0 = min (s.rdN Reg.gran_HIT_CNT 0 + 1) 0xFFFFFFFF) ∧
        (s.gline l = none → l ∉ s.gran.glean →
          ∃ t, exec (.mainMemoryAccess w sec a none n o) s = .next t ∧ t.out = s.out ++ [.bytes w (s.memRead a.toNat n)] ∧ t.mem = s.mem ∧
            (t.gline l).isSome = true ∧ t.rdN Reg.gran_MISS_CNT 0 = min (s.rdN Reg.gran_MISS_CNT 0 + 1) 0xFFFFFFFF)) ∧
      (∀ b : List Byte, b.length = n → s.memAcc w.toNat id a.toNat true = .ok → ddrBase ≤ a.toNat →
        ∃ t, exec (.mainMemoryAccess w sec a (some b) n o) s = .next t ∧ t.memRead a.toNat n = b ∧ t.out = s.out ∧ (t.gline l).isSome = true ∧
          ∀ p k, p + k ≤ a.toNat ∨ a.toNat + n ≤ p → t.memRead p k = s.memRead p k) ∧
      (128 * l < ddrBase → inSram a.toNat = true → s.memAcc w.toNat id a.toNat true = .ok → ∀ b : List Byte, b.length = n →
        ∃ t, exec (.mainMemoryAccess w sec a (some b) n o) s = .next t ∧ t.memRead a.toNat n = b ∧ t.out = s.out ∧ t.gran = s.gran ∧
          ∀ p k, p + k ≤ a.toNat ∨ a.toNat + n ≤ p → t.memRead p k = s.memRead p k) ∧
      (128 * l < ddrBase → inSram a.toNat = true → s.memAcc w.toNat id a.toNat false = .ok →
        exec (.mainMemoryAccess w sec a none n o) s = .next (s.emit (.bytes w (s.memRead a.toNat n)))) ∧
      (128 * l < ddrBase → inSram a.toNat = false → s.memAcc w.toNat id a.toNat true = .ok → ∀ b : List Byte, b.length = n →
        exec (.mainMemoryAccess w sec a (some b) n o) s = .next s) ∧
      (∀ d : Bool, s.memAcc w.toNat id a.toNat false = .viol d →
        ∃ t, exec (.mainMemoryAccess w sec a none n o) s = .next t ∧ Output.bytes w (List.replicate n 0) ∈ t.out.drop s.out.length ∧ t.gran = s.gran)) ∧
    (∀ l : Nat, (l ∈ s.gran.glean → ∃ t, exec (.gleaningWriteBackDone l) s = .next t ∧ t.gran.glean = s.gran.glean.erase l ∧
        t.rdN Reg.gran_WB_CNT 0 = min (s.rdN Reg.gran_WB_CNT 0 + 1) 0xFFFFFFFF ∧ t.mem = s.mem) ∧
      (l ∉ s.gran.glean → exec (.gleaningWriteBackDone l) s = .next s)) ∧
    (∀ (x : Nat), let c := x % 4
      (∀ e, s.rdB Reg.ddrCh_SCRUB_EN c = false ∨ s.installed / 128 ≤ x ∨ s.rdN Reg.status_CUR_PS 0 = 4 → exec (.patrolScrub x e) s = .next s) ∧
      (s.rdB Reg.ddrCh_SCRUB_EN c = true → x < s.installed / 128 → s.rdN Reg.status_CUR_PS 0 ≠ 4 →
        (∃ t, exec (.patrolScrub x .clean) s = .next t ∧ t.gran = s.gran ∧ t.rdN Reg.ddrCh_SCRUB_PASS_CNT c =
          (if s.installed / 128 ≤ x + 4 then min (s.rdN Reg.ddrCh_SCRUB_PASS_CNT c + 1) 0xFFFFFFFF else s.rdN Reg.ddrCh_SCRUB_PASS_CNT c)) ∧
        ((∀ y ∈ s.gran.lines, y.line ≠ ddrBase / 128 + x) →
          ∃ t, exec (.patrolScrub x .correctable) s = .next t ∧ t.gran = s.gran ∧ t.rdN Reg.ddrCh_CE_CNT c = min (s.rdN Reg.ddrCh_CE_CNT c + 1) 0xFFFFFFFF) ∧
        ∃ t, exec (.patrolScrub x .uncorrectable) s = .next t ∧ ddrBase / 128 + x ∈ t.gran.poison)) ∧
    (∀ (temps : List (Option Int)), temps.length = 8 → (∀ x ∈ temps, ∃ v : Int, x = some v ∧ -128 ≤ v ∧ v < 95) →
      ∃ t, exec (.dimmSensorRead temps) s = .next t ∧ t.gran.dimmFails.length ≤ s.gran.dimmFails.length ∧
        ∀ (c : Fin 4) (v : Int), temps.getD (2 * c) none = some v → 1 ≤ s.rdN Reg.ddrCh_DIMMS c →
          t.rdInt Reg.ddrCh_DIMM_TEMP_0 c 0 = v ∧ ((s.str.therm.dimmRef : Int) ≤ v → t.rdBit Reg.ddrCh_REF_2X c 0 = true))

/-! ### 16: housekeeping and calibration -/

/-- The housekeeping round (R56, R417, R418): a round comes at the next multiple of 1,000 µs and is counted; one that would overlap is
skipped and counted; with every die sensor sound J_TEMP is their highest; live records are in force from its start. What rests on the
model's own choices, not on a rule: logs 9 and 91 (time passes in a round; rounding of a temperature). -/
def Obligations.HousekeepingRounds : Prop :=
  ∀ (s : State) (o : RoundObs), s.fileOk → s.bindsOk →
    (s.locked = false → exec (.housekeepingRound o) s = .next s) ∧
    (s.locked = true → s.alm.us64.toNat + 1000 < 2 ^ 64 → s.alm.usec < hourUs →
      (o.previousRunning = true →
        ∃ t, exec (.housekeepingRound o) s = .next t ∧ t.alm.us64.toNat = (s.alm.us64.toNat / 1000 + 1) * 1000 ∧ t.acts = s.acts ∧ t.out = s.out ∧
          t.rdN Reg.therm_HK_SKIP_CNT 0 = min (s.rdN Reg.therm_HK_SKIP_CNT 0 + 1) 0xFFFFFFFF) ∧
      (o.previousRunning = false → s.host.cmds = [] → s.thm.runs = [] →
        ∃ t, exec (.housekeepingRound o) s = .next t ∧ t.alm.us64.toNat = (s.alm.us64.toNat / 1000 + 1) * 1000 ∧
          t.rdN Reg.therm_HK_ROUND_CNT 0 = (s.rdN Reg.therm_HK_ROUND_CNT 0 + 1) % 2 ^ 32 ∧ t.husk.liveTherm = [] ∧ t.husk.liveGran = [] ∧
          (∀ r : ThermRec, s.husk.liveTherm = [r] → t.str.therm = r) ∧
          (let temp (i : Nat) : Int := s.sensTemp i (o.counts.getD i 0)
            let top := ((List.range 15).map (fun i => temp (i + 1))).foldl max (temp 0)
            (∀ i, i < 16 → s.rdAt Reg.therm_SENS_FAIL 0 i = 0 ∧ 4000 ≤ o.counts.getD i 0 ∧ o.counts.getD i 0 ≤ 12000) →
            (∀ i j, i < 16 → j < 16 → (temp i - temp j).natAbs ≤ 240) → -32768 ≤ top → top < 32768 →
            t.rdInt Reg.therm_J_TEMP 0 0 = top ∧ t.rdN Reg.therm_SENS_VALID 0 = 65535)))

/-- Requests, deferral and slots of calibration (R427, R430, R431): a request adds a run for each item it names and touches no register;
an item deferred too long shows as stale; a slot ends without touching another actuator. What rests on the model's own choices, not on a
rule: logs 95 and 97 (a request for an item that runs; slot time). -/
def Obligations.CalibrationRequestsAndSlots : Prop :=
  ∀ s : State, s.fileOk →
    (∀ (n : Act) (w : Initiator) (mask : Byte), s.may w (Reg.thermAct_CAL_REQ.addr n 0) true →
      (s.actExists n = true → ∃ t, exec (.calReq (.act n) w mask) s = .next t ∧ t.regs = s.regs ∧ t.acts = s.acts ∧ t.out = s.out ∧
        (∀ i : Nat, 4 ≤ i → i ≤ 7 → mask.getLsbD (i - 1) = true → ∃ r ∈ t.thm.runs, r.act = n.val ∧ r.item = i) ∧
        (∀ r ∈ t.thm.runs, r ∈ s.thm.runs ∨ (r.act = n.val ∧ 4 ≤ r.item ∧ r.item ≤ 7 ∧ mask.getLsbD (r.item - 1) = true ∧ r.phase = 0))) ∧
      (s.actExists n = false → ∃ t, exec (.calReq (.act n) w mask) s = .next t ∧ s.onlyWakes t)) ∧
    (∀ (w : Initiator) (mask : Byte), s.may w (Reg.therm_CAL_REQ_C.addr 0 0) true →
      (mask.getLsbD 1 = true → ∃ t, exec (.calReq .controller w mask) s = .next t ∧ (∃ r ∈ t.thm.runs, r.act = 64 ∧ r.item = 2) ∧ t.regs = s.regs) ∧
      (mask.getLsbD 1 = false → ∃ t, exec (.calReq .controller w mask) s = .next t ∧ s.onlyWakes t)) ∧
    (∀ (n : Act) (k : Fin 8) (r : CalRun), s.thm.runs.find? (fun x => x.act == n.val && x.item == k.val) = some r →
      (r.phase = 0 → r.counted = true → r.stale = false →
        ∃ t, exec (.calDeferMaxExpiry (.act n) k) s = .next t ∧ t.rdB Reg.thermAct_CAL_STALE n = true ∧ t.alm.auditLast = s.alm.auditLast + 1 ∧ t.acts = s.acts) ∧
      (r.phase ≠ 0 ∨ r.counted = false ∨ r.stale = true → exec (.calDeferMaxExpiry (.act n) k) s = .next s)) ∧
    (∀ n : Act,
      ((s.act n).xslot = true → (s.act n).op = none →
        ∃ t, exec (.exclusiveMediaSlotEnd n) s = .next t ∧ (t.act n).xslot = false ∧ (∀ m : Act, m ≠ n → t.act m = s.act m) ∧ t.regs = s.regs ∧ t.out = s.out) ∧
      ((s.act n).xslot = false → exec (.exclusiveMediaSlotEnd n) s = .next s))

/-! ### 17: faults and the safe state -/

/-- Detection and recovery (R271, R437, R440, R441, R443): a detection shows in its block's registers and is in force, and where it arises
for the gate of an armed frame it closes that gate; a type whose condition is absent leaves force, unless it is latched, where it only
becomes ready to; a held reaction's commands end after 60 s. -/
def Obligations.FaultsComeAndGo : Prop :=
  ∀ (s : State), s.fileOk → s.bindsOk → s.host.cmds = [] →
    (∀ (ft : BitVec 16) (inst : Nat) (info : Word) (inj : Bool),
      let b := fltBlk ft.toNat inst
      (faultKnown ft.toNat inst = false → exec (.faultDetection ft inst info inj) s = .next s) ∧
      (faultKnown ft.toNat inst = true →
        ∃ t, exec (.faultDetection ft inst info inj) s = .next t ∧ t.rdBit Reg.flt_FLT_ACT b (ft.toNat % 256) = true ∧
          (ft ≠ 0x0801 → ft ≠ 0x0802 → t.rdBit Reg.flt_FLT_STAT b (ft.toNat % 256) = true) ∧ (∃ a ∈ t.flt.active, a.ftype = ft.toNat ∧ a.inst = inst) ∧
          (s.reactOf ft.toNat ≤ 1 → t.rdN Reg.flt_FLT_OCC_CNT b = min (s.rdN Reg.flt_FLT_OCC_CNT b + 1) 0xFFFFFFFF ∧
            t.rdN Reg.flt_LAST_TYPE b = ft.toNat % 256 ∧ t.rd Reg.flt_FLT_INFO b = detailOf ft.toNat info ∧ t.rdB Reg.flt_FLT_INJ_SRC b = inj ∧
            t.safeN = s.safeN ∧ ((∀ m : Act, (s.act m).armed = none) → t.acts = s.acts ∧ t.loops = s.loops ∧ t.out = s.out) ∧
            ∀ m : Act, (s.act m).armed.isSome = true → s.gateFault m = false → t.gateFault m = true →
              (t.act m).armed = none ∧ t.rdN Reg.wa_CLOSE_CAUSE m = 6 ∧ t.rdN Reg.wa_CLOSE_CNT m = min (s.rdN Reg.wa_CLOSE_CNT m + 1) 0xFFFFFFFF))) ∧
    (∀ (ft : BitVec 16) (inst : Nat),
      let b := fltBlk ft.toNat inst
      let here (l : List ActiveFault) : Prop := ∃ a ∈ l, a.ftype = ft.toNat ∧ a.inst = inst
      (here s.flt.active → s.absent ft.toNat inst = true → s.rdBit Reg.flt_FLT_LATCH b (ft.toNat % 256) = false →
        ∃ t, exec (.faultRecovery ft inst) s = .next t ∧ ¬here t.flt.active ∧ t.rdN Reg.flt_FLT_RCV_CNT b = min (s.rdN Reg.flt_FLT_RCV_CNT b + 1) 65535) ∧
      (here s.flt.active → s.absent ft.toNat inst = true → s.rdBit Reg.flt_FLT_LATCH b (ft.toNat % 256) = true →
        ∃ t, exec (.faultRecovery ft inst) s = .next t ∧ t.flt.active = s.flt.active ∧ (ft.toNat, inst) ∈ t.flt.quiet ∧ t.regs = s.regs) ∧
      (¬here s.flt.active ∨ s.absent ft.toNat inst = false → exec (.faultRecovery ft inst) s = .next s)) ∧
    (∀ n : Act,
      (2 ≤ s.reactAct n → ∃ t, exec (.reactionHoldTimeout n) s = .next t ∧ (t.act n).holdExpired = true ∧ t.regs = s.regs ∧ ∀ m : Act, m ≠ n → t.act m = s.act m) ∧
      (s.reactAct n < 2 → (s.act n).holding = true → ∃ t, exec (.reactionHoldTimeout n) s = .next t ∧ (t.act n).holding = false ∧ t.regs = s.regs) ∧
      (s.reactAct n < 2 → (s.act n).holding = false → exec (.reactionHoldTimeout n) s = .next s))

/-- Fault registers written (R440, R444, R449): a W1C write clears the bits written whose type is neither active nor latched, and the
pending bits of a Heliostat unit likewise; an arming is recorded, and arms the checkers that have check bits. Disabling and enabling (R446
to R448): a disable that would lose acknowledged grains is refused unless forced, a sound one drops what is unacknowledged and ends when
the heads are on the ramp; an enable is refused while the port is not UP or a reaction holds. -/
def Obligations.FaultRegistersAndDisabling : Prop :=
  (∀ (s : State) (b : Fin 270) (w : Initiator), s.fileOk →
    let free (k : Nat) : Bool := !(s.rdBit Reg.flt_FLT_ACT b k) && !(s.rdBit Reg.flt_FLT_LATCH b k)
    (∀ v : Word, s.may w (fltAddr b) true →
      ∃ t, exec (.fltStat b w 0 v) s = .next t ∧ t.acts = s.acts ∧ t.out = s.out ∧ t.flt.active = s.flt.active ∧
        ∀ k, k < 16 → t.rdBit Reg.flt_FLT_STAT b k = (s.rdBit Reg.flt_FLT_STAT b k && !(v.getLsbD k && free k))) ∧
    (∀ v : Word, 168 ≤ b.val → b.val < 172 → s.may w (fltAddr b + 0x40) true →
      (free 1 = true → ∃ t, exec (.fltStat b w 0x40 v) s = .next t ∧ t.regs = s.regs ∧ t.flt.arithPend = s.flt.arithPend ∧
        ∀ g, g < 256 → t.flt.wdPend.getLsbD g = (s.flt.wdPend.getLsbD g && !(g / 64 == b.val - 168 && g % 64 < 32 && v.getLsbD (g % 64)))) ∧
      (free 1 = false → ∃ t, exec (.fltStat b w 0x40 v) s = .next t ∧ s.onlyWakes t)) ∧
    (∀ v : Word, b.val < 168 ∨ 172 ≤ b.val → s.may w (fltAddr b + 0x40) true → ∃ t, exec (.fltStat b w 0x40 v) s = .next t ∧ s.onlyWakes t) ∧
    (∀ (k : InjAlias) (a : Nat), injAddr b k = some a → s.may w a true →
      let ty := match k with | .injArm => s.rdN Reg.flt_INJ_SEL b | .eccInj => if b.val = 1 then 3 else 2 | .tagInj => 2
      ∃ t, exec (.injArm b w k) s = .next t ∧ t.alm.auditLast = s.alm.auditLast + 1 ∧ t.acts = s.acts ∧
        (hasChecker b ty = true → t.rdB Reg.flt_INJ_ARMED b = true ∧ (b.val, ty, max 1 (s.rdN Reg.flt_INJ_CNT b)) ∈ t.flt.armed) ∧
        (hasChecker b ty = false → t.rdB Reg.flt_INJ_ARMED b = false ∧ ∀ x ∈ t.flt.armed, x.1 ≠ b.val))) ∧
  (∀ (s : State) (n : Act) (w : Initiator), s.fileOk → s.bindsOk →
    let st := s.rdN Reg.dis_STATE n
    (s.may w (Reg.dis_DIS.addr n 0) true →
      (∀ f : Bool, ∃ t, exec (.dis (.act n) w f true) s = .next t ∧ s.onlyWakes t) ∧
      (∀ f : Bool, st = 1 ∨ st = 3 → ∃ t, exec (.dis (.act n) w f false) s = .next t ∧ s.onlyWakes t) ∧
      (∀ f : Bool, st = 2 → ∃ t, exec (.dis (.act n) w f false) s = .next t ∧ t.rdN Reg.dis_RES n = 0 ∧ t.rdN Reg.dis_STATE n = 2 ∧ t.acts = s.acts) ∧
      (st = 0 → s.actExists n = true → s.ackGrains n ≠ 0 →
        ∃ t, exec (.dis (.act n) w false false) s = .next t ∧ t.rdN Reg.dis_RES n = 1 ∧ t.rdN Reg.dis_STATE n = 0 ∧ t.acts = s.acts ∧ t.buf = s.buf) ∧
      (st = 0 → s.actExists n = true → s.ackGrains n = 0 → s.host.cmds = [] →
        ∃ t, exec (.dis (.act n) w false false) s = .next t ∧ t.rdN Reg.dis_RES n = 0 ∧ (t.rdN Reg.dis_STATE n = 1 ∨ t.rdN Reg.dis_STATE n = 2) ∧
          (t.act n).ready = false ∧ (t.act n).op = none ∧ ∀ g ∈ t.buf, g.tag.act = n.val → g.acked = true ∨ g.written = true)) ∧
    (s.may w (Reg.dis_EN.addr n 0) true →
      let good := s.bound (n.val / 2) = true ∧ s.up (n.val / 2) = true
      (st = 1 ∨ st = 3 → ∃ t, exec (.en (.act n) w) s = .next t ∧ s.onlyWakes t) ∧
      (st = 0 ∨ st = 2 →
        (¬good → ∃ t, exec (.en (.act n) w) s = .next t ∧ t.rdN Reg.dis_RES n = 3 ∧ t.rdN Reg.dis_STATE n = st ∧ t.acts = s.acts) ∧
        (good → 2 ≤ s.reactAct n → ∃ t, exec (.en (.act n) w) s = .next t ∧ t.rdN Reg.dis_RES n = 2 ∧ t.rdN Reg.dis_STATE n = st ∧ t.acts = s.acts) ∧
        (good → s.reactAct n < 2 → ∃ t, exec (.en (.act n) w) s = .next t ∧ t.rdN Reg.dis_RES n = 0 ∧
          t.rdN Reg.dis_STATE n = (if st = 2 then 3 else 0) ∧ t.acts = s.acts))))

/-! ### 18: the Almanac -/

/-- Time, put registers and the NOR copy (R450, R453, R457, R462): the hour mark moves the counts to the wrap with a record; a put writes
one record for a core and nothing for another initiator; a copy brings the ring up to the newest record, or says that it failed. What
rests on the model's own choices, not on a rule: log 4 (opaque CODE and DATA of a record). -/
def Obligations.RecordsAreWritten : Prop :=
  ∀ (s : State), s.fileOk →
    (∃ t, exec .hourMark s = .next t ∧ t.alm.usec = 0 ∧ t.alm.hours = (s.alm.hours + 1) % 2 ^ 28 ∧ t.alm.us64 = s.alm.us64 + BitVec.ofNat 64 (hourUs - s.alm.usec) ∧
      t.alm.auditLast = s.alm.auditLast + 1 ∧ s.mediaKept t ∧ t.out = s.out) ∧
    (∀ w : Initiator, s.may w (windowBase 0x11 + 0x200A4) true →
      (isCulm w.toNat = false →
        (∃ t, exec (.tracePut w) s = .next t ∧ s.onlyWakes t) ∧ ∃ t, exec (.auditPut w) s = .next t ∧ s.onlyWakes t) ∧
      (isCulm w.toNat = true →
        (∀ p : PartRec, s.str.alm.traceSrc.testBit 10 = true → 0 < s.str.alm.traceMib → s.str.part 2 = some p →
          ∃ t, exec (.tracePut w) s = .next t ∧ t.alm.traceHead = s.alm.traceHead + 1 ∧ t.alm.audit = s.alm.audit ∧ t.acts = s.acts ∧ t.regs = s.regs) ∧
        (s.str.alm.traceSrc.testBit 10 = false → ∃ t, exec (.tracePut w) s = .next t ∧ s.onlyWakes t) ∧
        (s.alm.putSecond = s.alm.us64.toNat / 1000000 →
          (s.alm.puts < 1000 → ∃ t, exec (.auditPut w) s = .next t ∧ t.alm.auditLast = s.alm.auditLast + 1 ∧ t.alm.puts = s.alm.puts + 1 ∧ s.mediaKept t) ∧
          (1000 ≤ s.alm.puts → ∃ t, exec (.auditPut w) s = .next t ∧ t.alm.auditLast = s.alm.auditLast ∧
            t.rdN Reg.alm_AUDIT_PUT_DROP 0 = min (s.rdN Reg.alm_AUDIT_PUT_DROP 0 + 1) 0xFFFFFFFF)))) ∧
    (s.locked = false ∨ s.husk.halted = true ∨ (∀ r ∈ s.alm.audit, r.seq < s.alm.norNext) → ∀ b, exec (.norCopy b) s = .next s) ∧
    (∀ r : Rec, s.locked = true → s.husk.halted = false → s.alm.audit = [r] → s.alm.norNext ≤ r.seq →
      (∃ t, exec (.norCopy true) s = .next t ∧ t.alm.norNext = r.seq + 1 ∧ (∃ x ∈ t.alm.nor, r ∈ x.recs) ∧ t.alm.audit = s.alm.audit ∧ t.regs = s.regs) ∧
      ∃ t, exec (.norCopy false) s = .next t ∧ t.alm.norSkip = true ∧ t.alm.auditLast = s.alm.auditLast + 1 ∧
        t.rdN Reg.alm_NOR_ERR_CNT 0 = min (s.rdN Reg.alm_NOR_ERR_CNT 0 + 1) 0xFFFFFFFF)

/-- Snapshots (R458 to R461, R463): an open holds the records of its moment, a close lets them go, and the host's status reads show which.
What rests on the model's own choices, not on a rule: log 65 (an empty snapshot). -/
def Obligations.SnapshotsHoldRecords : Prop :=
  ∀ (s : State), s.fileOk → s.alm.audit.length ≤ s.auditCap →
    (∀ (k : Fin 4) (w : Initiator), k.val = 1 ∨ k.val = 3 → s.may w (windowBase 0x11 + 0x20000 + 0x100 * k) true →
      ((s.snap k).isOpen = false →
        ∃ t, exec (.snapshotOpen k w false) s = .next t ∧ (t.snap k).isOpen = true ∧ (t.snap k).broken = false ∧ (t.snap k).last = s.alm.auditLast ∧
          (∀ r rest, s.alm.audit = r :: rest → (t.snap k).first = r.seq) ∧ (s.alm.audit = [] → (t.snap k).first = s.alm.auditLast + 1) ∧
          t.alm.audit = s.alm.audit ∧ (∀ j : Fin 4, j ≠ k → t.snap j = s.snap j) ∧ t.rdN Reg.snap_ST k = 1) ∧
      (∃ t, exec (.snapshotOpen k w true) s = .next t ∧ (t.snap k).isOpen = false) ∧
      ∃ t, exec (.snapshotClose k w) s = .next t ∧ (t.snap k).isOpen = false ∧ t.alm.auditLast = s.alm.auditLast ∧ t.rdN Reg.snap_ST k % 2 = 0) ∧
    (∀ (k : Fin 4) (w : Initiator), k.val = 0 ∨ k.val = 2 → (∀ c, exec (.snapshotOpen k w c) s = .next s) ∧ exec (.snapshotClose k w) s = .next s) ∧
    (∀ k : Fin 4,
      ((s.snap k).isOpen = true → ∃ t, exec (.snapshotIdleClose k) s = .next t ∧ (t.snap k).isOpen = false ∧
        t.rdN Reg.alm_SNAP_IDLE_CNT 0 = min (s.rdN Reg.alm_SNAP_IDLE_CNT 0 + 1) 0xFFFFFFFF ∧ s.mediaKept t) ∧
      ((s.snap k).isOpen = false → exec (.snapshotIdleClose k) s = .next s)) ∧
    (∃ t, exec .hostSnapshotOpen s = .next t ∧ (t.snap 0).isOpen = true ∧ t.out = s.out ++ [.value hostId 1] ∧ s.mediaKept t) ∧
    (∃ t, exec .hostSnapshotClose s = .next t ∧ (t.snap 0).isOpen = false ∧ t.out = s.out ++ [.value hostId 0] ∧ s.mediaKept t) ∧
    (∃ t, exec .pageSeqAdvance s = .next t ∧ (t.snap 0).page = (s.snap 0).page + 504 ∧ (t.snap 0).first = (s.snap 0).first ∧
      t.out = s.out ++ [.value hostId (s.snap 0).status] ∧ t.alm.audit = s.alm.audit ∧ s.mediaKept t)

/-! ### 19: the Orrery -/

/-- Joining and electing (R465, R466, R470, R471, R476): the listening seconds end in a claim, in following the best claim, or in becoming
manager of the next epoch; a HEARTBEAT gives the manager, JOIN and its answer the member ID, and what is unanswered is sent again. What
rests on the model's own choices, not on a rule: logs 81, 82, 111 and 113 (whom an answer is for; counts of messages; members made from
claims). -/
def Obligations.ElectionAndMembership : Prop :=
  ∀ (s : State) (h : OrrHdr), s.fileOk →
    (s.orr.stage = 1 → s.eligible = true →
      ∃ t, exec .electionListenEnd s = .next t ∧ t.orr.stage = 2 ∧ t.orr.sent = s.orr.sent + 1 ∧ t.regs = s.regs ∧ t.acts = s.acts) ∧
    (s.orr.stage = 1 → s.eligible = false → exec .electionListenEnd s = .next s) ∧
    (s.orr.stage = 2 →
      let beaten := s.orr.claims.any (fun c => ranks c.1 c.2 (s.rdN Reg.orr_PRIO 0) s.husk.serial.toNat)
      (beaten = true → ∃ t, exec .electionListenEnd s = .next t ∧ t.orr.stage = 3 ∧ t.orr.joinPend = true ∧ t.orr.sent = s.orr.sent + 1 ∧ t.regs = s.regs) ∧
      (beaten = false → ∃ t, exec .electionListenEnd s = .next t ∧ t.orr.stage = 3 ∧ t.rdN Reg.orr_ROLE 0 = 3 ∧
        t.rdN Reg.orr_MGR_EPOCH 0 = (s.orr.hiEpoch + 1) % 2 ^ 32 ∧ t.acts = s.acts)) ∧
    (∀ p : Byte, s.orrHears h 0x02 (claimBody p.toNat) true → ∃ t, exec (.claim h p) s = .next t ∧ (p.toNat, h.serial.toNat) ∈ t.orr.claims ∧ t.regs = s.regs ∧ t.out = s.out) ∧
    (∀ m : HeartbeatMsg, s.orrHears h 0x01 (heartbeatBody m.standbyId.toNat m.limit.toNat m.committed.toNat m.members.toNat) true →
      (s.orr.stage ≤ 2 → ∃ t, exec (.heartbeat h m) s = .next t ∧ t.orr.stage = 3 ∧ t.rdN Reg.orr_MGR_EPOCH 0 = h.epoch.toNat ∧
        t.rdN Reg.orr_MGR_ID 0 = h.srcId.toNat % 1024 ∧ t.orr.joinPend = true ∧ t.orr.sent = s.orr.sent + 1) ∧
      (s.orr.stage = 3 → s.isManager = true → s.rdN Reg.orr_MGR_EPOCH 0 < h.epoch.toNat →
        ∃ t, exec (.heartbeat h m) s = .next t ∧ t.rdN Reg.orr_ROLE 0 ≠ 3 ∧ t.rdN Reg.orr_MGR_EPOCH 0 = h.epoch.toNat ∧ t.orr.members = [] ∧ t.orr.queue = [] ∧
          t.orr.tokens = s.orr.tokens) ∧
      (s.orr.stage = 3 → h.epoch.toNat < s.rdN Reg.orr_MGR_EPOCH 0 → ∃ t, exec (.heartbeat h m) s = .next t ∧ t.regs = s.regs ∧ t.out = s.out)) ∧
    ((s.isManager = true → ∃ t, exec .heartbeatSend s = .next t ∧ t.orr.sent = s.orr.sent + 1 ∧ t.orr.members = s.orr.members ∧ t.acts = s.acts) ∧
      (s.isManager = false → exec .heartbeatSend s = .next s)) ∧
    (∀ (e : Bool) (p : Byte) (d : Word), s.orrHears h 0x03 (joinBody e p.toNat d.toNat) true →
      (s.isManager = true → (∀ m ∈ s.orr.members, m.serial ≠ h.serial.toNat) → ∀ i : Nat, i < 1000 → (∀ m ∈ s.orr.members, m.id ≠ i) →
        (∀ j, j < i → ∃ m ∈ s.orr.members, m.id = j) →
        ∃ t, exec (.join h e p d) s = .next t ∧ ⟨i, h.serial.toNat, e, p.toNat, d.toNat, 0, [], false⟩ ∈ t.orr.members ∧ t.orr.sent = s.orr.sent + 1) ∧
      (s.isManager = false → ∃ t, exec (.join h e p d) s = .next t ∧ t.regs = s.regs ∧ t.out = s.out)) ∧
    (∀ (i : BitVec 16) (r : Byte), s.orrHears h 0x04 (joinAckBody i.toNat r.toNat) false → s.orr.joinPend = true →
      (r = 0 → ∃ t, exec (.joinAck h i r) s = .next t ∧ t.rdN Reg.orr_MEMBER_ID 0 = i.toNat % 1024 ∧ t.rdN Reg.orr_MGR_ID 0 = h.srcId.toNat % 1024 ∧
        t.orr.joinPend = false) ∧
      (r ≠ 0 → ∃ t, exec (.joinAck h i r) s = .next t ∧ t.orr.joinPend = false ∧ t.orr.joinFull = true ∧ t.regs = s.regs ∧ t.out = s.out)) ∧
    ((s.orr.joinFull = true → ∃ t, exec .joinRetry s = .next t ∧ t.orr.joinPend = true ∧ t.orr.joinFull = false ∧ t.orr.sent = s.orr.sent + 1 ∧ t.regs = s.regs) ∧
      (s.orr.joinFull = false → exec .joinRetry s = .next s)) ∧
    ((s.orr.joinPend = true → s.hasManager = false → ∃ t, exec .requestResend s = .next t ∧ t.orr.sent = s.orr.sent + 1 ∧ t.regs = s.regs) ∧
      (s.orr.joinPend = false → s.isManager = false → s.hasManager = true → s.memberId ≠ noMember →
        ∃ t, exec .requestResend s = .next t ∧ t.orr.sent = s.orr.sent + s.orr.reqs.length + s.orr.returns.length ∧ t.regs = s.regs) ∧
      (s.orr.joinPend = false → s.hasManager = false → exec .requestResend s = .next s))

/-- Losing the manager (R475 to R477): the standby takes over with grants held for 2 s, another member goes on without one, and the
manager takes an absent member's entry away once its hold has passed. Tokens (R472 to R474, R476, R482): the manager grants a request that
fits and queues one that does not; a grant meets its request or goes back; returns leave the ledger and their acknowledgement the list;
draws and replies set it. What rests on the model's own choices, not on a rule: logs 110 and 112 (what a standby follows; an absent
member's requests). -/
def Obligations.TakeoverAndTokens : Prop :=
  (∀ s : State, s.fileOk →
    (s.orr.mgrLost = false →
      (s.rdN Reg.orr_ROLE 0 = 1 → ∃ t, exec .managerLost s = .next t ∧ t.orr.mgrLost = true ∧ t.rdN Reg.orr_ROLE 0 = 1 ∧
        t.rdN Reg.orr_HB_MISS_CNT 0 = min (s.rdN Reg.orr_HB_MISS_CNT 0 + 1) 0xFFFFFFFF ∧ t.orr.tokens = s.orr.tokens) ∧
      (s.rdN Reg.orr_ROLE 0 = 2 → ∃ t, exec .managerLost s = .next t ∧ t.rdN Reg.orr_ROLE 0 = 3 ∧ t.orr.holdGrants = true ∧
        t.rdN Reg.orr_MGR_EPOCH 0 = (s.rdN Reg.orr_MGR_EPOCH 0 + 1) % 2 ^ 32 ∧
        t.rdN Reg.orr_TAKEOVER_CNT 0 = min (s.rdN Reg.orr_TAKEOVER_CNT 0 + 1) 0xFFFFFFFF ∧ t.orr.tokens = s.orr.tokens)) ∧
    (s.rdN Reg.orr_ROLE 0 ≠ 1 → s.rdN Reg.orr_ROLE 0 ≠ 2 → exec .managerLost s = .next s) ∧
    (s.orr.holdGrants = true → s.orr.queue = [] →
      ∃ t, exec .takeoverHoldEnd s = .next t ∧ t.orr.holdGrants = false ∧ t.orr.members = s.orr.members ∧ t.out = s.out ∧ t.acts = s.acts) ∧
    (s.orr.holdGrants = false → exec .takeoverHoldEnd s = .next s) ∧
    (∀ i : Nat, s.isManager = true → i ≠ s.memberId →
      (∃ t, exec (.memberAbsent i false) s = .next t ∧ (∀ m ∈ t.orr.members, m.id = i → m.absent = true) ∧ t.orr.queue = s.orr.queue ∧ t.regs = s.regs) ∧
      ((∃ m ∈ s.orr.members, m.id = i ∧ m.absent = true) → s.orr.queue = [] →
        ∃ t, exec (.memberAbsent i true) s = .next t ∧ (∀ m ∈ t.orr.members, m ∈ s.orr.members ∧ m.id ≠ i) ∧ t.out = s.out)) ∧
    (∀ (i : Nat) (b : Bool), s.isManager = false → exec (.memberAbsent i b) s = .next s)) ∧
  (∀ (s : State) (h : OrrHdr), s.fileOk →
    (∀ (m : Member) (q : TokenReqMsg), s.orrHears h 0x10 (tokenReqBody q.reqId.toNat q.spin q.group.toNat q.watts.toNat) false → s.isManager = true → s.orr.members = [m] → m.id = h.srcId.toNat → m.id ≠ s.memberId →
      s.orr.holdGrants = false → s.orr.queue = [] →
      (∀ x : Token, m.tokens = [x] → x.reqId = q.reqId.toNat →
        ∃ t, exec (.tokenReq h q) s = .next t ∧ t.orr.sent = s.orr.sent + 1 ∧ t.orr.queue = [] ∧ t.orr.nextToken = s.orr.nextToken ∧ t.regs = s.regs) ∧
      (m.tokens = [] → m.commit + q.watts.toNat ≤ s.rackLimit →
        ∃ t, exec (.tokenReq h q) s = .next t ∧ t.orr.queue = [] ∧ t.orr.nextToken = s.orr.nextToken + 1 ∧ t.orr.sent = s.orr.sent + 1 ∧
          ∃ m' ∈ t.orr.members, m'.id = m.id ∧ m'.tokens = [⟨q.reqId.toNat, s.orr.nextToken, q.spin, q.watts.toNat⟩]) ∧
      (m.tokens = [] → q.watts.toNat ≤ s.rackLimit → s.rackLimit < m.commit + q.watts.toNat →
        ∃ t, exec (.tokenReq h q) s = .next t ∧ t.orr.queue = [⟨m.id, q.reqId.toNat, q.spin, q.group.toNat, q.watts.toNat, false⟩] ∧
          t.orr.nextToken = s.orr.nextToken ∧ t.out = s.out)) ∧
    (∀ (r i watts : Word), s.orrHears h 0x11 (tokenGrantBody r.toNat i.toNat watts.toNat) false → s.isManager = false →
      (∀ x : TokReq, s.orr.reqs = [x] → x.reqId = r.toNat →
        ∃ t, exec (.tokenGrant h r i watts) s = .next t ∧ t.orr.reqs = [] ∧ t.orr.tokens = s.orr.tokens ++ [⟨r.toNat, i.toNat, x.spin, watts.toNat⟩] ∧ t.out = s.out) ∧
      (s.orr.reqs = [] → s.orr.tokens = [] → i.toNat ∉ s.orr.returns →
        ∃ t, exec (.tokenGrant h r i watts) s = .next t ∧ t.orr.tokens = [] ∧ t.orr.returns = s.orr.returns ++ [i.toNat])) ∧
    (∀ i : Word, s.orrHears h 0x12 (tokenReturnBody i.toNat) false →
      (s.isManager = true → s.orr.queue = [] → ∃ t, exec (.tokenReturn h i) s = .next t ∧ t.orr.sent = s.orr.sent + 1 ∧
        ∀ m ∈ t.orr.members, m.id = h.srcId.toNat → ∀ x ∈ m.tokens, x.id ≠ i.toNat) ∧
      (s.rdN Reg.orr_ROLE 0 < 2 → ∃ t, exec (.tokenReturn h i) s = .next t ∧ t.regs = s.regs ∧ t.out = s.out)) ∧
    (∀ i : Word, s.orrHears h 0x13 (tokenReturnBody i.toNat) false →
      ∃ t, exec (.returnAck h i) s = .next t ∧ t.orr.returns = s.orr.returns.filter (fun j => j != i.toNat) ∧ t.orr.tokens = s.orr.tokens ∧ t.out = s.out) ∧
    (∀ l : List (Word × Word), s.orrHears h 0x14 (tokenStateBody (l.map (fun x => (x.1.toNat, x.2.toNat)))) false → s.isManager = true → s.orr.queue = [] → s.orr.members = [] →
      ∃ t m, exec (.tokenState h l) s = .next t ∧ t.orr.members = [m] ∧ m.id = h.srcId.toNat ∧ m.serial = h.serial.toNat ∧
        m.tokens.map (fun x => (x.id, x.watts)) = (l.take 16).map (fun x => (x.1.toNat, x.2.toNat))) ∧
    ((s.memberId = noMember → exec .drawSend s = .next s) ∧
      (s.memberId ≠ noMember → s.isManager = false → ∃ t, exec .drawSend s = .next t ∧ t.rdN Reg.orr_STEADY 0 = s.drawOf.1 % 2 ^ 32 ∧
        t.orr.sent = s.orr.sent + 1 ∧ t.acts = s.acts)) ∧
    (∀ (steady total : Word) (cur ports : Byte), s.orrHears h 0x20 (drawBody steady.toNat total.toNat cur.toNat ports.toNat) false →
      (s.isManager = true → s.orr.queue = [] → ∃ t, exec (.draw h steady total cur ports) s = .next t ∧
        (∀ m ∈ t.orr.members, m.id = h.srcId.toNat → m.steady = steady.toNat) ∧ t.out = s.out) ∧
      (s.rdN Reg.orr_ROLE 0 < 2 → ∃ t, exec (.draw h steady total cur ports) s = .next t ∧ t.regs = s.regs ∧ t.out = s.out)))

/-- Images and audit pulls over the Orrery (R479, R480): an offer starts a transfer, a chunk that belongs to it is staged and marked, and
the rest is ignored; a pull opens snapshot 2 and its pages go out until the last one closes it; the manager collects what members send.
What rests on the model's own choices, not on a rule: logs 35, 114 and 115 (the staging place; an empty image; where pages go). -/
def Obligations.TransfersAndPulls : Prop :=
  ∀ (s : State) (h : OrrHdr), s.fileOk → Memory.wf s.mem = true →
    (∀ (i n : Word) (tg : Byte), s.orrHears h 0x30 (imageOfferBody i.toNat tg.toNat n.toNat) false →
      (n ≠ 0 → ∃ t, exec (.imageOffer h i tg n) s = .next t ∧ t.orr.xfer = some ⟨i.toNat, tg.toNat, n.toNat, []⟩ ∧ t.regs = s.regs ∧ t.mem = s.mem ∧ t.out = s.out)) ∧
    (∀ (i k : Word) (data : List Byte) (ok : Bool) (x : Xfer), s.orrHears h 0x31 (imageChunkBody i.toNat k.toNat data) false → s.orr.xfer = some x → x.length ≤ 0x2000000 →
      let a := s.imageBase + 1024 * k.toNat
      let want := min 1024 (x.length - 1024 * k.toNat)
      (x.id = i.toNat → 1024 * k.toNat < x.length → want ≤ data.length → s.inPart 4 a want = true →
        (∃ j, j ≠ k.toNat ∧ 1024 * j < x.length ∧ j ∉ x.got) →
        ∃ t, exec (.imageChunk h i k data ok) s = .next t ∧ t.mem = (s.dmaWrite idMgmt false a (data.take want)).mem ∧ (∃ y, t.orr.xfer = some y ∧ k.toNat ∈ y.got ∧ y.length = x.length) ∧
          t.regs = s.regs ∧ t.out = s.out) ∧
      (x.id ≠ i.toNat ∨ x.length ≤ 1024 * k.toNat ∨ data.length < want →
        ∃ t, exec (.imageChunk h i k data ok) s = .next t ∧ t.mem = s.mem ∧ t.orr.xfer = s.orr.xfer ∧ t.regs = s.regs ∧ t.out = s.out)) ∧
    ((s.orr.xfer = none → exec .imageNeedSend s = .next s) ∧
      (s.orr.xfer.isSome = true → ∃ t, exec .imageNeedSend s = .next t ∧ t.orr.sent = s.orr.sent + 1 ∧ t.orr.xfer = s.orr.xfer ∧ t.regs = s.regs)) ∧
    (∃ t, exec .imageTransferTimeout s = .next t ∧ t.orr.xfer = none ∧ t.regs = s.regs ∧ t.mem = s.mem ∧ t.out = s.out) ∧
    (∀ (i v : Word) (st step : Byte) (last broken : Bool) (l : List (List Byte)), s.isManager = true →
      (s.orrHears h 0x32 (imageNeedBody i.toNat v.toNat) false → ∃ t, exec (.imageNeed h i v) s = .next t ∧ (h.srcId.toNat, i.toNat, v.toNat) ∈ t.orr.needs ∧ t.regs = s.regs) ∧
      (s.orrHears h 0x33 (imageResultBody i.toNat st.toNat step.toNat) false → ∃ t, exec (.imageResult h i st step) s = .next t ∧ t.orr.results = s.orr.results ++ [(h.srcId.toNat, i.toNat, st.toNat, step.toNat)] ∧
        (∀ x ∈ t.orr.needs, ¬(x.1 = h.srcId.toNat ∧ x.2.1 = i.toNat)) ∧ t.regs = s.regs) ∧
      (s.orrHears h 0x41 (auditPageBody ((if last then 1 else 0) + (if broken then 2 else 0)) l) false → ∃ t, exec (.auditPage h last broken l) s = .next t ∧
        t.orr.pages.lookup h.srcId.toNat = some ((s.orr.pages.lookup h.srcId.toNat).getD [] ++ l.take 16) ∧ t.regs = s.regs)) ∧
    (∀ q : BitVec 64, s.orrHears h 0x40 (toLe 8 q.toNat) false →
      ∃ t, exec (.auditPull h q) s = .next t ∧ (t.snap 2).isOpen = true ∧ t.orr.pull = some (max q.toNat (t.snap 2).first) ∧ (t.snap 2).last = s.alm.auditLast) ∧
    ((s.orr.pull = none → exec .auditPageSend s = .next s) ∧
      (∀ q : Nat, s.orr.pull = some q →
        let l := (s.alm.audit.filter (fun r => q ≤ r.seq && r.seq ≤ (s.snap 2).last)).take 16
        ((s.snap 2).broken = true ∨ (s.snap 2).isOpen = false →
          ∃ t, exec .auditPageSend s = .next t ∧ t.orr.pull = none ∧ (t.snap 2).isOpen = false ∧ t.orr.sent = s.orr.sent + 1) ∧
        (∀ r : Rec, (s.snap 2).broken = false → (s.snap 2).isOpen = true → l.getLast? = some r →
          (r.seq < (s.snap 2).last → ∃ t, exec .auditPageSend s = .next t ∧ t.orr.pull = some (r.seq + 1) ∧ t.orr.sent = s.orr.sent + 1 ∧ t.alm = s.alm) ∧
          ((s.snap 2).last ≤ r.seq → ∃ t, exec .auditPageSend s = .next t ∧ t.orr.pull = none ∧ (t.snap 2).isOpen = false ∧ t.orr.sent = s.orr.sent + 1))))

/-- Time, windows and ports of the Orrery (R464, R468, R481): a Sync sets the offset and, by its size and run, the lock; without one the
lock is lost; the manager's Sync goes to each port that is up; a window is kept where the gate asks for it; a port's change is its bit.
What rests on the model's own choices, not on a rule: log 116 (a far offset saturates). -/
def Obligations.TimeWindowsAndPorts : Prop :=
  ∀ (s : State) (h : OrrHdr), s.fileOk →
    (∀ (o : Int) (sec : BitVec 48) (ns : Word),
      (s.orr.stage ≠ 0 → s.ptpSlave = true →
        ∃ t, exec (.ptpSync o sec ns) s = .next t ∧ t.rdInt Reg.orr_PTP_OFS 0 0 = max (-2 ^ 31) (min (2 ^ 31 - 1) o) ∧
          t.orr.ptp = (sec.toNat, ns.toNat, s.alm.us64.toNat) ∧ t.orr.ptpRun = (if o.natAbs ≤ 1000 then s.orr.ptpRun + 1 else 0) ∧
          (10000 < o.natAbs → t.rdB Reg.orr_PTP_LOCK 0 = false) ∧ (o.natAbs ≤ 1000 → 15 ≤ s.orr.ptpRun → t.rdB Reg.orr_PTP_LOCK 0 = true) ∧
          (1000 < o.natAbs → o.natAbs ≤ 10000 → t.rdB Reg.orr_PTP_LOCK 0 = s.rdB Reg.orr_PTP_LOCK 0) ∧ t.acts = s.acts ∧ t.out = s.out) ∧
      (s.orr.stage = 0 ∨ s.ptpSlave = false → exec (.ptpSync o sec ns) s = .next s)) ∧
    (∃ t, exec .ptpSyncTimeout s = .next t ∧ t.rdB Reg.orr_PTP_LOCK 0 = false ∧ t.orr.ptpRun = 0 ∧ t.out = s.out ∧ t.acts = s.acts) ∧
    ((s.isManager = true → ∃ t, exec .ptpSyncInterval s = .next t ∧ t.out = s.out ++ ([0, 1].filter (fun p => s.rdBit Reg.orr_PORT_UP 0 p)).map (fun p => Output.ptp p (s.rdN Reg.orr_PTP_DOMAIN 0)) ∧
        t.regs = s.regs ∧ t.orr = s.orr) ∧
      (s.isManager = false → exec .ptpSyncInterval s = .next s)) ∧
    (∀ (p : Fin 2) (up : Bool), ∃ t, exec (.orreryPortUpChange p up) s = .next t ∧ t.rdBit Reg.orr_PORT_UP 0 p = up ∧
      (∀ q : Fin 2, q ≠ p → t.rdBit Reg.orr_PORT_UP 0 q = s.rdBit Reg.orr_PORT_UP 0 q) ∧ t.orr = s.orr ∧ t.acts = s.acts ∧ t.out = s.out) ∧
    (∀ (m : BitVec 16) (a n : Word), s.orrHears h 0x50 (calWindowBody m.toNat a.toNat n.toNat) false →
      (s.rdB Reg.orr_CAL_GATE 0 = true → m.toNat = s.memberId →
        ∃ t, exec (.calWindow h m a n) s = .next t ∧
          t.orr.window = some (s.alm.us64.toNat + 1000 * a.toNat, s.alm.us64.toNat + 1000 * a.toNat + 1000 * n.toNat) ∧ t.regs = s.regs ∧ t.out = s.out) ∧
      (s.rdB Reg.orr_CAL_GATE 0 = false ∨ m.toNat ≠ s.memberId →
        ∃ t, exec (.calWindow h m a n) s = .next t ∧ t.orr.window = s.orr.window ∧ t.regs = s.regs ∧ t.out = s.out))
end

