-- ==== Sys2Proof/Laws/State.lean ====
section
/-!
SUPPORT. Laws/State.lean: what each update of one part of State leaves alone (one lemma per part, all by rfl), what a write of
a sparse array, a vector entry, a register or main memory does to a read, and that each keeps the canonical form.
-/

namespace Sys2Proof.Laws

open Sys2Proof.Machine

/-! ### One part changes, the others stay -/

@[simp] theorem wrAt_pending (s : State) (f : RegField) (i j : Nat) (v : Word) : (s.wrAt f i j v).pending = s.pending := rfl
@[simp] theorem wrAt_out (s : State) (f : RegField) (i j : Nat) (v : Word) : (s.wrAt f i j v).out = s.out := rfl
@[simp] theorem wrAt_fresh (s : State) (f : RegField) (i j : Nat) (v : Word) : (s.wrAt f i j v).fresh = s.fresh := rfl
@[simp] theorem wrAt_phase (s : State) (f : RegField) (i j : Nat) (v : Word) : (s.wrAt f i j v).phase = s.phase := rfl
@[simp] theorem wrAt_staged (s : State) (f : RegField) (i j : Nat) (v : Word) : (s.wrAt f i j v).staged = s.staged := rfl
@[simp] theorem wrAt_cfg (s : State) (f : RegField) (i j : Nat) (v : Word) : (s.wrAt f i j v).cfg = s.cfg := rfl
@[simp] theorem wrAt_mem (s : State) (f : RegField) (i j : Nat) (v : Word) : (s.wrAt f i j v).mem = s.mem := rfl
@[simp] theorem wrAt_gran (s : State) (f : RegField) (i j : Nat) (v : Word) : (s.wrAt f i j v).gran = s.gran := rfl
@[simp] theorem wrAt_engMem (s : State) (f : RegField) (i j : Nat) (v : Word) : (s.wrAt f i j v).engMem = s.engMem := rfl
@[simp] theorem wrAt_mbox (s : State) (f : RegField) (i j : Nat) (v : Word) : (s.wrAt f i j v).mbox = s.mbox := rfl
@[simp] theorem wrAt_locks (s : State) (f : RegField) (i j : Nat) (v : Word) : (s.wrAt f i j v).locks = s.locks := rfl
@[simp] theorem wrAt_wins (s : State) (f : RegField) (i j : Nat) (v : Word) : (s.wrAt f i j v).wins = s.wins := rfl
@[simp] theorem wrAt_viol (s : State) (f : RegField) (i j : Nat) (v : Word) : (s.wrAt f i j v).viol = s.viol := rfl
@[simp] theorem wrAt_husk (s : State) (f : RegField) (i j : Nat) (v : Word) : (s.wrAt f i j v).husk = s.husk := rfl
@[simp] theorem wrAt_ports (s : State) (f : RegField) (i j : Nat) (v : Word) : (s.wrAt f i j v).ports = s.ports := rfl
@[simp] theorem wrAt_acts (s : State) (f : RegField) (i j : Nat) (v : Word) : (s.wrAt f i j v).acts = s.acts := rfl
@[simp] theorem wrAt_loops (s : State) (f : RegField) (i j : Nat) (v : Word) : (s.wrAt f i j v).loops = s.loops := rfl
@[simp] theorem wrAt_flt (s : State) (f : RegField) (i j : Nat) (v : Word) : (s.wrAt f i j v).flt = s.flt := rfl
@[simp] theorem wrAt_held (s : State) (f : RegField) (i j : Nat) (v : Word) : (s.wrAt f i j v).held = s.held := rfl
@[simp] theorem wrAt_cache (s : State) (f : RegField) (i j : Nat) (v : Word) : (s.wrAt f i j v).cache = s.cache := rfl
@[simp] theorem wrAt_lanes (s : State) (f : RegField) (i j : Nat) (v : Word) : (s.wrAt f i j v).lanes = s.lanes := rfl
@[simp] theorem wrAt_pool (s : State) (f : RegField) (i j : Nat) (v : Word) : (s.wrAt f i j v).pool = s.pool := rfl
@[simp] theorem wrAt_host (s : State) (f : RegField) (i j : Nat) (v : Word) : (s.wrAt f i j v).host = s.host := rfl
@[simp] theorem wrAt_buf (s : State) (f : RegField) (i j : Nat) (v : Word) : (s.wrAt f i j v).buf = s.buf := rfl
@[simp] theorem wrAt_spin (s : State) (f : RegField) (i j : Nat) (v : Word) : (s.wrAt f i j v).spin = s.spin := rfl
@[simp] theorem wrAt_spinWait (s : State) (f : RegField) (i j : Nat) (v : Word) : (s.wrAt f i j v).spinWait = s.spinWait := rfl
@[simp] theorem wrAt_spinLast (s : State) (f : RegField) (i j : Nat) (v : Word) : (s.wrAt f i j v).spinLast = s.spinLast := rfl
@[simp] theorem wrAt_spinCount (s : State) (f : RegField) (i j : Nat) (v : Word) : (s.wrAt f i j v).spinCount = s.spinCount := rfl
@[simp] theorem wrAt_alm (s : State) (f : RegField) (i j : Nat) (v : Word) : (s.wrAt f i j v).alm = s.alm := rfl
@[simp] theorem wrAt_orr (s : State) (f : RegField) (i j : Nat) (v : Word) : (s.wrAt f i j v).orr = s.orr := rfl
@[simp] theorem wrAt_spn (s : State) (f : RegField) (i j : Nat) (v : Word) : (s.wrAt f i j v).spn = s.spn := rfl
@[simp] theorem wrAt_thm (s : State) (f : RegField) (i j : Nat) (v : Word) : (s.wrAt f i j v).thm = s.thm := rfl
@[simp] theorem wrAt_pins (s : State) (f : RegField) (i j : Nat) (v : Word) : (s.wrAt f i j v).pins = s.pins := rfl
@[simp] theorem wrAt_pwr (s : State) (f : RegField) (i j : Nat) (v : Word) : (s.wrAt f i j v).pwr = s.pwr := rfl
@[simp] theorem wrAt_safeN (s : State) (f : RegField) (i j : Nat) (v : Word) : (s.wrAt f i j v).safeN = s.safeN := rfl
@[simp] theorem wrAt_gated (s : State) (f : RegField) (i j : Nat) (v : Word) : (s.wrAt f i j v).gated = s.gated := rfl

@[simp] theorem updPort_pending (s : State) (h : Nat) (g : PortSt → PortSt) : (s.updPort h g).pending = s.pending := rfl
@[simp] theorem updPort_out (s : State) (h : Nat) (g : PortSt → PortSt) : (s.updPort h g).out = s.out := rfl
@[simp] theorem updPort_fresh (s : State) (h : Nat) (g : PortSt → PortSt) : (s.updPort h g).fresh = s.fresh := rfl
@[simp] theorem updPort_phase (s : State) (h : Nat) (g : PortSt → PortSt) : (s.updPort h g).phase = s.phase := rfl
@[simp] theorem updPort_regs (s : State) (h : Nat) (g : PortSt → PortSt) : (s.updPort h g).regs = s.regs := rfl
@[simp] theorem updPort_staged (s : State) (h : Nat) (g : PortSt → PortSt) : (s.updPort h g).staged = s.staged := rfl
@[simp] theorem updPort_cfg (s : State) (h : Nat) (g : PortSt → PortSt) : (s.updPort h g).cfg = s.cfg := rfl
@[simp] theorem updPort_mem (s : State) (h : Nat) (g : PortSt → PortSt) : (s.updPort h g).mem = s.mem := rfl
@[simp] theorem updPort_gran (s : State) (h : Nat) (g : PortSt → PortSt) : (s.updPort h g).gran = s.gran := rfl
@[simp] theorem updPort_engMem (s : State) (h : Nat) (g : PortSt → PortSt) : (s.updPort h g).engMem = s.engMem := rfl
@[simp] theorem updPort_mbox (s : State) (h : Nat) (g : PortSt → PortSt) : (s.updPort h g).mbox = s.mbox := rfl
@[simp] theorem updPort_locks (s : State) (h : Nat) (g : PortSt → PortSt) : (s.updPort h g).locks = s.locks := rfl
@[simp] theorem updPort_wins (s : State) (h : Nat) (g : PortSt → PortSt) : (s.updPort h g).wins = s.wins := rfl
@[simp] theorem updPort_viol (s : State) (h : Nat) (g : PortSt → PortSt) : (s.updPort h g).viol = s.viol := rfl
@[simp] theorem updPort_husk (s : State) (h : Nat) (g : PortSt → PortSt) : (s.updPort h g).husk = s.husk := rfl
@[simp] theorem updPort_acts (s : State) (h : Nat) (g : PortSt → PortSt) : (s.updPort h g).acts = s.acts := rfl
@[simp] theorem updPort_loops (s : State) (h : Nat) (g : PortSt → PortSt) : (s.updPort h g).loops = s.loops := rfl
@[simp] theorem updPort_flt (s : State) (h : Nat) (g : PortSt → PortSt) : (s.updPort h g).flt = s.flt := rfl
@[simp] theorem updPort_held (s : State) (h : Nat) (g : PortSt → PortSt) : (s.updPort h g).held = s.held := rfl
@[simp] theorem updPort_cache (s : State) (h : Nat) (g : PortSt → PortSt) : (s.updPort h g).cache = s.cache := rfl
@[simp] theorem updPort_lanes (s : State) (h : Nat) (g : PortSt → PortSt) : (s.updPort h g).lanes = s.lanes := rfl
@[simp] theorem updPort_pool (s : State) (h : Nat) (g : PortSt → PortSt) : (s.updPort h g).pool = s.pool := rfl
@[simp] theorem updPort_host (s : State) (h : Nat) (g : PortSt → PortSt) : (s.updPort h g).host = s.host := rfl
@[simp] theorem updPort_buf (s : State) (h : Nat) (g : PortSt → PortSt) : (s.updPort h g).buf = s.buf := rfl
@[simp] theorem updPort_spin (s : State) (h : Nat) (g : PortSt → PortSt) : (s.updPort h g).spin = s.spin := rfl
@[simp] theorem updPort_spinWait (s : State) (h : Nat) (g : PortSt → PortSt) : (s.updPort h g).spinWait = s.spinWait := rfl
@[simp] theorem updPort_spinLast (s : State) (h : Nat) (g : PortSt → PortSt) : (s.updPort h g).spinLast = s.spinLast := rfl
@[simp] theorem updPort_spinCount (s : State) (h : Nat) (g : PortSt → PortSt) : (s.updPort h g).spinCount = s.spinCount := rfl
@[simp] theorem updPort_alm (s : State) (h : Nat) (g : PortSt → PortSt) : (s.updPort h g).alm = s.alm := rfl
@[simp] theorem updPort_orr (s : State) (h : Nat) (g : PortSt → PortSt) : (s.updPort h g).orr = s.orr := rfl
@[simp] theorem updPort_spn (s : State) (h : Nat) (g : PortSt → PortSt) : (s.updPort h g).spn = s.spn := rfl
@[simp] theorem updPort_thm (s : State) (h : Nat) (g : PortSt → PortSt) : (s.updPort h g).thm = s.thm := rfl
@[simp] theorem updPort_pins (s : State) (h : Nat) (g : PortSt → PortSt) : (s.updPort h g).pins = s.pins := rfl
@[simp] theorem updPort_pwr (s : State) (h : Nat) (g : PortSt → PortSt) : (s.updPort h g).pwr = s.pwr := rfl
@[simp] theorem updPort_safeN (s : State) (h : Nat) (g : PortSt → PortSt) : (s.updPort h g).safeN = s.safeN := rfl
@[simp] theorem updPort_gated (s : State) (h : Nat) (g : PortSt → PortSt) : (s.updPort h g).gated = s.gated := rfl

@[simp] theorem updAct_pending (s : State) (n : Nat) (g : ActSt → ActSt) : (s.updAct n g).pending = s.pending := rfl
@[simp] theorem updAct_out (s : State) (n : Nat) (g : ActSt → ActSt) : (s.updAct n g).out = s.out := rfl
@[simp] theorem updAct_fresh (s : State) (n : Nat) (g : ActSt → ActSt) : (s.updAct n g).fresh = s.fresh := rfl
@[simp] theorem updAct_phase (s : State) (n : Nat) (g : ActSt → ActSt) : (s.updAct n g).phase = s.phase := rfl
@[simp] theorem updAct_regs (s : State) (n : Nat) (g : ActSt → ActSt) : (s.updAct n g).regs = s.regs := rfl
@[simp] theorem updAct_staged (s : State) (n : Nat) (g : ActSt → ActSt) : (s.updAct n g).staged = s.staged := rfl
@[simp] theorem updAct_cfg (s : State) (n : Nat) (g : ActSt → ActSt) : (s.updAct n g).cfg = s.cfg := rfl
@[simp] theorem updAct_mem (s : State) (n : Nat) (g : ActSt → ActSt) : (s.updAct n g).mem = s.mem := rfl
@[simp] theorem updAct_gran (s : State) (n : Nat) (g : ActSt → ActSt) : (s.updAct n g).gran = s.gran := rfl
@[simp] theorem updAct_engMem (s : State) (n : Nat) (g : ActSt → ActSt) : (s.updAct n g).engMem = s.engMem := rfl
@[simp] theorem updAct_mbox (s : State) (n : Nat) (g : ActSt → ActSt) : (s.updAct n g).mbox = s.mbox := rfl
@[simp] theorem updAct_locks (s : State) (n : Nat) (g : ActSt → ActSt) : (s.updAct n g).locks = s.locks := rfl
@[simp] theorem updAct_wins (s : State) (n : Nat) (g : ActSt → ActSt) : (s.updAct n g).wins = s.wins := rfl
@[simp] theorem updAct_viol (s : State) (n : Nat) (g : ActSt → ActSt) : (s.updAct n g).viol = s.viol := rfl
@[simp] theorem updAct_husk (s : State) (n : Nat) (g : ActSt → ActSt) : (s.updAct n g).husk = s.husk := rfl
@[simp] theorem updAct_ports (s : State) (n : Nat) (g : ActSt → ActSt) : (s.updAct n g).ports = s.ports := rfl
@[simp] theorem updAct_loops (s : State) (n : Nat) (g : ActSt → ActSt) : (s.updAct n g).loops = s.loops := rfl
@[simp] theorem updAct_flt (s : State) (n : Nat) (g : ActSt → ActSt) : (s.updAct n g).flt = s.flt := rfl
@[simp] theorem updAct_held (s : State) (n : Nat) (g : ActSt → ActSt) : (s.updAct n g).held = s.held := rfl
@[simp] theorem updAct_cache (s : State) (n : Nat) (g : ActSt → ActSt) : (s.updAct n g).cache = s.cache := rfl
@[simp] theorem updAct_lanes (s : State) (n : Nat) (g : ActSt → ActSt) : (s.updAct n g).lanes = s.lanes := rfl
@[simp] theorem updAct_pool (s : State) (n : Nat) (g : ActSt → ActSt) : (s.updAct n g).pool = s.pool := rfl
@[simp] theorem updAct_host (s : State) (n : Nat) (g : ActSt → ActSt) : (s.updAct n g).host = s.host := rfl
@[simp] theorem updAct_buf (s : State) (n : Nat) (g : ActSt → ActSt) : (s.updAct n g).buf = s.buf := rfl
@[simp] theorem updAct_spin (s : State) (n : Nat) (g : ActSt → ActSt) : (s.updAct n g).spin = s.spin := rfl
@[simp] theorem updAct_spinWait (s : State) (n : Nat) (g : ActSt → ActSt) : (s.updAct n g).spinWait = s.spinWait := rfl
@[simp] theorem updAct_spinLast (s : State) (n : Nat) (g : ActSt → ActSt) : (s.updAct n g).spinLast = s.spinLast := rfl
@[simp] theorem updAct_spinCount (s : State) (n : Nat) (g : ActSt → ActSt) : (s.updAct n g).spinCount = s.spinCount := rfl
@[simp] theorem updAct_alm (s : State) (n : Nat) (g : ActSt → ActSt) : (s.updAct n g).alm = s.alm := rfl
@[simp] theorem updAct_orr (s : State) (n : Nat) (g : ActSt → ActSt) : (s.updAct n g).orr = s.orr := rfl
@[simp] theorem updAct_spn (s : State) (n : Nat) (g : ActSt → ActSt) : (s.updAct n g).spn = s.spn := rfl
@[simp] theorem updAct_thm (s : State) (n : Nat) (g : ActSt → ActSt) : (s.updAct n g).thm = s.thm := rfl
@[simp] theorem updAct_pins (s : State) (n : Nat) (g : ActSt → ActSt) : (s.updAct n g).pins = s.pins := rfl
@[simp] theorem updAct_pwr (s : State) (n : Nat) (g : ActSt → ActSt) : (s.updAct n g).pwr = s.pwr := rfl
@[simp] theorem updAct_safeN (s : State) (n : Nat) (g : ActSt → ActSt) : (s.updAct n g).safeN = s.safeN := rfl
@[simp] theorem updAct_gated (s : State) (n : Nat) (g : ActSt → ActSt) : (s.updAct n g).gated = s.gated := rfl

@[simp] theorem updLoop_pending (s : State) (n : Nat) (g : LoopSt → LoopSt) : (s.updLoop n g).pending = s.pending := rfl
@[simp] theorem updLoop_out (s : State) (n : Nat) (g : LoopSt → LoopSt) : (s.updLoop n g).out = s.out := rfl
@[simp] theorem updLoop_fresh (s : State) (n : Nat) (g : LoopSt → LoopSt) : (s.updLoop n g).fresh = s.fresh := rfl
@[simp] theorem updLoop_phase (s : State) (n : Nat) (g : LoopSt → LoopSt) : (s.updLoop n g).phase = s.phase := rfl
@[simp] theorem updLoop_regs (s : State) (n : Nat) (g : LoopSt → LoopSt) : (s.updLoop n g).regs = s.regs := rfl
@[simp] theorem updLoop_staged (s : State) (n : Nat) (g : LoopSt → LoopSt) : (s.updLoop n g).staged = s.staged := rfl
@[simp] theorem updLoop_cfg (s : State) (n : Nat) (g : LoopSt → LoopSt) : (s.updLoop n g).cfg = s.cfg := rfl
@[simp] theorem updLoop_mem (s : State) (n : Nat) (g : LoopSt → LoopSt) : (s.updLoop n g).mem = s.mem := rfl
@[simp] theorem updLoop_gran (s : State) (n : Nat) (g : LoopSt → LoopSt) : (s.updLoop n g).gran = s.gran := rfl
@[simp] theorem updLoop_engMem (s : State) (n : Nat) (g : LoopSt → LoopSt) : (s.updLoop n g).engMem = s.engMem := rfl
@[simp] theorem updLoop_mbox (s : State) (n : Nat) (g : LoopSt → LoopSt) : (s.updLoop n g).mbox = s.mbox := rfl
@[simp] theorem updLoop_locks (s : State) (n : Nat) (g : LoopSt → LoopSt) : (s.updLoop n g).locks = s.locks := rfl
@[simp] theorem updLoop_wins (s : State) (n : Nat) (g : LoopSt → LoopSt) : (s.updLoop n g).wins = s.wins := rfl
@[simp] theorem updLoop_viol (s : State) (n : Nat) (g : LoopSt → LoopSt) : (s.updLoop n g).viol = s.viol := rfl
@[simp] theorem updLoop_husk (s : State) (n : Nat) (g : LoopSt → LoopSt) : (s.updLoop n g).husk = s.husk := rfl
@[simp] theorem updLoop_ports (s : State) (n : Nat) (g : LoopSt → LoopSt) : (s.updLoop n g).ports = s.ports := rfl
@[simp] theorem updLoop_acts (s : State) (n : Nat) (g : LoopSt → LoopSt) : (s.updLoop n g).acts = s.acts := rfl
@[simp] theorem updLoop_flt (s : State) (n : Nat) (g : LoopSt → LoopSt) : (s.updLoop n g).flt = s.flt := rfl
@[simp] theorem updLoop_held (s : State) (n : Nat) (g : LoopSt → LoopSt) : (s.updLoop n g).held = s.held := rfl
@[simp] theorem updLoop_cache (s : State) (n : Nat) (g : LoopSt → LoopSt) : (s.updLoop n g).cache = s.cache := rfl
@[simp] theorem updLoop_lanes (s : State) (n : Nat) (g : LoopSt → LoopSt) : (s.updLoop n g).lanes = s.lanes := rfl
@[simp] theorem updLoop_pool (s : State) (n : Nat) (g : LoopSt → LoopSt) : (s.updLoop n g).pool = s.pool := rfl
@[simp] theorem updLoop_host (s : State) (n : Nat) (g : LoopSt → LoopSt) : (s.updLoop n g).host = s.host := rfl
@[simp] theorem updLoop_buf (s : State) (n : Nat) (g : LoopSt → LoopSt) : (s.updLoop n g).buf = s.buf := rfl
@[simp] theorem updLoop_spin (s : State) (n : Nat) (g : LoopSt → LoopSt) : (s.updLoop n g).spin = s.spin := rfl
@[simp] theorem updLoop_spinWait (s : State) (n : Nat) (g : LoopSt → LoopSt) : (s.updLoop n g).spinWait = s.spinWait := rfl
@[simp] theorem updLoop_spinLast (s : State) (n : Nat) (g : LoopSt → LoopSt) : (s.updLoop n g).spinLast = s.spinLast := rfl
@[simp] theorem updLoop_spinCount (s : State) (n : Nat) (g : LoopSt → LoopSt) : (s.updLoop n g).spinCount = s.spinCount := rfl
@[simp] theorem updLoop_alm (s : State) (n : Nat) (g : LoopSt → LoopSt) : (s.updLoop n g).alm = s.alm := rfl
@[simp] theorem updLoop_orr (s : State) (n : Nat) (g : LoopSt → LoopSt) : (s.updLoop n g).orr = s.orr := rfl
@[simp] theorem updLoop_spn (s : State) (n : Nat) (g : LoopSt → LoopSt) : (s.updLoop n g).spn = s.spn := rfl
@[simp] theorem updLoop_thm (s : State) (n : Nat) (g : LoopSt → LoopSt) : (s.updLoop n g).thm = s.thm := rfl
@[simp] theorem updLoop_pins (s : State) (n : Nat) (g : LoopSt → LoopSt) : (s.updLoop n g).pins = s.pins := rfl
@[simp] theorem updLoop_pwr (s : State) (n : Nat) (g : LoopSt → LoopSt) : (s.updLoop n g).pwr = s.pwr := rfl
@[simp] theorem updLoop_safeN (s : State) (n : Nat) (g : LoopSt → LoopSt) : (s.updLoop n g).safeN = s.safeN := rfl
@[simp] theorem updLoop_gated (s : State) (n : Nat) (g : LoopSt → LoopSt) : (s.updLoop n g).gated = s.gated := rfl

@[simp] theorem updSpin_pending (s : State) (h : Nat) (g : SpinSt → SpinSt) : (s.updSpin h g).pending = s.pending := rfl
@[simp] theorem updSpin_out (s : State) (h : Nat) (g : SpinSt → SpinSt) : (s.updSpin h g).out = s.out := rfl
@[simp] theorem updSpin_fresh (s : State) (h : Nat) (g : SpinSt → SpinSt) : (s.updSpin h g).fresh = s.fresh := rfl
@[simp] theorem updSpin_phase (s : State) (h : Nat) (g : SpinSt → SpinSt) : (s.updSpin h g).phase = s.phase := rfl
@[simp] theorem updSpin_regs (s : State) (h : Nat) (g : SpinSt → SpinSt) : (s.updSpin h g).regs = s.regs := rfl
@[simp] theorem updSpin_staged (s : State) (h : Nat) (g : SpinSt → SpinSt) : (s.updSpin h g).staged = s.staged := rfl
@[simp] theorem updSpin_cfg (s : State) (h : Nat) (g : SpinSt → SpinSt) : (s.updSpin h g).cfg = s.cfg := rfl
@[simp] theorem updSpin_mem (s : State) (h : Nat) (g : SpinSt → SpinSt) : (s.updSpin h g).mem = s.mem := rfl
@[simp] theorem updSpin_gran (s : State) (h : Nat) (g : SpinSt → SpinSt) : (s.updSpin h g).gran = s.gran := rfl
@[simp] theorem updSpin_engMem (s : State) (h : Nat) (g : SpinSt → SpinSt) : (s.updSpin h g).engMem = s.engMem := rfl
@[simp] theorem updSpin_mbox (s : State) (h : Nat) (g : SpinSt → SpinSt) : (s.updSpin h g).mbox = s.mbox := rfl
@[simp] theorem updSpin_locks (s : State) (h : Nat) (g : SpinSt → SpinSt) : (s.updSpin h g).locks = s.locks := rfl
@[simp] theorem updSpin_wins (s : State) (h : Nat) (g : SpinSt → SpinSt) : (s.updSpin h g).wins = s.wins := rfl
@[simp] theorem updSpin_viol (s : State) (h : Nat) (g : SpinSt → SpinSt) : (s.updSpin h g).viol = s.viol := rfl
@[simp] theorem updSpin_husk (s : State) (h : Nat) (g : SpinSt → SpinSt) : (s.updSpin h g).husk = s.husk := rfl
@[simp] theorem updSpin_ports (s : State) (h : Nat) (g : SpinSt → SpinSt) : (s.updSpin h g).ports = s.ports := rfl
@[simp] theorem updSpin_acts (s : State) (h : Nat) (g : SpinSt → SpinSt) : (s.updSpin h g).acts = s.acts := rfl
@[simp] theorem updSpin_loops (s : State) (h : Nat) (g : SpinSt → SpinSt) : (s.updSpin h g).loops = s.loops := rfl
@[simp] theorem updSpin_flt (s : State) (h : Nat) (g : SpinSt → SpinSt) : (s.updSpin h g).flt = s.flt := rfl
@[simp] theorem updSpin_held (s : State) (h : Nat) (g : SpinSt → SpinSt) : (s.updSpin h g).held = s.held := rfl
@[simp] theorem updSpin_cache (s : State) (h : Nat) (g : SpinSt → SpinSt) : (s.updSpin h g).cache = s.cache := rfl
@[simp] theorem updSpin_lanes (s : State) (h : Nat) (g : SpinSt → SpinSt) : (s.updSpin h g).lanes = s.lanes := rfl
@[simp] theorem updSpin_pool (s : State) (h : Nat) (g : SpinSt → SpinSt) : (s.updSpin h g).pool = s.pool := rfl
@[simp] theorem updSpin_host (s : State) (h : Nat) (g : SpinSt → SpinSt) : (s.updSpin h g).host = s.host := rfl
@[simp] theorem updSpin_buf (s : State) (h : Nat) (g : SpinSt → SpinSt) : (s.updSpin h g).buf = s.buf := rfl
@[simp] theorem updSpin_spin (s : State) (h : Nat) (g : SpinSt → SpinSt) : (s.updSpin h g).spin = s.spin := rfl
@[simp] theorem updSpin_spinWait (s : State) (h : Nat) (g : SpinSt → SpinSt) : (s.updSpin h g).spinWait = s.spinWait := rfl
@[simp] theorem updSpin_spinLast (s : State) (h : Nat) (g : SpinSt → SpinSt) : (s.updSpin h g).spinLast = s.spinLast := rfl
@[simp] theorem updSpin_spinCount (s : State) (h : Nat) (g : SpinSt → SpinSt) : (s.updSpin h g).spinCount = s.spinCount := rfl
@[simp] theorem updSpin_alm (s : State) (h : Nat) (g : SpinSt → SpinSt) : (s.updSpin h g).alm = s.alm := rfl
@[simp] theorem updSpin_orr (s : State) (h : Nat) (g : SpinSt → SpinSt) : (s.updSpin h g).orr = s.orr := rfl
@[simp] theorem updSpin_thm (s : State) (h : Nat) (g : SpinSt → SpinSt) : (s.updSpin h g).thm = s.thm := rfl
@[simp] theorem updSpin_pins (s : State) (h : Nat) (g : SpinSt → SpinSt) : (s.updSpin h g).pins = s.pins := rfl
@[simp] theorem updSpin_pwr (s : State) (h : Nat) (g : SpinSt → SpinSt) : (s.updSpin h g).pwr = s.pwr := rfl
@[simp] theorem updSpin_safeN (s : State) (h : Nat) (g : SpinSt → SpinSt) : (s.updSpin h g).safeN = s.safeN := rfl
@[simp] theorem updSpin_gated (s : State) (h : Nat) (g : SpinSt → SpinSt) : (s.updSpin h g).gated = s.gated := rfl

@[simp] theorem updMbox_pending (s : State) (c d : Nat) (g : Mbox → Mbox) : (s.updMbox c d g).pending = s.pending := rfl
@[simp] theorem updMbox_out (s : State) (c d : Nat) (g : Mbox → Mbox) : (s.updMbox c d g).out = s.out := rfl
@[simp] theorem updMbox_fresh (s : State) (c d : Nat) (g : Mbox → Mbox) : (s.updMbox c d g).fresh = s.fresh := rfl
@[simp] theorem updMbox_phase (s : State) (c d : Nat) (g : Mbox → Mbox) : (s.updMbox c d g).phase = s.phase := rfl
@[simp] theorem updMbox_regs (s : State) (c d : Nat) (g : Mbox → Mbox) : (s.updMbox c d g).regs = s.regs := rfl
@[simp] theorem updMbox_staged (s : State) (c d : Nat) (g : Mbox → Mbox) : (s.updMbox c d g).staged = s.staged := rfl
@[simp] theorem updMbox_cfg (s : State) (c d : Nat) (g : Mbox → Mbox) : (s.updMbox c d g).cfg = s.cfg := rfl
@[simp] theorem updMbox_mem (s : State) (c d : Nat) (g : Mbox → Mbox) : (s.updMbox c d g).mem = s.mem := rfl
@[simp] theorem updMbox_gran (s : State) (c d : Nat) (g : Mbox → Mbox) : (s.updMbox c d g).gran = s.gran := rfl
@[simp] theorem updMbox_engMem (s : State) (c d : Nat) (g : Mbox → Mbox) : (s.updMbox c d g).engMem = s.engMem := rfl
@[simp] theorem updMbox_locks (s : State) (c d : Nat) (g : Mbox → Mbox) : (s.updMbox c d g).locks = s.locks := rfl
@[simp] theorem updMbox_wins (s : State) (c d : Nat) (g : Mbox → Mbox) : (s.updMbox c d g).wins = s.wins := rfl
@[simp] theorem updMbox_viol (s : State) (c d : Nat) (g : Mbox → Mbox) : (s.updMbox c d g).viol = s.viol := rfl
@[simp] theorem updMbox_husk (s : State) (c d : Nat) (g : Mbox → Mbox) : (s.updMbox c d g).husk = s.husk := rfl
@[simp] theorem updMbox_ports (s : State) (c d : Nat) (g : Mbox → Mbox) : (s.updMbox c d g).ports = s.ports := rfl
@[simp] theorem updMbox_acts (s : State) (c d : Nat) (g : Mbox → Mbox) : (s.updMbox c d g).acts = s.acts := rfl
@[simp] theorem updMbox_loops (s : State) (c d : Nat) (g : Mbox → Mbox) : (s.updMbox c d g).loops = s.loops := rfl
@[simp] theorem updMbox_flt (s : State) (c d : Nat) (g : Mbox → Mbox) : (s.updMbox c d g).flt = s.flt := rfl
@[simp] theorem updMbox_held (s : State) (c d : Nat) (g : Mbox → Mbox) : (s.updMbox c d g).held = s.held := rfl
@[simp] theorem updMbox_cache (s : State) (c d : Nat) (g : Mbox → Mbox) : (s.updMbox c d g).cache = s.cache := rfl
@[simp] theorem updMbox_lanes (s : State) (c d : Nat) (g : Mbox → Mbox) : (s.updMbox c d g).lanes = s.lanes := rfl
@[simp] theorem updMbox_pool (s : State) (c d : Nat) (g : Mbox → Mbox) : (s.updMbox c d g).pool = s.pool := rfl
@[simp] theorem updMbox_host (s : State) (c d : Nat) (g : Mbox → Mbox) : (s.updMbox c d g).host = s.host := rfl
@[simp] theorem updMbox_buf (s : State) (c d : Nat) (g : Mbox → Mbox) : (s.updMbox c d g).buf = s.buf := rfl
@[simp] theorem updMbox_spin (s : State) (c d : Nat) (g : Mbox → Mbox) : (s.updMbox c d g).spin = s.spin := rfl
@[simp] theorem updMbox_spinWait (s : State) (c d : Nat) (g : Mbox → Mbox) : (s.updMbox c d g).spinWait = s.spinWait := rfl
@[simp] theorem updMbox_spinLast (s : State) (c d : Nat) (g : Mbox → Mbox) : (s.updMbox c d g).spinLast = s.spinLast := rfl
@[simp] theorem updMbox_spinCount (s : State) (c d : Nat) (g : Mbox → Mbox) : (s.updMbox c d g).spinCount = s.spinCount := rfl
@[simp] theorem updMbox_alm (s : State) (c d : Nat) (g : Mbox → Mbox) : (s.updMbox c d g).alm = s.alm := rfl
@[simp] theorem updMbox_orr (s : State) (c d : Nat) (g : Mbox → Mbox) : (s.updMbox c d g).orr = s.orr := rfl
@[simp] theorem updMbox_spn (s : State) (c d : Nat) (g : Mbox → Mbox) : (s.updMbox c d g).spn = s.spn := rfl
@[simp] theorem updMbox_thm (s : State) (c d : Nat) (g : Mbox → Mbox) : (s.updMbox c d g).thm = s.thm := rfl
@[simp] theorem updMbox_pins (s : State) (c d : Nat) (g : Mbox → Mbox) : (s.updMbox c d g).pins = s.pins := rfl
@[simp] theorem updMbox_pwr (s : State) (c d : Nat) (g : Mbox → Mbox) : (s.updMbox c d g).pwr = s.pwr := rfl
@[simp] theorem updMbox_safeN (s : State) (c d : Nat) (g : Mbox → Mbox) : (s.updMbox c d g).safeN = s.safeN := rfl
@[simp] theorem updMbox_gated (s : State) (c d : Nat) (g : Mbox → Mbox) : (s.updMbox c d g).gated = s.gated := rfl

@[simp] theorem updHusk_pending (s : State) (g : Husk → Husk) : (s.updHusk g).pending = s.pending := rfl
@[simp] theorem updHusk_out (s : State) (g : Husk → Husk) : (s.updHusk g).out = s.out := rfl
@[simp] theorem updHusk_fresh (s : State) (g : Husk → Husk) : (s.updHusk g).fresh = s.fresh := rfl
@[simp] theorem updHusk_phase (s : State) (g : Husk → Husk) : (s.updHusk g).phase = s.phase := rfl
@[simp] theorem updHusk_regs (s : State) (g : Husk → Husk) : (s.updHusk g).regs = s.regs := rfl
@[simp] theorem updHusk_staged (s : State) (g : Husk → Husk) : (s.updHusk g).staged = s.staged := rfl
@[simp] theorem updHusk_cfg (s : State) (g : Husk → Husk) : (s.updHusk g).cfg = s.cfg := rfl
@[simp] theorem updHusk_mem (s : State) (g : Husk → Husk) : (s.updHusk g).mem = s.mem := rfl
@[simp] theorem updHusk_gran (s : State) (g : Husk → Husk) : (s.updHusk g).gran = s.gran := rfl
@[simp] theorem updHusk_engMem (s : State) (g : Husk → Husk) : (s.updHusk g).engMem = s.engMem := rfl
@[simp] theorem updHusk_mbox (s : State) (g : Husk → Husk) : (s.updHusk g).mbox = s.mbox := rfl
@[simp] theorem updHusk_locks (s : State) (g : Husk → Husk) : (s.updHusk g).locks = s.locks := rfl
@[simp] theorem updHusk_wins (s : State) (g : Husk → Husk) : (s.updHusk g).wins = s.wins := rfl
@[simp] theorem updHusk_viol (s : State) (g : Husk → Husk) : (s.updHusk g).viol = s.viol := rfl
@[simp] theorem updHusk_ports (s : State) (g : Husk → Husk) : (s.updHusk g).ports = s.ports := rfl
@[simp] theorem updHusk_acts (s : State) (g : Husk → Husk) : (s.updHusk g).acts = s.acts := rfl
@[simp] theorem updHusk_loops (s : State) (g : Husk → Husk) : (s.updHusk g).loops = s.loops := rfl
@[simp] theorem updHusk_flt (s : State) (g : Husk → Husk) : (s.updHusk g).flt = s.flt := rfl
@[simp] theorem updHusk_held (s : State) (g : Husk → Husk) : (s.updHusk g).held = s.held := rfl
@[simp] theorem updHusk_cache (s : State) (g : Husk → Husk) : (s.updHusk g).cache = s.cache := rfl
@[simp] theorem updHusk_lanes (s : State) (g : Husk → Husk) : (s.updHusk g).lanes = s.lanes := rfl
@[simp] theorem updHusk_pool (s : State) (g : Husk → Husk) : (s.updHusk g).pool = s.pool := rfl
@[simp] theorem updHusk_host (s : State) (g : Husk → Husk) : (s.updHusk g).host = s.host := rfl
@[simp] theorem updHusk_buf (s : State) (g : Husk → Husk) : (s.updHusk g).buf = s.buf := rfl
@[simp] theorem updHusk_spin (s : State) (g : Husk → Husk) : (s.updHusk g).spin = s.spin := rfl
@[simp] theorem updHusk_spinWait (s : State) (g : Husk → Husk) : (s.updHusk g).spinWait = s.spinWait := rfl
@[simp] theorem updHusk_spinLast (s : State) (g : Husk → Husk) : (s.updHusk g).spinLast = s.spinLast := rfl
@[simp] theorem updHusk_spinCount (s : State) (g : Husk → Husk) : (s.updHusk g).spinCount = s.spinCount := rfl
@[simp] theorem updHusk_alm (s : State) (g : Husk → Husk) : (s.updHusk g).alm = s.alm := rfl
@[simp] theorem updHusk_orr (s : State) (g : Husk → Husk) : (s.updHusk g).orr = s.orr := rfl
@[simp] theorem updHusk_spn (s : State) (g : Husk → Husk) : (s.updHusk g).spn = s.spn := rfl
@[simp] theorem updHusk_thm (s : State) (g : Husk → Husk) : (s.updHusk g).thm = s.thm := rfl
@[simp] theorem updHusk_pins (s : State) (g : Husk → Husk) : (s.updHusk g).pins = s.pins := rfl
@[simp] theorem updHusk_pwr (s : State) (g : Husk → Husk) : (s.updHusk g).pwr = s.pwr := rfl
@[simp] theorem updHusk_safeN (s : State) (g : Husk → Husk) : (s.updHusk g).safeN = s.safeN := rfl
@[simp] theorem updHusk_gated (s : State) (g : Husk → Husk) : (s.updHusk g).gated = s.gated := rfl

@[simp] theorem updFlt_pending (s : State) (g : FaultSt → FaultSt) : (s.updFlt g).pending = s.pending := rfl
@[simp] theorem updFlt_out (s : State) (g : FaultSt → FaultSt) : (s.updFlt g).out = s.out := rfl
@[simp] theorem updFlt_fresh (s : State) (g : FaultSt → FaultSt) : (s.updFlt g).fresh = s.fresh := rfl
@[simp] theorem updFlt_phase (s : State) (g : FaultSt → FaultSt) : (s.updFlt g).phase = s.phase := rfl
@[simp] theorem updFlt_regs (s : State) (g : FaultSt → FaultSt) : (s.updFlt g).regs = s.regs := rfl
@[simp] theorem updFlt_staged (s : State) (g : FaultSt → FaultSt) : (s.updFlt g).staged = s.staged := rfl
@[simp] theorem updFlt_cfg (s : State) (g : FaultSt → FaultSt) : (s.updFlt g).cfg = s.cfg := rfl
@[simp] theorem updFlt_mem (s : State) (g : FaultSt → FaultSt) : (s.updFlt g).mem = s.mem := rfl
@[simp] theorem updFlt_gran (s : State) (g : FaultSt → FaultSt) : (s.updFlt g).gran = s.gran := rfl
@[simp] theorem updFlt_engMem (s : State) (g : FaultSt → FaultSt) : (s.updFlt g).engMem = s.engMem := rfl
@[simp] theorem updFlt_mbox (s : State) (g : FaultSt → FaultSt) : (s.updFlt g).mbox = s.mbox := rfl
@[simp] theorem updFlt_locks (s : State) (g : FaultSt → FaultSt) : (s.updFlt g).locks = s.locks := rfl
@[simp] theorem updFlt_wins (s : State) (g : FaultSt → FaultSt) : (s.updFlt g).wins = s.wins := rfl
@[simp] theorem updFlt_viol (s : State) (g : FaultSt → FaultSt) : (s.updFlt g).viol = s.viol := rfl
@[simp] theorem updFlt_husk (s : State) (g : FaultSt → FaultSt) : (s.updFlt g).husk = s.husk := rfl
@[simp] theorem updFlt_ports (s : State) (g : FaultSt → FaultSt) : (s.updFlt g).ports = s.ports := rfl
@[simp] theorem updFlt_acts (s : State) (g : FaultSt → FaultSt) : (s.updFlt g).acts = s.acts := rfl
@[simp] theorem updFlt_loops (s : State) (g : FaultSt → FaultSt) : (s.updFlt g).loops = s.loops := rfl
@[simp] theorem updFlt_held (s : State) (g : FaultSt → FaultSt) : (s.updFlt g).held = s.held := rfl
@[simp] theorem updFlt_cache (s : State) (g : FaultSt → FaultSt) : (s.updFlt g).cache = s.cache := rfl
@[simp] theorem updFlt_lanes (s : State) (g : FaultSt → FaultSt) : (s.updFlt g).lanes = s.lanes := rfl
@[simp] theorem updFlt_pool (s : State) (g : FaultSt → FaultSt) : (s.updFlt g).pool = s.pool := rfl
@[simp] theorem updFlt_host (s : State) (g : FaultSt → FaultSt) : (s.updFlt g).host = s.host := rfl
@[simp] theorem updFlt_buf (s : State) (g : FaultSt → FaultSt) : (s.updFlt g).buf = s.buf := rfl
@[simp] theorem updFlt_spin (s : State) (g : FaultSt → FaultSt) : (s.updFlt g).spin = s.spin := rfl
@[simp] theorem updFlt_spinWait (s : State) (g : FaultSt → FaultSt) : (s.updFlt g).spinWait = s.spinWait := rfl
@[simp] theorem updFlt_spinLast (s : State) (g : FaultSt → FaultSt) : (s.updFlt g).spinLast = s.spinLast := rfl
@[simp] theorem updFlt_spinCount (s : State) (g : FaultSt → FaultSt) : (s.updFlt g).spinCount = s.spinCount := rfl
@[simp] theorem updFlt_alm (s : State) (g : FaultSt → FaultSt) : (s.updFlt g).alm = s.alm := rfl
@[simp] theorem updFlt_orr (s : State) (g : FaultSt → FaultSt) : (s.updFlt g).orr = s.orr := rfl
@[simp] theorem updFlt_spn (s : State) (g : FaultSt → FaultSt) : (s.updFlt g).spn = s.spn := rfl
@[simp] theorem updFlt_thm (s : State) (g : FaultSt → FaultSt) : (s.updFlt g).thm = s.thm := rfl
@[simp] theorem updFlt_pins (s : State) (g : FaultSt → FaultSt) : (s.updFlt g).pins = s.pins := rfl
@[simp] theorem updFlt_pwr (s : State) (g : FaultSt → FaultSt) : (s.updFlt g).pwr = s.pwr := rfl
@[simp] theorem updFlt_safeN (s : State) (g : FaultSt → FaultSt) : (s.updFlt g).safeN = s.safeN := rfl
@[simp] theorem updFlt_gated (s : State) (g : FaultSt → FaultSt) : (s.updFlt g).gated = s.gated := rfl

@[simp] theorem updThm_pending (s : State) (g : ThermSt → ThermSt) : (s.updThm g).pending = s.pending := rfl
@[simp] theorem updThm_out (s : State) (g : ThermSt → ThermSt) : (s.updThm g).out = s.out := rfl
@[simp] theorem updThm_fresh (s : State) (g : ThermSt → ThermSt) : (s.updThm g).fresh = s.fresh := rfl
@[simp] theorem updThm_phase (s : State) (g : ThermSt → ThermSt) : (s.updThm g).phase = s.phase := rfl
@[simp] theorem updThm_regs (s : State) (g : ThermSt → ThermSt) : (s.updThm g).regs = s.regs := rfl
@[simp] theorem updThm_staged (s : State) (g : ThermSt → ThermSt) : (s.updThm g).staged = s.staged := rfl
@[simp] theorem updThm_cfg (s : State) (g : ThermSt → ThermSt) : (s.updThm g).cfg = s.cfg := rfl
@[simp] theorem updThm_mem (s : State) (g : ThermSt → ThermSt) : (s.updThm g).mem = s.mem := rfl
@[simp] theorem updThm_gran (s : State) (g : ThermSt → ThermSt) : (s.updThm g).gran = s.gran := rfl
@[simp] theorem updThm_engMem (s : State) (g : ThermSt → ThermSt) : (s.updThm g).engMem = s.engMem := rfl
@[simp] theorem updThm_mbox (s : State) (g : ThermSt → ThermSt) : (s.updThm g).mbox = s.mbox := rfl
@[simp] theorem updThm_locks (s : State) (g : ThermSt → ThermSt) : (s.updThm g).locks = s.locks := rfl
@[simp] theorem updThm_wins (s : State) (g : ThermSt → ThermSt) : (s.updThm g).wins = s.wins := rfl
@[simp] theorem updThm_viol (s : State) (g : ThermSt → ThermSt) : (s.updThm g).viol = s.viol := rfl
@[simp] theorem updThm_husk (s : State) (g : ThermSt → ThermSt) : (s.updThm g).husk = s.husk := rfl
@[simp] theorem updThm_ports (s : State) (g : ThermSt → ThermSt) : (s.updThm g).ports = s.ports := rfl
@[simp] theorem updThm_acts (s : State) (g : ThermSt → ThermSt) : (s.updThm g).acts = s.acts := rfl
@[simp] theorem updThm_loops (s : State) (g : ThermSt → ThermSt) : (s.updThm g).loops = s.loops := rfl
@[simp] theorem updThm_flt (s : State) (g : ThermSt → ThermSt) : (s.updThm g).flt = s.flt := rfl
@[simp] theorem updThm_held (s : State) (g : ThermSt → ThermSt) : (s.updThm g).held = s.held := rfl
@[simp] theorem updThm_cache (s : State) (g : ThermSt → ThermSt) : (s.updThm g).cache = s.cache := rfl
@[simp] theorem updThm_lanes (s : State) (g : ThermSt → ThermSt) : (s.updThm g).lanes = s.lanes := rfl
@[simp] theorem updThm_pool (s : State) (g : ThermSt → ThermSt) : (s.updThm g).pool = s.pool := rfl
@[simp] theorem updThm_host (s : State) (g : ThermSt → ThermSt) : (s.updThm g).host = s.host := rfl
@[simp] theorem updThm_buf (s : State) (g : ThermSt → ThermSt) : (s.updThm g).buf = s.buf := rfl
@[simp] theorem updThm_spin (s : State) (g : ThermSt → ThermSt) : (s.updThm g).spin = s.spin := rfl
@[simp] theorem updThm_spinWait (s : State) (g : ThermSt → ThermSt) : (s.updThm g).spinWait = s.spinWait := rfl
@[simp] theorem updThm_spinLast (s : State) (g : ThermSt → ThermSt) : (s.updThm g).spinLast = s.spinLast := rfl
@[simp] theorem updThm_spinCount (s : State) (g : ThermSt → ThermSt) : (s.updThm g).spinCount = s.spinCount := rfl
@[simp] theorem updThm_alm (s : State) (g : ThermSt → ThermSt) : (s.updThm g).alm = s.alm := rfl
@[simp] theorem updThm_orr (s : State) (g : ThermSt → ThermSt) : (s.updThm g).orr = s.orr := rfl
@[simp] theorem updThm_spn (s : State) (g : ThermSt → ThermSt) : (s.updThm g).spn = s.spn := rfl
@[simp] theorem updThm_pins (s : State) (g : ThermSt → ThermSt) : (s.updThm g).pins = s.pins := rfl
@[simp] theorem updThm_pwr (s : State) (g : ThermSt → ThermSt) : (s.updThm g).pwr = s.pwr := rfl
@[simp] theorem updThm_safeN (s : State) (g : ThermSt → ThermSt) : (s.updThm g).safeN = s.safeN := rfl
@[simp] theorem updThm_gated (s : State) (g : ThermSt → ThermSt) : (s.updThm g).gated = s.gated := rfl

@[simp] theorem updAlm_pending (s : State) (g : AlmSt → AlmSt) : (s.updAlm g).pending = s.pending := rfl
@[simp] theorem updAlm_out (s : State) (g : AlmSt → AlmSt) : (s.updAlm g).out = s.out := rfl
@[simp] theorem updAlm_fresh (s : State) (g : AlmSt → AlmSt) : (s.updAlm g).fresh = s.fresh := rfl
@[simp] theorem updAlm_phase (s : State) (g : AlmSt → AlmSt) : (s.updAlm g).phase = s.phase := rfl
@[simp] theorem updAlm_regs (s : State) (g : AlmSt → AlmSt) : (s.updAlm g).regs = s.regs := rfl
@[simp] theorem updAlm_staged (s : State) (g : AlmSt → AlmSt) : (s.updAlm g).staged = s.staged := rfl
@[simp] theorem updAlm_cfg (s : State) (g : AlmSt → AlmSt) : (s.updAlm g).cfg = s.cfg := rfl
@[simp] theorem updAlm_mem (s : State) (g : AlmSt → AlmSt) : (s.updAlm g).mem = s.mem := rfl
@[simp] theorem updAlm_gran (s : State) (g : AlmSt → AlmSt) : (s.updAlm g).gran = s.gran := rfl
@[simp] theorem updAlm_engMem (s : State) (g : AlmSt → AlmSt) : (s.updAlm g).engMem = s.engMem := rfl
@[simp] theorem updAlm_mbox (s : State) (g : AlmSt → AlmSt) : (s.updAlm g).mbox = s.mbox := rfl
@[simp] theorem updAlm_locks (s : State) (g : AlmSt → AlmSt) : (s.updAlm g).locks = s.locks := rfl
@[simp] theorem updAlm_wins (s : State) (g : AlmSt → AlmSt) : (s.updAlm g).wins = s.wins := rfl
@[simp] theorem updAlm_viol (s : State) (g : AlmSt → AlmSt) : (s.updAlm g).viol = s.viol := rfl
@[simp] theorem updAlm_husk (s : State) (g : AlmSt → AlmSt) : (s.updAlm g).husk = s.husk := rfl
@[simp] theorem updAlm_ports (s : State) (g : AlmSt → AlmSt) : (s.updAlm g).ports = s.ports := rfl
@[simp] theorem updAlm_acts (s : State) (g : AlmSt → AlmSt) : (s.updAlm g).acts = s.acts := rfl
@[simp] theorem updAlm_loops (s : State) (g : AlmSt → AlmSt) : (s.updAlm g).loops = s.loops := rfl
@[simp] theorem updAlm_flt (s : State) (g : AlmSt → AlmSt) : (s.updAlm g).flt = s.flt := rfl
@[simp] theorem updAlm_held (s : State) (g : AlmSt → AlmSt) : (s.updAlm g).held = s.held := rfl
@[simp] theorem updAlm_cache (s : State) (g : AlmSt → AlmSt) : (s.updAlm g).cache = s.cache := rfl
@[simp] theorem updAlm_lanes (s : State) (g : AlmSt → AlmSt) : (s.updAlm g).lanes = s.lanes := rfl
@[simp] theorem updAlm_pool (s : State) (g : AlmSt → AlmSt) : (s.updAlm g).pool = s.pool := rfl
@[simp] theorem updAlm_host (s : State) (g : AlmSt → AlmSt) : (s.updAlm g).host = s.host := rfl
@[simp] theorem updAlm_buf (s : State) (g : AlmSt → AlmSt) : (s.updAlm g).buf = s.buf := rfl
@[simp] theorem updAlm_spin (s : State) (g : AlmSt → AlmSt) : (s.updAlm g).spin = s.spin := rfl
@[simp] theorem updAlm_spinWait (s : State) (g : AlmSt → AlmSt) : (s.updAlm g).spinWait = s.spinWait := rfl
@[simp] theorem updAlm_spinLast (s : State) (g : AlmSt → AlmSt) : (s.updAlm g).spinLast = s.spinLast := rfl
@[simp] theorem updAlm_spinCount (s : State) (g : AlmSt → AlmSt) : (s.updAlm g).spinCount = s.spinCount := rfl
@[simp] theorem updAlm_orr (s : State) (g : AlmSt → AlmSt) : (s.updAlm g).orr = s.orr := rfl
@[simp] theorem updAlm_spn (s : State) (g : AlmSt → AlmSt) : (s.updAlm g).spn = s.spn := rfl
@[simp] theorem updAlm_thm (s : State) (g : AlmSt → AlmSt) : (s.updAlm g).thm = s.thm := rfl
@[simp] theorem updAlm_pins (s : State) (g : AlmSt → AlmSt) : (s.updAlm g).pins = s.pins := rfl
@[simp] theorem updAlm_pwr (s : State) (g : AlmSt → AlmSt) : (s.updAlm g).pwr = s.pwr := rfl
@[simp] theorem updAlm_safeN (s : State) (g : AlmSt → AlmSt) : (s.updAlm g).safeN = s.safeN := rfl
@[simp] theorem updAlm_gated (s : State) (g : AlmSt → AlmSt) : (s.updAlm g).gated = s.gated := rfl

@[simp] theorem updHost_pending (s : State) (g : HostSt → HostSt) : (s.updHost g).pending = s.pending := rfl
@[simp] theorem updHost_out (s : State) (g : HostSt → HostSt) : (s.updHost g).out = s.out := rfl
@[simp] theorem updHost_fresh (s : State) (g : HostSt → HostSt) : (s.updHost g).fresh = s.fresh := rfl
@[simp] theorem updHost_phase (s : State) (g : HostSt → HostSt) : (s.updHost g).phase = s.phase := rfl
@[simp] theorem updHost_regs (s : State) (g : HostSt → HostSt) : (s.updHost g).regs = s.regs := rfl
@[simp] theorem updHost_staged (s : State) (g : HostSt → HostSt) : (s.updHost g).staged = s.staged := rfl
@[simp] theorem updHost_cfg (s : State) (g : HostSt → HostSt) : (s.updHost g).cfg = s.cfg := rfl
@[simp] theorem updHost_mem (s : State) (g : HostSt → HostSt) : (s.updHost g).mem = s.mem := rfl
@[simp] theorem updHost_gran (s : State) (g : HostSt → HostSt) : (s.updHost g).gran = s.gran := rfl
@[simp] theorem updHost_engMem (s : State) (g : HostSt → HostSt) : (s.updHost g).engMem = s.engMem := rfl
@[simp] theorem updHost_mbox (s : State) (g : HostSt → HostSt) : (s.updHost g).mbox = s.mbox := rfl
@[simp] theorem updHost_locks (s : State) (g : HostSt → HostSt) : (s.updHost g).locks = s.locks := rfl
@[simp] theorem updHost_wins (s : State) (g : HostSt → HostSt) : (s.updHost g).wins = s.wins := rfl
@[simp] theorem updHost_viol (s : State) (g : HostSt → HostSt) : (s.updHost g).viol = s.viol := rfl
@[simp] theorem updHost_husk (s : State) (g : HostSt → HostSt) : (s.updHost g).husk = s.husk := rfl
@[simp] theorem updHost_ports (s : State) (g : HostSt → HostSt) : (s.updHost g).ports = s.ports := rfl
@[simp] theorem updHost_acts (s : State) (g : HostSt → HostSt) : (s.updHost g).acts = s.acts := rfl
@[simp] theorem updHost_loops (s : State) (g : HostSt → HostSt) : (s.updHost g).loops = s.loops := rfl
@[simp] theorem updHost_flt (s : State) (g : HostSt → HostSt) : (s.updHost g).flt = s.flt := rfl
@[simp] theorem updHost_held (s : State) (g : HostSt → HostSt) : (s.updHost g).held = s.held := rfl
@[simp] theorem updHost_cache (s : State) (g : HostSt → HostSt) : (s.updHost g).cache = s.cache := rfl
@[simp] theorem updHost_lanes (s : State) (g : HostSt → HostSt) : (s.updHost g).lanes = s.lanes := rfl
@[simp] theorem updHost_pool (s : State) (g : HostSt → HostSt) : (s.updHost g).pool = s.pool := rfl
@[simp] theorem updHost_buf (s : State) (g : HostSt → HostSt) : (s.updHost g).buf = s.buf := rfl
@[simp] theorem updHost_spin (s : State) (g : HostSt → HostSt) : (s.updHost g).spin = s.spin := rfl
@[simp] theorem updHost_spinWait (s : State) (g : HostSt → HostSt) : (s.updHost g).spinWait = s.spinWait := rfl
@[simp] theorem updHost_spinLast (s : State) (g : HostSt → HostSt) : (s.updHost g).spinLast = s.spinLast := rfl
@[simp] theorem updHost_spinCount (s : State) (g : HostSt → HostSt) : (s.updHost g).spinCount = s.spinCount := rfl
@[simp] theorem updHost_alm (s : State) (g : HostSt → HostSt) : (s.updHost g).alm = s.alm := rfl
@[simp] theorem updHost_orr (s : State) (g : HostSt → HostSt) : (s.updHost g).orr = s.orr := rfl
@[simp] theorem updHost_spn (s : State) (g : HostSt → HostSt) : (s.updHost g).spn = s.spn := rfl
@[simp] theorem updHost_thm (s : State) (g : HostSt → HostSt) : (s.updHost g).thm = s.thm := rfl
@[simp] theorem updHost_pins (s : State) (g : HostSt → HostSt) : (s.updHost g).pins = s.pins := rfl
@[simp] theorem updHost_pwr (s : State) (g : HostSt → HostSt) : (s.updHost g).pwr = s.pwr := rfl
@[simp] theorem updHost_safeN (s : State) (g : HostSt → HostSt) : (s.updHost g).safeN = s.safeN := rfl
@[simp] theorem updHost_gated (s : State) (g : HostSt → HostSt) : (s.updHost g).gated = s.gated := rfl

@[simp] theorem updPool_pending (s : State) (g : PoolSt → PoolSt) : (s.updPool g).pending = s.pending := rfl
@[simp] theorem updPool_out (s : State) (g : PoolSt → PoolSt) : (s.updPool g).out = s.out := rfl
@[simp] theorem updPool_fresh (s : State) (g : PoolSt → PoolSt) : (s.updPool g).fresh = s.fresh := rfl
@[simp] theorem updPool_phase (s : State) (g : PoolSt → PoolSt) : (s.updPool g).phase = s.phase := rfl
@[simp] theorem updPool_regs (s : State) (g : PoolSt → PoolSt) : (s.updPool g).regs = s.regs := rfl
@[simp] theorem updPool_staged (s : State) (g : PoolSt → PoolSt) : (s.updPool g).staged = s.staged := rfl
@[simp] theorem updPool_cfg (s : State) (g : PoolSt → PoolSt) : (s.updPool g).cfg = s.cfg := rfl
@[simp] theorem updPool_mem (s : State) (g : PoolSt → PoolSt) : (s.updPool g).mem = s.mem := rfl
@[simp] theorem updPool_gran (s : State) (g : PoolSt → PoolSt) : (s.updPool g).gran = s.gran := rfl
@[simp] theorem updPool_engMem (s : State) (g : PoolSt → PoolSt) : (s.updPool g).engMem = s.engMem := rfl
@[simp] theorem updPool_mbox (s : State) (g : PoolSt → PoolSt) : (s.updPool g).mbox = s.mbox := rfl
@[simp] theorem updPool_locks (s : State) (g : PoolSt → PoolSt) : (s.updPool g).locks = s.locks := rfl
@[simp] theorem updPool_wins (s : State) (g : PoolSt → PoolSt) : (s.updPool g).wins = s.wins := rfl
@[simp] theorem updPool_viol (s : State) (g : PoolSt → PoolSt) : (s.updPool g).viol = s.viol := rfl
@[simp] theorem updPool_husk (s : State) (g : PoolSt → PoolSt) : (s.updPool g).husk = s.husk := rfl
@[simp] theorem updPool_ports (s : State) (g : PoolSt → PoolSt) : (s.updPool g).ports = s.ports := rfl
@[simp] theorem updPool_acts (s : State) (g : PoolSt → PoolSt) : (s.updPool g).acts = s.acts := rfl
@[simp] theorem updPool_loops (s : State) (g : PoolSt → PoolSt) : (s.updPool g).loops = s.loops := rfl
@[simp] theorem updPool_flt (s : State) (g : PoolSt → PoolSt) : (s.updPool g).flt = s.flt := rfl
@[simp] theorem updPool_held (s : State) (g : PoolSt → PoolSt) : (s.updPool g).held = s.held := rfl
@[simp] theorem updPool_cache (s : State) (g : PoolSt → PoolSt) : (s.updPool g).cache = s.cache := rfl
@[simp] theorem updPool_lanes (s : State) (g : PoolSt → PoolSt) : (s.updPool g).lanes = s.lanes := rfl
@[simp] theorem updPool_host (s : State) (g : PoolSt → PoolSt) : (s.updPool g).host = s.host := rfl
@[simp] theorem updPool_buf (s : State) (g : PoolSt → PoolSt) : (s.updPool g).buf = s.buf := rfl
@[simp] theorem updPool_spin (s : State) (g : PoolSt → PoolSt) : (s.updPool g).spin = s.spin := rfl
@[simp] theorem updPool_spinWait (s : State) (g : PoolSt → PoolSt) : (s.updPool g).spinWait = s.spinWait := rfl
@[simp] theorem updPool_spinLast (s : State) (g : PoolSt → PoolSt) : (s.updPool g).spinLast = s.spinLast := rfl
@[simp] theorem updPool_spinCount (s : State) (g : PoolSt → PoolSt) : (s.updPool g).spinCount = s.spinCount := rfl
@[simp] theorem updPool_alm (s : State) (g : PoolSt → PoolSt) : (s.updPool g).alm = s.alm := rfl
@[simp] theorem updPool_orr (s : State) (g : PoolSt → PoolSt) : (s.updPool g).orr = s.orr := rfl
@[simp] theorem updPool_spn (s : State) (g : PoolSt → PoolSt) : (s.updPool g).spn = s.spn := rfl
@[simp] theorem updPool_thm (s : State) (g : PoolSt → PoolSt) : (s.updPool g).thm = s.thm := rfl
@[simp] theorem updPool_pins (s : State) (g : PoolSt → PoolSt) : (s.updPool g).pins = s.pins := rfl
@[simp] theorem updPool_pwr (s : State) (g : PoolSt → PoolSt) : (s.updPool g).pwr = s.pwr := rfl
@[simp] theorem updPool_safeN (s : State) (g : PoolSt → PoolSt) : (s.updPool g).safeN = s.safeN := rfl
@[simp] theorem updPool_gated (s : State) (g : PoolSt → PoolSt) : (s.updPool g).gated = s.gated := rfl

@[simp] theorem updLane_pending (s : State) (l : Nat) (g : LaneSt → LaneSt) : (s.updLane l g).pending = s.pending := rfl
@[simp] theorem updLane_out (s : State) (l : Nat) (g : LaneSt → LaneSt) : (s.updLane l g).out = s.out := rfl
@[simp] theorem updLane_fresh (s : State) (l : Nat) (g : LaneSt → LaneSt) : (s.updLane l g).fresh = s.fresh := rfl
@[simp] theorem updLane_phase (s : State) (l : Nat) (g : LaneSt → LaneSt) : (s.updLane l g).phase = s.phase := rfl
@[simp] theorem updLane_regs (s : State) (l : Nat) (g : LaneSt → LaneSt) : (s.updLane l g).regs = s.regs := rfl
@[simp] theorem updLane_staged (s : State) (l : Nat) (g : LaneSt → LaneSt) : (s.updLane l g).staged = s.staged := rfl
@[simp] theorem updLane_cfg (s : State) (l : Nat) (g : LaneSt → LaneSt) : (s.updLane l g).cfg = s.cfg := rfl
@[simp] theorem updLane_mem (s : State) (l : Nat) (g : LaneSt → LaneSt) : (s.updLane l g).mem = s.mem := rfl
@[simp] theorem updLane_gran (s : State) (l : Nat) (g : LaneSt → LaneSt) : (s.updLane l g).gran = s.gran := rfl
@[simp] theorem updLane_engMem (s : State) (l : Nat) (g : LaneSt → LaneSt) : (s.updLane l g).engMem = s.engMem := rfl
@[simp] theorem updLane_mbox (s : State) (l : Nat) (g : LaneSt → LaneSt) : (s.updLane l g).mbox = s.mbox := rfl
@[simp] theorem updLane_locks (s : State) (l : Nat) (g : LaneSt → LaneSt) : (s.updLane l g).locks = s.locks := rfl
@[simp] theorem updLane_wins (s : State) (l : Nat) (g : LaneSt → LaneSt) : (s.updLane l g).wins = s.wins := rfl
@[simp] theorem updLane_viol (s : State) (l : Nat) (g : LaneSt → LaneSt) : (s.updLane l g).viol = s.viol := rfl
@[simp] theorem updLane_husk (s : State) (l : Nat) (g : LaneSt → LaneSt) : (s.updLane l g).husk = s.husk := rfl
@[simp] theorem updLane_ports (s : State) (l : Nat) (g : LaneSt → LaneSt) : (s.updLane l g).ports = s.ports := rfl
@[simp] theorem updLane_acts (s : State) (l : Nat) (g : LaneSt → LaneSt) : (s.updLane l g).acts = s.acts := rfl
@[simp] theorem updLane_loops (s : State) (l : Nat) (g : LaneSt → LaneSt) : (s.updLane l g).loops = s.loops := rfl
@[simp] theorem updLane_flt (s : State) (l : Nat) (g : LaneSt → LaneSt) : (s.updLane l g).flt = s.flt := rfl
@[simp] theorem updLane_held (s : State) (l : Nat) (g : LaneSt → LaneSt) : (s.updLane l g).held = s.held := rfl
@[simp] theorem updLane_cache (s : State) (l : Nat) (g : LaneSt → LaneSt) : (s.updLane l g).cache = s.cache := rfl
@[simp] theorem updLane_pool (s : State) (l : Nat) (g : LaneSt → LaneSt) : (s.updLane l g).pool = s.pool := rfl
@[simp] theorem updLane_host (s : State) (l : Nat) (g : LaneSt → LaneSt) : (s.updLane l g).host = s.host := rfl
@[simp] theorem updLane_buf (s : State) (l : Nat) (g : LaneSt → LaneSt) : (s.updLane l g).buf = s.buf := rfl
@[simp] theorem updLane_spin (s : State) (l : Nat) (g : LaneSt → LaneSt) : (s.updLane l g).spin = s.spin := rfl
@[simp] theorem updLane_spinWait (s : State) (l : Nat) (g : LaneSt → LaneSt) : (s.updLane l g).spinWait = s.spinWait := rfl
@[simp] theorem updLane_spinLast (s : State) (l : Nat) (g : LaneSt → LaneSt) : (s.updLane l g).spinLast = s.spinLast := rfl
@[simp] theorem updLane_spinCount (s : State) (l : Nat) (g : LaneSt → LaneSt) : (s.updLane l g).spinCount = s.spinCount := rfl
@[simp] theorem updLane_alm (s : State) (l : Nat) (g : LaneSt → LaneSt) : (s.updLane l g).alm = s.alm := rfl
@[simp] theorem updLane_orr (s : State) (l : Nat) (g : LaneSt → LaneSt) : (s.updLane l g).orr = s.orr := rfl
@[simp] theorem updLane_spn (s : State) (l : Nat) (g : LaneSt → LaneSt) : (s.updLane l g).spn = s.spn := rfl
@[simp] theorem updLane_thm (s : State) (l : Nat) (g : LaneSt → LaneSt) : (s.updLane l g).thm = s.thm := rfl
@[simp] theorem updLane_pins (s : State) (l : Nat) (g : LaneSt → LaneSt) : (s.updLane l g).pins = s.pins := rfl
@[simp] theorem updLane_pwr (s : State) (l : Nat) (g : LaneSt → LaneSt) : (s.updLane l g).pwr = s.pwr := rfl
@[simp] theorem updLane_safeN (s : State) (l : Nat) (g : LaneSt → LaneSt) : (s.updLane l g).safeN = s.safeN := rfl
@[simp] theorem updLane_gated (s : State) (l : Nat) (g : LaneSt → LaneSt) : (s.updLane l g).gated = s.gated := rfl

@[simp] theorem updLock_pending (s : State) (i : Nat) (g : Lock → Lock) : (s.updLock i g).pending = s.pending := rfl
@[simp] theorem updLock_out (s : State) (i : Nat) (g : Lock → Lock) : (s.updLock i g).out = s.out := rfl
@[simp] theorem updLock_fresh (s : State) (i : Nat) (g : Lock → Lock) : (s.updLock i g).fresh = s.fresh := rfl
@[simp] theorem updLock_phase (s : State) (i : Nat) (g : Lock → Lock) : (s.updLock i g).phase = s.phase := rfl
@[simp] theorem updLock_regs (s : State) (i : Nat) (g : Lock → Lock) : (s.updLock i g).regs = s.regs := rfl
@[simp] theorem updLock_staged (s : State) (i : Nat) (g : Lock → Lock) : (s.updLock i g).staged = s.staged := rfl
@[simp] theorem updLock_cfg (s : State) (i : Nat) (g : Lock → Lock) : (s.updLock i g).cfg = s.cfg := rfl
@[simp] theorem updLock_mem (s : State) (i : Nat) (g : Lock → Lock) : (s.updLock i g).mem = s.mem := rfl
@[simp] theorem updLock_gran (s : State) (i : Nat) (g : Lock → Lock) : (s.updLock i g).gran = s.gran := rfl
@[simp] theorem updLock_engMem (s : State) (i : Nat) (g : Lock → Lock) : (s.updLock i g).engMem = s.engMem := rfl
@[simp] theorem updLock_mbox (s : State) (i : Nat) (g : Lock → Lock) : (s.updLock i g).mbox = s.mbox := rfl
@[simp] theorem updLock_wins (s : State) (i : Nat) (g : Lock → Lock) : (s.updLock i g).wins = s.wins := rfl
@[simp] theorem updLock_viol (s : State) (i : Nat) (g : Lock → Lock) : (s.updLock i g).viol = s.viol := rfl
@[simp] theorem updLock_husk (s : State) (i : Nat) (g : Lock → Lock) : (s.updLock i g).husk = s.husk := rfl
@[simp] theorem updLock_ports (s : State) (i : Nat) (g : Lock → Lock) : (s.updLock i g).ports = s.ports := rfl
@[simp] theorem updLock_acts (s : State) (i : Nat) (g : Lock → Lock) : (s.updLock i g).acts = s.acts := rfl
@[simp] theorem updLock_loops (s : State) (i : Nat) (g : Lock → Lock) : (s.updLock i g).loops = s.loops := rfl
@[simp] theorem updLock_flt (s : State) (i : Nat) (g : Lock → Lock) : (s.updLock i g).flt = s.flt := rfl
@[simp] theorem updLock_held (s : State) (i : Nat) (g : Lock → Lock) : (s.updLock i g).held = s.held := rfl
@[simp] theorem updLock_cache (s : State) (i : Nat) (g : Lock → Lock) : (s.updLock i g).cache = s.cache := rfl
@[simp] theorem updLock_lanes (s : State) (i : Nat) (g : Lock → Lock) : (s.updLock i g).lanes = s.lanes := rfl
@[simp] theorem updLock_pool (s : State) (i : Nat) (g : Lock → Lock) : (s.updLock i g).pool = s.pool := rfl
@[simp] theorem updLock_host (s : State) (i : Nat) (g : Lock → Lock) : (s.updLock i g).host = s.host := rfl
@[simp] theorem updLock_buf (s : State) (i : Nat) (g : Lock → Lock) : (s.updLock i g).buf = s.buf := rfl
@[simp] theorem updLock_spin (s : State) (i : Nat) (g : Lock → Lock) : (s.updLock i g).spin = s.spin := rfl
@[simp] theorem updLock_spinWait (s : State) (i : Nat) (g : Lock → Lock) : (s.updLock i g).spinWait = s.spinWait := rfl
@[simp] theorem updLock_spinLast (s : State) (i : Nat) (g : Lock → Lock) : (s.updLock i g).spinLast = s.spinLast := rfl
@[simp] theorem updLock_spinCount (s : State) (i : Nat) (g : Lock → Lock) : (s.updLock i g).spinCount = s.spinCount := rfl
@[simp] theorem updLock_alm (s : State) (i : Nat) (g : Lock → Lock) : (s.updLock i g).alm = s.alm := rfl
@[simp] theorem updLock_orr (s : State) (i : Nat) (g : Lock → Lock) : (s.updLock i g).orr = s.orr := rfl
@[simp] theorem updLock_spn (s : State) (i : Nat) (g : Lock → Lock) : (s.updLock i g).spn = s.spn := rfl
@[simp] theorem updLock_thm (s : State) (i : Nat) (g : Lock → Lock) : (s.updLock i g).thm = s.thm := rfl
@[simp] theorem updLock_pins (s : State) (i : Nat) (g : Lock → Lock) : (s.updLock i g).pins = s.pins := rfl
@[simp] theorem updLock_pwr (s : State) (i : Nat) (g : Lock → Lock) : (s.updLock i g).pwr = s.pwr := rfl
@[simp] theorem updLock_safeN (s : State) (i : Nat) (g : Lock → Lock) : (s.updLock i g).safeN = s.safeN := rfl
@[simp] theorem updLock_gated (s : State) (i : Nat) (g : Lock → Lock) : (s.updLock i g).gated = s.gated := rfl

@[simp] theorem updOrr_pending (s : State) (g : OrrSt → OrrSt) : (s.updOrr g).pending = s.pending := rfl
@[simp] theorem updOrr_out (s : State) (g : OrrSt → OrrSt) : (s.updOrr g).out = s.out := rfl
@[simp] theorem updOrr_fresh (s : State) (g : OrrSt → OrrSt) : (s.updOrr g).fresh = s.fresh := rfl
@[simp] theorem updOrr_phase (s : State) (g : OrrSt → OrrSt) : (s.updOrr g).phase = s.phase := rfl
@[simp] theorem updOrr_regs (s : State) (g : OrrSt → OrrSt) : (s.updOrr g).regs = s.regs := rfl
@[simp] theorem updOrr_staged (s : State) (g : OrrSt → OrrSt) : (s.updOrr g).staged = s.staged := rfl
@[simp] theorem updOrr_cfg (s : State) (g : OrrSt → OrrSt) : (s.updOrr g).cfg = s.cfg := rfl
@[simp] theorem updOrr_mem (s : State) (g : OrrSt → OrrSt) : (s.updOrr g).mem = s.mem := rfl
@[simp] theorem updOrr_gran (s : State) (g : OrrSt → OrrSt) : (s.updOrr g).gran = s.gran := rfl
@[simp] theorem updOrr_engMem (s : State) (g : OrrSt → OrrSt) : (s.updOrr g).engMem = s.engMem := rfl
@[simp] theorem updOrr_mbox (s : State) (g : OrrSt → OrrSt) : (s.updOrr g).mbox = s.mbox := rfl
@[simp] theorem updOrr_locks (s : State) (g : OrrSt → OrrSt) : (s.updOrr g).locks = s.locks := rfl
@[simp] theorem updOrr_wins (s : State) (g : OrrSt → OrrSt) : (s.updOrr g).wins = s.wins := rfl
@[simp] theorem updOrr_viol (s : State) (g : OrrSt → OrrSt) : (s.updOrr g).viol = s.viol := rfl
@[simp] theorem updOrr_husk (s : State) (g : OrrSt → OrrSt) : (s.updOrr g).husk = s.husk := rfl
@[simp] theorem updOrr_ports (s : State) (g : OrrSt → OrrSt) : (s.updOrr g).ports = s.ports := rfl
@[simp] theorem updOrr_acts (s : State) (g : OrrSt → OrrSt) : (s.updOrr g).acts = s.acts := rfl
@[simp] theorem updOrr_loops (s : State) (g : OrrSt → OrrSt) : (s.updOrr g).loops = s.loops := rfl
@[simp] theorem updOrr_flt (s : State) (g : OrrSt → OrrSt) : (s.updOrr g).flt = s.flt := rfl
@[simp] theorem updOrr_held (s : State) (g : OrrSt → OrrSt) : (s.updOrr g).held = s.held := rfl
@[simp] theorem updOrr_cache (s : State) (g : OrrSt → OrrSt) : (s.updOrr g).cache = s.cache := rfl
@[simp] theorem updOrr_lanes (s : State) (g : OrrSt → OrrSt) : (s.updOrr g).lanes = s.lanes := rfl
@[simp] theorem updOrr_pool (s : State) (g : OrrSt → OrrSt) : (s.updOrr g).pool = s.pool := rfl
@[simp] theorem updOrr_host (s : State) (g : OrrSt → OrrSt) : (s.updOrr g).host = s.host := rfl
@[simp] theorem updOrr_buf (s : State) (g : OrrSt → OrrSt) : (s.updOrr g).buf = s.buf := rfl
@[simp] theorem updOrr_spin (s : State) (g : OrrSt → OrrSt) : (s.updOrr g).spin = s.spin := rfl
@[simp] theorem updOrr_spinWait (s : State) (g : OrrSt → OrrSt) : (s.updOrr g).spinWait = s.spinWait := rfl
@[simp] theorem updOrr_spinLast (s : State) (g : OrrSt → OrrSt) : (s.updOrr g).spinLast = s.spinLast := rfl
@[simp] theorem updOrr_spinCount (s : State) (g : OrrSt → OrrSt) : (s.updOrr g).spinCount = s.spinCount := rfl
@[simp] theorem updOrr_alm (s : State) (g : OrrSt → OrrSt) : (s.updOrr g).alm = s.alm := rfl
@[simp] theorem updOrr_spn (s : State) (g : OrrSt → OrrSt) : (s.updOrr g).spn = s.spn := rfl
@[simp] theorem updOrr_thm (s : State) (g : OrrSt → OrrSt) : (s.updOrr g).thm = s.thm := rfl
@[simp] theorem updOrr_pins (s : State) (g : OrrSt → OrrSt) : (s.updOrr g).pins = s.pins := rfl
@[simp] theorem updOrr_pwr (s : State) (g : OrrSt → OrrSt) : (s.updOrr g).pwr = s.pwr := rfl
@[simp] theorem updOrr_safeN (s : State) (g : OrrSt → OrrSt) : (s.updOrr g).safeN = s.safeN := rfl
@[simp] theorem updOrr_gated (s : State) (g : OrrSt → OrrSt) : (s.updOrr g).gated = s.gated := rfl

@[simp] theorem updGran_pending (s : State) (g : GranSt → GranSt) : (s.updGran g).pending = s.pending := rfl
@[simp] theorem updGran_out (s : State) (g : GranSt → GranSt) : (s.updGran g).out = s.out := rfl
@[simp] theorem updGran_fresh (s : State) (g : GranSt → GranSt) : (s.updGran g).fresh = s.fresh := rfl
@[simp] theorem updGran_phase (s : State) (g : GranSt → GranSt) : (s.updGran g).phase = s.phase := rfl
@[simp] theorem updGran_regs (s : State) (g : GranSt → GranSt) : (s.updGran g).regs = s.regs := rfl
@[simp] theorem updGran_staged (s : State) (g : GranSt → GranSt) : (s.updGran g).staged = s.staged := rfl
@[simp] theorem updGran_cfg (s : State) (g : GranSt → GranSt) : (s.updGran g).cfg = s.cfg := rfl
@[simp] theorem updGran_mem (s : State) (g : GranSt → GranSt) : (s.updGran g).mem = s.mem := rfl
@[simp] theorem updGran_engMem (s : State) (g : GranSt → GranSt) : (s.updGran g).engMem = s.engMem := rfl
@[simp] theorem updGran_mbox (s : State) (g : GranSt → GranSt) : (s.updGran g).mbox = s.mbox := rfl
@[simp] theorem updGran_locks (s : State) (g : GranSt → GranSt) : (s.updGran g).locks = s.locks := rfl
@[simp] theorem updGran_wins (s : State) (g : GranSt → GranSt) : (s.updGran g).wins = s.wins := rfl
@[simp] theorem updGran_viol (s : State) (g : GranSt → GranSt) : (s.updGran g).viol = s.viol := rfl
@[simp] theorem updGran_husk (s : State) (g : GranSt → GranSt) : (s.updGran g).husk = s.husk := rfl
@[simp] theorem updGran_ports (s : State) (g : GranSt → GranSt) : (s.updGran g).ports = s.ports := rfl
@[simp] theorem updGran_acts (s : State) (g : GranSt → GranSt) : (s.updGran g).acts = s.acts := rfl
@[simp] theorem updGran_loops (s : State) (g : GranSt → GranSt) : (s.updGran g).loops = s.loops := rfl
@[simp] theorem updGran_flt (s : State) (g : GranSt → GranSt) : (s.updGran g).flt = s.flt := rfl
@[simp] theorem updGran_held (s : State) (g : GranSt → GranSt) : (s.updGran g).held = s.held := rfl
@[simp] theorem updGran_cache (s : State) (g : GranSt → GranSt) : (s.updGran g).cache = s.cache := rfl
@[simp] theorem updGran_lanes (s : State) (g : GranSt → GranSt) : (s.updGran g).lanes = s.lanes := rfl
@[simp] theorem updGran_pool (s : State) (g : GranSt → GranSt) : (s.updGran g).pool = s.pool := rfl
@[simp] theorem updGran_host (s : State) (g : GranSt → GranSt) : (s.updGran g).host = s.host := rfl
@[simp] theorem updGran_buf (s : State) (g : GranSt → GranSt) : (s.updGran g).buf = s.buf := rfl
@[simp] theorem updGran_spin (s : State) (g : GranSt → GranSt) : (s.updGran g).spin = s.spin := rfl
@[simp] theorem updGran_spinWait (s : State) (g : GranSt → GranSt) : (s.updGran g).spinWait = s.spinWait := rfl
@[simp] theorem updGran_spinLast (s : State) (g : GranSt → GranSt) : (s.updGran g).spinLast = s.spinLast := rfl
@[simp] theorem updGran_spinCount (s : State) (g : GranSt → GranSt) : (s.updGran g).spinCount = s.spinCount := rfl
@[simp] theorem updGran_alm (s : State) (g : GranSt → GranSt) : (s.updGran g).alm = s.alm := rfl
@[simp] theorem updGran_orr (s : State) (g : GranSt → GranSt) : (s.updGran g).orr = s.orr := rfl
@[simp] theorem updGran_spn (s : State) (g : GranSt → GranSt) : (s.updGran g).spn = s.spn := rfl
@[simp] theorem updGran_thm (s : State) (g : GranSt → GranSt) : (s.updGran g).thm = s.thm := rfl
@[simp] theorem updGran_pins (s : State) (g : GranSt → GranSt) : (s.updGran g).pins = s.pins := rfl
@[simp] theorem updGran_pwr (s : State) (g : GranSt → GranSt) : (s.updGran g).pwr = s.pwr := rfl
@[simp] theorem updGran_safeN (s : State) (g : GranSt → GranSt) : (s.updGran g).safeN = s.safeN := rfl
@[simp] theorem updGran_gated (s : State) (g : GranSt → GranSt) : (s.updGran g).gated = s.gated := rfl

@[simp] theorem emit_pending (s : State) (o : Output) : (s.emit o).pending = s.pending := rfl
@[simp] theorem emit_fresh (s : State) (o : Output) : (s.emit o).fresh = s.fresh := rfl
@[simp] theorem emit_phase (s : State) (o : Output) : (s.emit o).phase = s.phase := rfl
@[simp] theorem emit_regs (s : State) (o : Output) : (s.emit o).regs = s.regs := rfl
@[simp] theorem emit_staged (s : State) (o : Output) : (s.emit o).staged = s.staged := rfl
@[simp] theorem emit_cfg (s : State) (o : Output) : (s.emit o).cfg = s.cfg := rfl
@[simp] theorem emit_mem (s : State) (o : Output) : (s.emit o).mem = s.mem := rfl
@[simp] theorem emit_gran (s : State) (o : Output) : (s.emit o).gran = s.gran := rfl
@[simp] theorem emit_engMem (s : State) (o : Output) : (s.emit o).engMem = s.engMem := rfl
@[simp] theorem emit_mbox (s : State) (o : Output) : (s.emit o).mbox = s.mbox := rfl
@[simp] theorem emit_locks (s : State) (o : Output) : (s.emit o).locks = s.locks := rfl
@[simp] theorem emit_wins (s : State) (o : Output) : (s.emit o).wins = s.wins := rfl
@[simp] theorem emit_viol (s : State) (o : Output) : (s.emit o).viol = s.viol := rfl
@[simp] theorem emit_husk (s : State) (o : Output) : (s.emit o).husk = s.husk := rfl
@[simp] theorem emit_ports (s : State) (o : Output) : (s.emit o).ports = s.ports := rfl
@[simp] theorem emit_acts (s : State) (o : Output) : (s.emit o).acts = s.acts := rfl
@[simp] theorem emit_loops (s : State) (o : Output) : (s.emit o).loops = s.loops := rfl
@[simp] theorem emit_flt (s : State) (o : Output) : (s.emit o).flt = s.flt := rfl
@[simp] theorem emit_held (s : State) (o : Output) : (s.emit o).held = s.held := rfl
@[simp] theorem emit_cache (s : State) (o : Output) : (s.emit o).cache = s.cache := rfl
@[simp] theorem emit_lanes (s : State) (o : Output) : (s.emit o).lanes = s.lanes := rfl
@[simp] theorem emit_pool (s : State) (o : Output) : (s.emit o).pool = s.pool := rfl
@[simp] theorem emit_host (s : State) (o : Output) : (s.emit o).host = s.host := rfl
@[simp] theorem emit_buf (s : State) (o : Output) : (s.emit o).buf = s.buf := rfl
@[simp] theorem emit_spin (s : State) (o : Output) : (s.emit o).spin = s.spin := rfl
@[simp] theorem emit_spinWait (s : State) (o : Output) : (s.emit o).spinWait = s.spinWait := rfl
@[simp] theorem emit_spinLast (s : State) (o : Output) : (s.emit o).spinLast = s.spinLast := rfl
@[simp] theorem emit_spinCount (s : State) (o : Output) : (s.emit o).spinCount = s.spinCount := rfl
@[simp] theorem emit_alm (s : State) (o : Output) : (s.emit o).alm = s.alm := rfl
@[simp] theorem emit_orr (s : State) (o : Output) : (s.emit o).orr = s.orr := rfl
@[simp] theorem emit_spn (s : State) (o : Output) : (s.emit o).spn = s.spn := rfl
@[simp] theorem emit_thm (s : State) (o : Output) : (s.emit o).thm = s.thm := rfl
@[simp] theorem emit_pins (s : State) (o : Output) : (s.emit o).pins = s.pins := rfl
@[simp] theorem emit_pwr (s : State) (o : Output) : (s.emit o).pwr = s.pwr := rfl
@[simp] theorem emit_safeN (s : State) (o : Output) : (s.emit o).safeN = s.safeN := rfl
@[simp] theorem emit_gated (s : State) (o : Output) : (s.emit o).gated = s.gated := rfl

@[simp] theorem tick_pending (s : State) : (s.tick).pending = s.pending := rfl
@[simp] theorem tick_out (s : State) : (s.tick).out = s.out := rfl
@[simp] theorem tick_phase (s : State) : (s.tick).phase = s.phase := rfl
@[simp] theorem tick_regs (s : State) : (s.tick).regs = s.regs := rfl
@[simp] theorem tick_staged (s : State) : (s.tick).staged = s.staged := rfl
@[simp] theorem tick_cfg (s : State) : (s.tick).cfg = s.cfg := rfl
@[simp] theorem tick_mem (s : State) : (s.tick).mem = s.mem := rfl
@[simp] theorem tick_gran (s : State) : (s.tick).gran = s.gran := rfl
@[simp] theorem tick_engMem (s : State) : (s.tick).engMem = s.engMem := rfl
@[simp] theorem tick_mbox (s : State) : (s.tick).mbox = s.mbox := rfl
@[simp] theorem tick_locks (s : State) : (s.tick).locks = s.locks := rfl
@[simp] theorem tick_wins (s : State) : (s.tick).wins = s.wins := rfl
@[simp] theorem tick_viol (s : State) : (s.tick).viol = s.viol := rfl
@[simp] theorem tick_husk (s : State) : (s.tick).husk = s.husk := rfl
@[simp] theorem tick_ports (s : State) : (s.tick).ports = s.ports := rfl
@[simp] theorem tick_acts (s : State) : (s.tick).acts = s.acts := rfl
@[simp] theorem tick_loops (s : State) : (s.tick).loops = s.loops := rfl
@[simp] theorem tick_flt (s : State) : (s.tick).flt = s.flt := rfl
@[simp] theorem tick_held (s : State) : (s.tick).held = s.held := rfl
@[simp] theorem tick_cache (s : State) : (s.tick).cache = s.cache := rfl
@[simp] theorem tick_lanes (s : State) : (s.tick).lanes = s.lanes := rfl
@[simp] theorem tick_pool (s : State) : (s.tick).pool = s.pool := rfl
@[simp] theorem tick_host (s : State) : (s.tick).host = s.host := rfl
@[simp] theorem tick_buf (s : State) : (s.tick).buf = s.buf := rfl
@[simp] theorem tick_spin (s : State) : (s.tick).spin = s.spin := rfl
@[simp] theorem tick_spinWait (s : State) : (s.tick).spinWait = s.spinWait := rfl
@[simp] theorem tick_spinLast (s : State) : (s.tick).spinLast = s.spinLast := rfl
@[simp] theorem tick_spinCount (s : State) : (s.tick).spinCount = s.spinCount := rfl
@[simp] theorem tick_alm (s : State) : (s.tick).alm = s.alm := rfl
@[simp] theorem tick_orr (s : State) : (s.tick).orr = s.orr := rfl
@[simp] theorem tick_spn (s : State) : (s.tick).spn = s.spn := rfl
@[simp] theorem tick_thm (s : State) : (s.tick).thm = s.thm := rfl
@[simp] theorem tick_pins (s : State) : (s.tick).pins = s.pins := rfl
@[simp] theorem tick_pwr (s : State) : (s.tick).pwr = s.pwr := rfl
@[simp] theorem tick_safeN (s : State) : (s.tick).safeN = s.safeN := rfl
@[simp] theorem tick_gated (s : State) : (s.tick).gated = s.gated := rfl

@[simp] theorem memWrite_pending (s : State) (a : Nat) (b : List Byte) : (s.memWrite a b).pending = s.pending := rfl
@[simp] theorem memWrite_out (s : State) (a : Nat) (b : List Byte) : (s.memWrite a b).out = s.out := rfl
@[simp] theorem memWrite_fresh (s : State) (a : Nat) (b : List Byte) : (s.memWrite a b).fresh = s.fresh := rfl
@[simp] theorem memWrite_phase (s : State) (a : Nat) (b : List Byte) : (s.memWrite a b).phase = s.phase := rfl
@[simp] theorem memWrite_regs (s : State) (a : Nat) (b : List Byte) : (s.memWrite a b).regs = s.regs := rfl
@[simp] theorem memWrite_staged (s : State) (a : Nat) (b : List Byte) : (s.memWrite a b).staged = s.staged := rfl
@[simp] theorem memWrite_cfg (s : State) (a : Nat) (b : List Byte) : (s.memWrite a b).cfg = s.cfg := rfl
@[simp] theorem memWrite_gran (s : State) (a : Nat) (b : List Byte) : (s.memWrite a b).gran = s.gran := rfl
@[simp] theorem memWrite_engMem (s : State) (a : Nat) (b : List Byte) : (s.memWrite a b).engMem = s.engMem := rfl
@[simp] theorem memWrite_mbox (s : State) (a : Nat) (b : List Byte) : (s.memWrite a b).mbox = s.mbox := rfl
@[simp] theorem memWrite_locks (s : State) (a : Nat) (b : List Byte) : (s.memWrite a b).locks = s.locks := rfl
@[simp] theorem memWrite_wins (s : State) (a : Nat) (b : List Byte) : (s.memWrite a b).wins = s.wins := rfl
@[simp] theorem memWrite_viol (s : State) (a : Nat) (b : List Byte) : (s.memWrite a b).viol = s.viol := rfl
@[simp] theorem memWrite_husk (s : State) (a : Nat) (b : List Byte) : (s.memWrite a b).husk = s.husk := rfl
@[simp] theorem memWrite_ports (s : State) (a : Nat) (b : List Byte) : (s.memWrite a b).ports = s.ports := rfl
@[simp] theorem memWrite_acts (s : State) (a : Nat) (b : List Byte) : (s.memWrite a b).acts = s.acts := rfl
@[simp] theorem memWrite_loops (s : State) (a : Nat) (b : List Byte) : (s.memWrite a b).loops = s.loops := rfl
@[simp] theorem memWrite_flt (s : State) (a : Nat) (b : List Byte) : (s.memWrite a b).flt = s.flt := rfl
@[simp] theorem memWrite_held (s : State) (a : Nat) (b : List Byte) : (s.memWrite a b).held = s.held := rfl
@[simp] theorem memWrite_cache (s : State) (a : Nat) (b : List Byte) : (s.memWrite a b).cache = s.cache := rfl
@[simp] theorem memWrite_lanes (s : State) (a : Nat) (b : List Byte) : (s.memWrite a b).lanes = s.lanes := rfl
@[simp] theorem memWrite_pool (s : State) (a : Nat) (b : List Byte) : (s.memWrite a b).pool = s.pool := rfl
@[simp] theorem memWrite_host (s : State) (a : Nat) (b : List Byte) : (s.memWrite a b).host = s.host := rfl
@[simp] theorem memWrite_buf (s : State) (a : Nat) (b : List Byte) : (s.memWrite a b).buf = s.buf := rfl
@[simp] theorem memWrite_spin (s : State) (a : Nat) (b : List Byte) : (s.memWrite a b).spin = s.spin := rfl
@[simp] theorem memWrite_spinWait (s : State) (a : Nat) (b : List Byte) : (s.memWrite a b).spinWait = s.spinWait := rfl
@[simp] theorem memWrite_spinLast (s : State) (a : Nat) (b : List Byte) : (s.memWrite a b).spinLast = s.spinLast := rfl
@[simp] theorem memWrite_spinCount (s : State) (a : Nat) (b : List Byte) : (s.memWrite a b).spinCount = s.spinCount := rfl
@[simp] theorem memWrite_alm (s : State) (a : Nat) (b : List Byte) : (s.memWrite a b).alm = s.alm := rfl
@[simp] theorem memWrite_orr (s : State) (a : Nat) (b : List Byte) : (s.memWrite a b).orr = s.orr := rfl
@[simp] theorem memWrite_spn (s : State) (a : Nat) (b : List Byte) : (s.memWrite a b).spn = s.spn := rfl
@[simp] theorem memWrite_thm (s : State) (a : Nat) (b : List Byte) : (s.memWrite a b).thm = s.thm := rfl
@[simp] theorem memWrite_pins (s : State) (a : Nat) (b : List Byte) : (s.memWrite a b).pins = s.pins := rfl
@[simp] theorem memWrite_pwr (s : State) (a : Nat) (b : List Byte) : (s.memWrite a b).pwr = s.pwr := rfl
@[simp] theorem memWrite_safeN (s : State) (a : Nat) (b : List Byte) : (s.memWrite a b).safeN = s.safeN := rfl
@[simp] theorem memWrite_gated (s : State) (a : Nat) (b : List Byte) : (s.memWrite a b).gated = s.gated := rfl

/-! ### Derived register operations are writes of one copy -/

theorem wr_eq (s : State) (f : RegField) (i : Nat) (v : Word) : s.wr f i v = s.wrAt f i 0 v := rfl
theorem wrN_eq (s : State) (f : RegField) (i v : Nat) : s.wrN f i v = s.wrAt f i 0 (BitVec.ofNat 32 v) := rfl
theorem wrB_eq (s : State) (f : RegField) (i : Nat) (v : Bool) : s.wrB f i v = s.wrAt f i 0 (if v then 1 else 0) := rfl
theorem wrInt_eq (s : State) (f : RegField) (i j : Nat) (v : Int) : s.wrInt f i j v = s.wrAt f i j (BitVec.ofInt 32 v) := rfl
theorem rd_eq (s : State) (f : RegField) (i : Nat) : s.rd f i = s.rdAt f i 0 := rfl

/-! ### A sparse array -/

/-- A bound below may be lowered. -/
theorem rising_mono {α : Type} (l : List (Nat × α)) (a b : Nat) (h : a ≤ b) (hr : Sparse.rising b l = true) :
    Sparse.rising a l = true := by
  cases l with
  | nil => rfl
  | cons p l =>
    obtain ⟨k, v⟩ := p
    simp only [Sparse.rising, Bool.and_eq_true, decide_eq_true_eq] at *
    exact ⟨by omega, hr.2⟩

/-- A key below every listed one reads as the default. -/
theorem read_below {α : Type} (l : List (Nat × α)) (lo k : Nat) (d : α) (h : Sparse.rising lo l = true) (hk : k < lo) :
    Sparse.read l k d = d := by
  cases l with
  | nil => rfl
  | cons p l =>
    obtain ⟨k', v⟩ := p
    simp only [Sparse.rising, Bool.and_eq_true, decide_eq_true_eq] at h
    simp [Sparse.read, show k' ≠ k by omega, show k < k' by omega]

/-- A write keeps the keys rising. -/
theorem rising_write {α : Type} [DecidableEq α] (l : List (Nat × α)) (lo k : Nat) (d v : α) (hlo : lo ≤ k)
    (h : Sparse.rising lo l = true) : Sparse.rising lo (Sparse.write l k d v) = true := by
  induction l generalizing lo with
  | nil => unfold Sparse.write; split <;> simp [Sparse.rising, hlo]
  | cons p l ih =>
    obtain ⟨k', v'⟩ := p
    simp only [Sparse.rising, Bool.and_eq_true, decide_eq_true_eq] at h
    unfold Sparse.write
    split
    · subst_vars; split
      · exact rising_mono _ _ _ (by omega) h.2
      · simp [Sparse.rising, hlo, h.2]
    · split
      · split
        · simp [Sparse.rising, h]
        · simp only [Sparse.rising, Bool.and_eq_true, decide_eq_true_eq]; exact ⟨hlo, by omega, h.2⟩
      · simp only [Sparse.rising, Bool.and_eq_true, decide_eq_true_eq]
        exact ⟨h.1, ih _ (by omega) h.2⟩

/-- Every entry of an array keeps differing from the default. -/
theorem all_write {α : Type} [DecidableEq α] (l : List (Nat × α)) (k : Nat) (d v : α) (h : l.all (fun p => p.2 != d) = true) :
    (Sparse.write l k d v).all (fun p => p.2 != d) = true := by
  induction l with
  | nil => unfold Sparse.write; split <;> simp_all
  | cons p l ih =>
    obtain ⟨k', v'⟩ := p
    rw [List.all_cons, Bool.and_eq_true] at h
    unfold Sparse.write
    split
    · split
      · exact h.2
      · simp only [List.all_cons, Bool.and_eq_true]; exact ⟨by simp_all, h.2⟩
    · split
      · split
        · simp only [List.all_cons, Bool.and_eq_true]; exact h
        · simp only [List.all_cons, Bool.and_eq_true]; exact ⟨by simp_all, h⟩
      · simp only [List.all_cons, Bool.and_eq_true]; exact ⟨h.1, ih h.2⟩

/-- Reading the key just written gives the value. -/
theorem read_write {α : Type} [DecidableEq α] (l : List (Nat × α)) (lo k : Nat) (d v : α) (h : Sparse.rising lo l = true) :
    Sparse.read (Sparse.write l k d v) k d = v := by
  induction l generalizing lo with
  | nil => unfold Sparse.write; split <;> simp_all [Sparse.read]
  | cons p l ih =>
    obtain ⟨k', v'⟩ := p
    simp only [Sparse.rising, Bool.and_eq_true, decide_eq_true_eq] at h
    unfold Sparse.write
    split
    · subst_vars; split
      · subst_vars; exact read_below _ _ _ _ h.2 (by omega)
      · simp [Sparse.read]
    · split
      · split
        · subst_vars; simp_all [Sparse.read]
        · simp [Sparse.read]
      · simp only [Sparse.read]; rw [if_neg (by assumption), if_neg (by assumption)]; exact ih _ h.2

/-- Reading any other key, whatever its default, gives what it gave. -/
theorem read_write_ne {α : Type} [DecidableEq α] (l : List (Nat × α)) (lo k q : Nat) (d d' v : α) (h : Sparse.rising lo l = true)
    (hq : q ≠ k) : Sparse.read (Sparse.write l k d v) q d' = Sparse.read l q d' := by
  induction l generalizing lo with
  | nil => unfold Sparse.write; split <;> simp [Sparse.read, Ne.symm hq]
  | cons p l ih =>
    obtain ⟨k', v'⟩ := p
    simp only [Sparse.rising, Bool.and_eq_true, decide_eq_true_eq] at h
    unfold Sparse.write
    split
    · subst_vars; split
      · simp only [Sparse.read]; rw [if_neg (Ne.symm hq)]
        split
        · exact read_below _ _ _ _ h.2 (by omega)
        · rfl
      · simp [Sparse.read, Ne.symm hq]
    · split
      · split
        · rfl
        · simp only [Sparse.read]; rw [if_neg (Ne.symm hq)]
          split
          · rw [if_neg (by omega)]; simp [show q < k' by omega]
          · rfl
      · simp only [Sparse.read]
        split
        · rfl
        · split
          · rfl
          · exact ih _ h.2

/-! ### Main memory -/

/-- A byte write keeps the canonical form. -/
theorem memory_write_wf (m : List (Nat × Byte)) (a : Nat) (v : Byte) (h : Memory.wf m = true) :
    Memory.wf (Memory.write m a v) = true := by
  unfold Memory.wf Memory.write at *
  simp only [Bool.and_eq_true] at *
  exact ⟨rising_write _ _ _ _ _ (by omega) h.1, all_write _ _ _ _ h.2⟩

/-- A write of bytes keeps the canonical form. -/
theorem memory_writeBytes_wf (b : List Byte) (m : List (Nat × Byte)) (a : Nat) (h : Memory.wf m = true) :
    Memory.wf (Memory.writeBytes m a b) = true := by
  induction b generalizing m a with
  | nil => exact h
  | cons x b ih => exact ih _ _ (memory_write_wf _ _ _ h)

theorem memWrite_wf (s : State) (a : Nat) (b : List Byte) (h : Memory.wf s.mem = true) : Memory.wf (s.memWrite a b).mem = true :=
  memory_writeBytes_wf _ _ _ h

/-- The memory after reset has the canonical form. -/
theorem reset_memory_wf : Memory.wf State.reset.mem = true := rfl

/-- A byte outside the bytes written reads as before. -/
theorem memory_read_writeBytes_out (b : List Byte) (m : List (Nat × Byte)) (a q : Nat) (h : Memory.wf m = true)
    (hq : q < a ∨ a + b.length ≤ q) : Memory.read (Memory.writeBytes m a b) q = Memory.read m q := by
  induction b generalizing m a with
  | nil => rfl
  | cons x b ih =>
    simp only [List.length_cons] at hq
    rw [Memory.writeBytes, ih _ _ (memory_write_wf _ _ _ h) (by omega)]
    have hr : Sparse.rising 0 m = true := by
      unfold Memory.wf at h; rw [Bool.and_eq_true] at h; exact h.1
    exact read_write_ne m 0 a q _ _ x hr (by omega)

/-- Byte `i` of the bytes written reads as written. -/
theorem memory_read_writeBytes (b : List Byte) (m : List (Nat × Byte)) (a i : Nat) (h : Memory.wf m = true) (hi : i < b.length) :
    Memory.read (Memory.writeBytes m a b) (a + i) = b[i] := by
  induction b generalizing m a i with
  | nil => simp at hi
  | cons x b ih =>
    have hr : Sparse.rising 0 m = true := by
      unfold Memory.wf at h; rw [Bool.and_eq_true] at h; exact h.1
    rw [Memory.writeBytes]
    cases i with
    | zero =>
      rw [memory_read_writeBytes_out b _ (a + 1) _ (memory_write_wf _ _ _ h) (by omega)]
      exact read_write m 0 a _ x hr
    | succ i =>
      have := ih (Memory.write m a x) (a + 1) i (memory_write_wf _ _ _ h) (by simpa using hi)
      rw [show a + (i + 1) = a + 1 + i by omega, this]; rfl

/-! ### Registers -/

/-- Copies of different fields have different keys. -/
theorem key_ne (f g : RegField) (i j i' j' : Nat) (hid : f.id ≠ g.id) (h : i * f.n + j < 0x100000) (h' : i' * g.n + j' < 0x100000) :
    f.key i j ≠ g.key i' j' := by
  unfold RegField.key; omega

/-- A register just written reads as the value cut to its width. -/
theorem rdAt_wrAt (s : State) (f : RegField) (i j : Nat) (v : Word) (h : Sparse.rising 0 s.regs = true) :
    (s.wrAt f i j v).rdAt f i j = f.trunc v := read_write _ 0 _ _ _ h

/-- Every other register reads as before. -/
theorem rdAt_wrAt_ne (s : State) (f g : RegField) (i j i' j' : Nat) (v : Word) (h : Sparse.rising 0 s.regs = true)
    (hne : g.key i' j' ≠ f.key i j) :
    (s.wrAt f i j v).rdAt g i' j' = s.rdAt g i' j' := by
  unfold State.rdAt State.wrAt
  exact read_write_ne s.regs 0 (f.key i j) (g.key i' j') f.reset g.reset (f.trunc v) h hne

/-- A register write keeps the keys rising. -/
theorem wrAt_rising (s : State) (f : RegField) (i j : Nat) (v : Word) (h : Sparse.rising 0 s.regs = true) :
    Sparse.rising 0 (s.wrAt f i j v).regs = true := rising_write _ _ _ _ _ (Nat.zero_le _) h

/-! ### Vectors -/

theorem vupd_getD {α : Type} {n : Nat} (v : Vector α n) (i k : Nat) (f : α → α) (d : α) :
    (vupd v i f).toArray.getD k d = if i = k ∧ k < n then f (v.toArray.getD k d) else v.toArray.getD k d := by
  unfold vupd
  by_cases h : i < n
  · rw [dif_pos h]
    by_cases hk : k < n
    · by_cases he : i = k
      · subst he; simp [Array.getD, hk]
      · simp [Array.getD, hk, he]
    · simp [Array.getD, hk]
  · rw [dif_neg h]
    split
    · omega
    · rfl

theorem act_updAct (s : State) (n k : Nat) (g : ActSt → ActSt) :
    (s.updAct n g).act k = if n = k ∧ k < 64 then g (s.act k) else s.act k := vupd_getD _ _ _ _ _
theorem port_updPort (s : State) (n k : Nat) (g : PortSt → PortSt) :
    (s.updPort n g).port k = if n = k ∧ k < 32 then g (s.port k) else s.port k := vupd_getD _ _ _ _ _
theorem loop_updLoop (s : State) (n k : Nat) (g : LoopSt → LoopSt) :
    (s.updLoop n g).loop k = if n = k ∧ k < 256 then g (s.loop k) else s.loop k := vupd_getD _ _ _ _ _
theorem spinSt_updSpin (s : State) (n k : Nat) (g : SpinSt → SpinSt) :
    (s.updSpin n g).spinSt k = if n = k ∧ k < 32 then g (s.spinSt k) else s.spinSt k := vupd_getD _ _ _ _ _
theorem lane_updLane (s : State) (n k : Nat) (g : LaneSt → LaneSt) :
    (s.updLane n g).lane k = if n = k ∧ k < 64 then g (s.lane k) else s.lane k := vupd_getD _ _ _ _ _
theorem lock_updLock (s : State) (n k : Nat) (g : Lock → Lock) :
    (s.updLock n g).lock k = if n = k ∧ k < 256 then g (s.lock k) else s.lock k := vupd_getD _ _ _ _ _
theorem mb_updMbox (s : State) (c d c' d' : Nat) (g : Mbox → Mbox) :
    (s.updMbox c d g).mb c' d' = if 2 * c + d = 2 * c' + d' ∧ 2 * c' + d' < 128 then g (s.mb c' d') else s.mb c' d' := by
  unfold State.mb State.updMbox; exact vupd_getD _ _ _ _ _

end Sys2Proof.Laws
end

