-- ==== Sys2Proof/Laws/Calm.lean ====
section
/-!
SUPPORT. Laws/Calm.lean: the shared operations that leave alone the parts of State that few operations write (the phase of a start,
the structure, pins, windows, locks, mailboxes, engine memory, half-written pairs, power states, the thermal sequencer): one lemma per
such operation.
-/

set_option linter.unusedTactic false
set_option linter.unreachableTactic false
set_option linter.unusedSimpArgs false
set_option linter.unusedVariables false

namespace Sys2Proof.Laws

open Sys2Proof.Machine

/-- The parts of `r` that few operations write stand in `s` unchanged. -/
structure Calm (r s : State) : Prop where
  phase : s.phase = r.phase
  cfg : s.cfg = r.cfg
  pins : s.pins = r.pins
  wins : s.wins = r.wins
  locks : s.locks = r.locks
  mbox : s.mbox = r.mbox
  engMem : s.engMem = r.engMem
  staged : s.staged = r.staged
  pwr : s.pwr = r.pwr
  thm : s.thm = r.thm

theorem calm_refl (s : State) : Calm s s := ⟨rfl, rfl, rfl, rfl, rfl, rfl, rfl, rfl, rfl, rfl⟩
theorem calm_ite {r0 : State} {c : Prop} [Decidable c] {a b : State} (ha : Calm r0 a) (hb : Calm r0 b) : Calm r0 (if c then a else b) := by
  split <;> assumption
theorem calm_ite_fst {r0 : State} {α : Type} {c : Prop} [Decidable c] {a b : State × α} (ha : Calm r0 a.1) (hb : Calm r0 b.1) :
    Calm r0 (if c then a else b).1 := by
  split <;> assumption
theorem calm_fst {r0 t : State} {α : Type} {p : State × α} {x : α} (h : p = (t, x)) (hk : Calm r0 p.1) : Calm r0 t := by
  subst h; exact hk
theorem calm_foldl {r0 : State} {α : Type} (l : List α) (f : State → α → State) (s : State) (hk : Calm r0 s)
    (h : ∀ s a, Calm r0 s → Calm r0 (f s a)) : Calm r0 (l.foldl f s) := by
  induction l generalizing s with
  | nil => exact hk
  | cons x l ih => exact ih _ (h _ _ hk)
theorem calm_foldl_fst {r0 : State} {α β : Type} (l : List α) (f : State × β → α → State × β) (p : State × β) (hk : Calm r0 p.1)
    (h : ∀ p a, Calm r0 p.1 → Calm r0 (f p a).1) : Calm r0 (l.foldl f p).1 := by
  induction l generalizing p with
  | nil => exact hk
  | cons x l ih => exact ih _ (h _ _ hk)
theorem calm_mk {r0 : State} (t : State) (f_pending : List Instr) (f_out : List Output) (f_fresh : Nat) (f_regs : List (Nat × Word))
                (f_mem : List (Nat × Byte)) (f_gran : GranSt) (f_viol : List (Nat × Viol)) (f_husk : Husk) (f_ports : Vector PortSt 32)
                (f_acts : Vector ActSt 64) (f_loops : Vector LoopSt 256) (f_flt : FaultSt) (f_held : List Grain)
                (f_cache : List CacheGrain) (f_lanes : Vector LaneSt 64) (f_pool : PoolSt) (f_host : HostSt) (f_buf : List BufGrain)
                (f_spin : List SpinGroup) (f_spinWait : List Nat) (f_spinLast : Option Nat) (f_spinCount : Nat) (f_alm : AlmSt)
                (f_orr : OrrSt) (f_spn : Vector SpinSt 32) (f_safeN : BitVec 32) (f_gated : BitVec 18) :
    Calm r0 { pending := f_pending, out := f_out, fresh := f_fresh, phase := t.phase, regs := f_regs, staged := t.staged, cfg := t.cfg,
                mem := f_mem, gran := f_gran, engMem := t.engMem, mbox := t.mbox, locks := t.locks, wins := t.wins, viol := f_viol,
                husk := f_husk, ports := f_ports, acts := f_acts, loops := f_loops, flt := f_flt, held := f_held, cache := f_cache,
                lanes := f_lanes, pool := f_pool, host := f_host, buf := f_buf, spin := f_spin, spinWait := f_spinWait,
                spinLast := f_spinLast, spinCount := f_spinCount, alm := f_alm, orr := f_orr, spn := f_spn, thm := t.thm,
                pins := t.pins, pwr := t.pwr, safeN := f_safeN, gated := f_gated } ↔ Calm r0 t :=
  ⟨fun hk => ⟨hk.1, hk.2, hk.3, hk.4, hk.5, hk.6, hk.7, hk.8, hk.9, hk.10⟩, fun hk => ⟨hk.1, hk.2, hk.3, hk.4, hk.5, hk.6, hk.7, hk.8, hk.9, hk.10⟩⟩

theorem wrAt_calm {r0 : State} (s : State) (f : RegField) (i : Nat) (j : Nat) (v : Word) (hk : Calm r0 s) : Calm r0 (State.wrAt s f i j
    v) := by
  exact ⟨hk.1, hk.2, hk.3, hk.4, hk.5, hk.6, hk.7, hk.8, hk.9, hk.10⟩

theorem wr_calm {r0 : State} (s : State) (f : RegField) (i : Nat) (v : Word) (hk : Calm r0 s) : Calm r0 (State.wr s f i v) := by
  unfold State.wr
  repeat' first
    | with_reducible assumption | intro _ | with_reducible apply calm_ite | with_reducible apply wrAt_calm
    | with_reducible apply calm_foldl | with_reducible apply calm_foldl_fst | with_reducible apply calm_ite_fst | extract_lets | split
    | (with_reducible refine calm_fst (by assumption) ?_) | dsimp only [id]

theorem wrN_calm {r0 : State} (s : State) (f : RegField) (i : Nat) (v : Nat) (hk : Calm r0 s) : Calm r0 (State.wrN s f i v) := by
  unfold State.wrN
  repeat' first
    | with_reducible assumption | intro _ | with_reducible apply calm_ite | with_reducible apply wr_calm
    | with_reducible apply calm_foldl | with_reducible apply calm_foldl_fst | with_reducible apply calm_ite_fst | extract_lets | split
    | (with_reducible refine calm_fst (by assumption) ?_) | dsimp only [id]

theorem wrB_calm {r0 : State} (s : State) (f : RegField) (i : Nat) (v : Bool) (hk : Calm r0 s) : Calm r0 (State.wrB s f i v) := by
  unfold State.wrB
  repeat' first
    | with_reducible assumption | intro _ | with_reducible apply calm_ite | with_reducible apply wr_calm
    | with_reducible apply calm_foldl | with_reducible apply calm_foldl_fst | with_reducible apply calm_ite_fst | extract_lets | split
    | (with_reducible refine calm_fst (by assumption) ?_) | dsimp only [id]

theorem wrInt_calm {r0 : State} (s : State) (f : RegField) (i : Nat) (j : Nat) (v : Int) (hk : Calm r0 s) : Calm r0 (State.wrInt s f i j
    v) := by
  unfold State.wrInt
  repeat' first
    | with_reducible assumption | intro _ | with_reducible apply calm_ite | with_reducible apply wrAt_calm
    | with_reducible apply calm_foldl | with_reducible apply calm_foldl_fst | with_reducible apply calm_ite_fst | extract_lets | split
    | (with_reducible refine calm_fst (by assumption) ?_) | dsimp only [id]

theorem bumpBy_calm {r0 : State} (s : State) (f : RegField) (i : Nat) (j : Nat) (n : Nat) (hk : Calm r0 s) : Calm r0 (State.bumpBy s f i
    j n) := by
  unfold State.bumpBy
  repeat' first
    | with_reducible assumption | intro _ | with_reducible apply calm_ite | with_reducible apply wrAt_calm
    | with_reducible apply calm_foldl | with_reducible apply calm_foldl_fst | with_reducible apply calm_ite_fst | extract_lets | split
    | (with_reducible refine calm_fst (by assumption) ?_) | dsimp only [id]

theorem bump_calm {r0 : State} (s : State) (f : RegField) (i : Nat) (hk : Calm r0 s) : Calm r0 (State.bump s f i) := by
  unfold State.bump
  repeat' first
    | with_reducible assumption | intro _ | with_reducible apply calm_ite | with_reducible apply bumpBy_calm
    | with_reducible apply calm_foldl | with_reducible apply calm_foldl_fst | with_reducible apply calm_ite_fst | extract_lets | split
    | (with_reducible refine calm_fst (by assumption) ?_) | dsimp only [id]

theorem bumpWrap_calm {r0 : State} (s : State) (f : RegField) (i : Nat) (j : Nat) (hk : Calm r0 s) : Calm r0 (State.bumpWrap s f i j) := by
  unfold State.bumpWrap
  repeat' first
    | with_reducible assumption | intro _ | with_reducible apply calm_ite | with_reducible apply wrAt_calm
    | with_reducible apply calm_foldl | with_reducible apply calm_foldl_fst | with_reducible apply calm_ite_fst | extract_lets | split
    | (with_reducible refine calm_fst (by assumption) ?_) | dsimp only [id]

theorem wr64_calm {r0 : State} (s : State) (lo : RegField) (hi : RegField) (i : Nat) (j : Nat) (v : Nat) (hk : Calm r0 s) : Calm r0
    (State.wr64 s lo hi i j v) := by
  unfold State.wr64
  repeat' first
    | with_reducible assumption | intro _ | with_reducible apply calm_ite | with_reducible apply wrAt_calm
    | with_reducible apply calm_foldl | with_reducible apply calm_foldl_fst | with_reducible apply calm_ite_fst | extract_lets | split
    | (with_reducible refine calm_fst (by assumption) ?_) | dsimp only [id]

theorem wrBit_calm {r0 : State} (s : State) (f : RegField) (i : Nat) (k : Nat) (v : Bool) (hk : Calm r0 s) : Calm r0 (State.wrBit s f i
    k v) := by
  unfold State.wrBit
  repeat' first
    | with_reducible assumption | intro _ | with_reducible apply calm_ite | with_reducible apply wr_calm
    | with_reducible apply calm_foldl | with_reducible apply calm_foldl_fst | with_reducible apply calm_ite_fst | extract_lets | split
    | (with_reducible refine calm_fst (by assumption) ?_) | dsimp only [id]

theorem updPort_calm {r0 : State} (s : State) (h : Nat) (f : PortSt → PortSt) (hk : Calm r0 s) : Calm r0 (State.updPort s h f) := by
  unfold State.updPort
  repeat' first
    | with_reducible assumption | intro _ | with_reducible apply calm_ite | with_reducible apply calm_foldl
    | with_reducible apply calm_foldl_fst | with_reducible apply calm_ite_fst | extract_lets | split
    | (with_reducible refine calm_fst (by assumption) ?_) | simp only [calm_mk] | dsimp only [id]

theorem updAct_calm {r0 : State} (s : State) (n : Nat) (f : ActSt → ActSt) (hk : Calm r0 s) : Calm r0 (State.updAct s n f) := by
  unfold State.updAct
  repeat' first
    | with_reducible assumption | intro _ | with_reducible apply calm_ite | with_reducible apply calm_foldl
    | with_reducible apply calm_foldl_fst | with_reducible apply calm_ite_fst | extract_lets | split
    | (with_reducible refine calm_fst (by assumption) ?_) | simp only [calm_mk] | dsimp only [id]

theorem updLoop_calm {r0 : State} (s : State) (g : Nat) (f : LoopSt → LoopSt) (hk : Calm r0 s) : Calm r0 (State.updLoop s g f) := by
  unfold State.updLoop
  repeat' first
    | with_reducible assumption | intro _ | with_reducible apply calm_ite | with_reducible apply calm_foldl
    | with_reducible apply calm_foldl_fst | with_reducible apply calm_ite_fst | extract_lets | split
    | (with_reducible refine calm_fst (by assumption) ?_) | simp only [calm_mk] | dsimp only [id]

theorem updSpin_calm {r0 : State} (s : State) (h : Nat) (f : SpinSt → SpinSt) (hk : Calm r0 s) : Calm r0 (State.updSpin s h f) := by
  unfold State.updSpin
  repeat' first
    | with_reducible assumption | intro _ | with_reducible apply calm_ite | with_reducible apply calm_foldl
    | with_reducible apply calm_foldl_fst | with_reducible apply calm_ite_fst | extract_lets | split
    | (with_reducible refine calm_fst (by assumption) ?_) | simp only [calm_mk] | dsimp only [id]

theorem updLane_calm {r0 : State} (s : State) (l : Nat) (f : LaneSt → LaneSt) (hk : Calm r0 s) : Calm r0 (State.updLane s l f) := by
  unfold State.updLane
  repeat' first
    | with_reducible assumption | intro _ | with_reducible apply calm_ite | with_reducible apply calm_foldl
    | with_reducible apply calm_foldl_fst | with_reducible apply calm_ite_fst | extract_lets | split
    | (with_reducible refine calm_fst (by assumption) ?_) | simp only [calm_mk] | dsimp only [id]

theorem updHusk_calm {r0 : State} (s : State) (f : Husk → Husk) (hk : Calm r0 s) : Calm r0 (State.updHusk s f) := by
  exact ⟨hk.1, hk.2, hk.3, hk.4, hk.5, hk.6, hk.7, hk.8, hk.9, hk.10⟩

theorem updFlt_calm {r0 : State} (s : State) (f : FaultSt → FaultSt) (hk : Calm r0 s) : Calm r0 (State.updFlt s f) := by
  unfold State.updFlt
  repeat' first
    | with_reducible assumption | intro _ | with_reducible apply calm_ite | with_reducible apply calm_foldl
    | with_reducible apply calm_foldl_fst | with_reducible apply calm_ite_fst | extract_lets | split
    | (with_reducible refine calm_fst (by assumption) ?_) | simp only [calm_mk] | dsimp only [id]

theorem updAlm_calm {r0 : State} (s : State) (f : AlmSt → AlmSt) (hk : Calm r0 s) : Calm r0 (State.updAlm s f) := by
  exact ⟨hk.1, hk.2, hk.3, hk.4, hk.5, hk.6, hk.7, hk.8, hk.9, hk.10⟩

theorem emit_calm {r0 : State} (s : State) (o : Output) (hk : Calm r0 s) : Calm r0 (State.emit s o) := by
  exact ⟨hk.1, hk.2, hk.3, hk.4, hk.5, hk.6, hk.7, hk.8, hk.9, hk.10⟩

theorem tick_calm {r0 : State} (s : State) (hk : Calm r0 s) : Calm r0 (State.tick s) := by
  exact ⟨hk.1, hk.2, hk.3, hk.4, hk.5, hk.6, hk.7, hk.8, hk.9, hk.10⟩

theorem memWrite_calm {r0 : State} (s : State) (a : Nat) (b : List Byte) (hk : Calm r0 s) : Calm r0 (State.memWrite s a b) := by
  exact ⟨hk.1, hk.2, hk.3, hk.4, hk.5, hk.6, hk.7, hk.8, hk.9, hk.10⟩

theorem violate_calm {r0 : State} (s : State) (id : Nat) (addr : Nat) (wr : Bool) (dom : Bool) (hk : Calm r0 s) : Calm r0 (State.violate
    s id addr wr dom) := by
  unfold State.violate
  repeat' first
    | with_reducible assumption | intro _ | with_reducible apply calm_ite | with_reducible apply calm_foldl
    | with_reducible apply calm_foldl_fst | with_reducible apply calm_ite_fst | extract_lets | split
    | (with_reducible refine calm_fst (by assumption) ?_) | simp only [calm_mk] | dsimp only [id]

theorem wake_calm {r0 : State} (s : State) (i : Nat) (hk : Calm r0 s) : Calm r0 (State.wake s i) := by
  unfold State.wake
  repeat' first
    | with_reducible assumption | intro _ | with_reducible apply calm_ite | with_reducible apply calm_foldl
    | with_reducible apply calm_foldl_fst | with_reducible apply calm_ite_fst | extract_lets | split
    | (with_reducible refine calm_fst (by assumption) ?_) | simp only [calm_mk] | dsimp only [id]

theorem clearPoison_calm {r0 : State} (s : State) (a : Nat) (n : Nat) (hk : Calm r0 s) : Calm r0 (State.clearPoison s a n) := by
  unfold State.clearPoison
  repeat' first
    | with_reducible assumption | intro _ | with_reducible apply calm_ite | with_reducible apply calm_foldl
    | with_reducible apply calm_foldl_fst | with_reducible apply calm_ite_fst | extract_lets | split
    | (with_reducible refine calm_fst (by assumption) ?_) | simp only [calm_mk] | dsimp only [id]

theorem dmaWrite_calm {r0 : State} (s : State) (who : Nat) (sec : Bool) (a : Nat) (b : List Byte) (hk : Calm r0 s) : Calm r0
    (State.dmaWrite s who sec a b) := by
  unfold State.dmaWrite
  repeat' first
    | with_reducible assumption | intro _ | with_reducible apply calm_ite | with_reducible apply violate_calm
    | with_reducible apply memWrite_calm | with_reducible apply clearPoison_calm | with_reducible apply wake_calm
    | with_reducible apply calm_foldl | with_reducible apply calm_foldl_fst | with_reducible apply calm_ite_fst | extract_lets | split
    | (with_reducible refine calm_fst (by assumption) ?_) | dsimp only [id]

theorem dmaReadViol_calm {r0 : State} (s : State) (who : Nat) (sec : Bool) (a : Nat) (n : Nat) (hk : Calm r0 s) : Calm r0
    (State.dmaReadViol s who sec a n) := by
  unfold State.dmaReadViol
  repeat' first
    | with_reducible assumption | intro _ | with_reducible apply calm_ite | with_reducible apply violate_calm
    | with_reducible apply calm_foldl | with_reducible apply calm_foldl_fst | with_reducible apply calm_ite_fst | extract_lets | split
    | (with_reducible refine calm_fst (by assumption) ?_) | dsimp only [id]

theorem auditDrop_calm {r0 : State} (s : State) (hk : Calm r0 s) : Calm r0 (State.auditDrop s) := by
  unfold State.auditDrop
  repeat' first
    | with_reducible assumption | intro _ | with_reducible apply calm_ite | with_reducible apply bumpBy_calm
    | with_reducible apply bump_calm | with_reducible apply updAlm_calm | with_reducible apply calm_foldl
    | with_reducible apply calm_foldl_fst | with_reducible apply calm_ite_fst | extract_lets | split
    | (with_reducible refine calm_fst (by assumption) ?_) | dsimp only [id]

theorem auditTrim_calm {r0 : State} (s : State) (cap : Nat) (fuel : Nat) (hk : Calm r0 s) : Calm r0 (State.auditTrim s cap fuel) := by
  induction fuel generalizing s with
  | zero =>
    unfold State.auditTrim
    repeat' first
      | with_reducible assumption | intro _ | with_reducible apply calm_ite | with_reducible apply auditDrop_calm
      | with_reducible apply calm_foldl | with_reducible apply calm_foldl_fst | with_reducible apply calm_ite_fst | extract_lets
      | split | (with_reducible refine calm_fst (by assumption) ?_) | dsimp only [id]
  | succ n ih =>
    unfold State.auditTrim
    repeat' first
      | with_reducible assumption | intro _ | with_reducible apply calm_ite | with_reducible apply auditDrop_calm
      | with_reducible apply ih | with_reducible apply calm_foldl | with_reducible apply calm_foldl_fst
      | with_reducible apply calm_ite_fst | extract_lets | split | (with_reducible refine calm_fst (by assumption) ?_)
      | dsimp only [id]

theorem auditFit_calm {r0 : State} (s : State) (hk : Calm r0 s) : Calm r0 (State.auditFit s) := by
  unfold State.auditFit
  repeat' first
    | with_reducible assumption | intro _ | with_reducible apply calm_ite | with_reducible apply auditTrim_calm
    | with_reducible apply calm_foldl | with_reducible apply calm_foldl_fst | with_reducible apply calm_ite_fst | extract_lets | split
    | (with_reducible refine calm_fst (by assumption) ?_) | dsimp only [id]

theorem audit_calm {r0 : State} (s : State) (cat : Nat) (ev : Ev) (inst : Nat) (args : List Nat) (firmware : Bool) (hk : Calm r0 s) :
    Calm r0 (State.audit s cat ev inst args firmware) := by
  unfold State.audit
  repeat' first
    | with_reducible assumption | intro _ | with_reducible apply calm_ite | with_reducible apply auditFit_calm
    | with_reducible apply updAlm_calm | with_reducible apply calm_foldl | with_reducible apply calm_foldl_fst
    | with_reducible apply calm_ite_fst | extract_lets | split | (with_reducible refine calm_fst (by assumption) ?_) | dsimp only [id]

theorem trace_calm {r0 : State} (s : State) (src : Nat) (ev : Ev) (inst : Nat) (args : List Nat) (firmware : Bool) (hk : Calm r0 s) :
    Calm r0 (State.trace s src ev inst args firmware) := by
  unfold State.trace
  repeat' first
    | with_reducible assumption | intro _ | with_reducible apply calm_ite | with_reducible apply updAlm_calm
    | with_reducible apply dmaWrite_calm | with_reducible apply calm_foldl | with_reducible apply calm_foldl_fst
    | with_reducible apply calm_ite_fst | extract_lets | split | (with_reducible refine calm_fst (by assumption) ?_) | dsimp only [id]

theorem ctlOut_calm {r0 : State} (s : State) (h : Nat) (op : Nat) (side : Nat) (b : List Nat) (hk : Calm r0 s) : Calm r0 (State.ctlOut s
    h op side b) := by
  unfold State.ctlOut
  repeat' first
    | with_reducible assumption | intro _ | with_reducible apply calm_ite | with_reducible apply updPort_calm
    | with_reducible apply wrN_calm | with_reducible apply emit_calm | with_reducible apply calm_foldl
    | with_reducible apply calm_foldl_fst | with_reducible apply calm_ite_fst | extract_lets | split
    | (with_reducible refine calm_fst (by assumption) ?_) | dsimp only [id]

theorem ctl_calm {r0 : State} (s : State) (h : Nat) (op : Nat) (side : Nat) (b : List Nat) (hk : Calm r0 s) : Calm r0 (State.ctl s h op
    side b) := by
  unfold State.ctl
  repeat' first
    | with_reducible assumption | intro _ | with_reducible apply calm_ite | with_reducible apply ctlOut_calm
    | with_reducible apply updPort_calm | with_reducible apply calm_foldl | with_reducible apply calm_foldl_fst
    | with_reducible apply calm_ite_fst | extract_lets | split | (with_reducible refine calm_fst (by assumption) ?_) | dsimp only [id]

theorem ctlDrain_calm {r0 : State} (s : State) (h : Nat) (fuel : Nat) (hk : Calm r0 s) : Calm r0 (State.ctlDrain s h fuel) := by
  induction fuel generalizing s with
  | zero =>
    unfold State.ctlDrain
    repeat' first
      | with_reducible assumption | intro _ | with_reducible apply calm_ite | with_reducible apply ctlOut_calm
      | with_reducible apply updPort_calm | with_reducible apply calm_foldl | with_reducible apply calm_foldl_fst
      | with_reducible apply calm_ite_fst | extract_lets | split | (with_reducible refine calm_fst (by assumption) ?_)
      | dsimp only [id]
  | succ n ih =>
    unfold State.ctlDrain
    repeat' first
      | with_reducible assumption | intro _ | with_reducible apply calm_ite | with_reducible apply ctlOut_calm
      | with_reducible apply updPort_calm | with_reducible apply ih | with_reducible apply calm_foldl
      | with_reducible apply calm_foldl_fst | with_reducible apply calm_ite_fst | extract_lets | split
      | (with_reducible refine calm_fst (by assumption) ?_) | dsimp only [id]

theorem lanesIdle_calm {r0 : State} (s : State) (h : Nat) (hk : Calm r0 s) : Calm r0 (State.lanesIdle s h) := by
  unfold State.lanesIdle
  repeat' first
    | with_reducible assumption | intro _ | with_reducible apply calm_ite | with_reducible apply wr_calm
    | with_reducible apply calm_foldl | with_reducible apply calm_foldl_fst | with_reducible apply calm_ite_fst | extract_lets | split
    | (with_reducible refine calm_fst (by assumption) ?_) | dsimp only [id]

theorem flashEnd_calm {r0 : State} (s : State) (h : Nat) (hk : Calm r0 s) : Calm r0 (State.flashEnd s h) := by
  unfold State.flashEnd
  repeat' first
    | with_reducible assumption | intro _ | with_reducible apply calm_ite | with_reducible apply updPort_calm
    | with_reducible apply wrN_calm | with_reducible apply wr_calm | with_reducible apply calm_foldl
    | with_reducible apply calm_foldl_fst | with_reducible apply calm_ite_fst | extract_lets | split
    | (with_reducible refine calm_fst (by assumption) ?_) | dsimp only [id]

theorem linkOff_calm {r0 : State} (s : State) (h : Nat) (hk : Calm r0 s) : Calm r0 (State.linkOff s h) := by
  unfold State.linkOff
  repeat' first
    | with_reducible assumption | intro _ | with_reducible apply calm_ite | with_reducible apply flashEnd_calm
    | with_reducible apply lanesIdle_calm | with_reducible apply wr_calm | with_reducible apply calm_foldl
    | with_reducible apply calm_foldl_fst | with_reducible apply calm_ite_fst | extract_lets | split
    | (with_reducible refine calm_fst (by assumption) ?_) | dsimp only [id]

theorem loopOut_calm {r0 : State} (s : State) (n : Nat) (item : Nat) (v : Word) (frame : Word) (tick : Nat) (hk : Calm r0 s) : Calm r0
    (State.loopOut s n item v frame tick) := by
  unfold State.loopOut
  repeat' first
    | with_reducible assumption | intro _ | with_reducible apply calm_ite | with_reducible apply ctl_calm
    | with_reducible apply calm_foldl | with_reducible apply calm_foldl_fst | with_reducible apply calm_ite_fst | extract_lets | split
    | (with_reducible refine calm_fst (by assumption) ?_) | dsimp only [id]

theorem slotFree_calm {r0 : State} (s : State) (e : Nat) (i : Nat) (hk : Calm r0 s) : Calm r0 (State.slotFree s e i) := by
  unfold State.slotFree
  repeat' first
    | with_reducible assumption | intro _ | with_reducible apply calm_ite | with_reducible apply wrN_calm
    | with_reducible apply wrAt_calm | with_reducible apply calm_foldl | with_reducible apply calm_foldl_fst
    | with_reducible apply calm_ite_fst | extract_lets | split | (with_reducible refine calm_fst (by assumption) ?_) | dsimp only [id]

theorem smpCtl_calm {r0 : State} (s : State) (n : Nat) (v : BitVec 3) (hk : Calm r0 s) : Calm r0 (State.smpCtl s n v) := by
  unfold State.smpCtl
  repeat' first
    | with_reducible assumption | intro _ | with_reducible apply calm_ite | with_reducible apply updPort_calm
    | with_reducible apply ctl_calm | with_reducible apply calm_foldl | with_reducible apply calm_foldl_fst
    | with_reducible apply calm_ite_fst | extract_lets | split | (with_reducible refine calm_fst (by assumption) ?_) | dsimp only [id]

theorem withdrawSetpoints_calm {r0 : State} (s : State) (n : Nat) (ep : BitVec 16) (hk : Calm r0 s) : Calm r0 (State.withdrawSetpoints s
    n ep) := by
  unfold State.withdrawSetpoints
  repeat' first
    | with_reducible assumption | intro _ | with_reducible apply calm_ite | with_reducible apply updAct_calm
    | with_reducible apply wrN_calm | with_reducible apply wrB_calm | with_reducible apply updLoop_calm
    | with_reducible apply calm_foldl | with_reducible apply calm_foldl_fst | with_reducible apply calm_ite_fst | extract_lets | split
    | (with_reducible refine calm_fst (by assumption) ?_) | dsimp only [id]

theorem capsFree_calm {r0 : State} (s : State) (n : Nat) (cs : List Nat) (hk : Calm r0 s) : Calm r0 (State.capsFree s n cs) := by
  unfold State.capsFree
  repeat' first
    | with_reducible assumption | intro _ | with_reducible apply calm_ite | with_reducible apply wrN_calm
    | with_reducible apply updLane_calm | with_reducible apply calm_foldl | with_reducible apply calm_foldl_fst
    | with_reducible apply calm_ite_fst | extract_lets | split | (with_reducible refine calm_fst (by assumption) ?_)
    | simp only [calm_mk] | dsimp only [id]

theorem decFree_calm {r0 : State} (s : State) (d : Nat) (hk : Calm r0 s) : Calm r0 (State.decFree s d) := by
  unfold State.decFree
  repeat' first
    | with_reducible assumption | intro _ | with_reducible apply calm_ite | with_reducible apply wrAt_calm
    | with_reducible apply calm_foldl | with_reducible apply calm_foldl_fst | with_reducible apply calm_ite_fst | extract_lets | split
    | (with_reducible refine calm_fst (by assumption) ?_) | dsimp only [id]

theorem laneStop_calm {r0 : State} (s : State) (n : Nat) (hk : Calm r0 s) : Calm r0 (State.laneStop s n) := by
  unfold State.laneStop
  repeat' first
    | with_reducible assumption | intro _ | with_reducible apply calm_ite | with_reducible apply wrN_calm
    | with_reducible apply capsFree_calm | with_reducible apply decFree_calm | with_reducible apply wr_calm
    | with_reducible apply updLane_calm | with_reducible apply calm_foldl | with_reducible apply calm_foldl_fst
    | with_reducible apply calm_ite_fst | extract_lets | split | (with_reducible refine calm_fst (by assumption) ?_)
    | simp only [calm_mk] | dsimp only [id]

theorem chaffSlot_calm {r0 : State} (s : State) (n : Nat) (i : Nat) (hk : Calm r0 s) : Calm r0 (State.chaffSlot s n i) := by
  unfold State.chaffSlot
  repeat' first
    | with_reducible assumption | intro _ | with_reducible apply calm_ite | with_reducible apply slotFree_calm
    | with_reducible apply bumpBy_calm | with_reducible apply capsFree_calm | with_reducible apply updAct_calm
    | with_reducible apply wrB_calm | with_reducible apply trace_calm | with_reducible apply withdrawSetpoints_calm
    | with_reducible apply calm_foldl | with_reducible apply calm_foldl_fst | with_reducible apply calm_ite_fst | extract_lets | split
    | (with_reducible refine calm_fst (by assumption) ?_) | simp only [calm_mk] | dsimp only [id]

theorem chaffAll_calm {r0 : State} (s : State) (n : Nat) (hk : Calm r0 s) : Calm r0 (State.chaffAll s n) := by
  unfold State.chaffAll
  repeat' first
    | with_reducible assumption | intro _ | with_reducible apply calm_ite | with_reducible apply chaffSlot_calm
    | with_reducible apply calm_foldl | with_reducible apply calm_foldl_fst | with_reducible apply calm_ite_fst | extract_lets | split
    | (with_reducible refine calm_fst (by assumption) ?_) | dsimp only [id]

theorem endWork_calm {r0 : State} (s : State) (n : Nat) (hk : Calm r0 s) : Calm r0 (State.endWork s n) := by
  unfold State.endWork
  repeat' first
    | with_reducible assumption | intro _ | with_reducible apply calm_ite | with_reducible apply wr_calm
    | with_reducible apply updAct_calm | with_reducible apply calm_foldl | with_reducible apply calm_foldl_fst
    | with_reducible apply calm_ite_fst | extract_lets | split | (with_reducible refine calm_fst (by assumption) ?_) | dsimp only [id]

theorem setMode_calm {r0 : State} (s : State) (g : Nat) (m : Nat) (hk : Calm r0 s) : Calm r0 (State.setMode s g m) := by
  unfold State.setMode
  repeat' first
    | with_reducible assumption | intro _ | with_reducible apply calm_ite | with_reducible apply wrN_calm
    | with_reducible apply trace_calm | with_reducible apply calm_foldl | with_reducible apply calm_foldl_fst
    | with_reducible apply calm_ite_fst | extract_lets | split | (with_reducible refine calm_fst (by assumption) ?_) | dsimp only [id]

theorem loopSafe_calm {r0 : State} (s : State) (g : Nat) (cause : Nat) (hk : Calm r0 s) : Calm r0 (State.loopSafe s g cause) := by
  unfold State.loopSafe
  repeat' first
    | with_reducible assumption | intro _ | with_reducible apply calm_ite | with_reducible apply setMode_calm
    | with_reducible apply wrN_calm | with_reducible apply wr_calm | with_reducible apply updLoop_calm
    | with_reducible apply calm_foldl | with_reducible apply calm_foldl_fst | with_reducible apply calm_ite_fst | extract_lets | split
    | (with_reducible refine calm_fst (by assumption) ?_) | dsimp only [id]

theorem loopActionEnd_calm {r0 : State} (s : State) (g : Nat) (hk : Calm r0 s) : Calm r0 (State.loopActionEnd s g) := by
  unfold State.loopActionEnd
  repeat' first
    | with_reducible assumption | intro _ | with_reducible apply calm_ite | with_reducible apply setMode_calm
    | with_reducible apply wr_calm | with_reducible apply updLoop_calm | with_reducible apply calm_foldl
    | with_reducible apply calm_foldl_fst | with_reducible apply calm_ite_fst | extract_lets | split
    | (with_reducible refine calm_fst (by assumption) ?_) | dsimp only [id]

theorem laserManual_calm {r0 : State} (s : State) (n : Nat) (hk : Calm r0 s) : Calm r0 (State.laserManual s n) := by
  unfold State.laserManual
  repeat' first
    | with_reducible assumption | intro _ | with_reducible apply calm_ite | with_reducible apply setMode_calm
    | with_reducible apply wr_calm | with_reducible apply calm_foldl | with_reducible apply calm_foldl_fst
    | with_reducible apply calm_ite_fst | extract_lets | split | (with_reducible refine calm_fst (by assumption) ?_) | dsimp only [id]

theorem wrtDrain_calm {r0 : State} (s : State) (n : Nat) (fuel : Nat) (hk : Calm r0 s) : Calm r0 (State.wrtDrain s n fuel) := by
  induction fuel generalizing s with
  | zero =>
    unfold State.wrtDrain
    repeat' first
      | with_reducible assumption | intro _ | with_reducible apply calm_ite | with_reducible apply updPort_calm
      | with_reducible apply wrN_calm | with_reducible apply updAct_calm | with_reducible apply emit_calm
      | with_reducible apply calm_foldl | with_reducible apply calm_foldl_fst | with_reducible apply calm_ite_fst | extract_lets
      | split | (with_reducible refine calm_fst (by assumption) ?_) | dsimp only [id]
  | succ n ih =>
    unfold State.wrtDrain
    repeat' first
      | with_reducible assumption | intro _ | with_reducible apply calm_ite | with_reducible apply updPort_calm
      | with_reducible apply wrN_calm | with_reducible apply updAct_calm | with_reducible apply emit_calm | with_reducible apply ih
      | with_reducible apply calm_foldl | with_reducible apply calm_foldl_fst | with_reducible apply calm_ite_fst | extract_lets
      | split | (with_reducible refine calm_fst (by assumption) ?_) | dsimp only [id]

theorem seqClose_calm {r0 : State} (s : State) (n : Nat) (hk : Calm r0 s) : Calm r0 (State.seqClose s n) := by
  unfold State.seqClose
  repeat' first
    | with_reducible assumption | intro _ | with_reducible apply calm_ite | with_reducible apply ctl_calm
    | with_reducible apply wr_calm | with_reducible apply laserManual_calm | with_reducible apply updAct_calm
    | with_reducible apply calm_foldl | with_reducible apply calm_foldl_fst | with_reducible apply calm_ite_fst | extract_lets | split
    | (with_reducible refine calm_fst (by assumption) ?_) | dsimp only [id]

theorem gateClose_calm {r0 : State} (s : State) (n : Nat) (cause : Nat) (hk : Calm r0 s) : Calm r0 (State.gateClose s n cause) := by
  unfold State.gateClose
  repeat' first
    | with_reducible assumption | intro _ | with_reducible apply calm_ite | with_reducible apply ctl_calm
    | with_reducible apply bump_calm | with_reducible apply wrN_calm | with_reducible apply wr_calm | with_reducible apply updAct_calm
    | with_reducible apply trace_calm | with_reducible apply laserManual_calm | with_reducible apply calm_foldl
    | with_reducible apply calm_foldl_fst | with_reducible apply calm_ite_fst | extract_lets | split
    | (with_reducible refine calm_fst (by assumption) ?_) | dsimp only [id]

theorem motor_calm {r0 : State} (s : State) (h : Nat) (mode : Nat) (duty : List Nat) (t1 : Nat) (t2 : Nat) (shift : List Int) (hk : Calm
    r0 s) : Calm r0 (State.motor s h mode duty t1 t2 shift) := by
  unfold State.motor
  repeat' first
    | with_reducible assumption | intro _ | with_reducible apply calm_ite | with_reducible apply ctl_calm
    | with_reducible apply calm_foldl | with_reducible apply calm_foldl_fst | with_reducible apply calm_ite_fst | extract_lets | split
    | (with_reducible refine calm_fst (by assumption) ?_) | dsimp only [id]

theorem motorOff_calm {r0 : State} (s : State) (h : Nat) (hk : Calm r0 s) : Calm r0 (State.motorOff s h) := by
  unfold State.motorOff
  repeat' first
    | with_reducible assumption | intro _ | with_reducible apply calm_ite | with_reducible apply motor_calm
    | with_reducible apply calm_foldl | with_reducible apply calm_foldl_fst | with_reducible apply calm_ite_fst | extract_lets | split
    | (with_reducible refine calm_fst (by assumption) ?_) | dsimp only [id]

theorem spinState_calm {r0 : State} (s : State) (h : Nat) (st : Nat) (hk : Calm r0 s) : Calm r0 (State.spinState s h st) := by
  unfold State.spinState
  repeat' first
    | with_reducible assumption | intro _ | with_reducible apply calm_ite | with_reducible apply wrB_calm
    | with_reducible apply wrN_calm | with_reducible apply wrBit_calm | with_reducible apply wr_calm | with_reducible apply trace_calm
    | with_reducible apply calm_foldl | with_reducible apply calm_foldl_fst | with_reducible apply calm_ite_fst | extract_lets | split
    | (with_reducible refine calm_fst (by assumption) ?_) | dsimp only [id]

theorem spindleCoast_calm {r0 : State} (s : State) (h : Nat) (hk : Calm r0 s) : Calm r0 (State.spindleCoast s h) := by
  unfold State.spindleCoast
  repeat' first
    | with_reducible assumption | intro _ | with_reducible apply calm_ite | with_reducible apply updSpin_calm
    | with_reducible apply motorOff_calm | with_reducible apply spinState_calm | with_reducible apply calm_foldl
    | with_reducible apply calm_foldl_fst | with_reducible apply calm_ite_fst | extract_lets | split
    | (with_reducible refine calm_fst (by assumption) ?_) | dsimp only [id]

theorem loopSafeAction_calm {r0 : State} (s : State) (g : Nat) (cause : Nat) (hk : Calm r0 s) : Calm r0 (State.loopSafeAction s g cause)
    := by
  unfold State.loopSafeAction
  repeat' first
    | with_reducible assumption | intro _ | with_reducible apply calm_ite | with_reducible apply wrN_calm
    | with_reducible apply wr_calm | with_reducible apply updLoop_calm | with_reducible apply setMode_calm
    | with_reducible apply loopOut_calm | with_reducible apply loopActionEnd_calm | with_reducible apply gateClose_calm
    | with_reducible apply spindleCoast_calm | with_reducible apply calm_foldl | with_reducible apply calm_foldl_fst
    | with_reducible apply calm_ite_fst | extract_lets | split | (with_reducible refine calm_fst (by assumption) ?_) | dsimp only [id]

theorem stopAct_calm {r0 : State} (s : State) (n : Nat) (hk : Calm r0 s) : Calm r0 (State.stopAct s n) := by
  unfold State.stopAct
  repeat' first
    | with_reducible assumption | intro _ | with_reducible apply calm_ite | with_reducible apply chaffAll_calm
    | with_reducible apply updAct_calm | with_reducible apply endWork_calm | with_reducible apply laneStop_calm
    | with_reducible apply gateClose_calm | with_reducible apply loopSafeAction_calm | with_reducible apply calm_foldl
    | with_reducible apply calm_foldl_fst | with_reducible apply calm_ite_fst | extract_lets | split
    | (with_reducible refine calm_fst (by assumption) ?_) | dsimp only [id]

theorem hdaLoopsSafe_calm {r0 : State} (s : State) (h : Nat) (cause : Nat) (hk : Calm r0 s) : Calm r0 (State.hdaLoopsSafe s h cause) := by
  unfold State.hdaLoopsSafe
  repeat' first
    | with_reducible assumption | intro _ | with_reducible apply calm_ite | with_reducible apply loopSafe_calm
    | with_reducible apply calm_foldl | with_reducible apply calm_foldl_fst | with_reducible apply calm_ite_fst | extract_lets | split
    | (with_reducible refine calm_fst (by assumption) ?_) | dsimp only [id]

theorem safeLow_calm {r0 : State} (s : State) (h : Nat) (reason : Nat) (hk : Calm r0 s) : Calm r0 (State.safeLow s h reason) := by
  unfold State.safeLow
  repeat' first
    | with_reducible assumption | intro _ | with_reducible apply calm_ite | with_reducible apply updPort_calm
    | with_reducible apply ctl_calm | with_reducible apply calm_foldl | with_reducible apply calm_foldl_fst
    | with_reducible apply calm_ite_fst | extract_lets | split | (with_reducible refine calm_fst (by assumption) ?_)
    | simp only [calm_mk] | dsimp only [id]

theorem safeHigh_calm {r0 : State} (s : State) (h : Nat) (hk : Calm r0 s) : Calm r0 (State.safeHigh s h) := by
  unfold State.safeHigh
  repeat' first
    | with_reducible assumption | intro _ | with_reducible apply calm_ite | with_reducible apply ctl_calm
    | with_reducible apply calm_foldl | with_reducible apply calm_foldl_fst | with_reducible apply calm_ite_fst | extract_lets | split
    | (with_reducible refine calm_fst (by assumption) ?_) | simp only [calm_mk] | dsimp only [id]

theorem faultAudit_calm {r0 : State} (s : State) (ftype : Nat) (inst : Nat) (info : Word) (hk : Calm r0 s) : Calm r0 (State.faultAudit s
    ftype inst info) := by
  unfold State.faultAudit
  repeat' first
    | with_reducible assumption | intro _ | with_reducible apply calm_ite | with_reducible apply updFlt_calm
    | with_reducible apply audit_calm | with_reducible apply calm_foldl | with_reducible apply calm_foldl_fst
    | with_reducible apply calm_ite_fst | extract_lets | split | (with_reducible refine calm_fst (by assumption) ?_) | dsimp only [id]

theorem faultAuditRound_calm {r0 : State} (s : State) (hk : Calm r0 s) : Calm r0 (State.faultAuditRound s) := by
  unfold State.faultAuditRound
  repeat' first
    | with_reducible assumption | intro _ | with_reducible apply calm_ite | with_reducible apply updFlt_calm
    | with_reducible apply audit_calm | with_reducible apply calm_foldl | with_reducible apply calm_foldl_fst
    | with_reducible apply calm_ite_fst | extract_lets | split | (with_reducible refine calm_fst (by assumption) ?_) | dsimp only [id]

theorem injWrite_calm {r0 : State} (s : State) (ftype : Nat) (inst : Nat) (word : Nat) (hk : Calm r0 s) : Calm r0 (State.injWrite s
    ftype inst word) := by
  unfold State.injWrite
  repeat' first
    | with_reducible assumption | intro _ | with_reducible apply calm_ite | with_reducible apply updFlt_calm
    | with_reducible apply wr_calm | with_reducible apply calm_foldl | with_reducible apply calm_foldl_fst
    | with_reducible apply calm_ite_fst | extract_lets | split | (with_reducible refine calm_fst (by assumption) ?_) | dsimp only [id]

theorem injTake_calm {r0 : State} {s t : State} {k i : Nat} (h : s.injTake k i = some t) (hk : Calm r0 s) : Calm r0 t := by
  unfold State.injTake at h
  extract_lets at h
  split at h
  · cases h; split
    · exact wr_calm _ _ _ _ (updFlt_calm _ _ hk)
    · exact updFlt_calm _ _ hk
  · cases h

theorem putTag_calm {r0 : State} (s : State) (who : Nat) (id : Nat) (x : Nat) (t : Tag) (hk : Calm r0 s) : Calm r0 (State.putTag s who
    id x t) := by
  unfold State.putTag
  repeat' first
    | with_reducible assumption | intro _ | with_reducible apply calm_ite | with_reducible apply injWrite_calm
    | with_reducible apply dmaWrite_calm | with_reducible apply calm_foldl | with_reducible apply calm_foldl_fst
    | with_reducible apply calm_ite_fst | extract_lets | split | (with_reducible refine calm_fst (by assumption) ?_) | dsimp only [id]

theorem putGrain_calm {r0 : State} (s : State) (who : Nat) (id : Nat) (x : Nat) (t : Tag) (payload : List Byte) (hk : Calm r0 s) : Calm
    r0 (State.putGrain s who id x t payload) := by
  unfold State.putGrain
  repeat' first
    | with_reducible assumption | intro _ | with_reducible apply calm_ite | with_reducible apply putTag_calm
    | with_reducible apply dmaWrite_calm | with_reducible apply calm_foldl | with_reducible apply calm_foldl_fst
    | with_reducible apply calm_ite_fst | extract_lets | split | (with_reducible refine calm_fst (by assumption) ?_) | dsimp only [id]

theorem guarantee_calm {r0 : State} (s : State) (high : Nat) (low : Nat) (who : Nat) (hk : Calm r0 s) : Calm r0 (State.guarantee s high
    low who) := by
  unfold State.guarantee
  repeat' first
    | with_reducible assumption | intro _ | with_reducible apply calm_ite | with_reducible apply audit_calm
    | with_reducible apply calm_foldl | with_reducible apply calm_foldl_fst | with_reducible apply calm_ite_fst | extract_lets | split
    | (with_reducible refine calm_fst (by assumption) ?_) | dsimp only [id]

theorem breaksFor_calm {r0 : State} (s : State) (n : Nat) (high : Nat) (lows : List Nat) (hk : Calm r0 s) : Calm r0 (State.breaksFor s n
    high lows) := by
  unfold State.breaksFor
  repeat' first
    | with_reducible assumption | intro _ | with_reducible apply calm_ite | with_reducible apply guarantee_calm
    | with_reducible apply calm_foldl | with_reducible apply calm_foldl_fst | with_reducible apply calm_ite_fst | extract_lets | split
    | (with_reducible refine calm_fst (by assumption) ?_) | dsimp only [id]

theorem react_calm {r0 : State} (s : State) (r : Nat) (reason : Nat) (acts : BitVec 64) (hdas : BitVec 32) (hk : Calm r0 s) : Calm r0
    (State.react s r reason acts hdas) := by
  unfold State.react
  repeat' first
    | with_reducible assumption | intro _ | with_reducible apply calm_ite | with_reducible apply breaksFor_calm
    | with_reducible apply stopAct_calm | with_reducible apply guarantee_calm | with_reducible apply safeLow_calm
    | with_reducible apply hdaLoopsSafe_calm | with_reducible apply spindleCoast_calm | with_reducible apply calm_foldl
    | with_reducible apply calm_foldl_fst | with_reducible apply calm_ite_fst | extract_lets | split
    | (with_reducible refine calm_fst (by assumption) ?_) | dsimp only [id]

theorem faultArose_calm {r0 : State} (s : State) (was : State) (hk : Calm r0 s) : Calm r0 (State.faultArose s was) := by
  unfold State.faultArose
  repeat' first
    | with_reducible assumption | intro _ | with_reducible apply calm_ite | with_reducible apply gateClose_calm
    | with_reducible apply calm_foldl | with_reducible apply calm_foldl_fst | with_reducible apply calm_ite_fst | extract_lets | split
    | (with_reducible refine calm_fst (by assumption) ?_) | dsimp only [id]

theorem detect_calm {r0 : State} (s : State) (ftype : Nat) (inst : Nat) (info : Word) (detail : Word) (injected : Bool) (hk : Calm r0 s)
    : Calm r0 (State.detect s ftype inst info detail injected) := by
  unfold State.detect
  repeat' first
    | with_reducible assumption | intro _ | with_reducible apply calm_ite | with_reducible apply updFlt_calm
    | with_reducible apply wrBit_calm | with_reducible apply bump_calm | with_reducible apply wrN_calm | with_reducible apply wr_calm
    | with_reducible apply wrB_calm | with_reducible apply faultAudit_calm | with_reducible apply updAct_calm
    | with_reducible apply audit_calm | with_reducible apply updHusk_calm | with_reducible apply faultArose_calm
    | with_reducible apply react_calm | with_reducible apply calm_foldl | with_reducible apply calm_foldl_fst
    | with_reducible apply calm_ite_fst | extract_lets | split | (with_reducible refine calm_fst (by assumption) ?_) | dsimp only [id]

theorem withdraw_calm {r0 : State} (s : State) (a : ActiveFault) (hk : Calm r0 s) : Calm r0 (State.withdraw s a) := by
  unfold State.withdraw
  repeat' first
    | with_reducible assumption | intro _ | with_reducible apply calm_ite | with_reducible apply updAct_calm
    | with_reducible apply safeHigh_calm | with_reducible apply calm_foldl | with_reducible apply calm_foldl_fst
    | with_reducible apply calm_ite_fst | extract_lets | split | (with_reducible refine calm_fst (by assumption) ?_)
    | simp only [calm_mk] | dsimp only [id]

theorem recover_calm {r0 : State} (s : State) (ftype : Nat) (inst : Nat) (hk : Calm r0 s) : Calm r0 (State.recover s ftype inst) := by
  unfold State.recover
  repeat' first
    | with_reducible assumption | intro _ | with_reducible apply calm_ite | with_reducible apply updFlt_calm
    | with_reducible apply wrBit_calm | with_reducible apply bump_calm | with_reducible apply audit_calm
    | with_reducible apply withdraw_calm | with_reducible apply calm_foldl | with_reducible apply calm_foldl_fst
    | with_reducible apply calm_ite_fst | extract_lets | split | (with_reducible refine calm_fst (by assumption) ?_) | dsimp only [id]

theorem disEnd_calm {r0 : State} (s : State) (n : Nat) (hk : Calm r0 s) : Calm r0 (State.disEnd s n) := by
  unfold State.disEnd
  repeat' first
    | with_reducible assumption | intro _ | with_reducible apply calm_ite | with_reducible apply wr_calm
    | with_reducible apply spindleCoast_calm | with_reducible apply setMode_calm | with_reducible apply safeLow_calm
    | with_reducible apply linkOff_calm | with_reducible apply calm_foldl | with_reducible apply calm_foldl_fst
    | with_reducible apply calm_ite_fst | extract_lets | split | (with_reducible refine calm_fst (by assumption) ?_)
    | simp only [calm_mk] | dsimp only [id]

theorem refused_calm {r0 : State} (s : State) (id : Initiator) (wr : Bool) (hk : Calm r0 s) : Calm r0 (State.refused s id wr) := by
  unfold State.refused
  repeat' first
    | with_reducible assumption | intro _ | with_reducible apply calm_ite | with_reducible apply emit_calm
    | with_reducible apply calm_foldl | with_reducible apply calm_foldl_fst | with_reducible apply calm_ite_fst | extract_lets | split
    | (with_reducible refine calm_fst (by assumption) ?_) | dsimp only [id]

theorem guardAcc_calm {r0 : State} (s : State) (id : Initiator) (addr : Nat) (wr : Bool) (act : State → State) (hact : ∀ (x0 : State),
    Calm r0 x0 → Calm r0 (act x0)) (hk : Calm r0 s) : Calm r0 (State.guardAcc s id addr wr act) := by
  unfold State.guardAcc
  repeat' first
    | with_reducible assumption | intro _ | apply hact | with_reducible apply calm_ite | with_reducible apply wake_calm
    | with_reducible apply refused_calm | with_reducible apply violate_calm | with_reducible apply bumpBy_calm
    | with_reducible apply calm_foldl | with_reducible apply calm_foldl_fst | with_reducible apply calm_ite_fst | extract_lets | split
    | (with_reducible refine calm_fst (by assumption) ?_) | dsimp only [id]

theorem routeDrop_calm {r0 : State} (s : State) (i : Nat) (hk : Calm r0 s) : Calm r0 (State.routeDrop s i) := by
  unfold State.routeDrop
  repeat' first
    | with_reducible assumption | intro _ | with_reducible apply calm_ite | with_reducible apply detect_calm
    | with_reducible apply bumpBy_calm | with_reducible apply calm_foldl | with_reducible apply calm_foldl_fst
    | with_reducible apply calm_ite_fst | extract_lets | split | (with_reducible refine calm_fst (by assumption) ?_) | dsimp only [id]

theorem guard_calm {r0 : State} (s : State) (id : Initiator) (addr : Nat) (act : State → State) (hact : ∀ (x0 : State), Calm r0 x0 →
    Calm r0 (act x0)) (hk : Calm r0 s) : Calm r0 (State.guard s id addr act) := by
  unfold State.guard
  repeat' first
    | with_reducible assumption | intro _ | apply hact | with_reducible apply calm_ite | with_reducible apply guardAcc_calm
    | with_reducible apply calm_foldl | with_reducible apply calm_foldl_fst | with_reducible apply calm_ite_fst | extract_lets | split
    | (with_reducible refine calm_fst (by assumption) ?_) | dsimp only [id]

theorem wrField_calm {r0 : State} (s : State) (who : Nat) (f : RegField) (i : Nat) (j : Nat) (w : Word) (hk : Calm r0 s) : Calm r0
    (State.wrField s who f i j w) := by
  unfold State.wrField
  repeat' first
    | with_reducible assumption | intro _ | with_reducible apply calm_ite | with_reducible apply wrAt_calm
    | with_reducible apply calm_foldl | with_reducible apply calm_foldl_fst | with_reducible apply calm_ite_fst | extract_lets | split
    | (with_reducible refine calm_fst (by assumption) ?_) | dsimp only [id]

theorem updHost_calm {r0 : State} (s : State) (f : HostSt → HostSt) (hk : Calm r0 s) : Calm r0 (State.updHost s f) := by
  unfold State.updHost
  repeat' first
    | with_reducible assumption | intro _ | with_reducible apply calm_ite | with_reducible apply calm_foldl
    | with_reducible apply calm_foldl_fst | with_reducible apply calm_ite_fst | extract_lets | split
    | (with_reducible refine calm_fst (by assumption) ?_) | simp only [calm_mk] | dsimp only [id]

theorem updPool_calm {r0 : State} (s : State) (f : PoolSt → PoolSt) (hk : Calm r0 s) : Calm r0 (State.updPool s f) := by
  unfold State.updPool
  repeat' first
    | with_reducible assumption | intro _ | with_reducible apply calm_ite | with_reducible apply calm_foldl
    | with_reducible apply calm_foldl_fst | with_reducible apply calm_ite_fst | extract_lets | split
    | (with_reducible refine calm_fst (by assumption) ?_) | simp only [calm_mk] | dsimp only [id]

theorem updLed_calm {r0 : State} (s : State) (n : Nat) (f : LedgerSt → LedgerSt) (hk : Calm r0 s) : Calm r0 (State.updLed s n f) := by
  unfold State.updLed
  repeat' first
    | with_reducible assumption | intro _ | with_reducible apply calm_ite | with_reducible apply updAct_calm
    | with_reducible apply calm_foldl | with_reducible apply calm_foldl_fst | with_reducible apply calm_ite_fst | extract_lets | split
    | (with_reducible refine calm_fst (by assumption) ?_) | dsimp only [id]

theorem mqRefresh_calm {r0 : State} (s : State) (n : Nat) (hk : Calm r0 s) : Calm r0 (State.mqRefresh s n) := by
  unfold State.mqRefresh
  repeat' first
    | with_reducible assumption | intro _ | with_reducible apply calm_ite | with_reducible apply updAct_calm
    | with_reducible apply wrN_calm | with_reducible apply wrAt_calm | with_reducible apply calm_foldl
    | with_reducible apply calm_foldl_fst | with_reducible apply calm_ite_fst | extract_lets | split
    | (with_reducible refine calm_fst (by assumption) ?_) | dsimp only [id]

theorem mqPut_calm {r0 : State} (s : State) (n : Nat) (e : MqEntry) (hk : Calm r0 s) : Calm r0 (State.mqPut s n e) := by
  unfold State.mqPut
  repeat' first
    | with_reducible assumption | intro _ | with_reducible apply calm_ite | with_reducible apply guarantee_calm
    | with_reducible apply mqRefresh_calm | with_reducible apply updAct_calm | with_reducible apply calm_foldl
    | with_reducible apply calm_foldl_fst | with_reducible apply calm_ite_fst | extract_lets | split
    | (with_reducible refine calm_fst (by assumption) ?_) | dsimp only [id]

theorem mqDone_calm {r0 : State} (s : State) (n : Nat) (idx : Nat) (lbas : List Nat) (hk : Calm r0 s) : Calm r0 (State.mqDone s n idx
    lbas) := by
  unfold State.mqDone
  repeat' first
    | with_reducible assumption | intro _ | with_reducible apply calm_ite | with_reducible apply mqRefresh_calm
    | with_reducible apply updAct_calm | with_reducible apply calm_foldl | with_reducible apply calm_foldl_fst
    | with_reducible apply calm_ite_fst | extract_lets | split | (with_reducible refine calm_fst (by assumption) ?_) | dsimp only [id]

theorem mqDrop_calm {r0 : State} (s : State) (n : Nat) (p : MqEntry → Bool) (hk : Calm r0 s) : Calm r0 (State.mqDrop s n p) := by
  unfold State.mqDrop
  repeat' first
    | with_reducible assumption | intro _ | with_reducible apply calm_ite | with_reducible apply mqRefresh_calm
    | with_reducible apply updAct_calm | with_reducible apply calm_foldl | with_reducible apply calm_foldl_fst
    | with_reducible apply calm_ite_fst | extract_lets | split | (with_reducible refine calm_fst (by assumption) ?_) | dsimp only [id]

theorem mqWait_calm {r0 : State} (s : State) (n : Nat) (e : MqEntry) (hk : Calm r0 s) : Calm r0 (State.mqWait s n e) := by
  unfold State.mqWait
  repeat' first
    | with_reducible assumption | intro _ | with_reducible apply calm_ite | with_reducible apply updHost_calm
    | with_reducible apply calm_foldl | with_reducible apply calm_foldl_fst | with_reducible apply calm_ite_fst | extract_lets | split
    | (with_reducible refine calm_fst (by assumption) ?_) | dsimp only [id]

theorem msixSend_calm {r0 : State} (s : State) (v : Nat) (hk : Calm r0 s) : Calm r0 (State.msixSend s v) := by
  unfold State.msixSend
  repeat' first
    | with_reducible assumption | intro _ | with_reducible apply calm_ite | with_reducible apply updHost_calm
    | with_reducible apply emit_calm | with_reducible apply calm_foldl | with_reducible apply calm_foldl_fst
    | with_reducible apply calm_ite_fst | extract_lets | split | (with_reducible refine calm_fst (by assumption) ?_) | dsimp only [id]

theorem updCmd_calm {r0 : State} (s : State) (slot : Nat) (f : Cmd → Cmd) (hk : Calm r0 s) : Calm r0 (State.updCmd s slot f) := by
  unfold State.updCmd
  repeat' first
    | with_reducible assumption | intro _ | with_reducible apply calm_ite | with_reducible apply updHost_calm
    | with_reducible apply calm_foldl | with_reducible apply calm_foldl_fst | with_reducible apply calm_ite_fst | extract_lets | split
    | (with_reducible refine calm_fst (by assumption) ?_) | dsimp only [id]

theorem cqIrq_calm {r0 : State} (s : State) (q : Cq) (hk : Calm r0 s) : Calm r0 (State.cqIrq s q) := by
  unfold State.cqIrq
  repeat' first
    | with_reducible assumption | intro _ | with_reducible apply calm_ite | with_reducible apply msixSend_calm
    | with_reducible apply updHost_calm | with_reducible apply calm_foldl | with_reducible apply calm_foldl_fst
    | with_reducible apply calm_ite_fst | extract_lets | split | (with_reducible refine calm_fst (by assumption) ?_) | dsimp only [id]

theorem cqPost_calm {r0 : State} (s : State) (c : Cmd) (q : Cq) (status : Nat) (dw0 : Word) (dw1 : Word) (hk : Calm r0 s) : Calm r0
    (State.cqPost s c q status dw0 dw1) := by
  unfold State.cqPost
  repeat' first
    | with_reducible assumption | intro _ | with_reducible apply calm_ite | with_reducible apply emit_calm
    | with_reducible apply updHost_calm | with_reducible apply cqIrq_calm | with_reducible apply calm_foldl
    | with_reducible apply calm_foldl_fst | with_reducible apply calm_ite_fst | extract_lets | split
    | (with_reducible refine calm_fst (by assumption) ?_) | dsimp only [id]

theorem ackRefresh_calm {r0 : State} (s : State) (hk : Calm r0 s) : Calm r0 (State.ackRefresh s) := by
  unfold State.ackRefresh
  repeat' first
    | with_reducible assumption | intro _ | with_reducible apply calm_ite | with_reducible apply wrN_calm
    | with_reducible apply calm_foldl | with_reducible apply calm_foldl_fst | with_reducible apply calm_ite_fst | extract_lets | split
    | (with_reducible refine calm_fst (by assumption) ?_) | dsimp only [id]

theorem bufRefresh_calm {r0 : State} (s : State) (hk : Calm r0 s) : Calm r0 (State.bufRefresh s) := by
  unfold State.bufRefresh
  repeat' first
    | with_reducible assumption | intro _ | with_reducible apply calm_ite | with_reducible apply ackRefresh_calm
    | with_reducible apply wrN_calm | with_reducible apply calm_foldl | with_reducible apply calm_foldl_fst
    | with_reducible apply calm_ite_fst | extract_lets | split | (with_reducible refine calm_fst (by assumption) ?_) | dsimp only [id]

theorem unpin_calm {r0 : State} (s : State) (slot : Nat) (hk : Calm r0 s) : Calm r0 (State.unpin s slot) := by
  unfold State.unpin
  repeat' first
    | with_reducible assumption | intro _ | with_reducible apply calm_ite | with_reducible apply updHost_calm
    | with_reducible apply calm_foldl | with_reducible apply calm_foldl_fst | with_reducible apply calm_ite_fst | extract_lets | split
    | (with_reducible refine calm_fst (by assumption) ?_) | simp only [calm_mk] | dsimp only [id]

theorem slotDrop_calm {r0 : State} (s : State) (slot : Nat) (hk : Calm r0 s) : Calm r0 (State.slotDrop s slot) := by
  unfold State.slotDrop
  repeat' first
    | with_reducible assumption | intro _ | with_reducible apply calm_ite | with_reducible apply updHost_calm
    | with_reducible apply mqDrop_calm | with_reducible apply bufRefresh_calm | with_reducible apply wrN_calm
    | with_reducible apply unpin_calm | with_reducible apply calm_foldl | with_reducible apply calm_foldl_fst
    | with_reducible apply calm_ite_fst | extract_lets | split | (with_reducible refine calm_fst (by assumption) ?_) | dsimp only [id]

theorem cmdMqDrop_calm {r0 : State} (s : State) (c : Cmd) (hk : Calm r0 s) : Calm r0 (State.cmdMqDrop s c) := by
  unfold State.cmdMqDrop
  repeat' first
    | with_reducible assumption | intro _ | with_reducible apply calm_ite | with_reducible apply updHost_calm
    | with_reducible apply mqDrop_calm | with_reducible apply calm_foldl | with_reducible apply calm_foldl_fst
    | with_reducible apply calm_ite_fst | extract_lets | split | (with_reducible refine calm_fst (by assumption) ?_) | dsimp only [id]

theorem complete_calm {r0 : State} (s : State) (slot : Nat) (status : Nat) (dw0 : Word) (dw1 : Word) (hk : Calm r0 s) : Calm r0
    (State.complete s slot status dw0 dw1) := by
  unfold State.complete
  repeat' first
    | with_reducible assumption | intro _ | with_reducible apply calm_ite | with_reducible apply cmdMqDrop_calm
    | with_reducible apply updCmd_calm | with_reducible apply slotDrop_calm | with_reducible apply cqPost_calm
    | with_reducible apply calm_foldl | with_reducible apply calm_foldl_fst | with_reducible apply calm_ite_fst | extract_lets | split
    | (with_reducible refine calm_fst (by assumption) ?_) | simp only [calm_mk] | dsimp only [id]

theorem abortWork_calm {r0 : State} (s : State) (c : Cmd) (hk : Calm r0 s) : Calm r0 (State.abortWork s c) := by
  unfold State.abortWork
  repeat' first
    | with_reducible assumption | intro _ | with_reducible apply calm_ite | with_reducible apply updHost_calm
    | with_reducible apply cmdMqDrop_calm | with_reducible apply mqRefresh_calm | with_reducible apply updAct_calm
    | with_reducible apply endWork_calm | with_reducible apply chaffSlot_calm | with_reducible apply updPool_calm
    | with_reducible apply bufRefresh_calm | with_reducible apply unpin_calm | with_reducible apply updCmd_calm
    | with_reducible apply calm_foldl | with_reducible apply calm_foldl_fst | with_reducible apply calm_ite_fst | extract_lets | split
    | (with_reducible refine calm_fst (by assumption) ?_) | dsimp only [id]

theorem failActs_calm {r0 : State} (s : State) (n : Nat) (status : Nat) (hk : Calm r0 s) : Calm r0 (State.failActs s n status) := by
  unfold State.failActs
  repeat' first
    | with_reducible assumption | intro _ | with_reducible apply calm_ite | with_reducible apply complete_calm
    | with_reducible apply abortWork_calm | with_reducible apply calm_foldl | with_reducible apply calm_foldl_fst
    | with_reducible apply calm_ite_fst | extract_lets | split | (with_reducible refine calm_fst (by assumption) ?_) | dsimp only [id]

theorem failHeld_calm {r0 : State} (s : State) (hk : Calm r0 s) : Calm r0 (State.failHeld s) := by
  unfold State.failHeld
  repeat' first
    | with_reducible assumption | intro _ | with_reducible apply calm_ite | with_reducible apply failActs_calm
    | with_reducible apply calm_foldl | with_reducible apply calm_foldl_fst | with_reducible apply calm_ite_fst | extract_lets | split
    | (with_reducible refine calm_fst (by assumption) ?_) | dsimp only [id]

theorem raise_calm {r0 : State} (s : State) (ftype : Nat) (inst : Nat) (info : Word) (injected : Bool) (hk : Calm r0 s) : Calm r0
    (State.raise s ftype inst info injected) := by
  unfold State.raise
  repeat' first
    | with_reducible assumption | intro _ | with_reducible apply calm_ite | with_reducible apply failHeld_calm
    | with_reducible apply detect_calm | with_reducible apply calm_foldl | with_reducible apply calm_foldl_fst
    | with_reducible apply calm_ite_fst | extract_lets | split | (with_reducible refine calm_fst (by assumption) ?_) | dsimp only [id]

theorem aerServe_calm {r0 : State} (s : State) (fuel : Nat) (hk : Calm r0 s) : Calm r0 (State.aerServe s fuel) := by
  induction fuel generalizing s with
  | zero =>
    unfold State.aerServe
    repeat' first
      | with_reducible assumption | intro _ | with_reducible apply calm_ite | with_reducible apply updHost_calm
      | with_reducible apply complete_calm | with_reducible apply calm_foldl | with_reducible apply calm_foldl_fst
      | with_reducible apply calm_ite_fst | extract_lets | split | (with_reducible refine calm_fst (by assumption) ?_)
      | dsimp only [id]
  | succ n ih =>
    unfold State.aerServe
    repeat' first
      | with_reducible assumption | intro _ | with_reducible apply calm_ite | with_reducible apply updHost_calm
      | with_reducible apply complete_calm | with_reducible apply ih | with_reducible apply calm_foldl
      | with_reducible apply calm_foldl_fst | with_reducible apply calm_ite_fst | extract_lets | split
      | (with_reducible refine calm_fst (by assumption) ?_) | dsimp only [id]

theorem event_calm {r0 : State} (s : State) (typ : Nat) (info : Nat) (log : Nat) (hk : Calm r0 s) : Calm r0 (State.event s typ info log)
    := by
  unfold State.event
  repeat' first
    | with_reducible assumption | intro _ | with_reducible apply calm_ite | with_reducible apply aerServe_calm
    | with_reducible apply updHost_calm | with_reducible apply calm_foldl | with_reducible apply calm_foldl_fst
    | with_reducible apply calm_ite_fst | extract_lets | split | (with_reducible refine calm_fst (by assumption) ?_) | dsimp only [id]

theorem stage_calm {r0 : State} (s : State) (n : Nat) (k : Nat) (hk : Calm r0 s) : Calm r0 (State.stage s n k) := by
  unfold State.stage
  repeat' first
    | with_reducible assumption | intro _ | with_reducible apply calm_ite | with_reducible apply updLed_calm
    | with_reducible apply wrN_calm | with_reducible apply raise_calm | with_reducible apply calm_foldl
    | with_reducible apply calm_foldl_fst | with_reducible apply calm_ite_fst | extract_lets | split
    | (with_reducible refine calm_fst (by assumption) ?_) | dsimp only [id]

theorem lostAdd_calm {r0 : State} (s : State) (n : Nat) (conv : Bool) (first : Nat) (count : Nat) (cause : Nat) (hk : Calm r0 s) : Calm
    r0 (State.lostAdd s n conv first count cause) := by
  unfold State.lostAdd
  repeat' first
    | with_reducible assumption | intro _ | with_reducible apply calm_ite | with_reducible apply stage_calm
    | with_reducible apply updLed_calm | with_reducible apply calm_foldl | with_reducible apply calm_foldl_fst
    | with_reducible apply calm_ite_fst | extract_lets | split | (with_reducible refine calm_fst (by assumption) ?_) | dsimp only [id]

theorem lostRemove_calm {r0 : State} (s : State) (n : Nat) (conv : Bool) (first : Nat) (count : Nat) (hk : Calm r0 s) : Calm r0
    (State.lostRemove s n conv first count) := by
  unfold State.lostRemove
  repeat' first
    | with_reducible assumption | intro _ | with_reducible apply calm_ite | with_reducible apply updAct_calm
    | with_reducible apply stage_calm | with_reducible apply updLed_calm | with_reducible apply calm_foldl
    | with_reducible apply calm_foldl_fst | with_reducible apply calm_ite_fst | extract_lets | split
    | (with_reducible refine calm_fst (by assumption) ?_) | dsimp only [id]

theorem zoneRefresh_calm {r0 : State} (s : State) (n : Nat) (hk : Calm r0 s) : Calm r0 (State.zoneRefresh s n) := by
  unfold State.zoneRefresh
  repeat' first
    | with_reducible assumption | intro _ | with_reducible apply calm_ite | with_reducible apply wrN_calm
    | with_reducible apply calm_foldl | with_reducible apply calm_foldl_fst | with_reducible apply calm_ite_fst | extract_lets | split
    | (with_reducible refine calm_fst (by assumption) ?_) | dsimp only [id]

theorem setZone_calm {r0 : State} (s : State) (n : Nat) (z : Nat) (f : ZoneSt → ZoneSt) (hk : Calm r0 s) : Calm r0 (State.setZone s n z
    f) := by
  unfold State.setZone
  repeat' first
    | with_reducible assumption | intro _ | with_reducible apply calm_ite | with_reducible apply zoneRefresh_calm
    | with_reducible apply updLed_calm | with_reducible apply calm_foldl | with_reducible apply calm_foldl_fst
    | with_reducible apply calm_ite_fst | extract_lets | split | (with_reducible refine calm_fst (by assumption) ?_) | dsimp only [id]

theorem zoneMap_calm {r0 : State} (s : State) (n : Nat) (z : Nat) (m : Nat) (hk : Calm r0 s) : Calm r0 (State.zoneMap s n z m) := by
  unfold State.zoneMap
  repeat' first
    | with_reducible assumption | intro _ | with_reducible apply calm_ite | with_reducible apply stage_calm
    | with_reducible apply setZone_calm | with_reducible apply calm_foldl | with_reducible apply calm_foldl_fst
    | with_reducible apply calm_ite_fst | extract_lets | split | (with_reducible refine calm_fst (by assumption) ?_) | dsimp only [id]

theorem eraseZone_calm {r0 : State} (s : State) (n : Nat) (z : Nat) (prio : Nat) (hk : Calm r0 s) : Calm r0 (State.eraseZone s n z prio)
    := by
  unfold State.eraseZone
  repeat' first
    | with_reducible assumption | intro _ | with_reducible apply calm_ite | with_reducible apply mqRefresh_calm
    | with_reducible apply updHost_calm | with_reducible apply updAct_calm | with_reducible apply mqWait_calm
    | with_reducible apply calm_foldl | with_reducible apply calm_foldl_fst | with_reducible apply calm_ite_fst | extract_lets | split
    | (with_reducible refine calm_fst (by assumption) ?_) | dsimp only [id]

theorem eraseNext_calm {r0 : State} (s : State) (n : Nat) (hk : Calm r0 s) : Calm r0 (State.eraseNext s n) := by
  unfold State.eraseNext
  repeat' first
    | with_reducible assumption | intro _ | with_reducible apply calm_ite | with_reducible apply eraseZone_calm
    | with_reducible apply calm_foldl | with_reducible apply calm_foldl_fst | with_reducible apply calm_ite_fst | extract_lets | split
    | (with_reducible refine calm_fst (by assumption) ?_) | dsimp only [id]

theorem accRebuild_calm {r0 : State} (s : State) (n : Nat) (z : Nat) (prio : Nat) (hk : Calm r0 s) : Calm r0 (State.accRebuild s n z
    prio) := by
  unfold State.accRebuild
  repeat' first
    | with_reducible assumption | intro _ | with_reducible apply calm_ite | with_reducible apply mqRefresh_calm
    | with_reducible apply updHost_calm | with_reducible apply updAct_calm | with_reducible apply mqWait_calm
    | with_reducible apply calm_foldl | with_reducible apply calm_foldl_fst | with_reducible apply calm_ite_fst | extract_lets | split
    | (with_reducible refine calm_fst (by assumption) ?_) | dsimp only [id]

theorem queueSpares_calm {r0 : State} (s : State) (n : Nat) (z : Nat) (hk : Calm r0 s) : Calm r0 (State.queueSpares s n z) := by
  unfold State.queueSpares
  repeat' first
    | with_reducible assumption | intro _ | with_reducible apply calm_ite | with_reducible apply accRebuild_calm
    | with_reducible apply mqWait_calm | with_reducible apply calm_foldl | with_reducible apply calm_foldl_fst
    | with_reducible apply calm_ite_fst | extract_lets | split | (with_reducible refine calm_fst (by assumption) ?_) | dsimp only [id]

theorem zoneFull_calm {r0 : State} (s : State) (n : Nat) (z : Nat) (hk : Calm r0 s) : Calm r0 (State.zoneFull s n z) := by
  unfold State.zoneFull
  repeat' first
    | with_reducible assumption | intro _ | with_reducible apply calm_ite | with_reducible apply setZone_calm
    | with_reducible apply queueSpares_calm | with_reducible apply calm_foldl | with_reducible apply calm_foldl_fst
    | with_reducible apply calm_ite_fst | extract_lets | split | (with_reducible refine calm_fst (by assumption) ?_) | dsimp only [id]

theorem gapFill_calm {r0 : State} (s : State) (n : Nat) (z : Nat) (prio : Nat) (hk : Calm r0 s) : Calm r0 (State.gapFill s n z prio) := by
  unfold State.gapFill
  repeat' first
    | with_reducible assumption | intro _ | with_reducible apply calm_ite | with_reducible apply mqWait_calm
    | with_reducible apply calm_foldl | with_reducible apply calm_foldl_fst | with_reducible apply calm_ite_fst | extract_lets | split
    | (with_reducible refine calm_fst (by assumption) ?_) | dsimp only [id]

theorem zoneErase_calm {r0 : State} (s : State) (n : Nat) (z : Nat) (hk : Calm r0 s) : Calm r0 (State.zoneErase s n z) := by
  unfold State.zoneErase
  repeat' first
    | with_reducible assumption | intro _ | with_reducible apply calm_ite | with_reducible apply updLed_calm
    | with_reducible apply stage_calm | with_reducible apply lostRemove_calm | with_reducible apply setZone_calm
    | with_reducible apply updAct_calm | with_reducible apply mqDrop_calm | with_reducible apply updHost_calm
    | with_reducible apply updPool_calm | with_reducible apply eraseNext_calm | with_reducible apply calm_foldl
    | with_reducible apply calm_foldl_fst | with_reducible apply calm_ite_fst | extract_lets | split
    | (with_reducible refine calm_fst (by assumption) ?_) | dsimp only [id]

theorem zoneParity_calm {r0 : State} (s : State) (n : Nat) (z : Nat) (hk : Calm r0 s) : Calm r0 (State.zoneParity s n z) := by
  unfold State.zoneParity
  repeat' first
    | with_reducible assumption | intro _ | with_reducible apply calm_ite | with_reducible apply mqWait_calm
    | with_reducible apply calm_foldl | with_reducible apply calm_foldl_fst | with_reducible apply calm_ite_fst | extract_lets | split
    | (with_reducible refine calm_fst (by assumption) ?_) | dsimp only [id]

theorem parityRefresh_calm {r0 : State} (s : State) (n : Nat) (hk : Calm r0 s) : Calm r0 (State.parityRefresh s n) := by
  unfold State.parityRefresh
  repeat' first
    | with_reducible assumption | intro _ | with_reducible apply calm_ite | with_reducible apply wrN_calm
    | with_reducible apply mqWait_calm | with_reducible apply calm_foldl | with_reducible apply calm_foldl_fst
    | with_reducible apply calm_ite_fst | extract_lets | split | (with_reducible refine calm_fst (by assumption) ?_) | dsimp only [id]

theorem parityStale_calm {r0 : State} (s : State) (n : Nat) (key : Nat) (hk : Calm r0 s) : Calm r0 (State.parityStale s n key) := by
  unfold State.parityStale
  repeat' first
    | with_reducible assumption | intro _ | with_reducible apply calm_ite | with_reducible apply updAct_calm
    | with_reducible apply mqDrop_calm | with_reducible apply updHost_calm | with_reducible apply parityRefresh_calm
    | with_reducible apply calm_foldl | with_reducible apply calm_foldl_fst | with_reducible apply calm_ite_fst | extract_lets | split
    | (with_reducible refine calm_fst (by assumption) ?_) | dsimp only [id]

theorem settleZones_calm {r0 : State} (s : State) (hk : Calm r0 s) : Calm r0 (State.settleZones s) := by
  unfold State.settleZones
  repeat' first
    | with_reducible assumption | intro _ | with_reducible apply calm_ite | with_reducible apply zoneErase_calm
    | with_reducible apply mqDrop_calm | with_reducible apply updHost_calm | with_reducible apply updCmd_calm
    | with_reducible apply accRebuild_calm | with_reducible apply zoneParity_calm | with_reducible apply zoneMap_calm
    | with_reducible apply calm_foldl | with_reducible apply calm_foldl_fst | with_reducible apply calm_ite_fst | extract_lets | split
    | (with_reducible refine calm_fst (by assumption) ?_) | dsimp only [id]

theorem settle_calm {r0 : State} (s : State) (hk : Calm r0 s) : Calm r0 (State.settle s) := by
  unfold State.settle
  repeat' first
    | with_reducible assumption | intro _ | with_reducible apply calm_ite | with_reducible apply settleZones_calm
    | with_reducible apply failHeld_calm | with_reducible apply updCmd_calm | with_reducible apply complete_calm
    | with_reducible apply calm_foldl | with_reducible apply calm_foldl_fst | with_reducible apply calm_ite_fst | extract_lets | split
    | (with_reducible refine calm_fst (by assumption) ?_) | dsimp only [id]

theorem parityRead_calm {r0 : State} (s : State) (n : Nat) (x : MqEntry) (k : Nat) (t : Nat) (seg : Nat) (hk : Calm r0 s) : Calm r0
    (State.parityRead s n x k t seg) := by
  unfold State.parityRead
  repeat' first
    | with_reducible assumption | intro _ | with_reducible apply calm_ite | with_reducible apply mqWait_calm
    | with_reducible apply parityRefresh_calm | with_reducible apply updAct_calm | with_reducible apply settle_calm
    | with_reducible apply calm_foldl | with_reducible apply calm_foldl_fst | with_reducible apply calm_ite_fst | extract_lets | split
    | (with_reducible refine calm_fst (by assumption) ?_) | dsimp only [id]

theorem tagIn_calm {r0 : State} (s : State) (cls inst : Nat) (good bad : State → State) (hgood : ∀ x, Calm r0 x → Calm r0 (good x))
    (hbad : ∀ x, Calm r0 x → Calm r0 (bad x)) (hk : Calm r0 s) : Calm r0 (State.tagIn s cls inst good bad) := by
  unfold State.tagIn
  split
  · exact hbad _ (raise_calm _ _ _ _ _ (injTake_calm (by assumption) hk))
  · exact hgood _ hk

theorem sampleIn_calm {r0 : State} (s : State) (t : Tag) (good : State → State) (bad : State → State) (hgood : ∀ (x0 : State), Calm r0
    x0 → Calm r0 (good x0)) (hbad : ∀ (x0 : State), Calm r0 x0 → Calm r0 (bad x0)) (hk : Calm r0 s) : Calm r0 (State.sampleIn s t good
    bad) := by
  unfold State.sampleIn
  repeat' first
    | with_reducible assumption | intro _ | apply hgood | apply hbad | with_reducible apply calm_ite | with_reducible apply tagIn_calm
    | with_reducible apply calm_foldl | with_reducible apply calm_foldl_fst | with_reducible apply calm_ite_fst | extract_lets | split
    | (with_reducible refine calm_fst (by assumption) ?_) | dsimp only [id]

theorem badGrain_calm {r0 : State} (s : State) (ftype : Nat) (inst : Nat) (g : BufGrain) (inj : Bool) (hk : Calm r0 s) : Calm r0
    (State.badGrain s ftype inst g inj) := by
  unfold State.badGrain
  repeat' first
    | with_reducible assumption | intro _ | with_reducible apply calm_ite | with_reducible apply raise_calm
    | with_reducible apply bufRefresh_calm | with_reducible apply lostAdd_calm | with_reducible apply complete_calm
    | with_reducible apply updHost_calm | with_reducible apply mqRefresh_calm | with_reducible apply updAct_calm
    | with_reducible apply putGrain_calm | with_reducible apply calm_foldl | with_reducible apply calm_foldl_fst
    | with_reducible apply calm_ite_fst | extract_lets | split | (with_reducible refine calm_fst (by assumption) ?_)
    | simp only [calm_mk] | dsimp only [id]

theorem deliver_calm {r0 : State} (s : State) (g : Grain) (hk : Calm r0 s) : Calm r0 (State.deliver s g) := by
  unfold State.deliver
  repeat' first
    | with_reducible assumption | intro _ | with_reducible apply calm_ite | with_reducible apply bump_calm
    | with_reducible apply tagIn_calm | with_reducible apply emit_calm | with_reducible apply settle_calm
    | with_reducible apply updCmd_calm | with_reducible apply complete_calm | with_reducible apply calm_foldl
    | with_reducible apply calm_foldl_fst | with_reducible apply calm_ite_fst | extract_lets | split
    | (with_reducible refine calm_fst (by assumption) ?_) | dsimp only [id]

theorem noticeRefresh_calm {r0 : State} (s : State) (hk : Calm r0 s) : Calm r0 (State.noticeRefresh s) := by
  unfold State.noticeRefresh
  repeat' first
    | with_reducible assumption | intro _ | with_reducible apply calm_ite | with_reducible apply wrN_calm
    | with_reducible apply calm_foldl | with_reducible apply calm_foldl_fst | with_reducible apply calm_ite_fst | extract_lets | split
    | (with_reducible refine calm_fst (by assumption) ?_) | dsimp only [id]

theorem capFree_calm {r0 : State} (s : State) (n : Nat) (c : Option Nat) (hk : Calm r0 s) : Calm r0 (State.capFree s n c) := by
  unfold State.capFree
  repeat' first
    | with_reducible assumption | intro _ | with_reducible apply calm_ite | with_reducible apply capsFree_calm
    | with_reducible apply calm_foldl | with_reducible apply calm_foldl_fst | with_reducible apply calm_ite_fst | extract_lets | split
    | (with_reducible refine calm_fst (by assumption) ?_) | dsimp only [id]

theorem releaseNotices_calm {r0 : State} (s : State) (n : Nat) (ep : BitVec 16) (hk : Calm r0 s) : Calm r0 (State.releaseNotices s n ep)
    := by
  unfold State.releaseNotices
  repeat' first
    | with_reducible assumption | intro _ | with_reducible apply calm_ite | with_reducible apply noticeRefresh_calm
    | with_reducible apply updPool_calm | with_reducible apply wrN_calm | with_reducible apply calm_foldl
    | with_reducible apply calm_foldl_fst | with_reducible apply calm_ite_fst | extract_lets | split
    | (with_reducible refine calm_fst (by assumption) ?_) | dsimp only [id]

theorem rxSeq_calm {r0 : State} (s : State) (h : Nat) (sid : Nat) (side : Nat) (seq : BitVec 10) (hk : Calm r0 s) : Calm r0 (State.rxSeq
    s h sid side seq) := by
  unfold State.rxSeq
  repeat' first
    | with_reducible assumption | intro _ | with_reducible apply calm_ite | with_reducible apply bump_calm
    | with_reducible apply updPort_calm | with_reducible apply calm_foldl | with_reducible apply calm_foldl_fst
    | with_reducible apply calm_ite_fst | extract_lets | split | (with_reducible refine calm_fst (by assumption) ?_) | dsimp only [id]

theorem rxBad_calm {r0 : State} (s : State) (h : Nat) (hk : Calm r0 s) : Calm r0 (State.rxBad s h) := by
  unfold State.rxBad
  repeat' first
    | with_reducible assumption | intro _ | with_reducible apply calm_ite | with_reducible apply bump_calm
    | with_reducible apply calm_foldl | with_reducible apply calm_foldl_fst | with_reducible apply calm_ite_fst | extract_lets | split
    | (with_reducible refine calm_fst (by assumption) ?_) | dsimp only [id]

theorem rxCtl_calm {r0 : State} (s : State) (h : Nat) (side : Nat) (op : Nat) (hdr : UpHdr) (operands : List Nat) (act : State → State)
    (hact : ∀ (x0 : State), Calm r0 x0 → Calm r0 (act x0)) (hk : Calm r0 s) : Calm r0 (State.rxCtl s h side op hdr operands act) := by
  unfold State.rxCtl
  repeat' first
    | with_reducible assumption | intro _ | apply hact | with_reducible apply calm_ite | with_reducible apply rxSeq_calm
    | with_reducible apply trace_calm | with_reducible apply bump_calm | with_reducible apply calm_foldl
    | with_reducible apply calm_foldl_fst | with_reducible apply calm_ite_fst | extract_lets | split
    | (with_reducible refine calm_fst (by assumption) ?_) | dsimp only [id]

theorem attempt_calm {r0 : State} (s : State) (h : Nat) (hk : Calm r0 s) : Calm r0 (State.attempt s h) := by
  unfold State.attempt
  repeat' first
    | with_reducible assumption | intro _ | with_reducible apply calm_ite | with_reducible apply flashEnd_calm
    | with_reducible apply lanesIdle_calm | with_reducible apply wr_calm | with_reducible apply bump_calm
    | with_reducible apply updPort_calm | with_reducible apply trace_calm | with_reducible apply calm_foldl
    | with_reducible apply calm_foldl_fst | with_reducible apply calm_ite_fst | extract_lets | split
    | (with_reducible refine calm_fst (by assumption) ?_) | dsimp only [id]

theorem attemptFail_calm {r0 : State} (s : State) (h : Nat) (hk : Calm r0 s) : Calm r0 (State.attemptFail s h) := by
  unfold State.attemptFail
  repeat' first
    | with_reducible assumption | intro _ | with_reducible apply calm_ite | with_reducible apply updPort_calm
    | with_reducible apply lanesIdle_calm | with_reducible apply wr_calm | with_reducible apply trace_calm
    | with_reducible apply attempt_calm | with_reducible apply raise_calm | with_reducible apply calm_foldl
    | with_reducible apply calm_foldl_fst | with_reducible apply calm_ite_fst | extract_lets | split
    | (with_reducible refine calm_fst (by assumption) ?_) | dsimp only [id]

theorem eqLane_calm {r0 : State} (s : State) (h : Nat) (i : Nat) (hk : Calm r0 s) : Calm r0 (State.eqLane s h i) := by
  unfold State.eqLane
  repeat' first
    | with_reducible assumption | intro _ | with_reducible apply calm_ite | with_reducible apply tick_calm
    | with_reducible apply wrAt_calm | with_reducible apply calm_foldl | with_reducible apply calm_foldl_fst
    | with_reducible apply calm_ite_fst | extract_lets | split | (with_reducible refine calm_fst (by assumption) ?_) | dsimp only [id]

theorem deskewLane_calm {r0 : State} (s : State) (h : Nat) (i : Nat) (hk : Calm r0 s) : Calm r0 (State.deskewLane s h i) := by
  unfold State.deskewLane
  repeat' first
    | with_reducible assumption | intro _ | with_reducible apply calm_ite | with_reducible apply tick_calm
    | with_reducible apply wrAt_calm | with_reducible apply calm_foldl | with_reducible apply calm_foldl_fst
    | with_reducible apply calm_ite_fst | extract_lets | split | (with_reducible refine calm_fst (by assumption) ?_) | dsimp only [id]

theorem trainOut_calm {r0 : State} (s : State) (h : Nat) (from_ : Nat) (to_ : Nat) (tstate : Nat) (hk : Calm r0 s) : Calm r0
    (State.trainOut s h from_ to_ tstate) := by
  unfold State.trainOut
  repeat' first
    | with_reducible assumption | intro _ | with_reducible apply calm_ite | with_reducible apply emit_calm
    | with_reducible apply calm_foldl | with_reducible apply calm_foldl_fst | with_reducible apply calm_ite_fst | extract_lets | split
    | (with_reducible refine calm_fst (by assumption) ?_) | dsimp only [id]

theorem unbind_calm {r0 : State} (s : State) (h : Nat) (cause : Nat) (hk : Calm r0 s) : Calm r0 (State.unbind s h cause) := by
  unfold State.unbind
  repeat' first
    | with_reducible assumption | intro _ | with_reducible apply calm_ite | with_reducible apply wrAt_calm
    | with_reducible apply lanesIdle_calm | with_reducible apply wrBit_calm | with_reducible apply raise_calm
    | with_reducible apply audit_calm | with_reducible apply updAct_calm | with_reducible apply calm_foldl
    | with_reducible apply calm_foldl_fst | with_reducible apply calm_ite_fst | extract_lets | split
    | (with_reducible refine calm_fst (by assumption) ?_) | simp only [calm_mk] | dsimp only [id]

theorem readCopy_calm {r0 : State} (s : State) (h : Nat) (copy : Nat) (b : List Byte) (hk : Calm r0 s) : Calm r0 (State.readCopy s h
    copy b) := by
  unfold State.readCopy
  repeat' first
    | with_reducible assumption | intro _ | with_reducible apply calm_ite | with_reducible apply ctl_calm
    | with_reducible apply calm_foldl | with_reducible apply calm_foldl_fst | with_reducible apply calm_ite_fst | extract_lets | split
    | (with_reducible refine calm_fst (by assumption) ?_) | dsimp only [id]

theorem portUp_calm {r0 : State} (s : State) (h : Nat) (d : Desc) (hk : Calm r0 s) : Calm r0 (State.portUp s h d) := by
  unfold State.portUp
  repeat' first
    | with_reducible assumption | intro _ | with_reducible apply calm_ite | with_reducible apply updPort_calm
    | with_reducible apply wrAt_calm | with_reducible apply wr_calm | with_reducible apply wrB_calm
    | with_reducible apply safeHigh_calm | with_reducible apply trace_calm | with_reducible apply calm_foldl
    | with_reducible apply calm_foldl_fst | with_reducible apply calm_ite_fst | extract_lets | split
    | (with_reducible refine calm_fst (by assumption) ?_) | simp only [calm_mk] | dsimp only [id]

theorem lose_calm {r0 : State} (s : State) (h : Nat) (cause : Nat) (hk : Calm r0 s) : Calm r0 (State.lose s h cause) := by
  unfold State.lose
  repeat' first
    | with_reducible assumption | intro _ | with_reducible apply calm_ite | with_reducible apply lanesIdle_calm
    | with_reducible apply wr_calm | with_reducible apply endWork_calm | with_reducible apply chaffAll_calm
    | with_reducible apply gateClose_calm | with_reducible apply updAct_calm | with_reducible apply hdaLoopsSafe_calm
    | with_reducible apply spindleCoast_calm | with_reducible apply wrN_calm | with_reducible apply bump_calm
    | with_reducible apply flashEnd_calm | with_reducible apply updPort_calm | with_reducible apply raise_calm
    | with_reducible apply calm_foldl | with_reducible apply calm_foldl_fst | with_reducible apply calm_ite_fst | extract_lets | split
    | (with_reducible refine calm_fst (by assumption) ?_) | simp only [calm_mk] | dsimp only [id]

theorem linkDown_calm {r0 : State} (s : State) (h : Nat) (hk : Calm r0 s) : Calm r0 (State.linkDown s h) := by
  unfold State.linkDown
  repeat' first
    | with_reducible assumption | intro _ | with_reducible apply calm_ite | with_reducible apply lose_calm
    | with_reducible apply wr_calm | with_reducible apply lanesIdle_calm | with_reducible apply updPort_calm
    | with_reducible apply calm_foldl | with_reducible apply calm_foldl_fst | with_reducible apply calm_ite_fst | extract_lets | split
    | (with_reducible refine calm_fst (by assumption) ?_) | dsimp only [id]

theorem flashWord_calm {r0 : State} (s : State) (h : Nat) (m : Nat) (hk : Calm r0 s) : Calm r0 (State.flashWord s h m) := by
  unfold State.flashWord
  repeat' first
    | with_reducible assumption | intro _ | with_reducible apply calm_ite | with_reducible apply ctl_calm
    | with_reducible apply dmaReadViol_calm | with_reducible apply calm_foldl | with_reducible apply calm_foldl_fst
    | with_reducible apply calm_ite_fst | extract_lets | split | (with_reducible refine calm_fst (by assumption) ?_) | dsimp only [id]

theorem flash_calm {r0 : State} (s : State) (h : Nat) (cmd : Nat) (hk : Calm r0 s) : Calm r0 (State.flash s h cmd) := by
  unfold State.flash
  repeat' first
    | with_reducible assumption | intro _ | with_reducible apply calm_ite | with_reducible apply wr_calm
    | with_reducible apply updPort_calm | with_reducible apply ctl_calm | with_reducible apply flashWord_calm
    | with_reducible apply calm_foldl | with_reducible apply calm_foldl_fst | with_reducible apply calm_ite_fst | extract_lets | split
    | (with_reducible refine calm_fst (by assumption) ?_) | dsimp only [id]

theorem hdaTemp_calm {r0 : State} (s : State) (h : Nat) (t : Int) (hk : Calm r0 s) : Calm r0 (State.hdaTemp s h t) := by
  unfold State.hdaTemp
  repeat' first
    | with_reducible assumption | intro _ | with_reducible apply calm_ite | with_reducible apply wrN_calm
    | with_reducible apply calm_foldl | with_reducible apply calm_foldl_fst | with_reducible apply calm_ite_fst | extract_lets | split
    | (with_reducible refine calm_fst (by assumption) ?_) | dsimp only [id]

theorem credit_calm {r0 : State} (s : State) (h : Nat) (sid : Nat) (side : Nat) (n : Nat) (hk : Calm r0 s) : Calm r0 (State.credit s h
    sid side n) := by
  unfold State.credit
  repeat' first
    | with_reducible assumption | intro _ | with_reducible apply calm_ite | with_reducible apply wrN_calm
    | with_reducible apply wrtDrain_calm | with_reducible apply ctlDrain_calm | with_reducible apply calm_foldl
    | with_reducible apply calm_foldl_fst | with_reducible apply calm_ite_fst | extract_lets | split
    | (with_reducible refine calm_fst (by assumption) ?_) | dsimp only [id]

theorem switchEnd_calm {r0 : State} (s : State) (h : Nat) (hk : Calm r0 s) : Calm r0 (State.switchEnd s h) := by
  unfold State.switchEnd
  repeat' first
    | with_reducible assumption | intro _ | with_reducible apply calm_ite | with_reducible apply updPort_calm
    | with_reducible apply wrN_calm | with_reducible apply calm_foldl | with_reducible apply calm_foldl_fst
    | with_reducible apply calm_ite_fst | extract_lets | split | (with_reducible refine calm_fst (by assumption) ?_) | dsimp only [id]

theorem switchAt_calm {r0 : State} (s : State) (h : Nat) (upward : Bool) (seq : Word) (hk : Calm r0 s) : Calm r0 (State.switchAt s h
    upward seq) := by
  unfold State.switchAt
  repeat' first
    | with_reducible assumption | intro _ | with_reducible apply calm_ite | with_reducible apply switchEnd_calm
    | with_reducible apply updPort_calm | with_reducible apply calm_foldl | with_reducible apply calm_foldl_fst
    | with_reducible apply calm_ite_fst | extract_lets | split | (with_reducible refine calm_fst (by assumption) ?_) | dsimp only [id]

theorem laneSwitch_calm {r0 : State} (s : State) (h : Nat) (k : Nat) (hk : Calm r0 s) : Calm r0 (State.laneSwitch s h k) := by
  unfold State.laneSwitch
  repeat' first
    | with_reducible assumption | intro _ | with_reducible apply calm_ite | with_reducible apply updPort_calm
    | with_reducible apply ctl_calm | with_reducible apply calm_foldl | with_reducible apply calm_foldl_fst
    | with_reducible apply calm_ite_fst | extract_lets | split | (with_reducible refine calm_fst (by assumption) ?_) | dsimp only [id]

theorem laneSet_calm {r0 : State} (s : State) (h : Nat) (four : Bool) (hk : Calm r0 s) : Calm r0 (State.laneSet s h four) := by
  unfold State.laneSet
  repeat' first
    | with_reducible assumption | intro _ | with_reducible apply calm_ite | with_reducible apply updPort_calm
    | with_reducible apply trainOut_calm | with_reducible apply ctl_calm | with_reducible apply laneSwitch_calm
    | with_reducible apply calm_foldl | with_reducible apply calm_foldl_fst | with_reducible apply calm_ite_fst | extract_lets | split
    | (with_reducible refine calm_fst (by assumption) ?_) | dsimp only [id]

theorem laneFail_calm {r0 : State} (s : State) (h : Nat) (hk : Calm r0 s) : Calm r0 (State.laneFail s h) := by
  unfold State.laneFail
  repeat' first
    | with_reducible assumption | intro _ | with_reducible apply calm_ite | with_reducible apply wrN_calm
    | with_reducible apply wr_calm | with_reducible apply raise_calm | with_reducible apply updPort_calm
    | with_reducible apply calm_foldl | with_reducible apply calm_foldl_fst | with_reducible apply calm_ite_fst | extract_lets | split
    | (with_reducible refine calm_fst (by assumption) ?_) | dsimp only [id]

theorem portTick_calm {r0 : State} (s : State) (h : Nat) (hk : Calm r0 s) : Calm r0 (State.portTick s h) := by
  unfold State.portTick
  repeat' first
    | with_reducible assumption | intro _ | with_reducible apply calm_ite | with_reducible apply updPort_calm
    | with_reducible apply emit_calm | with_reducible apply switchAt_calm | with_reducible apply ctl_calm
    | with_reducible apply calm_foldl | with_reducible apply calm_foldl_fst | with_reducible apply calm_ite_fst | extract_lets | split
    | (with_reducible refine calm_fst (by assumption) ?_) | dsimp only [id]

theorem idle_calm {r0 : State} (s : State) (hk : Calm r0 s) : Calm r0 (State.idle s) := by
  unfold State.idle
  repeat' first
    | with_reducible assumption | intro _ | with_reducible apply calm_ite | with_reducible apply portTick_calm
    | with_reducible apply calm_foldl | with_reducible apply calm_foldl_fst | with_reducible apply calm_ite_fst | extract_lets | split
    | (with_reducible refine calm_fst (by assumption) ?_) | dsimp only [id]

theorem loopFeed_calm {r0 : State} (s : State) (g : Nat) (frame : Word) (hk : Calm r0 s) : Calm r0 (State.loopFeed s g frame) := by
  unfold State.loopFeed
  repeat' first
    | with_reducible assumption | intro _ | with_reducible apply calm_ite | with_reducible apply bump_calm
    | with_reducible apply updLoop_calm | with_reducible apply calm_foldl | with_reducible apply calm_foldl_fst
    | with_reducible apply calm_ite_fst | extract_lets | split | (with_reducible refine calm_fst (by assumption) ?_) | dsimp only [id]

theorem tuneEnd_calm {r0 : State} (s : State) (g : Nat) (st : Nat) (hk : Calm r0 s) : Calm r0 (State.tuneEnd s g st) := by
  unfold State.tuneEnd
  repeat' first
    | with_reducible assumption | intro _ | with_reducible apply calm_ite | with_reducible apply setMode_calm
    | with_reducible apply wrN_calm | with_reducible apply trace_calm | with_reducible apply updLoop_calm
    | with_reducible apply calm_foldl | with_reducible apply calm_foldl_fst | with_reducible apply calm_ite_fst | extract_lets | split
    | (with_reducible refine calm_fst (by assumption) ?_) | dsimp only [id]

theorem tuneFinish_calm {r0 : State} (s : State) (g : Nat) (t : TuneSt) (hk : Calm r0 s) : Calm r0 (State.tuneFinish s g t) := by
  unfold State.tuneFinish
  repeat' first
    | with_reducible assumption | intro _ | with_reducible apply calm_ite | with_reducible apply tuneEnd_calm
    | with_reducible apply wr_calm | with_reducible apply wrAt_calm | with_reducible apply calm_foldl
    | with_reducible apply calm_foldl_fst | with_reducible apply calm_ite_fst | extract_lets | split
    | (with_reducible refine calm_fst (by assumption) ?_) | dsimp only [id] | dsimp +zetaDelta only

theorem tuneRun_calm {r0 : State} (s : State) (g : Nat) (t : TuneSt) (err : Word) (ts : Word) (hk : Calm r0 s) : Calm r0 (State.tuneRun
    s g t err ts) := by
  unfold State.tuneRun
  repeat' first
    | with_reducible assumption | intro _ | with_reducible apply calm_ite | with_reducible apply wr_calm
    | with_reducible apply updLoop_calm | with_reducible apply tuneEnd_calm | with_reducible apply tuneFinish_calm
    | with_reducible apply calm_foldl | with_reducible apply calm_foldl_fst | with_reducible apply calm_ite_fst | extract_lets | split
    | (with_reducible refine calm_fst (by assumption) ?_) | dsimp only [id]

theorem loopExpire_calm {r0 : State} (s : State) (g : Nat) (cause : Nat) (hk : Calm r0 s) : Calm r0 (State.loopExpire s g cause) := by
  unfold State.loopExpire
  repeat' first
    | with_reducible assumption | intro _ | with_reducible apply calm_ite | with_reducible apply loopSafeAction_calm
    | with_reducible apply raise_calm | with_reducible apply bump_calm | with_reducible apply calm_foldl
    | with_reducible apply calm_foldl_fst | with_reducible apply calm_ite_fst | extract_lets | split
    | (with_reducible refine calm_fst (by assumption) ?_) | dsimp only [id]

theorem loopTransfer_calm {r0 : State} (s : State) (g : Nat) (hk : Calm r0 s) : Calm r0 (State.loopTransfer s g).1 := by
  unfold State.loopTransfer
  repeat' first
    | with_reducible assumption | intro _ | with_reducible apply calm_ite | with_reducible apply wr_calm
    | with_reducible apply trace_calm | with_reducible apply bump_calm | with_reducible apply setMode_calm
    | with_reducible apply updLoop_calm | with_reducible apply wrN_calm | with_reducible apply tuneEnd_calm
    | with_reducible apply calm_foldl | with_reducible apply calm_foldl_fst | with_reducible apply calm_ite_fst | extract_lets | split
    | (with_reducible refine calm_fst (by assumption) ?_) | dsimp only [id]

theorem laserTrack_calm {r0 : State} (s : State) (n : Nat) (y : Word) (hk : Calm r0 s) : Calm r0 (State.laserTrack s n y) := by
  unfold State.laserTrack
  repeat' first
    | with_reducible assumption | intro _ | with_reducible apply calm_ite | with_reducible apply updAct_calm
    | with_reducible apply bump_calm | with_reducible apply gateClose_calm | with_reducible apply raise_calm
    | with_reducible apply wr_calm | with_reducible apply calm_foldl | with_reducible apply calm_foldl_fst
    | with_reducible apply calm_ite_fst | extract_lets | split | (with_reducible refine calm_fst (by assumption) ?_) | dsimp only [id]

theorem loopStep_calm {r0 : State} (s : State) (g : Nat) (o : LoopObs) (hk : Calm r0 s) : Calm r0 (State.loopStep s g o) := by
  unfold State.loopStep
  repeat' first
    | with_reducible assumption | intro _ | with_reducible apply calm_ite | with_reducible apply loopTransfer_calm
    | with_reducible apply wrAt_calm | with_reducible apply wr_calm | with_reducible apply bumpWrap_calm
    | with_reducible apply bump_calm | with_reducible apply updLoop_calm | with_reducible apply wrB_calm
    | with_reducible apply tuneRun_calm | with_reducible apply loopOut_calm | with_reducible apply laserTrack_calm
    | with_reducible apply loopExpire_calm | with_reducible apply calm_foldl | with_reducible apply calm_foldl_fst
    | with_reducible apply calm_ite_fst | extract_lets | split | (with_reducible refine calm_fst (by assumption) ?_) | dsimp only [id]
    | dsimp +zetaDelta only

theorem loopInput_calm {r0 : State} (s : State) (g : Nat) (o : LoopObs) (hk : Calm r0 s) : Calm r0 (State.loopInput s g o) := by
  unfold State.loopInput
  repeat' first
    | with_reducible assumption | intro _ | with_reducible apply calm_ite | with_reducible apply updLoop_calm
    | with_reducible apply loopExpire_calm | with_reducible apply loopStep_calm | with_reducible apply calm_foldl
    | with_reducible apply calm_foldl_fst | with_reducible apply calm_ite_fst | extract_lets | split
    | (with_reducible refine calm_fst (by assumption) ?_) | dsimp only [id]

theorem loopEnable_calm {r0 : State} (s : State) (g : Nat) (hk : Calm r0 s) : Calm r0 (State.loopEnable s g) := by
  unfold State.loopEnable
  repeat' first
    | with_reducible assumption | intro _ | with_reducible apply calm_ite | with_reducible apply wrN_calm
    | with_reducible apply wr_calm | with_reducible apply updLoop_calm | with_reducible apply setMode_calm
    | with_reducible apply loopSafe_calm | with_reducible apply calm_foldl | with_reducible apply calm_foldl_fst
    | with_reducible apply calm_ite_fst | extract_lets | split | (with_reducible refine calm_fst (by assumption) ?_) | dsimp only [id]

theorem loopDisable_calm {r0 : State} (s : State) (g : Nat) (hk : Calm r0 s) : Calm r0 (State.loopDisable s g) := by
  unfold State.loopDisable
  repeat' first
    | with_reducible assumption | intro _ | with_reducible apply calm_ite | with_reducible apply wr_calm
    | with_reducible apply updLoop_calm | with_reducible apply setMode_calm | with_reducible apply loopSafeAction_calm
    | with_reducible apply calm_foldl | with_reducible apply calm_foldl_fst | with_reducible apply calm_ite_fst | extract_lets | split
    | (with_reducible refine calm_fst (by assumption) ?_) | dsimp only [id]

theorem setTarget_calm {r0 : State} (s : State) (n : Nat) (small : Bool) (hk : Calm r0 s) : Calm r0 (State.setTarget s n small) := by
  unfold State.setTarget
  repeat' first
    | with_reducible assumption | intro _ | with_reducible apply calm_ite | with_reducible apply wr_calm
    | with_reducible apply updAct_calm | with_reducible apply calm_foldl | with_reducible apply calm_foldl_fst
    | with_reducible apply calm_ite_fst | extract_lets | split | (with_reducible refine calm_fst (by assumption) ?_) | dsimp only [id]

theorem feShow_calm {r0 : State} (s : State) (l : Nat) (f : FeSt) (hk : Calm r0 s) : Calm r0 (State.feShow s l f) := by
  unfold State.feShow
  repeat' first
    | with_reducible assumption | intro _ | with_reducible apply calm_ite | with_reducible apply wr_calm
    | with_reducible apply updLane_calm | with_reducible apply calm_foldl | with_reducible apply calm_foldl_fst
    | with_reducible apply calm_ite_fst | extract_lets | split | (with_reducible refine calm_fst (by assumption) ?_) | dsimp only [id]

theorem clkFollow_calm {r0 : State} (s : State) (n : Nat) (hk : Calm r0 s) : Calm r0 (State.clkFollow s n) := by
  unfold State.clkFollow
  repeat' first
    | with_reducible assumption | intro _ | with_reducible apply calm_ite | with_reducible apply updAct_calm
    | with_reducible apply ctl_calm | with_reducible apply calm_foldl | with_reducible apply calm_foldl_fst
    | with_reducible apply calm_ite_fst | extract_lets | split | (with_reducible refine calm_fst (by assumption) ?_) | dsimp only [id]

theorem streamsOff_calm {r0 : State} (s : State) (n : Nat) (drop : Bool) (hk : Calm r0 s) : Calm r0 (State.streamsOff s n drop) := by
  unfold State.streamsOff
  repeat' first
    | with_reducible assumption | intro _ | with_reducible apply calm_ite | with_reducible apply updPort_calm
    | with_reducible apply updLane_calm | with_reducible apply calm_foldl | with_reducible apply calm_foldl_fst
    | with_reducible apply calm_ite_fst | extract_lets | split | (with_reducible refine calm_fst (by assumption) ?_) | dsimp only [id]

theorem headSwitch_calm {r0 : State} (s : State) (n : Nat) (k : Nat) (hk : Calm r0 s) : Calm r0 (State.headSwitch s n k) := by
  unfold State.headSwitch
  repeat' first
    | with_reducible assumption | intro _ | with_reducible apply calm_ite | with_reducible apply wrN_calm
    | with_reducible apply wrAt_calm | with_reducible apply setTarget_calm | with_reducible apply updAct_calm
    | with_reducible apply streamsOff_calm | with_reducible apply tick_calm | with_reducible apply feShow_calm
    | with_reducible apply smpCtl_calm | with_reducible apply calm_foldl | with_reducible apply calm_foldl_fst
    | with_reducible apply calm_ite_fst | extract_lets | split | (with_reducible refine calm_fst (by assumption) ?_) | dsimp only [id]

theorem headBoundary_calm {r0 : State} (s : State) (n : Nat) (f : Word) (hk : Calm r0 s) : Calm r0 (State.headBoundary s n f) := by
  unfold State.headBoundary
  repeat' first
    | with_reducible assumption | intro _ | with_reducible apply calm_ite | with_reducible apply headSwitch_calm
    | with_reducible apply calm_foldl | with_reducible apply calm_foldl_fst | with_reducible apply calm_ite_fst | extract_lets | split
    | (with_reducible refine calm_fst (by assumption) ?_) | dsimp only [id]

theorem rampBoundary_calm {r0 : State} (s : State) (n : Nat) (hk : Calm r0 s) : Calm r0 (State.rampBoundary s n) := by
  unfold State.rampBoundary
  repeat' first
    | with_reducible assumption | intro _ | with_reducible apply calm_ite | with_reducible apply updAct_calm
    | with_reducible apply calm_foldl | with_reducible apply calm_foldl_fst | with_reducible apply calm_ite_fst | extract_lets | split
    | (with_reducible refine calm_fst (by assumption) ?_) | dsimp only [id]

theorem fifoBoundary_calm {r0 : State} (s : State) (n : Nat) (f : Word) (hk : Calm r0 s) : Calm r0 (State.fifoBoundary s n f) := by
  unfold State.fifoBoundary
  repeat' first
    | with_reducible assumption | intro _ | with_reducible apply calm_ite | with_reducible apply bumpBy_calm
    | with_reducible apply updAct_calm | with_reducible apply wrN_calm | with_reducible apply wrB_calm | with_reducible apply wr_calm
    | with_reducible apply setTarget_calm | with_reducible apply calm_foldl | with_reducible apply calm_foldl_fst
    | with_reducible apply calm_ite_fst | extract_lets | split | (with_reducible refine calm_fst (by assumption) ?_) | dsimp only [id]

theorem loopBoundary_calm {r0 : State} (s : State) (g : Nat) (hk : Calm r0 s) : Calm r0 (State.loopBoundary s g) := by
  unfold State.loopBoundary
  repeat' first
    | with_reducible assumption | intro _ | with_reducible apply calm_ite | with_reducible apply updLoop_calm
    | with_reducible apply wr_calm | with_reducible apply loopOut_calm | with_reducible apply loopActionEnd_calm
    | with_reducible apply calm_foldl | with_reducible apply calm_foldl_fst | with_reducible apply calm_ite_fst | extract_lets | split
    | (with_reducible refine calm_fst (by assumption) ?_) | dsimp only [id]

theorem assignOne_calm {r0 : State} (s : State) (i : Nat) (hk : Calm r0 s) : Calm r0 (State.assignOne s i) := by
  unfold State.assignOne
  repeat' first
    | with_reducible assumption | intro _ | with_reducible apply calm_ite | with_reducible apply wrAt_calm
    | with_reducible apply updPool_calm | with_reducible apply calm_foldl | with_reducible apply calm_foldl_fst
    | with_reducible apply calm_ite_fst | extract_lets | split | (with_reducible refine calm_fst (by assumption) ?_) | dsimp only [id]

theorem assign_calm {r0 : State} (s : State) (hk : Calm r0 s) : Calm r0 (State.assign s) := by
  unfold State.assign
  repeat' first
    | with_reducible assumption | intro _ | with_reducible apply calm_ite | with_reducible apply assignOne_calm
    | with_reducible apply calm_foldl | with_reducible apply calm_foldl_fst | with_reducible apply calm_ite_fst | extract_lets | split
    | (with_reducible refine calm_fst (by assumption) ?_) | dsimp only [id]

theorem poolCommit_calm {r0 : State} (s : State) (n : Nat) (ep : BitVec 16) (hk : Calm r0 s) : Calm r0 (State.poolCommit s n ep) := by
  unfold State.poolCommit
  repeat' first
    | with_reducible assumption | intro _ | with_reducible apply calm_ite | with_reducible apply assign_calm
    | with_reducible apply updPool_calm | with_reducible apply calm_foldl | with_reducible apply calm_foldl_fst
    | with_reducible apply calm_ite_fst | extract_lets | split | (with_reducible refine calm_fst (by assumption) ?_) | dsimp only [id]

theorem setRec_calm {r0 : State} (s : State) (old : RecRecord) (new : RecRecord) (hk : Calm r0 s) : Calm r0 (State.setRec s old new) := by
  unfold State.setRec
  repeat' first
    | with_reducible assumption | intro _ | with_reducible apply calm_ite | with_reducible apply updPool_calm
    | with_reducible apply calm_foldl | with_reducible apply calm_foldl_fst | with_reducible apply calm_ite_fst | extract_lets | split
    | (with_reducible refine calm_fst (by assumption) ?_) | dsimp only [id]

theorem recDrop_calm {r0 : State} (s : State) (r : RecRecord) (hk : Calm r0 s) : Calm r0 (State.recDrop s r) := by
  unfold State.recDrop
  repeat' first
    | with_reducible assumption | intro _ | with_reducible apply calm_ite | with_reducible apply decFree_calm
    | with_reducible apply updPool_calm | with_reducible apply capFree_calm | with_reducible apply wrN_calm
    | with_reducible apply calm_foldl | with_reducible apply calm_foldl_fst | with_reducible apply calm_ite_fst | extract_lets | split
    | (with_reducible refine calm_fst (by assumption) ?_) | dsimp only [id]

theorem errEntry_calm {r0 : State} (s : State) (c : Cmd) (status : Nat) (lba : Nat) (hk : Calm r0 s) : Calm r0 (State.errEntry s c
    status lba) := by
  unfold State.errEntry
  repeat' first
    | with_reducible assumption | intro _ | with_reducible apply calm_ite | with_reducible apply updHost_calm
    | with_reducible apply calm_foldl | with_reducible apply calm_foldl_fst | with_reducible apply calm_ite_fst | extract_lets | split
    | (with_reducible refine calm_fst (by assumption) ?_) | dsimp only [id]

theorem giveUp_calm {r0 : State} (s : State) (r : RecRecord) (hk : Calm r0 s) : Calm r0 (State.giveUp s r) := by
  unfold State.giveUp
  repeat' first
    | with_reducible assumption | intro _ | with_reducible apply calm_ite | with_reducible apply recDrop_calm
    | with_reducible apply bump_calm | with_reducible apply lostAdd_calm | with_reducible apply calm_foldl
    | with_reducible apply calm_foldl_fst | with_reducible apply calm_ite_fst | extract_lets | split
    | (with_reducible refine calm_fst (by assumption) ?_) | dsimp only [id]

theorem defer_calm {r0 : State} (s : State) (r : RecRecord) (k : Nat) (hk : Calm r0 s) : Calm r0 (State.defer s r k) := by
  unfold State.defer
  repeat' first
    | with_reducible assumption | intro _ | with_reducible apply calm_ite | with_reducible apply decFree_calm
    | with_reducible apply bump_calm | with_reducible apply setRec_calm | with_reducible apply giveUp_calm
    | with_reducible apply assign_calm | with_reducible apply calm_foldl | with_reducible apply calm_foldl_fst
    | with_reducible apply calm_ite_fst | extract_lets | split | (with_reducible refine calm_fst (by assumption) ?_) | dsimp only [id]

theorem stepFive_calm {r0 : State} (s : State) (r : RecRecord) (last : Nat) (expired : Bool) (hk : Calm r0 s) : Calm r0 (State.stepFive
    s r last expired) := by
  unfold State.stepFive
  repeat' first
    | with_reducible assumption | intro _ | with_reducible apply calm_ite | with_reducible apply giveUp_calm
    | with_reducible apply defer_calm | with_reducible apply bumpBy_calm | with_reducible apply updHost_calm
    | with_reducible apply errEntry_calm | with_reducible apply settle_calm | with_reducible apply complete_calm
    | with_reducible apply calm_foldl | with_reducible apply calm_foldl_fst | with_reducible apply calm_ite_fst | extract_lets | split
    | (with_reducible refine calm_fst (by assumption) ?_) | dsimp only [id] | dsimp +zetaDelta only

theorem toStep_calm {r0 : State} (s : State) (r : RecRecord) (k : Nat) (hk : Calm r0 s) : Calm r0 (State.toStep s r k) := by
  unfold State.toStep
  repeat' first
    | with_reducible assumption | intro _ | with_reducible apply calm_ite | with_reducible apply stepFive_calm
    | with_reducible apply assign_calm | with_reducible apply setRec_calm | with_reducible apply calm_foldl
    | with_reducible apply calm_foldl_fst | with_reducible apply calm_ite_fst | extract_lets | split
    | (with_reducible refine calm_fst (by assumption) ?_) | dsimp only [id]

theorem openEpoch_calm {r0 : State} (s : State) (n : Nat) (src : Nat) (hk : Calm r0 s) : Calm r0 (State.openEpoch s n src).1 := by
  unfold State.openEpoch
  repeat' first
    | with_reducible assumption | intro _ | with_reducible apply calm_ite | with_reducible apply bump_calm
    | with_reducible apply wr_calm | with_reducible apply wrAt_calm | with_reducible apply wrN_calm | with_reducible apply trace_calm
    | with_reducible apply calm_foldl | with_reducible apply calm_foldl_fst | with_reducible apply calm_ite_fst | extract_lets | split
    | (with_reducible refine calm_fst (by assumption) ?_) | dsimp only [id]

theorem charge_calm {r0 : State} (s : State) (n : Nat) (prio : Nat) (c : Nat) (hk : Calm r0 s) : Calm r0 (State.charge s n prio c) := by
  unfold State.charge
  repeat' first
    | with_reducible assumption | intro _ | with_reducible apply calm_ite | with_reducible apply updAct_calm
    | with_reducible apply calm_foldl | with_reducible apply calm_foldl_fst | with_reducible apply calm_ite_fst | extract_lets | split
    | (with_reducible refine calm_fst (by assumption) ?_) | dsimp only [id]

theorem syncDev_calm {r0 : State} (s : State) (l : Nat) (f : Int) (hk : Calm r0 s) : Calm r0 (State.syncDev s l f) := by
  unfold State.syncDev
  repeat' first
    | with_reducible assumption | intro _ | with_reducible apply calm_ite | with_reducible apply updLane_calm
    | with_reducible apply wr_calm | with_reducible apply calm_foldl | with_reducible apply calm_foldl_fst
    | with_reducible apply calm_ite_fst | extract_lets | split | (with_reducible refine calm_fst (by assumption) ?_) | dsimp only [id]

theorem unshadow_calm {r0 : State} (s : State) (n : Nat) (l : Nat) (id : Nat) (v : Nat) (hk : Calm r0 s) : Calm r0 (State.unshadow s n l
    id v) := by
  unfold State.unshadow
  repeat' first
    | with_reducible assumption | intro _ | with_reducible apply calm_ite | with_reducible apply charge_calm
    | with_reducible apply syncDev_calm | with_reducible apply wr_calm | with_reducible apply bumpBy_calm
    | with_reducible apply calm_foldl | with_reducible apply calm_foldl_fst | with_reducible apply calm_ite_fst | extract_lets | split
    | (with_reducible refine calm_fst (by assumption) ?_) | dsimp only [id]

theorem route_calm {r0 : State} (s : State) (g : Grain) (hk : Calm r0 s) : Calm r0 (State.route s g) := by
  unfold State.route
  repeat' first
    | with_reducible assumption | intro _ | with_reducible apply calm_ite | with_reducible apply deliver_calm
    | with_reducible apply calm_foldl | with_reducible apply calm_foldl_fst | with_reducible apply calm_ite_fst | extract_lets | split
    | (with_reducible refine calm_fst (by assumption) ?_) | dsimp only [id]

theorem commitSlot_calm {r0 : State} (s : State) (n : Nat) (i : Nat) (hk : Calm r0 s) : Calm r0 (State.commitSlot s n i) := by
  unfold State.commitSlot
  repeat' first
    | with_reducible assumption | intro _ | with_reducible apply calm_ite | with_reducible apply slotFree_calm
    | with_reducible apply unshadow_calm | with_reducible apply updAct_calm | with_reducible apply wrB_calm
    | with_reducible apply wr_calm | with_reducible apply route_calm | with_reducible apply poolCommit_calm
    | with_reducible apply releaseNotices_calm | with_reducible apply trace_calm | with_reducible apply calm_foldl
    | with_reducible apply calm_foldl_fst | with_reducible apply calm_ite_fst | extract_lets | split
    | (with_reducible refine calm_fst (by assumption) ?_) | simp only [calm_mk] | dsimp only [id]

theorem epochRes_calm {r0 : State} (s : State) (e : Nat) (ep : BitVec 16) (reason : Nat) (hk : Calm r0 s) : Calm r0 (State.epochRes s e
    ep reason) := by
  unfold State.epochRes
  repeat' first
    | with_reducible assumption | intro _ | with_reducible apply calm_ite | with_reducible apply wrN_calm
    | with_reducible apply wrB_calm | with_reducible apply wr_calm | with_reducible apply calm_foldl
    | with_reducible apply calm_foldl_fst | with_reducible apply calm_ite_fst | extract_lets | split
    | (with_reducible refine calm_fst (by assumption) ?_) | dsimp only [id]

theorem openRefused_calm {r0 : State} (s : State) (e : Nat) (reason : Nat) (hk : Calm r0 s) : Calm r0 (State.openRefused s e reason) := by
  unfold State.openRefused
  repeat' first
    | with_reducible assumption | intro _ | with_reducible apply calm_ite | with_reducible apply wrN_calm
    | with_reducible apply wrB_calm | with_reducible apply calm_foldl | with_reducible apply calm_foldl_fst
    | with_reducible apply calm_ite_fst | extract_lets | split | (with_reducible refine calm_fst (by assumption) ?_) | dsimp only [id]

theorem requeue_calm {r0 : State} (s : State) (n : Nat) (ps : List PendSector) (hk : Calm r0 s) : Calm r0 (State.requeue s n ps) := by
  unfold State.requeue
  repeat' first
    | with_reducible assumption | intro _ | with_reducible apply calm_ite | with_reducible apply updAct_calm
    | with_reducible apply calm_foldl | with_reducible apply calm_foldl_fst | with_reducible apply calm_ite_fst | extract_lets | split
    | (with_reducible refine calm_fst (by assumption) ?_) | dsimp only [id]

theorem spanDecide_calm {r0 : State} (s : State) (n : Nat) (ep : BitVec 16) (whole : Bool) (hk : Calm r0 s) : Calm r0 (State.spanDecide
    s n ep whole) := by
  unfold State.spanDecide
  repeat' first
    | with_reducible assumption | intro _ | with_reducible apply calm_ite | with_reducible apply requeue_calm
    | with_reducible apply chaffSlot_calm | with_reducible apply mqRefresh_calm | with_reducible apply endWork_calm
    | with_reducible apply commitSlot_calm | with_reducible apply updAct_calm | with_reducible apply mqDone_calm
    | with_reducible apply parityRead_calm | with_reducible apply calm_foldl | with_reducible apply calm_foldl_fst
    | with_reducible apply calm_ite_fst | extract_lets | split | (with_reducible refine calm_fst (by assumption) ?_) | dsimp only [id]

theorem makeRoom_calm {r0 : State} (s : State) (n : Nat) (hk : Calm r0 s) : Calm r0 (State.makeRoom s n) := by
  unfold State.makeRoom
  repeat' first
    | with_reducible assumption | intro _ | with_reducible apply calm_ite | with_reducible apply chaffSlot_calm
    | with_reducible apply calm_foldl | with_reducible apply calm_foldl_fst | with_reducible apply calm_ite_fst | extract_lets | split
    | (with_reducible refine calm_fst (by assumption) ?_) | dsimp only [id]

theorem openSpan_calm {r0 : State} (s : State) (n : Nat) (hk : Calm r0 s) : Calm r0 (State.openSpan s n) := by
  unfold State.openSpan
  repeat' first
    | with_reducible assumption | intro _ | with_reducible apply calm_ite | with_reducible apply makeRoom_calm
    | with_reducible apply openEpoch_calm | with_reducible apply updAct_calm | with_reducible apply endWork_calm
    | with_reducible apply calm_foldl | with_reducible apply calm_foldl_fst | with_reducible apply calm_ite_fst | extract_lets | split
    | (with_reducible refine calm_fst (by assumption) ?_) | dsimp only [id]

theorem loadOffsets_calm {r0 : State} (s : State) (n : Nat) (k : Nat) (zone : Option Nat) (hk : Calm r0 s) : Calm r0 (State.loadOffsets
    s n k zone) := by
  unfold State.loadOffsets
  repeat' first
    | with_reducible assumption | intro _ | with_reducible apply calm_ite | with_reducible apply updAct_calm
    | with_reducible apply wrInt_calm | with_reducible apply wrAt_calm | with_reducible apply calm_foldl
    | with_reducible apply calm_foldl_fst | with_reducible apply calm_ite_fst | extract_lets | split
    | (with_reducible refine calm_fst (by assumption) ?_) | dsimp only [id]

theorem selectHead_calm {r0 : State} (s : State) (n : Nat) (k : Nat) (track : Nat) (hk : Calm r0 s) : Calm r0 (State.selectHead s n k
    track) := by
  unfold State.selectHead
  repeat' first
    | with_reducible assumption | intro _ | with_reducible apply calm_ite | with_reducible apply loadOffsets_calm
    | with_reducible apply updAct_calm | with_reducible apply ctl_calm | with_reducible apply headSwitch_calm
    | with_reducible apply setTarget_calm | with_reducible apply calm_foldl | with_reducible apply calm_foldl_fst
    | with_reducible apply calm_ite_fst | extract_lets | split | (with_reducible refine calm_fst (by assumption) ?_) | dsimp only [id]

theorem opStatus_calm {r0 : State} (s : State) (e : Nat) (st : Nat) (hk : Calm r0 s) : Calm r0 (State.opStatus s e st) := by
  unfold State.opStatus
  repeat' first
    | with_reducible assumption | intro _ | with_reducible apply calm_ite | with_reducible apply wrN_calm
    | with_reducible apply calm_foldl | with_reducible apply calm_foldl_fst | with_reducible apply calm_ite_fst | extract_lets | split
    | (with_reducible refine calm_fst (by assumption) ?_) | dsimp only [id]

theorem opStart_calm {r0 : State} (s : State) (n : Nat) (o : OpSt) (hk : Calm r0 s) : Calm r0 (State.opStart s n o) := by
  unfold State.opStart
  repeat' first
    | with_reducible assumption | intro _ | with_reducible apply calm_ite | with_reducible apply wr_calm
    | with_reducible apply opStatus_calm | with_reducible apply updAct_calm | with_reducible apply trace_calm
    | with_reducible apply setTarget_calm | with_reducible apply calm_foldl | with_reducible apply calm_foldl_fst
    | with_reducible apply calm_ite_fst | extract_lets | split | (with_reducible refine calm_fst (by assumption) ?_) | dsimp only [id]

theorem opRead_calm {r0 : State} (e : Nat) (n : Nat) (s : State) (hk : Calm r0 s) : Calm r0 (State.opRead e n s) := by
  unfold State.opRead
  repeat' first
    | with_reducible assumption | intro _ | with_reducible apply calm_ite | with_reducible apply opStatus_calm
    | with_reducible apply selectHead_calm | with_reducible apply opStart_calm | with_reducible apply openSpan_calm
    | with_reducible apply calm_foldl | with_reducible apply calm_foldl_fst | with_reducible apply calm_ite_fst | extract_lets | split
    | (with_reducible refine calm_fst (by assumption) ?_) | dsimp only [id]

theorem seekEnd_calm {r0 : State} (s : State) (n : Nat) (hk : Calm r0 s) : Calm r0 (State.seekEnd s n) := by
  unfold State.seekEnd
  repeat' first
    | with_reducible assumption | intro _ | with_reducible apply calm_ite | with_reducible apply endWork_calm
    | with_reducible apply calm_foldl | with_reducible apply calm_foldl_fst | with_reducible apply calm_ite_fst | extract_lets | split
    | (with_reducible refine calm_fst (by assumption) ?_) | dsimp only [id]

theorem opSeek_calm {r0 : State} (e : Nat) (n : Nat) (s : State) (hk : Calm r0 s) : Calm r0 (State.opSeek e n s) := by
  unfold State.opSeek
  repeat' first
    | with_reducible assumption | intro _ | with_reducible apply calm_ite | with_reducible apply opStatus_calm
    | with_reducible apply selectHead_calm | with_reducible apply wrB_calm | with_reducible apply seekEnd_calm
    | with_reducible apply opStart_calm | with_reducible apply calm_foldl | with_reducible apply calm_foldl_fst
    | with_reducible apply calm_ite_fst | extract_lets | split | (with_reducible refine calm_fst (by assumption) ?_) | dsimp only [id]

theorem opRunahead_calm {r0 : State} (e : Nat) (n : Nat) (s : State) (hk : Calm r0 s) : Calm r0 (State.opRunahead e n s) := by
  unfold State.opRunahead
  repeat' first
    | with_reducible assumption | intro _ | with_reducible apply calm_ite | with_reducible apply opStatus_calm
    | with_reducible apply selectHead_calm | with_reducible apply opStart_calm | with_reducible apply calm_foldl
    | with_reducible apply calm_foldl_fst | with_reducible apply calm_ite_fst | extract_lets | split
    | (with_reducible refine calm_fst (by assumption) ?_) | dsimp only [id]

theorem opCut_calm {r0 : State} (s : State) (n : Nat) (hk : Calm r0 s) : Calm r0 (State.opCut s n) := by
  unfold State.opCut
  repeat' first
    | with_reducible assumption | intro _ | with_reducible apply calm_ite | with_reducible apply seqClose_calm
    | with_reducible apply endWork_calm | with_reducible apply spanDecide_calm | with_reducible apply mqRefresh_calm
    | with_reducible apply calm_foldl | with_reducible apply calm_foldl_fst | with_reducible apply calm_ite_fst | extract_lets | split
    | (with_reducible refine calm_fst (by assumption) ?_) | dsimp only [id]

theorem recIssue_calm {r0 : State} (s : State) (n : Nat) (hk : Calm r0 s) : Calm r0 (State.recIssue s n) := by
  unfold State.recIssue
  repeat' first
    | with_reducible assumption | intro _ | with_reducible apply calm_ite | with_reducible apply stepFive_calm
    | with_reducible apply toStep_calm | with_reducible apply selectHead_calm | with_reducible apply updAct_calm
    | with_reducible apply opStart_calm | with_reducible apply openSpan_calm | with_reducible apply calm_foldl
    | with_reducible apply calm_foldl_fst | with_reducible apply calm_ite_fst | extract_lets | split
    | (with_reducible refine calm_fst (by assumption) ?_) | dsimp only [id]

theorem measurePeriod_calm {r0 : State} (s : State) (n : Nat) (ps : Nat) (hk : Calm r0 s) : Calm r0 (State.measurePeriod s n ps) := by
  unfold State.measurePeriod
  repeat' first
    | with_reducible assumption | intro _ | with_reducible apply calm_ite | with_reducible apply updAct_calm
    | with_reducible apply wrN_calm | with_reducible apply calm_foldl | with_reducible apply calm_foldl_fst
    | with_reducible apply calm_ite_fst | extract_lets | split | (with_reducible refine calm_fst (by assumption) ?_) | dsimp only [id]

theorem enterLost_calm {r0 : State} (s : State) (n : Nat) (hk : Calm r0 s) : Calm r0 (State.enterLost s n) := by
  unfold State.enterLost
  repeat' first
    | with_reducible assumption | intro _ | with_reducible apply calm_ite | with_reducible apply gateClose_calm
    | with_reducible apply endWork_calm | with_reducible apply chaffAll_calm | with_reducible apply bump_calm
    | with_reducible apply wr_calm | with_reducible apply updAct_calm | with_reducible apply trace_calm
    | with_reducible apply raise_calm | with_reducible apply calm_foldl | with_reducible apply calm_foldl_fst
    | with_reducible apply calm_ite_fst | extract_lets | split | (with_reducible refine calm_fst (by assumption) ?_) | dsimp only [id]

theorem rampReached_calm {r0 : State} (s : State) (n : Nat) (hk : Calm r0 s) : Calm r0 (State.rampReached s n) := by
  unfold State.rampReached
  repeat' first
    | with_reducible assumption | intro _ | with_reducible apply calm_ite | with_reducible apply gateClose_calm
    | with_reducible apply updAct_calm | with_reducible apply wr_calm | with_reducible apply disEnd_calm
    | with_reducible apply trace_calm | with_reducible apply smpCtl_calm | with_reducible apply calm_foldl
    | with_reducible apply calm_foldl_fst | with_reducible apply calm_ite_fst | extract_lets | split
    | (with_reducible refine calm_fst (by assumption) ?_) | dsimp only [id]

theorem burstMiss_calm {r0 : State} (s : State) (n : Nat) (k : Nat) (hk : Calm r0 s) : Calm r0 (State.burstMiss s n k) := by
  unfold State.burstMiss
  repeat' first
    | with_reducible assumption | intro _ | with_reducible apply calm_ite | with_reducible apply trace_calm
    | with_reducible apply bump_calm | with_reducible apply bumpBy_calm | with_reducible apply calm_foldl
    | with_reducible apply calm_foldl_fst | with_reducible apply calm_ite_fst | extract_lets | split
    | (with_reducible refine calm_fst (by assumption) ?_) | dsimp only [id]

theorem loosen_calm {r0 : State} (s : State) (n : Nat) (k : Nat) (hk : Calm r0 s) : Calm r0 (State.loosen s n k) := by
  unfold State.loosen
  repeat' first
    | with_reducible assumption | intro _ | with_reducible apply calm_ite | with_reducible apply updAct_calm
    | with_reducible apply wrAt_calm | with_reducible apply calm_foldl | with_reducible apply calm_foldl_fst
    | with_reducible apply calm_ite_fst | extract_lets | split | (with_reducible refine calm_fst (by assumption) ?_) | dsimp only [id]

theorem damageCheck_calm {r0 : State} (s : State) (n : Nat) (w : WinSt) (pes : Int) (hk : Calm r0 s) : Calm r0 (State.damageCheck s n w
    pes) := by
  unfold State.damageCheck
  repeat' first
    | with_reducible assumption | intro _ | with_reducible apply calm_ite | with_reducible apply bump_calm
    | with_reducible apply mqWait_calm | with_reducible apply calm_foldl | with_reducible apply calm_foldl_fst
    | with_reducible apply calm_ite_fst | extract_lets | split | (with_reducible refine calm_fst (by assumption) ?_) | dsimp only [id]
    | dsimp +zetaDelta only

theorem laserStart_calm {r0 : State} (s : State) (n : Nat) (w : WinSt) (hk : Calm r0 s) : Calm r0 (State.laserStart s n w) := by
  unfold State.laserStart
  repeat' first
    | with_reducible assumption | intro _ | with_reducible apply calm_ite | with_reducible apply setMode_calm
    | with_reducible apply wr_calm | with_reducible apply updLoop_calm | with_reducible apply calm_foldl
    | with_reducible apply calm_foldl_fst | with_reducible apply calm_ite_fst | extract_lets | split
    | (with_reducible refine calm_fst (by assumption) ?_) | dsimp only [id]

theorem gateEval_calm {r0 : State} (s : State) (n : Nat) (r : FrameRec) (before : Option FrameRec) (hk : Calm r0 s) : Calm r0
    (State.gateEval s n r before) := by
  unfold State.gateEval
  repeat' first
    | with_reducible assumption | intro _ | with_reducible apply calm_ite | with_reducible apply updAct_calm
    | with_reducible apply gateClose_calm | with_reducible apply damageCheck_calm | with_reducible apply trace_calm
    | with_reducible apply wrN_calm | with_reducible apply bump_calm | with_reducible apply ctl_calm
    | with_reducible apply laserStart_calm | with_reducible apply calm_foldl | with_reducible apply calm_foldl_fst
    | with_reducible apply calm_ite_fst | extract_lets | split | (with_reducible refine calm_fst (by assumption) ?_) | dsimp only [id]

theorem cachePut_calm {r0 : State} (s : State) (l : List CacheGrain) (t : Tag) (payload : List Byte) (hk : Calm r0 s) : Calm r0
    (State.cachePut s l t payload) := by
  unfold State.cachePut
  repeat' first
    | with_reducible assumption | intro _ | with_reducible apply calm_ite | with_reducible apply putGrain_calm
    | with_reducible apply calm_foldl | with_reducible apply calm_foldl_fst | with_reducible apply calm_ite_fst | extract_lets | split
    | (with_reducible refine calm_fst (by assumption) ?_) | simp only [calm_mk] | dsimp only [id]

theorem raSettle_calm {r0 : State} (s : State) (n : Nat) (ep : BitVec 16) (hk : Calm r0 s) : Calm r0 (State.raSettle s n ep) := by
  unfold State.raSettle
  repeat' first
    | with_reducible assumption | intro _ | with_reducible apply calm_ite | with_reducible apply updAct_calm
    | with_reducible apply bump_calm | with_reducible apply cachePut_calm | with_reducible apply calm_foldl
    | with_reducible apply calm_foldl_fst | with_reducible apply calm_ite_fst | extract_lets | split
    | (with_reducible refine calm_fst (by assumption) ?_) | simp only [calm_mk] | dsimp only [id] | dsimp +zetaDelta only

theorem confirmAll_calm {r0 : State} (s : State) (n : Nat) (hk : Calm r0 s) : Calm r0 (State.confirmAll s n) := by
  unfold State.confirmAll
  repeat' first
    | with_reducible assumption | intro _ | with_reducible apply calm_ite | with_reducible apply spanDecide_calm
    | with_reducible apply raSettle_calm | with_reducible apply calm_foldl | with_reducible apply calm_foldl_fst
    | with_reducible apply calm_ite_fst | extract_lets | split | (with_reducible refine calm_fst (by assumption) ?_) | dsimp only [id]

theorem acquire_calm {r0 : State} (s : State) (n : Nat) (o : TransitObs) (valid : Bool) (hk : Calm r0 s) : Calm r0 (State.acquire s n o
    valid) := by
  unfold State.acquire
  repeat' first
    | with_reducible assumption | intro _ | with_reducible apply calm_ite | with_reducible apply updAct_calm
    | with_reducible apply wr_calm | with_reducible apply trace_calm | with_reducible apply calm_foldl
    | with_reducible apply calm_foldl_fst | with_reducible apply calm_ite_fst | extract_lets | split
    | (with_reducible refine calm_fst (by assumption) ?_) | dsimp only [id]

theorem validFrame_calm {r0 : State} (s : State) (n : Nat) (pos : Int) (hk : Calm r0 s) : Calm r0 (State.validFrame s n pos) := by
  unfold State.validFrame
  repeat' first
    | with_reducible assumption | intro _ | with_reducible apply calm_ite | with_reducible apply wr_calm
    | with_reducible apply wrInt_calm | with_reducible apply wrB_calm | with_reducible apply updAct_calm
    | with_reducible apply loopFeed_calm | with_reducible apply seekEnd_calm | with_reducible apply trace_calm
    | with_reducible apply calm_foldl | with_reducible apply calm_foldl_fst | with_reducible apply calm_ite_fst | extract_lets | split
    | (with_reducible refine calm_fst (by assumption) ?_) | dsimp only [id]

theorem invalidFrame_calm {r0 : State} (s : State) (n : Nat) (hk : Calm r0 s) : Calm r0 (State.invalidFrame s n) := by
  unfold State.invalidFrame
  repeat' first
    | with_reducible assumption | intro _ | with_reducible apply calm_ite | with_reducible apply bump_calm
    | with_reducible apply wr_calm | with_reducible apply updAct_calm | with_reducible apply trace_calm
    | with_reducible apply calm_foldl | with_reducible apply calm_foldl_fst | with_reducible apply calm_ite_fst | extract_lets | split
    | (with_reducible refine calm_fst (by assumption) ?_) | dsimp only [id]

theorem sendWindow_calm {r0 : State} (s : State) (n : Nat) (d : SideDesc) (x : MqEntry) (k : Nat) (t : Nat) (i : Nat) (e : List Nat)
    (out : List SectorOut) (cur : Word) (hk : Calm r0 s) : Calm r0 (State.sendWindow s n d x k t i e out cur) := by
  unfold State.sendWindow
  repeat' first
    | with_reducible assumption | intro _ | with_reducible apply calm_ite | with_reducible apply tick_calm
    | with_reducible apply updAct_calm | with_reducible apply ctl_calm | with_reducible apply wrN_calm
    | with_reducible apply wrtDrain_calm | with_reducible apply calm_foldl | with_reducible apply calm_foldl_fst
    | with_reducible apply calm_ite_fst | extract_lets | split | (with_reducible refine calm_fst (by assumption) ?_) | dsimp only [id]

theorem sendWindows_calm {r0 : State} (s : State) (n : Nat) (d : SideDesc) (x : MqEntry) (k : Nat) (t : Nat) (i : Nat) (e : List Nat)
    (out : List SectorOut) (fuel : Nat) (hk : Calm r0 s) : Calm r0 (State.sendWindows s n d x k t i e out fuel) := by
  induction fuel generalizing s i out with
  | zero =>
    unfold State.sendWindows
    repeat' first
      | with_reducible assumption | intro _ | with_reducible apply calm_ite | with_reducible apply sendWindow_calm
      | with_reducible apply calm_foldl | with_reducible apply calm_foldl_fst | with_reducible apply calm_ite_fst | extract_lets
      | split | (with_reducible refine calm_fst (by assumption) ?_) | dsimp only [id]
  | succ n ih =>
    unfold State.sendWindows
    repeat' first
      | with_reducible assumption | intro _ | with_reducible apply calm_ite | with_reducible apply sendWindow_calm
      | with_reducible apply routeDrop_calm
      | with_reducible apply ih | with_reducible apply calm_foldl | with_reducible apply calm_foldl_fst
      | with_reducible apply calm_ite_fst | extract_lets | split | (with_reducible refine calm_fst (by assumption) ?_)
      | dsimp only [id]

theorem checkTags_calm {r0 : State} (s : State) (n : Nat) (x : MqEntry) (hk : Calm r0 s) : Calm r0 (State.checkTags s n x) := by
  unfold State.checkTags
  repeat' first
    | with_reducible assumption | intro _ | with_reducible apply calm_ite | with_reducible apply badGrain_calm
    | (with_reducible refine injTake_calm (by assumption) ?_) | with_reducible apply calm_foldl | with_reducible apply calm_foldl_fst
    | with_reducible apply calm_ite_fst | extract_lets | split | (with_reducible refine calm_fst (by assumption) ?_) | dsimp only [id]

theorem tagPlaces_calm {r0 : State} (s : State) (e : Nat) (n : Nat) (x : MqEntry) (k : Nat) (t : Nat) (i : Nat) (out : List SectorOut)
    (hk : Calm r0 s) : Calm r0 (State.tagPlaces s e n x k t i out) := by
  unfold State.tagPlaces
  repeat' first
    | with_reducible assumption | intro _ | with_reducible apply calm_ite | with_reducible apply putTag_calm
    | with_reducible apply calm_foldl | with_reducible apply calm_foldl_fst | with_reducible apply calm_ite_fst | extract_lets | split
    | (with_reducible refine calm_fst (by assumption) ?_) | simp only [calm_mk] | dsimp only [id]

theorem opWrite_calm {r0 : State} (e : Nat) (n : Nat) (s : State) (hk : Calm r0 s) : Calm r0 (State.opWrite e n s) := by
  unfold State.opWrite
  repeat' first
    | with_reducible assumption | intro _ | with_reducible apply calm_ite | with_reducible apply opStatus_calm
    | with_reducible apply bump_calm | with_reducible apply checkTags_calm | with_reducible apply selectHead_calm
    | with_reducible apply opStart_calm | with_reducible apply sendWindows_calm | with_reducible apply tagPlaces_calm
    | with_reducible apply calm_foldl | with_reducible apply calm_foldl_fst | with_reducible apply calm_ite_fst | extract_lets | split
    | (with_reducible refine calm_fst (by assumption) ?_) | dsimp only [id]

theorem opSubmit_calm {r0 : State} (s : State) (e : Nat) (n : Nat) (hk : Calm r0 s) : Calm r0 (State.opSubmit s e n) := by
  unfold State.opSubmit
  repeat' first
    | with_reducible assumption | intro _ | with_reducible apply calm_ite | with_reducible apply opRead_calm
    | with_reducible apply opWrite_calm | with_reducible apply opSeek_calm | with_reducible apply opRunahead_calm
    | with_reducible apply opStatus_calm | with_reducible apply calm_foldl | with_reducible apply calm_foldl_fst
    | with_reducible apply calm_ite_fst | extract_lets | split | (with_reducible refine calm_fst (by assumption) ?_) | dsimp only [id]

theorem opGo_calm {r0 : State} (s : State) (e : Nat) (writer : Initiator) (hk : Calm r0 s) : Calm r0 (State.opGo s e writer) := by
  unfold State.opGo
  repeat' first
    | with_reducible assumption | intro _ | with_reducible apply calm_ite | with_reducible apply guard_calm
    | with_reducible apply updAct_calm | with_reducible apply wr_calm | with_reducible apply opSubmit_calm
    | with_reducible apply calm_foldl | with_reducible apply calm_foldl_fst | with_reducible apply calm_ite_fst | extract_lets | split
    | (with_reducible refine calm_fst (by assumption) ?_) | dsimp only [id]

theorem resumeGo_calm {r0 : State} (s : State) (n : Nat) (hk : Calm r0 s) : Calm r0 (State.resumeGo s n) := by
  unfold State.resumeGo
  repeat' first
    | with_reducible assumption | intro _ | with_reducible apply calm_ite | with_reducible apply opSubmit_calm
    | with_reducible apply updAct_calm | with_reducible apply wr_calm | with_reducible apply calm_foldl
    | with_reducible apply calm_foldl_fst | with_reducible apply calm_ite_fst | extract_lets | split
    | (with_reducible refine calm_fst (by assumption) ?_) | dsimp only [id]

theorem wtCommitTry_calm {r0 : State} (s : State) (n : Nat) (hk : Calm r0 s) : Calm r0 (State.wtCommitTry s n) := by
  unfold State.wtCommitTry
  repeat' first
    | with_reducible assumption | intro _ | with_reducible apply calm_ite | with_reducible apply wr_calm
    | with_reducible apply updAct_calm | with_reducible apply calm_foldl | with_reducible apply calm_foldl_fst
    | with_reducible apply calm_ite_fst | extract_lets | split | (with_reducible refine calm_fst (by assumption) ?_) | dsimp only [id]

theorem ageHead_calm {r0 : State} (s : State) (n : Nat) (w : WinSt) (hk : Calm r0 s) : Calm r0 (State.ageHead s n w) := by
  unfold State.ageHead
  repeat' first
    | with_reducible assumption | intro _ | with_reducible apply calm_ite | with_reducible apply wrAt_calm
    | with_reducible apply tick_calm | with_reducible apply audit_calm | with_reducible apply updAct_calm
    | with_reducible apply calm_foldl | with_reducible apply calm_foldl_fst | with_reducible apply calm_ite_fst | extract_lets | split
    | (with_reducible refine calm_fst (by assumption) ?_) | dsimp only [id]

theorem windowEnd_calm {r0 : State} (s : State) (n : Nat) (hk : Calm r0 s) : Calm r0 (State.windowEnd s n) := by
  unfold State.windowEnd
  repeat' first
    | with_reducible assumption | intro _ | with_reducible apply calm_ite | with_reducible apply ageHead_calm
    | with_reducible apply laserManual_calm | with_reducible apply wr_calm | with_reducible apply updAct_calm
    | with_reducible apply laserStart_calm | with_reducible apply calm_foldl | with_reducible apply calm_foldl_fst
    | with_reducible apply calm_ite_fst | extract_lets | split | (with_reducible refine calm_fst (by assumption) ?_) | dsimp only [id]

theorem dropWindow_calm {r0 : State} (s : State) (n : Nat) (id : BitVec 16) (hk : Calm r0 s) : Calm r0 (State.dropWindow s n id) := by
  unfold State.dropWindow
  repeat' first
    | with_reducible assumption | intro _ | with_reducible apply calm_ite | with_reducible apply updAct_calm
    | with_reducible apply wr_calm | with_reducible apply endWork_calm | with_reducible apply wtCommitTry_calm
    | with_reducible apply calm_foldl | with_reducible apply calm_foldl_fst | with_reducible apply calm_ite_fst | extract_lets | split
    | (with_reducible refine calm_fst (by assumption) ?_) | dsimp only [id]

theorem sectorWritten_calm {r0 : State} (s : State) (n : Nat) (w : WinSt) (i : Nat) (lba : Nat) (hk : Calm r0 s) : Calm r0
    (State.sectorWritten s n w i lba) := by
  unfold State.sectorWritten
  repeat' first
    | with_reducible assumption | intro _ | with_reducible apply calm_ite | with_reducible apply bufRefresh_calm
    | with_reducible apply mqDone_calm | with_reducible apply stage_calm | with_reducible apply bump_calm
    | with_reducible apply updLed_calm | with_reducible apply parityStale_calm | with_reducible apply updAct_calm
    | with_reducible apply setZone_calm | with_reducible apply zoneParity_calm | with_reducible apply zoneMap_calm
    | with_reducible apply calm_foldl | with_reducible apply calm_foldl_fst | with_reducible apply calm_ite_fst | extract_lets | split
    | (with_reducible refine calm_fst (by assumption) ?_) | simp only [calm_mk] | dsimp only [id]

theorem spareWritten_calm {r0 : State} (s : State) (n : Nat) (w : WinSt) (i : Nat) (pos : Nat) (hk : Calm r0 s) : Calm r0
    (State.spareWritten s n w i pos) := by
  unfold State.spareWritten
  repeat' first
    | with_reducible assumption | intro _ | with_reducible apply calm_ite | with_reducible apply updLed_calm
    | with_reducible apply bump_calm | with_reducible apply stage_calm | with_reducible apply mqDone_calm
    | with_reducible apply parityStale_calm | with_reducible apply updAct_calm | with_reducible apply setZone_calm
    | with_reducible apply zoneParity_calm | with_reducible apply calm_foldl | with_reducible apply calm_foldl_fst
    | with_reducible apply calm_ite_fst | extract_lets | split | (with_reducible refine calm_fst (by assumption) ?_) | dsimp only [id]

theorem eraseDone_calm {r0 : State} (s : State) (n : Nat) (z : Nat) (hk : Calm r0 s) : Calm r0 (State.eraseDone s n z) := by
  unfold State.eraseDone
  repeat' first
    | with_reducible assumption | intro _ | with_reducible apply calm_ite | with_reducible apply setZone_calm
    | with_reducible apply zoneMap_calm | with_reducible apply eraseNext_calm | with_reducible apply calm_foldl
    | with_reducible apply calm_foldl_fst | with_reducible apply calm_ite_fst | extract_lets | split
    | (with_reducible refine calm_fst (by assumption) ?_) | dsimp only [id]

theorem coverSector_calm {r0 : State} (s : State) (n : Nat) (w : WinSt) (i : Nat) (pos : Option Nat) (hk : Calm r0 s) : Calm r0
    (State.coverSector s n w i pos) := by
  unfold State.coverSector
  repeat' first
    | with_reducible assumption | intro _ | with_reducible apply calm_ite | with_reducible apply sectorWritten_calm
    | with_reducible apply updAct_calm | with_reducible apply spareWritten_calm | with_reducible apply eraseDone_calm
    | with_reducible apply mqDone_calm | with_reducible apply parityRefresh_calm | with_reducible apply calm_foldl
    | with_reducible apply calm_foldl_fst | with_reducible apply calm_ite_fst | extract_lets | split
    | (with_reducible refine calm_fst (by assumption) ?_) | dsimp only [id]

theorem laneCount_calm {r0 : State} (s : State) (n : Nat) (l : Nat) (ep : Option (BitVec 16)) (f : RegField) (c : Nat) (hk : Calm r0 s)
    : Calm r0 (State.laneCount s n l ep f c) := by
  unfold State.laneCount
  repeat' first
    | with_reducible assumption | intro _ | with_reducible apply calm_ite | with_reducible apply updAct_calm
    | with_reducible apply unshadow_calm | with_reducible apply calm_foldl | with_reducible apply calm_foldl_fst
    | with_reducible apply calm_ite_fst | extract_lets | split | (with_reducible refine calm_fst (by assumption) ?_) | dsimp only [id]

theorem ringPush_calm {r0 : State} (s : State) (l : Nat) (x : RingSlot) (hk : Calm r0 s) : Calm r0 (State.ringPush s l x) := by
  unfold State.ringPush
  repeat' first
    | with_reducible assumption | intro _ | with_reducible apply calm_ite | with_reducible apply updLane_calm
    | with_reducible apply wr_calm | with_reducible apply updFlt_calm | with_reducible apply calm_foldl
    | with_reducible apply calm_foldl_fst | with_reducible apply calm_ite_fst | extract_lets | split
    | (with_reducible refine calm_fst (by assumption) ?_) | dsimp only [id]

theorem capture_calm {r0 : State} (s : State) (l : Nat) (x : RingSlot) (ep : BitVec 16) (hk : Calm r0 s) : Calm r0 (State.capture s l x
    ep).1 := by
  unfold State.capture
  repeat' first
    | with_reducible assumption | intro _ | with_reducible apply calm_ite | with_reducible apply updPool_calm
    | with_reducible apply wrN_calm | with_reducible apply updLane_calm | with_reducible apply calm_foldl
    | with_reducible apply calm_foldl_fst | with_reducible apply calm_ite_fst | extract_lets | split
    | (with_reducible refine calm_fst (by assumption) ?_) | dsimp only [id]

theorem gainStep_calm {r0 : State} (s : State) (n : Nat) (reader : Nat) (code : Nat) (w : List (Option Placed)) (hk : Calm r0 s) : Calm
    r0 (State.gainStep s n reader code w) := by
  unfold State.gainStep
  repeat' first
    | with_reducible assumption | intro _ | with_reducible apply calm_ite | with_reducible apply ctl_calm
    | with_reducible apply calm_foldl | with_reducible apply calm_foldl_fst | with_reducible apply calm_ite_fst | extract_lets | split
    | (with_reducible refine calm_fst (by assumption) ?_) | dsimp only [id]

theorem placeSamples_calm {r0 : State} (s : State) (n : Nat) (b : Bool) (frame : Word) (edge : Int) (xs : List Int) (hk : Calm r0 s) :
    Calm r0 (State.placeSamples s n b frame edge xs) := by
  unfold State.placeSamples
  repeat' first
    | with_reducible assumption | intro _ | with_reducible apply calm_ite | with_reducible apply feShow_calm
    | with_reducible apply updLane_calm | with_reducible apply calm_foldl | with_reducible apply calm_foldl_fst
    | with_reducible apply calm_ite_fst | extract_lets | split | (with_reducible refine calm_fst (by assumption) ?_) | dsimp only [id]

theorem opAdvance_calm {r0 : State} (s : State) (n : Nat) (hk : Calm r0 s) : Calm r0 (State.opAdvance s n) := by
  unfold State.opAdvance
  repeat' first
    | with_reducible assumption | intro _ | with_reducible apply calm_ite | with_reducible apply updAct_calm
    | with_reducible apply raSettle_calm | with_reducible apply endWork_calm | with_reducible apply spanDecide_calm
    | with_reducible apply openSpan_calm | with_reducible apply calm_foldl | with_reducible apply calm_foldl_fst
    | with_reducible apply calm_ite_fst | extract_lets | split | (with_reducible refine calm_fst (by assumption) ?_) | dsimp only [id]

theorem askedVerdict_calm {r0 : State} (s : State) (n : Nat) (l : Nat) (k : Nat) (a : Asked) (mode : Nat) (x : Seen) (fr : Word × Word)
    (o : SectorObs) (hk : Calm r0 s) : Calm r0 (State.askedVerdict s n l k a mode x fr o) := by
  unfold State.askedVerdict
  repeat' first
    | with_reducible assumption | intro _ | with_reducible apply calm_ite | with_reducible apply updAct_calm
    | with_reducible apply updPool_calm | with_reducible apply capture_calm | with_reducible apply laneCount_calm
    | with_reducible apply opAdvance_calm | with_reducible apply calm_foldl | with_reducible apply calm_foldl_fst
    | with_reducible apply calm_ite_fst | extract_lets | split | (with_reducible refine calm_fst (by assumption) ?_)
    | simp only [calm_mk] | dsimp only [id] | dsimp +zetaDelta only

theorem gainMarker_calm {r0 : State} (s : State) (n : Nat) (reader : Nat) (code : Nat) (hk : Calm r0 s) : Calm r0 (State.gainMarker s n
    reader code) := by
  unfold State.gainMarker
  repeat' first
    | with_reducible assumption | intro _ | with_reducible apply calm_ite | with_reducible apply feShow_calm
    | with_reducible apply calm_foldl | with_reducible apply calm_foldl_fst | with_reducible apply calm_ite_fst | extract_lets | split
    | (with_reducible refine calm_fst (by assumption) ?_) | dsimp only [id]

theorem coastEnd_calm {r0 : State} (s : State) (h : Nat) (hk : Calm r0 s) : Calm r0 (State.coastEnd s h) := by
  unfold State.coastEnd
  repeat' first
    | with_reducible assumption | intro _ | with_reducible apply calm_ite | with_reducible apply spinState_calm
    | with_reducible apply calm_foldl | with_reducible apply calm_foldl_fst | with_reducible apply calm_ite_fst | extract_lets | split
    | (with_reducible refine calm_fst (by assumption) ?_) | dsimp only [id]

theorem writeRegion_calm {r0 : State} (s : State) (n : Nat) (d : SideDesc) (k : Nat) (r : Nat) (bs : List (List Byte)) (hk : Calm r0 s)
    : Calm r0 (State.writeRegion s n d k r bs) := by
  unfold State.writeRegion
  repeat' first
    | with_reducible assumption | intro _ | with_reducible apply calm_ite | with_reducible apply emit_calm
    | with_reducible apply updLed_calm | with_reducible apply calm_foldl | with_reducible apply calm_foldl_fst
    | with_reducible apply calm_ite_fst | extract_lets | split | (with_reducible refine calm_fst (by assumption) ?_) | dsimp only [id]

theorem writeGen_calm {r0 : State} (s : State) (n : Nat) (k : Nat) (gen : Nat) (hk : Calm r0 s) : Calm r0 (State.writeGen s n k gen) := by
  unfold State.writeGen
  repeat' first
    | with_reducible assumption | intro _ | with_reducible apply calm_ite | with_reducible apply writeRegion_calm
    | with_reducible apply calm_foldl | with_reducible apply calm_foldl_fst | with_reducible apply calm_ite_fst | extract_lets | split
    | (with_reducible refine calm_fst (by assumption) ?_) | dsimp only [id]

theorem zoneEvent_calm {r0 : State} (s : State) (n : Nat) (z : Nat) (hk : Calm r0 s) : Calm r0 (State.zoneEvent s n z) := by
  unfold State.zoneEvent
  repeat' first
    | with_reducible assumption | intro _ | with_reducible apply calm_ite | with_reducible apply event_calm
    | with_reducible apply updHost_calm | with_reducible apply calm_foldl | with_reducible apply calm_foldl_fst
    | with_reducible apply calm_ite_fst | extract_lets | split | (with_reducible refine calm_fst (by assumption) ?_) | dsimp only [id]

theorem lostEvent_calm {r0 : State} (s : State) (n : Nat) (hk : Calm r0 s) : Calm r0 (State.lostEvent s n) := by
  unfold State.lostEvent
  repeat' first
    | with_reducible assumption | intro _ | with_reducible apply calm_ite | with_reducible apply event_calm
    | with_reducible apply updHost_calm | with_reducible apply calm_foldl | with_reducible apply calm_foldl_fst
    | with_reducible apply calm_ite_fst | extract_lets | split | (with_reducible refine calm_fst (by assumption) ?_) | dsimp only [id]

theorem relocate_calm {r0 : State} (s : State) (n : Nat) (conv : Bool) (lba : Nat) (step : Nat) (payload : List Byte) (hk : Calm r0 s) :
    Calm r0 (State.relocate s n conv lba step payload).1 := by
  unfold State.relocate
  repeat' first
    | with_reducible assumption | intro _ | with_reducible apply calm_ite | with_reducible apply updLed_calm
    | with_reducible apply wrN_calm | with_reducible apply mqWait_calm | with_reducible apply bump_calm
    | with_reducible apply queueSpares_calm | with_reducible apply setZone_calm | with_reducible apply zoneEvent_calm
    | with_reducible apply calm_foldl | with_reducible apply calm_foldl_fst | with_reducible apply calm_ite_fst | extract_lets | split
    | (with_reducible refine calm_fst (by assumption) ?_) | dsimp only [id]

theorem recAccept_calm {r0 : State} (s : State) (r : RecRecord) (stored : List Byte) (hk : Calm r0 s) : Calm r0 (State.recAccept s r
    stored) := by
  unfold State.recAccept
  repeat' first
    | with_reducible assumption | intro _ | with_reducible apply calm_ite | with_reducible apply bumpBy_calm
    | with_reducible apply relocate_calm | with_reducible apply recDrop_calm | with_reducible apply deliver_calm
    | with_reducible apply trace_calm | with_reducible apply calm_foldl | with_reducible apply calm_foldl_fst
    | with_reducible apply calm_ite_fst | extract_lets | split | (with_reducible refine calm_fst (by assumption) ?_) | dsimp only [id]

theorem capCheck_calm {r0 : State} (s : State) (r : RecRecord) (hk : Calm r0 s) : Calm r0 (State.capCheck s r).1 := by
  unfold State.capCheck
  repeat' first
    | with_reducible assumption | intro _ | with_reducible apply calm_ite | with_reducible apply raise_calm
    | with_reducible apply setRec_calm | with_reducible apply calm_foldl | with_reducible apply calm_foldl_fst
    | with_reducible apply calm_ite_fst | extract_lets | split | (with_reducible refine calm_fst (by assumption) ?_) | dsimp only [id]

theorem sanShow_calm {r0 : State} (s : State) (n : Nat) (hk : Calm r0 s) : Calm r0 (State.sanShow s n) := by
  unfold State.sanShow
  repeat' first
    | with_reducible assumption | intro _ | with_reducible apply calm_ite | with_reducible apply wrN_calm
    | with_reducible apply calm_foldl | with_reducible apply calm_foldl_fst | with_reducible apply calm_ite_fst | extract_lets | split
    | (with_reducible refine calm_fst (by assumption) ?_) | dsimp only [id]

theorem genDurable_calm {r0 : State} (s : State) (n : Nat) (k : Nat) (hk : Calm r0 s) : Calm r0 (State.genDurable s n k) := by
  unfold State.genDurable
  repeat' first
    | with_reducible assumption | intro _ | with_reducible apply calm_ite | with_reducible apply writeGen_calm
    | with_reducible apply updLed_calm | with_reducible apply wr_calm | with_reducible apply lostEvent_calm
    | with_reducible apply wrB_calm | with_reducible apply zoneEvent_calm | with_reducible apply calm_foldl
    | with_reducible apply calm_foldl_fst | with_reducible apply calm_ite_fst | extract_lets | split
    | (with_reducible refine calm_fst (by assumption) ?_) | dsimp only [id]

theorem makeOpen_calm {r0 : State} (s : State) (n : Nat) (z : Nat) (hk : Calm r0 s) : Calm r0 (State.makeOpen s n z) := by
  unfold State.makeOpen
  repeat' first
    | with_reducible assumption | intro _ | with_reducible apply calm_ite | with_reducible apply bump_calm
    | with_reducible apply setZone_calm | with_reducible apply calm_foldl | with_reducible apply calm_foldl_fst
    | with_reducible apply calm_ite_fst | extract_lets | split | (with_reducible refine calm_fst (by assumption) ?_) | dsimp only [id]

theorem admitRead_calm {r0 : State} (s : State) (c : Cmd) (hk : Calm r0 s) : Calm r0 (State.admitRead s c) := by
  unfold State.admitRead
  repeat' first
    | with_reducible assumption | intro _ | with_reducible apply calm_ite | with_reducible apply updHost_calm
    | with_reducible apply bumpBy_calm | with_reducible apply mqWait_calm | with_reducible apply calm_foldl
    | with_reducible apply calm_foldl_fst | with_reducible apply calm_ite_fst | extract_lets | split
    | (with_reducible refine calm_fst (by assumption) ?_) | dsimp only [id]

theorem giveRoom_calm {r0 : State} (s : State) (hk : Calm r0 s) : Calm r0 (State.giveRoom s) := by
  unfold State.giveRoom
  repeat' first
    | with_reducible assumption | intro _ | with_reducible apply calm_ite | with_reducible apply bufRefresh_calm
    | with_reducible apply updCmd_calm | with_reducible apply calm_foldl | with_reducible apply calm_foldl_fst
    | with_reducible apply calm_ite_fst | extract_lets | split | (with_reducible refine calm_fst (by assumption) ?_) | dsimp only [id]

theorem admitWrite_calm {r0 : State} (s : State) (c : Cmd) (hk : Calm r0 s) : Calm r0 (State.admitWrite s c) := by
  unfold State.admitWrite
  repeat' first
    | with_reducible assumption | intro _ | with_reducible apply calm_ite | with_reducible apply wrN_calm
    | with_reducible apply updLed_calm | with_reducible apply bump_calm | with_reducible apply mqDrop_calm
    | with_reducible apply updHost_calm | with_reducible apply lostRemove_calm | with_reducible apply updPool_calm
    | with_reducible apply gapFill_calm | with_reducible apply mqWait_calm | with_reducible apply makeOpen_calm
    | with_reducible apply setZone_calm | with_reducible apply zoneMap_calm | with_reducible apply eraseZone_calm
    | with_reducible apply accRebuild_calm | with_reducible apply stage_calm | with_reducible apply giveRoom_calm
    | with_reducible apply calm_foldl | with_reducible apply calm_foldl_fst | with_reducible apply calm_ite_fst | extract_lets | split
    | (with_reducible refine calm_fst (by assumption) ?_) | simp only [calm_mk] | dsimp only [id] | dsimp +zetaDelta only

theorem takeTurn_calm {r0 : State} (s : State) (passed fuel : Nat) (hk : Calm r0 s) : Calm r0 (State.takeTurn s passed fuel).1 := by
  induction fuel generalizing s passed with
  | zero => exact hk
  | succ n ih =>
    unfold State.takeTurn
    repeat' first
      | with_reducible assumption | with_reducible apply ih | with_reducible apply trace_calm | with_reducible apply updHost_calm
      | with_reducible apply bump_calm | with_reducible apply calm_ite_fst | extract_lets | split | dsimp +zetaDelta only

theorem fetchTurn_calm {r0 : State} (s : State) (e : Sqe) (hk : Calm r0 s) : Calm r0 (State.fetchTurn s e) := by
  unfold State.fetchTurn
  repeat' first
    | with_reducible assumption | intro _ | with_reducible apply calm_ite | with_reducible apply takeTurn_calm
    | with_reducible apply updHost_calm | with_reducible apply wrN_calm | with_reducible apply wr64_calm
    | with_reducible apply complete_calm | with_reducible apply bump_calm | with_reducible apply admitRead_calm
    | with_reducible apply admitWrite_calm | with_reducible apply mqWait_calm | with_reducible apply mqRefresh_calm
    | with_reducible apply updAct_calm | with_reducible apply updCmd_calm | with_reducible apply calm_foldl
    | with_reducible apply calm_foldl_fst | with_reducible apply calm_ite_fst | extract_lets | split
    | (with_reducible refine calm_fst (by assumption) ?_) | simp only [calm_mk] | dsimp only [id]

theorem holdActs_calm {r0 : State} (s : State) (hk : Calm r0 s) : Calm r0 (State.holdActs s) := by
  unfold State.holdActs
  repeat' first
    | with_reducible assumption | intro _ | with_reducible apply calm_ite | with_reducible apply updAct_calm
    | with_reducible apply calm_foldl | with_reducible apply calm_foldl_fst | with_reducible apply calm_ite_fst | extract_lets | split
    | (with_reducible refine calm_fst (by assumption) ?_) | dsimp only [id]

theorem postWaiting_calm {r0 : State} (s : State) (hk : Calm r0 s) : Calm r0 (State.postWaiting s) := by
  unfold State.postWaiting
  repeat' first
    | with_reducible assumption | intro _ | with_reducible apply calm_ite | with_reducible apply complete_calm
    | with_reducible apply calm_foldl | with_reducible apply calm_foldl_fst | with_reducible apply calm_ite_fst | extract_lets | split
    | (with_reducible refine calm_fst (by assumption) ?_) | dsimp only [id]

theorem adminRow_calm {r0 : State} (s : State) (slot : BitVec 16) (opc : Nat) (act : Cmd → State → State) (hact : ∀ (x0 : Cmd) (x1 :
    State), Calm r0 x1 → Calm r0 (act x0 x1)) (hk : Calm r0 s) : Calm r0 (State.adminRow s slot opc act) := by
  unfold State.adminRow
  repeat' first
    | with_reducible assumption | intro _ | apply hact | with_reducible apply calm_ite | with_reducible apply updCmd_calm
    | with_reducible apply calm_foldl | with_reducible apply calm_foldl_fst | with_reducible apply calm_ite_fst | extract_lets | split
    | (with_reducible refine calm_fst (by assumption) ?_) | dsimp only [id]

theorem ioRow_calm {r0 : State} (s : State) (slot : BitVec 16) (opc : Nat) (act : Cmd → State → State) (hact : ∀ (x0 : Cmd) (x1 :
    State), Calm r0 x1 → Calm r0 (act x0 x1)) (hk : Calm r0 s) : Calm r0 (State.ioRow s slot opc act) := by
  unfold State.ioRow
  repeat' first
    | with_reducible assumption | intro _ | apply hact | with_reducible apply calm_ite | with_reducible apply updCmd_calm
    | with_reducible apply calm_foldl | with_reducible apply calm_foldl_fst | with_reducible apply calm_ite_fst | extract_lets | split
    | (with_reducible refine calm_fst (by assumption) ?_) | dsimp only [id]

theorem setFeature_calm {r0 : State} (s : State) (slot : BitVec 16) (fid : Nat) (act : Cmd → State → State) (hact : ∀ (x0 : Cmd) (x1 :
    State), Calm r0 x1 → Calm r0 (act x0 x1)) (hk : Calm r0 s) : Calm r0 (State.setFeature s slot fid act) := by
  unfold State.setFeature
  repeat' first
    | with_reducible assumption | intro _ | apply hact | with_reducible apply calm_ite | with_reducible apply adminRow_calm
    | with_reducible apply calm_foldl | with_reducible apply calm_foldl_fst | with_reducible apply calm_ite_fst | extract_lets | split
    | (with_reducible refine calm_fst (by assumption) ?_) | dsimp only [id]

theorem abortSlot_calm {r0 : State} (s : State) (c : Cmd) (status : Nat) (hk : Calm r0 s) : Calm r0 (State.abortSlot s c status) := by
  unfold State.abortSlot
  repeat' first
    | with_reducible assumption | intro _ | with_reducible apply calm_ite | with_reducible apply trace_calm
    | with_reducible apply updCmd_calm | with_reducible apply abortWork_calm | with_reducible apply calm_foldl
    | with_reducible apply calm_foldl_fst | with_reducible apply calm_ite_fst | extract_lets | split
    | (with_reducible refine calm_fst (by assumption) ?_) | dsimp only [id]

theorem waitersDone_calm {r0 : State} (s : State) (hk : Calm r0 s) : Calm r0 (State.waitersDone s) := by
  unfold State.waitersDone
  repeat' first
    | with_reducible assumption | intro _ | with_reducible apply calm_ite | with_reducible apply updHost_calm
    | with_reducible apply complete_calm | with_reducible apply calm_foldl | with_reducible apply calm_foldl_fst
    | with_reducible apply calm_ite_fst | extract_lets | split | (with_reducible refine calm_fst (by assumption) ?_) | dsimp only [id]

theorem ctrlReady_calm {r0 : State} (s : State) (hk : Calm r0 s) : Calm r0 (State.ctrlReady s) := by
  unfold State.ctrlReady
  repeat' first
    | with_reducible assumption | intro _ | with_reducible apply calm_ite | with_reducible apply updHost_calm
    | with_reducible apply calm_foldl | with_reducible apply calm_foldl_fst | with_reducible apply calm_ite_fst | extract_lets | split
    | (with_reducible refine calm_fst (by assumption) ?_) | dsimp only [id]

theorem cleanSides_calm {r0 : State} (s : State) (hk : Calm r0 s) : Calm r0 (State.cleanSides s) := by
  unfold State.cleanSides
  repeat' first
    | with_reducible assumption | intro _ | with_reducible apply calm_ite | with_reducible apply updLed_calm
    | with_reducible apply stage_calm | with_reducible apply calm_foldl | with_reducible apply calm_foldl_fst
    | with_reducible apply calm_ite_fst | extract_lets | split | (with_reducible refine calm_fst (by assumption) ?_) | dsimp only [id]

theorem bufferGrain_calm {r0 : State} (s : State) (c : Cmd) (lba : Nat) (payload : List Byte) (hk : Calm r0 s) : Calm r0
    (State.bufferGrain s c lba payload) := by
  unfold State.bufferGrain
  repeat' first
    | with_reducible assumption | intro _ | with_reducible apply calm_ite | with_reducible apply putGrain_calm
    | with_reducible apply updHost_calm | with_reducible apply updCmd_calm | with_reducible apply bufRefresh_calm
    | with_reducible apply setZone_calm | with_reducible apply zoneFull_calm | with_reducible apply calm_foldl
    | with_reducible apply calm_foldl_fst | with_reducible apply calm_ite_fst | extract_lets | split
    | (with_reducible refine calm_fst (by assumption) ?_) | simp only [calm_mk] | dsimp only [id]

theorem fillZeroes_calm {r0 : State} (s : State) (slot fuel : Nat) (hk : Calm r0 s) : Calm r0 (State.fillZeroes s slot fuel) := by
  induction fuel generalizing s with
  | zero => unfold State.fillZeroes; exact hk
  | succ n ih =>
    unfold State.fillZeroes
    split
    · rename_i fuel c hf hc
      obtain rfl : n = fuel := by simpa using hf
      repeat' first
        | with_reducible assumption | with_reducible apply calm_ite | with_reducible apply ih | with_reducible apply bufferGrain_calm | split
    · exact hk

theorem cacheCheck_calm {r0 : State} (s : State) (n : Nat) (conv : Bool) (lba : Nat) (hk : Calm r0 s) : Calm r0 (State.cacheCheck s n
    conv lba) := by
  unfold State.cacheCheck
  repeat' first
    | with_reducible assumption | intro _ | with_reducible apply calm_ite | with_reducible apply bump_calm
    | with_reducible apply raise_calm | with_reducible apply calm_foldl | with_reducible apply calm_foldl_fst
    | with_reducible apply calm_ite_fst | extract_lets | split | (with_reducible refine calm_fst (by assumption) ?_)
    | simp only [calm_mk] | dsimp only [id]

theorem serve_calm {r0 : State} (s : State) (c : Cmd) (hk : Calm r0 s) : Calm r0 (State.serve s c) := by
  unfold State.serve
  repeat' first
    | with_reducible assumption | intro _ | with_reducible apply calm_ite | with_reducible apply cacheCheck_calm
    | with_reducible apply complete_calm | with_reducible apply badGrain_calm | with_reducible apply emit_calm
    | with_reducible apply updCmd_calm | with_reducible apply mqWait_calm | with_reducible apply calm_foldl
    | with_reducible apply calm_foldl_fst | with_reducible apply calm_ite_fst | extract_lets | split
    | (with_reducible refine calm_fst (by assumption) ?_) | dsimp only [id]

theorem readStart_calm {r0 : State} (s : State) (c : Cmd) (hk : Calm r0 s) : Calm r0 (State.readStart s c) := by
  unfold State.readStart
  repeat' first
    | with_reducible assumption | intro _ | with_reducible apply calm_ite | with_reducible apply updHost_calm
    | with_reducible apply bump_calm | with_reducible apply settle_calm | with_reducible apply complete_calm
    | with_reducible apply errEntry_calm | with_reducible apply serve_calm | with_reducible apply calm_foldl
    | with_reducible apply calm_foldl_fst | with_reducible apply calm_ite_fst | extract_lets | split
    | (with_reducible refine calm_fst (by assumption) ?_) | dsimp only [id]

theorem zoneSend_calm {r0 : State} (s : State) (slot : BitVec 16) (zsa : Nat) (act : Cmd → State → State) (hact : ∀ (x0 : Cmd) (x1 :
    State), Calm r0 x1 → Calm r0 (act x0 x1)) (hk : Calm r0 s) : Calm r0 (State.zoneSend s slot zsa act) := by
  unfold State.zoneSend
  repeat' first
    | with_reducible assumption | intro _ | apply hact | with_reducible apply calm_ite | with_reducible apply ioRow_calm
    | with_reducible apply calm_foldl | with_reducible apply calm_foldl_fst | with_reducible apply calm_ite_fst | extract_lets | split
    | (with_reducible refine calm_fst (by assumption) ?_) | dsimp only [id]

theorem zoneAct_calm {r0 : State} (s : State) (c : Cmd) (permits : ZCond → Bool) (act : List Nat → State → State) (hact : ∀ (x0 : List
    Nat) (x1 : State), Calm r0 x1 → Calm r0 (act x0 x1)) (hk : Calm r0 s) : Calm r0 (State.zoneAct s c permits act) := by
  unfold State.zoneAct
  repeat' first
    | with_reducible assumption | intro _ | apply hact | with_reducible apply calm_ite | with_reducible apply complete_calm
    | with_reducible apply calm_foldl | with_reducible apply calm_foldl_fst | with_reducible apply calm_ite_fst | extract_lets | split
    | (with_reducible refine calm_fst (by assumption) ?_) | dsimp only [id]

theorem zoneRecv_calm {r0 : State} (s : State) (slot : BitVec 16) (zra : Nat) (act : Cmd → State → State) (hact : ∀ (x0 : Cmd) (x1 :
    State), Calm r0 x1 → Calm r0 (act x0 x1)) (hk : Calm r0 s) : Calm r0 (State.zoneRecv s slot zra act) := by
  unfold State.zoneRecv
  repeat' first
    | with_reducible assumption | intro _ | apply hact | with_reducible apply calm_ite | with_reducible apply ioRow_calm
    | with_reducible apply calm_foldl | with_reducible apply calm_foldl_fst | with_reducible apply calm_ite_fst | extract_lets | split
    | (with_reducible refine calm_fst (by assumption) ?_) | dsimp only [id]

theorem mbAccess_calm {r0 : State} (s : State) (who : Initiator) (ch : Nat) (d : Nat) (off : Nat) (wr : Bool) (act : State → State)
    (hact : ∀ (x0 : State), Calm r0 x0 → Calm r0 (act x0)) (hk : Calm r0 s) : Calm r0 (State.mbAccess s who ch d off wr act) := by
  unfold State.mbAccess
  repeat' first
    | with_reducible assumption | intro _ | apply hact | with_reducible apply calm_ite | with_reducible apply wake_calm
    | with_reducible apply refused_calm | with_reducible apply violate_calm | with_reducible apply guardAcc_calm
    | with_reducible apply calm_foldl | with_reducible apply calm_foldl_fst | with_reducible apply calm_ite_fst | extract_lets | split
    | (with_reducible refine calm_fst (by assumption) ?_) | dsimp only [id]

theorem mbUnqueue_calm {r0 : State} (s : State) (ch : Nat) (d : Nat) (hk : Calm r0 s) : Calm r0 (State.mbUnqueue s ch d) := by
  unfold State.mbUnqueue
  repeat' first
    | with_reducible assumption | intro _ | with_reducible apply calm_ite | with_reducible apply updHusk_calm
    | with_reducible apply calm_foldl | with_reducible apply calm_foldl_fst | with_reducible apply calm_ite_fst | extract_lets | split
    | (with_reducible refine calm_fst (by assumption) ?_) | dsimp only [id]

theorem violWrite_calm {r0 : State} (s : State) (id : Nat) (reg : Nat) (v : Word) (hk : Calm r0 s) : Calm r0 (State.violWrite s id reg
    v) := by
  unfold State.violWrite
  repeat' first
    | with_reducible assumption | intro _ | with_reducible apply calm_ite | with_reducible apply calm_foldl
    | with_reducible apply calm_foldl_fst | with_reducible apply calm_ite_fst | extract_lets | split
    | (with_reducible refine calm_fst (by assumption) ?_) | simp only [calm_mk] | dsimp only [id]

theorem msixWrite_calm {r0 : State} (s : State) (i : Nat) (v : Word) (hk : Calm r0 s) : Calm r0 (State.msixWrite s i v) := by
  unfold State.msixWrite
  repeat' first
    | with_reducible assumption | intro _ | with_reducible apply calm_ite | with_reducible apply updHost_calm
    | with_reducible apply emit_calm | with_reducible apply calm_foldl | with_reducible apply calm_foldl_fst
    | with_reducible apply calm_ite_fst | extract_lets | split | (with_reducible refine calm_fst (by assumption) ?_) | dsimp only [id]

theorem wordWrite_calm {r0 : State} (s : State) (a : Nat) (v : Word) (hk : Calm r0 s) : Calm r0 (State.wordWrite s a v) := by
  unfold State.wordWrite
  repeat' first
    | with_reducible assumption | intro _ | with_reducible apply calm_ite | with_reducible apply memWrite_calm
    | with_reducible apply calm_foldl | with_reducible apply calm_foldl_fst | with_reducible apply calm_ite_fst | extract_lets | split
    | (with_reducible refine calm_fst (by assumption) ?_) | dsimp only [id]

theorem hourMark_calm {r0 : State} (s : State) (hk : Calm r0 s) : Calm r0 (State.hourMark s) := by
  unfold State.hourMark
  repeat' first
    | with_reducible assumption | intro _ | with_reducible apply calm_ite | with_reducible apply updAlm_calm
    | with_reducible apply audit_calm | with_reducible apply calm_foldl | with_reducible apply calm_foldl_fst
    | with_reducible apply calm_ite_fst | extract_lets | split | (with_reducible refine calm_fst (by assumption) ?_) | dsimp only [id]

theorem passUs_calm {r0 : State} (s : State) (d : Nat) (hk : Calm r0 s) : Calm r0 (State.passUs s d) := by
  unfold State.passUs
  repeat' first
    | with_reducible assumption | intro _ | with_reducible apply calm_ite | with_reducible apply updAlm_calm
    | with_reducible apply hourMark_calm | with_reducible apply calm_foldl | with_reducible apply calm_foldl_fst
    | with_reducible apply calm_ite_fst | extract_lets | split | (with_reducible refine calm_fst (by assumption) ?_) | dsimp only [id]

theorem put_calm {r0 : State} (s : State) (who : Initiator) (act : State → State) (hact : ∀ (x0 : State), Calm r0 x0 → Calm r0 (act x0))
    (hk : Calm r0 s) : Calm r0 (State.put s who act) := by
  unfold State.put
  repeat' first
    | with_reducible assumption | intro _ | apply hact | with_reducible apply calm_ite | with_reducible apply guard_calm
    | with_reducible apply calm_foldl | with_reducible apply calm_foldl_fst | with_reducible apply calm_ite_fst | extract_lets | split
    | (with_reducible refine calm_fst (by assumption) ?_) | dsimp only [id]

theorem updSnap_calm {r0 : State} (s : State) (h : Nat) (f : Snap → Snap) (hk : Calm r0 s) : Calm r0 (State.updSnap s h f) := by
  unfold State.updSnap
  repeat' first
    | with_reducible assumption | intro _ | with_reducible apply calm_ite | with_reducible apply updAlm_calm
    | with_reducible apply calm_foldl | with_reducible apply calm_foldl_fst | with_reducible apply calm_ite_fst | extract_lets | split
    | (with_reducible refine calm_fst (by assumption) ?_) | dsimp only [id]

theorem snapRefresh_calm {r0 : State} (s : State) (h : Nat) (hk : Calm r0 s) : Calm r0 (State.snapRefresh s h) := by
  unfold State.snapRefresh
  repeat' first
    | with_reducible assumption | intro _ | with_reducible apply calm_ite | with_reducible apply wr_calm
    | with_reducible apply wr64_calm | with_reducible apply calm_foldl | with_reducible apply calm_foldl_fst
    | with_reducible apply calm_ite_fst | extract_lets | split | (with_reducible refine calm_fst (by assumption) ?_) | dsimp only [id]

theorem snapClose_calm {r0 : State} (s : State) (h : Nat) (hk : Calm r0 s) : Calm r0 (State.snapClose s h) := by
  unfold State.snapClose
  repeat' first
    | with_reducible assumption | intro _ | with_reducible apply calm_ite | with_reducible apply snapRefresh_calm
    | with_reducible apply auditFit_calm | with_reducible apply updSnap_calm | with_reducible apply calm_foldl
    | with_reducible apply calm_foldl_fst | with_reducible apply calm_ite_fst | extract_lets | split
    | (with_reducible refine calm_fst (by assumption) ?_) | dsimp only [id]

theorem snapOpen_calm {r0 : State} (s : State) (h : Nat) (hk : Calm r0 s) : Calm r0 (State.snapOpen s h) := by
  unfold State.snapOpen
  repeat' first
    | with_reducible assumption | intro _ | with_reducible apply calm_ite | with_reducible apply snapClose_calm
    | with_reducible apply snapRefresh_calm | with_reducible apply updSnap_calm | with_reducible apply calm_foldl
    | with_reducible apply calm_foldl_fst | with_reducible apply calm_ite_fst | extract_lets | split
    | (with_reducible refine calm_fst (by assumption) ?_) | dsimp only [id]

theorem snapShow_calm {r0 : State} (s : State) (hk : Calm r0 s) : Calm r0 (State.snapShow s) := by
  unfold State.snapShow
  repeat' first
    | with_reducible assumption | intro _ | with_reducible apply calm_ite | with_reducible apply emit_calm
    | with_reducible apply calm_foldl | with_reducible apply calm_foldl_fst | with_reducible apply calm_ite_fst | extract_lets | split
    | (with_reducible refine calm_fst (by assumption) ?_) | dsimp only [id]

theorem norStart_calm {r0 : State} (s : State) (r : Rec) (hk : Calm r0 s) : Calm r0 (State.norStart s r) := by
  unfold State.norStart
  repeat' first
    | with_reducible assumption | intro _ | with_reducible apply calm_ite | with_reducible apply updAlm_calm
    | with_reducible apply calm_foldl | with_reducible apply calm_foldl_fst | with_reducible apply calm_ite_fst | extract_lets | split
    | (with_reducible refine calm_fst (by assumption) ?_) | dsimp only [id]

theorem norPut_calm {r0 : State} (s : State) (r : Rec) (hk : Calm r0 s) : Calm r0 (State.norPut s r) := by
  unfold State.norPut
  repeat' first
    | with_reducible assumption | intro _ | with_reducible apply calm_ite | with_reducible apply updAlm_calm
    | with_reducible apply norStart_calm | with_reducible apply calm_foldl | with_reducible apply calm_foldl_fst
    | with_reducible apply calm_ite_fst | extract_lets | split | (with_reducible refine calm_fst (by assumption) ?_) | dsimp only [id]

theorem norFlush_calm {r0 : State} (s : State) (hk : Calm r0 s) : Calm r0 (State.norFlush s) := by
  unfold State.norFlush
  repeat' first
    | with_reducible assumption | intro _ | with_reducible apply calm_ite | with_reducible apply norPut_calm
    | with_reducible apply calm_foldl | with_reducible apply calm_foldl_fst | with_reducible apply calm_ite_fst | extract_lets | split
    | (with_reducible refine calm_fst (by assumption) ?_) | dsimp only [id]

theorem clearClass_calm {r0 : State} (s : State) (cls : Nat) (who : Nat) (hk : Calm r0 s) : Calm r0 (State.clearClass s cls who) := by
  unfold State.clearClass
  repeat' first
    | with_reducible assumption | intro _ | with_reducible apply calm_ite | with_reducible apply updAlm_calm
    | with_reducible apply bumpBy_calm | with_reducible apply snapRefresh_calm | with_reducible apply norFlush_calm
    | with_reducible apply audit_calm | with_reducible apply dmaWrite_calm | with_reducible apply calm_foldl
    | with_reducible apply calm_foldl_fst | with_reducible apply calm_ite_fst | extract_lets | split
    | (with_reducible refine calm_fst (by assumption) ?_) | dsimp only [id]

theorem updOrr_calm {r0 : State} (s : State) (f : OrrSt → OrrSt) (hk : Calm r0 s) : Calm r0 (State.updOrr s f) := by
  unfold State.updOrr
  repeat' first
    | with_reducible assumption | intro _ | with_reducible apply calm_ite | with_reducible apply calm_foldl
    | with_reducible apply calm_foldl_fst | with_reducible apply calm_ite_fst | extract_lets | split
    | (with_reducible refine calm_fst (by assumption) ?_) | simp only [calm_mk] | dsimp only [id]

theorem orrSend_calm {r0 : State} (s : State) (typ : Nat) (dst : Nat) (body : List Byte) (hk : Calm r0 s) : Calm r0 (State.orrSend s typ
    dst body) := by
  unfold State.orrSend
  repeat' first
    | with_reducible assumption | intro _ | with_reducible apply calm_ite | with_reducible apply updOrr_calm
    | with_reducible apply emit_calm | with_reducible apply calm_foldl | with_reducible apply calm_foldl_fst
    | with_reducible apply calm_ite_fst | extract_lets | split | (with_reducible refine calm_fst (by assumption) ?_) | dsimp only [id]

theorem orrRefresh_calm {r0 : State} (s : State) (hk : Calm r0 s) : Calm r0 (State.orrRefresh s) := by
  unfold State.orrRefresh
  repeat' first
    | with_reducible assumption | intro _ | with_reducible apply calm_ite | with_reducible apply wrN_calm
    | with_reducible apply wrB_calm | with_reducible apply calm_foldl | with_reducible apply calm_foldl_fst
    | with_reducible apply calm_ite_fst | extract_lets | split | (with_reducible refine calm_fst (by assumption) ?_) | dsimp only [id]

theorem updMember_calm {r0 : State} (s : State) (id : Nat) (f : Member → Member) (hk : Calm r0 s) : Calm r0 (State.updMember s id f) := by
  unfold State.updMember
  repeat' first
    | with_reducible assumption | intro _ | with_reducible apply calm_ite | with_reducible apply updOrr_calm
    | with_reducible apply calm_foldl | with_reducible apply calm_foldl_fst | with_reducible apply calm_ite_fst | extract_lets | split
    | (with_reducible refine calm_fst (by assumption) ?_) | dsimp only [id]

theorem tokenTake_calm {r0 : State} (s : State) (reqId : Nat) (id : Nat) (watts : Nat) (hk : Calm r0 s) : Calm r0 (State.tokenTake s
    reqId id watts) := by
  unfold State.tokenTake
  repeat' first
    | with_reducible assumption | intro _ | with_reducible apply calm_ite | with_reducible apply updOrr_calm
    | with_reducible apply orrRefresh_calm | with_reducible apply calm_foldl | with_reducible apply calm_foldl_fst
    | with_reducible apply calm_ite_fst | extract_lets | split | (with_reducible refine calm_fst (by assumption) ?_)
    | simp only [calm_mk] | dsimp only [id]

theorem grant_calm {r0 : State} (s : State) (fuel : Nat) (hk : Calm r0 s) : Calm r0 (State.grant s fuel) := by
  induction fuel generalizing s with
  | zero =>
    unfold State.grant
    repeat' first
      | with_reducible assumption | intro _ | with_reducible apply calm_ite | with_reducible apply audit_calm
      | with_reducible apply updOrr_calm | with_reducible apply updMember_calm | with_reducible apply tokenTake_calm
      | with_reducible apply orrSend_calm | with_reducible apply orrRefresh_calm | with_reducible apply calm_foldl
      | with_reducible apply calm_foldl_fst | with_reducible apply calm_ite_fst | extract_lets | split
      | (with_reducible refine calm_fst (by assumption) ?_) | dsimp only [id]
  | succ n ih =>
    unfold State.grant
    repeat' first
      | with_reducible assumption | intro _ | with_reducible apply calm_ite | with_reducible apply audit_calm
      | with_reducible apply updOrr_calm | with_reducible apply updMember_calm | with_reducible apply tokenTake_calm
      | with_reducible apply orrSend_calm | with_reducible apply orrRefresh_calm | with_reducible apply ih
      | with_reducible apply calm_foldl | with_reducible apply calm_foldl_fst | with_reducible apply calm_ite_fst | extract_lets
      | split | (with_reducible refine calm_fst (by assumption) ?_) | dsimp only [id]

theorem enqueue_calm {r0 : State} (s : State) (r : TokReq) (hk : Calm r0 s) : Calm r0 (State.enqueue s r) := by
  unfold State.enqueue
  repeat' first
    | with_reducible assumption | intro _ | with_reducible apply calm_ite | with_reducible apply updOrr_calm
    | with_reducible apply grant_calm | with_reducible apply calm_foldl | with_reducible apply calm_foldl_fst
    | with_reducible apply calm_ite_fst | extract_lets | split | (with_reducible refine calm_fst (by assumption) ?_) | dsimp only [id]

theorem tokenAsk_calm {r0 : State} (s : State) (reqId : Nat) (spin : Bool) (group : Nat) (watts : Nat) (hk : Calm r0 s) : Calm r0
    (State.tokenAsk s reqId spin group watts) := by
  unfold State.tokenAsk
  repeat' first
    | with_reducible assumption | intro _ | with_reducible apply calm_ite | with_reducible apply orrRefresh_calm
    | with_reducible apply updOrr_calm | with_reducible apply enqueue_calm | with_reducible apply orrSend_calm
    | with_reducible apply calm_foldl | with_reducible apply calm_foldl_fst | with_reducible apply calm_ite_fst | extract_lets | split
    | (with_reducible refine calm_fst (by assumption) ?_) | dsimp only [id]

theorem tokenGive_calm {r0 : State} (s : State) (id : Nat) (hk : Calm r0 s) : Calm r0 (State.tokenGive s id) := by
  unfold State.tokenGive
  repeat' first
    | with_reducible assumption | intro _ | with_reducible apply calm_ite | with_reducible apply updOrr_calm
    | with_reducible apply updMember_calm | with_reducible apply grant_calm | with_reducible apply orrRefresh_calm
    | with_reducible apply orrSend_calm | with_reducible apply calm_foldl | with_reducible apply calm_foldl_fst
    | with_reducible apply calm_ite_fst | extract_lets | split | (with_reducible refine calm_fst (by assumption) ?_) | dsimp only [id]

theorem askStanding_calm {r0 : State} (s : State) (hk : Calm r0 s) : Calm r0 (State.askStanding s) := by
  unfold State.askStanding
  repeat' first
    | with_reducible assumption | intro _ | with_reducible apply calm_ite | with_reducible apply tokenAsk_calm
    | with_reducible apply calm_foldl | with_reducible apply calm_foldl_fst | with_reducible apply calm_ite_fst | extract_lets | split
    | (with_reducible refine calm_fst (by assumption) ?_) | dsimp only [id]

theorem withdrawReqs_calm {r0 : State} (s : State) (p : TokReq → Bool) (hk : Calm r0 s) : Calm r0 (State.withdrawReqs s p) := by
  unfold State.withdrawReqs
  repeat' first
    | with_reducible assumption | intro _ | with_reducible apply calm_ite | with_reducible apply orrRefresh_calm
    | with_reducible apply updOrr_calm | with_reducible apply calm_foldl | with_reducible apply calm_foldl_fst
    | with_reducible apply calm_ite_fst | extract_lets | split | (with_reducible refine calm_fst (by assumption) ?_) | dsimp only [id]

theorem giveAll_calm {r0 : State} (s : State) (p : Token → Bool) (hk : Calm r0 s) : Calm r0 (State.giveAll s p) := by
  unfold State.giveAll
  repeat' first
    | with_reducible assumption | intro _ | with_reducible apply calm_ite | with_reducible apply tokenGive_calm
    | with_reducible apply calm_foldl | with_reducible apply calm_foldl_fst | with_reducible apply calm_ite_fst | extract_lets | split
    | (with_reducible refine calm_fst (by assumption) ?_) | dsimp only [id]

theorem spinForm_calm {r0 : State} (s : State) (hk : Calm r0 s) : Calm r0 (State.spinForm s) := by
  unfold State.spinForm
  repeat' first
    | with_reducible assumption | intro _ | with_reducible apply calm_ite | with_reducible apply calm_foldl
    | with_reducible apply calm_foldl_fst | with_reducible apply calm_ite_fst | extract_lets | split
    | (with_reducible refine calm_fst (by assumption) ?_) | simp only [calm_mk] | dsimp only [id]

theorem spinAsk_calm {r0 : State} (s : State) (hk : Calm r0 s) : Calm r0 (State.spinAsk s) := by
  unfold State.spinAsk
  repeat' first
    | with_reducible assumption | intro _ | with_reducible apply calm_ite | with_reducible apply spinForm_calm
    | with_reducible apply tokenAsk_calm | with_reducible apply calm_foldl | with_reducible apply calm_foldl_fst
    | with_reducible apply calm_ite_fst | extract_lets | split | (with_reducible refine calm_fst (by assumption) ?_)
    | simp only [calm_mk] | dsimp only [id]

theorem spinRelease_calm {r0 : State} (s : State) (hk : Calm r0 s) : Calm r0 (State.spinRelease s) := by
  unfold State.spinRelease
  repeat' first
    | with_reducible assumption | intro _ | with_reducible apply calm_ite | with_reducible apply tokenGive_calm
    | with_reducible apply calm_foldl | with_reducible apply calm_foldl_fst | with_reducible apply calm_ite_fst | extract_lets | split
    | (with_reducible refine calm_fst (by assumption) ?_) | simp only [calm_mk] | dsimp only [id]

theorem huskUpdate_calm {r0 : State} (s : State) (r1 : Nat) (addr : Nat) (len : Nat) (norOk : Bool) (hk : Calm r0 s) : Calm r0
    (State.huskUpdate s r1 addr len norOk).1 := by
  unfold State.huskUpdate
  repeat' first
    | with_reducible assumption | intro _ | with_reducible apply calm_ite | with_reducible apply tick_calm
    | with_reducible apply updHusk_calm | with_reducible apply audit_calm | with_reducible apply calm_foldl
    | with_reducible apply calm_foldl_fst | with_reducible apply calm_ite_fst | extract_lets | split
    | (with_reducible refine calm_fst (by assumption) ?_) | dsimp only [id]

theorem keyNew_calm {r0 : State} (s : State) (nsid : Nat) (hk : Calm r0 s) : Calm r0 (State.keyNew s nsid) := by
  unfold State.keyNew
  repeat' first
    | with_reducible assumption | intro _ | with_reducible apply calm_ite | with_reducible apply tick_calm
    | with_reducible apply updHusk_calm | with_reducible apply audit_calm | with_reducible apply stage_calm
    | with_reducible apply calm_foldl | with_reducible apply calm_foldl_fst | with_reducible apply calm_ite_fst | extract_lets | split
    | (with_reducible refine calm_fst (by assumption) ?_) | dsimp only [id]

theorem keyDestroy_calm {r0 : State} (s : State) (nsid : Nat) (hk : Calm r0 s) : Calm r0 (State.keyDestroy s nsid) := by
  unfold State.keyDestroy
  repeat' first
    | with_reducible assumption | intro _ | with_reducible apply calm_ite | with_reducible apply updHusk_calm
    | with_reducible apply audit_calm | with_reducible apply stage_calm | with_reducible apply calm_foldl
    | with_reducible apply calm_foldl_fst | with_reducible apply calm_ite_fst | extract_lets | split
    | (with_reducible refine calm_fst (by assumption) ?_) | dsimp only [id]

theorem keysOf_calm {r0 : State} (s : State) (n : Nat) (hk : Calm r0 s) : Calm r0 (State.keysOf s n) := by
  unfold State.keysOf
  repeat' first
    | with_reducible assumption | intro _ | with_reducible apply calm_ite | with_reducible apply updHusk_calm
    | with_reducible apply calm_foldl | with_reducible apply calm_foldl_fst | with_reducible apply calm_ite_fst | extract_lets | split
    | (with_reducible refine calm_fst (by assumption) ?_) | dsimp only [id]

theorem liveAccept_calm {r0 : State} (s : State) (typ : Nat) (b : List Byte) (hk : Calm r0 s) : Calm r0 (State.liveAccept s typ b) := by
  unfold State.liveAccept
  repeat' first
    | with_reducible assumption | intro _ | with_reducible apply calm_ite | with_reducible apply updHusk_calm
    | with_reducible apply calm_foldl | with_reducible apply calm_foldl_fst | with_reducible apply calm_ite_fst | extract_lets | split
    | (with_reducible refine calm_fst (by assumption) ?_) | dsimp only [id]

theorem keyReset_calm {r0 : State} (s : State) (hk : Calm r0 s) : Calm r0 (State.keyReset s) := by
  unfold State.keyReset
  repeat' first
    | with_reducible assumption | intro _ | with_reducible apply calm_ite | with_reducible apply updHusk_calm
    | with_reducible apply keysOf_calm | with_reducible apply calm_foldl | with_reducible apply calm_foldl_fst
    | with_reducible apply calm_ite_fst | extract_lets | split | (with_reducible refine calm_fst (by assumption) ?_) | dsimp only [id]

theorem engineStop_calm {r0 : State} (s : State) (e : Nat) (hk : Calm r0 s) : Calm r0 (State.engineStop s e) := by
  unfold State.engineStop
  repeat' first
    | with_reducible assumption | intro _ | with_reducible apply calm_ite | with_reducible apply chaffAll_calm
    | with_reducible apply gateClose_calm | with_reducible apply endWork_calm | with_reducible apply wr_calm
    | with_reducible apply updLoop_calm | with_reducible apply updAct_calm | with_reducible apply calm_foldl
    | with_reducible apply calm_foldl_fst | with_reducible apply calm_ite_fst | extract_lets | split
    | (with_reducible refine calm_fst (by assumption) ?_) | dsimp only [id]

theorem engineFresh_calm {r0 : State} (s : State) (e : Nat) (hk : Calm r0 s) : Calm r0 (State.engineFresh s e) := by
  unfold State.engineFresh
  repeat' first
    | with_reducible assumption | intro _ | with_reducible apply calm_ite | with_reducible apply wrAt_calm
    | with_reducible apply calm_foldl | with_reducible apply calm_foldl_fst | with_reducible apply calm_ite_fst | extract_lets | split
    | (with_reducible refine calm_fst (by assumption) ?_) | dsimp only [id]

theorem engineRun_calm {r0 : State} (s : State) (e : Nat) (src : Nat) (hk : Calm r0 s) : Calm r0 (State.engineRun s e src) := by
  unfold State.engineRun
  repeat' first
    | with_reducible assumption | intro _ | with_reducible apply calm_ite | with_reducible apply wr_calm
    | with_reducible apply wrN_calm | with_reducible apply updAct_calm | with_reducible apply calm_foldl
    | with_reducible apply calm_foldl_fst | with_reducible apply calm_ite_fst | extract_lets | split
    | (with_reducible refine calm_fst (by assumption) ?_) | dsimp only [id]

theorem miError_calm {r0 : State} (s : State) (m : MiMsg) (hk : Calm r0 s) : Calm r0 (State.miError s m) := by
  unfold State.miError
  repeat' first
    | with_reducible assumption | intro _ | with_reducible apply calm_ite | with_reducible apply emit_calm
    | with_reducible apply calm_foldl | with_reducible apply calm_foldl_fst | with_reducible apply calm_ite_fst | extract_lets | split
    | (with_reducible refine calm_fst (by assumption) ?_) | dsimp only [id]

theorem updGran_calm {r0 : State} (s : State) (f : GranSt → GranSt) (hk : Calm r0 s) : Calm r0 (State.updGran s f) := by
  unfold State.updGran
  repeat' first
    | with_reducible assumption | intro _ | with_reducible apply calm_ite | with_reducible apply calm_foldl
    | with_reducible apply calm_foldl_fst | with_reducible apply calm_ite_fst | extract_lets | split
    | (with_reducible refine calm_fst (by assumption) ?_) | simp only [calm_mk] | dsimp only [id]

theorem granRefresh_calm {r0 : State} (s : State) (hk : Calm r0 s) : Calm r0 (State.granRefresh s) := by
  unfold State.granRefresh
  repeat' first
    | with_reducible assumption | intro _ | with_reducible apply calm_ite | with_reducible apply wrN_calm
    | with_reducible apply calm_foldl | with_reducible apply calm_foldl_fst | with_reducible apply calm_ite_fst | extract_lets | split
    | (with_reducible refine calm_fst (by assumption) ?_) | dsimp only [id]

theorem gleanPut_calm {r0 : State} (s : State) (l : Nat) (hk : Calm r0 s) : Calm r0 (State.gleanPut s l) := by
  unfold State.gleanPut
  repeat' first
    | with_reducible assumption | intro _ | with_reducible apply calm_ite | with_reducible apply bump_calm
    | with_reducible apply updGran_calm | with_reducible apply calm_foldl | with_reducible apply calm_foldl_fst
    | with_reducible apply calm_ite_fst | extract_lets | split | (with_reducible refine calm_fst (by assumption) ?_) | dsimp only [id]

theorem vacate_calm {r0 : State} (s : State) (set : Nat) (way : Nat) (hk : Calm r0 s) : Calm r0 (State.vacate s set way) := by
  unfold State.vacate
  repeat' first
    | with_reducible assumption | intro _ | with_reducible apply calm_ite | with_reducible apply updGran_calm
    | with_reducible apply gleanPut_calm | with_reducible apply calm_foldl | with_reducible apply calm_foldl_fst
    | with_reducible apply calm_ite_fst | extract_lets | split | (with_reducible refine calm_fst (by assumption) ?_) | dsimp only [id]

theorem install_calm {r0 : State} (s : State) (l : Nat) (way : Nat) (lock : Bool) (sec : Bool) (hk : Calm r0 s) : Calm r0 (State.install
    s l way lock sec) := by
  unfold State.install
  repeat' first
    | with_reducible assumption | intro _ | with_reducible apply calm_ite | with_reducible apply injWrite_calm
    | with_reducible apply vacate_calm | with_reducible apply granRefresh_calm | with_reducible apply updGran_calm
    | with_reducible apply calm_foldl | with_reducible apply calm_foldl_fst | with_reducible apply calm_ite_fst | extract_lets | split
    | (with_reducible refine calm_fst (by assumption) ?_) | dsimp only [id]

theorem allocate_calm {r0 : State} (s : State) (l : Nat) (choice : Nat) (refill : Bool) (sec : Bool) (hk : Calm r0 s) : Calm r0
    (State.allocate s l choice refill sec) := by
  unfold State.allocate
  repeat' first
    | with_reducible assumption | intro _ | with_reducible apply calm_ite | with_reducible apply install_calm
    | with_reducible apply calm_foldl | with_reducible apply calm_foldl_fst | with_reducible apply calm_ite_fst | extract_lets | split
    | (with_reducible refine calm_fst (by assumption) ?_) | dsimp only [id]

theorem errAddr_calm {r0 : State} (s : State) (l : Nat) (ue : Bool) (scrub : Bool) (hk : Calm r0 s) : Calm r0 (State.errAddr s l ue
    scrub) := by
  unfold State.errAddr
  repeat' first
    | with_reducible assumption | intro _ | with_reducible apply calm_ite | with_reducible apply wr64_calm
    | with_reducible apply wrB_calm | with_reducible apply calm_foldl | with_reducible apply calm_foldl_fst
    | with_reducible apply calm_ite_fst | extract_lets | split | (with_reducible refine calm_fst (by assumption) ?_) | dsimp only [id]

theorem ddrPoison_calm {r0 : State} (s : State) (l : Nat) (scrub : Bool) (hk : Calm r0 s) : Calm r0 (State.ddrPoison s l scrub) := by
  unfold State.ddrPoison
  repeat' first
    | with_reducible assumption | intro _ | with_reducible apply calm_ite | with_reducible apply updGran_calm
    | with_reducible apply raise_calm | with_reducible apply errAddr_calm | with_reducible apply bump_calm
    | with_reducible apply calm_foldl | with_reducible apply calm_foldl_fst | with_reducible apply calm_ite_fst | extract_lets | split
    | (with_reducible refine calm_fst (by assumption) ?_) | dsimp only [id]

theorem ddrRead_calm {r0 : State} (s : State) (l : Nat) (e : EccEvent) (scrub : Bool) (hk : Calm r0 s) : Calm r0 (State.ddrRead s l e
    scrub) := by
  unfold State.ddrRead
  repeat' first
    | with_reducible assumption | intro _ | with_reducible apply calm_ite | with_reducible apply errAddr_calm
    | with_reducible apply bump_calm | with_reducible apply ddrPoison_calm | with_reducible apply calm_foldl
    | with_reducible apply calm_foldl_fst | with_reducible apply calm_ite_fst | extract_lets | split
    | (with_reducible refine calm_fst (by assumption) ?_) | dsimp only [id]

theorem ddrWrite_calm {r0 : State} (s : State) (l : Nat) (hk : Calm r0 s) : Calm r0 (State.ddrWrite s l) := by
  unfold State.ddrWrite
  repeat' first
    | with_reducible assumption | intro _ | with_reducible apply calm_ite | with_reducible apply injWrite_calm
    | with_reducible apply calm_foldl | with_reducible apply calm_foldl_fst | with_reducible apply calm_ite_fst | extract_lets | split
    | (with_reducible refine calm_fst (by assumption) ?_) | dsimp only [id]

theorem tagError_calm {r0 : State} (s : State) (set : Nat) (way : Nat) (hk : Calm r0 s) : Calm r0 (State.tagError s set way) := by
  unfold State.tagError
  repeat' first
    | with_reducible assumption | intro _ | with_reducible apply calm_ite | with_reducible apply bump_calm
    | with_reducible apply updGran_calm | with_reducible apply memWrite_calm | with_reducible apply granRefresh_calm
    | with_reducible apply raise_calm | with_reducible apply calm_foldl | with_reducible apply calm_foldl_fst
    | with_reducible apply calm_ite_fst | extract_lets | split | (with_reducible refine calm_fst (by assumption) ?_) | dsimp only [id]

theorem poisonRead_calm {r0 : State} (s : State) (who : Initiator) (l : Nat) (hk : Calm r0 s) : Calm r0 (State.poisonRead s who l) := by
  unfold State.poisonRead
  repeat' first
    | with_reducible assumption | intro _ | with_reducible apply calm_ite | with_reducible apply updPool_calm
    | with_reducible apply bump_calm | with_reducible apply emit_calm | with_reducible apply calm_foldl
    | with_reducible apply calm_foldl_fst | with_reducible apply calm_ite_fst | extract_lets | split
    | (with_reducible refine calm_fst (by assumption) ?_) | simp only [calm_mk] | dsimp only [id]

theorem lineWrite_calm {r0 : State} (s : State) (l : Nat) (ofs : Nat) (b : List Byte) (hk : Calm r0 s) : Calm r0 (State.lineWrite s l
    ofs b) := by
  unfold State.lineWrite
  repeat' first
    | with_reducible assumption | intro _ | with_reducible apply calm_ite | with_reducible apply updGran_calm
    | with_reducible apply memWrite_calm | with_reducible apply injWrite_calm | with_reducible apply ddrWrite_calm
    | with_reducible apply calm_foldl | with_reducible apply calm_foldl_fst | with_reducible apply calm_ite_fst | extract_lets | split
    | (with_reducible refine calm_fst (by assumption) ?_) | dsimp only [id]

theorem granEcc_calm {r0 : State} (s : State) (l : Nat) (e : EccEvent) (ddr : EccEvent) (hk : Calm r0 s) : Calm r0 (State.granEcc s l e
    ddr) := by
  unfold State.granEcc
  repeat' first
    | with_reducible assumption | intro _ | with_reducible apply calm_ite | with_reducible apply bump_calm
    | with_reducible apply raise_calm | with_reducible apply updGran_calm | with_reducible apply injWrite_calm
    | with_reducible apply ddrRead_calm | with_reducible apply calm_foldl | with_reducible apply calm_foldl_fst
    | with_reducible apply calm_ite_fst | extract_lets | split | (with_reducible refine calm_fst (by assumption) ?_) | dsimp only [id]

theorem lineAccess_calm {r0 : State} (s : State) (who : Initiator) (sec : Bool) (l : Nat) (ofs : Nat) (wr : Option (List Byte)) (n :
    Nat) (o : MemObs) (hk : Calm r0 s) : Calm r0 (State.lineAccess s who sec l ofs wr n o) := by
  unfold State.lineAccess
  repeat' first
    | with_reducible assumption | intro _ | with_reducible apply calm_ite | with_reducible apply tagError_calm
    | with_reducible apply granEcc_calm | with_reducible apply bump_calm | with_reducible apply allocate_calm
    | with_reducible apply ddrRead_calm | with_reducible apply injWrite_calm | with_reducible apply lineWrite_calm
    | with_reducible apply poisonRead_calm | with_reducible apply emit_calm | with_reducible apply calm_foldl
    | with_reducible apply calm_foldl_fst | with_reducible apply calm_ite_fst | extract_lets | split
    | (with_reducible refine calm_fst (by assumption) ?_) | dsimp only [id] | dsimp +zetaDelta only

theorem huskAccess_calm {r0 : State} (s : State) (who : Initiator) (a : Nat) (wr : Option (List Byte)) (n : Nat) (hk : Calm r0 s) : Calm
    r0 (State.huskAccess s who a wr n) := by
  unfold State.huskAccess
  repeat' first
    | with_reducible assumption | intro _ | with_reducible apply calm_ite | with_reducible apply memWrite_calm
    | with_reducible apply emit_calm | with_reducible apply calm_foldl | with_reducible apply calm_foldl_fst
    | with_reducible apply calm_ite_fst | extract_lets | split | (with_reducible refine calm_fst (by assumption) ?_) | dsimp only [id]

theorem invalidate_calm {r0 : State} (s : State) (l : Nat) (wb : Bool) (hk : Calm r0 s) : Calm r0 (State.invalidate s l wb) := by
  unfold State.invalidate
  repeat' first
    | with_reducible assumption | intro _ | with_reducible apply calm_ite | with_reducible apply bump_calm
    | with_reducible apply ddrWrite_calm | with_reducible apply memWrite_calm | with_reducible apply updGran_calm
    | with_reducible apply calm_foldl | with_reducible apply calm_foldl_fst | with_reducible apply calm_ite_fst | extract_lets | split
    | (with_reducible refine calm_fst (by assumption) ?_) | dsimp only [id]

theorem preload_calm {r0 : State} (s : State) (l : Nat) (hk : Calm r0 s) : Calm r0 (State.preload s l) := by
  unfold State.preload
  repeat' first
    | with_reducible assumption | intro _ | with_reducible apply calm_ite | with_reducible apply granRefresh_calm
    | with_reducible apply updGran_calm | with_reducible apply tick_calm | with_reducible apply allocate_calm
    | with_reducible apply calm_foldl | with_reducible apply calm_foldl_fst | with_reducible apply calm_ite_fst | extract_lets | split
    | (with_reducible refine calm_fst (by assumption) ?_) | dsimp only [id]

theorem lockLine_calm {r0 : State} (s : State) (i : Nat) (l : Nat) (hk : Calm r0 s) : Calm r0 (State.lockLine s i l) := by
  unfold State.lockLine
  repeat' first
    | with_reducible assumption | intro _ | with_reducible apply calm_ite | with_reducible apply updGran_calm
    | with_reducible apply bump_calm | with_reducible apply calm_foldl | with_reducible apply calm_foldl_fst
    | with_reducible apply calm_ite_fst | extract_lets | split | (with_reducible refine calm_fst (by assumption) ?_) | dsimp only [id]

theorem unlockLine_calm {r0 : State} (s : State) (l : Nat) (hk : Calm r0 s) : Calm r0 (State.unlockLine s l) := by
  unfold State.unlockLine
  repeat' first
    | with_reducible assumption | intro _ | with_reducible apply calm_ite | with_reducible apply updGran_calm
    | with_reducible apply calm_foldl | with_reducible apply calm_foldl_fst | with_reducible apply calm_ite_fst | extract_lets | split
    | (with_reducible refine calm_fst (by assumption) ?_) | dsimp only [id]

theorem rangeOp_calm {r0 : State} (s : State) (i : Nat) (op : Nat) (act : Nat → State → State) (hact : ∀ (x0 : Nat) (x1 : State), Calm
    r0 x1 → Calm r0 (act x0 x1)) (hk : Calm r0 s) : Calm r0 (State.rangeOp s i op act) := by
  unfold State.rangeOp
  repeat' first
    | with_reducible assumption | intro _ | apply hact | with_reducible apply calm_ite | with_reducible apply wrN_calm
    | with_reducible apply violate_calm | with_reducible apply trace_calm | with_reducible apply granRefresh_calm
    | with_reducible apply updGran_calm | with_reducible apply calm_foldl | with_reducible apply calm_foldl_fst
    | with_reducible apply calm_ite_fst | extract_lets | split | (with_reducible refine calm_fst (by assumption) ?_) | dsimp only [id]

theorem granEmpty_calm {r0 : State} (s : State) (hk : Calm r0 s) : Calm r0 (State.granEmpty s) := by
  unfold State.granEmpty
  repeat' first
    | with_reducible assumption | intro _ | with_reducible apply calm_ite | with_reducible apply invalidate_calm
    | with_reducible apply bump_calm | with_reducible apply ddrWrite_calm | with_reducible apply granRefresh_calm
    | with_reducible apply updGran_calm | with_reducible apply calm_foldl | with_reducible apply calm_foldl_fst
    | with_reducible apply calm_ite_fst | extract_lets | split | (with_reducible refine calm_fst (by assumption) ?_) | dsimp only [id]

theorem dimmRead_calm {r0 : State} (s : State) (c : Nat) (d : Nat) (t : Option Int) (hk : Calm r0 s) : Calm r0 (State.dimmRead s c d t)
    := by
  unfold State.dimmRead
  repeat' first
    | with_reducible assumption | intro _ | with_reducible apply calm_ite | with_reducible apply updGran_calm
    | with_reducible apply wrInt_calm | with_reducible apply wrBit_calm | with_reducible apply raise_calm
    | with_reducible apply calm_foldl | with_reducible apply calm_foldl_fst | with_reducible apply calm_ite_fst | extract_lets | split
    | (with_reducible refine calm_fst (by assumption) ?_) | dsimp only [id]

theorem instOff_calm {r0 : State} (s : State) (g : Nat) (hk : Calm r0 s) : Calm r0 (State.instOff s g) := by
  unfold State.instOff
  repeat' first
    | with_reducible assumption | intro _ | with_reducible apply calm_ite | with_reducible apply wrN_calm
    | with_reducible apply wr_calm | with_reducible apply updLoop_calm | with_reducible apply setMode_calm
    | with_reducible apply calm_foldl | with_reducible apply calm_foldl_fst | with_reducible apply calm_ite_fst | extract_lets | split
    | (with_reducible refine calm_fst (by assumption) ?_) | dsimp only [id]

theorem instsOff_calm {r0 : State} (s : State) (h : Nat) (hk : Calm r0 s) : Calm r0 (State.instsOff s h) := by
  unfold State.instsOff
  repeat' first
    | with_reducible assumption | intro _ | with_reducible apply calm_ite | with_reducible apply instOff_calm
    | with_reducible apply calm_foldl | with_reducible apply calm_foldl_fst | with_reducible apply calm_ite_fst | extract_lets | split
    | (with_reducible refine calm_fst (by assumption) ?_) | dsimp only [id]

theorem instOn_calm {r0 : State} (s : State) (g : Nat) (man : Word) (hk : Calm r0 s) : Calm r0 (State.instOn s g man) := by
  unfold State.instOn
  repeat' first
    | with_reducible assumption | intro _ | with_reducible apply calm_ite | with_reducible apply wr_calm
    | with_reducible apply instOff_calm | with_reducible apply loopEnable_calm | with_reducible apply updLoop_calm
    | with_reducible apply calm_foldl | with_reducible apply calm_foldl_fst | with_reducible apply calm_ite_fst | extract_lets | split
    | (with_reducible refine calm_fst (by assumption) ?_) | dsimp only [id]

theorem spinSense_calm {r0 : State} (s : State) (h : Nat) (hk : Calm r0 s) : Calm r0 (State.spinSense s h) := by
  unfold State.spinSense
  repeat' first
    | with_reducible assumption | intro _ | with_reducible apply calm_ite | with_reducible apply motorOff_calm
    | with_reducible apply instsOff_calm | with_reducible apply spinState_calm | with_reducible apply updSpin_calm
    | with_reducible apply calm_foldl | with_reducible apply calm_foldl_fst | with_reducible apply calm_ite_fst | extract_lets | split
    | (with_reducible refine calm_fst (by assumption) ?_) | dsimp only [id]

theorem spinStart_calm {r0 : State} (s : State) (h : Nat) (hk : Calm r0 s) : Calm r0 (State.spinStart s h) := by
  unfold State.spinStart
  repeat' first
    | with_reducible assumption | intro _ | with_reducible apply calm_ite | with_reducible apply updSpin_calm
    | with_reducible apply wr_calm | with_reducible apply spinSense_calm | with_reducible apply bump_calm
    | with_reducible apply calm_foldl | with_reducible apply calm_foldl_fst | with_reducible apply calm_ite_fst | extract_lets | split
    | (with_reducible refine calm_fst (by assumption) ?_) | dsimp only [id]

theorem spinFail_calm {r0 : State} (s : State) (h : Nat) (hk : Calm r0 s) : Calm r0 (State.spinFail s h) := by
  unfold State.spinFail
  repeat' first
    | with_reducible assumption | intro _ | with_reducible apply calm_ite | with_reducible apply updSpin_calm
    | with_reducible apply motorOff_calm | with_reducible apply instsOff_calm | with_reducible apply spinRelease_calm
    | with_reducible apply spinState_calm | with_reducible apply calm_foldl | with_reducible apply calm_foldl_fst
    | with_reducible apply calm_ite_fst | extract_lets | split | (with_reducible refine calm_fst (by assumption) ?_) | dsimp only [id]

theorem attemptLost_calm {r0 : State} (s : State) (h : Nat) (hk : Calm r0 s) : Calm r0 (State.attemptLost s h) := by
  unfold State.attemptLost
  repeat' first
    | with_reducible assumption | intro _ | with_reducible apply calm_ite | with_reducible apply updSpin_calm
    | with_reducible apply motorOff_calm | with_reducible apply instsOff_calm | with_reducible apply spinState_calm
    | with_reducible apply raise_calm | with_reducible apply spinFail_calm | with_reducible apply calm_foldl
    | with_reducible apply calm_foldl_fst | with_reducible apply calm_ite_fst | extract_lets | split
    | (with_reducible refine calm_fst (by assumption) ?_) | dsimp only [id]

theorem spinRun_calm {r0 : State} (s : State) (h : Nat) (we : Word) (hk : Calm r0 s) : Calm r0 (State.spinRun s h we) := by
  unfold State.spinRun
  repeat' first
    | with_reducible assumption | intro _ | with_reducible apply calm_ite | with_reducible apply instOn_calm
    | with_reducible apply wr_calm | with_reducible apply updSpin_calm | with_reducible apply spinState_calm
    | with_reducible apply calm_foldl | with_reducible apply calm_foldl_fst | with_reducible apply calm_ite_fst | extract_lets | split
    | (with_reducible refine calm_fst (by assumption) ?_) | dsimp only [id]

theorem spinAlign_calm {r0 : State} (s : State) (h : Nat) (hk : Calm r0 s) : Calm r0 (State.spinAlign s h) := by
  unfold State.spinAlign
  repeat' first
    | with_reducible assumption | intro _ | with_reducible apply calm_ite | with_reducible apply instOn_calm
    | with_reducible apply updSpin_calm | with_reducible apply spinState_calm | with_reducible apply wr_calm
    | with_reducible apply calm_foldl | with_reducible apply calm_foldl_fst | with_reducible apply calm_ite_fst | extract_lets | split
    | (with_reducible refine calm_fst (by assumption) ?_) | dsimp only [id]

theorem senseBemf_calm {r0 : State} (s : State) (h : Nat) (b : BemfObs) (hk : Calm r0 s) : Calm r0 (State.senseBemf s h b).1 := by
  unfold State.senseBemf
  repeat' first
    | with_reducible assumption | intro _ | with_reducible apply calm_ite | with_reducible apply updSpin_calm
    | with_reducible apply wr_calm | with_reducible apply calm_foldl | with_reducible apply calm_foldl_fst
    | with_reducible apply calm_ite_fst | extract_lets | split | (with_reducible refine calm_fst (by assumption) ?_) | dsimp only [id]

theorem spinSeed_calm {r0 : State} (s : State) (h : Nat) (b : BemfObs) (hk : Calm r0 s) : Calm r0 (State.spinSeed s h b) := by
  unfold State.spinSeed
  repeat' first
    | with_reducible assumption | intro _ | with_reducible apply calm_ite | with_reducible apply spinRun_calm
    | with_reducible apply wr_calm | with_reducible apply calm_foldl | with_reducible apply calm_foldl_fst
    | with_reducible apply calm_ite_fst | extract_lets | split | (with_reducible refine calm_fst (by assumption) ?_) | dsimp only [id]

theorem brakeOn_calm {r0 : State} (s : State) (h : Nat) (hk : Calm r0 s) : Calm r0 (State.brakeOn s h) := by
  unfold State.brakeOn
  repeat' first
    | with_reducible assumption | intro _ | with_reducible apply calm_ite | with_reducible apply motor_calm
    | with_reducible apply updSpin_calm | with_reducible apply calm_foldl | with_reducible apply calm_foldl_fst
    | with_reducible apply calm_ite_fst | extract_lets | split | (with_reducible refine calm_fst (by assumption) ?_) | dsimp only [id]

theorem obsLoss_calm {r0 : State} (s : State) (h : Nat) (hk : Calm r0 s) : Calm r0 (State.obsLoss s h) := by
  unfold State.obsLoss
  repeat' first
    | with_reducible assumption | intro _ | with_reducible apply calm_ite | with_reducible apply raise_calm
    | with_reducible apply gateClose_calm | with_reducible apply bump_calm | with_reducible apply motorOff_calm
    | with_reducible apply instsOff_calm | with_reducible apply spinState_calm | with_reducible apply updSpin_calm
    | with_reducible apply calm_foldl | with_reducible apply calm_foldl_fst | with_reducible apply calm_ite_fst | extract_lets | split
    | (with_reducible refine calm_fst (by assumption) ?_) | dsimp only [id]

theorem spinUnload_calm {r0 : State} (s : State) (h : Nat) (hk : Calm r0 s) : Calm r0 (State.spinUnload s h) := by
  unfold State.spinUnload
  repeat' first
    | with_reducible assumption | intro _ | with_reducible apply calm_ite | with_reducible apply updSpin_calm
    | with_reducible apply motorOff_calm | with_reducible apply instsOff_calm | with_reducible apply endWork_calm
    | with_reducible apply chaffAll_calm | with_reducible apply loopSafeAction_calm | with_reducible apply gateClose_calm
    | with_reducible apply updAct_calm | with_reducible apply spinState_calm | with_reducible apply calm_foldl
    | with_reducible apply calm_foldl_fst | with_reducible apply calm_ite_fst | extract_lets | split
    | (with_reducible refine calm_fst (by assumption) ?_) | dsimp only [id]

theorem spinStop_calm {r0 : State} (s : State) (h : Nat) (hk : Calm r0 s) : Calm r0 (State.spinStop s h) := by
  unfold State.spinStop
  repeat' first
    | with_reducible assumption | intro _ | with_reducible apply calm_ite | with_reducible apply motorOff_calm
    | with_reducible apply instsOff_calm | with_reducible apply updSpin_calm | with_reducible apply spinRelease_calm
    | with_reducible apply spinState_calm | with_reducible apply calm_foldl | with_reducible apply calm_foldl_fst
    | with_reducible apply calm_ite_fst | extract_lets | split | (with_reducible refine calm_fst (by assumption) ?_) | dsimp only [id]

theorem spinLimits_calm {r0 : State} (s : State) (h : Nat) (vd : Word) (vbus : Word) (hk : Calm r0 s) : Calm r0 (State.spinLimits s h vd
    vbus) := by
  unfold State.spinLimits
  repeat' first
    | with_reducible assumption | intro _ | with_reducible apply calm_ite | with_reducible apply wr_calm
    | with_reducible apply calm_foldl | with_reducible apply calm_foldl_fst | with_reducible apply calm_ite_fst | extract_lets | split
    | (with_reducible refine calm_fst (by assumption) ?_) | dsimp only [id]

theorem rampRef_calm {r0 : State} (s : State) (h : Nat) (hk : Calm r0 s) : Calm r0 (State.rampRef s h) := by
  unfold State.rampRef
  repeat' first
    | with_reducible assumption | intro _ | with_reducible apply calm_ite | with_reducible apply wr_calm
    | with_reducible apply calm_foldl | with_reducible apply calm_foldl_fst | with_reducible apply calm_ite_fst | extract_lets | split
    | (with_reducible refine calm_fst (by assumption) ?_) | dsimp only [id]

theorem openLoop_calm {r0 : State} (s : State) (h : Nat) (hk : Calm r0 s) : Calm r0 (State.openLoop s h) := by
  unfold State.openLoop
  repeat' first
    | with_reducible assumption | intro _ | with_reducible apply calm_ite | with_reducible apply updSpin_calm
    | with_reducible apply calm_foldl | with_reducible apply calm_foldl_fst | with_reducible apply calm_ite_fst | extract_lets | split
    | (with_reducible refine calm_fst (by assumption) ?_) | dsimp only [id]

theorem spinLock_calm {r0 : State} (s : State) (h : Nat) (hk : Calm r0 s) : Calm r0 (State.spinLock s h) := by
  unfold State.spinLock
  repeat' first
    | with_reducible assumption | intro _ | with_reducible apply calm_ite | with_reducible apply spinUnload_calm
    | with_reducible apply updSpin_calm | with_reducible apply spinRelease_calm | with_reducible apply spinState_calm
    | with_reducible apply calm_foldl | with_reducible apply calm_foldl_fst | with_reducible apply calm_ite_fst | extract_lets | split
    | (with_reducible refine calm_fst (by assumption) ?_) | dsimp only [id]

theorem residual_calm {r0 : State} (s : State) (h : Nat) (dId : Word) (dIq : Word) (hk : Calm r0 s) : Calm r0 (State.residual s h dId
    dIq) := by
  unfold State.residual
  repeat' first
    | with_reducible assumption | intro _ | with_reducible apply calm_ite | with_reducible apply updSpin_calm
    | with_reducible apply wrB_calm | with_reducible apply calm_foldl | with_reducible apply calm_foldl_fst
    | with_reducible apply calm_ite_fst | extract_lets | split | (with_reducible refine calm_fst (by assumption) ?_) | dsimp only [id]

theorem dropUnacked_calm {r0 : State} (s : State) (n : Nat) (hk : Calm r0 s) : Calm r0 (State.dropUnacked s n) := by
  unfold State.dropUnacked
  repeat' first
    | with_reducible assumption | intro _ | with_reducible apply calm_ite | with_reducible apply setZone_calm
    | with_reducible apply bufRefresh_calm | with_reducible apply calm_foldl | with_reducible apply calm_foldl_fst
    | with_reducible apply calm_ite_fst | extract_lets | split | (with_reducible refine calm_fst (by assumption) ?_)
    | simp only [calm_mk] | dsimp only [id]

theorem loseBuffered_calm {r0 : State} (s : State) (n : Nat) (cause : Nat) (hk : Calm r0 s) : Calm r0 (State.loseBuffered s n cause).1 := by
  unfold State.loseBuffered
  repeat' first
    | with_reducible assumption | intro _ | with_reducible apply calm_ite | with_reducible apply lostEvent_calm
    | with_reducible apply updAct_calm | with_reducible apply lostAdd_calm | with_reducible apply mqDrop_calm
    | with_reducible apply bufRefresh_calm | with_reducible apply calm_foldl | with_reducible apply calm_foldl_fst
    | with_reducible apply calm_ite_fst | extract_lets | split | (with_reducible refine calm_fst (by assumption) ?_)
    | simp only [calm_mk] | dsimp only [id]

theorem unloadSide_calm {r0 : State} (s : State) (n : Nat) (hk : Calm r0 s) : Calm r0 (State.unloadSide s n) := by
  unfold State.unloadSide
  repeat' first
    | with_reducible assumption | intro _ | with_reducible apply calm_ite | with_reducible apply loopDisable_calm
    | with_reducible apply updAct_calm | with_reducible apply calm_foldl | with_reducible apply calm_foldl_fst
    | with_reducible apply calm_ite_fst | extract_lets | split | (with_reducible refine calm_fst (by assumption) ?_) | dsimp only [id]

theorem disableAct_calm {r0 : State} (s : State) (n : Nat) (blk : Nat) (force : Bool) (hk : Calm r0 s) : Calm r0 (State.disableAct s n
    blk force) := by
  unfold State.disableAct
  repeat' first
    | with_reducible assumption | intro _ | with_reducible apply calm_ite | with_reducible apply dropUnacked_calm
    | with_reducible apply failActs_calm | with_reducible apply laneStop_calm | with_reducible apply gateClose_calm
    | with_reducible apply endWork_calm | with_reducible apply chaffAll_calm | with_reducible apply recDrop_calm
    | with_reducible apply complete_calm | with_reducible apply loseBuffered_calm | with_reducible apply bumpBy_calm
    | with_reducible apply disEnd_calm | with_reducible apply unloadSide_calm | with_reducible apply calm_foldl
    | with_reducible apply calm_foldl_fst | with_reducible apply calm_ite_fst | extract_lets | split
    | (with_reducible refine calm_fst (by assumption) ?_) | dsimp only [id]

theorem calStore_calm {r0 : State} (s : State) (n : Nat) (kind : Nat) (ok : Bool) (hk : Calm r0 s) : Calm r0 (State.calStore s n kind
    ok) := by
  unfold State.calStore
  repeat' first
    | with_reducible assumption | intro _ | with_reducible apply calm_ite | with_reducible apply updAct_calm
    | with_reducible apply emit_calm | with_reducible apply audit_calm | with_reducible apply calm_foldl
    | with_reducible apply calm_foldl_fst | with_reducible apply calm_ite_fst | extract_lets | split
    | (with_reducible refine calm_fst (by assumption) ?_) | dsimp only [id]

theorem storeOffsets_calm {r0 : State} (s : State) (n : Nat) (ok : Bool) (hk : Calm r0 s) : Calm r0 (State.storeOffsets s n ok) := by
  unfold State.storeOffsets
  repeat' first
    | with_reducible assumption | intro _ | with_reducible apply calm_ite | with_reducible apply updAct_calm
    | with_reducible apply calStore_calm | with_reducible apply calm_foldl | with_reducible apply calm_foldl_fst
    | with_reducible apply calm_ite_fst | extract_lets | split | (with_reducible refine calm_fst (by assumption) ?_) | dsimp only [id]

theorem calShow_calm {r0 : State} (s : State) (act : Nat) (hk : Calm r0 s) : Calm r0 (State.calShow s act) := by
  unfold State.calShow
  repeat' first
    | with_reducible assumption | intro _ | with_reducible apply calm_ite | with_reducible apply wrN_calm
    | with_reducible apply wrB_calm | with_reducible apply calm_foldl | with_reducible apply calm_foldl_fst
    | with_reducible apply calm_ite_fst | extract_lets | split | (with_reducible refine calm_fst (by assumption) ?_) | dsimp only [id]

theorem calCount_calm {r0 : State} (s : State) (act : Nat) (fa : RegField) (fc : RegField) (hk : Calm r0 s) : Calm r0 (State.calCount s
    act fa fc) := by
  unfold State.calCount
  repeat' first
    | with_reducible assumption | intro _ | with_reducible apply calm_ite | with_reducible apply bump_calm
    | with_reducible apply calm_foldl | with_reducible apply calm_foldl_fst | with_reducible apply calm_ite_fst | extract_lets | split
    | (with_reducible refine calm_fst (by assumption) ?_) | dsimp only [id]

theorem borrowEntries_calm {r0 : State} (s : State) (n : Nat) (band : Nat) (hk : Calm r0 s) : Calm r0 (State.borrowEntries s n band) := by
  unfold State.borrowEntries
  repeat' first
    | with_reducible assumption | intro _ | with_reducible apply calm_ite | with_reducible apply updAct_calm
    | with_reducible apply calm_foldl | with_reducible apply calm_foldl_fst | with_reducible apply calm_ite_fst | extract_lets | split
    | (with_reducible refine calm_fst (by assumption) ?_) | dsimp only [id]

theorem sensFail_calm {r0 : State} (s : State) (i : Nat) (hk : Calm r0 s) : Calm r0 (State.sensFail s i) := by
  unfold State.sensFail
  repeat' first
    | with_reducible assumption | intro _ | with_reducible apply calm_ite | with_reducible apply raise_calm
    | with_reducible apply wrAt_calm | with_reducible apply calm_foldl | with_reducible apply calm_foldl_fst
    | with_reducible apply calm_ite_fst | extract_lets | split | (with_reducible refine calm_fst (by assumption) ?_) | dsimp only [id]

theorem latchHda_calm {r0 : State} (s : State) (h : Nat) (hk : Calm r0 s) : Calm r0 (State.latchHda s h) := by
  unfold State.latchHda
  repeat' first
    | with_reducible assumption | intro _ | with_reducible apply calm_ite | with_reducible apply updPort_calm
    | with_reducible apply wrAt_calm | with_reducible apply wrInt_calm | with_reducible apply raise_calm
    | with_reducible apply calm_foldl | with_reducible apply calm_foldl_fst | with_reducible apply calm_ite_fst | extract_lets | split
    | (with_reducible refine calm_fst (by assumption) ?_) | dsimp only [id]

theorem latchRest_calm {r0 : State} (s : State) (rails : List Int) (hk : Calm r0 s) : Calm r0 (State.latchRest s rails) := by
  unfold State.latchRest
  repeat' first
    | with_reducible assumption | intro _ | with_reducible apply calm_ite | with_reducible apply wrAt_calm
    | with_reducible apply updSpin_calm | with_reducible apply calm_foldl | with_reducible apply calm_foldl_fst
    | with_reducible apply calm_ite_fst | extract_lets | split | (with_reducible refine calm_fst (by assumption) ?_) | dsimp only [id]

theorem threshEvents_calm {r0 : State} (s : State) (sensor : Nat) (old : Int) (new : Int) (hk : Calm r0 s) : Calm r0 (State.threshEvents
    s sensor old new) := by
  unfold State.threshEvents
  repeat' first
    | with_reducible assumption | intro _ | with_reducible apply calm_ite | with_reducible apply event_calm
    | with_reducible apply calm_foldl | with_reducible apply calm_foldl_fst | with_reducible apply calm_ite_fst | extract_lets | split
    | (with_reducible refine calm_fst (by assumption) ?_) | dsimp only [id]

theorem thermNew_calm {r0 : State} (s : State) (inst : Nat) (old : Nat) (new : Nat) (ftype : Nat) (fi : Nat) (hk : Calm r0 s) : Calm r0
    (State.thermNew s inst old new ftype fi) := by
  unfold State.thermNew
  repeat' first
    | with_reducible assumption | intro _ | with_reducible apply calm_ite | with_reducible apply audit_calm
    | with_reducible apply raise_calm | with_reducible apply calm_foldl | with_reducible apply calm_foldl_fst
    | with_reducible apply calm_ite_fst | extract_lets | split | (with_reducible refine calm_fst (by assumption) ?_) | dsimp only [id]

theorem thermJ_calm {r0 : State} (s : State) (hk : Calm r0 s) : Calm r0 (State.thermJ s) := by
  unfold State.thermJ
  repeat' first
    | with_reducible assumption | intro _ | with_reducible apply calm_ite | with_reducible apply thermNew_calm
    | with_reducible apply wrN_calm | with_reducible apply wr_calm | with_reducible apply calm_foldl
    | with_reducible apply calm_foldl_fst | with_reducible apply calm_ite_fst | extract_lets | split
    | (with_reducible refine calm_fst (by assumption) ?_) | dsimp only [id]

theorem thermH_calm {r0 : State} (s : State) (h : Nat) (hk : Calm r0 s) : Calm r0 (State.thermH s h) := by
  unfold State.thermH
  repeat' first
    | with_reducible assumption | intro _ | with_reducible apply calm_ite | with_reducible apply thermNew_calm
    | with_reducible apply wrAt_calm | with_reducible apply calm_foldl | with_reducible apply calm_foldl_fst
    | with_reducible apply calm_ite_fst | extract_lets | split | (with_reducible refine calm_fst (by assumption) ?_) | dsimp only [id]

theorem fracAct_calm {r0 : State} (s : State) (n : Nat) (hk : Calm r0 s) : Calm r0 (State.fracAct s n) := by
  unfold State.fracAct
  repeat' first
    | with_reducible assumption | intro _ | with_reducible apply calm_ite | with_reducible apply wrN_calm
    | with_reducible apply audit_calm | with_reducible apply breaksFor_calm | with_reducible apply wrInt_calm
    | with_reducible apply opCut_calm | with_reducible apply resumeGo_calm | with_reducible apply calm_foldl
    | with_reducible apply calm_foldl_fst | with_reducible apply calm_ite_fst | extract_lets | split
    | (with_reducible refine calm_fst (by assumption) ?_) | dsimp only [id]

theorem fetchWindow_calm {r0 : State} (s : State) (hk : Calm r0 s) : Calm r0 (State.fetchWindow s) := by
  unfold State.fetchWindow
  repeat' first
    | with_reducible assumption | intro _ | with_reducible apply calm_ite | with_reducible apply wrAt_calm
    | with_reducible apply updHost_calm | with_reducible apply wrN_calm | with_reducible apply calm_foldl
    | with_reducible apply calm_foldl_fst | with_reducible apply calm_ite_fst | extract_lets | split
    | (with_reducible refine calm_fst (by assumption) ?_) | dsimp only [id]

theorem selectBundle_calm {r0 : State} (s : State) (aErr : Bool) (bErr : Bool) (hk : Calm r0 s) : Calm r0 (State.selectBundle s aErr
    bErr) := by
  unfold State.selectBundle
  repeat' first
    | with_reducible assumption | intro _ | with_reducible apply calm_ite | with_reducible apply updHusk_calm
    | with_reducible apply wr_calm | with_reducible apply calm_foldl | with_reducible apply calm_foldl_fst
    | with_reducible apply calm_ite_fst | extract_lets | split | (with_reducible refine calm_fst (by assumption) ?_) | dsimp only [id]

theorem resumeTime_calm {r0 : State} (s : State) (hk : Calm r0 s) : Calm r0 (State.resumeTime s) := by
  unfold State.resumeTime
  repeat' first
    | with_reducible assumption | intro _ | with_reducible apply calm_ite | with_reducible apply wr_calm
    | with_reducible apply updAlm_calm | with_reducible apply calm_foldl | with_reducible apply calm_foldl_fst
    | with_reducible apply calm_ite_fst | extract_lets | split | (with_reducible refine calm_fst (by assumption) ?_) | dsimp only [id]

theorem rwlEntry_calm {r0 : State} (s : State) (addr : Nat) (value : Nat) (mask : Nat) (hk : Calm r0 s) : Calm r0 (State.rwlEntry s addr
    value mask) := by
  unfold State.rwlEntry
  repeat' first
    | with_reducible assumption | intro _ | with_reducible apply calm_ite | with_reducible apply wrAt_calm
    | with_reducible apply calm_foldl | with_reducible apply calm_foldl_fst | with_reducible apply calm_ite_fst | extract_lets | split
    | (with_reducible refine calm_fst (by assumption) ?_) | dsimp only [id]

theorem rwlFields_calm {r0 : State} (s : State) (hk : Calm r0 s) : Calm r0 (State.rwlFields s) := by
  unfold State.rwlFields
  repeat' first
    | with_reducible assumption | intro _ | with_reducible apply calm_ite | with_reducible apply rwlEntry_calm
    | with_reducible apply wrN_calm | with_reducible apply wrAt_calm | with_reducible apply calm_foldl
    | with_reducible apply calm_foldl_fst | with_reducible apply calm_ite_fst | extract_lets | split
    | (with_reducible refine calm_fst (by assumption) ?_) | dsimp only [id]

theorem culmCopy_calm {r0 : State} (s : State) (hk : Calm r0 s) : Calm r0 (State.culmCopy s) := by
  unfold State.culmCopy
  repeat' first
    | with_reducible assumption | intro _ | with_reducible apply calm_ite | with_reducible apply memWrite_calm
    | with_reducible apply calm_foldl | with_reducible apply calm_foldl_fst | with_reducible apply calm_ite_fst | extract_lets | split
    | (with_reducible refine calm_fst (by assumption) ?_) | dsimp only [id]

theorem fusedPort_calm {r0 : State} (s : State) (h : Nat) (hk : Calm r0 s) : Calm r0 (State.fusedPort s h) := by
  unfold State.fusedPort
  repeat' first
    | with_reducible assumption | intro _ | with_reducible apply calm_ite | with_reducible apply audit_calm
    | with_reducible apply raise_calm | with_reducible apply wrAt_calm | with_reducible apply calm_foldl
    | with_reducible apply calm_foldl_fst | with_reducible apply calm_ite_fst | extract_lets | split
    | (with_reducible refine calm_fst (by assumption) ?_) | dsimp only [id]

theorem linkClear_calm {r0 : State} (s : State) (hk : Calm r0 s) : Calm r0 (State.linkClear s) := by
  unfold State.linkClear
  repeat' first
    | with_reducible assumption | intro _ | with_reducible apply calm_ite | with_reducible apply wr_calm
    | with_reducible apply calm_foldl | with_reducible apply calm_foldl_fst | with_reducible apply calm_ite_fst | extract_lets | split
    | (with_reducible refine calm_fst (by assumption) ?_) | dsimp only [id]

theorem shutdownEnd_calm {r0 : State} (s : State) (hk : Calm r0 s) : Calm r0 (State.shutdownEnd s) := by
  unfold State.shutdownEnd
  repeat' first
    | with_reducible assumption | intro _ | with_reducible apply calm_ite | with_reducible apply updHost_calm
    | with_reducible apply norFlush_calm | with_reducible apply calm_foldl | with_reducible apply calm_foldl_fst
    | with_reducible apply calm_ite_fst | extract_lets | split | (with_reducible refine calm_fst (by assumption) ?_) | dsimp only [id]

theorem park_calm {r0 : State} (s : State) (n : Nat) (hk : Calm r0 s) : Calm r0 (State.park s n) := by
  unfold State.park
  repeat' first
    | with_reducible assumption | intro _ | with_reducible apply calm_ite | with_reducible apply laneStop_calm
    | with_reducible apply gateClose_calm | with_reducible apply endWork_calm | with_reducible apply chaffAll_calm
    | with_reducible apply updAct_calm | with_reducible apply unloadSide_calm | with_reducible apply calm_foldl
    | with_reducible apply calm_foldl_fst | with_reducible apply calm_ite_fst | extract_lets | split
    | (with_reducible refine calm_fst (by assumption) ?_) | dsimp only [id]

theorem spinDown_calm {r0 : State} (s : State) (h : Nat) (hk : Calm r0 s) : Calm r0 (State.spinDown s h) := by
  unfold State.spinDown
  repeat' first
    | with_reducible assumption | intro _ | with_reducible apply calm_ite | with_reducible apply rampReached_calm
    | with_reducible apply park_calm | with_reducible apply storeOffsets_calm | with_reducible apply spinState_calm
    | with_reducible apply spinStop_calm | with_reducible apply updAct_calm | with_reducible apply calm_foldl
    | with_reducible apply calm_foldl_fst | with_reducible apply calm_ite_fst | extract_lets | split
    | (with_reducible refine calm_fst (by assumption) ?_) | dsimp only [id]

theorem ps4Extra_calm {r0 : State} (s : State) (hk : Calm r0 s) : Calm r0 (State.ps4Extra s) := by
  unfold State.ps4Extra
  repeat' first
    | with_reducible assumption | intro _ | with_reducible apply calm_ite | with_reducible apply norFlush_calm
    | with_reducible apply granEmpty_calm | with_reducible apply linkOff_calm | with_reducible apply giveAll_calm
    | with_reducible apply withdrawReqs_calm | with_reducible apply calm_foldl | with_reducible apply calm_foldl_fst
    | with_reducible apply calm_ite_fst | extract_lets | split | (with_reducible refine calm_fst (by assumption) ?_)
    | simp only [calm_mk] | dsimp only [id] | dsimp +zetaDelta only

theorem readKeys_calm {r0 : State} (s : State) (n : Nat) (es : List (List Byte)) (hk : Calm r0 s) : Calm r0 (State.readKeys s n es) := by
  unfold State.readKeys
  repeat' first
    | with_reducible assumption | intro _ | with_reducible apply calm_ite | with_reducible apply updHusk_calm
    | with_reducible apply keyNew_calm | with_reducible apply keyDestroy_calm | with_reducible apply keysOf_calm
    | with_reducible apply calm_foldl | with_reducible apply calm_foldl_fst | with_reducible apply calm_ite_fst | extract_lets | split
    | (with_reducible refine calm_fst (by assumption) ?_) | dsimp only [id]

theorem readLedger_calm {r0 : State} (s : State) (n : Nat) (obs : LedgerObs) (hk : Calm r0 s) : Calm r0 (State.readLedger s n obs) := by
  unfold State.readLedger
  repeat' first
    | with_reducible assumption | intro _ | with_reducible apply calm_ite | with_reducible apply updLed_calm
    | with_reducible apply wr_calm | with_reducible apply wrN_calm | with_reducible apply wrB_calm | with_reducible apply updHost_calm
    | with_reducible apply setZone_calm | with_reducible apply stage_calm | with_reducible apply lostAdd_calm
    | with_reducible apply sanShow_calm | with_reducible apply zoneRefresh_calm | with_reducible apply updAct_calm
    | with_reducible apply readKeys_calm | with_reducible apply calm_foldl | with_reducible apply calm_foldl_fst
    | with_reducible apply calm_ite_fst | extract_lets | split | (with_reducible refine calm_fst (by assumption) ?_) | dsimp only [id]

theorem orrTake_calm {r0 : State} (s : State) (h : OrrHdr) (typ : Nat) (bytes : List Byte) (anyEpoch : Bool) (body : State → State)
    (follow : Bool) (hbody : ∀ (x0 : State), Calm r0 x0 → Calm r0 (body x0)) (hk : Calm r0 s) : Calm r0 (State.orrTake s h typ bytes
    anyEpoch body follow) := by
  unfold State.orrTake
  repeat' first
    | with_reducible assumption | intro _ | apply hbody | with_reducible apply calm_ite | with_reducible apply updOrr_calm
    | with_reducible apply calm_foldl | with_reducible apply calm_foldl_fst | with_reducible apply calm_ite_fst | extract_lets | split
    | (with_reducible refine calm_fst (by assumption) ?_) | dsimp only [id]

theorem ledgerOf_calm {r0 : State} (s : State) (h : OrrHdr) (hk : Calm r0 s) : Calm r0 (State.ledgerOf s h) := by
  unfold State.ledgerOf
  repeat' first
    | with_reducible assumption | intro _ | with_reducible apply calm_ite | with_reducible apply updOrr_calm
    | with_reducible apply calm_foldl | with_reducible apply calm_foldl_fst | with_reducible apply calm_ite_fst | extract_lets | split
    | (with_reducible refine calm_fst (by assumption) ?_) | dsimp only [id]

theorem regrant_calm {r0 : State} (s : State) (hk : Calm r0 s) : Calm r0 (State.regrant s) := by
  unfold State.regrant
  repeat' first
    | with_reducible assumption | intro _ | with_reducible apply calm_ite | with_reducible apply grant_calm
    | with_reducible apply orrRefresh_calm | with_reducible apply calm_foldl | with_reducible apply calm_foldl_fst
    | with_reducible apply calm_ite_fst | extract_lets | split | (with_reducible refine calm_fst (by assumption) ?_) | dsimp only [id]

theorem sendJoin_calm {r0 : State} (s : State) (hk : Calm r0 s) : Calm r0 (State.sendJoin s) := by
  unfold State.sendJoin
  repeat' first
    | with_reducible assumption | intro _ | with_reducible apply calm_ite | with_reducible apply updOrr_calm
    | with_reducible apply orrSend_calm | with_reducible apply calm_foldl | with_reducible apply calm_foldl_fst
    | with_reducible apply calm_ite_fst | extract_lets | split | (with_reducible refine calm_fst (by assumption) ?_) | dsimp only [id]

theorem sendHeartbeat_calm {r0 : State} (s : State) (hk : Calm r0 s) : Calm r0 (State.sendHeartbeat s) := by
  unfold State.sendHeartbeat
  repeat' first
    | with_reducible assumption | intro _ | with_reducible apply calm_ite | with_reducible apply orrSend_calm
    | with_reducible apply calm_foldl | with_reducible apply calm_foldl_fst | with_reducible apply calm_ite_fst | extract_lets | split
    | (with_reducible refine calm_fst (by assumption) ?_) | dsimp only [id]

theorem sendTokenState_calm {r0 : State} (s : State) (hk : Calm r0 s) : Calm r0 (State.sendTokenState s) := by
  unfold State.sendTokenState
  repeat' first
    | with_reducible assumption | intro _ | with_reducible apply calm_ite | with_reducible apply orrSend_calm
    | with_reducible apply calm_foldl | with_reducible apply calm_foldl_fst | with_reducible apply calm_ite_fst | extract_lets | split
    | (with_reducible refine calm_fst (by assumption) ?_) | dsimp only [id]

theorem dropXfer_calm {r0 : State} (s : State) (hk : Calm r0 s) : Calm r0 (State.dropXfer s) := by
  unfold State.dropXfer
  repeat' first
    | with_reducible assumption | intro _ | with_reducible apply calm_ite | with_reducible apply updOrr_calm
    | with_reducible apply calm_foldl | with_reducible apply calm_foldl_fst | with_reducible apply calm_ite_fst | extract_lets | split
    | (with_reducible refine calm_fst (by assumption) ?_) | dsimp only [id]

theorem becomeManager_calm {r0 : State} (s : State) (epoch : Nat) (hk : Calm r0 s) : Calm r0 (State.becomeManager s epoch) := by
  unfold State.becomeManager
  repeat' first
    | with_reducible assumption | intro _ | with_reducible apply calm_ite | with_reducible apply wrN_calm
    | with_reducible apply updOrr_calm | with_reducible apply sendHeartbeat_calm | with_reducible apply orrRefresh_calm
    | with_reducible apply enqueue_calm | with_reducible apply calm_foldl | with_reducible apply calm_foldl_fst
    | with_reducible apply calm_ite_fst | extract_lets | split | (with_reducible refine calm_fst (by assumption) ?_) | dsimp only [id]

theorem followManager_calm {r0 : State} (s : State) (mgr : Nat) (standby : Nat) (hk : Calm r0 s) : Calm r0 (State.followManager s mgr
    standby) := by
  unfold State.followManager
  repeat' first
    | with_reducible assumption | intro _ | with_reducible apply calm_ite | with_reducible apply wrN_calm
    | with_reducible apply updOrr_calm | with_reducible apply calm_foldl | with_reducible apply calm_foldl_fst
    | with_reducible apply calm_ite_fst | extract_lets | split | (with_reducible refine calm_fst (by assumption) ?_) | dsimp only [id]

theorem stepDown_calm {r0 : State} (s : State) (epoch : Nat) (mgr : Nat) (standby : Nat) (hk : Calm r0 s) : Calm r0 (State.stepDown s
    epoch mgr standby) := by
  unfold State.stepDown
  repeat' first
    | with_reducible assumption | intro _ | with_reducible apply calm_ite | with_reducible apply updOrr_calm
    | with_reducible apply wrN_calm | with_reducible apply sendTokenState_calm | with_reducible apply sendJoin_calm
    | with_reducible apply followManager_calm | with_reducible apply dropXfer_calm | with_reducible apply calm_foldl
    | with_reducible apply calm_foldl_fst | with_reducible apply calm_ite_fst | extract_lets | split
    | (with_reducible refine calm_fst (by assumption) ?_) | dsimp only [id]

theorem sendNeed_calm {r0 : State} (s : State) (x : Xfer) (hk : Calm r0 s) : Calm r0 (State.sendNeed s x) := by
  unfold State.sendNeed
  repeat' first
    | with_reducible assumption | intro _ | with_reducible apply calm_ite | with_reducible apply orrSend_calm
    | with_reducible apply calm_foldl | with_reducible apply calm_foldl_fst | with_reducible apply calm_ite_fst | extract_lets | split
    | (with_reducible refine calm_fst (by assumption) ?_) | dsimp only [id]

theorem imageDone_calm {r0 : State} (s : State) (x : Xfer) (norOk : Bool) (hk : Calm r0 s) : Calm r0 (State.imageDone s x norOk) := by
  unfold State.imageDone
  repeat' first
    | with_reducible assumption | intro _ | with_reducible apply calm_ite | with_reducible apply huskUpdate_calm
    | with_reducible apply sendNeed_calm | with_reducible apply orrSend_calm | with_reducible apply dropXfer_calm
    | with_reducible apply calm_foldl | with_reducible apply calm_foldl_fst | with_reducible apply calm_ite_fst | extract_lets | split
    | (with_reducible refine calm_fst (by assumption) ?_) | dsimp only [id]

theorem setPtpLock_calm {r0 : State} (s : State) (v : Bool) (hk : Calm r0 s) : Calm r0 (State.setPtpLock s v) := by
  unfold State.setPtpLock
  repeat' first
    | with_reducible assumption | intro _ | with_reducible apply calm_ite | with_reducible apply audit_calm
    | with_reducible apply wrB_calm | with_reducible apply calm_foldl | with_reducible apply calm_foldl_fst
    | with_reducible apply calm_ite_fst | extract_lets | split | (with_reducible refine calm_fst (by assumption) ?_) | dsimp only [id]

theorem logClear_calm {r0 : State} (s : State) (lid : Nat) (id : Nat) (hk : Calm r0 s) : Calm r0 (State.logClear s lid id) := by
  unfold State.logClear
  repeat' first
    | with_reducible assumption | intro _ | with_reducible apply calm_ite | with_reducible apply updHost_calm
    | with_reducible apply aerServe_calm | with_reducible apply calm_foldl | with_reducible apply calm_foldl_fst
    | with_reducible apply calm_ite_fst | extract_lets | split | (with_reducible refine calm_fst (by assumption) ?_) | dsimp only [id]

theorem lostKeep_calm {r0 : State} (s : State) (e : Sqe) (hk : Calm r0 s) : Calm r0 (State.lostKeep s e) := by
  unfold State.lostKeep
  repeat' first
    | with_reducible assumption | intro _ | with_reducible apply calm_ite | with_reducible apply updHost_calm
    | with_reducible apply calm_foldl | with_reducible apply calm_foldl_fst | with_reducible apply calm_ite_fst | extract_lets | split
    | (with_reducible refine calm_fst (by assumption) ?_) | dsimp only [id]

theorem adminAction_calm {r0 : State} (s : State) (slot : BitVec 16) (opc : Nat) (modulus : Nat) (v : Nat) (act : Cmd → State → State)
    (hact : ∀ (x0 : Cmd) (x1 : State), Calm r0 x1 → Calm r0 (act x0 x1)) (hk : Calm r0 s) : Calm r0 (State.adminAction s slot opc
    modulus v act) := by
  unfold State.adminAction
  repeat' first
    | with_reducible assumption | intro _ | apply hact | with_reducible apply calm_ite | with_reducible apply adminRow_calm
    | with_reducible apply calm_foldl | with_reducible apply calm_foldl_fst | with_reducible apply calm_ite_fst | extract_lets | split
    | (with_reducible refine calm_fst (by assumption) ?_) | dsimp only [id]

theorem nsNotice_calm {r0 : State} (s : State) (nsid : Nat) (what : Nat) (hk : Calm r0 s) : Calm r0 (State.nsNotice s nsid what) := by
  unfold State.nsNotice
  repeat' first
    | with_reducible assumption | intro _ | with_reducible apply calm_ite | with_reducible apply audit_calm
    | with_reducible apply event_calm | with_reducible apply updHost_calm | with_reducible apply calm_foldl
    | with_reducible apply calm_foldl_fst | with_reducible apply calm_ite_fst | extract_lets | split
    | (with_reducible refine calm_fst (by assumption) ?_) | dsimp only [id]

theorem setAttached_calm {r0 : State} (s : State) (nsid : Nat) (v : Bool) (hk : Calm r0 s) : Calm r0 (State.setAttached s nsid v) := by
  unfold State.setAttached
  repeat' first
    | with_reducible assumption | intro _ | with_reducible apply calm_ite | with_reducible apply updHost_calm
    | with_reducible apply calm_foldl | with_reducible apply calm_foldl_fst | with_reducible apply calm_ite_fst | extract_lets | split
    | (with_reducible refine calm_fst (by assumption) ?_) | dsimp only [id]

theorem nsClear_calm {r0 : State} (s : State) (n : Nat) (conv : Bool) (hk : Calm r0 s) : Calm r0 (State.nsClear s n conv) := by
  unfold State.nsClear
  repeat' first
    | with_reducible assumption | intro _ | with_reducible apply calm_ite | with_reducible apply mqDrop_calm
    | with_reducible apply updHost_calm | with_reducible apply recDrop_calm | with_reducible apply updLed_calm
    | with_reducible apply wrN_calm | with_reducible apply bufRefresh_calm | with_reducible apply stage_calm
    | with_reducible apply calm_foldl | with_reducible apply calm_foldl_fst | with_reducible apply calm_ite_fst | extract_lets | split
    | (with_reducible refine calm_fst (by assumption) ?_) | simp only [calm_mk] | dsimp only [id]

theorem attach_calm {r0 : State} (s : State) (slot : BitVec 16) (sel : Nat) (controllers : List (BitVec 16)) (hk : Calm r0 s) : Calm r0
    (State.attach s slot sel controllers) := by
  unfold State.attach
  repeat' first
    | with_reducible assumption | intro _ | with_reducible apply calm_ite | with_reducible apply adminAction_calm
    | with_reducible apply complete_calm | with_reducible apply nsNotice_calm | with_reducible apply setAttached_calm
    | with_reducible apply calm_foldl | with_reducible apply calm_foldl_fst | with_reducible apply calm_ite_fst | extract_lets | split
    | (with_reducible refine calm_fst (by assumption) ?_) | dsimp only [id]

theorem testEnd_calm {r0 : State} (s : State) (result : Nat) (segment : Nat) (nsid : Nat) (hk : Calm r0 s) : Calm r0 (State.testEnd s
    result segment nsid) := by
  unfold State.testEnd
  repeat' first
    | with_reducible assumption | intro _ | with_reducible apply calm_ite | with_reducible apply updHost_calm
    | with_reducible apply mqDrop_calm | with_reducible apply calm_foldl | with_reducible apply calm_foldl_fst
    | with_reducible apply calm_ite_fst | extract_lets | split | (with_reducible refine calm_fst (by assumption) ?_) | dsimp only [id]

theorem testReads_calm {r0 : State} (s : State) (n : Nat) (hk : Calm r0 s) : Calm r0 (State.testReads s n) := by
  unfold State.testReads
  repeat' first
    | with_reducible assumption | intro _ | with_reducible apply calm_ite | with_reducible apply mqWait_calm
    | with_reducible apply calm_foldl | with_reducible apply calm_foldl_fst | with_reducible apply calm_ite_fst | extract_lets | split
    | (with_reducible refine calm_fst (by assumption) ?_) | dsimp only [id]

theorem testStart_calm {r0 : State} (s : State) (slot : BitVec 16) (stc : Nat) (hk : Calm r0 s) : Calm r0 (State.testStart s slot stc) := by
  unfold State.testStart
  repeat' first
    | with_reducible assumption | intro _ | with_reducible apply calm_ite | with_reducible apply adminAction_calm
    | with_reducible apply complete_calm | with_reducible apply updHost_calm | with_reducible apply testReads_calm
    | with_reducible apply calm_foldl | with_reducible apply calm_foldl_fst | with_reducible apply calm_ite_fst | extract_lets | split
    | (with_reducible refine calm_fst (by assumption) ?_) | dsimp only [id]

theorem putProgress_calm {r0 : State} (s : State) (n : Nat) (p : Progress) (hk : Calm r0 s) : Calm r0 (State.putProgress s n p) := by
  unfold State.putProgress
  repeat' first
    | with_reducible assumption | intro _ | with_reducible apply calm_ite | with_reducible apply stage_calm
    | with_reducible apply updLed_calm | with_reducible apply sanShow_calm | with_reducible apply updHusk_calm
    | with_reducible apply calm_foldl | with_reducible apply calm_foldl_fst | with_reducible apply calm_ite_fst | extract_lets | split
    | (with_reducible refine calm_fst (by assumption) ?_) | dsimp only [id]

theorem startProgress_calm {r0 : State} (s : State) (n : Nat) (action : Nat) (nsid : Nat) (passes : Nat) (oipbp : Bool) (ses2 : Bool)
    (ovrpat : Word) (band : Bool) (hk : Calm r0 s) : Calm r0 (State.startProgress s n action nsid passes oipbp ses2 ovrpat band) := by
  unfold State.startProgress
  repeat' first
    | with_reducible assumption | intro _ | with_reducible apply calm_ite | with_reducible apply putProgress_calm
    | with_reducible apply calm_foldl | with_reducible apply calm_foldl_fst | with_reducible apply calm_ite_fst | extract_lets | split
    | (with_reducible refine calm_fst (by assumption) ?_) | dsimp only [id]

theorem endIo_calm {r0 : State} (s : State) (hit : Nat → Bool) (status : Nat) (hk : Calm r0 s) : Calm r0 (State.endIo s hit status) := by
  unfold State.endIo
  repeat' first
    | with_reducible assumption | intro _ | with_reducible apply calm_ite | with_reducible apply complete_calm
    | with_reducible apply abortWork_calm | with_reducible apply calm_foldl | with_reducible apply calm_foldl_fst
    | with_reducible apply calm_ite_fst | extract_lets | split | (with_reducible refine calm_fst (by assumption) ?_) | dsimp only [id]

theorem zonesOwe_calm {r0 : State} (s : State) (n : Nat) (hk : Calm r0 s) : Calm r0 (State.zonesOwe s n) := by
  unfold State.zonesOwe
  repeat' first
    | with_reducible assumption | intro _ | with_reducible apply calm_ite | with_reducible apply zoneRefresh_calm
    | with_reducible apply updLed_calm | with_reducible apply eraseNext_calm | with_reducible apply stage_calm
    | with_reducible apply updAct_calm | with_reducible apply calm_foldl | with_reducible apply calm_foldl_fst
    | with_reducible apply calm_ite_fst | extract_lets | split | (with_reducible refine calm_fst (by assumption) ?_) | dsimp only [id]

theorem rekey_calm {r0 : State} (s : State) (ids : List Nat) (hk : Calm r0 s) : Calm r0 (State.rekey s ids) := by
  unfold State.rekey
  repeat' first
    | with_reducible assumption | intro _ | with_reducible apply calm_ite | with_reducible apply keyDestroy_calm
    | with_reducible apply keyNew_calm | with_reducible apply stage_calm | with_reducible apply calm_foldl
    | with_reducible apply calm_foldl_fst | with_reducible apply calm_ite_fst | extract_lets | split
    | (with_reducible refine calm_fst (by assumption) ?_) | dsimp only [id]

theorem sanSide_calm {r0 : State} (s : State) (n : Nat) (hk : Calm r0 s) : Calm r0 (State.sanSide s n) := by
  unfold State.sanSide
  repeat' first
    | with_reducible assumption | intro _ | with_reducible apply calm_ite | with_reducible apply zonesOwe_calm
    | with_reducible apply nsClear_calm | with_reducible apply calm_foldl | with_reducible apply calm_foldl_fst
    | with_reducible apply calm_ite_fst | extract_lets | split | (with_reducible refine calm_fst (by assumption) ?_) | dsimp only [id]

theorem sanStart_calm {r0 : State} (s : State) (c : Cmd) (action : Nat) (passes : Nat) (hk : Calm r0 s) : Calm r0 (State.sanStart s c
    action passes) := by
  unfold State.sanStart
  repeat' first
    | with_reducible assumption | intro _ | with_reducible apply calm_ite | with_reducible apply complete_calm
    | with_reducible apply testEnd_calm | with_reducible apply endIo_calm | with_reducible apply mqDrop_calm
    | with_reducible apply updHost_calm | with_reducible apply bufRefresh_calm | with_reducible apply keyDestroy_calm
    | with_reducible apply keyNew_calm | with_reducible apply stage_calm | with_reducible apply startProgress_calm
    | with_reducible apply calm_foldl | with_reducible apply calm_foldl_fst | with_reducible apply calm_ite_fst | extract_lets | split
    | (with_reducible refine calm_fst (by assumption) ?_) | simp only [calm_mk] | dsimp only [id]

theorem sanEnd_calm {r0 : State} (s : State) (hk : Calm r0 s) : Calm r0 (State.sanEnd s) := by
  unfold State.sanEnd
  repeat' first
    | with_reducible assumption | intro _ | with_reducible apply calm_ite | with_reducible apply updHost_calm
    | with_reducible apply calm_foldl | with_reducible apply calm_foldl_fst | with_reducible apply calm_ite_fst | extract_lets | split
    | (with_reducible refine calm_fst (by assumption) ?_) | dsimp only [id]

theorem formatNs_calm {r0 : State} (s : State) (ses2 : Bool) (nsid : Nat) (hk : Calm r0 s) : Calm r0 (State.formatNs s ses2 nsid) := by
  unfold State.formatNs
  repeat' first
    | with_reducible assumption | intro _ | with_reducible apply calm_ite | with_reducible apply endIo_calm
    | with_reducible apply rekey_calm | with_reducible apply nsClear_calm | with_reducible apply updAct_calm
    | with_reducible apply zonesOwe_calm | with_reducible apply calm_foldl | with_reducible apply calm_foldl_fst
    | with_reducible apply calm_ite_fst | extract_lets | split | (with_reducible refine calm_fst (by assumption) ?_) | dsimp only [id]

end Sys2Proof.Laws
end

