-- ==== Sys2Proof/Laws/Keeps.lean ====
section
/-!
SUPPORT. Laws/Keeps.lean: every shared operation on State keeps what Safety.lean's `Keeps` names: the queue, OTP one way only,
and the canonical form of main memory and of the register file. One lemma per operation, in the order the operations are
defined; a lemma about an operation that takes a change as its argument asks the same of that change.
-/

set_option linter.unusedTactic false
set_option linter.unreachableTactic false
set_option linter.unusedSimpArgs false
set_option linter.unusedVariables false

namespace Sys2Proof.Laws

open Sys2Proof.Machine

theorem otpLe_refl (a : Husk) : OtpLe a a := ⟨rfl, rfl, rfl, rfl, rfl, Nat.le_refl _, rfl, fun _ k h h' => ⟨k, h, h'⟩⟩
theorem otpLe_of_same (a b : Husk) (h1 : b.variantH = a.variantH) (h0 : b.rootSecret = a.rootSecret) (h2 : b.serial = a.serial)
    (h3 : b.tTrim = a.tTrim) (h4 : b.sensTrim = a.sensTrim) (h5 : b.floor = a.floor) (h6 : b.slots = a.slots) : OtpLe a b :=
  ⟨h1, h0, h2, h3, h4, h5 ▸ Nat.le_refl _, by rw [h6], fun _ k h h' => ⟨k, h6 ▸ h, h'⟩⟩
theorem otpLe_trans {a b c : Husk} (h : OtpLe a b) (h' : OtpLe b c) : OtpLe a c := by
  obtain ⟨a1, a2, a3, a4, a5, a6, a7, a8⟩ := h
  obtain ⟨b1, b2, b3, b4, b5, b6, b7, b8⟩ := h'
  exact ⟨b1.trans a1, b2.trans a2, b3.trans a3, b4.trans a4, b5.trans a5, Nat.le_trans a6 b6, b7.trans a7,
    fun i k hk hr => let ⟨k', h1, h2⟩ := a8 i k hk hr; b8 i k' h1 h2⟩
theorem keeps_refl (s : State) : Keeps s s := ⟨rfl, otpLe_refl _, id, id, Nat.le_refl _, List.prefix_refl _, Nat.le_refl _⟩
set_option maxRecDepth 100000 in
theorem resetFile_rising : Sparse.rising 0 Regs.resetFile = true := by decide
theorem keeps_ite {r0 : State} {c : Prop} [Decidable c] {a b : State} (ha : Keeps r0 a) (hb : Keeps r0 b) : Keeps r0 (if c then a else b) := by
  split <;> assumption
theorem keeps_ite_fst {r0 : State} {α : Type} {c : Prop} [Decidable c] {a b : State × α} (ha : Keeps r0 a.1) (hb : Keeps r0 b.1) :
    Keeps r0 (if c then a else b).1 := by
  split <;> assumption
theorem keeps_fst {r0 t : State} {α : Type} {p : State × α} {x : α} (h : p = (t, x)) (hk : Keeps r0 p.1) : Keeps r0 t := by
  subst h; exact hk
theorem keeps_foldl {r0 : State} {α : Type} (l : List α) (f : State → α → State) (s : State) (hk : Keeps r0 s)
    (h : ∀ s a, Keeps r0 s → Keeps r0 (f s a)) : Keeps r0 (l.foldl f s) := by
  induction l generalizing s with
  | nil => exact hk
  | cons x l ih => exact ih _ (h _ _ hk)
theorem keeps_foldl_fst {r0 : State} {α β : Type} (l : List α) (f : State × β → α → State × β) (p : State × β) (hk : Keeps r0 p.1)
    (h : ∀ p a, Keeps r0 p.1 → Keeps r0 (f p a).1) : Keeps r0 (l.foldl f p).1 := by
  induction l generalizing p with
  | nil => exact hk
  | cons x l ih => exact ih _ (h _ _ hk)
theorem keeps_mk {r0 : State} (t : State) (f_phase : Phase) (f_staged : List (Nat × Word)) (f_cfg : Option Structure) (f_gran : GranSt)
                (f_engMem : List (Nat × Byte)) (f_mbox : Vector Mbox 128) (f_locks : Vector Lock 256) (f_wins : List (Nat × Win))
                (f_viol : List (Nat × Viol)) (f_ports : Vector PortSt 32) (f_acts : Vector ActSt 64) (f_loops : Vector LoopSt 256)
                (f_flt : FaultSt) (f_held : List Grain) (f_cache : List CacheGrain) (f_lanes : Vector LaneSt 64) (f_pool : PoolSt)
                (f_host : HostSt) (f_buf : List BufGrain) (f_spin : List SpinGroup) (f_spinWait : List Nat) (f_spinLast : Option Nat)
                (f_spinCount : Nat) (f_orr : OrrSt) (f_spn : Vector SpinSt 32) (f_thm : ThermSt) (f_pins : PinSt) (f_pwr : PwrSt)
                (f_safeN : BitVec 32) (f_gated : BitVec 18) :
    Keeps r0 { pending := t.pending, out := t.out, fresh := t.fresh, phase := f_phase, regs := t.regs, staged := f_staged, cfg := f_cfg,
                mem := t.mem, gran := f_gran, engMem := f_engMem, mbox := f_mbox, locks := f_locks, wins := f_wins, viol := f_viol,
                husk := t.husk, ports := f_ports, acts := f_acts, loops := f_loops, flt := f_flt, held := f_held, cache := f_cache,
                lanes := f_lanes, pool := f_pool, host := f_host, buf := f_buf, spin := f_spin, spinWait := f_spinWait,
                spinLast := f_spinLast, spinCount := f_spinCount, alm := t.alm, orr := f_orr, spn := f_spn, thm := f_thm,
                pins := f_pins, pwr := f_pwr, safeN := f_safeN, gated := f_gated } ↔ Keeps r0 t :=
  ⟨fun hk => ⟨hk.1, hk.2, hk.3, hk.4, hk.5, hk.6, hk.7⟩, fun hk => ⟨hk.1, hk.2, hk.3, hk.4, hk.5, hk.6, hk.7⟩⟩

theorem wrAt_keeps {r0 : State} (s : State) (f : RegField) (i : Nat) (j : Nat) (v : Word) (hk : Keeps r0 s) : Keeps r0 (State.wrAt s f i
    j v) := by
  exact ⟨hk.1, hk.2, hk.3, fun h => rising_write _ _ _ _ _ (Nat.zero_le _) (hk.4 h), hk.5, hk.6, hk.7⟩

theorem wr_keeps {r0 : State} (s : State) (f : RegField) (i : Nat) (v : Word) (hk : Keeps r0 s) : Keeps r0 (State.wr s f i v) := by
  unfold State.wr
  repeat' first
    | with_reducible assumption | intro _ | with_reducible apply keeps_ite | with_reducible apply wrAt_keeps
    | with_reducible apply keeps_foldl | with_reducible apply keeps_foldl_fst | with_reducible apply keeps_ite_fst | extract_lets
    | split | (with_reducible refine keeps_fst (by assumption) ?_) | dsimp only [id]

theorem wrN_keeps {r0 : State} (s : State) (f : RegField) (i : Nat) (v : Nat) (hk : Keeps r0 s) : Keeps r0 (State.wrN s f i v) := by
  unfold State.wrN
  repeat' first
    | with_reducible assumption | intro _ | with_reducible apply keeps_ite | with_reducible apply wr_keeps
    | with_reducible apply keeps_foldl | with_reducible apply keeps_foldl_fst | with_reducible apply keeps_ite_fst | extract_lets
    | split | (with_reducible refine keeps_fst (by assumption) ?_) | dsimp only [id]

theorem wrB_keeps {r0 : State} (s : State) (f : RegField) (i : Nat) (v : Bool) (hk : Keeps r0 s) : Keeps r0 (State.wrB s f i v) := by
  unfold State.wrB
  repeat' first
    | with_reducible assumption | intro _ | with_reducible apply keeps_ite | with_reducible apply wr_keeps
    | with_reducible apply keeps_foldl | with_reducible apply keeps_foldl_fst | with_reducible apply keeps_ite_fst | extract_lets
    | split | (with_reducible refine keeps_fst (by assumption) ?_) | dsimp only [id]

theorem wrInt_keeps {r0 : State} (s : State) (f : RegField) (i : Nat) (j : Nat) (v : Int) (hk : Keeps r0 s) : Keeps r0 (State.wrInt s f
    i j v) := by
  unfold State.wrInt
  repeat' first
    | with_reducible assumption | intro _ | with_reducible apply keeps_ite | with_reducible apply wrAt_keeps
    | with_reducible apply keeps_foldl | with_reducible apply keeps_foldl_fst | with_reducible apply keeps_ite_fst | extract_lets
    | split | (with_reducible refine keeps_fst (by assumption) ?_) | dsimp only [id]

theorem bumpBy_keeps {r0 : State} (s : State) (f : RegField) (i : Nat) (j : Nat) (n : Nat) (hk : Keeps r0 s) : Keeps r0 (State.bumpBy s
    f i j n) := by
  unfold State.bumpBy
  repeat' first
    | with_reducible assumption | intro _ | with_reducible apply keeps_ite | with_reducible apply wrAt_keeps
    | with_reducible apply keeps_foldl | with_reducible apply keeps_foldl_fst | with_reducible apply keeps_ite_fst | extract_lets
    | split | (with_reducible refine keeps_fst (by assumption) ?_) | dsimp only [id]

theorem bump_keeps {r0 : State} (s : State) (f : RegField) (i : Nat) (hk : Keeps r0 s) : Keeps r0 (State.bump s f i) := by
  unfold State.bump
  repeat' first
    | with_reducible assumption | intro _ | with_reducible apply keeps_ite | with_reducible apply bumpBy_keeps
    | with_reducible apply keeps_foldl | with_reducible apply keeps_foldl_fst | with_reducible apply keeps_ite_fst | extract_lets
    | split | (with_reducible refine keeps_fst (by assumption) ?_) | dsimp only [id]

theorem bumpWrap_keeps {r0 : State} (s : State) (f : RegField) (i : Nat) (j : Nat) (hk : Keeps r0 s) : Keeps r0 (State.bumpWrap s f i j)
    := by
  unfold State.bumpWrap
  repeat' first
    | with_reducible assumption | intro _ | with_reducible apply keeps_ite | with_reducible apply wrAt_keeps
    | with_reducible apply keeps_foldl | with_reducible apply keeps_foldl_fst | with_reducible apply keeps_ite_fst | extract_lets
    | split | (with_reducible refine keeps_fst (by assumption) ?_) | dsimp only [id]

theorem wr64_keeps {r0 : State} (s : State) (lo : RegField) (hi : RegField) (i : Nat) (j : Nat) (v : Nat) (hk : Keeps r0 s) : Keeps r0
    (State.wr64 s lo hi i j v) := by
  unfold State.wr64
  repeat' first
    | with_reducible assumption | intro _ | with_reducible apply keeps_ite | with_reducible apply wrAt_keeps
    | with_reducible apply keeps_foldl | with_reducible apply keeps_foldl_fst | with_reducible apply keeps_ite_fst | extract_lets
    | split | (with_reducible refine keeps_fst (by assumption) ?_) | dsimp only [id]

theorem wrBit_keeps {r0 : State} (s : State) (f : RegField) (i : Nat) (k : Nat) (v : Bool) (hk : Keeps r0 s) : Keeps r0 (State.wrBit s f
    i k v) := by
  unfold State.wrBit
  repeat' first
    | with_reducible assumption | intro _ | with_reducible apply keeps_ite | with_reducible apply wr_keeps
    | with_reducible apply keeps_foldl | with_reducible apply keeps_foldl_fst | with_reducible apply keeps_ite_fst | extract_lets
    | split | (with_reducible refine keeps_fst (by assumption) ?_) | dsimp only [id]

theorem updPort_keeps {r0 : State} (s : State) (h : Nat) (f : PortSt → PortSt) (hk : Keeps r0 s) : Keeps r0 (State.updPort s h f) := by
  unfold State.updPort
  repeat' first
    | with_reducible assumption | intro _ | with_reducible apply keeps_ite | with_reducible apply keeps_foldl
    | with_reducible apply keeps_foldl_fst | with_reducible apply keeps_ite_fst | extract_lets | split
    | (with_reducible refine keeps_fst (by assumption) ?_) | simp only [keeps_mk] | dsimp only [id]

theorem updAct_keeps {r0 : State} (s : State) (n : Nat) (f : ActSt → ActSt) (hk : Keeps r0 s) : Keeps r0 (State.updAct s n f) := by
  unfold State.updAct
  repeat' first
    | with_reducible assumption | intro _ | with_reducible apply keeps_ite | with_reducible apply keeps_foldl
    | with_reducible apply keeps_foldl_fst | with_reducible apply keeps_ite_fst | extract_lets | split
    | (with_reducible refine keeps_fst (by assumption) ?_) | simp only [keeps_mk] | dsimp only [id]

theorem updLoop_keeps {r0 : State} (s : State) (g : Nat) (f : LoopSt → LoopSt) (hk : Keeps r0 s) : Keeps r0 (State.updLoop s g f) := by
  unfold State.updLoop
  repeat' first
    | with_reducible assumption | intro _ | with_reducible apply keeps_ite | with_reducible apply keeps_foldl
    | with_reducible apply keeps_foldl_fst | with_reducible apply keeps_ite_fst | extract_lets | split
    | (with_reducible refine keeps_fst (by assumption) ?_) | simp only [keeps_mk] | dsimp only [id]

theorem updSpin_keeps {r0 : State} (s : State) (h : Nat) (f : SpinSt → SpinSt) (hk : Keeps r0 s) : Keeps r0 (State.updSpin s h f) := by
  unfold State.updSpin
  repeat' first
    | with_reducible assumption | intro _ | with_reducible apply keeps_ite | with_reducible apply keeps_foldl
    | with_reducible apply keeps_foldl_fst | with_reducible apply keeps_ite_fst | extract_lets | split
    | (with_reducible refine keeps_fst (by assumption) ?_) | simp only [keeps_mk] | dsimp only [id]

theorem updMbox_keeps {r0 : State} (s : State) (ch : Nat) (d : Nat) (f : Mbox → Mbox) (hk : Keeps r0 s) : Keeps r0 (State.updMbox s ch d
    f) := by
  unfold State.updMbox
  repeat' first
    | with_reducible assumption | intro _ | with_reducible apply keeps_ite | with_reducible apply keeps_foldl
    | with_reducible apply keeps_foldl_fst | with_reducible apply keeps_ite_fst | extract_lets | split
    | (with_reducible refine keeps_fst (by assumption) ?_) | simp only [keeps_mk] | dsimp only [id]

theorem updLane_keeps {r0 : State} (s : State) (l : Nat) (f : LaneSt → LaneSt) (hk : Keeps r0 s) : Keeps r0 (State.updLane s l f) := by
  unfold State.updLane
  repeat' first
    | with_reducible assumption | intro _ | with_reducible apply keeps_ite | with_reducible apply keeps_foldl
    | with_reducible apply keeps_foldl_fst | with_reducible apply keeps_ite_fst | extract_lets | split
    | (with_reducible refine keeps_fst (by assumption) ?_) | simp only [keeps_mk] | dsimp only [id]

theorem updHusk_keeps {r0 : State} (s : State) (f : Husk → Husk) (hf : OtpLe s.husk (f s.husk)) (hk : Keeps r0 s) :
    Keeps r0 (State.updHusk s f) := by
  exact ⟨hk.1, otpLe_trans hk.2 hf, hk.3, hk.4, hk.5, hk.6, hk.7⟩

theorem updFlt_keeps {r0 : State} (s : State) (f : FaultSt → FaultSt) (hk : Keeps r0 s) : Keeps r0 (State.updFlt s f) := by
  unfold State.updFlt
  repeat' first
    | with_reducible assumption | intro _ | with_reducible apply keeps_ite | with_reducible apply keeps_foldl
    | with_reducible apply keeps_foldl_fst | with_reducible apply keeps_ite_fst | extract_lets | split
    | (with_reducible refine keeps_fst (by assumption) ?_) | simp only [keeps_mk] | dsimp only [id]

theorem updThm_keeps {r0 : State} (s : State) (f : ThermSt → ThermSt) (hk : Keeps r0 s) : Keeps r0 (State.updThm s f) := by
  unfold State.updThm
  repeat' first
    | with_reducible assumption | intro _ | with_reducible apply keeps_ite | with_reducible apply keeps_foldl
    | with_reducible apply keeps_foldl_fst | with_reducible apply keeps_ite_fst | extract_lets | split
    | (with_reducible refine keeps_fst (by assumption) ?_) | simp only [keeps_mk] | dsimp only [id]

theorem updAlm_keeps {r0 : State} (s : State) (f : AlmSt → AlmSt) (ha : s.alm.auditLast ≤ (f s.alm).auditLast) (hk : Keeps r0 s) :
    Keeps r0 (State.updAlm s f) := by
  exact ⟨hk.1, hk.2, hk.3, hk.4, Nat.le_trans hk.5 ha, hk.6, hk.7⟩
theorem updAlm_keeps_all {r0 : State} (s : State) (f : AlmSt → AlmSt) (ha : ∀ a : AlmSt, a.auditLast ≤ (f a).auditLast)
    (hk : Keeps r0 s) : Keeps r0 (State.updAlm s f) := updAlm_keeps s f (ha _) hk

theorem emit_keeps {r0 : State} (s : State) (o : Output) (hk : Keeps r0 s) : Keeps r0 (State.emit s o) := by
  exact ⟨hk.1, hk.2, hk.3, hk.4, hk.5, hk.6.trans (List.prefix_append _ _), hk.7⟩

theorem tick_keeps {r0 : State} (s : State) (hk : Keeps r0 s) : Keeps r0 (State.tick s) := by
  exact ⟨hk.1, hk.2, hk.3, hk.4, hk.5, hk.6, Nat.le_succ_of_le hk.7⟩

theorem memWrite_keeps {r0 : State} (s : State) (a : Nat) (b : List Byte) (hk : Keeps r0 s) : Keeps r0 (State.memWrite s a b) := by
  exact ⟨hk.1, hk.2, fun h => memory_writeBytes_wf _ _ _ (hk.3 h), hk.4, hk.5, hk.6, hk.7⟩

theorem violate_keeps {r0 : State} (s : State) (id : Nat) (addr : Nat) (wr : Bool) (dom : Bool) (hk : Keeps r0 s) : Keeps r0
    (State.violate s id addr wr dom) := by
  unfold State.violate
  repeat' first
    | with_reducible assumption | intro _ | with_reducible apply keeps_ite | with_reducible apply keeps_foldl
    | with_reducible apply keeps_foldl_fst | with_reducible apply keeps_ite_fst | extract_lets | split
    | (with_reducible refine keeps_fst (by assumption) ?_) | simp only [keeps_mk] | dsimp only [id]

theorem wake_keeps {r0 : State} (s : State) (i : Nat) (hk : Keeps r0 s) : Keeps r0 (State.wake s i) := by
  unfold State.wake
  repeat' first
    | with_reducible assumption | intro _ | with_reducible apply keeps_ite | with_reducible apply keeps_foldl
    | with_reducible apply keeps_foldl_fst | with_reducible apply keeps_ite_fst | extract_lets | split
    | (with_reducible refine keeps_fst (by assumption) ?_) | simp only [keeps_mk] | dsimp only [id]

theorem clearPoison_keeps {r0 : State} (s : State) (a : Nat) (n : Nat) (hk : Keeps r0 s) : Keeps r0 (State.clearPoison s a n) := by
  unfold State.clearPoison
  repeat' first
    | with_reducible assumption | intro _ | with_reducible apply keeps_ite | with_reducible apply keeps_foldl
    | with_reducible apply keeps_foldl_fst | with_reducible apply keeps_ite_fst | extract_lets | split
    | (with_reducible refine keeps_fst (by assumption) ?_) | simp only [keeps_mk] | dsimp only [id]

theorem dmaWrite_keeps {r0 : State} (s : State) (who : Nat) (sec : Bool) (a : Nat) (b : List Byte) (hk : Keeps r0 s) : Keeps r0
    (State.dmaWrite s who sec a b) := by
  unfold State.dmaWrite
  repeat' first
    | with_reducible assumption | intro _ | with_reducible apply keeps_ite | with_reducible apply violate_keeps
    | with_reducible apply memWrite_keeps | with_reducible apply clearPoison_keeps | with_reducible apply wake_keeps
    | with_reducible apply keeps_foldl | with_reducible apply keeps_foldl_fst | with_reducible apply keeps_ite_fst | extract_lets
    | split | (with_reducible refine keeps_fst (by assumption) ?_) | dsimp only [id]

theorem dmaReadViol_keeps {r0 : State} (s : State) (who : Nat) (sec : Bool) (a : Nat) (n : Nat) (hk : Keeps r0 s) : Keeps r0
    (State.dmaReadViol s who sec a n) := by
  unfold State.dmaReadViol
  repeat' first
    | with_reducible assumption | intro _ | with_reducible apply keeps_ite | with_reducible apply violate_keeps
    | with_reducible apply keeps_foldl | with_reducible apply keeps_foldl_fst | with_reducible apply keeps_ite_fst | extract_lets
    | split | (with_reducible refine keeps_fst (by assumption) ?_) | dsimp only [id]

theorem auditDrop_keeps {r0 : State} (s : State) (hk : Keeps r0 s) : Keeps r0 (State.auditDrop s) := by
  unfold State.auditDrop
  repeat' first
    | with_reducible assumption | (with_reducible refine updAlm_keeps_all _ _ (fun _ => Nat.le_refl _) ?_)
    | with_reducible exact Nat.le_refl _ | with_reducible exact Nat.le_succ _ | intro _ | with_reducible apply keeps_ite
    | with_reducible apply bumpBy_keeps | with_reducible apply bump_keeps | with_reducible apply updAlm_keeps
    | with_reducible apply keeps_foldl | with_reducible apply keeps_foldl_fst | with_reducible apply keeps_ite_fst | extract_lets
    | split | (with_reducible refine keeps_fst (by assumption) ?_) | dsimp only [id]

theorem auditTrim_keeps {r0 : State} (s : State) (cap : Nat) (fuel : Nat) (hk : Keeps r0 s) : Keeps r0 (State.auditTrim s cap fuel) := by
  induction fuel generalizing s with
  | zero =>
    unfold State.auditTrim
    repeat' first
      | with_reducible assumption | intro _ | with_reducible apply keeps_ite | with_reducible apply auditDrop_keeps
      | with_reducible apply keeps_foldl | with_reducible apply keeps_foldl_fst | with_reducible apply keeps_ite_fst | extract_lets
      | split | (with_reducible refine keeps_fst (by assumption) ?_) | dsimp only [id]
  | succ n ih =>
    unfold State.auditTrim
    repeat' first
      | with_reducible assumption | intro _ | with_reducible apply keeps_ite | with_reducible apply auditDrop_keeps
      | with_reducible apply ih | with_reducible apply keeps_foldl | with_reducible apply keeps_foldl_fst
      | with_reducible apply keeps_ite_fst | extract_lets | split | (with_reducible refine keeps_fst (by assumption) ?_)
      | dsimp only [id]

theorem auditFit_keeps {r0 : State} (s : State) (hk : Keeps r0 s) : Keeps r0 (State.auditFit s) := by
  unfold State.auditFit
  repeat' first
    | with_reducible assumption | intro _ | with_reducible apply keeps_ite | with_reducible apply auditTrim_keeps
    | with_reducible apply keeps_foldl | with_reducible apply keeps_foldl_fst | with_reducible apply keeps_ite_fst | extract_lets
    | split | (with_reducible refine keeps_fst (by assumption) ?_) | dsimp only [id]

theorem audit_keeps {r0 : State} (s : State) (cat : Nat) (ev : Ev) (inst : Nat) (args : List Nat) (firmware : Bool) (hk : Keeps r0 s) :
    Keeps r0 (State.audit s cat ev inst args firmware) := by
  unfold State.audit
  repeat' first
    | with_reducible assumption | (with_reducible refine updAlm_keeps_all _ _ (fun _ => Nat.le_refl _) ?_)
    | with_reducible exact Nat.le_refl _ | with_reducible exact Nat.le_succ _ | intro _ | with_reducible apply keeps_ite
    | with_reducible apply auditFit_keeps | with_reducible apply updAlm_keeps | with_reducible apply keeps_foldl
    | with_reducible apply keeps_foldl_fst | with_reducible apply keeps_ite_fst | extract_lets | split
    | (with_reducible refine keeps_fst (by assumption) ?_) | dsimp only [id]

theorem trace_keeps {r0 : State} (s : State) (src : Nat) (ev : Ev) (inst : Nat) (args : List Nat) (firmware : Bool) (hk : Keeps r0 s) :
    Keeps r0 (State.trace s src ev inst args firmware) := by
  unfold State.trace
  repeat' first
    | with_reducible assumption | (with_reducible refine updAlm_keeps_all _ _ (fun _ => Nat.le_refl _) ?_)
    | with_reducible exact Nat.le_refl _ | with_reducible exact Nat.le_succ _ | intro _ | with_reducible apply keeps_ite
    | with_reducible apply updAlm_keeps | with_reducible apply dmaWrite_keeps | with_reducible apply keeps_foldl
    | with_reducible apply keeps_foldl_fst | with_reducible apply keeps_ite_fst | extract_lets | split
    | (with_reducible refine keeps_fst (by assumption) ?_) | dsimp only [id]

theorem ctlOut_keeps {r0 : State} (s : State) (h : Nat) (op : Nat) (side : Nat) (b : List Nat) (hk : Keeps r0 s) : Keeps r0
    (State.ctlOut s h op side b) := by
  unfold State.ctlOut
  repeat' first
    | with_reducible assumption | intro _ | with_reducible apply keeps_ite | with_reducible apply updPort_keeps
    | with_reducible apply wrN_keeps | with_reducible apply emit_keeps | with_reducible apply keeps_foldl
    | with_reducible apply keeps_foldl_fst | with_reducible apply keeps_ite_fst | extract_lets | split
    | (with_reducible refine keeps_fst (by assumption) ?_) | dsimp only [id]

theorem ctl_keeps {r0 : State} (s : State) (h : Nat) (op : Nat) (side : Nat) (b : List Nat) (hk : Keeps r0 s) : Keeps r0 (State.ctl s h
    op side b) := by
  unfold State.ctl
  repeat' first
    | with_reducible assumption | intro _ | with_reducible apply keeps_ite | with_reducible apply ctlOut_keeps
    | with_reducible apply updPort_keeps | with_reducible apply keeps_foldl | with_reducible apply keeps_foldl_fst
    | with_reducible apply keeps_ite_fst | extract_lets | split | (with_reducible refine keeps_fst (by assumption) ?_)
    | dsimp only [id]

theorem ctlDrain_keeps {r0 : State} (s : State) (h : Nat) (fuel : Nat) (hk : Keeps r0 s) : Keeps r0 (State.ctlDrain s h fuel) := by
  induction fuel generalizing s with
  | zero =>
    unfold State.ctlDrain
    repeat' first
      | with_reducible assumption | intro _ | with_reducible apply keeps_ite | with_reducible apply ctlOut_keeps
      | with_reducible apply updPort_keeps | with_reducible apply keeps_foldl | with_reducible apply keeps_foldl_fst
      | with_reducible apply keeps_ite_fst | extract_lets | split | (with_reducible refine keeps_fst (by assumption) ?_)
      | dsimp only [id]
  | succ n ih =>
    unfold State.ctlDrain
    repeat' first
      | with_reducible assumption | intro _ | with_reducible apply keeps_ite | with_reducible apply ctlOut_keeps
      | with_reducible apply updPort_keeps | with_reducible apply ih | with_reducible apply keeps_foldl
      | with_reducible apply keeps_foldl_fst | with_reducible apply keeps_ite_fst | extract_lets | split
      | (with_reducible refine keeps_fst (by assumption) ?_) | dsimp only [id]

theorem lanesIdle_keeps {r0 : State} (s : State) (h : Nat) (hk : Keeps r0 s) : Keeps r0 (State.lanesIdle s h) := by
  unfold State.lanesIdle
  repeat' first
    | with_reducible assumption | intro _ | with_reducible apply keeps_ite | with_reducible apply wr_keeps
    | with_reducible apply keeps_foldl | with_reducible apply keeps_foldl_fst | with_reducible apply keeps_ite_fst | extract_lets
    | split | (with_reducible refine keeps_fst (by assumption) ?_) | dsimp only [id]

theorem flashEnd_keeps {r0 : State} (s : State) (h : Nat) (hk : Keeps r0 s) : Keeps r0 (State.flashEnd s h) := by
  unfold State.flashEnd
  repeat' first
    | with_reducible assumption | intro _ | with_reducible apply keeps_ite | with_reducible apply updPort_keeps
    | with_reducible apply wrN_keeps | with_reducible apply wr_keeps | with_reducible apply keeps_foldl
    | with_reducible apply keeps_foldl_fst | with_reducible apply keeps_ite_fst | extract_lets | split
    | (with_reducible refine keeps_fst (by assumption) ?_) | dsimp only [id]

theorem linkOff_keeps {r0 : State} (s : State) (h : Nat) (hk : Keeps r0 s) : Keeps r0 (State.linkOff s h) := by
  unfold State.linkOff
  repeat' first
    | with_reducible assumption | intro _ | with_reducible apply keeps_ite | with_reducible apply flashEnd_keeps
    | with_reducible apply lanesIdle_keeps | with_reducible apply wr_keeps | with_reducible apply keeps_foldl
    | with_reducible apply keeps_foldl_fst | with_reducible apply keeps_ite_fst | extract_lets | split
    | (with_reducible refine keeps_fst (by assumption) ?_) | dsimp only [id]

theorem loopOut_keeps {r0 : State} (s : State) (n : Nat) (item : Nat) (v : Word) (frame : Word) (tick : Nat) (hk : Keeps r0 s) : Keeps
    r0 (State.loopOut s n item v frame tick) := by
  unfold State.loopOut
  repeat' first
    | with_reducible assumption | intro _ | with_reducible apply keeps_ite | with_reducible apply ctl_keeps
    | with_reducible apply keeps_foldl | with_reducible apply keeps_foldl_fst | with_reducible apply keeps_ite_fst | extract_lets
    | split | (with_reducible refine keeps_fst (by assumption) ?_) | dsimp only [id]

theorem slotFree_keeps {r0 : State} (s : State) (e : Nat) (i : Nat) (hk : Keeps r0 s) : Keeps r0 (State.slotFree s e i) := by
  unfold State.slotFree
  repeat' first
    | with_reducible assumption | intro _ | with_reducible apply keeps_ite | with_reducible apply wrN_keeps
    | with_reducible apply wrAt_keeps | with_reducible apply keeps_foldl | with_reducible apply keeps_foldl_fst
    | with_reducible apply keeps_ite_fst | extract_lets | split | (with_reducible refine keeps_fst (by assumption) ?_)
    | dsimp only [id]

theorem smpCtl_keeps {r0 : State} (s : State) (n : Nat) (v : BitVec 3) (hk : Keeps r0 s) : Keeps r0 (State.smpCtl s n v) := by
  unfold State.smpCtl
  repeat' first
    | with_reducible assumption | intro _ | with_reducible apply keeps_ite | with_reducible apply updPort_keeps
    | with_reducible apply ctl_keeps | with_reducible apply keeps_foldl | with_reducible apply keeps_foldl_fst
    | with_reducible apply keeps_ite_fst | extract_lets | split | (with_reducible refine keeps_fst (by assumption) ?_)
    | dsimp only [id]

theorem withdrawSetpoints_keeps {r0 : State} (s : State) (n : Nat) (ep : BitVec 16) (hk : Keeps r0 s) : Keeps r0
    (State.withdrawSetpoints s n ep) := by
  unfold State.withdrawSetpoints
  repeat' first
    | with_reducible assumption | intro _ | with_reducible apply keeps_ite | with_reducible apply updAct_keeps
    | with_reducible apply wrN_keeps | with_reducible apply wrB_keeps | with_reducible apply updLoop_keeps
    | with_reducible apply keeps_foldl | with_reducible apply keeps_foldl_fst | with_reducible apply keeps_ite_fst | extract_lets
    | split | (with_reducible refine keeps_fst (by assumption) ?_) | dsimp only [id]

theorem capsFree_keeps {r0 : State} (s : State) (n : Nat) (cs : List Nat) (hk : Keeps r0 s) : Keeps r0 (State.capsFree s n cs) := by
  unfold State.capsFree
  repeat' first
    | with_reducible assumption | intro _ | with_reducible apply keeps_ite | with_reducible apply wrN_keeps
    | with_reducible apply updLane_keeps | with_reducible apply keeps_foldl | with_reducible apply keeps_foldl_fst
    | with_reducible apply keeps_ite_fst | extract_lets | split | (with_reducible refine keeps_fst (by assumption) ?_)
    | simp only [keeps_mk] | dsimp only [id]

theorem decFree_keeps {r0 : State} (s : State) (d : Nat) (hk : Keeps r0 s) : Keeps r0 (State.decFree s d) := by
  unfold State.decFree
  repeat' first
    | with_reducible assumption | intro _ | with_reducible apply keeps_ite | with_reducible apply wrAt_keeps
    | with_reducible apply keeps_foldl | with_reducible apply keeps_foldl_fst | with_reducible apply keeps_ite_fst | extract_lets
    | split | (with_reducible refine keeps_fst (by assumption) ?_) | dsimp only [id]

theorem laneStop_keeps {r0 : State} (s : State) (n : Nat) (hk : Keeps r0 s) : Keeps r0 (State.laneStop s n) := by
  unfold State.laneStop
  repeat' first
    | with_reducible assumption | intro _ | with_reducible apply keeps_ite | with_reducible apply wrN_keeps
    | with_reducible apply capsFree_keeps | with_reducible apply decFree_keeps | with_reducible apply wr_keeps
    | with_reducible apply updLane_keeps | with_reducible apply keeps_foldl | with_reducible apply keeps_foldl_fst
    | with_reducible apply keeps_ite_fst | extract_lets | split | (with_reducible refine keeps_fst (by assumption) ?_)
    | simp only [keeps_mk] | dsimp only [id]

theorem chaffSlot_keeps {r0 : State} (s : State) (n : Nat) (i : Nat) (hk : Keeps r0 s) : Keeps r0 (State.chaffSlot s n i) := by
  unfold State.chaffSlot
  repeat' first
    | with_reducible assumption | intro _ | with_reducible apply keeps_ite | with_reducible apply slotFree_keeps
    | with_reducible apply bumpBy_keeps | with_reducible apply capsFree_keeps | with_reducible apply updAct_keeps
    | with_reducible apply wrB_keeps | with_reducible apply trace_keeps | with_reducible apply withdrawSetpoints_keeps
    | with_reducible apply keeps_foldl | with_reducible apply keeps_foldl_fst | with_reducible apply keeps_ite_fst | extract_lets
    | split | (with_reducible refine keeps_fst (by assumption) ?_) | simp only [keeps_mk] | dsimp only [id]

theorem chaffAll_keeps {r0 : State} (s : State) (n : Nat) (hk : Keeps r0 s) : Keeps r0 (State.chaffAll s n) := by
  unfold State.chaffAll
  repeat' first
    | with_reducible assumption | intro _ | with_reducible apply keeps_ite | with_reducible apply chaffSlot_keeps
    | with_reducible apply keeps_foldl | with_reducible apply keeps_foldl_fst | with_reducible apply keeps_ite_fst | extract_lets
    | split | (with_reducible refine keeps_fst (by assumption) ?_) | dsimp only [id]

theorem endWork_keeps {r0 : State} (s : State) (n : Nat) (hk : Keeps r0 s) : Keeps r0 (State.endWork s n) := by
  unfold State.endWork
  repeat' first
    | with_reducible assumption | intro _ | with_reducible apply keeps_ite | with_reducible apply wr_keeps
    | with_reducible apply updAct_keeps | with_reducible apply keeps_foldl | with_reducible apply keeps_foldl_fst
    | with_reducible apply keeps_ite_fst | extract_lets | split | (with_reducible refine keeps_fst (by assumption) ?_)
    | dsimp only [id]

theorem setMode_keeps {r0 : State} (s : State) (g : Nat) (m : Nat) (hk : Keeps r0 s) : Keeps r0 (State.setMode s g m) := by
  unfold State.setMode
  repeat' first
    | with_reducible assumption | intro _ | with_reducible apply keeps_ite | with_reducible apply wrN_keeps
    | with_reducible apply trace_keeps | with_reducible apply keeps_foldl | with_reducible apply keeps_foldl_fst
    | with_reducible apply keeps_ite_fst | extract_lets | split | (with_reducible refine keeps_fst (by assumption) ?_)
    | dsimp only [id]

theorem loopSafe_keeps {r0 : State} (s : State) (g : Nat) (cause : Nat) (hk : Keeps r0 s) : Keeps r0 (State.loopSafe s g cause) := by
  unfold State.loopSafe
  repeat' first
    | with_reducible assumption | intro _ | with_reducible apply keeps_ite | with_reducible apply setMode_keeps
    | with_reducible apply wrN_keeps | with_reducible apply wr_keeps | with_reducible apply updLoop_keeps
    | with_reducible apply keeps_foldl | with_reducible apply keeps_foldl_fst | with_reducible apply keeps_ite_fst | extract_lets
    | split | (with_reducible refine keeps_fst (by assumption) ?_) | dsimp only [id]

theorem loopActionEnd_keeps {r0 : State} (s : State) (g : Nat) (hk : Keeps r0 s) : Keeps r0 (State.loopActionEnd s g) := by
  unfold State.loopActionEnd
  repeat' first
    | with_reducible assumption | intro _ | with_reducible apply keeps_ite | with_reducible apply setMode_keeps
    | with_reducible apply wr_keeps | with_reducible apply updLoop_keeps | with_reducible apply keeps_foldl
    | with_reducible apply keeps_foldl_fst | with_reducible apply keeps_ite_fst | extract_lets | split
    | (with_reducible refine keeps_fst (by assumption) ?_) | dsimp only [id]

theorem laserManual_keeps {r0 : State} (s : State) (n : Nat) (hk : Keeps r0 s) : Keeps r0 (State.laserManual s n) := by
  unfold State.laserManual
  repeat' first
    | with_reducible assumption | intro _ | with_reducible apply keeps_ite | with_reducible apply setMode_keeps
    | with_reducible apply wr_keeps | with_reducible apply keeps_foldl | with_reducible apply keeps_foldl_fst
    | with_reducible apply keeps_ite_fst | extract_lets | split | (with_reducible refine keeps_fst (by assumption) ?_)
    | dsimp only [id]

theorem wrtDrain_keeps {r0 : State} (s : State) (n : Nat) (fuel : Nat) (hk : Keeps r0 s) : Keeps r0 (State.wrtDrain s n fuel) := by
  induction fuel generalizing s with
  | zero =>
    unfold State.wrtDrain
    repeat' first
      | with_reducible assumption | intro _ | with_reducible apply keeps_ite | with_reducible apply updPort_keeps
      | with_reducible apply wrN_keeps | with_reducible apply updAct_keeps | with_reducible apply emit_keeps
      | with_reducible apply keeps_foldl | with_reducible apply keeps_foldl_fst | with_reducible apply keeps_ite_fst | extract_lets
      | split | (with_reducible refine keeps_fst (by assumption) ?_) | dsimp only [id]
  | succ n ih =>
    unfold State.wrtDrain
    repeat' first
      | with_reducible assumption | intro _ | with_reducible apply keeps_ite | with_reducible apply updPort_keeps
      | with_reducible apply wrN_keeps | with_reducible apply updAct_keeps | with_reducible apply emit_keeps | with_reducible apply ih
      | with_reducible apply keeps_foldl | with_reducible apply keeps_foldl_fst | with_reducible apply keeps_ite_fst | extract_lets
      | split | (with_reducible refine keeps_fst (by assumption) ?_) | dsimp only [id]

theorem seqClose_keeps {r0 : State} (s : State) (n : Nat) (hk : Keeps r0 s) : Keeps r0 (State.seqClose s n) := by
  unfold State.seqClose
  repeat' first
    | with_reducible assumption | intro _ | with_reducible apply keeps_ite | with_reducible apply ctl_keeps
    | with_reducible apply wr_keeps | with_reducible apply laserManual_keeps | with_reducible apply updAct_keeps
    | with_reducible apply keeps_foldl | with_reducible apply keeps_foldl_fst | with_reducible apply keeps_ite_fst | extract_lets
    | split | (with_reducible refine keeps_fst (by assumption) ?_) | dsimp only [id]

theorem gateClose_keeps {r0 : State} (s : State) (n : Nat) (cause : Nat) (hk : Keeps r0 s) : Keeps r0 (State.gateClose s n cause) := by
  unfold State.gateClose
  repeat' first
    | with_reducible assumption | intro _ | with_reducible apply keeps_ite | with_reducible apply ctl_keeps
    | with_reducible apply bump_keeps | with_reducible apply wrN_keeps | with_reducible apply wr_keeps
    | with_reducible apply updAct_keeps | with_reducible apply trace_keeps | with_reducible apply laserManual_keeps
    | with_reducible apply keeps_foldl | with_reducible apply keeps_foldl_fst | with_reducible apply keeps_ite_fst | extract_lets
    | split | (with_reducible refine keeps_fst (by assumption) ?_) | dsimp only [id]

theorem motor_keeps {r0 : State} (s : State) (h : Nat) (mode : Nat) (duty : List Nat) (t1 : Nat) (t2 : Nat) (shift : List Int) (hk :
    Keeps r0 s) : Keeps r0 (State.motor s h mode duty t1 t2 shift) := by
  unfold State.motor
  repeat' first
    | with_reducible assumption | intro _ | with_reducible apply keeps_ite | with_reducible apply ctl_keeps
    | with_reducible apply keeps_foldl | with_reducible apply keeps_foldl_fst | with_reducible apply keeps_ite_fst | extract_lets
    | split | (with_reducible refine keeps_fst (by assumption) ?_) | dsimp only [id]

theorem motorOff_keeps {r0 : State} (s : State) (h : Nat) (hk : Keeps r0 s) : Keeps r0 (State.motorOff s h) := by
  unfold State.motorOff
  repeat' first
    | with_reducible assumption | intro _ | with_reducible apply keeps_ite | with_reducible apply motor_keeps
    | with_reducible apply keeps_foldl | with_reducible apply keeps_foldl_fst | with_reducible apply keeps_ite_fst | extract_lets
    | split | (with_reducible refine keeps_fst (by assumption) ?_) | dsimp only [id]

theorem spinState_keeps {r0 : State} (s : State) (h : Nat) (st : Nat) (hk : Keeps r0 s) : Keeps r0 (State.spinState s h st) := by
  unfold State.spinState
  repeat' first
    | with_reducible assumption | intro _ | with_reducible apply keeps_ite | with_reducible apply wrB_keeps
    | with_reducible apply wrN_keeps | with_reducible apply wrBit_keeps | with_reducible apply wr_keeps
    | with_reducible apply trace_keeps | with_reducible apply keeps_foldl | with_reducible apply keeps_foldl_fst
    | with_reducible apply keeps_ite_fst | extract_lets | split | (with_reducible refine keeps_fst (by assumption) ?_)
    | dsimp only [id]

theorem spindleCoast_keeps {r0 : State} (s : State) (h : Nat) (hk : Keeps r0 s) : Keeps r0 (State.spindleCoast s h) := by
  unfold State.spindleCoast
  repeat' first
    | with_reducible assumption | intro _ | with_reducible apply keeps_ite | with_reducible apply updSpin_keeps
    | with_reducible apply motorOff_keeps | with_reducible apply spinState_keeps | with_reducible apply keeps_foldl
    | with_reducible apply keeps_foldl_fst | with_reducible apply keeps_ite_fst | extract_lets | split
    | (with_reducible refine keeps_fst (by assumption) ?_) | dsimp only [id]

theorem loopSafeAction_keeps {r0 : State} (s : State) (g : Nat) (cause : Nat) (hk : Keeps r0 s) : Keeps r0 (State.loopSafeAction s g
    cause) := by
  unfold State.loopSafeAction
  repeat' first
    | with_reducible assumption | intro _ | with_reducible apply keeps_ite | with_reducible apply wrN_keeps
    | with_reducible apply wr_keeps | with_reducible apply updLoop_keeps | with_reducible apply setMode_keeps
    | with_reducible apply loopOut_keeps | with_reducible apply loopActionEnd_keeps | with_reducible apply gateClose_keeps
    | with_reducible apply spindleCoast_keeps | with_reducible apply keeps_foldl | with_reducible apply keeps_foldl_fst
    | with_reducible apply keeps_ite_fst | extract_lets | split | (with_reducible refine keeps_fst (by assumption) ?_)
    | dsimp only [id]

theorem stopAct_keeps {r0 : State} (s : State) (n : Nat) (hk : Keeps r0 s) : Keeps r0 (State.stopAct s n) := by
  unfold State.stopAct
  repeat' first
    | with_reducible assumption | intro _ | with_reducible apply keeps_ite | with_reducible apply chaffAll_keeps
    | with_reducible apply updAct_keeps | with_reducible apply endWork_keeps | with_reducible apply laneStop_keeps
    | with_reducible apply gateClose_keeps | with_reducible apply loopSafeAction_keeps | with_reducible apply keeps_foldl
    | with_reducible apply keeps_foldl_fst | with_reducible apply keeps_ite_fst | extract_lets | split
    | (with_reducible refine keeps_fst (by assumption) ?_) | dsimp only [id]

theorem hdaLoopsSafe_keeps {r0 : State} (s : State) (h : Nat) (cause : Nat) (hk : Keeps r0 s) : Keeps r0 (State.hdaLoopsSafe s h cause)
    := by
  unfold State.hdaLoopsSafe
  repeat' first
    | with_reducible assumption | intro _ | with_reducible apply keeps_ite | with_reducible apply loopSafe_keeps
    | with_reducible apply keeps_foldl | with_reducible apply keeps_foldl_fst | with_reducible apply keeps_ite_fst | extract_lets
    | split | (with_reducible refine keeps_fst (by assumption) ?_) | dsimp only [id]

theorem safeLow_keeps {r0 : State} (s : State) (h : Nat) (reason : Nat) (hk : Keeps r0 s) : Keeps r0 (State.safeLow s h reason) := by
  unfold State.safeLow
  repeat' first
    | with_reducible assumption | intro _ | with_reducible apply keeps_ite | with_reducible apply updPort_keeps
    | with_reducible apply ctl_keeps | with_reducible apply keeps_foldl | with_reducible apply keeps_foldl_fst
    | with_reducible apply keeps_ite_fst | extract_lets | split | (with_reducible refine keeps_fst (by assumption) ?_)
    | simp only [keeps_mk] | dsimp only [id]

theorem safeHigh_keeps {r0 : State} (s : State) (h : Nat) (hk : Keeps r0 s) : Keeps r0 (State.safeHigh s h) := by
  unfold State.safeHigh
  repeat' first
    | with_reducible assumption | intro _ | with_reducible apply keeps_ite | with_reducible apply ctl_keeps
    | with_reducible apply keeps_foldl | with_reducible apply keeps_foldl_fst | with_reducible apply keeps_ite_fst | extract_lets
    | split | (with_reducible refine keeps_fst (by assumption) ?_) | simp only [keeps_mk] | dsimp only [id]

theorem faultAudit_keeps {r0 : State} (s : State) (ftype : Nat) (inst : Nat) (info : Word) (hk : Keeps r0 s) : Keeps r0
    (State.faultAudit s ftype inst info) := by
  unfold State.faultAudit
  repeat' first
    | with_reducible assumption | intro _ | with_reducible apply keeps_ite | with_reducible apply updFlt_keeps
    | with_reducible apply audit_keeps | with_reducible apply keeps_foldl | with_reducible apply keeps_foldl_fst
    | with_reducible apply keeps_ite_fst | extract_lets | split | (with_reducible refine keeps_fst (by assumption) ?_)
    | dsimp only [id]

theorem faultAuditRound_keeps {r0 : State} (s : State) (hk : Keeps r0 s) : Keeps r0 (State.faultAuditRound s) := by
  unfold State.faultAuditRound
  repeat' first
    | with_reducible assumption | intro _ | with_reducible apply keeps_ite | with_reducible apply updFlt_keeps
    | with_reducible apply audit_keeps | with_reducible apply keeps_foldl | with_reducible apply keeps_foldl_fst
    | with_reducible apply keeps_ite_fst | extract_lets | split | (with_reducible refine keeps_fst (by assumption) ?_)
    | dsimp only [id]

theorem injWrite_keeps {r0 : State} (s : State) (ftype : Nat) (inst : Nat) (word : Nat) (hk : Keeps r0 s) : Keeps r0 (State.injWrite s
    ftype inst word) := by
  unfold State.injWrite
  repeat' first
    | with_reducible assumption | intro _ | with_reducible apply keeps_ite | with_reducible apply updFlt_keeps
    | with_reducible apply wr_keeps | with_reducible apply keeps_foldl | with_reducible apply keeps_foldl_fst
    | with_reducible apply keeps_ite_fst | extract_lets | split | (with_reducible refine keeps_fst (by assumption) ?_)
    | dsimp only [id]

theorem injTake_keeps {r0 : State} {s t : State} {k i : Nat} (h : s.injTake k i = some t) (hk : Keeps r0 s) : Keeps r0 t := by
  unfold State.injTake at h
  extract_lets at h
  split at h
  · cases h; split
    · exact wr_keeps _ _ _ _ (updFlt_keeps _ _ hk)
    · exact updFlt_keeps _ _ hk
  · cases h

theorem putTag_keeps {r0 : State} (s : State) (who : Nat) (id : Nat) (x : Nat) (t : Tag) (hk : Keeps r0 s) : Keeps r0 (State.putTag s
    who id x t) := by
  unfold State.putTag
  repeat' first
    | with_reducible assumption | intro _ | with_reducible apply keeps_ite | with_reducible apply injWrite_keeps
    | with_reducible apply dmaWrite_keeps | with_reducible apply keeps_foldl | with_reducible apply keeps_foldl_fst
    | with_reducible apply keeps_ite_fst | extract_lets | split | (with_reducible refine keeps_fst (by assumption) ?_)
    | dsimp only [id]

theorem putGrain_keeps {r0 : State} (s : State) (who : Nat) (id : Nat) (x : Nat) (t : Tag) (payload : List Byte) (hk : Keeps r0 s) :
    Keeps r0 (State.putGrain s who id x t payload) := by
  unfold State.putGrain
  repeat' first
    | with_reducible assumption | intro _ | with_reducible apply keeps_ite | with_reducible apply putTag_keeps
    | with_reducible apply dmaWrite_keeps | with_reducible apply keeps_foldl | with_reducible apply keeps_foldl_fst
    | with_reducible apply keeps_ite_fst | extract_lets | split | (with_reducible refine keeps_fst (by assumption) ?_)
    | dsimp only [id]

theorem guarantee_keeps {r0 : State} (s : State) (high : Nat) (low : Nat) (who : Nat) (hk : Keeps r0 s) : Keeps r0 (State.guarantee s
    high low who) := by
  unfold State.guarantee
  repeat' first
    | with_reducible assumption | intro _ | with_reducible apply keeps_ite | with_reducible apply audit_keeps
    | with_reducible apply keeps_foldl | with_reducible apply keeps_foldl_fst | with_reducible apply keeps_ite_fst | extract_lets
    | split | (with_reducible refine keeps_fst (by assumption) ?_) | dsimp only [id]

theorem breaksFor_keeps {r0 : State} (s : State) (n : Nat) (high : Nat) (lows : List Nat) (hk : Keeps r0 s) : Keeps r0 (State.breaksFor
    s n high lows) := by
  unfold State.breaksFor
  repeat' first
    | with_reducible assumption | intro _ | with_reducible apply keeps_ite | with_reducible apply guarantee_keeps
    | with_reducible apply keeps_foldl | with_reducible apply keeps_foldl_fst | with_reducible apply keeps_ite_fst | extract_lets
    | split | (with_reducible refine keeps_fst (by assumption) ?_) | dsimp only [id]

theorem react_keeps {r0 : State} (s : State) (r : Nat) (reason : Nat) (acts : BitVec 64) (hdas : BitVec 32) (hk : Keeps r0 s) : Keeps r0
    (State.react s r reason acts hdas) := by
  unfold State.react
  repeat' first
    | with_reducible assumption | intro _ | with_reducible apply keeps_ite | with_reducible apply breaksFor_keeps
    | with_reducible apply stopAct_keeps | with_reducible apply guarantee_keeps | with_reducible apply safeLow_keeps
    | with_reducible apply hdaLoopsSafe_keeps | with_reducible apply spindleCoast_keeps | with_reducible apply keeps_foldl
    | with_reducible apply keeps_foldl_fst | with_reducible apply keeps_ite_fst | extract_lets | split
    | (with_reducible refine keeps_fst (by assumption) ?_) | dsimp only [id]

theorem faultArose_keeps {r0 : State} (s : State) (was : State) (hk : Keeps r0 s) : Keeps r0 (State.faultArose s was) := by
  unfold State.faultArose
  repeat' first
    | with_reducible assumption | intro _ | with_reducible apply keeps_ite | with_reducible apply gateClose_keeps
    | with_reducible apply keeps_foldl | with_reducible apply keeps_foldl_fst | with_reducible apply keeps_ite_fst | extract_lets
    | split | (with_reducible refine keeps_fst (by assumption) ?_) | dsimp only [id]

theorem detect_keeps {r0 : State} (s : State) (ftype : Nat) (inst : Nat) (info : Word) (detail : Word) (injected : Bool) (hk : Keeps r0
    s) : Keeps r0 (State.detect s ftype inst info detail injected) := by
  unfold State.detect
  repeat' first
    | with_reducible assumption | ((with_reducible apply otpLe_of_same) <;> rfl) | intro _ | with_reducible apply keeps_ite
    | with_reducible apply updFlt_keeps | with_reducible apply wrBit_keeps | with_reducible apply bump_keeps
    | with_reducible apply wrN_keeps | with_reducible apply wr_keeps | with_reducible apply wrB_keeps
    | with_reducible apply faultAudit_keeps | with_reducible apply updAct_keeps | with_reducible apply audit_keeps
    | with_reducible apply updHusk_keeps | with_reducible apply faultArose_keeps | with_reducible apply react_keeps
    | with_reducible apply keeps_foldl | with_reducible apply keeps_foldl_fst | with_reducible apply keeps_ite_fst | extract_lets
    | split | (with_reducible refine keeps_fst (by assumption) ?_) | dsimp only [id]

theorem withdraw_keeps {r0 : State} (s : State) (a : ActiveFault) (hk : Keeps r0 s) : Keeps r0 (State.withdraw s a) := by
  unfold State.withdraw
  repeat' first
    | with_reducible assumption | intro _ | with_reducible apply keeps_ite | with_reducible apply updAct_keeps
    | with_reducible apply safeHigh_keeps | with_reducible apply keeps_foldl | with_reducible apply keeps_foldl_fst
    | with_reducible apply keeps_ite_fst | extract_lets | split | (with_reducible refine keeps_fst (by assumption) ?_)
    | simp only [keeps_mk] | dsimp only [id]

theorem recover_keeps {r0 : State} (s : State) (ftype : Nat) (inst : Nat) (hk : Keeps r0 s) : Keeps r0 (State.recover s ftype inst) := by
  unfold State.recover
  repeat' first
    | with_reducible assumption | intro _ | with_reducible apply keeps_ite | with_reducible apply updFlt_keeps
    | with_reducible apply wrBit_keeps | with_reducible apply bump_keeps | with_reducible apply audit_keeps
    | with_reducible apply withdraw_keeps | with_reducible apply keeps_foldl | with_reducible apply keeps_foldl_fst
    | with_reducible apply keeps_ite_fst | extract_lets | split | (with_reducible refine keeps_fst (by assumption) ?_)
    | dsimp only [id]

theorem disEnd_keeps {r0 : State} (s : State) (n : Nat) (hk : Keeps r0 s) : Keeps r0 (State.disEnd s n) := by
  unfold State.disEnd
  repeat' first
    | with_reducible assumption | intro _ | with_reducible apply keeps_ite | with_reducible apply wr_keeps
    | with_reducible apply spindleCoast_keeps | with_reducible apply setMode_keeps | with_reducible apply safeLow_keeps
    | with_reducible apply linkOff_keeps | with_reducible apply keeps_foldl | with_reducible apply keeps_foldl_fst
    | with_reducible apply keeps_ite_fst | extract_lets | split | (with_reducible refine keeps_fst (by assumption) ?_)
    | simp only [keeps_mk] | dsimp only [id]

theorem memWins_keeps {r0 : State} (s : State) (hk : Keeps r0 s) : Keeps r0 (State.memWins s) := by
  unfold State.memWins
  repeat' first
    | with_reducible assumption | intro _ | with_reducible apply keeps_ite | with_reducible apply keeps_foldl
    | with_reducible apply keeps_foldl_fst | with_reducible apply keeps_ite_fst | extract_lets | split
    | (with_reducible refine keeps_fst (by assumption) ?_) | simp only [keeps_mk] | dsimp only [id]

theorem refused_keeps {r0 : State} (s : State) (id : Initiator) (wr : Bool) (hk : Keeps r0 s) : Keeps r0 (State.refused s id wr) := by
  unfold State.refused
  repeat' first
    | with_reducible assumption | intro _ | with_reducible apply keeps_ite | with_reducible apply emit_keeps
    | with_reducible apply keeps_foldl | with_reducible apply keeps_foldl_fst | with_reducible apply keeps_ite_fst | extract_lets
    | split | (with_reducible refine keeps_fst (by assumption) ?_) | dsimp only [id]

theorem guardAcc_keeps {r0 : State} (s : State) (id : Initiator) (addr : Nat) (wr : Bool) (act : State → State) (hact : ∀ (x0 : State),
    Keeps r0 x0 → Keeps r0 (act x0)) (hk : Keeps r0 s) : Keeps r0 (State.guardAcc s id addr wr act) := by
  unfold State.guardAcc
  repeat' first
    | with_reducible assumption | intro _ | apply hact | with_reducible apply keeps_ite | with_reducible apply wake_keeps
    | with_reducible apply refused_keeps | with_reducible apply violate_keeps | with_reducible apply bumpBy_keeps
    | with_reducible apply keeps_foldl | with_reducible apply keeps_foldl_fst | with_reducible apply keeps_ite_fst | extract_lets
    | split | (with_reducible refine keeps_fst (by assumption) ?_) | dsimp only [id]

theorem routeDrop_keeps {r0 : State} (s : State) (i : Nat) (hk : Keeps r0 s) : Keeps r0 (State.routeDrop s i) := by
  unfold State.routeDrop
  repeat' first
    | with_reducible assumption | intro _ | with_reducible apply keeps_ite | with_reducible apply detect_keeps
    | with_reducible apply bumpBy_keeps | with_reducible apply keeps_foldl | with_reducible apply keeps_foldl_fst
    | with_reducible apply keeps_ite_fst | extract_lets | split | (with_reducible refine keeps_fst (by assumption) ?_)
    | dsimp only [id]

theorem guard_keeps {r0 : State} (s : State) (id : Initiator) (addr : Nat) (act : State → State) (hact : ∀ (x0 : State), Keeps r0 x0 →
    Keeps r0 (act x0)) (hk : Keeps r0 s) : Keeps r0 (State.guard s id addr act) := by
  unfold State.guard
  repeat' first
    | with_reducible assumption | intro _ | apply hact | with_reducible apply keeps_ite | with_reducible apply guardAcc_keeps
    | with_reducible apply keeps_foldl | with_reducible apply keeps_foldl_fst | with_reducible apply keeps_ite_fst | extract_lets
    | split | (with_reducible refine keeps_fst (by assumption) ?_) | dsimp only [id]

theorem wrField_keeps {r0 : State} (s : State) (who : Nat) (f : RegField) (i : Nat) (j : Nat) (w : Word) (hk : Keeps r0 s) : Keeps r0
    (State.wrField s who f i j w) := by
  unfold State.wrField
  repeat' first
    | with_reducible assumption | intro _ | with_reducible apply keeps_ite | with_reducible apply wrAt_keeps
    | with_reducible apply keeps_foldl | with_reducible apply keeps_foldl_fst | with_reducible apply keeps_ite_fst | extract_lets
    | split | (with_reducible refine keeps_fst (by assumption) ?_) | dsimp only [id]

theorem wrPlain_keeps {r0 : State} (s : State) (who : Nat) (f : RegField) (i : Nat) (j : Nat) (w : Word) (hk : Keeps r0 s) : Keeps r0
    (State.wrPlain s who f i j w) := by
  unfold State.wrPlain
  repeat' first
    | with_reducible assumption | intro _ | with_reducible apply keeps_ite | with_reducible apply wrField_keeps
    | with_reducible apply keeps_foldl | with_reducible apply keeps_foldl_fst | with_reducible apply keeps_ite_fst | extract_lets
    | split | (with_reducible refine keeps_fst (by assumption) ?_) | simp only [keeps_mk] | dsimp only [id]

theorem wrBlk_keeps {r0 : State} (s : State) (who : Nat) (b : Blk) (i : Nat) (addr : Nat) (w : Word) (hk : Keeps r0 s) : Keeps r0
    (State.wrBlk s who b i addr w) := by
  unfold State.wrBlk
  repeat' first
    | with_reducible assumption | intro _ | with_reducible apply keeps_ite | with_reducible apply wrPlain_keeps
    | with_reducible apply keeps_foldl | with_reducible apply keeps_foldl_fst | with_reducible apply keeps_ite_fst | extract_lets
    | split | (with_reducible refine keeps_fst (by assumption) ?_) | dsimp only [id]

theorem updHost_keeps {r0 : State} (s : State) (f : HostSt → HostSt) (hk : Keeps r0 s) : Keeps r0 (State.updHost s f) := by
  unfold State.updHost
  repeat' first
    | with_reducible assumption | intro _ | with_reducible apply keeps_ite | with_reducible apply keeps_foldl
    | with_reducible apply keeps_foldl_fst | with_reducible apply keeps_ite_fst | extract_lets | split
    | (with_reducible refine keeps_fst (by assumption) ?_) | simp only [keeps_mk] | dsimp only [id]

theorem updPool_keeps {r0 : State} (s : State) (f : PoolSt → PoolSt) (hk : Keeps r0 s) : Keeps r0 (State.updPool s f) := by
  unfold State.updPool
  repeat' first
    | with_reducible assumption | intro _ | with_reducible apply keeps_ite | with_reducible apply keeps_foldl
    | with_reducible apply keeps_foldl_fst | with_reducible apply keeps_ite_fst | extract_lets | split
    | (with_reducible refine keeps_fst (by assumption) ?_) | simp only [keeps_mk] | dsimp only [id]

theorem updLed_keeps {r0 : State} (s : State) (n : Nat) (f : LedgerSt → LedgerSt) (hk : Keeps r0 s) : Keeps r0 (State.updLed s n f) := by
  unfold State.updLed
  repeat' first
    | with_reducible assumption | intro _ | with_reducible apply keeps_ite | with_reducible apply updAct_keeps
    | with_reducible apply keeps_foldl | with_reducible apply keeps_foldl_fst | with_reducible apply keeps_ite_fst | extract_lets
    | split | (with_reducible refine keeps_fst (by assumption) ?_) | dsimp only [id]

theorem mqRefresh_keeps {r0 : State} (s : State) (n : Nat) (hk : Keeps r0 s) : Keeps r0 (State.mqRefresh s n) := by
  unfold State.mqRefresh
  repeat' first
    | with_reducible assumption | intro _ | with_reducible apply keeps_ite | with_reducible apply updAct_keeps
    | with_reducible apply wrN_keeps | with_reducible apply wrAt_keeps | with_reducible apply keeps_foldl
    | with_reducible apply keeps_foldl_fst | with_reducible apply keeps_ite_fst | extract_lets | split
    | (with_reducible refine keeps_fst (by assumption) ?_) | dsimp only [id]

theorem mqPut_keeps {r0 : State} (s : State) (n : Nat) (e : MqEntry) (hk : Keeps r0 s) : Keeps r0 (State.mqPut s n e) := by
  unfold State.mqPut
  repeat' first
    | with_reducible assumption | intro _ | with_reducible apply keeps_ite | with_reducible apply guarantee_keeps
    | with_reducible apply mqRefresh_keeps | with_reducible apply updAct_keeps | with_reducible apply keeps_foldl
    | with_reducible apply keeps_foldl_fst | with_reducible apply keeps_ite_fst | extract_lets | split
    | (with_reducible refine keeps_fst (by assumption) ?_) | dsimp only [id]

theorem mqDone_keeps {r0 : State} (s : State) (n : Nat) (idx : Nat) (lbas : List Nat) (hk : Keeps r0 s) : Keeps r0 (State.mqDone s n idx
    lbas) := by
  unfold State.mqDone
  repeat' first
    | with_reducible assumption | intro _ | with_reducible apply keeps_ite | with_reducible apply mqRefresh_keeps
    | with_reducible apply updAct_keeps | with_reducible apply keeps_foldl | with_reducible apply keeps_foldl_fst
    | with_reducible apply keeps_ite_fst | extract_lets | split | (with_reducible refine keeps_fst (by assumption) ?_)
    | dsimp only [id]

theorem mqDrop_keeps {r0 : State} (s : State) (n : Nat) (p : MqEntry → Bool) (hk : Keeps r0 s) : Keeps r0 (State.mqDrop s n p) := by
  unfold State.mqDrop
  repeat' first
    | with_reducible assumption | intro _ | with_reducible apply keeps_ite | with_reducible apply mqRefresh_keeps
    | with_reducible apply updAct_keeps | with_reducible apply keeps_foldl | with_reducible apply keeps_foldl_fst
    | with_reducible apply keeps_ite_fst | extract_lets | split | (with_reducible refine keeps_fst (by assumption) ?_)
    | dsimp only [id]

theorem mqWait_keeps {r0 : State} (s : State) (n : Nat) (e : MqEntry) (hk : Keeps r0 s) : Keeps r0 (State.mqWait s n e) := by
  unfold State.mqWait
  repeat' first
    | with_reducible assumption | intro _ | with_reducible apply keeps_ite | with_reducible apply updHost_keeps
    | with_reducible apply keeps_foldl | with_reducible apply keeps_foldl_fst | with_reducible apply keeps_ite_fst | extract_lets
    | split | (with_reducible refine keeps_fst (by assumption) ?_) | dsimp only [id]

theorem msixSend_keeps {r0 : State} (s : State) (v : Nat) (hk : Keeps r0 s) : Keeps r0 (State.msixSend s v) := by
  unfold State.msixSend
  repeat' first
    | with_reducible assumption | intro _ | with_reducible apply keeps_ite | with_reducible apply updHost_keeps
    | with_reducible apply emit_keeps | with_reducible apply keeps_foldl | with_reducible apply keeps_foldl_fst
    | with_reducible apply keeps_ite_fst | extract_lets | split | (with_reducible refine keeps_fst (by assumption) ?_)
    | dsimp only [id]

theorem updCmd_keeps {r0 : State} (s : State) (slot : Nat) (f : Cmd → Cmd) (hk : Keeps r0 s) : Keeps r0 (State.updCmd s slot f) := by
  unfold State.updCmd
  repeat' first
    | with_reducible assumption | intro _ | with_reducible apply keeps_ite | with_reducible apply updHost_keeps
    | with_reducible apply keeps_foldl | with_reducible apply keeps_foldl_fst | with_reducible apply keeps_ite_fst | extract_lets
    | split | (with_reducible refine keeps_fst (by assumption) ?_) | dsimp only [id]

theorem cqIrq_keeps {r0 : State} (s : State) (q : Cq) (hk : Keeps r0 s) : Keeps r0 (State.cqIrq s q) := by
  unfold State.cqIrq
  repeat' first
    | with_reducible assumption | intro _ | with_reducible apply keeps_ite | with_reducible apply msixSend_keeps
    | with_reducible apply updHost_keeps | with_reducible apply keeps_foldl | with_reducible apply keeps_foldl_fst
    | with_reducible apply keeps_ite_fst | extract_lets | split | (with_reducible refine keeps_fst (by assumption) ?_)
    | dsimp only [id]

theorem cqPost_keeps {r0 : State} (s : State) (c : Cmd) (q : Cq) (status : Nat) (dw0 : Word) (dw1 : Word) (hk : Keeps r0 s) : Keeps r0
    (State.cqPost s c q status dw0 dw1) := by
  unfold State.cqPost
  repeat' first
    | with_reducible assumption | intro _ | with_reducible apply keeps_ite | with_reducible apply emit_keeps
    | with_reducible apply updHost_keeps | with_reducible apply cqIrq_keeps | with_reducible apply keeps_foldl
    | with_reducible apply keeps_foldl_fst | with_reducible apply keeps_ite_fst | extract_lets | split
    | (with_reducible refine keeps_fst (by assumption) ?_) | dsimp only [id]

theorem ackRefresh_keeps {r0 : State} (s : State) (hk : Keeps r0 s) : Keeps r0 (State.ackRefresh s) := by
  unfold State.ackRefresh
  repeat' first
    | with_reducible assumption | intro _ | with_reducible apply keeps_ite | with_reducible apply wrN_keeps
    | with_reducible apply keeps_foldl | with_reducible apply keeps_foldl_fst | with_reducible apply keeps_ite_fst | extract_lets
    | split | (with_reducible refine keeps_fst (by assumption) ?_) | dsimp only [id]

theorem bufRefresh_keeps {r0 : State} (s : State) (hk : Keeps r0 s) : Keeps r0 (State.bufRefresh s) := by
  unfold State.bufRefresh
  repeat' first
    | with_reducible assumption | intro _ | with_reducible apply keeps_ite | with_reducible apply ackRefresh_keeps
    | with_reducible apply wrN_keeps | with_reducible apply keeps_foldl | with_reducible apply keeps_foldl_fst
    | with_reducible apply keeps_ite_fst | extract_lets | split | (with_reducible refine keeps_fst (by assumption) ?_)
    | dsimp only [id]

theorem unpin_keeps {r0 : State} (s : State) (slot : Nat) (hk : Keeps r0 s) : Keeps r0 (State.unpin s slot) := by
  unfold State.unpin
  repeat' first
    | with_reducible assumption | intro _ | with_reducible apply keeps_ite | with_reducible apply updHost_keeps
    | with_reducible apply keeps_foldl | with_reducible apply keeps_foldl_fst | with_reducible apply keeps_ite_fst | extract_lets
    | split | (with_reducible refine keeps_fst (by assumption) ?_) | simp only [keeps_mk] | dsimp only [id]

theorem slotDrop_keeps {r0 : State} (s : State) (slot : Nat) (hk : Keeps r0 s) : Keeps r0 (State.slotDrop s slot) := by
  unfold State.slotDrop
  repeat' first
    | with_reducible assumption | intro _ | with_reducible apply keeps_ite | with_reducible apply updHost_keeps
    | with_reducible apply mqDrop_keeps | with_reducible apply bufRefresh_keeps | with_reducible apply wrN_keeps
    | with_reducible apply unpin_keeps | with_reducible apply keeps_foldl | with_reducible apply keeps_foldl_fst
    | with_reducible apply keeps_ite_fst | extract_lets | split | (with_reducible refine keeps_fst (by assumption) ?_)
    | dsimp only [id]

theorem cmdMqDrop_keeps {r0 : State} (s : State) (c : Cmd) (hk : Keeps r0 s) : Keeps r0 (State.cmdMqDrop s c) := by
  unfold State.cmdMqDrop
  repeat' first
    | with_reducible assumption | intro _ | with_reducible apply keeps_ite | with_reducible apply updHost_keeps
    | with_reducible apply mqDrop_keeps | with_reducible apply keeps_foldl | with_reducible apply keeps_foldl_fst
    | with_reducible apply keeps_ite_fst | extract_lets | split | (with_reducible refine keeps_fst (by assumption) ?_)
    | dsimp only [id]

theorem complete_keeps {r0 : State} (s : State) (slot : Nat) (status : Nat) (dw0 : Word) (dw1 : Word) (hk : Keeps r0 s) : Keeps r0
    (State.complete s slot status dw0 dw1) := by
  unfold State.complete
  repeat' first
    | with_reducible assumption | intro _ | with_reducible apply keeps_ite | with_reducible apply cmdMqDrop_keeps
    | with_reducible apply updCmd_keeps | with_reducible apply slotDrop_keeps | with_reducible apply cqPost_keeps
    | with_reducible apply keeps_foldl | with_reducible apply keeps_foldl_fst | with_reducible apply keeps_ite_fst | extract_lets
    | split | (with_reducible refine keeps_fst (by assumption) ?_) | simp only [keeps_mk] | dsimp only [id]

theorem abortWork_keeps {r0 : State} (s : State) (c : Cmd) (hk : Keeps r0 s) : Keeps r0 (State.abortWork s c) := by
  unfold State.abortWork
  repeat' first
    | with_reducible assumption | intro _ | with_reducible apply keeps_ite | with_reducible apply updHost_keeps
    | with_reducible apply cmdMqDrop_keeps | with_reducible apply mqRefresh_keeps | with_reducible apply updAct_keeps
    | with_reducible apply endWork_keeps | with_reducible apply chaffSlot_keeps | with_reducible apply updPool_keeps
    | with_reducible apply bufRefresh_keeps | with_reducible apply unpin_keeps | with_reducible apply updCmd_keeps
    | with_reducible apply keeps_foldl | with_reducible apply keeps_foldl_fst | with_reducible apply keeps_ite_fst | extract_lets
    | split | (with_reducible refine keeps_fst (by assumption) ?_) | dsimp only [id]

theorem failActs_keeps {r0 : State} (s : State) (n : Nat) (status : Nat) (hk : Keeps r0 s) : Keeps r0 (State.failActs s n status) := by
  unfold State.failActs
  repeat' first
    | with_reducible assumption | intro _ | with_reducible apply keeps_ite | with_reducible apply complete_keeps
    | with_reducible apply abortWork_keeps | with_reducible apply keeps_foldl | with_reducible apply keeps_foldl_fst
    | with_reducible apply keeps_ite_fst | extract_lets | split | (with_reducible refine keeps_fst (by assumption) ?_)
    | dsimp only [id]

theorem failHeld_keeps {r0 : State} (s : State) (hk : Keeps r0 s) : Keeps r0 (State.failHeld s) := by
  unfold State.failHeld
  repeat' first
    | with_reducible assumption | intro _ | with_reducible apply keeps_ite | with_reducible apply failActs_keeps
    | with_reducible apply keeps_foldl | with_reducible apply keeps_foldl_fst | with_reducible apply keeps_ite_fst | extract_lets
    | split | (with_reducible refine keeps_fst (by assumption) ?_) | dsimp only [id]

theorem raise_keeps {r0 : State} (s : State) (ftype : Nat) (inst : Nat) (info : Word) (injected : Bool) (hk : Keeps r0 s) : Keeps r0
    (State.raise s ftype inst info injected) := by
  unfold State.raise
  repeat' first
    | with_reducible assumption | intro _ | with_reducible apply keeps_ite | with_reducible apply failHeld_keeps
    | with_reducible apply detect_keeps | with_reducible apply keeps_foldl | with_reducible apply keeps_foldl_fst
    | with_reducible apply keeps_ite_fst | extract_lets | split | (with_reducible refine keeps_fst (by assumption) ?_)
    | dsimp only [id]

theorem aerServe_keeps {r0 : State} (s : State) (fuel : Nat) (hk : Keeps r0 s) : Keeps r0 (State.aerServe s fuel) := by
  induction fuel generalizing s with
  | zero =>
    unfold State.aerServe
    repeat' first
      | with_reducible assumption | intro _ | with_reducible apply keeps_ite | with_reducible apply updHost_keeps
      | with_reducible apply complete_keeps | with_reducible apply keeps_foldl | with_reducible apply keeps_foldl_fst
      | with_reducible apply keeps_ite_fst | extract_lets | split | (with_reducible refine keeps_fst (by assumption) ?_)
      | dsimp only [id]
  | succ n ih =>
    unfold State.aerServe
    repeat' first
      | with_reducible assumption | intro _ | with_reducible apply keeps_ite | with_reducible apply updHost_keeps
      | with_reducible apply complete_keeps | with_reducible apply ih | with_reducible apply keeps_foldl
      | with_reducible apply keeps_foldl_fst | with_reducible apply keeps_ite_fst | extract_lets | split
      | (with_reducible refine keeps_fst (by assumption) ?_) | dsimp only [id]

theorem event_keeps {r0 : State} (s : State) (typ : Nat) (info : Nat) (log : Nat) (hk : Keeps r0 s) : Keeps r0 (State.event s typ info
    log) := by
  unfold State.event
  repeat' first
    | with_reducible assumption | intro _ | with_reducible apply keeps_ite | with_reducible apply aerServe_keeps
    | with_reducible apply updHost_keeps | with_reducible apply keeps_foldl | with_reducible apply keeps_foldl_fst
    | with_reducible apply keeps_ite_fst | extract_lets | split | (with_reducible refine keeps_fst (by assumption) ?_)
    | dsimp only [id]

theorem stage_keeps {r0 : State} (s : State) (n : Nat) (k : Nat) (hk : Keeps r0 s) : Keeps r0 (State.stage s n k) := by
  unfold State.stage
  repeat' first
    | with_reducible assumption | intro _ | with_reducible apply keeps_ite | with_reducible apply updLed_keeps
    | with_reducible apply wrN_keeps | with_reducible apply raise_keeps | with_reducible apply keeps_foldl
    | with_reducible apply keeps_foldl_fst | with_reducible apply keeps_ite_fst | extract_lets | split
    | (with_reducible refine keeps_fst (by assumption) ?_) | dsimp only [id]

theorem lostAdd_keeps {r0 : State} (s : State) (n : Nat) (conv : Bool) (first : Nat) (count : Nat) (cause : Nat) (hk : Keeps r0 s) :
    Keeps r0 (State.lostAdd s n conv first count cause) := by
  unfold State.lostAdd
  repeat' first
    | with_reducible assumption | intro _ | with_reducible apply keeps_ite | with_reducible apply stage_keeps
    | with_reducible apply updLed_keeps | with_reducible apply keeps_foldl | with_reducible apply keeps_foldl_fst
    | with_reducible apply keeps_ite_fst | extract_lets | split | (with_reducible refine keeps_fst (by assumption) ?_)
    | dsimp only [id]

theorem lostRemove_keeps {r0 : State} (s : State) (n : Nat) (conv : Bool) (first : Nat) (count : Nat) (hk : Keeps r0 s) : Keeps r0
    (State.lostRemove s n conv first count) := by
  unfold State.lostRemove
  repeat' first
    | with_reducible assumption | intro _ | with_reducible apply keeps_ite | with_reducible apply updAct_keeps
    | with_reducible apply stage_keeps | with_reducible apply updLed_keeps | with_reducible apply keeps_foldl
    | with_reducible apply keeps_foldl_fst | with_reducible apply keeps_ite_fst | extract_lets | split
    | (with_reducible refine keeps_fst (by assumption) ?_) | dsimp only [id]

theorem zoneRefresh_keeps {r0 : State} (s : State) (n : Nat) (hk : Keeps r0 s) : Keeps r0 (State.zoneRefresh s n) := by
  unfold State.zoneRefresh
  repeat' first
    | with_reducible assumption | intro _ | with_reducible apply keeps_ite | with_reducible apply wrN_keeps
    | with_reducible apply keeps_foldl | with_reducible apply keeps_foldl_fst | with_reducible apply keeps_ite_fst | extract_lets
    | split | (with_reducible refine keeps_fst (by assumption) ?_) | dsimp only [id]

theorem setZone_keeps {r0 : State} (s : State) (n : Nat) (z : Nat) (f : ZoneSt → ZoneSt) (hk : Keeps r0 s) : Keeps r0 (State.setZone s n
    z f) := by
  unfold State.setZone
  repeat' first
    | with_reducible assumption | intro _ | with_reducible apply keeps_ite | with_reducible apply zoneRefresh_keeps
    | with_reducible apply updLed_keeps | with_reducible apply keeps_foldl | with_reducible apply keeps_foldl_fst
    | with_reducible apply keeps_ite_fst | extract_lets | split | (with_reducible refine keeps_fst (by assumption) ?_)
    | dsimp only [id]

theorem zoneMap_keeps {r0 : State} (s : State) (n : Nat) (z : Nat) (m : Nat) (hk : Keeps r0 s) : Keeps r0 (State.zoneMap s n z m) := by
  unfold State.zoneMap
  repeat' first
    | with_reducible assumption | intro _ | with_reducible apply keeps_ite | with_reducible apply stage_keeps
    | with_reducible apply setZone_keeps | with_reducible apply keeps_foldl | with_reducible apply keeps_foldl_fst
    | with_reducible apply keeps_ite_fst | extract_lets | split | (with_reducible refine keeps_fst (by assumption) ?_)
    | dsimp only [id]

theorem eraseZone_keeps {r0 : State} (s : State) (n : Nat) (z : Nat) (prio : Nat) (hk : Keeps r0 s) : Keeps r0 (State.eraseZone s n z
    prio) := by
  unfold State.eraseZone
  repeat' first
    | with_reducible assumption | intro _ | with_reducible apply keeps_ite | with_reducible apply mqRefresh_keeps
    | with_reducible apply updHost_keeps | with_reducible apply updAct_keeps | with_reducible apply mqWait_keeps
    | with_reducible apply keeps_foldl | with_reducible apply keeps_foldl_fst | with_reducible apply keeps_ite_fst | extract_lets
    | split | (with_reducible refine keeps_fst (by assumption) ?_) | dsimp only [id]

theorem eraseNext_keeps {r0 : State} (s : State) (n : Nat) (hk : Keeps r0 s) : Keeps r0 (State.eraseNext s n) := by
  unfold State.eraseNext
  repeat' first
    | with_reducible assumption | intro _ | with_reducible apply keeps_ite | with_reducible apply eraseZone_keeps
    | with_reducible apply keeps_foldl | with_reducible apply keeps_foldl_fst | with_reducible apply keeps_ite_fst | extract_lets
    | split | (with_reducible refine keeps_fst (by assumption) ?_) | dsimp only [id]

theorem accRebuild_keeps {r0 : State} (s : State) (n : Nat) (z : Nat) (prio : Nat) (hk : Keeps r0 s) : Keeps r0 (State.accRebuild s n z
    prio) := by
  unfold State.accRebuild
  repeat' first
    | with_reducible assumption | intro _ | with_reducible apply keeps_ite | with_reducible apply mqRefresh_keeps
    | with_reducible apply updHost_keeps | with_reducible apply updAct_keeps | with_reducible apply mqWait_keeps
    | with_reducible apply keeps_foldl | with_reducible apply keeps_foldl_fst | with_reducible apply keeps_ite_fst | extract_lets
    | split | (with_reducible refine keeps_fst (by assumption) ?_) | dsimp only [id]

theorem queueSpares_keeps {r0 : State} (s : State) (n : Nat) (z : Nat) (hk : Keeps r0 s) : Keeps r0 (State.queueSpares s n z) := by
  unfold State.queueSpares
  repeat' first
    | with_reducible assumption | intro _ | with_reducible apply keeps_ite | with_reducible apply accRebuild_keeps
    | with_reducible apply mqWait_keeps | with_reducible apply keeps_foldl | with_reducible apply keeps_foldl_fst
    | with_reducible apply keeps_ite_fst | extract_lets | split | (with_reducible refine keeps_fst (by assumption) ?_)
    | dsimp only [id]

theorem zoneFull_keeps {r0 : State} (s : State) (n : Nat) (z : Nat) (hk : Keeps r0 s) : Keeps r0 (State.zoneFull s n z) := by
  unfold State.zoneFull
  repeat' first
    | with_reducible assumption | intro _ | with_reducible apply keeps_ite | with_reducible apply setZone_keeps
    | with_reducible apply queueSpares_keeps | with_reducible apply keeps_foldl | with_reducible apply keeps_foldl_fst
    | with_reducible apply keeps_ite_fst | extract_lets | split | (with_reducible refine keeps_fst (by assumption) ?_)
    | dsimp only [id]

theorem gapFill_keeps {r0 : State} (s : State) (n : Nat) (z : Nat) (prio : Nat) (hk : Keeps r0 s) : Keeps r0 (State.gapFill s n z prio)
    := by
  unfold State.gapFill
  repeat' first
    | with_reducible assumption | intro _ | with_reducible apply keeps_ite | with_reducible apply mqWait_keeps
    | with_reducible apply keeps_foldl | with_reducible apply keeps_foldl_fst | with_reducible apply keeps_ite_fst | extract_lets
    | split | (with_reducible refine keeps_fst (by assumption) ?_) | dsimp only [id]

theorem zoneErase_keeps {r0 : State} (s : State) (n : Nat) (z : Nat) (hk : Keeps r0 s) : Keeps r0 (State.zoneErase s n z) := by
  unfold State.zoneErase
  repeat' first
    | with_reducible assumption | intro _ | with_reducible apply keeps_ite | with_reducible apply updLed_keeps
    | with_reducible apply stage_keeps | with_reducible apply lostRemove_keeps | with_reducible apply setZone_keeps
    | with_reducible apply updAct_keeps | with_reducible apply mqDrop_keeps | with_reducible apply updHost_keeps
    | with_reducible apply updPool_keeps | with_reducible apply eraseNext_keeps | with_reducible apply keeps_foldl
    | with_reducible apply keeps_foldl_fst | with_reducible apply keeps_ite_fst | extract_lets | split
    | (with_reducible refine keeps_fst (by assumption) ?_) | dsimp only [id]

theorem zoneParity_keeps {r0 : State} (s : State) (n : Nat) (z : Nat) (hk : Keeps r0 s) : Keeps r0 (State.zoneParity s n z) := by
  unfold State.zoneParity
  repeat' first
    | with_reducible assumption | intro _ | with_reducible apply keeps_ite | with_reducible apply mqWait_keeps
    | with_reducible apply keeps_foldl | with_reducible apply keeps_foldl_fst | with_reducible apply keeps_ite_fst | extract_lets
    | split | (with_reducible refine keeps_fst (by assumption) ?_) | dsimp only [id]

theorem parityRefresh_keeps {r0 : State} (s : State) (n : Nat) (hk : Keeps r0 s) : Keeps r0 (State.parityRefresh s n) := by
  unfold State.parityRefresh
  repeat' first
    | with_reducible assumption | intro _ | with_reducible apply keeps_ite | with_reducible apply wrN_keeps
    | with_reducible apply mqWait_keeps | with_reducible apply keeps_foldl | with_reducible apply keeps_foldl_fst
    | with_reducible apply keeps_ite_fst | extract_lets | split | (with_reducible refine keeps_fst (by assumption) ?_)
    | dsimp only [id]

theorem parityStale_keeps {r0 : State} (s : State) (n : Nat) (key : Nat) (hk : Keeps r0 s) : Keeps r0 (State.parityStale s n key) := by
  unfold State.parityStale
  repeat' first
    | with_reducible assumption | intro _ | with_reducible apply keeps_ite | with_reducible apply updAct_keeps
    | with_reducible apply mqDrop_keeps | with_reducible apply updHost_keeps | with_reducible apply parityRefresh_keeps
    | with_reducible apply keeps_foldl | with_reducible apply keeps_foldl_fst | with_reducible apply keeps_ite_fst | extract_lets
    | split | (with_reducible refine keeps_fst (by assumption) ?_) | dsimp only [id]

theorem settleZones_keeps {r0 : State} (s : State) (hk : Keeps r0 s) : Keeps r0 (State.settleZones s) := by
  unfold State.settleZones
  repeat' first
    | with_reducible assumption | intro _ | with_reducible apply keeps_ite | with_reducible apply zoneErase_keeps
    | with_reducible apply mqDrop_keeps | with_reducible apply updHost_keeps | with_reducible apply updCmd_keeps
    | with_reducible apply accRebuild_keeps | with_reducible apply zoneParity_keeps | with_reducible apply zoneMap_keeps
    | with_reducible apply keeps_foldl | with_reducible apply keeps_foldl_fst | with_reducible apply keeps_ite_fst | extract_lets
    | split | (with_reducible refine keeps_fst (by assumption) ?_) | dsimp only [id]

theorem settle_keeps {r0 : State} (s : State) (hk : Keeps r0 s) : Keeps r0 (State.settle s) := by
  unfold State.settle
  repeat' first
    | with_reducible assumption | intro _ | with_reducible apply keeps_ite | with_reducible apply settleZones_keeps
    | with_reducible apply failHeld_keeps | with_reducible apply updCmd_keeps | with_reducible apply complete_keeps
    | with_reducible apply keeps_foldl | with_reducible apply keeps_foldl_fst | with_reducible apply keeps_ite_fst | extract_lets
    | split | (with_reducible refine keeps_fst (by assumption) ?_) | dsimp only [id]

theorem parityRead_keeps {r0 : State} (s : State) (n : Nat) (x : MqEntry) (k : Nat) (t : Nat) (seg : Nat) (hk : Keeps r0 s) : Keeps r0
    (State.parityRead s n x k t seg) := by
  unfold State.parityRead
  repeat' first
    | with_reducible assumption | intro _ | with_reducible apply keeps_ite | with_reducible apply mqWait_keeps
    | with_reducible apply parityRefresh_keeps | with_reducible apply updAct_keeps | with_reducible apply settle_keeps
    | with_reducible apply keeps_foldl | with_reducible apply keeps_foldl_fst | with_reducible apply keeps_ite_fst | extract_lets
    | split | (with_reducible refine keeps_fst (by assumption) ?_) | dsimp only [id]

theorem tagIn_keeps {r0 : State} (s : State) (cls inst : Nat) (good bad : State → State) (hgood : ∀ x, Keeps r0 x → Keeps r0 (good x))
    (hbad : ∀ x, Keeps r0 x → Keeps r0 (bad x)) (hk : Keeps r0 s) : Keeps r0 (State.tagIn s cls inst good bad) := by
  unfold State.tagIn
  split
  · exact hbad _ (raise_keeps _ _ _ _ _ (injTake_keeps (by assumption) hk))
  · exact hgood _ hk

theorem sampleIn_keeps {r0 : State} (s : State) (t : Tag) (good : State → State) (bad : State → State) (hgood : ∀ (x0 : State), Keeps r0
    x0 → Keeps r0 (good x0)) (hbad : ∀ (x0 : State), Keeps r0 x0 → Keeps r0 (bad x0)) (hk : Keeps r0 s) : Keeps r0 (State.sampleIn s t
    good bad) := by
  unfold State.sampleIn
  repeat' first
    | with_reducible assumption | intro _ | apply hgood | apply hbad | with_reducible apply keeps_ite
    | with_reducible apply tagIn_keeps | with_reducible apply keeps_foldl | with_reducible apply keeps_foldl_fst
    | with_reducible apply keeps_ite_fst | extract_lets | split | (with_reducible refine keeps_fst (by assumption) ?_)
    | dsimp only [id]

theorem badGrain_keeps {r0 : State} (s : State) (ftype : Nat) (inst : Nat) (g : BufGrain) (inj : Bool) (hk : Keeps r0 s) : Keeps r0
    (State.badGrain s ftype inst g inj) := by
  unfold State.badGrain
  repeat' first
    | with_reducible assumption | intro _ | with_reducible apply keeps_ite | with_reducible apply raise_keeps
    | with_reducible apply bufRefresh_keeps | with_reducible apply lostAdd_keeps | with_reducible apply complete_keeps
    | with_reducible apply updHost_keeps | with_reducible apply mqRefresh_keeps | with_reducible apply updAct_keeps
    | with_reducible apply putGrain_keeps | with_reducible apply keeps_foldl | with_reducible apply keeps_foldl_fst
    | with_reducible apply keeps_ite_fst | extract_lets | split | (with_reducible refine keeps_fst (by assumption) ?_)
    | simp only [keeps_mk] | dsimp only [id]

theorem deliver_keeps {r0 : State} (s : State) (g : Grain) (hk : Keeps r0 s) : Keeps r0 (State.deliver s g) := by
  unfold State.deliver
  repeat' first
    | with_reducible assumption | intro _ | with_reducible apply keeps_ite | with_reducible apply bump_keeps
    | with_reducible apply tagIn_keeps | with_reducible apply emit_keeps | with_reducible apply settle_keeps
    | with_reducible apply updCmd_keeps | with_reducible apply complete_keeps | with_reducible apply keeps_foldl
    | with_reducible apply keeps_foldl_fst | with_reducible apply keeps_ite_fst | extract_lets | split
    | (with_reducible refine keeps_fst (by assumption) ?_) | dsimp only [id]

theorem noticeRefresh_keeps {r0 : State} (s : State) (hk : Keeps r0 s) : Keeps r0 (State.noticeRefresh s) := by
  unfold State.noticeRefresh
  repeat' first
    | with_reducible assumption | intro _ | with_reducible apply keeps_ite | with_reducible apply wrN_keeps
    | with_reducible apply keeps_foldl | with_reducible apply keeps_foldl_fst | with_reducible apply keeps_ite_fst | extract_lets
    | split | (with_reducible refine keeps_fst (by assumption) ?_) | dsimp only [id]

theorem capFree_keeps {r0 : State} (s : State) (n : Nat) (c : Option Nat) (hk : Keeps r0 s) : Keeps r0 (State.capFree s n c) := by
  unfold State.capFree
  repeat' first
    | with_reducible assumption | intro _ | with_reducible apply keeps_ite | with_reducible apply capsFree_keeps
    | with_reducible apply keeps_foldl | with_reducible apply keeps_foldl_fst | with_reducible apply keeps_ite_fst | extract_lets
    | split | (with_reducible refine keeps_fst (by assumption) ?_) | dsimp only [id]

theorem releaseNotices_keeps {r0 : State} (s : State) (n : Nat) (ep : BitVec 16) (hk : Keeps r0 s) : Keeps r0 (State.releaseNotices s n
    ep) := by
  unfold State.releaseNotices
  repeat' first
    | with_reducible assumption | intro _ | with_reducible apply keeps_ite | with_reducible apply noticeRefresh_keeps
    | with_reducible apply updPool_keeps | with_reducible apply wrN_keeps | with_reducible apply keeps_foldl
    | with_reducible apply keeps_foldl_fst | with_reducible apply keeps_ite_fst | extract_lets | split
    | (with_reducible refine keeps_fst (by assumption) ?_) | dsimp only [id]

theorem rxSeq_keeps {r0 : State} (s : State) (h : Nat) (sid : Nat) (side : Nat) (seq : BitVec 10) (hk : Keeps r0 s) : Keeps r0
    (State.rxSeq s h sid side seq) := by
  unfold State.rxSeq
  repeat' first
    | with_reducible assumption | intro _ | with_reducible apply keeps_ite | with_reducible apply bump_keeps
    | with_reducible apply updPort_keeps | with_reducible apply keeps_foldl | with_reducible apply keeps_foldl_fst
    | with_reducible apply keeps_ite_fst | extract_lets | split | (with_reducible refine keeps_fst (by assumption) ?_)
    | dsimp only [id]

theorem rxBad_keeps {r0 : State} (s : State) (h : Nat) (hk : Keeps r0 s) : Keeps r0 (State.rxBad s h) := by
  unfold State.rxBad
  repeat' first
    | with_reducible assumption | intro _ | with_reducible apply keeps_ite | with_reducible apply bump_keeps
    | with_reducible apply keeps_foldl | with_reducible apply keeps_foldl_fst | with_reducible apply keeps_ite_fst | extract_lets
    | split | (with_reducible refine keeps_fst (by assumption) ?_) | dsimp only [id]

theorem rxCtl_keeps {r0 : State} (s : State) (h : Nat) (side : Nat) (op : Nat) (hdr : UpHdr) (operands : List Nat) (act : State → State)
    (hact : ∀ (x0 : State), Keeps r0 x0 → Keeps r0 (act x0)) (hk : Keeps r0 s) : Keeps r0 (State.rxCtl s h side op hdr operands act) :=
    by
  unfold State.rxCtl
  repeat' first
    | with_reducible assumption | intro _ | apply hact | with_reducible apply keeps_ite | with_reducible apply rxSeq_keeps
    | with_reducible apply trace_keeps | with_reducible apply bump_keeps | with_reducible apply keeps_foldl
    | with_reducible apply keeps_foldl_fst | with_reducible apply keeps_ite_fst | extract_lets | split
    | (with_reducible refine keeps_fst (by assumption) ?_) | dsimp only [id]

theorem attempt_keeps {r0 : State} (s : State) (h : Nat) (hk : Keeps r0 s) : Keeps r0 (State.attempt s h) := by
  unfold State.attempt
  repeat' first
    | with_reducible assumption | intro _ | with_reducible apply keeps_ite | with_reducible apply flashEnd_keeps
    | with_reducible apply lanesIdle_keeps | with_reducible apply wr_keeps | with_reducible apply bump_keeps
    | with_reducible apply updPort_keeps | with_reducible apply trace_keeps | with_reducible apply keeps_foldl
    | with_reducible apply keeps_foldl_fst | with_reducible apply keeps_ite_fst | extract_lets | split
    | (with_reducible refine keeps_fst (by assumption) ?_) | dsimp only [id]

theorem attemptFail_keeps {r0 : State} (s : State) (h : Nat) (hk : Keeps r0 s) : Keeps r0 (State.attemptFail s h) := by
  unfold State.attemptFail
  repeat' first
    | with_reducible assumption | intro _ | with_reducible apply keeps_ite | with_reducible apply updPort_keeps
    | with_reducible apply lanesIdle_keeps | with_reducible apply wr_keeps | with_reducible apply trace_keeps
    | with_reducible apply attempt_keeps | with_reducible apply raise_keeps | with_reducible apply keeps_foldl
    | with_reducible apply keeps_foldl_fst | with_reducible apply keeps_ite_fst | extract_lets | split
    | (with_reducible refine keeps_fst (by assumption) ?_) | dsimp only [id]

theorem eqLane_keeps {r0 : State} (s : State) (h : Nat) (i : Nat) (hk : Keeps r0 s) : Keeps r0 (State.eqLane s h i) := by
  unfold State.eqLane
  repeat' first
    | with_reducible assumption | intro _ | with_reducible apply keeps_ite | with_reducible apply tick_keeps
    | with_reducible apply wrAt_keeps | with_reducible apply keeps_foldl | with_reducible apply keeps_foldl_fst
    | with_reducible apply keeps_ite_fst | extract_lets | split | (with_reducible refine keeps_fst (by assumption) ?_)
    | dsimp only [id]

theorem deskewLane_keeps {r0 : State} (s : State) (h : Nat) (i : Nat) (hk : Keeps r0 s) : Keeps r0 (State.deskewLane s h i) := by
  unfold State.deskewLane
  repeat' first
    | with_reducible assumption | intro _ | with_reducible apply keeps_ite | with_reducible apply tick_keeps
    | with_reducible apply wrAt_keeps | with_reducible apply keeps_foldl | with_reducible apply keeps_foldl_fst
    | with_reducible apply keeps_ite_fst | extract_lets | split | (with_reducible refine keeps_fst (by assumption) ?_)
    | dsimp only [id]

theorem trainOut_keeps {r0 : State} (s : State) (h : Nat) (from_ : Nat) (to_ : Nat) (tstate : Nat) (hk : Keeps r0 s) : Keeps r0
    (State.trainOut s h from_ to_ tstate) := by
  unfold State.trainOut
  repeat' first
    | with_reducible assumption | intro _ | with_reducible apply keeps_ite | with_reducible apply emit_keeps
    | with_reducible apply keeps_foldl | with_reducible apply keeps_foldl_fst | with_reducible apply keeps_ite_fst | extract_lets
    | split | (with_reducible refine keeps_fst (by assumption) ?_) | dsimp only [id]

theorem unbind_keeps {r0 : State} (s : State) (h : Nat) (cause : Nat) (hk : Keeps r0 s) : Keeps r0 (State.unbind s h cause) := by
  unfold State.unbind
  repeat' first
    | with_reducible assumption | intro _ | with_reducible apply keeps_ite | with_reducible apply wrAt_keeps
    | with_reducible apply lanesIdle_keeps | with_reducible apply wrBit_keeps | with_reducible apply raise_keeps
    | with_reducible apply audit_keeps | with_reducible apply updAct_keeps | with_reducible apply keeps_foldl
    | with_reducible apply keeps_foldl_fst | with_reducible apply keeps_ite_fst | extract_lets | split
    | (with_reducible refine keeps_fst (by assumption) ?_) | simp only [keeps_mk] | dsimp only [id]

theorem readCopy_keeps {r0 : State} (s : State) (h : Nat) (copy : Nat) (b : List Byte) (hk : Keeps r0 s) : Keeps r0 (State.readCopy s h
    copy b) := by
  unfold State.readCopy
  repeat' first
    | with_reducible assumption | intro _ | with_reducible apply keeps_ite | with_reducible apply ctl_keeps
    | with_reducible apply keeps_foldl | with_reducible apply keeps_foldl_fst | with_reducible apply keeps_ite_fst | extract_lets
    | split | (with_reducible refine keeps_fst (by assumption) ?_) | dsimp only [id]

theorem portUp_keeps {r0 : State} (s : State) (h : Nat) (d : Desc) (hk : Keeps r0 s) : Keeps r0 (State.portUp s h d) := by
  unfold State.portUp
  repeat' first
    | with_reducible assumption | intro _ | with_reducible apply keeps_ite | with_reducible apply updPort_keeps
    | with_reducible apply wrAt_keeps | with_reducible apply wr_keeps | with_reducible apply wrB_keeps
    | with_reducible apply safeHigh_keeps | with_reducible apply trace_keeps | with_reducible apply keeps_foldl
    | with_reducible apply keeps_foldl_fst | with_reducible apply keeps_ite_fst | extract_lets | split
    | (with_reducible refine keeps_fst (by assumption) ?_) | simp only [keeps_mk] | dsimp only [id]

theorem lose_keeps {r0 : State} (s : State) (h : Nat) (cause : Nat) (hk : Keeps r0 s) : Keeps r0 (State.lose s h cause) := by
  unfold State.lose
  repeat' first
    | with_reducible assumption | intro _ | with_reducible apply keeps_ite | with_reducible apply lanesIdle_keeps
    | with_reducible apply wr_keeps | with_reducible apply endWork_keeps | with_reducible apply chaffAll_keeps
    | with_reducible apply gateClose_keeps | with_reducible apply updAct_keeps | with_reducible apply hdaLoopsSafe_keeps
    | with_reducible apply spindleCoast_keeps | with_reducible apply wrN_keeps | with_reducible apply bump_keeps
    | with_reducible apply flashEnd_keeps | with_reducible apply updPort_keeps | with_reducible apply raise_keeps
    | with_reducible apply keeps_foldl | with_reducible apply keeps_foldl_fst | with_reducible apply keeps_ite_fst | extract_lets
    | split | (with_reducible refine keeps_fst (by assumption) ?_) | simp only [keeps_mk] | dsimp only [id]

theorem linkDown_keeps {r0 : State} (s : State) (h : Nat) (hk : Keeps r0 s) : Keeps r0 (State.linkDown s h) := by
  unfold State.linkDown
  repeat' first
    | with_reducible assumption | intro _ | with_reducible apply keeps_ite | with_reducible apply lose_keeps
    | with_reducible apply wr_keeps | with_reducible apply lanesIdle_keeps | with_reducible apply updPort_keeps
    | with_reducible apply keeps_foldl | with_reducible apply keeps_foldl_fst | with_reducible apply keeps_ite_fst | extract_lets
    | split | (with_reducible refine keeps_fst (by assumption) ?_) | dsimp only [id]

theorem flashWord_keeps {r0 : State} (s : State) (h : Nat) (m : Nat) (hk : Keeps r0 s) : Keeps r0 (State.flashWord s h m) := by
  unfold State.flashWord
  repeat' first
    | with_reducible assumption | intro _ | with_reducible apply keeps_ite | with_reducible apply ctl_keeps
    | with_reducible apply dmaReadViol_keeps | with_reducible apply keeps_foldl | with_reducible apply keeps_foldl_fst
    | with_reducible apply keeps_ite_fst | extract_lets | split | (with_reducible refine keeps_fst (by assumption) ?_)
    | dsimp only [id]

theorem flash_keeps {r0 : State} (s : State) (h : Nat) (cmd : Nat) (hk : Keeps r0 s) : Keeps r0 (State.flash s h cmd) := by
  unfold State.flash
  repeat' first
    | with_reducible assumption | intro _ | with_reducible apply keeps_ite | with_reducible apply wr_keeps
    | with_reducible apply updPort_keeps | with_reducible apply ctl_keeps | with_reducible apply flashWord_keeps
    | with_reducible apply keeps_foldl | with_reducible apply keeps_foldl_fst | with_reducible apply keeps_ite_fst | extract_lets
    | split | (with_reducible refine keeps_fst (by assumption) ?_) | dsimp only [id]

theorem hdaTemp_keeps {r0 : State} (s : State) (h : Nat) (t : Int) (hk : Keeps r0 s) : Keeps r0 (State.hdaTemp s h t) := by
  unfold State.hdaTemp
  repeat' first
    | with_reducible assumption | intro _ | with_reducible apply keeps_ite | with_reducible apply wrN_keeps
    | with_reducible apply keeps_foldl | with_reducible apply keeps_foldl_fst | with_reducible apply keeps_ite_fst | extract_lets
    | split | (with_reducible refine keeps_fst (by assumption) ?_) | dsimp only [id]

theorem credit_keeps {r0 : State} (s : State) (h : Nat) (sid : Nat) (side : Nat) (n : Nat) (hk : Keeps r0 s) : Keeps r0 (State.credit s
    h sid side n) := by
  unfold State.credit
  repeat' first
    | with_reducible assumption | intro _ | with_reducible apply keeps_ite | with_reducible apply wrN_keeps
    | with_reducible apply wrtDrain_keeps | with_reducible apply ctlDrain_keeps | with_reducible apply keeps_foldl
    | with_reducible apply keeps_foldl_fst | with_reducible apply keeps_ite_fst | extract_lets | split
    | (with_reducible refine keeps_fst (by assumption) ?_) | dsimp only [id]

theorem switchEnd_keeps {r0 : State} (s : State) (h : Nat) (hk : Keeps r0 s) : Keeps r0 (State.switchEnd s h) := by
  unfold State.switchEnd
  repeat' first
    | with_reducible assumption | intro _ | with_reducible apply keeps_ite | with_reducible apply updPort_keeps
    | with_reducible apply wrN_keeps | with_reducible apply keeps_foldl | with_reducible apply keeps_foldl_fst
    | with_reducible apply keeps_ite_fst | extract_lets | split | (with_reducible refine keeps_fst (by assumption) ?_)
    | dsimp only [id]

theorem switchAt_keeps {r0 : State} (s : State) (h : Nat) (upward : Bool) (seq : Word) (hk : Keeps r0 s) : Keeps r0 (State.switchAt s h
    upward seq) := by
  unfold State.switchAt
  repeat' first
    | with_reducible assumption | intro _ | with_reducible apply keeps_ite | with_reducible apply switchEnd_keeps
    | with_reducible apply updPort_keeps | with_reducible apply keeps_foldl | with_reducible apply keeps_foldl_fst
    | with_reducible apply keeps_ite_fst | extract_lets | split | (with_reducible refine keeps_fst (by assumption) ?_)
    | dsimp only [id]

theorem laneSwitch_keeps {r0 : State} (s : State) (h : Nat) (k : Nat) (hk : Keeps r0 s) : Keeps r0 (State.laneSwitch s h k) := by
  unfold State.laneSwitch
  repeat' first
    | with_reducible assumption | intro _ | with_reducible apply keeps_ite | with_reducible apply updPort_keeps
    | with_reducible apply ctl_keeps | with_reducible apply keeps_foldl | with_reducible apply keeps_foldl_fst
    | with_reducible apply keeps_ite_fst | extract_lets | split | (with_reducible refine keeps_fst (by assumption) ?_)
    | dsimp only [id]

theorem laneSet_keeps {r0 : State} (s : State) (h : Nat) (four : Bool) (hk : Keeps r0 s) : Keeps r0 (State.laneSet s h four) := by
  unfold State.laneSet
  repeat' first
    | with_reducible assumption | intro _ | with_reducible apply keeps_ite | with_reducible apply updPort_keeps
    | with_reducible apply trainOut_keeps | with_reducible apply ctl_keeps | with_reducible apply laneSwitch_keeps
    | with_reducible apply keeps_foldl | with_reducible apply keeps_foldl_fst | with_reducible apply keeps_ite_fst | extract_lets
    | split | (with_reducible refine keeps_fst (by assumption) ?_) | dsimp only [id]

theorem laneFail_keeps {r0 : State} (s : State) (h : Nat) (hk : Keeps r0 s) : Keeps r0 (State.laneFail s h) := by
  unfold State.laneFail
  repeat' first
    | with_reducible assumption | intro _ | with_reducible apply keeps_ite | with_reducible apply wrN_keeps
    | with_reducible apply wr_keeps | with_reducible apply raise_keeps | with_reducible apply updPort_keeps
    | with_reducible apply keeps_foldl | with_reducible apply keeps_foldl_fst | with_reducible apply keeps_ite_fst | extract_lets
    | split | (with_reducible refine keeps_fst (by assumption) ?_) | dsimp only [id]

theorem portTick_keeps {r0 : State} (s : State) (h : Nat) (hk : Keeps r0 s) : Keeps r0 (State.portTick s h) := by
  unfold State.portTick
  repeat' first
    | with_reducible assumption | intro _ | with_reducible apply keeps_ite | with_reducible apply updPort_keeps
    | with_reducible apply emit_keeps | with_reducible apply switchAt_keeps | with_reducible apply ctl_keeps
    | with_reducible apply keeps_foldl | with_reducible apply keeps_foldl_fst | with_reducible apply keeps_ite_fst | extract_lets
    | split | (with_reducible refine keeps_fst (by assumption) ?_) | dsimp only [id]

theorem idle_keeps {r0 : State} (s : State) (hk : Keeps r0 s) : Keeps r0 (State.idle s) := by
  unfold State.idle
  repeat' first
    | with_reducible assumption | intro _ | with_reducible apply keeps_ite | with_reducible apply portTick_keeps
    | with_reducible apply keeps_foldl | with_reducible apply keeps_foldl_fst | with_reducible apply keeps_ite_fst | extract_lets
    | split | (with_reducible refine keeps_fst (by assumption) ?_) | dsimp only [id]

theorem loopFeed_keeps {r0 : State} (s : State) (g : Nat) (frame : Word) (hk : Keeps r0 s) : Keeps r0 (State.loopFeed s g frame) := by
  unfold State.loopFeed
  repeat' first
    | with_reducible assumption | intro _ | with_reducible apply keeps_ite | with_reducible apply bump_keeps
    | with_reducible apply updLoop_keeps | with_reducible apply keeps_foldl | with_reducible apply keeps_foldl_fst
    | with_reducible apply keeps_ite_fst | extract_lets | split | (with_reducible refine keeps_fst (by assumption) ?_)
    | dsimp only [id]

theorem tuneEnd_keeps {r0 : State} (s : State) (g : Nat) (st : Nat) (hk : Keeps r0 s) : Keeps r0 (State.tuneEnd s g st) := by
  unfold State.tuneEnd
  repeat' first
    | with_reducible assumption | intro _ | with_reducible apply keeps_ite | with_reducible apply setMode_keeps
    | with_reducible apply wrN_keeps | with_reducible apply trace_keeps | with_reducible apply updLoop_keeps
    | with_reducible apply keeps_foldl | with_reducible apply keeps_foldl_fst | with_reducible apply keeps_ite_fst | extract_lets
    | split | (with_reducible refine keeps_fst (by assumption) ?_) | dsimp only [id]

theorem tuneFinish_keeps {r0 : State} (s : State) (g : Nat) (t : TuneSt) (hk : Keeps r0 s) : Keeps r0 (State.tuneFinish s g t) := by
  unfold State.tuneFinish
  repeat' first
    | with_reducible assumption | intro _ | with_reducible apply keeps_ite | with_reducible apply tuneEnd_keeps
    | with_reducible apply wr_keeps | with_reducible apply wrAt_keeps | with_reducible apply keeps_foldl
    | with_reducible apply keeps_foldl_fst | with_reducible apply keeps_ite_fst | extract_lets | split
    | (with_reducible refine keeps_fst (by assumption) ?_) | dsimp only [id] | dsimp +zetaDelta only

theorem tuneRun_keeps {r0 : State} (s : State) (g : Nat) (t : TuneSt) (err : Word) (ts : Word) (hk : Keeps r0 s) : Keeps r0
    (State.tuneRun s g t err ts) := by
  unfold State.tuneRun
  repeat' first
    | with_reducible assumption | intro _ | with_reducible apply keeps_ite | with_reducible apply wr_keeps
    | with_reducible apply updLoop_keeps | with_reducible apply tuneEnd_keeps | with_reducible apply tuneFinish_keeps
    | with_reducible apply keeps_foldl | with_reducible apply keeps_foldl_fst | with_reducible apply keeps_ite_fst | extract_lets
    | split | (with_reducible refine keeps_fst (by assumption) ?_) | dsimp only [id]

theorem loopExpire_keeps {r0 : State} (s : State) (g : Nat) (cause : Nat) (hk : Keeps r0 s) : Keeps r0 (State.loopExpire s g cause) := by
  unfold State.loopExpire
  repeat' first
    | with_reducible assumption | intro _ | with_reducible apply keeps_ite | with_reducible apply loopSafeAction_keeps
    | with_reducible apply raise_keeps | with_reducible apply bump_keeps | with_reducible apply keeps_foldl
    | with_reducible apply keeps_foldl_fst | with_reducible apply keeps_ite_fst | extract_lets | split
    | (with_reducible refine keeps_fst (by assumption) ?_) | dsimp only [id]

theorem loopTransfer_keeps {r0 : State} (s : State) (g : Nat) (hk : Keeps r0 s) : Keeps r0 (State.loopTransfer s g).1 := by
  unfold State.loopTransfer
  repeat' first
    | with_reducible assumption | intro _ | with_reducible apply keeps_ite | with_reducible apply wr_keeps
    | with_reducible apply trace_keeps | with_reducible apply bump_keeps | with_reducible apply setMode_keeps
    | with_reducible apply updLoop_keeps | with_reducible apply wrN_keeps | with_reducible apply tuneEnd_keeps
    | with_reducible apply keeps_foldl | with_reducible apply keeps_foldl_fst | with_reducible apply keeps_ite_fst | extract_lets
    | split | (with_reducible refine keeps_fst (by assumption) ?_) | dsimp only [id]

theorem laserTrack_keeps {r0 : State} (s : State) (n : Nat) (y : Word) (hk : Keeps r0 s) : Keeps r0 (State.laserTrack s n y) := by
  unfold State.laserTrack
  repeat' first
    | with_reducible assumption | intro _ | with_reducible apply keeps_ite | with_reducible apply updAct_keeps
    | with_reducible apply bump_keeps | with_reducible apply gateClose_keeps | with_reducible apply raise_keeps
    | with_reducible apply wr_keeps | with_reducible apply keeps_foldl | with_reducible apply keeps_foldl_fst
    | with_reducible apply keeps_ite_fst | extract_lets | split | (with_reducible refine keeps_fst (by assumption) ?_)
    | dsimp only [id]

theorem loopStep_keeps {r0 : State} (s : State) (g : Nat) (o : LoopObs) (hk : Keeps r0 s) : Keeps r0 (State.loopStep s g o) := by
  unfold State.loopStep
  repeat' first
    | with_reducible assumption | intro _ | with_reducible apply keeps_ite | with_reducible apply loopTransfer_keeps
    | with_reducible apply wrAt_keeps | with_reducible apply wr_keeps | with_reducible apply bumpWrap_keeps
    | with_reducible apply bump_keeps | with_reducible apply updLoop_keeps | with_reducible apply wrB_keeps
    | with_reducible apply tuneRun_keeps | with_reducible apply loopOut_keeps | with_reducible apply laserTrack_keeps
    | with_reducible apply loopExpire_keeps | with_reducible apply keeps_foldl | with_reducible apply keeps_foldl_fst
    | with_reducible apply keeps_ite_fst | extract_lets | split | (with_reducible refine keeps_fst (by assumption) ?_)
    | dsimp only [id] | dsimp +zetaDelta only

theorem loopInput_keeps {r0 : State} (s : State) (g : Nat) (o : LoopObs) (hk : Keeps r0 s) : Keeps r0 (State.loopInput s g o) := by
  unfold State.loopInput
  repeat' first
    | with_reducible assumption | intro _ | with_reducible apply keeps_ite | with_reducible apply updLoop_keeps
    | with_reducible apply loopExpire_keeps | with_reducible apply loopStep_keeps | with_reducible apply keeps_foldl
    | with_reducible apply keeps_foldl_fst | with_reducible apply keeps_ite_fst | extract_lets | split
    | (with_reducible refine keeps_fst (by assumption) ?_) | dsimp only [id]

theorem loopEnable_keeps {r0 : State} (s : State) (g : Nat) (hk : Keeps r0 s) : Keeps r0 (State.loopEnable s g) := by
  unfold State.loopEnable
  repeat' first
    | with_reducible assumption | intro _ | with_reducible apply keeps_ite | with_reducible apply wrN_keeps
    | with_reducible apply wr_keeps | with_reducible apply updLoop_keeps | with_reducible apply setMode_keeps
    | with_reducible apply loopSafe_keeps | with_reducible apply keeps_foldl | with_reducible apply keeps_foldl_fst
    | with_reducible apply keeps_ite_fst | extract_lets | split | (with_reducible refine keeps_fst (by assumption) ?_)
    | dsimp only [id]

theorem loopDisable_keeps {r0 : State} (s : State) (g : Nat) (hk : Keeps r0 s) : Keeps r0 (State.loopDisable s g) := by
  unfold State.loopDisable
  repeat' first
    | with_reducible assumption | intro _ | with_reducible apply keeps_ite | with_reducible apply wr_keeps
    | with_reducible apply updLoop_keeps | with_reducible apply setMode_keeps | with_reducible apply loopSafeAction_keeps
    | with_reducible apply keeps_foldl | with_reducible apply keeps_foldl_fst | with_reducible apply keeps_ite_fst | extract_lets
    | split | (with_reducible refine keeps_fst (by assumption) ?_) | dsimp only [id]

theorem setTarget_keeps {r0 : State} (s : State) (n : Nat) (small : Bool) (hk : Keeps r0 s) : Keeps r0 (State.setTarget s n small) := by
  unfold State.setTarget
  repeat' first
    | with_reducible assumption | intro _ | with_reducible apply keeps_ite | with_reducible apply wr_keeps
    | with_reducible apply updAct_keeps | with_reducible apply keeps_foldl | with_reducible apply keeps_foldl_fst
    | with_reducible apply keeps_ite_fst | extract_lets | split | (with_reducible refine keeps_fst (by assumption) ?_)
    | dsimp only [id]

theorem feShow_keeps {r0 : State} (s : State) (l : Nat) (f : FeSt) (hk : Keeps r0 s) : Keeps r0 (State.feShow s l f) := by
  unfold State.feShow
  repeat' first
    | with_reducible assumption | intro _ | with_reducible apply keeps_ite | with_reducible apply wr_keeps
    | with_reducible apply updLane_keeps | with_reducible apply keeps_foldl | with_reducible apply keeps_foldl_fst
    | with_reducible apply keeps_ite_fst | extract_lets | split | (with_reducible refine keeps_fst (by assumption) ?_)
    | dsimp only [id]

theorem clkFollow_keeps {r0 : State} (s : State) (n : Nat) (hk : Keeps r0 s) : Keeps r0 (State.clkFollow s n) := by
  unfold State.clkFollow
  repeat' first
    | with_reducible assumption | intro _ | with_reducible apply keeps_ite | with_reducible apply updAct_keeps
    | with_reducible apply ctl_keeps | with_reducible apply keeps_foldl | with_reducible apply keeps_foldl_fst
    | with_reducible apply keeps_ite_fst | extract_lets | split | (with_reducible refine keeps_fst (by assumption) ?_)
    | dsimp only [id]

theorem streamsOff_keeps {r0 : State} (s : State) (n : Nat) (drop : Bool) (hk : Keeps r0 s) : Keeps r0 (State.streamsOff s n drop) := by
  unfold State.streamsOff
  repeat' first
    | with_reducible assumption | intro _ | with_reducible apply keeps_ite | with_reducible apply updPort_keeps
    | with_reducible apply updLane_keeps | with_reducible apply keeps_foldl | with_reducible apply keeps_foldl_fst
    | with_reducible apply keeps_ite_fst | extract_lets | split | (with_reducible refine keeps_fst (by assumption) ?_)
    | dsimp only [id]

theorem headSwitch_keeps {r0 : State} (s : State) (n : Nat) (k : Nat) (hk : Keeps r0 s) : Keeps r0 (State.headSwitch s n k) := by
  unfold State.headSwitch
  repeat' first
    | with_reducible assumption | intro _ | with_reducible apply keeps_ite | with_reducible apply wrN_keeps
    | with_reducible apply wrAt_keeps | with_reducible apply setTarget_keeps | with_reducible apply updAct_keeps
    | with_reducible apply streamsOff_keeps | with_reducible apply tick_keeps | with_reducible apply feShow_keeps
    | with_reducible apply smpCtl_keeps | with_reducible apply keeps_foldl | with_reducible apply keeps_foldl_fst
    | with_reducible apply keeps_ite_fst | extract_lets | split | (with_reducible refine keeps_fst (by assumption) ?_)
    | dsimp only [id]

theorem headBoundary_keeps {r0 : State} (s : State) (n : Nat) (f : Word) (hk : Keeps r0 s) : Keeps r0 (State.headBoundary s n f) := by
  unfold State.headBoundary
  repeat' first
    | with_reducible assumption | intro _ | with_reducible apply keeps_ite | with_reducible apply headSwitch_keeps
    | with_reducible apply keeps_foldl | with_reducible apply keeps_foldl_fst | with_reducible apply keeps_ite_fst | extract_lets
    | split | (with_reducible refine keeps_fst (by assumption) ?_) | dsimp only [id]

theorem rampBoundary_keeps {r0 : State} (s : State) (n : Nat) (hk : Keeps r0 s) : Keeps r0 (State.rampBoundary s n) := by
  unfold State.rampBoundary
  repeat' first
    | with_reducible assumption | intro _ | with_reducible apply keeps_ite | with_reducible apply updAct_keeps
    | with_reducible apply keeps_foldl | with_reducible apply keeps_foldl_fst | with_reducible apply keeps_ite_fst | extract_lets
    | split | (with_reducible refine keeps_fst (by assumption) ?_) | dsimp only [id]

theorem fifoBoundary_keeps {r0 : State} (s : State) (n : Nat) (f : Word) (hk : Keeps r0 s) : Keeps r0 (State.fifoBoundary s n f) := by
  unfold State.fifoBoundary
  repeat' first
    | with_reducible assumption | intro _ | with_reducible apply keeps_ite | with_reducible apply bumpBy_keeps
    | with_reducible apply updAct_keeps | with_reducible apply wrN_keeps | with_reducible apply wrB_keeps
    | with_reducible apply wr_keeps | with_reducible apply setTarget_keeps | with_reducible apply keeps_foldl
    | with_reducible apply keeps_foldl_fst | with_reducible apply keeps_ite_fst | extract_lets | split
    | (with_reducible refine keeps_fst (by assumption) ?_) | dsimp only [id]

theorem loopBoundary_keeps {r0 : State} (s : State) (g : Nat) (hk : Keeps r0 s) : Keeps r0 (State.loopBoundary s g) := by
  unfold State.loopBoundary
  repeat' first
    | with_reducible assumption | intro _ | with_reducible apply keeps_ite | with_reducible apply updLoop_keeps
    | with_reducible apply wr_keeps | with_reducible apply loopOut_keeps | with_reducible apply loopActionEnd_keeps
    | with_reducible apply keeps_foldl | with_reducible apply keeps_foldl_fst | with_reducible apply keeps_ite_fst | extract_lets
    | split | (with_reducible refine keeps_fst (by assumption) ?_) | dsimp only [id]

theorem assignOne_keeps {r0 : State} (s : State) (i : Nat) (hk : Keeps r0 s) : Keeps r0 (State.assignOne s i) := by
  unfold State.assignOne
  repeat' first
    | with_reducible assumption | intro _ | with_reducible apply keeps_ite | with_reducible apply wrAt_keeps
    | with_reducible apply updPool_keeps | with_reducible apply keeps_foldl | with_reducible apply keeps_foldl_fst
    | with_reducible apply keeps_ite_fst | extract_lets | split | (with_reducible refine keeps_fst (by assumption) ?_)
    | dsimp only [id]

theorem assign_keeps {r0 : State} (s : State) (hk : Keeps r0 s) : Keeps r0 (State.assign s) := by
  unfold State.assign
  repeat' first
    | with_reducible assumption | intro _ | with_reducible apply keeps_ite | with_reducible apply assignOne_keeps
    | with_reducible apply keeps_foldl | with_reducible apply keeps_foldl_fst | with_reducible apply keeps_ite_fst | extract_lets
    | split | (with_reducible refine keeps_fst (by assumption) ?_) | dsimp only [id]

theorem poolCommit_keeps {r0 : State} (s : State) (n : Nat) (ep : BitVec 16) (hk : Keeps r0 s) : Keeps r0 (State.poolCommit s n ep) := by
  unfold State.poolCommit
  repeat' first
    | with_reducible assumption | intro _ | with_reducible apply keeps_ite | with_reducible apply assign_keeps
    | with_reducible apply updPool_keeps | with_reducible apply keeps_foldl | with_reducible apply keeps_foldl_fst
    | with_reducible apply keeps_ite_fst | extract_lets | split | (with_reducible refine keeps_fst (by assumption) ?_)
    | dsimp only [id]

theorem setRec_keeps {r0 : State} (s : State) (old : RecRecord) (new : RecRecord) (hk : Keeps r0 s) : Keeps r0 (State.setRec s old new)
    := by
  unfold State.setRec
  repeat' first
    | with_reducible assumption | intro _ | with_reducible apply keeps_ite | with_reducible apply updPool_keeps
    | with_reducible apply keeps_foldl | with_reducible apply keeps_foldl_fst | with_reducible apply keeps_ite_fst | extract_lets
    | split | (with_reducible refine keeps_fst (by assumption) ?_) | dsimp only [id]

theorem recDrop_keeps {r0 : State} (s : State) (r : RecRecord) (hk : Keeps r0 s) : Keeps r0 (State.recDrop s r) := by
  unfold State.recDrop
  repeat' first
    | with_reducible assumption | intro _ | with_reducible apply keeps_ite | with_reducible apply decFree_keeps
    | with_reducible apply updPool_keeps | with_reducible apply capFree_keeps | with_reducible apply wrN_keeps
    | with_reducible apply keeps_foldl | with_reducible apply keeps_foldl_fst | with_reducible apply keeps_ite_fst | extract_lets
    | split | (with_reducible refine keeps_fst (by assumption) ?_) | dsimp only [id]

theorem errEntry_keeps {r0 : State} (s : State) (c : Cmd) (status : Nat) (lba : Nat) (hk : Keeps r0 s) : Keeps r0 (State.errEntry s c
    status lba) := by
  unfold State.errEntry
  repeat' first
    | with_reducible assumption | intro _ | with_reducible apply keeps_ite | with_reducible apply updHost_keeps
    | with_reducible apply keeps_foldl | with_reducible apply keeps_foldl_fst | with_reducible apply keeps_ite_fst | extract_lets
    | split | (with_reducible refine keeps_fst (by assumption) ?_) | dsimp only [id]

theorem giveUp_keeps {r0 : State} (s : State) (r : RecRecord) (hk : Keeps r0 s) : Keeps r0 (State.giveUp s r) := by
  unfold State.giveUp
  repeat' first
    | with_reducible assumption | intro _ | with_reducible apply keeps_ite | with_reducible apply recDrop_keeps
    | with_reducible apply bump_keeps | with_reducible apply lostAdd_keeps | with_reducible apply keeps_foldl
    | with_reducible apply keeps_foldl_fst | with_reducible apply keeps_ite_fst | extract_lets | split
    | (with_reducible refine keeps_fst (by assumption) ?_) | dsimp only [id]

theorem defer_keeps {r0 : State} (s : State) (r : RecRecord) (k : Nat) (hk : Keeps r0 s) : Keeps r0 (State.defer s r k) := by
  unfold State.defer
  repeat' first
    | with_reducible assumption | intro _ | with_reducible apply keeps_ite | with_reducible apply decFree_keeps
    | with_reducible apply bump_keeps | with_reducible apply setRec_keeps | with_reducible apply giveUp_keeps
    | with_reducible apply assign_keeps | with_reducible apply keeps_foldl | with_reducible apply keeps_foldl_fst
    | with_reducible apply keeps_ite_fst | extract_lets | split | (with_reducible refine keeps_fst (by assumption) ?_)
    | dsimp only [id]

theorem stepFive_keeps {r0 : State} (s : State) (r : RecRecord) (last : Nat) (expired : Bool) (hk : Keeps r0 s) : Keeps r0
    (State.stepFive s r last expired) := by
  unfold State.stepFive
  repeat' first
    | with_reducible assumption | intro _ | with_reducible apply keeps_ite | with_reducible apply giveUp_keeps
    | with_reducible apply defer_keeps | with_reducible apply bumpBy_keeps | with_reducible apply updHost_keeps
    | with_reducible apply errEntry_keeps | with_reducible apply settle_keeps | with_reducible apply complete_keeps
    | with_reducible apply keeps_foldl | with_reducible apply keeps_foldl_fst | with_reducible apply keeps_ite_fst | extract_lets
    | split | (with_reducible refine keeps_fst (by assumption) ?_) | dsimp only [id] | dsimp +zetaDelta only

theorem toStep_keeps {r0 : State} (s : State) (r : RecRecord) (k : Nat) (hk : Keeps r0 s) : Keeps r0 (State.toStep s r k) := by
  unfold State.toStep
  repeat' first
    | with_reducible assumption | intro _ | with_reducible apply keeps_ite | with_reducible apply stepFive_keeps
    | with_reducible apply assign_keeps | with_reducible apply setRec_keeps | with_reducible apply keeps_foldl
    | with_reducible apply keeps_foldl_fst | with_reducible apply keeps_ite_fst | extract_lets | split
    | (with_reducible refine keeps_fst (by assumption) ?_) | dsimp only [id]

theorem openEpoch_keeps {r0 : State} (s : State) (n : Nat) (src : Nat) (hk : Keeps r0 s) : Keeps r0 (State.openEpoch s n src).1 := by
  unfold State.openEpoch
  repeat' first
    | with_reducible assumption | intro _ | with_reducible apply keeps_ite | with_reducible apply bump_keeps
    | with_reducible apply wr_keeps | with_reducible apply wrAt_keeps | with_reducible apply wrN_keeps
    | with_reducible apply trace_keeps | with_reducible apply keeps_foldl | with_reducible apply keeps_foldl_fst
    | with_reducible apply keeps_ite_fst | extract_lets | split | (with_reducible refine keeps_fst (by assumption) ?_)
    | dsimp only [id]

theorem charge_keeps {r0 : State} (s : State) (n : Nat) (prio : Nat) (c : Nat) (hk : Keeps r0 s) : Keeps r0 (State.charge s n prio c) := by
  unfold State.charge
  repeat' first
    | with_reducible assumption | intro _ | with_reducible apply keeps_ite | with_reducible apply updAct_keeps
    | with_reducible apply keeps_foldl | with_reducible apply keeps_foldl_fst | with_reducible apply keeps_ite_fst | extract_lets
    | split | (with_reducible refine keeps_fst (by assumption) ?_) | dsimp only [id]

theorem syncDev_keeps {r0 : State} (s : State) (l : Nat) (f : Int) (hk : Keeps r0 s) : Keeps r0 (State.syncDev s l f) := by
  unfold State.syncDev
  repeat' first
    | with_reducible assumption | intro _ | with_reducible apply keeps_ite | with_reducible apply updLane_keeps
    | with_reducible apply wr_keeps | with_reducible apply keeps_foldl | with_reducible apply keeps_foldl_fst
    | with_reducible apply keeps_ite_fst | extract_lets | split | (with_reducible refine keeps_fst (by assumption) ?_)
    | dsimp only [id]

theorem unshadow_keeps {r0 : State} (s : State) (n : Nat) (l : Nat) (id : Nat) (v : Nat) (hk : Keeps r0 s) : Keeps r0 (State.unshadow s
    n l id v) := by
  unfold State.unshadow
  repeat' first
    | with_reducible assumption | intro _ | with_reducible apply keeps_ite | with_reducible apply charge_keeps
    | with_reducible apply syncDev_keeps | with_reducible apply wr_keeps | with_reducible apply bumpBy_keeps
    | with_reducible apply keeps_foldl | with_reducible apply keeps_foldl_fst | with_reducible apply keeps_ite_fst | extract_lets
    | split | (with_reducible refine keeps_fst (by assumption) ?_) | dsimp only [id]

theorem route_keeps {r0 : State} (s : State) (g : Grain) (hk : Keeps r0 s) : Keeps r0 (State.route s g) := by
  unfold State.route
  repeat' first
    | with_reducible assumption | intro _ | with_reducible apply keeps_ite | with_reducible apply deliver_keeps
    | with_reducible apply keeps_foldl | with_reducible apply keeps_foldl_fst | with_reducible apply keeps_ite_fst | extract_lets
    | split | (with_reducible refine keeps_fst (by assumption) ?_) | dsimp only [id]

theorem commitSlot_keeps {r0 : State} (s : State) (n : Nat) (i : Nat) (hk : Keeps r0 s) : Keeps r0 (State.commitSlot s n i) := by
  unfold State.commitSlot
  repeat' first
    | with_reducible assumption | intro _ | with_reducible apply keeps_ite | with_reducible apply slotFree_keeps
    | with_reducible apply unshadow_keeps | with_reducible apply updAct_keeps | with_reducible apply wrB_keeps
    | with_reducible apply wr_keeps | with_reducible apply route_keeps | with_reducible apply poolCommit_keeps
    | with_reducible apply releaseNotices_keeps | with_reducible apply trace_keeps | with_reducible apply keeps_foldl
    | with_reducible apply keeps_foldl_fst | with_reducible apply keeps_ite_fst | extract_lets | split
    | (with_reducible refine keeps_fst (by assumption) ?_) | simp only [keeps_mk] | dsimp only [id]

theorem epochRes_keeps {r0 : State} (s : State) (e : Nat) (ep : BitVec 16) (reason : Nat) (hk : Keeps r0 s) : Keeps r0 (State.epochRes s
    e ep reason) := by
  unfold State.epochRes
  repeat' first
    | with_reducible assumption | intro _ | with_reducible apply keeps_ite | with_reducible apply wrN_keeps
    | with_reducible apply wrB_keeps | with_reducible apply wr_keeps | with_reducible apply keeps_foldl
    | with_reducible apply keeps_foldl_fst | with_reducible apply keeps_ite_fst | extract_lets | split
    | (with_reducible refine keeps_fst (by assumption) ?_) | dsimp only [id]

theorem openRefused_keeps {r0 : State} (s : State) (e : Nat) (reason : Nat) (hk : Keeps r0 s) : Keeps r0 (State.openRefused s e reason)
    := by
  unfold State.openRefused
  repeat' first
    | with_reducible assumption | intro _ | with_reducible apply keeps_ite | with_reducible apply wrN_keeps
    | with_reducible apply wrB_keeps | with_reducible apply keeps_foldl | with_reducible apply keeps_foldl_fst
    | with_reducible apply keeps_ite_fst | extract_lets | split | (with_reducible refine keeps_fst (by assumption) ?_)
    | dsimp only [id]

theorem requeue_keeps {r0 : State} (s : State) (n : Nat) (ps : List PendSector) (hk : Keeps r0 s) : Keeps r0 (State.requeue s n ps) := by
  unfold State.requeue
  repeat' first
    | with_reducible assumption | intro _ | with_reducible apply keeps_ite | with_reducible apply updAct_keeps
    | with_reducible apply keeps_foldl | with_reducible apply keeps_foldl_fst | with_reducible apply keeps_ite_fst | extract_lets
    | split | (with_reducible refine keeps_fst (by assumption) ?_) | dsimp only [id]

theorem spanDecide_keeps {r0 : State} (s : State) (n : Nat) (ep : BitVec 16) (whole : Bool) (hk : Keeps r0 s) : Keeps r0
    (State.spanDecide s n ep whole) := by
  unfold State.spanDecide
  repeat' first
    | with_reducible assumption | intro _ | with_reducible apply keeps_ite | with_reducible apply requeue_keeps
    | with_reducible apply chaffSlot_keeps | with_reducible apply mqRefresh_keeps | with_reducible apply endWork_keeps
    | with_reducible apply commitSlot_keeps | with_reducible apply updAct_keeps | with_reducible apply mqDone_keeps
    | with_reducible apply parityRead_keeps | with_reducible apply keeps_foldl | with_reducible apply keeps_foldl_fst
    | with_reducible apply keeps_ite_fst | extract_lets | split | (with_reducible refine keeps_fst (by assumption) ?_)
    | dsimp only [id]

theorem makeRoom_keeps {r0 : State} (s : State) (n : Nat) (hk : Keeps r0 s) : Keeps r0 (State.makeRoom s n) := by
  unfold State.makeRoom
  repeat' first
    | with_reducible assumption | intro _ | with_reducible apply keeps_ite | with_reducible apply chaffSlot_keeps
    | with_reducible apply keeps_foldl | with_reducible apply keeps_foldl_fst | with_reducible apply keeps_ite_fst | extract_lets
    | split | (with_reducible refine keeps_fst (by assumption) ?_) | dsimp only [id]

theorem openSpan_keeps {r0 : State} (s : State) (n : Nat) (hk : Keeps r0 s) : Keeps r0 (State.openSpan s n) := by
  unfold State.openSpan
  repeat' first
    | with_reducible assumption | intro _ | with_reducible apply keeps_ite | with_reducible apply makeRoom_keeps
    | with_reducible apply openEpoch_keeps | with_reducible apply updAct_keeps | with_reducible apply endWork_keeps
    | with_reducible apply keeps_foldl | with_reducible apply keeps_foldl_fst | with_reducible apply keeps_ite_fst | extract_lets
    | split | (with_reducible refine keeps_fst (by assumption) ?_) | dsimp only [id]

theorem loadOffsets_keeps {r0 : State} (s : State) (n : Nat) (k : Nat) (zone : Option Nat) (hk : Keeps r0 s) : Keeps r0
    (State.loadOffsets s n k zone) := by
  unfold State.loadOffsets
  repeat' first
    | with_reducible assumption | intro _ | with_reducible apply keeps_ite | with_reducible apply updAct_keeps
    | with_reducible apply wrInt_keeps | with_reducible apply wrAt_keeps | with_reducible apply keeps_foldl
    | with_reducible apply keeps_foldl_fst | with_reducible apply keeps_ite_fst | extract_lets | split
    | (with_reducible refine keeps_fst (by assumption) ?_) | dsimp only [id]

theorem selectHead_keeps {r0 : State} (s : State) (n : Nat) (k : Nat) (track : Nat) (hk : Keeps r0 s) : Keeps r0 (State.selectHead s n k
    track) := by
  unfold State.selectHead
  repeat' first
    | with_reducible assumption | intro _ | with_reducible apply keeps_ite | with_reducible apply loadOffsets_keeps
    | with_reducible apply updAct_keeps | with_reducible apply ctl_keeps | with_reducible apply headSwitch_keeps
    | with_reducible apply setTarget_keeps | with_reducible apply keeps_foldl | with_reducible apply keeps_foldl_fst
    | with_reducible apply keeps_ite_fst | extract_lets | split | (with_reducible refine keeps_fst (by assumption) ?_)
    | dsimp only [id]

theorem opStatus_keeps {r0 : State} (s : State) (e : Nat) (st : Nat) (hk : Keeps r0 s) : Keeps r0 (State.opStatus s e st) := by
  unfold State.opStatus
  repeat' first
    | with_reducible assumption | intro _ | with_reducible apply keeps_ite | with_reducible apply wrN_keeps
    | with_reducible apply keeps_foldl | with_reducible apply keeps_foldl_fst | with_reducible apply keeps_ite_fst | extract_lets
    | split | (with_reducible refine keeps_fst (by assumption) ?_) | dsimp only [id]

theorem opStart_keeps {r0 : State} (s : State) (n : Nat) (o : OpSt) (hk : Keeps r0 s) : Keeps r0 (State.opStart s n o) := by
  unfold State.opStart
  repeat' first
    | with_reducible assumption | intro _ | with_reducible apply keeps_ite | with_reducible apply wr_keeps
    | with_reducible apply opStatus_keeps | with_reducible apply updAct_keeps | with_reducible apply trace_keeps
    | with_reducible apply setTarget_keeps | with_reducible apply keeps_foldl | with_reducible apply keeps_foldl_fst
    | with_reducible apply keeps_ite_fst | extract_lets | split | (with_reducible refine keeps_fst (by assumption) ?_)
    | dsimp only [id]

theorem opRead_keeps {r0 : State} (e : Nat) (n : Nat) (s : State) (hk : Keeps r0 s) : Keeps r0 (State.opRead e n s) := by
  unfold State.opRead
  repeat' first
    | with_reducible assumption | intro _ | with_reducible apply keeps_ite | with_reducible apply opStatus_keeps
    | with_reducible apply selectHead_keeps | with_reducible apply opStart_keeps | with_reducible apply openSpan_keeps
    | with_reducible apply keeps_foldl | with_reducible apply keeps_foldl_fst | with_reducible apply keeps_ite_fst | extract_lets
    | split | (with_reducible refine keeps_fst (by assumption) ?_) | dsimp only [id]

theorem seekEnd_keeps {r0 : State} (s : State) (n : Nat) (hk : Keeps r0 s) : Keeps r0 (State.seekEnd s n) := by
  unfold State.seekEnd
  repeat' first
    | with_reducible assumption | intro _ | with_reducible apply keeps_ite | with_reducible apply endWork_keeps
    | with_reducible apply keeps_foldl | with_reducible apply keeps_foldl_fst | with_reducible apply keeps_ite_fst | extract_lets
    | split | (with_reducible refine keeps_fst (by assumption) ?_) | dsimp only [id]

theorem opSeek_keeps {r0 : State} (e : Nat) (n : Nat) (s : State) (hk : Keeps r0 s) : Keeps r0 (State.opSeek e n s) := by
  unfold State.opSeek
  repeat' first
    | with_reducible assumption | intro _ | with_reducible apply keeps_ite | with_reducible apply opStatus_keeps
    | with_reducible apply selectHead_keeps | with_reducible apply wrB_keeps | with_reducible apply seekEnd_keeps
    | with_reducible apply opStart_keeps | with_reducible apply keeps_foldl | with_reducible apply keeps_foldl_fst
    | with_reducible apply keeps_ite_fst | extract_lets | split | (with_reducible refine keeps_fst (by assumption) ?_)
    | dsimp only [id]

theorem opRunahead_keeps {r0 : State} (e : Nat) (n : Nat) (s : State) (hk : Keeps r0 s) : Keeps r0 (State.opRunahead e n s) := by
  unfold State.opRunahead
  repeat' first
    | with_reducible assumption | intro _ | with_reducible apply keeps_ite | with_reducible apply opStatus_keeps
    | with_reducible apply selectHead_keeps | with_reducible apply opStart_keeps | with_reducible apply keeps_foldl
    | with_reducible apply keeps_foldl_fst | with_reducible apply keeps_ite_fst | extract_lets | split
    | (with_reducible refine keeps_fst (by assumption) ?_) | dsimp only [id]

theorem opCut_keeps {r0 : State} (s : State) (n : Nat) (hk : Keeps r0 s) : Keeps r0 (State.opCut s n) := by
  unfold State.opCut
  repeat' first
    | with_reducible assumption | intro _ | with_reducible apply keeps_ite | with_reducible apply seqClose_keeps
    | with_reducible apply endWork_keeps | with_reducible apply spanDecide_keeps | with_reducible apply mqRefresh_keeps
    | with_reducible apply keeps_foldl | with_reducible apply keeps_foldl_fst | with_reducible apply keeps_ite_fst | extract_lets
    | split | (with_reducible refine keeps_fst (by assumption) ?_) | dsimp only [id]

theorem recIssue_keeps {r0 : State} (s : State) (n : Nat) (hk : Keeps r0 s) : Keeps r0 (State.recIssue s n) := by
  unfold State.recIssue
  repeat' first
    | with_reducible assumption | intro _ | with_reducible apply keeps_ite | with_reducible apply stepFive_keeps
    | with_reducible apply toStep_keeps | with_reducible apply selectHead_keeps | with_reducible apply updAct_keeps
    | with_reducible apply opStart_keeps | with_reducible apply openSpan_keeps | with_reducible apply keeps_foldl
    | with_reducible apply keeps_foldl_fst | with_reducible apply keeps_ite_fst | extract_lets | split
    | (with_reducible refine keeps_fst (by assumption) ?_) | dsimp only [id]

theorem measurePeriod_keeps {r0 : State} (s : State) (n : Nat) (ps : Nat) (hk : Keeps r0 s) : Keeps r0 (State.measurePeriod s n ps) := by
  unfold State.measurePeriod
  repeat' first
    | with_reducible assumption | intro _ | with_reducible apply keeps_ite | with_reducible apply updAct_keeps
    | with_reducible apply wrN_keeps | with_reducible apply keeps_foldl | with_reducible apply keeps_foldl_fst
    | with_reducible apply keeps_ite_fst | extract_lets | split | (with_reducible refine keeps_fst (by assumption) ?_)
    | dsimp only [id]

theorem enterLost_keeps {r0 : State} (s : State) (n : Nat) (hk : Keeps r0 s) : Keeps r0 (State.enterLost s n) := by
  unfold State.enterLost
  repeat' first
    | with_reducible assumption | intro _ | with_reducible apply keeps_ite | with_reducible apply gateClose_keeps
    | with_reducible apply endWork_keeps | with_reducible apply chaffAll_keeps | with_reducible apply bump_keeps
    | with_reducible apply wr_keeps | with_reducible apply updAct_keeps | with_reducible apply trace_keeps
    | with_reducible apply raise_keeps | with_reducible apply keeps_foldl | with_reducible apply keeps_foldl_fst
    | with_reducible apply keeps_ite_fst | extract_lets | split | (with_reducible refine keeps_fst (by assumption) ?_)
    | dsimp only [id]

theorem rampReached_keeps {r0 : State} (s : State) (n : Nat) (hk : Keeps r0 s) : Keeps r0 (State.rampReached s n) := by
  unfold State.rampReached
  repeat' first
    | with_reducible assumption | intro _ | with_reducible apply keeps_ite | with_reducible apply gateClose_keeps
    | with_reducible apply updAct_keeps | with_reducible apply wr_keeps | with_reducible apply disEnd_keeps
    | with_reducible apply trace_keeps | with_reducible apply smpCtl_keeps | with_reducible apply keeps_foldl
    | with_reducible apply keeps_foldl_fst | with_reducible apply keeps_ite_fst | extract_lets | split
    | (with_reducible refine keeps_fst (by assumption) ?_) | dsimp only [id]

theorem burstMiss_keeps {r0 : State} (s : State) (n : Nat) (k : Nat) (hk : Keeps r0 s) : Keeps r0 (State.burstMiss s n k) := by
  unfold State.burstMiss
  repeat' first
    | with_reducible assumption | intro _ | with_reducible apply keeps_ite | with_reducible apply trace_keeps
    | with_reducible apply bump_keeps | with_reducible apply bumpBy_keeps | with_reducible apply keeps_foldl
    | with_reducible apply keeps_foldl_fst | with_reducible apply keeps_ite_fst | extract_lets | split
    | (with_reducible refine keeps_fst (by assumption) ?_) | dsimp only [id]

theorem loosen_keeps {r0 : State} (s : State) (n : Nat) (k : Nat) (hk : Keeps r0 s) : Keeps r0 (State.loosen s n k) := by
  unfold State.loosen
  repeat' first
    | with_reducible assumption | intro _ | with_reducible apply keeps_ite | with_reducible apply updAct_keeps
    | with_reducible apply wrAt_keeps | with_reducible apply keeps_foldl | with_reducible apply keeps_foldl_fst
    | with_reducible apply keeps_ite_fst | extract_lets | split | (with_reducible refine keeps_fst (by assumption) ?_)
    | dsimp only [id]

theorem damageCheck_keeps {r0 : State} (s : State) (n : Nat) (w : WinSt) (pes : Int) (hk : Keeps r0 s) : Keeps r0 (State.damageCheck s n
    w pes) := by
  unfold State.damageCheck
  repeat' first
    | with_reducible assumption | intro _ | with_reducible apply keeps_ite | with_reducible apply bump_keeps
    | with_reducible apply mqWait_keeps | with_reducible apply keeps_foldl | with_reducible apply keeps_foldl_fst
    | with_reducible apply keeps_ite_fst | extract_lets | split | (with_reducible refine keeps_fst (by assumption) ?_)
    | dsimp only [id] | dsimp +zetaDelta only

theorem laserStart_keeps {r0 : State} (s : State) (n : Nat) (w : WinSt) (hk : Keeps r0 s) : Keeps r0 (State.laserStart s n w) := by
  unfold State.laserStart
  repeat' first
    | with_reducible assumption | intro _ | with_reducible apply keeps_ite | with_reducible apply setMode_keeps
    | with_reducible apply wr_keeps | with_reducible apply updLoop_keeps | with_reducible apply keeps_foldl
    | with_reducible apply keeps_foldl_fst | with_reducible apply keeps_ite_fst | extract_lets | split
    | (with_reducible refine keeps_fst (by assumption) ?_) | dsimp only [id]

theorem gateEval_keeps {r0 : State} (s : State) (n : Nat) (r : FrameRec) (before : Option FrameRec) (hk : Keeps r0 s) : Keeps r0
    (State.gateEval s n r before) := by
  unfold State.gateEval
  repeat' first
    | with_reducible assumption | intro _ | with_reducible apply keeps_ite | with_reducible apply updAct_keeps
    | with_reducible apply gateClose_keeps | with_reducible apply damageCheck_keeps | with_reducible apply trace_keeps
    | with_reducible apply wrN_keeps | with_reducible apply bump_keeps | with_reducible apply ctl_keeps
    | with_reducible apply laserStart_keeps | with_reducible apply keeps_foldl | with_reducible apply keeps_foldl_fst
    | with_reducible apply keeps_ite_fst | extract_lets | split | (with_reducible refine keeps_fst (by assumption) ?_)
    | dsimp only [id]

theorem cachePut_keeps {r0 : State} (s : State) (l : List CacheGrain) (t : Tag) (payload : List Byte) (hk : Keeps r0 s) : Keeps r0
    (State.cachePut s l t payload) := by
  unfold State.cachePut
  repeat' first
    | with_reducible assumption | intro _ | with_reducible apply keeps_ite | with_reducible apply putGrain_keeps
    | with_reducible apply keeps_foldl | with_reducible apply keeps_foldl_fst | with_reducible apply keeps_ite_fst | extract_lets
    | split | (with_reducible refine keeps_fst (by assumption) ?_) | simp only [keeps_mk] | dsimp only [id]

theorem raSettle_keeps {r0 : State} (s : State) (n : Nat) (ep : BitVec 16) (hk : Keeps r0 s) : Keeps r0 (State.raSettle s n ep) := by
  unfold State.raSettle
  repeat' first
    | with_reducible assumption | intro _ | with_reducible apply keeps_ite | with_reducible apply updAct_keeps
    | with_reducible apply bump_keeps | with_reducible apply cachePut_keeps | with_reducible apply keeps_foldl
    | with_reducible apply keeps_foldl_fst | with_reducible apply keeps_ite_fst | extract_lets | split
    | (with_reducible refine keeps_fst (by assumption) ?_) | simp only [keeps_mk] | dsimp only [id] | dsimp +zetaDelta only

theorem confirmAll_keeps {r0 : State} (s : State) (n : Nat) (hk : Keeps r0 s) : Keeps r0 (State.confirmAll s n) := by
  unfold State.confirmAll
  repeat' first
    | with_reducible assumption | intro _ | with_reducible apply keeps_ite | with_reducible apply spanDecide_keeps
    | with_reducible apply raSettle_keeps | with_reducible apply keeps_foldl | with_reducible apply keeps_foldl_fst
    | with_reducible apply keeps_ite_fst | extract_lets | split | (with_reducible refine keeps_fst (by assumption) ?_)
    | dsimp only [id]

theorem acquire_keeps {r0 : State} (s : State) (n : Nat) (o : TransitObs) (valid : Bool) (hk : Keeps r0 s) : Keeps r0 (State.acquire s n
    o valid) := by
  unfold State.acquire
  repeat' first
    | with_reducible assumption | intro _ | with_reducible apply keeps_ite | with_reducible apply updAct_keeps
    | with_reducible apply wr_keeps | with_reducible apply trace_keeps | with_reducible apply keeps_foldl
    | with_reducible apply keeps_foldl_fst | with_reducible apply keeps_ite_fst | extract_lets | split
    | (with_reducible refine keeps_fst (by assumption) ?_) | dsimp only [id]

theorem validFrame_keeps {r0 : State} (s : State) (n : Nat) (pos : Int) (hk : Keeps r0 s) : Keeps r0 (State.validFrame s n pos) := by
  unfold State.validFrame
  repeat' first
    | with_reducible assumption | intro _ | with_reducible apply keeps_ite | with_reducible apply wr_keeps
    | with_reducible apply wrInt_keeps | with_reducible apply wrB_keeps | with_reducible apply updAct_keeps
    | with_reducible apply loopFeed_keeps | with_reducible apply seekEnd_keeps | with_reducible apply trace_keeps
    | with_reducible apply keeps_foldl | with_reducible apply keeps_foldl_fst | with_reducible apply keeps_ite_fst | extract_lets
    | split | (with_reducible refine keeps_fst (by assumption) ?_) | dsimp only [id]

theorem invalidFrame_keeps {r0 : State} (s : State) (n : Nat) (hk : Keeps r0 s) : Keeps r0 (State.invalidFrame s n) := by
  unfold State.invalidFrame
  repeat' first
    | with_reducible assumption | intro _ | with_reducible apply keeps_ite | with_reducible apply bump_keeps
    | with_reducible apply wr_keeps | with_reducible apply updAct_keeps | with_reducible apply trace_keeps
    | with_reducible apply keeps_foldl | with_reducible apply keeps_foldl_fst | with_reducible apply keeps_ite_fst | extract_lets
    | split | (with_reducible refine keeps_fst (by assumption) ?_) | dsimp only [id]

theorem sendWindow_keeps {r0 : State} (s : State) (n : Nat) (d : SideDesc) (x : MqEntry) (k : Nat) (t : Nat) (i : Nat) (e : List Nat)
    (out : List SectorOut) (cur : Word) (hk : Keeps r0 s) : Keeps r0 (State.sendWindow s n d x k t i e out cur) := by
  unfold State.sendWindow
  repeat' first
    | with_reducible assumption | intro _ | with_reducible apply keeps_ite | with_reducible apply tick_keeps
    | with_reducible apply updAct_keeps | with_reducible apply ctl_keeps | with_reducible apply wrN_keeps
    | with_reducible apply wrtDrain_keeps | with_reducible apply keeps_foldl | with_reducible apply keeps_foldl_fst
    | with_reducible apply keeps_ite_fst | extract_lets | split | (with_reducible refine keeps_fst (by assumption) ?_)
    | dsimp only [id]

theorem sendWindows_keeps {r0 : State} (s : State) (n : Nat) (d : SideDesc) (x : MqEntry) (k : Nat) (t : Nat) (i : Nat) (e : List Nat)
    (out : List SectorOut) (fuel : Nat) (hk : Keeps r0 s) : Keeps r0 (State.sendWindows s n d x k t i e out fuel) := by
  induction fuel generalizing s i out with
  | zero =>
    unfold State.sendWindows
    repeat' first
      | with_reducible assumption | intro _ | with_reducible apply keeps_ite | with_reducible apply sendWindow_keeps
      | with_reducible apply keeps_foldl | with_reducible apply keeps_foldl_fst | with_reducible apply keeps_ite_fst | extract_lets
      | split | (with_reducible refine keeps_fst (by assumption) ?_) | dsimp only [id]
  | succ n ih =>
    unfold State.sendWindows
    repeat' first
      | with_reducible assumption | intro _ | with_reducible apply keeps_ite | with_reducible apply sendWindow_keeps
      | with_reducible apply routeDrop_keeps
      | with_reducible apply ih | with_reducible apply keeps_foldl | with_reducible apply keeps_foldl_fst
      | with_reducible apply keeps_ite_fst | extract_lets | split | (with_reducible refine keeps_fst (by assumption) ?_)
      | dsimp only [id]

theorem checkTags_keeps {r0 : State} (s : State) (n : Nat) (x : MqEntry) (hk : Keeps r0 s) : Keeps r0 (State.checkTags s n x) := by
  unfold State.checkTags
  repeat' first
    | with_reducible assumption | intro _ | with_reducible apply keeps_ite | with_reducible apply badGrain_keeps
    | (with_reducible refine injTake_keeps (by assumption) ?_) | with_reducible apply keeps_foldl
    | with_reducible apply keeps_foldl_fst | with_reducible apply keeps_ite_fst | extract_lets | split
    | (with_reducible refine keeps_fst (by assumption) ?_) | dsimp only [id]

theorem tagPlaces_keeps {r0 : State} (s : State) (e : Nat) (n : Nat) (x : MqEntry) (k : Nat) (t : Nat) (i : Nat) (out : List SectorOut)
    (hk : Keeps r0 s) : Keeps r0 (State.tagPlaces s e n x k t i out) := by
  unfold State.tagPlaces
  repeat' first
    | with_reducible assumption | intro _ | with_reducible apply keeps_ite | with_reducible apply putTag_keeps
    | with_reducible apply keeps_foldl | with_reducible apply keeps_foldl_fst | with_reducible apply keeps_ite_fst | extract_lets
    | split | (with_reducible refine keeps_fst (by assumption) ?_) | simp only [keeps_mk] | dsimp only [id]

theorem opWrite_keeps {r0 : State} (e : Nat) (n : Nat) (s : State) (hk : Keeps r0 s) : Keeps r0 (State.opWrite e n s) := by
  unfold State.opWrite
  repeat' first
    | with_reducible assumption | intro _ | with_reducible apply keeps_ite | with_reducible apply opStatus_keeps
    | with_reducible apply bump_keeps | with_reducible apply checkTags_keeps | with_reducible apply selectHead_keeps
    | with_reducible apply opStart_keeps | with_reducible apply sendWindows_keeps | with_reducible apply tagPlaces_keeps
    | with_reducible apply keeps_foldl | with_reducible apply keeps_foldl_fst | with_reducible apply keeps_ite_fst | extract_lets
    | split | (with_reducible refine keeps_fst (by assumption) ?_) | dsimp only [id]

theorem opSubmit_keeps {r0 : State} (s : State) (e : Nat) (n : Nat) (hk : Keeps r0 s) : Keeps r0 (State.opSubmit s e n) := by
  unfold State.opSubmit
  repeat' first
    | with_reducible assumption | intro _ | with_reducible apply keeps_ite | with_reducible apply opRead_keeps
    | with_reducible apply opWrite_keeps | with_reducible apply opSeek_keeps | with_reducible apply opRunahead_keeps
    | with_reducible apply opStatus_keeps | with_reducible apply keeps_foldl | with_reducible apply keeps_foldl_fst
    | with_reducible apply keeps_ite_fst | extract_lets | split | (with_reducible refine keeps_fst (by assumption) ?_)
    | dsimp only [id]

theorem opGo_keeps {r0 : State} (s : State) (e : Nat) (writer : Initiator) (hk : Keeps r0 s) : Keeps r0 (State.opGo s e writer) := by
  unfold State.opGo
  repeat' first
    | with_reducible assumption | intro _ | with_reducible apply keeps_ite | with_reducible apply guard_keeps
    | with_reducible apply updAct_keeps | with_reducible apply wr_keeps | with_reducible apply opSubmit_keeps
    | with_reducible apply keeps_foldl | with_reducible apply keeps_foldl_fst | with_reducible apply keeps_ite_fst | extract_lets
    | split | (with_reducible refine keeps_fst (by assumption) ?_) | dsimp only [id]

theorem resumeGo_keeps {r0 : State} (s : State) (n : Nat) (hk : Keeps r0 s) : Keeps r0 (State.resumeGo s n) := by
  unfold State.resumeGo
  repeat' first
    | with_reducible assumption | intro _ | with_reducible apply keeps_ite | with_reducible apply opSubmit_keeps
    | with_reducible apply updAct_keeps | with_reducible apply wr_keeps | with_reducible apply keeps_foldl
    | with_reducible apply keeps_foldl_fst | with_reducible apply keeps_ite_fst | extract_lets | split
    | (with_reducible refine keeps_fst (by assumption) ?_) | dsimp only [id]

theorem wtCommitTry_keeps {r0 : State} (s : State) (n : Nat) (hk : Keeps r0 s) : Keeps r0 (State.wtCommitTry s n) := by
  unfold State.wtCommitTry
  repeat' first
    | with_reducible assumption | intro _ | with_reducible apply keeps_ite | with_reducible apply wr_keeps
    | with_reducible apply updAct_keeps | with_reducible apply keeps_foldl | with_reducible apply keeps_foldl_fst
    | with_reducible apply keeps_ite_fst | extract_lets | split | (with_reducible refine keeps_fst (by assumption) ?_)
    | dsimp only [id]

theorem ageHead_keeps {r0 : State} (s : State) (n : Nat) (w : WinSt) (hk : Keeps r0 s) : Keeps r0 (State.ageHead s n w) := by
  unfold State.ageHead
  repeat' first
    | with_reducible assumption | intro _ | with_reducible apply keeps_ite | with_reducible apply wrAt_keeps
    | with_reducible apply tick_keeps | with_reducible apply audit_keeps | with_reducible apply updAct_keeps
    | with_reducible apply keeps_foldl | with_reducible apply keeps_foldl_fst | with_reducible apply keeps_ite_fst | extract_lets
    | split | (with_reducible refine keeps_fst (by assumption) ?_) | dsimp only [id]

theorem windowEnd_keeps {r0 : State} (s : State) (n : Nat) (hk : Keeps r0 s) : Keeps r0 (State.windowEnd s n) := by
  unfold State.windowEnd
  repeat' first
    | with_reducible assumption | intro _ | with_reducible apply keeps_ite | with_reducible apply ageHead_keeps
    | with_reducible apply laserManual_keeps | with_reducible apply wr_keeps | with_reducible apply updAct_keeps
    | with_reducible apply laserStart_keeps | with_reducible apply keeps_foldl | with_reducible apply keeps_foldl_fst
    | with_reducible apply keeps_ite_fst | extract_lets | split | (with_reducible refine keeps_fst (by assumption) ?_)
    | dsimp only [id]

theorem dropWindow_keeps {r0 : State} (s : State) (n : Nat) (id : BitVec 16) (hk : Keeps r0 s) : Keeps r0 (State.dropWindow s n id) := by
  unfold State.dropWindow
  repeat' first
    | with_reducible assumption | intro _ | with_reducible apply keeps_ite | with_reducible apply updAct_keeps
    | with_reducible apply wr_keeps | with_reducible apply endWork_keeps | with_reducible apply wtCommitTry_keeps
    | with_reducible apply keeps_foldl | with_reducible apply keeps_foldl_fst | with_reducible apply keeps_ite_fst | extract_lets
    | split | (with_reducible refine keeps_fst (by assumption) ?_) | dsimp only [id]

theorem sectorWritten_keeps {r0 : State} (s : State) (n : Nat) (w : WinSt) (i : Nat) (lba : Nat) (hk : Keeps r0 s) : Keeps r0
    (State.sectorWritten s n w i lba) := by
  unfold State.sectorWritten
  repeat' first
    | with_reducible assumption | intro _ | with_reducible apply keeps_ite | with_reducible apply bufRefresh_keeps
    | with_reducible apply mqDone_keeps | with_reducible apply stage_keeps | with_reducible apply bump_keeps
    | with_reducible apply updLed_keeps | with_reducible apply parityStale_keeps | with_reducible apply updAct_keeps
    | with_reducible apply setZone_keeps | with_reducible apply zoneParity_keeps | with_reducible apply zoneMap_keeps
    | with_reducible apply keeps_foldl | with_reducible apply keeps_foldl_fst | with_reducible apply keeps_ite_fst | extract_lets
    | split | (with_reducible refine keeps_fst (by assumption) ?_) | simp only [keeps_mk] | dsimp only [id]

theorem spareWritten_keeps {r0 : State} (s : State) (n : Nat) (w : WinSt) (i : Nat) (pos : Nat) (hk : Keeps r0 s) : Keeps r0
    (State.spareWritten s n w i pos) := by
  unfold State.spareWritten
  repeat' first
    | with_reducible assumption | intro _ | with_reducible apply keeps_ite | with_reducible apply updLed_keeps
    | with_reducible apply bump_keeps | with_reducible apply stage_keeps | with_reducible apply mqDone_keeps
    | with_reducible apply parityStale_keeps | with_reducible apply updAct_keeps | with_reducible apply setZone_keeps
    | with_reducible apply zoneParity_keeps | with_reducible apply keeps_foldl | with_reducible apply keeps_foldl_fst
    | with_reducible apply keeps_ite_fst | extract_lets | split | (with_reducible refine keeps_fst (by assumption) ?_)
    | dsimp only [id]

theorem eraseDone_keeps {r0 : State} (s : State) (n : Nat) (z : Nat) (hk : Keeps r0 s) : Keeps r0 (State.eraseDone s n z) := by
  unfold State.eraseDone
  repeat' first
    | with_reducible assumption | intro _ | with_reducible apply keeps_ite | with_reducible apply setZone_keeps
    | with_reducible apply zoneMap_keeps | with_reducible apply eraseNext_keeps | with_reducible apply keeps_foldl
    | with_reducible apply keeps_foldl_fst | with_reducible apply keeps_ite_fst | extract_lets | split
    | (with_reducible refine keeps_fst (by assumption) ?_) | dsimp only [id]

theorem coverSector_keeps {r0 : State} (s : State) (n : Nat) (w : WinSt) (i : Nat) (pos : Option Nat) (hk : Keeps r0 s) : Keeps r0
    (State.coverSector s n w i pos) := by
  unfold State.coverSector
  repeat' first
    | with_reducible assumption | intro _ | with_reducible apply keeps_ite | with_reducible apply sectorWritten_keeps
    | with_reducible apply updAct_keeps | with_reducible apply spareWritten_keeps | with_reducible apply eraseDone_keeps
    | with_reducible apply mqDone_keeps | with_reducible apply parityRefresh_keeps | with_reducible apply keeps_foldl
    | with_reducible apply keeps_foldl_fst | with_reducible apply keeps_ite_fst | extract_lets | split
    | (with_reducible refine keeps_fst (by assumption) ?_) | dsimp only [id]

theorem laneCount_keeps {r0 : State} (s : State) (n : Nat) (l : Nat) (ep : Option (BitVec 16)) (f : RegField) (c : Nat) (hk : Keeps r0
    s) : Keeps r0 (State.laneCount s n l ep f c) := by
  unfold State.laneCount
  repeat' first
    | with_reducible assumption | intro _ | with_reducible apply keeps_ite | with_reducible apply updAct_keeps
    | with_reducible apply unshadow_keeps | with_reducible apply keeps_foldl | with_reducible apply keeps_foldl_fst
    | with_reducible apply keeps_ite_fst | extract_lets | split | (with_reducible refine keeps_fst (by assumption) ?_)
    | dsimp only [id]

theorem ringPush_keeps {r0 : State} (s : State) (l : Nat) (x : RingSlot) (hk : Keeps r0 s) : Keeps r0 (State.ringPush s l x) := by
  unfold State.ringPush
  repeat' first
    | with_reducible assumption | intro _ | with_reducible apply keeps_ite | with_reducible apply updLane_keeps
    | with_reducible apply wr_keeps | with_reducible apply updFlt_keeps | with_reducible apply keeps_foldl
    | with_reducible apply keeps_foldl_fst | with_reducible apply keeps_ite_fst | extract_lets | split
    | (with_reducible refine keeps_fst (by assumption) ?_) | dsimp only [id]

theorem capture_keeps {r0 : State} (s : State) (l : Nat) (x : RingSlot) (ep : BitVec 16) (hk : Keeps r0 s) : Keeps r0 (State.capture s l
    x ep).1 := by
  unfold State.capture
  repeat' first
    | with_reducible assumption | intro _ | with_reducible apply keeps_ite | with_reducible apply updPool_keeps
    | with_reducible apply wrN_keeps | with_reducible apply updLane_keeps | with_reducible apply keeps_foldl
    | with_reducible apply keeps_foldl_fst | with_reducible apply keeps_ite_fst | extract_lets | split
    | (with_reducible refine keeps_fst (by assumption) ?_) | dsimp only [id]

theorem gainStep_keeps {r0 : State} (s : State) (n : Nat) (reader : Nat) (code : Nat) (w : List (Option Placed)) (hk : Keeps r0 s) :
    Keeps r0 (State.gainStep s n reader code w) := by
  unfold State.gainStep
  repeat' first
    | with_reducible assumption | intro _ | with_reducible apply keeps_ite | with_reducible apply ctl_keeps
    | with_reducible apply keeps_foldl | with_reducible apply keeps_foldl_fst | with_reducible apply keeps_ite_fst | extract_lets
    | split | (with_reducible refine keeps_fst (by assumption) ?_) | dsimp only [id]

theorem placeSamples_keeps {r0 : State} (s : State) (n : Nat) (b : Bool) (frame : Word) (edge : Int) (xs : List Int) (hk : Keeps r0 s) :
    Keeps r0 (State.placeSamples s n b frame edge xs) := by
  unfold State.placeSamples
  repeat' first
    | with_reducible assumption | intro _ | with_reducible apply keeps_ite | with_reducible apply feShow_keeps
    | with_reducible apply updLane_keeps | with_reducible apply keeps_foldl | with_reducible apply keeps_foldl_fst
    | with_reducible apply keeps_ite_fst | extract_lets | split | (with_reducible refine keeps_fst (by assumption) ?_)
    | dsimp only [id]

theorem opAdvance_keeps {r0 : State} (s : State) (n : Nat) (hk : Keeps r0 s) : Keeps r0 (State.opAdvance s n) := by
  unfold State.opAdvance
  repeat' first
    | with_reducible assumption | intro _ | with_reducible apply keeps_ite | with_reducible apply updAct_keeps
    | with_reducible apply raSettle_keeps | with_reducible apply endWork_keeps | with_reducible apply spanDecide_keeps
    | with_reducible apply openSpan_keeps | with_reducible apply keeps_foldl | with_reducible apply keeps_foldl_fst
    | with_reducible apply keeps_ite_fst | extract_lets | split | (with_reducible refine keeps_fst (by assumption) ?_)
    | dsimp only [id]

theorem askedVerdict_keeps {r0 : State} (s : State) (n : Nat) (l : Nat) (k : Nat) (a : Asked) (mode : Nat) (x : Seen) (fr : Word × Word)
    (o : SectorObs) (hk : Keeps r0 s) : Keeps r0 (State.askedVerdict s n l k a mode x fr o) := by
  unfold State.askedVerdict
  repeat' first
    | with_reducible assumption | intro _ | with_reducible apply keeps_ite | with_reducible apply updAct_keeps
    | with_reducible apply updPool_keeps | with_reducible apply capture_keeps | with_reducible apply laneCount_keeps
    | with_reducible apply opAdvance_keeps | with_reducible apply keeps_foldl | with_reducible apply keeps_foldl_fst
    | with_reducible apply keeps_ite_fst | extract_lets | split | (with_reducible refine keeps_fst (by assumption) ?_)
    | simp only [keeps_mk] | dsimp only [id] | dsimp +zetaDelta only

theorem calSector_keeps {r0 : State} (s : State) (n : Nat) (k : Nat) (tz : Nat) (x : Seen) (ok : Bool) (falseMark : Bool) (hk : Keeps r0
    s) : Keeps r0 (State.calSector s n k tz x ok falseMark) := by
  unfold State.calSector
  repeat' first
    | with_reducible assumption | intro _ | with_reducible apply keeps_ite | with_reducible apply updThm_keeps
    | with_reducible apply keeps_foldl | with_reducible apply keeps_foldl_fst | with_reducible apply keeps_ite_fst | extract_lets
    | split | (with_reducible refine keeps_fst (by assumption) ?_) | dsimp only [id]

theorem gainMarker_keeps {r0 : State} (s : State) (n : Nat) (reader : Nat) (code : Nat) (hk : Keeps r0 s) : Keeps r0 (State.gainMarker s
    n reader code) := by
  unfold State.gainMarker
  repeat' first
    | with_reducible assumption | intro _ | with_reducible apply keeps_ite | with_reducible apply feShow_keeps
    | with_reducible apply keeps_foldl | with_reducible apply keeps_foldl_fst | with_reducible apply keeps_ite_fst | extract_lets
    | split | (with_reducible refine keeps_fst (by assumption) ?_) | dsimp only [id]

theorem coastEnd_keeps {r0 : State} (s : State) (h : Nat) (hk : Keeps r0 s) : Keeps r0 (State.coastEnd s h) := by
  unfold State.coastEnd
  repeat' first
    | with_reducible assumption | intro _ | with_reducible apply keeps_ite | with_reducible apply spinState_keeps
    | with_reducible apply keeps_foldl | with_reducible apply keeps_foldl_fst | with_reducible apply keeps_ite_fst | extract_lets
    | split | (with_reducible refine keeps_fst (by assumption) ?_) | dsimp only [id]

theorem writeRegion_keeps {r0 : State} (s : State) (n : Nat) (d : SideDesc) (k : Nat) (r : Nat) (bs : List (List Byte)) (hk : Keeps r0
    s) : Keeps r0 (State.writeRegion s n d k r bs) := by
  unfold State.writeRegion
  repeat' first
    | with_reducible assumption | intro _ | with_reducible apply keeps_ite | with_reducible apply emit_keeps
    | with_reducible apply updLed_keeps | with_reducible apply keeps_foldl | with_reducible apply keeps_foldl_fst
    | with_reducible apply keeps_ite_fst | extract_lets | split | (with_reducible refine keeps_fst (by assumption) ?_)
    | dsimp only [id]

theorem writeGen_keeps {r0 : State} (s : State) (n : Nat) (k : Nat) (gen : Nat) (hk : Keeps r0 s) : Keeps r0 (State.writeGen s n k gen)
    := by
  unfold State.writeGen
  repeat' first
    | with_reducible assumption | intro _ | with_reducible apply keeps_ite | with_reducible apply writeRegion_keeps
    | with_reducible apply keeps_foldl | with_reducible apply keeps_foldl_fst | with_reducible apply keeps_ite_fst | extract_lets
    | split | (with_reducible refine keeps_fst (by assumption) ?_) | dsimp only [id]

theorem zoneEvent_keeps {r0 : State} (s : State) (n : Nat) (z : Nat) (hk : Keeps r0 s) : Keeps r0 (State.zoneEvent s n z) := by
  unfold State.zoneEvent
  repeat' first
    | with_reducible assumption | intro _ | with_reducible apply keeps_ite | with_reducible apply event_keeps
    | with_reducible apply updHost_keeps | with_reducible apply keeps_foldl | with_reducible apply keeps_foldl_fst
    | with_reducible apply keeps_ite_fst | extract_lets | split | (with_reducible refine keeps_fst (by assumption) ?_)
    | dsimp only [id]

theorem lostEvent_keeps {r0 : State} (s : State) (n : Nat) (hk : Keeps r0 s) : Keeps r0 (State.lostEvent s n) := by
  unfold State.lostEvent
  repeat' first
    | with_reducible assumption | intro _ | with_reducible apply keeps_ite | with_reducible apply event_keeps
    | with_reducible apply updHost_keeps | with_reducible apply keeps_foldl | with_reducible apply keeps_foldl_fst
    | with_reducible apply keeps_ite_fst | extract_lets | split | (with_reducible refine keeps_fst (by assumption) ?_)
    | dsimp only [id]

theorem relocate_keeps {r0 : State} (s : State) (n : Nat) (conv : Bool) (lba : Nat) (step : Nat) (payload : List Byte) (hk : Keeps r0 s)
    : Keeps r0 (State.relocate s n conv lba step payload).1 := by
  unfold State.relocate
  repeat' first
    | with_reducible assumption | intro _ | with_reducible apply keeps_ite | with_reducible apply updLed_keeps
    | with_reducible apply wrN_keeps | with_reducible apply mqWait_keeps | with_reducible apply bump_keeps
    | with_reducible apply queueSpares_keeps | with_reducible apply setZone_keeps | with_reducible apply zoneEvent_keeps
    | with_reducible apply keeps_foldl | with_reducible apply keeps_foldl_fst | with_reducible apply keeps_ite_fst | extract_lets
    | split | (with_reducible refine keeps_fst (by assumption) ?_) | dsimp only [id]

theorem recAccept_keeps {r0 : State} (s : State) (r : RecRecord) (stored : List Byte) (hk : Keeps r0 s) : Keeps r0 (State.recAccept s r
    stored) := by
  unfold State.recAccept
  repeat' first
    | with_reducible assumption | intro _ | with_reducible apply keeps_ite | with_reducible apply bumpBy_keeps
    | with_reducible apply relocate_keeps | with_reducible apply recDrop_keeps | with_reducible apply deliver_keeps
    | with_reducible apply trace_keeps | with_reducible apply keeps_foldl | with_reducible apply keeps_foldl_fst
    | with_reducible apply keeps_ite_fst | extract_lets | split | (with_reducible refine keeps_fst (by assumption) ?_)
    | dsimp only [id]

theorem capCheck_keeps {r0 : State} (s : State) (r : RecRecord) (hk : Keeps r0 s) : Keeps r0 (State.capCheck s r).1 := by
  unfold State.capCheck
  repeat' first
    | with_reducible assumption | intro _ | with_reducible apply keeps_ite | with_reducible apply raise_keeps
    | with_reducible apply setRec_keeps | with_reducible apply keeps_foldl | with_reducible apply keeps_foldl_fst
    | with_reducible apply keeps_ite_fst | extract_lets | split | (with_reducible refine keeps_fst (by assumption) ?_)
    | dsimp only [id]

theorem sanShow_keeps {r0 : State} (s : State) (n : Nat) (hk : Keeps r0 s) : Keeps r0 (State.sanShow s n) := by
  unfold State.sanShow
  repeat' first
    | with_reducible assumption | intro _ | with_reducible apply keeps_ite | with_reducible apply wrN_keeps
    | with_reducible apply keeps_foldl | with_reducible apply keeps_foldl_fst | with_reducible apply keeps_ite_fst | extract_lets
    | split | (with_reducible refine keeps_fst (by assumption) ?_) | dsimp only [id]

theorem genDurable_keeps {r0 : State} (s : State) (n : Nat) (k : Nat) (hk : Keeps r0 s) : Keeps r0 (State.genDurable s n k) := by
  unfold State.genDurable
  repeat' first
    | with_reducible assumption | intro _ | with_reducible apply keeps_ite | with_reducible apply writeGen_keeps
    | with_reducible apply updLed_keeps | with_reducible apply wr_keeps | with_reducible apply lostEvent_keeps
    | with_reducible apply wrB_keeps | with_reducible apply zoneEvent_keeps | with_reducible apply keeps_foldl
    | with_reducible apply keeps_foldl_fst | with_reducible apply keeps_ite_fst | extract_lets | split
    | (with_reducible refine keeps_fst (by assumption) ?_) | dsimp only [id]

theorem makeOpen_keeps {r0 : State} (s : State) (n : Nat) (z : Nat) (hk : Keeps r0 s) : Keeps r0 (State.makeOpen s n z) := by
  unfold State.makeOpen
  repeat' first
    | with_reducible assumption | intro _ | with_reducible apply keeps_ite | with_reducible apply bump_keeps
    | with_reducible apply setZone_keeps | with_reducible apply keeps_foldl | with_reducible apply keeps_foldl_fst
    | with_reducible apply keeps_ite_fst | extract_lets | split | (with_reducible refine keeps_fst (by assumption) ?_)
    | dsimp only [id]

theorem admitRead_keeps {r0 : State} (s : State) (c : Cmd) (hk : Keeps r0 s) : Keeps r0 (State.admitRead s c) := by
  unfold State.admitRead
  repeat' first
    | with_reducible assumption | intro _ | with_reducible apply keeps_ite | with_reducible apply updHost_keeps
    | with_reducible apply bumpBy_keeps | with_reducible apply mqWait_keeps | with_reducible apply keeps_foldl
    | with_reducible apply keeps_foldl_fst | with_reducible apply keeps_ite_fst | extract_lets | split
    | (with_reducible refine keeps_fst (by assumption) ?_) | dsimp only [id]

theorem giveRoom_keeps {r0 : State} (s : State) (hk : Keeps r0 s) : Keeps r0 (State.giveRoom s) := by
  unfold State.giveRoom
  repeat' first
    | with_reducible assumption | intro _ | with_reducible apply keeps_ite | with_reducible apply bufRefresh_keeps
    | with_reducible apply updCmd_keeps | with_reducible apply keeps_foldl | with_reducible apply keeps_foldl_fst
    | with_reducible apply keeps_ite_fst | extract_lets | split | (with_reducible refine keeps_fst (by assumption) ?_)
    | dsimp only [id]

theorem admitWrite_keeps {r0 : State} (s : State) (c : Cmd) (hk : Keeps r0 s) : Keeps r0 (State.admitWrite s c) := by
  unfold State.admitWrite
  repeat' first
    | with_reducible assumption | intro _ | with_reducible apply keeps_ite | with_reducible apply wrN_keeps
    | with_reducible apply updLed_keeps | with_reducible apply bump_keeps | with_reducible apply mqDrop_keeps
    | with_reducible apply updHost_keeps | with_reducible apply lostRemove_keeps | with_reducible apply updPool_keeps
    | with_reducible apply gapFill_keeps | with_reducible apply mqWait_keeps | with_reducible apply makeOpen_keeps
    | with_reducible apply setZone_keeps | with_reducible apply zoneMap_keeps | with_reducible apply eraseZone_keeps
    | with_reducible apply accRebuild_keeps | with_reducible apply stage_keeps | with_reducible apply giveRoom_keeps
    | with_reducible apply keeps_foldl | with_reducible apply keeps_foldl_fst | with_reducible apply keeps_ite_fst | extract_lets
    | split | (with_reducible refine keeps_fst (by assumption) ?_) | simp only [keeps_mk] | dsimp only [id] | dsimp +zetaDelta only

theorem takeTurn_keeps {r0 : State} (s : State) (passed fuel : Nat) (hk : Keeps r0 s) : Keeps r0 (State.takeTurn s passed fuel).1 := by
  induction fuel generalizing s passed with
  | zero => exact hk
  | succ n ih =>
    unfold State.takeTurn
    repeat' first
      | with_reducible assumption | with_reducible apply ih | with_reducible apply trace_keeps | with_reducible apply updHost_keeps
      | with_reducible apply bump_keeps | with_reducible apply keeps_ite_fst | extract_lets | split | dsimp +zetaDelta only

theorem fetchTurn_keeps {r0 : State} (s : State) (e : Sqe) (hk : Keeps r0 s) : Keeps r0 (State.fetchTurn s e) := by
  unfold State.fetchTurn
  repeat' first
    | with_reducible assumption | intro _ | with_reducible apply keeps_ite | with_reducible apply takeTurn_keeps
    | with_reducible apply updHost_keeps | with_reducible apply wrN_keeps | with_reducible apply wr64_keeps
    | with_reducible apply complete_keeps | with_reducible apply bump_keeps | with_reducible apply admitRead_keeps
    | with_reducible apply admitWrite_keeps | with_reducible apply mqWait_keeps | with_reducible apply mqRefresh_keeps
    | with_reducible apply updAct_keeps | with_reducible apply updCmd_keeps | with_reducible apply keeps_foldl
    | with_reducible apply keeps_foldl_fst | with_reducible apply keeps_ite_fst | extract_lets | split
    | (with_reducible refine keeps_fst (by assumption) ?_) | simp only [keeps_mk] | dsimp only [id]

theorem holdActs_keeps {r0 : State} (s : State) (hk : Keeps r0 s) : Keeps r0 (State.holdActs s) := by
  unfold State.holdActs
  repeat' first
    | with_reducible assumption | intro _ | with_reducible apply keeps_ite | with_reducible apply updAct_keeps
    | with_reducible apply keeps_foldl | with_reducible apply keeps_foldl_fst | with_reducible apply keeps_ite_fst | extract_lets
    | split | (with_reducible refine keeps_fst (by assumption) ?_) | dsimp only [id]

theorem psOperational_keeps {r0 : State} (s : State) (t : Nat) (hk : Keeps r0 s) : Keeps r0 (State.psOperational s t) := by
  unfold State.psOperational
  repeat' first
    | with_reducible assumption | intro _ | with_reducible apply keeps_ite | with_reducible apply wrB_keeps
    | with_reducible apply wrN_keeps | with_reducible apply audit_keeps | with_reducible apply wr_keeps
    | with_reducible apply holdActs_keeps | with_reducible apply keeps_foldl | with_reducible apply keeps_foldl_fst
    | with_reducible apply keeps_ite_fst | extract_lets | split | (with_reducible refine keeps_fst (by assumption) ?_)
    | simp only [keeps_mk] | dsimp only [id]

theorem psWake_keeps {r0 : State} (s : State) (hk : Keeps r0 s) : Keeps r0 (State.psWake s) := by
  unfold State.psWake
  repeat' first
    | with_reducible assumption | intro _ | with_reducible apply keeps_ite | with_reducible apply psOperational_keeps
    | with_reducible apply keeps_foldl | with_reducible apply keeps_foldl_fst | with_reducible apply keeps_ite_fst | extract_lets
    | split | (with_reducible refine keeps_fst (by assumption) ?_) | dsimp only [id]

theorem postWaiting_keeps {r0 : State} (s : State) (hk : Keeps r0 s) : Keeps r0 (State.postWaiting s) := by
  unfold State.postWaiting
  repeat' first
    | with_reducible assumption | intro _ | with_reducible apply keeps_ite | with_reducible apply complete_keeps
    | with_reducible apply keeps_foldl | with_reducible apply keeps_foldl_fst | with_reducible apply keeps_ite_fst | extract_lets
    | split | (with_reducible refine keeps_fst (by assumption) ?_) | dsimp only [id]

theorem adminRow_keeps {r0 : State} (s : State) (slot : BitVec 16) (opc : Nat) (act : Cmd → State → State) (hact : ∀ (x0 : Cmd) (x1 :
    State), Keeps r0 x1 → Keeps r0 (act x0 x1)) (hk : Keeps r0 s) : Keeps r0 (State.adminRow s slot opc act) := by
  unfold State.adminRow
  repeat' first
    | with_reducible assumption | intro _ | apply hact | with_reducible apply keeps_ite | with_reducible apply updCmd_keeps
    | with_reducible apply keeps_foldl | with_reducible apply keeps_foldl_fst | with_reducible apply keeps_ite_fst | extract_lets
    | split | (with_reducible refine keeps_fst (by assumption) ?_) | dsimp only [id]

theorem ioRow_keeps {r0 : State} (s : State) (slot : BitVec 16) (opc : Nat) (act : Cmd → State → State) (hact : ∀ (x0 : Cmd) (x1 :
    State), Keeps r0 x1 → Keeps r0 (act x0 x1)) (hk : Keeps r0 s) : Keeps r0 (State.ioRow s slot opc act) := by
  unfold State.ioRow
  repeat' first
    | with_reducible assumption | intro _ | apply hact | with_reducible apply keeps_ite | with_reducible apply updCmd_keeps
    | with_reducible apply keeps_foldl | with_reducible apply keeps_foldl_fst | with_reducible apply keeps_ite_fst | extract_lets
    | split | (with_reducible refine keeps_fst (by assumption) ?_) | dsimp only [id]

theorem setFeature_keeps {r0 : State} (s : State) (slot : BitVec 16) (fid : Nat) (act : Cmd → State → State) (hact : ∀ (x0 : Cmd) (x1 :
    State), Keeps r0 x1 → Keeps r0 (act x0 x1)) (hk : Keeps r0 s) : Keeps r0 (State.setFeature s slot fid act) := by
  unfold State.setFeature
  repeat' first
    | with_reducible assumption | intro _ | apply hact | with_reducible apply keeps_ite | with_reducible apply adminRow_keeps
    | with_reducible apply keeps_foldl | with_reducible apply keeps_foldl_fst | with_reducible apply keeps_ite_fst | extract_lets
    | split | (with_reducible refine keeps_fst (by assumption) ?_) | dsimp only [id]

theorem abortSlot_keeps {r0 : State} (s : State) (c : Cmd) (status : Nat) (hk : Keeps r0 s) : Keeps r0 (State.abortSlot s c status) := by
  unfold State.abortSlot
  repeat' first
    | with_reducible assumption | intro _ | with_reducible apply keeps_ite | with_reducible apply trace_keeps
    | with_reducible apply updCmd_keeps | with_reducible apply abortWork_keeps | with_reducible apply keeps_foldl
    | with_reducible apply keeps_foldl_fst | with_reducible apply keeps_ite_fst | extract_lets | split
    | (with_reducible refine keeps_fst (by assumption) ?_) | dsimp only [id]

theorem waitersDone_keeps {r0 : State} (s : State) (hk : Keeps r0 s) : Keeps r0 (State.waitersDone s) := by
  unfold State.waitersDone
  repeat' first
    | with_reducible assumption | intro _ | with_reducible apply keeps_ite | with_reducible apply updHost_keeps
    | with_reducible apply complete_keeps | with_reducible apply keeps_foldl | with_reducible apply keeps_foldl_fst
    | with_reducible apply keeps_ite_fst | extract_lets | split | (with_reducible refine keeps_fst (by assumption) ?_)
    | dsimp only [id]

theorem featureDefaults_keeps {r0 : State} (s : State) (hk : Keeps r0 s) : Keeps r0 (State.featureDefaults s) := by
  unfold State.featureDefaults
  repeat' first
    | with_reducible assumption | intro _ | with_reducible apply keeps_ite | with_reducible apply wr_keeps
    | with_reducible apply psOperational_keeps | with_reducible apply updHost_keeps | with_reducible apply keeps_foldl
    | with_reducible apply keeps_foldl_fst | with_reducible apply keeps_ite_fst | extract_lets | split
    | (with_reducible refine keeps_fst (by assumption) ?_) | dsimp only [id]

theorem ctrlReset_keeps {r0 : State} (s : State) (hk : Keeps r0 s) : Keeps r0 (State.ctrlReset s) := by
  unfold State.ctrlReset
  repeat' first
    | with_reducible assumption | intro _ | with_reducible apply keeps_ite | with_reducible apply abortWork_keeps
    | with_reducible apply updHost_keeps | with_reducible apply bufRefresh_keeps | with_reducible apply featureDefaults_keeps
    | with_reducible apply wr_keeps | with_reducible apply keeps_foldl | with_reducible apply keeps_foldl_fst
    | with_reducible apply keeps_ite_fst | extract_lets | split | (with_reducible refine keeps_fst (by assumption) ?_)
    | simp only [keeps_mk] | dsimp only [id]

theorem ctrlReady_keeps {r0 : State} (s : State) (hk : Keeps r0 s) : Keeps r0 (State.ctrlReady s) := by
  unfold State.ctrlReady
  repeat' first
    | with_reducible assumption | intro _ | with_reducible apply keeps_ite | with_reducible apply updHost_keeps
    | with_reducible apply keeps_foldl | with_reducible apply keeps_foldl_fst | with_reducible apply keeps_ite_fst | extract_lets
    | split | (with_reducible refine keeps_fst (by assumption) ?_) | dsimp only [id]

theorem cleanSides_keeps {r0 : State} (s : State) (hk : Keeps r0 s) : Keeps r0 (State.cleanSides s) := by
  unfold State.cleanSides
  repeat' first
    | with_reducible assumption | intro _ | with_reducible apply keeps_ite | with_reducible apply updLed_keeps
    | with_reducible apply stage_keeps | with_reducible apply keeps_foldl | with_reducible apply keeps_foldl_fst
    | with_reducible apply keeps_ite_fst | extract_lets | split | (with_reducible refine keeps_fst (by assumption) ?_)
    | dsimp only [id]

theorem bufferGrain_keeps {r0 : State} (s : State) (c : Cmd) (lba : Nat) (payload : List Byte) (hk : Keeps r0 s) : Keeps r0
    (State.bufferGrain s c lba payload) := by
  unfold State.bufferGrain
  repeat' first
    | with_reducible assumption | intro _ | with_reducible apply keeps_ite | with_reducible apply putGrain_keeps
    | with_reducible apply updHost_keeps | with_reducible apply updCmd_keeps | with_reducible apply bufRefresh_keeps
    | with_reducible apply setZone_keeps | with_reducible apply zoneFull_keeps | with_reducible apply keeps_foldl
    | with_reducible apply keeps_foldl_fst | with_reducible apply keeps_ite_fst | extract_lets | split
    | (with_reducible refine keeps_fst (by assumption) ?_) | simp only [keeps_mk] | dsimp only [id]

theorem fillZeroes_keeps {r0 : State} (s : State) (slot fuel : Nat) (hk : Keeps r0 s) : Keeps r0 (State.fillZeroes s slot fuel) := by
  induction fuel generalizing s with
  | zero => unfold State.fillZeroes; exact hk
  | succ n ih =>
    unfold State.fillZeroes
    split
    · rename_i fuel c hf hc
      obtain rfl : n = fuel := by simpa using hf
      repeat' first
        | with_reducible assumption | with_reducible apply keeps_ite | with_reducible apply ih | with_reducible apply bufferGrain_keeps | split
    · exact hk

theorem cacheCheck_keeps {r0 : State} (s : State) (n : Nat) (conv : Bool) (lba : Nat) (hk : Keeps r0 s) : Keeps r0 (State.cacheCheck s n
    conv lba) := by
  unfold State.cacheCheck
  repeat' first
    | with_reducible assumption | intro _ | with_reducible apply keeps_ite | with_reducible apply bump_keeps
    | with_reducible apply raise_keeps | with_reducible apply keeps_foldl | with_reducible apply keeps_foldl_fst
    | with_reducible apply keeps_ite_fst | extract_lets | split | (with_reducible refine keeps_fst (by assumption) ?_)
    | simp only [keeps_mk] | dsimp only [id]

theorem serve_keeps {r0 : State} (s : State) (c : Cmd) (hk : Keeps r0 s) : Keeps r0 (State.serve s c) := by
  unfold State.serve
  repeat' first
    | with_reducible assumption | intro _ | with_reducible apply keeps_ite | with_reducible apply cacheCheck_keeps
    | with_reducible apply complete_keeps | with_reducible apply badGrain_keeps | with_reducible apply emit_keeps
    | with_reducible apply updCmd_keeps | with_reducible apply mqWait_keeps | with_reducible apply keeps_foldl
    | with_reducible apply keeps_foldl_fst | with_reducible apply keeps_ite_fst | extract_lets | split
    | (with_reducible refine keeps_fst (by assumption) ?_) | dsimp only [id]

theorem readStart_keeps {r0 : State} (s : State) (c : Cmd) (hk : Keeps r0 s) : Keeps r0 (State.readStart s c) := by
  unfold State.readStart
  repeat' first
    | with_reducible assumption | intro _ | with_reducible apply keeps_ite | with_reducible apply updHost_keeps
    | with_reducible apply bump_keeps | with_reducible apply settle_keeps | with_reducible apply complete_keeps
    | with_reducible apply errEntry_keeps | with_reducible apply serve_keeps | with_reducible apply keeps_foldl
    | with_reducible apply keeps_foldl_fst | with_reducible apply keeps_ite_fst | extract_lets | split
    | (with_reducible refine keeps_fst (by assumption) ?_) | dsimp only [id]

theorem zoneSend_keeps {r0 : State} (s : State) (slot : BitVec 16) (zsa : Nat) (act : Cmd → State → State) (hact : ∀ (x0 : Cmd) (x1 :
    State), Keeps r0 x1 → Keeps r0 (act x0 x1)) (hk : Keeps r0 s) : Keeps r0 (State.zoneSend s slot zsa act) := by
  unfold State.zoneSend
  repeat' first
    | with_reducible assumption | intro _ | apply hact | with_reducible apply keeps_ite | with_reducible apply ioRow_keeps
    | with_reducible apply keeps_foldl | with_reducible apply keeps_foldl_fst | with_reducible apply keeps_ite_fst | extract_lets
    | split | (with_reducible refine keeps_fst (by assumption) ?_) | dsimp only [id]

theorem zoneAct_keeps {r0 : State} (s : State) (c : Cmd) (permits : ZCond → Bool) (act : List Nat → State → State) (hact : ∀ (x0 : List
    Nat) (x1 : State), Keeps r0 x1 → Keeps r0 (act x0 x1)) (hk : Keeps r0 s) : Keeps r0 (State.zoneAct s c permits act) := by
  unfold State.zoneAct
  repeat' first
    | with_reducible assumption | intro _ | apply hact | with_reducible apply keeps_ite | with_reducible apply complete_keeps
    | with_reducible apply keeps_foldl | with_reducible apply keeps_foldl_fst | with_reducible apply keeps_ite_fst | extract_lets
    | split | (with_reducible refine keeps_fst (by assumption) ?_) | dsimp only [id]

theorem zoneRecv_keeps {r0 : State} (s : State) (slot : BitVec 16) (zra : Nat) (act : Cmd → State → State) (hact : ∀ (x0 : Cmd) (x1 :
    State), Keeps r0 x1 → Keeps r0 (act x0 x1)) (hk : Keeps r0 s) : Keeps r0 (State.zoneRecv s slot zra act) := by
  unfold State.zoneRecv
  repeat' first
    | with_reducible assumption | intro _ | apply hact | with_reducible apply keeps_ite | with_reducible apply ioRow_keeps
    | with_reducible apply keeps_foldl | with_reducible apply keeps_foldl_fst | with_reducible apply keeps_ite_fst | extract_lets
    | split | (with_reducible refine keeps_fst (by assumption) ?_) | dsimp only [id]

theorem mbAccess_keeps {r0 : State} (s : State) (who : Initiator) (ch : Nat) (d : Nat) (off : Nat) (wr : Bool) (act : State → State)
    (hact : ∀ (x0 : State), Keeps r0 x0 → Keeps r0 (act x0)) (hk : Keeps r0 s) : Keeps r0 (State.mbAccess s who ch d off wr act) := by
  unfold State.mbAccess
  repeat' first
    | with_reducible assumption | intro _ | apply hact | with_reducible apply keeps_ite | with_reducible apply wake_keeps
    | with_reducible apply refused_keeps | with_reducible apply violate_keeps | with_reducible apply guardAcc_keeps
    | with_reducible apply keeps_foldl | with_reducible apply keeps_foldl_fst | with_reducible apply keeps_ite_fst | extract_lets
    | split | (with_reducible refine keeps_fst (by assumption) ?_) | dsimp only [id]

theorem mbPut_keeps {r0 : State} (s : State) (ch : Nat) (d : Nat) (f : Mbox → Mbox) (hk : Keeps r0 s) : Keeps r0 (State.mbPut s ch d f)
    := by
  unfold State.mbPut
  repeat' first
    | with_reducible assumption | intro _ | with_reducible apply keeps_ite | with_reducible apply updMbox_keeps
    | with_reducible apply msixSend_keeps | with_reducible apply keeps_foldl | with_reducible apply keeps_foldl_fst
    | with_reducible apply keeps_ite_fst | extract_lets | split | (with_reducible refine keeps_fst (by assumption) ?_)
    | dsimp only [id]

theorem mbGo_keeps {r0 : State} (s : State) (ch : Nat) (d : Nat) (who : Initiator) (hk : Keeps r0 s) : Keeps r0 (State.mbGo s ch d who)
    := by
  unfold State.mbGo
  repeat' first
    | with_reducible assumption | ((with_reducible apply otpLe_of_same) <;> rfl) | intro _ | with_reducible apply keeps_ite
    | with_reducible apply mbPut_keeps | with_reducible apply updHusk_keeps | with_reducible apply keeps_foldl
    | with_reducible apply keeps_foldl_fst | with_reducible apply keeps_ite_fst | extract_lets | split
    | (with_reducible refine keeps_fst (by assumption) ?_) | dsimp only [id]

theorem mbRelease_keeps {r0 : State} (s : State) (ch : Nat) (d : Nat) (hk : Keeps r0 s) : Keeps r0 (State.mbRelease s ch d) := by
  unfold State.mbRelease
  repeat' first
    | with_reducible assumption | intro _ | with_reducible apply keeps_ite | with_reducible apply mbPut_keeps
    | with_reducible apply keeps_foldl | with_reducible apply keeps_foldl_fst | with_reducible apply keeps_ite_fst | extract_lets
    | split | (with_reducible refine keeps_fst (by assumption) ?_) | dsimp only [id]

theorem mbUnqueue_keeps {r0 : State} (s : State) (ch : Nat) (d : Nat) (hk : Keeps r0 s) : Keeps r0 (State.mbUnqueue s ch d) := by
  unfold State.mbUnqueue
  repeat' first
    | with_reducible assumption | ((with_reducible apply otpLe_of_same) <;> rfl) | intro _ | with_reducible apply keeps_ite
    | with_reducible apply updHusk_keeps | with_reducible apply keeps_foldl | with_reducible apply keeps_foldl_fst
    | with_reducible apply keeps_ite_fst | extract_lets | split | (with_reducible refine keeps_fst (by assumption) ?_)
    | dsimp only [id]

theorem mbRcvReset_keeps {r0 : State} (s : State) (ch : Nat) (d : Nat) (hk : Keeps r0 s) : Keeps r0 (State.mbRcvReset s ch d) := by
  unfold State.mbRcvReset
  repeat' first
    | with_reducible assumption | intro _ | with_reducible apply keeps_ite | with_reducible apply mbUnqueue_keeps
    | with_reducible apply mbPut_keeps | with_reducible apply keeps_foldl | with_reducible apply keeps_foldl_fst
    | with_reducible apply keeps_ite_fst | extract_lets | split | (with_reducible refine keeps_fst (by assumption) ?_)
    | dsimp only [id]

theorem mbCompatRead_keeps {r0 : State} (s : State) (ch : Nat) (d : Nat) (who : Initiator) (hk : Keeps r0 s) : Keeps r0
    (State.mbCompatRead s ch d who) := by
  unfold State.mbCompatRead
  repeat' first
    | with_reducible assumption | intro _ | with_reducible apply keeps_ite | with_reducible apply emit_keeps
    | with_reducible apply mbPut_keeps | with_reducible apply keeps_foldl | with_reducible apply keeps_foldl_fst
    | with_reducible apply keeps_ite_fst | extract_lets | split | (with_reducible refine keeps_fst (by assumption) ?_)
    | dsimp only [id]

theorem mbCross_keeps {r0 : State} (s : State) (ch : Nat) (newly : Bool) (hk : Keeps r0 s) : Keeps r0 (State.mbCross s ch newly) := by
  unfold State.mbCross
  repeat' first
    | with_reducible assumption | intro _ | with_reducible apply keeps_ite | with_reducible apply mbPut_keeps
    | with_reducible apply keeps_foldl | with_reducible apply keeps_foldl_fst | with_reducible apply keeps_ite_fst | extract_lets
    | split | (with_reducible refine keeps_fst (by assumption) ?_) | dsimp only [id]

theorem mbRecv_keeps {r0 : State} (s : State) (ch : Nat) (d : Nat) (a : RecvAct) (hk : Keeps r0 s) : Keeps r0 (State.mbRecv s ch d a) := by
  unfold State.mbRecv
  repeat' first
    | with_reducible assumption | intro _ | with_reducible apply keeps_ite | with_reducible apply mbAccess_keeps
    | with_reducible apply mbRelease_keeps | with_reducible apply mbRcvReset_keeps | with_reducible apply mbCompatRead_keeps
    | with_reducible apply keeps_foldl | with_reducible apply keeps_foldl_fst | with_reducible apply keeps_ite_fst | extract_lets
    | split | (with_reducible refine keeps_fst (by assumption) ?_) | dsimp only [id]

theorem mbData_keeps {r0 : State} (s : State) (ch : Nat) (d : Nat) (i : Nat) (v : Word) (hk : Keeps r0 s) : Keeps r0 (State.mbData s ch
    d i v) := by
  unfold State.mbData
  repeat' first
    | with_reducible assumption | intro _ | with_reducible apply keeps_ite | with_reducible apply mbPut_keeps
    | with_reducible apply keeps_foldl | with_reducible apply keeps_foldl_fst | with_reducible apply keeps_ite_fst | extract_lets
    | split | (with_reducible refine keeps_fst (by assumption) ?_) | dsimp only [id]

theorem mbCtl_keeps {r0 : State} (s : State) (who : Initiator) (ch : Nat) (d : Nat) (v : Word) (hk : Keeps r0 s) : Keeps r0 (State.mbCtl
    s who ch d v) := by
  unfold State.mbCtl
  repeat' first
    | with_reducible assumption | intro _ | with_reducible apply keeps_ite | with_reducible apply mbGo_keeps
    | with_reducible apply mbRcvReset_keeps | with_reducible apply mbRelease_keeps | with_reducible apply mbCross_keeps
    | with_reducible apply keeps_foldl | with_reducible apply keeps_foldl_fst | with_reducible apply keeps_ite_fst | extract_lets
    | split | (with_reducible refine keeps_fst (by assumption) ?_) | dsimp only [id]

theorem mbReg_keeps {r0 : State} (s : State) (who : Initiator) (ch : Nat) (d : Nat) (off : Nat) (v : Word) (hk : Keeps r0 s) : Keeps r0
    (State.mbReg s who ch d off v) := by
  unfold State.mbReg
  repeat' first
    | with_reducible assumption | intro _ | with_reducible apply keeps_ite | with_reducible apply mbPut_keeps
    | with_reducible apply keeps_foldl | with_reducible apply keeps_foldl_fst | with_reducible apply keeps_ite_fst | extract_lets
    | split | (with_reducible refine keeps_fst (by assumption) ?_) | dsimp only [id]

theorem mbWrite_keeps {r0 : State} (s : State) (who : Initiator) (ch : Nat) (d : Nat) (off : Nat) (v : Word) (hk : Keeps r0 s) : Keeps
    r0 (State.mbWrite s who ch d off v) := by
  unfold State.mbWrite
  repeat' first
    | with_reducible assumption | intro _ | with_reducible apply keeps_ite | with_reducible apply mbData_keeps
    | with_reducible apply mbCtl_keeps | with_reducible apply mbReg_keeps | with_reducible apply keeps_foldl
    | with_reducible apply keeps_foldl_fst | with_reducible apply keeps_ite_fst | extract_lets | split
    | (with_reducible refine keeps_fst (by assumption) ?_) | dsimp only [id]

theorem updLock_keeps {r0 : State} (s : State) (i : Nat) (f : Lock → Lock) (hk : Keeps r0 s) : Keeps r0 (State.updLock s i f) := by
  unfold State.updLock
  repeat' first
    | with_reducible assumption | intro _ | with_reducible apply keeps_ite | with_reducible apply keeps_foldl
    | with_reducible apply keeps_foldl_fst | with_reducible apply keeps_ite_fst | extract_lets | split
    | (with_reducible refine keeps_fst (by assumption) ?_) | simp only [keeps_mk] | dsimp only [id]

theorem lockWrite_keeps {r0 : State} (s : State) (i : Nat) (who : Initiator) (hk : Keeps r0 s) : Keeps r0 (State.lockWrite s i who) := by
  unfold State.lockWrite
  repeat' first
    | with_reducible assumption | intro _ | with_reducible apply keeps_ite | with_reducible apply updLock_keeps
    | with_reducible apply keeps_foldl | with_reducible apply keeps_foldl_fst | with_reducible apply keeps_ite_fst | extract_lets
    | split | (with_reducible refine keeps_fst (by assumption) ?_) | dsimp only [id]

theorem lockFree_keeps {r0 : State} (s : State) (i : Nat) (who : Initiator) (hk : Keeps r0 s) : Keeps r0 (State.lockFree s i who) := by
  unfold State.lockFree
  repeat' first
    | with_reducible assumption | intro _ | with_reducible apply keeps_ite | with_reducible apply guard_keeps
    | with_reducible apply lockWrite_keeps | with_reducible apply keeps_foldl | with_reducible apply keeps_foldl_fst
    | with_reducible apply keeps_ite_fst | extract_lets | split | (with_reducible refine keeps_fst (by assumption) ?_)
    | dsimp only [id]

theorem locksOf_keeps {r0 : State} (s : State) (who : Nat) (hk : Keeps r0 s) : Keeps r0 (State.locksOf s who) := by
  unfold State.locksOf
  repeat' first
    | with_reducible assumption | intro _ | with_reducible apply keeps_ite | with_reducible apply keeps_foldl
    | with_reducible apply keeps_foldl_fst | with_reducible apply keeps_ite_fst | extract_lets | split
    | (with_reducible refine keeps_fst (by assumption) ?_) | simp only [keeps_mk] | dsimp only [id]

theorem winWrite_keeps {r0 : State} (s : State) (id : Nat) (w : Nat) (reg : Nat) (value : Word) (hk : Keeps r0 s) : Keeps r0
    (State.winWrite s id w reg value) := by
  unfold State.winWrite
  repeat' first
    | with_reducible assumption | intro _ | with_reducible apply keeps_ite | with_reducible apply keeps_foldl
    | with_reducible apply keeps_foldl_fst | with_reducible apply keeps_ite_fst | extract_lets | split
    | (with_reducible refine keeps_fst (by assumption) ?_) | simp only [keeps_mk] | dsimp only [id]

theorem violWrite_keeps {r0 : State} (s : State) (id : Nat) (reg : Nat) (v : Word) (hk : Keeps r0 s) : Keeps r0 (State.violWrite s id
    reg v) := by
  unfold State.violWrite
  repeat' first
    | with_reducible assumption | intro _ | with_reducible apply keeps_ite | with_reducible apply keeps_foldl
    | with_reducible apply keeps_foldl_fst | with_reducible apply keeps_ite_fst | extract_lets | split
    | (with_reducible refine keeps_fst (by assumption) ?_) | simp only [keeps_mk] | dsimp only [id]

theorem msixWrite_keeps {r0 : State} (s : State) (i : Nat) (v : Word) (hk : Keeps r0 s) : Keeps r0 (State.msixWrite s i v) := by
  unfold State.msixWrite
  repeat' first
    | with_reducible assumption | intro _ | with_reducible apply keeps_ite | with_reducible apply updHost_keeps
    | with_reducible apply emit_keeps | with_reducible apply keeps_foldl | with_reducible apply keeps_foldl_fst
    | with_reducible apply keeps_ite_fst | extract_lets | split | (with_reducible refine keeps_fst (by assumption) ?_)
    | dsimp only [id]

theorem bar0High_keeps {r0 : State} (s : State) (lo : Nat) (both : Word → HostSt → HostSt) (high : HostSt → HostSt) (hk : Keeps r0 s) :
    Keeps r0 (State.bar0High s lo both high) := by
  unfold State.bar0High
  repeat' first
    | with_reducible assumption | intro _ | with_reducible apply keeps_ite | with_reducible apply updHost_keeps
    | with_reducible apply keeps_foldl | with_reducible apply keeps_foldl_fst | with_reducible apply keeps_ite_fst | extract_lets
    | split | (with_reducible refine keeps_fst (by assumption) ?_) | simp only [keeps_mk] | dsimp only [id]

theorem bar0Write_keeps {r0 : State} (s : State) (ofs : Nat) (v : Word) (hk : Keeps r0 s) : Keeps r0 (State.bar0Write s ofs v) := by
  unfold State.bar0Write
  repeat' first
    | with_reducible assumption | intro _ | with_reducible apply keeps_ite | with_reducible apply updHost_keeps
    | with_reducible apply bar0High_keeps | with_reducible apply msixWrite_keeps | with_reducible apply violate_keeps
    | with_reducible apply keeps_foldl | with_reducible apply keeps_foldl_fst | with_reducible apply keeps_ite_fst | extract_lets
    | split | (with_reducible refine keeps_fst (by assumption) ?_) | simp only [keeps_mk] | dsimp only [id]

theorem bar2Write_keeps {r0 : State} (s : State) (ofs : Nat) (v : Word) (hk : Keeps r0 s) : Keeps r0 (State.bar2Write s ofs v) := by
  unfold State.bar2Write
  repeat' first
    | with_reducible assumption | intro _ | with_reducible apply keeps_ite | with_reducible apply mbWrite_keeps
    | with_reducible apply wake_keeps | with_reducible apply violate_keeps | with_reducible apply keeps_foldl
    | with_reducible apply keeps_foldl_fst | with_reducible apply keeps_ite_fst | extract_lets | split
    | (with_reducible refine keeps_fst (by assumption) ?_) | dsimp only [id]

theorem wordWrite_keeps {r0 : State} (s : State) (a : Nat) (v : Word) (hk : Keeps r0 s) : Keeps r0 (State.wordWrite s a v) := by
  unfold State.wordWrite
  repeat' first
    | with_reducible assumption | intro _ | with_reducible apply keeps_ite | with_reducible apply memWrite_keeps
    | with_reducible apply keeps_foldl | with_reducible apply keeps_foldl_fst | with_reducible apply keeps_ite_fst | extract_lets
    | split | (with_reducible refine keeps_fst (by assumption) ?_) | dsimp only [id]

theorem plainWrite_keeps {r0 : State} (s : State) (who : Initiator) (addr : Nat) (v : Word) (hk : Keeps r0 s) : Keeps r0
    (State.plainWrite s who addr v) := by
  unfold State.plainWrite
  repeat' first
    | with_reducible assumption | intro _ | with_reducible apply keeps_ite | with_reducible apply mbWrite_keeps
    | with_reducible apply lockWrite_keeps | with_reducible apply winWrite_keeps | with_reducible apply violWrite_keeps
    | with_reducible apply wr_keeps | with_reducible apply wrBlk_keeps | with_reducible apply wordWrite_keeps
    | with_reducible apply keeps_foldl | with_reducible apply keeps_foldl_fst | with_reducible apply keeps_ite_fst | extract_lets
    | split | (with_reducible refine keeps_fst (by assumption) ?_) | simp only [keeps_mk] | dsimp only [id]

theorem hourMark_keeps {r0 : State} (s : State) (hk : Keeps r0 s) : Keeps r0 (State.hourMark s) := by
  unfold State.hourMark
  repeat' first
    | with_reducible assumption | (with_reducible refine updAlm_keeps_all _ _ (fun _ => Nat.le_refl _) ?_)
    | with_reducible exact Nat.le_refl _ | with_reducible exact Nat.le_succ _ | intro _ | with_reducible apply keeps_ite
    | with_reducible apply updAlm_keeps | with_reducible apply audit_keeps | with_reducible apply keeps_foldl
    | with_reducible apply keeps_foldl_fst | with_reducible apply keeps_ite_fst | extract_lets | split
    | (with_reducible refine keeps_fst (by assumption) ?_) | dsimp only [id]

theorem passUs_keeps {r0 : State} (s : State) (d : Nat) (hk : Keeps r0 s) : Keeps r0 (State.passUs s d) := by
  unfold State.passUs
  repeat' first
    | with_reducible assumption | (with_reducible refine updAlm_keeps_all _ _ (fun _ => Nat.le_refl _) ?_)
    | with_reducible exact Nat.le_refl _ | with_reducible exact Nat.le_succ _ | intro _ | with_reducible apply keeps_ite
    | with_reducible apply updAlm_keeps | with_reducible apply hourMark_keeps | with_reducible apply keeps_foldl
    | with_reducible apply keeps_foldl_fst | with_reducible apply keeps_ite_fst | extract_lets | split
    | (with_reducible refine keeps_fst (by assumption) ?_) | dsimp only [id]

theorem put_keeps {r0 : State} (s : State) (who : Initiator) (act : State → State) (hact : ∀ (x0 : State), Keeps r0 x0 → Keeps r0 (act
    x0)) (hk : Keeps r0 s) : Keeps r0 (State.put s who act) := by
  unfold State.put
  repeat' first
    | with_reducible assumption | intro _ | apply hact | with_reducible apply keeps_ite | with_reducible apply guard_keeps
    | with_reducible apply keeps_foldl | with_reducible apply keeps_foldl_fst | with_reducible apply keeps_ite_fst | extract_lets
    | split | (with_reducible refine keeps_fst (by assumption) ?_) | dsimp only [id]

theorem updSnap_keeps {r0 : State} (s : State) (h : Nat) (f : Snap → Snap) (hk : Keeps r0 s) : Keeps r0 (State.updSnap s h f) := by
  unfold State.updSnap
  repeat' first
    | with_reducible assumption | (with_reducible refine updAlm_keeps_all _ _ (fun _ => Nat.le_refl _) ?_)
    | with_reducible exact Nat.le_refl _ | with_reducible exact Nat.le_succ _ | intro _ | with_reducible apply keeps_ite
    | with_reducible apply updAlm_keeps | with_reducible apply keeps_foldl | with_reducible apply keeps_foldl_fst
    | with_reducible apply keeps_ite_fst | extract_lets | split | (with_reducible refine keeps_fst (by assumption) ?_)
    | dsimp only [id]

theorem snapRefresh_keeps {r0 : State} (s : State) (h : Nat) (hk : Keeps r0 s) : Keeps r0 (State.snapRefresh s h) := by
  unfold State.snapRefresh
  repeat' first
    | with_reducible assumption | intro _ | with_reducible apply keeps_ite | with_reducible apply wr_keeps
    | with_reducible apply wr64_keeps | with_reducible apply keeps_foldl | with_reducible apply keeps_foldl_fst
    | with_reducible apply keeps_ite_fst | extract_lets | split | (with_reducible refine keeps_fst (by assumption) ?_)
    | dsimp only [id]

theorem snapClose_keeps {r0 : State} (s : State) (h : Nat) (hk : Keeps r0 s) : Keeps r0 (State.snapClose s h) := by
  unfold State.snapClose
  repeat' first
    | with_reducible assumption | intro _ | with_reducible apply keeps_ite | with_reducible apply snapRefresh_keeps
    | with_reducible apply auditFit_keeps | with_reducible apply updSnap_keeps | with_reducible apply keeps_foldl
    | with_reducible apply keeps_foldl_fst | with_reducible apply keeps_ite_fst | extract_lets | split
    | (with_reducible refine keeps_fst (by assumption) ?_) | dsimp only [id]

theorem snapOpen_keeps {r0 : State} (s : State) (h : Nat) (hk : Keeps r0 s) : Keeps r0 (State.snapOpen s h) := by
  unfold State.snapOpen
  repeat' first
    | with_reducible assumption | intro _ | with_reducible apply keeps_ite | with_reducible apply snapClose_keeps
    | with_reducible apply snapRefresh_keeps | with_reducible apply updSnap_keeps | with_reducible apply keeps_foldl
    | with_reducible apply keeps_foldl_fst | with_reducible apply keeps_ite_fst | extract_lets | split
    | (with_reducible refine keeps_fst (by assumption) ?_) | dsimp only [id]

theorem snapShow_keeps {r0 : State} (s : State) (hk : Keeps r0 s) : Keeps r0 (State.snapShow s) := by
  unfold State.snapShow
  repeat' first
    | with_reducible assumption | intro _ | with_reducible apply keeps_ite | with_reducible apply emit_keeps
    | with_reducible apply keeps_foldl | with_reducible apply keeps_foldl_fst | with_reducible apply keeps_ite_fst | extract_lets
    | split | (with_reducible refine keeps_fst (by assumption) ?_) | dsimp only [id]

theorem norStart_keeps {r0 : State} (s : State) (r : Rec) (hk : Keeps r0 s) : Keeps r0 (State.norStart s r) := by
  unfold State.norStart
  repeat' first
    | with_reducible assumption | (with_reducible refine updAlm_keeps_all _ _ (fun _ => Nat.le_refl _) ?_)
    | with_reducible exact Nat.le_refl _ | with_reducible exact Nat.le_succ _ | intro _ | with_reducible apply keeps_ite
    | with_reducible apply updAlm_keeps | with_reducible apply keeps_foldl | with_reducible apply keeps_foldl_fst
    | with_reducible apply keeps_ite_fst | extract_lets | split | (with_reducible refine keeps_fst (by assumption) ?_)
    | dsimp only [id]

theorem norPut_keeps {r0 : State} (s : State) (r : Rec) (hk : Keeps r0 s) : Keeps r0 (State.norPut s r) := by
  unfold State.norPut
  repeat' first
    | with_reducible assumption | (with_reducible refine updAlm_keeps_all _ _ (fun _ => Nat.le_refl _) ?_)
    | with_reducible exact Nat.le_refl _ | with_reducible exact Nat.le_succ _ | intro _ | with_reducible apply keeps_ite
    | with_reducible apply updAlm_keeps | with_reducible apply norStart_keeps | with_reducible apply keeps_foldl
    | with_reducible apply keeps_foldl_fst | with_reducible apply keeps_ite_fst | extract_lets | split
    | (with_reducible refine keeps_fst (by assumption) ?_) | dsimp only [id]

theorem norFlush_keeps {r0 : State} (s : State) (hk : Keeps r0 s) : Keeps r0 (State.norFlush s) := by
  unfold State.norFlush
  repeat' first
    | with_reducible assumption | intro _ | with_reducible apply keeps_ite | with_reducible apply norPut_keeps
    | with_reducible apply keeps_foldl | with_reducible apply keeps_foldl_fst | with_reducible apply keeps_ite_fst | extract_lets
    | split | (with_reducible refine keeps_fst (by assumption) ?_) | dsimp only [id]

theorem clearClass_keeps {r0 : State} (s : State) (cls : Nat) (who : Nat) (hk : Keeps r0 s) : Keeps r0 (State.clearClass s cls who) := by
  unfold State.clearClass
  repeat' first
    | with_reducible assumption | (with_reducible refine updAlm_keeps_all _ _ (fun _ => Nat.le_refl _) ?_)
    | with_reducible exact Nat.le_refl _ | with_reducible exact Nat.le_succ _ | intro _ | with_reducible apply keeps_ite
    | with_reducible apply updAlm_keeps | with_reducible apply bumpBy_keeps | with_reducible apply snapRefresh_keeps
    | with_reducible apply norFlush_keeps | with_reducible apply audit_keeps | with_reducible apply dmaWrite_keeps
    | with_reducible apply keeps_foldl | with_reducible apply keeps_foldl_fst | with_reducible apply keeps_ite_fst | extract_lets
    | split | (with_reducible refine keeps_fst (by assumption) ?_) | dsimp only [id]

theorem updOrr_keeps {r0 : State} (s : State) (f : OrrSt → OrrSt) (hk : Keeps r0 s) : Keeps r0 (State.updOrr s f) := by
  unfold State.updOrr
  repeat' first
    | with_reducible assumption | intro _ | with_reducible apply keeps_ite | with_reducible apply keeps_foldl
    | with_reducible apply keeps_foldl_fst | with_reducible apply keeps_ite_fst | extract_lets | split
    | (with_reducible refine keeps_fst (by assumption) ?_) | simp only [keeps_mk] | dsimp only [id]

theorem orrSend_keeps {r0 : State} (s : State) (typ : Nat) (dst : Nat) (body : List Byte) (hk : Keeps r0 s) : Keeps r0 (State.orrSend s
    typ dst body) := by
  unfold State.orrSend
  repeat' first
    | with_reducible assumption | intro _ | with_reducible apply keeps_ite | with_reducible apply updOrr_keeps
    | with_reducible apply emit_keeps | with_reducible apply keeps_foldl | with_reducible apply keeps_foldl_fst
    | with_reducible apply keeps_ite_fst | extract_lets | split | (with_reducible refine keeps_fst (by assumption) ?_)
    | dsimp only [id]

theorem orrRefresh_keeps {r0 : State} (s : State) (hk : Keeps r0 s) : Keeps r0 (State.orrRefresh s) := by
  unfold State.orrRefresh
  repeat' first
    | with_reducible assumption | intro _ | with_reducible apply keeps_ite | with_reducible apply wrN_keeps
    | with_reducible apply wrB_keeps | with_reducible apply keeps_foldl | with_reducible apply keeps_foldl_fst
    | with_reducible apply keeps_ite_fst | extract_lets | split | (with_reducible refine keeps_fst (by assumption) ?_)
    | dsimp only [id]

theorem updMember_keeps {r0 : State} (s : State) (id : Nat) (f : Member → Member) (hk : Keeps r0 s) : Keeps r0 (State.updMember s id f)
    := by
  unfold State.updMember
  repeat' first
    | with_reducible assumption | intro _ | with_reducible apply keeps_ite | with_reducible apply updOrr_keeps
    | with_reducible apply keeps_foldl | with_reducible apply keeps_foldl_fst | with_reducible apply keeps_ite_fst | extract_lets
    | split | (with_reducible refine keeps_fst (by assumption) ?_) | dsimp only [id]

theorem tokenTake_keeps {r0 : State} (s : State) (reqId : Nat) (id : Nat) (watts : Nat) (hk : Keeps r0 s) : Keeps r0 (State.tokenTake s
    reqId id watts) := by
  unfold State.tokenTake
  repeat' first
    | with_reducible assumption | intro _ | with_reducible apply keeps_ite | with_reducible apply updOrr_keeps
    | with_reducible apply orrRefresh_keeps | with_reducible apply keeps_foldl | with_reducible apply keeps_foldl_fst
    | with_reducible apply keeps_ite_fst | extract_lets | split | (with_reducible refine keeps_fst (by assumption) ?_)
    | simp only [keeps_mk] | dsimp only [id]

theorem grant_keeps {r0 : State} (s : State) (fuel : Nat) (hk : Keeps r0 s) : Keeps r0 (State.grant s fuel) := by
  induction fuel generalizing s with
  | zero =>
    unfold State.grant
    repeat' first
      | with_reducible assumption | intro _ | with_reducible apply keeps_ite | with_reducible apply audit_keeps
      | with_reducible apply updOrr_keeps | with_reducible apply updMember_keeps | with_reducible apply tokenTake_keeps
      | with_reducible apply orrSend_keeps | with_reducible apply orrRefresh_keeps | with_reducible apply keeps_foldl
      | with_reducible apply keeps_foldl_fst | with_reducible apply keeps_ite_fst | extract_lets | split
      | (with_reducible refine keeps_fst (by assumption) ?_) | dsimp only [id]
  | succ n ih =>
    unfold State.grant
    repeat' first
      | with_reducible assumption | intro _ | with_reducible apply keeps_ite | with_reducible apply audit_keeps
      | with_reducible apply updOrr_keeps | with_reducible apply updMember_keeps | with_reducible apply tokenTake_keeps
      | with_reducible apply orrSend_keeps | with_reducible apply orrRefresh_keeps | with_reducible apply ih
      | with_reducible apply keeps_foldl | with_reducible apply keeps_foldl_fst | with_reducible apply keeps_ite_fst | extract_lets
      | split | (with_reducible refine keeps_fst (by assumption) ?_) | dsimp only [id]

theorem enqueue_keeps {r0 : State} (s : State) (r : TokReq) (hk : Keeps r0 s) : Keeps r0 (State.enqueue s r) := by
  unfold State.enqueue
  repeat' first
    | with_reducible assumption | intro _ | with_reducible apply keeps_ite | with_reducible apply updOrr_keeps
    | with_reducible apply grant_keeps | with_reducible apply keeps_foldl | with_reducible apply keeps_foldl_fst
    | with_reducible apply keeps_ite_fst | extract_lets | split | (with_reducible refine keeps_fst (by assumption) ?_)
    | dsimp only [id]

theorem tokenAsk_keeps {r0 : State} (s : State) (reqId : Nat) (spin : Bool) (group : Nat) (watts : Nat) (hk : Keeps r0 s) : Keeps r0
    (State.tokenAsk s reqId spin group watts) := by
  unfold State.tokenAsk
  repeat' first
    | with_reducible assumption | intro _ | with_reducible apply keeps_ite | with_reducible apply orrRefresh_keeps
    | with_reducible apply updOrr_keeps | with_reducible apply enqueue_keeps | with_reducible apply orrSend_keeps
    | with_reducible apply keeps_foldl | with_reducible apply keeps_foldl_fst | with_reducible apply keeps_ite_fst | extract_lets
    | split | (with_reducible refine keeps_fst (by assumption) ?_) | dsimp only [id]

theorem tokenGive_keeps {r0 : State} (s : State) (id : Nat) (hk : Keeps r0 s) : Keeps r0 (State.tokenGive s id) := by
  unfold State.tokenGive
  repeat' first
    | with_reducible assumption | intro _ | with_reducible apply keeps_ite | with_reducible apply updOrr_keeps
    | with_reducible apply updMember_keeps | with_reducible apply grant_keeps | with_reducible apply orrRefresh_keeps
    | with_reducible apply orrSend_keeps | with_reducible apply keeps_foldl | with_reducible apply keeps_foldl_fst
    | with_reducible apply keeps_ite_fst | extract_lets | split | (with_reducible refine keeps_fst (by assumption) ?_)
    | dsimp only [id]

theorem askStanding_keeps {r0 : State} (s : State) (hk : Keeps r0 s) : Keeps r0 (State.askStanding s) := by
  unfold State.askStanding
  repeat' first
    | with_reducible assumption | intro _ | with_reducible apply keeps_ite | with_reducible apply tokenAsk_keeps
    | with_reducible apply keeps_foldl | with_reducible apply keeps_foldl_fst | with_reducible apply keeps_ite_fst | extract_lets
    | split | (with_reducible refine keeps_fst (by assumption) ?_) | dsimp only [id]

theorem withdrawReqs_keeps {r0 : State} (s : State) (p : TokReq → Bool) (hk : Keeps r0 s) : Keeps r0 (State.withdrawReqs s p) := by
  unfold State.withdrawReqs
  repeat' first
    | with_reducible assumption | intro _ | with_reducible apply keeps_ite | with_reducible apply orrRefresh_keeps
    | with_reducible apply updOrr_keeps | with_reducible apply keeps_foldl | with_reducible apply keeps_foldl_fst
    | with_reducible apply keeps_ite_fst | extract_lets | split | (with_reducible refine keeps_fst (by assumption) ?_)
    | dsimp only [id]

theorem giveAll_keeps {r0 : State} (s : State) (p : Token → Bool) (hk : Keeps r0 s) : Keeps r0 (State.giveAll s p) := by
  unfold State.giveAll
  repeat' first
    | with_reducible assumption | intro _ | with_reducible apply keeps_ite | with_reducible apply tokenGive_keeps
    | with_reducible apply keeps_foldl | with_reducible apply keeps_foldl_fst | with_reducible apply keeps_ite_fst | extract_lets
    | split | (with_reducible refine keeps_fst (by assumption) ?_) | dsimp only [id]

theorem spinForm_keeps {r0 : State} (s : State) (hk : Keeps r0 s) : Keeps r0 (State.spinForm s) := by
  unfold State.spinForm
  repeat' first
    | with_reducible assumption | intro _ | with_reducible apply keeps_ite | with_reducible apply keeps_foldl
    | with_reducible apply keeps_foldl_fst | with_reducible apply keeps_ite_fst | extract_lets | split
    | (with_reducible refine keeps_fst (by assumption) ?_) | simp only [keeps_mk] | dsimp only [id]

theorem spinAsk_keeps {r0 : State} (s : State) (hk : Keeps r0 s) : Keeps r0 (State.spinAsk s) := by
  unfold State.spinAsk
  repeat' first
    | with_reducible assumption | intro _ | with_reducible apply keeps_ite | with_reducible apply spinForm_keeps
    | with_reducible apply tokenAsk_keeps | with_reducible apply keeps_foldl | with_reducible apply keeps_foldl_fst
    | with_reducible apply keeps_ite_fst | extract_lets | split | (with_reducible refine keeps_fst (by assumption) ?_)
    | simp only [keeps_mk] | dsimp only [id]

theorem spinRelease_keeps {r0 : State} (s : State) (hk : Keeps r0 s) : Keeps r0 (State.spinRelease s) := by
  unfold State.spinRelease
  repeat' first
    | with_reducible assumption | intro _ | with_reducible apply keeps_ite | with_reducible apply tokenGive_keeps
    | with_reducible apply keeps_foldl | with_reducible apply keeps_foldl_fst | with_reducible apply keeps_ite_fst | extract_lets
    | split | (with_reducible refine keeps_fst (by assumption) ?_) | simp only [keeps_mk] | dsimp only [id]

theorem huskSend_keeps {r0 : State} (s : State) (ch : Nat) (words : List Nat) (hk : Keeps r0 s) : Keeps r0 (State.huskSend s ch words) := by
  unfold State.huskSend
  repeat' first
    | with_reducible assumption | intro _ | with_reducible apply keeps_ite | with_reducible apply mbData_keeps
    | with_reducible apply mbGo_keeps | with_reducible apply mbCross_keeps | with_reducible apply keeps_foldl
    | with_reducible apply keeps_foldl_fst | with_reducible apply keeps_ite_fst | extract_lets | split
    | (with_reducible refine keeps_fst (by assumption) ?_) | dsimp only [id]

theorem huskReply_keeps {r0 : State} (s : State) (ch : Nat) (opc : Nat) (status : Nat) (step : Nat) (hk : Keeps r0 s) : Keeps r0
    (State.huskReply s ch opc status step) := by
  unfold State.huskReply
  repeat' first
    | with_reducible assumption | intro _ | with_reducible apply keeps_ite | with_reducible apply huskSend_keeps
    | with_reducible apply keeps_foldl | with_reducible apply keeps_foldl_fst | with_reducible apply keeps_ite_fst | extract_lets
    | split | (with_reducible refine keeps_fst (by assumption) ?_) | dsimp only [id]

theorem huskReq_keeps {r0 : State} (s : State) (ch : Nat) (opc : Nat) (listed : List Nat) (act : (Nat → Nat) → Nat → State → State ×
    Option (Nat × Nat)) (hact : ∀ (x0 : (Nat → Nat)) (x1 : Nat) (x2 : State), Keeps r0 x2 → Keeps r0 (act x0 x1 x2).1) (hk : Keeps r0 s)
    : Keeps r0 (State.huskReq s ch opc listed act) := by
  unfold State.huskReq
  repeat' first
    | with_reducible assumption | ((with_reducible apply otpLe_of_same) <;> rfl) | intro _ | apply hact
    | with_reducible apply keeps_ite | with_reducible apply mbRelease_keeps | with_reducible apply updHusk_keeps
    | with_reducible apply huskReply_keeps | with_reducible apply keeps_foldl | with_reducible apply keeps_foldl_fst
    | with_reducible apply keeps_ite_fst | extract_lets | split | (with_reducible refine keeps_fst (by assumption) ?_)
    | dsimp only [id]

theorem huskUpdate_keeps {r0 : State} (s : State) (r1 : Nat) (addr : Nat) (len : Nat) (norOk : Bool) (hk : Keeps r0 s) : Keeps r0
    (State.huskUpdate s r1 addr len norOk).1 := by
  unfold State.huskUpdate
  repeat' first
    | with_reducible assumption | ((with_reducible apply otpLe_of_same) <;> rfl) | intro _ | with_reducible apply keeps_ite
    | with_reducible apply tick_keeps | with_reducible apply updHusk_keeps | with_reducible apply audit_keeps
    | with_reducible apply keeps_foldl | with_reducible apply keeps_foldl_fst | with_reducible apply keeps_ite_fst | extract_lets
    | split | (with_reducible refine keeps_fst (by assumption) ?_) | dsimp only [id]

theorem keyNew_keeps {r0 : State} (s : State) (nsid : Nat) (hk : Keeps r0 s) : Keeps r0 (State.keyNew s nsid) := by
  unfold State.keyNew
  repeat' first
    | with_reducible assumption | ((with_reducible apply otpLe_of_same) <;> rfl) | intro _ | with_reducible apply keeps_ite
    | with_reducible apply tick_keeps | with_reducible apply updHusk_keeps | with_reducible apply audit_keeps
    | with_reducible apply stage_keeps | with_reducible apply keeps_foldl | with_reducible apply keeps_foldl_fst
    | with_reducible apply keeps_ite_fst | extract_lets | split | (with_reducible refine keeps_fst (by assumption) ?_)
    | dsimp only [id]

theorem keyDestroy_keeps {r0 : State} (s : State) (nsid : Nat) (hk : Keeps r0 s) : Keeps r0 (State.keyDestroy s nsid) := by
  unfold State.keyDestroy
  repeat' first
    | with_reducible assumption | ((with_reducible apply otpLe_of_same) <;> rfl) | intro _ | with_reducible apply keeps_ite
    | with_reducible apply updHusk_keeps | with_reducible apply audit_keeps | with_reducible apply stage_keeps
    | with_reducible apply keeps_foldl | with_reducible apply keeps_foldl_fst | with_reducible apply keeps_ite_fst | extract_lets
    | split | (with_reducible refine keeps_fst (by assumption) ?_) | dsimp only [id]

theorem keysOf_keeps {r0 : State} (s : State) (n : Nat) (hk : Keeps r0 s) : Keeps r0 (State.keysOf s n) := by
  unfold State.keysOf
  repeat' first
    | with_reducible assumption | ((with_reducible apply otpLe_of_same) <;> rfl) | intro _ | with_reducible apply keeps_ite
    | with_reducible apply updHusk_keeps | with_reducible apply keeps_foldl | with_reducible apply keeps_foldl_fst
    | with_reducible apply keeps_ite_fst | extract_lets | split | (with_reducible refine keeps_fst (by assumption) ?_)
    | dsimp only [id]

theorem clearReq_keeps {r0 : State} (s : State) (ch : Nat) (opc : Nat) (cls : Nat) (hk : Keeps r0 s) : Keeps r0 (State.clearReq s ch opc
    cls) := by
  unfold State.clearReq
  repeat' first
    | with_reducible assumption | intro _ | with_reducible apply keeps_ite | with_reducible apply huskReq_keeps
    | with_reducible apply clearClass_keeps | with_reducible apply keeps_foldl | with_reducible apply keeps_foldl_fst
    | with_reducible apply keeps_ite_fst | extract_lets | split | (with_reducible refine keeps_fst (by assumption) ?_)
    | dsimp only [id]

theorem liveAccept_keeps {r0 : State} (s : State) (typ : Nat) (b : List Byte) (hk : Keeps r0 s) : Keeps r0 (State.liveAccept s typ b) := by
  unfold State.liveAccept
  repeat' first
    | with_reducible assumption | ((with_reducible apply otpLe_of_same) <;> rfl) | intro _ | with_reducible apply keeps_ite
    | with_reducible apply updHusk_keeps | with_reducible apply keeps_foldl | with_reducible apply keeps_foldl_fst
    | with_reducible apply keeps_ite_fst | extract_lets | split | (with_reducible refine keeps_fst (by assumption) ?_)
    | dsimp only [id]

theorem warmReq_keeps {r0 : State} (s : State) (ch : Nat) (kind : Nat) (act : Nat → State → State × Nat) (hact : ∀ (x0 : Nat) (x1 :
    State), Keeps r0 x1 → Keeps r0 (act x0 x1).1) (hk : Keeps r0 s) : Keeps r0 (State.warmReq s ch kind act) := by
  unfold State.warmReq
  repeat' first
    | with_reducible assumption | intro _ | apply hact | with_reducible apply keeps_ite | with_reducible apply huskReq_keeps
    | with_reducible apply keeps_foldl | with_reducible apply keeps_foldl_fst | with_reducible apply keeps_ite_fst | extract_lets
    | split | (with_reducible refine keeps_fst (by assumption) ?_) | dsimp only [id]

theorem keyReset_keeps {r0 : State} (s : State) (hk : Keeps r0 s) : Keeps r0 (State.keyReset s) := by
  unfold State.keyReset
  repeat' first
    | with_reducible assumption | ((with_reducible apply otpLe_of_same) <;> rfl) | intro _ | with_reducible apply keeps_ite
    | with_reducible apply updHusk_keeps | with_reducible apply keysOf_keeps | with_reducible apply keeps_foldl
    | with_reducible apply keeps_foldl_fst | with_reducible apply keeps_ite_fst | extract_lets | split
    | (with_reducible refine keeps_fst (by assumption) ?_) | dsimp only [id]

theorem culmRestart_keeps {r0 : State} (s : State) (hk : Keeps r0 s) : Keeps r0 (State.culmRestart s) := by
  unfold State.culmRestart
  repeat' first
    | with_reducible assumption | intro _ | with_reducible apply keeps_ite | with_reducible apply locksOf_keeps
    | with_reducible apply keyReset_keeps | with_reducible apply complete_keeps | with_reducible apply keeps_foldl
    | with_reducible apply keeps_foldl_fst | with_reducible apply keeps_ite_fst | extract_lets | split
    | (with_reducible refine keeps_fst (by assumption) ?_) | dsimp only [id]

theorem engineStop_keeps {r0 : State} (s : State) (e : Nat) (hk : Keeps r0 s) : Keeps r0 (State.engineStop s e) := by
  unfold State.engineStop
  repeat' first
    | with_reducible assumption | intro _ | with_reducible apply keeps_ite | with_reducible apply chaffAll_keeps
    | with_reducible apply gateClose_keeps | with_reducible apply endWork_keeps | with_reducible apply wr_keeps
    | with_reducible apply updLoop_keeps | with_reducible apply updAct_keeps | with_reducible apply keeps_foldl
    | with_reducible apply keeps_foldl_fst | with_reducible apply keeps_ite_fst | extract_lets | split
    | (with_reducible refine keeps_fst (by assumption) ?_) | dsimp only [id]

theorem engineFill_keeps {r0 : State} (s : State) (e : Nat) (b : List Byte) (hk : Keeps r0 s) : Keeps r0 (State.engineFill s e b) := by
  unfold State.engineFill
  repeat' first
    | with_reducible assumption | intro _ | with_reducible apply keeps_ite | with_reducible apply keeps_foldl
    | with_reducible apply keeps_foldl_fst | with_reducible apply keeps_ite_fst | extract_lets | split
    | (with_reducible refine keeps_fst (by assumption) ?_) | simp only [keeps_mk] | dsimp only [id]

theorem loadStart_keeps {r0 : State} (s : State) (ch : Nat) (e : Nat) (obj : List Byte) (hk : Keeps r0 s) : Keeps r0 (State.loadStart s
    ch e obj) := by
  unfold State.loadStart
  repeat' first
    | with_reducible assumption | ((with_reducible apply otpLe_of_same) <;> rfl) | intro _ | with_reducible apply keeps_ite
    | with_reducible apply memWrite_keeps | with_reducible apply updHusk_keeps | with_reducible apply huskSend_keeps
    | with_reducible apply keeps_foldl | with_reducible apply keeps_foldl_fst | with_reducible apply keeps_ite_fst | extract_lets
    | split | (with_reducible refine keeps_fst (by assumption) ?_) | dsimp only [id]

theorem bundleLoad_keeps {r0 : State} (s : State) (e : Nat) (hk : Keeps r0 s) : Keeps r0 (State.bundleLoad s e) := by
  unfold State.bundleLoad
  repeat' first
    | with_reducible assumption | intro _ | with_reducible apply keeps_ite | with_reducible apply loadStart_keeps
    | with_reducible apply keeps_foldl | with_reducible apply keeps_foldl_fst | with_reducible apply keeps_ite_fst | extract_lets
    | split | (with_reducible refine keeps_fst (by assumption) ?_) | dsimp only [id]

theorem engineFresh_keeps {r0 : State} (s : State) (e : Nat) (hk : Keeps r0 s) : Keeps r0 (State.engineFresh s e) := by
  unfold State.engineFresh
  repeat' first
    | with_reducible assumption | intro _ | with_reducible apply keeps_ite | with_reducible apply wrAt_keeps
    | with_reducible apply keeps_foldl | with_reducible apply keeps_foldl_fst | with_reducible apply keeps_ite_fst | extract_lets
    | split | (with_reducible refine keeps_fst (by assumption) ?_) | dsimp only [id]

theorem engineRun_keeps {r0 : State} (s : State) (e : Nat) (src : Nat) (hk : Keeps r0 s) : Keeps r0 (State.engineRun s e src) := by
  unfold State.engineRun
  repeat' first
    | with_reducible assumption | intro _ | with_reducible apply keeps_ite | with_reducible apply wr_keeps
    | with_reducible apply wrN_keeps | with_reducible apply updAct_keeps | with_reducible apply keeps_foldl
    | with_reducible apply keeps_foldl_fst | with_reducible apply keeps_ite_fst | extract_lets | split
    | (with_reducible refine keeps_fst (by assumption) ?_) | dsimp only [id]

theorem loadEnd_keeps {r0 : State} (s : State) (q : Nat) (status : Nat) (hk : Keeps r0 s) : Keeps r0 (State.loadEnd s q status) := by
  unfold State.loadEnd
  repeat' first
    | with_reducible assumption | ((with_reducible apply otpLe_of_same) <;> rfl) | intro _ | with_reducible apply keeps_ite
    | with_reducible apply updHusk_keeps | with_reducible apply mbRelease_keeps | with_reducible apply engineRun_keeps
    | with_reducible apply huskReply_keeps | with_reducible apply keeps_foldl | with_reducible apply keeps_foldl_fst
    | with_reducible apply keeps_ite_fst | extract_lets | split | (with_reducible refine keeps_fst (by assumption) ?_)
    | dsimp only [id]

theorem loaderAnswer_keeps {r0 : State} (s : State) (q : Nat) (status : Nat) (opc : Nat) (hk : Keeps r0 s) : Keeps r0
    (State.loaderAnswer s q status opc) := by
  unfold State.loaderAnswer
  repeat' first
    | with_reducible assumption | intro _ | with_reducible apply keeps_ite | with_reducible apply mbData_keeps
    | with_reducible apply mbGo_keeps | with_reducible apply mbCross_keeps | with_reducible apply keeps_foldl
    | with_reducible apply keeps_foldl_fst | with_reducible apply keeps_ite_fst | extract_lets | split
    | (with_reducible refine keeps_fst (by assumption) ?_) | dsimp only [id]

theorem loaderTake_keeps {r0 : State} (s : State) (q : Nat) (act : (Nat → Nat) → State → State) (hact : ∀ (x0 : (Nat → Nat)) (x1 :
    State), Keeps r0 x1 → Keeps r0 (act x0 x1)) (hk : Keeps r0 s) : Keeps r0 (State.loaderTake s q act) := by
  unfold State.loaderTake
  repeat' first
    | with_reducible assumption | intro _ | apply hact | with_reducible apply keeps_ite | with_reducible apply mbRelease_keeps
    | with_reducible apply keeps_foldl | with_reducible apply keeps_foldl_fst | with_reducible apply keeps_ite_fst | extract_lets
    | split | (with_reducible refine keeps_fst (by assumption) ?_) | dsimp only [id]

theorem loaderFill_keeps {r0 : State} (s : State) (q : Nat) (e : Nat) (b : List Byte) (hk : Keeps r0 s) : Keeps r0 (State.loaderFill s q
    e b) := by
  unfold State.loaderFill
  repeat' first
    | with_reducible assumption | intro _ | with_reducible apply keeps_ite | with_reducible apply violate_keeps
    | with_reducible apply engineFill_keeps | with_reducible apply keeps_foldl | with_reducible apply keeps_foldl_fst
    | with_reducible apply keeps_ite_fst | extract_lets | split | (with_reducible refine keeps_fst (by assumption) ?_)
    | simp only [keeps_mk] | dsimp only [id]

theorem loaderLoad_keeps {r0 : State} (s : State) (q : Nat) (ddrErr : Bool) (hk : Keeps r0 s) : Keeps r0 (State.loaderLoad s q ddrErr) := by
  unfold State.loaderLoad
  repeat' first
    | with_reducible assumption | intro _ | with_reducible apply keeps_ite | with_reducible apply loaderTake_keeps
    | with_reducible apply loaderAnswer_keeps | with_reducible apply loadEnd_keeps | with_reducible apply wr_keeps
    | with_reducible apply loaderFill_keeps | with_reducible apply dmaReadViol_keeps | with_reducible apply keeps_foldl
    | with_reducible apply keeps_foldl_fst | with_reducible apply keeps_ite_fst | extract_lets | split
    | (with_reducible refine keeps_fst (by assumption) ?_) | dsimp only [id]

theorem miError_keeps {r0 : State} (s : State) (m : MiMsg) (hk : Keeps r0 s) : Keeps r0 (State.miError s m) := by
  unfold State.miError
  repeat' first
    | with_reducible assumption | intro _ | with_reducible apply keeps_ite | with_reducible apply emit_keeps
    | with_reducible apply keeps_foldl | with_reducible apply keeps_foldl_fst | with_reducible apply keeps_ite_fst | extract_lets
    | split | (with_reducible refine keeps_fst (by assumption) ?_) | dsimp only [id]

theorem updGran_keeps {r0 : State} (s : State) (f : GranSt → GranSt) (hk : Keeps r0 s) : Keeps r0 (State.updGran s f) := by
  unfold State.updGran
  repeat' first
    | with_reducible assumption | intro _ | with_reducible apply keeps_ite | with_reducible apply keeps_foldl
    | with_reducible apply keeps_foldl_fst | with_reducible apply keeps_ite_fst | extract_lets | split
    | (with_reducible refine keeps_fst (by assumption) ?_) | simp only [keeps_mk] | dsimp only [id]

theorem granRefresh_keeps {r0 : State} (s : State) (hk : Keeps r0 s) : Keeps r0 (State.granRefresh s) := by
  unfold State.granRefresh
  repeat' first
    | with_reducible assumption | intro _ | with_reducible apply keeps_ite | with_reducible apply wrN_keeps
    | with_reducible apply keeps_foldl | with_reducible apply keeps_foldl_fst | with_reducible apply keeps_ite_fst | extract_lets
    | split | (with_reducible refine keeps_fst (by assumption) ?_) | dsimp only [id]

theorem gleanPut_keeps {r0 : State} (s : State) (l : Nat) (hk : Keeps r0 s) : Keeps r0 (State.gleanPut s l) := by
  unfold State.gleanPut
  repeat' first
    | with_reducible assumption | intro _ | with_reducible apply keeps_ite | with_reducible apply bump_keeps
    | with_reducible apply updGran_keeps | with_reducible apply keeps_foldl | with_reducible apply keeps_foldl_fst
    | with_reducible apply keeps_ite_fst | extract_lets | split | (with_reducible refine keeps_fst (by assumption) ?_)
    | dsimp only [id]

theorem vacate_keeps {r0 : State} (s : State) (set : Nat) (way : Nat) (hk : Keeps r0 s) : Keeps r0 (State.vacate s set way) := by
  unfold State.vacate
  repeat' first
    | with_reducible assumption | intro _ | with_reducible apply keeps_ite | with_reducible apply updGran_keeps
    | with_reducible apply gleanPut_keeps | with_reducible apply keeps_foldl | with_reducible apply keeps_foldl_fst
    | with_reducible apply keeps_ite_fst | extract_lets | split | (with_reducible refine keeps_fst (by assumption) ?_)
    | dsimp only [id]

theorem install_keeps {r0 : State} (s : State) (l : Nat) (way : Nat) (lock : Bool) (sec : Bool) (hk : Keeps r0 s) : Keeps r0
    (State.install s l way lock sec) := by
  unfold State.install
  repeat' first
    | with_reducible assumption | intro _ | with_reducible apply keeps_ite | with_reducible apply injWrite_keeps
    | with_reducible apply vacate_keeps | with_reducible apply granRefresh_keeps | with_reducible apply updGran_keeps
    | with_reducible apply keeps_foldl | with_reducible apply keeps_foldl_fst | with_reducible apply keeps_ite_fst | extract_lets
    | split | (with_reducible refine keeps_fst (by assumption) ?_) | dsimp only [id]

theorem allocate_keeps {r0 : State} (s : State) (l : Nat) (choice : Nat) (refill : Bool) (sec : Bool) (hk : Keeps r0 s) : Keeps r0
    (State.allocate s l choice refill sec) := by
  unfold State.allocate
  repeat' first
    | with_reducible assumption | intro _ | with_reducible apply keeps_ite | with_reducible apply install_keeps
    | with_reducible apply keeps_foldl | with_reducible apply keeps_foldl_fst | with_reducible apply keeps_ite_fst | extract_lets
    | split | (with_reducible refine keeps_fst (by assumption) ?_) | dsimp only [id]

theorem errAddr_keeps {r0 : State} (s : State) (l : Nat) (ue : Bool) (scrub : Bool) (hk : Keeps r0 s) : Keeps r0 (State.errAddr s l ue
    scrub) := by
  unfold State.errAddr
  repeat' first
    | with_reducible assumption | intro _ | with_reducible apply keeps_ite | with_reducible apply wr64_keeps
    | with_reducible apply wrB_keeps | with_reducible apply keeps_foldl | with_reducible apply keeps_foldl_fst
    | with_reducible apply keeps_ite_fst | extract_lets | split | (with_reducible refine keeps_fst (by assumption) ?_)
    | dsimp only [id]

theorem ddrPoison_keeps {r0 : State} (s : State) (l : Nat) (scrub : Bool) (hk : Keeps r0 s) : Keeps r0 (State.ddrPoison s l scrub) := by
  unfold State.ddrPoison
  repeat' first
    | with_reducible assumption | intro _ | with_reducible apply keeps_ite | with_reducible apply updGran_keeps
    | with_reducible apply raise_keeps | with_reducible apply errAddr_keeps | with_reducible apply bump_keeps
    | with_reducible apply keeps_foldl | with_reducible apply keeps_foldl_fst | with_reducible apply keeps_ite_fst | extract_lets
    | split | (with_reducible refine keeps_fst (by assumption) ?_) | dsimp only [id]

theorem ddrRead_keeps {r0 : State} (s : State) (l : Nat) (e : EccEvent) (scrub : Bool) (hk : Keeps r0 s) : Keeps r0 (State.ddrRead s l e
    scrub) := by
  unfold State.ddrRead
  repeat' first
    | with_reducible assumption | intro _ | with_reducible apply keeps_ite | with_reducible apply errAddr_keeps
    | with_reducible apply bump_keeps | with_reducible apply ddrPoison_keeps | with_reducible apply keeps_foldl
    | with_reducible apply keeps_foldl_fst | with_reducible apply keeps_ite_fst | extract_lets | split
    | (with_reducible refine keeps_fst (by assumption) ?_) | dsimp only [id]

theorem ddrWrite_keeps {r0 : State} (s : State) (l : Nat) (hk : Keeps r0 s) : Keeps r0 (State.ddrWrite s l) := by
  unfold State.ddrWrite
  repeat' first
    | with_reducible assumption | intro _ | with_reducible apply keeps_ite | with_reducible apply injWrite_keeps
    | with_reducible apply keeps_foldl | with_reducible apply keeps_foldl_fst | with_reducible apply keeps_ite_fst | extract_lets
    | split | (with_reducible refine keeps_fst (by assumption) ?_) | dsimp only [id]

theorem tagError_keeps {r0 : State} (s : State) (set : Nat) (way : Nat) (hk : Keeps r0 s) : Keeps r0 (State.tagError s set way) := by
  unfold State.tagError
  repeat' first
    | with_reducible assumption | intro _ | with_reducible apply keeps_ite | with_reducible apply bump_keeps
    | with_reducible apply updGran_keeps | with_reducible apply memWrite_keeps | with_reducible apply granRefresh_keeps
    | with_reducible apply raise_keeps | with_reducible apply keeps_foldl | with_reducible apply keeps_foldl_fst
    | with_reducible apply keeps_ite_fst | extract_lets | split | (with_reducible refine keeps_fst (by assumption) ?_)
    | dsimp only [id]

theorem poisonRead_keeps {r0 : State} (s : State) (who : Initiator) (l : Nat) (hk : Keeps r0 s) : Keeps r0 (State.poisonRead s who l) := by
  unfold State.poisonRead
  repeat' first
    | with_reducible assumption | intro _ | with_reducible apply keeps_ite | with_reducible apply updPool_keeps
    | with_reducible apply bump_keeps | with_reducible apply emit_keeps | with_reducible apply keeps_foldl
    | with_reducible apply keeps_foldl_fst | with_reducible apply keeps_ite_fst | extract_lets | split
    | (with_reducible refine keeps_fst (by assumption) ?_) | simp only [keeps_mk] | dsimp only [id]

theorem lineWrite_keeps {r0 : State} (s : State) (l : Nat) (ofs : Nat) (b : List Byte) (hk : Keeps r0 s) : Keeps r0 (State.lineWrite s l
    ofs b) := by
  unfold State.lineWrite
  repeat' first
    | with_reducible assumption | intro _ | with_reducible apply keeps_ite | with_reducible apply updGran_keeps
    | with_reducible apply memWrite_keeps | with_reducible apply injWrite_keeps | with_reducible apply ddrWrite_keeps
    | with_reducible apply keeps_foldl | with_reducible apply keeps_foldl_fst | with_reducible apply keeps_ite_fst | extract_lets
    | split | (with_reducible refine keeps_fst (by assumption) ?_) | dsimp only [id]

theorem granEcc_keeps {r0 : State} (s : State) (l : Nat) (e : EccEvent) (ddr : EccEvent) (hk : Keeps r0 s) : Keeps r0 (State.granEcc s l
    e ddr) := by
  unfold State.granEcc
  repeat' first
    | with_reducible assumption | intro _ | with_reducible apply keeps_ite | with_reducible apply bump_keeps
    | with_reducible apply raise_keeps | with_reducible apply updGran_keeps | with_reducible apply injWrite_keeps
    | with_reducible apply ddrRead_keeps | with_reducible apply keeps_foldl | with_reducible apply keeps_foldl_fst
    | with_reducible apply keeps_ite_fst | extract_lets | split | (with_reducible refine keeps_fst (by assumption) ?_)
    | dsimp only [id]

theorem lineAccess_keeps {r0 : State} (s : State) (who : Initiator) (sec : Bool) (l : Nat) (ofs : Nat) (wr : Option (List Byte)) (n :
    Nat) (o : MemObs) (hk : Keeps r0 s) : Keeps r0 (State.lineAccess s who sec l ofs wr n o) := by
  unfold State.lineAccess
  repeat' first
    | with_reducible assumption | intro _ | with_reducible apply keeps_ite | with_reducible apply tagError_keeps
    | with_reducible apply granEcc_keeps | with_reducible apply bump_keeps | with_reducible apply allocate_keeps
    | with_reducible apply ddrRead_keeps | with_reducible apply injWrite_keeps | with_reducible apply lineWrite_keeps
    | with_reducible apply poisonRead_keeps | with_reducible apply emit_keeps | with_reducible apply keeps_foldl
    | with_reducible apply keeps_foldl_fst | with_reducible apply keeps_ite_fst | extract_lets | split
    | (with_reducible refine keeps_fst (by assumption) ?_) | dsimp only [id] | dsimp +zetaDelta only

theorem huskAccess_keeps {r0 : State} (s : State) (who : Initiator) (a : Nat) (wr : Option (List Byte)) (n : Nat) (hk : Keeps r0 s) :
    Keeps r0 (State.huskAccess s who a wr n) := by
  unfold State.huskAccess
  repeat' first
    | with_reducible assumption | intro _ | with_reducible apply keeps_ite | with_reducible apply memWrite_keeps
    | with_reducible apply emit_keeps | with_reducible apply keeps_foldl | with_reducible apply keeps_foldl_fst
    | with_reducible apply keeps_ite_fst | extract_lets | split | (with_reducible refine keeps_fst (by assumption) ?_)
    | dsimp only [id]

theorem invalidate_keeps {r0 : State} (s : State) (l : Nat) (wb : Bool) (hk : Keeps r0 s) : Keeps r0 (State.invalidate s l wb) := by
  unfold State.invalidate
  repeat' first
    | with_reducible assumption | intro _ | with_reducible apply keeps_ite | with_reducible apply bump_keeps
    | with_reducible apply ddrWrite_keeps | with_reducible apply memWrite_keeps | with_reducible apply updGran_keeps
    | with_reducible apply keeps_foldl | with_reducible apply keeps_foldl_fst | with_reducible apply keeps_ite_fst | extract_lets
    | split | (with_reducible refine keeps_fst (by assumption) ?_) | dsimp only [id]

theorem preload_keeps {r0 : State} (s : State) (l : Nat) (hk : Keeps r0 s) : Keeps r0 (State.preload s l) := by
  unfold State.preload
  repeat' first
    | with_reducible assumption | intro _ | with_reducible apply keeps_ite | with_reducible apply granRefresh_keeps
    | with_reducible apply updGran_keeps | with_reducible apply tick_keeps | with_reducible apply allocate_keeps
    | with_reducible apply keeps_foldl | with_reducible apply keeps_foldl_fst | with_reducible apply keeps_ite_fst | extract_lets
    | split | (with_reducible refine keeps_fst (by assumption) ?_) | dsimp only [id]

theorem lockLine_keeps {r0 : State} (s : State) (i : Nat) (l : Nat) (hk : Keeps r0 s) : Keeps r0 (State.lockLine s i l) := by
  unfold State.lockLine
  repeat' first
    | with_reducible assumption | intro _ | with_reducible apply keeps_ite | with_reducible apply updGran_keeps
    | with_reducible apply bump_keeps | with_reducible apply keeps_foldl | with_reducible apply keeps_foldl_fst
    | with_reducible apply keeps_ite_fst | extract_lets | split | (with_reducible refine keeps_fst (by assumption) ?_)
    | dsimp only [id]

theorem unlockLine_keeps {r0 : State} (s : State) (l : Nat) (hk : Keeps r0 s) : Keeps r0 (State.unlockLine s l) := by
  unfold State.unlockLine
  repeat' first
    | with_reducible assumption | intro _ | with_reducible apply keeps_ite | with_reducible apply updGran_keeps
    | with_reducible apply keeps_foldl | with_reducible apply keeps_foldl_fst | with_reducible apply keeps_ite_fst | extract_lets
    | split | (with_reducible refine keeps_fst (by assumption) ?_) | dsimp only [id]

theorem rangeOp_keeps {r0 : State} (s : State) (i : Nat) (op : Nat) (act : Nat → State → State) (hact : ∀ (x0 : Nat) (x1 : State), Keeps
    r0 x1 → Keeps r0 (act x0 x1)) (hk : Keeps r0 s) : Keeps r0 (State.rangeOp s i op act) := by
  unfold State.rangeOp
  repeat' first
    | with_reducible assumption | intro _ | apply hact | with_reducible apply keeps_ite | with_reducible apply wrN_keeps
    | with_reducible apply violate_keeps | with_reducible apply trace_keeps | with_reducible apply granRefresh_keeps
    | with_reducible apply updGran_keeps | with_reducible apply keeps_foldl | with_reducible apply keeps_foldl_fst
    | with_reducible apply keeps_ite_fst | extract_lets | split | (with_reducible refine keeps_fst (by assumption) ?_)
    | dsimp only [id]

theorem granEmpty_keeps {r0 : State} (s : State) (hk : Keeps r0 s) : Keeps r0 (State.granEmpty s) := by
  unfold State.granEmpty
  repeat' first
    | with_reducible assumption | intro _ | with_reducible apply keeps_ite | with_reducible apply invalidate_keeps
    | with_reducible apply bump_keeps | with_reducible apply ddrWrite_keeps | with_reducible apply granRefresh_keeps
    | with_reducible apply updGran_keeps | with_reducible apply keeps_foldl | with_reducible apply keeps_foldl_fst
    | with_reducible apply keeps_ite_fst | extract_lets | split | (with_reducible refine keeps_fst (by assumption) ?_)
    | dsimp only [id]

theorem dimmRead_keeps {r0 : State} (s : State) (c : Nat) (d : Nat) (t : Option Int) (hk : Keeps r0 s) : Keeps r0 (State.dimmRead s c d
    t) := by
  unfold State.dimmRead
  repeat' first
    | with_reducible assumption | intro _ | with_reducible apply keeps_ite | with_reducible apply updGran_keeps
    | with_reducible apply wrInt_keeps | with_reducible apply wrBit_keeps | with_reducible apply raise_keeps
    | with_reducible apply keeps_foldl | with_reducible apply keeps_foldl_fst | with_reducible apply keeps_ite_fst | extract_lets
    | split | (with_reducible refine keeps_fst (by assumption) ?_) | dsimp only [id]

theorem instOff_keeps {r0 : State} (s : State) (g : Nat) (hk : Keeps r0 s) : Keeps r0 (State.instOff s g) := by
  unfold State.instOff
  repeat' first
    | with_reducible assumption | intro _ | with_reducible apply keeps_ite | with_reducible apply wrN_keeps
    | with_reducible apply wr_keeps | with_reducible apply updLoop_keeps | with_reducible apply setMode_keeps
    | with_reducible apply keeps_foldl | with_reducible apply keeps_foldl_fst | with_reducible apply keeps_ite_fst | extract_lets
    | split | (with_reducible refine keeps_fst (by assumption) ?_) | dsimp only [id]

theorem instsOff_keeps {r0 : State} (s : State) (h : Nat) (hk : Keeps r0 s) : Keeps r0 (State.instsOff s h) := by
  unfold State.instsOff
  repeat' first
    | with_reducible assumption | intro _ | with_reducible apply keeps_ite | with_reducible apply instOff_keeps
    | with_reducible apply keeps_foldl | with_reducible apply keeps_foldl_fst | with_reducible apply keeps_ite_fst | extract_lets
    | split | (with_reducible refine keeps_fst (by assumption) ?_) | dsimp only [id]

theorem instOn_keeps {r0 : State} (s : State) (g : Nat) (man : Word) (hk : Keeps r0 s) : Keeps r0 (State.instOn s g man) := by
  unfold State.instOn
  repeat' first
    | with_reducible assumption | intro _ | with_reducible apply keeps_ite | with_reducible apply wr_keeps
    | with_reducible apply instOff_keeps | with_reducible apply loopEnable_keeps | with_reducible apply updLoop_keeps
    | with_reducible apply keeps_foldl | with_reducible apply keeps_foldl_fst | with_reducible apply keeps_ite_fst | extract_lets
    | split | (with_reducible refine keeps_fst (by assumption) ?_) | dsimp only [id]

theorem spinSense_keeps {r0 : State} (s : State) (h : Nat) (hk : Keeps r0 s) : Keeps r0 (State.spinSense s h) := by
  unfold State.spinSense
  repeat' first
    | with_reducible assumption | intro _ | with_reducible apply keeps_ite | with_reducible apply motorOff_keeps
    | with_reducible apply instsOff_keeps | with_reducible apply spinState_keeps | with_reducible apply updSpin_keeps
    | with_reducible apply keeps_foldl | with_reducible apply keeps_foldl_fst | with_reducible apply keeps_ite_fst | extract_lets
    | split | (with_reducible refine keeps_fst (by assumption) ?_) | dsimp only [id]

theorem spinStart_keeps {r0 : State} (s : State) (h : Nat) (hk : Keeps r0 s) : Keeps r0 (State.spinStart s h) := by
  unfold State.spinStart
  repeat' first
    | with_reducible assumption | intro _ | with_reducible apply keeps_ite | with_reducible apply updSpin_keeps
    | with_reducible apply wr_keeps | with_reducible apply spinSense_keeps | with_reducible apply bump_keeps
    | with_reducible apply keeps_foldl | with_reducible apply keeps_foldl_fst | with_reducible apply keeps_ite_fst | extract_lets
    | split | (with_reducible refine keeps_fst (by assumption) ?_) | dsimp only [id]

theorem spinFail_keeps {r0 : State} (s : State) (h : Nat) (hk : Keeps r0 s) : Keeps r0 (State.spinFail s h) := by
  unfold State.spinFail
  repeat' first
    | with_reducible assumption | intro _ | with_reducible apply keeps_ite | with_reducible apply updSpin_keeps
    | with_reducible apply motorOff_keeps | with_reducible apply instsOff_keeps | with_reducible apply spinRelease_keeps
    | with_reducible apply spinState_keeps | with_reducible apply keeps_foldl | with_reducible apply keeps_foldl_fst
    | with_reducible apply keeps_ite_fst | extract_lets | split | (with_reducible refine keeps_fst (by assumption) ?_)
    | dsimp only [id]

theorem attemptLost_keeps {r0 : State} (s : State) (h : Nat) (hk : Keeps r0 s) : Keeps r0 (State.attemptLost s h) := by
  unfold State.attemptLost
  repeat' first
    | with_reducible assumption | intro _ | with_reducible apply keeps_ite | with_reducible apply updSpin_keeps
    | with_reducible apply motorOff_keeps | with_reducible apply instsOff_keeps | with_reducible apply spinState_keeps
    | with_reducible apply raise_keeps | with_reducible apply spinFail_keeps | with_reducible apply keeps_foldl
    | with_reducible apply keeps_foldl_fst | with_reducible apply keeps_ite_fst | extract_lets | split
    | (with_reducible refine keeps_fst (by assumption) ?_) | dsimp only [id]

theorem spinRun_keeps {r0 : State} (s : State) (h : Nat) (we : Word) (hk : Keeps r0 s) : Keeps r0 (State.spinRun s h we) := by
  unfold State.spinRun
  repeat' first
    | with_reducible assumption | intro _ | with_reducible apply keeps_ite | with_reducible apply instOn_keeps
    | with_reducible apply wr_keeps | with_reducible apply updSpin_keeps | with_reducible apply spinState_keeps
    | with_reducible apply keeps_foldl | with_reducible apply keeps_foldl_fst | with_reducible apply keeps_ite_fst | extract_lets
    | split | (with_reducible refine keeps_fst (by assumption) ?_) | dsimp only [id]

theorem spinAlign_keeps {r0 : State} (s : State) (h : Nat) (hk : Keeps r0 s) : Keeps r0 (State.spinAlign s h) := by
  unfold State.spinAlign
  repeat' first
    | with_reducible assumption | intro _ | with_reducible apply keeps_ite | with_reducible apply instOn_keeps
    | with_reducible apply updSpin_keeps | with_reducible apply spinState_keeps | with_reducible apply wr_keeps
    | with_reducible apply keeps_foldl | with_reducible apply keeps_foldl_fst | with_reducible apply keeps_ite_fst | extract_lets
    | split | (with_reducible refine keeps_fst (by assumption) ?_) | dsimp only [id]

theorem senseBemf_keeps {r0 : State} (s : State) (h : Nat) (b : BemfObs) (hk : Keeps r0 s) : Keeps r0 (State.senseBemf s h b).1 := by
  unfold State.senseBemf
  repeat' first
    | with_reducible assumption | intro _ | with_reducible apply keeps_ite | with_reducible apply updSpin_keeps
    | with_reducible apply wr_keeps | with_reducible apply keeps_foldl | with_reducible apply keeps_foldl_fst
    | with_reducible apply keeps_ite_fst | extract_lets | split | (with_reducible refine keeps_fst (by assumption) ?_)
    | dsimp only [id]

theorem spinSeed_keeps {r0 : State} (s : State) (h : Nat) (b : BemfObs) (hk : Keeps r0 s) : Keeps r0 (State.spinSeed s h b) := by
  unfold State.spinSeed
  repeat' first
    | with_reducible assumption | intro _ | with_reducible apply keeps_ite | with_reducible apply spinRun_keeps
    | with_reducible apply wr_keeps | with_reducible apply keeps_foldl | with_reducible apply keeps_foldl_fst
    | with_reducible apply keeps_ite_fst | extract_lets | split | (with_reducible refine keeps_fst (by assumption) ?_)
    | dsimp only [id]

theorem brakeOn_keeps {r0 : State} (s : State) (h : Nat) (hk : Keeps r0 s) : Keeps r0 (State.brakeOn s h) := by
  unfold State.brakeOn
  repeat' first
    | with_reducible assumption | intro _ | with_reducible apply keeps_ite | with_reducible apply motor_keeps
    | with_reducible apply updSpin_keeps | with_reducible apply keeps_foldl | with_reducible apply keeps_foldl_fst
    | with_reducible apply keeps_ite_fst | extract_lets | split | (with_reducible refine keeps_fst (by assumption) ?_)
    | dsimp only [id]

theorem obsLoss_keeps {r0 : State} (s : State) (h : Nat) (hk : Keeps r0 s) : Keeps r0 (State.obsLoss s h) := by
  unfold State.obsLoss
  repeat' first
    | with_reducible assumption | intro _ | with_reducible apply keeps_ite | with_reducible apply raise_keeps
    | with_reducible apply gateClose_keeps | with_reducible apply bump_keeps | with_reducible apply motorOff_keeps
    | with_reducible apply instsOff_keeps | with_reducible apply spinState_keeps | with_reducible apply updSpin_keeps
    | with_reducible apply keeps_foldl | with_reducible apply keeps_foldl_fst | with_reducible apply keeps_ite_fst | extract_lets
    | split | (with_reducible refine keeps_fst (by assumption) ?_) | dsimp only [id]

theorem spinUnload_keeps {r0 : State} (s : State) (h : Nat) (hk : Keeps r0 s) : Keeps r0 (State.spinUnload s h) := by
  unfold State.spinUnload
  repeat' first
    | with_reducible assumption | intro _ | with_reducible apply keeps_ite | with_reducible apply updSpin_keeps
    | with_reducible apply motorOff_keeps | with_reducible apply instsOff_keeps | with_reducible apply endWork_keeps
    | with_reducible apply chaffAll_keeps | with_reducible apply loopSafeAction_keeps | with_reducible apply gateClose_keeps
    | with_reducible apply updAct_keeps | with_reducible apply spinState_keeps | with_reducible apply keeps_foldl
    | with_reducible apply keeps_foldl_fst | with_reducible apply keeps_ite_fst | extract_lets | split
    | (with_reducible refine keeps_fst (by assumption) ?_) | dsimp only [id]

theorem spinStop_keeps {r0 : State} (s : State) (h : Nat) (hk : Keeps r0 s) : Keeps r0 (State.spinStop s h) := by
  unfold State.spinStop
  repeat' first
    | with_reducible assumption | intro _ | with_reducible apply keeps_ite | with_reducible apply motorOff_keeps
    | with_reducible apply instsOff_keeps | with_reducible apply updSpin_keeps | with_reducible apply spinRelease_keeps
    | with_reducible apply spinState_keeps | with_reducible apply keeps_foldl | with_reducible apply keeps_foldl_fst
    | with_reducible apply keeps_ite_fst | extract_lets | split | (with_reducible refine keeps_fst (by assumption) ?_)
    | dsimp only [id]

theorem spinLimits_keeps {r0 : State} (s : State) (h : Nat) (vd : Word) (vbus : Word) (hk : Keeps r0 s) : Keeps r0 (State.spinLimits s h
    vd vbus) := by
  unfold State.spinLimits
  repeat' first
    | with_reducible assumption | intro _ | with_reducible apply keeps_ite | with_reducible apply wr_keeps
    | with_reducible apply keeps_foldl | with_reducible apply keeps_foldl_fst | with_reducible apply keeps_ite_fst | extract_lets
    | split | (with_reducible refine keeps_fst (by assumption) ?_) | dsimp only [id]

theorem rampRef_keeps {r0 : State} (s : State) (h : Nat) (hk : Keeps r0 s) : Keeps r0 (State.rampRef s h) := by
  unfold State.rampRef
  repeat' first
    | with_reducible assumption | intro _ | with_reducible apply keeps_ite | with_reducible apply wr_keeps
    | with_reducible apply keeps_foldl | with_reducible apply keeps_foldl_fst | with_reducible apply keeps_ite_fst | extract_lets
    | split | (with_reducible refine keeps_fst (by assumption) ?_) | dsimp only [id]

theorem openLoop_keeps {r0 : State} (s : State) (h : Nat) (hk : Keeps r0 s) : Keeps r0 (State.openLoop s h) := by
  unfold State.openLoop
  repeat' first
    | with_reducible assumption | intro _ | with_reducible apply keeps_ite | with_reducible apply updSpin_keeps
    | with_reducible apply keeps_foldl | with_reducible apply keeps_foldl_fst | with_reducible apply keeps_ite_fst | extract_lets
    | split | (with_reducible refine keeps_fst (by assumption) ?_) | dsimp only [id]

theorem spinLock_keeps {r0 : State} (s : State) (h : Nat) (hk : Keeps r0 s) : Keeps r0 (State.spinLock s h) := by
  unfold State.spinLock
  repeat' first
    | with_reducible assumption | intro _ | with_reducible apply keeps_ite | with_reducible apply spinUnload_keeps
    | with_reducible apply updSpin_keeps | with_reducible apply spinRelease_keeps | with_reducible apply spinState_keeps
    | with_reducible apply keeps_foldl | with_reducible apply keeps_foldl_fst | with_reducible apply keeps_ite_fst | extract_lets
    | split | (with_reducible refine keeps_fst (by assumption) ?_) | dsimp only [id]

theorem residual_keeps {r0 : State} (s : State) (h : Nat) (dId : Word) (dIq : Word) (hk : Keeps r0 s) : Keeps r0 (State.residual s h dId
    dIq) := by
  unfold State.residual
  repeat' first
    | with_reducible assumption | intro _ | with_reducible apply keeps_ite | with_reducible apply updSpin_keeps
    | with_reducible apply wrB_keeps | with_reducible apply keeps_foldl | with_reducible apply keeps_foldl_fst
    | with_reducible apply keeps_ite_fst | extract_lets | split | (with_reducible refine keeps_fst (by assumption) ?_)
    | dsimp only [id]

theorem dropUnacked_keeps {r0 : State} (s : State) (n : Nat) (hk : Keeps r0 s) : Keeps r0 (State.dropUnacked s n) := by
  unfold State.dropUnacked
  repeat' first
    | with_reducible assumption | intro _ | with_reducible apply keeps_ite | with_reducible apply setZone_keeps
    | with_reducible apply bufRefresh_keeps | with_reducible apply keeps_foldl | with_reducible apply keeps_foldl_fst
    | with_reducible apply keeps_ite_fst | extract_lets | split | (with_reducible refine keeps_fst (by assumption) ?_)
    | simp only [keeps_mk] | dsimp only [id]

theorem loseBuffered_keeps {r0 : State} (s : State) (n : Nat) (cause : Nat) (hk : Keeps r0 s) : Keeps r0 (State.loseBuffered s n
    cause).1 := by
  unfold State.loseBuffered
  repeat' first
    | with_reducible assumption | intro _ | with_reducible apply keeps_ite | with_reducible apply lostEvent_keeps
    | with_reducible apply updAct_keeps | with_reducible apply lostAdd_keeps | with_reducible apply mqDrop_keeps
    | with_reducible apply bufRefresh_keeps | with_reducible apply keeps_foldl | with_reducible apply keeps_foldl_fst
    | with_reducible apply keeps_ite_fst | extract_lets | split | (with_reducible refine keeps_fst (by assumption) ?_)
    | simp only [keeps_mk] | dsimp only [id]

theorem unloadSide_keeps {r0 : State} (s : State) (n : Nat) (hk : Keeps r0 s) : Keeps r0 (State.unloadSide s n) := by
  unfold State.unloadSide
  repeat' first
    | with_reducible assumption | intro _ | with_reducible apply keeps_ite | with_reducible apply loopDisable_keeps
    | with_reducible apply updAct_keeps | with_reducible apply keeps_foldl | with_reducible apply keeps_foldl_fst
    | with_reducible apply keeps_ite_fst | extract_lets | split | (with_reducible refine keeps_fst (by assumption) ?_)
    | dsimp only [id]

theorem disableAct_keeps {r0 : State} (s : State) (n : Nat) (blk : Nat) (force : Bool) (hk : Keeps r0 s) : Keeps r0 (State.disableAct s
    n blk force) := by
  unfold State.disableAct
  repeat' first
    | with_reducible assumption | intro _ | with_reducible apply keeps_ite | with_reducible apply dropUnacked_keeps
    | with_reducible apply failActs_keeps | with_reducible apply laneStop_keeps | with_reducible apply gateClose_keeps
    | with_reducible apply endWork_keeps | with_reducible apply chaffAll_keeps | with_reducible apply recDrop_keeps
    | with_reducible apply complete_keeps | with_reducible apply loseBuffered_keeps | with_reducible apply bumpBy_keeps
    | with_reducible apply disEnd_keeps | with_reducible apply unloadSide_keeps | with_reducible apply keeps_foldl
    | with_reducible apply keeps_foldl_fst | with_reducible apply keeps_ite_fst | extract_lets | split
    | (with_reducible refine keeps_fst (by assumption) ?_) | dsimp only [id]

theorem calTrigger_keeps {r0 : State} (s : State) (act : Nat) (item : Nat) (hk : Keeps r0 s) : Keeps r0 (State.calTrigger s act item) := by
  unfold State.calTrigger
  repeat' first
    | with_reducible assumption | intro _ | with_reducible apply keeps_ite | with_reducible apply updThm_keeps
    | with_reducible apply keeps_foldl | with_reducible apply keeps_foldl_fst | with_reducible apply keeps_ite_fst | extract_lets
    | split | (with_reducible refine keeps_fst (by assumption) ?_) | dsimp only [id]

theorem calLoad_keeps {r0 : State} (s : State) (n : Nat) (kind : Nat) (copies : List Byte × List Byte) (hk : Keeps r0 s) : Keeps r0
    (State.calLoad s n kind copies) := by
  unfold State.calLoad
  repeat' first
    | with_reducible assumption | intro _ | with_reducible apply keeps_ite | with_reducible apply wrN_keeps
    | with_reducible apply updAct_keeps | with_reducible apply updLane_keeps | with_reducible apply calTrigger_keeps
    | with_reducible apply wrAt_keeps | with_reducible apply wr_keeps | with_reducible apply keeps_foldl
    | with_reducible apply keeps_foldl_fst | with_reducible apply keeps_ite_fst | extract_lets | split
    | (with_reducible refine keeps_fst (by assumption) ?_) | dsimp only [id] | dsimp +zetaDelta only

theorem calStore_keeps {r0 : State} (s : State) (n : Nat) (kind : Nat) (ok : Bool) (hk : Keeps r0 s) : Keeps r0 (State.calStore s n kind
    ok) := by
  unfold State.calStore
  repeat' first
    | with_reducible assumption | intro _ | with_reducible apply keeps_ite | with_reducible apply updAct_keeps
    | with_reducible apply emit_keeps | with_reducible apply audit_keeps | with_reducible apply keeps_foldl
    | with_reducible apply keeps_foldl_fst | with_reducible apply keeps_ite_fst | extract_lets | split
    | (with_reducible refine keeps_fst (by assumption) ?_) | dsimp only [id]

theorem storeOffsets_keeps {r0 : State} (s : State) (n : Nat) (ok : Bool) (hk : Keeps r0 s) : Keeps r0 (State.storeOffsets s n ok) := by
  unfold State.storeOffsets
  repeat' first
    | with_reducible assumption | intro _ | with_reducible apply keeps_ite | with_reducible apply updAct_keeps
    | with_reducible apply calStore_keeps | with_reducible apply keeps_foldl | with_reducible apply keeps_foldl_fst
    | with_reducible apply keeps_ite_fst | extract_lets | split | (with_reducible refine keeps_fst (by assumption) ?_)
    | dsimp only [id]

theorem strobeStore_keeps {r0 : State} (s : State) (ok : Bool) (hk : Keeps r0 s) : Keeps r0 (State.strobeStore s ok) := by
  unfold State.strobeStore
  repeat' first
    | with_reducible assumption | ((with_reducible apply otpLe_of_same) <;> rfl) | intro _ | with_reducible apply keeps_ite
    | with_reducible apply updHusk_keeps | with_reducible apply updThm_keeps | with_reducible apply audit_keeps
    | with_reducible apply keeps_foldl | with_reducible apply keeps_foldl_fst | with_reducible apply keeps_ite_fst | extract_lets
    | split | (with_reducible refine keeps_fst (by assumption) ?_) | dsimp only [id]

theorem setRun_keeps {r0 : State} (s : State) (act : Nat) (item : Nat) (f : CalRun → CalRun) (hk : Keeps r0 s) : Keeps r0 (State.setRun
    s act item f) := by
  unfold State.setRun
  repeat' first
    | with_reducible assumption | intro _ | with_reducible apply keeps_ite | with_reducible apply updThm_keeps
    | with_reducible apply keeps_foldl | with_reducible apply keeps_foldl_fst | with_reducible apply keeps_ite_fst | extract_lets
    | split | (with_reducible refine keeps_fst (by assumption) ?_) | dsimp only [id]

theorem calShow_keeps {r0 : State} (s : State) (act : Nat) (hk : Keeps r0 s) : Keeps r0 (State.calShow s act) := by
  unfold State.calShow
  repeat' first
    | with_reducible assumption | intro _ | with_reducible apply keeps_ite | with_reducible apply wrN_keeps
    | with_reducible apply wrB_keeps | with_reducible apply keeps_foldl | with_reducible apply keeps_foldl_fst
    | with_reducible apply keeps_ite_fst | extract_lets | split | (with_reducible refine keeps_fst (by assumption) ?_)
    | dsimp only [id]

theorem calCount_keeps {r0 : State} (s : State) (act : Nat) (fa : RegField) (fc : RegField) (hk : Keeps r0 s) : Keeps r0 (State.calCount
    s act fa fc) := by
  unfold State.calCount
  repeat' first
    | with_reducible assumption | intro _ | with_reducible apply keeps_ite | with_reducible apply bump_keeps
    | with_reducible apply keeps_foldl | with_reducible apply keeps_foldl_fst | with_reducible apply keeps_ite_fst | extract_lets
    | split | (with_reducible refine keeps_fst (by assumption) ?_) | dsimp only [id]

theorem calApply_keeps {r0 : State} (s : State) (r : CalRun) (v : List Int) (hk : Keeps r0 s) : Keeps r0 (State.calApply s r v) := by
  unfold State.calApply
  repeat' first
    | with_reducible assumption | intro _ | with_reducible apply keeps_ite | with_reducible apply updThm_keeps
    | with_reducible apply wrN_keeps | with_reducible apply updLane_keeps | with_reducible apply updAct_keeps
    | with_reducible apply keeps_foldl | with_reducible apply keeps_foldl_fst | with_reducible apply keeps_ite_fst | extract_lets
    | split | (with_reducible refine keeps_fst (by assumption) ?_) | dsimp only [id]

theorem borrowEntries_keeps {r0 : State} (s : State) (n : Nat) (band : Nat) (hk : Keeps r0 s) : Keeps r0 (State.borrowEntries s n band)
    := by
  unfold State.borrowEntries
  repeat' first
    | with_reducible assumption | intro _ | with_reducible apply keeps_ite | with_reducible apply updAct_keeps
    | with_reducible apply keeps_foldl | with_reducible apply keeps_foldl_fst | with_reducible apply keeps_ite_fst | extract_lets
    | split | (with_reducible refine keeps_fst (by assumption) ?_) | dsimp only [id]

theorem calDone_keeps {r0 : State} (s : State) (r : CalRun) (hk : Keeps r0 s) : Keeps r0 (State.calDone s r) := by
  unfold State.calDone
  repeat' first
    | with_reducible assumption | intro _ | with_reducible apply keeps_ite | with_reducible apply updThm_keeps
    | with_reducible apply calCount_keeps | with_reducible apply strobeStore_keeps | with_reducible apply calStore_keeps
    | with_reducible apply borrowEntries_keeps | with_reducible apply wrInt_keeps | with_reducible apply storeOffsets_keeps
    | with_reducible apply updAct_keeps | with_reducible apply keeps_foldl | with_reducible apply keeps_foldl_fst
    | with_reducible apply keeps_ite_fst | extract_lets | split | (with_reducible refine keeps_fst (by assumption) ?_)
    | dsimp only [id]

theorem calStart_keeps {r0 : State} (s : State) (r : CalRun) (hk : Keeps r0 s) : Keeps r0 (State.calStart s r) := by
  unfold State.calStart
  repeat' first
    | with_reducible assumption | intro _ | with_reducible apply keeps_ite | with_reducible apply setRun_keeps
    | with_reducible apply calShow_keeps | with_reducible apply keeps_foldl | with_reducible apply keeps_foldl_fst
    | with_reducible apply keeps_ite_fst | extract_lets | split | (with_reducible refine keeps_fst (by assumption) ?_)
    | dsimp only [id]

theorem calDefer_keeps {r0 : State} (s : State) (r : CalRun) (hk : Keeps r0 s) : Keeps r0 (State.calDefer s r) := by
  unfold State.calDefer
  repeat' first
    | with_reducible assumption | intro _ | with_reducible apply keeps_ite | with_reducible apply calCount_keeps
    | with_reducible apply calShow_keeps | with_reducible apply setRun_keeps | with_reducible apply keeps_foldl
    | with_reducible apply keeps_foldl_fst | with_reducible apply keeps_ite_fst | extract_lets | split
    | (with_reducible refine keeps_fst (by assumption) ?_) | dsimp only [id]

theorem calAbort_keeps {r0 : State} (s : State) (r : CalRun) (hk : Keeps r0 s) : Keeps r0 (State.calAbort s r) := by
  unfold State.calAbort
  repeat' first
    | with_reducible assumption | intro _ | with_reducible apply keeps_ite | with_reducible apply calApply_keeps
    | with_reducible apply calCount_keeps | with_reducible apply calDefer_keeps | with_reducible apply keeps_foldl
    | with_reducible apply keeps_foldl_fst | with_reducible apply keeps_ite_fst | extract_lets | split
    | (with_reducible refine keeps_fst (by assumption) ?_) | dsimp only [id]

theorem calMeasured_keeps {r0 : State} (s : State) (r : CalRun) (m : CalMeas) (stored : Bool) (hk : Keeps r0 s) : Keeps r0
    (State.calMeasured s r m stored) := by
  unfold State.calMeasured
  repeat' first
    | with_reducible assumption | intro _ | with_reducible apply keeps_ite | with_reducible apply setRun_keeps
    | with_reducible apply zoneMap_keeps | with_reducible apply updAct_keeps | with_reducible apply emit_keeps
    | with_reducible apply keeps_foldl | with_reducible apply keeps_foldl_fst | with_reducible apply keeps_ite_fst | extract_lets
    | split | (with_reducible refine keeps_fst (by assumption) ?_) | dsimp only [id]

theorem calReached_keeps {r0 : State} (s : State) (r : CalRun) (hk : Keeps r0 s) : Keeps r0 (State.calReached s r) := by
  unfold State.calReached
  repeat' first
    | with_reducible assumption | intro _ | with_reducible apply keeps_ite | with_reducible apply updAct_keeps
    | with_reducible apply calShow_keeps | with_reducible apply calDone_keeps | with_reducible apply setRun_keeps
    | with_reducible apply keeps_foldl | with_reducible apply keeps_foldl_fst | with_reducible apply keeps_ite_fst | extract_lets
    | split | (with_reducible refine keeps_fst (by assumption) ?_) | dsimp only [id]

theorem calRound_keeps {r0 : State} (s : State) (r : CalRun) (obs : List (CalMeas × Bool)) (hk : Keeps r0 s) : Keeps r0 (State.calRound
    s r obs) := by
  unfold State.calRound
  repeat' first
    | with_reducible assumption | intro _ | with_reducible apply keeps_ite | with_reducible apply calStart_keeps
    | with_reducible apply calDefer_keeps | with_reducible apply calAbort_keeps | with_reducible apply calMeasured_keeps
    | with_reducible apply setRun_keeps | with_reducible apply calApply_keeps | with_reducible apply calReached_keeps
    | with_reducible apply keeps_foldl | with_reducible apply keeps_foldl_fst | with_reducible apply keeps_ite_fst | extract_lets
    | split | (with_reducible refine keeps_fst (by assumption) ?_) | dsimp only [id]

theorem liveApply_keeps {r0 : State} (s : State) (hk : Keeps r0 s) : Keeps r0 (State.liveApply s) := by
  unfold State.liveApply
  repeat' first
    | with_reducible assumption | ((with_reducible apply otpLe_of_same) <;> rfl) | intro _ | with_reducible apply keeps_ite
    | with_reducible apply audit_keeps | with_reducible apply bump_keeps | with_reducible apply wrB_keeps
    | with_reducible apply wrN_keeps | with_reducible apply updHusk_keeps | with_reducible apply keeps_foldl
    | with_reducible apply keeps_foldl_fst | with_reducible apply keeps_ite_fst | extract_lets | split
    | (with_reducible refine keeps_fst (by assumption) ?_) | simp only [keeps_mk] | dsimp only [id]

theorem sensFail_keeps {r0 : State} (s : State) (i : Nat) (hk : Keeps r0 s) : Keeps r0 (State.sensFail s i) := by
  unfold State.sensFail
  repeat' first
    | with_reducible assumption | intro _ | with_reducible apply keeps_ite | with_reducible apply raise_keeps
    | with_reducible apply wrAt_keeps | with_reducible apply keeps_foldl | with_reducible apply keeps_foldl_fst
    | with_reducible apply keeps_ite_fst | extract_lets | split | (with_reducible refine keeps_fst (by assumption) ?_)
    | dsimp only [id]

theorem latchDie_keeps {r0 : State} (s : State) (counts : List Nat) (hk : Keeps r0 s) : Keeps r0 (State.latchDie s counts) := by
  unfold State.latchDie
  extract_lets failed ids s1 temp valid off s2 s3 valid2 s4
  have h1 : Keeps r0 s1 := by
    refine keeps_foldl _ _ _ hk fun s i h => ?_
    have h' := wrAt_keeps _ Reg.therm_HK_VAL 0 i (BitVec.ofInt 32 (State.sensTemp (s.wrInt Reg.therm_SENS_T 0 i (s.sensTemp i (counts.getD i 0))) i
      (counts.getD i 0))) (wrInt_keeps _ Reg.therm_SENS_T 0 i (s.sensTemp i (counts.getD i 0)) h)
    exact keeps_ite (sensFail_keeps _ _ h') h'
  have h3 : Keeps r0 s3 := keeps_foldl _ _ _ (updThm_keeps _ _ h1) fun s i h => keeps_ite (sensFail_keeps _ _ h) h
  have h4 : Keeps r0 s4 := wrN_keeps _ _ _ _ h3
  clear_value s4 valid2
  split
  · exact h4
  · exact wrInt_keeps _ _ _ _ _ h4

theorem latchHda_keeps {r0 : State} (s : State) (h : Nat) (hk : Keeps r0 s) : Keeps r0 (State.latchHda s h) := by
  unfold State.latchHda
  repeat' first
    | with_reducible assumption | intro _ | with_reducible apply keeps_ite | with_reducible apply updPort_keeps
    | with_reducible apply wrAt_keeps | with_reducible apply wrInt_keeps | with_reducible apply raise_keeps
    | with_reducible apply keeps_foldl | with_reducible apply keeps_foldl_fst | with_reducible apply keeps_ite_fst | extract_lets
    | split | (with_reducible refine keeps_fst (by assumption) ?_) | dsimp only [id]

theorem latchRest_keeps {r0 : State} (s : State) (rails : List Int) (hk : Keeps r0 s) : Keeps r0 (State.latchRest s rails) := by
  unfold State.latchRest
  repeat' first
    | with_reducible assumption | intro _ | with_reducible apply keeps_ite | with_reducible apply wrAt_keeps
    | with_reducible apply updSpin_keeps | with_reducible apply keeps_foldl | with_reducible apply keeps_foldl_fst
    | with_reducible apply keeps_ite_fst | extract_lets | split | (with_reducible refine keeps_fst (by assumption) ?_)
    | dsimp only [id]

theorem threshEvents_keeps {r0 : State} (s : State) (sensor : Nat) (old : Int) (new : Int) (hk : Keeps r0 s) : Keeps r0
    (State.threshEvents s sensor old new) := by
  unfold State.threshEvents
  repeat' first
    | with_reducible assumption | intro _ | with_reducible apply keeps_ite | with_reducible apply event_keeps
    | with_reducible apply keeps_foldl | with_reducible apply keeps_foldl_fst | with_reducible apply keeps_ite_fst | extract_lets
    | split | (with_reducible refine keeps_fst (by assumption) ?_) | dsimp only [id]

theorem thermNew_keeps {r0 : State} (s : State) (inst : Nat) (old : Nat) (new : Nat) (ftype : Nat) (fi : Nat) (hk : Keeps r0 s) : Keeps
    r0 (State.thermNew s inst old new ftype fi) := by
  unfold State.thermNew
  repeat' first
    | with_reducible assumption | intro _ | with_reducible apply keeps_ite | with_reducible apply audit_keeps
    | with_reducible apply raise_keeps | with_reducible apply keeps_foldl | with_reducible apply keeps_foldl_fst
    | with_reducible apply keeps_ite_fst | extract_lets | split | (with_reducible refine keeps_fst (by assumption) ?_)
    | dsimp only [id]

theorem thermJ_keeps {r0 : State} (s : State) (hk : Keeps r0 s) : Keeps r0 (State.thermJ s) := by
  unfold State.thermJ
  repeat' first
    | with_reducible assumption | intro _ | with_reducible apply keeps_ite | with_reducible apply thermNew_keeps
    | with_reducible apply wrN_keeps | with_reducible apply wr_keeps | with_reducible apply keeps_foldl
    | with_reducible apply keeps_foldl_fst | with_reducible apply keeps_ite_fst | extract_lets | split
    | (with_reducible refine keeps_fst (by assumption) ?_) | dsimp only [id]

theorem thermH_keeps {r0 : State} (s : State) (h : Nat) (hk : Keeps r0 s) : Keeps r0 (State.thermH s h) := by
  unfold State.thermH
  repeat' first
    | with_reducible assumption | intro _ | with_reducible apply keeps_ite | with_reducible apply thermNew_keeps
    | with_reducible apply wrAt_keeps | with_reducible apply keeps_foldl | with_reducible apply keeps_foldl_fst
    | with_reducible apply keeps_ite_fst | extract_lets | split | (with_reducible refine keeps_fst (by assumption) ?_)
    | dsimp only [id]

theorem fracAct_keeps {r0 : State} (s : State) (n : Nat) (hk : Keeps r0 s) : Keeps r0 (State.fracAct s n) := by
  unfold State.fracAct
  repeat' first
    | with_reducible assumption | intro _ | with_reducible apply keeps_ite | with_reducible apply wrN_keeps
    | with_reducible apply audit_keeps | with_reducible apply breaksFor_keeps | with_reducible apply wrInt_keeps
    | with_reducible apply opCut_keeps | with_reducible apply resumeGo_keeps | with_reducible apply keeps_foldl
    | with_reducible apply keeps_foldl_fst | with_reducible apply keeps_ite_fst | extract_lets | split
    | (with_reducible refine keeps_fst (by assumption) ?_) | dsimp only [id]

theorem fractions_keeps {r0 : State} (s : State) (hk : Keeps r0 s) : Keeps r0 (State.fractions s) := by
  unfold State.fractions
  repeat' first
    | with_reducible assumption | intro _ | with_reducible apply keeps_ite | with_reducible apply wrN_keeps
    | with_reducible apply wrAt_keeps | with_reducible apply fracAct_keeps | with_reducible apply event_keeps
    | with_reducible apply updThm_keeps | with_reducible apply updHost_keeps | with_reducible apply keeps_foldl
    | with_reducible apply keeps_foldl_fst | with_reducible apply keeps_ite_fst | extract_lets | split
    | (with_reducible refine keeps_fst (by assumption) ?_) | dsimp only [id]

theorem slotEnd_keeps {r0 : State} (s : State) (n : Nat) (hk : Keeps r0 s) : Keeps r0 (State.slotEnd s n) := by
  unfold State.slotEnd
  repeat' first
    | with_reducible assumption | intro _ | with_reducible apply keeps_ite | with_reducible apply updThm_keeps
    | with_reducible apply updAct_keeps | with_reducible apply opCut_keeps | with_reducible apply keeps_foldl
    | with_reducible apply keeps_foldl_fst | with_reducible apply keeps_ite_fst | extract_lets | split
    | (with_reducible refine keeps_fst (by assumption) ?_) | dsimp only [id]

theorem slotRound_keeps {r0 : State} (s : State) (n : Nat) (hk : Keeps r0 s) : Keeps r0 (State.slotRound s n) := by
  unfold State.slotRound
  repeat' first
    | with_reducible assumption | intro _ | with_reducible apply keeps_ite | with_reducible apply wr_keeps
    | with_reducible apply bumpBy_keeps | with_reducible apply slotEnd_keeps | with_reducible apply updThm_keeps
    | with_reducible apply updAct_keeps | with_reducible apply keeps_foldl | with_reducible apply keeps_foldl_fst
    | with_reducible apply keeps_ite_fst | extract_lets | split | (with_reducible refine keeps_fst (by assumption) ?_)
    | dsimp only [id]

theorem calTriggers_keeps {r0 : State} (s : State) (hk : Keeps r0 s) : Keeps r0 (State.calTriggers s) := by
  unfold State.calTriggers
  repeat' first
    | with_reducible assumption | intro _ | with_reducible apply keeps_ite | with_reducible apply calTrigger_keeps
    | with_reducible apply keeps_foldl | with_reducible apply keeps_foldl_fst | with_reducible apply keeps_ite_fst | extract_lets
    | split | (with_reducible refine keeps_fst (by assumption) ?_) | dsimp only [id]

theorem calStep_keeps {r0 : State} (s : State) (obs : List CalObs) (hk : Keeps r0 s) : Keeps r0 (State.calStep s obs) := by
  unfold State.calStep
  repeat' first
    | with_reducible assumption | intro _ | with_reducible apply keeps_ite | with_reducible apply calTriggers_keeps
    | with_reducible apply calRound_keeps | with_reducible apply keeps_foldl | with_reducible apply keeps_foldl_fst
    | with_reducible apply keeps_ite_fst | extract_lets | split | (with_reducible refine keeps_fst (by assumption) ?_)
    | dsimp only [id]

theorem limitCheck_keeps {r0 : State} (s : State) (hk : Keeps r0 s) : Keeps r0 (State.limitCheck s) := by
  unfold State.limitCheck
  repeat' first
    | with_reducible assumption | intro _ | with_reducible apply keeps_ite | with_reducible apply updThm_keeps
    | with_reducible apply raise_keeps | with_reducible apply keeps_foldl | with_reducible apply keeps_foldl_fst
    | with_reducible apply keeps_ite_fst | extract_lets | split | (with_reducible refine keeps_fst (by assumption) ?_)
    | dsimp only [id]

theorem healthEvents_keeps {r0 : State} (s : State) (hk : Keeps r0 s) : Keeps r0 (State.healthEvents s) := by
  unfold State.healthEvents
  repeat' first
    | with_reducible assumption | intro _ | with_reducible apply keeps_ite | with_reducible apply updThm_keeps
    | with_reducible apply event_keeps | with_reducible apply keeps_foldl | with_reducible apply keeps_foldl_fst
    | with_reducible apply keeps_ite_fst | extract_lets | split | (with_reducible refine keeps_fst (by assumption) ?_)
    | dsimp only [id]

theorem fetchWindow_keeps {r0 : State} (s : State) (hk : Keeps r0 s) : Keeps r0 (State.fetchWindow s) := by
  unfold State.fetchWindow
  repeat' first
    | with_reducible assumption | intro _ | with_reducible apply keeps_ite | with_reducible apply wrAt_keeps
    | with_reducible apply updHost_keeps | with_reducible apply wrN_keeps | with_reducible apply keeps_foldl
    | with_reducible apply keeps_foldl_fst | with_reducible apply keeps_ite_fst | extract_lets | split
    | (with_reducible refine keeps_fst (by assumption) ?_) | dsimp only [id]

theorem round_keeps {r0 : State} (s : State) (obs : RoundObs) (hk : Keeps r0 s) : Keeps r0 (State.round s obs) := by
  unfold State.round
  repeat' first
    | with_reducible assumption | intro _ | with_reducible apply keeps_ite | with_reducible apply liveApply_keeps
    | with_reducible apply faultAuditRound_keeps | with_reducible apply latchDie_keeps | with_reducible apply latchHda_keeps
    | with_reducible apply latchRest_keeps | with_reducible apply thermJ_keeps | with_reducible apply thermH_keeps
    | with_reducible apply threshEvents_keeps | with_reducible apply updHost_keeps | with_reducible apply fractions_keeps
    | with_reducible apply slotRound_keeps | with_reducible apply calStep_keeps | with_reducible apply fetchWindow_keeps
    | with_reducible apply healthEvents_keeps | with_reducible apply limitCheck_keeps | with_reducible apply askStanding_keeps
    | with_reducible apply spinAsk_keeps | with_reducible apply bumpWrap_keeps | with_reducible apply keeps_foldl
    | with_reducible apply keeps_foldl_fst | with_reducible apply keeps_ite_fst | extract_lets | split
    | (with_reducible refine keeps_fst (by assumption) ?_) | dsimp only [id]

theorem wipe_keeps {r0 : State} (s : State) (power : Bool) (hk : Keeps r0 s) : Keeps r0 (State.wipe s power) := by
  have hw : ∀ w : State, w.pending = s.pending → w.husk = s.husk.wipe → w.mem = [] → w.regs = Regs.resetFile →
      w.alm.auditLast = s.alm.auditLast → w.out = s.out → w.fresh = s.fresh → Keeps r0 w := by
    intro w h1 h2 h3 h4 h5 h6 h7
    refine ⟨h1.trans hk.1, ?_, fun _ => by rw [h3]; rfl, fun _ => by unfold State.fileOk; rw [h4]; exact resetFile_rising,
      h5 ▸ hk.5, h6 ▸ hk.6, h7 ▸ hk.7⟩
    rw [h2]
    exact hk.2
  unfold State.wipe
  extract_lets
  repeat' first
    | with_reducible assumption
    | with_reducible apply keeps_ite
    | with_reducible apply updHost_keeps
    | with_reducible apply wrB_keeps
    | with_reducible apply wr64_keeps
    | with_reducible apply wr_keeps
    | (apply hw <;> first | rfl | (cases power <;> rfl))
    | extract_lets

theorem applyStructure_keeps {r0 : State} (s : State) (c : Structure) (hk : Keeps r0 s) : Keeps r0 (State.applyStructure s c) := by
  unfold State.applyStructure
  repeat' first
    | with_reducible assumption | intro _ | with_reducible apply keeps_ite | with_reducible apply wrN_keeps
    | with_reducible apply keeps_foldl | with_reducible apply keeps_foldl_fst | with_reducible apply keeps_ite_fst | extract_lets
    | split | (with_reducible refine keeps_fst (by assumption) ?_) | simp only [keeps_mk] | dsimp only [id]

theorem validate_keeps {r0 : State} (s : State) (aErr : Bool) (bErr : Bool) (hk : Keeps r0 s) : Keeps r0 (State.validate s aErr bErr) := by
  unfold State.validate
  repeat' first
    | with_reducible assumption | ((with_reducible apply otpLe_of_same) <;> rfl) | intro _ | with_reducible apply keeps_ite
    | with_reducible apply wrN_keeps | with_reducible apply applyStructure_keeps | with_reducible apply updHusk_keeps
    | with_reducible apply keeps_foldl | with_reducible apply keeps_foldl_fst | with_reducible apply keeps_ite_fst | extract_lets
    | split | (with_reducible refine keeps_fst (by assumption) ?_) | dsimp only [id]

theorem selectBundle_keeps {r0 : State} (s : State) (aErr : Bool) (bErr : Bool) (hk : Keeps r0 s) : Keeps r0 (State.selectBundle s aErr
    bErr) := by
  unfold State.selectBundle
  repeat' first
    | with_reducible assumption | ((with_reducible apply otpLe_of_same) <;> rfl) | intro _ | with_reducible apply keeps_ite
    | with_reducible apply updHusk_keeps | with_reducible apply wr_keeps | with_reducible apply keeps_foldl
    | with_reducible apply keeps_foldl_fst | with_reducible apply keeps_ite_fst | extract_lets | split
    | (with_reducible refine keeps_fst (by assumption) ?_) | dsimp only [id]

theorem boot_keeps {r0 : State} (s : State) (obs : BootObs) (cause : Nat) (hk : Keeps r0 s) : Keeps r0 (State.boot s obs cause) := by
  unfold State.boot
  repeat' first
    | with_reducible assumption | ((with_reducible apply otpLe_of_same) <;> rfl) | intro _ | with_reducible apply keeps_ite
    | with_reducible apply wrN_keeps | with_reducible apply updHusk_keeps | with_reducible apply selectBundle_keeps
    | with_reducible apply validate_keeps | with_reducible apply keeps_foldl | with_reducible apply keeps_foldl_fst
    | with_reducible apply keeps_ite_fst | extract_lets | split | (with_reducible refine keeps_fst (by assumption) ?_)
    | simp only [keeps_mk] | dsimp only [id]

theorem resumeTime_keeps {r0 : State} (s : State) (hk : Keeps r0 s) : Keeps r0 (State.resumeTime s) := by
  unfold State.resumeTime
  repeat' first
    | with_reducible assumption | (with_reducible refine updAlm_keeps_all _ _ (fun _ => Nat.le_refl _) ?_)
    | with_reducible exact Nat.le_refl _ | with_reducible exact Nat.le_succ _ | intro _ | with_reducible apply keeps_ite
    | with_reducible apply wr_keeps | with_reducible apply updAlm_keeps | with_reducible apply keeps_foldl
    | with_reducible apply keeps_foldl_fst | with_reducible apply keeps_ite_fst | extract_lets | split
    | (with_reducible refine keeps_fst (by assumption) ?_) | dsimp only [id]

theorem ddrTrained_keeps {r0 : State} (s : State) (l : List (List Dimm)) (rate : Nat) (hk : Keeps r0 s) : Keeps r0 (State.ddrTrained s l
    rate) := by
  unfold State.ddrTrained
  repeat' first
    | with_reducible assumption | intro _ | with_reducible apply keeps_ite | with_reducible apply wrN_keeps
    | with_reducible apply wrB_keeps | with_reducible apply updThm_keeps | with_reducible apply updGran_keeps
    | with_reducible apply wr_keeps | with_reducible apply memWins_keeps | with_reducible apply strobeStore_keeps
    | with_reducible apply keeps_foldl | with_reducible apply keeps_foldl_fst | with_reducible apply keeps_ite_fst | extract_lets
    | split | (with_reducible refine keeps_fst (by assumption) ?_) | dsimp only [id]

theorem rwlEntry_keeps {r0 : State} (s : State) (addr : Nat) (value : Nat) (mask : Nat) (hk : Keeps r0 s) : Keeps r0 (State.rwlEntry s
    addr value mask) := by
  unfold State.rwlEntry
  repeat' first
    | with_reducible assumption | intro _ | with_reducible apply keeps_ite | with_reducible apply wrAt_keeps
    | with_reducible apply keeps_foldl | with_reducible apply keeps_foldl_fst | with_reducible apply keeps_ite_fst | extract_lets
    | split | (with_reducible refine keeps_fst (by assumption) ?_) | dsimp only [id]

theorem rwlFields_keeps {r0 : State} (s : State) (hk : Keeps r0 s) : Keeps r0 (State.rwlFields s) := by
  unfold State.rwlFields
  repeat' first
    | with_reducible assumption | intro _ | with_reducible apply keeps_ite | with_reducible apply rwlEntry_keeps
    | with_reducible apply wrN_keeps | with_reducible apply wrAt_keeps | with_reducible apply keeps_foldl
    | with_reducible apply keeps_foldl_fst | with_reducible apply keeps_ite_fst | extract_lets | split
    | (with_reducible refine keeps_fst (by assumption) ?_) | dsimp only [id]

theorem imageFields_keeps {r0 : State} (s : State) (hk : Keeps r0 s) : Keeps r0 (State.imageFields s) := by
  unfold State.imageFields
  repeat' first
    | with_reducible assumption | intro _ | with_reducible apply keeps_ite | with_reducible apply wrN_keeps
    | with_reducible apply wrB_keeps | with_reducible apply wr_keeps | with_reducible apply bufRefresh_keeps
    | with_reducible apply updThm_keeps | with_reducible apply wrAt_keeps | with_reducible apply wr64_keeps
    | with_reducible apply keeps_foldl | with_reducible apply keeps_foldl_fst | with_reducible apply keeps_ite_fst | extract_lets
    | split | (with_reducible refine keeps_fst (by assumption) ?_) | dsimp only [id]

theorem lockSheaf_keeps {r0 : State} (s : State) (hk : Keeps r0 s) : Keeps r0 (State.lockSheaf s) := by
  unfold State.lockSheaf
  repeat' first
    | with_reducible assumption | intro _ | with_reducible apply keeps_ite | with_reducible apply wr_keeps
    | with_reducible apply rwlFields_keeps | with_reducible apply wrB_keeps | with_reducible apply keeps_foldl
    | with_reducible apply keeps_foldl_fst | with_reducible apply keeps_ite_fst | extract_lets | split
    | (with_reducible refine keeps_fst (by assumption) ?_) | simp only [keeps_mk] | dsimp only [id]

theorem engineBoot_keeps {r0 : State} (s : State) (e : Nat) (obj : List Byte) (hk : Keeps r0 s) : Keeps r0 (State.engineBoot s e obj) := by
  unfold State.engineBoot
  repeat' first
    | with_reducible assumption | intro _ | with_reducible apply keeps_ite | with_reducible apply loaderLoad_keeps
    | with_reducible apply loadStart_keeps | with_reducible apply keeps_foldl | with_reducible apply keeps_foldl_fst
    | with_reducible apply keeps_ite_fst | extract_lets | split | (with_reducible refine keeps_fst (by assumption) ?_)
    | dsimp only [id]

theorem culmCopy_keeps {r0 : State} (s : State) (hk : Keeps r0 s) : Keeps r0 (State.culmCopy s) := by
  unfold State.culmCopy
  repeat' first
    | with_reducible assumption | intro _ | with_reducible apply keeps_ite | with_reducible apply memWrite_keeps
    | with_reducible apply keeps_foldl | with_reducible apply keeps_foldl_fst | with_reducible apply keeps_ite_fst | extract_lets
    | split | (with_reducible refine keeps_fst (by assumption) ?_) | dsimp only [id]

theorem fusedPort_keeps {r0 : State} (s : State) (h : Nat) (hk : Keeps r0 s) : Keeps r0 (State.fusedPort s h) := by
  unfold State.fusedPort
  repeat' first
    | with_reducible assumption | intro _ | with_reducible apply keeps_ite | with_reducible apply audit_keeps
    | with_reducible apply raise_keeps | with_reducible apply wrAt_keeps | with_reducible apply keeps_foldl
    | with_reducible apply keeps_foldl_fst | with_reducible apply keeps_ite_fst | extract_lets | split
    | (with_reducible refine keeps_fst (by assumption) ?_) | dsimp only [id]

theorem finishStart_keeps {r0 : State} (s : State) (copy : Nat) (hk : Keeps r0 s) : Keeps r0 (State.finishStart s copy) := by
  unfold State.finishStart
  repeat' first
    | with_reducible assumption | ((with_reducible apply otpLe_of_same) <;> rfl) | intro _ | with_reducible apply keeps_ite
    | with_reducible apply imageFields_keeps | with_reducible apply wrN_keeps | with_reducible apply updHusk_keeps
    | with_reducible apply lockSheaf_keeps | with_reducible apply audit_keeps | with_reducible apply fusedPort_keeps
    | with_reducible apply raise_keeps | with_reducible apply culmCopy_keeps | with_reducible apply engineBoot_keeps
    | with_reducible apply ctrlReady_keeps | with_reducible apply keeps_foldl | with_reducible apply keeps_foldl_fst
    | with_reducible apply keeps_ite_fst | extract_lets | split | (with_reducible refine keeps_fst (by assumption) ?_)
    | dsimp only [id]

theorem stepNine_keeps {r0 : State} (s : State) (bErr : Bool) (hk : Keeps r0 s) : Keeps r0 (State.stepNine s bErr) := by
  unfold State.stepNine
  repeat' first
    | with_reducible assumption | ((with_reducible apply otpLe_of_same) <;> rfl) | intro _ | with_reducible apply keeps_ite
    | with_reducible apply finishStart_keeps | with_reducible apply wr_keeps | with_reducible apply applyStructure_keeps
    | with_reducible apply updHusk_keeps | with_reducible apply wrN_keeps | with_reducible apply keeps_foldl
    | with_reducible apply keeps_foldl_fst | with_reducible apply keeps_ite_fst | extract_lets | split
    | (with_reducible refine keeps_fst (by assumption) ?_) | dsimp only [id]

theorem ddrFailed_keeps {r0 : State} (s : State) (mask : Nat) (bErr : Bool) (hk : Keeps r0 s) : Keeps r0 (State.ddrFailed s mask bErr) := by
  unfold State.ddrFailed
  repeat' first
    | with_reducible assumption | ((with_reducible apply otpLe_of_same) <;> rfl) | intro _ | with_reducible apply keeps_ite
    | with_reducible apply wrN_keeps | with_reducible apply wr_keeps | with_reducible apply updHusk_keeps
    | with_reducible apply lockSheaf_keeps | with_reducible apply raise_keeps | with_reducible apply keeps_foldl
    | with_reducible apply keeps_foldl_fst | with_reducible apply keeps_ite_fst | extract_lets | split
    | (with_reducible refine keeps_fst (by assumption) ?_) | simp only [keeps_mk] | dsimp only [id]

theorem linkClear_keeps {r0 : State} (s : State) (hk : Keeps r0 s) : Keeps r0 (State.linkClear s) := by
  unfold State.linkClear
  repeat' first
    | with_reducible assumption | intro _ | with_reducible apply keeps_ite | with_reducible apply wr_keeps
    | with_reducible apply keeps_foldl | with_reducible apply keeps_foldl_fst | with_reducible apply keeps_ite_fst | extract_lets
    | split | (with_reducible refine keeps_fst (by assumption) ?_) | dsimp only [id]

theorem hostReset_keeps {r0 : State} (s : State) (hk : Keeps r0 s) : Keeps r0 (State.hostReset s) := by
  unfold State.hostReset
  repeat' first
    | with_reducible assumption | intro _ | with_reducible apply keeps_ite | with_reducible apply ctrlReset_keeps
    | with_reducible apply mbRcvReset_keeps | with_reducible apply updMbox_keeps | with_reducible apply keyReset_keeps
    | with_reducible apply updHost_keeps | with_reducible apply keeps_foldl | with_reducible apply keeps_foldl_fst
    | with_reducible apply keeps_ite_fst | extract_lets | split | (with_reducible refine keeps_fst (by assumption) ?_)
    | dsimp only [id]

theorem shutdownEnd_keeps {r0 : State} (s : State) (hk : Keeps r0 s) : Keeps r0 (State.shutdownEnd s) := by
  unfold State.shutdownEnd
  repeat' first
    | with_reducible assumption | intro _ | with_reducible apply keeps_ite | with_reducible apply updHost_keeps
    | with_reducible apply norFlush_keeps | with_reducible apply keeps_foldl | with_reducible apply keeps_foldl_fst
    | with_reducible apply keeps_ite_fst | extract_lets | split | (with_reducible refine keeps_fst (by assumption) ?_)
    | dsimp only [id]

theorem park_keeps {r0 : State} (s : State) (n : Nat) (hk : Keeps r0 s) : Keeps r0 (State.park s n) := by
  unfold State.park
  repeat' first
    | with_reducible assumption | intro _ | with_reducible apply keeps_ite | with_reducible apply laneStop_keeps
    | with_reducible apply gateClose_keeps | with_reducible apply endWork_keeps | with_reducible apply chaffAll_keeps
    | with_reducible apply updAct_keeps | with_reducible apply unloadSide_keeps | with_reducible apply keeps_foldl
    | with_reducible apply keeps_foldl_fst | with_reducible apply keeps_ite_fst | extract_lets | split
    | (with_reducible refine keeps_fst (by assumption) ?_) | dsimp only [id]

theorem ps2Enter_keeps {r0 : State} (s : State) (hk : Keeps r0 s) : Keeps r0 (State.ps2Enter s) := by
  unfold State.ps2Enter
  repeat' first
    | with_reducible assumption | intro _ | with_reducible apply keeps_ite | with_reducible apply park_keeps
    | with_reducible apply keeps_foldl | with_reducible apply keeps_foldl_fst | with_reducible apply keeps_ite_fst | extract_lets
    | split | (with_reducible refine keeps_fst (by assumption) ?_) | simp only [keeps_mk] | dsimp only [id]

theorem psEnter_keeps {r0 : State} (s : State) (t : Nat) (hk : Keeps r0 s) : Keeps r0 (State.psEnter s t) := by
  unfold State.psEnter
  repeat' first
    | with_reducible assumption | intro _ | with_reducible apply keeps_ite | with_reducible apply psOperational_keeps
    | with_reducible apply ps2Enter_keeps | with_reducible apply wr_keeps | with_reducible apply wrN_keeps
    | with_reducible apply cleanSides_keeps | with_reducible apply keeps_foldl | with_reducible apply keeps_foldl_fst
    | with_reducible apply keeps_ite_fst | extract_lets | split | (with_reducible refine keeps_fst (by assumption) ?_)
    | simp only [keeps_mk] | dsimp only [id]

theorem spinDown_keeps {r0 : State} (s : State) (h : Nat) (hk : Keeps r0 s) : Keeps r0 (State.spinDown s h) := by
  unfold State.spinDown
  repeat' first
    | with_reducible assumption | intro _ | with_reducible apply keeps_ite | with_reducible apply rampReached_keeps
    | with_reducible apply park_keeps | with_reducible apply storeOffsets_keeps | with_reducible apply spinState_keeps
    | with_reducible apply spinStop_keeps | with_reducible apply updAct_keeps | with_reducible apply keeps_foldl
    | with_reducible apply keeps_foldl_fst | with_reducible apply keeps_ite_fst | extract_lets | split
    | (with_reducible refine keeps_fst (by assumption) ?_) | dsimp only [id]

theorem ps4Extra_keeps {r0 : State} (s : State) (hk : Keeps r0 s) : Keeps r0 (State.ps4Extra s) := by
  unfold State.ps4Extra
  repeat' first
    | with_reducible assumption | intro _ | with_reducible apply keeps_ite | with_reducible apply norFlush_keeps
    | with_reducible apply granEmpty_keeps | with_reducible apply linkOff_keeps | with_reducible apply giveAll_keeps
    | with_reducible apply withdrawReqs_keeps | with_reducible apply keeps_foldl | with_reducible apply keeps_foldl_fst
    | with_reducible apply keeps_ite_fst | extract_lets | split | (with_reducible refine keeps_fst (by assumption) ?_)
    | simp only [keeps_mk] | dsimp only [id] | dsimp +zetaDelta only

theorem psSettle_keeps {r0 : State} (s : State) (hk : Keeps r0 s) : Keeps r0 (State.psSettle s) := by
  unfold State.psSettle
  repeat' first
    | with_reducible assumption | intro _ | with_reducible apply keeps_ite | with_reducible apply wr_keeps
    | with_reducible apply wrN_keeps | with_reducible apply audit_keeps | with_reducible apply ps2Enter_keeps
    | with_reducible apply keeps_foldl | with_reducible apply keeps_foldl_fst | with_reducible apply keeps_ite_fst | extract_lets
    | split | (with_reducible refine keeps_fst (by assumption) ?_) | simp only [keeps_mk] | dsimp only [id]

theorem readKeys_keeps {r0 : State} (s : State) (n : Nat) (es : List (List Byte)) (hk : Keeps r0 s) : Keeps r0 (State.readKeys s n es) := by
  unfold State.readKeys
  repeat' first
    | with_reducible assumption | ((with_reducible apply otpLe_of_same) <;> rfl) | intro _ | with_reducible apply keeps_ite
    | with_reducible apply updHusk_keeps | with_reducible apply keyNew_keeps | with_reducible apply keyDestroy_keeps
    | with_reducible apply keysOf_keeps | with_reducible apply keeps_foldl | with_reducible apply keeps_foldl_fst
    | with_reducible apply keeps_ite_fst | extract_lets | split | (with_reducible refine keeps_fst (by assumption) ?_)
    | dsimp only [id]

theorem readLedger_keeps {r0 : State} (s : State) (n : Nat) (obs : LedgerObs) (hk : Keeps r0 s) : Keeps r0 (State.readLedger s n obs) := by
  unfold State.readLedger
  repeat' first
    | with_reducible assumption | intro _ | with_reducible apply keeps_ite | with_reducible apply updLed_keeps
    | with_reducible apply wr_keeps | with_reducible apply wrN_keeps | with_reducible apply wrB_keeps
    | with_reducible apply updHost_keeps | with_reducible apply setZone_keeps | with_reducible apply stage_keeps
    | with_reducible apply lostAdd_keeps | with_reducible apply sanShow_keeps | with_reducible apply zoneRefresh_keeps
    | with_reducible apply updAct_keeps | with_reducible apply readKeys_keeps | with_reducible apply keeps_foldl
    | with_reducible apply keeps_foldl_fst | with_reducible apply keeps_ite_fst | extract_lets | split
    | (with_reducible refine keeps_fst (by assumption) ?_) | dsimp only [id]

theorem readCal_keeps {r0 : State} (s : State) (n : Nat) (obs : LedgerObs) (hk : Keeps r0 s) : Keeps r0 (State.readCal s n obs) := by
  unfold State.readCal
  repeat' first
    | with_reducible assumption | intro _ | with_reducible apply keeps_ite | with_reducible apply calLoad_keeps
    | with_reducible apply updAct_keeps | with_reducible apply keeps_foldl | with_reducible apply keeps_foldl_fst
    | with_reducible apply keeps_ite_fst | extract_lets | split | (with_reducible refine keeps_fst (by assumption) ?_)
    | dsimp only [id]

theorem orrTake_keeps {r0 : State} (s : State) (h : OrrHdr) (typ : Nat) (bytes : List Byte) (anyEpoch : Bool) (body : State → State)
    (follow : Bool) (hbody : ∀ (x0 : State), Keeps r0 x0 → Keeps r0 (body x0)) (hk : Keeps r0 s) : Keeps r0 (State.orrTake s h typ bytes
    anyEpoch body follow) := by
  unfold State.orrTake
  repeat' first
    | with_reducible assumption | intro _ | apply hbody | with_reducible apply keeps_ite | with_reducible apply updOrr_keeps
    | with_reducible apply keeps_foldl | with_reducible apply keeps_foldl_fst | with_reducible apply keeps_ite_fst | extract_lets
    | split | (with_reducible refine keeps_fst (by assumption) ?_) | dsimp only [id]

theorem ledgerOf_keeps {r0 : State} (s : State) (h : OrrHdr) (hk : Keeps r0 s) : Keeps r0 (State.ledgerOf s h) := by
  unfold State.ledgerOf
  repeat' first
    | with_reducible assumption | intro _ | with_reducible apply keeps_ite | with_reducible apply updOrr_keeps
    | with_reducible apply keeps_foldl | with_reducible apply keeps_foldl_fst | with_reducible apply keeps_ite_fst | extract_lets
    | split | (with_reducible refine keeps_fst (by assumption) ?_) | dsimp only [id]

theorem regrant_keeps {r0 : State} (s : State) (hk : Keeps r0 s) : Keeps r0 (State.regrant s) := by
  unfold State.regrant
  repeat' first
    | with_reducible assumption | intro _ | with_reducible apply keeps_ite | with_reducible apply grant_keeps
    | with_reducible apply orrRefresh_keeps | with_reducible apply keeps_foldl | with_reducible apply keeps_foldl_fst
    | with_reducible apply keeps_ite_fst | extract_lets | split | (with_reducible refine keeps_fst (by assumption) ?_)
    | dsimp only [id]

theorem sendJoin_keeps {r0 : State} (s : State) (hk : Keeps r0 s) : Keeps r0 (State.sendJoin s) := by
  unfold State.sendJoin
  repeat' first
    | with_reducible assumption | intro _ | with_reducible apply keeps_ite | with_reducible apply updOrr_keeps
    | with_reducible apply orrSend_keeps | with_reducible apply keeps_foldl | with_reducible apply keeps_foldl_fst
    | with_reducible apply keeps_ite_fst | extract_lets | split | (with_reducible refine keeps_fst (by assumption) ?_)
    | dsimp only [id]

theorem sendHeartbeat_keeps {r0 : State} (s : State) (hk : Keeps r0 s) : Keeps r0 (State.sendHeartbeat s) := by
  unfold State.sendHeartbeat
  repeat' first
    | with_reducible assumption | intro _ | with_reducible apply keeps_ite | with_reducible apply orrSend_keeps
    | with_reducible apply keeps_foldl | with_reducible apply keeps_foldl_fst | with_reducible apply keeps_ite_fst | extract_lets
    | split | (with_reducible refine keeps_fst (by assumption) ?_) | dsimp only [id]

theorem sendTokenState_keeps {r0 : State} (s : State) (hk : Keeps r0 s) : Keeps r0 (State.sendTokenState s) := by
  unfold State.sendTokenState
  repeat' first
    | with_reducible assumption | intro _ | with_reducible apply keeps_ite | with_reducible apply orrSend_keeps
    | with_reducible apply keeps_foldl | with_reducible apply keeps_foldl_fst | with_reducible apply keeps_ite_fst | extract_lets
    | split | (with_reducible refine keeps_fst (by assumption) ?_) | dsimp only [id]

theorem dropXfer_keeps {r0 : State} (s : State) (hk : Keeps r0 s) : Keeps r0 (State.dropXfer s) := by
  unfold State.dropXfer
  repeat' first
    | with_reducible assumption | intro _ | with_reducible apply keeps_ite | with_reducible apply updOrr_keeps
    | with_reducible apply keeps_foldl | with_reducible apply keeps_foldl_fst | with_reducible apply keeps_ite_fst | extract_lets
    | split | (with_reducible refine keeps_fst (by assumption) ?_) | dsimp only [id]

theorem becomeManager_keeps {r0 : State} (s : State) (epoch : Nat) (hk : Keeps r0 s) : Keeps r0 (State.becomeManager s epoch) := by
  unfold State.becomeManager
  repeat' first
    | with_reducible assumption | intro _ | with_reducible apply keeps_ite | with_reducible apply wrN_keeps
    | with_reducible apply updOrr_keeps | with_reducible apply sendHeartbeat_keeps | with_reducible apply orrRefresh_keeps
    | with_reducible apply enqueue_keeps | with_reducible apply keeps_foldl | with_reducible apply keeps_foldl_fst
    | with_reducible apply keeps_ite_fst | extract_lets | split | (with_reducible refine keeps_fst (by assumption) ?_)
    | dsimp only [id]

theorem followManager_keeps {r0 : State} (s : State) (mgr : Nat) (standby : Nat) (hk : Keeps r0 s) : Keeps r0 (State.followManager s mgr
    standby) := by
  unfold State.followManager
  repeat' first
    | with_reducible assumption | intro _ | with_reducible apply keeps_ite | with_reducible apply wrN_keeps
    | with_reducible apply updOrr_keeps | with_reducible apply keeps_foldl | with_reducible apply keeps_foldl_fst
    | with_reducible apply keeps_ite_fst | extract_lets | split | (with_reducible refine keeps_fst (by assumption) ?_)
    | dsimp only [id]

theorem stepDown_keeps {r0 : State} (s : State) (epoch : Nat) (mgr : Nat) (standby : Nat) (hk : Keeps r0 s) : Keeps r0 (State.stepDown s
    epoch mgr standby) := by
  unfold State.stepDown
  repeat' first
    | with_reducible assumption | intro _ | with_reducible apply keeps_ite | with_reducible apply updOrr_keeps
    | with_reducible apply wrN_keeps | with_reducible apply sendTokenState_keeps | with_reducible apply sendJoin_keeps
    | with_reducible apply followManager_keeps | with_reducible apply dropXfer_keeps | with_reducible apply keeps_foldl
    | with_reducible apply keeps_foldl_fst | with_reducible apply keeps_ite_fst | extract_lets | split
    | (with_reducible refine keeps_fst (by assumption) ?_) | dsimp only [id]

theorem sendNeed_keeps {r0 : State} (s : State) (x : Xfer) (hk : Keeps r0 s) : Keeps r0 (State.sendNeed s x) := by
  unfold State.sendNeed
  repeat' first
    | with_reducible assumption | intro _ | with_reducible apply keeps_ite | with_reducible apply orrSend_keeps
    | with_reducible apply keeps_foldl | with_reducible apply keeps_foldl_fst | with_reducible apply keeps_ite_fst | extract_lets
    | split | (with_reducible refine keeps_fst (by assumption) ?_) | dsimp only [id]

theorem imageDone_keeps {r0 : State} (s : State) (x : Xfer) (norOk : Bool) (hk : Keeps r0 s) : Keeps r0 (State.imageDone s x norOk) := by
  unfold State.imageDone
  repeat' first
    | with_reducible assumption | intro _ | with_reducible apply keeps_ite | with_reducible apply huskUpdate_keeps
    | with_reducible apply sendNeed_keeps | with_reducible apply orrSend_keeps | with_reducible apply dropXfer_keeps
    | with_reducible apply keeps_foldl | with_reducible apply keeps_foldl_fst | with_reducible apply keeps_ite_fst | extract_lets
    | split | (with_reducible refine keeps_fst (by assumption) ?_) | dsimp only [id]

theorem setPtpLock_keeps {r0 : State} (s : State) (v : Bool) (hk : Keeps r0 s) : Keeps r0 (State.setPtpLock s v) := by
  unfold State.setPtpLock
  repeat' first
    | with_reducible assumption | intro _ | with_reducible apply keeps_ite | with_reducible apply audit_keeps
    | with_reducible apply wrB_keeps | with_reducible apply keeps_foldl | with_reducible apply keeps_foldl_fst
    | with_reducible apply keeps_ite_fst | extract_lets | split | (with_reducible refine keeps_fst (by assumption) ?_)
    | dsimp only [id]

theorem logClear_keeps {r0 : State} (s : State) (lid : Nat) (id : Nat) (hk : Keeps r0 s) : Keeps r0 (State.logClear s lid id) := by
  unfold State.logClear
  repeat' first
    | with_reducible assumption | intro _ | with_reducible apply keeps_ite | with_reducible apply updHost_keeps
    | with_reducible apply aerServe_keeps | with_reducible apply keeps_foldl | with_reducible apply keeps_foldl_fst
    | with_reducible apply keeps_ite_fst | extract_lets | split | (with_reducible refine keeps_fst (by assumption) ?_)
    | dsimp only [id]

theorem lostKeep_keeps {r0 : State} (s : State) (e : Sqe) (hk : Keeps r0 s) : Keeps r0 (State.lostKeep s e) := by
  unfold State.lostKeep
  repeat' first
    | with_reducible assumption | intro _ | with_reducible apply keeps_ite | with_reducible apply updHost_keeps
    | with_reducible apply keeps_foldl | with_reducible apply keeps_foldl_fst | with_reducible apply keeps_ite_fst | extract_lets
    | split | (with_reducible refine keeps_fst (by assumption) ?_) | dsimp only [id]

theorem adminAction_keeps {r0 : State} (s : State) (slot : BitVec 16) (opc : Nat) (modulus : Nat) (v : Nat) (act : Cmd → State → State)
    (hact : ∀ (x0 : Cmd) (x1 : State), Keeps r0 x1 → Keeps r0 (act x0 x1)) (hk : Keeps r0 s) : Keeps r0 (State.adminAction s slot opc
    modulus v act) := by
  unfold State.adminAction
  repeat' first
    | with_reducible assumption | intro _ | apply hact | with_reducible apply keeps_ite | with_reducible apply adminRow_keeps
    | with_reducible apply keeps_foldl | with_reducible apply keeps_foldl_fst | with_reducible apply keeps_ite_fst | extract_lets
    | split | (with_reducible refine keeps_fst (by assumption) ?_) | dsimp only [id]

theorem nsNotice_keeps {r0 : State} (s : State) (nsid : Nat) (what : Nat) (hk : Keeps r0 s) : Keeps r0 (State.nsNotice s nsid what) := by
  unfold State.nsNotice
  repeat' first
    | with_reducible assumption | intro _ | with_reducible apply keeps_ite | with_reducible apply audit_keeps
    | with_reducible apply event_keeps | with_reducible apply updHost_keeps | with_reducible apply keeps_foldl
    | with_reducible apply keeps_foldl_fst | with_reducible apply keeps_ite_fst | extract_lets | split
    | (with_reducible refine keeps_fst (by assumption) ?_) | dsimp only [id]

theorem setAttached_keeps {r0 : State} (s : State) (nsid : Nat) (v : Bool) (hk : Keeps r0 s) : Keeps r0 (State.setAttached s nsid v) := by
  unfold State.setAttached
  repeat' first
    | with_reducible assumption | intro _ | with_reducible apply keeps_ite | with_reducible apply updHost_keeps
    | with_reducible apply keeps_foldl | with_reducible apply keeps_foldl_fst | with_reducible apply keeps_ite_fst | extract_lets
    | split | (with_reducible refine keeps_fst (by assumption) ?_) | dsimp only [id]

theorem nsClear_keeps {r0 : State} (s : State) (n : Nat) (conv : Bool) (hk : Keeps r0 s) : Keeps r0 (State.nsClear s n conv) := by
  unfold State.nsClear
  repeat' first
    | with_reducible assumption | intro _ | with_reducible apply keeps_ite | with_reducible apply mqDrop_keeps
    | with_reducible apply updHost_keeps | with_reducible apply recDrop_keeps | with_reducible apply updLed_keeps
    | with_reducible apply wrN_keeps | with_reducible apply bufRefresh_keeps | with_reducible apply stage_keeps
    | with_reducible apply keeps_foldl | with_reducible apply keeps_foldl_fst | with_reducible apply keeps_ite_fst | extract_lets
    | split | (with_reducible refine keeps_fst (by assumption) ?_) | simp only [keeps_mk] | dsimp only [id]

theorem attach_keeps {r0 : State} (s : State) (slot : BitVec 16) (sel : Nat) (controllers : List (BitVec 16)) (hk : Keeps r0 s) : Keeps
    r0 (State.attach s slot sel controllers) := by
  unfold State.attach
  repeat' first
    | with_reducible assumption | intro _ | with_reducible apply keeps_ite | with_reducible apply adminAction_keeps
    | with_reducible apply complete_keeps | with_reducible apply nsNotice_keeps | with_reducible apply setAttached_keeps
    | with_reducible apply keeps_foldl | with_reducible apply keeps_foldl_fst | with_reducible apply keeps_ite_fst | extract_lets
    | split | (with_reducible refine keeps_fst (by assumption) ?_) | dsimp only [id]

theorem testEnd_keeps {r0 : State} (s : State) (result : Nat) (segment : Nat) (nsid : Nat) (hk : Keeps r0 s) : Keeps r0 (State.testEnd s
    result segment nsid) := by
  unfold State.testEnd
  repeat' first
    | with_reducible assumption | intro _ | with_reducible apply keeps_ite | with_reducible apply updHost_keeps
    | with_reducible apply mqDrop_keeps | with_reducible apply keeps_foldl | with_reducible apply keeps_foldl_fst
    | with_reducible apply keeps_ite_fst | extract_lets | split | (with_reducible refine keeps_fst (by assumption) ?_)
    | dsimp only [id]

theorem testReads_keeps {r0 : State} (s : State) (n : Nat) (hk : Keeps r0 s) : Keeps r0 (State.testReads s n) := by
  unfold State.testReads
  repeat' first
    | with_reducible assumption | intro _ | with_reducible apply keeps_ite | with_reducible apply mqWait_keeps
    | with_reducible apply keeps_foldl | with_reducible apply keeps_foldl_fst | with_reducible apply keeps_ite_fst | extract_lets
    | split | (with_reducible refine keeps_fst (by assumption) ?_) | dsimp only [id]

theorem testStart_keeps {r0 : State} (s : State) (slot : BitVec 16) (stc : Nat) (hk : Keeps r0 s) : Keeps r0 (State.testStart s slot
    stc) := by
  unfold State.testStart
  repeat' first
    | with_reducible assumption | intro _ | with_reducible apply keeps_ite | with_reducible apply adminAction_keeps
    | with_reducible apply complete_keeps | with_reducible apply updHost_keeps | with_reducible apply testReads_keeps
    | with_reducible apply keeps_foldl | with_reducible apply keeps_foldl_fst | with_reducible apply keeps_ite_fst | extract_lets
    | split | (with_reducible refine keeps_fst (by assumption) ?_) | dsimp only [id]

theorem putProgress_keeps {r0 : State} (s : State) (n : Nat) (p : Progress) (hk : Keeps r0 s) : Keeps r0 (State.putProgress s n p) := by
  unfold State.putProgress
  repeat' first
    | with_reducible assumption | ((with_reducible apply otpLe_of_same) <;> rfl) | intro _ | with_reducible apply keeps_ite
    | with_reducible apply stage_keeps | with_reducible apply updLed_keeps | with_reducible apply sanShow_keeps
    | with_reducible apply updHusk_keeps | with_reducible apply keeps_foldl | with_reducible apply keeps_foldl_fst
    | with_reducible apply keeps_ite_fst | extract_lets | split | (with_reducible refine keeps_fst (by assumption) ?_)
    | dsimp only [id]

theorem startProgress_keeps {r0 : State} (s : State) (n : Nat) (action : Nat) (nsid : Nat) (passes : Nat) (oipbp : Bool) (ses2 : Bool)
    (ovrpat : Word) (band : Bool) (hk : Keeps r0 s) : Keeps r0 (State.startProgress s n action nsid passes oipbp ses2 ovrpat band) := by
  unfold State.startProgress
  repeat' first
    | with_reducible assumption | intro _ | with_reducible apply keeps_ite | with_reducible apply putProgress_keeps
    | with_reducible apply keeps_foldl | with_reducible apply keeps_foldl_fst | with_reducible apply keeps_ite_fst | extract_lets
    | split | (with_reducible refine keeps_fst (by assumption) ?_) | dsimp only [id]

theorem endIo_keeps {r0 : State} (s : State) (hit : Nat → Bool) (status : Nat) (hk : Keeps r0 s) : Keeps r0 (State.endIo s hit status) := by
  unfold State.endIo
  repeat' first
    | with_reducible assumption | intro _ | with_reducible apply keeps_ite | with_reducible apply complete_keeps
    | with_reducible apply abortWork_keeps | with_reducible apply keeps_foldl | with_reducible apply keeps_foldl_fst
    | with_reducible apply keeps_ite_fst | extract_lets | split | (with_reducible refine keeps_fst (by assumption) ?_)
    | dsimp only [id]

theorem zonesOwe_keeps {r0 : State} (s : State) (n : Nat) (hk : Keeps r0 s) : Keeps r0 (State.zonesOwe s n) := by
  unfold State.zonesOwe
  repeat' first
    | with_reducible assumption | intro _ | with_reducible apply keeps_ite | with_reducible apply zoneRefresh_keeps
    | with_reducible apply updLed_keeps | with_reducible apply eraseNext_keeps | with_reducible apply stage_keeps
    | with_reducible apply updAct_keeps | with_reducible apply keeps_foldl | with_reducible apply keeps_foldl_fst
    | with_reducible apply keeps_ite_fst | extract_lets | split | (with_reducible refine keeps_fst (by assumption) ?_)
    | dsimp only [id]

theorem rekey_keeps {r0 : State} (s : State) (ids : List Nat) (hk : Keeps r0 s) : Keeps r0 (State.rekey s ids) := by
  unfold State.rekey
  repeat' first
    | with_reducible assumption | intro _ | with_reducible apply keeps_ite | with_reducible apply keyDestroy_keeps
    | with_reducible apply keyNew_keeps | with_reducible apply stage_keeps | with_reducible apply keeps_foldl
    | with_reducible apply keeps_foldl_fst | with_reducible apply keeps_ite_fst | extract_lets | split
    | (with_reducible refine keeps_fst (by assumption) ?_) | dsimp only [id]

theorem sanSide_keeps {r0 : State} (s : State) (n : Nat) (hk : Keeps r0 s) : Keeps r0 (State.sanSide s n) := by
  unfold State.sanSide
  repeat' first
    | with_reducible assumption | intro _ | with_reducible apply keeps_ite | with_reducible apply zonesOwe_keeps
    | with_reducible apply nsClear_keeps | with_reducible apply keeps_foldl | with_reducible apply keeps_foldl_fst
    | with_reducible apply keeps_ite_fst | extract_lets | split | (with_reducible refine keeps_fst (by assumption) ?_)
    | dsimp only [id]

theorem sanStart_keeps {r0 : State} (s : State) (c : Cmd) (action : Nat) (passes : Nat) (hk : Keeps r0 s) : Keeps r0 (State.sanStart s c
    action passes) := by
  unfold State.sanStart
  repeat' first
    | with_reducible assumption | intro _ | with_reducible apply keeps_ite | with_reducible apply complete_keeps
    | with_reducible apply testEnd_keeps | with_reducible apply endIo_keeps | with_reducible apply mqDrop_keeps
    | with_reducible apply updHost_keeps | with_reducible apply bufRefresh_keeps | with_reducible apply keyDestroy_keeps
    | with_reducible apply keyNew_keeps | with_reducible apply stage_keeps | with_reducible apply startProgress_keeps
    | with_reducible apply keeps_foldl | with_reducible apply keeps_foldl_fst | with_reducible apply keeps_ite_fst | extract_lets
    | split | (with_reducible refine keeps_fst (by assumption) ?_) | simp only [keeps_mk] | dsimp only [id]

theorem sanEnd_keeps {r0 : State} (s : State) (hk : Keeps r0 s) : Keeps r0 (State.sanEnd s) := by
  unfold State.sanEnd
  repeat' first
    | with_reducible assumption | intro _ | with_reducible apply keeps_ite | with_reducible apply updHost_keeps
    | with_reducible apply keeps_foldl | with_reducible apply keeps_foldl_fst | with_reducible apply keeps_ite_fst | extract_lets
    | split | (with_reducible refine keeps_fst (by assumption) ?_) | dsimp only [id]

theorem formatNs_keeps {r0 : State} (s : State) (ses2 : Bool) (nsid : Nat) (hk : Keeps r0 s) : Keeps r0 (State.formatNs s ses2 nsid) := by
  unfold State.formatNs
  repeat' first
    | with_reducible assumption | intro _ | with_reducible apply keeps_ite | with_reducible apply endIo_keeps
    | with_reducible apply rekey_keeps | with_reducible apply nsClear_keeps | with_reducible apply updAct_keeps
    | with_reducible apply zonesOwe_keeps | with_reducible apply keeps_foldl | with_reducible apply keeps_foldl_fst
    | with_reducible apply keeps_ite_fst | extract_lets | split | (with_reducible refine keeps_fst (by assumption) ?_)
    | dsimp only [id]

end Sys2Proof.Laws
end

