-- ==== Sys2Proof/WellFormed.lean ====
section
/-!
DEFINITION. WellFormed.lean: what the surroundings can present with a command, beyond the types of its operands.
-/

namespace Sys2Proof

/-- A measurement frame carries 1 to 11 values (R129). -/
def valuesOk (l : List (BitVec 16)) : Bool := 1 ≤ l.length && l.length ≤ 11

/-- A housekeeping value frame carries 0 to 14 values (R130). -/
def hskOk (l : List (BitVec 16)) : Bool := l.length ≤ 14

/-- One reading per DIMM, two DIMMs on each of four channels (R389, R399). -/
def sensorsOk (l : List (Option Int)) : Bool := l.length ≤ 8

/-- A ledger sector carries 4,096 bytes (R148). -/
def ledgerOk (l : LedgerObs) : Bool := l.sectors.all (fun x => x.2.2.length == 4096)

/-- The commands whose operands carry a condition of their own. Every other operand is bounded by its type. -/
def WellFormed : Instr → Bool
  | .motFrame _ _ _ _ _ mtype values => valuesOk values && 1 ≤ mtype.toNat && mtype.toNat ≤ 6
  | .hskTemperatures _ _ values => hskOk values
  | .hskRails _ _ values => hskOk values
  | .hskFlashData _ _ _ _ data => data.length == 24
  | .dimmSensorRead temps => sensorsOk temps
  | .dataGrainBuffered _ _ payload _ => payload.length == 4096
  | .autonomousPowerStateTransition _ table => table.length ≤ 32
  | .namespaceReady _ ledger => ledgerOk ledger
  | .housekeepingRound obs => obs.counts.length ≤ 16 && obs.railsMv.length ≤ 8
  | .sectorVerdict _ obs => obs.sector < 65536
  | .mainMemoryAccess _ _ _ _ len _ => 1 ≤ len
  | _ => true

end Sys2Proof
end

