-- ==== Sys2Proof/Tests/Slice0.lean ====
section
/-!
SUPPORT. Tests/Slice0.lean: terms that WellFormed refuses, and for every statement with hypotheses a concrete state and operands that meet
them, with the outcome of the one step the statement speaks of. Values come from the rules of spec/ the statement names.
-/

set_option Elab.async false

open Sys2Proof Sys2Proof.Machine

namespace Sys2Proof.Tests

/-! ### Small states -/

def side : SideDesc := {
  zones := [⟨0, 60000, 250, 0x06000000⟩], framesPerRev := 1800, toneCycles := 1024, stripeAngle := 0x3F99999A, trackPitch := 0x42480000,
  odRadius := 0x42200000, zoneCnt := 20, convLbas := 1024, head0 := 1, head1 := 2, ledTracks := 4, ledFirst0 := 100, ledFirst1 := 100,
  ledBase := [0, 1, 2, 6], ledCount := [1, 1, 4, 1] }

def hdaDesc : Desc := {
  actCnt := 2, surfCnt := 22, heads := 11, sides := 3, assist := 1, maxLanes := 2, speeds := 1, heRev := 0, spinPeak := 200, serial := [1], spinTime := 180,
  readers := [], sideA := some side, sideB := some side, calOfs := 0, calSize := 0, assistType := 1, maxLevel := 100, polePairs := 4, railCnt := 1,
  retractMs := 50, rPhase := 0x3F800000, lPhase := 0x3F800000, ke := 0x3C23D70A, busNom := 0x41400000, mscale := List.replicate 6 0x3F800000,
  gains := [], gainsTransit := [] }

/-- One declared port with two actuators, and a partition of each kind. -/
def cfgW : Structure := { Structure.recovery with
  ports := [(0, ⟨4, 1, 0, 3, 0, 0, 0, 0, 0⟩)], binds := [(0, 0), (1, 1)], lattice := [(0, ⟨0, 0, 0x7FE⟩), (1, ⟨0, 1, 0x7FE⟩)],
  queue := ⟨16, 17, 10, 10, 64⟩, fault := [], alm := ⟨16, 8192, 1024, 16, 0x7FF⟩,
  parts := [⟨0, 0, 64, 0⟩, ⟨1, 0, 64, 64⟩, ⟨2, 0, 16, 128⟩, ⟨3, 0, 64, 144⟩, ⟨4, 0, 64, 256⟩, ⟨5, 1, 64, 320⟩, ⟨6, 0, 64, 384⟩, ⟨7, 0, 1024, 448⟩] }

def culm : Initiator := 0x10
def agent : Initiator := 0x78
def eng0 : Initiator := 0x20

/-- Registers written as (field, i, j, value). -/
def regsW (s : State) (l : List (RegField × Nat × Nat × Nat)) : State := l.foldl (fun s x => s.wrAt x.1 x.2.1 x.2.2.1 (BitVec.ofNat 32 x.2.2.2)) s

/-- The structure locked, port 0 UP, its two actuators serving; one Culm core, the agent, engine 0 and the data engines with a window over everything. -/
def base : State :=
  let all : Win := ⟨0x10000, 0xFFFFFFFFF, true, true, true, true⟩
  let s : State := { State.reset with phase := .locked, cfg := some cfgW, pins := ⟨true, true, true, true, true, false⟩, wins := [0x10, 0x78, 0x20, 0x81, 0x82, 0x84, 0x88, 0x8A].map (fun i => (8 * i, all)), safeN := 1 }
  let s := s.updHusk (fun k => { k with fwVersion := some 1, serial := 77 })
  let s := regsW s [(Reg.status_LOCKED, 0, 0, 1), (Reg.status_PORT_DECL, 0, 0, 1), (Reg.status_PORT_BOUND, 0, 0, 1), (Reg.ddr_TOTAL_MIB, 0, 0, 32768),
    (Reg.port_STATE, 0, 0, 7), (Reg.port_LANES, 0, 0, 4)]
  let s := s.updPort 0 (fun p => { p with desc := some hdaDesc })
  [0, 1].foldl (fun s n => s.updAct n (fun a => { a with ready := true, ledgerRead := true, calValid := true, headsOn := false })) s

/-- The header of an upstream CTL frame with these operands (R131). -/
def ctl (op : Nat) (operands : List Nat) (side : Nat := 0) (seq : Nat := 0) : UpHdr := ⟨BitVec.ofNat 10 seq, 0, ctlCrc side seq op 0 operands⟩

/-- The state a command answers. -/
def run (s : State) (c : Instr) : State := match exec c s with | .next t => t | _ => s

/-- A message waits in a direction of a channel, from `by_`. -/
def full (s : State) (ch d : Nat) (by_ : Initiator) (ws : List Nat) : State :=
  s.updMbox ch d (fun m => { m with full := true, sender := by_, data := Vector.ofFn (fun i => BitVec.ofNat 32 (ws.getD i.val 0)) })

/-- A request to Husk waits on channel 48, first in line. -/
def asks (s : State) (ws : List Nat) : State := (full s 48 0 agent ws).updHusk (fun k => { k with requests := [48] })

/-! ### WellFormed refuses -/

theorem test_wf_values : WellFormed (.motFrame 0 ⟨0, 0, 0⟩ 0 0 0 1 []) = false := by decide
theorem test_wf_mtype : WellFormed (.motFrame 0 ⟨0, 0, 0⟩ 0 0 0 7 [1]) = false := by decide
theorem test_wf_temperatures : WellFormed (.hskTemperatures 0 ⟨0, 0, 0⟩ (List.replicate 15 0)) = false := by decide
theorem test_wf_rails : WellFormed (.hskRails 0 ⟨0, 0, 0⟩ (List.replicate 15 0)) = false := by decide
theorem test_wf_flash : WellFormed (.hskFlashData 0 ⟨0, 0, 0⟩ 0 0 []) = false := by decide
theorem test_wf_sensors : WellFormed (.dimmSensorRead (List.replicate 9 none)) = false := by decide
theorem test_wf_grain : WellFormed (.dataGrainBuffered 0 0 [] true) = false := by decide
theorem test_wf_states : WellFormed (.autonomousPowerStateTransition 0 (List.replicate 33 (0, 0))) = false := by decide
theorem test_wf_ledger : WellFormed (.namespaceReady 0 ⟨[(0, 0, [])], [], []⟩) = false := by decide
theorem test_wf_round : WellFormed (.housekeepingRound ⟨List.replicate 17 0, [], [], false⟩) = false := by decide
theorem test_wf_sector : WellFormed (.sectorVerdict 0 ⟨0, 65536, false⟩) = false := by decide
theorem test_wf_access : WellFormed (.mainMemoryAccess 0x10 false 0 none 0 ⟨0, .clean, .clean, false, false⟩) = false := by decide
theorem test_wf_good : WellFormed (.motFrame 0 ⟨0, 0, 0⟩ 0 0 0 1 [1]) = true := by decide
theorem test_decode_none : decodeTableWord 32 5 = none := by decide

/-! ### The queue and the invariants -/

theorem test_step_front (s : State) (c : Instr) : step { s with pending := [c] } = exec c { s with pending := [] } := rfl
theorem test_invariants : base.fileOk ∧ base.bindsOk ∧ Memory.wf base.mem = true ∧ OtpLe base.husk base.husk := by
  refine ⟨by decide +kernel, by decide +kernel, by decide +kernel, ⟨rfl, rfl, rfl, rfl, rfl, Nat.le_refl _, rfl, fun _ k h r => ⟨k, h, r⟩⟩⟩
theorem test_step_next : ∃ t, step { base with pending := [.perstNRising] } = .next t := ⟨_, rfl⟩

/-! ### 01 -/

theorem test_idle :
    let s := base
    s.pending = [] := by decide +kernel
theorem test_reset_values :
    State.reset.fileOk ∧ State.reset.bindsOk ∧ Memory.wf State.reset.mem = true := by decide +kernel


/-! ### 03 -/

theorem test_go :
    let s := base
    let t := run s (.go 20 0 culm .none .none)
    let u := run (full s 20 0 culm []) (.go 20 0 culm .none .none)
    let v := run (full s 20 1 culm []) (.go 20 0 culm .none .none)
    s.mbReach culm 20 0 0x40 true ∧
    mayAct culm 20 0 true = true ∧
    (t.mb 20 0).full = true ∧ (t.mb 20 0).msgCnt = 1 ∧
    (u.mb 20 0).ovr = true ∧
    (v.mb 20 1).cross = true := by decide +kernel
theorem test_mailbox_data :
    let s := base
    let t := run s (.mailboxDataWrite 20 0 7 culm 5)
    let u := run (full base 20 0 culm []) (.mailboxDataWrite 20 0 7 culm 5)
    s.mbReach culm 20 0 (4 * 7) true ∧
    (s.chan 20).regs = 8 ∧
    t.mbWord 20 0 7 = 5 ∧
    (u.mb 20 0).ovr = true := by decide +kernel
theorem test_release :
    let s := full base 20 0 culm [1, 2]
    let t := run s (.release 20 0 culm)
    s.mbReach culm 20 0 0x40 true ∧ mayAct culm 20 0 false = true ∧ (s.chan 20).compat = false ∧
    (t.mb 20 0).full = false ∧ t.mbWord 20 0 1 = 0 ∧ (t.mb 20 0).emptyI = true := by decide +kernel
def compat : State := { base with cfg := some { cfgW with mailbox := List.replicate 64 ⟨false, true, 0⟩ } }

theorem test_receiver :
    let s := full base 20 1 culm [1, 2]
    let c := full compat 20 1 culm [1, 2, 3, 4, 0, 0, 0, 9]
    let t := run s (.rcvReset 20 1 culm)
    let u := run c (.compatLastDataRead 20 1 culm)
    s.mbReach culm 20 1 0x40 true ∧ mayAct culm 20 1 false = true ∧
    (c.chan 20).compat = true ∧ c.mbReach culm 20 1 (4 * ((c.chan 20).regs - 1)) false ∧
    (t.mb 20 1).aborted = true ∧ (t.mb 20 1).abortI = true ∧ t.mbWord 20 1 1 = 0 ∧
    (u.mb 20 1).full = false ∧ u.mbWord 20 1 1 = 2 ∧ (u.mb 20 1).emptyI = false := by decide +kernel
/-- Lock 7 held by Culm core 0. -/
def held7 : State := { base with locks := base.locks.set 7 ⟨some culm, 0x20⟩ }

theorem test_lock_write :
    let s := held7
    s.may culm (windowBase 2 + 28) true ∧ s.may agent (windowBase 2 + 28) true ∧
    ((run s (.lockRelease 7 culm)).lock 7).owner = none ∧ ((run s (.lockRelease 7 agent)).lock 7).owner = some culm := by decide +kernel
/-- The worked example of R89 and a tie of two readers. -/
theorem test_lock_read :
    let s := base
    let t := run s (.lockAcquire 7 none [agent, culm])
    s.may culm (windowBase 2 + 28) false ∧ s.may agent (windowBase 2 + 28) false ∧
    t.lock 7 = ⟨some culm, culm + 1⟩ ∧ t.out = [.value agent 0x1002, .value culm 0x1001] ∧
    ((run held7 (.lockAcquire 7 none [agent, eng0])).lock 7).owner = some culm ∧
    (run held7 (.lockAcquire 7 (some culm) [agent])).lock 7 = ⟨some agent, 0x20⟩ := by decide +kernel
/-- Core 1 of Culm has no window in `base`. -/
theorem test_violation :
    let s := base
    let t := run s (.registerWrite 0x11 (.internal 0x10200000) 5)
    s.access 0x11 (mbAddr 20 0 0x40) true = .viol false ∧ s.access 0x11 (windowBase 2) true = .viol false ∧ s.access 0x11 0x10200000 true = .viol false ∧
    ((run s (.go 20 0 0x11 .none .none)).violOf 0x11).cnt = 1 ∧
    t.violOf 0x11 = ⟨1, 0x10200000, true, false, 0⟩ := by decide +kernel
theorem test_lock_read_refused :
    let s := base
    s.access 0x11 (windowBase 2) false = .viol false := by decide +kernel
/-- Core 1 of Culm has no window; LOCK_PEEK of lock 7; the status register of a direction that holds a message. -/
theorem test_reads :
    let s := held7
    let m := full base 20 1 culm [1, 2]
    s.access 0x11 (Reg.wa_WG_TOL.addr 0 0) false ≠ .ok ∧ s.may culm (windowBase 2 + 0x400 + 28) false ∧ m.may culm (mbAddr 20 1 0x44) false ∧
    ∀ f ∈ Regs.ofBlk .snap, ∀ j, j < f.n → f.addr 1 j = Reg.snap_ST.addr 1 0 → 31 < f.lo ∨ f.lo + f.width ≤ 31 ∧
    Reg.engine_OP_GO.acc = .WO ∧
    s.regRead 0x11 (Reg.wa_WG_TOL.addr 0 0) = 0 ∧ s.regRead culm (windowBase 2 + 0x400 + 28) = 0x201002 ∧
    (m.regRead culm (mbAddr 20 1 0x44)) &&& 0xFF0F = 0x1001 := by decide +kernel
theorem test_same_cycle :
    base.mbReach culm 20 0 0x40 true ∧ mayAct culm 20 0 true = true ∧ mayAct culm 20 0 false = true ∧ (base.chan 20).compat = false ∧
    ((run base (.go 20 0 culm (.rcvReset culm) .none)).mb 20 0).aborted = true := by decide +kernel
theorem test_violation_second :
    let s := ({ base with viol := [(0x11, ⟨3, 0, true, false, 1⟩), (0x12, ⟨2, 0, true, false, 2⟩)] } : State)
    let t := run s .violationAuditSecond
    (s.viol.map (·.1)).Nodup ∧
    t.alm.auditLast = s.alm.auditLast + 1 ∧
    t.viol.lookup 0x11 = some ⟨3, 0, true, false, 3⟩ := by decide +kernel
theorem test_window_write :
    let s := base
    let y := (⟨0x10000, 0x180FF, true, true, false, true⟩ : Win)
    let n := run s (.windowRegisterWrite 0 0x10 0 1 0x18101)
    s.locked = true ∧ (defaultWins s.str s.installed 0x10)[0]? = some y ∧
    s.stage1 0x78 (windowBase 0 + 0x10000 + 0x80 * 0x10) true = true ∧
    n.win 0x10 0 = s.win 0x10 0 := by decide +kernel
theorem test_register_write :
    let s := base
    let u := regsW base [(Reg.status_LOCKED, 0, 0, 0)]
    s.fileOk ∧ s.may culm (Reg.wa_WG_TOL.addr 0 0) true ∧ s.locked = true ∧ u.locked = false ∧
    u.may 0 (Reg.wa_WG_TOL.addr 0 0) true := by decide +kernel

theorem test_husk_unknown :
    let s := asks base [0x77]
    let f := asks base [0x71, 1, 5]
    let r := asks base [0x7F, 0]
    s.huskFree = true ∧ s.huskNext = some 48 ∧ (s.chan 48).compat = false ∧ huskOpcodes.contains (s.mbWord 48 0 0) = false ∧
    f.huskNext = some 48 ∧ f.mbWord 48 0 0 = 0x71 ∧ f.mbWord 48 0 2 ≠ 0 ∧
    r.mbWord 48 0 0 = 0x7F ∧ r.mbWord 48 0 1 % 16 = 0 ∧ r.mbWord 48 0 1 < 65536 ∧
    (run s (.update 48 true)).mbWord 48 1 0 = 7 := by decide +kernel
theorem test_update :
    let a := cfgW.parts.foldl (fun a p => if p.id = 4 then p.base else a) 0
    let s := asks base [0x10, 0, a % 2^32, a / 2^32, 64]
    let b := asks base [0x10, 3, a % 2^32, a / 2^32, 64]
    let s1 := regsW (asks base [0x10, 2, 0, 0, 0]) [(Reg.status_COPY, 0, 0, 2)]
    let b1 := regsW (asks base [0x10, 1, 0, 0, 0]) [(Reg.status_BUNDLE, 0, 0, 1)]
    s.huskAsks 48 0x10 [1, 2, 3, 4] ∧ s.rdN Reg.status_COPY 0 ≠ 1 ∧ s.inPart 4 a 64 = true ∧
    b.huskAsks 48 0x10 [1, 2, 3, 4] ∧ b.rdN Reg.status_BUNDLE 0 ≠ 2 ∧
    s1.huskAsks 48 0x10 [1, 2, 3, 4] ∧ s1.rdN Reg.status_COPY 0 = 2 ∧
    b1.huskAsks 48 0x10 [1, 2, 3, 4] ∧ b1.rdN Reg.status_BUNDLE 0 = 1 := by decide +kernel
theorem test_clears :
    let s := asks base [0x40, 0, 0, 0x100]
    let u := asks base [0x41, 0, 0, 0x100]
    s.huskAsks 48 0x40 [2, 3] ∧ u.huskAsks 48 0x41 [2, 3] := by decide +kernel
theorem test_keys :
    let s := asks base [0x30, 1]
    let d := asks base [0x31, 2]
    s.allNs.contains 1 = true ∧ s.huskAsks 48 0x30 [1] ∧ d.allNs.contains 2 = true ∧ d.huskAsks 48 0x31 [1] := by decide +kernel
theorem test_revoke_and_floor :
    let s := asks base [0x70, 0, 0, 0x100]
    let f := asks base [0x71, 3]
    let t := run f (.floorRaise 48)
    s.huskAsks 48 0x70 [2, 3] ∧ f.huskAsks 48 0x71 [1] ∧ f.mbWord 48 0 1 < 65536 ∧
    f.husk.floor < 3 ∧ ∀ v ∈ f.floorLimits, 3 ≤ v ∧
    t.husk.floor = 3 := by decide +kernel
theorem test_live :
    let s := asks base [0x51, 24 * 65536 + 0xA, 100 + 256 * 105 + 65536 * 115 + 58 * 2^24, 63 + 256 * 70 + 65536 * 4 + 12 * 2^24, 25 + 256 * 6 + 65536 * 3 + 85 * 2^24, 40 + 256 * 55 + 65536 * 70]
    let g := asks base [0x51, 16 * 65536 + 5, 16, 0]
    let a := cfgW.parts.foldl (fun a p => if p.id = 4 then p.base else a) 0
    let p := asks (base.memWrite a (toLe 4 0x31464853 ++ toLe 4 0 ++ toLe 4 328)) [0x52, 0, a % 2^32, a / 2^32]
    s.huskAsks 48 0x51 [1, 2, 3, 4, 5] ∧ s.mbWord 48 0 1 = 24 * 65536 + 0xA ∧
    g.huskAsks 48 0x51 [1, 2, 3, 4, 5] ∧ g.mbWord 48 0 1 = 16 * 65536 + 5 ∧ g.mbWord 48 0 4 = 0 ∧ g.mbWord 48 0 5 = 0 ∧
    p.huskAsks 48 0x52 [2, 3] ∧ le32 (p.memRead a 64) 8 = 328 ∧ p.inPart 4 a 328 = true := by decide +kernel
theorem test_fault_release :
    let s := regsW (asks base [0x60, 0x0501]) [(Reg.flt_FLT_LATCH, fltBlk 0x0501 0, 0, 2)]
    let t := run s (.faultRelease 48)
    let u := asks base [0x60, 0x0501]
    s.fileOk ∧ s.huskAsks 48 0x60 [1] ∧ s.mbWord 48 0 1 = 0x0501 ∧ faultKnown 0x0501 0 = true ∧ fltBlk 0x0501 0 < 270 ∧
    s.rdBit Reg.flt_FLT_LATCH (fltBlk 0x0501 0) 1 = true ∧ s.flt.quiet.contains (0x0501, 0) = false ∧ u.rdBit Reg.flt_FLT_LATCH (fltBlk 0x0501 0) 1 = false ∧
    u.huskAsks 48 0x60 [1] ∧
    t.rdBit Reg.flt_FLT_LATCH (fltBlk 0x0501 0) 1 = false := by decide +kernel
theorem test_warm_reset :
    let a := asks base [0x7F, 1]
    let b := asks held7 [0x7F, 2]
    let c := asks base [0x7F, 3 + 256 * 9]
    let d := asks held7 [0x7F, 3]
    a.huskAsks 48 0x7F [1] ∧ a.mbWord 48 0 1 = 1 ∧
    b.huskAsks 48 0x7F [1] ∧ b.mbWord 48 0 1 = 2 ∧ (b.lock 7).owner = some culm ∧
    c.huskAsks 48 0x7F [1] ∧ c.mbWord 48 0 1 = 3 + 256 * 9 ∧ c.engAct 9 = none ∧
    d.huskAsks 48 0x7F [1] ∧ d.fileOk ∧ d.engAct 0 = some 0 ∧
    d.bindsOk := by decide +kernel
theorem test_loaders :
    let h := full base 60 1 0 [0xA1, 0]
    let l := full base 60 1 0 [0xA0, 0, 0, 0x100, 8, 0]
    let x := full base 60 1 0 [0xA0, 9]
    h.fileOk ∧ (h.mb 60 1).full = true ∧ (h.mb 60 0).full = false ∧ (h.chan 60).compat = false ∧ h.husk.loading = none ∧
    h.mbWord 60 1 0 = 0xA1 ∧ h.loaderKnows 0 (h.mbWord 60 1 1) = true ∧
    l.mbWord 60 1 0 = 0xA0 ∧ l.loaderKnows 0 (l.mbWord 60 1 1) = true ∧ l.mbWord 60 1 4 ≤ 0x40000 ∧
    x.mbWord 60 1 0 = 0xA0 ∧ x.loaderKnows 0 (x.mbWord 60 1 1) = false := by decide +kernel
theorem test_loader_writes :
    let b0 := ({ base with wins := base.wins ++ [(8 * 0x70, ⟨0x10000, 0xFFFFFFFFF, true, true, true, true⟩)] } : State)
    let l := full b0 60 1 0 [0xA0, 0, 0, 0x100, 8, 0]
    let w := l.updHusk (fun k => { k with loading := some (48, 0, 0, 0, 0) })
    l.fileOk ∧ (l.mb 60 1).full = true ∧ (l.mb 60 0).full = false ∧ (l.chan 60).compat = false ∧ l.husk.loading = none ∧ l.mbWord 60 1 4 ≤ 0x40000 ∧
    ∀ i : Fin 64, l.access (idLoader 0) (windowBase 0x20 + 0x80000 + 4096 * i.val) true = .ok ∧
    w.husk.loading = some (48, 0, 0, 0, 0) ∧ (w.chan 48).compat = false ∧ (w.mb 48 1).full = false ∧ (w.mb 48 0).full = false ∧ 48 ∉ w.husk.requests ∧ w.loaderKnows 0 0 = true := by decide +kernel
theorem test_tiller_load :
    let a := asks base [0x20, 9]
    let b := asks (base.memWrite (2^40) (zeros 8 ++ toLe 4 12)) [0x20, 0, 0, 0x100, 12]
    let c := base.updAct 0 (fun x => { x with noEngine := true })
    a.huskAsks 48 0x20 [1, 2, 3, 4] ∧ a.engAct 9 = none ∧
    b.huskAsks 48 0x20 [1, 2, 3, 4] ∧ b.engAct 0 ≠ none ∧ b.mbWord 48 0 4 = le32 (b.memRead (2^40) 12) 8 ∧ b.rdB Reg.engine_RUN 0 = false ∧
    b.str.parts.any (fun p => p.base ≤ 2^40 && 2^40 + b.mbWord 48 0 4 ≤ p.stop) = true ∧ (b.chan 60).compat = false ∧ (b.mb 60 1).full = false ∧
    (c.act 0).noEngine = true ∧ c.host.cmds = [] ∧
    ((run c (.tillerReloadTimeout 0)).act 0).reloadLate = true := by decide +kernel
theorem test_relay :
    let m := (⟨[1, 2, 3], 5, true⟩ : MiMsg)
    let s := base.updHusk (fun k => { k with miWait := [m] })
    let o := (full base 47 0 culm [0x91, 2, 0, 0, 7]).updHusk (fun k => { k with miOut := some m, miSeq := 7 })
    let o' := (full base 47 0 culm [0x91, 2, 0, 0, 6]).updHusk (fun k => { k with miOut := some m, miSeq := 7 })
    let t := run s .miRelay
    s.locked = true ∧ s.husk.halted = false ∧ s.culmReleased = true ∧ (s.mb 47 1).full = false ∧ s.husk.miOut = none ∧
    (o.mb 47 0).full = true ∧ (o.chan 47).compat = false ∧ o.mbWord 47 0 0 = 0x91 ∧ o.mbWord 47 0 4 = o.husk.miSeq ∧ o'.mbWord 47 0 4 ≠ o'.husk.miSeq ∧
    (run s (.mctpMessage true 9 false [1])).husk.miWait = [m, ⟨[1], 9, false⟩] ∧
    t.husk.miWait = [] ∧ t.husk.miOut = some m ∧ t.mbWord 47 1 0 = 0x90 ∧ t.mbWord 47 1 1 % 16384 = 3 ∧ t.mbWord 47 1 4 = 1 := by decide +kernel


/-! ### 04 -/

def boot0 : BootObs := ⟨true, false, false, false, false, false⟩
def dimm16 : Dimm := ⟨32, 2, true, true, 7⟩
def train0 : TrainObs := ⟨[dimm16], [dimm16], [dimm16], [dimm16], 0, 0, 0, boot0⟩

theorem test_power_pins :
    let s := State.reset
    let f := run base (.pwrOkFalling 1000)
    let p := ({ base with husk := { base.husk with rstLow := true } } : State)
    base.pins.pwrOk = true ∧ base.husk.rstLow = false ∧ s.pins.pwrOk = false ∧ s.alm.nor = [] ∧
    p.husk.rstLow = true ∧ p.fileOk ∧
    f.pins.pwrOk = false ∧ f.safeN = 0 ∧ f.phase = .off := by decide +kernel
theorem test_board_pins :
    let t := run base (.pcieLinkUp 5 4 true)
    base.fileOk ∧ base.pins.pwrOk = true ∧ base.pins.perstN = true ∧ State.reset.phase = .off ∧ base.phase ≠ .off ∧
    (run State.reset .configurationRequest).out = [.config true] ∧ (run base .configurationRequest).out = [.config false] ∧
    (run base .vddIoOutOfTolerance).faultBallLow = true ∧
    (run State.reset .group1WithinTolerance).pins.vddIo = true ∧
    t.rdN Reg.pcie_LINK_RATE 0 = 5 ∧ t.rdN Reg.pcie_LINK_WIDTH 0 = 4 := by decide +kernel
theorem test_pcie_resets :
    let s := full (full base 3 1 culm [5]) 3 0 culm [6]
    let t := run s (.pcieConventionalReset .perstLow)
    s.fileOk ∧ (s.mb 3 1).full = true ∧
    (t.mb 3 1).full = false ∧ (t.mb 3 0).full = true ∧ t.pins.perstN = false := by decide +kernel
theorem test_training :
    let s := run State.reset (.pwrOkRising boot0)
    s.fileOk ∧
    dimmsBad [train0.ch0, train0.ch1, train0.ch2, train0.ch3] = 0 ∧ (trainRate train0).isSome ∧ trainRate { train0 with fail4800 := 1, fail5600 := 1, fail6400 := 1 } = none := by decide +kernel
theorem test_warm_restart :
    let s := ({ base with husk := { base.husk with rootDrained := true } } : State)
    s.husk.rootDrained = true := by decide +kernel
/-- Spindle 0 at speed and both its sides in TRACK. -/
def serving : State := regsW base [(Reg.spindle_SPIN_STATE, 0, 0, 6), (Reg.spindle_LOCKED, 0, 0, 1), (Reg.demod_STATE, 0, 0, 2), (Reg.demod_STATE, 1, 0, 2)]

/-- The controller enabled, one I/O queue pair beside the admin queues. -/
def ready : State := serving.updHost (fun h => { h with cc := 0x00460001, rdy := true, sqs := [⟨0, 64, 0, 0, 0, 1⟩, ⟨1, 16, 1, 1, 0, 1⟩], cqs := [⟨0, 64, 0, true, 0, 0, 0⟩, ⟨1, 16, 1, true, 0, 0, 0⟩] })
def staged0 : State := ready.updAct 0 (fun a => { a with led := { a.led with staged := [true, false, true, false] } })

theorem test_shutdown :
    let p := staged0.updHost (fun h => { h with shst := 1 })
    let q := ready.updHost (fun h => { h with shst := 1 })
    let k := regsW ready [(Reg.zone_CLEAN, 0, 0, 1), (Reg.zone_CLEAN, 1, 0, 1)]
    let k1 := regsW ready ((List.range 64).map (fun n => (Reg.zone_CLEAN, n, 0, if n = 0 then 0 else 1)))
    ready.host.rdy = true ∧ ready.host.shst = 0 ∧ p.host.shst = 1 ∧ q.host.shst = 1 ∧
    (run ready .shutdownNormal).host.shutdownSeen = true ∧
    (∀ n : Act, k.actExists n = true → k.rdB Reg.zone_CLEAN n = true) ∧ k.host.rdy = true ∧ k.host.shst = 0 ∧
    k1.actExists 0 = true ∧ (k1.act 0).ledgerRead = true ∧ k1.rdB Reg.zone_CLEAN 0 = false ∧ k1.buf = [] ∧ k1.ledgerFull 0 3 = false ∧ k1.host.rdy = true ∧ k1.host.shst = 0 := by decide +kernel
theorem test_power_states :
    let a := regsW (base.updHost (fun h => { h with apst := some [(3, 1), (3, 1), (3, 1), (4, 1), (0, 0)] })) [(Reg.status_CUR_PS, 0, 0, 3)]
    let b := regsW base [(Reg.status_TGT_PS, 0, 0, 3), (Reg.status_PS_BUSY, 0, 0, 1)]
    let c := ({ base.updAct 0 (fun a => { a with holding := true }) with pwr := { base.pwr with returnAt := some 5 } } : State)
    let d := regsW base [(Reg.status_CUR_PS, 0, 0, 2)]
    let t := run a .autonomousTransition
    a.fileOk ∧ a.host.apst.bind (fun l => l[a.rdN Reg.status_CUR_PS 0]?) = some (4, 1) ∧ a.rdN Reg.status_CUR_PS 0 = 3 ∧ a.rdB Reg.status_PS_BUSY 0 = false ∧ a.host.cmds = [] ∧
    b.rdN Reg.status_TGT_PS 0 = 3 ∧ b.rdB Reg.status_PS_BUSY 0 = true ∧
    c.pwr.returnAt.isSome = true ∧ (c.act 0).holding = true ∧
    d.rdN Reg.status_CUR_PS 0 = 2 ∧ d.actExists 0 = true ∧ d.actExists 1 = true ∧ d.up 0 = true ∧
    t.rdN Reg.status_TGT_PS 0 = 4 ∧ t.rdB Reg.status_PS_BUSY 0 = true := by decide +kernel
theorem test_return_holds :
    let c := ({ base.updAct 0 (fun a => { a with holding := true }) with pwr := { base.pwr with returnAt := some 5 } } : State)
    c.fileOk ∧ c.pwr.returnAt.isSome = true ∧ (c.act 0).holding = true ∧ c.rdN Reg.status_TGT_PS 0 ≠ 2 ∧ (∀ x ∈ c.host.cmds, x.admin = true) := by decide +kernel
theorem test_spin_up :
    let g := (⟨0, [0], 1, true, false⟩ : SpinGroup)
    let s := ({ base with spin := [g] } : State)
    s.spin.find? (fun g => !g.started) = some g ∧ s.spinSpaced = true ∧ s.up 0 = true ∧ s.rdN Reg.spindle_SPIN_STATE 0 = 0 ∧ s.fileOk := by decide +kernel

theorem test_idle_timer :
    let a := regsW (base.updHost (fun h => { h with apst := some [(3, 1), (3, 1), (3, 1), (4, 1), (0, 0)] })) ((List.range 64).map (fun n => (Reg.zone_CLEAN, n, 0, 1)))
    a.fileOk ∧ a.host.apst = some [(3, 1), (3, 1), (3, 1), (4, 1), (0, 0)] ∧ a.rdN Reg.status_CUR_PS 0 = 0 ∧ a.rdB Reg.status_PS_BUSY 0 = false ∧ a.host.cmds = [] := by decide +kernel


/-! ### 05 -/

/-- An upstream header whose CRC holds for no word below. -/
def bad (seq : Nat) : UpHdr := ⟨BitVec.ofNat 10 seq, 0, 0⟩

def zeros (n : Nat) : List Byte := List.replicate n 0
def padTo8 (b : List Byte) : List Byte := b ++ zeros ((8 - b.length % 8) % 8)

/-- The sections of a descriptor (R144), STYPE, SIDE, body: two sides like `side`. -/
def sections : List (Nat × Nat × List Byte) :=
  let z := toLe 4 1 ++ toLe 4 0 ++ toLe 4 0 ++ toLe 4 60000 ++ toLe 2 250 ++ toLe 2 0 ++ toLe 4 0x06000000
  let tr := toLe 2 1800 ++ toLe 2 0 ++ toLe 4 1024 ++ toLe 4 0x3F99999A ++ toLe 4 0x42480000 ++ toLe 4 0x42200000 ++ toLe 4 0
  let g := toLe 4 20 ++ toLe 4 0 ++ toLe 8 1024
  let l := toLe 1 1 ++ toLe 1 2 ++ toLe 2 4 ++ toLe 4 100 ++ toLe 4 100 ++ toLe 4 0
    ++ [(0, 1), (1, 1), (2, 4), (6, 1)].flatMap (fun (x : Nat × Nat) => toLe 4 x.1 ++ toLe 4 x.2)
  let p := toLe 1 4 ++ toLe 1 5 ++ toLe 2 50 ++ toLe 4 0x3F800000 ++ toLe 4 0x3F800000 ++ toLe 4 0x3C23D70A ++ toLe 4 0x41400000
  [(1, 0xFF, List.replicate 22 3), (2, 0, z), (2, 1, z), (3, 0, tr), (3, 1, tr), (4, 0, g), (4, 1, g), (5, 0, l), (5, 1, l),
   (6, 0xFF, toLe 4 0x80000 ++ toLe 4 0x200000), (7, 0xFF, [1, 0, 100, 0, 0, 0, 0, 0]), (8, 0xFF, p),
   (9, 0xFF, (List.replicate 8 0x3F800000).flatMap (toLe 4)), (10, 0xFF, toLe 2 1 ++ toLe 2 0 ++ toLe 4 0x3F800000 ++ toLe 4 0x3F800000)]

/-- A descriptor copy (R143): header, directory, sections on multiples of 8, CRC-32C. -/
def copyOf (heads : Nat) : List Byte :=
  let s := sections
  let start := (64 + 12 * s.length + 7) / 8 * 8
  let place := s.foldl (fun (a : List (Nat × Nat × Nat × Nat) × List Byte) x =>
    (a.1 ++ [(x.1, x.2.1, start + a.2.length, x.2.2.length)], padTo8 (a.2 ++ x.2.2))) ([], [])
  let n := (start + place.2.length + 4 + 7) / 8 * 8
  let h := toLe 4 0x31414448 ++ toLe 2 1 ++ toLe 2 64 ++ toLe 4 n ++ toLe 2 s.length ++ [2, 22, BitVec.ofNat 8 heads, 3, 1, 4, 1, 0] ++ toLe 2 200
    ++ [0x31] ++ zeros 31 ++ toLe 2 180 ++ zeros 6
  let d := place.1.flatMap (fun x => toLe 2 x.1 ++ toLe 1 x.2.1 ++ [0] ++ toLe 4 x.2.2.1 ++ toLe 4 x.2.2.2)
  let b := padTo8 (h ++ d) ++ place.2
  let b := b ++ zeros (n - 4 - b.length)
  b ++ toLe 4 (crc32c b)

/-- The shelf's standing token is held. -/
def tok (s : State) : State := regsW s [(Reg.orr_STANDING_HELD, 0, 0, 1)]
def inState (st : Nat) : State := regsW base [(Reg.port_STATE, 0, 0, st)]

theorem test_link_training :
    let o := inState 0
    let f := (inState 2).updPort 0 (fun p => { p with attempts := 1 })
    let w := (inState 9).updPort 0 (fun p => { p with waitRetry := true })
    o.fileOk ∧ o.declared 0 = true ∧ o.bound 0 = true ∧ (o.port 0).held = false ∧ (o.port 0).waitRetry = false ∧ o.imageLanes 0 ≤ 4 ∧
    (tok o).shelfToken = true ∧ (tok w).shelfToken = true ∧ (tok f).shelfToken = true ∧ (tok f).training 0 = true ∧ (inState 1).training 0 = true := by decide +kernel
theorem test_hello_and_descriptor :
    let s := inState 5
    let d := inState 6
    let hh := ctl 0x81 ([1, 0, 4, 2] ++ hBytes 2048 ++ hBytes 256 ++ hBytes 64)
    s.fileOk ∧ s.training 0 = true ∧ d.training 0 = true ∧ chooseCopy [] [] = none ∧ d.str.port 0 ≠ none ∧
    crcHolds hh 0 0x81 ([1, 0, 4, 2] ++ hBytes 2048 ++ hBytes 256 ++ hBytes 64) = true := by decide +kernel
set_option maxRecDepth 200000 in
theorem test_descriptor :
    let d := inState 6
    let d3 := ({ inState 6 with flt := { base.flt with active := [⟨0x0503, 0, allActs, allHdas, 3⟩] } } : State)
    let c := copyOf 11
    let x := copyOf 10
    let dd := (parseDesc c).getD hdaDesc
    let de := (parseDesc x).getD hdaDesc
    d.fileOk ∧ d.training 0 = true ∧ d.rdN Reg.port_STATE 0 = 6 ∧ 3 ≤ d3.reactHda 0 ∧ d.reactHda 0 < 3 ∧ d3.training 0 = true ∧
    chooseCopy c [] = some (0, dd) ∧ chooseCopy [] x = some (1, de) ∧ (d.str.port 0).map (fun p => portCause d.str p dd 0 (d.port 0).serialBound dd.geometryBad) = some 0 := by decide +kernel
theorem test_link_loss :
    let s := base
    let u := tok (inState 9)
    s.fileOk ∧ s.up 0 = true ∧ s.may culm (Reg.port_RETRAIN.addr 0 0) true ∧ s.linkCtl 0 = true ∧
    u.up 0 = false ∧ u.shelfToken = true ∧ u.linkCtl 0 = true ∧ s.may culm (Reg.port_DOWN.addr 0 0) true := by decide +kernel
theorem test_head_end_words :
    let s := base.updPort 0 (fun p => { p with stopWait := 2 })
    let b := bad 3
    let g := ctl 0x0F []
    let k1 := ctl 0x82 [2, 0]
    let k2 := ctl 0x82 [255, 1]
    let k3 := ctl 0x83 ([8, 0] ++ hBytes 65535)
    crcHolds b 0 0x0F [] = false ∧ crcHolds g 0 0x0F [] = true ∧ crcHolds k1 0 0x82 [2, 0] = true ∧ crcHolds k2 0 0x82 [255, 1] = true ∧ crcHolds k3 0 0x83 ([8, 0] ++ hBytes 65535) = true ∧
    s.fileOk ∧ (s.port 0).rxSeq.length = 32 ∧ (s.port 0).stopWait ≠ 0 ∧ (s.act 0).wrtWait = [] := by decide +kernel
theorem test_flash :
    let down := inState 9
    let a := cfgW.parts.foldl (fun a p => if p.id = 4 then p.base else a) 0
    let hi := regsW base [(Reg.port_FL_OFS, 0, 0, 0x80000), (Reg.port_FL_LEN, 0, 0, 64), (Reg.port_FL_DDR_LO, 0, 0, a % 2^32), (Reg.port_FL_DDR_HI, 0, 0, a / 2^32)]
    let op := (⟨1, 7, 0, 64, a, 0⟩ : FlashOp)
    let k := { ctl 0x84 [2] with tag := 7, crc := ctlCrc 0 0 0x84 7 [2] }
    let k0 := { ctl 0x84 [0] with tag := 7, crc := ctlCrc 0 0 0x84 7 [0] }
    let wop := (⟨2, 7, 0x80000, 64, a, 16⟩ : FlashOp)
    base.may culm (Reg.port_FL_CMD.addr 0 0) true ∧ base.rdB Reg.port_FL_BUSY 0 = false ∧ down.up 0 = false ∧ base.rdN Reg.port_FL_OFS 0 < 0x80000 ∧
    hi.inPart 4 (hi.flDdr 0) 64 = true ∧ hi.rdN Reg.port_FL_LEN 0 = 64 ∧ 0x80000 ≤ hi.rdN Reg.port_FL_OFS 0 ∧ hi.may culm (Reg.port_FL_CMD.addr 0 0) true ∧
    crcHolds k 0 0x84 [2] = true ∧ op.tag = k.tag ∧ crcHolds k0 0 0x84 [0] = true ∧ wop.tag = k0.tag ∧ wop.moved + 16 < wop.len := by decide +kernel
theorem test_lanes :
    let l4 := regsW base [(Reg.port_LANES, 0, 0, 4), (Reg.status_CUR_PS, 0, 0, 2)]
    let l2 := regsW base [(Reg.port_LANES, 0, 0, 2)]
    let sx := base.updPort 0 (fun p => { p with laneChange := .switching 2 7 (some 5) true false })
    let dr := base.updPort 0 (fun p => { p with drift := [(1, 8), (0, 0), (0, 0), (0, 0)] })
    let a0 := ctl 0x87 ([1, 0] ++ wBytes 5)
    let a1 := ctl 0x87 ([1, 1] ++ wBytes 5)
    let a2 := ctl 0x87 ([2, 0] ++ wBytes 5)
    l4.fileOk ∧ l4.up 0 = true ∧ (l4.port 0).laneChange = .none ∧ l4.rdN Reg.port_LANES 0 = 4 ∧ l4.rdN Reg.status_CUR_PS 0 = 2 ∧ l2.rdN Reg.status_CUR_PS 0 < 2 ∧ (l2.port 0).laneBad = false ∧
    crcHolds a0 0 0x87 ([1, 0] ++ wBytes 5) = true ∧ crcHolds a1 0 0x87 ([1, 1] ++ wBytes 5) = true ∧ crcHolds a2 0 0x87 ([2, 0] ++ wBytes 5) = true ∧
    (dr.port 0).moved = false ∧ (dr.port 0).drift[0]? = some (1, 8) ∧ (dr.rdAt Reg.port_DESKEW 0 0).toNat ≤ 15 ∧ 0 < base.rdN Reg.port_LANES 0 ∧ (sx.rdAt Reg.port_DESKEW 0 0).toNat ≤ 16 := by decide +kernel
theorem test_housekeeping_frames :
    base.injTake 0x0C00 0 = none ∧ base.injTake 0x0900 0 = none ∧
    base.fileOk := by decide +kernel


/-! ### 06 -/

/-- n bits, most significant first, as tone phases or dibits: 01 is a 0, 10 a 1 (R159, R173). -/
def phases (v n : Nat) : Nat := (List.range n).foldl (fun a i => 4 * a + (if v.testBit (n - 1 - i) then 2 else 1)) 0
/-- A frame of INDEX 5 over track 100, whose Gray code is 86 with check bits 0011, stripes 24 cycles apart (R158, R159, R162). -/
def okFrame : TransitObs :=
  ⟨some 0, BitVec.ofNat 24 (phases 10 12), BitVec.ofNat 56 (phases (86 * 16 + 3) 28), some 8320, some 9856, some 12800, some 14336, true, 4629630⟩
def demod (st : Nat) : State := (regsW base [(Reg.demod_STATE, 0, 0, st)]).updAct 0 (fun a => { a with index := 5, frameNo := 77 })
def ramp : State := base.updAct 0 (fun a => { a with headsOn := true })

theorem test_demod_states :
    let r := ramp
    let q := regsW r [(Reg.demod_STATE, 0, 0, 4)]
    r.fileOk ∧ (r.act 0).headsOn = true ∧ r.sideOn 0 = true ∧ base.rdN Reg.demod_STATE 0 = 0 ∧ (demod 2).rdN Reg.demod_STATE 0 = 2 ∧ (demod 1).rdN Reg.demod_STATE 0 = 1 ∧
    (demod 1).may culm (Reg.demod_REACQ.addr 0 0) true ∧ q.rdN Reg.demod_STATE 0 = 4 ∧ (q.act 0).headsOn = true ∧
    (demod 1).bindsOk := by decide +kernel
theorem test_transit_frames :
    let a := (demod 1).updAct 0 (fun a => { a with validRun := 2 })
    let k := (demod 2).updAct 0 (fun a => { a with ready := false })
    a.fileOk ∧ a.sideDesc 0 = some side ∧ a.rdN Reg.demod_STATE 0 = 1 ∧ (a.act 0).validRun = 2 ∧ indexOf okFrame.index = some (a.act 0).index ∧
    ((a.wrB Reg.demod_TONE_LOCK 0 true).judge 0 side okFrame).1 = true ∧
    k.rdN Reg.demod_STATE 0 = 2 ∧ (k.act 0).win = none ∧ (k.act 0).winQueue = [] ∧ (k.act 0).armed = none ∧ (k.act 0).op = none ∧ (k.act 0).heldGo = false ∧ (k.act 0).ready = false ∧
    (k.wrB Reg.demod_TONE_LOCK 0 true).judge 0 side okFrame = (true, 25600, false) ∧
    (∀ i : Fin 4, k.slotOpen (k.engine 0) i = false) ∧ k.rdN Reg.demod_MISS_RUN 0 ≠ 3 := by decide +kernel
/-- INDEX 5 with even parity, track 100 with its four parities, one of them wrong, and a burst's ID with CRC-8 (R158, R159, R173). -/
theorem test_surface_words :
    indexOf (BitVec.ofNat 24 (phases 10 12)) = some 5 ∧ indexOf (BitVec.ofNat 24 (phases 11 12)) = none ∧
    trackOf okFrame.trackId = some 100 ∧ trackOf (BitVec.ofNat 56 (phases (86 * 16 + 2) 28)) = none ∧
    burstId (BitVec.ofNat 64 (phases (86 * 256 + crc8 86 24) 32)) = some (0, 100) := by decide +kernel
/-- A burst of index 0 over the track whose Gray code is g, 40/64 bit late. -/
def burst (g : Nat) : BurstObs := ⟨0, some 40, BitVec.ofNat 64 (phases (g * 256 + crc8 g 24) 32), 3, 4, 5, 6⟩
/-- Head 10 over track 100 with RAD_OFS −16. -/
def onBurst : State := (regsW (demod 2) [(Reg.demod_SEL_HEAD, 0, 0, 10), (Reg.demod_AGE, 0, 9, 255), (Reg.demod_RAD_OFS, 0, 9, 0xFFF0), (Reg.demod_POS, 0, 0, 25600)]).updAct 0
  (fun a => { a with clkZone := some 0, unconfirmed := 0x400 })

theorem test_bursts :
    let s := onBurst
    let g := s.updAct 0 (fun a => { a with unconfirmed := 0 })
    let o := burst 86
    s.fileOk ∧ s.rdN Reg.demod_SEL_HEAD 0 = 10 ∧ s.rdN Reg.demod_STATE 0 = 2 ∧ s.sideDesc 0 = some side ∧ (s.act 0).clkZone = some 0 ∧ (g.act 0).unconfirmed.getLsbD 10 = false ∧ (s.act 0).unconfirmed.getLsbD 10 = true ∧
    burstId o.id = some (0, 100) ∧ g.burstRejected 0 1024 0x06000000 0 0 = false ∧
    s.may culm (Reg.demod_RAD_OFS.addr 0 9) true ∧ s.may culm (Reg.demod_TIM_OFS.addr 0 9) true := by decide +kernel
/-- The reader's position error lies within half a track, so a burst over track 0 is far from where track 100 is followed (R174, R175). -/
theorem test_burst_far (pd : Int) (h : -128 ≤ pd ∧ pd ≤ 128) :
    onBurst.wgTol 0 < (onBurst.burstPt 0 1024 0x06000000 0 0 - (nearest16 0 ((onBurst.burstPt 0 1024 0x06000000 0 0 + 16 + 128).fdiv 256) * 256 + pd) + 16).natAbs := by
  have a : onBurst.wgTol 0 = 20 := by decide +kernel
  have b : onBurst.burstPt 0 1024 0x06000000 0 0 = 25600 := by decide +kernel
  rw [a, b]
  simp only [nearest16]
  omega

theorem test_samples :
    let x := (⟨7, 9, 3, true, 1, 2, [5]⟩ : StreamSt)
    let s := base.updPort 0 (fun p => { p with streams := [(2, x), (5, x)] })
    s.fileOk ∧ (s.port 0).rxSeq.getD 2 0 = 0 ∧ (s.port 0).streams.lookup 2 = some x ∧ s.injTake 0x0A00 (s.str.laneOf 0) = none ∧ s.injTake 0x0600 0 = none := by decide +kernel


/-! ### 07 -/

def mqRead : MqEntry := ⟨3, 1, 1, false, false, 0, 100, 4, 1, 0, [], .host⟩

theorem test_epochs :
    let s := (regsW base [(Reg.engine_NEXT, 0, 0, 65535)]).updAct 0 (fun a => { a with lastRead := some (1, 10) })
    s.fileOk ∧ s.may eng0 (Reg.engine_EPOCH_OP.addr 0 0) true ∧ s.engAct 0 = some 0 ∧ s.epochHeld 0 0xFFFF = false := by decide +kernel
/-- A pre-seek opens under SRC 3; a number still held by the head-end is not given again. -/
theorem test_epochs_refused :
    let s := (regsW base [(Reg.engine_NEXT, 0, 0, 7), (Reg.demod_STATE, 0, 0, 2), (Reg.demod_PRESEEK_ACC, 0, 0, 1)]).updAct 0 (fun a => { a with lastRead := some (1, 10) })
    let h := { s with held := [⟨{ (Tag.zero) with act := 0, spec := true, epoch := 7 }, []⟩] }
    s.fileOk ∧ (s.freeSlot 0).isSome = true ∧ s.epochHeld 0 7 = false ∧ s.preseekOk 0 = true ∧
    (h.freeSlot 0).isSome = true ∧ h.epochHeld 0 7 = true ∧ h.runaheadOk 0 = true := by decide +kernel
theorem test_urgent :
    let u := { mqRead with prio := 0, idx := 4 }
    let s := (regsW base [(Reg.engine_SLOT_OPEN, 0, 0, 1), (Reg.engine_SLOT_SRC, 0, 0, 3)]).updAct 0 (fun a => { a with mq := [u] })
    let p := base.updAct 0 (fun a => { a with mq := [mqRead, u], op := some ⟨1, 1, 3, 0, 0, 4, 0, false, 0, none, 0, none⟩ })
    let po := (⟨1, 1, 3, 0, 0, 4, 0, false, 0, none, 0, none⟩ : OpSt)
    s.fileOk ∧ s.bindsOk ∧
    (p.act 0).readyOf 0 ≠ [] ∧ (p.act 0).op = some po ∧ p.opPrio 0 po ≠ 0 ∧
    ∀ c : Fin 4, (base.act 0).readyOf c = [] := by decide +kernel
/-- Engine 0 free, with media credit and this operation description: OPC, head, entry, track, first sector and count, epoch word. -/
def desc (opc head entry track first count ep : Nat) (mq : List MqEntry) : State :=
  (regsW ready [(Reg.thermAct_MEDIA_CREDIT, 0, 0, 1000), (Reg.engine_CLASS_SEL, 0, 0, 1), (Reg.engine_OP_DESC, 0, 0, opc + head * 16 + entry * 65536), (Reg.engine_OP_DESC, 0, 1, track),
    (Reg.engine_OP_DESC, 0, 2, first + 65536 * count), (Reg.engine_OP_DESC, 0, 3, ep)]).updAct 0 (fun a => { a with mq := mq })
def mqErase : MqEntry := ⟨3, 1, 2, false, false, 0, 0, 1, 1, 0, [], .erase⟩
/-- One write parameter entry for head 1, zone 0, and that entry's zone list. -/
def tableW : List (Nat × Nat) := [(0, 0x00100010), (3, 0x00010000), (0xA00, 0xFFFF0000)]

set_option synthInstance.maxSize 10000 in
set_option synthInstance.maxHeartbeats 2000000 in
theorem test_operations :
    let k := desc 3 1 0x7FF 10 0 1 0 []
    let z := desc 3 1 3 10 0 1 0 []
    let r := desc 1 1 3 10 0 4 0 [mqRead]
    let r' := desc 1 1 3 10 0 4 0 [{ mqRead with prio := 2 }]
    let ra := (regsW (desc 4 1 0x7FF 10 0 48 7 []) [(Reg.engine_SLOT_OPEN, 0, 1, 1), (Reg.engine_SLOT_SRC, 0, 1, 1), (Reg.engine_SLOT_EPOCH, 0, 1, 7)]).updAct 0 (fun a => { a with lastRead := some (1, 10) })
    let w := (desc 2 1 3 0 0 1 0 [mqErase]).updAct 0 (fun a => { a with table := tableW })
    let ws := desc 2 1 3 0 0 1 65536 [mqErase]
    let b := regsW k [(Reg.engine_OP_BUSY, 0, 0, 1)]
    let n0 := desc 0 1 0x7FF 10 0 1 0 []
    let n5 := desc 5 1 0x7FF 10 0 1 0 []
    k.fileOk ∧ k.goes 0 eng0 0 ∧ k.descOk 0 0 false = true ∧ k.opEntry 0 = 0x7FF ∧ k.opSpec 0 = false ∧ z.goes 0 eng0 0 ∧ z.descOk 0 0 false = true ∧ z.opEntry 0 ≠ 0x7FF ∧
    ra.goes 0 eng0 0 ∧ ra.descOk 0 0 true = true ∧ ra.opEntry 0 = 0x7FF ∧ (ra.act 0).raDone + ra.opCount 0 ≤ ra.runaheadMax 0 ∧ (ra.act 0).lastRead = some (ra.opHead 0, ra.opTrack 0) ∧ ra.openOfSrc 0 1 = some (ra.opEpoch 0) ∧ ra.runaheadOk 0 = true ∧
    r.goes 0 eng0 0 ∧ r.descOk 0 0 true = true ∧ r.opSpec 0 = false ∧ (r.act 0).mq.find? (fun x => x.idx == r.opEntry 0 && x.opc == 1) = some mqRead ∧ r.entryCheck 0 mqRead = 0 ∧ (r.freeSlot 0).isSome = true ∧ r.epochHeld 0 0 = false ∧
    r'.entryCheck 0 { mqRead with prio := 2 } ≠ 0 ∧
    w.goes 0 eng0 0 ∧ w.descOk 0 0 true = true ∧ w.opSpec 0 = false ∧ w.openOfSrc 0 3 = none ∧ (w.act 0).led.remap = [] ∧ (w.act 0).mq.find? (fun x => x.idx == w.opEntry 0 && x.opc == 2) = some mqErase ∧ w.entryCheck 0 mqErase = 0 ∧ w.accNeed 0 (zoneOf mqErase.lba) = none ∧ w.loopMode (vcmLoop 0) ≠ 3 ∧ w.loopMode (maLoop 0) ≠ 3 ∧ w.buf = [] ∧ w.injTake 0x0700 0 = none ∧
    (w.wtEntry 0 1 0).isSome = true ∧ (w.buildSectors 0 side mqErase 1 0 0 1 (zoneOf 0 * 65536 + (w.zone 0 (zoneOf 0)).mwp) (w.acc 0 (zoneOf 0))).isSome = true ∧
    ws.goes 0 eng0 0 ∧ ws.descOk 0 0 true = true ∧ ws.opSpec 0 = true ∧
    k.opDesc 0 0 % 16 = 3 ∧ ra.opDesc 0 0 % 16 = 4 ∧ r.opDesc 0 0 % 16 = 1 ∧ w.opDesc 0 0 % 16 = 2 ∧
    k.bindsOk ∧
    n0.goes 0 eng0 0 ∧ n5.goes 0 eng0 0 ∧ b.rdB Reg.engine_OP_BUSY 0 = true ∧ b.may eng0 (Reg.engine_OP_GO.addr 0 0) true := by decide +kernel
theorem test_waiting_entry :
    let s := ready.updHost (fun h => { h with waiting := [(0, mqRead), (1, mqRead)] })
    (0, mqRead) ∈ s.host.waiting ∧ (s.act 0).mq.length < s.str.queue.mediaDepth ∧ s.host.waiting.all (fun y => y.1 != 0 || y == (0, mqRead) || decide (mqRead.stamp < y.2.stamp)) = true := by decide +kernel


/-! ### 08 to 10 -/

def lane0 (taps : List (Nat × Nat)) : State := (regsW base [(Reg.lane_TAP_ADDR, 0, 0, 94)]).updLane 0 (fun x => { x with shadow := [(3, 7)], taps := taps })
def readOp : OpSt := ⟨1, 1, 3, 104, 104, 4, 0, false, 0, some 7, 0, none⟩
/-- Sector 104 of track 104 on head 1 holds zoned LBA 100; no sample of it has come. -/
def reading : State := ((regsW base [(Reg.demod_SEL_HEAD, 0, 0, 1), (Reg.engine_SLOT_OPEN, 0, 0, 1), (Reg.engine_SLOT_SRC, 0, 0, 2), (Reg.engine_SLOT_EPOCH, 0, 0, 7),
  (Reg.engine_CONF_SPAN, 0, 0, 4)]).updAct 0 (fun a => { a with mq := [mqRead], op := some readOp })).updLane 0 (fun x => { x with taps := [(47, 1), (23041, 0xFFFF)] })
def notice : Notice := ⟨1, 1, true, 3, 1, 0, false, true, 4, 104, 0, 104, some 2, 100, 7, 0, 0, 0⟩
def win0 : ReadWin := ⟨[], []⟩

theorem test_taps :
    let s := lane0 []
    let t := run s (.tapData 0 culm (some 9))
    s.fileOk ∧ s.may culm (Reg.lane_TAP_DATA.addr 0 0) true ∧ s.may culm (Reg.lane_TAP_DATA.addr 0 0) false ∧ s.may culm (Reg.lane_TAP_COMMIT.addr 0 0) true ∧ s.rdN Reg.lane_TAP_ADDR 0 = 94 ∧
    s.str.actOfLane s.husk.variantH 0 = some 0 ∧ s.rdBit Reg.thermAct_CAL_BUSY 0 5 = false ∧
    (t.lane 0).shadow = [(3, 7), (47, 9)] ∧ (t.lane 0).taps = [] := by decide +kernel
/-- The last halfword, 0xBFFE, is written too. -/
theorem test_taps_end :
    let s := regsW base [(Reg.lane_TAP_ADDR, 0, 0, 0xBFFE)]
    s.rdN Reg.lane_TAP_ADDR 0 = 0xBFFE ∧ s.rdN Reg.lane_TAP_ADDR 0 < 0xC000 ∧
    ((run s (.tapData 0 culm (some 9))).lane 0).shadow = [(24575, 9)] := by decide +kernel
theorem test_capture_ring :
    let x2 := (⟨1, 104, 104, win0, 0, some (2, 7), 0⟩ : RingSlot)
    let s := (base.updLane 0 (fun x => { x with ring := [⟨1, 9, 9, win0, 0, none, 0⟩, x2] })).updPool (fun p => { p with waiting := [notice], caps := [(2, none)] })
    let t := run s (.captureCopyDone 0 false)
    let u := run s (.captureCopyDone 0 true)
    s.fileOk ∧ (s.lane 0).ring.find? (fun y => y.copyTo.isSome) = some x2 ∧ x2.copyTo = some (2, 7) ∧ x2.ecc < 2 ∧ (2, none) ∈ s.pool.caps ∧ (∀ m ∈ s.pool.early, m.cap ≠ some 2) ∧
    notice ∈ s.pool.early ++ s.pool.waiting ∧ notice.cap = some 2 ∧ ∀ x ∈ (base.lane 0).ring, x.copyTo = none ∧
    (t.lane 0).ring.map (·.copyTo) = [none, none] ∧ (u.lane 0).ring.map (·.copyTo) = [none, none] := by decide +kernel
/-- Nothing of the sector was sampled, so its samples are missing (kind 4) and its notice waits; an unasked sector goes to the ring alone. -/
theorem test_verdict :
    let s := reading
    let o := (⟨104, 104, false⟩ : SectorObs)
    let ak := (⟨readOp, some mqRead, some (false, 100)⟩ : Asked)
    s.str.actOfLane s.husk.variantH 0 = some 0 ∧ s.rdN Reg.demod_SEL_HEAD 0 = 1 ∧ (s.sideDesc 0).isSome = true ∧ s.flt.injected = [] ∧ s.flt.armed = [] ∧ (s.lane 0).ring.length < 64 ∧
    s.asked 0 1 104 104 = some ak ∧ s.asked 0 1 9 9 = none ∧ readOp.spanDone + 1 < s.confSpan (s.engine 0) ∧ readOp.done + 1 < readOp.count ∧
    (base.str.actOfLane base.husk.variantH 5) = none ∧
    (s.seen 0 0 1 o).j.accepted = none ∧ (s.seen 0 0 1 o).kind0 = 4 := by decide +kernel


def rrec : RecRecord := ⟨notice, 0, 1, 0, true, some 3, none, false, false, [], []⟩
/-- A read command of slot 5 with its failed sector in the pool. -/
def readCmd : Cmd := ⟨5, 1, ⟨2, 9, 1, 100, 0, 3, 0, 0, 0, 0, false⟩, false, 1, 1, 0, 0, 100, 4, true, [100], 4, false, false, 0, 0, 0, .none, [], none⟩

set_option synthInstance.maxSize 10000 in
set_option synthInstance.maxHeartbeats 2000000 in
theorem test_recovery :
    let s := base.updPool (fun p => { p with waiting := [notice], caps := [(2, none)] })
    let d := base.updPool (fun p => { p with records := [rrec], caps := [(2, none)] })
    let r := { rrec with n := { notice with noCmd := false, slot := 5, prio := 1 }, stamp := 1, deadline := some 9 }
    let c := (ready.updPool (fun p => { p with records := [{ rrec with n := { notice with noCmd := false, slot := 5, prio := 1 }, stamp := 1, deadline := some 9 }] })).updHost (fun h => { h with cmds := [readCmd] })
    s.fileOk ∧ s.pool.records.length < 1024 ∧ notice.capValid = true ∧ s.rdBit Reg.pool_STEP_EN 0 0 = true ∧
    d.fileOk ∧ d.pool.records.find? (fun r => r.decoder == some 3) = some rrec ∧ rrec.n.noCmd = true ∧ rrec.step = 1 ∧ rrec.n.act < 64 ∧
    let r' := { rrec with decoder := none, ready := false }; let u := ((d.bumpBy Reg.pool_WORK_CNT 0 3 1).decFree 3).setRec rrec r'; (u.injTake 0x0B01 0 = none ∧ u.capCheck r' = (u, r')) ∧
    c.pool.records.find? (fun r => !r.n.noCmd && r.n.slot == 5 && r.deadline.isSome) = some r ∧ c.cmd r.n.slot = some readCmd ∧ readCmd.stamp = r.stamp ∧
    c.fileOk ∧ base.pool.records.find? (fun r => r.decoder == some 3) = none ∧ base.pool.records = [] ∧ base.pool.waiting = [] := by decide +kernel
theorem test_generations :
    let s := base.updAct 0 (fun a => { a with led := { a.led with staged := [true, true, true, true] } })
    s.fileOk ∧ s.up (hdaOf 0) = true ∧ (s.led 0).gens.length = 4 ∧ s.host.cmds = [] ∧ (s.led 0).staged.getD 0 false = true ∧ (s.led 0).staged.getD 1 false = true ∧ (s.led 0).staged.getD 2 false = true ∧ (s.led 0).staged.getD 3 false = true ∧
    (base.led 0).staged.getD 0 false = false ∧ (base.led 0).staged.getD 2 false = false ∧
    ((run s (.remapFlush 0)).led 0).writing = [true, false, false, false] ∧
    ((run s (.zmapFlush 0)).led 0).writing = [false, false, true, false] ∧
    (run s (.ledgerGenerationDurable 0 0)).gen 0 1 = 1 := by decide +kernel


def winA : WinSt := ⟨4, 1, 104, 104, 1, 80, 0, 82, 79, false, [some 100], .host, 3, 1, 1, false, [1, 2, 3, 4, 5, 6], 0, [], 0⟩
def windowed : State := ({ (regsW base [(Reg.wa_WINDOW, 0, 0, 1), (Reg.wa_LASER_AUTO, 0, 0, 1)]) with
  buf := [⟨{ Tag.zero with kind := 0, lba := 100, stamp := 1 }, 0, true, false, false⟩] } : State).updAct 0 (fun a => { a with win := some winA, armed := some 80 })
def wdoneHdr (id bits : Nat) : UpHdr := ctl 0x86 ([0, 0] ++ hBytes id ++ [0, 0] ++ wBytes (BitVec.ofNat 32 bits))
def errHdr (sid id : Nat) : UpHdr := ctl 0x85 ([5, sid, 0, 0] ++ hBytes id)

theorem test_write_table :
    let s := regsW base [(Reg.wa_WT_ADDR, 0, 0, 0x293C)]
    let w := windowed
    let t := run s (.wtData 0 culm (some 9))
    s.fileOk ∧ s.may culm (Reg.wa_WT_DATA.addr 0 0) true ∧ s.may culm (Reg.wa_WT_DATA.addr 0 0) false ∧ s.may culm (Reg.wa_WT_COMMIT.addr 0 0) true ∧ s.rdBit Reg.thermAct_CAL_BUSY 0 6 = false ∧
    s.rdN Reg.wa_WT_ADDR 0 < 0x2940 ∧ (s.act 0).win = none ∧ (w.act 0).win.isSome = true ∧ w.may culm (Reg.wa_WT_COMMIT.addr 0 0) true ∧ w.rdBit Reg.thermAct_CAL_BUSY 0 6 = false ∧
    w.fileOk ∧
    (t.act 0).shadowTable = [(2639, 9)] ∧ (t.act 0).table = [] := by decide +kernel
set_option synthInstance.maxSize 10000 in
set_option synthInstance.maxHeartbeats 2000000 in
theorem test_window_end :
    let s := windowed
    let t := run s (.windowEnd 0)
    s.fileOk ∧ s.bindsOk ∧ (s.act 0).win = some winA ∧ winA.autoFrames < 8 ∧ ((s.act 0).win.toList ++ (s.act 0).winQueue).find? (fun q => q.id == winA.id) = some winA ∧ winA.sectors = 1 ∧ winA.lbas = [some 100] ∧ winA.task = .host ∧ s.host.pins = [] ∧ s.host.cmds = [] ∧
    crcHolds (wdoneHdr 4 sectorBits) 0 0x86 ([0, 0] ++ hBytes 4 ++ [0, 0] ++ wBytes (BitVec.ofNat 32 sectorBits)) = true ∧
    crcHolds (wdoneHdr 4 0) 0 0x86 ([0, 0] ++ hBytes 4 ++ [0, 0] ++ wBytes 0) = true ∧ crcHolds (wdoneHdr 5 0) 0 0x86 ([0, 0] ++ hBytes 5 ++ [0, 0] ++ wBytes 0) = true ∧
    crcHolds (errHdr 7 4) 0 0x85 ([5, 7, 0, 0] ++ hBytes 4) = true ∧ crcHolds (errHdr 8 4) 0 0x85 ([5, 8, 0, 0] ++ hBytes 4) = true ∧ (s.act 0).winQueue = [] ∧
    (t.act 0).win.map (·.dead) = some true ∧ (t.act 0).armed = none ∧ t.buf = s.buf := by decide +kernel


/-! ### 11 -/

/-- Instance g with a program of END alone and limits −1 to 1, in a mode. -/
def looped (g mode : Nat) : State := regsW base [(Reg.loop_PROG, g, 0, 0x3F), (Reg.loop_OUT_MIN, g, 0, 0xBF800000), (Reg.loop_OUT_MAX, g, 0, 0x3F800000),
  (Reg.loop_MAN_OUT, g, 0, 0x3F000000), (Reg.loop_MODE, g, 0, mode), (Reg.loop_ENABLE, g, 0, mode)]
def tune0 : TuneSt := ⟨2, 0, true, 0, 0, 0, 0, 0, 0, 0, 0⟩
def retracting (k : Nat) : State := ((looped 0 4).updLoop 0 (fun l => { l with retract := k })).wr Reg.unit_RET_PUSH 0 0x3F800000
def framed : State := (regsW base [(Reg.demod_STATE, 0, 0, 2), (Reg.spf_SP_POS, 0, 0, 512), (Reg.spf_SP_FRAME, 0, 0, 78)]).updAct 0 (fun a => { a with synced := true, frameNo := 77, index := 1799 })

set_option synthInstance.maxSize 10000 in
set_option synthInstance.maxHeartbeats 2000000 in
theorem test_loop_modes :
    let s := looped 0 0
    let b := regsW (looped 0 0) [(Reg.loop_PROG, 0, 0, 0x3E)]
    let m := looped 0 1
    let f := looped 0 5
    let u := (looped 0 3).updLoop 0 (fun l => { l with tune := some tune0 })
    s.fileOk ∧ s.may culm (Reg.loop_ENABLE.addr 0 0) true ∧ s.may culm (Reg.loop_MODE_REQ.addr 0 0) true ∧ s.may culm (Reg.loop_SWAP.addr 0 0) true ∧ loopKind 0 = .vcm ∧ s.loopMode 0 = 0 ∧ s.laserBarred 0 = false ∧ s.up 0 = true ∧ s.reactHda 0 < 3 ∧
    s.progErr 0 = none ∧ b.progErr 0 = some 0 ∧ m.loopMode 0 = 1 ∧ f.loopMode 0 = 5 ∧ u.loopMode 0 = 3 ∧ (u.loop 0).tune = some tune0 ∧ m.tuneBarred 0 = true ∧ loopKind 48 = .spindle ∧ base.may culm (Reg.loop_ENABLE.addr 48 0) true := by decide +kernel
set_option synthInstance.maxSize 10000 in
set_option synthInstance.maxHeartbeats 2000000 in
theorem test_loop_runs :
    let m := (looped 0 1).updLoop 0 (fun l => { l with input := some 0x3F000000 })
    let o := (looped 0 5).updLoop 0 (fun l => { l with input := some 0x3F000000 })
    let a := (looped 16 2).updLoop 16 (fun l => { l with age := 5 })
    m.fileOk ∧ m.bindsOk ∧ m.injTake 0x0800 0 = none ∧ m.loopMode 0 = 1 ∧ (m.loop 0).first = true ∧ (m.act (loopAct 0)).maWait = false ∧ (m.loop 0).input = some 0x3F000000 ∧ loopKind 0 = .vcm ∧ loopKind 16 = .ma ∧ a.loopMode 16 = 2 ∧ a.wdAge 16 < (a.loop 16).age ∧ (a.loop 16).disabling = false ∧
    o.loopMode 0 = 5 ∧ (o.loop 0).input = some 0x3F000000 ∧ o.injTake 0x0800 0 = none ∧ ((looped 16 2).loop 16).age ≤ (looped 16 2).wdAge 16 ∧ (base.loop 0).input = none ∧ base.loopMode 0 ≠ 4 ∧
    (retracting 1).loopMode 0 = 4 ∧ ((retracting 1).loop 0).retract = 1 ∧ ((retracting 3).loop 0).retract = 3 ∧ vcmLoop 0 = 0 ∧ (retracting 3).rdN Reg.dis_STATE 64 ≠ 1 := by decide +kernel
theorem test_setpoints :
    let s := framed
    let r := base.updAct 0 (fun a => { a with headsOn := true })
    let q := framed.updAct 0 (fun a => { a with fifo := [⟨512, 0x3F800000, 78, 0, false⟩, ⟨9, 0, 79, 0, false⟩], hold := 3 })
    let e := framed.updAct 0 (fun a => { a with hold := 3 })
    let t := run s (.spPush 0 eng0)
    let u := run q (.frameBoundary 0)
    s.fileOk ∧ s.may eng0 (Reg.spf_SP_PUSH.addr 0 0) true ∧ eng0.toNat = idEngine (s.engine 0) ∧ s.actExists 0 = true ∧ s.spRes 0 = 0 ∧ base.spRes 0 ≠ 0 ∧ engineId culm.toNat = none ∧ s.stage1 culm.toNat (Reg.spf_SP_PUSH.addr 0 0) true = true ∧ (s.act 0).headsOn = false ∧ (r.act 0).headsOn = true ∧ e.rdB Reg.demod_SPEC_TARGET 0 = false ∧
    (t.act 0).fifo = [⟨512, 0, 78, 0, false⟩] ∧
    (u.act 0).frameNo = 78 ∧ (u.act 0).index = 0 ∧ (u.act 0).base = 512 ∧ (u.act 0).ffAcc = 0x3F800000 ∧ (u.act 0).hold = 512 := by decide +kernel


/-! ### 12 -/

def spun (st : Nat) : State := regsW base [(Reg.spindle_SPIN_STATE, 0, 0, st)]
/-- Standing still; turning backward; turning at 1,000 rpm. -/
def still : BemfObs := ⟨false, 0, 0, 0⟩
def backward : BemfObs := ⟨true, 0x447A0000, 0, 0x3F800000⟩
def turning : BemfObs := ⟨false, 0x447A0000, 77, 0x3F800000⟩
def sobs : SpindleObs := ⟨0, 0, 0, 0⟩

theorem test_spindle_starts :
    let s := spun 1
    let p := (spun 4).updSpin 0 (fun x => { x with begun := true })
    let q := (spun 4).updSpin 0 (fun x => { x with begun := true, attempts := 2 })
    let r := (spun 9).updSpin 0 (fun x => { x with begun := true, attempts := 1, retry := true })
    let b := (spun 2).updSpin 0 (fun x => { x with sensing := true, begun := true })
    s.fileOk ∧ s.bindsOk ∧ s.rdN Reg.spindle_SPIN_STATE 0 = 1 ∧ (s.senseBemf 0 still).2 = true ∧ (s.senseBemf 0 backward).2 = false ∧ (s.senseBemf 0 turning).2 = false ∧ F32.lt (F32.ofInt (s.rdN Reg.spindle_CATCH_RPM 0)) turning.rpm = true ∧
    (p.spinSt 0).attempts < 2 ∧ 2 ≤ (q.spinSt 0).attempts ∧ (r.spinSt 0).retry = true ∧ r.rdN Reg.spindle_SPIN_STATE 0 = 9 ∧ (b.spinSt 0).sensing = true ∧ (b.senseBemf 0 still).2 = true ∧ ((spun 2).spinSt 0).sensing = false ∧ (p.spinSt 0).begun = true := by decide +kernel
theorem test_spindle_losses :
    let s := spun 7
    let k := regsW (spun 7) [(Reg.demod_STATE, 0, 0, 2)]
    s.fileOk ∧ s.bindsOk ∧ s.rdN Reg.spindle_SPIN_STATE 0 = 7 ∧ s.actExists 0 = true ∧ s.actExists 1 = true ∧ (s.senseBemf 0 turning).2 = false ∧ (s.senseBemf 0 still).2 = true ∧ ((k.senseBemf 0 still).1.speedTest 0).2 = false ∧ (k.senseBemf 0 still).2 = true ∧ k.rdN Reg.spindle_SPIN_STATE 0 = 7 ∧ (spun 8).headsParked 0 = true ∧ (spun 6).bound 0 = true ∧ base.bound 31 = false := by decide +kernel
theorem test_spin_commands :
    let s := ({ base with orr := { base.orr with tokens := [⟨1, 1, true, 100⟩] } } : State)
    let l := regsW (looped 48 1) [(Reg.spindle_SPIN_STATE, 0, 0, 6), (Reg.spindle_LOCKED, 0, 0, 1)]
    s.fileOk ∧ s.may culm (Reg.spindle_SPIN_CMD.addr 0 0) true ∧ s.startRes 0 true = 0 ∧ base.startRes 0 true = 4 ∧ s.headsParked 0 = true ∧ serving.headsParked 0 = false ∧ l.rdN Reg.spindle_SPIN_STATE 0 = 6 ∧ l.headsParked 0 = true ∧ l.tuneBarred (spinLoop 0 0) = false ∧ l.loopMode (spinLoop 0 0) = 1 := by decide +kernel
theorem test_driven_periods :
    let a := spun 3
    let r := (spun 5).updSpin 0 (fun x => { x with skips := 7 })
    let i := (spun 5).updPort 0 (fun p => { p with mot := { p.mot with shunt := some (100, 50) } })
    a.fileOk ∧ a.bindsOk ∧ F32.lt (a.rd Reg.spindle_I_TRIP 0) 0 = false ∧ (a.port 0).mot.shunt = none ∧ (r.spinSt 0).skips = 7 ∧ (i.spinSt 0).skipNow = false ∧ (i.port 0).mot.shunt = some (100, 50) ∧
    (i.phaseCurrents 0 (100, 50)).any (fun x => F32.lt (i.rd Reg.spindle_I_TRIP 0) (F32.abs x)) = true := by decide +kernel


/-! ### 13 -/

def adm (opc nsid d10 d11 : Nat) : Cmd :=
  ⟨0, 0, ⟨BitVec.ofNat 8 opc, 9, BitVec.ofNat 32 nsid, BitVec.ofNat 32 d10, BitVec.ofNat 32 d11, 0, 0, 0, 0, 0, false⟩, true, 1, 1, 1, 0, 0, 0, false, [], 0, false, false, 0, 0, 0, .none, [], none⟩
/-- A user command on LBA lba alone. -/
def usr (opc nsid lba : Nat) : Cmd :=
  ⟨5, 1, ⟨BitVec.ofNat 8 opc, 9, BitVec.ofNat 32 nsid, BitVec.ofNat 32 lba, 0, 0, 0, 0, 0, 0, false⟩, false, 1, 2, 0, nsAct nsid, lba, 1, false, [lba], 0, false, false, 0, 0, 0, .none, [], none⟩
def withCmd (c : Cmd) (s : State) : State := s.updHost (fun h => { h with cmds := [c] })
def isAnswered (t : State) (c : Cmd) (status : Nat) (dw0 : Word := 0) : Bool :=
  (t.cmd c.slot).isNone && t.out.contains (.cqe (if c.admin then 0 else 1) c.sq 0 c.sqe.cid status dw0 0)
def kept (s t : State) : Bool := decide (t.acts = s.acts ∧ t.loops = s.loops ∧ t.husk = s.husk ∧ t.mem = s.mem)
def feat (fid v : Nat) : State := withCmd (adm 9 1 fid v) ready
def q0 : Cq := ⟨0, 64, 0, true, 0, 0, 0⟩
def q1 : Cq := ⟨1, 16, 1, true, 0, 0, 0⟩

set_option synthInstance.maxSize 10000 in
set_option synthInstance.maxHeartbeats 2000000 in
theorem test_controller :
    let on := withCmd (adm 8 0 0 0) ready
    let s := base.updHost (fun h => { h with aqa := 0x001F001F })
    let p := withCmd ({ adm 6 0 1 0 with hold := .posting, begun := true, status := 7 }) ready
    let k := ready.updHost (fun h => { h with cqs := [q0, { q1 with count := 2 }] })
    let km := k.updHost (fun h => { h with msix := [(7, 0)] })
    let t := run s (.controllerEnable 0x00460001)
    let d := run ready (.submissionQueueTailDoorbell 1 3)
    s.host.cc.getLsbD 0 = false ∧ s.host.rdy = false ∧ s.culmReleased = true ∧ on.host.cc.getLsbD 0 = true ∧ ready.sq 1 = some ⟨1, 16, 1, 1, 0, 1⟩ ∧ ready.cq 1 = some q1 ∧ ready.host.rdy = true ∧ p.host.cmds = [{ adm 6 0 1 0 with hold := .posting, begun := true, status := 7 }] ∧ Cq.full { q0 with head := 2 } = false ∧
    k.host.cqs.any (fun q => q.vec == 1 && q.irq && q.count != 0) = true ∧ k.msixMasked 1 = true ∧ km.msixMasked 1 = false ∧ base.host.cqs.any (fun q => q.vec == 1 && q.irq && q.count != 0) = false ∧
    s.fileOk ∧ on.fileOk ∧
    t.host.rdy = true ∧ t.host.cc = 0x00460001 ∧ t.sq 0 = some ⟨0, 32, 0, 0, 0, 0⟩ ∧ t.cq 0 = some ⟨0, 32, 0, true, 0, 0, 0⟩ ∧
    d.sq 1 = some ⟨1, 16, 1, 1, 0, 3⟩ ∧ d.sq 0 = ready.sq 0 := by decide +kernel
theorem test_admission :
    let s := ready
    let u := s.updHost (fun h => { h with sqs := [⟨0, 64, 0, 0, 0, 0⟩, ⟨1, 16, 1, 1, 0, 1⟩] })
    let e := (adm 6 0 1 0).sqe
    let b := (adm 0x55 0 1 0).sqe
    let w := (usr 1 2 10).sqe
    let rd := (usr 2 2 10).sqe
    let f := { u with cfg := some { cfgW with queue := ⟨16, 17, 65536, 0, 64⟩ } }
    s.host.rdy = true ∧ s.host.shst = 0 ∧ s.rdN Reg.status_CUR_PS 0 < 3 ∧ (s.arbitrate 0).map (fun x => (x.1.id, x.2.sqs == s.host.sqs)) = some (0, true) ∧ (u.arbitrate 0).map (fun x => (x.1.id, x.2.cmds, x.2.sqs == u.host.sqs)) = some (1, [], true) ∧ s.adminCheck e = 0 ∧ s.adminCheck b ≠ 0 ∧ u.ioCheck w = 0 ∧ u.ioCheck rd = 0 ∧
    s.slotPool true false = some 1 ∧ u.slotPool false false = some 0 ∧ f.slotPool false false = none ∧ (s.led 0).lost = [] ∧
    s.fileOk ∧ s.bindsOk := by decide +kernel
set_option synthInstance.maxSize 10000 in
set_option synthInstance.maxHeartbeats 2000000 in
theorem test_queue_commands :
    let c1 := adm 1 0 0x000F0002 0x00010001
    let c5 := adm 5 0 0x000F0002 0x00020003
    let c4 := adm 4 0 1 0
    let c0 := adm 0 0 1 0
    let free := ready.updHost (fun h => { h with sqs := [⟨0, 64, 0, 0, 0, 1⟩] })
    (withCmd c1 ready).unbegun 0 true 1 c1 ∧ (withCmd c1 ready).cqRoom c1 q0 ∧ (withCmd c5 ready).unbegun 0 true 5 c5 ∧ (withCmd c4 ready).unbegun 0 true 4 c4 ∧ (withCmd c0 ready).unbegun 0 true 0 c0 ∧
    2 ≤ cfgW.queue.ioqMax ∧ 2 < cfgW.queue.msixMax ∧ cfgW.queue.msixMax ≤ 64 ∧ ready.sq 2 = none ∧ ready.cq 2 = none ∧ (ready.sq 1).isSome = true ∧ (free.cq 1).isSome = true ∧ (∀ x ∈ free.host.sqs, x.cq ≠ 1) ∧ ∀ x ∈ (withCmd c0 ready).host.cmds, x.sq ≠ 1 := by decide +kernel
set_option synthInstance.maxSize 10000 in
set_option synthInstance.maxHeartbeats 2000000 in
theorem test_features :
    let g := fun (f : Nat) => withCmd (adm 10 1 f 0) ready
    [1, 2, 4, 5, 6, 7, 8, 9, 0xB, 0xC, 0xE].all (fun f => decide ((feat f 0).unbegun 0 true 9 (adm 9 1 f 0))) = true ∧
    (feat 1 0x04030201).unbegun 0 true 9 (adm 9 1 1 0x04030201) ∧ (feat 1 0).cqRoom (adm 9 1 1 0) q0 ∧ (feat 2 1).rdN Reg.status_CUR_PS 0 < 3 ∧ (feat 5 9).nsActive 1 = true ∧ 3 < cfgW.queue.msixMax ∧ (g 8).unbegun 0 true 0xA (adm 10 1 8 0) ∧
    (feat 1 0).fileOk := by decide +kernel
set_option synthInstance.maxSize 10000 in
set_option synthInstance.maxHeartbeats 2000000 in
theorem test_aborts :
    let c := adm 8 0 0x00090001 0
    let v := { usr 2 2 10 with begun := true }
    let s := ready.updHost (fun h => { h with cmds := [c, v] })
    let n := withCmd c ready
    let a := withCmd { v with aborted := true, status := stAbort } ready
    let r := withCmd (adm 12 0 0 0) ready
    let w := r.updHost (fun h => { h with aerWait := [(1, 2, 3)] })
    let d := withCmd v ready
    s.unbegun 0 true 8 c ∧ s.cqRoom c q0 ∧ (s.host.cmds.find? (fun x => x.sq == 1 && x.sqe.cid == 9 && !x.admin && x.open)) = some v ∧ v.act < 64 ∧ n.unbegun 0 true 8 c ∧ a.cmd 5 = some { v with aborted := true, status := stAbort } ∧ a.cqRoom v q1 ∧
    r.unbegun 0 true 12 (adm 12 0 0 0) ∧ r.host.aerWait = [] ∧ w.host.aerMasked.contains (1, 2) = false ∧ d.cmd 5 = some v ∧ v.open = true ∧
    s.fileOk ∧ s.bindsOk := by decide +kernel
set_option synthInstance.maxSize 10000 in
set_option synthInstance.maxHeartbeats 2000000 in
theorem test_user_data :
    let w := usr 1 2 10
    let z := usr 8 2 10
    let rd := usr 2 2 10
    let vf := usr 12 2 10
    let fl := (fun (gs : List (Nat × Bool × Nat × Nat)) => { usr 0 2 0 with left := [], hold := .flush [] gs })
    let ap := usr 0x7D 1 0
    let inq := (fun (c : Cmd) => (withCmd c ready).updAct 0 (fun a => { a with mq := [{ mqRead with slot := 5, nsConv := true, lba := 10, count := 1, stamp := 2 }] }))
    let bw := { w with begun := true, room := 1 }
    let b := (withCmd bw ready).updHost (fun h => { h with places := [⟨0, true, 10, 2, 5, 0⟩] })
    let lost := (fun (c : Cmd) => (withCmd c ready).updAct 0 (fun a => { a with led := { a.led with lost := [⟨true, 8, 4, 0, 0, 0⟩] } }))
    let ht := ({ Tag.zero with nsConv := true, lba := 10, len := 4096 } : Tag)
    let held := (fun (c : Cmd) => ({ (withCmd c ready).putGrain idThresher 6 0 ht (List.replicate 4096 4) with cache := [⟨ht, 0⟩] } : State))
    let old := ({ withCmd (fl [(0, true, 3, 1)]) ready with buf := [⟨{ Tag.zero with nsConv := true, lba := 3, stamp := 1 }, 0, true, false, false⟩] } : State)
    (withCmd w ready).unbegun 5 false 1 w ∧ (withCmd ap ready).unbegun 5 false 0x7D ap ∧ (withCmd z ready).unbegun 5 false 8 z ∧ (withCmd rd ready).unbegun 5 false 2 rd ∧ (withCmd vf ready).unbegun 5 false 12 vf ∧ (withCmd (fl []) ready).unbegun 5 false 0 (fl []) ∧
    (withCmd w ready).cqRoom w q1 ∧ (inq rd).inMedia rd 10 = true ∧ (inq vf).inMedia vf 10 = true ∧ (inq rd).isLost 0 true 10 = false ∧ (lost rd).isLost 0 true 10 = true ∧ (held rd).inMedia rd 10 = false ∧ w.writes = true ∧ (ready.act 0).holdExpired = false ∧ nsIsConv 2 = true ∧
    ready.bufCap < 2 ^ 32 ∧ b.cmd 5 = some bw ∧ b.rdN Reg.zone_CLEAN 0 = 0 ∧ bw.left = [10] ∧ bw.room ≠ 0 ∧ bw.lba ≤ 10 ∧
    (withCmd (fl []) ready).buf = [] ∧ ∀ n : Fin 64, (withCmd (fl []) ready).gensDue n [1, 2] = [] ∧
    old.unbegun 5 false 0 (fl [(0, true, 3, 1)]) ∧ ∃ g ∈ old.buf, g.written = false ∧ (g.tag.act, g.tag.nsConv, g.tag.lba, g.tag.stamp) ∈ [(0, true, 3, 1)] ∧
    (withCmd w ready).fileOk ∧ (withCmd w ready).bindsOk := by decide +kernel
set_option synthInstance.maxSize 10000 in
set_option synthInstance.maxHeartbeats 2000000 in
theorem test_pages :
    let i := adm 6 0 2 0
    let x := adm 6 0 0xFF 0
    let l := adm 2 0 0x000F8004 0
    let lx := adm 2 0 0x000F80EE 0
    let f := adm 0x11 0 0 1
    let k := adm 0x10 0 9 0
    let ms := adm 0x1D 0 0 0
    let mr := adm 0x1E 0 0 0
    let hl := (withCmd k ready).updHusk (fun h => { h with halted := true })
    let r := (withCmd mr ready).updHost (fun h => { h with miResp := some [1, 2] })
    (withCmd i ready).unbegun 0 true 6 i ∧ (withCmd i ready).cqRoom i q0 ∧ (ready.identifyData i.sqe).isSome = true ∧ ready.identifyData x.sqe = none ∧ (withCmd l ready).unbegun 0 true 2 l ∧ (ready.logPage l.sqe).isLeft = true ∧ (ready.logPage lx.sqe).isRight = true ∧ l.sqe.cdw10.getLsbD 15 = true ∧
    (withCmd f ready).unbegun 0 true 0x11 f ∧ hl.husk.halted = true ∧ (withCmd k ready).unbegun 0 true 0x10 k ∧ (withCmd ms ready).unbegun 0 true 0x1D ms ∧ r.unbegun 0 true 0x1E mr := by decide +kernel
/-- Wherever in its half of partition 4 an object is staged, eight bytes fit (the second hypothesis of a download). -/
theorem test_staging_fits : ready.inPart 4 (ready.imageBase + 4) 4 = true := by
  have h : ready.str.part 4 = some ⟨4, 0, 64, 256⟩ := by decide +kernel
  simp only [State.inPart, State.imageBase, h, PartRec.stop, PartRec.base, Bool.and_eq_true, decide_eq_true_eq]
  omega

set_option synthInstance.maxSize 10000 in
set_option synthInstance.maxHeartbeats 2000000 in
theorem test_namespaces :
    let cr := adm 0x0D 0 0 0
    let de := adm 0x0D 2 1 0
    let at_ := adm 0x15 2 0 0
    let dt := adm 0x15 2 1 0
    let te := adm 0x14 1 1 0
    let tx := adm 0x14 1 15 0
    let gone := (withCmd cr ready).updHost (fun h => { h with created := 0 })
    let una := (withCmd at_ ready).updHost (fun h => { h with attached := 0 })
    let busy := fun (c : Cmd) => (withCmd c ready).updHost (fun h => { h with test := ⟨some (true, [0]), []⟩ })
    gone.unbegun 0 true 0x0D cr ∧ gone.actExists 0 = true ∧ gone.sideDesc 0 = some side ∧ side.convLbas ≠ 0 ∧ gone.host.created.getLsbD 0 = false ∧ (withCmd de ready).unbegun 0 true 0x0D de ∧ (withCmd de ready).nsExists 2 = true ∧ nsIsConv 2 = true ∧ (ready.led 0).remap = [] ∧ (ready.led 0).lost = [] ∧ (ready.led 0).staged.length = 4 ∧
    una.unbegun 0 true 0x15 at_ ∧ una.nsExists 2 = true ∧ una.host.attached.getLsbD 1 = false ∧ (withCmd dt ready).unbegun 0 true 0x15 dt ∧ (withCmd dt ready).host.attached.getLsbD 1 = true ∧ (withCmd te ready).unbegun 0 true 0x14 te ∧ (withCmd te ready).nsActive 1 = true ∧ (withCmd te ready).host.test.running = none ∧ (busy tx).unbegun 0 true 0x14 tx ∧ nsIsConv 1 = false ∧ (withCmd (adm 0x0D 1 1 0) ready).nsExists 1 = true ∧
    gone.fileOk := by decide +kernel


/-! ### 14 -/

/-- A user command that acts on zones: DW10 of LBA, DW12, DW13. -/
def zcm (opc lba d12 d13 : Nat) : Cmd := { usr opc 1 lba with left := [], count := 1, sqe := { (usr opc 1 lba).sqe with cdw12 := BitVec.ofNat 32 d12, cdw13 := BitVec.ofNat 32 d13 } }
/-- Zone 1 in a condition; the command in its slot. -/
def zoned (cond : ZCond) (hwp zsa : Nat) : State :=
  (withCmd (zcm 0x79 65536 0 zsa) ready).updAct 0 (fun a => { a with led := { a.led with zones := [(1, ⟨cond, hwp, hwp, 3, 3, 65536, false, 1⟩)] } })
def prog0 (action : Nat) : Progress := ⟨action, 1, false, false, if action = 3 then 1 else 0, 0, 0, 1, 1, 0, 0, if action = 2 then 1 else 100, 0, 0, 0⟩
def progressing (action status : Nat) (run : Option Nat) : State :=
  (ready.updAct 0 (fun a => { a with led := { a.led with progress := some { prog0 action with status := status } } })).updHost (fun h => { h with sanRun := run })

set_option synthInstance.maxSize 10000 in
set_option synthInstance.maxHeartbeats 2000000 in
theorem test_zones :
    let o := fun (z : Nat) => zoned .explicit 5 z
    let f := fun (z : Nat) => zoned .full 65536 z
    let e := fun (z : Nat) => zoned .empty 0 z
    let older := (o 4).updAct 0 (fun a => { a with mq := [{ mqRead with lba := 65536, stamp := 1 }] })
    let lim := (zoned .empty 0 3).updAct 0 (fun a => { a with led := { a.led with zones := (1, ⟨.empty, 0, 0, 3, 3, 65536, false, 1⟩) :: (List.range 256).map (fun i => (i + 2, ⟨.closed, 1, 1, 3, 3, 65536, false, 1⟩)) } })
    let rp := withCmd (zcm 0x7A 0 0xFF 0x10000) (o 0)
    let rx := withCmd (zcm 0x7A 0 0xFF 1) (o 0)
    (o 1).unbegun 5 false 0x79 (zcm 0x79 65536 0 1) ∧ (o 1).cqRoom (zcm 0x79 65536 0 1) q1 ∧ zoneOf (sqeLba (zcm 0x79 65536 0 1).sqe) = 1 ∧ ((o 1).zone 0 1).cond.active = true ∧ ((e 1).zone 0 1).cond.active = false ∧ ((f 2).zone 0 1).cond = .full ∧
    (e 3).openLimit 0 1 = 0 ∧ ((e 3).openZones 0).length < 128 ∧ lim.openLimit 0 1 ≠ 0 ∧ older.zoneOlder 0 1 2 = true ∧ (o 4).zoneOlder 0 1 2 = false ∧ ((o 4).led 0).remap = [] ∧ ((o 4).led 0).lost = [] ∧ ((o 4).led 0).staged.length = 4 ∧
    rp.unbegun 5 false 0x7A (zcm 0x7A 0 0xFF 0x10000) ∧ rp.sideDesc 0 = some side ∧ rx.unbegun 5 false 0x7A (zcm 0x7A 0 0xFF 1) ∧
    (o 1).fileOk ∧ (o 1).bindsOk := by decide +kernel
set_option synthInstance.maxSize 10000 in
set_option synthInstance.maxHeartbeats 2000000 in
theorem test_sanitize :
    let c := fun (v : Nat) => adm 0x84 0 v 0
    let s := fun (v : Nat) => withCmd (c v) ready
    let fm := withCmd (c 3) (progressing 3 1 none)
    let hl := ready.updHusk (fun h => { h with halted := true })
    let nf := withCmd (adm 0x80 2 0 0) ready
    let nx := withCmd (adm 0x80 2 1 0) ready
    let ny := withCmd (adm 0x80 2 0x10 0) ready
    let ni := withCmd (adm 0x80 0x41 0 0) ready
    let bz := withCmd (adm 0x80 2 0 0) (progressing 3 1 none)
    let one := progressing 1 1 (some 1)
    let two := progressing 2 1 (some 2)
    (s 3).unbegun 0 true 0x84 (c 3) ∧ (s 3).cqRoom (c 3) q0 ∧ (s 3).husk.halted = false ∧ (∀ n ∈ (s 3).liveActs, (s 3).formatting (zonedNs n) = false ∧ (s 3).formatting (convNs n) = false) ∧ (∃ n ∈ fm.liveActs, fm.formatting (zonedNs n) = true) ∧
    hl.husk.halted = true ∧ (one.led 0).progress = some (prog0 1) ∧ one.sideDesc 0 = some side ∧ one.up (hdaOf 0) = true ∧ (prog0 1).total ≠ 0 ∧ (side.nextUnit (prog0 1)).done < 100 ∧ (two.led 0).progress = some (prog0 2) ∧ (two.led 0).remap = [] ∧ (two.led 0).lost = [] ∧ one.actExists 0 = true ∧ (base.led 0).progress = none ∧
    nf.unbegun 0 true 0x80 (adm 0x80 2 0 0) ∧ nf.formatting (zonedNs 0) = false ∧ nf.formatting (convNs 0) = false ∧ nf.nsActive 2 = true ∧ nf.nsReady 2 = true ∧ (nf.led 0).staged.length = 4 ∧ nx.unbegun 0 true 0x80 (adm 0x80 2 1 0) ∧ ny.unbegun 0 true 0x80 (adm 0x80 2 0x10 0) ∧ 0x10 / 16 % 32 ≠ 0 ∧ ni.nsActive 0x41 = false ∧ bz.formatting (zonedNs 0) = true ∧
    (s 3).fileOk ∧ (s 3).bindsOk := by decide +kernel


/-! ### 15 -/

/-- Slot 0 names operation `op` over `n` lines from 2 MiB above the start of DDR, in partition 7. -/
def ranged (op n : Nat) : State := regsW base [(Reg.slot_OP, 0, 0, op), (Reg.slot_LINES, 0, 0, n), (Reg.slot_BASE_LO, 0, 0, (ddrBase + 0x1C200000) / 128 % 33554432), (Reg.slot_BASE_HI, 0, 0, (ddrBase + 0x1C200000) / 4294967296), (Reg.slot_OWNER, 0, 0, 0x10), (Reg.gran_LOCK_BUDGET, 0, 0, 8)]
def rline : Nat := (ddrBase + 0x1C200000) / 128
def gl (dirty lock : Bool) : GLine := ⟨rline, 0, 0, true, dirty, lock, false, List.replicate 128 0⟩
def turn (op : Nat) (lines : List GLine) (done : Bool) : State := (ranged op 1).updGran (fun g => { g with queue := [0], lines := lines, ranDone := done })
def okObs : MemObs := ⟨0, .clean, .clean, false, false⟩

theorem test_ranges :
    let s := ranged 1 4
    let b := regsW s [(Reg.slot_BUSY, 0, 0, 1)]
    s.may culm (Reg.slot_GO.addr 0 0) true ∧ s.slotBase 0 / 128 = rline ∧ s.slotBase 0 + 128 * 4 ≤ ddrBase + s.installed ∧ ddrBase ≤ s.slotBase 0 ∧ s.rdB Reg.slot_BUSY 0 = false ∧ b.rdB Reg.slot_BUSY 0 = true ∧
    (turn 1 [] false).mayRange ((turn 1 [] false).rdN Reg.slot_OWNER 0) rline = true ∧ 1 ≤ (turn 4 [] false).rdN Reg.gran_LOCK_BUDGET 0 ∧ (turn 1 [] false).gran.queue.head? = some 0 ∧ base.gran.queue.head? ≠ some 0 ∧
    s.fileOk := by decide +kernel
/-- Below DDR, Husk's private SRAM takes and gives bytes; its ROM takes none. -/
theorem test_husk_memory :
    let w := (0 : Initiator)
    let a := BitVec.ofNat 48 0x100010
    let r := BitVec.ofNat 48 0x100
    base.memAcc w.toNat true a.toNat true = .ok ∧ base.memAcc w.toNat true a.toNat false = .ok ∧ inSram a.toNat = true ∧ 128 * (a.toNat / 128) < ddrBase ∧ w.toNat ≠ idHost ∧ isSecure w.toNat = true ∧ carriesSec w.toNat = false ∧
    base.memAcc w.toNat true r.toNat true = .ok ∧ inSram r.toNat = false ∧ base.memAcc culm.toNat false a.toNat true ≠ .ok := by decide +kernel
theorem test_memory :
    let a := BitVec.ofNat 48 (128 * rline + 8)
    let hit := base.updGran (fun g => { g with lines := [gl false false], glean := [rline + 1] })
    let s := regsW base [(Reg.ddrCh_SCRUB_EN, 0, 0, 1), (Reg.ddrCh_DIMMS, 0, 0, 1)]
    let n := regsW base [(Reg.ddrCh_SCRUB_EN, 0, 0, 0)]
    let far := BitVec.ofNat 48 (128 * rline + 0x70000000000)
    base.memAcc culm.toNat false a.toNat false = .ok ∧ base.memAcc culm.toNat false a.toNat true = .ok ∧ carriesSec culm.toNat = false ∧ isSecure culm.toNat = false ∧ culm.toNat ≠ idHost ∧ (hit.gline rline).isSome = true ∧ base.gline rline = none ∧ rline + 1 ∈ hit.gran.glean ∧
    base.flt.armed = [] ∧ base.flt.injected = [] ∧ ddrBase ≤ a.toNat ∧ rline ∉ base.gran.poison ∧ a.toNat % 128 + 4 ≤ 128 ∧ rline ∉ base.gran.glean ∧
    base.memAcc culm.toNat false far.toNat false = .viol true ∨ base.memAcc culm.toNat false far.toNat false = .viol false ∧
    s.rdB Reg.ddrCh_SCRUB_EN 0 = true ∧ 4 < s.installed / 128 ∧ s.rdN Reg.status_CUR_PS 0 ≠ 4 ∧ n.rdB Reg.ddrCh_SCRUB_EN 0 = false ∧ 1 ≤ s.rdN Reg.ddrCh_DIMMS 0 := by decide +kernel


/-! ### 16 and 17 -/

def round0 : RoundObs := ⟨List.replicate 16 8000, List.replicate 8 0, [], false⟩
def run4 (n item phase : Nat) (counted : Bool) : CalRun := ⟨n, item, phase, 0, counted, false, [], [], (0, 0, 0), 0, 0, false, false, 0, (0, 0, 0), [], [], []⟩

theorem test_rounds :
    let r : ThermRec := { ThermRec.default with dimmRef := 77 }
    let s := base.updHusk (fun k => { k with liveTherm := [r] })
    s.locked = true ∧ s.alm.us64.toNat + 1000 < 2 ^ 64 ∧ s.alm.usec < hourUs ∧ s.host.cmds = [] ∧ s.thm.runs = [] ∧ State.reset.locked = false ∧
    (∀ i : Fin 16, s.rdAt Reg.therm_SENS_FAIL 0 i = 0 ∧ 4000 ≤ round0.counts.getD i 0 ∧ round0.counts.getD i 0 ≤ 12000) ∧ ∀ i j : Fin 16, (s.sensTemp i 8000 - s.sensTemp j 8000).natAbs ≤ 240 ∧
    s.fileOk ∧ s.bindsOk := by decide +kernel
theorem test_calibration :
    let a := ({ base with thm := { base.thm with runs := [run4 0 4 0 true] } } : State)
    let b := ({ base with thm := { base.thm with runs := [run4 0 4 1 true] } } : State)
    let x := base.updAct 0 (fun y => { y with xslot := true })
    base.may culm (Reg.thermAct_CAL_REQ.addr 0 0) true ∧ base.actExists 0 = true ∧ base.actExists 40 = false ∧ base.may culm (Reg.thermAct_CAL_REQ.addr 40 0) true ∧ base.may culm (Reg.therm_CAL_REQ_C.addr 0 0) true ∧ (x.act 0).xslot = true ∧ (x.act 0).op = none ∧ (base.act 0).xslot = false ∧
    a.thm.runs.find? (fun y => y.act == 0 && y.item == 4) = some (run4 0 4 0 true) ∧ b.thm.runs.find? (fun y => y.act == 0 && y.item == 4) = some (run4 0 4 1 true) := by decide +kernel


/-- Fault 0x0303 of DDR channel 0 in force; latched or not. -/
def faulted (latch : Nat) : State := (regsW base [(Reg.flt_FLT_ACT, 2, 0, 8), (Reg.flt_FLT_STAT, 2, 0, 8), (Reg.flt_FLT_LATCH, 2, 0, latch)]).updFlt (fun f => { f with active := [⟨0x0303, 0, 0, 0, 1⟩] })
/-- A reaction of 2 on actuator 0. -/
def reacted : State := base.updFlt (fun f => { f with active := [⟨0x0601, 0, 1, 0, 2⟩] })

theorem test_faults :
    let h := base.updAct 0 (fun a => { a with holding := true })
    base.host.cmds = [] ∧ faultKnown 0x0303 0 = true ∧ faultKnown 0x0399 0 = false ∧ base.reactOf 0x0303 ≤ 1 ∧ (faulted 0).absent 0x0303 0 = true ∧ (faulted 0).rdBit Reg.flt_FLT_LATCH 2 3 = false ∧ (faulted 8).rdBit Reg.flt_FLT_LATCH 2 3 = true ∧ 2 ≤ reacted.reactAct 0 ∧ base.reactAct 0 < 2 ∧ (h.act 0).holding = true ∧ (base.act 0).holding = false ∧
    base.fileOk ∧ (faulted 8).fileOk := by decide +kernel
/-- A fault that arises for the gate of an armed frame closes it. -/
theorem test_gate_fault :
    let s := (regsW base [(Reg.wa_WINDOW, 0, 0, 1)]).updAct 0 (fun a => { a with win := some winA, armed := some 80 })
    s.fileOk ∧ s.bindsOk ∧ (s.act 0).armed.isSome = true ∧ s.gateFault 0 = false ∧ s.reactOf 0x0701 ≤ 1 ∧ faultKnown 0x0701 0 = true := by decide +kernel
theorem test_fault_registers :
    let s := regsW base [(Reg.flt_FLT_STAT, 2, 0, 0xF), (Reg.flt_FLT_ACT, 2, 0, 1), (Reg.flt_FLT_LATCH, 2, 0, 2)]
    let p := base.updFlt (fun f => { f with wdPend := 0xF })
    let q := regsW p [(Reg.flt_FLT_ACT, 168, 0, 2)]
    s.may culm (fltAddr 2) true ∧ p.may culm (fltAddr 168 + 0x40) true ∧ base.may culm (fltAddr 2 + 0x40) true ∧ q.rdBit Reg.flt_FLT_ACT 168 1 = true ∧ p.rdBit Reg.flt_FLT_ACT 168 1 = false ∧ injAddr 2 .injArm = some (fltAddr 2 + 0x1C) ∧ base.may culm (fltAddr 2 + 0x1C) true ∧ injAddr 1 .tagInj = some (Reg.gran_TAG_INJ.addr 0 0) ∧ base.may culm (Reg.gran_TAG_INJ.addr 0 0) true ∧ hasChecker 1 2 = true ∧ hasChecker 2 0 = false ∧
    s.fileOk := by decide +kernel
theorem test_disabling :
    let s2 := regsW base [(Reg.dis_STATE, 0, 0, 2)]
    let s1 := regsW base [(Reg.dis_STATE, 0, 0, 1)]
    let k := ({ base with buf := [⟨{ Tag.zero with lba := 3 }, 0, true, false, false⟩] } : State)
    let u := ({ base with buf := [⟨{ Tag.zero with lba := 3 }, 0, false, false, false⟩] } : State)
    let away := regsW base [(Reg.port_STATE, 0, 0, 9)]
    base.may culm (Reg.dis_DIS.addr 0 0) true ∧ base.may culm (Reg.dis_EN.addr 0 0) true ∧ k.ackGrains 0 ≠ 0 ∧ u.ackGrains 0 = 0 ∧ base.rdN Reg.dis_STATE 0 = 0 ∧ s1.rdN Reg.dis_STATE 0 = 1 ∧ s2.rdN Reg.dis_STATE 0 = 2 ∧ base.bound 0 = true ∧ base.up 0 = true ∧ away.up 0 = false ∧ 2 ≤ reacted.reactAct 0 ∧ base.host.cmds = [] := by decide +kernel


/-! ### 18 -/

def rec0 (seq : Nat) : Rec := ⟨seq, 1, 0, 0, 17, .disable, 0, 0, []⟩
def recorded (l : List Nat) : State := ({ base with alm := { base.alm with audit := l.map rec0, auditLast := 7, norNext := 6 } } : State)

theorem test_records :
    let r := recorded [7]
    let x := ({ base with cfg := some { cfgW with alm := { cfgW.alm with traceSrc := 0 } } } : State)
    let full := ({ base with alm := { base.alm with puts := 1000 } } : State)
    base.may culm (windowBase 0x11 + 0x200A4) true ∧ base.may agent (windowBase 0x11 + 0x200A4) true ∧ isCulm agent.toNat = false ∧ isCulm culm.toNat = true ∧ base.str.alm.traceSrc.testBit 10 = true ∧ 0 < base.str.alm.traceMib ∧ (base.str.part 2).isSome = true ∧ x.str.alm.traceSrc.testBit 10 = false ∧
    base.alm.putSecond = base.alm.us64.toNat / 1000000 ∧ r.locked = true ∧ r.husk.halted = false ∧ r.alm.audit = [rec0 7] ∧ r.alm.norNext ≤ (rec0 7).seq ∧ full.alm.puts = 1000 ∧
    base.fileOk := by decide +kernel
theorem test_snapshots :
    let s := recorded [6, 7]
    let o := run s (.snapshotOpen 1 culm false)
    s.may culm (windowBase 0x11 + 0x20000 + 0x100) true ∧ s.may culm (windowBase 0x11 + 0x20000 + 0x300) true ∧ (s.snap 1).isOpen = false ∧ s.alm.audit.length ≤ s.auditCap ∧ s.alm.audit = [rec0 6, rec0 7] ∧
    (o.snap 1).isOpen = true ∧ (o.snap 1).first = 6 ∧ (o.snap 1).last = 7 := by decide +kernel


/-! ### 19 -/

/-- Role, and the fabric's other state. -/
def fab (role : Nat) (f : OrrSt → OrrSt) : State := regsW ({ base with orr := f { base.orr with stage := 3 } } : State)
  [(Reg.orr_ROLE, 0, 0, role), (Reg.orr_MEMBER_ID, 0, 0, 4), (Reg.orr_MGR_ID, 0, 0, if role = 3 then 4 else 9), (Reg.orr_MGR_EPOCH, 0, 0, 2), (Reg.orr_RACK_BUDGET, 0, 0, 1000), (Reg.orr_RACK_MARGIN, 0, 0, 0), (Reg.orr_PORT_UP, 0, 0, 1)]
/-- A message of type typ from member 5 with serial 55, to all. -/
def oh (typ epoch : Nat) (body : List Byte) : OrrHdr :=
  ⟨BitVec.ofNat 32 orrMagic, 1, BitVec.ofNat 16 (36 + body.length), 5, 0xFFFF, BitVec.ofNat 32 epoch, 10, 55,
    BitVec.ofNat 32 (crc32c (orrHead orrMagic 1 typ (36 + body.length) 5 0xFFFF epoch 10 55 body))⟩
def hbB : List Byte := heartbeatBody 4 1000 0 2
def reqB (w : Nat) : List Byte := tokenReqBody 1 true 0 w
def hb : HeartbeatMsg := ⟨4, 1000, 0, 2⟩
def mem5 : Member := ⟨5, 55, true, 1, 3, 0, [], false⟩
def ask5 (w : Nat) : TokenReqMsg := ⟨1, true, 0, BitVec.ofNat 32 w⟩

set_option synthInstance.maxSize 10000 in
set_option synthInstance.maxHeartbeats 2000000 in
theorem test_election :
    let one := regsW (fab 1 (fun o => { o with stage := 1 })) [(Reg.orr_ROLE_SRC, 0, 0, 2)]
    let not_ := regsW (fab 1 (fun o => { o with stage := 1 })) [(Reg.orr_ROLE_SRC, 0, 0, 1)]
    let two := fab 0 (fun o => { o with stage := 2, hiEpoch := 6 })
    let beat := fab 0 (fun o => { o with stage := 2, claims := [(200, 3)] })
    let m := fab 3 (fun o => { o with members := [{ mem5 with id := 0, serial := 9 }], queue := [⟨0, 1, true, 0, 5, false⟩] })
    let p := fab 0 (fun o => { o with joinPend := true, stage := 3 })
    let j := fab 1 (fun o => { o with joinFull := true })
    let rq := fab 1 (fun o => { o with reqs := [⟨4, 1, true, 0, 9, false⟩], returns := [8] })
    one.orr.stage = 1 ∧ one.eligible = true ∧ not_.eligible = false ∧ beat.orr.claims.any (fun c => ranks c.1 c.2 (beat.rdN Reg.orr_PRIO 0) beat.husk.serial.toNat) = true ∧ two.orr.claims = [] ∧ one.orrHears (oh 2 3 (claimBody 7)) 2 (claimBody 7) true ∧ one.orrHears (oh 1 3 hbB) 1 hbB true ∧ m.isManager = true ∧ m.rdN Reg.orr_MGR_EPOCH 0 < 3 ∧ m.orr.stage = 3 ∧ m.orrHears (oh 1 3 hbB) 1 hbB true ∧ m.orrHears (oh 1 1 hbB) 1 hbB true ∧ m.orrHears (oh 3 3 (joinBody true 2 3)) 3 (joinBody true 2 3) true ∧ j.orrHears (oh 3 3 (joinBody true 2 3)) 3 (joinBody true 2 3) true ∧
    (∀ x ∈ m.orr.members, x.serial ≠ (oh 1 3 []).serial.toNat) ∧ (∀ x ∈ m.orr.members, x.id ≠ 1) ∧ (∃ x ∈ m.orr.members, x.id = 0) ∧ p.orrHears (oh 4 3 (joinAckBody 12 0)) 4 (joinAckBody 12 0) false ∧ p.orrHears (oh 4 3 (joinAckBody 12 1)) 4 (joinAckBody 12 1) false ∧ p.orr.joinPend = true ∧ p.hasManager = false ∧ rq.hasManager = true ∧ rq.memberId ≠ noMember ∧ j.orr.joinFull = true ∧ base.isManager = false ∧ base.orr.joinPend = false ∧ base.hasManager = false ∧
    m.fileOk := by decide +kernel
theorem test_takeover :
    let one := fab 1 (fun o => o)
    let two := fab 2 (fun o => o)
    let hold := fab 3 (fun o => { o with holdGrants := true })
    let m := fab 3 (fun o => { o with members := [{ mem5 with absent := true }, { mem5 with id := 6 }] })
    one.orr.mgrLost = false ∧ one.rdN Reg.orr_ROLE 0 = 1 ∧ two.rdN Reg.orr_ROLE 0 = 2 ∧ hold.orr.holdGrants = true ∧ hold.orr.queue = [] ∧ m.isManager = true ∧ 5 ≠ m.memberId ∧ (∃ x ∈ m.orr.members, x.id = 5 ∧ x.absent = true) := by decide +kernel
set_option synthInstance.maxSize 10000 in
set_option synthInstance.maxHeartbeats 2000000 in
theorem test_tokens :
    let m := fab 3 (fun o => { o with members := [mem5] })
    let g := fab 3 (fun o => { o with members := [{ mem5 with tokens := [⟨1, 3, true, 7⟩] }] })
    let d := fab 1 (fun o => { o with reqs := [⟨4, 1, true, 0, 9, false⟩], returns := [8] })
    let n := fab 1 (fun o => o)
    let e := fab 3 (fun o => o)
    m.orrHears (oh 0x10 2 (reqB 1000)) 0x10 (reqB 1000) false ∧ m.orrHears (oh 0x10 2 (reqB 501)) 0x10 (reqB 501) false ∧ g.orrHears (oh 0x10 2 (reqB 9)) 0x10 (reqB 9) false ∧ m.orr.holdGrants = false ∧ m.orr.queue = [] ∧ 501 ≤ m.rackLimit ∧ m.orrHears (oh 0x20 2 (drawBody 77 80 0 1)) 0x20 (drawBody 77 80 0 1) false ∧ e.orrHears (oh 0x14 2 (tokenStateBody [(3, 9)])) 0x14 (tokenStateBody [(3, 9)]) false ∧ e.isManager = true ∧ e.orr.members = [] ∧ g.orrHears (oh 0x12 2 (tokenReturnBody 3)) 0x12 (tokenReturnBody 3) false ∧ m.isManager = true ∧ m.orr.members = [mem5] ∧ mem5.id = (oh 0 2 []).srcId.toNat ∧ mem5.id ≠ m.memberId ∧ mem5.commit + 1000 ≤ m.rackLimit ∧ m.rackLimit < ({ mem5 with steady := 500 } : Member).commit + 501 ∧
    d.orrHears (oh 0x11 2 (tokenGrantBody 1 3 9)) 0x11 (tokenGrantBody 1 3 9) false ∧ d.orrHears (oh 0x12 2 (tokenReturnBody 3)) 0x12 (tokenReturnBody 3) false ∧ d.orrHears (oh 0x13 2 (tokenReturnBody 8)) 0x13 (tokenReturnBody 8) false ∧ d.orrHears (oh 0x20 2 (drawBody 77 80 0 1)) 0x20 (drawBody 77 80 0 1) false ∧ n.isManager = false ∧ 3 ∉ n.orr.returns ∧ n.orrHears (oh 0x11 2 (tokenGrantBody 1 3 9)) 0x11 (tokenGrantBody 1 3 9) false ∧ d.isManager = false ∧ d.rdN Reg.orr_ROLE 0 < 2 ∧ n.orr.reqs = [] ∧ n.orr.tokens = [] ∧ n.memberId ≠ noMember ∧ State.reset.memberId = noMember := by decide +kernel
set_option synthInstance.maxSize 10000 in
set_option synthInstance.maxHeartbeats 2000000 in
theorem test_transfers :
    let n := fab 1 (fun o => o)
    let x := fab 1 (fun o => { o with xfer := some ⟨4, 0, 1032, []⟩ })
    let m := fab 3 (fun o => { o with needs := [(5, 4, 0)] })
    let s := ({ n with alm := { n.alm with audit := [rec0 6, rec0 7], auditLast := 7 } } : State)
    let p := run s (.auditPull (oh 0x40 2 (toLe 8 0)) 0)
    let q := run s (.auditPull (oh 0x40 2 (toLe 8 7)) 7)
    let pg := List.replicate 64 (1 : Byte)
    let data := List.replicate 8 (3 : Byte)
    n.orrHears (oh 0x30 2 (imageOfferBody 4 0 2048)) 0x30 (imageOfferBody 4 0 2048) false ∧ x.orrHears (oh 0x31 2 (imageChunkBody 4 1 data)) 0x31 (imageChunkBody 4 1 data) false ∧ x.orrHears (oh 0x31 2 (imageChunkBody 5 1 data)) 0x31 (imageChunkBody 5 1 data) false ∧ s.orrHears (oh 0x40 2 (toLe 8 0)) 0x40 (toLe 8 0) false ∧ s.orrHears (oh 0x40 2 (toLe 8 7)) 0x40 (toLe 8 7) false ∧ x.orr.xfer = some ⟨4, 0, 1032, []⟩ ∧ n.orr.xfer = none ∧ m.orrHears (oh 0x32 2 (imageNeedBody 4 1)) 0x32 (imageNeedBody 4 1) false ∧ m.orrHears (oh 0x33 2 (imageResultBody 4 0 2)) 0x33 (imageResultBody 4 0 2) false ∧ m.orrHears (oh 0x41 2 (auditPageBody 0 [pg])) 0x41 (auditPageBody 0 [pg]) false ∧ m.isManager = true ∧ n.orr.pull = none ∧ Memory.wf n.mem = true ∧ 2048 ≤ 0x2000000 ∧
    (p.snap 2).isOpen = true ∧ p.orr.pull = some 6 ∧ (p.snap 2).last = 7 ∧ q.orr.pull = some 7 := by decide +kernel
/-- Wherever in its half of partition 4 an object is staged, the chunk of `test_transfers` fits. -/
theorem test_chunk_fits : (fab 1 id).inPart 4 ((fab 1 id).imageBase + 1024 * 1) 8 = true := by
  have h : (fab 1 id).str.part 4 = some ⟨4, 0, 64, 256⟩ := by decide +kernel
  simp only [State.inPart, State.imageBase, h, PartRec.stop, PartRec.base, Bool.and_eq_true, decide_eq_true_eq]
  omega

set_option synthInstance.maxSize 10000 in
set_option synthInstance.maxHeartbeats 2000000 in
theorem test_time_and_ports :
    let n := fab 1 (fun o => { o with ptpRun := 15 })
    let m := fab 3 (fun o => o)
    let g := regsW n [(Reg.orr_CAL_GATE, 0, 0, 1)]
    n.orr.stage ≠ 0 ∧ n.ptpSlave = true ∧ m.ptpSlave = false ∧ m.isManager = true ∧ m.rdBit Reg.orr_PORT_UP 0 0 = true ∧ m.rdBit Reg.orr_PORT_UP 0 1 = false ∧ g.rdB Reg.orr_CAL_GATE 0 = true ∧ g.memberId = 4 ∧ g.orrHears (oh 0x50 2 (calWindowBody 4 100 50)) 0x50 (calWindowBody 4 100 50) false ∧ g.orrHears (oh 0x50 2 (calWindowBody 5 100 50)) 0x50 (calWindowBody 5 100 50) false ∧ n.orrHears (oh 0x50 2 (calWindowBody 4 100 50)) 0x50 (calWindowBody 4 100 50) false := by decide +kernel


end Sys2Proof.Tests
end

namespace Sys2Proof.Proofs

open Sys2Proof.Machine Sys2Proof.Laws

/-! ## What every command keeps -/

/-- An outcome that is a next state in which everything `Keeps` names of `r` is kept. -/
def Completes (r : State) (o : Res) : Prop := ∃ t, o = .next t ∧ Keeps r t

theorem completes_next {r t : State} : Completes r (.next t) ↔ Keeps r t :=
  ⟨fun ⟨_, h, hk⟩ => by cases h; exact hk, fun h => ⟨t, rfl, h⟩⟩

/-- A change of Husk that leaves what OTP holds alone. -/
theorem updHusk_keeps_of_otp_same {r s : State} (f : Husk → Husk)
    (hf : ∀ k, ((f k).variantH, (f k).rootSecret, (f k).serial, (f k).tTrim, (f k).sensTrim, (f k).floor, (f k).slots)
      = (k.variantH, k.rootSecret, k.serial, k.tTrim, k.sensTrim, k.floor, k.slots)) (hk : Keeps r s) :
    Keeps r (s.updHusk f) := by
  have h := hf s.husk
  simp only [Prod.mk.injEq] at h
  obtain ⟨hv, hr, hs, ht, hn, hfl, hsl⟩ := h
  exact updHusk_keeps s f (otpLe_of_same _ _ hv hr hs ht hn hfl hsl) hk

/-- R70: revoking a slot keeps every digest and every earlier revocation. -/
theorem otpLe_revoke (k : Husk) (t : Nat) :
    OtpLe k { k with slots := k.slots.zipIdx.map (fun x => if x.2 = t then { x.1 with revoked := true } else x.1) } := by
  refine ⟨rfl, rfl, rfl, rfl, rfl, Nat.le_refl _, ?_, fun i x hx hr => ?_⟩
  · apply List.ext_getElem?
    intro i
    simp only [List.getElem?_map, List.getElem?_zipIdx, Option.map_map]
    congr 1
    funext x
    dsimp only [Function.comp]
    split <;> rfl
  · refine ⟨if i = t then { x with revoked := true } else x, ?_, ?_⟩
    · simp [List.getElem?_zipIdx, hx]
    · split
      · rfl
      · exact hr

/-! ### Links and head-ends (05) -/

theorem execTrainingAttempt_completes (h : Hda) (s : State) : Completes s (execTrainingAttempt h s) := by
  unfold execTrainingAttempt
  grind [completes_next, keeps_refl, attempt_keeps]

theorem execTrainingStateDone_completes (h : Hda) (farPrecode : Bool) (s : State) : Completes s (execTrainingStateDone h farPrecode s) := by
  unfold execTrainingStateDone
  grind [completes_next, keeps_refl, wrN_keeps, wr_keeps, trace_keeps, trainOut_keeps, eqLane_keeps, updPort_keeps, deskewLane_keeps,
    ctl_keeps, keeps_foldl]

theorem execTrainingStateTimeout_completes (h : Hda) (s : State) : Completes s (execTrainingStateTimeout h s) := by
  unfold execTrainingStateTimeout
  grind [completes_next, keeps_refl, attemptFail_keeps]

theorem execTrainingRetry_completes (h : Hda) (s : State) : Completes s (execTrainingRetry h s) := by
  unfold execTrainingRetry
  grind [completes_next, keeps_refl, attempt_keeps]

theorem execHelloAck_completes (h : Hda) (hdr : UpHdr) (m : HelloAck) (s : State) : Completes s (execHelloAck h hdr m s) := by
  unfold execHelloAck
  rw [completes_next]
  have hk := keeps_refl s
  with_reducible repeat' first
    | assumption | intro _ | apply rxCtl_keeps | apply wrN_keeps | apply updPort_keeps | apply wr_keeps | apply ctl_keeps
    | apply trace_keeps | split

theorem execLinkLoss_completes (h : Hda) (cause : Fin 6) (lane : Fin 4) (s : State) : Completes s (execLinkLoss h cause lane s) := by
  unfold execLinkLoss
  grind [completes_next, keeps_refl, bumpBy_keeps, lose_keeps, attempt_keeps, attemptFail_keeps]

theorem execRetrain_completes (h : Hda) (writer : Initiator) (alsoDown : Bool) (s : State) :
    Completes s (execRetrain h writer alsoDown s) := by
  unfold execRetrain
  grind [completes_next, keeps_refl, guard_keeps, linkDown_keeps, updPort_keeps, lose_keeps, attempt_keeps]

theorem execDown_completes (h : Hda) (writer : Initiator) (s : State) : Completes s (execDown h writer s) := by
  unfold execDown
  grind [completes_next, keeps_refl, guard_keeps, linkDown_keeps]

theorem execFlashRead_completes (h : Hda) (writer : Initiator) (s : State) : Completes s (execFlashRead h writer s) := by
  unfold execFlashRead
  grind [completes_next, keeps_refl, guard_keeps, flash_keeps]

theorem execFlashWrite_completes (h : Hda) (writer : Initiator) (s : State) : Completes s (execFlashWrite h writer s) := by
  unfold execFlashWrite
  grind [completes_next, keeps_refl, guard_keeps, flash_keeps]

theorem execFlashErase_completes (h : Hda) (writer : Initiator) (s : State) : Completes s (execFlashErase h writer s) := by
  unfold execFlashErase
  grind [completes_next, keeps_refl, guard_keeps, flash_keeps]

theorem execFlashDone_completes (h : Hda) (hdr : UpHdr) (status : Byte) (s : State) : Completes s (execFlashDone h hdr status s) := by
  unfold execFlashDone
  grind [completes_next, keeps_refl, rxCtl_keeps, updPort_keeps, flashWord_keeps, wr_keeps, wrN_keeps]

theorem execHskFlashData_completes (h : Hda) (hdr : UpHdr) (tag : Byte) (ofs : Word) (data : List Byte) (s : State) :
    Completes s (execHskFlashData h hdr tag ofs data s) := by
  unfold execHskFlashData
  grind [completes_next, keeps_refl, rxSeq_keeps, dmaWrite_keeps, updPort_keeps]

theorem execHskTemperatures_completes (h : Hda) (hdr : UpHdr) (values : List (BitVec 16)) (s : State) :
    Completes s (execHskTemperatures h hdr values s) := by
  unfold execHskTemperatures
  grind [completes_next, keeps_refl, rxSeq_keeps, sampleIn_keeps, updPort_keeps, hdaTemp_keeps]

theorem execHskRails_completes (h : Hda) (hdr : UpHdr) (values : List (BitVec 16)) (s : State) :
    Completes s (execHskRails h hdr values s) := by
  unfold execHskRails
  grind [completes_next, keeps_refl, rxSeq_keeps, sampleIn_keeps, updPort_keeps, trace_keeps]

theorem execHskEvent_completes (h : Hda) (hdr : UpHdr) (code : Byte) (s : State) : Completes s (execHskEvent h hdr code s) := by
  unfold execHskEvent
  grind [completes_next, keeps_refl, rxSeq_keeps, trace_keeps]

theorem execStopAck_completes (h : Hda) (hdr : UpHdr) (reason : Byte) (safeLevel : Bool) (s : State) :
    Completes s (execStopAck h hdr reason safeLevel s) := by
  unfold execStopAck
  grind [completes_next, keeps_refl, rxCtl_keeps, updPort_keeps]

theorem execStopAckTimeout_completes (h : Hda) (s : State) : Completes s (execStopAckTimeout h s) := by
  unfold execStopAckTimeout
  grind [completes_next, keeps_refl, updPort_keeps, trace_keeps]

theorem execCredit_completes (h : Hda) (hdr : UpHdr) (sid : BitVec 4) (side : Fin 2) (frames : BitVec 16) (s : State) :
    Completes s (execCredit h hdr sid side frames s) := by
  unfold execCredit
  grind [completes_next, keeps_refl, rxCtl_keeps, credit_keeps]

theorem execKeepalive_completes (h : Hda) (hdr : UpHdr) (s : State) : Completes s (execKeepalive h hdr s) := by
  unfold execKeepalive
  grind [completes_next, keeps_refl, rxCtl_keeps]

theorem execAln_completes (h : Hda) (lane : Fin 4) (arrival : Int) (alnSeq : Word) (corrected uncorrectable : Nat) (s : State) :
    Completes s (execAln h lane arrival alnSeq corrected uncorrectable s) := by
  unfold execAln
  grind [completes_next, keeps_refl, bumpBy_keeps, lose_keeps, attempt_keeps, updPort_keeps, switchAt_keeps]

theorem execDeskewMove_completes (h : Hda) (lane : Fin 4) (s : State) : Completes s (execDeskewMove h lane s) := by
  unfold execDeskewMove
  grind [completes_next, keeps_refl, wrAt_keeps, bumpWrap_keeps, updPort_keeps]

theorem execLaneSet_completes (h : Hda) (four : Bool) (s : State) : Completes s (execLaneSet h four s) := by
  unfold execLaneSet
  grind [completes_next, keeps_refl, laneSet_keeps]

theorem execLaneAck_completes (h : Hda) (hdr : UpHdr) (action status : Byte) (alnSeq : Word) (s : State) :
    Completes s (execLaneAck h hdr action status alnSeq s) := by
  unfold execLaneAck
  grind [completes_next, keeps_refl, rxCtl_keeps, laneFail_keeps, eqLane_keeps, deskewLane_keeps, trainOut_keeps, wrN_keeps,
    laneSwitch_keeps, updPort_keeps, keeps_foldl]

theorem execLaneChangeFailure_completes (h : Hda) (s : State) : Completes s (execLaneChangeFailure h s) := by
  unfold execLaneChangeFailure
  grind [completes_next, keeps_refl, laneFail_keeps]

/-! ### Loops (11) -/

theorem execLoopRun_completes (g : Loop) (ts : Word) (s : State) : Completes s (execLoopRun g ts s) := by
  unfold execLoopRun
  grind [completes_next, keeps_refl, updLoop_keeps, tagIn_keeps, loopInput_keeps]

theorem execLoopWatchdog_completes (g : Loop) (s : State) : Completes s (execLoopWatchdog g s) := by
  unfold execLoopWatchdog
  grind [completes_next, keeps_refl, loopExpire_keeps]

theorem execRetractPhaseEnd_completes (n : Act) (s : State) : Completes s (execRetractPhaseEnd n s) := by
  unfold execRetractPhaseEnd
  rw [completes_next]
  have hk := keeps_refl s
  with_reducible repeat' first
    | assumption | intro _ | apply keeps_ite | apply loopOut_keeps | apply wr_keeps | apply updLoop_keeps | apply loopActionEnd_keeps
    | apply updAct_keeps | apply disEnd_keeps | split

theorem execEnable_completes (g : Loop) (writer : Initiator) (on : Bool) (s : State) : Completes s (execEnable g writer on s) := by
  unfold execEnable
  grind [completes_next, keeps_refl, guard_keeps, loopEnable_keeps, loopDisable_keeps]

theorem execModeReq_completes (g : Loop) (writer : Initiator) (mode : BitVec 2) (s : State) :
    Completes s (execModeReq g writer mode s) := by
  unfold execModeReq
  grind [completes_next, keeps_refl, guard_keeps, wr_keeps, wrN_keeps, updLoop_keeps]

theorem execSwap_completes (g : Loop) (writer : Initiator) (s : State) : Completes s (execSwap g writer s) := by
  unfold execSwap
  grind [completes_next, keeps_refl, guard_keeps, updLoop_keeps]

theorem execTuneTimeout_completes (g : Loop) (s : State) : Completes s (execTuneTimeout g s) := by
  unfold execTuneTimeout
  grind [completes_next, keeps_refl, tuneEnd_keeps]

theorem execSpPush_completes (n : Act) (writer : Initiator) (s : State) : Completes s (execSpPush n writer s) := by
  unfold execSpPush
  grind [completes_next, keeps_refl, guard_keeps, wrN_keeps, updAct_keeps]

theorem execFrameBoundary_completes (n : Act) (s : State) : Completes s (execFrameBoundary n s) := by
  unfold execFrameBoundary
  rw [completes_next]
  have hk := keeps_refl s
  with_reducible repeat' first
    | assumption | intro _ | apply updAct_keeps | apply wrB_keeps | apply bump_keeps | apply streamsOff_keeps | apply headBoundary_keeps
    | apply fifoBoundary_keeps | apply rampBoundary_keeps | apply clkFollow_keeps | apply ctl_keeps | apply loopBoundary_keeps
    | apply keeps_foldl | split

/-! ### Engines and epochs (07) -/

theorem execEpochOpen_completes (e : Eng) (writer : Initiator) (src : BitVec 3) (s : State) :
    Completes s (execEpochOpen e writer src s) := by
  unfold execEpochOpen
  rw [completes_next]
  have hk := keeps_refl s
  with_reducible repeat' first
    | assumption | intro _ | apply guard_keeps | apply openRefused_keeps | apply openEpoch_keeps | apply wrB_keeps | apply updAct_keeps
    | apply epochRes_keeps | split | refine keeps_fst (by assumption) ?_

theorem execEpochCommit_completes (e : Eng) (writer : Initiator) (num : BitVec 16) (chaffSameCycle : Bool) (s : State) :
    Completes s (execEpochCommit e writer num chaffSameCycle s) := by
  unfold execEpochCommit
  rw [completes_next]
  have hk := keeps_refl s
  with_reducible repeat' first
    | assumption | intro _ | apply guard_keeps | apply epochRes_keeps | apply chaffSlot_keeps | apply mqRefresh_keeps
    | apply commitSlot_keeps | split

theorem execEpochChaff_completes (e : Eng) (writer : Initiator) (num : BitVec 16) (s : State) :
    Completes s (execEpochChaff e writer num s) := by
  unfold execEpochChaff
  rw [completes_next]
  have hk := keeps_refl s
  with_reducible repeat' first
    | assumption | intro _ | apply guard_keeps | apply epochRes_keeps | apply chaffSlot_keeps | apply mqRefresh_keeps | split

theorem execPreseekChaffTimeout_completes (n : Act) (s : State) : Completes s (execPreseekChaffTimeout n s) := by
  unfold execPreseekChaffTimeout
  grind [completes_next, keeps_refl, chaffSlot_keeps, mqRefresh_keeps]

theorem execPreemption_completes (n : Act) (s : State) : Completes s (execPreemption n s) := by
  unfold execPreemption
  grind [completes_next, keeps_refl, bump_keeps, guarantee_keeps, opCut_keeps, trace_keeps]

/-! ### Transit servo (06) -/

theorem execToneUnlock_completes (n : Act) (s : State) : Completes s (execToneUnlock n s) := by
  unfold execToneUnlock
  grind [completes_next, keeps_refl, wr_keeps, enterLost_keeps]

theorem execTransitAcquisitionTimeout_completes (n : Act) (s : State) : Completes s (execTransitAcquisitionTimeout n s) := by
  unfold execTransitAcquisitionTimeout
  grind [completes_next, keeps_refl, raise_keeps]

theorem execHeadsOffRamp_completes (n : Act) (s : State) : Completes s (execHeadsOffRamp n s) := by
  unfold execHeadsOffRamp
  rw [completes_next]
  have hk := keeps_refl s
  with_reducible repeat' first
    | assumption | intro _ | apply smpCtl_keeps | apply updAct_keeps | apply wr_keeps | apply trace_keeps | split

theorem execHeadsOnRamp_completes (n : Act) (s : State) : Completes s (execHeadsOnRamp n s) := by
  unfold execHeadsOnRamp
  grind [completes_next, keeps_refl, rampReached_keeps]

theorem execReacq_completes (n : Act) (writer : Initiator) (s : State) : Completes s (execReacq n writer s) := by
  unfold execReacq
  grind [completes_next, keeps_refl, guard_keeps, wr_keeps, updAct_keeps, trace_keeps]

theorem execAlignmentBurst_completes (n : Act) (o : BurstObs) (s : State) : Completes s (execAlignmentBurst n o s) := by
  unfold execAlignmentBurst
  rw [completes_next]
  have hk := keeps_refl s
  with_reducible repeat' first
    | assumption | intro _ | apply wrInt_keeps | apply wrAt_keeps | apply updAct_keeps | apply setTarget_keeps | apply clkFollow_keeps
    | apply burstMiss_keeps | extract_lets | split

theorem execRadOfs_completes (n : Act) (k : Fin 10) (writer : Initiator) (value : BitVec 16) (s : State) :
    Completes s (execRadOfs n k writer value s) := by
  unfold execRadOfs
  grind [completes_next, keeps_refl, guard_keeps, wrAt_keeps, loosen_keeps, setTarget_keeps]

theorem execTimOfs_completes (n : Act) (k : Fin 10) (writer : Initiator) (value : BitVec 20) (s : State) :
    Completes s (execTimOfs n k writer value s) := by
  unfold execTimOfs
  grind [completes_next, keeps_refl, guard_keeps, wrAt_keeps, loosen_keeps, clkFollow_keeps]

/-! ### Writing (10) -/

theorem execOpRead_completes (e : Eng) (writer : Initiator) (s : State) : Completes s (execOpRead e writer s) := by
  unfold execOpRead
  grind [completes_next, keeps_refl, opGo_keeps]

theorem execOpWrite_completes (e : Eng) (writer : Initiator) (s : State) : Completes s (execOpWrite e writer s) := by
  unfold execOpWrite
  grind [completes_next, keeps_refl, opGo_keeps]

theorem execOpSeek_completes (e : Eng) (writer : Initiator) (s : State) : Completes s (execOpSeek e writer s) := by
  unfold execOpSeek
  grind [completes_next, keeps_refl, opGo_keeps]

theorem execOpRunaheadRead_completes (e : Eng) (writer : Initiator) (s : State) : Completes s (execOpRunaheadRead e writer s) := by
  unfold execOpRunaheadRead
  grind [completes_next, keeps_refl, opGo_keeps]

theorem execTransitFrame_completes (n : Act) (o : TransitObs) (s : State) : Completes s (execTransitFrame n o s) := by
  unfold execTransitFrame
  rw [completes_next]
  have hk := keeps_refl s
  with_reducible repeat' first
    | assumption | intro _ | apply keeps_ite | apply wrB_keeps | apply bump_keeps | apply acquire_keeps | apply measurePeriod_keeps
    | apply validFrame_keeps | apply invalidFrame_keeps | apply gateEval_keeps | apply confirmAll_keeps | apply enterLost_keeps
    | apply recIssue_keeps | apply resumeGo_keeps | split

theorem execWindowEnd_completes (n : Act) (s : State) : Completes s (execWindowEnd n s) := by
  unfold execWindowEnd
  grind [completes_next, keeps_refl, windowEnd_keeps]

theorem execWdone_completes (h : Hda) (hdr : UpHdr) (side : Fin 2) (winId : BitVec 16) (bits : Word) (s : State) :
    Completes s (execWdone h hdr side winId bits s) := by
  unfold execWdone
  rw [completes_next]
  have hk := keeps_refl s
  with_reducible repeat' first
    | assumption | intro _ | apply keeps_ite | apply rxCtl_keeps | apply windowEnd_keeps | apply charge_keeps | apply coverSector_keeps
    | apply bump_keeps | apply trace_keeps | apply updAct_keeps | apply dropWindow_keeps | apply settle_keeps | apply keeps_foldl
    | extract_lets | split

theorem execErr_completes (h : Hda) (hdr : UpHdr) (code : Byte) (sid : BitVec 4) (side : Fin 2) (winId : BitVec 16) (s : State) :
    Completes s (execErr h hdr code sid side winId s) := by
  unfold execErr
  grind [completes_next, keeps_refl, rxCtl_keeps, bump_keeps, updAct_keeps, laserManual_keeps, dropWindow_keeps, trace_keeps]

theorem execWtData_completes (n : Act) (who : Initiator) (value : Option Word) (s : State) : Completes s (execWtData n who value s) := by
  unfold execWtData
  grind [completes_next, keeps_refl, updAct_keeps, emit_keeps, wrN_keeps, guardAcc_keeps]

theorem execWtCommit_completes (n : Act) (writer : Initiator) (s : State) : Completes s (execWtCommit n writer s) := by
  unfold execWtCommit
  grind [completes_next, keeps_refl, guard_keeps, wr_keeps, wtCommitTry_keeps]

theorem execMediaQueueEntry_completes (n : Act) (s : State) : Completes s (execMediaQueueEntry n s) := by
  unfold execMediaQueueEntry
  grind [completes_next, keeps_refl, updHost_keeps, bump_keeps, mqPut_keeps, settle_keeps, keeps_foldl]

/-! ### Read channel (08) -/

theorem execTapData_completes (l : Lane) (who : Initiator) (value : Option (BitVec 16)) (s : State) :
    Completes s (execTapData l who value s) := by
  unfold execTapData
  grind [completes_next, keeps_refl, updLane_keeps, emit_keeps, wrB_keeps, wrN_keeps, guardAcc_keeps]

theorem execTapCommit_completes (l : Lane) (writer : Initiator) (s : State) : Completes s (execTapCommit l writer s) := by
  unfold execTapCommit
  grind [completes_next, keeps_refl, guard_keeps, injWrite_keeps, updLane_keeps, wr_keeps, keeps_foldl]

theorem execCaptureCopyDone_completes (l : Lane) (secdedErr : Bool) (s : State) : Completes s (execCaptureCopyDone l secdedErr s) := by
  unfold execCaptureCopyDone
  rw [completes_next]
  have hk := keeps_refl s
  with_reducible repeat' first
    | assumption | intro _ | apply updLane_keeps | apply wrN_keeps | apply laneCount_keeps | apply putGrain_keeps | apply updPool_keeps
    | apply assign_keeps | apply raise_keeps | apply keeps_foldl | split

theorem execSectorVerdict_completes (l : Lane) (o : SectorObs) (s : State) : Completes s (execSectorVerdict l o s) := by
  unfold execSectorVerdict
  rw [completes_next]
  have hk := keeps_refl s
  with_reducible repeat' first
    | assumption | intro _ | apply keeps_ite | apply ringPush_keeps | apply raise_keeps | apply gainStep_keeps | apply wrN_keeps
    | apply laneCount_keeps | apply calSector_keeps | apply trace_keeps | apply askedVerdict_keeps | apply settle_keeps
    | apply resumeGo_keeps | extract_lets | split

theorem execSampleMarker_completes (h : Hda) (hdr : UpHdr) (sid : BitVec 4) (side : Fin 2) (m : Marker) (s : State) :
    Completes s (execSampleMarker h hdr sid side m s) := by
  unfold execSampleMarker
  grind [completes_next, keeps_refl, rxSeq_keeps, updPort_keeps, bump_keeps, gainMarker_keeps, rxBad_keeps]

theorem execSampleFrame_completes (h : Hda) (hdr : UpHdr) (sid : BitVec 4) (side : Fin 2) (payload : BitVec 240) (s : State) :
    Completes s (execSampleFrame h hdr sid side payload s) := by
  unfold execSampleFrame
  grind [completes_next, keeps_refl, rxSeq_keeps, updPort_keeps, sampleIn_keeps, placeSamples_keeps, rxBad_keeps]

theorem execMotFrame_completes (h : Hda) (hdr : UpHdr) (side : Fin 2) (frameNo : Word) (tick : BitVec 16) (mtype : Byte)
    (values : List (BitVec 16)) (s : State) :
    Completes s (execMotFrame h hdr side frameNo tick mtype values s) := by
  unfold execMotFrame
  grind [completes_next, keeps_refl, rxSeq_keeps, sampleIn_keeps, updPort_keeps, coastEnd_keeps, loopFeed_keeps]

/-! ### Bound ports (05) -/

theorem execDescriptorRead_completes (h : Hda) (copy0 copy1 : List Byte) (s : State) :
    Completes s (execDescriptorRead h copy0 copy1 s) := by
  unfold execDescriptorRead
  grind [completes_next, keeps_refl, readCopy_keeps, wrN_keeps, portUp_keeps, unbind_keeps]

/-! ### Recovery and ledgers (09) -/

theorem execFailureNoticeTaken_completes (s : State) : Completes s (execFailureNoticeTaken s) := by
  unfold execFailureNoticeTaken
  rw [completes_next]
  have hk := keeps_refl s
  with_reducible repeat' first
    | assumption | intro _ | apply updPool_keeps | apply noticeRefresh_keeps | apply updCmd_keeps | apply wrN_keeps | apply toStep_keeps
    | split

theorem execDecodeUnitDone_completes (d : Fin 16) (s : State) : Completes s (execDecodeUnitDone d s) := by
  unfold execDecodeUnitDone
  rw [completes_next]
  split
  · exact keeps_refl s
  · extract_lets freed r held injected
    have hheld : Keeps s held := setRec_keeps _ _ _ (decFree_keeps _ _ (bumpBy_keeps _ _ _ _ _ (keeps_refl s)))
    have hinj : Keeps s injected := by
      dsimp only [injected]
      split
      · next h => exact raise_keeps _ _ _ _ _ (injTake_keeps h hheld)
      · exact hheld
    have hcap := capCheck_keeps injected r hinj
    with_reducible repeat' first
      | assumption | apply assign_keeps | apply recAccept_keeps | apply stepFive_keeps | apply toStep_keeps
      | split | refine keeps_fst (by assumption) ?_ | extract_lets

theorem execRecoveryDeadline_completes (slot : BitVec 16) (s : State) : Completes s (execRecoveryDeadline slot s) := by
  unfold execRecoveryDeadline
  grind [completes_next, keeps_refl, bump_keeps, stepFive_keeps, assign_keeps]

theorem execRemapFlush_completes (n : Act) (s : State) : Completes s (execRemapFlush n s) := by
  unfold execRemapFlush
  grind [completes_next, keeps_refl, updLed_keeps]

theorem execZmapFlush_completes (n : Act) (s : State) : Completes s (execZmapFlush n s) := by
  unfold execZmapFlush
  grind [completes_next, keeps_refl, updLed_keeps]

theorem execLedgerGenerationDurable_completes (n : Act) (kind : Fin 4) (s : State) :
    Completes s (execLedgerGenerationDurable n kind s) := by
  unfold execLedgerGenerationDurable
  grind [completes_next, keeps_refl, raise_keeps, genDurable_keeps, settle_keeps]

/-! ### Queues and features (13) -/

theorem execAdmission_completes (entry : Sqe) (s : State) : Completes s (execAdmission entry s) := by
  unfold execAdmission
  grind [completes_next, keeps_refl, psWake_keeps, fetchTurn_keeps]

theorem execSubmissionQueueTailDoorbell_completes (q : Nat) (tail : BitVec 16) (s : State) :
    Completes s (execSubmissionQueueTailDoorbell q tail s) := by
  unfold execSubmissionQueueTailDoorbell
  grind [completes_next, keeps_refl, updHost_keeps]

theorem execCompletionQueueHeadDoorbell_completes (q : Nat) (head : BitVec 16) (s : State) :
    Completes s (execCompletionQueueHeadDoorbell q head s) := by
  unfold execCompletionQueueHeadDoorbell
  grind [completes_next, keeps_refl, updHost_keeps, postWaiting_keeps]

theorem execCoalescingTimeExpiry_completes (vector : Nat) (s : State) : Completes s (execCoalescingTimeExpiry vector s) := by
  unfold execCoalescingTimeExpiry
  grind [completes_next, keeps_refl, updHost_keeps, msixSend_keeps]

theorem execCreateIoSq_completes (slot : BitVec 16) (s : State) : Completes s (execCreateIoSq slot s) := by
  unfold execCreateIoSq
  grind [completes_next, keeps_refl, adminRow_keeps, complete_keeps, updHost_keeps]

theorem execCreateIoCq_completes (slot : BitVec 16) (s : State) : Completes s (execCreateIoCq slot s) := by
  unfold execCreateIoCq
  grind [completes_next, keeps_refl, adminRow_keeps, complete_keeps, updHost_keeps]

theorem execDeleteIoCq_completes (slot : BitVec 16) (s : State) : Completes s (execDeleteIoCq slot s) := by
  unfold execDeleteIoCq
  grind [completes_next, keeps_refl, adminRow_keeps, complete_keeps, updHost_keeps]

theorem execAbort_completes (slot : BitVec 16) (sameCycleCompletion : Bool) (s : State) :
    Completes s (execAbort slot sameCycleCompletion s) := by
  unfold execAbort
  grind [completes_next, keeps_refl, adminRow_keeps, bump_keeps, complete_keeps, abortSlot_keeps, updCmd_keeps]

theorem execAbortCompletion_completes (slot : BitVec 16) (s : State) : Completes s (execAbortCompletion slot s) := by
  unfold execAbortCompletion
  grind [completes_next, keeps_refl, complete_keeps, waitersDone_keeps, giveRoom_keeps, settle_keeps]

theorem execDeleteIoSq_completes (slot : BitVec 16) (s : State) : Completes s (execDeleteIoSq slot s) := by
  unfold execDeleteIoSq
  rw [completes_next]
  have hk := keeps_refl s
  with_reducible repeat' first
    | assumption | intro _ | apply adminRow_keeps | apply complete_keeps | apply abortSlot_keeps | apply bumpBy_keeps
    | apply updHost_keeps | apply updCmd_keeps | apply keeps_foldl | extract_lets | split

theorem execControllerReset_completes (s : State) : Completes s (execControllerReset s) := by
  unfold execControllerReset
  grind [completes_next, keeps_refl, ctrlReset_keeps]

theorem execControllerEnable_completes (cc : Word) (s : State) : Completes s (execControllerEnable cc s) := by
  unfold execControllerEnable
  grind [completes_next, keeps_refl, updHost_keeps, ctrlReady_keeps]

theorem execShutdownNormal_completes (s : State) : Completes s (execShutdownNormal s) := by
  unfold execShutdownNormal
  grind [completes_next, keeps_refl, updHost_keeps, cleanSides_keeps]

theorem execArbitration_completes (slot : BitVec 16) (s : State) : Completes s (execArbitration slot s) := by
  unfold execArbitration
  grind [completes_next, keeps_refl, setFeature_keeps, wrN_keeps, complete_keeps]

theorem execTemperatureThreshold_completes (slot : BitVec 16) (s : State) : Completes s (execTemperatureThreshold slot s) := by
  unfold execTemperatureThreshold
  grind [completes_next, keeps_refl, setFeature_keeps, complete_keeps, updHost_keeps, keeps_foldl]

theorem execErrorRecovery_completes (slot : BitVec 16) (s : State) : Completes s (execErrorRecovery slot s) := by
  unfold execErrorRecovery
  grind [completes_next, keeps_refl, setFeature_keeps, complete_keeps, updHost_keeps, keeps_foldl]

theorem execVolatileWriteCache_completes (slot : BitVec 16) (s : State) : Completes s (execVolatileWriteCache slot s) := by
  unfold execVolatileWriteCache
  grind [completes_next, keeps_refl, setFeature_keeps, updHost_keeps, complete_keeps]

theorem execNumberOfQueues_completes (slot : BitVec 16) (s : State) : Completes s (execNumberOfQueues slot s) := by
  unfold execNumberOfQueues
  grind [completes_next, keeps_refl, setFeature_keeps, complete_keeps, updHost_keeps]

theorem execInterruptCoalescing_completes (slot : BitVec 16) (s : State) : Completes s (execInterruptCoalescing slot s) := by
  unfold execInterruptCoalescing
  grind [completes_next, keeps_refl, setFeature_keeps, updHost_keeps, complete_keeps]

theorem execInterruptVectorConfiguration_completes (slot : BitVec 16) (s : State) :
    Completes s (execInterruptVectorConfiguration slot s) := by
  unfold execInterruptVectorConfiguration
  grind [completes_next, keeps_refl, setFeature_keeps, complete_keeps, updHost_keeps]

theorem execAsynchronousEventConfiguration_completes (slot : BitVec 16) (s : State) :
    Completes s (execAsynchronousEventConfiguration slot s) := by
  unfold execAsynchronousEventConfiguration
  grind [completes_next, keeps_refl, setFeature_keeps, updHost_keeps, complete_keeps]

theorem execAutonomousPowerStateTransition_completes (slot : BitVec 16) (table : List (Nat × Nat)) (s : State) :
    Completes s (execAutonomousPowerStateTransition slot table s) := by
  unfold execAutonomousPowerStateTransition
  grind [completes_next, keeps_refl, setFeature_keeps, updHost_keeps, complete_keeps]

theorem execTimestamp_completes (slot : BitVec 16) (ms : BitVec 48) (s : State) : Completes s (execTimestamp slot ms s) := by
  unfold execTimestamp
  grind [completes_next, keeps_refl, setFeature_keeps, updHost_keeps, audit_keeps, complete_keeps]

theorem execGetFeatures_completes (slot : BitVec 16) (s : State) : Completes s (execGetFeatures slot s) := by
  unfold execGetFeatures
  grind [completes_next, keeps_refl, adminRow_keeps, emit_keeps, complete_keeps]

theorem execAsynchronousEventRequest_completes (slot : BitVec 16) (s : State) : Completes s (execAsynchronousEventRequest slot s) := by
  unfold execAsynchronousEventRequest
  grind [completes_next, keeps_refl, adminRow_keeps, aerServe_keeps]

/-! ### I/O commands (13) -/

theorem execDataGrainBuffered_completes (slot : BitVec 16) (index : Nat) (payload : List Byte) (tagOk : Bool) (s : State) :
    Completes s (execDataGrainBuffered slot index payload tagOk s) := by
  unfold execDataGrainBuffered
  grind [completes_next, keeps_refl, bufferGrain_keeps, settle_keeps, raise_keeps, abortWork_keeps, complete_keeps]

theorem execBufWaitResume_completes (s : State) : Completes s (execBufWaitResume s) := by
  unfold execBufWaitResume
  rw [completes_next]
  have hk := keeps_refl s
  with_reducible repeat' first
    | assumption | intro _ | apply bufRefresh_keeps | apply giveRoom_keeps | apply fillZeroes_keeps | apply settle_keeps
    | apply keeps_foldl

theorem execWrite_completes (slot : BitVec 16) (s : State) : Completes s (execWrite slot s) := by
  unfold execWrite
  grind [completes_next, keeps_refl, ioRow_keeps]

theorem execZoneAppend_completes (slot : BitVec 16) (s : State) : Completes s (execZoneAppend slot s) := by
  unfold execZoneAppend
  grind [completes_next, keeps_refl, ioRow_keeps]

theorem execWriteZeroes_completes (slot : BitVec 16) (s : State) : Completes s (execWriteZeroes slot s) := by
  unfold execWriteZeroes
  grind [completes_next, keeps_refl, ioRow_keeps, fillZeroes_keeps, settle_keeps]

theorem execRead_completes (slot : BitVec 16) (s : State) : Completes s (execRead slot s) := by
  unfold execRead
  grind [completes_next, keeps_refl, ioRow_keeps, readStart_keeps]

theorem execVerify_completes (slot : BitVec 16) (s : State) : Completes s (execVerify slot s) := by
  unfold execVerify
  grind [completes_next, keeps_refl, ioRow_keeps, readStart_keeps]

theorem execFlush_completes (slot : BitVec 16) (s : State) : Completes s (execFlush slot s) := by
  unfold execFlush
  grind [completes_next, keeps_refl, ioRow_keeps, updCmd_keeps, settle_keeps]

theorem execDmaError_completes (slot : BitVec 16) (kind : DmaFail) (s : State) : Completes s (execDmaError slot kind s) := by
  unfold execDmaError
  grind [completes_next, keeps_refl, bump_keeps, abortWork_keeps, complete_keeps, settle_keeps]

/-! ### Zones (14) -/

theorem execZoneClose_completes (slot : BitVec 16) (s : State) : Completes s (execZoneClose slot s) := by
  unfold execZoneClose
  grind [completes_next, keeps_refl, zoneSend_keeps, zoneAct_keeps, setZone_keeps, complete_keeps, keeps_foldl]

theorem execZoneFinish_completes (slot : BitVec 16) (s : State) : Completes s (execZoneFinish slot s) := by
  unfold execZoneFinish
  grind [completes_next, keeps_refl, zoneSend_keeps, zoneAct_keeps, eraseZone_keeps, zoneFull_keeps, complete_keeps, updCmd_keeps,
    settle_keeps, keeps_foldl]

theorem execZoneOpen_completes (slot : BitVec 16) (s : State) : Completes s (execZoneOpen slot s) := by
  unfold execZoneOpen
  rw [completes_next]
  have hk := keeps_refl s
  with_reducible repeat' first
    | assumption | intro _ | apply keeps_ite | apply zoneSend_keeps | apply zoneAct_keeps | apply makeOpen_keeps | apply setZone_keeps
    | apply zoneMap_keeps | apply complete_keeps | apply updCmd_keeps | apply settle_keeps | apply keeps_foldl_fst | apply keeps_ite_fst

theorem execZoneReset_completes (slot : BitVec 16) (s : State) : Completes s (execZoneReset slot s) := by
  unfold execZoneReset
  grind [completes_next, keeps_refl, zoneSend_keeps, updHost_keeps, mqDrop_keeps, complete_keeps, updCmd_keeps, settle_keeps]

theorem execZoneOffline_completes (slot : BitVec 16) (s : State) : Completes s (execZoneOffline slot s) := by
  unfold execZoneOffline
  grind [completes_next, keeps_refl, zoneSend_keeps, complete_keeps]

theorem execSetZoneDescriptorExtension_completes (slot : BitVec 16) (s : State) : Completes s (execSetZoneDescriptorExtension slot s) := by
  unfold execSetZoneDescriptorExtension
  grind [completes_next, keeps_refl, zoneSend_keeps, complete_keeps]

theorem execReportZones_completes (slot : BitVec 16) (s : State) : Completes s (execReportZones slot s) := by
  unfold execReportZones
  grind [completes_next, keeps_refl, zoneRecv_keeps, emit_keeps, complete_keeps]

theorem execExtendedReportZones_completes (slot : BitVec 16) (s : State) : Completes s (execExtendedReportZones slot s) := by
  unfold execExtendedReportZones
  grind [completes_next, keeps_refl, zoneRecv_keeps, complete_keeps]

/-! ### Mailboxes, locks, windows and registers (03) -/

theorem execGo_completes (ch : Fin 64) (dir : Fin 2) (sender : Initiator) (same other : RecvAct) (s : State) :
    Completes s (execGo ch dir sender same other s) := by
  unfold execGo
  grind [completes_next, keeps_refl, mbAccess_keeps, mbGo_keeps, mbRecv_keeps, mbCross_keeps]

theorem execRelease_completes (ch : Fin 64) (dir : Fin 2) (receiver : Initiator) (s : State) :
    Completes s (execRelease ch dir receiver s) := by
  unfold execRelease
  grind [completes_next, keeps_refl, mbRecv_keeps]

theorem execRcvReset_completes (ch : Fin 64) (dir : Fin 2) (receiver : Initiator) (s : State) :
    Completes s (execRcvReset ch dir receiver s) := by
  unfold execRcvReset
  grind [completes_next, keeps_refl, mbRecv_keeps]

theorem execCompatLastDataRead_completes (ch : Fin 64) (dir : Fin 2) (reader : Initiator) (s : State) :
    Completes s (execCompatLastDataRead ch dir reader s) := by
  unfold execCompatLastDataRead
  grind [completes_next, keeps_refl, mbRecv_keeps]

theorem execMailboxDataWrite_completes (ch : Fin 64) (dir : Fin 2) (i : Fin 16) (writer : Initiator) (value : Word) (s : State) :
    Completes s (execMailboxDataWrite ch dir i writer value s) := by
  unfold execMailboxDataWrite
  grind [completes_next, keeps_refl, mbAccess_keeps, mbData_keeps]

theorem execLockRelease_completes (i : Fin 256) (writer : Initiator) (s : State) : Completes s (execLockRelease i writer s) := by
  unfold execLockRelease
  grind [completes_next, keeps_refl, lockFree_keeps]

theorem execLockAcquire_completes (i : Fin 256) (release : Option Initiator) (readers : List Initiator) (s : State) :
    Completes s (execLockAcquire i release readers s) := by
  unfold execLockAcquire
  rw [completes_next]
  have hk := keeps_refl s
  with_reducible repeat' first
    | assumption | intro _ | apply lockFree_keeps | apply wake_keeps | apply guardAcc_keeps | apply emit_keeps | apply updLock_keeps
    | apply keeps_foldl | split | dsimp only [id]

theorem execWindowRegisterWrite_completes (writer : Initiator) (id : Byte) (w : Fin 8) (reg : Fin 4) (value : Word) (s : State) :
    Completes s (execWindowRegisterWrite writer id w reg value s) := by
  unfold execWindowRegisterWrite
  grind [completes_next, keeps_refl, guard_keeps, winWrite_keeps]

theorem execViolationAuditSecond_completes (s : State) : Completes s (execViolationAuditSecond s) := by
  unfold execViolationAuditSecond
  grind [completes_next, keeps_refl, audit_keeps, keeps_foldl, keeps_mk]

theorem execRegisterWrite_completes (writer : Initiator) (target : Target) (value : Word) (s : State) :
    Completes s (execRegisterWrite writer target value s) := by
  unfold execRegisterWrite
  grind [completes_next, keeps_refl, guard_keeps, plainWrite_keeps, bar0Write_keeps, bar2Write_keeps]

/-! ### Almanac (18) -/

theorem execHourMark_completes (s : State) : Completes s (execHourMark s) := by
  unfold execHourMark
  grind [completes_next, keeps_refl, hourMark_keeps]

theorem execTracePut_completes (writer : Initiator) (s : State) : Completes s (execTracePut writer s) := by
  unfold execTracePut
  grind [completes_next, keeps_refl, put_keeps, trace_keeps]

theorem execAuditPut_completes (writer : Initiator) (s : State) : Completes s (execAuditPut writer s) := by
  unfold execAuditPut
  rw [completes_next]
  refine put_keeps _ _ _ (fun x hx => ?_) (keeps_refl s)
  have hput := updAlm_keeps_all x (fun a => { a with
    putSecond := x.alm.us64.toNat / 1000000,
    puts := if a.putSecond = x.alm.us64.toNat / 1000000 then a.puts else 0 }) (fun _ => Nat.le_refl _) hx
  dsimp only
  split
  · exact updAlm_keeps_all _ _ (fun _ => Nat.le_refl _) (bump_keeps _ _ _ hput)
  · exact audit_keeps _ _ _ _ _ _ (updAlm_keeps_all _ _ (fun _ => Nat.le_refl _) hput)

theorem execSnapshotOpen_completes (handle : Fin 4) (writer : Initiator) (close : Bool) (s : State) :
    Completes s (execSnapshotOpen handle writer close s) := by
  unfold execSnapshotOpen
  grind [completes_next, keeps_refl, guard_keeps, snapClose_keeps, snapOpen_keeps]

theorem execSnapshotClose_completes (handle : Fin 4) (writer : Initiator) (s : State) :
    Completes s (execSnapshotClose handle writer s) := by
  unfold execSnapshotClose
  grind [completes_next, keeps_refl, guard_keeps, snapClose_keeps]

theorem execSnapshotIdleClose_completes (handle : Fin 4) (s : State) : Completes s (execSnapshotIdleClose handle s) := by
  unfold execSnapshotIdleClose
  grind [completes_next, keeps_refl, snapClose_keeps, bump_keeps]

theorem execHostSnapshotOpen_completes (s : State) : Completes s (execHostSnapshotOpen s) := by
  unfold execHostSnapshotOpen
  grind [completes_next, keeps_refl, snapOpen_keeps, snapShow_keeps]

theorem execHostSnapshotClose_completes (s : State) : Completes s (execHostSnapshotClose s) := by
  unfold execHostSnapshotClose
  grind [completes_next, keeps_refl, snapClose_keeps, emit_keeps]

theorem execPageSeqAdvance_completes (s : State) : Completes s (execPageSeqAdvance s) := by
  unfold execPageSeqAdvance
  grind [completes_next, keeps_refl, updSnap_keeps, snapShow_keeps]

theorem execNorCopy_completes (ok : Bool) (s : State) : Completes s (execNorCopy ok s) := by
  unfold execNorCopy
  grind [completes_next, keeps_refl, updAlm_keeps_all, norFlush_keeps, bump_keeps, audit_keeps]

/-! ### Requests to Husk, loaders and the relay (03) -/

theorem execUpdate_completes (ch : Fin 64) (norOk : Bool) (s : State) : Completes s (execUpdate ch norOk s) := by
  unfold execUpdate
  grind [completes_next, keeps_refl, huskReq_keeps, huskUpdate_keeps]

theorem execNsKeyNew_completes (ch : Fin 64) (ledgerOk : Bool) (s : State) : Completes s (execNsKeyNew ch ledgerOk s) := by
  unfold execNsKeyNew
  grind [completes_next, keeps_refl, huskReq_keeps, keyNew_keeps]

theorem execNsKeyDestroy_completes (ch : Fin 64) (ledgerOk : Bool) (s : State) : Completes s (execNsKeyDestroy ch ledgerOk s) := by
  unfold execNsKeyDestroy
  grind [completes_next, keeps_refl, huskReq_keeps, keyDestroy_keeps, keeps_foldl]

theorem execAuditClear_completes (ch : Fin 64) (s : State) : Completes s (execAuditClear ch s) := by
  unfold execAuditClear
  grind [completes_next, keeps_refl, clearReq_keeps]

theorem execTraceClear_completes (ch : Fin 64) (s : State) : Completes s (execTraceClear ch s) := by
  unfold execTraceClear
  grind [completes_next, keeps_refl, clearReq_keeps]

theorem execLiveSet_completes (ch : Fin 64) (s : State) : Completes s (execLiveSet ch s) := by
  unfold execLiveSet
  grind [completes_next, keeps_refl, huskReq_keeps, liveAccept_keeps]

theorem execLivePatch_completes (ch : Fin 64) (s : State) : Completes s (execLivePatch ch s) := by
  unfold execLivePatch
  rw [completes_next]
  have hk := keeps_refl s
  with_reducible repeat' first
    | assumption | intro _ | apply huskReq_keeps | apply keeps_foldl | apply liveAccept_keeps | apply updHusk_keeps_of_otp_same
    | extract_lets | split
  rfl

theorem execFaultRelease_completes (ch : Fin 64) (s : State) : Completes s (execFaultRelease ch s) := by
  unfold execFaultRelease
  grind [completes_next, keeps_refl, huskReq_keeps, wrBit_keeps, audit_keeps, recover_keeps]

theorem execSlotRevoke_completes (ch : Fin 64) (s : State) : Completes s (execSlotRevoke ch s) := by
  unfold execSlotRevoke
  rw [completes_next]
  refine huskReq_keeps _ _ _ _ _ (fun reg _ x hx => ?_) (keeps_refl s)
  dsimp only
  split
  · exact audit_keeps _ _ _ _ _ _ (updHusk_keeps _ _ (otpLe_revoke _ _) hx)
  · exact hx

/-- R71: Husk raises the floor only above the one in OTP. -/
theorem execFloorRaise_completes (ch : Fin 64) (s : State) : Completes s (execFloorRaise ch s) := by
  unfold execFloorRaise
  rw [completes_next]
  refine huskReq_keeps _ _ _ _ _ (fun reg _ x hx => ?_) (keeps_refl s)
  dsimp only
  split
  · exact hx
  · split
    · exact hx
    · next h =>
      have hle : x.husk.floor ≤ reg 1 := by
        by_contra hc
        exact h (Or.inl (by omega))
      have hotp : OtpLe x.husk { x.husk with floor := reg 1 } :=
        ⟨rfl, rfl, rfl, rfl, rfl, hle, rfl, fun _ k hk hr => ⟨k, hk, hr⟩⟩
      exact audit_keeps _ _ _ _ _ _ (wrN_keeps _ _ _ _ (updHusk_keeps _ _ hotp hx))

theorem execDeviceWarmReset_completes (ch : Fin 64) (s : State) : Completes s (execDeviceWarmReset ch s) := by
  unfold execDeviceWarmReset
  grind [completes_next, keeps_refl, warmReq_keeps, updHusk_keeps_of_otp_same]

theorem execCulmReset_completes (ch : Fin 64) (s : State) : Completes s (execCulmReset ch s) := by
  unfold execCulmReset
  grind [completes_next, keeps_refl, warmReq_keeps, culmRestart_keeps]

theorem execTillerEngineReset_completes (ch : Fin 64) (s : State) : Completes s (execTillerEngineReset ch s) := by
  unfold execTillerEngineReset
  rw [completes_next]
  have hk := keeps_refl s
  with_reducible repeat' first
    | assumption | intro _ | apply warmReq_keeps | apply locksOf_keeps | apply engineStop_keeps | apply engineFresh_keeps
    | apply engineFill_keeps | apply bundleLoad_keeps | apply keyReset_keeps | split

theorem execWarmResetRefused_completes (ch : Fin 64) (s : State) : Completes s (execWarmResetRefused ch s) := by
  unfold execWarmResetRefused
  grind [completes_next, keeps_refl, huskReq_keeps]

theorem execTillerReloadTimeout_completes (n : Act) (s : State) : Completes s (execTillerReloadTimeout n s) := by
  unfold execTillerReloadTimeout
  grind [completes_next, keeps_refl, updAct_keeps, failActs_keeps]

theorem execTillerLoad_completes (ch : Fin 64) (ddrErr : Bool) (s : State) : Completes s (execTillerLoad ch ddrErr s) := by
  unfold execTillerLoad
  grind [completes_next, keeps_refl, huskReq_keeps, engineStop_keeps, loadStart_keeps]

theorem execLoad_completes (q : Quad) (ddrErr : Bool) (s : State) : Completes s (execLoad q ddrErr s) := by
  unfold execLoad
  grind [completes_next, keeps_refl, loaderLoad_keeps]

theorem execHalt_completes (q : Quad) (s : State) : Completes s (execHalt q s) := by
  unfold execHalt
  grind [completes_next, keeps_refl, loaderTake_keeps, wr_keeps, loaderAnswer_keeps]

theorem execMctpMessage_completes (nvmeMi : Bool) (tag : Byte) (tagOwner : Bool) (message : List Byte) (s : State) :
    Completes s (execMctpMessage nvmeMi tag tagOwner message s) := by
  unfold execMctpMessage
  grind [completes_next, keeps_refl, miError_keeps, audit_keeps, updHusk_keeps_of_otp_same]

theorem execMiRelay_completes (s : State) : Completes s (execMiRelay s) := by
  unfold execMiRelay
  grind [completes_next, keeps_refl, memWrite_keeps, huskSend_keeps, updHusk_keeps_of_otp_same]

theorem execMiResponse_completes (s : State) : Completes s (execMiResponse s) := by
  unfold execMiResponse
  grind [completes_next, keeps_refl, mbRelease_keeps, emit_keeps, updHusk_keeps_of_otp_same]

theorem execMiRelayTimeout_completes (s : State) : Completes s (execMiRelayTimeout s) := by
  unfold execMiRelayTimeout
  grind [completes_next, keeps_refl, miError_keeps, audit_keeps, updHusk_keeps_of_otp_same]

/-! ### Granary and main memory (15) -/

theorem execMainMemoryAccess_completes (who : Initiator) (secure : Bool) (addr : BitVec 48) (wr : Option (List Byte)) (len : Nat)
    (obs : MemObs) (s : State) :
    Completes s (execMainMemoryAccess who secure addr wr len obs s) := by
  unfold execMainMemoryAccess
  grind [completes_next, keeps_refl, huskAccess_keeps, wake_keeps, lineAccess_keeps, violate_keeps, emit_keeps, keeps_foldl]

theorem execGleaningWriteBackDone_completes (line : Nat) (s : State) : Completes s (execGleaningWriteBackDone line s) := by
  unfold execGleaningWriteBackDone
  grind [completes_next, keeps_refl, updGran_keeps, ddrWrite_keeps, bump_keeps, granRefresh_keeps]

theorem execGranaryRangeGo_completes (i : Fin 8) (writer : Initiator) (s : State) : Completes s (execGranaryRangeGo i writer s) := by
  unfold execGranaryRangeGo
  rw [completes_next]
  have hk := keeps_refl s
  with_reducible repeat' first
    | assumption | intro _ | apply keeps_ite | apply guard_keeps | apply wrN_keeps | apply wr_keeps | apply updGran_keeps

theorem execCleanAndInvalidate_completes (i : Fin 8) (s : State) : Completes s (execCleanAndInvalidate i s) := by
  unfold execCleanAndInvalidate
  grind [completes_next, keeps_refl, rangeOp_keeps, invalidate_keeps]

theorem execDiscardAndInvalidate_completes (i : Fin 8) (s : State) : Completes s (execDiscardAndInvalidate i s) := by
  unfold execDiscardAndInvalidate
  grind [completes_next, keeps_refl, rangeOp_keeps, invalidate_keeps]

theorem execPreload_completes (i : Fin 8) (s : State) : Completes s (execPreload i s) := by
  unfold execPreload
  grind [completes_next, keeps_refl, rangeOp_keeps, preload_keeps]

theorem execPreloadAndLock_completes (i : Fin 8) (s : State) : Completes s (execPreloadAndLock i s) := by
  unfold execPreloadAndLock
  grind [completes_next, keeps_refl, rangeOp_keeps, preload_keeps, lockLine_keeps]

theorem execUnlock_completes (i : Fin 8) (s : State) : Completes s (execUnlock i s) := by
  unfold execUnlock
  grind [completes_next, keeps_refl, rangeOp_keeps, unlockLine_keeps]

theorem execRangeOperationDone_completes (i : Fin 8) (s : State) : Completes s (execRangeOperationDone i s) := by
  unfold execRangeOperationDone
  grind [completes_next, keeps_refl, wr_keeps, updGran_keeps]

theorem execPatrolScrub_completes (line : Nat) (ecc : EccEvent) (s : State) : Completes s (execPatrolScrub line ecc s) := by
  unfold execPatrolScrub
  rw [completes_next]
  have hk := keeps_refl s
  with_reducible repeat' first
    | assumption | intro _ | apply keeps_ite | apply ddrRead_keeps | apply ddrWrite_keeps | apply ddrPoison_keeps | apply audit_keeps
    | apply bump_keeps | split

theorem execDimmSensorRead_completes (temps : List (Option Int)) (s : State) : Completes s (execDimmSensorRead temps s) := by
  unfold execDimmSensorRead
  grind [completes_next, keeps_refl, dimmRead_keeps, keeps_foldl]

/-! ### Spindle motor (12) -/

theorem execSenseEnd_completes (h : Hda) (bemf : BemfObs) (s : State) : Completes s (execSenseEnd h bemf s) := by
  unfold execSenseEnd
  rw [completes_next]
  have hk := keeps_refl s
  with_reducible repeat' first
    | assumption | intro _ | apply keeps_ite | apply senseBemf_keeps | apply bump_keeps | apply wr_keeps | apply spinState_keeps
    | apply brakeOn_keeps | apply spinSeed_keeps | apply spinAlign_keeps

theorem execAlignEnd_completes (h : Hda) (s : State) : Completes s (execAlignEnd h s) := by
  unfold execAlignEnd
  grind [completes_next, keeps_refl, spinState_keeps]

theorem execHandoffTimeout_completes (h : Hda) (s : State) : Completes s (execHandoffTimeout h s) := by
  unfold execHandoffTimeout
  grind [completes_next, keeps_refl, attemptLost_keeps]

theorem execStartRetry_completes (h : Hda) (s : State) : Completes s (execStartRetry h s) := by
  unfold execStartRetry
  grind [completes_next, keeps_refl, spinSense_keeps]

theorem execBrakeIntervalEnd_completes (h : Hda) (bemf : BemfObs) (s : State) : Completes s (execBrakeIntervalEnd h bemf s) := by
  unfold execBrakeIntervalEnd
  grind [completes_next, keeps_refl, senseBemf_keeps, spinAlign_keeps, brakeOn_keeps, updSpin_keeps, motorOff_keeps]

theorem execBrakeTimeout_completes (h : Hda) (s : State) : Completes s (execBrakeTimeout h s) := by
  unfold execBrakeTimeout
  grind [completes_next, keeps_refl, spinFail_keeps, raise_keeps]

theorem execSpinupTimeout_completes (h : Hda) (s : State) : Completes s (execSpinupTimeout h s) := by
  unfold execSpinupTimeout
  rw [completes_next]
  have hk := keeps_refl s
  with_reducible repeat' first
    | assumption | intro _ | apply bump_keeps | apply instsOff_keeps | apply raise_keeps | apply audit_keeps | apply spinFail_keeps
    | apply spindleCoast_keeps | apply updSpin_keeps | apply spinRelease_keeps | apply spinAsk_keeps | split | simp only [keeps_mk]

theorem execReacqTimeout_completes (h : Hda) (s : State) : Completes s (execReacqTimeout h s) := by
  unfold execReacqTimeout
  grind [completes_next, keeps_refl, spinUnload_keeps]

theorem execReacquisitionDone_completes (h : Hda) (bemf : BemfObs) (s : State) : Completes s (execReacquisitionDone h bemf s) := by
  unfold execReacquisitionDone
  grind [completes_next, keeps_refl, senseBemf_keeps, bump_keeps, spinSeed_keeps, spinUnload_keeps]

theorem execUnloadDone_completes (h : Hda) (s : State) : Completes s (execUnloadDone h s) := by
  unfold execUnloadDone
  grind [completes_next, keeps_refl, bump_keeps, spinStart_keeps]

theorem execBusUndervoltage_completes (h : Hda) (s : State) : Completes s (execBusUndervoltage h s) := by
  unfold execBusUndervoltage
  grind [completes_next, keeps_refl, instsOff_keeps, spindleCoast_keeps, spinRelease_keeps, raise_keeps]

theorem execSpinStart_completes (h : Hda) (writer : Option Initiator) (s : State) : Completes s (execSpinStart h writer s) := by
  unfold execSpinStart
  grind [completes_next, keeps_refl, guard_keeps, spinStart_keeps, wrN_keeps]

theorem execSpinStop_completes (h : Hda) (writer : Option Initiator) (s : State) : Completes s (execSpinStop h writer s) := by
  unfold execSpinStop
  grind [completes_next, keeps_refl, guard_keeps, wr_keeps, spinStop_keeps]

theorem execSpinTune_completes (h : Hda) (writer : Initiator) (s : State) : Completes s (execSpinTune h writer s) := by
  unfold execSpinTune
  grind [completes_next, keeps_refl, guard_keeps, wr_keeps, updLoop_keeps]

theorem execSpindlePeriod_completes (h : Hda) (obs : SpindleObs) (s : State) : Completes s (execSpindlePeriod h obs s) := by
  unfold execSpindlePeriod
  rw [completes_next]
  have hk := keeps_refl s
  with_reducible repeat' first
    | assumption | intro _ | apply keeps_ite | apply motor_keeps | apply spinUnload_keeps | apply updPort_keeps | apply updSpin_keeps
    | apply spinFail_keeps | apply raise_keeps | apply openLoop_keeps | apply residual_keeps | apply wrN_keeps | apply wr_keeps
    | apply obsLoss_keeps | apply attemptLost_keeps | apply spinRun_keeps | apply spinLock_keeps | apply spinLimits_keeps
    | apply rampRef_keeps | apply loopInput_keeps | apply wrB_keeps | apply bumpWrap_keeps | apply bump_keeps

/-! ### Faults and disabling (17) -/

theorem execFaultDetection_completes (ftype : BitVec 16) (inst : Nat) (info : Word) (injected : Bool) (s : State) :
    Completes s (execFaultDetection ftype inst info injected s) := by
  unfold execFaultDetection
  grind [completes_next, keeps_refl, detect_keeps, failHeld_keeps]

theorem execFaultRecovery_completes (ftype : BitVec 16) (inst : Nat) (s : State) : Completes s (execFaultRecovery ftype inst s) := by
  unfold execFaultRecovery
  grind [completes_next, keeps_refl, updFlt_keeps, recover_keeps, spinAsk_keeps]

theorem execReactionHoldTimeout_completes (n : Act) (s : State) : Completes s (execReactionHoldTimeout n s) := by
  unfold execReactionHoldTimeout
  grind [completes_next, keeps_refl, updAct_keeps, failActs_keeps]

theorem execFltStat_completes (blk : Fin 270) (writer : Initiator) (offset : Byte) (value : Word) (s : State) :
    Completes s (execFltStat blk writer offset value s) := by
  unfold execFltStat
  grind [completes_next, keeps_refl, guard_keeps, wrBit_keeps, updFlt_keeps, keeps_foldl]

theorem execInjArm_completes (blk : Fin 270) (writer : Initiator) (target : InjAlias) (s : State) :
    Completes s (execInjArm blk writer target s) := by
  unfold execInjArm
  grind [completes_next, keeps_refl, guard_keeps, audit_keeps, updFlt_keeps, wr_keeps]

theorem execDis_completes (target : DisTarget) (writer : Initiator) (force alsoEn : Bool) (s : State) :
    Completes s (execDis target writer force alsoEn s) := by
  unfold execDis
  rw [completes_next]
  have hk := keeps_refl s
  with_reducible repeat' first
    | assumption | intro _ | apply keeps_ite | apply guard_keeps | apply wr_keeps | apply audit_keeps | apply disableAct_keeps
    | apply disEnd_keeps | apply keeps_foldl | split

theorem execEn_completes (target : DisTarget) (writer : Initiator) (s : State) : Completes s (execEn target writer s) := by
  unfold execEn
  grind [completes_next, keeps_refl, guard_keeps, wr_keeps, attempt_keeps]

/-! ### Housekeeping (16) -/

theorem execExclusiveMediaSlotEnd_completes (n : Act) (s : State) : Completes s (execExclusiveMediaSlotEnd n s) := by
  unfold execExclusiveMediaSlotEnd
  grind [completes_next, keeps_refl, slotEnd_keeps]

theorem execHousekeepingRound_completes (obs : RoundObs) (s : State) : Completes s (execHousekeepingRound obs s) := by
  unfold execHousekeepingRound
  grind [completes_next, keeps_refl, passUs_keeps, bump_keeps, round_keeps]

theorem execCalReq_completes (scope : CalScope) (writer : Initiator) (mask : Byte) (s : State) :
    Completes s (execCalReq scope writer mask s) := by
  unfold execCalReq
  grind [completes_next, keeps_refl, guard_keeps, calTrigger_keeps, keeps_foldl]

theorem execCalDeferMaxExpiry_completes (scope : CalScope) (item : Fin 8) (s : State) :
    Completes s (execCalDeferMaxExpiry scope item s) := by
  unfold execCalDeferMaxExpiry
  grind [completes_next, keeps_refl, setRun_keeps, calShow_keeps, audit_keeps]

/-! ### Resets and power states (04, 20) -/

theorem execPwrOkRising_completes (obs : BootObs) (s : State) : Completes s (execPwrOkRising obs s) := by
  unfold execPwrOkRising
  grind [completes_next, keeps_refl, wipe_keeps, resumeTime_keeps, boot_keeps, keeps_mk]

theorem execPwrOkFalling_completes (lowNs : Nat) (s : State) : Completes s (execPwrOkFalling lowNs s) := by
  unfold execPwrOkFalling
  grind [completes_next, keeps_refl, wipe_keeps, keeps_mk]

theorem execRstNLow_completes (lowNs : Nat) (s : State) : Completes s (execRstNLow lowNs s) := by
  unfold execRstNLow
  grind [completes_next, keeps_refl, wipe_keeps, updHusk_keeps_of_otp_same]

theorem execPinReset_completes (obs : BootObs) (s : State) : Completes s (execPinReset obs s) := by
  unfold execPinReset
  grind [completes_next, keeps_refl, boot_keeps, updHusk_keeps_of_otp_same]

theorem execGroup1WithinTolerance_completes (s : State) : Completes s (execGroup1WithinTolerance s) := by
  unfold execGroup1WithinTolerance
  grind [completes_next, keeps_refl, keeps_mk]

theorem execVddIoOutOfTolerance_completes (s : State) : Completes s (execVddIoOutOfTolerance s) := by
  unfold execVddIoOutOfTolerance
  grind [completes_next, keeps_refl, keeps_mk]

theorem execDdrTrainingDone_completes (obs : TrainObs) (s : State) : Completes s (execDdrTrainingDone obs s) := by
  unfold execDdrTrainingDone
  grind [completes_next, keeps_refl, ddrFailed_keeps, ddrTrained_keeps, stepNine_keeps]

theorem execWarmResetDrainEnd_completes (obs : BootObs) (s : State) : Completes s (execWarmResetDrainEnd obs s) := by
  unfold execWarmResetDrainEnd
  rw [completes_next]
  have hk := keeps_refl s
  with_reducible repeat' first
    | assumption | intro _ | apply loseBuffered_keeps | apply cleanSides_keeps | apply audit_keeps | apply norFlush_keeps
    | apply giveAll_keeps | apply wipe_keeps | apply wrB_keeps | apply boot_keeps | apply keeps_foldl | split | simp only [keeps_mk]

theorem execPerstNRising_completes (s : State) : Completes s (execPerstNRising s) := by
  unfold execPerstNRising
  grind [completes_next, keeps_refl, keeps_mk]

theorem execPcieLinkUp_completes (rate width : Nat) (flit : Bool) (s : State) : Completes s (execPcieLinkUp rate width flit s) := by
  unfold execPcieLinkUp
  grind [completes_next, keeps_refl, wr_keeps, wrN_keeps, wrB_keeps]

theorem execPcieConventionalReset_completes (kind : PcieReset) (s : State) : Completes s (execPcieConventionalReset kind s) := by
  unfold execPcieConventionalReset
  grind [completes_next, keeps_refl, linkClear_keeps, hostReset_keeps, keeps_mk]

theorem execFunctionLevelReset_completes (s : State) : Completes s (execFunctionLevelReset s) := by
  unfold execFunctionLevelReset
  grind [completes_next, keeps_refl, hostReset_keeps]

theorem execNvmSubsystemReset_completes (nssr : Word) (s : State) : Completes s (execNvmSubsystemReset nssr s) := by
  unfold execNvmSubsystemReset
  grind [completes_next, keeps_refl, linkClear_keeps, hostReset_keeps, updHost_keeps]

theorem execConfigurationRequest_completes (s : State) : Completes s (execConfigurationRequest s) := by
  unfold execConfigurationRequest
  grind [completes_next, keeps_refl, bump_keeps, emit_keeps]

theorem execShutdownAbrupt_completes (s : State) : Completes s (execShutdownAbrupt s) := by
  unfold execShutdownAbrupt
  grind [completes_next, keeps_refl, updHost_keeps, shutdownEnd_keeps]

theorem execShutdownDrainDone_completes (s : State) : Completes s (execShutdownDrainDone s) := by
  unfold execShutdownDrainDone
  grind [completes_next, keeps_refl, shutdownEnd_keeps]

theorem execShutdownTimeout_completes (s : State) : Completes s (execShutdownTimeout s) := by
  unfold execShutdownTimeout
  grind [completes_next, keeps_refl, audit_keeps, shutdownEnd_keeps]

theorem execPowerManagement_completes (slot : BitVec 16) (s : State) : Completes s (execPowerManagement slot s) := by
  unfold execPowerManagement
  grind [completes_next, keeps_refl, setFeature_keeps, complete_keeps, psEnter_keeps]

theorem execAutonomousTransition_completes (s : State) : Completes s (execAutonomousTransition s) := by
  unfold execAutonomousTransition
  grind [completes_next, keeps_refl, psEnter_keeps]

theorem execPowerStateEntryDone_completes (s : State) : Completes s (execPowerStateEntryDone s) := by
  unfold execPowerStateEntryDone
  grind [completes_next, keeps_refl, spinDown_keeps, ps4Extra_keeps, wrN_keeps, wr_keeps, audit_keeps, keeps_foldl]

theorem execPowerStateReturnTimeout_completes (n : Act) (s : State) : Completes s (execPowerStateReturnTimeout n s) := by
  unfold execPowerStateReturnTimeout
  grind [completes_next, keeps_refl, updAct_keeps, failActs_keeps, audit_keeps, psSettle_keeps]

theorem execPs2SideSwitch_completes (h : Hda) (waited : Bool) (s : State) : Completes s (execPs2SideSwitch h waited s) := by
  unfold execPs2SideSwitch
  grind [completes_next, keeps_refl, park_keeps, keeps_mk]

theorem execSpinUpGroupStart_completes (s : State) : Completes s (execSpinUpGroupStart s) := by
  unfold execSpinUpGroupStart
  grind [completes_next, keeps_refl, spinStart_keeps, spinRelease_keeps, spinAsk_keeps, keeps_foldl, keeps_mk]

theorem execNamespaceReady_completes (n : Act) (ledger : LedgerObs) (s : State) : Completes s (execNamespaceReady n ledger s) := by
  unfold execNamespaceReady
  grind [completes_next, keeps_refl, readLedger_keeps, readCal_keeps, updAct_keeps, psSettle_keeps]

/-! ### Orrery fabric (19) -/

theorem execElectionListenEnd_completes (s : State) : Completes s (execElectionListenEnd s) := by
  unfold execElectionListenEnd
  grind [completes_next, keeps_refl, updOrr_keeps, orrSend_keeps, sendJoin_keeps, becomeManager_keeps, askStanding_keeps]

theorem execClaim_completes (hdr : OrrHdr) (prio : Byte) (s : State) : Completes s (execClaim hdr prio s) := by
  unfold execClaim
  grind [completes_next, keeps_refl, orrTake_keeps, updOrr_keeps]

theorem execHeartbeat_completes (hdr : OrrHdr) (msg : HeartbeatMsg) (s : State) : Completes s (execHeartbeat hdr msg s) := by
  unfold execHeartbeat
  grind [completes_next, keeps_refl, orrTake_keeps, wrN_keeps, updOrr_keeps, followManager_keeps, sendJoin_keeps, stepDown_keeps,
    dropXfer_keeps, sendTokenState_keeps]

theorem execHeartbeatSend_completes (s : State) : Completes s (execHeartbeatSend s) := by
  unfold execHeartbeatSend
  grind [completes_next, keeps_refl, orrRefresh_keeps, sendHeartbeat_keeps]

theorem execJoin_completes (hdr : OrrHdr) (eligible : Bool) (prio : Byte) (portDecl : Word) (s : State) :
    Completes s (execJoin hdr eligible prio portDecl s) := by
  unfold execJoin
  grind [completes_next, keeps_refl, orrTake_keeps, orrSend_keeps, updMember_keeps, orrRefresh_keeps, regrant_keeps, updOrr_keeps]

theorem execJoinAck_completes (hdr : OrrHdr) (memberId : BitVec 16) (result : Byte) (s : State) :
    Completes s (execJoinAck hdr memberId result s) := by
  unfold execJoinAck
  grind [completes_next, keeps_refl, orrTake_keeps, updOrr_keeps, wrN_keeps, askStanding_keeps]

theorem execJoinRetry_completes (s : State) : Completes s (execJoinRetry s) := by
  unfold execJoinRetry
  grind [completes_next, keeps_refl, sendJoin_keeps]

theorem execRequestResend_completes (s : State) : Completes s (execRequestResend s) := by
  unfold execRequestResend
  grind [completes_next, keeps_refl, sendJoin_keeps, orrSend_keeps, keeps_foldl]

theorem execManagerLost_completes (s : State) : Completes s (execManagerLost s) := by
  unfold execManagerLost
  rw [completes_next]
  have hk := keeps_refl s
  with_reducible repeat' first
    | assumption | intro _ | apply keeps_ite | apply bump_keeps | apply audit_keeps | apply updOrr_keeps | apply dropXfer_keeps
    | apply becomeManager_keeps

theorem execTakeoverHoldEnd_completes (s : State) : Completes s (execTakeoverHoldEnd s) := by
  unfold execTakeoverHoldEnd
  grind [completes_next, keeps_refl, updOrr_keeps, regrant_keeps]

theorem execMemberAbsent_completes (id : Nat) (holdPassed : Bool) (s : State) : Completes s (execMemberAbsent id holdPassed s) := by
  unfold execMemberAbsent
  grind [completes_next, keeps_refl, updMember_keeps, updOrr_keeps, regrant_keeps]

theorem execTokenReq_completes (hdr : OrrHdr) (msg : TokenReqMsg) (s : State) : Completes s (execTokenReq hdr msg s) := by
  unfold execTokenReq
  grind [completes_next, keeps_refl, orrTake_keeps, orrSend_keeps, enqueue_keeps]

theorem execTokenGrant_completes (hdr : OrrHdr) (reqId : Word) (tokenId : Word) (watts : Word) (s : State) :
    Completes s (execTokenGrant hdr reqId tokenId watts s) := by
  unfold execTokenGrant
  grind [completes_next, keeps_refl, orrTake_keeps, updMember_keeps, updOrr_keeps, tokenTake_keeps, tokenGive_keeps]

theorem execTokenReturn_completes (hdr : OrrHdr) (tokenId : Word) (s : State) : Completes s (execTokenReturn hdr tokenId s) := by
  unfold execTokenReturn
  grind [completes_next, keeps_refl, orrTake_keeps, updMember_keeps, orrRefresh_keeps, orrSend_keeps, regrant_keeps]

theorem execReturnAck_completes (hdr : OrrHdr) (tokenId : Word) (s : State) : Completes s (execReturnAck hdr tokenId s) := by
  unfold execReturnAck
  grind [completes_next, keeps_refl, orrTake_keeps, updOrr_keeps, orrRefresh_keeps]

theorem execTokenState_completes (hdr : OrrHdr) (tokens : List (Word × Word)) (s : State) : Completes s (execTokenState hdr tokens s) := by
  unfold execTokenState
  grind [completes_next, keeps_refl, orrTake_keeps, ledgerOf_keeps, updMember_keeps, updOrr_keeps, regrant_keeps, keeps_foldl]

theorem execDrawSend_completes (s : State) : Completes s (execDrawSend s) := by
  unfold execDrawSend
  rw [completes_next]
  have hk := keeps_refl s
  with_reducible repeat' first
    | assumption | intro _ | apply keeps_ite | apply updSpin_keeps | apply wrN_keeps | apply orrSend_keeps | apply updMember_keeps
    | apply regrant_keeps | apply keeps_foldl

theorem execDraw_completes (hdr : OrrHdr) (steady : Word) (total : Word) (curPs : Byte) (portsUp : Byte) (s : State) :
    Completes s (execDraw hdr steady total curPs portsUp s) := by
  unfold execDraw
  grind [completes_next, keeps_refl, orrTake_keeps, ledgerOf_keeps, updMember_keeps, regrant_keeps]

theorem execImageOffer_completes (hdr : OrrHdr) (xferId : Word) (target : Byte) (length : Word) (s : State) :
    Completes s (execImageOffer hdr xferId target length s) := by
  unfold execImageOffer
  grind [completes_next, keeps_refl, orrTake_keeps, updOrr_keeps, imageDone_keeps]

theorem execImageChunk_completes (hdr : OrrHdr) (xferId : Word) (index : Word) (data : List Byte) (norOk : Bool) (s : State) :
    Completes s (execImageChunk hdr xferId index data norOk s) := by
  unfold execImageChunk
  grind [completes_next, keeps_refl, orrTake_keeps, dmaWrite_keeps, updOrr_keeps, imageDone_keeps]

theorem execImageNeedSend_completes (s : State) : Completes s (execImageNeedSend s) := by
  unfold execImageNeedSend
  grind [completes_next, keeps_refl, sendNeed_keeps]

theorem execImageNeed_completes (hdr : OrrHdr) (xferId : Word) (firstMissing : Word) (s : State) :
    Completes s (execImageNeed hdr xferId firstMissing s) := by
  unfold execImageNeed
  grind [completes_next, keeps_refl, orrTake_keeps, updOrr_keeps]

theorem execImageResult_completes (hdr : OrrHdr) (xferId : Word) (status : Byte) (step : Byte) (s : State) :
    Completes s (execImageResult hdr xferId status step s) := by
  unfold execImageResult
  grind [completes_next, keeps_refl, orrTake_keeps, updOrr_keeps]

theorem execImageTransferTimeout_completes (s : State) : Completes s (execImageTransferTimeout s) := by
  unfold execImageTransferTimeout
  grind [completes_next, keeps_refl, dropXfer_keeps]

theorem execAuditPull_completes (hdr : OrrHdr) (fromSeq : BitVec 64) (s : State) : Completes s (execAuditPull hdr fromSeq s) := by
  unfold execAuditPull
  grind [completes_next, keeps_refl, orrTake_keeps, snapOpen_keeps, updOrr_keeps]

theorem execAuditPageSend_completes (s : State) : Completes s (execAuditPageSend s) := by
  unfold execAuditPageSend
  grind [completes_next, keeps_refl, snapClose_keeps, updOrr_keeps, orrSend_keeps]

theorem execAuditPage_completes (hdr : OrrHdr) (last : Bool) (broken : Bool) (records : List (List Byte)) (s : State) :
    Completes s (execAuditPage hdr last broken records s) := by
  unfold execAuditPage
  grind [completes_next, keeps_refl, orrTake_keeps, updOrr_keeps]

theorem execCalWindow_completes (hdr : OrrHdr) (member : BitVec 16) (startMs : Word) (lengthMs : Word) (s : State) :
    Completes s (execCalWindow hdr member startMs lengthMs s) := by
  unfold execCalWindow
  grind [completes_next, keeps_refl, orrTake_keeps, updOrr_keeps]

theorem execPtpSync_completes (offsetNs : Int) (seconds : BitVec 48) (nanoseconds : Word) (s : State) :
    Completes s (execPtpSync offsetNs seconds nanoseconds s) := by
  unfold execPtpSync
  grind [completes_next, keeps_refl, wrInt_keeps, updOrr_keeps, setPtpLock_keeps]

theorem execPtpSyncTimeout_completes (s : State) : Completes s (execPtpSyncTimeout s) := by
  unfold execPtpSyncTimeout
  grind [completes_next, keeps_refl, updOrr_keeps, setPtpLock_keeps]

theorem execPtpSyncInterval_completes (s : State) : Completes s (execPtpSyncInterval s) := by
  unfold execPtpSyncInterval
  grind [completes_next, keeps_refl, emit_keeps, keeps_foldl]

theorem execOrreryPortUpChange_completes (p : Fin 2) (up : Bool) (s : State) : Completes s (execOrreryPortUpChange p up s) := by
  unfold execOrreryPortUpChange
  grind [completes_next, keeps_refl, wrBit_keeps]

/-! ### Log pages and Identify (13) -/

theorem execIdentify_completes (slot : BitVec 16) (s : State) : Completes s (execIdentify slot s) := by
  unfold execIdentify
  grind [completes_next, keeps_refl, adminRow_keeps, emit_keeps, tick_keeps, complete_keeps]

theorem execGetLogPage_completes (slot : BitVec 16) (s : State) : Completes s (execGetLogPage slot s) := by
  unfold execGetLogPage
  rw [completes_next]
  have hk := keeps_refl s
  with_reducible repeat' first
    | assumption | intro _ | apply keeps_ite | apply adminRow_keeps | apply complete_keeps | apply lostKeep_keeps | apply emit_keeps
    | apply tick_keeps | apply logClear_keeps | extract_lets | split

/-! ### Namespaces, firmware and self-tests (13) -/

theorem execNamespaceCreate_completes (slot : BitVec 16) (nvmSet : BitVec 16) (nsze ncap : BitVec 64) (flbas csi : Byte) (s : State) :
    Completes s (execNamespaceCreate slot nvmSet nsze ncap flbas csi s) := by
  unfold execNamespaceCreate
  rw [completes_next]
  have hk := keeps_refl s
  with_reducible repeat' first
    | assumption | intro _ | apply keeps_ite | apply adminAction_keeps | apply complete_keeps | apply updHost_keeps
    | apply setAttached_keeps | apply keyNew_keeps | apply stage_keeps | apply nsNotice_keeps | apply settle_keeps

theorem execNamespaceDelete_completes (slot : BitVec 16) (s : State) : Completes s (execNamespaceDelete slot s) := by
  unfold execNamespaceDelete
  rw [completes_next]
  have hk := keeps_refl s
  with_reducible repeat' first
    | assumption | intro _ | apply keeps_ite | apply adminAction_keeps | apply complete_keeps | apply keyDestroy_keeps
    | apply nsClear_keeps | apply updHost_keeps | apply setAttached_keeps | apply stage_keeps | apply nsNotice_keeps | apply updCmd_keeps
    | apply settle_keeps | split

theorem execNamespaceAttach_completes (slot : BitVec 16) (controllers : List (BitVec 16)) (s : State) :
    Completes s (execNamespaceAttach slot controllers s) := by
  unfold execNamespaceAttach
  grind [completes_next, keeps_refl, attach_keeps]

theorem execNamespaceDetach_completes (slot : BitVec 16) (controllers : List (BitVec 16)) (s : State) :
    Completes s (execNamespaceDetach slot controllers s) := by
  unfold execNamespaceDetach
  grind [completes_next, keeps_refl, attach_keeps]

theorem execFirmwareImageDownload_completes (slot : BitVec 16) (data : List Byte) (s : State) :
    Completes s (execFirmwareImageDownload slot data s) := by
  unfold execFirmwareImageDownload
  grind [completes_next, keeps_refl, adminRow_keeps, complete_keeps, dmaWrite_keeps, updHost_keeps]

theorem execFirmwareCommit_completes (slot : BitVec 16) (norOk : Bool) (s : State) : Completes s (execFirmwareCommit slot norOk s) := by
  unfold execFirmwareCommit
  grind [completes_next, keeps_refl, adminRow_keeps, complete_keeps, huskUpdate_keeps, updHost_keeps]

theorem execNvmeMiSend_completes (slot : BitVec 16) (message : List Byte) (s : State) : Completes s (execNvmeMiSend slot message s) := by
  unfold execNvmeMiSend
  grind [completes_next, keeps_refl, adminRow_keeps, updHost_keeps, complete_keeps]

theorem execNvmeMiReceive_completes (slot : BitVec 16) (s : State) : Completes s (execNvmeMiReceive slot s) := by
  unfold execNvmeMiReceive
  grind [completes_next, keeps_refl, adminRow_keeps, emit_keeps, updHost_keeps, complete_keeps]

theorem execShortDeviceSelfTest_completes (slot : BitVec 16) (s : State) : Completes s (execShortDeviceSelfTest slot s) := by
  unfold execShortDeviceSelfTest
  grind [completes_next, keeps_refl, testStart_keeps]

theorem execExtendedDeviceSelfTest_completes (slot : BitVec 16) (s : State) : Completes s (execExtendedDeviceSelfTest slot s) := by
  unfold execExtendedDeviceSelfTest
  grind [completes_next, keeps_refl, testStart_keeps]

theorem execDeviceSelfTestAbort_completes (slot : BitVec 16) (s : State) : Completes s (execDeviceSelfTestAbort slot s) := by
  unfold execDeviceSelfTestAbort
  grind [completes_next, keeps_refl, adminAction_keeps, testEnd_keeps, complete_keeps]

theorem execDeviceSelfTestDone_completes (firstFail : Option (Nat × Act)) (s : State) :
    Completes s (execDeviceSelfTestDone firstFail s) := by
  unfold execDeviceSelfTestDone
  grind [completes_next, keeps_refl, testEnd_keeps]

/-! ### Sanitize and format (14) -/

theorem execSanitizeOverwrite_completes (slot : BitVec 16) (s : State) : Completes s (execSanitizeOverwrite slot s) := by
  unfold execSanitizeOverwrite
  grind [completes_next, keeps_refl, adminAction_keeps, sanStart_keeps]

theorem execSanitizeCryptoErase_completes (slot : BitVec 16) (s : State) : Completes s (execSanitizeCryptoErase slot s) := by
  unfold execSanitizeCryptoErase
  grind [completes_next, keeps_refl, adminAction_keeps, sanStart_keeps]

theorem execExitFailureMode_completes (slot : BitVec 16) (s : State) : Completes s (execExitFailureMode slot s) := by
  unfold execExitFailureMode
  grind [completes_next, keeps_refl, adminAction_keeps, updHost_keeps, complete_keeps]

theorem execSanitizeUnitDone_completes (n : Act) (s : State) : Completes s (execSanitizeUnitDone n s) := by
  unfold execSanitizeUnitDone
  rw [completes_next]
  have hk := keeps_refl s
  with_reducible repeat' first
    | assumption | intro _ | apply keeps_ite | apply emit_keeps | apply putProgress_keeps | apply settle_keeps | apply sanSide_keeps
    | apply stage_keeps | apply sanEnd_keeps | split

theorem execSanitizeTrackTimeout_completes (n : Act) (s : State) : Completes s (execSanitizeTrackTimeout n s) := by
  unfold execSanitizeTrackTimeout
  grind [completes_next, keeps_refl, putProgress_keeps, updHost_keeps, keeps_foldl]

theorem execFormatNvm_completes (slot : BitVec 16) (s : State) : Completes s (execFormatNvm slot s) := by
  unfold execFormatNvm
  rw [completes_next]
  have hk := keeps_refl s
  with_reducible repeat' first
    | assumption | intro _ | apply keeps_ite | apply adminRow_keeps | apply complete_keeps | apply testEnd_keeps | apply formatNs_keeps
    | apply startProgress_keeps | apply updCmd_keeps | apply settle_keeps | apply keeps_foldl | split

/-! ### Every command, and every step -/

/-- Every command answers a next state, and that state keeps what `Keeps` names. -/
theorem exec_completes (c : Instr) (s : State) : Completes s (exec c s) :=
  match c with
  | .pwrOkRising obs => execPwrOkRising_completes obs s
  | .ddrTrainingDone obs => execDdrTrainingDone_completes obs s
  | .pwrOkFalling lowNs => execPwrOkFalling_completes lowNs s
  | .rstNLow lowNs => execRstNLow_completes lowNs s
  | .pinReset obs => execPinReset_completes obs s
  | .perstNRising => execPerstNRising_completes s
  | .pcieConventionalReset kind => execPcieConventionalReset_completes kind s
  | .functionLevelReset => execFunctionLevelReset_completes s
  | .nvmSubsystemReset nssr => execNvmSubsystemReset_completes nssr s
  | .configurationRequest => execConfigurationRequest_completes s
  | .controllerEnable cc => execControllerEnable_completes cc s
  | .controllerReset => execControllerReset_completes s
  | .shutdownNormal => execShutdownNormal_completes s
  | .shutdownAbrupt => execShutdownAbrupt_completes s
  | .shutdownDrainDone => execShutdownDrainDone_completes s
  | .shutdownTimeout => execShutdownTimeout_completes s
  | .update ch norOk => execUpdate_completes ch norOk s
  | .tillerLoad ch ddrErr => execTillerLoad_completes ch ddrErr s
  | .nsKeyNew ch ledgerOk => execNsKeyNew_completes ch ledgerOk s
  | .nsKeyDestroy ch ledgerOk => execNsKeyDestroy_completes ch ledgerOk s
  | .auditClear ch => execAuditClear_completes ch s
  | .traceClear ch => execTraceClear_completes ch s
  | .liveSet ch => execLiveSet_completes ch s
  | .livePatch ch => execLivePatch_completes ch s
  | .faultRelease ch => execFaultRelease_completes ch s
  | .slotRevoke ch => execSlotRevoke_completes ch s
  | .floorRaise ch => execFloorRaise_completes ch s
  | .deviceWarmReset ch => execDeviceWarmReset_completes ch s
  | .warmResetDrainEnd obs => execWarmResetDrainEnd_completes obs s
  | .culmReset ch => execCulmReset_completes ch s
  | .tillerEngineReset ch => execTillerEngineReset_completes ch s
  | .tillerReloadTimeout n => execTillerReloadTimeout_completes n s
  | .warmResetRefused ch => execWarmResetRefused_completes ch s
  | .miRelay => execMiRelay_completes s
  | .miResponse => execMiResponse_completes s
  | .miRelayTimeout => execMiRelayTimeout_completes s
  | .load q ddrErr => execLoad_completes q ddrErr s
  | .halt q => execHalt_completes q s
  | .go ch dir sender same other => execGo_completes ch dir sender same other s
  | .release ch dir receiver => execRelease_completes ch dir receiver s
  | .rcvReset ch dir receiver => execRcvReset_completes ch dir receiver s
  | .compatLastDataRead ch dir reader => execCompatLastDataRead_completes ch dir reader s
  | .mailboxDataWrite ch dir ix writer value => execMailboxDataWrite_completes ch dir ix writer value s
  | .lockAcquire ix release readers => execLockAcquire_completes ix release readers s
  | .lockRelease ix writer => execLockRelease_completes ix writer s
  | .windowRegisterWrite writer id w reg value => execWindowRegisterWrite_completes writer id w reg value s
  | .registerWrite writer target value => execRegisterWrite_completes writer target value s
  | .violationAuditSecond => execViolationAuditSecond_completes s
  | .submissionQueueTailDoorbell q tail => execSubmissionQueueTailDoorbell_completes q tail s
  | .completionQueueHeadDoorbell q head => execCompletionQueueHeadDoorbell_completes q head s
  | .admission entry => execAdmission_completes entry s
  | .mediaQueueEntry n => execMediaQueueEntry_completes n s
  | .dataGrainBuffered slot index payload tagOk => execDataGrainBuffered_completes slot index payload tagOk s
  | .bufWaitResume => execBufWaitResume_completes s
  | .dmaError slot kind => execDmaError_completes slot kind s
  | .createIoSq slot => execCreateIoSq_completes slot s
  | .deleteIoSq slot => execDeleteIoSq_completes slot s
  | .createIoCq slot => execCreateIoCq_completes slot s
  | .deleteIoCq slot => execDeleteIoCq_completes slot s
  | .getLogPage slot => execGetLogPage_completes slot s
  | .identify slot => execIdentify_completes slot s
  | .abort slot sameCycleCompletion => execAbort_completes slot sameCycleCompletion s
  | .abortCompletion slot => execAbortCompletion_completes slot s
  | .arbitration slot => execArbitration_completes slot s
  | .powerManagement slot => execPowerManagement_completes slot s
  | .temperatureThreshold slot => execTemperatureThreshold_completes slot s
  | .errorRecovery slot => execErrorRecovery_completes slot s
  | .volatileWriteCache slot => execVolatileWriteCache_completes slot s
  | .numberOfQueues slot => execNumberOfQueues_completes slot s
  | .interruptCoalescing slot => execInterruptCoalescing_completes slot s
  | .interruptVectorConfiguration slot => execInterruptVectorConfiguration_completes slot s
  | .asynchronousEventConfiguration slot => execAsynchronousEventConfiguration_completes slot s
  | .autonomousPowerStateTransition slot table => execAutonomousPowerStateTransition_completes slot table s
  | .timestamp slot ms => execTimestamp_completes slot ms s
  | .getFeatures slot => execGetFeatures_completes slot s
  | .asynchronousEventRequest slot => execAsynchronousEventRequest_completes slot s
  | .namespaceCreate slot nvmSet nsze ncap flbas csi => execNamespaceCreate_completes slot nvmSet nsze ncap flbas csi s
  | .namespaceDelete slot => execNamespaceDelete_completes slot s
  | .namespaceAttach slot controllers => execNamespaceAttach_completes slot controllers s
  | .namespaceDetach slot controllers => execNamespaceDetach_completes slot controllers s
  | .firmwareImageDownload slot data => execFirmwareImageDownload_completes slot data s
  | .firmwareCommit slot norOk => execFirmwareCommit_completes slot norOk s
  | .nvmeMiSend slot message => execNvmeMiSend_completes slot message s
  | .nvmeMiReceive slot => execNvmeMiReceive_completes slot s
  | .shortDeviceSelfTest slot => execShortDeviceSelfTest_completes slot s
  | .extendedDeviceSelfTest slot => execExtendedDeviceSelfTest_completes slot s
  | .deviceSelfTestAbort slot => execDeviceSelfTestAbort_completes slot s
  | .deviceSelfTestDone firstFail => execDeviceSelfTestDone_completes firstFail s
  | .formatNvm slot => execFormatNvm_completes slot s
  | .sanitizeOverwrite slot => execSanitizeOverwrite_completes slot s
  | .sanitizeCryptoErase slot => execSanitizeCryptoErase_completes slot s
  | .exitFailureMode slot => execExitFailureMode_completes slot s
  | .sanitizeUnitDone n => execSanitizeUnitDone_completes n s
  | .sanitizeTrackTimeout n => execSanitizeTrackTimeout_completes n s
  | .flush slot => execFlush_completes slot s
  | .write slot => execWrite_completes slot s
  | .read slot => execRead_completes slot s
  | .writeZeroes slot => execWriteZeroes_completes slot s
  | .verify slot => execVerify_completes slot s
  | .zoneAppend slot => execZoneAppend_completes slot s
  | .zoneClose slot => execZoneClose_completes slot s
  | .zoneFinish slot => execZoneFinish_completes slot s
  | .zoneOpen slot => execZoneOpen_completes slot s
  | .zoneReset slot => execZoneReset_completes slot s
  | .zoneOffline slot => execZoneOffline_completes slot s
  | .setZoneDescriptorExtension slot => execSetZoneDescriptorExtension_completes slot s
  | .reportZones slot => execReportZones_completes slot s
  | .extendedReportZones slot => execExtendedReportZones_completes slot s
  | .zmapFlush n => execZmapFlush_completes n s
  | .powerStateEntryDone => execPowerStateEntryDone_completes s
  | .autonomousTransition => execAutonomousTransition_completes s
  | .powerStateReturnTimeout n => execPowerStateReturnTimeout_completes n s
  | .ps2SideSwitch h waited => execPs2SideSwitch_completes h waited s
  | .laneSet h four => execLaneSet_completes h four s
  | .laneAck h hdr action status alnSeq => execLaneAck_completes h hdr action status alnSeq s
  | .laneChangeFailure h => execLaneChangeFailure_completes h s
  | .trainingAttempt h => execTrainingAttempt_completes h s
  | .trainingStateDone h farPrecode => execTrainingStateDone_completes h farPrecode s
  | .trainingStateTimeout h => execTrainingStateTimeout_completes h s
  | .trainingRetry h => execTrainingRetry_completes h s
  | .helloAck h hdr msg => execHelloAck_completes h hdr msg s
  | .descriptorRead h copy0 copy1 => execDescriptorRead_completes h copy0 copy1 s
  | .linkLoss h cause lane => execLinkLoss_completes h cause lane s
  | .retrain h writer alsoDown => execRetrain_completes h writer alsoDown s
  | .down h writer => execDown_completes h writer s
  | .flashRead h writer => execFlashRead_completes h writer s
  | .flashWrite h writer => execFlashWrite_completes h writer s
  | .flashErase h writer => execFlashErase_completes h writer s
  | .flashDone h hdr status => execFlashDone_completes h hdr status s
  | .hskFlashData h hdr tag offset data => execHskFlashData_completes h hdr tag offset data s
  | .hskTemperatures h hdr values => execHskTemperatures_completes h hdr values s
  | .hskRails h hdr values => execHskRails_completes h hdr values s
  | .hskEvent h hdr code => execHskEvent_completes h hdr code s
  | .motFrame h hdr side frameNo tick mtype values => execMotFrame_completes h hdr side frameNo tick mtype values s
  | .sampleMarker h hdr sid side marker => execSampleMarker_completes h hdr sid side marker s
  | .sampleFrame h hdr sid side payload => execSampleFrame_completes h hdr sid side payload s
  | .aln h lane arrival alnSeq corrected uncorrectable => execAln_completes h lane arrival alnSeq corrected uncorrectable s
  | .deskewMove h lane => execDeskewMove_completes h lane s
  | .stopAck h hdr reason safeLevel => execStopAck_completes h hdr reason safeLevel s
  | .stopAckTimeout h => execStopAckTimeout_completes h s
  | .credit h hdr sid side frames => execCredit_completes h hdr sid side frames s
  | .err h hdr code sid side winId => execErr_completes h hdr code sid side winId s
  | .wdone h hdr side winId bits => execWdone_completes h hdr side winId bits s
  | .keepalive h hdr => execKeepalive_completes h hdr s
  | .spinUpGroupStart => execSpinUpGroupStart_completes s
  | .namespaceReady n ledger => execNamespaceReady_completes n ledger s
  | .transitFrame n obs => execTransitFrame_completes n obs s
  | .toneUnlock n => execToneUnlock_completes n s
  | .transitAcquisitionTimeout n => execTransitAcquisitionTimeout_completes n s
  | .headsOffRamp n => execHeadsOffRamp_completes n s
  | .headsOnRamp n => execHeadsOnRamp_completes n s
  | .reacq n writer => execReacq_completes n writer s
  | .alignmentBurst n obs => execAlignmentBurst_completes n obs s
  | .radOfs n k writer value => execRadOfs_completes n k writer value s
  | .timOfs n k writer value => execTimOfs_completes n k writer value s
  | .epochOpen e writer src => execEpochOpen_completes e writer src s
  | .epochCommit e writer num chaffSameCycle => execEpochCommit_completes e writer num chaffSameCycle s
  | .epochChaff e writer num => execEpochChaff_completes e writer num s
  | .preseekChaffTimeout n => execPreseekChaffTimeout_completes n s
  | .opRead e writer => execOpRead_completes e writer s
  | .opWrite e writer => execOpWrite_completes e writer s
  | .opSeek e writer => execOpSeek_completes e writer s
  | .opRunaheadRead e writer => execOpRunaheadRead_completes e writer s
  | .preemption n => execPreemption_completes n s
  | .sectorVerdict l obs => execSectorVerdict_completes l obs s
  | .captureCopyDone l secdedErr => execCaptureCopyDone_completes l secdedErr s
  | .tapData l who value => execTapData_completes l who value s
  | .tapCommit l writer => execTapCommit_completes l writer s
  | .failureNoticeTaken => execFailureNoticeTaken_completes s
  | .decodeUnitDone d => execDecodeUnitDone_completes d s
  | .recoveryDeadline slot => execRecoveryDeadline_completes slot s
  | .remapFlush n => execRemapFlush_completes n s
  | .ledgerGenerationDurable n kind => execLedgerGenerationDurable_completes n kind s
  | .wtData n who value => execWtData_completes n who value s
  | .wtCommit n writer => execWtCommit_completes n writer s
  | .windowEnd n => execWindowEnd_completes n s
  | .loopRun g ts => execLoopRun_completes g ts s
  | .loopWatchdog g => execLoopWatchdog_completes g s
  | .retractPhaseEnd n => execRetractPhaseEnd_completes n s
  | .enable g writer on => execEnable_completes g writer on s
  | .modeReq g writer mode => execModeReq_completes g writer mode s
  | .swap g writer => execSwap_completes g writer s
  | .tuneTimeout g => execTuneTimeout_completes g s
  | .spPush n writer => execSpPush_completes n writer s
  | .frameBoundary n => execFrameBoundary_completes n s
  | .spinStart h writer => execSpinStart_completes h writer s
  | .spinStop h writer => execSpinStop_completes h writer s
  | .spinTune h writer => execSpinTune_completes h writer s
  | .spindlePeriod h obs => execSpindlePeriod_completes h obs s
  | .senseEnd h bemf => execSenseEnd_completes h bemf s
  | .alignEnd h => execAlignEnd_completes h s
  | .handoffTimeout h => execHandoffTimeout_completes h s
  | .startRetry h => execStartRetry_completes h s
  | .brakeIntervalEnd h bemf => execBrakeIntervalEnd_completes h bemf s
  | .brakeTimeout h => execBrakeTimeout_completes h s
  | .spinupTimeout h => execSpinupTimeout_completes h s
  | .reacqTimeout h => execReacqTimeout_completes h s
  | .reacquisitionDone h bemf => execReacquisitionDone_completes h bemf s
  | .unloadDone h => execUnloadDone_completes h s
  | .busUndervoltage h => execBusUndervoltage_completes h s
  | .faultDetection ftype inst info injected => execFaultDetection_completes ftype inst info injected s
  | .faultRecovery ftype inst => execFaultRecovery_completes ftype inst s
  | .reactionHoldTimeout n => execReactionHoldTimeout_completes n s
  | .fltStat blk writer offset value => execFltStat_completes blk writer offset value s
  | .injArm blk writer target => execInjArm_completes blk writer target s
  | .dis target writer force alsoEn => execDis_completes target writer force alsoEn s
  | .en target writer => execEn_completes target writer s
  | .housekeepingRound obs => execHousekeepingRound_completes obs s
  | .calReq scope writer mask => execCalReq_completes scope writer mask s
  | .calDeferMaxExpiry scope item => execCalDeferMaxExpiry_completes scope item s
  | .exclusiveMediaSlotEnd n => execExclusiveMediaSlotEnd_completes n s
  | .dimmSensorRead temps => execDimmSensorRead_completes temps s
  | .patrolScrub line ecc => execPatrolScrub_completes line ecc s
  | .granaryRangeGo ix writer => execGranaryRangeGo_completes ix writer s
  | .cleanAndInvalidate ix => execCleanAndInvalidate_completes ix s
  | .discardAndInvalidate ix => execDiscardAndInvalidate_completes ix s
  | .preload ix => execPreload_completes ix s
  | .preloadAndLock ix => execPreloadAndLock_completes ix s
  | .unlock ix => execUnlock_completes ix s
  | .rangeOperationDone ix => execRangeOperationDone_completes ix s
  | .gleaningWriteBackDone line => execGleaningWriteBackDone_completes line s
  | .tracePut writer => execTracePut_completes writer s
  | .auditPut writer => execAuditPut_completes writer s
  | .snapshotOpen handle writer close => execSnapshotOpen_completes handle writer close s
  | .snapshotClose handle writer => execSnapshotClose_completes handle writer s
  | .snapshotIdleClose handle => execSnapshotIdleClose_completes handle s
  | .hostSnapshotOpen => execHostSnapshotOpen_completes s
  | .hostSnapshotClose => execHostSnapshotClose_completes s
  | .pageSeqAdvance => execPageSeqAdvance_completes s
  | .norCopy ok => execNorCopy_completes ok s
  | .hourMark => execHourMark_completes s
  | .heartbeatSend => execHeartbeatSend_completes s
  | .heartbeat hdr msg => execHeartbeat_completes hdr msg s
  | .electionListenEnd => execElectionListenEnd_completes s
  | .claim hdr prio => execClaim_completes hdr prio s
  | .join hdr eligible prio portDecl => execJoin_completes hdr eligible prio portDecl s
  | .joinAck hdr memberId result => execJoinAck_completes hdr memberId result s
  | .requestResend => execRequestResend_completes s
  | .tokenReq hdr msg => execTokenReq_completes hdr msg s
  | .tokenGrant hdr reqId tokenId watts => execTokenGrant_completes hdr reqId tokenId watts s
  | .tokenReturn hdr tokenId => execTokenReturn_completes hdr tokenId s
  | .returnAck hdr tokenId => execReturnAck_completes hdr tokenId s
  | .tokenState hdr tokens => execTokenState_completes hdr tokens s
  | .drawSend => execDrawSend_completes s
  | .draw hdr steady total curPs portsUp => execDraw_completes hdr steady total curPs portsUp s
  | .memberAbsent id holdPassed => execMemberAbsent_completes id holdPassed s
  | .managerLost => execManagerLost_completes s
  | .takeoverHoldEnd => execTakeoverHoldEnd_completes s
  | .imageOffer hdr xferId target length => execImageOffer_completes hdr xferId target length s
  | .imageChunk hdr xferId index data norOk => execImageChunk_completes hdr xferId index data norOk s
  | .imageNeedSend => execImageNeedSend_completes s
  | .imageNeed hdr xferId firstMissing => execImageNeed_completes hdr xferId firstMissing s
  | .imageResult hdr xferId status step => execImageResult_completes hdr xferId status step s
  | .imageTransferTimeout => execImageTransferTimeout_completes s
  | .auditPull hdr fromSeq => execAuditPull_completes hdr fromSeq s
  | .auditPageSend => execAuditPageSend_completes s
  | .auditPage hdr last broken records => execAuditPage_completes hdr last broken records s
  | .calWindow hdr member startMs lengthMs => execCalWindow_completes hdr member startMs lengthMs s
  | .ptpSync offsetNs seconds nanoseconds => execPtpSync_completes offsetNs seconds nanoseconds s
  | .ptpSyncTimeout => execPtpSyncTimeout_completes s
  | .group1WithinTolerance => execGroup1WithinTolerance_completes s
  | .vddIoOutOfTolerance => execVddIoOutOfTolerance_completes s
  | .pcieLinkUp rate width flit => execPcieLinkUp_completes rate width flit s
  | .mctpMessage nvmeMi tag tagOwner message => execMctpMessage_completes nvmeMi tag tagOwner message s
  | .coalescingTimeExpiry vector => execCoalescingTimeExpiry_completes vector s
  | .joinRetry => execJoinRetry_completes s
  | .ptpSyncInterval => execPtpSyncInterval_completes s
  | .orreryPortUpChange p up => execOrreryPortUpChange_completes p up s
  | .mainMemoryAccess who secure addr wr len obs => execMainMemoryAccess_completes who secure addr wr len obs s

/-- Whatever a step answers keeps what `Keeps` names of the state it began in, but for the queue. -/
theorem step_next_keeps {s t : State} (h : step s = .next t) : ∃ q, Keeps { s with pending := q } t := by
  unfold step at h
  split at h
  · obtain rfl := Host.Outcome.next.inj h
    exact ⟨s.pending, idle_keeps s (keeps_refl s)⟩
  · next c rest _ =>
    obtain ⟨u, hu, hk⟩ := exec_completes c { s with pending := rest }
    rw [hu] at h
    obtain rfl := Host.Outcome.next.inj h
    exact ⟨rest, hk⟩

/-- Settles O4: OTP is a part of what every step keeps. -/
theorem otpChangesOneWayOnly : Obligations.OtpChangesOneWayOnly := by
  unfold Obligations.OtpChangesOneWayOnly
  intro s t h
  obtain ⟨_, hk⟩ := step_next_keeps h
  exact hk.otp

end Sys2Proof.Proofs

namespace Sys2Proof.Proofs
open Sys2Proof.Machine Sys2Proof.Laws

/-! ## The state after reset -/

/-- A key that no entry has reads as the default. -/
theorem read_of_forall_ne {α : Type} (l : List (Nat × α)) (k : Nat) (d : α) (h : ∀ p ∈ l, p.1 ≠ k) : Sparse.read l k d = d := by
  induction l with
  | nil => rfl
  | cons p l ih =>
    obtain ⟨k', v⟩ := p
    rw [List.forall_mem_cons] at h
    obtain ⟨hne, hl⟩ := h
    rw [Sparse.read, if_neg hne, ih hl, ite_self]

/-- Every entry of the register file after reset is a copy of HK_LO or HK_HI. -/
theorem resetFile_fields : ∀ p ∈ Regs.resetFile, p.1 / 0x100000 = Reg.therm_HK_LO.id ∨ p.1 / 0x100000 = Reg.therm_HK_HI.id := by
  decide

/-- A copy's key names its field. -/
theorem key_div (f : RegField) (i j : Nat) (h : i * f.n + j < 0x100000) : f.key i j / 0x100000 = f.id := by
  unfold RegField.key
  omega

theorem reset_rdAt (f : RegField) (i j : Nat) (hlo : f.id ≠ Reg.therm_HK_LO.id) (hhi : f.id ≠ Reg.therm_HK_HI.id)
    (h : i * f.n + j < 0x100000) : State.reset.rdAt f i j = f.reset := by
  refine read_of_forall_ne _ _ _ fun p hp hpk => ?_
  have hid : p.1 / 0x100000 = f.id := by rw [hpk, key_div f i j h]
  cases resetFile_fields p hp with
  | inl h => exact hlo (hid.symm.trans h)
  | inr h => exact hhi (hid.symm.trans h)

theorem reset_bindsOk : State.reset.bindsOk := by
  have h : ∀ n : Fin 64, State.reset.engine n < 68 ∧ State.reset.str.laneOf n < 64 := by decide
  exact fun n hn => h ⟨n, hn⟩

theorem reset_lock (i : Nat) : State.reset.lock i = ⟨none, 0⟩ := by
  simp [State.lock, State.reset, Array.getD, Lock.reset]

theorem reset_mb (ch d : Nat) : State.reset.mb ch d = Mbox.reset := by
  simp [State.mb, State.reset, Array.getD]

theorem reset_locked : State.reset.locked = false := by
  have h : State.reset.rd Reg.status_LOCKED 0 = Reg.status_LOCKED.reset := reset_rdAt _ 0 0 (by decide) (by decide) (by decide)
  rw [State.locked, State.rdB, h]
  rfl

/-- Settles O7. -/
theorem resetState : Obligations.ResetState := by
  unfold Obligations.ResetState
  refine ⟨resetFile_rising, reset_bindsOk, reset_memory_wf, rfl, rfl, fun i => reset_lock i, fun c d => ?_,
    fun f hlo hhi i j h => reset_rdAt f i j hlo hhi h, by decide, by decide, reset_locked⟩
  rw [reset_mb]
  exact ⟨rfl, rfl⟩
end Sys2Proof.Proofs

namespace Sys2Proof.Proofs
open Sys2Proof.Machine Sys2Proof.Laws

/-! ## Window registers (R64, R65) -/

theorem lookup_assocSet {α : Type} (l : List (Nat × α)) (k q : Nat) (v : α) :
    (assocSet l k v).lookup q = if q = k then some v else l.lookup q := by
  induction l with
  | nil =>
    rw [assocSet, List.lookup_cons, List.lookup_nil]
    by_cases hq : q = k <;> simp [beq_eq_decide, hq]
  | cons p l ih =>
    obtain ⟨k', v'⟩ := p
    rw [assocSet]
    split
    · next hk =>
      rw [List.lookup_cons, List.lookup_cons, hk]
      by_cases hq : q = k <;> simp [beq_eq_decide, hq]
    · next hk =>
      rw [List.lookup_cons, List.lookup_cons, ih]
      by_cases hq : q = k'
      · simp [hq, hk]
      · simp [beq_eq_decide, hq]

theorem lookup_assocDel {α : Type} (l : List (Nat × α)) (k q : Nat) :
    (assocDel l k).lookup q = if q = k then none else l.lookup q := by
  unfold assocDel
  induction l with
  | nil => simp
  | cons p l ih =>
    obtain ⟨k', v'⟩ := p
    by_cases hk : k' = k
    · rw [List.filter_cons_of_neg (by simpa using hk), ih, List.lookup_cons, hk]
      by_cases hq : q = k <;> simp [beq_eq_decide, hq]
    · rw [List.filter_cons_of_pos (by simpa using hk), List.lookup_cons, ih, List.lookup_cons]
      by_cases hq : q = k'
      · simp [hq, hk]
      · simp [beq_eq_decide, hq]

/-- An address in control window 0 (R23). -/
theorem windowIdx_zero (a : Nat) (hlo : 0x10000000 ≤ a) (hhi : a < 0x10100000) : windowIdx a = some 0 := by
  unfold windowIdx
  rw [if_pos (by omega)]
  congr 1
  omega

/-- Husk reaches every register of control window 0 (R23, R60, R63). -/
theorem access_husk_windowZero (s : State) (a : Nat) (wr : Bool) (hlo : 0x10000000 ≤ a) (hhi : a < 0x10100000) :
    s.access idHusk a wr = .ok := by
  have hw := windowIdx_zero a hlo hhi
  have h2 : s.stage2 idHusk a wr = .ok := by simp [State.stage2, hw, windowMapped, isSecure, idHusk]
  have hi : islandOf a = 0 := by simp [islandOf, hw]
  simp [State.access, State.stage1, h2, hi, State.islandDead]

/-- Every other initiator's write stops there at stage 2 or 3, among the window and violation registers (R63, R64, R66). -/
theorem access_write_husk_registers (s : State) (id a : Nat) (hid : id ≠ idHusk) (h1 : s.stage1 id a true = true)
    (hlo : 0x10010000 ≤ a) (hhi : a < 0x10019000) :
    s.access id a true = if isSecure id then .ignored else .viol true := by
  have hw := windowIdx_zero a (by omega) (by omega)
  have ho : 0x10000 ≤ a % 0x100000 ∧ a % 0x100000 < 0x19000 := by omega
  cases hs : isSecure id <;> simp [State.access, h1, State.stage2, hw, windowMapped, hs, ho, hid]

/-- The Sheaf lock keeps a window from a write that would widen it (R65). -/
abbrev LockKeeps (s : State) (id w reg : Nat) (v : Word) : Prop :=
  s.locked = true ∧ ((s.win id w).written reg v).widens (((defaultWins s.str s.installed id)[w]?).getD Win.reset)
    ((defaultWins s.str s.installed id)[w]?).isSome = true

theorem winWrite_of_lockKeeps {s : State} {id w reg : Nat} {v : Word} (h : LockKeeps s id w reg v) : s.winWrite id w reg v = s :=
  if_pos h

theorem winWrite_of_not_lockKeeps {s : State} {id w reg : Nat} {v : Word} (h : ¬ LockKeeps s id w reg v) :
    s.winWrite id w reg v = { s with
      wins := if (s.win id w).written reg v = Win.reset then assocDel s.wins (8 * id + w)
        else assocSet s.wins (8 * id + w) ((s.win id w).written reg v) } :=
  if_neg h

theorem winWrite_frame (s : State) (id w reg : Nat) (v : Word) :
    s.winWrite id w reg v = { s with wins := (s.winWrite id w reg v).wins } := by
  by_cases h : LockKeeps s id w reg v
  · rw [winWrite_of_lockKeeps h]
  · rw [winWrite_of_not_lockKeeps h]

/-- The window written, where the lock does not keep it. -/
theorem win_winWrite_same {s : State} {id w reg : Nat} {v : Word} (h : ¬ LockKeeps s id w reg v) :
    (s.winWrite id w reg v).win id w = (s.win id w).written reg v := by
  rw [winWrite_of_not_lockKeeps h, State.win]
  dsimp only
  split
  · next hx => rw [lookup_assocDel, if_pos rfl, hx, Option.getD_none]
  · rw [lookup_assocSet, if_pos rfl, Option.getD_some]

/-- Every other window. -/
theorem win_winWrite_ne (s : State) (id w reg id' w' : Nat) (v : Word) (hk : 8 * id' + w' ≠ 8 * id + w) :
    (s.winWrite id w reg v).win id' w' = s.win id' w' := by
  by_cases h : LockKeeps s id w reg v
  · rw [winWrite_of_lockKeeps h]
  · rw [winWrite_of_not_lockKeeps h, State.win, State.win]
    dsimp only
    split
    · rw [lookup_assocDel, if_neg hk]; rfl
    · rw [lookup_assocSet, if_neg hk]; rfl

/-- R65 in its own words: beyond the default in span or in rights. -/
theorem widens_some (x y : Win) (hx : x.en = true) :
    x.widens y true = true ↔
      (x.base ≤ x.lim ∧ (x.base < y.base ∨ y.lim < x.lim)) ∨ (x.rd && !y.rd) = true ∨ (x.wr && !y.wr) = true ∨
        (x.exec && !y.exec) = true := by
  simp [Win.widens, hx, or_assoc]

theorem execWindowRegisterWrite_husk (s : State) (id : Byte) (w : Fin 8) (reg : Fin 4) (v : Word) :
    execWindowRegisterWrite 0 id w reg v s = .next ((s.wake 0).winWrite id.toNat w reg v) := by
  have := id.isLt; have := w.isLt; have := reg.isLt
  have hlo : 0x10000000 ≤ windowBase 0 + 0x10000 + 0x80 * id.toNat + 0x10 * w + 4 * reg := by unfold windowBase; omega
  have hhi : windowBase 0 + 0x10000 + 0x80 * id.toNat + 0x10 * w + 4 * reg < 0x10100000 := by unfold windowBase; omega
  have hi : islandOf (windowBase 0 + 0x10000 + 0x80 * id.toNat + 0x10 * w + 4 * reg) = 0 := by
    simp [islandOf, windowIdx_zero _ hlo hhi]
  have ha := access_husk_windowZero s _ true hlo hhi
  simp only [idHusk] at ha
  simp [execWindowRegisterWrite, State.guard, State.guardAcc, idHost, ha, hi]

theorem execWindowRegisterWrite_other (s : State) (id : Byte) (w : Fin 8) (reg : Fin 4) (v : Word) (c : Initiator)
    (hc : c.toNat ≠ idHusk) (hh : c.toNat ≠ idHost)
    (h1 : s.stage1 c.toNat (windowBase 0 + 0x10000 + 0x80 * id.toNat + 0x10 * w + 4 * reg) true = true) :
    execWindowRegisterWrite c id w reg v s = .next (if isSecure c.toNat then s
      else s.violate c.toNat (windowBase 0 + 0x10000 + 0x80 * id.toNat + 0x10 * w + 4 * reg) true true) := by
  have := id.isLt; have := w.isLt; have := reg.isLt
  have ha := access_write_husk_registers s c.toNat _ hc h1 (by unfold windowBase; omega) (by unfold windowBase; omega)
  simp only [execWindowRegisterWrite, State.guard, if_neg hh, State.guardAcc, ha]
  cases isSecure c.toNat <;> rfl


/-- R10, R23, R24, R64 and R65 of a write to a window register. -/
theorem windowRegisterWrites (s : State) (id : Byte) (w : Fin 8) (reg : Fin 4) (v : Word) :
    let d := (defaultWins s.str s.installed id.toNat)[w.val]?
    let x := (s.win id.toNat w).written reg v
    ∃ t, exec (.windowRegisterWrite 0 id w reg v) s = .next t ∧ t = { s with wins := t.wins, gated := t.gated } ∧
      (s.locked = false ∨ x.en = false → t.win id.toNat w = x) ∧
      (s.locked = true → x.en = true → d = none → t.win id.toNat w = s.win id.toNat w) ∧
      (∀ y, s.locked = true → x.en = true → d = some y →
        t.win id.toNat w =
          if (x.base ≤ x.lim ∧ (x.base < y.base ∨ y.lim < x.lim)) ∨ (x.rd && !y.rd) = true ∨ (x.wr && !y.wr) = true ∨
            (x.exec && !y.exec) = true
          then s.win id.toNat w else x) ∧
      (∀ (id' : Byte) (w' : Fin 8), (id', w') ≠ (id, w) → t.win id'.toNat w' = s.win id'.toNat w') := by
  intro d x
  refine ⟨_, execWindowRegisterWrite_husk s id w reg v, ?_, fun hopen => ?_, fun hl hx hd => ?_, fun y hl hx hd => ?_,
    fun id' w' hne => ?_⟩
  · rw [winWrite_frame]
    rfl
  · refine win_winWrite_same fun ⟨hl, hw⟩ => ?_
    cases hopen with
    | inl h => exact absurd (h.symm.trans hl) (by decide)
    | inr h =>
      have hf : ∀ y u, x.widens y u = false := fun y u => by simp [Win.widens, h]
      exact Bool.false_ne_true ((hf _ _).symm.trans hw)
  · have hk : LockKeeps (s.wake 0) id.toNat w reg v := by
      refine ⟨hl, ?_⟩
      change Win.widens x (d.getD Win.reset) d.isSome = true
      simp [Win.widens, hx, hd]
    rw [winWrite_of_lockKeeps hk]
    rfl
  · have hk : LockKeeps (s.wake 0) id.toNat w reg v ↔ x.widens y true = true := by
      change s.locked = true ∧ Win.widens x (d.getD Win.reset) d.isSome = true ↔ _
      simp [hl, hd]
    rw [widens_some x y hx] at hk
    split
    · next h => rw [winWrite_of_lockKeeps (hk.2 h)]; rfl
    · next h => exact win_winWrite_same (fun hc => h (hk.1 hc))
  · refine win_winWrite_ne _ _ _ _ _ _ _ fun hk => hne ?_
    have := w.isLt; have := w'.isLt
    have hid : id' = id := BitVec.eq_of_toNat_eq (by omega)
    have hw : w' = w := Fin.ext (by omega)
    rw [hid, hw]

/-! ## Writes to the register file (R8 to R10) -/

/-- The copies of the fields of a block (its copy `i`) that lie at an address. -/
def fieldsAt (b : Blk) (i addr : Nat) : List (RegField × Nat) :=
  (Regs.ofBlk b).flatMap (fun f => ((List.range f.n).filter (fun j => f.addr i j = addr)).map (fun j => (f, j)))

/-- One copy under a register write: as its access code says, unless its block keeps it. -/
def wrCopy (who i : Nat) (w : Word) (s : State) (p : RegField × Nat) : State :=
  if s.writeBlocked p.1 i = false then s.wrPlain who p.1 i p.2 w else s

/-- A register write reaches the copies at its address, in the order of the table. -/
theorem wrBlk_eq_foldl (s : State) (who : Nat) (b : Blk) (i addr : Nat) (w : Word) :
    s.wrBlk who b i addr w = (fieldsAt b i addr).foldl (wrCopy who i w) s := by
  unfold State.wrBlk fieldsAt
  induction Regs.ofBlk b generalizing s with
  | nil => rfl
  | cons f fs ih =>
    rw [List.flatMap_cons, List.foldl_append, List.foldl_cons, ih]
    congr 1
    induction List.range f.n generalizing s with
    | nil => rfl
    | cons j js ihj =>
      rw [List.foldl_cons, ihj]
      by_cases h : f.addr i j = addr
      · rw [List.filter_cons_of_pos (by simpa using h), List.map_cons, List.foldl_cons]
        simp [wrCopy, h]
      · rw [List.filter_cons_of_neg (by simpa using h)]
        simp [h]

theorem trunc_extract (f : RegField) (w : Word) : f.trunc (f.extract w) = f.extract w := by
  simp [RegField.trunc, RegField.extract, BitVec.and_assoc]

/-- A field just written with its bits of a word reads as those bits. -/
theorem rdAt_wrAt_extract (s : State) (f : RegField) (i j : Nat) (w : Word) (h : s.fileOk) :
    (s.wrAt f i j (f.extract w)).rdAt f i j = f.extract w := by
  rw [rdAt_wrAt s f i j _ h, trunc_extract]

/-- A write of one field leaves every copy of another one alone. -/
theorem rdAt_wrAt_of_id_ne {s : State} {f g : RegField} {i j i' j' : Nat} {v : Word} (hf : s.fileOk) (hid : g.id ≠ f.id)
    (h : i * f.n + j < 0x100000) (h' : i' * g.n + j' < 0x100000) : (s.wrAt f i j v).rdAt g i' j' = s.rdAt g i' j' :=
  rdAt_wrAt_ne s f g i j i' j' v hf (key_ne g f i' j' i j hid h' h)

/-- The blocks of the register maps, in the order `blksAt` takes them. -/
def allBlks : List Blk :=
  [.status, .port, .demod, .engine, .lane, .thresh, .pool, .poolAct, .wa, .unit, .loop, .spf, .spindle, .qce, .pcie, .zone,
    .ddrCh, .ddr, .gran, .slot, .therm, .thermAct, .flt, .frt, .dis, .alm, .snap, .orr]

/-- A copy of some field of block `b`, in its copy `i`, lies at an address. -/
def blkHas (b : Blk) (addr i : Nat) : Bool := (Regs.ofBlk b).any (fun f => (List.range f.n).any (fun j => f.addr i j == addr))

/-- Every field stands in its own block's map, and every map is shorter than 64 KiB. -/
theorem field_blk_and_span : ∀ b ∈ allBlks, ∀ f ∈ Regs.ofBlk b, f.blk = b ∧ f.off + f.stride * f.n < 0x10000 := by decide +kernel

theorem blkHas_near {b : Blk} {addr i : Nat} (hb : b ∈ allBlks) (h : blkHas b addr i = true) :
    b.addr i ≤ addr ∧ addr < b.addr i + 0x10000 := by
  simp only [blkHas, List.any_eq_true, List.mem_range, beq_iff_eq] at h
  obtain ⟨f, hf, j, hj, ha⟩ := h
  obtain ⟨hblk, hspan⟩ := field_blk_and_span b hb f hf
  have hj' : f.stride * j ≤ f.stride * f.n := Nat.mul_le_mul_left _ hj.le
  rw [RegField.addr, hblk] at ha
  omega

/-- `blksAt` looks only where a map lies within 64 KiB below the address. -/
theorem blksAt_eq_near (addr : Nat) :
    blksAt addr = allBlks.flatMap (fun b => ((List.range b.count).filter (fun i =>
      (decide (b.addr i ≤ addr) && decide (addr < b.addr i + 0x10000)) && blkHas b addr i)).map (fun i => (b, i))) := by
  have hb : blksAt addr = allBlks.flatMap (fun b => ((List.range b.count).filter (blkHas b addr)).map (fun i => (b, i))) := rfl
  rw [hb]
  refine List.flatMap_congr fun b hb => congrArg _ (List.filter_congr fun i _ => ?_)
  cases h : blkHas b addr i
  · rw [Bool.and_false]
  · obtain ⟨hlo, hhi⟩ := blkHas_near hb h
    simp [hlo, hhi]

/-! ### The first write-and-assist register of actuator 0 -/

/-- Its address (R286). -/
abbrev tolAddr : Nat := Reg.wa_WG_TOL.addr 0 0

theorem blksAt_tolAddr : blksAt tolAddr = [(.wa, 0)] := by
  rw [blksAt_eq_near]
  decide +kernel

theorem fieldsAt_tolAddr :
    fieldsAt .wa 0 tolAddr = [(Reg.wa_WG_TOL, 0), (Reg.wa_REOPEN_FRAMES, 0), (Reg.wa_WG_AGE_MAX, 0), (Reg.wa_WG_DAMAGE, 0)] := by decide

/-- No write-and-assist register is a put register (R462). -/
theorem putOnly_wa (f : RegField) (hf : f ∈ Regs.ofBlk .wa) (who : Nat) : putOnly f who = false := by
  have h : ∀ g ∈ Regs.ofBlk .wa, (g == Reg.alm_PUT_DATA || g == Reg.alm_PUT_CODE) = false := by decide
  rw [putOnly, h f hf, Bool.false_and]

/-- A write-and-assist field other than WT_DATA is no half of a pair, and its block keeps nothing from it. -/
theorem wrCopy_wa {f : RegField} (hb : f.blk = .wa) (hne : f ≠ Reg.wa_WT_DATA) (who i j : Nat) (w : Word) (s : State) :
    wrCopy who i w s (f, j) = s.wrField who f i j w := by
  have of_blk : ∀ g : RegField, g.blk ≠ .wa → f ≠ g := fun g hg he => hg (he ▸ hb)
  have hblocked : s.writeBlocked f i = false := by simp [State.writeBlocked, hb, hne]
  have hlo : isPairLo f = false := by
    simp [isPairLo, of_blk Reg.port_FL_DDR_LO (by decide), of_blk Reg.slot_BASE_LO (by decide), of_blk Reg.snap_IDX_LO (by decide)]
  have hhi : pairLo f = none := by
    simp [pairLo, of_blk Reg.port_FL_DDR_HI (by decide), of_blk Reg.slot_BASE_HI (by decide), of_blk Reg.snap_IDX_HI (by decide)]
  simp [wrCopy, hblocked, State.wrPlain, hlo, hhi]

/-- A write of the register is a write of its four fields, each under its access code. -/
theorem plainWrite_tolAddr (s : State) (w : Initiator) (v : Word) :
    s.plainWrite w tolAddr v =
      (((s.wrField w.toNat Reg.wa_WG_TOL 0 0 v).wrField w.toNat Reg.wa_REOPEN_FRAMES 0 0 v).wrField w.toNat Reg.wa_WG_AGE_MAX 0 0
        v).wrField w.toNat Reg.wa_WG_DAMAGE 0 0 v := by
  have hi : windowIdx tolAddr = some 0x0C := by decide
  have hinj : injAlias tolAddr = none := by decide
  have hput : (Regs.ofBlk .wa).any (fun f => putOnly f w.toNat && (List.range f.n).any (fun j => f.addr 0 j == tolAddr)) = false := by
    rw [List.any_eq_false]
    intro f hf
    simp [putOnly_wa f hf]
  have hblk : s.plainWrite w tolAddr v = s.wrBlk w.toNat .wa 0 tolAddr v := by
    simp only [State.plainWrite, hi, hinj, blksAt_tolAddr, List.foldl_cons, List.foldl_nil, hput]
    simp
  rw [hblk, wrBlk_eq_foldl, fieldsAt_tolAddr, List.foldl_cons, List.foldl_cons, List.foldl_cons, List.foldl_cons, List.foldl_nil,
    wrCopy_wa rfl (by decide), wrCopy_wa rfl (by decide), wrCopy_wa rfl (by decide), wrCopy_wa rfl (by decide)]

/-- The RWL fields take Husk's bits until the Sheaf lock, and no others (R10, R57). -/
theorem wrField_rwl_of_barred {s : State} {who : Nat} {f : RegField} (hf : f.acc = .RWL) (h : s.locked = true ∨ who ≠ idHusk)
    (i j : Nat) (v : Word) : s.wrField who f i j v = s := by
  simp [State.wrField, hf, h]

theorem wrField_rwl_of_open {s : State} {who : Nat} {f : RegField} (hf : f.acc = .RWL) (hl : s.locked = false) (hw : who = idHusk)
    (i j : Nat) (v : Word) : s.wrField who f i j v = s.wrAt f i j (f.extract v) := by
  simp [State.wrField, hf, hl, hw]

theorem plainWrite_tolAddr_of_barred (s : State) (w : Initiator) (v : Word) (h : s.locked = true ∨ w.toNat ≠ idHusk) :
    s.plainWrite w tolAddr v = s.wrAt Reg.wa_WG_DAMAGE 0 0 (Reg.wa_WG_DAMAGE.extract v) := by
  rw [plainWrite_tolAddr, wrField_rwl_of_barred rfl h, wrField_rwl_of_barred rfl h]
  rfl

/-- The state once the RWL fields of the register hold their bits of `v`. -/
def tolSet (s : State) (v : Word) : State :=
  (s.wrAt Reg.wa_WG_TOL 0 0 (Reg.wa_WG_TOL.extract v)).wrAt Reg.wa_REOPEN_FRAMES 0 0 (Reg.wa_REOPEN_FRAMES.extract v)

theorem plainWrite_tolAddr_of_open (s : State) (w : Initiator) (v : Word) (hf : s.fileOk) (hl : s.locked = false) (hw : w.toNat = idHusk) :
    s.plainWrite w tolAddr v = (tolSet s v).wrAt Reg.wa_WG_DAMAGE 0 0 (Reg.wa_WG_DAMAGE.extract v) := by
  have hl' : (s.wrAt Reg.wa_WG_TOL 0 0 (Reg.wa_WG_TOL.extract v)).locked = false := by
    have h : (s.wrAt Reg.wa_WG_TOL 0 0 (Reg.wa_WG_TOL.extract v)).rdAt Reg.status_LOCKED 0 0 = s.rdAt Reg.status_LOCKED 0 0 :=
      rdAt_wrAt_of_id_ne hf (by decide) (by decide) (by decide)
    simpa only [State.locked, State.rdB, rd_eq, h] using hl
  rw [plainWrite_tolAddr, wrField_rwl_of_open rfl hl hw, wrField_rwl_of_open rfl hl' hw]
  rfl

theorem tolSet_fileOk {s : State} (hf : s.fileOk) (v : Word) : (tolSet s v).fileOk :=
  wrAt_rising _ _ _ _ _ (wrAt_rising _ _ _ _ _ hf)

theorem rdAt_tolSet_TOL {s : State} (hf : s.fileOk) (v : Word) : (tolSet s v).rdAt Reg.wa_WG_TOL 0 0 = Reg.wa_WG_TOL.extract v := by
  rw [tolSet, rdAt_wrAt_of_id_ne (wrAt_rising _ _ _ _ _ hf) (by decide) (by decide) (by decide), rdAt_wrAt_extract _ _ _ _ _ hf]

theorem rdAt_tolSet_REOPEN {s : State} (hf : s.fileOk) (v : Word) :
    (tolSet s v).rdAt Reg.wa_REOPEN_FRAMES 0 0 = Reg.wa_REOPEN_FRAMES.extract v :=
  rdAt_wrAt_extract _ _ _ _ _ (wrAt_rising _ _ _ _ _ hf)

theorem rdAt_tolSet_other {s : State} (hf : s.fileOk) (v : Word) {f : RegField} {i j : Nat} (h : i * f.n + j < 0x100000)
    (htol : f.id ≠ Reg.wa_WG_TOL.id) (hreopen : f.id ≠ Reg.wa_REOPEN_FRAMES.id) : (tolSet s v).rdAt f i j = s.rdAt f i j := by
  rw [tolSet, rdAt_wrAt_of_id_ne (wrAt_rising _ _ _ _ _ hf) hreopen (by decide) h, rdAt_wrAt_of_id_ne hf htol (by decide) h]

theorem execRegisterWrite_tolAddr (s : State) (w : Initiator) (v : Word) (h : s.may w tolAddr true) :
    execRegisterWrite w (.internal (BitVec.ofNat 48 tolAddr)) v s = .next ((s.wake (islandOf tolAddr)).plainWrite w tolAddr v) := by
  obtain ⟨hhost, hacc⟩ := h
  have ha : (BitVec.ofNat 48 tolAddr).toNat = tolAddr := by decide
  have h4 : tolAddr % 4 = 0 := by decide
  simp only [execRegisterWrite, ha, State.guard, if_neg hhost, State.guardAcc, hacc, if_pos h4]

/-- R10 and R57 of a write to the register: what it leaves in each field, and in every other register. -/
theorem registerWrite_tolAddr (s : State) (w : Initiator) (v : Word) (hf : s.fileOk) (hm : s.may w tolAddr true) :
    ∃ t, exec (.registerWrite w (.internal (BitVec.ofNat 48 tolAddr)) v) s = .next t ∧
      t.rd Reg.wa_WG_DAMAGE 0 = Reg.wa_WG_DAMAGE.extract v ∧ t.rd Reg.wa_WG_AGE_MAX 0 = s.rd Reg.wa_WG_AGE_MAX 0 ∧
      (s.locked = true ∨ w.toNat ≠ idHusk →
        t.rd Reg.wa_WG_TOL 0 = s.rd Reg.wa_WG_TOL 0 ∧ t.rd Reg.wa_REOPEN_FRAMES 0 = s.rd Reg.wa_REOPEN_FRAMES 0) ∧
      (s.locked = false → w.toNat = idHusk →
        t.rd Reg.wa_WG_TOL 0 = Reg.wa_WG_TOL.extract v ∧ t.rd Reg.wa_REOPEN_FRAMES 0 = Reg.wa_REOPEN_FRAMES.extract v) ∧
      t = { s with regs := t.regs, gated := t.gated } ∧
      ∀ (f : RegField) (i j : Nat), i * f.n + j < 0x100000 →
        f.id ∉ [Reg.wa_WG_DAMAGE.id, Reg.wa_WG_TOL.id, Reg.wa_REOPEN_FRAMES.id] → t.rdAt f i j = s.rdAt f i j := by
  refine ⟨_, execRegisterWrite_tolAddr s w v hm, ?_⟩
  -- the wake of the island leaves the register file as it is
  have hu : (s.wake (islandOf tolAddr)).fileOk := hf
  have damage : ∀ {u : State}, u.fileOk → ∀ {f : RegField} {i j : Nat}, i * f.n + j < 0x100000 → f.id ≠ Reg.wa_WG_DAMAGE.id →
      (u.wrAt Reg.wa_WG_DAMAGE 0 0 (Reg.wa_WG_DAMAGE.extract v)).rdAt f i j = u.rdAt f i j :=
    fun hu _ _ _ h hid => rdAt_wrAt_of_id_ne hu hid (by decide) h
  by_cases hbar : s.locked = true ∨ w.toNat ≠ idHusk
  · rw [plainWrite_tolAddr_of_barred (s.wake _) w v hbar]
    refine ⟨rdAt_wrAt_extract _ _ 0 0 v hu, damage hu (by decide) (by decide),
      fun _ => ⟨damage hu (by decide) (by decide), damage hu (by decide) (by decide)⟩,
      fun hl hw => absurd hbar (by simp [hl, hw]), rfl, fun f i j h hid => damage hu h fun he => hid (by simp [he])⟩
  · obtain ⟨hl, hw⟩ : s.locked = false ∧ w.toNat = idHusk := by simpa using hbar
    have h2 := tolSet_fileOk hu v
    have other : ∀ (f : RegField) (i j : Nat), i * f.n + j < 0x100000 →
        f.id ∉ [Reg.wa_WG_DAMAGE.id, Reg.wa_WG_TOL.id, Reg.wa_REOPEN_FRAMES.id] →
        ((tolSet (s.wake (islandOf tolAddr)) v).wrAt Reg.wa_WG_DAMAGE 0 0 (Reg.wa_WG_DAMAGE.extract v)).rdAt f i j = s.rdAt f i j := by
      intro f i j h hid
      simp only [List.mem_cons, List.not_mem_nil, or_false, not_or] at hid
      obtain ⟨hdamage, htol, hreopen⟩ := hid
      rw [damage h2 h hdamage, rdAt_tolSet_other hu v h htol hreopen]
      rfl
    rw [plainWrite_tolAddr_of_open (s.wake _) w v hu hl hw]
    exact ⟨rdAt_wrAt_extract _ _ 0 0 v h2, other _ 0 0 (by decide) (by decide), fun h => absurd h hbar,
      fun _ _ => ⟨(damage h2 (by decide) (by decide)).trans (rdAt_tolSet_TOL hu v),
        (damage h2 (by decide) (by decide)).trans (rdAt_tolSet_REOPEN hu v)⟩, rfl, other⟩

/-- Settles O13. -/
theorem windowAndRegisterWrites : Obligations.WindowAndRegisterWrites := by
  unfold Obligations.WindowAndRegisterWrites
  exact ⟨fun s id w reg v => ⟨windowRegisterWrites s id w reg v, execWindowRegisterWrite_other s id w reg v⟩, registerWrite_tolAddr⟩

end Sys2Proof.Proofs

namespace Sys2Proof.Proofs
open Sys2Proof.Machine Sys2Proof.Laws

/-! ## Register reads (R8, R10) -/

theorem regRead_of_refused (s : State) (who : Initiator) (addr : Nat) (h : s.access who.toNat addr false ≠ .ok) :
    s.regRead who addr = 0 :=
  if_neg fun hc => h hc.2

theorem regRead_of_ok (s : State) (who : Initiator) (addr : Nat) (h4 : addr % 4 = 0) (h : s.access who.toNat addr false = .ok) :
    s.regRead who addr = s.plainRead who.toNat addr :=
  if_pos ⟨h4, h⟩

/-- A register whose value no access makes visible reads as zero whether or not the access is let through. -/
theorem regRead_of_plainRead_zero (s : State) (who : Initiator) (addr : Nat) (h : s.plainRead who.toNat addr = 0) :
    s.regRead who addr = 0 := by
  rw [State.regRead, h, ite_self]

theorem fieldRead_hidden (s : State) (who i j : Nat) (f : RegField) (h : f.acc = .WO ∨ (f.acc = .HO ∧ who ≠ idHusk)) :
    s.fieldRead who f i j = 0 := by
  obtain hw | ⟨hh, hn⟩ := h
  · simp [State.fieldRead, hw]
  · simp [State.fieldRead, hh, hn]

/-- A value cut to its field has no bit beyond the field's width (R8). -/
theorem getLsbD_trunc_of_le (f : RegField) (v : Word) (k : Nat) (h : f.width ≤ k) : (f.trunc v).getLsbD k = false := by
  simp [RegField.trunc, BitVec.getLsbD_ofNat, Nat.testBit_two_pow_sub_one, h]

/-- A field in its place has no bit outside its place. -/
theorem getLsbD_placed (f : RegField) (v : Word) (k : Nat) (h : k < f.lo ∨ f.lo + f.width ≤ k) :
    (f.trunc v <<< f.lo).getLsbD k = false := by
  rw [BitVec.getLsbD_shiftLeft]
  obtain hlo | hhi := h
  · simp [hlo]
  · simp [getLsbD_trunc_of_le f v (k - f.lo) (by omega)]

/-- A bit that no step of a fold sets stays clear. -/
theorem getLsbD_foldl {α : Type} (l : List α) (g : Word → α → Word) (k : Nat) (v : Word) (hv : v.getLsbD k = false)
    (h : ∀ v, ∀ a ∈ l, v.getLsbD k = false → (g v a).getLsbD k = false) : (l.foldl g v).getLsbD k = false :=
  List.foldlRecOn l g hv fun v hv a ha => h v a ha hv

/-- R8: a bit that no field covers is reserved and reads as zero. -/
theorem blkRead_reserved (s : State) (who : Nat) (b : Blk) (i addr k : Nat)
    (h : ∀ f ∈ Regs.ofBlk b, ∀ j, j < f.n → f.addr i j = addr → k < f.lo ∨ f.lo + f.width ≤ k) :
    (s.blkRead who b i addr).getLsbD k = false := by
  refine getLsbD_foldl _ _ k _ BitVec.getLsbD_zero fun v f hf hv => getLsbD_foldl _ _ k v hv fun u j hj hu => ?_
  split
  · next ha => rw [BitVec.getLsbD_or, hu, getLsbD_placed f _ k (h f hf j (List.mem_range.1 hj) ha), Bool.false_or]
  · exact hu

/-! ### Window and violation registers (R64, R66) -/

theorem plainRead_window (s : State) (who : Nat) (id : Byte) (w : Fin 8) (reg : Fin 4) :
    s.plainRead who (windowBase 0 + 0x10000 + 0x80 * id.toNat + 0x10 * w.val + 4 * reg.val) =
      if who = idHusk then (s.win id.toNat w).read reg else 0 := by
  have := id.isLt; have := w.isLt; have := reg.isLt
  generalize ha : windowBase 0 + 0x10000 + 0x80 * id.toNat + 0x10 * w.val + 4 * reg.val = a
  simp only [windowBase] at ha
  have hi : windowIdx a = some 0 := windowIdx_zero a (by omega) (by omega)
  have hrange : 0x10000 ≤ a % 0x100000 ∧ a % 0x100000 < 0x18000 := by omega
  have hid : (a % 0x100000 - 0x10000) / 0x80 = id.toNat := by omega
  have hw : a % 0x100000 / 0x10 % 8 = w.val := by omega
  have hr : a % 0x100000 / 4 % 4 = reg.val := by omega
  simp only [State.plainRead, hi, hid, hw, hr, hrange]
  simp

theorem plainRead_violation (s : State) (who : Nat) (id : Byte) (reg : Fin 4) :
    s.plainRead who (windowBase 0 + 0x18000 + 0x10 * id.toNat + 4 * reg.val) =
      if who = idHusk then (s.violOf id.toNat).read reg else 0 := by
  have := id.isLt; have := reg.isLt
  generalize ha : windowBase 0 + 0x18000 + 0x10 * id.toNat + 4 * reg.val = a
  simp only [windowBase] at ha
  have hi : windowIdx a = some 0 := windowIdx_zero a (by omega) (by omega)
  have hnot : ¬ a % 0x100000 < 0x18000 := by omega
  have hrange : 0x18000 ≤ a % 0x100000 ∧ a % 0x100000 < 0x19000 := by omega
  have hid : (a % 0x100000 - 0x18000) / 0x10 = id.toNat := by omega
  have hr : a % 0x100000 / 4 % 4 = reg.val := by omega
  simp only [State.plainRead, hi, hid, hr, hnot, hrange]
  simp

/-- A register of control window 0 that shows itself to Husk alone. -/
theorem regRead_husk_only (s : State) (who : Initiator) (a : Nat) (x : Word) (hlo : 0x10000000 ≤ a) (hhi : a < 0x10100000)
    (h4 : a % 4 = 0) (h : s.plainRead who.toNat a = if who.toNat = idHusk then x else 0) :
    s.regRead who a = if who.toNat = idHusk then x else 0 := by
  by_cases hw : who.toNat = idHusk
  · rw [regRead_of_ok s who a h4 (hw ▸ access_husk_windowZero s a false hlo hhi), h]
  · rw [if_neg hw] at h ⊢
    exact regRead_of_plainRead_zero s who a h

/-! ### LOCK_PEEK (R87) and the mailbox status (R79) -/

theorem plainRead_lockPeek (s : State) (who : Nat) (i : Fin 256) :
    s.plainRead who (windowBase 2 + 0x400 + 4 * i.val) = (s.lock i).peek := by
  have := i.isLt
  generalize ha : windowBase 2 + 0x400 + 4 * i.val = a
  simp only [windowBase] at ha
  have hi : windowIdx a = some 2 := by
    unfold windowIdx
    rw [if_pos (by omega)]
    congr 1
    omega
  have hnot : ¬ a % 0x100000 < 0x400 := by omega
  have hlt : a % 0x100000 < 0x800 := by omega
  have hreg : (a % 0x100000 - 0x400) / 4 = i.val := by omega
  simp only [State.plainRead, hi, hnot, hlt, hreg]
  simp

/-- A flag in its place has one bit. -/
theorem getElem_b2w (b : Bool) (k n : Nat) (hn : n < 32) : (b2w b k)[n] = (b && decide (k = n)) := by
  rw [← BitVec.getLsbD_eq_getElem]
  cases b
  · simp [b2w]
  · rw [b2w, if_pos rfl, BitVec.getLsbD_ofNat, Nat.testBit_two_pow, decide_eq_true hn]

/-- SIZE lies in bits 5:4 of the status register. -/
theorem getElem_size (m n : Nat) (hn : n < 32) (h : n < 4 ∨ 6 ≤ n) : (BitVec.ofNat 32 (16 * (m % 4)))[n] = false := by
  rw [← BitVec.getLsbD_eq_getElem, BitVec.getLsbD_ofNat, show 16 * (m % 4) = 2 ^ 4 * (m % 4) from rfl, Nat.testBit_two_pow_mul,
    decide_eq_true hn, Bool.true_and, Bool.and_eq_false_iff]
  obtain h4 | h6 := h
  · exact Or.inl (by simpa using h4)
  · have : 2 ^ 2 ≤ 2 ^ (n - 4) := Nat.pow_le_pow_right (by decide) (by omega)
    exact Or.inr (Nat.testBit_lt_two_pow (by omega))

theorem peek_bits (l : Lock) :
    l.peek.getLsbD 1 = l.owner.isSome ∧
      (∀ o, l.owner = some o → (l.peek >>> 8).setWidth 8 = o) ∧ (l.peek >>> 16).setWidth 8 = l.rrPtr := by
  refine ⟨?_, fun o ho => ?_, ?_⟩
  · simp [Lock.peek, getElem_b2w]
  · refine BitVec.eq_of_getElem_eq fun i hi => ?_
    have hne : 1 ≠ 8 + i := by omega
    simp [Lock.peek, getElem_b2w, ho, hi, hne, show 8 + i < 32 by omega, show 8 + i < 16 by omega]
  · refine BitVec.eq_of_getElem_eq fun i hi => ?_
    have hne : 1 ≠ 16 + i := by omega
    have hown : (l.owner.getD 0#8).getLsbD (16 + i - 8) = false := BitVec.getLsbD_of_ge _ _ (by omega)
    simp [Lock.peek, getElem_b2w, hi, hne, hown, show 16 + i < 32 by omega]

theorem plainRead_mbStatus (s : State) (who : Nat) (ch : Fin 64) (d : Fin 2) : s.plainRead who (mbAddr ch d 0x44) = s.mbRead ch d 0x44 := by
  have := ch.isLt; have := d.isLt
  generalize ha : mbAddr ch d 0x44 = a
  simp only [mbAddr, windowBase] at ha
  have hi : windowIdx a = some 1 := by
    unfold windowIdx
    rw [if_pos (by omega)]
    congr 1
    omega
  have hlt : a % 0x100000 < 0x4000 := by omega
  have hch : a % 0x100000 / 0x100 = ch.val := by omega
  have hd : a % 0x100000 / 0x80 % 2 = d.val := by omega
  have ho : a % 0x100000 % 0x80 = 0x44 := by omega
  simp only [State.plainRead, hi, hlt, hch, hd, ho]
  simp

theorem mbRead_status_bits (s : State) (ch d : Nat) :
    let x := s.mbRead ch d 0x44
    x.getLsbD 0 = (s.mb ch d).full ∧ x.getLsbD 1 = (s.mb ch d).aborted ∧ x.getLsbD 2 = (s.mb ch d).cross ∧
      x.getLsbD 3 = (s.mb ch d).ovr ∧
      (x >>> 8).setWidth 8 = (s.mb ch d).sender ∧ (x >>> 16).setWidth 16 = (s.mb ch d).msgCnt := by
  refine ⟨?_, ?_, ?_, ?_, BitVec.eq_of_getElem_eq fun i hi => ?_, BitVec.eq_of_getElem_eq fun i hi => ?_⟩
  · simp [State.mbRead, getElem_b2w, getElem_size]
  · simp [State.mbRead, getElem_b2w, getElem_size]
  · simp [State.mbRead, getElem_b2w, getElem_size]
  · simp [State.mbRead, getElem_b2w, getElem_size]
  · have hne : ∀ k < 8, k ≠ 8 + i := by omega
    have hsize := getElem_size (s.chan ch).size (8 + i) (by omega) (Or.inr (by omega))
    simp [State.mbRead, getElem_b2w, hsize, hi, hne, show 8 + i < 32 by omega, show 8 + i < 16 by omega]
  · have hne : ∀ k < 8, k ≠ 16 + i := by omega
    have hsize := getElem_size (s.chan ch).size (16 + i) (by omega) (Or.inr (by omega))
    have hsender : (s.mb ch d).sender.getLsbD (16 + i - 8) = false := BitVec.getLsbD_of_ge _ _ (by omega)
    simp [State.mbRead, getElem_b2w, hsize, hsender, hi, hne, show 16 + i < 32 by omega]

/-- Settles O14. -/
theorem registerReads : Obligations.RegisterReads := by
  unfold Obligations.RegisterReads
  refine ⟨regRead_of_refused, blkRead_reserved, fun s who i j f h => fieldRead_hidden s who i j f h, fun s who id w reg => ?_,
    fun s who id reg => ?_, fun s who i h => ?_, fun s who ch d h => ?_⟩
  · have := id.isLt; have := w.isLt; have := reg.isLt
    exact regRead_husk_only s who _ _ (by unfold windowBase; omega) (by unfold windowBase; omega) (by unfold windowBase; omega)
      (plainRead_window s who.toNat id w reg)
  · have := id.isLt; have := reg.isLt
    exact regRead_husk_only s who _ _ (by unfold windowBase; omega) (by unfold windowBase; omega) (by unfold windowBase; omega)
      (plainRead_violation s who.toNat id reg)
  · rw [regRead_of_ok s who _ (by unfold windowBase; omega) h.2, plainRead_lockPeek]
    exact peek_bits _
  · rw [regRead_of_ok s who _ (by unfold mbAddr windowBase; omega) h.2, plainRead_mbStatus]
    exact mbRead_status_bits s ch d

end Sys2Proof.Proofs

namespace Sys2Proof.Proofs
open Sys2Proof.Machine Sys2Proof.Laws

/-! ## Accesses that stage 1 or 2 stops (R63, R66) -/

/-- A write that stage 1 or 2 stops only counts a violation (R66). -/
theorem guardAcc_write_of_viol {s : State} {w : Initiator} {a : Nat} {dom : Bool} (act : State → State)
    (h : s.access w.toNat a true = .viol dom) : s.guardAcc w a true act = s.violate w.toNat a true dom := by
  rw [State.guardAcc, h]
  rfl

/-- A read that stage 1 or 2 stops counts a violation and returns zero (R24, R66). -/
theorem guardAcc_read_of_viol {s : State} {w : Initiator} {a : Nat} {dom : Bool} (act : State → State)
    (h : s.access w.toNat a false = .viol dom) :
    s.guardAcc w a false act = (s.violate w.toNat a false dom).emit (.value w 0) := by
  rw [State.guardAcc, h]
  rfl

theorem guard_of_viol {s : State} {w : Initiator} {a : Nat} {dom : Bool} (act : State → State) (hw : w.toNat ≠ idHost)
    (h : s.access w.toNat a true = .viol dom) : s.guard w a act = s.violate w.toNat a true dom := by
  rw [State.guard, if_neg hw, guardAcc_write_of_viol act h]

theorem mbAccess_write_of_viol {s : State} {w : Initiator} {ch d off : Nat} {dom : Bool} (act : State → State)
    (hw : w.toNat ≠ idHost) (h : s.access w.toNat (mbAddr ch d off) true = .viol dom) :
    s.mbAccess w ch d off true act = s.violate w.toNat (mbAddr ch d off) true dom := by
  rw [State.mbAccess, if_neg hw, guardAcc_write_of_viol act h]

/-- A direction that is not newly FULL raises no CROSS (R84). -/
theorem mbCross_of_not_newly (s : State) (ch : Nat) : s.mbCross ch false = s := rfl

theorem execGo_of_viol {s : State} {w : Initiator} {ch : Fin 64} {d : Fin 2} {dom : Bool} (hw : w.toNat ≠ idHost)
    (h : s.access w.toNat (mbAddr ch d 0x40) true = .viol dom) :
    execGo ch d w .none .none s = .next (s.violate w.toNat (mbAddr ch d 0x40) true dom) := by
  have hnew : (!(s.mb ch d).full && ((s.violate w.toNat (mbAddr ch d 0x40) true dom).mb ch d).full) = false :=
    Bool.not_and_self _
  simp only [execGo, State.mbRecv, mbAccess_write_of_viol _ hw h, hnew, mbCross_of_not_newly]

theorem execLockRelease_of_viol {s : State} {w : Initiator} {i : Fin 256} {dom : Bool} (hw : w.toNat ≠ idHost)
    (h : s.access w.toNat (windowBase 2 + 4 * i.val) true = .viol dom) :
    execLockRelease i w s = .next (s.violate w.toNat (windowBase 2 + 4 * i.val) true dom) := by
  rw [execLockRelease, State.lockFree, guard_of_viol _ hw h]

/-- A lone reader that stage 1 or 2 stops takes no part in the lock's cycle (R63, R89). -/
theorem execLockAcquire_of_viol {s : State} {w : Initiator} {i : Fin 256} {dom : Bool} (hw : w.toNat ≠ idHost)
    (h : s.access w.toNat (windowBase 2 + 4 * i.val) false = .viol dom) :
    execLockAcquire i none [w] s =
      .next ((s.violate w.toNat (windowBase 2 + 4 * i.val) false dom).emit (.value w 0)) := by
  have hok : (w.toNat != idHost && s.access w.toNat (windowBase 2 + 4 * i.val) false == .ok) = false := by
    simp [h]
  simp only [execLockAcquire, List.any_cons, List.any_nil, List.filter_cons, List.filter_nil, List.foldl_cons, List.foldl_nil, hok,
    Bool.or_false, Bool.false_eq_true, if_false, hw, guardAcc_read_of_viol _ h, List.eraseDups_nil]
  split <;> rfl

theorem execRegisterWrite_of_viol {s : State} {w : Initiator} {a : BitVec 48} {v : Word} {dom : Bool} (hw : w.toNat ≠ idHost)
    (h : s.access w.toNat a.toNat true = .viol dom) :
    execRegisterWrite w (.internal a) v s = .next (s.violate w.toNat a.toNat true dom) := by
  simp only [execRegisterWrite, guard_of_viol _ hw h]

/-! ### The violation registers after a violation (R66) -/

theorem violOf_violate_same (s : State) (id addr : Nat) (wr dom : Bool) :
    (s.violate id addr wr dom).violOf id =
      { s.violOf id with cnt := min ((s.violOf id).cnt + 1) 0xFFFFFFFF, addr := BitVec.ofNat 48 addr, wr := wr, dom := dom } := by
  rw [State.violOf, State.violate, lookup_assocSet, if_pos rfl, Option.getD_some]

theorem violOf_violate_ne (s : State) {id id' : Nat} (addr : Nat) (wr dom : Bool) (h : id' ≠ id) :
    (s.violate id addr wr dom).violOf id' = s.violOf id' := by
  rw [State.violOf, State.violate, lookup_assocSet, if_neg h, State.violOf]

/-! ### Writing an audit record (R451, R456) -/

/-- From `s` to `t` at most counters and the Almanac change, and no SEQ of the audit class is given out. -/
structure DiscardsOnly (s t : State) : Prop where
  frame : t = { s with regs := t.regs, alm := t.alm }
  auditLast : t.alm.auditLast = s.alm.auditLast

theorem DiscardsOnly.refl (s : State) : DiscardsOnly s s := ⟨rfl, rfl⟩

theorem DiscardsOnly.trans {s t u : State} (h : DiscardsOnly s t) (k : DiscardsOnly t u) : DiscardsOnly s u where
  frame := k.frame.trans (congrArg (fun x : State => { x with regs := u.regs, alm := u.alm }) h.frame)
  auditLast := k.auditLast.trans h.auditLast

theorem auditDrop_discardsOnly (s : State) : DiscardsOnly s s.auditDrop := by
  unfold State.auditDrop
  split
  · exact .refl s
  · dsimp only
    split <;> exact ⟨rfl, rfl⟩

theorem auditTrim_discardsOnly (cap fuel : Nat) (s : State) : DiscardsOnly s (s.auditTrim cap fuel) := by
  induction fuel generalizing s with
  | zero => exact .refl s
  | succ fuel ih =>
    rw [State.auditTrim]
    split
    · exact (auditDrop_discardsOnly s).trans (ih s.auditDrop)
    · exact .refl s

theorem auditFit_discardsOnly (s : State) : DiscardsOnly s s.auditFit :=
  (auditTrim_discardsOnly _ _ s).trans (auditTrim_discardsOnly _ _ _)

/-- A record of the audit class changes counters and the Almanac only. -/
theorem audit_frame (s : State) (cat : Nat) (ev : Ev) (inst : Nat) (args : List Nat) (firmware : Bool) :
    s.audit cat ev inst args firmware =
      { s with regs := (s.audit cat ev inst args firmware).regs, alm := (s.audit cat ev inst args firmware).alm } :=
  (auditFit_discardsOnly _).frame

/-- Each record of the audit class takes the next SEQ. -/
theorem audit_auditLast (s : State) (cat : Nat) (ev : Ev) (inst : Nat) (args : List Nat) (firmware : Bool) :
    (s.audit cat ev inst args firmware).alm.auditLast = s.alm.auditLast + 1 :=
  (auditFit_discardsOnly _).auditLast

/-! ### The violation records of a second (R67) -/

/-- The count has changed since Husk last recorded it. -/
def unrecorded (v : Nat × Viol) : Bool := v.2.cnt != v.2.recorded

/-- The violation registers once their count is recorded. -/
def asRecorded (x : Viol) : Viol := { x with recorded := x.cnt }

theorem asRecorded_of_not_unrecorded {id : Nat} {x : Viol} (h : ¬ unrecorded (id, x)) : asRecorded x = x := by
  obtain ⟨cnt, addr, wr, dom, recorded⟩ := x
  have hc : cnt = recorded := by simpa [unrecorded] using h
  rw [asRecorded, hc]

/-- Husk's record of one initiator's violations. -/
def recordViolation (s : State) (v : Nat × Viol) : State :=
  let x := v.2
  let w8 := x.addr.toNat / 2 ^ 32 + (if x.wr then 65536 else 0) + (if x.dom then 131072 else 0)
  let s := s.audit 2 .violation noInst [v.1, x.cnt - x.recorded, x.addr.toNat % 2 ^ 32, w8]
  { s with viol := assocSet s.viol v.1 (asRecorded x) }

theorem execViolationAuditSecond_eq (s : State) :
    execViolationAuditSecond s = .next ((s.viol.filter unrecorded).foldl recordViolation s) := rfl

theorem recordViolation_frame (s : State) (v : Nat × Viol) :
    recordViolation s v = { s with
      regs := (recordViolation s v).regs, alm := (recordViolation s v).alm, viol := assocSet s.viol v.1 (asRecorded v.2) } := by
  rw [recordViolation, audit_frame]

theorem recordViolation_auditLast (s : State) (v : Nat × Viol) :
    (recordViolation s v).alm.auditLast = s.alm.auditLast + 1 :=
  audit_auditLast ..

theorem recordViolation_lookup (s : State) (v : Nat × Viol) (id : Nat) :
    (recordViolation s v).viol.lookup id = if id = v.1 then some (asRecorded v.2) else s.viol.lookup id := by
  rw [recordViolation_frame, lookup_assocSet]

theorem foldl_recordViolation_auditLast (l : List (Nat × Viol)) (s : State) :
    (l.foldl recordViolation s).alm.auditLast = s.alm.auditLast + l.length := by
  induction l generalizing s with
  | nil => rfl
  | cons v l ih =>
    rw [List.foldl_cons, ih, recordViolation_auditLast, List.length_cons]
    omega

theorem foldl_recordViolation_mem_mbox (l : List (Nat × Viol)) (s : State) :
    (l.foldl recordViolation s).mem = s.mem ∧ (l.foldl recordViolation s).mbox = s.mbox := by
  refine List.foldlRecOn (motive := fun t => t.mem = s.mem ∧ t.mbox = s.mbox) l recordViolation ⟨rfl, rfl⟩ fun t ht v _ => ?_
  rw [recordViolation_frame]
  exact ht

/-- The records leave an initiator alone that they are not about. -/
theorem foldl_recordViolation_lookup_of_notMem (l : List (Nat × Viol)) (s : State) (id : Nat) (h : id ∉ l.map (·.1)) :
    (l.foldl recordViolation s).viol.lookup id = s.viol.lookup id := by
  refine List.foldlRecOn (motive := fun t => t.viol.lookup id = s.viol.lookup id) l recordViolation rfl fun t ht v hv => ?_
  have hne : id ≠ v.1 := fun e => h (e ▸ List.mem_map_of_mem hv)
  rw [recordViolation_lookup, if_neg hne, ht]

/-- Each initiator the records are about has its count as recorded. -/
theorem foldl_recordViolation_lookup_of_mem (l : List (Nat × Viol)) (s : State) (hl : (l.map (·.1)).Nodup) {id : Nat} {x : Viol}
    (h : (id, x) ∈ l) : (l.foldl recordViolation s).viol.lookup id = some (asRecorded x) := by
  induction l generalizing s with
  | nil => cases h
  | cons v l ih =>
    obtain ⟨hv, hl⟩ := List.nodup_cons.1 hl
    rw [List.foldl_cons]
    obtain rfl | h := List.mem_cons.1 h
    · rw [foldl_recordViolation_lookup_of_notMem l _ _ hv, recordViolation_lookup, if_pos rfl]
    · exact ih _ hl h

/-- Where no two entries share a key, an entry found is the only one of its key. -/
theorem lookup_eq_some_iff_mem {α : Type} {l : List (Nat × α)} (hl : (l.map (·.1)).Nodup) (k : Nat) (x : α) :
    l.lookup k = some x ↔ (k, x) ∈ l := by
  induction l with
  | nil => simp
  | cons p l ih =>
    obtain ⟨k', y⟩ := p
    obtain ⟨hp, hl⟩ := List.nodup_cons.1 hl
    rw [List.lookup_cons, List.mem_cons]
    by_cases hk : k = k'
    · subst hk
      have hnot : (k, x) ∉ l := fun h => hp (List.mem_map.2 ⟨(k, x), h, rfl⟩)
      simp [hnot, eq_comm]
    · simp [ih hl, beq_eq_decide, hk]

/-- R67: afterwards every initiator's count is the count as recorded. -/
theorem violationRecords_lookup (s : State) (hs : (s.viol.map (·.1)).Nodup) {id : Nat} {x : Viol} (h : s.viol.lookup id = some x) :
    ((s.viol.filter unrecorded).foldl recordViolation s).viol.lookup id = some (asRecorded x) := by
  have hmem := (lookup_eq_some_iff_mem hs id x).1 h
  have hnodup : ((s.viol.filter unrecorded).map (·.1)).Nodup := hs.sublist (List.filter_sublist.map _)
  by_cases hx : unrecorded (id, x)
  · exact foldl_recordViolation_lookup_of_mem _ s hnodup (List.mem_filter.2 ⟨hmem, hx⟩)
  · have hnot : id ∉ (s.viol.filter unrecorded).map (·.1) := by
      intro hin
      obtain ⟨⟨_, y⟩, hy, rfl⟩ := List.mem_map.1 hin
      obtain ⟨hy, hu⟩ := List.mem_filter.1 hy
      have hxy : some x = some y := h.symm.trans ((lookup_eq_some_iff_mem hs _ y).2 hy)
      cases hxy
      exact hx hu
    rw [foldl_recordViolation_lookup_of_notMem _ s id hnot, h, asRecorded_of_not_unrecorded hx]

/-- R66: what the violating initiator's registers show, and that no other part of the state changes. -/
theorem registerWrite_of_viol (s : State) (w : Initiator) (a : BitVec 48) (v : Word) (dom : Bool) (hw : w.toNat ≠ idHost)
    (h : s.access w.toNat a.toNat true = .viol dom) :
    ∃ t, exec (.registerWrite w (.internal a) v) s = .next t ∧ t = { s with viol := t.viol } ∧
      (t.violOf w.toNat).cnt = min ((s.violOf w.toNat).cnt + 1) 0xFFFFFFFF ∧ (t.violOf w.toNat).addr = a ∧
      (t.violOf w.toNat).wr = true ∧ (t.violOf w.toNat).dom = dom ∧ ∀ id : Nat, id ≠ w.toNat → t.violOf id = s.violOf id := by
  refine ⟨_, execRegisterWrite_of_viol hw h, rfl, ?_⟩
  rw [violOf_violate_same, BitVec.ofNat_toNat, BitVec.setWidth_eq]
  exact ⟨rfl, rfl, rfl, rfl, fun id hid => violOf_violate_ne s _ true dom hid⟩

/-- Settles O12: a stopped access goes no further than `State.violate`, and the second of R67 is a fold of one record per initiator. -/
theorem violationsAreCountedAndRecorded : Obligations.ViolationsAreCountedAndRecorded := by
  unfold Obligations.ViolationsAreCountedAndRecorded
  refine ⟨fun s w dom hw => ⟨fun ch d h => execGo_of_viol hw h, fun i h => execLockRelease_of_viol hw h,
    fun i h => execLockAcquire_of_viol hw h, fun a v _ h => registerWrite_of_viol s w a v dom hw h⟩, fun s hs => ?_⟩
  obtain ⟨hmem, hmbox⟩ := foldl_recordViolation_mem_mbox (s.viol.filter unrecorded) s
  exact ⟨_, execViolationAuditSecond_eq s, foldl_recordViolation_auditLast _ s,
    fun id x h => violationRecords_lookup s hs h, hmem, hmbox⟩

end Sys2Proof.Proofs

namespace Sys2Proof.Proofs
open Sys2Proof.Machine Sys2Proof.Laws

/-! ## The structure in force

What leaves the structure in force alone: one equation per shared operation, then one fact per command. A command whose shared operations
are all among those of Laws/Calm.lean leaves everything `Calm` names alone. -/

/-! ### Shared operations -/

@[simp] theorem foldl_cfg {α : Type} (l : List α) (f : State → α → State) (s : State) (h : ∀ s a, (f s a).cfg = s.cfg) :
    (l.foldl f s).cfg = s.cfg := by
  induction l generalizing s with
  | nil => rfl
  | cons a l ih => rw [List.foldl_cons, ih, h]

@[simp] theorem abortWork_cfg (s : State) (c : Cmd) : (s.abortWork c).cfg = s.cfg := (abortWork_calm s c (calm_refl s)).cfg
@[simp] theorem askStanding_cfg (s : State) : (s.askStanding).cfg = s.cfg := (askStanding_calm s (calm_refl s)).cfg
@[simp] theorem askedVerdict_cfg (s : State) (n l k : Nat) (a : Asked) (mode : Nat) (x : Seen) (fr : Word × Word) (o : SectorObs)
    : (s.askedVerdict n l k a mode x fr o).cfg = s.cfg := (askedVerdict_calm s n l k a mode x fr o (calm_refl s)).cfg
@[simp] theorem audit_cfg (s : State) (cat : Nat) (ev : Ev) (inst : Nat) (args : List Nat) (firmware : Bool) : (s.audit cat ev
    inst args firmware).cfg = s.cfg := (audit_calm s cat ev inst args firmware (calm_refl s)).cfg
@[simp] theorem borrowEntries_cfg (s : State) (n band : Nat) : (s.borrowEntries n band).cfg = s.cfg := (borrowEntries_calm s n
    band (calm_refl s)).cfg
@[simp] theorem bufRefresh_cfg (s : State) : (s.bufRefresh).cfg = s.cfg := (bufRefresh_calm s (calm_refl s)).cfg
@[simp] theorem bump_cfg (s : State) (f : RegField) (i : Nat) : (s.bump f i).cfg = s.cfg := (bump_calm s f i (calm_refl s)).cfg
@[simp] theorem bumpBy_cfg (s : State) (f : RegField) (i j n : Nat) : (s.bumpBy f i j n).cfg = s.cfg := (bumpBy_calm s f i j n
    (calm_refl s)).cfg
@[simp] theorem bumpWrap_cfg (s : State) (f : RegField) (i j : Nat) : (s.bumpWrap f i j).cfg = s.cfg := (bumpWrap_calm s f i j
    (calm_refl s)).cfg
@[simp] theorem calCount_cfg (s : State) (act : Nat) (fa fc : RegField) : (s.calCount act fa fc).cfg = s.cfg := (calCount_calm s
    act fa fc (calm_refl s)).cfg
@[simp] theorem calShow_cfg (s : State) (act : Nat) : (s.calShow act).cfg = s.cfg := (calShow_calm s act (calm_refl s)).cfg
@[simp] theorem calStore_cfg (s : State) (n kind : Nat) (ok : Bool) : (s.calStore n kind ok).cfg = s.cfg := (calStore_calm s n
    kind ok (calm_refl s)).cfg
@[simp] theorem cleanSides_cfg (s : State) : (s.cleanSides).cfg = s.cfg := (cleanSides_calm s (calm_refl s)).cfg
@[simp] theorem clearClass_cfg (s : State) (cls who : Nat) : (s.clearClass cls who).cfg = s.cfg := (clearClass_calm s cls who
    (calm_refl s)).cfg
@[simp] theorem complete_cfg (s : State) (slot status : Nat) (dw0 dw1 : Word) : (s.complete slot status dw0 dw1).cfg = s.cfg :=
    (complete_calm s slot status dw0 dw1 (calm_refl s)).cfg
@[simp] theorem ctrlReady_cfg (s : State) : (s.ctrlReady).cfg = s.cfg := (ctrlReady_calm s (calm_refl s)).cfg
@[simp] theorem culmCopy_cfg (s : State) : (s.culmCopy).cfg = s.cfg := (culmCopy_calm s (calm_refl s)).cfg
@[simp] theorem dmaReadViol_cfg (s : State) (who : Nat) (sec : Bool) (a n : Nat) : (s.dmaReadViol who sec a n).cfg = s.cfg :=
    (dmaReadViol_calm s who sec a n (calm_refl s)).cfg
@[simp] theorem engineFresh_cfg (s : State) (e : Nat) : (s.engineFresh e).cfg = s.cfg := (engineFresh_calm s e (calm_refl s)).cfg
@[simp] theorem engineRun_cfg (s : State) (e src : Nat) : (s.engineRun e src).cfg = s.cfg := (engineRun_calm s e src (calm_refl
    s)).cfg
@[simp] theorem engineStop_cfg (s : State) (e : Nat) : (s.engineStop e).cfg = s.cfg := (engineStop_calm s e (calm_refl s)).cfg
@[simp] theorem event_cfg (s : State) (typ info log : Nat) : (s.event typ info log).cfg = s.cfg := (event_calm s typ info log
    (calm_refl s)).cfg
@[simp] theorem failActs_cfg (s : State) (n status : Nat) : (s.failActs n status).cfg = s.cfg := (failActs_calm s n status
    (calm_refl s)).cfg
@[simp] theorem faultAuditRound_cfg (s : State) : (s.faultAuditRound).cfg = s.cfg := (faultAuditRound_calm s (calm_refl s)).cfg
@[simp] theorem fetchTurn_cfg (s : State) (e : Sqe) : (s.fetchTurn e).cfg = s.cfg := (fetchTurn_calm s e (calm_refl s)).cfg
@[simp] theorem fetchWindow_cfg (s : State) : (s.fetchWindow).cfg = s.cfg := (fetchWindow_calm s (calm_refl s)).cfg
@[simp] theorem fracAct_cfg (s : State) (n : Nat) : (s.fracAct n).cfg = s.cfg := (fracAct_calm s n (calm_refl s)).cfg
@[simp] theorem fusedPort_cfg (s : State) (h : Nat) : (s.fusedPort h).cfg = s.cfg := (fusedPort_calm s h (calm_refl s)).cfg
@[simp] theorem gainStep_cfg (s : State) (n reader code : Nat) (w : List (Option Placed)) : (s.gainStep n reader code w).cfg =
    s.cfg := (gainStep_calm s n reader code w (calm_refl s)).cfg
@[simp] theorem giveAll_cfg (s : State) (p : Token → Bool) : (s.giveAll p).cfg = s.cfg := (giveAll_calm s p (calm_refl s)).cfg
@[simp] theorem holdActs_cfg (s : State) : (s.holdActs).cfg = s.cfg := (holdActs_calm s (calm_refl s)).cfg
@[simp] theorem huskUpdate_cfg (s : State) (r1 addr len : Nat) (norOk : Bool) : (s.huskUpdate r1 addr len norOk).1.cfg = s.cfg :=
    (huskUpdate_calm s r1 addr len norOk (calm_refl s)).cfg
@[simp] theorem keyDestroy_cfg (s : State) (nsid : Nat) : (s.keyDestroy nsid).cfg = s.cfg := (keyDestroy_calm s nsid (calm_refl
    s)).cfg
@[simp] theorem keyNew_cfg (s : State) (nsid : Nat) : (s.keyNew nsid).cfg = s.cfg := (keyNew_calm s nsid (calm_refl s)).cfg
@[simp] theorem keyReset_cfg (s : State) : (s.keyReset).cfg = s.cfg := (keyReset_calm s (calm_refl s)).cfg
@[simp] theorem laneCount_cfg (s : State) (n l : Nat) (ep : Option (BitVec 16)) (f : RegField) (c : Nat) : (s.laneCount n l ep f
    c).cfg = s.cfg := (laneCount_calm s n l ep f c (calm_refl s)).cfg
@[simp] theorem latchHda_cfg (s : State) (h : Nat) : (s.latchHda h).cfg = s.cfg := (latchHda_calm s h (calm_refl s)).cfg
@[simp] theorem latchRest_cfg (s : State) (rails : List Int) : (s.latchRest rails).cfg = s.cfg := (latchRest_calm s rails
    (calm_refl s)).cfg
@[simp] theorem linkClear_cfg (s : State) : (s.linkClear).cfg = s.cfg := (linkClear_calm s (calm_refl s)).cfg
@[simp] theorem liveAccept_cfg (s : State) (typ : Nat) (b : List Byte) : (s.liveAccept typ b).cfg = s.cfg := (liveAccept_calm s
    typ b (calm_refl s)).cfg
@[simp] theorem loseBuffered_cfg (s : State) (n cause : Nat) : (s.loseBuffered n cause).1.cfg = s.cfg := (loseBuffered_calm s n
    cause (calm_refl s)).cfg
@[simp] theorem mbUnqueue_cfg (s : State) (ch d : Nat) : (s.mbUnqueue ch d).cfg = s.cfg := (mbUnqueue_calm s ch d (calm_refl
    s)).cfg
@[simp] theorem msixSend_cfg (s : State) (v : Nat) : (s.msixSend v).cfg = s.cfg := (msixSend_calm s v (calm_refl s)).cfg
@[simp] theorem msixWrite_cfg (s : State) (i : Nat) (v : Word) : (s.msixWrite i v).cfg = s.cfg := (msixWrite_calm s i v
    (calm_refl s)).cfg
@[simp] theorem norFlush_cfg (s : State) : (s.norFlush).cfg = s.cfg := (norFlush_calm s (calm_refl s)).cfg
@[simp] theorem opCut_cfg (s : State) (n : Nat) : (s.opCut n).cfg = s.cfg := (opCut_calm s n (calm_refl s)).cfg
@[simp] theorem park_cfg (s : State) (n : Nat) : (s.park n).cfg = s.cfg := (park_calm s n (calm_refl s)).cfg
@[simp] theorem passUs_cfg (s : State) (d : Nat) : (s.passUs d).cfg = s.cfg := (passUs_calm s d (calm_refl s)).cfg
@[simp] theorem raise_cfg (s : State) (ftype inst : Nat) (info : Word) (injected : Bool) : (s.raise ftype inst info injected).cfg
    = s.cfg := (raise_calm s ftype inst info injected (calm_refl s)).cfg
@[simp] theorem readLedger_cfg (s : State) (n : Nat) (obs : LedgerObs) : (s.readLedger n obs).cfg = s.cfg := (readLedger_calm s n
    obs (calm_refl s)).cfg
@[simp] theorem recover_cfg (s : State) (ftype inst : Nat) : (s.recover ftype inst).cfg = s.cfg := (recover_calm s ftype inst
    (calm_refl s)).cfg
@[simp] theorem resumeGo_cfg (s : State) (n : Nat) : (s.resumeGo n).cfg = s.cfg := (resumeGo_calm s n (calm_refl s)).cfg
@[simp] theorem resumeTime_cfg (s : State) : (s.resumeTime).cfg = s.cfg := (resumeTime_calm s (calm_refl s)).cfg
@[simp] theorem ringPush_cfg (s : State) (l : Nat) (x : RingSlot) : (s.ringPush l x).cfg = s.cfg := (ringPush_calm s l x
    (calm_refl s)).cfg
@[simp] theorem rwlFields_cfg (s : State) : (s.rwlFields).cfg = s.cfg := (rwlFields_calm s (calm_refl s)).cfg
@[simp] theorem selectBundle_cfg (s : State) (aErr bErr : Bool) : (s.selectBundle aErr bErr).cfg = s.cfg := (selectBundle_calm s
    aErr bErr (calm_refl s)).cfg
@[simp] theorem sensFail_cfg (s : State) (i : Nat) : (s.sensFail i).cfg = s.cfg := (sensFail_calm s i (calm_refl s)).cfg
@[simp] theorem settle_cfg (s : State) : (s.settle).cfg = s.cfg := (settle_calm s (calm_refl s)).cfg
@[simp] theorem spinAsk_cfg (s : State) : (s.spinAsk).cfg = s.cfg := (spinAsk_calm s (calm_refl s)).cfg
@[simp] theorem storeOffsets_cfg (s : State) (n : Nat) (ok : Bool) : (s.storeOffsets n ok).cfg = s.cfg := (storeOffsets_calm s n
    ok (calm_refl s)).cfg
@[simp] theorem thermH_cfg (s : State) (h : Nat) : (s.thermH h).cfg = s.cfg := (thermH_calm s h (calm_refl s)).cfg
@[simp] theorem thermJ_cfg (s : State) : (s.thermJ).cfg = s.cfg := (thermJ_calm s (calm_refl s)).cfg
@[simp] theorem threshEvents_cfg (s : State) (sensor : Nat) (old new : Int) : (s.threshEvents sensor old new).cfg = s.cfg :=
    (threshEvents_calm s sensor old new (calm_refl s)).cfg
@[simp] theorem trace_cfg (s : State) (src : Nat) (ev : Ev) (inst : Nat) (args : List Nat) (firmware : Bool) : (s.trace src ev
    inst args firmware).cfg = s.cfg := (trace_calm s src ev inst args firmware (calm_refl s)).cfg
@[simp] theorem violWrite_cfg (s : State) (id reg : Nat) (v : Word) : (s.violWrite id reg v).cfg = s.cfg := (violWrite_calm s id
    reg v (calm_refl s)).cfg
@[simp] theorem violate_cfg (s : State) (id addr : Nat) (wr dom : Bool) : (s.violate id addr wr dom).cfg = s.cfg := (violate_calm
    s id addr wr dom (calm_refl s)).cfg
@[simp] theorem wake_cfg (s : State) (i : Nat) : (s.wake i).cfg = s.cfg := (wake_calm s i (calm_refl s)).cfg
@[simp] theorem wordWrite_cfg (s : State) (a : Nat) (v : Word) : (s.wordWrite a v).cfg = s.cfg := (wordWrite_calm s a v
    (calm_refl s)).cfg
@[simp] theorem wr_cfg (s : State) (f : RegField) (i : Nat) (v : Word) : (s.wr f i v).cfg = s.cfg := (wr_calm s f i v (calm_refl
    s)).cfg
@[simp] theorem wr64_cfg (s : State) (lo hi : RegField) (i j v : Nat) : (s.wr64 lo hi i j v).cfg = s.cfg := (wr64_calm s lo hi i
    j v (calm_refl s)).cfg
@[simp] theorem wrB_cfg (s : State) (f : RegField) (i : Nat) (v : Bool) : (s.wrB f i v).cfg = s.cfg := (wrB_calm s f i v
    (calm_refl s)).cfg
@[simp] theorem wrBit_cfg (s : State) (f : RegField) (i k : Nat) (v : Bool) : (s.wrBit f i k v).cfg = s.cfg := (wrBit_calm s f i
    k v (calm_refl s)).cfg
@[simp] theorem wrField_cfg (s : State) (who : Nat) (f : RegField) (i j : Nat) (w : Word) : (s.wrField who f i j w).cfg = s.cfg
 := (wrField_calm s who f i j w (calm_refl s)).cfg
@[simp] theorem wrInt_cfg (s : State) (f : RegField) (i j : Nat) (v : Int) : (s.wrInt f i j v).cfg = s.cfg := (wrInt_calm s f i j
    v (calm_refl s)).cfg
@[simp] theorem wrN_cfg (s : State) (f : RegField) (i v : Nat) : (s.wrN f i v).cfg = s.cfg := (wrN_calm s f i v (calm_refl s)).cfg
@[simp] theorem zoneMap_cfg (s : State) (n z m : Nat) : (s.zoneMap n z m).cfg = s.cfg := (zoneMap_calm s n z m (calm_refl s)).cfg
@[simp] theorem refused_cfg (s : State) (id : Initiator) (wr : Bool) : (s.refused id wr).cfg = s.cfg := (refused_calm s id wr
    (calm_refl s)).cfg
@[simp] theorem updCmd_cfg (s : State) (slot : Nat) (f : Cmd → Cmd) : (s.updCmd slot f).cfg = s.cfg := (updCmd_calm s slot f
    (calm_refl s)).cfg

@[simp] theorem memWins_cfg (s : State) : (s.memWins).cfg = s.cfg := by
  grind [State.memWins, foldl_cfg]

@[simp] theorem guardAcc_cfg (s : State) (id : Initiator) (addr : Nat) (wr : Bool) (act : State → State) (hact : ∀ (x0 : State), (act
    x0).cfg = x0.cfg) : (s.guardAcc id addr wr act).cfg = s.cfg := by
  grind [State.guardAcc, bumpBy_cfg, refused_cfg, violate_cfg, wake_cfg]

@[simp] theorem guard_cfg (s : State) (id : Initiator) (addr : Nat) (act : State → State) (hact : ∀ (x0 : State), (act x0).cfg = x0.cfg)
    : (s.guard id addr act).cfg = s.cfg := by
  grind [State.guard, guardAcc_cfg]

@[simp] theorem wrPlain_cfg (s : State) (who : Nat) (f : RegField) (i j : Nat) (w : Word) : (s.wrPlain who f i j w).cfg = s.cfg := by
  grind [State.wrPlain, wrField_cfg]

@[simp] theorem wrBlk_cfg (s : State) (who : Nat) (b : Blk) (i addr : Nat) (w : Word) : (s.wrBlk who b i addr w).cfg = s.cfg := by
  grind [State.wrBlk, wrPlain_cfg, foldl_cfg]

@[simp] theorem calSector_cfg (s : State) (n k tz : Nat) (x : Seen) (ok falseMark : Bool) : (s.calSector n k tz x ok falseMark).cfg =
    s.cfg := by
  simp [State.calSector]

@[simp] theorem psOperational_cfg (s : State) (t : Nat) : (s.psOperational t).cfg = s.cfg := by
  grind [State.psOperational, audit_cfg, holdActs_cfg, wr_cfg, wrB_cfg, wrN_cfg]

@[simp] theorem psWake_cfg (s : State) : (s.psWake).cfg = s.cfg := by
  grind [State.psWake, psOperational_cfg]

@[simp] theorem setFeature_cfg (s : State) (slot : BitVec 16) (fid : Nat) (act : Cmd → State → State) (hact : ∀ (x0 : Cmd) (x1 : State),
    (act x0 x1).cfg = x1.cfg) : (s.setFeature slot fid act).cfg = s.cfg := by
  grind [State.setFeature, State.adminRow, updCmd_cfg]

@[simp] theorem featureDefaults_cfg (s : State) : (s.featureDefaults).cfg = s.cfg := by
  simp [State.featureDefaults]

@[simp] theorem ctrlReset_cfg (s : State) : (s.ctrlReset).cfg = s.cfg := by
  simp [State.ctrlReset]

@[simp] theorem mbAccess_cfg (s : State) (who : Initiator) (ch d off : Nat) (wr : Bool) (act : State → State) (hact : ∀ (x0 : State),
    (act x0).cfg = x0.cfg) : (s.mbAccess who ch d off wr act).cfg = s.cfg := by
  grind [State.mbAccess, guardAcc_cfg, refused_cfg, violate_cfg, wake_cfg]

@[simp] theorem mbPut_cfg (s : State) (ch d : Nat) (f : Mbox → Mbox) : (s.mbPut ch d f).cfg = s.cfg := by
  grind [State.mbPut, msixSend_cfg, updMbox_cfg, foldl_cfg]

@[simp] theorem mbGo_cfg (s : State) (ch d : Nat) (who : Initiator) : (s.mbGo ch d who).cfg = s.cfg := by
  grind [State.mbGo, mbPut_cfg, updHusk_cfg]

@[simp] theorem mbRelease_cfg (s : State) (ch d : Nat) : (s.mbRelease ch d).cfg = s.cfg := by
  grind [State.mbRelease, mbPut_cfg]

@[simp] theorem mbRcvReset_cfg (s : State) (ch d : Nat) : (s.mbRcvReset ch d).cfg = s.cfg := by
  grind [State.mbRcvReset, mbPut_cfg, mbUnqueue_cfg]

@[simp] theorem mbCompatRead_cfg (s : State) (ch d : Nat) (who : Initiator) : (s.mbCompatRead ch d who).cfg = s.cfg := by
  grind [State.mbCompatRead, emit_cfg, mbPut_cfg]

@[simp] theorem mbCross_cfg (s : State) (ch : Nat) (newly : Bool) : (s.mbCross ch newly).cfg = s.cfg := by
  grind [State.mbCross, mbPut_cfg]

@[simp] theorem mbRecv_cfg (s : State) (ch d : Nat) (a : RecvAct) : (s.mbRecv ch d a).cfg = s.cfg := by
  cases a <;> simp [State.mbRecv, apply_ite State.cfg]

@[simp] theorem mbData_cfg (s : State) (ch d i : Nat) (v : Word) : (s.mbData ch d i v).cfg = s.cfg := by
  grind [State.mbData, mbPut_cfg]

@[simp] theorem mbCtl_cfg (s : State) (who : Initiator) (ch d : Nat) (v : Word) : (s.mbCtl who ch d v).cfg = s.cfg := by
  grind [State.mbCtl, mbCross_cfg, mbGo_cfg, mbRcvReset_cfg, mbRelease_cfg]

@[simp] theorem mbReg_cfg (s : State) (who : Initiator) (ch d off : Nat) (v : Word) : (s.mbReg who ch d off v).cfg = s.cfg := by
  simp [State.mbReg]

@[simp] theorem mbWrite_cfg (s : State) (who : Initiator) (ch d off : Nat) (v : Word) : (s.mbWrite who ch d off v).cfg = s.cfg := by
  grind [State.mbWrite, mbCtl_cfg, mbData_cfg, mbReg_cfg]

@[simp] theorem lockWrite_cfg (s : State) (i : Nat) (who : Initiator) : (s.lockWrite i who).cfg = s.cfg := by
  simp [State.lockWrite]

@[simp] theorem lockFree_cfg (s : State) (i : Nat) (who : Initiator) : (s.lockFree i who).cfg = s.cfg := by
  simp [State.lockFree]

@[simp] theorem locksOf_cfg (s : State) (who : Nat) : (s.locksOf who).cfg = s.cfg := by
  simp [State.locksOf]

@[simp] theorem winWrite_cfg (s : State) (id w reg : Nat) (value : Word) : (s.winWrite id w reg value).cfg = s.cfg := by
  grind [State.winWrite]

@[simp] theorem bar0High_cfg (s : State) (lo : Nat) (both : Word → HostSt → HostSt) (high : HostSt → HostSt) : (s.bar0High lo both
    high).cfg = s.cfg := by
  grind [State.bar0High, updHost_cfg]

@[simp] theorem bar0Write_cfg (s : State) (ofs : Nat) (v : Word) : (s.bar0Write ofs v).cfg = s.cfg := by
  grind [State.bar0Write, bar0High_cfg, msixWrite_cfg, updHost_cfg, violate_cfg]

@[simp] theorem bar2Write_cfg (s : State) (ofs : Nat) (v : Word) : (s.bar2Write ofs v).cfg = s.cfg := by
  grind [State.bar2Write, mbWrite_cfg, violate_cfg, wake_cfg]

@[simp] theorem plainWrite_cfg (s : State) (who : Initiator) (addr : Nat) (v : Word) : (s.plainWrite who addr v).cfg = s.cfg := by
  grind [State.plainWrite, lockWrite_cfg, mbWrite_cfg, violWrite_cfg, winWrite_cfg, wordWrite_cfg, wr_cfg, wrBlk_cfg, foldl_cfg]

@[simp] theorem huskSend_cfg (s : State) (ch : Nat) (words : List Nat) : (s.huskSend ch words).cfg = s.cfg := by
  simp [State.huskSend]

@[simp] theorem huskReply_cfg (s : State) (ch opc status step : Nat) : (s.huskReply ch opc status step).cfg = s.cfg := by
  simp [State.huskReply]

@[simp] theorem huskReq_cfg (s : State) (ch opc : Nat) (listed : List Nat) (act : (Nat → Nat) → Nat → State → State × Option (Nat × Nat))
    (hact : ∀ (x0 : (Nat → Nat)) (x1 : Nat) (x2 : State), (act x0 x1 x2).1.cfg = x2.cfg) : (s.huskReq ch opc listed act).cfg =
    s.cfg := by
  grind [State.huskReq, huskReply_cfg, mbRelease_cfg, updHusk_cfg]

@[simp] theorem clearReq_cfg (s : State) (ch opc cls : Nat) : (s.clearReq ch opc cls).cfg = s.cfg := by
  grind [State.clearReq, clearClass_cfg, huskReq_cfg]

@[simp] theorem warmReq_cfg (s : State) (ch kind : Nat) (act : Nat → State → State × Nat) (hact : ∀ (x0 : Nat) (x1 : State), (act x0
    x1).1.cfg = x1.cfg) : (s.warmReq ch kind act).cfg = s.cfg := by
  grind [State.warmReq, huskReq_cfg]

@[simp] theorem culmRestart_cfg (s : State) : (s.culmRestart).cfg = s.cfg := by
  simp [State.culmRestart]

@[simp] theorem engineFill_cfg (s : State) (e : Nat) (b : List Byte) : (s.engineFill e b).cfg = s.cfg := by
  simp [State.engineFill]

@[simp] theorem loadStart_cfg (s : State) (ch e : Nat) (obj : List Byte) : (s.loadStart ch e obj).cfg = s.cfg := by
  simp [State.loadStart]

@[simp] theorem bundleLoad_cfg (s : State) (e : Nat) : (s.bundleLoad e).cfg = s.cfg := by
  grind [State.bundleLoad, loadStart_cfg]

@[simp] theorem loadEnd_cfg (s : State) (q status : Nat) : (s.loadEnd q status).cfg = s.cfg := by
  unfold State.loadEnd
  (repeat' split) <;> simp

@[simp] theorem loaderAnswer_cfg (s : State) (q status opc : Nat) : (s.loaderAnswer q status opc).cfg = s.cfg := by
  simp [State.loaderAnswer]

@[simp] theorem loaderTake_cfg (s : State) (q : Nat) (act : (Nat → Nat) → State → State) (hact : ∀ (x0 : (Nat → Nat)) (x1 : State), (act
    x0 x1).cfg = x1.cfg) : (s.loaderTake q act).cfg = s.cfg := by
  grind [State.loaderTake, mbRelease_cfg]

@[simp] theorem loaderFill_cfg (s : State) (q e : Nat) (b : List Byte) : (s.loaderFill q e b).cfg = s.cfg := by
  grind [State.loaderFill, engineFill_cfg, violate_cfg, foldl_cfg]

@[simp] theorem loaderLoad_cfg (s : State) (q : Nat) (ddrErr : Bool) : (s.loaderLoad q ddrErr).cfg = s.cfg := by
  grind [State.loaderLoad, dmaReadViol_cfg, loadEnd_cfg, loaderAnswer_cfg, loaderFill_cfg, loaderTake_cfg, wr_cfg]

@[simp] theorem calTrigger_cfg (s : State) (act item : Nat) : (s.calTrigger act item).cfg = s.cfg := by
  grind [State.calTrigger, updThm_cfg]

@[simp] theorem calLoad_cfg (s : State) (n kind : Nat) (copies : List Byte × List Byte) : (s.calLoad n kind copies).cfg = s.cfg := by
  unfold State.calLoad
  extract_lets z pick sh src old s1 s2 s3 body l
  have h3 : s3.cfg = s.cfg := by
    grind [wrN_cfg, updAct_cfg]
  split
  · grind [updLane_cfg, calTrigger_cfg]
  · split
    · exact (foldl_cfg _ _ _ fun _ _ => wrAt_cfg _ _ _ _ _).trans h3
    · exact (calTrigger_cfg _ _ _).trans ((foldl_cfg _ _ _ fun _ _ => wrAt_cfg _ _ _ _ _).trans h3)
  · exact h3
  · grind [wrN_cfg, wr_cfg, calTrigger_cfg]

@[simp] theorem strobeStore_cfg (s : State) (ok : Bool) : (s.strobeStore ok).cfg = s.cfg := by
  grind [State.strobeStore, audit_cfg, updHusk_cfg, updThm_cfg]

@[simp] theorem setRun_cfg (s : State) (act item : Nat) (f : CalRun → CalRun) : (s.setRun act item f).cfg = s.cfg := by
  simp [State.setRun]

@[simp] theorem calApply_cfg (s : State) (r : CalRun) (v : List Int) : (s.calApply r v).cfg = s.cfg := by
  grind [State.calApply, updAct_cfg, updLane_cfg, updThm_cfg, wrN_cfg, foldl_cfg]

@[simp] theorem calDone_cfg (s : State) (r : CalRun) : (s.calDone r).cfg = s.cfg := by
  grind [State.calDone, borrowEntries_cfg, calCount_cfg, calStore_cfg, storeOffsets_cfg, strobeStore_cfg, updAct_cfg, updThm_cfg,
    wrInt_cfg]

@[simp] theorem calStart_cfg (s : State) (r : CalRun) : (s.calStart r).cfg = s.cfg := by
  simp [State.calStart]

@[simp] theorem calDefer_cfg (s : State) (r : CalRun) : (s.calDefer r).cfg = s.cfg := by
  grind [State.calDefer, calCount_cfg, calShow_cfg, setRun_cfg]

@[simp] theorem calAbort_cfg (s : State) (r : CalRun) : (s.calAbort r).cfg = s.cfg := by
  grind [State.calAbort, calApply_cfg, calCount_cfg, calDefer_cfg]

@[simp] theorem calMeasured_cfg (s : State) (r : CalRun) (m : CalMeas) (stored : Bool) : (s.calMeasured r m stored).cfg = s.cfg := by
  unfold State.calMeasured
  split
  · exact setRun_cfg _ _ _ _
  · grind [setRun_cfg]
  · split
    · rfl
    · next h => grind [setRun_cfg, zoneMap_cfg, updAct_cfg, emit_cfg]
  · rfl

@[simp] theorem calReached_cfg (s : State) (r : CalRun) : (s.calReached r).cfg = s.cfg := by
  grind [State.calReached, calDone_cfg, calShow_cfg, setRun_cfg, updAct_cfg]

@[simp] theorem calRound_cfg (s : State) (r : CalRun) (obs : List (CalMeas × Bool)) : (s.calRound r obs).cfg = s.cfg := by
  grind [State.calRound, calAbort_cfg, calApply_cfg, calDefer_cfg, calMeasured_cfg, calReached_cfg, calStart_cfg, setRun_cfg,
    foldl_cfg]

@[simp] theorem latchDie_cfg (s : State) (counts : List Nat) : (s.latchDie counts).cfg = s.cfg := by
  unfold State.latchDie
  extract_lets failed ids s1 temp valid off s2 s3 valid2 s4
  have h1 : s1.cfg = s.cfg := by
    refine foldl_cfg _ _ _ fun u i => ?_
    simp only [apply_ite State.cfg, sensFail_cfg, wrAt_cfg, wrInt_cfg, ite_self]
  have h3 : s3.cfg = s1.cfg := by
    refine (foldl_cfg _ _ s2 fun u i => ?_).trans (updThm_cfg _ _)
    simp only [apply_ite State.cfg, sensFail_cfg, ite_self]
  have h4 : s4.cfg = s.cfg := (wrN_cfg _ _ _ _).trans (h3.trans h1)
  clear_value s4 valid2
  cases valid2 with
  | nil => exact h4
  | cons i rest => exact (wrInt_cfg _ _ _ _ _).trans h4

@[simp] theorem fractions_cfg (s : State) : (s.fractions).cfg = s.cfg := by
  grind [State.fractions, event_cfg, fracAct_cfg, updHost_cfg, updThm_cfg, wrAt_cfg, wrN_cfg, foldl_cfg]

@[simp] theorem slotEnd_cfg (s : State) (n : Nat) : (s.slotEnd n).cfg = s.cfg := by
  grind [State.slotEnd, opCut_cfg, updAct_cfg, updThm_cfg]

@[simp] theorem slotRound_cfg (s : State) (n : Nat) : (s.slotRound n).cfg = s.cfg := by
  grind [State.slotRound, bumpBy_cfg, slotEnd_cfg, updAct_cfg, updThm_cfg, wr_cfg]

@[simp] theorem calTriggers_cfg (s : State) : (s.calTriggers).cfg = s.cfg := by
  grind [State.calTriggers, calTrigger_cfg, foldl_cfg]

@[simp] theorem calStep_cfg (s : State) (obs : List CalObs) : (s.calStep obs).cfg = s.cfg := by
  grind [State.calStep, calRound_cfg, calTriggers_cfg, foldl_cfg]

@[simp] theorem limitCheck_cfg (s : State) : (s.limitCheck).cfg = s.cfg := by
  grind [State.limitCheck, raise_cfg, updThm_cfg, foldl_cfg]

@[simp] theorem healthEvents_cfg (s : State) : (s.healthEvents).cfg = s.cfg := by
  grind [State.healthEvents, event_cfg, updThm_cfg, foldl_cfg]

@[simp] theorem ddrTrained_cfg (s : State) (l : List (List Dimm)) (rate : Nat) : (s.ddrTrained l rate).cfg = s.cfg := by
  grind [State.ddrTrained, memWins_cfg, strobeStore_cfg, updGran_cfg, updThm_cfg, wr_cfg, wrB_cfg, wrN_cfg, foldl_cfg]

@[simp] theorem imageFields_cfg (s : State) : (s.imageFields).cfg = s.cfg := by
  grind [State.imageFields, bufRefresh_cfg, updThm_cfg, wr_cfg, wr64_cfg, wrAt_cfg, wrB_cfg, wrN_cfg, foldl_cfg]

@[simp] theorem lockSheaf_cfg (s : State) : (s.lockSheaf).cfg = s.cfg := by
  simp [State.lockSheaf]

@[simp] theorem engineBoot_cfg (s : State) (e : Nat) (obj : List Byte) : (s.engineBoot e obj).cfg = s.cfg := by
  simp [State.engineBoot]

@[simp] theorem finishStart_cfg (s : State) (copy : Nat) : (s.finishStart copy).cfg = s.cfg := by
  grind [State.finishStart, audit_cfg, ctrlReady_cfg, culmCopy_cfg, engineBoot_cfg, fusedPort_cfg, imageFields_cfg,
    lockSheaf_cfg, raise_cfg, updHusk_cfg, wrN_cfg, foldl_cfg]

@[simp] theorem hostReset_cfg (s : State) : (s.hostReset).cfg = s.cfg := by
  simp [State.hostReset]

@[simp] theorem ps2Enter_cfg (s : State) : (s.ps2Enter).cfg = s.cfg := by
  grind [State.ps2Enter, park_cfg, foldl_cfg]

@[simp] theorem psEnter_cfg (s : State) (t : Nat) : (s.psEnter t).cfg = s.cfg := by
  grind [State.psEnter, cleanSides_cfg, ps2Enter_cfg, psOperational_cfg, wr_cfg, wrN_cfg]

@[simp] theorem psSettle_cfg (s : State) : (s.psSettle).cfg = s.cfg := by
  grind [State.psSettle, audit_cfg, ps2Enter_cfg, wr_cfg, wrN_cfg]

@[simp] theorem readCal_cfg (s : State) (n : Nat) (obs : LedgerObs) : (s.readCal n obs).cfg = s.cfg := by
  simp [State.readCal]

/-! ### Commands that leave alone all that `Calm` names -/

/-- Whatever next state the outcome is, it has the parts `Calm` names as `s` has them. -/
def CalmNext (s : State) (o : Res) : Prop := ∀ t, o = .next t → Calm s t

theorem calmNext_iff {s t : State} : CalmNext s (.next t) ↔ Calm s t :=
  ⟨fun h => h t rfl, fun h u e => by cases e; exact h⟩

/-! ### Links and head-ends (05) -/

theorem execTrainingAttempt_calm (h : Hda) (s : State) : CalmNext s (execTrainingAttempt h s) := by
  unfold execTrainingAttempt
  grind [calmNext_iff, calm_refl, attempt_calm]

theorem execTrainingStateDone_calm (h : Hda) (farPrecode : Bool) (s : State) : CalmNext s (execTrainingStateDone h farPrecode s) := by
  unfold execTrainingStateDone
  grind [calmNext_iff, calm_refl, wrN_calm, wr_calm, trace_calm, trainOut_calm, eqLane_calm, updPort_calm, deskewLane_calm,
    ctl_calm, calm_foldl]

theorem execTrainingStateTimeout_calm (h : Hda) (s : State) : CalmNext s (execTrainingStateTimeout h s) := by
  unfold execTrainingStateTimeout
  grind [calmNext_iff, calm_refl, attemptFail_calm]

theorem execTrainingRetry_calm (h : Hda) (s : State) : CalmNext s (execTrainingRetry h s) := by
  unfold execTrainingRetry
  grind [calmNext_iff, calm_refl, attempt_calm]

theorem execHelloAck_calm (h : Hda) (hdr : UpHdr) (m : HelloAck) (s : State) : CalmNext s (execHelloAck h hdr m s) := by
  unfold execHelloAck
  rw [calmNext_iff]
  have hk := calm_refl s
  with_reducible repeat' first
    | assumption | intro _ | apply rxCtl_calm | apply wrN_calm | apply updPort_calm | apply wr_calm | apply ctl_calm
    | apply trace_calm | split

theorem execLinkLoss_calm (h : Hda) (cause : Fin 6) (lane : Fin 4) (s : State) : CalmNext s (execLinkLoss h cause lane s) := by
  unfold execLinkLoss
  grind [calmNext_iff, calm_refl, bumpBy_calm, lose_calm, attempt_calm, attemptFail_calm]

theorem execRetrain_calm (h : Hda) (writer : Initiator) (alsoDown : Bool) (s : State) :
    CalmNext s (execRetrain h writer alsoDown s) := by
  unfold execRetrain
  grind [calmNext_iff, calm_refl, guard_calm, linkDown_calm, updPort_calm, lose_calm, attempt_calm]

theorem execDown_calm (h : Hda) (writer : Initiator) (s : State) : CalmNext s (execDown h writer s) := by
  unfold execDown
  grind [calmNext_iff, calm_refl, guard_calm, linkDown_calm]

theorem execFlashRead_calm (h : Hda) (writer : Initiator) (s : State) : CalmNext s (execFlashRead h writer s) := by
  unfold execFlashRead
  grind [calmNext_iff, calm_refl, guard_calm, flash_calm]

theorem execFlashWrite_calm (h : Hda) (writer : Initiator) (s : State) : CalmNext s (execFlashWrite h writer s) := by
  unfold execFlashWrite
  grind [calmNext_iff, calm_refl, guard_calm, flash_calm]

theorem execFlashErase_calm (h : Hda) (writer : Initiator) (s : State) : CalmNext s (execFlashErase h writer s) := by
  unfold execFlashErase
  grind [calmNext_iff, calm_refl, guard_calm, flash_calm]

theorem execFlashDone_calm (h : Hda) (hdr : UpHdr) (status : Byte) (s : State) : CalmNext s (execFlashDone h hdr status s) := by
  unfold execFlashDone
  grind [calmNext_iff, calm_refl, rxCtl_calm, updPort_calm, flashWord_calm, wr_calm, wrN_calm]

theorem execHskFlashData_calm (h : Hda) (hdr : UpHdr) (tag : Byte) (ofs : Word) (data : List Byte) (s : State) :
    CalmNext s (execHskFlashData h hdr tag ofs data s) := by
  unfold execHskFlashData
  grind [calmNext_iff, calm_refl, rxSeq_calm, dmaWrite_calm, updPort_calm]

theorem execHskTemperatures_calm (h : Hda) (hdr : UpHdr) (values : List (BitVec 16)) (s : State) :
    CalmNext s (execHskTemperatures h hdr values s) := by
  unfold execHskTemperatures
  grind [calmNext_iff, calm_refl, rxSeq_calm, sampleIn_calm, updPort_calm, hdaTemp_calm]

theorem execHskRails_calm (h : Hda) (hdr : UpHdr) (values : List (BitVec 16)) (s : State) :
    CalmNext s (execHskRails h hdr values s) := by
  unfold execHskRails
  grind [calmNext_iff, calm_refl, rxSeq_calm, sampleIn_calm, updPort_calm, trace_calm]

theorem execHskEvent_calm (h : Hda) (hdr : UpHdr) (code : Byte) (s : State) : CalmNext s (execHskEvent h hdr code s) := by
  unfold execHskEvent
  grind [calmNext_iff, calm_refl, rxSeq_calm, trace_calm]

theorem execStopAck_calm (h : Hda) (hdr : UpHdr) (reason : Byte) (safeLevel : Bool) (s : State) :
    CalmNext s (execStopAck h hdr reason safeLevel s) := by
  unfold execStopAck
  grind [calmNext_iff, calm_refl, rxCtl_calm, updPort_calm]

theorem execStopAckTimeout_calm (h : Hda) (s : State) : CalmNext s (execStopAckTimeout h s) := by
  unfold execStopAckTimeout
  grind [calmNext_iff, calm_refl, updPort_calm, trace_calm]

theorem execCredit_calm (h : Hda) (hdr : UpHdr) (sid : BitVec 4) (side : Fin 2) (frames : BitVec 16) (s : State) :
    CalmNext s (execCredit h hdr sid side frames s) := by
  unfold execCredit
  grind [calmNext_iff, calm_refl, rxCtl_calm, credit_calm]

theorem execKeepalive_calm (h : Hda) (hdr : UpHdr) (s : State) : CalmNext s (execKeepalive h hdr s) := by
  unfold execKeepalive
  grind [calmNext_iff, calm_refl, rxCtl_calm]

theorem execAln_calm (h : Hda) (lane : Fin 4) (arrival : Int) (alnSeq : Word) (corrected uncorrectable : Nat) (s : State) :
    CalmNext s (execAln h lane arrival alnSeq corrected uncorrectable s) := by
  unfold execAln
  grind [calmNext_iff, calm_refl, bumpBy_calm, lose_calm, attempt_calm, updPort_calm, switchAt_calm]

theorem execDeskewMove_calm (h : Hda) (lane : Fin 4) (s : State) : CalmNext s (execDeskewMove h lane s) := by
  unfold execDeskewMove
  grind [calmNext_iff, calm_refl, wrAt_calm, bumpWrap_calm, updPort_calm]

theorem execLaneSet_calm (h : Hda) (four : Bool) (s : State) : CalmNext s (execLaneSet h four s) := by
  unfold execLaneSet
  grind [calmNext_iff, calm_refl, laneSet_calm]

theorem execLaneAck_calm (h : Hda) (hdr : UpHdr) (action status : Byte) (alnSeq : Word) (s : State) :
    CalmNext s (execLaneAck h hdr action status alnSeq s) := by
  unfold execLaneAck
  grind [calmNext_iff, calm_refl, rxCtl_calm, laneFail_calm, eqLane_calm, deskewLane_calm, trainOut_calm, wrN_calm,
    laneSwitch_calm, updPort_calm, calm_foldl]

theorem execLaneChangeFailure_calm (h : Hda) (s : State) : CalmNext s (execLaneChangeFailure h s) := by
  unfold execLaneChangeFailure
  grind [calmNext_iff, calm_refl, laneFail_calm]

/-! ### Loops (11) -/

theorem execLoopRun_calm (g : Loop) (ts : Word) (s : State) : CalmNext s (execLoopRun g ts s) := by
  unfold execLoopRun
  grind [calmNext_iff, calm_refl, updLoop_calm, tagIn_calm, loopInput_calm]

theorem execLoopWatchdog_calm (g : Loop) (s : State) : CalmNext s (execLoopWatchdog g s) := by
  unfold execLoopWatchdog
  grind [calmNext_iff, calm_refl, loopExpire_calm]

theorem execRetractPhaseEnd_calm (n : Act) (s : State) : CalmNext s (execRetractPhaseEnd n s) := by
  unfold execRetractPhaseEnd
  rw [calmNext_iff]
  have hk := calm_refl s
  with_reducible repeat' first
    | assumption | intro _ | apply calm_ite | apply loopOut_calm | apply wr_calm | apply updLoop_calm | apply loopActionEnd_calm
    | apply updAct_calm | apply disEnd_calm | split

theorem execEnable_calm (g : Loop) (writer : Initiator) (on : Bool) (s : State) : CalmNext s (execEnable g writer on s) := by
  unfold execEnable
  grind [calmNext_iff, calm_refl, guard_calm, loopEnable_calm, loopDisable_calm]

theorem execModeReq_calm (g : Loop) (writer : Initiator) (mode : BitVec 2) (s : State) :
    CalmNext s (execModeReq g writer mode s) := by
  unfold execModeReq
  grind [calmNext_iff, calm_refl, guard_calm, wr_calm, wrN_calm, updLoop_calm]

theorem execSwap_calm (g : Loop) (writer : Initiator) (s : State) : CalmNext s (execSwap g writer s) := by
  unfold execSwap
  grind [calmNext_iff, calm_refl, guard_calm, updLoop_calm]

theorem execTuneTimeout_calm (g : Loop) (s : State) : CalmNext s (execTuneTimeout g s) := by
  unfold execTuneTimeout
  grind [calmNext_iff, calm_refl, tuneEnd_calm]

theorem execSpPush_calm (n : Act) (writer : Initiator) (s : State) : CalmNext s (execSpPush n writer s) := by
  unfold execSpPush
  grind [calmNext_iff, calm_refl, guard_calm, wrN_calm, updAct_calm]

theorem execFrameBoundary_calm (n : Act) (s : State) : CalmNext s (execFrameBoundary n s) := by
  unfold execFrameBoundary
  rw [calmNext_iff]
  have hk := calm_refl s
  with_reducible repeat' first
    | assumption | intro _ | apply updAct_calm | apply wrB_calm | apply bump_calm | apply streamsOff_calm | apply headBoundary_calm
    | apply fifoBoundary_calm | apply rampBoundary_calm | apply clkFollow_calm | apply ctl_calm | apply loopBoundary_calm
    | apply calm_foldl | split

/-! ### Engines and epochs (07) -/

theorem execEpochOpen_calm (e : Eng) (writer : Initiator) (src : BitVec 3) (s : State) :
    CalmNext s (execEpochOpen e writer src s) := by
  unfold execEpochOpen
  rw [calmNext_iff]
  have hk := calm_refl s
  with_reducible repeat' first
    | assumption | intro _ | apply guard_calm | apply openRefused_calm | apply openEpoch_calm | apply wrB_calm | apply updAct_calm
    | apply epochRes_calm | split | refine calm_fst (by assumption) ?_

theorem execEpochCommit_calm (e : Eng) (writer : Initiator) (num : BitVec 16) (chaffSameCycle : Bool) (s : State) :
    CalmNext s (execEpochCommit e writer num chaffSameCycle s) := by
  unfold execEpochCommit
  rw [calmNext_iff]
  have hk := calm_refl s
  with_reducible repeat' first
    | assumption | intro _ | apply guard_calm | apply epochRes_calm | apply chaffSlot_calm | apply mqRefresh_calm
    | apply commitSlot_calm | split

theorem execEpochChaff_calm (e : Eng) (writer : Initiator) (num : BitVec 16) (s : State) :
    CalmNext s (execEpochChaff e writer num s) := by
  unfold execEpochChaff
  rw [calmNext_iff]
  have hk := calm_refl s
  with_reducible repeat' first
    | assumption | intro _ | apply guard_calm | apply epochRes_calm | apply chaffSlot_calm | apply mqRefresh_calm | split

theorem execPreseekChaffTimeout_calm (n : Act) (s : State) : CalmNext s (execPreseekChaffTimeout n s) := by
  unfold execPreseekChaffTimeout
  grind [calmNext_iff, calm_refl, chaffSlot_calm, mqRefresh_calm]

theorem execPreemption_calm (n : Act) (s : State) : CalmNext s (execPreemption n s) := by
  unfold execPreemption
  grind [calmNext_iff, calm_refl, bump_calm, guarantee_calm, opCut_calm, trace_calm]

/-! ### Transit servo (06) -/

theorem execToneUnlock_calm (n : Act) (s : State) : CalmNext s (execToneUnlock n s) := by
  unfold execToneUnlock
  grind [calmNext_iff, calm_refl, wr_calm, enterLost_calm]

theorem execTransitAcquisitionTimeout_calm (n : Act) (s : State) : CalmNext s (execTransitAcquisitionTimeout n s) := by
  unfold execTransitAcquisitionTimeout
  grind [calmNext_iff, calm_refl, raise_calm]

theorem execHeadsOffRamp_calm (n : Act) (s : State) : CalmNext s (execHeadsOffRamp n s) := by
  unfold execHeadsOffRamp
  rw [calmNext_iff]
  have hk := calm_refl s
  with_reducible repeat' first
    | assumption | intro _ | apply smpCtl_calm | apply updAct_calm | apply wr_calm | apply trace_calm | split

theorem execHeadsOnRamp_calm (n : Act) (s : State) : CalmNext s (execHeadsOnRamp n s) := by
  unfold execHeadsOnRamp
  grind [calmNext_iff, calm_refl, rampReached_calm]

theorem execReacq_calm (n : Act) (writer : Initiator) (s : State) : CalmNext s (execReacq n writer s) := by
  unfold execReacq
  grind [calmNext_iff, calm_refl, guard_calm, wr_calm, updAct_calm, trace_calm]

theorem execAlignmentBurst_calm (n : Act) (o : BurstObs) (s : State) : CalmNext s (execAlignmentBurst n o s) := by
  unfold execAlignmentBurst
  rw [calmNext_iff]
  have hk := calm_refl s
  with_reducible repeat' first
    | assumption | intro _ | apply wrInt_calm | apply wrAt_calm | apply updAct_calm | apply setTarget_calm | apply clkFollow_calm
    | apply burstMiss_calm | extract_lets | split

theorem execRadOfs_calm (n : Act) (k : Fin 10) (writer : Initiator) (value : BitVec 16) (s : State) :
    CalmNext s (execRadOfs n k writer value s) := by
  unfold execRadOfs
  grind [calmNext_iff, calm_refl, guard_calm, wrAt_calm, loosen_calm, setTarget_calm]

theorem execTimOfs_calm (n : Act) (k : Fin 10) (writer : Initiator) (value : BitVec 20) (s : State) :
    CalmNext s (execTimOfs n k writer value s) := by
  unfold execTimOfs
  grind [calmNext_iff, calm_refl, guard_calm, wrAt_calm, loosen_calm, clkFollow_calm]

/-! ### Writing (10) -/

theorem execOpRead_calm (e : Eng) (writer : Initiator) (s : State) : CalmNext s (execOpRead e writer s) := by
  unfold execOpRead
  grind [calmNext_iff, calm_refl, opGo_calm]

theorem execOpWrite_calm (e : Eng) (writer : Initiator) (s : State) : CalmNext s (execOpWrite e writer s) := by
  unfold execOpWrite
  grind [calmNext_iff, calm_refl, opGo_calm]

theorem execOpSeek_calm (e : Eng) (writer : Initiator) (s : State) : CalmNext s (execOpSeek e writer s) := by
  unfold execOpSeek
  grind [calmNext_iff, calm_refl, opGo_calm]

theorem execOpRunaheadRead_calm (e : Eng) (writer : Initiator) (s : State) : CalmNext s (execOpRunaheadRead e writer s) := by
  unfold execOpRunaheadRead
  grind [calmNext_iff, calm_refl, opGo_calm]

theorem execTransitFrame_calm (n : Act) (o : TransitObs) (s : State) : CalmNext s (execTransitFrame n o s) := by
  unfold execTransitFrame
  rw [calmNext_iff]
  have hk := calm_refl s
  with_reducible repeat' first
    | assumption | intro _ | apply calm_ite | apply wrB_calm | apply bump_calm | apply acquire_calm | apply measurePeriod_calm
    | apply validFrame_calm | apply invalidFrame_calm | apply gateEval_calm | apply confirmAll_calm | apply enterLost_calm
    | apply recIssue_calm | apply resumeGo_calm | split

theorem execWindowEnd_calm (n : Act) (s : State) : CalmNext s (execWindowEnd n s) := by
  unfold execWindowEnd
  grind [calmNext_iff, calm_refl, windowEnd_calm]

theorem execWdone_calm (h : Hda) (hdr : UpHdr) (side : Fin 2) (winId : BitVec 16) (bits : Word) (s : State) :
    CalmNext s (execWdone h hdr side winId bits s) := by
  unfold execWdone
  rw [calmNext_iff]
  have hk := calm_refl s
  with_reducible repeat' first
    | assumption | intro _ | apply calm_ite | apply rxCtl_calm | apply windowEnd_calm | apply charge_calm | apply coverSector_calm
    | apply bump_calm | apply trace_calm | apply updAct_calm | apply dropWindow_calm | apply settle_calm | apply calm_foldl
    | extract_lets | split

theorem execErr_calm (h : Hda) (hdr : UpHdr) (code : Byte) (sid : BitVec 4) (side : Fin 2) (winId : BitVec 16) (s : State) :
    CalmNext s (execErr h hdr code sid side winId s) := by
  unfold execErr
  grind [calmNext_iff, calm_refl, rxCtl_calm, bump_calm, updAct_calm, laserManual_calm, dropWindow_calm, trace_calm]

theorem execWtData_calm (n : Act) (who : Initiator) (value : Option Word) (s : State) : CalmNext s (execWtData n who value s) := by
  unfold execWtData
  grind [calmNext_iff, calm_refl, updAct_calm, emit_calm, wrN_calm, guardAcc_calm]

theorem execWtCommit_calm (n : Act) (writer : Initiator) (s : State) : CalmNext s (execWtCommit n writer s) := by
  unfold execWtCommit
  grind [calmNext_iff, calm_refl, guard_calm, wr_calm, wtCommitTry_calm]

theorem execMediaQueueEntry_calm (n : Act) (s : State) : CalmNext s (execMediaQueueEntry n s) := by
  unfold execMediaQueueEntry
  grind [calmNext_iff, calm_refl, updHost_calm, bump_calm, mqPut_calm, settle_calm, calm_foldl]

/-! ### Read channel (08) -/

theorem execTapData_calm (l : Lane) (who : Initiator) (value : Option (BitVec 16)) (s : State) :
    CalmNext s (execTapData l who value s) := by
  unfold execTapData
  grind [calmNext_iff, calm_refl, updLane_calm, emit_calm, wrB_calm, wrN_calm, guardAcc_calm]

theorem execTapCommit_calm (l : Lane) (writer : Initiator) (s : State) : CalmNext s (execTapCommit l writer s) := by
  unfold execTapCommit
  grind [calmNext_iff, calm_refl, guard_calm, injWrite_calm, updLane_calm, wr_calm, calm_foldl]

theorem execCaptureCopyDone_calm (l : Lane) (secdedErr : Bool) (s : State) : CalmNext s (execCaptureCopyDone l secdedErr s) := by
  unfold execCaptureCopyDone
  rw [calmNext_iff]
  have hk := calm_refl s
  with_reducible repeat' first
    | assumption | intro _ | apply updLane_calm | apply wrN_calm | apply laneCount_calm | apply putGrain_calm | apply updPool_calm
    | apply assign_calm | apply raise_calm | apply calm_foldl | split

theorem execSampleMarker_calm (h : Hda) (hdr : UpHdr) (sid : BitVec 4) (side : Fin 2) (m : Marker) (s : State) :
    CalmNext s (execSampleMarker h hdr sid side m s) := by
  unfold execSampleMarker
  grind [calmNext_iff, calm_refl, rxSeq_calm, updPort_calm, bump_calm, gainMarker_calm, rxBad_calm]

theorem execSampleFrame_calm (h : Hda) (hdr : UpHdr) (sid : BitVec 4) (side : Fin 2) (payload : BitVec 240) (s : State) :
    CalmNext s (execSampleFrame h hdr sid side payload s) := by
  unfold execSampleFrame
  grind [calmNext_iff, calm_refl, rxSeq_calm, updPort_calm, sampleIn_calm, placeSamples_calm, rxBad_calm]

theorem execMotFrame_calm (h : Hda) (hdr : UpHdr) (side : Fin 2) (frameNo : Word) (tick : BitVec 16) (mtype : Byte)
    (values : List (BitVec 16)) (s : State) :
    CalmNext s (execMotFrame h hdr side frameNo tick mtype values s) := by
  unfold execMotFrame
  grind [calmNext_iff, calm_refl, rxSeq_calm, sampleIn_calm, updPort_calm, coastEnd_calm, loopFeed_calm]

/-! ### Bound ports (05) -/

theorem execDescriptorRead_calm (h : Hda) (copy0 copy1 : List Byte) (s : State) :
    CalmNext s (execDescriptorRead h copy0 copy1 s) := by
  unfold execDescriptorRead
  grind [calmNext_iff, calm_refl, readCopy_calm, wrN_calm, portUp_calm, unbind_calm]

/-! ### Recovery and ledgers (09) -/

theorem execFailureNoticeTaken_calm (s : State) : CalmNext s (execFailureNoticeTaken s) := by
  unfold execFailureNoticeTaken
  rw [calmNext_iff]
  have hk := calm_refl s
  with_reducible repeat' first
    | assumption | intro _ | apply updPool_calm | apply noticeRefresh_calm | apply updCmd_calm | apply wrN_calm | apply toStep_calm
    | split

theorem execDecodeUnitDone_calm (d : Fin 16) (s : State) : CalmNext s (execDecodeUnitDone d s) := by
  unfold execDecodeUnitDone
  rw [calmNext_iff]
  split
  · exact calm_refl s
  · extract_lets freed r held injected
    have hheld : Calm s held := setRec_calm _ _ _ (decFree_calm _ _ (bumpBy_calm _ _ _ _ _ (calm_refl s)))
    have hinj : Calm s injected := by
      dsimp only [injected]
      split
      · next h => exact raise_calm _ _ _ _ _ (injTake_calm h hheld)
      · exact hheld
    have hcap := capCheck_calm injected r hinj
    with_reducible repeat' first
      | assumption | apply assign_calm | apply recAccept_calm | apply stepFive_calm | apply toStep_calm
      | split | refine calm_fst (by assumption) ?_ | extract_lets

theorem execRecoveryDeadline_calm (slot : BitVec 16) (s : State) : CalmNext s (execRecoveryDeadline slot s) := by
  unfold execRecoveryDeadline
  grind [calmNext_iff, calm_refl, bump_calm, stepFive_calm, assign_calm]

theorem execRemapFlush_calm (n : Act) (s : State) : CalmNext s (execRemapFlush n s) := by
  unfold execRemapFlush
  grind [calmNext_iff, calm_refl, updLed_calm]

theorem execZmapFlush_calm (n : Act) (s : State) : CalmNext s (execZmapFlush n s) := by
  unfold execZmapFlush
  grind [calmNext_iff, calm_refl, updLed_calm]

theorem execLedgerGenerationDurable_calm (n : Act) (kind : Fin 4) (s : State) :
    CalmNext s (execLedgerGenerationDurable n kind s) := by
  unfold execLedgerGenerationDurable
  grind [calmNext_iff, calm_refl, raise_calm, genDurable_calm, settle_calm]

/-! ### Queues and features (13) -/

theorem execSubmissionQueueTailDoorbell_calm (q : Nat) (tail : BitVec 16) (s : State) :
    CalmNext s (execSubmissionQueueTailDoorbell q tail s) := by
  unfold execSubmissionQueueTailDoorbell
  grind [calmNext_iff, calm_refl, updHost_calm]

theorem execCompletionQueueHeadDoorbell_calm (q : Nat) (head : BitVec 16) (s : State) :
    CalmNext s (execCompletionQueueHeadDoorbell q head s) := by
  unfold execCompletionQueueHeadDoorbell
  grind [calmNext_iff, calm_refl, updHost_calm, postWaiting_calm]

theorem execCoalescingTimeExpiry_calm (vector : Nat) (s : State) : CalmNext s (execCoalescingTimeExpiry vector s) := by
  unfold execCoalescingTimeExpiry
  grind [calmNext_iff, calm_refl, updHost_calm, msixSend_calm]

theorem execCreateIoSq_calm (slot : BitVec 16) (s : State) : CalmNext s (execCreateIoSq slot s) := by
  unfold execCreateIoSq
  grind [calmNext_iff, calm_refl, adminRow_calm, complete_calm, updHost_calm]

theorem execCreateIoCq_calm (slot : BitVec 16) (s : State) : CalmNext s (execCreateIoCq slot s) := by
  unfold execCreateIoCq
  grind [calmNext_iff, calm_refl, adminRow_calm, complete_calm, updHost_calm]

theorem execDeleteIoCq_calm (slot : BitVec 16) (s : State) : CalmNext s (execDeleteIoCq slot s) := by
  unfold execDeleteIoCq
  grind [calmNext_iff, calm_refl, adminRow_calm, complete_calm, updHost_calm]

theorem execAbort_calm (slot : BitVec 16) (sameCycleCompletion : Bool) (s : State) :
    CalmNext s (execAbort slot sameCycleCompletion s) := by
  unfold execAbort
  grind [calmNext_iff, calm_refl, adminRow_calm, bump_calm, complete_calm, abortSlot_calm, updCmd_calm]

theorem execAbortCompletion_calm (slot : BitVec 16) (s : State) : CalmNext s (execAbortCompletion slot s) := by
  unfold execAbortCompletion
  grind [calmNext_iff, calm_refl, complete_calm, waitersDone_calm, giveRoom_calm, settle_calm]

theorem execDeleteIoSq_calm (slot : BitVec 16) (s : State) : CalmNext s (execDeleteIoSq slot s) := by
  unfold execDeleteIoSq
  rw [calmNext_iff]
  have hk := calm_refl s
  with_reducible repeat' first
    | assumption | intro _ | apply adminRow_calm | apply complete_calm | apply abortSlot_calm | apply bumpBy_calm
    | apply updHost_calm | apply updCmd_calm | apply calm_foldl | extract_lets | split

theorem execControllerEnable_calm (cc : Word) (s : State) : CalmNext s (execControllerEnable cc s) := by
  unfold execControllerEnable
  grind [calmNext_iff, calm_refl, updHost_calm, ctrlReady_calm]

theorem execShutdownNormal_calm (s : State) : CalmNext s (execShutdownNormal s) := by
  unfold execShutdownNormal
  grind [calmNext_iff, calm_refl, updHost_calm, cleanSides_calm]

theorem execArbitration_calm (slot : BitVec 16) (s : State) : CalmNext s (execArbitration slot s) := by
  unfold execArbitration
  grind [calmNext_iff, calm_refl, setFeature_calm, wrN_calm, complete_calm]

theorem execTemperatureThreshold_calm (slot : BitVec 16) (s : State) : CalmNext s (execTemperatureThreshold slot s) := by
  unfold execTemperatureThreshold
  grind [calmNext_iff, calm_refl, setFeature_calm, complete_calm, updHost_calm, calm_foldl]

theorem execErrorRecovery_calm (slot : BitVec 16) (s : State) : CalmNext s (execErrorRecovery slot s) := by
  unfold execErrorRecovery
  grind [calmNext_iff, calm_refl, setFeature_calm, complete_calm, updHost_calm, calm_foldl]

theorem execVolatileWriteCache_calm (slot : BitVec 16) (s : State) : CalmNext s (execVolatileWriteCache slot s) := by
  unfold execVolatileWriteCache
  grind [calmNext_iff, calm_refl, setFeature_calm, updHost_calm, complete_calm]

theorem execNumberOfQueues_calm (slot : BitVec 16) (s : State) : CalmNext s (execNumberOfQueues slot s) := by
  unfold execNumberOfQueues
  grind [calmNext_iff, calm_refl, setFeature_calm, complete_calm, updHost_calm]

theorem execInterruptCoalescing_calm (slot : BitVec 16) (s : State) : CalmNext s (execInterruptCoalescing slot s) := by
  unfold execInterruptCoalescing
  grind [calmNext_iff, calm_refl, setFeature_calm, updHost_calm, complete_calm]

theorem execInterruptVectorConfiguration_calm (slot : BitVec 16) (s : State) :
    CalmNext s (execInterruptVectorConfiguration slot s) := by
  unfold execInterruptVectorConfiguration
  grind [calmNext_iff, calm_refl, setFeature_calm, complete_calm, updHost_calm]

theorem execAsynchronousEventConfiguration_calm (slot : BitVec 16) (s : State) :
    CalmNext s (execAsynchronousEventConfiguration slot s) := by
  unfold execAsynchronousEventConfiguration
  grind [calmNext_iff, calm_refl, setFeature_calm, updHost_calm, complete_calm]

theorem execAutonomousPowerStateTransition_calm (slot : BitVec 16) (table : List (Nat × Nat)) (s : State) :
    CalmNext s (execAutonomousPowerStateTransition slot table s) := by
  unfold execAutonomousPowerStateTransition
  grind [calmNext_iff, calm_refl, setFeature_calm, updHost_calm, complete_calm]

theorem execTimestamp_calm (slot : BitVec 16) (ms : BitVec 48) (s : State) : CalmNext s (execTimestamp slot ms s) := by
  unfold execTimestamp
  grind [calmNext_iff, calm_refl, setFeature_calm, updHost_calm, audit_calm, complete_calm]

theorem execGetFeatures_calm (slot : BitVec 16) (s : State) : CalmNext s (execGetFeatures slot s) := by
  unfold execGetFeatures
  grind [calmNext_iff, calm_refl, adminRow_calm, emit_calm, complete_calm]

theorem execAsynchronousEventRequest_calm (slot : BitVec 16) (s : State) : CalmNext s (execAsynchronousEventRequest slot s) := by
  unfold execAsynchronousEventRequest
  grind [calmNext_iff, calm_refl, adminRow_calm, aerServe_calm]

/-! ### I/O commands (13) -/

theorem execDataGrainBuffered_calm (slot : BitVec 16) (index : Nat) (payload : List Byte) (tagOk : Bool) (s : State) :
    CalmNext s (execDataGrainBuffered slot index payload tagOk s) := by
  unfold execDataGrainBuffered
  grind [calmNext_iff, calm_refl, bufferGrain_calm, settle_calm, raise_calm, abortWork_calm, complete_calm]

theorem execBufWaitResume_calm (s : State) : CalmNext s (execBufWaitResume s) := by
  unfold execBufWaitResume
  rw [calmNext_iff]
  have hk := calm_refl s
  with_reducible repeat' first
    | assumption | intro _ | apply bufRefresh_calm | apply giveRoom_calm | apply fillZeroes_calm | apply settle_calm
    | apply calm_foldl

theorem execWrite_calm (slot : BitVec 16) (s : State) : CalmNext s (execWrite slot s) := by
  unfold execWrite
  grind [calmNext_iff, calm_refl, ioRow_calm]

theorem execZoneAppend_calm (slot : BitVec 16) (s : State) : CalmNext s (execZoneAppend slot s) := by
  unfold execZoneAppend
  grind [calmNext_iff, calm_refl, ioRow_calm]

theorem execWriteZeroes_calm (slot : BitVec 16) (s : State) : CalmNext s (execWriteZeroes slot s) := by
  unfold execWriteZeroes
  grind [calmNext_iff, calm_refl, ioRow_calm, fillZeroes_calm, settle_calm]

theorem execRead_calm (slot : BitVec 16) (s : State) : CalmNext s (execRead slot s) := by
  unfold execRead
  grind [calmNext_iff, calm_refl, ioRow_calm, readStart_calm]

theorem execVerify_calm (slot : BitVec 16) (s : State) : CalmNext s (execVerify slot s) := by
  unfold execVerify
  grind [calmNext_iff, calm_refl, ioRow_calm, readStart_calm]

theorem execFlush_calm (slot : BitVec 16) (s : State) : CalmNext s (execFlush slot s) := by
  unfold execFlush
  grind [calmNext_iff, calm_refl, ioRow_calm, updCmd_calm, settle_calm]

theorem execDmaError_calm (slot : BitVec 16) (kind : DmaFail) (s : State) : CalmNext s (execDmaError slot kind s) := by
  unfold execDmaError
  grind [calmNext_iff, calm_refl, bump_calm, abortWork_calm, complete_calm, settle_calm]

/-! ### Zones (14) -/

theorem execZoneClose_calm (slot : BitVec 16) (s : State) : CalmNext s (execZoneClose slot s) := by
  unfold execZoneClose
  grind [calmNext_iff, calm_refl, zoneSend_calm, zoneAct_calm, setZone_calm, complete_calm, calm_foldl]

theorem execZoneFinish_calm (slot : BitVec 16) (s : State) : CalmNext s (execZoneFinish slot s) := by
  unfold execZoneFinish
  grind [calmNext_iff, calm_refl, zoneSend_calm, zoneAct_calm, eraseZone_calm, zoneFull_calm, complete_calm, updCmd_calm,
    settle_calm, calm_foldl]

theorem execZoneOpen_calm (slot : BitVec 16) (s : State) : CalmNext s (execZoneOpen slot s) := by
  unfold execZoneOpen
  rw [calmNext_iff]
  have hk := calm_refl s
  with_reducible repeat' first
    | assumption | intro _ | apply calm_ite | apply zoneSend_calm | apply zoneAct_calm | apply makeOpen_calm | apply setZone_calm
    | apply zoneMap_calm | apply complete_calm | apply updCmd_calm | apply settle_calm | apply calm_foldl_fst | apply calm_ite_fst

theorem execZoneReset_calm (slot : BitVec 16) (s : State) : CalmNext s (execZoneReset slot s) := by
  unfold execZoneReset
  grind [calmNext_iff, calm_refl, zoneSend_calm, updHost_calm, mqDrop_calm, complete_calm, updCmd_calm, settle_calm]

theorem execZoneOffline_calm (slot : BitVec 16) (s : State) : CalmNext s (execZoneOffline slot s) := by
  unfold execZoneOffline
  grind [calmNext_iff, calm_refl, zoneSend_calm, complete_calm]

theorem execSetZoneDescriptorExtension_calm (slot : BitVec 16) (s : State) : CalmNext s (execSetZoneDescriptorExtension slot s) := by
  unfold execSetZoneDescriptorExtension
  grind [calmNext_iff, calm_refl, zoneSend_calm, complete_calm]

theorem execReportZones_calm (slot : BitVec 16) (s : State) : CalmNext s (execReportZones slot s) := by
  unfold execReportZones
  grind [calmNext_iff, calm_refl, zoneRecv_calm, emit_calm, complete_calm]

theorem execExtendedReportZones_calm (slot : BitVec 16) (s : State) : CalmNext s (execExtendedReportZones slot s) := by
  unfold execExtendedReportZones
  grind [calmNext_iff, calm_refl, zoneRecv_calm, complete_calm]

/-! ### Mailboxes, locks, windows and registers (03) -/

theorem execViolationAuditSecond_calm (s : State) : CalmNext s (execViolationAuditSecond s) := by
  unfold execViolationAuditSecond
  grind [calmNext_iff, calm_refl, audit_calm, calm_foldl, calm_mk]

/-! ### Almanac (18) -/

theorem execHourMark_calm (s : State) : CalmNext s (execHourMark s) := by
  unfold execHourMark
  grind [calmNext_iff, calm_refl, hourMark_calm]

theorem execTracePut_calm (writer : Initiator) (s : State) : CalmNext s (execTracePut writer s) := by
  unfold execTracePut
  grind [calmNext_iff, calm_refl, put_calm, trace_calm]

theorem execAuditPut_calm (writer : Initiator) (s : State) : CalmNext s (execAuditPut writer s) := by
  unfold execAuditPut
  rw [calmNext_iff]
  refine put_calm _ _ _ (fun x hx => ?_) (calm_refl s)
  have hput := updAlm_calm x (fun a => { a with
    putSecond := x.alm.us64.toNat / 1000000,
    puts := if a.putSecond = x.alm.us64.toNat / 1000000 then a.puts else 0 }) hx
  dsimp only
  split
  · exact updAlm_calm _ _ (bump_calm _ _ _ hput)
  · exact audit_calm _ _ _ _ _ _ (updAlm_calm _ _ hput)

theorem execSnapshotOpen_calm (handle : Fin 4) (writer : Initiator) (close : Bool) (s : State) :
    CalmNext s (execSnapshotOpen handle writer close s) := by
  unfold execSnapshotOpen
  grind [calmNext_iff, calm_refl, guard_calm, snapClose_calm, snapOpen_calm]

theorem execSnapshotClose_calm (handle : Fin 4) (writer : Initiator) (s : State) :
    CalmNext s (execSnapshotClose handle writer s) := by
  unfold execSnapshotClose
  grind [calmNext_iff, calm_refl, guard_calm, snapClose_calm]

theorem execSnapshotIdleClose_calm (handle : Fin 4) (s : State) : CalmNext s (execSnapshotIdleClose handle s) := by
  unfold execSnapshotIdleClose
  grind [calmNext_iff, calm_refl, snapClose_calm, bump_calm]

theorem execHostSnapshotOpen_calm (s : State) : CalmNext s (execHostSnapshotOpen s) := by
  unfold execHostSnapshotOpen
  grind [calmNext_iff, calm_refl, snapOpen_calm, snapShow_calm]

theorem execHostSnapshotClose_calm (s : State) : CalmNext s (execHostSnapshotClose s) := by
  unfold execHostSnapshotClose
  grind [calmNext_iff, calm_refl, snapClose_calm, emit_calm]

theorem execPageSeqAdvance_calm (s : State) : CalmNext s (execPageSeqAdvance s) := by
  unfold execPageSeqAdvance
  grind [calmNext_iff, calm_refl, updSnap_calm, snapShow_calm]

theorem execNorCopy_calm (ok : Bool) (s : State) : CalmNext s (execNorCopy ok s) := by
  unfold execNorCopy
  grind [calmNext_iff, calm_refl, updAlm_calm, norFlush_calm, bump_calm, audit_calm]

/-! ### Requests to Husk, loaders and the relay (03) -/

theorem execTillerReloadTimeout_calm (n : Act) (s : State) : CalmNext s (execTillerReloadTimeout n s) := by
  unfold execTillerReloadTimeout
  grind [calmNext_iff, calm_refl, updAct_calm, failActs_calm]

theorem execMctpMessage_calm (nvmeMi : Bool) (tag : Byte) (tagOwner : Bool) (message : List Byte) (s : State) :
    CalmNext s (execMctpMessage nvmeMi tag tagOwner message s) := by
  unfold execMctpMessage
  grind [calmNext_iff, calm_refl, miError_calm, audit_calm, updHusk_calm]

theorem execMiRelayTimeout_calm (s : State) : CalmNext s (execMiRelayTimeout s) := by
  unfold execMiRelayTimeout
  grind [calmNext_iff, calm_refl, miError_calm, audit_calm, updHusk_calm]

/-! ### Granary and main memory (15) -/

theorem execMainMemoryAccess_calm (who : Initiator) (secure : Bool) (addr : BitVec 48) (wr : Option (List Byte)) (len : Nat)
    (obs : MemObs) (s : State) :
    CalmNext s (execMainMemoryAccess who secure addr wr len obs s) := by
  unfold execMainMemoryAccess
  grind [calmNext_iff, calm_refl, huskAccess_calm, wake_calm, lineAccess_calm, violate_calm, emit_calm, calm_foldl]

theorem execGleaningWriteBackDone_calm (line : Nat) (s : State) : CalmNext s (execGleaningWriteBackDone line s) := by
  unfold execGleaningWriteBackDone
  grind [calmNext_iff, calm_refl, updGran_calm, ddrWrite_calm, bump_calm, granRefresh_calm]

theorem execGranaryRangeGo_calm (i : Fin 8) (writer : Initiator) (s : State) : CalmNext s (execGranaryRangeGo i writer s) := by
  unfold execGranaryRangeGo
  rw [calmNext_iff]
  have hk := calm_refl s
  with_reducible repeat' first
    | assumption | intro _ | apply calm_ite | apply guard_calm | apply wrN_calm | apply wr_calm | apply updGran_calm

theorem execCleanAndInvalidate_calm (i : Fin 8) (s : State) : CalmNext s (execCleanAndInvalidate i s) := by
  unfold execCleanAndInvalidate
  grind [calmNext_iff, calm_refl, rangeOp_calm, invalidate_calm]

theorem execDiscardAndInvalidate_calm (i : Fin 8) (s : State) : CalmNext s (execDiscardAndInvalidate i s) := by
  unfold execDiscardAndInvalidate
  grind [calmNext_iff, calm_refl, rangeOp_calm, invalidate_calm]

theorem execPreload_calm (i : Fin 8) (s : State) : CalmNext s (execPreload i s) := by
  unfold execPreload
  grind [calmNext_iff, calm_refl, rangeOp_calm, preload_calm]

theorem execPreloadAndLock_calm (i : Fin 8) (s : State) : CalmNext s (execPreloadAndLock i s) := by
  unfold execPreloadAndLock
  grind [calmNext_iff, calm_refl, rangeOp_calm, preload_calm, lockLine_calm]

theorem execUnlock_calm (i : Fin 8) (s : State) : CalmNext s (execUnlock i s) := by
  unfold execUnlock
  grind [calmNext_iff, calm_refl, rangeOp_calm, unlockLine_calm]

theorem execRangeOperationDone_calm (i : Fin 8) (s : State) : CalmNext s (execRangeOperationDone i s) := by
  unfold execRangeOperationDone
  grind [calmNext_iff, calm_refl, wr_calm, updGran_calm]

theorem execPatrolScrub_calm (line : Nat) (ecc : EccEvent) (s : State) : CalmNext s (execPatrolScrub line ecc s) := by
  unfold execPatrolScrub
  rw [calmNext_iff]
  have hk := calm_refl s
  with_reducible repeat' first
    | assumption | intro _ | apply calm_ite | apply ddrRead_calm | apply ddrWrite_calm | apply ddrPoison_calm | apply audit_calm
    | apply bump_calm | split

theorem execDimmSensorRead_calm (temps : List (Option Int)) (s : State) : CalmNext s (execDimmSensorRead temps s) := by
  unfold execDimmSensorRead
  grind [calmNext_iff, calm_refl, dimmRead_calm, calm_foldl]

/-! ### Spindle motor (12) -/

theorem execSenseEnd_calm (h : Hda) (bemf : BemfObs) (s : State) : CalmNext s (execSenseEnd h bemf s) := by
  unfold execSenseEnd
  rw [calmNext_iff]
  have hk := calm_refl s
  with_reducible repeat' first
    | assumption | intro _ | apply calm_ite | apply senseBemf_calm | apply bump_calm | apply wr_calm | apply spinState_calm
    | apply brakeOn_calm | apply spinSeed_calm | apply spinAlign_calm

theorem execAlignEnd_calm (h : Hda) (s : State) : CalmNext s (execAlignEnd h s) := by
  unfold execAlignEnd
  grind [calmNext_iff, calm_refl, spinState_calm]

theorem execHandoffTimeout_calm (h : Hda) (s : State) : CalmNext s (execHandoffTimeout h s) := by
  unfold execHandoffTimeout
  grind [calmNext_iff, calm_refl, attemptLost_calm]

theorem execStartRetry_calm (h : Hda) (s : State) : CalmNext s (execStartRetry h s) := by
  unfold execStartRetry
  grind [calmNext_iff, calm_refl, spinSense_calm]

theorem execBrakeIntervalEnd_calm (h : Hda) (bemf : BemfObs) (s : State) : CalmNext s (execBrakeIntervalEnd h bemf s) := by
  unfold execBrakeIntervalEnd
  grind [calmNext_iff, calm_refl, senseBemf_calm, spinAlign_calm, brakeOn_calm, updSpin_calm, motorOff_calm]

theorem execBrakeTimeout_calm (h : Hda) (s : State) : CalmNext s (execBrakeTimeout h s) := by
  unfold execBrakeTimeout
  grind [calmNext_iff, calm_refl, spinFail_calm, raise_calm]

theorem execSpinupTimeout_calm (h : Hda) (s : State) : CalmNext s (execSpinupTimeout h s) := by
  unfold execSpinupTimeout
  rw [calmNext_iff]
  have hk := calm_refl s
  with_reducible repeat' first
    | assumption | intro _ | apply bump_calm | apply instsOff_calm | apply raise_calm | apply audit_calm | apply spinFail_calm
    | apply spindleCoast_calm | apply updSpin_calm | apply spinRelease_calm | apply spinAsk_calm | split | simp only [calm_mk]

theorem execReacqTimeout_calm (h : Hda) (s : State) : CalmNext s (execReacqTimeout h s) := by
  unfold execReacqTimeout
  grind [calmNext_iff, calm_refl, spinUnload_calm]

theorem execReacquisitionDone_calm (h : Hda) (bemf : BemfObs) (s : State) : CalmNext s (execReacquisitionDone h bemf s) := by
  unfold execReacquisitionDone
  grind [calmNext_iff, calm_refl, senseBemf_calm, bump_calm, spinSeed_calm, spinUnload_calm]

theorem execUnloadDone_calm (h : Hda) (s : State) : CalmNext s (execUnloadDone h s) := by
  unfold execUnloadDone
  grind [calmNext_iff, calm_refl, bump_calm, spinStart_calm]

theorem execBusUndervoltage_calm (h : Hda) (s : State) : CalmNext s (execBusUndervoltage h s) := by
  unfold execBusUndervoltage
  grind [calmNext_iff, calm_refl, instsOff_calm, spindleCoast_calm, spinRelease_calm, raise_calm]

theorem execSpinStart_calm (h : Hda) (writer : Option Initiator) (s : State) : CalmNext s (execSpinStart h writer s) := by
  unfold execSpinStart
  grind [calmNext_iff, calm_refl, guard_calm, spinStart_calm, wrN_calm]

theorem execSpinStop_calm (h : Hda) (writer : Option Initiator) (s : State) : CalmNext s (execSpinStop h writer s) := by
  unfold execSpinStop
  grind [calmNext_iff, calm_refl, guard_calm, wr_calm, spinStop_calm]

theorem execSpinTune_calm (h : Hda) (writer : Initiator) (s : State) : CalmNext s (execSpinTune h writer s) := by
  unfold execSpinTune
  grind [calmNext_iff, calm_refl, guard_calm, wr_calm, updLoop_calm]

theorem execSpindlePeriod_calm (h : Hda) (obs : SpindleObs) (s : State) : CalmNext s (execSpindlePeriod h obs s) := by
  unfold execSpindlePeriod
  rw [calmNext_iff]
  have hk := calm_refl s
  with_reducible repeat' first
    | assumption | intro _ | apply calm_ite | apply motor_calm | apply spinUnload_calm | apply updPort_calm | apply updSpin_calm
    | apply spinFail_calm | apply raise_calm | apply openLoop_calm | apply residual_calm | apply wrN_calm | apply wr_calm
    | apply obsLoss_calm | apply attemptLost_calm | apply spinRun_calm | apply spinLock_calm | apply spinLimits_calm
    | apply rampRef_calm | apply loopInput_calm | apply wrB_calm | apply bumpWrap_calm | apply bump_calm

/-! ### Faults and disabling (17) -/

theorem execFaultDetection_calm (ftype : BitVec 16) (inst : Nat) (info : Word) (injected : Bool) (s : State) :
    CalmNext s (execFaultDetection ftype inst info injected s) := by
  unfold execFaultDetection
  grind [calmNext_iff, calm_refl, detect_calm, failHeld_calm]

theorem execFaultRecovery_calm (ftype : BitVec 16) (inst : Nat) (s : State) : CalmNext s (execFaultRecovery ftype inst s) := by
  unfold execFaultRecovery
  grind [calmNext_iff, calm_refl, updFlt_calm, recover_calm, spinAsk_calm]

theorem execReactionHoldTimeout_calm (n : Act) (s : State) : CalmNext s (execReactionHoldTimeout n s) := by
  unfold execReactionHoldTimeout
  grind [calmNext_iff, calm_refl, updAct_calm, failActs_calm]

theorem execFltStat_calm (blk : Fin 270) (writer : Initiator) (offset : Byte) (value : Word) (s : State) :
    CalmNext s (execFltStat blk writer offset value s) := by
  unfold execFltStat
  grind [calmNext_iff, calm_refl, guard_calm, wrBit_calm, updFlt_calm, calm_foldl]

theorem execInjArm_calm (blk : Fin 270) (writer : Initiator) (target : InjAlias) (s : State) :
    CalmNext s (execInjArm blk writer target s) := by
  unfold execInjArm
  grind [calmNext_iff, calm_refl, guard_calm, audit_calm, updFlt_calm, wr_calm]

theorem execDis_calm (target : DisTarget) (writer : Initiator) (force alsoEn : Bool) (s : State) :
    CalmNext s (execDis target writer force alsoEn s) := by
  unfold execDis
  rw [calmNext_iff]
  have hk := calm_refl s
  with_reducible repeat' first
    | assumption | intro _ | apply calm_ite | apply guard_calm | apply wr_calm | apply audit_calm | apply disableAct_calm
    | apply disEnd_calm | apply calm_foldl | split

theorem execEn_calm (target : DisTarget) (writer : Initiator) (s : State) : CalmNext s (execEn target writer s) := by
  unfold execEn
  grind [calmNext_iff, calm_refl, guard_calm, wr_calm, attempt_calm]

/-! ### Resets and power states (04, 20) -/

theorem execPcieLinkUp_calm (rate width : Nat) (flit : Bool) (s : State) : CalmNext s (execPcieLinkUp rate width flit s) := by
  unfold execPcieLinkUp
  grind [calmNext_iff, calm_refl, wr_calm, wrN_calm, wrB_calm]

theorem execConfigurationRequest_calm (s : State) : CalmNext s (execConfigurationRequest s) := by
  unfold execConfigurationRequest
  grind [calmNext_iff, calm_refl, bump_calm, emit_calm]

theorem execShutdownAbrupt_calm (s : State) : CalmNext s (execShutdownAbrupt s) := by
  unfold execShutdownAbrupt
  grind [calmNext_iff, calm_refl, updHost_calm, shutdownEnd_calm]

theorem execShutdownDrainDone_calm (s : State) : CalmNext s (execShutdownDrainDone s) := by
  unfold execShutdownDrainDone
  grind [calmNext_iff, calm_refl, shutdownEnd_calm]

theorem execShutdownTimeout_calm (s : State) : CalmNext s (execShutdownTimeout s) := by
  unfold execShutdownTimeout
  grind [calmNext_iff, calm_refl, audit_calm, shutdownEnd_calm]

theorem execPowerStateEntryDone_calm (s : State) : CalmNext s (execPowerStateEntryDone s) := by
  unfold execPowerStateEntryDone
  grind [calmNext_iff, calm_refl, spinDown_calm, ps4Extra_calm, wrN_calm, wr_calm, audit_calm, calm_foldl]

theorem execSpinUpGroupStart_calm (s : State) : CalmNext s (execSpinUpGroupStart s) := by
  unfold execSpinUpGroupStart
  grind [calmNext_iff, calm_refl, spinStart_calm, spinRelease_calm, spinAsk_calm, calm_foldl, calm_mk]

/-! ### Orrery fabric (19) -/

theorem execElectionListenEnd_calm (s : State) : CalmNext s (execElectionListenEnd s) := by
  unfold execElectionListenEnd
  grind [calmNext_iff, calm_refl, updOrr_calm, orrSend_calm, sendJoin_calm, becomeManager_calm, askStanding_calm]

theorem execClaim_calm (hdr : OrrHdr) (prio : Byte) (s : State) : CalmNext s (execClaim hdr prio s) := by
  unfold execClaim
  grind [calmNext_iff, calm_refl, orrTake_calm, updOrr_calm]

theorem execHeartbeat_calm (hdr : OrrHdr) (msg : HeartbeatMsg) (s : State) : CalmNext s (execHeartbeat hdr msg s) := by
  unfold execHeartbeat
  grind [calmNext_iff, calm_refl, orrTake_calm, wrN_calm, updOrr_calm, followManager_calm, sendJoin_calm, stepDown_calm,
    dropXfer_calm, sendTokenState_calm]

theorem execHeartbeatSend_calm (s : State) : CalmNext s (execHeartbeatSend s) := by
  unfold execHeartbeatSend
  grind [calmNext_iff, calm_refl, orrRefresh_calm, sendHeartbeat_calm]

theorem execJoin_calm (hdr : OrrHdr) (eligible : Bool) (prio : Byte) (portDecl : Word) (s : State) :
    CalmNext s (execJoin hdr eligible prio portDecl s) := by
  unfold execJoin
  grind [calmNext_iff, calm_refl, orrTake_calm, orrSend_calm, updMember_calm, orrRefresh_calm, regrant_calm, updOrr_calm]

theorem execJoinAck_calm (hdr : OrrHdr) (memberId : BitVec 16) (result : Byte) (s : State) :
    CalmNext s (execJoinAck hdr memberId result s) := by
  unfold execJoinAck
  grind [calmNext_iff, calm_refl, orrTake_calm, updOrr_calm, wrN_calm, askStanding_calm]

theorem execJoinRetry_calm (s : State) : CalmNext s (execJoinRetry s) := by
  unfold execJoinRetry
  grind [calmNext_iff, calm_refl, sendJoin_calm]

theorem execRequestResend_calm (s : State) : CalmNext s (execRequestResend s) := by
  unfold execRequestResend
  grind [calmNext_iff, calm_refl, sendJoin_calm, orrSend_calm, calm_foldl]

theorem execManagerLost_calm (s : State) : CalmNext s (execManagerLost s) := by
  unfold execManagerLost
  rw [calmNext_iff]
  have hk := calm_refl s
  with_reducible repeat' first
    | assumption | intro _ | apply calm_ite | apply bump_calm | apply audit_calm | apply updOrr_calm | apply dropXfer_calm
    | apply becomeManager_calm

theorem execTakeoverHoldEnd_calm (s : State) : CalmNext s (execTakeoverHoldEnd s) := by
  unfold execTakeoverHoldEnd
  grind [calmNext_iff, calm_refl, updOrr_calm, regrant_calm]

theorem execMemberAbsent_calm (id : Nat) (holdPassed : Bool) (s : State) : CalmNext s (execMemberAbsent id holdPassed s) := by
  unfold execMemberAbsent
  grind [calmNext_iff, calm_refl, updMember_calm, updOrr_calm, regrant_calm]

theorem execTokenReq_calm (hdr : OrrHdr) (msg : TokenReqMsg) (s : State) : CalmNext s (execTokenReq hdr msg s) := by
  unfold execTokenReq
  grind [calmNext_iff, calm_refl, orrTake_calm, orrSend_calm, enqueue_calm]

theorem execTokenGrant_calm (hdr : OrrHdr) (reqId : Word) (tokenId : Word) (watts : Word) (s : State) :
    CalmNext s (execTokenGrant hdr reqId tokenId watts s) := by
  unfold execTokenGrant
  grind [calmNext_iff, calm_refl, orrTake_calm, updMember_calm, updOrr_calm, tokenTake_calm, tokenGive_calm]

theorem execTokenReturn_calm (hdr : OrrHdr) (tokenId : Word) (s : State) : CalmNext s (execTokenReturn hdr tokenId s) := by
  unfold execTokenReturn
  grind [calmNext_iff, calm_refl, orrTake_calm, updMember_calm, orrRefresh_calm, orrSend_calm, regrant_calm]

theorem execReturnAck_calm (hdr : OrrHdr) (tokenId : Word) (s : State) : CalmNext s (execReturnAck hdr tokenId s) := by
  unfold execReturnAck
  grind [calmNext_iff, calm_refl, orrTake_calm, updOrr_calm, orrRefresh_calm]

theorem execTokenState_calm (hdr : OrrHdr) (tokens : List (Word × Word)) (s : State) : CalmNext s (execTokenState hdr tokens s) := by
  unfold execTokenState
  grind [calmNext_iff, calm_refl, orrTake_calm, ledgerOf_calm, updMember_calm, updOrr_calm, regrant_calm, calm_foldl]

theorem execDrawSend_calm (s : State) : CalmNext s (execDrawSend s) := by
  unfold execDrawSend
  rw [calmNext_iff]
  have hk := calm_refl s
  with_reducible repeat' first
    | assumption | intro _ | apply calm_ite | apply updSpin_calm | apply wrN_calm | apply orrSend_calm | apply updMember_calm
    | apply regrant_calm | apply calm_foldl

theorem execDraw_calm (hdr : OrrHdr) (steady : Word) (total : Word) (curPs : Byte) (portsUp : Byte) (s : State) :
    CalmNext s (execDraw hdr steady total curPs portsUp s) := by
  unfold execDraw
  grind [calmNext_iff, calm_refl, orrTake_calm, ledgerOf_calm, updMember_calm, regrant_calm]

theorem execImageOffer_calm (hdr : OrrHdr) (xferId : Word) (target : Byte) (length : Word) (s : State) :
    CalmNext s (execImageOffer hdr xferId target length s) := by
  unfold execImageOffer
  grind [calmNext_iff, calm_refl, orrTake_calm, updOrr_calm, imageDone_calm]

theorem execImageChunk_calm (hdr : OrrHdr) (xferId : Word) (index : Word) (data : List Byte) (norOk : Bool) (s : State) :
    CalmNext s (execImageChunk hdr xferId index data norOk s) := by
  unfold execImageChunk
  grind [calmNext_iff, calm_refl, orrTake_calm, dmaWrite_calm, updOrr_calm, imageDone_calm]

theorem execImageNeedSend_calm (s : State) : CalmNext s (execImageNeedSend s) := by
  unfold execImageNeedSend
  grind [calmNext_iff, calm_refl, sendNeed_calm]

theorem execImageNeed_calm (hdr : OrrHdr) (xferId : Word) (firstMissing : Word) (s : State) :
    CalmNext s (execImageNeed hdr xferId firstMissing s) := by
  unfold execImageNeed
  grind [calmNext_iff, calm_refl, orrTake_calm, updOrr_calm]

theorem execImageResult_calm (hdr : OrrHdr) (xferId : Word) (status : Byte) (step : Byte) (s : State) :
    CalmNext s (execImageResult hdr xferId status step s) := by
  unfold execImageResult
  grind [calmNext_iff, calm_refl, orrTake_calm, updOrr_calm]

theorem execImageTransferTimeout_calm (s : State) : CalmNext s (execImageTransferTimeout s) := by
  unfold execImageTransferTimeout
  grind [calmNext_iff, calm_refl, dropXfer_calm]

theorem execAuditPull_calm (hdr : OrrHdr) (fromSeq : BitVec 64) (s : State) : CalmNext s (execAuditPull hdr fromSeq s) := by
  unfold execAuditPull
  grind [calmNext_iff, calm_refl, orrTake_calm, snapOpen_calm, updOrr_calm]

theorem execAuditPageSend_calm (s : State) : CalmNext s (execAuditPageSend s) := by
  unfold execAuditPageSend
  grind [calmNext_iff, calm_refl, snapClose_calm, updOrr_calm, orrSend_calm]

theorem execAuditPage_calm (hdr : OrrHdr) (last : Bool) (broken : Bool) (records : List (List Byte)) (s : State) :
    CalmNext s (execAuditPage hdr last broken records s) := by
  unfold execAuditPage
  grind [calmNext_iff, calm_refl, orrTake_calm, updOrr_calm]

theorem execCalWindow_calm (hdr : OrrHdr) (member : BitVec 16) (startMs : Word) (lengthMs : Word) (s : State) :
    CalmNext s (execCalWindow hdr member startMs lengthMs s) := by
  unfold execCalWindow
  grind [calmNext_iff, calm_refl, orrTake_calm, updOrr_calm]

theorem execPtpSync_calm (offsetNs : Int) (seconds : BitVec 48) (nanoseconds : Word) (s : State) :
    CalmNext s (execPtpSync offsetNs seconds nanoseconds s) := by
  unfold execPtpSync
  grind [calmNext_iff, calm_refl, wrInt_calm, updOrr_calm, setPtpLock_calm]

theorem execPtpSyncTimeout_calm (s : State) : CalmNext s (execPtpSyncTimeout s) := by
  unfold execPtpSyncTimeout
  grind [calmNext_iff, calm_refl, updOrr_calm, setPtpLock_calm]

theorem execPtpSyncInterval_calm (s : State) : CalmNext s (execPtpSyncInterval s) := by
  unfold execPtpSyncInterval
  grind [calmNext_iff, calm_refl, emit_calm, calm_foldl]

theorem execOrreryPortUpChange_calm (p : Fin 2) (up : Bool) (s : State) : CalmNext s (execOrreryPortUpChange p up s) := by
  unfold execOrreryPortUpChange
  grind [calmNext_iff, calm_refl, wrBit_calm]

/-! ### Log pages and Identify (13) -/

theorem execIdentify_calm (slot : BitVec 16) (s : State) : CalmNext s (execIdentify slot s) := by
  unfold execIdentify
  grind [calmNext_iff, calm_refl, adminRow_calm, emit_calm, tick_calm, complete_calm]

theorem execGetLogPage_calm (slot : BitVec 16) (s : State) : CalmNext s (execGetLogPage slot s) := by
  unfold execGetLogPage
  rw [calmNext_iff]
  have hk := calm_refl s
  with_reducible repeat' first
    | assumption | intro _ | apply calm_ite | apply adminRow_calm | apply complete_calm | apply lostKeep_calm | apply emit_calm
    | apply tick_calm | apply logClear_calm | extract_lets | split

/-! ### Namespaces, firmware and self-tests (13) -/

theorem execNamespaceCreate_calm (slot : BitVec 16) (nvmSet : BitVec 16) (nsze ncap : BitVec 64) (flbas csi : Byte) (s : State) :
    CalmNext s (execNamespaceCreate slot nvmSet nsze ncap flbas csi s) := by
  unfold execNamespaceCreate
  rw [calmNext_iff]
  have hk := calm_refl s
  with_reducible repeat' first
    | assumption | intro _ | apply calm_ite | apply adminAction_calm | apply complete_calm | apply updHost_calm
    | apply setAttached_calm | apply keyNew_calm | apply stage_calm | apply nsNotice_calm | apply settle_calm

theorem execNamespaceDelete_calm (slot : BitVec 16) (s : State) : CalmNext s (execNamespaceDelete slot s) := by
  unfold execNamespaceDelete
  rw [calmNext_iff]
  have hk := calm_refl s
  with_reducible repeat' first
    | assumption | intro _ | apply calm_ite | apply adminAction_calm | apply complete_calm | apply keyDestroy_calm
    | apply nsClear_calm | apply updHost_calm | apply setAttached_calm | apply stage_calm | apply nsNotice_calm | apply updCmd_calm
    | apply settle_calm | split

theorem execNamespaceAttach_calm (slot : BitVec 16) (controllers : List (BitVec 16)) (s : State) :
    CalmNext s (execNamespaceAttach slot controllers s) := by
  unfold execNamespaceAttach
  grind [calmNext_iff, calm_refl, attach_calm]

theorem execNamespaceDetach_calm (slot : BitVec 16) (controllers : List (BitVec 16)) (s : State) :
    CalmNext s (execNamespaceDetach slot controllers s) := by
  unfold execNamespaceDetach
  grind [calmNext_iff, calm_refl, attach_calm]

theorem execFirmwareImageDownload_calm (slot : BitVec 16) (data : List Byte) (s : State) :
    CalmNext s (execFirmwareImageDownload slot data s) := by
  unfold execFirmwareImageDownload
  grind [calmNext_iff, calm_refl, adminRow_calm, complete_calm, dmaWrite_calm, updHost_calm]

theorem execFirmwareCommit_calm (slot : BitVec 16) (norOk : Bool) (s : State) : CalmNext s (execFirmwareCommit slot norOk s) := by
  unfold execFirmwareCommit
  grind [calmNext_iff, calm_refl, adminRow_calm, complete_calm, huskUpdate_calm, updHost_calm]

theorem execNvmeMiSend_calm (slot : BitVec 16) (message : List Byte) (s : State) : CalmNext s (execNvmeMiSend slot message s) := by
  unfold execNvmeMiSend
  grind [calmNext_iff, calm_refl, adminRow_calm, updHost_calm, complete_calm]

theorem execNvmeMiReceive_calm (slot : BitVec 16) (s : State) : CalmNext s (execNvmeMiReceive slot s) := by
  unfold execNvmeMiReceive
  grind [calmNext_iff, calm_refl, adminRow_calm, emit_calm, updHost_calm, complete_calm]

theorem execShortDeviceSelfTest_calm (slot : BitVec 16) (s : State) : CalmNext s (execShortDeviceSelfTest slot s) := by
  unfold execShortDeviceSelfTest
  grind [calmNext_iff, calm_refl, testStart_calm]

theorem execExtendedDeviceSelfTest_calm (slot : BitVec 16) (s : State) : CalmNext s (execExtendedDeviceSelfTest slot s) := by
  unfold execExtendedDeviceSelfTest
  grind [calmNext_iff, calm_refl, testStart_calm]

theorem execDeviceSelfTestAbort_calm (slot : BitVec 16) (s : State) : CalmNext s (execDeviceSelfTestAbort slot s) := by
  unfold execDeviceSelfTestAbort
  grind [calmNext_iff, calm_refl, adminAction_calm, testEnd_calm, complete_calm]

theorem execDeviceSelfTestDone_calm (firstFail : Option (Nat × Act)) (s : State) :
    CalmNext s (execDeviceSelfTestDone firstFail s) := by
  unfold execDeviceSelfTestDone
  grind [calmNext_iff, calm_refl, testEnd_calm]

/-! ### Sanitize and format (14) -/

theorem execSanitizeOverwrite_calm (slot : BitVec 16) (s : State) : CalmNext s (execSanitizeOverwrite slot s) := by
  unfold execSanitizeOverwrite
  grind [calmNext_iff, calm_refl, adminAction_calm, sanStart_calm]

theorem execSanitizeCryptoErase_calm (slot : BitVec 16) (s : State) : CalmNext s (execSanitizeCryptoErase slot s) := by
  unfold execSanitizeCryptoErase
  grind [calmNext_iff, calm_refl, adminAction_calm, sanStart_calm]

theorem execExitFailureMode_calm (slot : BitVec 16) (s : State) : CalmNext s (execExitFailureMode slot s) := by
  unfold execExitFailureMode
  grind [calmNext_iff, calm_refl, adminAction_calm, updHost_calm, complete_calm]

theorem execSanitizeUnitDone_calm (n : Act) (s : State) : CalmNext s (execSanitizeUnitDone n s) := by
  unfold execSanitizeUnitDone
  rw [calmNext_iff]
  have hk := calm_refl s
  with_reducible repeat' first
    | assumption | intro _ | apply calm_ite | apply emit_calm | apply putProgress_calm | apply settle_calm | apply sanSide_calm
    | apply stage_calm | apply sanEnd_calm | split

theorem execSanitizeTrackTimeout_calm (n : Act) (s : State) : CalmNext s (execSanitizeTrackTimeout n s) := by
  unfold execSanitizeTrackTimeout
  grind [calmNext_iff, calm_refl, putProgress_calm, updHost_calm, calm_foldl]

theorem execFormatNvm_calm (slot : BitVec 16) (s : State) : CalmNext s (execFormatNvm slot s) := by
  unfold execFormatNvm
  rw [calmNext_iff]
  have hk := calm_refl s
  with_reducible repeat' first
    | assumption | intro _ | apply calm_ite | apply adminRow_calm | apply complete_calm | apply testEnd_calm | apply formatNs_calm
    | apply startProgress_calm | apply updCmd_calm | apply settle_calm | apply calm_foldl | split

/-! ### Commands that leave the structure alone, but not all that `Calm` names -/

/-- Whatever next state the outcome is, the structure in force is that of `s`. -/
def KeepsCfg (s : State) (o : Res) : Prop := ∀ t, o = .next t → t.cfg = s.cfg

theorem keepsCfg_iff {s t : State} : KeepsCfg s (.next t) ↔ t.cfg = s.cfg :=
  ⟨fun h => h t rfl, fun h u e => by cases e; exact h⟩

/-! ### Read channel (08) -/

theorem execSectorVerdict_cfg (l : Lane) (o : SectorObs) (s : State) : KeepsCfg s (execSectorVerdict l o s) := by
  unfold execSectorVerdict
  rw [keepsCfg_iff]
  split
  · rfl
  · dsimp only
    split
    · rfl
    · split
      · rfl
      · split
        · simp only [wrN_cfg, gainStep_cfg, apply_ite State.cfg, raise_cfg, ringPush_cfg, ite_self]
        · rw [resumeGo_cfg, settle_cfg, askedVerdict_cfg, apply_ite State.cfg, trace_cfg, ite_self, calSector_cfg]
          simp only [laneCount_cfg]
          split <;>
            simp only [laneCount_cfg, wrN_cfg, gainStep_cfg, apply_ite State.cfg, raise_cfg, ringPush_cfg, ite_self]

/-! ### Queues and features (13) -/

theorem execAdmission_cfg (entry : Sqe) (s : State) : KeepsCfg s (execAdmission entry s) := by
  unfold execAdmission
  grind [keepsCfg_iff, fetchTurn_cfg, psWake_cfg]

theorem execControllerReset_cfg (s : State) : KeepsCfg s (execControllerReset s) := by
  unfold execControllerReset
  grind [keepsCfg_iff, ctrlReset_cfg]

/-! ### Mailboxes, locks, windows and registers (03) -/

theorem execGo_cfg (ch : Fin 64) (dir : Fin 2) (sender : Initiator) (same other : RecvAct) (s : State) : KeepsCfg s (execGo ch
    dir sender same other s) := by
  unfold execGo
  grind [keepsCfg_iff, mbAccess_cfg, mbCross_cfg, mbGo_cfg, mbRecv_cfg]

theorem execRelease_cfg (ch : Fin 64) (dir : Fin 2) (receiver : Initiator) (s : State) : KeepsCfg s (execRelease ch dir receiver
    s) := by
  unfold execRelease
  grind [keepsCfg_iff, mbRecv_cfg]

theorem execRcvReset_cfg (ch : Fin 64) (dir : Fin 2) (receiver : Initiator) (s : State) : KeepsCfg s (execRcvReset ch dir
    receiver s) := by
  unfold execRcvReset
  grind [keepsCfg_iff, mbRecv_cfg]

theorem execCompatLastDataRead_cfg (ch : Fin 64) (dir : Fin 2) (reader : Initiator) (s : State) : KeepsCfg s
    (execCompatLastDataRead ch dir reader s) := by
  unfold execCompatLastDataRead
  grind [keepsCfg_iff, mbRecv_cfg]

theorem execMailboxDataWrite_cfg (ch : Fin 64) (dir : Fin 2) (i : Fin 16) (writer : Initiator) (value : Word) (s : State) :
    KeepsCfg s (execMailboxDataWrite ch dir i writer value s) := by
  unfold execMailboxDataWrite
  grind [keepsCfg_iff, mbAccess_cfg, mbData_cfg]

theorem execLockRelease_cfg (i : Fin 256) (writer : Initiator) (s : State) : KeepsCfg s (execLockRelease i writer s) := by
  unfold execLockRelease
  grind [keepsCfg_iff, lockFree_cfg]

theorem execLockAcquire_cfg (i : Fin 256) (release : Option Initiator) (readers : List Initiator) (s : State) : KeepsCfg s
    (execLockAcquire i release readers s) := by
  unfold execLockAcquire
  grind [keepsCfg_iff, emit_cfg, guardAcc_cfg, lockFree_cfg, updLock_cfg, wake_cfg, foldl_cfg]

theorem execWindowRegisterWrite_cfg (writer : Initiator) (id : Byte) (w : Fin 8) (reg : Fin 4) (value : Word) (s : State) :
    KeepsCfg s (execWindowRegisterWrite writer id w reg value s) := by
  unfold execWindowRegisterWrite
  grind [keepsCfg_iff, guard_cfg, winWrite_cfg]

theorem execRegisterWrite_cfg (writer : Initiator) (target : Target) (value : Word) (s : State) : KeepsCfg s (execRegisterWrite
    writer target value s) := by
  unfold execRegisterWrite
  grind [keepsCfg_iff, bar0Write_cfg, bar2Write_cfg, guard_cfg, plainWrite_cfg]

/-! ### Requests to Husk, loaders and the relay (03) -/

theorem execUpdate_cfg (ch : Fin 64) (norOk : Bool) (s : State) : KeepsCfg s (execUpdate ch norOk s) := by
  unfold execUpdate
  grind [keepsCfg_iff, huskReq_cfg, huskUpdate_cfg]

theorem execNsKeyNew_cfg (ch : Fin 64) (ledgerOk : Bool) (s : State) : KeepsCfg s (execNsKeyNew ch ledgerOk s) := by
  unfold execNsKeyNew
  grind [keepsCfg_iff, huskReq_cfg, keyNew_cfg]

theorem execNsKeyDestroy_cfg (ch : Fin 64) (ledgerOk : Bool) (s : State) : KeepsCfg s (execNsKeyDestroy ch ledgerOk s) := by
  unfold execNsKeyDestroy
  grind [keepsCfg_iff, huskReq_cfg, keyDestroy_cfg, foldl_cfg]

theorem execAuditClear_cfg (ch : Fin 64) (s : State) : KeepsCfg s (execAuditClear ch s) := by
  unfold execAuditClear
  grind [keepsCfg_iff, clearReq_cfg]

theorem execTraceClear_cfg (ch : Fin 64) (s : State) : KeepsCfg s (execTraceClear ch s) := by
  unfold execTraceClear
  grind [keepsCfg_iff, clearReq_cfg]

theorem execLiveSet_cfg (ch : Fin 64) (s : State) : KeepsCfg s (execLiveSet ch s) := by
  unfold execLiveSet
  grind [keepsCfg_iff, huskReq_cfg, liveAccept_cfg]

theorem execLivePatch_cfg (ch : Fin 64) (s : State) : KeepsCfg s (execLivePatch ch s) := by
  unfold execLivePatch
  refine keepsCfg_iff.2 (huskReq_cfg _ _ _ _ _ fun reg who x => ?_)
  dsimp only
  (repeat' split) <;> simp

theorem execFaultRelease_cfg (ch : Fin 64) (s : State) : KeepsCfg s (execFaultRelease ch s) := by
  unfold execFaultRelease
  grind [keepsCfg_iff, audit_cfg, huskReq_cfg, recover_cfg, wrBit_cfg]

theorem execSlotRevoke_cfg (ch : Fin 64) (s : State) : KeepsCfg s (execSlotRevoke ch s) := by
  unfold execSlotRevoke
  grind [keepsCfg_iff, audit_cfg, huskReq_cfg, updHusk_cfg]

theorem execFloorRaise_cfg (ch : Fin 64) (s : State) : KeepsCfg s (execFloorRaise ch s) := by
  unfold execFloorRaise
  grind [keepsCfg_iff, audit_cfg, huskReq_cfg, updHusk_cfg, wrN_cfg]

theorem execDeviceWarmReset_cfg (ch : Fin 64) (s : State) : KeepsCfg s (execDeviceWarmReset ch s) := by
  unfold execDeviceWarmReset
  grind [keepsCfg_iff, updHusk_cfg, warmReq_cfg]

theorem execCulmReset_cfg (ch : Fin 64) (s : State) : KeepsCfg s (execCulmReset ch s) := by
  unfold execCulmReset
  grind [keepsCfg_iff, culmRestart_cfg, warmReq_cfg]

theorem execTillerEngineReset_cfg (ch : Fin 64) (s : State) : KeepsCfg s (execTillerEngineReset ch s) := by
  unfold execTillerEngineReset
  grind [keepsCfg_iff, bundleLoad_cfg, engineFill_cfg, engineFresh_cfg, engineStop_cfg, keyReset_cfg, locksOf_cfg, warmReq_cfg]

theorem execWarmResetRefused_cfg (ch : Fin 64) (s : State) : KeepsCfg s (execWarmResetRefused ch s) := by
  unfold execWarmResetRefused
  grind [keepsCfg_iff, huskReq_cfg]

theorem execTillerLoad_cfg (ch : Fin 64) (ddrErr : Bool) (s : State) : KeepsCfg s (execTillerLoad ch ddrErr s) := by
  unfold execTillerLoad
  grind [keepsCfg_iff, engineStop_cfg, huskReq_cfg, loadStart_cfg]

theorem execLoad_cfg (q : Quad) (ddrErr : Bool) (s : State) : KeepsCfg s (execLoad q ddrErr s) := by
  unfold execLoad
  grind [keepsCfg_iff, loaderLoad_cfg]

theorem execHalt_cfg (q : Quad) (s : State) : KeepsCfg s (execHalt q s) := by
  unfold execHalt
  grind [keepsCfg_iff, loaderAnswer_cfg, loaderTake_cfg, wr_cfg]

theorem execMiRelay_cfg (s : State) : KeepsCfg s (execMiRelay s) := by
  unfold execMiRelay
  grind [keepsCfg_iff, huskSend_cfg, memWrite_cfg, updHusk_cfg]

theorem execMiResponse_cfg (s : State) : KeepsCfg s (execMiResponse s) := by
  unfold execMiResponse
  grind [keepsCfg_iff, emit_cfg, mbRelease_cfg, updHusk_cfg]

/-! ### Housekeeping (16) -/

theorem execExclusiveMediaSlotEnd_cfg (n : Act) (s : State) : KeepsCfg s (execExclusiveMediaSlotEnd n s) := by
  unfold execExclusiveMediaSlotEnd
  grind [keepsCfg_iff, slotEnd_cfg]

theorem execCalReq_cfg (scope : CalScope) (writer : Initiator) (mask : Byte) (s : State) : KeepsCfg s (execCalReq scope writer
    mask s) := by
  unfold execCalReq
  grind [keepsCfg_iff, calTrigger_cfg, guard_cfg, foldl_cfg]

theorem execCalDeferMaxExpiry_cfg (scope : CalScope) (item : Fin 8) (s : State) : KeepsCfg s (execCalDeferMaxExpiry scope item s) := by
  unfold execCalDeferMaxExpiry
  grind [keepsCfg_iff, audit_cfg, calShow_cfg, setRun_cfg]

/-! ### Resets and power states (04, 20) -/

theorem execGroup1WithinTolerance_cfg (s : State) : KeepsCfg s (execGroup1WithinTolerance s) :=
  keepsCfg_iff.2 rfl

theorem execVddIoOutOfTolerance_cfg (s : State) : KeepsCfg s (execVddIoOutOfTolerance s) :=
  keepsCfg_iff.2 rfl

theorem execPerstNRising_cfg (s : State) : KeepsCfg s (execPerstNRising s) := by
  unfold execPerstNRising
  rw [keepsCfg_iff]
  split <;> rfl

theorem execPcieConventionalReset_cfg (kind : PcieReset) (s : State) : KeepsCfg s (execPcieConventionalReset kind s) := by
  unfold execPcieConventionalReset
  grind [keepsCfg_iff, hostReset_cfg, linkClear_cfg]

theorem execFunctionLevelReset_cfg (s : State) : KeepsCfg s (execFunctionLevelReset s) := by
  unfold execFunctionLevelReset
  grind [keepsCfg_iff, hostReset_cfg]

theorem execNvmSubsystemReset_cfg (nssr : Word) (s : State) : KeepsCfg s (execNvmSubsystemReset nssr s) := by
  unfold execNvmSubsystemReset
  grind [keepsCfg_iff, hostReset_cfg, linkClear_cfg, updHost_cfg]

theorem execPowerManagement_cfg (slot : BitVec 16) (s : State) : KeepsCfg s (execPowerManagement slot s) := by
  unfold execPowerManagement
  grind [keepsCfg_iff, complete_cfg, psEnter_cfg, setFeature_cfg]

theorem execAutonomousTransition_cfg (s : State) : KeepsCfg s (execAutonomousTransition s) := by
  unfold execAutonomousTransition
  grind [keepsCfg_iff, psEnter_cfg]

theorem execPowerStateReturnTimeout_cfg (n : Act) (s : State) : KeepsCfg s (execPowerStateReturnTimeout n s) := by
  unfold execPowerStateReturnTimeout
  grind [keepsCfg_iff, audit_cfg, failActs_cfg, psSettle_cfg, updAct_cfg]

theorem execPs2SideSwitch_cfg (h : Hda) (waited : Bool) (s : State) : KeepsCfg s (execPs2SideSwitch h waited s) := by
  unfold execPs2SideSwitch
  grind [keepsCfg_iff, park_cfg]

theorem execNamespaceReady_cfg (n : Act) (ledger : LedgerObs) (s : State) : KeepsCfg s (execNamespaceReady n ledger s) := by
  unfold execNamespaceReady
  grind [keepsCfg_iff, psSettle_cfg, readCal_cfg, readLedger_cfg, updAct_cfg]

/-! ### Bindings in range (R37, R38) -/

/-- R37, R38: every actuator's engine and lane in `c` exist. -/
def BindsIn (c : Structure) : Prop := ∀ n, n < 64 → c.engineOf n < 68 ∧ c.laneOf n < 64

theorem bindsIn_recovery : BindsIn Structure.recovery := reset_bindsOk

theorem mem_of_lookup_eq_some {α : Type} {l : List (Nat × α)} {k : Nat} {x : α} (h : l.lookup k = some x) : (k, x) ∈ l := by
  obtain ⟨l₁, l₂, rfl, -⟩ := List.lookup_eq_some_iff.1 h
  simp

/-- Only the BIND and LATTICE records matter. -/
theorem bindsIn_of_records {c : Structure} (hb : ∀ p ∈ c.binds, p.2 < 68) (hl : ∀ p ∈ c.lattice, p.2.lane < 64) : BindsIn c := by
  intro n hn
  constructor
  · unfold Structure.engineOf defaultEngine
    cases h : c.binds.lookup n with
    | none => rw [Option.getD_none]; omega
    | some e => exact hb (n, e) (mem_of_lookup_eq_some h)
  · unfold Structure.laneOf
    cases h : c.lattice.lookup n with
    | none => exact hn
    | some r => exact hl (n, r) (mem_of_lookup_eq_some h)

/-- Two structures with the same BIND and LATTICE records are in range together. -/
theorem bindsIn_congr {c d : Structure} (hb : d.binds = c.binds) (hl : d.lattice = c.lattice) (h : BindsIn c) : BindsIn d := by
  intro n hn
  rw [show d.engineOf n = c.engineOf n by rw [Structure.engineOf, hb]; rfl,
    show d.laneOf n = c.laneOf n by rw [Structure.laneOf, hl]; rfl]
  exact h n hn

theorem parseBind_lt {b : List Byte} {e : Nat} (h : parseBind b = some e) : e < 68 := by
  unfold parseBind at h
  split at h
  · next hc =>
    obtain ⟨_, hle, _⟩ := hc
    cases h
    omega
  · cases h

theorem parseLattice_lt {b : List Byte} {r : LatRec} (h : parseLattice b = some r) : r.lane < 64 := by
  unfold parseLattice at h
  extract_lets m at h
  split at h
  · next hc =>
    obtain ⟨_, _, hle, _⟩ := hc
    cases h
    exact Nat.lt_succ_of_le hle
  · cases h

/-- What the parser of one body says holds of every record parsed. -/
theorem parseAll_forall {α : Type} {f : List Byte → Option α} {P : α → Prop} (hf : ∀ b a, f b = some a → P a)
    (l : List (Nat × List Byte)) (r : List (Nat × α)) (h : parseAll f l = some r) : ∀ p ∈ r, P p.2 := by
  induction l generalizing r with
  | nil => cases h; simp
  | cons x l ih =>
    obtain ⟨i, b⟩ := x
    simp only [parseAll, Option.bind_eq_some_iff, Option.map_eq_some_iff] at h
    obtain ⟨a, ha, r', hr', rfl⟩ := h
    exact List.forall_mem_cons.2 ⟨hf b a ha, ih r' hr'⟩

/-- Step 7 of R48 parses every BIND and LATTICE record. -/
theorem bindsIn_step7 {b : List Byte} {n : Nat} {c : Structure} (h : step7 b n = some c) : BindsIn c := by
  unfold step7 at h
  obtain ⟨⟨rs, stop⟩, -, h⟩ := Option.bind_eq_some_iff.1 h
  obtain ⟨ports, -, h⟩ := Option.bind_eq_some_iff.1 h
  obtain ⟨binds, hb, h⟩ := Option.bind_eq_some_iff.1 h
  obtain ⟨lattice, hl, h⟩ := Option.bind_eq_some_iff.1 h
  obtain ⟨rpool, -, h⟩ := Option.bind_eq_some_iff.1 h
  obtain ⟨gran, -, h⟩ := Option.bind_eq_some_iff.1 h
  obtain ⟨⟨minGib, parts⟩, -, h⟩ := Option.bind_eq_some_iff.1 h
  obtain ⟨clocks, -, h⟩ := Option.bind_eq_some_iff.1 h
  obtain ⟨mailbox, -, h⟩ := Option.bind_eq_some_iff.1 h
  obtain ⟨queue, -, h⟩ := Option.bind_eq_some_iff.1 h
  obtain ⟨therm, -, h⟩ := Option.bind_eq_some_iff.1 h
  obtain ⟨fault, -, h⟩ := Option.bind_eq_some_iff.1 h
  obtain ⟨alm, -, h⟩ := Option.bind_eq_some_iff.1 h
  dsimp only at h
  split at h
  case isFalse => cases h
  cases h
  exact bindsIn_of_records (parseAll_forall (fun _ _ => parseBind_lt) _ _ hb) (parseAll_forall (fun _ _ => parseLattice_lt) _ _ hl)

/-- A copy that validates gives a structure in range. -/
theorem bindsIn_validateCopy {env : TrustEnv} {e : Bool} {b : List Byte} {n : Nat} {c : Structure}
    (h : validateCopy env e b = (n, some c)) : BindsIn c := by
  unfold validateCopy validateBody at h
  grind [bindsIn_step7]

theorem bindsOk_of_cfg {s t : State} (h : t.cfg = s.cfg) (hs : s.bindsOk) : t.bindsOk := by
  have hstr : t.str = s.str := by rw [State.str, h]; rfl
  change BindsIn t.str
  rw [hstr]
  exact hs

theorem bindsOk_of_cfg_some {s : State} {c : Structure} (h : s.cfg = some c) (hc : BindsIn c) : s.bindsOk := by
  change BindsIn s.str
  rw [State.str, h]
  exact hc

theorem bindsOk_of_cfg_none {s : State} (h : s.cfg = none) : s.bindsOk := by
  change BindsIn s.str
  rw [State.str, h]
  exact bindsIn_recovery

theorem applyStructure_cfg (s : State) (c : Structure) : (s.applyStructure c).cfg = some c := by
  simp [State.applyStructure]

theorem applyStructure_bindsOk (s : State) {c : Structure} (h : BindsIn c) : (s.applyStructure c).bindsOk :=
  bindsOk_of_cfg_some (applyStructure_cfg s c) h

theorem validate_bindsOk (s : State) (aErr bErr : Bool) : (s.validate aErr bErr).bindsOk := by
  unfold State.validate
  extract_lets env
  split
  next fa ca ha =>
    extract_lets u
    split
    · exact applyStructure_bindsOk _ (bindsIn_validateCopy ha)
    · split
      next fb cb hb =>
        extract_lets v
        split
        · exact applyStructure_bindsOk _ (bindsIn_validateCopy hb)
        · exact applyStructure_bindsOk _ bindsIn_recovery

/-- A start applies a structure that validated, or the recovery structure (R49, R50). -/
theorem boot_bindsOk (s : State) (obs : BootObs) (cause : Nat) : (s.boot obs cause).bindsOk :=
  validate_bindsOk _ _ _

theorem wipe_cfg (s : State) (power : Bool) : (s.wipe power).cfg = none := by
  have hreset : State.reset.cfg = none := rfl
  simp [State.wipe, apply_ite State.cfg, hreset]

theorem finishStart_bindsOk (s : State) (copy : Nat) (h : s.bindsOk) : (s.finishStart copy).bindsOk :=
  bindsOk_of_cfg (finishStart_cfg s copy) h

theorem stepNine_bindsOk (s : State) (bErr : Bool) (h : s.bindsOk) : (s.stepNine bErr).bindsOk := by
  unfold State.stepNine
  extract_lets mib
  split
  · exact finishStart_bindsOk _ _ h
  · split
    · exact finishStart_bindsOk _ _ h
    · split
      next fb cb hb =>
      split
      · split
        · exact finishStart_bindsOk _ _ (applyStructure_bindsOk _ (bindsIn_validateCopy hb))
        · exact finishStart_bindsOk _ _ (applyStructure_bindsOk _ bindsIn_recovery)
      · exact finishStart_bindsOk _ _ (applyStructure_bindsOk _ bindsIn_recovery)
  · split
    · exact finishStart_bindsOk _ _ h
    · exact finishStart_bindsOk _ _ (applyStructure_bindsOk _ bindsIn_recovery)

/-- A training failure leaves the structure but for its fault reactions and its THERMAL record (R392). -/
theorem ddrFailed_cfg (s : State) (mask : Nat) (bErr : Bool) :
    (s.ddrFailed mask bErr).cfg = some { s.str with fault := [], therm := ThermRec.default } := by
  unfold State.ddrFailed
  extract_lets u v c w x
  have hv : v.cfg = s.cfg := by
    simp only [v]
    split
    · exact (wrN_cfg _ _ _ _).trans ((wr_cfg _ _ _ _).trans (wrN_cfg _ _ _ _))
    · exact (wr_cfg _ _ _ _).trans (wrN_cfg _ _ _ _)
    · exact wrN_cfg _ _ _ _
  have hw : w.cfg = some { s.str with fault := [], therm := ThermRec.default } := by
    simp only [w, c, State.str, hv]
  refine Eq.trans ?_ hw
  simp [apply_ite State.cfg, x]

theorem ddrFailed_bindsOk (s : State) (mask : Nat) (bErr : Bool) (h : s.bindsOk) : (s.ddrFailed mask bErr).bindsOk :=
  bindsOk_of_cfg_some (ddrFailed_cfg s mask bErr) (bindsIn_congr (c := s.str) rfl rfl h)

/-! ### Live records (R56) -/

/-- One accepted THERMAL record comes into force. -/
def liveThermStep (s : State) (t : ThermRec) : State :=
  (({ s with cfg := some { s.str with therm := t } }).bump Reg.status_LIVE_CNT 0).audit 3 .liveChange noInst
    (0xA :: s.str.therm.list ++ t.list)

/-- One accepted GRANARY record comes into force. -/
def liveGranStep (s : State) (g : GranRec) : State :=
  let u : State := { s with cfg := some { s.str with gran := g } }
  (((u.wrN Reg.gran_LOCK_BUDGET 0 g.lockBudget).wrB Reg.gran_LOCK_REFILL 0 g.lockRefill).bump Reg.status_LIVE_CNT 0).audit 3
    .liveChange noInst
    [5, s.str.gran.ways, s.str.gran.lockBudget, if s.str.gran.lockRefill then 1 else 0, g.ways, g.lockBudget, if g.lockRefill then 1 else 0]

theorem liveApply_eq (s : State) :
    s.liveApply =
      let u := s.husk.liveTherm.foldl liveThermStep s
      (u.husk.liveGran.foldl liveGranStep u).updHusk (fun k => { k with liveTherm := [], liveGran := [] }) := rfl

theorem liveThermStep_cfg (s : State) (t : ThermRec) : (liveThermStep s t).cfg = some { s.str with therm := t } := by
  simp [liveThermStep]

theorem liveGranStep_cfg (s : State) (g : GranRec) : (liveGranStep s g).cfg = some { s.str with gran := g } := by
  simp [liveGranStep]

theorem foldl_liveThermStep_bindsOk (l : List ThermRec) (s : State) (h : s.bindsOk) : (l.foldl liveThermStep s).bindsOk := by
  induction l generalizing s with
  | nil => exact h
  | cons t l ih => exact ih _ (bindsOk_of_cfg_some (liveThermStep_cfg s t) (bindsIn_congr (c := s.str) rfl rfl h))

theorem foldl_liveGranStep_bindsOk (l : List GranRec) (s : State) (h : s.bindsOk) : (l.foldl liveGranStep s).bindsOk := by
  induction l generalizing s with
  | nil => exact h
  | cons g l ih => exact ih _ (bindsOk_of_cfg_some (liveGranStep_cfg s g) (bindsIn_congr (c := s.str) rfl rfl h))

theorem liveApply_bindsOk (s : State) (h : s.bindsOk) : s.liveApply.bindsOk := by
  rw [liveApply_eq]
  exact bindsOk_of_cfg (updHusk_cfg _ _) (foldl_liveGranStep_bindsOk _ _ (foldl_liveThermStep_bindsOk _ _ h))

/-- After its live records a round leaves the structure alone. -/
theorem round_cfg (s : State) (obs : RoundObs) : (s.round obs).cfg = s.faultAuditRound.liveApply.cfg := by
  simp [State.round, apply_ite State.cfg]

theorem round_bindsOk (s : State) (obs : RoundObs) (h : s.bindsOk) : (s.round obs).bindsOk :=
  bindsOk_of_cfg (round_cfg s obs) (liveApply_bindsOk _ (bindsOk_of_cfg (faultAuditRound_cfg s) h))

/-! ### Every command -/

/-- An outcome whose next state binds in range where `s` does. -/
def KeepsBinds (s : State) (o : Res) : Prop := ∀ t, o = .next t → s.bindsOk → t.bindsOk

theorem keepsBinds_next {s t : State} : KeepsBinds s (.next t) ↔ (s.bindsOk → t.bindsOk) :=
  ⟨fun h => h t rfl, fun h u e => by cases e; exact h⟩

theorem CalmNext.binds {s : State} {o : Res} (h : CalmNext s o) : KeepsBinds s o :=
  fun t ht => bindsOk_of_cfg (h t ht).cfg

theorem KeepsCfg.binds {s : State} {o : Res} (h : KeepsCfg s o) : KeepsBinds s o :=
  fun t ht => bindsOk_of_cfg (h t ht)

theorem execPwrOkRising_binds (obs : BootObs) (s : State) : KeepsBinds s (execPwrOkRising obs s) := by
  unfold execPwrOkRising
  rw [keepsBinds_next]
  split
  · exact id
  · exact fun _ => boot_bindsOk _ _ _

theorem execPwrOkFalling_binds (lowNs : Nat) (s : State) : KeepsBinds s (execPwrOkFalling lowNs s) := by
  unfold execPwrOkFalling
  rw [keepsBinds_next]
  split
  · exact id
  · exact fun _ => bindsOk_of_cfg_none (wipe_cfg s true)

theorem execRstNLow_binds (lowNs : Nat) (s : State) : KeepsBinds s (execRstNLow lowNs s) := by
  unfold execRstNLow
  rw [keepsBinds_next]
  split
  · exact id
  · split
    · exact id
    · exact fun _ => bindsOk_of_cfg_none ((updHusk_cfg _ _).trans (wipe_cfg s false))

theorem execPinReset_binds (obs : BootObs) (s : State) : KeepsBinds s (execPinReset obs s) := by
  unfold execPinReset
  rw [keepsBinds_next]
  split
  · exact fun _ => boot_bindsOk _ _ _
  · exact id

theorem execWarmResetDrainEnd_binds (obs : BootObs) (s : State) : KeepsBinds s (execWarmResetDrainEnd obs s) := by
  unfold execWarmResetDrainEnd
  rw [keepsBinds_next]
  split
  · exact id
  · exact fun _ => boot_bindsOk _ _ _

theorem execDdrTrainingDone_binds (obs : TrainObs) (s : State) : KeepsBinds s (execDdrTrainingDone obs s) := by
  unfold execDdrTrainingDone
  rw [keepsBinds_next]
  intro hs
  split
  · exact hs
  · extract_lets l bad
    split
    · exact ddrFailed_bindsOk _ _ _ hs
    · split
      · exact stepNine_bindsOk _ _ (bindsOk_of_cfg (ddrTrained_cfg s l _) hs)
      · exact ddrFailed_bindsOk _ _ _ hs

theorem execHousekeepingRound_binds (obs : RoundObs) (s : State) : KeepsBinds s (execHousekeepingRound obs s) := by
  unfold execHousekeepingRound
  rw [keepsBinds_next]
  intro hs
  split
  · exact hs
  · extract_lets u
    have hu : u.bindsOk := bindsOk_of_cfg (passUs_cfg _ _) hs
    split
    · exact bindsOk_of_cfg (bump_cfg _ _ _) hu
    · exact round_bindsOk _ _ hu

/-- R37, R38: no command binds an actuator out of range. -/
theorem exec_binds (c : Instr) (s : State) : KeepsBinds s (exec c s) :=
  match c with
  | .pwrOkRising obs => execPwrOkRising_binds obs s
  | .ddrTrainingDone obs => execDdrTrainingDone_binds obs s
  | .pwrOkFalling lowNs => execPwrOkFalling_binds lowNs s
  | .rstNLow lowNs => execRstNLow_binds lowNs s
  | .pinReset obs => execPinReset_binds obs s
  | .perstNRising => (execPerstNRising_cfg s).binds
  | .pcieConventionalReset kind => (execPcieConventionalReset_cfg kind s).binds
  | .functionLevelReset => (execFunctionLevelReset_cfg s).binds
  | .nvmSubsystemReset nssr => (execNvmSubsystemReset_cfg nssr s).binds
  | .configurationRequest => (execConfigurationRequest_calm s).binds
  | .controllerEnable cc => (execControllerEnable_calm cc s).binds
  | .controllerReset => (execControllerReset_cfg s).binds
  | .shutdownNormal => (execShutdownNormal_calm s).binds
  | .shutdownAbrupt => (execShutdownAbrupt_calm s).binds
  | .shutdownDrainDone => (execShutdownDrainDone_calm s).binds
  | .shutdownTimeout => (execShutdownTimeout_calm s).binds
  | .update ch norOk => (execUpdate_cfg ch norOk s).binds
  | .tillerLoad ch ddrErr => (execTillerLoad_cfg ch ddrErr s).binds
  | .nsKeyNew ch ledgerOk => (execNsKeyNew_cfg ch ledgerOk s).binds
  | .nsKeyDestroy ch ledgerOk => (execNsKeyDestroy_cfg ch ledgerOk s).binds
  | .auditClear ch => (execAuditClear_cfg ch s).binds
  | .traceClear ch => (execTraceClear_cfg ch s).binds
  | .liveSet ch => (execLiveSet_cfg ch s).binds
  | .livePatch ch => (execLivePatch_cfg ch s).binds
  | .faultRelease ch => (execFaultRelease_cfg ch s).binds
  | .slotRevoke ch => (execSlotRevoke_cfg ch s).binds
  | .floorRaise ch => (execFloorRaise_cfg ch s).binds
  | .deviceWarmReset ch => (execDeviceWarmReset_cfg ch s).binds
  | .warmResetDrainEnd obs => execWarmResetDrainEnd_binds obs s
  | .culmReset ch => (execCulmReset_cfg ch s).binds
  | .tillerEngineReset ch => (execTillerEngineReset_cfg ch s).binds
  | .tillerReloadTimeout n => (execTillerReloadTimeout_calm n s).binds
  | .warmResetRefused ch => (execWarmResetRefused_cfg ch s).binds
  | .miRelay => (execMiRelay_cfg s).binds
  | .miResponse => (execMiResponse_cfg s).binds
  | .miRelayTimeout => (execMiRelayTimeout_calm s).binds
  | .load q ddrErr => (execLoad_cfg q ddrErr s).binds
  | .halt q => (execHalt_cfg q s).binds
  | .go ch dir sender same other => (execGo_cfg ch dir sender same other s).binds
  | .release ch dir receiver => (execRelease_cfg ch dir receiver s).binds
  | .rcvReset ch dir receiver => (execRcvReset_cfg ch dir receiver s).binds
  | .compatLastDataRead ch dir reader => (execCompatLastDataRead_cfg ch dir reader s).binds
  | .mailboxDataWrite ch dir ix writer value => (execMailboxDataWrite_cfg ch dir ix writer value s).binds
  | .lockAcquire ix release readers => (execLockAcquire_cfg ix release readers s).binds
  | .lockRelease ix writer => (execLockRelease_cfg ix writer s).binds
  | .windowRegisterWrite writer id w reg value => (execWindowRegisterWrite_cfg writer id w reg value s).binds
  | .registerWrite writer target value => (execRegisterWrite_cfg writer target value s).binds
  | .violationAuditSecond => (execViolationAuditSecond_calm s).binds
  | .submissionQueueTailDoorbell q tail => (execSubmissionQueueTailDoorbell_calm q tail s).binds
  | .completionQueueHeadDoorbell q head => (execCompletionQueueHeadDoorbell_calm q head s).binds
  | .admission entry => (execAdmission_cfg entry s).binds
  | .mediaQueueEntry n => (execMediaQueueEntry_calm n s).binds
  | .dataGrainBuffered slot index payload tagOk => (execDataGrainBuffered_calm slot index payload tagOk s).binds
  | .bufWaitResume => (execBufWaitResume_calm s).binds
  | .dmaError slot kind => (execDmaError_calm slot kind s).binds
  | .createIoSq slot => (execCreateIoSq_calm slot s).binds
  | .deleteIoSq slot => (execDeleteIoSq_calm slot s).binds
  | .createIoCq slot => (execCreateIoCq_calm slot s).binds
  | .deleteIoCq slot => (execDeleteIoCq_calm slot s).binds
  | .getLogPage slot => (execGetLogPage_calm slot s).binds
  | .identify slot => (execIdentify_calm slot s).binds
  | .abort slot sameCycleCompletion => (execAbort_calm slot sameCycleCompletion s).binds
  | .abortCompletion slot => (execAbortCompletion_calm slot s).binds
  | .arbitration slot => (execArbitration_calm slot s).binds
  | .powerManagement slot => (execPowerManagement_cfg slot s).binds
  | .temperatureThreshold slot => (execTemperatureThreshold_calm slot s).binds
  | .errorRecovery slot => (execErrorRecovery_calm slot s).binds
  | .volatileWriteCache slot => (execVolatileWriteCache_calm slot s).binds
  | .numberOfQueues slot => (execNumberOfQueues_calm slot s).binds
  | .interruptCoalescing slot => (execInterruptCoalescing_calm slot s).binds
  | .interruptVectorConfiguration slot => (execInterruptVectorConfiguration_calm slot s).binds
  | .asynchronousEventConfiguration slot => (execAsynchronousEventConfiguration_calm slot s).binds
  | .autonomousPowerStateTransition slot table => (execAutonomousPowerStateTransition_calm slot table s).binds
  | .timestamp slot ms => (execTimestamp_calm slot ms s).binds
  | .getFeatures slot => (execGetFeatures_calm slot s).binds
  | .asynchronousEventRequest slot => (execAsynchronousEventRequest_calm slot s).binds
  | .namespaceCreate slot nvmSet nsze ncap flbas csi => (execNamespaceCreate_calm slot nvmSet nsze ncap flbas csi s).binds
  | .namespaceDelete slot => (execNamespaceDelete_calm slot s).binds
  | .namespaceAttach slot controllers => (execNamespaceAttach_calm slot controllers s).binds
  | .namespaceDetach slot controllers => (execNamespaceDetach_calm slot controllers s).binds
  | .firmwareImageDownload slot data => (execFirmwareImageDownload_calm slot data s).binds
  | .firmwareCommit slot norOk => (execFirmwareCommit_calm slot norOk s).binds
  | .nvmeMiSend slot message => (execNvmeMiSend_calm slot message s).binds
  | .nvmeMiReceive slot => (execNvmeMiReceive_calm slot s).binds
  | .shortDeviceSelfTest slot => (execShortDeviceSelfTest_calm slot s).binds
  | .extendedDeviceSelfTest slot => (execExtendedDeviceSelfTest_calm slot s).binds
  | .deviceSelfTestAbort slot => (execDeviceSelfTestAbort_calm slot s).binds
  | .deviceSelfTestDone firstFail => (execDeviceSelfTestDone_calm firstFail s).binds
  | .formatNvm slot => (execFormatNvm_calm slot s).binds
  | .sanitizeOverwrite slot => (execSanitizeOverwrite_calm slot s).binds
  | .sanitizeCryptoErase slot => (execSanitizeCryptoErase_calm slot s).binds
  | .exitFailureMode slot => (execExitFailureMode_calm slot s).binds
  | .sanitizeUnitDone n => (execSanitizeUnitDone_calm n s).binds
  | .sanitizeTrackTimeout n => (execSanitizeTrackTimeout_calm n s).binds
  | .flush slot => (execFlush_calm slot s).binds
  | .write slot => (execWrite_calm slot s).binds
  | .read slot => (execRead_calm slot s).binds
  | .writeZeroes slot => (execWriteZeroes_calm slot s).binds
  | .verify slot => (execVerify_calm slot s).binds
  | .zoneAppend slot => (execZoneAppend_calm slot s).binds
  | .zoneClose slot => (execZoneClose_calm slot s).binds
  | .zoneFinish slot => (execZoneFinish_calm slot s).binds
  | .zoneOpen slot => (execZoneOpen_calm slot s).binds
  | .zoneReset slot => (execZoneReset_calm slot s).binds
  | .zoneOffline slot => (execZoneOffline_calm slot s).binds
  | .setZoneDescriptorExtension slot => (execSetZoneDescriptorExtension_calm slot s).binds
  | .reportZones slot => (execReportZones_calm slot s).binds
  | .extendedReportZones slot => (execExtendedReportZones_calm slot s).binds
  | .zmapFlush n => (execZmapFlush_calm n s).binds
  | .powerStateEntryDone => (execPowerStateEntryDone_calm s).binds
  | .autonomousTransition => (execAutonomousTransition_cfg s).binds
  | .powerStateReturnTimeout n => (execPowerStateReturnTimeout_cfg n s).binds
  | .ps2SideSwitch h waited => (execPs2SideSwitch_cfg h waited s).binds
  | .laneSet h four => (execLaneSet_calm h four s).binds
  | .laneAck h hdr action status alnSeq => (execLaneAck_calm h hdr action status alnSeq s).binds
  | .laneChangeFailure h => (execLaneChangeFailure_calm h s).binds
  | .trainingAttempt h => (execTrainingAttempt_calm h s).binds
  | .trainingStateDone h farPrecode => (execTrainingStateDone_calm h farPrecode s).binds
  | .trainingStateTimeout h => (execTrainingStateTimeout_calm h s).binds
  | .trainingRetry h => (execTrainingRetry_calm h s).binds
  | .helloAck h hdr msg => (execHelloAck_calm h hdr msg s).binds
  | .descriptorRead h copy0 copy1 => (execDescriptorRead_calm h copy0 copy1 s).binds
  | .linkLoss h cause lane => (execLinkLoss_calm h cause lane s).binds
  | .retrain h writer alsoDown => (execRetrain_calm h writer alsoDown s).binds
  | .down h writer => (execDown_calm h writer s).binds
  | .flashRead h writer => (execFlashRead_calm h writer s).binds
  | .flashWrite h writer => (execFlashWrite_calm h writer s).binds
  | .flashErase h writer => (execFlashErase_calm h writer s).binds
  | .flashDone h hdr status => (execFlashDone_calm h hdr status s).binds
  | .hskFlashData h hdr tag offset data => (execHskFlashData_calm h hdr tag offset data s).binds
  | .hskTemperatures h hdr values => (execHskTemperatures_calm h hdr values s).binds
  | .hskRails h hdr values => (execHskRails_calm h hdr values s).binds
  | .hskEvent h hdr code => (execHskEvent_calm h hdr code s).binds
  | .motFrame h hdr side frameNo tick mtype values => (execMotFrame_calm h hdr side frameNo tick mtype values s).binds
  | .sampleMarker h hdr sid side marker => (execSampleMarker_calm h hdr sid side marker s).binds
  | .sampleFrame h hdr sid side payload => (execSampleFrame_calm h hdr sid side payload s).binds
  | .aln h lane arrival alnSeq corrected uncorrectable => (execAln_calm h lane arrival alnSeq corrected uncorrectable s).binds
  | .deskewMove h lane => (execDeskewMove_calm h lane s).binds
  | .stopAck h hdr reason safeLevel => (execStopAck_calm h hdr reason safeLevel s).binds
  | .stopAckTimeout h => (execStopAckTimeout_calm h s).binds
  | .credit h hdr sid side frames => (execCredit_calm h hdr sid side frames s).binds
  | .err h hdr code sid side winId => (execErr_calm h hdr code sid side winId s).binds
  | .wdone h hdr side winId bits => (execWdone_calm h hdr side winId bits s).binds
  | .keepalive h hdr => (execKeepalive_calm h hdr s).binds
  | .spinUpGroupStart => (execSpinUpGroupStart_calm s).binds
  | .namespaceReady n ledger => (execNamespaceReady_cfg n ledger s).binds
  | .transitFrame n obs => (execTransitFrame_calm n obs s).binds
  | .toneUnlock n => (execToneUnlock_calm n s).binds
  | .transitAcquisitionTimeout n => (execTransitAcquisitionTimeout_calm n s).binds
  | .headsOffRamp n => (execHeadsOffRamp_calm n s).binds
  | .headsOnRamp n => (execHeadsOnRamp_calm n s).binds
  | .reacq n writer => (execReacq_calm n writer s).binds
  | .alignmentBurst n obs => (execAlignmentBurst_calm n obs s).binds
  | .radOfs n k writer value => (execRadOfs_calm n k writer value s).binds
  | .timOfs n k writer value => (execTimOfs_calm n k writer value s).binds
  | .epochOpen e writer src => (execEpochOpen_calm e writer src s).binds
  | .epochCommit e writer num chaffSameCycle => (execEpochCommit_calm e writer num chaffSameCycle s).binds
  | .epochChaff e writer num => (execEpochChaff_calm e writer num s).binds
  | .preseekChaffTimeout n => (execPreseekChaffTimeout_calm n s).binds
  | .opRead e writer => (execOpRead_calm e writer s).binds
  | .opWrite e writer => (execOpWrite_calm e writer s).binds
  | .opSeek e writer => (execOpSeek_calm e writer s).binds
  | .opRunaheadRead e writer => (execOpRunaheadRead_calm e writer s).binds
  | .preemption n => (execPreemption_calm n s).binds
  | .sectorVerdict l obs => (execSectorVerdict_cfg l obs s).binds
  | .captureCopyDone l secdedErr => (execCaptureCopyDone_calm l secdedErr s).binds
  | .tapData l who value => (execTapData_calm l who value s).binds
  | .tapCommit l writer => (execTapCommit_calm l writer s).binds
  | .failureNoticeTaken => (execFailureNoticeTaken_calm s).binds
  | .decodeUnitDone d => (execDecodeUnitDone_calm d s).binds
  | .recoveryDeadline slot => (execRecoveryDeadline_calm slot s).binds
  | .remapFlush n => (execRemapFlush_calm n s).binds
  | .ledgerGenerationDurable n kind => (execLedgerGenerationDurable_calm n kind s).binds
  | .wtData n who value => (execWtData_calm n who value s).binds
  | .wtCommit n writer => (execWtCommit_calm n writer s).binds
  | .windowEnd n => (execWindowEnd_calm n s).binds
  | .loopRun g ts => (execLoopRun_calm g ts s).binds
  | .loopWatchdog g => (execLoopWatchdog_calm g s).binds
  | .retractPhaseEnd n => (execRetractPhaseEnd_calm n s).binds
  | .enable g writer on => (execEnable_calm g writer on s).binds
  | .modeReq g writer mode => (execModeReq_calm g writer mode s).binds
  | .swap g writer => (execSwap_calm g writer s).binds
  | .tuneTimeout g => (execTuneTimeout_calm g s).binds
  | .spPush n writer => (execSpPush_calm n writer s).binds
  | .frameBoundary n => (execFrameBoundary_calm n s).binds
  | .spinStart h writer => (execSpinStart_calm h writer s).binds
  | .spinStop h writer => (execSpinStop_calm h writer s).binds
  | .spinTune h writer => (execSpinTune_calm h writer s).binds
  | .spindlePeriod h obs => (execSpindlePeriod_calm h obs s).binds
  | .senseEnd h bemf => (execSenseEnd_calm h bemf s).binds
  | .alignEnd h => (execAlignEnd_calm h s).binds
  | .handoffTimeout h => (execHandoffTimeout_calm h s).binds
  | .startRetry h => (execStartRetry_calm h s).binds
  | .brakeIntervalEnd h bemf => (execBrakeIntervalEnd_calm h bemf s).binds
  | .brakeTimeout h => (execBrakeTimeout_calm h s).binds
  | .spinupTimeout h => (execSpinupTimeout_calm h s).binds
  | .reacqTimeout h => (execReacqTimeout_calm h s).binds
  | .reacquisitionDone h bemf => (execReacquisitionDone_calm h bemf s).binds
  | .unloadDone h => (execUnloadDone_calm h s).binds
  | .busUndervoltage h => (execBusUndervoltage_calm h s).binds
  | .faultDetection ftype inst info injected => (execFaultDetection_calm ftype inst info injected s).binds
  | .faultRecovery ftype inst => (execFaultRecovery_calm ftype inst s).binds
  | .reactionHoldTimeout n => (execReactionHoldTimeout_calm n s).binds
  | .fltStat blk writer offset value => (execFltStat_calm blk writer offset value s).binds
  | .injArm blk writer alias_ => (execInjArm_calm blk writer alias_ s).binds
  | .dis target writer force alsoEn => (execDis_calm target writer force alsoEn s).binds
  | .en target writer => (execEn_calm target writer s).binds
  | .housekeepingRound obs => execHousekeepingRound_binds obs s
  | .calReq scope writer mask => (execCalReq_cfg scope writer mask s).binds
  | .calDeferMaxExpiry scope item => (execCalDeferMaxExpiry_cfg scope item s).binds
  | .exclusiveMediaSlotEnd n => (execExclusiveMediaSlotEnd_cfg n s).binds
  | .dimmSensorRead temps => (execDimmSensorRead_calm temps s).binds
  | .patrolScrub line ecc => (execPatrolScrub_calm line ecc s).binds
  | .granaryRangeGo ix writer => (execGranaryRangeGo_calm ix writer s).binds
  | .cleanAndInvalidate ix => (execCleanAndInvalidate_calm ix s).binds
  | .discardAndInvalidate ix => (execDiscardAndInvalidate_calm ix s).binds
  | .preload ix => (execPreload_calm ix s).binds
  | .preloadAndLock ix => (execPreloadAndLock_calm ix s).binds
  | .unlock ix => (execUnlock_calm ix s).binds
  | .rangeOperationDone ix => (execRangeOperationDone_calm ix s).binds
  | .gleaningWriteBackDone line => (execGleaningWriteBackDone_calm line s).binds
  | .tracePut writer => (execTracePut_calm writer s).binds
  | .auditPut writer => (execAuditPut_calm writer s).binds
  | .snapshotOpen handle writer close => (execSnapshotOpen_calm handle writer close s).binds
  | .snapshotClose handle writer => (execSnapshotClose_calm handle writer s).binds
  | .snapshotIdleClose handle => (execSnapshotIdleClose_calm handle s).binds
  | .hostSnapshotOpen => (execHostSnapshotOpen_calm s).binds
  | .hostSnapshotClose => (execHostSnapshotClose_calm s).binds
  | .pageSeqAdvance => (execPageSeqAdvance_calm s).binds
  | .norCopy ok => (execNorCopy_calm ok s).binds
  | .hourMark => (execHourMark_calm s).binds
  | .heartbeatSend => (execHeartbeatSend_calm s).binds
  | .heartbeat hdr msg => (execHeartbeat_calm hdr msg s).binds
  | .electionListenEnd => (execElectionListenEnd_calm s).binds
  | .claim hdr prio => (execClaim_calm hdr prio s).binds
  | .join hdr eligible prio portDecl => (execJoin_calm hdr eligible prio portDecl s).binds
  | .joinAck hdr memberId result => (execJoinAck_calm hdr memberId result s).binds
  | .requestResend => (execRequestResend_calm s).binds
  | .tokenReq hdr msg => (execTokenReq_calm hdr msg s).binds
  | .tokenGrant hdr reqId tokenId watts => (execTokenGrant_calm hdr reqId tokenId watts s).binds
  | .tokenReturn hdr tokenId => (execTokenReturn_calm hdr tokenId s).binds
  | .returnAck hdr tokenId => (execReturnAck_calm hdr tokenId s).binds
  | .tokenState hdr tokens => (execTokenState_calm hdr tokens s).binds
  | .drawSend => (execDrawSend_calm s).binds
  | .draw hdr steady total curPs portsUp => (execDraw_calm hdr steady total curPs portsUp s).binds
  | .memberAbsent id holdPassed => (execMemberAbsent_calm id holdPassed s).binds
  | .managerLost => (execManagerLost_calm s).binds
  | .takeoverHoldEnd => (execTakeoverHoldEnd_calm s).binds
  | .imageOffer hdr xferId target length => (execImageOffer_calm hdr xferId target length s).binds
  | .imageChunk hdr xferId index data norOk => (execImageChunk_calm hdr xferId index data norOk s).binds
  | .imageNeedSend => (execImageNeedSend_calm s).binds
  | .imageNeed hdr xferId firstMissing => (execImageNeed_calm hdr xferId firstMissing s).binds
  | .imageResult hdr xferId status step => (execImageResult_calm hdr xferId status step s).binds
  | .imageTransferTimeout => (execImageTransferTimeout_calm s).binds
  | .auditPull hdr fromSeq => (execAuditPull_calm hdr fromSeq s).binds
  | .auditPageSend => (execAuditPageSend_calm s).binds
  | .auditPage hdr last broken records => (execAuditPage_calm hdr last broken records s).binds
  | .calWindow hdr member startMs lengthMs => (execCalWindow_calm hdr member startMs lengthMs s).binds
  | .ptpSync offsetNs seconds nanoseconds => (execPtpSync_calm offsetNs seconds nanoseconds s).binds
  | .ptpSyncTimeout => (execPtpSyncTimeout_calm s).binds
  | .group1WithinTolerance => (execGroup1WithinTolerance_cfg s).binds
  | .vddIoOutOfTolerance => (execVddIoOutOfTolerance_cfg s).binds
  | .pcieLinkUp rate width flit => (execPcieLinkUp_calm rate width flit s).binds
  | .mctpMessage nvmeMi tag tagOwner message => (execMctpMessage_calm nvmeMi tag tagOwner message s).binds
  | .coalescingTimeExpiry vector => (execCoalescingTimeExpiry_calm vector s).binds
  | .joinRetry => (execJoinRetry_calm s).binds
  | .ptpSyncInterval => (execPtpSyncInterval_calm s).binds
  | .orreryPortUpChange p up => (execOrreryPortUpChange_calm p up s).binds
  | .mainMemoryAccess who secure addr wr len obs => (execMainMemoryAccess_calm who secure addr wr len obs s).binds

/-- Settles O6: of the commands only those that load or revise a structure touch it, and what they load was parsed by step 7. -/
theorem bindingsStayInRange : Obligations.BindingsStayInRange := by
  unfold Obligations.BindingsStayInRange
  intro s t h hs
  unfold step at h
  split at h
  · obtain rfl := Host.Outcome.next.inj h
    exact bindsOk_of_cfg (idle_calm s (calm_refl s)).cfg hs
  · next c rest _ => exact exec_binds c { s with pending := rest } t h hs

end Sys2Proof.Proofs

namespace Sys2Proof.Proofs
open Sys2Proof.Machine Sys2Proof.Laws

/-! ## Requests to Husk and their replies (R72, R74) -/

/-! ### Changes of one mailbox direction -/

theorem vupd_congr {α : Type} {n : Nat} (v : Vector α n) (i : Nat) (d : α) {f g : α → α}
    (h : f (v.toArray.getD i d) = g (v.toArray.getD i d)) : vupd v i f = vupd v i g := by
  unfold vupd
  split
  · next hi =>
    have hd : v.toArray.getD i d = v[i] := by simp [Array.getD, hi]
    rw [← hd, h]
  · rfl

theorem vupd_vupd {α : Type} {n : Nat} (v : Vector α n) (i : Nat) (f g : α → α) : vupd (vupd v i f) i g = vupd v i (fun a => g (f a)) := by
  unfold vupd
  split <;> simp

/-- A change of a direction is known by what it makes of its present value. -/
theorem updMbox_congr {s : State} {ch d : Nat} {f g : Mbox → Mbox} (h : f (s.mb ch d) = g (s.mb ch d)) :
    s.updMbox ch d f = s.updMbox ch d g := by
  unfold State.updMbox
  rw [vupd_congr _ _ _ h]

theorem updMbox_updMbox (s : State) (ch d : Nat) (f g : Mbox → Mbox) :
    (s.updMbox ch d f).updMbox ch d g = s.updMbox ch d (fun m => g (f m)) := by
  simp only [State.updMbox, vupd_vupd]

theorem mb_updMbox_same {ch d : Nat} (h : 2 * ch + d < 128) (s : State) (f : Mbox → Mbox) : (s.updMbox ch d f).mb ch d = f (s.mb ch d) := by
  rw [mb_updMbox, if_pos ⟨rfl, h⟩]

theorem mb_updMbox_ne {ch d c e : Nat} (h : 2 * ch + d ≠ 2 * c + e) (s : State) (f : Mbox → Mbox) :
    (s.updMbox ch d f).mb c e = s.mb c e := by
  rw [mb_updMbox, if_neg fun h' => h h'.1]

/-- Past the host's channels a change of a direction sends no interrupt message. -/
theorem mbPut_of_ge {ch : Nat} (hch : 16 ≤ ch) (s : State) (d : Nat) (f : Mbox → Mbox) : s.mbPut ch d f = s.updMbox ch d f := by
  rw [State.mbPut, if_neg (Nat.not_lt.2 hch)]
  exact updMbox_congr rfl

theorem mbData_of_free {ch d i : Nat} (hch : 16 ≤ ch) (hi : i < 8) {s : State} (hf : (s.mb ch d).full = false) (v : Word) :
    s.mbData ch d i v = s.updMbox ch d (fun m => { m with data := vupd m.data i (fun _ => v) }) := by
  have hsize : ¬ (s.chan ch).regs ≤ i := by
    unfold MboxRec.regs
    omega
  rw [State.mbData, if_neg hsize, mbPut_of_ge hch]
  exact updMbox_congr (by simp [hf])

theorem mbGo_of_free {ch : Nat} (hch : 16 ≤ ch) {s : State} (hf : (s.mb ch 1).full = false) (who : Initiator) :
    s.mbGo ch 1 who = s.updMbox ch 1 (fun m => { m with full := true, sender := who, msgCnt := m.msgCnt + 1, fullI := true }) := by
  simp [State.mbGo, hf, mbPut_of_ge hch]

/-! ### Husk's reply -/

/-- The reply Husk writes into a direction. -/
def replyMsg (status opc step : Nat) (m : Mbox) : Mbox :=
  { m with
    data := vupd (vupd (vupd m.data 0 (fun _ => BitVec.ofNat 32 status)) 1 (fun _ => BitVec.ofNat 32 opc)) 2
        (fun _ => BitVec.ofNat 32 step),
    full := true, sender := BitVec.ofNat 8 idHusk, msgCnt := m.msgCnt + 1, fullI := true }

/-- A reply into a free direction, while no request waits on the channel, changes that direction only (R74, R80). -/
theorem huskReply_eq {ch : Nat} (hlo : 40 ≤ ch) (hhi : ch < 64) {u : State} (h0 : (u.mb ch 0).full = false)
    (h1 : (u.mb ch 1).full = false) (opc status step : Nat) :
    u.huskReply ch opc status step = u.updMbox ch 1 (replyMsg status opc step) := by
  have hge : 16 ≤ ch := by omega
  have hk : 2 * ch + 1 < 128 := by omega
  simp only [State.huskReply, State.huskSend, List.zipIdx_cons, List.zipIdx_nil, List.foldl_cons, List.foldl_nil, Nat.zero_add,
    Nat.reduceAdd]
  rw [mbData_of_free (i := 0) hge (by omega) h1, mbData_of_free (i := 1) hge (by omega) (by rwa [mb_updMbox_same hk]), updMbox_updMbox,
    mbData_of_free (i := 2) hge (by omega) (by rwa [mb_updMbox_same hk]), updMbox_updMbox,
    mbGo_of_free hge (by rwa [mb_updMbox_same hk]), updMbox_updMbox, State.mbCross, if_neg]
  · rfl
  · rw [mb_updMbox_ne (c := ch) (e := 0) (by omega), h0]
    simp

theorem mbWord_replyMsg {ch : Nat} (hhi : ch < 64) (u : State) (status opc step : Nat) :
    let t := u.updMbox ch 1 (replyMsg status opc step)
    t.mbWord ch 1 0 = status % 2 ^ 32 ∧ t.mbWord ch 1 1 = opc % 2 ^ 32 ∧ t.mbWord ch 1 2 = step % 2 ^ 32 := by
  simp only [State.mbWord, mb_updMbox_same (show 2 * ch + 1 < 128 by omega), replyMsg, vupd_getD]
  simp

/-- Husk answers a request it has released (R72, R74). -/
theorem huskReply_answered {ch : Nat} (hlo : 40 ≤ ch) (hhi : ch < 64) {u : State} (h0 : (u.mb ch 0).full = false)
    (h1 : (u.mb ch 1).full = false) (hr : ch ∉ u.husk.requests) {opc status step : Nat} (ho : opc < 2 ^ 32) (hs : status < 2 ^ 32)
    (hp : step < 2 ^ 32) : (u.huskReply ch opc status step).huskAnswered ch opc status step := by
  have hk : 2 * ch + 1 < 128 := by omega
  obtain ⟨w0, w1, w2⟩ := mbWord_replyMsg hhi u status opc step
  rw [huskReply_eq hlo hhi h0 h1]
  refine ⟨?_, ?_, ?_, w0.trans (Nat.mod_eq_of_lt hs), w1.trans (Nat.mod_eq_of_lt ho), w2.trans (Nat.mod_eq_of_lt hp), hr⟩
  · rwa [mb_updMbox_ne (by omega)]
  · rw [mb_updMbox_same hk]
    rfl
  · rw [mb_updMbox_same hk]
    rfl

/-! ### Taking a request -/

/-- Husk has taken the request of a channel: it is released and no longer waits (R72). -/
def huskTaken (s : State) (ch : Nat) : State :=
  (s.updHusk (fun k => { k with requests := k.requests.filter (fun c => c != ch) })).mbRelease ch 0

/-- What the release leaves alone: all but the mailboxes and the order of requests. -/
theorem huskTaken_frame {ch : Nat} (hch : 16 ≤ ch) (s : State) :
    huskTaken s ch = { s with
      mbox := (huskTaken s ch).mbox, husk := { s.husk with requests := s.husk.requests.filter (fun c => c != ch) } } := by
  unfold huskTaken State.mbRelease
  split
  · rfl
  · rw [mbPut_of_ge hch]
    rfl

theorem huskTaken_mb_zero {ch : Nat} (hlo : 16 ≤ ch) (hhi : ch < 64) {s : State} (hc : (s.chan ch).compat = false) :
    ((huskTaken s ch).mb ch 0).full = false := by
  unfold huskTaken State.mbRelease
  split
  · next h => exact h.resolve_left (Bool.not_eq_true _ ▸ hc)
  · rw [mbPut_of_ge hlo, mb_updMbox_same (by omega)]

theorem huskTaken_mb_one {ch : Nat} (hlo : 16 ≤ ch) (s : State) : (huskTaken s ch).mb ch 1 = s.mb ch 1 := by
  unfold huskTaken State.mbRelease
  split
  · rfl
  · rw [mbPut_of_ge hlo, mb_updMbox_ne (by omega)]
    rfl

theorem huskNext_mb_one {s : State} {ch : Nat} (h : s.huskNext = some ch) : (s.mb ch 1).full = false := by
  simpa using List.find?_some h

/-- A request that Husk takes, of an opcode it knows and with nothing beyond its registers, is acted on and answered. -/
theorem huskReq_of_asks {s u : State} {ch opc status step : Nat} {listed : List Nat}
    {act : (Nat → Nat) → Nat → State → State × Option (Nat × Nat)} (h : s.huskAsks ch opc listed) (hopc : opc ∈ huskOpcodes)
    (hact : act (s.mbWord ch 0) (s.mb ch 0).sender.toNat (huskTaken s ch) = (u, some (status, step))) :
    s.huskReq ch opc listed act = u.huskReply ch opc status step := by
  obtain ⟨hfree, hnext, -, hword, hzero⟩ := h
  rw [State.huskReq, if_pos ⟨hfree, hnext⟩]
  extract_lets m reg known v
  have hreg : reg = s.mbWord ch 0 := rfl
  have hknown : known = true := by simpa [known, hreg, hword] using hopc
  have hlisted : ¬ (known = false ∨
      (List.range 16).any (fun i => decide (1 ≤ i) && !(listed.contains i) && reg i != 0) = true) := by
    rw [hknown, List.any_eq_true]
    rintro (h | ⟨i, hi, hne⟩)
    · cases h
    · simp only [Bool.and_eq_true, decide_eq_true_eq, Bool.not_eq_true', bne_iff_ne] at hne
      obtain ⟨⟨h1, hl⟩, hne⟩ := hne
      exact hne (hzero i h1 (List.mem_range.1 hi) (by simpa using hl))
  rw [if_neg (by simp [hreg, hword]), if_neg hlisted]
  change (match act (s.mbWord ch 0) (s.mb ch 0).sender.toNat (huskTaken s ch) with
    | (u, some (status, step)) => u.huskReply ch opc status step
    | (u, none) => u) = _
  rw [hact]

/-- A request of an unknown opcode, or with a register beyond those listed, gets status 7 and no more (R74). -/
theorem huskReq_of_bad {s : State} {ch opc : Nat} {listed : List Nat} (act : (Nat → Nat) → Nat → State → State × Option (Nat × Nat))
    (hfree : s.huskFree = true) (hnext : s.huskNext = some ch)
    (hbad : huskOpcodes.contains (s.mbWord ch 0 0) = false ∨
      (s.mbWord ch 0 0 = opc ∧ ∃ i, 1 ≤ i ∧ i < 16 ∧ i ∉ listed ∧ s.mbWord ch 0 i ≠ 0)) :
    s.huskReq ch opc listed act = (huskTaken s ch).huskReply ch (s.mbWord ch 0 0) 7 0 := by
  rw [State.huskReq, if_pos ⟨hfree, hnext⟩]
  extract_lets m reg known v
  have hreg : reg = s.mbWord ch 0 := rfl
  have htake : ¬ (known = true ∧ reg 0 ≠ opc) := by
    rintro ⟨hk, hne⟩
    obtain h | ⟨h, -⟩ := hbad
    · exact Bool.false_ne_true (h.symm.trans hk)
    · exact hne h
  have hseven : known = false ∨ (List.range 16).any (fun i => decide (1 ≤ i) && !(listed.contains i) && reg i != 0) = true := by
    refine hbad.imp id ?_
    rintro ⟨-, i, h1, hi, hl, hne⟩
    exact List.any_eq_true.2 ⟨i, List.mem_range.2 hi, by simp [h1, hl, hreg, hne]⟩
  rw [if_neg htake, if_pos hseven]
  rfl

end Sys2Proof.Proofs

namespace Sys2Proof.Proofs
open Sys2Proof.Machine Sys2Proof.Laws

/-- What Husk's action makes of the state stands beside the reply, which changes the mailboxes alone. -/
theorem huskReq_answers {s u : State} {ch opc status step : Nat} {listed : List Nat}
    {act : (Nat → Nat) → Nat → State → State × Option (Nat × Nat)} (hlo : 40 ≤ ch) (hhi : ch < 64) (h : s.huskAsks ch opc listed)
    (hopc : opc ∈ huskOpcodes) (hact : act (s.mbWord ch 0) (s.mb ch 0).sender.toNat (huskTaken s ch) = (u, some (status, step)))
    (hmb : u.mbox = (huskTaken s ch).mbox) (hr : u.husk.requests = (huskTaken s ch).husk.requests)
    (ho : opc < 2 ^ 32) (hs : status < 2 ^ 32) (hp : step < 2 ^ 32) :
    (s.huskReq ch opc listed act).huskAnswered ch opc status step ∧
      ∃ v, s.huskReq ch opc listed act = { u with mbox := v } := by
  have hge : 16 ≤ ch := by omega
  have hmbs (d : Nat) : u.mb ch d = (huskTaken s ch).mb ch d := by rw [State.mb, hmb]; rfl
  have h0 : (u.mb ch 0).full = false := by rw [hmbs]; exact huskTaken_mb_zero hge hhi h.2.2.1
  have h1 : (u.mb ch 1).full = false := by rw [hmbs, huskTaken_mb_one hge]; exact huskNext_mb_one h.2.1
  have hreq : ch ∉ u.husk.requests := by rw [hr, huskTaken_frame hge]; simp
  rw [huskReq_of_asks h hopc hact]
  exact ⟨huskReply_answered hlo hhi h0 h1 hreq ho hs hp, _, huskReply_eq hlo hhi h0 h1 opc status step⟩

theorem huskReq_refuses {s : State} {ch opc : Nat} {listed : List Nat} (act : (Nat → Nat) → Nat → State → State × Option (Nat × Nat))
    (hlo : 40 ≤ ch) (hhi : ch < 64) (hfree : s.huskFree = true) (hnext : s.huskNext = some ch) (hc : (s.chan ch).compat = false)
    (hbad : huskOpcodes.contains (s.mbWord ch 0 0) = false ∨
      (s.mbWord ch 0 0 = opc ∧ ∃ i, 1 ≤ i ∧ i < 16 ∧ i ∉ listed ∧ s.mbWord ch 0 i ≠ 0)) :
    (s.huskReq ch opc listed act).huskAnswered ch (s.mbWord ch 0 0) 7 0 ∧
      ∃ v, s.huskReq ch opc listed act = { huskTaken s ch with mbox := v } := by
  have hge : 16 ≤ ch := by omega
  have h0 := huskTaken_mb_zero hge hhi hc
  have h1 : ((huskTaken s ch).mb ch 1).full = false := by rw [huskTaken_mb_one hge]; exact huskNext_mb_one hnext
  have hreq : ch ∉ (huskTaken s ch).husk.requests := by rw [huskTaken_frame hge]; simp
  rw [huskReq_of_bad act hfree hnext hbad]
  exact ⟨huskReply_answered hlo hhi h0 h1 hreq (BitVec.isLt _) (by omega) (by omega), _,
    huskReply_eq hlo hhi h0 h1 _ _ _⟩

/-! ### Unknown requests (R74) -/

theorem unknownOpcode (s : State) (ch : Fin 64) (hlo : 40 ≤ ch.val) (hfree : s.huskFree = true) (hnext : s.huskNext = some ch.val)
    (hc : (s.chan ch).compat = false) (h : huskOpcodes.contains (s.mbWord ch 0 0) = false) :
    ∃ t, exec (.update ch true) s = .next t ∧ t.huskAnswered ch (s.mbWord ch 0 0) 7 0 ∧ t.regs = s.regs ∧ t.mem = s.mem ∧
        t.alm = s.alm := by
  obtain ⟨hans, v, hv⟩ := huskReq_refuses _ hlo ch.isLt hfree hnext hc (.inl h)
  refine ⟨_, rfl, hans, ?_⟩
  rw [hv, huskTaken_frame (by omega)]
  exact ⟨rfl, rfl, rfl⟩

theorem floorRaise_register (s : State) (ch : Fin 64) (hlo : 40 ≤ ch.val) (hfree : s.huskFree = true) (hnext : s.huskNext = some ch.val)
    (hc : (s.chan ch).compat = false) (h0 : s.mbWord ch 0 0 = 0x71) (h2 : s.mbWord ch 0 2 ≠ 0) :
    ∃ t, exec (.floorRaise ch) s = .next t ∧ t.huskAnswered ch 0x71 7 0 ∧ t.husk.floor = s.husk.floor ∧ t.regs = s.regs ∧
        t.mem = s.mem := by
  obtain ⟨hans, v, hv⟩ := huskReq_refuses (listed := [1]) _ hlo ch.isLt hfree hnext hc (.inr ⟨h0, 2, by decide, by decide, by decide, h2⟩)
  rw [h0] at hans
  refine ⟨_, rfl, hans, ?_⟩
  rw [hv, huskTaken_frame (by omega)]
  exact ⟨rfl, rfl, rfl⟩

theorem warmReset_code (s : State) (ch : Fin 64) (hlo : 40 ≤ ch.val) (hask : s.huskAsks ch 0x7F [1]) (h1 : s.mbWord ch 0 1 % 16 = 0) :
    ∃ t, exec (.warmResetRefused ch) s = .next t ∧ t.huskAnswered ch 0x7F 7 0 ∧ t.regs = s.regs ∧ t.mem = s.mem := by
  obtain ⟨hans, v, hv⟩ := huskReq_answers (act := fun _ _ s => (s, some (7, 0))) hlo ch.isLt hask (by decide) rfl rfl rfl
    (by decide) (by decide) (by decide)
  have hexec : exec (.warmResetRefused ch) s = .next (s.huskReq ch 0x7F [1] (fun _ _ s => (s, some (7, 0)))) := by
    change Host.Outcome.next _ = _
    rw [if_neg]
    change ¬ (1 ≤ s.mbWord ch 0 1 % 16 ∧ _)
    omega
  refine ⟨_, hexec, hans, ?_⟩
  rw [hv, huskTaken_frame (by omega)]
  exact ⟨rfl, rfl⟩

/-! ### LIVE_SET and LIVE_PATCH (R55, R56) -/

theorem thermStatus_le (s : State) (b : List Byte) (set : Bool) : s.thermStatus b set ≤ 2 := by
  unfold State.thermStatus
  dsimp only
  (repeat' split) <;> omega

theorem granStatus_le (s : State) (b : List Byte) (set : Bool) : s.granStatus b set ≤ 4 := by
  unfold State.granStatus
  dsimp only
  (repeat' split) <;> omega

/-- Both statuses look at the loaded image's records only. -/
theorem liveStatus_huskTaken {ch : Nat} (hch : 16 ≤ ch) (s : State) (b : List Byte) (set : Bool) :
    (huskTaken s ch).thermStatus b set = s.thermStatus b set ∧ (huskTaken s ch).granStatus b set = s.granStatus b set := by
  rw [huskTaken_frame hch]
  exact ⟨rfl, rfl⟩

/-- A record accepted, or refused with its status. -/
def liveTaken (s : State) (typ st : Nat) (b : List Byte) : State := if st = 0 then s.liveAccept typ b else s

theorem match_status {α : Type} (st : Nat) (x y : α) :
    (match st with | 0 => (x, some (0, 0)) | n => (y, some (n, 0))) = (if st = 0 then x else y, some (st, 0)) := by
  cases st <;> rfl

theorem liveTaken_frame (s : State) (typ st : Nat) (b : List Byte) :
    liveTaken s typ st b = { s with husk := { s.husk with
      liveTherm := (liveTaken s typ st b).husk.liveTherm, liveGran := (liveTaken s typ st b).husk.liveGran } } := by
  unfold liveTaken State.liveAccept State.updHusk
  (repeat' split) <;> rfl

/-- The bytes of the record in registers 2 to 5 of LIVE_SET. -/
def setBody (reg : Nat → Nat) : List Byte := [2, 3, 4, 5].flatMap (fun i => toLe 4 (reg i))

/-- LIVE_SET of a THERMAL record (R55). -/
theorem execLiveSet_therm (ch : Fin 64) (s : State) :
    ∃ act, exec (.liveSet ch) s = .next (s.huskReq ch 0x51 [1, 2, 3, 4, 5] act) ∧
      ∀ (reg : Nat → Nat) (who : Nat) (x : State), reg 1 = 24 * 65536 + 0xA →
        act reg who x = (liveTaken x 0xA (x.thermStatus (setBody reg) true) (setBody reg), some (x.thermStatus (setBody reg) true, 0)) := by
  refine ⟨_, rfl, fun reg who x h => ?_⟩
  dsimp only
  rw [h]
  exact match_status _ _ _

/-- LIVE_SET of a GRANARY record (R55). -/
theorem execLiveSet_gran (ch : Fin 64) (s : State) :
    ∃ act, exec (.liveSet ch) s = .next (s.huskReq ch 0x51 [1, 2, 3, 4, 5] act) ∧
      ∀ (reg : Nat → Nat) (who : Nat) (x : State), reg 1 = 16 * 65536 + 5 → reg 4 = 0 → reg 5 = 0 →
        act reg who x = (liveTaken x 5 (x.granStatus (toLe 4 (reg 2) ++ toLe 4 (reg 3)) true) (toLe 4 (reg 2) ++ toLe 4 (reg 3)),
          some (x.granStatus (toLe 4 (reg 2) ++ toLe 4 (reg 3)) true, 0)) := by
  refine ⟨_, rfl, fun reg who x h h4 h5 => ?_⟩
  dsimp only
  rw [h, h4, h5]
  exact match_status _ _ _

theorem liveTaken_therm (s : State) (st : Nat) (b : List Byte) :
    (liveTaken s 0xA st b).husk.liveTherm = (if st = 0 then s.husk.liveTherm ++ [thermFields b] else s.husk.liveTherm) ∧
      (liveTaken s 0xA st b).husk.liveGran = s.husk.liveGran := by
  unfold liveTaken
  split <;> exact ⟨rfl, rfl⟩

theorem liveTaken_gran (s : State) (st : Nat) (b : List Byte) :
    (liveTaken s 5 st b).husk.liveGran.length = s.husk.liveGran.length + (if st = 0 then 1 else 0) ∧
      (liveTaken s 5 st b).husk.liveTherm = s.husk.liveTherm := by
  unfold liveTaken
  split
  · exact ⟨List.length_append, rfl⟩
  · exact ⟨rfl, rfl⟩

theorem liveTaken_same (s : State) (typ st : Nat) (b : List Byte) :
    (liveTaken s typ st b).regs = s.regs ∧ (liveTaken s typ st b).mem = s.mem ∧ (liveTaken s typ st b).cfg = s.cfg := by
  rw [liveTaken_frame]
  exact ⟨rfl, rfl, rfl⟩

theorem huskTaken_same {ch : Nat} (hch : 16 ≤ ch) (s : State) :
    (huskTaken s ch).regs = s.regs ∧ (huskTaken s ch).mem = s.mem ∧ (huskTaken s ch).cfg = s.cfg ∧ (huskTaken s ch).alm = s.alm ∧
      (huskTaken s ch).flt = s.flt ∧ (huskTaken s ch).husk.liveTherm = s.husk.liveTherm ∧
      (huskTaken s ch).husk.liveGran = s.husk.liveGran ∧ (huskTaken s ch).husk.patchSeq = s.husk.patchSeq := by
  rw [huskTaken_frame hch]
  exact ⟨rfl, rfl, rfl, rfl, rfl, rfl, rfl, rfl⟩

theorem liveSet_therm (s : State) (ch : Fin 64) (hlo : 40 ≤ ch.val) (hask : s.huskAsks ch 0x51 [1, 2, 3, 4, 5])
    (h1 : s.mbWord ch 0 1 = 24 * 65536 + 0xA) :
    let b := [2, 3, 4, 5].flatMap (fun i => toLe 4 (s.mbWord ch 0 i))
    let st := s.thermStatus b true
    ∃ t, exec (.liveSet ch) s = .next t ∧ t.huskAnswered ch 0x51 st 0 ∧ t.regs = s.regs ∧ t.mem = s.mem ∧ t.cfg = s.cfg ∧
        t.husk.liveTherm = (if st = 0 then s.husk.liveTherm ++ [thermFields b] else s.husk.liveTherm) ∧
            t.husk.liveGran = s.husk.liveGran := by
  intro b st
  obtain ⟨act, hexec, hact⟩ := execLiveSet_therm ch s
  have hge : 16 ≤ ch.val := by omega
  have hact := hact (s.mbWord ch 0) (s.mb ch 0).sender.toNat (huskTaken s ch) h1
  rw [(liveStatus_huskTaken hge s _ true).1] at hact
  have hst : st < 2 ^ 32 := (thermStatus_le s b true).trans_lt (by decide)
  obtain ⟨hans, v, hv⟩ := huskReq_answers hlo ch.isLt hask (by decide) hact (by rw [liveTaken_frame]) (by rw [liveTaken_frame])
    (by decide) hst (by decide)
  obtain ⟨hregs, hmem, hcfg, -, -, htherm, hgran, -⟩ := huskTaken_same hge s
  obtain ⟨uregs, umem, ucfg⟩ := liveTaken_same (huskTaken s ch) 0xA st b
  obtain ⟨utherm, ugran⟩ := liveTaken_therm (huskTaken s ch) st b
  rw [htherm] at utherm
  refine ⟨_, hexec, hans, ?_⟩
  rw [hv]
  exact ⟨uregs.trans hregs, umem.trans hmem, ucfg.trans hcfg, utherm, ugran.trans hgran⟩

theorem liveSet_gran (s : State) (ch : Fin 64) (hlo : 40 ≤ ch.val) (hask : s.huskAsks ch 0x51 [1, 2, 3, 4, 5])
    (h1 : s.mbWord ch 0 1 = 16 * 65536 + 5) (h4 : s.mbWord ch 0 4 = 0) (h5 : s.mbWord ch 0 5 = 0) :
    let b := toLe 4 (s.mbWord ch 0 2) ++ toLe 4 (s.mbWord ch 0 3)
    let st := s.granStatus b true
    ∃ t, exec (.liveSet ch) s = .next t ∧ t.huskAnswered ch 0x51 st 0 ∧ t.regs = s.regs ∧ t.cfg = s.cfg ∧
      t.husk.liveGran.length = s.husk.liveGran.length + (if st = 0 then 1 else 0) ∧ t.husk.liveTherm = s.husk.liveTherm := by
  intro b st
  obtain ⟨act, hexec, hact⟩ := execLiveSet_gran ch s
  have hge : 16 ≤ ch.val := by omega
  have hact := hact (s.mbWord ch 0) (s.mb ch 0).sender.toNat (huskTaken s ch) h1 h4 h5
  rw [(liveStatus_huskTaken hge s _ true).2] at hact
  have hst : st < 2 ^ 32 := (granStatus_le s b true).trans_lt (by decide)
  obtain ⟨hans, v, hv⟩ := huskReq_answers hlo ch.isLt hask (by decide) hact (by rw [liveTaken_frame]) (by rw [liveTaken_frame])
    (by decide) hst (by decide)
  obtain ⟨hregs, -, hcfg, -, -, htherm, hgran, -⟩ := huskTaken_same hge s
  obtain ⟨uregs, -, ucfg⟩ := liveTaken_same (huskTaken s ch) 5 st b
  obtain ⟨ugran, utherm⟩ := liveTaken_gran (huskTaken s ch) st b
  rw [hgran] at ugran
  refine ⟨_, hexec, hans, ?_⟩
  rw [hv]
  exact ⟨uregs.trans hregs, ucfg.trans hcfg, ugran, utherm.trans htherm⟩

/-! ### LIVE_PATCH (R55) -/

theorem patchCheck_le (s : State) (b : List Byte) (n : Nat) : (s.patchCheck b n).1 ≤ 5 := by
  unfold State.patchCheck
  split
  · omega
  split
  · omega
  split
  · omega
  split
  · omega
  split
  · omega
  extract_lets es
  split
  · omega
  split
  · omega
  split
  · next k hk =>
    obtain ⟨r, -, hr⟩ := List.exists_of_findSome?_eq_some hk
    have htherm := thermStatus_le s r.body false
    have hgran := granStatus_le s r.body false
    split at hr
    · cases hr
    · cases hr
      split <;> omega
  · omega

theorem patchCheck_huskTaken {ch : Nat} (hch : 16 ≤ ch) (s : State) (b : List Byte) (n : Nat) :
    (huskTaken s ch).patchCheck b n = s.patchCheck b n := by
  rw [huskTaken_frame hch]
  rfl

theorem memRead_inPart_huskTaken {ch : Nat} (hch : 16 ≤ ch) (s : State) (id a n : Nat) :
    (huskTaken s ch).memRead a n = s.memRead a n ∧ (huskTaken s ch).inPart id a n = s.inPart id a n := by
  rw [huskTaken_frame hch]
  exact ⟨rfl, rfl⟩

/-- What an accepted patch leaves: its records wait for the round, and its SEQ counts as used. -/
def patched (s : State) (seq : Nat) (rs : List RawRec) : State :=
  (rs.foldl (fun s r => s.liveAccept r.type r.body) s).updHusk (fun k => { k with patchSeq := seq })

theorem liveAccept_frame (s : State) (typ : Nat) (b : List Byte) :
    s.liveAccept typ b = { s with husk := { s.husk with
      liveTherm := (s.liveAccept typ b).husk.liveTherm, liveGran := (s.liveAccept typ b).husk.liveGran } } :=
  liveTaken_frame s typ 0 b

theorem foldl_liveAccept_frame (rs : List RawRec) (s : State) :
    ∃ lt lg, rs.foldl (fun s r => s.liveAccept r.type r.body) s = { s with husk := { s.husk with liveTherm := lt, liveGran := lg } } := by
  induction rs generalizing s with
  | nil => exact ⟨_, _, rfl⟩
  | cons r rs ih =>
    rw [List.foldl_cons]
    obtain ⟨lt, lg, h⟩ := ih (s.liveAccept r.type r.body)
    rw [liveAccept_frame] at h
    rw [liveAccept_frame, h]
    exact ⟨lt, lg, rfl⟩

theorem patched_frame (s : State) (seq : Nat) (rs : List RawRec) :
    ∃ lt lg, patched s seq rs = { s with husk := { s.husk with liveTherm := lt, liveGran := lg, patchSeq := seq } } := by
  obtain ⟨lt, lg, h⟩ := foldl_liveAccept_frame rs s
  rw [patched, h]
  exact ⟨lt, lg, rfl⟩

/-- A patch accepted, or refused with its status. -/
def patchTaken (s : State) (seq : Nat) (p : Nat × List RawRec) : State := if p.1 = 0 then patched s seq p.2 else s

theorem match_patch (s : State) (seq : Nat) (p : Nat × List RawRec) :
    (match p with
      | (0, es) => (patched s seq es, some (0, 0))
      | (k, _) => (s, some (k, 0))) = (patchTaken s seq p, some (p.1, 0)) := by
  obtain ⟨k, es⟩ := p
  cases k <;> rfl

theorem patchTaken_frame (s : State) (seq : Nat) (p : Nat × List RawRec) :
    ∃ lt lg, patchTaken s seq p = { s with husk := { s.husk with
        liveTherm := lt, liveGran := lg, patchSeq := if p.1 = 0 then seq else s.husk.patchSeq } } ∧
      (p.1 ≠ 0 → lt = s.husk.liveTherm ∧ lg = s.husk.liveGran) := by
  unfold patchTaken
  split
  · next h0 =>
    obtain ⟨lt, lg, h⟩ := patched_frame s seq p.2
    exact ⟨lt, lg, h, fun hne => absurd h0 hne⟩
  · exact ⟨_, _, rfl, fun _ => ⟨rfl, rfl⟩⟩

theorem execLivePatch_checks (ch : Fin 64) (s : State) :
    ∃ act, exec (.livePatch ch) s = .next (s.huskReq ch 0x52 [2, 3] act) ∧
      ∀ (reg : Nat → Nat) (who : Nat) (x : State) (a n : Nat), a = reg 2 + 2 ^ 32 * reg 3 → n = le32 (x.memRead a 64) 8 →
        n % 8 = 0 → 328 ≤ n → n ≤ 1048576 → x.inPart 4 a 64 = true → x.inPart 4 a n = true →
        act reg who x = (patchTaken x (le64 (x.memRead a n) 0x18) (x.patchCheck (x.memRead a n) n),
          some ((x.patchCheck (x.memRead a n) n).1, 0)) := by
  refine ⟨_, rfl, fun reg who x a n ha hn h8 hmin hmax hhead hall => ?_⟩
  subst ha
  dsimp only [regAddr]
  rw [← hn]
  have hpass : ¬ (x.inPart 4 (reg 2 + 2 ^ 32 * reg 3) 64 = false ∨ n % 8 ≠ 0 ∨ n < 328 ∨ 1048576 < n ∨
      x.inPart 4 (reg 2 + 2 ^ 32 * reg 3) n = false) := by
    simp only [hhead, hall, Bool.true_eq_false, or_false, false_or]
    omega
  rw [if_neg hpass]
  exact match_patch _ _ _

theorem livePatch_status (s : State) (ch : Fin 64) (a n : Nat) (hlo : 40 ≤ ch.val) (hask : s.huskAsks ch 0x52 [2, 3])
    (ha : a = s.mbWord ch 0 2 + 2 ^ 32 * s.mbWord ch 0 3) (hn : n = le32 (s.memRead a 64) 8) (h8 : n % 8 = 0) (hmin : 328 ≤ n)
    (hmax : n ≤ 1048576) (hhead : s.inPart 4 a 64 = true) (hall : s.inPart 4 a n = true) :
    let p := s.patchCheck (s.memRead a n) n
    ∃ t, exec (.livePatch ch) s = .next t ∧ t.huskAnswered ch 0x52 p.1 0 ∧ t.regs = s.regs ∧ t.mem = s.mem ∧ t.cfg = s.cfg ∧
      t.husk.patchSeq = (if p.1 = 0 then le64 (s.memRead a n) 0x18 else s.husk.patchSeq) ∧
      (p.1 ≠ 0 → t.husk.liveTherm = s.husk.liveTherm ∧ t.husk.liveGran = s.husk.liveGran) := by
  have hge : 16 ≤ ch.val := by omega
  have hmem (k : Nat) : (huskTaken s ch).memRead a k = s.memRead a k := (memRead_inPart_huskTaken hge s 0 a k).1
  have hpart (k : Nat) : (huskTaken s ch).inPart 4 a k = s.inPart 4 a k := (memRead_inPart_huskTaken hge s 4 a k).2
  obtain ⟨act, hexec, hact⟩ := execLivePatch_checks ch s
  have hact := hact (s.mbWord ch 0) (s.mb ch 0).sender.toNat (huskTaken s ch) a n ha (by rw [hmem, hn]) h8 hmin hmax
    (by rw [hpart, hhead]) (by rw [hpart, hall])
  rw [hmem, patchCheck_huskTaken hge] at hact
  have hst : (s.patchCheck (s.memRead a n) n).1 < 2 ^ 32 := (patchCheck_le s _ n).trans_lt (by decide)
  intro p
  obtain ⟨lt, lg, hu, hkept⟩ := patchTaken_frame (huskTaken s ch) (le64 (s.memRead a n) 0x18) p
  rw [hu] at hact
  obtain ⟨hans, v, hv⟩ := huskReq_answers hlo ch.isLt hask (by decide) hact rfl rfl (by decide) hst (by decide)
  obtain ⟨tregs, tmem, tcfg, -, -, ttherm, tgran, tseq⟩ := huskTaken_same hge s
  rw [ttherm, tgran] at hkept
  refine ⟨_, hexec, hans, ?_⟩
  rw [hv]
  exact ⟨tregs, tmem, tcfg, congrArg (fun seq => if p.1 = 0 then le64 (s.memRead a n) 0x18 else seq) tseq, hkept⟩

end Sys2Proof.Proofs

namespace Sys2Proof.Proofs
open Sys2Proof.Machine Sys2Proof.Laws

/-! ### Registers an audit record leaves alone -/

/-- From `s` to `t` no register with a key below `b` changes. -/
def KeepsBelow (b : Nat) (s t : State) : Prop :=
  s.fileOk → t.fileOk ∧ ∀ (f : RegField) (i j : Nat), f.key i j < b → t.rdAt f i j = s.rdAt f i j

theorem KeepsBelow.refl (b : Nat) (s : State) : KeepsBelow b s s := fun h => ⟨h, fun _ _ _ _ => rfl⟩

theorem KeepsBelow.trans {b : Nat} {s t u : State} (h : KeepsBelow b s t) (k : KeepsBelow b t u) : KeepsBelow b s u := fun hs => by
  obtain ⟨ht, hst⟩ := h hs
  obtain ⟨hu, htu⟩ := k ht
  exact ⟨hu, fun f i j hk => (htu f i j hk).trans (hst f i j hk)⟩

theorem KeepsBelow.of_regs {b : Nat} {s t u : State} (h : KeepsBelow b s t) (hr : u.regs = t.regs) : KeepsBelow b s u := by
  simpa only [KeepsBelow, State.fileOk, State.rdAt, hr] using h

theorem wrAt_keepsBelow {b : Nat} (s : State) (f : RegField) (i j : Nat) (v : Word) (hb : b ≤ f.key i j) :
    KeepsBelow b s (s.wrAt f i j v) := fun hs =>
  ⟨wrAt_rising s f i j v hs, fun g i' j' hk => rdAt_wrAt_ne s f g i j i' j' v hs (by omega)⟩

/-- The counters of the Almanac are the registers a record of the audit class can change. -/
def auditKeys : Nat := 515 * 0x100000

theorem auditDrop_keepsBelow (s : State) : KeepsBelow auditKeys s s.auditDrop := by
  unfold State.auditDrop
  split
  · exact .refl _ s
  · next r rest _ =>
    extract_lets hit n u v
    have hu : KeepsBelow auditKeys s u := wrAt_keepsBelow s _ _ _ _ (by decide)
    have hv : KeepsBelow auditKeys s v := by
      unfold v
      split
      · exact hu.trans (wrAt_keepsBelow u _ _ _ _ (by decide))
      · exact hu
    exact hv.of_regs rfl

theorem auditTrim_keepsBelow (cap fuel : Nat) (s : State) : KeepsBelow auditKeys s (s.auditTrim cap fuel) := by
  induction fuel generalizing s with
  | zero => exact .refl _ s
  | succ fuel ih =>
    rw [State.auditTrim]
    split
    · exact (auditDrop_keepsBelow s).trans (ih s.auditDrop)
    · exact .refl _ s

theorem auditFit_keepsBelow (s : State) : KeepsBelow auditKeys s s.auditFit :=
  (auditTrim_keepsBelow _ _ s).trans (auditTrim_keepsBelow _ _ _)

theorem audit_keepsBelow (s : State) (cat : Nat) (ev : Ev) (inst : Nat) (args : List Nat) (firmware : Bool) :
    KeepsBelow auditKeys s (s.audit cat ev inst args firmware) := by
  unfold State.audit
  extract_lets seq r
  have hregs := (KeepsBelow.refl auditKeys s).of_regs (updAlm_regs s fun a =>
      { a with audit := a.audit ++ [r], auditLast := seq, auditLoss := false })
  exact hregs.trans (auditFit_keepsBelow _)

theorem audit_rdAt {s : State} (hs : s.fileOk) {f : RegField} {i j : Nat} (hk : f.key i j < auditKeys) (cat : Nat) (ev : Ev) (inst : Nat)
    (args : List Nat) (firmware : Bool) : (s.audit cat ev inst args firmware).rdAt f i j = s.rdAt f i j :=
  (audit_keepsBelow s cat ev inst args firmware hs).2 f i j hk

/-! ### FAULT_RELEASE (R443) -/

theorem rdBit_wrBit_false {s : State} (hs : s.fileOk) (f : RegField) (i k : Nat) : (s.wrBit f i k false).rdBit f i k = false := by
  rw [State.rdBit, rd_eq, State.wrBit, wr_eq, rdAt_wrAt s f i 0 _ hs]
  simp only [RegField.trunc, Bool.false_eq_true, if_false, BitVec.getLsbD_and, BitVec.getLsbD_not]
  by_cases hk : k < 32
  · rw [BitVec.getLsbD_ofNat 32 (2 ^ k), Nat.testBit_two_pow_self]
    simp [hk]
  · simp [BitVec.getLsbD_of_ge _ _ (Nat.not_lt.1 hk)]

/-- The latch of a fault type is released, with a record. -/
def latchReleased (s : State) (ft i : Nat) : State :=
  (s.wrBit Reg.flt_FLT_LATCH (fltBlk ft i) (fltIdx ft) false).audit 1 .faultRelease i [ft, i]

theorem latchReleased_frame (s : State) (ft i : Nat) :
    latchReleased s ft i = { s with regs := (latchReleased s ft i).regs, alm := (latchReleased s ft i).alm } :=
  audit_frame (s.wrBit Reg.flt_FLT_LATCH (fltBlk ft i) (fltIdx ft) false) 1 .faultRelease i [ft, i] false

theorem latchReleased_rdBit {s : State} (hs : s.fileOk) {ft i : Nat} (hb : fltBlk ft i < 270) :
    (latchReleased s ft i).rdBit Reg.flt_FLT_LATCH (fltBlk ft i) (fltIdx ft) = false := by
  have hs' : (s.wrBit Reg.flt_FLT_LATCH (fltBlk ft i) (fltIdx ft) false).fileOk := wrAt_rising _ _ _ _ _ hs
  have hk : Reg.flt_FLT_LATCH.key (fltBlk ft i) 0 < auditKeys := by
    simp only [RegField.key, Reg.flt_FLT_LATCH, auditKeys]
    omega
  have hrd := audit_rdAt hs' hk 1 .faultRelease i [ft, i] false
  exact (congrArg (fun w : Word => w.getLsbD (fltIdx ft)) hrd).trans (rdBit_wrBit_false hs _ _ _)

theorem execFaultRelease_checks (ch : Fin 64) (s : State) :
    ∃ act, exec (.faultRelease ch) s = .next (s.huskReq ch 0x60 [1] act) ∧
      ∀ (reg : Nat → Nat) (who : Nat) (x : State) (ft i : Nat), reg 1 = ft + 65536 * i → ft < 65536 → i < 256 → faultKnown ft i = true →
        (ft = 0x0101 ∨ x.rdBit Reg.flt_FLT_LATCH (fltBlk ft i) (fltIdx ft) = false → act reg who x = (x, some (2, 0))) ∧
        (ft ≠ 0x0101 → x.rdBit Reg.flt_FLT_LATCH (fltBlk ft i) (fltIdx ft) = true → x.flt.quiet.contains (ft, i) = false →
          act reg who x = (latchReleased x ft i, some (0, 0))) := by
  refine ⟨_, rfl, fun reg who x ft i hreg hft hi hknown => ?_⟩
  dsimp only
  rw [hreg, show (ft + 65536 * i) % 65536 = ft by omega, show (ft + 65536 * i) / 65536 % 256 = i by omega,
    if_neg (show ¬ (2 ^ 24 ≤ ft + 65536 * i ∨ faultKnown ft i = false) by rintro (h | h); exacts [by omega, by simp [hknown] at h])]
  refine ⟨fun h => if_pos h, fun hne hlatch hquiet => ?_⟩
  rw [if_neg (by rw [hlatch]; rintro (h | h); exacts [hne h, Bool.false_ne_true h.symm])]
  have hflt : (latchReleased x ft i).flt.quiet.contains (ft, i) = false := by rw [latchReleased_frame]; exact hquiet
  exact Prod.ext (if_neg (by rw [← latchReleased, hflt]; exact Bool.false_ne_true)) rfl

theorem faultRelease_latched (s : State) (ch : Fin 64) (ft i : Nat) (hlo : 40 ≤ ch.val) (hf : s.fileOk) (hask : s.huskAsks ch 0x60 [1])
    (hft : ft < 65536) (hi : i < 256) (h1 : s.mbWord ch 0 1 = ft + 65536 * i) (hknown : faultKnown ft i = true) (hb : fltBlk ft i < 270)
    (hne : ft ≠ 0x0101) (hlatch : s.rdBit Reg.flt_FLT_LATCH (fltBlk ft i) (fltIdx ft) = true)
    (hquiet : s.flt.quiet.contains (ft, i) = false) :
    ∃ t, exec (.faultRelease ch) s = .next t ∧ t.huskAnswered ch 0x60 0 0 ∧
      t.rdBit Reg.flt_FLT_LATCH (fltBlk ft i) (fltIdx ft) = false ∧ t.alm.auditLast = s.alm.auditLast + 1 ∧
      t.flt = s.flt ∧ t.mem = s.mem := by
  have hge : 16 ≤ ch.val := by omega
  obtain ⟨hregs, hmem, -, halm, hflt, -⟩ := huskTaken_same hge s
  have hf' : (huskTaken s ch).fileOk := by rw [State.fileOk, hregs]; exact hf
  have hrd : (huskTaken s ch).rdBit Reg.flt_FLT_LATCH (fltBlk ft i) (fltIdx ft) = true := by
    rw [← hlatch, State.rdBit, State.rd, State.rdAt, hregs]; rfl
  obtain ⟨act, hexec, hact⟩ := execFaultRelease_checks ch s
  have hact := (hact (s.mbWord ch 0) (s.mb ch 0).sender.toNat (huskTaken s ch) ft i h1 hft hi hknown).2 hne hrd (by rw [hflt, hquiet])
  obtain ⟨hans, v, hv⟩ := huskReq_answers hlo ch.isLt hask (by decide) hact (by rw [latchReleased_frame]) (by rw [latchReleased_frame])
    (by decide) (by decide) (by decide)
  have hlast : (latchReleased (huskTaken s ch) ft i).alm.auditLast = s.alm.auditLast + 1 := by
    rw [latchReleased, audit_auditLast]
    exact congrArg (fun a => a.auditLast + 1) halm
  refine ⟨_, hexec, hans, ?_⟩
  rw [hv]
  refine ⟨latchReleased_rdBit hf' hb, hlast, ?_, ?_⟩
  · rw [latchReleased_frame]
    exact hflt
  · rw [latchReleased_frame]
    exact hmem

theorem faultRelease_refused (s : State) (ch : Fin 64) (ft i : Nat) (hlo : 40 ≤ ch.val) (hask : s.huskAsks ch 0x60 [1])
    (hft : ft < 65536) (hi : i < 256) (h1 : s.mbWord ch 0 1 = ft + 65536 * i) (hknown : faultKnown ft i = true)
    (h : ft = 0x0101 ∨ s.rdBit Reg.flt_FLT_LATCH (fltBlk ft i) (fltIdx ft) = false) :
    ∃ t, exec (.faultRelease ch) s = .next t ∧ t.huskAnswered ch 0x60 2 0 ∧ t.regs = s.regs ∧ t.flt = s.flt ∧ t.alm = s.alm := by
  have hge : 16 ≤ ch.val := by omega
  obtain ⟨hregs, -, -, halm, hflt, -⟩ := huskTaken_same hge s
  have hrd : (huskTaken s ch).rdBit Reg.flt_FLT_LATCH (fltBlk ft i) (fltIdx ft) = s.rdBit Reg.flt_FLT_LATCH (fltBlk ft i) (fltIdx ft) := by
    rw [State.rdBit, State.rd, State.rdAt, hregs]; rfl
  obtain ⟨act, hexec, hact⟩ := execFaultRelease_checks ch s
  have hact := (hact (s.mbWord ch 0) (s.mb ch 0).sender.toNat (huskTaken s ch) ft i h1 hft hi hknown).1 (by rwa [hrd])
  obtain ⟨hans, v, hv⟩ := huskReq_answers hlo ch.isLt hask (by decide) hact rfl rfl (by decide) (by decide) (by decide)
  refine ⟨_, hexec, hans, ?_⟩
  rw [hv]
  exact ⟨hregs, hflt, halm⟩

/-- Settles O15: a request that Husk refuses leaves it with the request taken and answered, and nothing else; an accepted one is followed
through its own action between the two. -/
theorem huskAnswers : Obligations.HuskAnswers := by
  refine ⟨fun s ch hlo hfree hnext hc => ⟨unknownOpcode s ch hlo hfree hnext hc, floorRaise_register s ch hlo hfree hnext hc, ?_⟩,
    fun s ch hlo => ⟨liveSet_therm s ch hlo, liveSet_gran s ch hlo, ?_⟩, fun s ch ft i hlo hf hask hft hi h1 hknown hb => ⟨?_, ?_⟩⟩
  · intro h0 h1 hsmall hrest
    refine warmReset_code s ch hlo ⟨hfree, hnext, hc, h0, fun i hi hi' hl => hrest i ?_ hi'⟩ h1
    have : i ≠ 1 := fun h => hl (h ▸ List.mem_singleton.2 rfl)
    omega
  · intro hask a n h8 hmin hmax hhead hall
    exact livePatch_status s ch a n hlo hask rfl rfl h8 hmin hmax hhead hall
  · exact faultRelease_latched s ch ft i hlo hf hask hft hi h1 hknown hb
  · exact faultRelease_refused s ch ft i hlo hask hft hi h1 hknown

end Sys2Proof.Proofs

namespace Sys2Proof.Proofs
open Sys2Proof.Machine Sys2Proof.Laws

/-! ## A round that clears its own counter (R417)

Neither `State.fileOk` nor `State.bindsOk` bounds the decoder that a recovery record names. `State.decFree` frees a decoder by clearing its
four registers, and the copy of a number far past the last decoder is a copy of other fields: the record below names the copy of pool_BUSY
that is HK_ROUND_CNT. -/

/-- A recovery record of actuator 0 whose decoder lies past the decoders. -/
def strayRecord : RecRecord where
  n := ⟨0, 0, false, 0, 0, 0, false, true, 0, 0, 0, 0, none, 0, 0, 0, 0, 0⟩
  stamp := 0
  step := 0
  rereads := 0
  ready := false
  decoder := some ((Reg.therm_HK_ROUND_CNT.id - Reg.pool_BUSY.id) * 0x100000)
  deadline := none
  limited := false
  superseded := false
  reads := []
  early := []

/-- One HDA with its two actuators, both on engine 0. -/
def oneHda : Structure := { Structure.recovery with ports := [(0, ⟨4, 1, 0, 3, 0, 0, 0, 0, 0⟩)], binds := [(0, 0), (1, 0)] }

/-- Five rounds have run, and channel 80 has been out of its limits for the last two; a channel limit fault stops the actuators (R420,
R445). T_TRIM puts the sensors at 0 degrees. -/
def thirdOverrun : State :=
  let s := ((((((State.reset.wr Reg.status_LOCKED 0 1).wr Reg.frt_FRT_CNT 0 1).wr Reg.frt_FTYPE 0 0x0C03).wr Reg.frt_REACT 0 2).wrAt
    Reg.therm_HK_HI 0 80 1).wr Reg.therm_HK_ROUND_CNT 0 5).wr Reg.therm_T_TRIM 0 21333
  { s with
    phase := .locked
    cfg := some oneHda
    pool := { s.pool with records := [strayRecord] }
    thm := { s.thm with limRuns := List.replicate 80 0 ++ [2] } }

/-- Every sensor at its middle count, and 10 mV on channel 80. -/
def overrun : RoundObs := ⟨List.replicate 16 8000, [10], [], false⟩

theorem decFree_clears_round_count : strayRecord.decoder.map (fun d => Reg.pool_BUSY.key 0 d) = some (Reg.therm_HK_ROUND_CNT.key 0 0) := by
  decide

theorem thirdOverrun_allowed :
    thirdOverrun.fileOk ∧ thirdOverrun.bindsOk ∧ thirdOverrun.locked = true ∧ thirdOverrun.alm.us64.toNat + 1000 < 2 ^ 64 ∧
      thirdOverrun.alm.usec < hourUs ∧ thirdOverrun.host.cmds = [] ∧ thirdOverrun.thm.runs = [] := by decide +kernel

/-- A round that does not overlap the last one (R417). -/
theorem exec_housekeepingRound {s : State} {o : RoundObs} (hl : s.locked = true) (hp : o.previousRunning = false) :
    exec (.housekeepingRound o) s = .next ((s.passUs (1000 - s.alm.us64.toNat % 1000)).round o) := by
  have hstep : exec (.housekeepingRound o) s = .next (if s.locked = false then s else
      let s := s.passUs (1000 - s.alm.us64.toNat % 1000)
      if o.previousRunning then s.bump Reg.therm_HK_SKIP_CNT 0 else s.round o) := rfl
  rw [hstep, hl, hp]
  rfl

theorem thirdOverrun_round_count :
    thirdOverrun.rdN Reg.therm_HK_ROUND_CNT 0 = 5 ∧
      ((thirdOverrun.passUs (1000 - thirdOverrun.alm.us64.toNat % 1000)).round overrun).rdN Reg.therm_HK_ROUND_CNT 0 = 1 := by
  decide +kernel

/-- Refutes O51: the fault of the round's own limit check (R420) stops actuator 0 and with it the work on a record that names a decoder
past the last one; its registers are cleared, HK_ROUND_CNT among them, so the sixth round is counted as the first. -/
theorem not_housekeepingRounds : ¬ Obligations.HousekeepingRounds := by
  unfold Obligations.HousekeepingRounds
  intro h
  obtain ⟨hfile, hbinds, hlocked, hus, husec, hcmds, hruns⟩ := thirdOverrun_allowed
  obtain ⟨-, hround⟩ := (h thirdOverrun overrun hfile hbinds).2 hlocked hus husec
  obtain ⟨t, ht, -, hcount, -⟩ := hround rfl hcmds hruns
  obtain ⟨hbefore, hafter⟩ := thirdOverrun_round_count
  rw [exec_housekeepingRound hlocked rfl, Host.Outcome.next.injEq] at ht
  rw [← ht, hafter, hbefore] at hcount
  exact absurd hcount (by decide)

end Sys2Proof.Proofs

namespace Sys2Proof.Proofs
open Sys2Proof.Machine Sys2Proof.Laws

/-! ## What a fault leaves alone

A fault may stop any actuator and any HDA, and the registers it writes are of fields that come after the status of the ports. So the port
status, and Granary, read as before (R437), and SAFE_n can only fall (R439). -/

/-- The keys of PORT_BOUND and PORT_CAUSE, and of every field before them. -/
def portStatusKeys : Nat := 14 * 0x100000

/-- What one shared operation after another leaves alone. -/
def stillOf (regs : List (Nat × Word)) (gran : GranSt) (safeN : BitVec 32) : List (Nat × Word) × GranSt × BitVec 32 :=
  (regs.filter (fun p => decide (p.1 < portStatusKeys)), gran, safeN)

/-- The registers up to the status of the ports, Granary and SAFE_n. -/
abbrev still (s : State) : List (Nat × Word) × GranSt × BitVec 32 := stillOf s.regs s.gran s.safeN

theorem filter_write {l : List (Nat × Word)} {k b : Nat} (hk : b ≤ k) (d v : Word) :
    (Sparse.write l k d v).filter (fun p => decide (p.1 < b)) = l.filter (fun p => decide (p.1 < b)) := by
  have hout (x : Word) : decide ((k, x).1 < b) = false := decide_eq_false (Nat.not_lt.2 hk)
  induction l with
  | nil =>
    rw [Sparse.write]
    split <;> simp [hout]
  | cons p l ih =>
    obtain ⟨k', v'⟩ := p
    rw [Sparse.write]
    split
    · next h =>
      subst h
      split <;> simp [hout]
    split
    · split <;> simp [List.filter_cons, hout]
    · simp [List.filter_cons, ih]

theorem read_filter {l : List (Nat × Word)} {k b : Nat} (hk : k < b) (d : Word) {lo : Nat} (h : Sparse.rising lo l = true) :
    Sparse.read (l.filter (fun p => decide (p.1 < b))) k d = Sparse.read l k d := by
  induction l generalizing lo with
  | nil => rfl
  | cons p l ih =>
    obtain ⟨k', v'⟩ := p
    simp only [Sparse.rising, Bool.and_eq_true, decide_eq_true_eq] at h
    obtain ⟨-, hl⟩ := h
    by_cases hin : k' < b
    · simp [Sparse.read, hin, ih hl]
    · have hlt : k < k' := by omega
      rw [List.filter_cons_of_neg (by simpa using hin), ih hl, read_below l (k' + 1) k d hl (by omega), Sparse.read,
        if_neg (by omega), if_pos hlt]

theorem foldl_still {α : Type} (l : List α) (f : State → α → State) (s : State) (h : ∀ s a, still (f s a) = still s) :
    still (l.foldl f s) = still s := by
  induction l generalizing s with
  | nil => rfl
  | cons a l ih => rw [List.foldl_cons, ih, h]

theorem wrAt_still (s : State) (f : RegField) (i j : Nat) (v : Word) (hf : 14 ≤ f.id) : still (s.wrAt f i j v) = still s := by
  have hk : portStatusKeys ≤ f.key i j := by
    unfold portStatusKeys RegField.key
    omega
  exact congrArg (fun x => (x, s.gran, s.safeN)) (filter_write hk _ _)

theorem wr_still (s : State) (f : RegField) (i : Nat) (v : Word) (hf : 14 ≤ f.id) : still (s.wr f i v) = still s := wrAt_still s f i 0 v hf
theorem wrN_still (s : State) (f : RegField) (i v : Nat) (hf : 14 ≤ f.id) : still (s.wrN f i v) = still s := wrAt_still s f i 0 _ hf
theorem wrB_still (s : State) (f : RegField) (i : Nat) (v : Bool) (hf : 14 ≤ f.id) : still (s.wrB f i v) = still s :=
  wrAt_still s f i 0 _ hf
theorem wrBit_still (s : State) (f : RegField) (i k : Nat) (v : Bool) (hf : 14 ≤ f.id) : still (s.wrBit f i k v) = still s :=
  wrAt_still s f i 0 _ hf
theorem bumpBy_still (s : State) (f : RegField) (i j n : Nat) (hf : 14 ≤ f.id) : still (s.bumpBy f i j n) = still s :=
  wrAt_still s f i j _ hf
theorem bump_still (s : State) (f : RegField) (i : Nat) (hf : 14 ≤ f.id) : still (s.bump f i) = still s := wrAt_still s f i 0 _ hf

/-! ### A trace record (R450) -/

/-- A write of less than a line clears no poison (R396). -/
theorem clearPoison_gran {a n : Nat} (hn : n < 128) (s : State) : (s.clearPoison a n).gran = s.gran := by
  have hkept : s.gran.poison.filter (fun l => !(a ≤ 128 * l && 128 * l + 128 ≤ a + n)) = s.gran.poison := by
    refine List.filter_eq_self.2 fun l _ => ?_
    simp only [Bool.not_eq_true', Bool.and_eq_false_iff, decide_eq_false_iff_not]
    omega
  rw [State.clearPoison, hkept]

theorem pages_le {a n fuel k : Nat} {p : Nat × Nat × Nat} (h : p ∈ pages a n fuel k) : p.2.2 ≤ n := by
  induction fuel generalizing a n k with
  | zero => cases h
  | succ fuel ih =>
    rw [pages] at h
    split at h
    · cases h
    · cases h with
      | head => exact Nat.min_le_left _ _
      | tail _ h => exact (ih h).trans (Nat.sub_le _ _)

theorem foldl_still_of_mem {α : Type} (l : List α) (f : State → α → State) (s : State) (h : ∀ s, ∀ a ∈ l, still (f s a) = still s) :
    still (l.foldl f s) = still s := by
  induction l generalizing s with
  | nil => rfl
  | cons a l ih =>
    rw [List.foldl_cons, ih _ (fun s x hx => h s x (List.mem_cons_of_mem _ hx)), h s a List.mem_cons_self]

theorem dmaWrite_still {b : List Byte} (hb : b.length < 128) (s : State) (who : Nat) (sec : Bool) (a : Nat) :
    still (s.dmaWrite who sec a b) = still s := by
  refine foldl_still_of_mem _ _ _ fun s p hp => ?_
  have hn : p.2.2 < 128 := (pages_le hp).trans_lt hb
  split
  · rfl
  · exact congrArg (fun g => stillOf s.regs g s.safeN) (clearPoison_gran hn (s.wake 7))

theorem length_toLe (n v : Nat) : (toLe n v).length = n := by
  induction n generalizing v with
  | zero => rfl
  | succ n ih => rw [toLe, List.length_cons, ih]

theorem length_recBytes (r : Rec) (cls : Nat) : (r.bytes cls).length = 64 := by
  simp [Rec.bytes, length_toLe]

theorem updAlm_still (s : State) (f : AlmSt → AlmSt) : still (s.updAlm f) = still s := rfl

theorem trace_still (s : State) (src : Nat) (ev : Ev) (inst : Nat) (args : List Nat) (firmware : Bool) :
    still (s.trace src ev inst args firmware) = still s := by
  unfold State.trace
  extract_lets n
  split
  · split
    · rw [updAlm_still]
      exact dmaWrite_still (by rw [length_recBytes]; decide) s _ _ _
    · rfl
  · rfl

/-! ### The operations of a fault -/

theorem auditDrop_still (s : State) : still s.auditDrop = still s := by
  grind [State.auditDrop, bump_still, bumpBy_still, updAlm_still, Reg.alm_NOR_DROP_CNT, Reg.alm_SNAP_BREAK_CNT]

theorem auditTrim_still (s : State) (cap fuel : Nat) : still (s.auditTrim cap fuel) = still s := by
  induction fuel generalizing s with
  | zero => rfl
  | succ fuel ih => grind [State.auditTrim, auditDrop_still]

end Sys2Proof.Proofs

namespace Sys2Proof.Proofs
open Sys2Proof.Machine Sys2Proof.Laws

theorem auditFit_still (s : State) : still (s.auditFit) = still s := by
  grind [State.auditFit, auditTrim_still]

theorem audit_still (s : State) (cat : Nat) (ev : Ev) (inst : Nat) (args : List Nat) (firmware : Bool) : still (s.audit cat ev
    inst args firmware) = still s := by
  grind [State.audit, auditFit_still, updAlm_still]

theorem emit_still (s : State) (o : Output) : still (s.emit o) = still s := by
  grind [State.emit]

theorem updPort_still (s : State) (h : Nat) (f : PortSt → PortSt) : still (s.updPort h f) = still s := rfl

theorem ctlOut_still (s : State) (h op side : Nat) (b : List Nat) : still (s.ctlOut h op side b) = still s := by
  grind [State.ctlOut, emit_still, updPort_still, wrN_still, Reg.port_CRED_CTL]

theorem ctl_still (s : State) (h op side : Nat) (b : List Nat) : still (s.ctl h op side b) = still s := by
  grind [State.ctl, ctlOut_still, updPort_still]

theorem violate_still (s : State) (id addr : Nat) (wr dom : Bool) : still (s.violate id addr wr dom) = still s := by
  grind [State.violate]

theorem wake_still (s : State) (i : Nat) : still (s.wake i) = still s := by
  grind [State.wake]

theorem setMode_still (s : State) (g m : Nat) : still (s.setMode g m) = still s := by
  grind [State.setMode, trace_still, wrN_still, Reg.loop_MODE, Reg.unit_ACTIVE_CNT]

theorem laserManual_still (s : State) (n : Nat) : still (s.laserManual n) = still s := by
  grind [State.laserManual, setMode_still, wr_still, Reg.loop_MAN_OUT, Reg.loop_U, Reg.loop_Y, Reg.wa_LASER_AUTO]

theorem updAct_still (s : State) (n : Nat) (f : ActSt → ActSt) : still (s.updAct n f) = still s := rfl

theorem gateClose_still (s : State) (n cause : Nat) : still (s.gateClose n cause) = still s := by
  grind [State.gateClose, bump_still, ctl_still, laserManual_still, trace_still, updAct_still, wr_still, wrN_still,
    Reg.wa_CLOSE_CAUSE, Reg.wa_CLOSE_CNT, Reg.wa_GATE_OPEN]

theorem faultArose_still (s was : State) : still (s.faultArose was) = still s := by
  grind [State.faultArose, gateClose_still, foldl_still]

theorem updFlt_still (s : State) (f : FaultSt → FaultSt) : still (s.updFlt f) = still s := rfl

theorem faultAudit_still (s : State) (ftype inst : Nat) (info : Word) : still (s.faultAudit ftype inst info) = still s := by
  grind [State.faultAudit, audit_still, updFlt_still]

theorem guarantee_still (s : State) (high low who : Nat) : still (s.guarantee high low who) = still s := by
  grind [State.guarantee, audit_still]

theorem breaksFor_still (s : State) (n high : Nat) (lows : List Nat) : still (s.breaksFor n high lows) = still s := by
  grind [State.breaksFor, guarantee_still, foldl_still]

theorem updLoop_still (s : State) (g : Nat) (f : LoopSt → LoopSt) : still (s.updLoop g f) = still s := rfl

theorem loopSafe_still (s : State) (g cause : Nat) : still (s.loopSafe g cause) = still s := by
  grind [State.loopSafe, setMode_still, updLoop_still, wr_still, wrN_still, Reg.loop_I, Reg.loop_SAFE_CAUSE, Reg.loop_TUNE_ST]

theorem hdaLoopsSafe_still (s : State) (h cause : Nat) : still (s.hdaLoopsSafe h cause) = still s := by
  grind [State.hdaLoopsSafe, loopSafe_still, foldl_still]

theorem motor_still (s : State) (h mode : Nat) (duty : List Nat) (t1 t2 : Nat) (shift : List Int) : still (s.motor h mode duty t1
    t2 shift) = still s := by
  grind [State.motor, ctl_still]

theorem motorOff_still (s : State) (h : Nat) : still (s.motorOff h) = still s := by
  grind [State.motorOff, motor_still]

theorem spinState_still (s : State) (h st : Nat) : still (s.spinState h st) = still s := by
  grind [State.spinState, trace_still, wr_still, wrB_still, wrBit_still, wrN_still, Reg.spindle_FW_ACTIVE, Reg.spindle_LOCKED,
    Reg.spindle_OBS_VALID, Reg.spindle_SPIN_STATE, Reg.status_SPIN_LOCKED]

theorem updSpin_still (s : State) (h : Nat) (f : SpinSt → SpinSt) : still (s.updSpin h f) = still s := rfl

theorem spindleCoast_still (s : State) (h : Nat) : still (s.spindleCoast h) = still s := by
  grind [State.spindleCoast, motorOff_still, spinState_still, updSpin_still]

theorem updLane_still (s : State) (l : Nat) (f : LaneSt → LaneSt) : still (s.updLane l f) = still s := rfl

theorem capsFree_still (s : State) (n : Nat) (cs : List Nat) : still (s.capsFree n cs) = still s := by
  grind [State.capsFree, updLane_still, wrN_still, Reg.lane_RING_WAIT, Reg.thresh_CAP_FREE]

theorem slotFree_still (s : State) (e i : Nat) : still (s.slotFree e i) = still s := by
  grind [State.slotFree, wrAt_still, wrN_still, Reg.engine_OPEN_CNT, Reg.engine_SLOT_OPEN]

theorem withdrawSetpoints_still (s : State) (n : Nat) (ep : BitVec 16) : still (s.withdrawSetpoints n ep) = still s := by
  grind [State.withdrawSetpoints, updAct_still, updLoop_still, wrB_still, wrN_still, Reg.demod_FRAME_PERIOD, Reg.demod_MISS_RUN,
    Reg.demod_POS, Reg.demod_RAD_OFS, Reg.demod_SEL_HEAD, Reg.demod_SPEC_TARGET, Reg.spf_SP_DECEL, Reg.spf_SP_DEPTH]

theorem chaffSlot_still (s : State) (n i : Nat) : still (s.chaffSlot n i) = still s := by
  grind [State.chaffSlot, bumpBy_still, capsFree_still, slotFree_still, trace_still, updAct_still, withdrawSetpoints_still,
    wrB_still, Reg.engine_OP_BUSY, Reg.pcie_DISC_SPEC_CNT]

theorem chaffAll_still (s : State) (n : Nat) : still (s.chaffAll n) = still s := by
  grind [State.chaffAll, chaffSlot_still, foldl_still]

theorem endWork_still (s : State) (n : Nat) : still (s.endWork n) = still s := by
  grind [State.endWork, updAct_still, wr_still, Reg.engine_OP_BUSY]

theorem decFree_still (s : State) (d : Nat) : still (s.decFree d) = still s := by
  grind [State.decFree, wrAt_still, Reg.pool_ACT, Reg.pool_BUSY, Reg.pool_SLOT, Reg.pool_STEP]

theorem laneStop_still (s : State) (n : Nat) : still (s.laneStop n) = still s := by
  grind [State.laneStop, capsFree_still, decFree_still, updLane_still, wr_still, wrN_still, Reg.lane_RING_WAIT,
    Reg.thresh_NOTICE_PEND, foldl_still]

theorem loopActionEnd_still (s : State) (g : Nat) : still (s.loopActionEnd g) = still s := by
  grind [State.loopActionEnd, setMode_still, updLoop_still, wr_still, Reg.loop_I]

theorem loopOut_still (s : State) (n item : Nat) (v frame : Word) (tick : Nat) : still (s.loopOut n item v frame tick) = still s
    := by
  grind [State.loopOut, ctl_still]

theorem loopSafeAction_still (s : State) (g cause : Nat) : still (s.loopSafeAction g cause) = still s := by
  grind [State.loopSafeAction, gateClose_still, loopActionEnd_still, loopOut_still, setMode_still, spindleCoast_still,
    updLoop_still, wr_still, wrN_still, Reg.loop_I, Reg.loop_MA_HOLD, Reg.loop_SAFE_CAUSE, Reg.loop_SAFE_RATE, Reg.loop_TUNE_ST,
    Reg.loop_Y]

theorem stopAct_still (s : State) (n : Nat) : still (s.stopAct n) = still s := by
  grind [State.stopAct, chaffAll_still, endWork_still, gateClose_still, laneStop_still, loopSafeAction_still, updAct_still]

theorem updHusk_still (s : State) (f : Husk → Husk) : still (s.updHusk f) = still s := rfl

theorem ackRefresh_still (s : State) : still (s.ackRefresh) = still s := by
  grind [State.ackRefresh, wrN_still, Reg.dis_ACK_GRAINS, foldl_still]

theorem bufRefresh_still (s : State) : still (s.bufRefresh) = still s := by
  grind [State.bufRefresh, ackRefresh_still, wrN_still, Reg.qce_BUF_FREE, Reg.qce_BUF_LOW, foldl_still]

theorem mqRefresh_still (s : State) (n : Nat) : still (s.mqRefresh n) = still s := by
  grind [State.mqRefresh, updAct_still, wrAt_still, wrN_still, Reg.engine_CLASS_SEL, Reg.engine_MQ_CLASS_CNT,
    Reg.engine_MQ_VALID, foldl_still]

theorem mqDrop_still (s : State) (n : Nat) (p : MqEntry → Bool) : still (s.mqDrop n p) = still s := by
  grind [State.mqDrop, mqRefresh_still, updAct_still]

theorem updHost_still (s : State) (f : HostSt → HostSt) : still (s.updHost f) = still s := rfl

theorem cmdMqDrop_still (s : State) (c : Cmd) : still (s.cmdMqDrop c) = still s := by
  grind [State.cmdMqDrop, mqDrop_still, updHost_still]

theorem unpin_still (s : State) (slot : Nat) : still (s.unpin slot) = still s := by
  grind [State.unpin, updHost_still]

theorem updCmd_still (s : State) (slot : Nat) (f : Cmd → Cmd) : still (s.updCmd slot f) = still s := rfl

theorem updPool_still (s : State) (f : PoolSt → PoolSt) : still (s.updPool f) = still s := rfl

theorem abortWork_still (s : State) (c : Cmd) : still (s.abortWork c) = still s := by
  grind [State.abortWork, bufRefresh_still, chaffSlot_still, cmdMqDrop_still, endWork_still, mqRefresh_still, unpin_still,
    updAct_still, updCmd_still, updHost_still, updPool_still]

theorem msixSend_still (s : State) (v : Nat) : still (s.msixSend v) = still s := by
  grind [State.msixSend, emit_still, updHost_still]

theorem cqIrq_still (s : State) (q : Cq) : still (s.cqIrq q) = still s := by
  grind [State.cqIrq, msixSend_still, updHost_still, foldl_still]

theorem cqPost_still (s : State) (c : Cmd) (q : Cq) (status : Nat) (dw0 dw1 : Word) : still (s.cqPost c q status dw0 dw1) = still
    s := by
  grind [State.cqPost, cqIrq_still, emit_still, updHost_still]

theorem slotDrop_still (s : State) (slot : Nat) : still (s.slotDrop slot) = still s := by
  grind [State.slotDrop, bufRefresh_still, mqDrop_still, unpin_still, updHost_still, wrN_still, Reg.qce_SLOT_USED, foldl_still]

theorem complete_still (s : State) (slot status : Nat) (dw0 dw1 : Word) : still (s.complete slot status dw0 dw1) = still s := by
  grind [State.complete, cmdMqDrop_still, cqPost_still, slotDrop_still, updCmd_still]

theorem failActs_still (s : State) (n status : Nat) : still (s.failActs n status) = still s := by
  grind [State.failActs, abortWork_still, complete_still, foldl_still]

theorem failHeld_still (s : State) : still (s.failHeld) = still s := by
  grind [State.failHeld, failActs_still, foldl_still]
end Sys2Proof.Proofs

namespace Sys2Proof.Proofs
open Sys2Proof.Machine Sys2Proof.Laws

/-! ### Reactions (R437) -/

/-- From `s` to `t` the registers up to the status of the ports and Granary stay, and SAFE_n rises on no HDA. -/
structure Lowered (s t : State) : Prop where
  regs : (still t).1 = (still s).1
  gran : t.gran = s.gran
  safeN : ∀ h, t.safeN.getLsbD h = true → s.safeN.getLsbD h = true

theorem Lowered.of_still {s t : State} (h : still t = still s) : Lowered s t where
  regs := congrArg Prod.fst h
  gran := congrArg (fun x => x.2.1) h
  safeN i hi := by
    have hsafe : t.safeN = s.safeN := congrArg (fun x => x.2.2) h
    rwa [hsafe] at hi

theorem Lowered.refl (s : State) : Lowered s s := .of_still rfl

theorem Lowered.trans {s t u : State} (h : Lowered s t) (k : Lowered t u) : Lowered s u :=
  ⟨k.regs.trans h.regs, k.gran.trans h.gran, fun i hi => h.safeN i (k.safeN i hi)⟩

theorem foldl_lowered {α : Type} (l : List α) (f : State → α → State) (s : State) (h : ∀ s a, Lowered s (f s a)) :
    Lowered s (l.foldl f s) := by
  induction l generalizing s with
  | nil => exact .refl s
  | cons a l ih => exact (h s a).trans (ih _)

theorem safeLow_lowered (s : State) (h reason : Nat) : Lowered s (s.safeLow h reason) := by
  unfold State.safeLow
  extract_lets u
  have hu : Lowered s u := ⟨rfl, rfl, fun i hi => by
    simp only [u, BitVec.getLsbD_and, Bool.and_eq_true] at hi
    exact hi.1⟩
  split
  · exact hu.trans (.of_still (by rw [updPort_still, ctl_still]))
  · exact hu

/-- An actuator that is stopped (R437). -/
theorem reactAct_still (s : State) (r n : Nat) :
    still (if r = 2 ∧ s.ackGrains n ≠ 0 then ((s.stopAct n).breaksFor n 1 [5, 6, 7]).guarantee 1 2 n
      else (s.stopAct n).breaksFor n 1 [5, 6, 7]) = still s := by
  grind [stopAct_still, breaksFor_still, guarantee_still]

theorem react_lowered (s : State) (r reason : Nat) (acts : BitVec 64) (hdas : BitVec 32) :
    Lowered s (s.react r reason acts hdas) := by
  unfold State.react
  extract_lets u
  have hu : Lowered s u := by
    unfold u
    split
    · refine foldl_lowered _ _ _ fun s n => ?_
      split
      · exact .of_still (reactAct_still s r n)
      · exact .refl s
    · exact .refl s
  split
  · refine hu.trans (foldl_lowered _ _ _ fun s h => ?_)
    split
    · exact (safeLow_lowered s h reason).trans (.of_still (by grind [hdaLoopsSafe_still, spindleCoast_still, guarantee_still]))
    · exact .refl s
  · exact hu

theorem detect_lowered (s : State) (ftype inst : Nat) (info detail : Word) (injected : Bool) :
    Lowered s (s.detect ftype inst info detail injected) := by
  unfold State.detect
  extract_lets b t was v1 v2 v3 v4 v5 v6
  have hshown : still v6 = still s := by
    grind [updFlt_still, wr_still, wrN_still, wrB_still, wrBit_still, bump_still, Reg.flt_FLT_STAT, Reg.flt_FLT_OCC_CNT, Reg.flt_LAST_TYPE,
      Reg.flt_FLT_INFO, Reg.flt_FLT_INJ_SRC, Reg.flt_FLT_ACT]
  split
  next r acts hdas _ =>
  extract_lets held newActs newHdas u1 u2 u3 u4 u5 u6
  have hrecorded : still u2 = still v6 := faultAudit_still u1 _ _ _
  have hlatched : still u5 = still u2 := by
    grind [wrBit_still, audit_still, updAct_still, foldl_still, Reg.flt_FLT_LATCH]
  have hhalted : still u6 = still u5 := by
    grind [updHusk_still]
  have hdetected : still u6 = still s := hhalted.trans (hlatched.trans (hrecorded.trans hshown))
  exact (Lowered.of_still hdetected).trans ((react_lowered _ _ _ _ _).trans (.of_still (faultArose_still _ _)))

theorem raise_lowered (s : State) (ftype inst : Nat) (info : Word) (injected : Bool) : Lowered s (s.raise ftype inst info injected) :=
  (detect_lowered s _ _ _ _ _).trans (.of_still (failHeld_still _))

theorem raise_gran (s : State) (ftype inst : Nat) (info : Word) (injected : Bool) : (s.raise ftype inst info injected).gran = s.gran :=
  (raise_lowered s ftype inst info injected).gran

theorem Lowered.rdAt {s t : State} (h : Lowered s t) (hs : s.fileOk) (ht : t.fileOk) {f : RegField} {i j : Nat}
    (hk : f.key i j < portStatusKeys) : t.rdAt f i j = s.rdAt f i j := by
  have hregs := h.regs
  simp only [stillOf] at hregs
  rw [State.rdAt, State.rdAt, ← read_filter hk _ hs, ← read_filter hk _ ht, hregs]

end Sys2Proof.Proofs

namespace Sys2Proof.Proofs
open Sys2Proof.Machine Sys2Proof.Laws

/-! ## The end of the start

What follows the lock of the structure leaves the phase and Granary alone (R50, R391). -/

/-- The phase and Granary. -/
def settledOf (phase : Phase) (gran : GranSt) : Phase × GranSt := (phase, gran)

abbrev settled (s : State) : Phase × GranSt := settledOf s.phase s.gran

theorem settled_of {s t : State} (hp : t.phase = s.phase) (hg : t.gran = s.gran) : settled t = settled s := by
  rw [settled, settled, hp, hg]

theorem updThm_settled (s : State) (f : ThermSt → ThermSt) : settled (s.updThm f) = settled s := rfl

theorem updMbox_settled (s : State) (ch d : Nat) (f : Mbox → Mbox) : settled (s.updMbox ch d f) = settled s := rfl

theorem settled_eq {s t : State} (h : settled t = settled s) : t.phase = s.phase ∧ t.gran = s.gran := Prod.ext_iff.1 h

theorem gran_of_still {s t : State} (h : still t = still s) : t.gran = s.gran := congrArg (fun x => x.2.1) h

theorem foldl_settled {α : Type} (l : List α) (f : State → α → State) (s : State) (h : ∀ s a, settled (f s a) = settled s) :
    settled (l.foldl f s) = settled s := by
  induction l generalizing s with
  | nil => rfl
  | cons a l ih => rw [List.foldl_cons, ih, h]

theorem bufRefresh_settled (s : State) : settled (s.bufRefresh) = settled s :=
  settled_of (bufRefresh_calm s (calm_refl s)).phase (gran_of_still (bufRefresh_still s))

theorem wr_settled (s : State) (f : RegField) (i : Nat) (v : Word) : settled (s.wr f i v) = settled s := rfl

theorem wrAt_settled (s : State) (f : RegField) (i j : Nat) (v : Word) : settled (s.wrAt f i j v) = settled s := rfl

theorem wr64_settled (s : State) (lo hi : RegField) (i j v : Nat) : settled (s.wr64 lo hi i j v) = settled s := rfl

theorem wrB_settled (s : State) (f : RegField) (i : Nat) (v : Bool) : settled (s.wrB f i v) = settled s := rfl

theorem wrN_settled (s : State) (f : RegField) (i v : Nat) : settled (s.wrN f i v) = settled s := rfl

theorem imageFields_settled (s : State) : settled (s.imageFields) = settled s := by
  grind [State.imageFields, bufRefresh_settled, updThm_settled, wr_settled, wr64_settled, wrAt_settled, wrB_settled, wrN_settled,
    foldl_settled]

theorem audit_settled (s : State) (cat : Nat) (ev : Ev) (inst : Nat) (args : List Nat) (firmware : Bool) : settled (s.audit cat
    ev inst args firmware) = settled s :=
  settled_of (audit_calm s cat ev inst args firmware (calm_refl s)).phase (gran_of_still (audit_still s cat ev inst args
    firmware))

theorem updHusk_settled (s : State) (f : Husk → Husk) : settled (s.updHusk f) = settled s := rfl

theorem strobeStore_settled (s : State) (ok : Bool) : settled (s.strobeStore ok) = settled s := by
  grind [State.strobeStore, audit_settled, updHusk_settled, updThm_settled]

theorem rwlEntry_settled (s : State) (addr value mask : Nat) : settled (s.rwlEntry addr value mask) = settled s := by
  grind [State.rwlEntry, wrAt_settled, foldl_settled]

theorem rwlFields_settled (s : State) : settled (s.rwlFields) = settled s := by
  grind [State.rwlFields, rwlEntry_settled, wrAt_settled, wrN_settled, foldl_settled]

theorem memWins_settled (s : State) : settled (s.memWins) = settled s := by
  grind [State.memWins, foldl_settled]

theorem raise_settled (s : State) (ftype inst : Nat) (info : Word) (injected : Bool) : settled (s.raise ftype inst info injected)
    = settled s :=
  settled_of (raise_calm s ftype inst info injected (calm_refl s)).phase (raise_gran s ftype inst info injected)

theorem fusedPort_settled (s : State) (h : Nat) : settled (s.fusedPort h) = settled s := by
  grind [State.fusedPort, audit_settled, raise_settled, wrAt_settled]

theorem memWrite_settled (s : State) (a : Nat) (b : List Byte) : settled (s.memWrite a b) = settled s := rfl

theorem culmCopy_settled (s : State) : settled (s.culmCopy) = settled s := by
  grind [State.culmCopy, memWrite_settled]

theorem msixSend_settled (s : State) (v : Nat) : settled (s.msixSend v) = settled s :=
  settled_of (msixSend_calm s v (calm_refl s)).phase (gran_of_still (msixSend_still s v))

theorem mbPut_settled (s : State) (ch d : Nat) (f : Mbox → Mbox) : settled (s.mbPut ch d f) = settled s := by
  grind [State.mbPut, msixSend_settled, updMbox_settled, foldl_settled]

theorem mbCross_settled (s : State) (ch : Nat) (newly : Bool) : settled (s.mbCross ch newly) = settled s := by
  grind [State.mbCross, mbPut_settled]

theorem mbData_settled (s : State) (ch d i : Nat) (v : Word) : settled (s.mbData ch d i v) = settled s := by
  grind [State.mbData, mbPut_settled]

theorem mbGo_settled (s : State) (ch d : Nat) (who : Initiator) : settled (s.mbGo ch d who) = settled s := by
  grind [State.mbGo, mbPut_settled, updHusk_settled]

theorem huskSend_settled (s : State) (ch : Nat) (words : List Nat) : settled (s.huskSend ch words) = settled s := by
  grind [State.huskSend, mbCross_settled, mbData_settled, mbGo_settled, foldl_settled]

theorem loadStart_settled (s : State) (ch e : Nat) (obj : List Byte) : settled (s.loadStart ch e obj) = settled s := by
  grind [State.loadStart, huskSend_settled, memWrite_settled, updHusk_settled]

theorem violate_settled (s : State) (id addr : Nat) (wr dom : Bool) : settled (s.violate id addr wr dom) = settled s :=
  settled_of (violate_calm s id addr wr dom (calm_refl s)).phase (gran_of_still (violate_still s id addr wr dom))

theorem dmaReadViol_settled (s : State) (who : Nat) (sec : Bool) (a n : Nat) : settled (s.dmaReadViol who sec a n) = settled s :=
    by
  grind [State.dmaReadViol, violate_settled, foldl_settled]

theorem updAct_settled (s : State) (n : Nat) (f : ActSt → ActSt) : settled (s.updAct n f) = settled s := rfl

theorem engineRun_settled (s : State) (e src : Nat) : settled (s.engineRun e src) = settled s := by
  grind [State.engineRun, updAct_settled, wr_settled, wrN_settled]

theorem huskReply_settled (s : State) (ch opc status step : Nat) : settled (s.huskReply ch opc status step) = settled s := by
  grind [State.huskReply, huskSend_settled]

theorem mbRelease_settled (s : State) (ch d : Nat) : settled (s.mbRelease ch d) = settled s := by
  grind [State.mbRelease, mbPut_settled]

theorem loadEnd_settled (s : State) (q status : Nat) : settled (s.loadEnd q status) = settled s := by
  unfold State.loadEnd
  split
  · next ch e src _ _ _ =>
    split
    · rfl
    extract_lets u v
    have hu : settled u = settled s := by rw [updHusk_settled, mbRelease_settled]
    have hv : settled v = settled u := by
      unfold v
      split
      · rw [engineRun_settled]
      · rfl
    split
    · rw [huskReply_settled, hv, hu]
    · rw [hv, hu]
  · rfl

theorem loaderAnswer_settled (s : State) (q status opc : Nat) : settled (s.loaderAnswer q status opc) = settled s := by
  grind [State.loaderAnswer, mbCross_settled, mbData_settled, mbGo_settled]

theorem engineFill_settled (s : State) (e : Nat) (b : List Byte) : settled (s.engineFill e b) = settled s := by
  grind [State.engineFill, foldl_settled]

theorem loaderFill_settled (s : State) (q e : Nat) (b : List Byte) : settled (s.loaderFill q e b) = settled s := by
  grind [State.loaderFill, engineFill_settled, violate_settled, foldl_settled]

theorem loaderTake_settled (s : State) (q : Nat) (act : (Nat → Nat) → State → State) (hact : ∀ (x0 : (Nat → Nat)) (x1 : State),
    settled (act x0 x1) = settled x1) : settled (s.loaderTake q act) = settled s := by
  grind [State.loaderTake, mbRelease_settled]

theorem loaderLoad_settled (s : State) (q : Nat) (ddrErr : Bool) : settled (s.loaderLoad q ddrErr) = settled s := by
  grind [State.loaderLoad, dmaReadViol_settled, loadEnd_settled, loaderAnswer_settled, loaderFill_settled, loaderTake_settled,
    wr_settled]

theorem engineBoot_settled (s : State) (e : Nat) (obj : List Byte) : settled (s.engineBoot e obj) = settled s := by
  grind [State.engineBoot, loadStart_settled, loaderLoad_settled]

theorem updHost_settled (s : State) (f : HostSt → HostSt) : settled (s.updHost f) = settled s := rfl

theorem ctrlReady_settled (s : State) : settled (s.ctrlReady) = settled s := by
  grind [State.ctrlReady, updHost_settled]
end Sys2Proof.Proofs

namespace Sys2Proof.Proofs
open Sys2Proof.Machine Sys2Proof.Laws

theorem lockSheaf_locked (s : State) : s.lockSheaf.phase = .locked ∧ s.lockSheaf.gran = s.gran := by
  unfold State.lockSheaf
  extract_lets u orr v
  have hu : settled u = settled s := by rw [wr_settled, wr_settled, rwlFields_settled]
  clear_value u
  obtain ⟨hp, hg⟩ := settled_eq (wrB_settled v Reg.orr_STRAP 0 v.pins.mgrSel)
  exact ⟨hp, hg.trans (settled_eq hu).2⟩

/-- The start ends in the locked phase, and leaves Granary alone. -/
theorem finishStart_locked (s : State) (copy : Nat) :
    (s.finishStart copy).phase = .locked ∧ (s.finishStart copy).gran = s.gran := by
  unfold State.finishStart
  extract_lets c u v w x y culm obj z
  obtain ⟨-, hu⟩ := settled_eq (imageFields_settled (s.wrN Reg.status_COPY 0 copy))
  obtain ⟨hlocked, hgran⟩ := lockSheaf_locked u
  obtain ⟨hphase, hv⟩ := settled_eq (updHusk_settled u.lockSheaf fun k => { k with imageTherm := c.therm, imageGran := c.gran })
  have hw : settled w = settled v := audit_settled v _ _ _ _ _
  have hx : settled x = settled w := foldl_settled _ _ _ fun s h => fusedPort_settled s h
  have hy : settled y = settled x := by
    unfold y
    split
    · exact raise_settled x _ _ _ _
    · rfl
  have hz : settled z = settled y := by
    unfold z
    split
    · exact (foldl_settled _ _ _ fun s e => engineBoot_settled s e obj).trans (culmCopy_settled y)
    · rfl
  obtain ⟨hp, hg⟩ := settled_eq ((ctrlReady_settled z).trans (hz.trans (hy.trans (hx.trans hw))))
  exact ⟨hp.trans (hphase.trans hlocked), hg.trans (hv.trans (hgran.trans hu))⟩

/-- The record of the load takes a SEQ of its own (R51). -/
theorem finishStart_auditLast (s : State) (copy : Nat) : s.alm.auditLast < (s.finishStart copy).alm.auditLast := by
  unfold State.finishStart
  extract_lets c u v w x y culm obj z
  have hu : Keeps s u := imageFields_keeps _ (wrN_keeps s _ _ _ (keeps_refl s))
  have hv : Keeps s v := updHusk_keeps_of_otp_same _ (fun _ => rfl) (lockSheaf_keeps u hu)
  have hw : w.alm.auditLast = v.alm.auditLast + 1 := audit_auditLast v _ _ _ _ _
  have hx : Keeps w x := keeps_foldl _ _ _ (keeps_refl w) fun s h hk => fusedPort_keeps s h hk
  have hy : Keeps w y := by
    unfold y
    split
    · exact raise_keeps x _ _ _ _ hx
    · exact hx
  have hz : Keeps w z := by
    unfold z
    split
    · exact keeps_foldl _ _ _ (culmCopy_keeps y hy) fun s e hk => engineBoot_keeps s e obj hk
    · exact hy
  have hlast := (ctrlReady_keeps z hz).seq
  have hfirst := hv.seq
  omega

/-! ### A training that fails (R391) -/

theorem ddrFailed_settled (s : State) (mask : Nat) (bErr : Bool) :
    (s.ddrFailed mask bErr).phase = .locked ∧ (s.ddrFailed mask bErr).gran = s.gran := by
  unfold State.ddrFailed
  extract_lets u v c w x
  have hv : settled v = settled s := by
    unfold v
    split <;> rfl
  obtain ⟨hlocked, hgran⟩ := lockSheaf_locked (w.wr Reg.status_PORT_BOUND 0 0)
  obtain ⟨hp, hg⟩ := settled_eq (updHusk_settled (w.wr Reg.status_PORT_BOUND 0 0).lockSheaf
    fun k => { k with imageTherm := ThermRec.default, imageGran := w.str.gran })
  have hfinal : settled ((List.range 4).foldl (fun s c => if mask.testBit c then s.raise 0x0301 c else s) x) = settled x := by
    refine foldl_settled _ _ _ fun s c => ?_
    split
    · exact raise_settled s _ _ _ _
    · rfl
  obtain ⟨hphase, hkept⟩ := settled_eq hfinal
  exact ⟨hphase.trans (hp.trans hlocked), hkept.trans (hg.trans (hgran.trans (settled_eq hv).2))⟩

/-! ### A training that succeeds (R391, R392) -/

/-- A channel has one or two DIMMs that the block takes. -/
def channelGood (x : List Dimm) : Bool := (x.length == 1 || x.length == 2) && x.all dimmOk

theorem channelGood_of_dimmsBad {l : List (List Dimm)} (h : dimmsBad l = 0) {c : Nat} (hc : c < 4) : channelGood (l.getD c []) = true := by
  unfold dimmsBad at h
  extract_lets bad form first at h
  have hfirst : first = 0 := by
    by_contra hne
    rw [if_pos hne] at h
    exact hne h
  by_contra hbad
  have hbadc : bad c = !(channelGood (l.getD c [])) := (Bool.not_and _ _).symm
  have hmem : c ∈ (List.range 4).filter bad := List.mem_filter.2 ⟨List.mem_range.2 hc, by rw [hbadc, Bool.eq_false_iff.2 hbad]; rfl⟩
  have hle : 2 ^ c ≤ first := by
    unfold first
    rw [← List.sum_eq_foldl]
    exact List.le_sum_of_mem (List.mem_map_of_mem hmem)
  have := Nat.two_pow_pos c
  omega

theorem channelGood_gib {x : List Dimm} (h : channelGood x = true) : (x.map (·.gib)).sum ≤ 128 := by
  simp only [channelGood, Bool.and_eq_true, List.all_eq_true] at h
  obtain ⟨hlen, hall⟩ := h
  have hgib : ∀ d ∈ x, d.gib ≤ 64 := fun d hd => by
    have hd := hall d hd
    simp only [dimmOk, List.contains_eq_mem, List.mem_cons, List.not_mem_nil, Bool.and_eq_true, decide_eq_true_eq, or_false] at hd
    omega
  have hsum : (x.map (·.gib)).sum ≤ (x.map (·.gib)).length • 64 := List.sum_le_card_nsmul _ _ fun n hn => by
    obtain ⟨d, hd, rfl⟩ := List.mem_map.1 hn
    exact hgib d hd
  have hlen : x.length ≤ 2 := by
    simp only [Bool.or_eq_true, beq_iff_eq] at hlen
    omega
  rw [List.length_map, smul_eq_mul] at hsum
  omega

/-- The memory of the DIMMs. -/
def totalMib (l : List (List Dimm)) : Nat := 1024 * ((l.flatMap id).map (·.gib)).sum

/-- Good DIMMs hold at most 512 GiB. -/
theorem totalMib_lt {x0 x1 x2 x3 : List Dimm} (h : dimmsBad [x0, x1, x2, x3] = 0) : totalMib [x0, x1, x2, x3] < 2 ^ 32 := by
  have h0 := channelGood_gib (channelGood_of_dimmsBad h (c := 0) (by decide))
  have h1 := channelGood_gib (channelGood_of_dimmsBad h (c := 1) (by decide))
  have h2 := channelGood_gib (channelGood_of_dimmsBad h (c := 2) (by decide))
  have h3 := channelGood_gib (channelGood_of_dimmsBad h (c := 3) (by decide))
  simp only [List.getD_cons_zero, List.getD_cons_succ] at h0 h1 h2 h3
  simp only [totalMib, List.flatMap_cons, List.flatMap_nil, id, List.append_nil, List.map_append, List.sum_append]
  omega

theorem foldl_writes {α : Type} (l : List α) (f : State → α → State) (s : State) (h : ∀ s a, f s a = { s with regs := (f s a).regs }) :
    l.foldl f s = { s with regs := (l.foldl f s).regs } := by
  induction l generalizing s with
  | nil => rfl
  | cons a l ih => rw [List.foldl_cons, ih, h]

theorem strobeStore_regs (s : State) : (s.strobeStore true).regs = s.regs := rfl

theorem strobeStore_candidate (s : State) : (s.strobeStore true).husk.candidate = s.husk.candidate := rfl

/-- A value cut to a field's width (R8). -/
theorem toNat_trunc (f : RegField) (hf : f.width ≤ 32) (v : Word) : (f.trunc v).toNat = v.toNat % 2 ^ f.width := by
  have hlt : 2 ^ f.width - 1 < 2 ^ 32 := by
    have := Nat.pow_le_pow_right (n := 2) (by decide) hf
    have := Nat.two_pow_pos f.width
    omega
  rw [RegField.trunc, BitVec.toNat_and, BitVec.toNat_ofNat, Nat.mod_eq_of_lt hlt, Nat.and_two_pow_sub_one_eq_mod]

/-- A register just written reads as the value cut to its width. -/
theorem rdN_wrN {s : State} (hs : s.fileOk) (f : RegField) (hf : f.width ≤ 32) (i v : Nat) (hv : v < 2 ^ f.width) :
    (s.wrN f i v).rdN f i = v := by
  have hv32 : v < 2 ^ 32 := hv.trans_le (Nat.pow_le_pow_right (by decide) hf)
  rw [State.rdN, rd_eq, wrN_eq, rdAt_wrAt s f i 0 _ hs, toNat_trunc f hf, BitVec.toNat_ofNat, Nat.mod_eq_of_lt hv32, Nat.mod_eq_of_lt hv]

/-- What the end of the training leaves for the last checks of the start. -/
theorem ddrTrained_facts {s : State} (hf : s.fileOk) {l : List (List Dimm)} (hmib : totalMib l < 2 ^ 32) (rate : Nat) :
    (s.ddrTrained l rate).gran.trained = serials l ∧ (s.ddrTrained l rate).husk.candidate = s.husk.candidate ∧
      (s.ddrTrained l rate).rdN Reg.ddr_TOTAL_MIB 0 = totalMib l := by
  unfold State.ddrTrained
  extract_lets ser same pick u old v w x y gib z
  clear_value pick
  have hw : w.husk = s.husk ∧ Keeps s w := by
    have hv : Keeps s v := wrN_keeps u _ _ _ (wrN_keeps _ _ _ _ (wrB_keeps s _ _ _ (keeps_refl s)))
    unfold w
    split
    · exact ⟨rfl, updThm_keeps _ _ (wrN_keeps v _ _ _ hv)⟩
    · exact ⟨rfl, hv⟩
  have hx : Keeps s x := updGran_keeps w _ hw.2
  have hy : y = { x with regs := y.regs } := foldl_writes _ _ _ fun s c => rfl
  have hkeeps : Keeps s y := keeps_foldl _ _ _ hx fun s c hk =>
    wrN_keeps _ _ _ _ (wrB_keeps _ _ _ _ (wrN_keeps _ _ _ _ (wrN_keeps _ _ _ _ (wr_keeps s _ _ _ hk))))
  clear_value y
  have hgran : (z.strobeStore true).gran = y.gran :=
    (settled_eq ((strobeStore_settled z true).trans (memWins_settled (y.wrN Reg.ddr_TOTAL_MIB 0 (gib * 1024))))).2
  have hgib : gib * 1024 = totalMib l := by
    unfold gib totalMib
    rw [← List.sum_eq_foldl, Nat.mul_comm]
  refine ⟨?_, ?_, ?_⟩
  · rw [hgran, hy]
    rfl
  · rw [strobeStore_candidate]
    change y.husk.candidate = _
    rw [hy]
    exact congrArg Husk.candidate hw.1
  · have hrd : (y.wrN Reg.ddr_TOTAL_MIB 0 (gib * 1024)).rdN Reg.ddr_TOTAL_MIB 0 = totalMib l := by
      rw [hgib]
      exact rdN_wrN (hkeeps.regs hf) _ (by decide) _ _ hmib
    rw [State.rdN, State.rd, State.rdAt, strobeStore_regs]
    exact hrd

end Sys2Proof.Proofs

namespace Sys2Proof.Proofs
open Sys2Proof.Machine Sys2Proof.Laws

/-! ### The command that ends the training -/

theorem exec_ddrTrainingDone_other (s : State) (obs : TrainObs) (h : s.phase ≠ .training) : exec (.ddrTrainingDone obs) s = .next s :=
  congrArg Host.Outcome.next (if_pos h)

theorem exec_ddrTrainingDone_trained {s : State} {obs : TrainObs} {r : Nat} (hphase : s.phase = .training)
    (hbad : dimmsBad [obs.ch0, obs.ch1, obs.ch2, obs.ch3] = 0) (hrate : trainRate obs = some r) :
    exec (.ddrTrainingDone obs) s = .next ((s.ddrTrained [obs.ch0, obs.ch1, obs.ch2, obs.ch3] r).stepNine obs.boot.imageBErr) := by
  change Host.Outcome.next (if s.phase ≠ .training then s else _) = _
  rw [if_neg (not_not.2 hphase)]
  dsimp only
  rw [if_neg (not_not.2 hbad), hrate]

theorem exec_ddrTrainingDone_failed {s : State} {obs : TrainObs} (hphase : s.phase = .training)
    (hbad : dimmsBad [obs.ch0, obs.ch1, obs.ch2, obs.ch3] = 0) (hrate : trainRate obs = none) :
    exec (.ddrTrainingDone obs) s = .next (s.ddrFailed obs.fail4800.toNat obs.boot.imageBErr) := by
  change Host.Outcome.next (if s.phase ≠ .training then s else _) = _
  rw [if_neg (not_not.2 hphase)]
  dsimp only
  rw [if_neg (not_not.2 hbad), hrate]

/-! ### Step 9 (R48, R50) -/

theorem stepNine_none {s : State} (h : s.husk.candidate = 0) (bErr : Bool) : s.stepNine bErr = s.finishStart 0 := by
  rw [State.stepNine, h]
  rfl

theorem stepNine_passed {s : State} (h : s.husk.candidate = 1 ∨ s.husk.candidate = 2)
    (hmib : step9 s.str (s.rdN Reg.ddr_TOTAL_MIB 0) = true) (bErr : Bool) : s.stepNine bErr = s.finishStart s.husk.candidate := by
  unfold State.stepNine
  rcases h with h | h
  · rw [h]
    exact if_pos hmib
  · rw [h]
    exact if_pos hmib

theorem stepNine_refused {s : State} (h : s.husk.candidate = 2) (hmib : step9 s.str (s.rdN Reg.ddr_TOTAL_MIB 0) = false) (bErr : Bool) :
    s.stepNine bErr = ((s.wr Reg.status_FAIL_B 0 9).applyStructure Structure.recovery).finishStart 0 := by
  unfold State.stepNine
  rw [h]
  exact if_neg (Bool.not_eq_true _ ▸ hmib)

/-- The structure in the candidate copy is locked in. -/
theorem finishStart_trained {s : State} (l : List (List Dimm)) (rate copy : Nat)
    (htrained : (s.ddrTrained l rate).gran.trained = serials l) (hlast : s.alm.auditLast ≤ (s.ddrTrained l rate).alm.auditLast) :
    let t := (s.ddrTrained l rate).finishStart copy
    t.phase = .locked ∧ t.cfg = s.cfg ∧ t.gran.trained = serials l ∧ s.alm.auditLast < t.alm.auditLast := by
  obtain ⟨hphase, hgran⟩ := finishStart_locked (s.ddrTrained l rate) copy
  refine ⟨hphase, ?_, ?_, hlast.trans_lt (finishStart_auditLast _ _)⟩
  · rw [finishStart_cfg, ddrTrained_cfg]
  · rw [hgran, htrained]

/-- DDR training ends the start. -/
theorem ddrTrainingDone_ends (s : State) (obs : TrainObs) (hf : s.fileOk) :
    let l := [obs.ch0, obs.ch1, obs.ch2, obs.ch3]
    let mib := 1024 * ((l.flatMap id).map (·.gib)).sum
    (s.phase = .training → dimmsBad l = 0 → (trainRate obs).isSome = true →
      (s.husk.candidate = 0 →
        ∃ t, exec (.ddrTrainingDone obs) s = .next t ∧ t.phase = .locked ∧ t.cfg = s.cfg ∧ t.gran.trained = serials l ∧
          s.alm.auditLast < t.alm.auditLast) ∧
      (s.husk.candidate = 1 ∨ s.husk.candidate = 2 → step9 s.str mib = true →
        ∃ t, exec (.ddrTrainingDone obs) s = .next t ∧ t.phase = .locked ∧ t.cfg = s.cfg ∧ t.gran.trained = serials l ∧
          s.alm.auditLast < t.alm.auditLast) ∧
      (s.husk.candidate = 2 → step9 s.str mib = false →
        ∃ t, exec (.ddrTrainingDone obs) s = .next t ∧ t.phase = .locked ∧ t.cfg = some Structure.recovery)) := by
  intro l mib hphase hbad hsome
  obtain ⟨r, hrate⟩ := Option.isSome_iff_exists.1 hsome
  have hexec := exec_ddrTrainingDone_trained hphase hbad hrate
  obtain ⟨htrained, hcand, hmib⟩ := ddrTrained_facts hf (totalMib_lt hbad) r
  have hlast := (ddrTrained_keeps s l r (keeps_refl s)).seq
  have hstr : (s.ddrTrained l r).str = s.str := by rw [State.str, ddrTrained_cfg, State.str]
  refine ⟨fun h0 => ?_, fun h12 hpass => ?_, fun h2 hrefused => ?_⟩
  · rw [stepNine_none (hcand.trans h0)] at hexec
    exact ⟨_, hexec, finishStart_trained l r 0 htrained hlast⟩
  · rw [stepNine_passed (by rwa [hcand]) (by rwa [hstr, hmib])] at hexec
    exact ⟨_, hexec, finishStart_trained l r _ htrained hlast⟩
  · rw [stepNine_refused (hcand.trans h2) (by rwa [hstr, hmib])] at hexec
    exact ⟨_, hexec, (finishStart_locked _ _).1, by rw [finishStart_cfg, applyStructure_cfg]⟩

theorem ddrTrainingDone_fails (s : State) (obs : TrainObs) (hphase : s.phase = .training)
    (hbad : dimmsBad [obs.ch0, obs.ch1, obs.ch2, obs.ch3] = 0) (hrate : trainRate obs = none) :
    ∃ t, exec (.ddrTrainingDone obs) s = .next t ∧ t.phase = .locked ∧ (t.cfg.map (·.fault)) = some [] ∧ t.gran = s.gran := by
  obtain ⟨hlocked, hgran⟩ := ddrFailed_settled s obs.fail4800.toNat obs.boot.imageBErr
  refine ⟨_, exec_ddrTrainingDone_failed hphase hbad hrate, hlocked, ?_, hgran⟩
  rw [ddrFailed_cfg]
  rfl

end Sys2Proof.Proofs

namespace Sys2Proof.Proofs
open Sys2Proof.Machine Sys2Proof.Laws

/-! ## Shutdown notifications (R356) -/

theorem foldl_fixed {α β : Type} (l : List α) (f : β → α → β) (s : β) (h : ∀ a ∈ l, f s a = s) : l.foldl f s = s := by
  induction l with
  | nil => rfl
  | cons a l ih =>
    rw [List.foldl_cons, h a List.mem_cons_self]
    exact ih fun b hb => h b (List.mem_cons_of_mem _ hb)

/-- A fold that does something at one element only does that. -/
theorem foldl_once {α β : Type} {l : List α} (f : β → α → β) (s : β) {n : α} (hl : l.Nodup) (hn : n ∈ l)
    (hs : ∀ a ∈ l, a ≠ n → f s a = s) (ht : ∀ a ∈ l, a ≠ n → f (f s n) a = f s n) : l.foldl f s = f s n := by
  induction l with
  | nil => cases hn
  | cons a l ih =>
    obtain ⟨hal, hl⟩ := List.nodup_cons.1 hl
    rw [List.foldl_cons]
    by_cases ha : a = n
    · subst ha
      exact foldl_fixed l f _ fun b hb => ht b (List.mem_cons_of_mem _ hb) fun h => hal (h ▸ hb)
    · rw [hs a List.mem_cons_self ha]
      exact ih hl ((List.mem_cons.1 hn).resolve_left fun h => ha h.symm) (fun b hb => hs b (List.mem_cons_of_mem _ hb))
          (fun b hb => ht b (List.mem_cons_of_mem _ hb))

/-- A write at a lower key leaves a register alone, whatever the order of the keys. -/
theorem read_write_lt {α : Type} [DecidableEq α] (l : List (Nat × α)) {k q : Nat} (hq : k < q) (d d' v : α) :
    Sparse.read (Sparse.write l k d v) q d' = Sparse.read l q d' := by
  have hne : k ≠ q := Nat.ne_of_lt hq
  have hnlt : ¬ q < k := Nat.not_lt.2 hq.le
  induction l with
  | nil =>
    rw [Sparse.write]
    split <;> simp [Sparse.read, hne]
  | cons p l ih =>
    obtain ⟨k', v'⟩ := p
    rw [Sparse.write]
    split
    · next h =>
      subst h
      split <;> simp [Sparse.read, hne, hnlt]
    split
    · split <;> simp [Sparse.read, hne, hnlt]
    · simp [Sparse.read, ih]

/-! ### The end of a shutdown -/

/-- The copy of the audit records to NOR changes the Almanac only. -/
theorem norFlush_frame (s : State) : s.norFlush = { s with alm := s.norFlush.alm } := by
  unfold State.norFlush
  generalize s.alm.audit.filter (fun r => s.alm.norNext ≤ r.seq) = l
  induction l generalizing s with
  | nil => rfl
  | cons r l ih =>
    have hput : s.norPut r = { s with alm := (s.norPut r).alm } := by
      unfold State.norPut State.norStart
      (repeat' split) <;> rfl
    rw [List.foldl_cons, ih, hput]

theorem shutdownEnd_frame (s : State) : s.shutdownEnd = { s with alm := s.norFlush.alm, host := { s.host with shst := 2 } } := by
  rw [State.shutdownEnd, norFlush_frame]
  rfl

theorem shutdownAbrupt_done (s : State) (hrdy : s.host.rdy = true) (hshst : s.host.shst = 0) (hst : s.stagedAny = false) :
    ∃ t, exec .shutdownAbrupt s = .next t ∧ t.host = { s.host with shst := 2, shutdownSeen := true } ∧ t.acts = s.acts ∧ t.mem = s.mem := by
  have hexec : exec .shutdownAbrupt s = .next (s.updHost (fun h => { h with shst := 3, shutdownSeen := true })).shutdownEnd := by
    refine congrArg Host.Outcome.next ((if_pos ⟨hrdy, hshst⟩).trans (if_neg ?_))
    change ¬ s.stagedAny = true
    rw [hst]
    exact Bool.false_ne_true
  refine ⟨_, hexec, ?_⟩
  rw [shutdownEnd_frame]
  exact ⟨rfl, rfl, rfl⟩

theorem shutdownAbrupt_waits (s : State) (hrdy : s.host.rdy = true) (hshst : s.host.shst = 0) (hst : s.stagedAny = true) :
    ∃ t, exec .shutdownAbrupt s = .next t ∧ t = { s with host := { s.host with shst := 3, shutdownSeen := true } } :=
  ⟨_, congrArg Host.Outcome.next ((if_pos ⟨hrdy, hshst⟩).trans (if_pos hst)), rfl⟩

theorem shutdownDrainDone_ends (s : State) (hst : s.stagedAny = false) (h : (s.host.shst = 1 ∧ s.undrained = false) ∨ s.host.shst = 3) :
    ∃ t, exec .shutdownDrainDone s = .next t ∧ t.host = { s.host with shst := 2 } ∧ t.acts = s.acts ∧ t.mem = s.mem := by
  refine ⟨_, congrArg Host.Outcome.next (if_pos ⟨hst, h⟩), ?_⟩
  rw [shutdownEnd_frame]
  exact ⟨rfl, rfl, rfl⟩

theorem shutdownTimeout_ends (s : State) (h : s.host.shst = 1) :
    ∃ t, exec .shutdownTimeout s = .next t ∧ t.host = { s.host with shst := 2 } ∧ t.acts = s.acts ∧
      s.alm.auditLast < t.alm.auditLast := by
  refine ⟨_, congrArg Host.Outcome.next (if_pos h), ?_⟩
  have hlast := (norFlush_keeps _ (keeps_refl (s.audit 5 .drain noInst [s.buf.length]))).seq
  rw [audit_auditLast] at hlast
  rw [shutdownEnd_frame]
  refine ⟨?_, ?_, hlast⟩
  · rw [audit_frame]
  · rw [audit_frame]

/-! ### A normal shutdown (R376) -/

/-- What a normal shutdown does for one side. -/
def cleanSide (s : State) (n : Nat) : State :=
  if s.actExists n ∧ (s.act n).ledgerRead ∧ s.rdB Reg.zone_CLEAN n = false ∧ s.buf.all (fun g => g.tag.act != n || g.written) then
    (s.stage n 3).updLed n (fun l => { l with clean := true }) else s

theorem cleanSides_eq (s : State) : s.cleanSides = (List.range 64).foldl cleanSide s := rfl

theorem cleanSide_of_clean {s : State} {n : Nat} (h : s.actExists n = true → s.rdB Reg.zone_CLEAN n = true) : cleanSide s n = s := by
  refine if_neg ?_
  rintro ⟨hexists, -, hclean, -⟩
  rw [h hexists] at hclean
  exact Bool.noConfusion hclean

/-- The records of the side's ledger, as they stand once the clean generation is staged. -/
def cleanStaged (s : State) (n : Nat) : State :=
  let u := s.updLed n (fun l => { l with staged := listSet l.staged 2 true, clean := false })
  (u.wrN Reg.poolAct_REMAP_ENTRIES n (u.led n).remap.length).wrN Reg.poolAct_LOST_RANGES n (u.led n).lost.length

theorem pageCount_mono (len : Nat) {a b : Nat} (h : a ≤ b) : pageCount len a ≤ pageCount len b :=
  max_le_max le_rfl (Nat.div_le_div_right (by omega))

/-- Staging takes the write pointers out of the ledger, so what fitted still fits. -/
theorem ledgerFull_cleanStaged {s : State} {n : Nat} (h : s.ledgerFull n 3 = false) : (cleanStaged s n).ledgerFull n 3 = false := by
  have hptr : ((cleanStaged s n).led n).pointers.length ≤ (s.led n).pointers.length := by
    change ((s.updAct n _).act n).led.pointers.length ≤ _
    rw [act_updAct]
    split
    · exact Nat.zero_le _
    · exact le_rfl
  have hside : (cleanStaged s n).sideDesc n = s.sideDesc n := rfl
  have hpages := pageCount_mono 8 hptr
  unfold State.ledgerFull at h ⊢
  rw [hside]
  split
  · next d hd =>
    rw [hd] at h
    simp only [LedgerSt.parts, decide_eq_false_iff_not, Nat.not_lt] at h ⊢
    omega
  · rfl

theorem stage_of_fits {s : State} {n : Nat} (h : s.ledgerFull n 3 = false) : s.stage n 3 = cleanStaged s n := by
  change (if (cleanStaged s n).ledgerFull n 3 then (cleanStaged s n).raise 0x0504 (hdaOf n) else cleanStaged s n) = _
  rw [ledgerFull_cleanStaged h]
  rfl

/-- A side that has drained is cleaned where its ledger has room (R376). -/
theorem cleanSide_of_fits {s : State} {n : Nat} (hexists : s.actExists n = true) (hread : (s.act n).ledgerRead = true)
    (hclean : s.rdB Reg.zone_CLEAN n = false) (hbuf : s.buf = []) (hfits : s.ledgerFull n 3 = false) :
    cleanSide s n = (cleanStaged s n).updLed n (fun l => { l with clean := true }) := by
  rw [cleanSide, if_pos ⟨hexists, hread, hclean, by rw [hbuf]; rfl⟩, stage_of_fits hfits]

/-- The counts of the ledger's records are registers of another block. -/
theorem rdB_cleanStaged (s : State) {n : Nat} (hn : n < 64) (m : Nat) :
    (cleanStaged s n).rdB Reg.zone_CLEAN m = s.rdB Reg.zone_CLEAN m := by
  have hrd (u : State) (f : RegField) (hf : f.id ≤ 370) (h1 : f.n = 1) (v : Nat) :
      (u.wrN f n v).rd Reg.zone_CLEAN m = u.rd Reg.zone_CLEAN m := by
    refine read_write_lt u.regs ?_ _ _ _
    simp only [RegField.key, Reg.zone_CLEAN, h1]
    omega
  rw [State.rdB, cleanStaged, hrd _ _ (by decide) rfl, hrd _ _ (by decide) rfl]
  rfl

theorem shutdownNormal_exec {s : State} (hrdy : s.host.rdy = true) (hshst : s.host.shst = 0) :
    exec .shutdownNormal s = .next ((List.range 64).foldl cleanSide (s.updHost (fun h => { h with shst := 1, shutdownSeen := true }))) :=
  congrArg Host.Outcome.next (if_pos ⟨hrdy, hshst⟩)

theorem shutdownNormal_clean (s : State) (hrdy : s.host.rdy = true) (hshst : s.host.shst = 0)
    (hclean : ∀ n : Act, s.actExists n = true → s.rdB Reg.zone_CLEAN n = true) :
    ∃ t, exec .shutdownNormal s = .next t ∧ t = { s with host := { s.host with shst := 1, shutdownSeen := true } } :=
  ⟨_, shutdownNormal_exec hrdy hshst, foldl_fixed _ _ _ fun n hn => cleanSide_of_clean (hclean ⟨n, List.mem_range.1 hn⟩)⟩

theorem shutdownNormal_one (s : State) (hrdy : s.host.rdy = true) (hshst : s.host.shst = 0) (n : Act) (hexists : s.actExists n = true)
    (hread : (s.act n).ledgerRead = true) (hclean : s.rdB Reg.zone_CLEAN n = false) (hbuf : s.buf = [])
    (hfits : s.ledgerFull n 3 = false) (hrest : ∀ m : Act, m ≠ n → s.rdB Reg.zone_CLEAN m = true) :
    ∃ t, exec .shutdownNormal s = .next t ∧ t.host = { s.host with shst := 1, shutdownSeen := true } ∧ (t.led n).clean = true ∧
      ∀ m : Act, m ≠ n → t.act m = s.act m := by
  have hexec := shutdownNormal_exec hrdy hshst
  generalize hu : s.updHost (fun h => { h with shst := 1, shutdownSeen := true }) = u at hexec
  have hone : cleanSide u n = (cleanStaged u n).updLed n (fun l => { l with clean := true }) := by
    subst hu
    exact cleanSide_of_fits hexists hread hclean hbuf hfits
  have hrest (m : Nat) (hm : m ∈ List.range 64) (hne : m ≠ n) : u.rdB Reg.zone_CLEAN m = true := by
    subst hu
    exact hrest ⟨m, List.mem_range.1 hm⟩ fun h => hne (congrArg Fin.val h)
  have hfold : (List.range 64).foldl cleanSide u = cleanSide u n := by
    refine foldl_once cleanSide u List.nodup_range (List.mem_range.2 n.isLt) ?_ ?_
    · exact fun m hm hne => cleanSide_of_clean fun _ => hrest m hm hne
    · refine fun m hm hne => cleanSide_of_clean fun _ => ?_
      rw [hone]
      exact (rdB_cleanStaged u n.isLt m).trans (hrest m hm hne)
  rw [hfold, hone] at hexec
  refine ⟨_, hexec, ?_, ?_, fun m hne => ?_⟩
  · subst hu
    rfl
  · change (((cleanStaged u n).updAct n _).act n).led.clean = true
    rw [act_updAct, if_pos ⟨rfl, n.isLt⟩]
  · have hmn : ¬ (n.val = m.val ∧ m.val < 64) := fun h => hne (Fin.ext h.1.symm)
    change ((cleanStaged u n).updAct n _).act m = _
    rw [act_updAct, if_neg hmn]
    change (u.updAct n _).act m = _
    rw [act_updAct, if_neg hmn, ← hu]
    rfl

end Sys2Proof.Proofs

namespace Sys2Proof.Proofs
open Sys2Proof.Machine Sys2Proof.Laws

/-- Settles O23: the end of the training through step 9 and the end of the start, and each shutdown command through what it does for the
sides that are not clean. -/
theorem trainingAndShutdown : Obligations.TrainingAndShutdown := by
  refine ⟨fun s obs hf => ⟨exec_ddrTrainingDone_other s obs, ddrTrainingDone_ends s obs hf, ?_⟩,
    fun s hrdy hshst => ⟨shutdownNormal_clean s hrdy hshst, ?_, shutdownAbrupt_done s hrdy hshst, shutdownAbrupt_waits s hrdy hshst⟩,
    fun s => ⟨shutdownDrainDone_ends s, shutdownTimeout_ends s⟩⟩
  · exact fun hphase hbad hrate _ => ddrTrainingDone_fails s obs hphase hbad hrate
  · exact fun n hexists hread hclean hbuf hfits hrest => shutdownNormal_one s hrdy hshst n hexists hread hclean hbuf hfits hrest

end Sys2Proof.Proofs

namespace Sys2Proof.Proofs
open Sys2Proof.Machine Sys2Proof.Laws

/-! ## The training of a link and the binding of its port

The registers of a port stand in the order of the operations that write them late: what follows a write of the port's state writes fields
that come after it, so `KeepsBelow` carries the state to the end of a command. -/

/-! ### Registers in order -/

theorem id_le_key (f : RegField) (i j : Nat) : f.id * 0x100000 ≤ f.key i j := by
  unfold RegField.key
  omega

theorem wr_keepsBelow {b : Nat} (s : State) (f : RegField) (i : Nat) (v : Word) (hb : b ≤ f.id * 0x100000) : KeepsBelow b s (s.wr f i v) :=
  wrAt_keepsBelow s f i 0 v (hb.trans (id_le_key f i 0))

theorem foldl_keepsBelow {α : Type} {b : Nat} (l : List α) (f : State → α → State) (s : State) (h : ∀ s a, KeepsBelow b s (f s a)) :
    KeepsBelow b s (l.foldl f s) := by
  induction l generalizing s with
  | nil => exact .refl b s
  | cons a l ih => exact (h s a).trans (ih _)

/-- The key of a field of one copy per port. -/
theorem portKey_lt {f : RegField} (hn : f.n = 1) {h : Nat} (hh : h < 32) : f.key h 0 < (f.id + 1) * 0x100000 := by
  unfold RegField.key
  rw [hn]
  omega

/-- What a port's register reads once later fields have been written. -/
theorem KeepsBelow.rdN {b : Nat} {s t : State} (h : KeepsBelow b s t) (hs : s.fileOk) {f : RegField} (hn : f.n = 1) {i : Nat} (hi : i < 32)
    (hb : (f.id + 1) * 0x100000 ≤ b) : t.rdN f i = s.rdN f i :=
  congrArg BitVec.toNat ((h hs).2 f i 0 ((portKey_lt hn hi).trans_le hb))

theorem bound_of_keepsBelow {b : Nat} {s t : State} (h : KeepsBelow b s t) (hs : s.fileOk) (hb : portStatusKeys ≤ b) (i : Nat) :
    t.bound i = s.bound i := by
  have hkey : Reg.status_PORT_BOUND.key 0 0 < b := lt_of_lt_of_le (by decide) hb
  exact congrArg (fun w : Word => w.getLsbD i) ((h hs).2 _ 0 0 hkey)

/-! ### Records and words to the head-end -/

/-- The state without what a write of main memory by the block itself, and the record of it, can change. -/
def offRecord (s : State) : State :=
  { s with viol := [], gated := 0, gran := GranSt.reset, mem := [], alm := State.reset.alm }

theorem dmaWrite_offRecord (s : State) (who : Nat) (sec : Bool) (a : Nat) (b : List Byte) :
    offRecord (s.dmaWrite who sec a b) = offRecord s := by
  have hfold (l : List (Nat × Nat × Nat)) (f : State → Nat × Nat × Nat → State) (hf : ∀ s p, offRecord (f s p) = offRecord s) (s : State) :
      offRecord (l.foldl f s) = offRecord s := by
    induction l generalizing s with
    | nil => rfl
    | cons p l ih => rw [List.foldl_cons, ih, hf]
  refine hfold _ _ (fun s p => ?_) s
  split
  · rfl
  · rfl

/-- A trace record changes main memory and the Almanac, or is refused there. -/
theorem trace_offRecord (s : State) (src : Nat) (ev : Ev) (inst : Nat) (args : List Nat) (firmware : Bool) :
    offRecord (s.trace src ev inst args firmware) = offRecord s := by
  have hnext (u : State) (f : AlmSt → AlmSt) : offRecord (u.updAlm f) = offRecord u := rfl
  unfold State.trace
  extract_lets n
  split
  · split
    · rw [hnext, dmaWrite_offRecord]
    · rfl
  · rfl

/-- What a trace record leaves alone. -/
structure Recorded (s t : State) : Prop where
  regs : t.regs = s.regs
  ports : t.ports = s.ports
  acts : t.acts = s.acts
  safeN : t.safeN = s.safeN
  out : t.out = s.out
  fresh : t.fresh = s.fresh
  flt : t.flt = s.flt
  spinWait : t.spinWait = s.spinWait

theorem trace_recorded (s : State) (src : Nat) (ev : Ev) (inst : Nat) (args : List Nat) (firmware : Bool) :
    Recorded s (s.trace src ev inst args firmware) := by
  have h := trace_offRecord s src ev inst args firmware
  exact ⟨(congrArg State.regs h :), (congrArg State.ports h :), (congrArg State.acts h :), (congrArg State.safeN h :),
    (congrArg State.out h :), (congrArg State.fresh h :), (congrArg State.flt h :), (congrArg State.spinWait h :)⟩

theorem Recorded.rdN {s t : State} (h : Recorded s t) (f : RegField) (i : Nat) : t.rdN f i = s.rdN f i := by
  rw [State.rdN, State.rd, State.rdAt, h.regs]
  rfl

theorem Recorded.port {s t : State} (h : Recorded s t) (k : Nat) : t.port k = s.port k := by
  rw [State.port, h.ports]
  rfl

/-- A CTL word changes its port, that port's credit, and what the block has sent. -/
theorem ctl_frame (s : State) (h op side : Nat) (b : List Nat) :
    s.ctl h op side b = { s with
      regs := (s.ctl h op side b).regs, ports := (s.ctl h op side b).ports, out := (s.ctl h op side b).out } := by
  unfold State.ctl State.ctlOut
  extract_lets st t seq u v
  split
  · rfl
  split
  · unfold v
    split <;> rfl
  · rfl

theorem ctl_keepsBelow {b : Nat} (s : State) (h op side : Nat) (ws : List Nat) (hb : b ≤ Reg.port_CRED_CTL.id * 0x100000) :
    KeepsBelow b s (s.ctl h op side ws) := by
  unfold State.ctl State.ctlOut
  extract_lets st t seq u v
  split
  · exact .refl b s
  split
  · have hu : KeepsBelow b s u := (KeepsBelow.refl b s).of_regs rfl
    have hv : KeepsBelow b s v := by
      unfold v
      split
      · exact hu
      · exact hu.trans (wr_keepsBelow u _ _ _ hb)
    exact hv.of_regs rfl
  · exact (KeepsBelow.refl b s).of_regs rfl

/-- What a port holds besides the words it sends. -/
def portHeld (p : PortSt) : Option Desc × Option (List Byte) := (p.desc, p.serialBound)

theorem ctl_portHeld (s : State) (h op side : Nat) (b : List Nat) (k : Nat) :
    portHeld ((s.ctl h op side b).port k) = portHeld (s.port k) := by
  unfold State.ctl State.ctlOut
  extract_lets st t seq u v
  have hu (f : PortSt → PortSt) (hf : ∀ p, portHeld (f p) = portHeld p) : portHeld ((s.updPort h f).port k) = portHeld (s.port k) := by
    rw [port_updPort]
    split
    · exact hf _
    · rfl
  split
  · rfl
  split
  · have hv : v.port k = u.port k := by
      unfold v
      split <;> rfl
    change portHeld (v.port k) = _
    rw [hv]
    exact hu _ fun _ => rfl
  · exact hu _ fun _ => rfl

end Sys2Proof.Proofs

namespace Sys2Proof.Proofs
open Sys2Proof.Machine Sys2Proof.Laws

/-! ### An attempt starts (R137, R138) -/

theorem wrN_fileOk {s : State} (hs : s.fileOk) (f : RegField) (i v : Nat) : (s.wrN f i v).fileOk := wrAt_rising s f i 0 _ hs

theorem wr_fileOk {s : State} (hs : s.fileOk) (f : RegField) (i : Nat) (v : Word) : (s.wr f i v).fileOk := wrAt_rising s f i 0 v hs

/-- A write of a port's own field leaves every copy of another field alone. -/
theorem rdAt_wr_port {s : State} (hs : s.fileOk) {f g : RegField} (hid : g.id ≠ f.id) (hf : f.n = 1) {h : Nat} (hh : h < 32) (v : Word)
    {i j : Nat} (hg : i * g.n + j < 0x100000) : (s.wr f h v).rdAt g i j = s.rdAt g i j := by
  refine rdAt_wrAt_of_id_ne hs hid ?_ hg
  rw [hf]
  omega

theorem rdN_wr_port {s : State} (hs : s.fileOk) {f g : RegField} (hid : g.id ≠ f.id) (hf : f.n = 1) {h : Nat} (hh : h < 32) (v : Word)
    {i : Nat} (hg : i * g.n < 0x100000) : (s.wr f h v).rdN g i = s.rdN g i :=
  congrArg BitVec.toNat (rdAt_wr_port hs hid hf hh v hg)

theorem portIndex_lt {f : RegField} (hf : f.n = 1) {h : Nat} (hh : h < 32) : h * f.n < 0x100000 := by
  rw [hf]
  omega

theorem rdN_wr {s : State} (hs : s.fileOk) (f : RegField) (hf : f.width ≤ 32) (i : Nat) (v : Word) (hv : v.toNat < 2 ^ f.width) :
    (s.wr f i v).rdN f i = v.toNat := by
  rw [State.rdN, rd_eq, wr_eq, rdAt_wrAt s f i 0 _ hs, toNat_trunc f hf, Nat.mod_eq_of_lt hv]

/-- The lanes are idle: none is locked and none in use. -/
theorem lanesIdle_rdN {s : State} (hs : s.fileOk) {h : Nat} (hh : h < 32) :
    (s.lanesIdle h).rdN Reg.port_LANE_LOCK h = 0 ∧ (s.lanesIdle h).rdN Reg.port_LANES h = 0 := by
  have hlock : (s.wr Reg.port_LANE_LOCK h 0).rdN Reg.port_LANE_LOCK h = 0 := rdN_wr hs _ (by decide) _ _ (by decide)
  have hidle := wr_fileOk hs Reg.port_LANE_LOCK h 0
  exact ⟨(rdN_wr_port hidle (by decide) rfl hh 0 (portIndex_lt rfl hh)).trans hlock, rdN_wr hidle _ (by decide) _ _ (by decide)⟩

theorem lanesIdle_fileOk {s : State} (hs : s.fileOk) (h : Nat) : (s.lanesIdle h).fileOk := wr_fileOk (wr_fileOk hs _ _ _) _ _ _

theorem lanesIdle_rdAt {s : State} (hs : s.fileOk) {h : Nat} (hh : h < 32) {f : RegField} {i j : Nat}
    (hid : f.id ≠ Reg.port_LANE_LOCK.id ∧ f.id ≠ Reg.port_LANES.id) (hf : i * f.n + j < 0x100000) :
    (s.lanesIdle h).rdAt f i j = s.rdAt f i j :=
  (rdAt_wr_port (wr_fileOk hs _ _ _) hid.2 rfl hh 0 hf).trans (rdAt_wr_port hs hid.1 rfl hh 0 hf)

theorem flashEnd_fileOk {s : State} (hs : s.fileOk) (h : Nat) : (s.flashEnd h).fileOk := by
  unfold State.flashEnd
  split
  · exact wrN_fileOk (wr_fileOk hs _ _ _) _ _ _
  · exact hs

/-- The end of a flash command writes its own two fields. -/
theorem flashEnd_rdAt {s : State} (hs : s.fileOk) {h : Nat} (hh : h < 32) {f : RegField} {i j : Nat}
    (hid : f.id ≠ Reg.port_FL_BUSY.id ∧ f.id ≠ Reg.port_FL_STATUS.id) (hf : i * f.n + j < 0x100000) :
    (s.flashEnd h).rdAt f i j = s.rdAt f i j := by
  unfold State.flashEnd
  split
  · exact (rdAt_wr_port (wr_fileOk hs _ _ _) hid.2 rfl hh _ hf).trans (rdAt_wr_port hs hid.1 rfl hh _ hf)
  · rfl

/-- Another port than the one whose flash command ends. -/
theorem flashEnd_port_ne (s : State) {h k : Nat} (hk : k ≠ h) : (s.flashEnd h).port k = s.port k := by
  unfold State.flashEnd
  split
  · rw [port_updPort, if_neg fun hc => hk hc.1.symm]
    rfl
  · rfl

theorem flashEnd_frame (s : State) (h : Nat) :
    s.flashEnd h = { s with regs := (s.flashEnd h).regs, ports := (s.flashEnd h).ports } := by
  unfold State.flashEnd
  split <;> rfl

theorem flashEnd_attempts (s : State) (h k : Nat) : ((s.flashEnd h).port k).attempts = (s.port k).attempts := by
  unfold State.flashEnd
  split
  · rw [port_updPort]
    split <;> rfl
  · rfl

/-- The port of an attempt that starts. -/
def attemptPort (p : PortSt) : PortSt :=
  { p with
    waitRetry := false, laneChange := .none, laneBad := false, moved := false, alnSeq := 0, alnPhase := 0, ctlSent := false
    rxSeq := List.replicate 32 0, txSeq := List.replicate 32 0, ctlWait := []
    smpCtl := [0, 0], streams := [], drift := [(0, 0), (0, 0), (0, 0), (0, 0)] }

/-- What the start of an attempt leaves. -/
structure AttemptStarted (s t : State) (h : Nat) : Prop where
  state : t.rdN Reg.port_STATE h = 1
  laneLock : t.rdN Reg.port_LANE_LOCK h = 0
  lanes : t.rdN Reg.port_LANES h = 0
  acts : t.acts = s.acts
  safeN : t.safeN = s.safeN
  others : ∀ k, k ≠ h → t.port k = s.port k
  attempts : (t.port h).attempts = (s.port h).attempts
  waitRetry : (t.port h).waitRetry = false

/-- With the shelf's token an attempt starts at once. -/
theorem attempt_started {s : State} (hs : s.fileOk) {h : Nat} (hh : h < 32) (htoken : s.shelfToken = true) :
    AttemptStarted s (s.attempt h) h := by
  have hidle := lanesIdle_fileOk hs h
  generalize hu : (s.lanesIdle h).flashEnd h = u
  have hufile : u.fileOk := hu ▸ flashEnd_fileOk hidle h
  have hread {f : RegField} {i j : Nat} (hid : f.id ≠ Reg.port_FL_BUSY.id ∧ f.id ≠ Reg.port_FL_STATUS.id) (hf : i * f.n + j < 0x100000) :
      u.rdAt f i j = (s.lanesIdle h).rdAt f i j := hu ▸ flashEnd_rdAt hidle hh hid hf
  have htoken : u.shelfToken = true := by
    rw [← htoken]
    have hkept := (hread (f := Reg.orr_STANDING_HELD) (i := 0) (j := 0) (by decide) (by decide)).trans
      (lanesIdle_rdAt hs hh (by decide) (by decide))
    exact congrArg (fun w : Word => w == 1) hkept
  obtain ⟨hlock, hlanes⟩ := lanesIdle_rdN hs hh
  have hulock : u.rdN Reg.port_LANE_LOCK h = 0 := by
    rw [← hlock]
    exact congrArg BitVec.toNat (hread (by decide) (portIndex_lt rfl hh))
  have hulanes : u.rdN Reg.port_LANES h = 0 := by
    rw [← hlanes]
    exact congrArg BitVec.toNat (hread (by decide) (portIndex_lt rfl hh))
  have hattempt : s.attempt h = (((u.wr Reg.port_STATE h 1).bump Reg.port_TRIES h).updPort h attemptPort).trace 7 .training h [1] := by
    rw [State.attempt, hu, if_pos htoken]
    rfl
  have hvfile : (u.wr Reg.port_STATE h 1).fileOk := wr_fileOk hufile _ _ _
  have hwrites {f : RegField} (hid : f.id ≠ Reg.port_STATE.id ∧ f.id ≠ Reg.port_TRIES.id) (hf : f.n = 1) :
      ((u.wr Reg.port_STATE h 1).bump Reg.port_TRIES h).rdN f h = u.rdN f h :=
    (rdN_wr_port hvfile hid.2 rfl hh _ (portIndex_lt hf hh)).trans (rdN_wr_port hufile hid.1 rfl hh _ (portIndex_lt hf hh))
  have hstate : ((u.wr Reg.port_STATE h 1).bump Reg.port_TRIES h).rdN Reg.port_STATE h = 1 :=
    (rdN_wr_port hvfile (by decide) rfl hh _ (portIndex_lt rfl hh)).trans (rdN_wr hufile _ (by decide) _ _ (by decide))
  have hrec := trace_recorded (((u.wr Reg.port_STATE h 1).bump Reg.port_TRIES h).updPort h attemptPort) 7 .training h [1] false
  rw [← hattempt] at hrec
  have hport (k : Nat) : (s.attempt h).port k = if h = k ∧ k < 32 then attemptPort (u.port k) else u.port k :=
    (hrec.port k).trans (port_updPort _ h k attemptPort)
  have hframe : u = { s with regs := u.regs, ports := u.ports } := by
    rw [← hu, flashEnd_frame]
    rfl
  exact {
    state := (hrec.rdN _ _).trans hstate
    laneLock := (hrec.rdN _ _).trans ((hwrites (by decide) rfl).trans hulock)
    lanes := (hrec.rdN _ _).trans ((hwrites (by decide) rfl).trans hulanes)
    acts := hrec.acts.trans (congrArg State.acts hframe :)
    safeN := hrec.safeN.trans (congrArg State.safeN hframe :)
    others := fun k hk => by
      rw [hport, if_neg fun hc => hk hc.1.symm, ← hu]
      exact flashEnd_port_ne _ hk
    attempts := by
      rw [hport, if_pos ⟨rfl, hh⟩, ← hu]
      exact flashEnd_attempts _ h h
    waitRetry := by
      rw [hport, if_pos ⟨rfl, hh⟩]
      rfl }

/-! ### The commands that start one -/

theorem trainingAttempt_starts (s : State) (h : Hda) (hs : s.fileOk) (hdecl : s.declared h = true) (hbound : s.bound h = true)
    (hheld : (s.port h).held = false) (hwait : (s.port h).waitRetry = false)
    (hstate : s.rdN Reg.port_STATE h = 0 ∨ s.rdN Reg.port_STATE h = 9) (htoken : s.shelfToken = true) :
    ∃ t, exec (.trainingAttempt h) s = .next t ∧ t.rdN Reg.port_STATE h = 1 ∧ t.rdN Reg.port_LANE_LOCK h = 0 ∧
      t.rdN Reg.port_LANES h = 0 ∧ t.acts = s.acts ∧ t.safeN = s.safeN ∧ ∀ k : Hda, k ≠ h → t.port k = s.port k := by
  have hstarted := attempt_started hs h.isLt htoken
  exact ⟨_, congrArg Host.Outcome.next (if_pos ⟨hdecl, hbound, hheld, hwait, hstate, htoken⟩), hstarted.state, hstarted.laneLock,
    hstarted.lanes, hstarted.acts, hstarted.safeN, fun k hk => hstarted.others k fun hc => hk (Fin.ext hc)⟩

theorem trainingRetry_starts (s : State) (h : Hda) (hs : s.fileOk) (hwait : (s.port h).waitRetry = true) (hbound : s.bound h = true)
    (hheld : (s.port h).held = false) (hstate : s.rdN Reg.port_STATE h = 9) (htoken : s.shelfToken = true) :
    ∃ t, exec (.trainingRetry h) s = .next t ∧ t.rdN Reg.port_STATE h = 1 ∧ (t.port h).waitRetry = false := by
  have hstarted := attempt_started hs h.isLt htoken
  exact ⟨_, congrArg Host.Outcome.next (if_pos ⟨hwait, hbound, hheld, hstate, htoken⟩), hstarted.state, hstarted.waitRetry⟩

/-! ### An attempt fails (R138) -/

/-- The port after an attempt has failed, its record written. -/
def attemptLost (s : State) (h : Nat) : State :=
  let u := s.updPort h (fun p => { p with attempts := (s.port h).attempts + 1 })
  ((u.wr Reg.port_STATE h 9).lanesIdle h).trace 7 .training h [9]

theorem attemptLost_recorded (s : State) (h : Nat) :
    Recorded (((s.updPort h (fun p => { p with attempts := (s.port h).attempts + 1 })).wr Reg.port_STATE h 9).lanesIdle h)
      (attemptLost s h) := trace_recorded _ _ _ _ _ _

theorem attemptLost_fileOk {s : State} (hs : s.fileOk) (h : Nat) : (attemptLost s h).fileOk := by
  rw [State.fileOk, (attemptLost_recorded s h).regs]
  exact lanesIdle_fileOk (wr_fileOk hs _ _ _) h

theorem attemptLost_rdAt {s : State} (hs : s.fileOk) {h : Nat} (hh : h < 32) {f : RegField} {i j : Nat}
    (hid : f.id ≠ Reg.port_STATE.id ∧ f.id ≠ Reg.port_LANE_LOCK.id ∧ f.id ≠ Reg.port_LANES.id) (hf : i * f.n + j < 0x100000) :
    (attemptLost s h).rdAt f i j = s.rdAt f i j := by
  rw [State.rdAt, (attemptLost_recorded s h).regs]
  exact (lanesIdle_rdAt (wr_fileOk hs _ _ _) hh hid.2 hf).trans (rdAt_wr_port hs hid.1 rfl hh 9 hf)

theorem attemptLost_state {s : State} (hs : s.fileOk) {h : Nat} (hh : h < 32) : (attemptLost s h).rdN Reg.port_STATE h = 9 := by
  rw [(attemptLost_recorded s h).rdN]
  refine (congrArg BitVec.toNat (lanesIdle_rdAt (wr_fileOk hs _ _ _) hh (by decide) (portIndex_lt rfl hh))).trans ?_
  exact rdN_wr hs _ (by decide) _ _ (by decide)

theorem attemptLost_port (s : State) {h : Nat} (hh : h < 32) :
    (attemptLost s h).port h = { s.port h with attempts := (s.port h).attempts + 1 } := by
  rw [(attemptLost_recorded s h).port]
  exact (port_updPort s h h _).trans (if_pos ⟨rfl, hh⟩)

theorem attemptFail_again {s : State} {h : Nat} (hn : (s.port h).attempts < 2) : s.attemptFail h = (attemptLost s h).attempt h := by
  exact if_pos (show (s.port h).attempts + 1 < 3 by omega)

theorem attemptFail_waits {s : State} {h : Nat} (hn : 3 ≤ (s.port h).attempts) :
    s.attemptFail h = (attemptLost s h).updPort h (fun p => { p with waitRetry := true }) := by
  refine (if_neg (show ¬ (s.port h).attempts + 1 < 3 by omega)).trans (if_neg ?_)
  omega

theorem trainingStateTimeout_again (s : State) (h : Hda) (hs : s.fileOk) (htr : s.training h = true) (hn : (s.port h).attempts < 2)
    (htoken : s.shelfToken = true) :
    ∃ t, exec (.trainingStateTimeout h) s = .next t ∧ t.rdN Reg.port_STATE h = 1 ∧ (t.port h).attempts = (s.port h).attempts + 1 := by
  have htoken : (attemptLost s h).shelfToken = true := by
    rw [← htoken]
    exact congrArg (fun w : Word => w == 1) (attemptLost_rdAt (f := Reg.orr_STANDING_HELD) hs h.isLt (by decide) (by decide))
  have hstarted := attempt_started (attemptLost_fileOk hs h) h.isLt htoken
  refine ⟨_, congrArg Host.Outcome.next ((if_pos htr).trans (attemptFail_again hn)), hstarted.state, hstarted.attempts.trans ?_⟩
  rw [attemptLost_port s h.isLt]

theorem trainingStateTimeout_waits (s : State) (h : Hda) (hs : s.fileOk) (htr : s.training h = true) (hn : 3 ≤ (s.port h).attempts) :
    ∃ t, exec (.trainingStateTimeout h) s = .next t ∧ t.rdN Reg.port_STATE h = 9 ∧ (t.port h).waitRetry = true ∧ t.flt = s.flt := by
  refine ⟨_, congrArg Host.Outcome.next ((if_pos htr).trans (attemptFail_waits hn)), attemptLost_state hs h.isLt, ?_,
    (attemptLost_recorded s h).flt⟩
  rw [port_updPort, if_pos ⟨rfl, h.isLt⟩]

end Sys2Proof.Proofs

namespace Sys2Proof.Proofs
open Sys2Proof.Machine Sys2Proof.Laws

/-! ### The states of a training (R115, R137) -/

/-- What the end of the state `st` of a training does. -/
def trainingStep (s : State) (h : Hda) (far : Bool) (st : Nat) : State :=
  let L := s.rdN Reg.port_LANES h
  match st with
  | 1 =>
    let n := s.imageLanes h
    (((s.wrN Reg.port_LANES h n).wrN Reg.port_LANE_LOCK h (2 ^ n - 1)).wr Reg.port_STATE h 2).trace 7 .training h [2]
  | 2 => ((s.wr Reg.port_STATE h 3).trainOut h 0 L 1).trace 7 .training h [3]
  | 3 =>
    let s := (List.range L).foldl (fun s i => s.eqLane h i) (s.trainOut h 0 L 2)
    let s := s.updPort h (fun p => { p with precode := s.rdB Reg.port_PRECODE_ALLOW h && far })
    (s.wr Reg.port_STATE h 4).trace 7 .training h [4]
  | 4 =>
    let s := (List.range L).foldl (fun s i => s.deskewLane h i) s
    let s := s.wr Reg.port_STATE h 5
    (s.ctl h 0x01 0 [1, L]).trace 7 .training h [5]
  | _ => s

theorem exec_trainingStateDone {s : State} {h : Hda} (htr : s.training h = true) (far : Bool) {st : Nat}
    (hst : s.rdN Reg.port_STATE h = st) :
    exec (.trainingStateDone h far) s = .next (trainingStep s h far st) := by
  subst hst
  exact congrArg Host.Outcome.next (if_pos htr)

/-- SIGNAL ends: the image's lanes are in use and locked. -/
theorem trainingStateDone_signal (s : State) (h : Hda) (far : Bool) (hs : s.fileOk) (htr : s.training h = true)
    (hst : s.rdN Reg.port_STATE h = 1) (hlanes : s.imageLanes h ≤ 4) :
    ∃ t, exec (.trainingStateDone h far) s = .next t ∧ t.rdN Reg.port_STATE h = 2 ∧ t.rdN Reg.port_LANES h = s.imageLanes h ∧
      t.rdN Reg.port_LANE_LOCK h = 2 ^ s.imageLanes h - 1 ∧ t.ports = s.ports := by
  have hlock : 2 ^ s.imageLanes h - 1 < 2 ^ 4 := by
    have := Nat.pow_le_pow_right (n := 2) (by decide) hlanes
    omega
  generalize hu : s.wrN Reg.port_LANES h (s.imageLanes h) = u
  generalize hv : u.wrN Reg.port_LANE_LOCK h (2 ^ s.imageLanes h - 1) = v
  have hufile : u.fileOk := hu ▸ wrN_fileOk hs _ _ _
  have hvfile : v.fileOk := hv ▸ wrN_fileOk hufile _ _ _
  have hulanes : u.rdN Reg.port_LANES h = s.imageLanes h := hu ▸ rdN_wrN hs _ (by decide) _ _ (lt_of_le_of_lt hlanes (by decide))
  have hvlanes : v.rdN Reg.port_LANES h = u.rdN Reg.port_LANES h :=
    hv ▸ rdN_wr_port hufile (by decide) rfl h.isLt _ (portIndex_lt rfl h.isLt)
  have hvlock : v.rdN Reg.port_LANE_LOCK h = 2 ^ s.imageLanes h - 1 := hv ▸ rdN_wrN hufile _ (by decide) _ _ hlock
  have hrec := trace_recorded (v.wr Reg.port_STATE h 2) 7 .training h [2] false
  refine ⟨_, exec_trainingStateDone htr far hst, ?_⟩
  rw [trainingStep, hu, hv]
  refine ⟨?_, ?_, ?_, ?_⟩
  · exact (hrec.rdN _ _).trans (rdN_wr hvfile _ (by decide) _ _ (by decide))
  · exact (hrec.rdN _ _).trans ((rdN_wr_port hvfile (by decide) rfl h.isLt _ (portIndex_lt rfl h.isLt)).trans (hvlanes.trans hulanes))
  · exact (hrec.rdN _ _).trans ((rdN_wr_port hvfile (by decide) rfl h.isLt _ (portIndex_lt rfl h.isLt)).trans hvlock)
  · rw [hrec.ports]
    subst hv
    subst hu
    rfl

/-- Frames to the head-end are all that a training frame is. -/
theorem trainOut_frame (s : State) (h from_ to_ tstate : Nat) :
    s.trainOut h from_ to_ tstate = { s with out := (s.trainOut h from_ to_ tstate).out } := by
  unfold State.trainOut
  generalize List.range (to_ - from_) = l
  induction l generalizing s with
  | nil => rfl
  | cons i l ih => rw [List.foldl_cons, ih]; rfl

/-- BIT_LOCK ends. -/
theorem trainingStateDone_bitLock (s : State) (h : Hda) (far : Bool) (hs : s.fileOk) (htr : s.training h = true)
    (hst : s.rdN Reg.port_STATE h = 2) :
    ∃ t, exec (.trainingStateDone h far) s = .next t ∧ t.rdN Reg.port_STATE h = 3 ∧ t.ports = s.ports := by
  have hrec := trace_recorded ((s.wr Reg.port_STATE h 3).trainOut h 0 (s.rdN Reg.port_LANES h) 1) 7 .training h [3] false
  refine ⟨_, exec_trainingStateDone htr far hst, ?_⟩
  rw [trainingStep]
  refine ⟨?_, ?_⟩
  · rw [hrec.rdN, trainOut_frame]
    exact rdN_wr hs _ (by decide) _ _ (by decide)
  · rw [hrec.ports, trainOut_frame]
    rfl

/-- A lane at work: its registers, below none of them `b`, and a free value of its own (R15). -/
structure LaneWorked (b : Nat) (n : Nat) (s t : State) : Prop where
  kept : KeepsBelow b s t
  fresh : t.fresh = s.fresh + n
  frame : t = { s with regs := t.regs, fresh := t.fresh }

theorem foldl_laneWorked {b : Nat} (f : State → Nat → State) (hf : ∀ s i, LaneWorked b 1 s (f s i)) (l : List Nat) (s : State) :
    LaneWorked b l.length s (l.foldl f s) := by
  induction l generalizing s with
  | nil => exact ⟨.refl b s, rfl, rfl⟩
  | cons i l ih =>
    obtain ⟨hkept, hfresh, hframe⟩ := hf s i
    obtain ⟨lkept, lfresh, lframe⟩ := ih (f s i)
    refine ⟨hkept.trans lkept, ?_, ?_⟩
    · rw [List.foldl_cons, lfresh, hfresh, List.length_cons]
      omega
    · rw [List.foldl_cons, lframe, hframe]

theorem eqLane_laneWorked (h : Nat) (s : State) (i : Nat) : LaneWorked (Reg.port_EQ_STAT.id * 0x100000) 1 s (s.eqLane h i) where
  kept := (wrAt_keepsBelow s _ _ _ _ (id_le_key _ _ _)).of_regs rfl
  fresh := rfl
  frame := rfl

theorem deskewLane_laneWorked (h : Nat) (s : State) (i : Nat) : LaneWorked (Reg.port_DESKEW.id * 0x100000) 1 s (s.deskewLane h i) where
  kept := ((wrAt_keepsBelow s _ _ _ _ (id_le_key _ _ _)).trans
    (wrAt_keepsBelow _ Reg.port_DRIFT_CNT h i 0 (le_trans (by decide) (id_le_key _ _ _)))).of_regs rfl
  fresh := rfl
  frame := rfl

/-- EQUALISE ends. -/
theorem trainingStateDone_equalise (s : State) (h : Hda) (far : Bool) (hs : s.fileOk) (htr : s.training h = true)
    (hst : s.rdN Reg.port_STATE h = 3) :
    ∃ t, exec (.trainingStateDone h far) s = .next t ∧ t.rdN Reg.port_STATE h = 4 ∧ t.fresh = s.fresh + s.rdN Reg.port_LANES h ∧
      t.port h = { s.port h with precode := s.rdB Reg.port_PRECODE_ALLOW h && far } := by
  generalize hu : s.trainOut h 0 (s.rdN Reg.port_LANES h) 2 = u
  have huframe : u = { s with out := u.out } := by rw [← hu]; exact trainOut_frame _ _ _ _ _
  generalize hv : (List.range (s.rdN Reg.port_LANES h)).foldl (fun s i => s.eqLane h i) u = v
  have hworked : LaneWorked _ _ u v := hv ▸ foldl_laneWorked _ (fun s i => eqLane_laneWorked h s i) _ u
  have hufile : u.fileOk := by rw [huframe]; exact hs
  have hvfile : v.fileOk := (hworked.kept hufile).1
  have hpre : v.rdB Reg.port_PRECODE_ALLOW h = s.rdB Reg.port_PRECODE_ALLOW h := by
    have hkept := (hworked.kept hufile).2 Reg.port_PRECODE_ALLOW h 0 (lt_of_lt_of_le (portKey_lt rfl h.isLt) (by decide))
    rw [huframe] at hkept
    exact congrArg (fun w : Word => w == 1) hkept
  have hport : v.port h = s.port h := by
    rw [hworked.frame, huframe]
    rfl
  have hrec := trace_recorded ((v.updPort h (fun p => { p with precode := v.rdB Reg.port_PRECODE_ALLOW h && far })).wr Reg.port_STATE h 4) 7
    .training h [4] false
  refine ⟨_, exec_trainingStateDone htr far hst, ?_⟩
  rw [trainingStep, hu, hv]
  refine ⟨?_, ?_, ?_⟩
  · exact (hrec.rdN _ _).trans (rdN_wr hvfile _ (by decide) _ _ (by decide))
  · refine hrec.fresh.trans (hworked.fresh.trans ?_)
    rw [List.length_range, huframe]
  · refine (hrec.port _).trans ((port_updPort v h h _).trans ((if_pos ⟨rfl, h.isLt⟩).trans ?_))
    rw [hport, hpre]

/-- A CTL word that needs no credit leaves at once on a port past DESKEW (R134). -/
theorem ctl_out_of_free {s : State} {h op side : Nat} {b : List Nat} (hst : 5 ≤ s.rdN Reg.port_STATE h) (hst' : s.rdN Reg.port_STATE h ≤ 7)
    (hbound : s.bound h = true) (hfree : ctlFree op = true) :
    (s.ctl h op side b).out = s.out ++ [.ctl h op (s.port h).tag.toNat side ((s.port h).txSeq.getD (12 + side) 0) b] := by
  have hsent : s.ctl h op side b = s.ctlOut h op side b := by
    refine (if_neg ?_).trans (if_pos (.inl hfree))
    rintro (hlow | hhigh | hun)
    · exact Nat.not_lt.2 hst hlow
    · exact Nat.not_lt.2 hst' hhigh
    · exact Bool.false_ne_true (hun.symm.trans hbound)
  rw [hsent, State.ctlOut]
  simp only [hfree, if_true]
  rfl

theorem training_bound {s : State} {h : Nat} (htr : s.training h = true) : s.bound h = true := by
  simp only [State.training, Bool.and_eq_true] at htr
  exact htr.2

/-- DESKEW ends with HELLO. -/
theorem trainingStateDone_deskew (s : State) (h : Hda) (far : Bool) (hs : s.fileOk) (htr : s.training h = true)
    (hst : s.rdN Reg.port_STATE h = 4) :
    ∃ t, exec (.trainingStateDone h far) s = .next t ∧ t.rdN Reg.port_STATE h = 5 ∧
      t.out = s.out ++ [.ctl h 1 (s.port h).tag.toNat 0 ((s.port h).txSeq.getD 12 0) [1, s.rdN Reg.port_LANES h]] := by
  generalize hL : s.rdN Reg.port_LANES h = L
  generalize hv : (List.range L).foldl (fun s i => s.deskewLane h i) s = v
  have hworked : LaneWorked _ _ s v := hv ▸ foldl_laneWorked _ (fun s i => deskewLane_laneWorked h s i) _ s
  have hvfile : v.fileOk := (hworked.kept hs).1
  have hstate : (v.wr Reg.port_STATE h 5).rdN Reg.port_STATE h = 5 := rdN_wr hvfile _ (by decide) _ _ (by decide)
  have hbound : (v.wr Reg.port_STATE h 5).bound h = true := by
    rw [bound_of_keepsBelow (wr_keepsBelow v Reg.port_STATE h 5 le_rfl) hvfile (by decide),
      bound_of_keepsBelow hworked.kept hs (by decide), training_bound htr]
  have hout := ctl_out_of_free (op := 0x01) (side := 0) (b := [1, L]) hstate.ge (by rw [hstate]; decide) hbound rfl
  have hrec := trace_recorded ((v.wr Reg.port_STATE h 5).ctl h 0x01 0 [1, L]) 7 .training h [5] false
  refine ⟨_, exec_trainingStateDone htr far hst, ?_⟩
  rw [trainingStep, hL, hv]
  refine ⟨?_, ?_⟩
  · rw [hrec.rdN, (ctl_keepsBelow _ _ _ _ _ le_rfl).rdN (wr_fileOk hvfile _ _ _) rfl h.isLt (by decide), hstate]
  · have hport : (v.wr Reg.port_STATE h 5).port h = s.port h := by
      rw [hworked.frame]
      rfl
    have hsent : (v.wr Reg.port_STATE h 5).out = s.out := by
      rw [hworked.frame]
      rfl
    rw [hrec.out, hout, hport, hsent]

end Sys2Proof.Proofs

namespace Sys2Proof.Proofs
open Sys2Proof.Machine Sys2Proof.Laws

/-! ### HELLO_ACK (R132) -/

theorem ctl_acts (s : State) (h op side : Nat) (b : List Nat) : (s.ctl h op side b).acts = s.acts := by
  rw [ctl_frame]

/-- The grant of a side that SIDES marks present. -/
def grantOn (m : HelloAck) (x : Nat) (v : BitVec 16) : Nat := if m.sides.toNat.testBit x then v.toNat else 0

theorem grantOn_lt (m : HelloAck) (x : Nat) (v : BitVec 16) : grantOn m x v < 2 ^ 16 := by
  unfold grantOn
  split
  · exact v.isLt
  · decide

/-- The grants of the sides present. -/
def granted (s : State) (h : Hda) (m : HelloAck) : State :=
  let s := (s.wrN Reg.port_HE_REV h m.heRev.toNat).wrN Reg.port_MAX_LANES h m.maxLanes.toNat
  let s := (s.wrN Reg.port_CRED_WRT_A h (grantOn m 0 m.credWrt)).wrN Reg.port_CRED_WRT_B h (grantOn m 1 m.credWrt)
  (s.wrN Reg.port_CRED_AST_A h (grantOn m 0 m.credAst)).wrN Reg.port_CRED_AST_B h (grantOn m 1 m.credAst)

/-- HELLO_ACK is taken: the grants, the word for the descriptor, and the port's state. -/
def helloTaken (s : State) (h : Hda) (m : HelloAck) : State :=
  ((((granted s h m).updPort h (fun p => { p with sides := m.sides.toNat })).wrN Reg.port_CRED_CTL h m.credCtl.toNat).wr
    Reg.port_STATE h 6).ctl
    h 0x0B 0 ([0, 0] ++ wBytes 0 ++ wBytes 64)

theorem granted_rdN {s : State} (hs : s.fileOk) (h : Hda) (m : HelloAck) :
    (granted s h m).fileOk ∧ (granted s h m).rdN Reg.port_CRED_WRT_A h = grantOn m 0 m.credWrt ∧
      (granted s h m).rdN Reg.port_CRED_AST_B h = grantOn m 1 m.credAst := by
  generalize hu : (s.wrN Reg.port_HE_REV h m.heRev.toNat).wrN Reg.port_MAX_LANES h m.maxLanes.toNat = u
  generalize hv : u.wrN Reg.port_CRED_WRT_A h (grantOn m 0 m.credWrt) = v
  generalize hw : v.wrN Reg.port_CRED_WRT_B h (grantOn m 1 m.credWrt) = w
  generalize hx : w.wrN Reg.port_CRED_AST_A h (grantOn m 0 m.credAst) = x
  have hufile : u.fileOk := hu ▸ wrN_fileOk (wrN_fileOk hs _ _ _) _ _ _
  have hvfile : v.fileOk := hv ▸ wrN_fileOk hufile _ _ _
  have hwfile : w.fileOk := hw ▸ wrN_fileOk hvfile _ _ _
  have hxfile : x.fileOk := hx ▸ wrN_fileOk hwfile _ _ _
  have hfinal : granted s h m = x.wrN Reg.port_CRED_AST_B h (grantOn m 1 m.credAst) := by rw [← hx, ← hw, ← hv, ← hu]; rfl
  have hwrt : v.rdN Reg.port_CRED_WRT_A h = grantOn m 0 m.credWrt := hv ▸ rdN_wrN hufile _ (by decide) _ _ (grantOn_lt _ _ _)
  rw [hfinal]
  refine ⟨wrN_fileOk hxfile _ _ _, ?_, rdN_wrN hxfile _ (by decide) _ _ (grantOn_lt _ _ _)⟩
  rw [← hwrt]
  refine (rdN_wr_port hxfile (by decide) rfl h.isLt _ (portIndex_lt rfl h.isLt)).trans ?_
  rw [← hx]
  refine (rdN_wr_port hwfile (by decide) rfl h.isLt _ (portIndex_lt rfl h.isLt)).trans ?_
  rw [← hw]
  exact rdN_wr_port hvfile (by decide) rfl h.isLt _ (portIndex_lt rfl h.isLt)

theorem helloTaken_facts {s : State} (hs : s.fileOk) (h : Hda) (m : HelloAck) :
    (helloTaken s h m).rdN Reg.port_STATE h = 6 ∧ (helloTaken s h m).rdN Reg.port_CRED_WRT_A h = grantOn m 0 m.credWrt ∧
      (helloTaken s h m).rdN Reg.port_CRED_AST_B h = grantOn m 1 m.credAst ∧ (helloTaken s h m).acts = s.acts := by
  obtain ⟨hgfile, hwrt, hast⟩ := granted_rdN hs h m
  generalize hu : ((granted s h m).updPort h (fun p => { p with sides := m.sides.toNat })).wrN Reg.port_CRED_CTL h m.credCtl.toNat = u
  have hufile : u.fileOk := hu ▸ wrN_fileOk hgfile _ _ _
  have hvfile : (u.wr Reg.port_STATE h 6).fileOk := wr_fileOk hufile _ _ _
  have htaken : helloTaken s h m = (u.wr Reg.port_STATE h 6).ctl h 0x0B 0 ([0, 0] ++ wBytes 0 ++ wBytes 64) := by rw [← hu]; rfl
  have hkept {f : RegField} (hf : f.n = 1) (hid : f.id < Reg.port_CRED_CTL.id ∧ f.id ≠ Reg.port_STATE.id) :
      (helloTaken s h m).rdN f h = (granted s h m).rdN f h := by
    rw [htaken, (ctl_keepsBelow _ _ _ _ _ le_rfl).rdN hvfile hf h.isLt (Nat.mul_le_mul_right _ hid.1),
      rdN_wr_port hufile hid.2 rfl h.isLt _ (portIndex_lt hf h.isLt), ← hu]
    exact rdN_wr_port hgfile (Nat.ne_of_lt hid.1) rfl h.isLt _ (portIndex_lt hf h.isLt)
  refine ⟨?_, (hkept rfl (by decide)).trans hwrt, (hkept rfl (by decide)).trans hast, ?_⟩
  · rw [htaken, (ctl_keepsBelow _ _ _ _ _ le_rfl).rdN hvfile rfl h.isLt (by decide)]
    exact rdN_wr hufile _ (by decide) _ _ (by decide)
  · have hacts : u.acts = (granted s h m).acts := by
      rw [← hu]
      rfl
    rw [htaken, ctl_acts]
    exact hacts

/-- A frame in sequence or not: the gap is counted, and the port expects the next. -/
theorem rxSeq_keepsBelow (s : State) (h sid side : Nat) (seq : BitVec 10) :
    KeepsBelow (Reg.port_SEQ_GAP.id * 0x100000) s (s.rxSeq h sid side seq) := by
  unfold State.rxSeq
  extract_lets k exp u
  have hu : KeepsBelow (Reg.port_SEQ_GAP.id * 0x100000) s u := by
    unfold u
    split
    · exact .refl _ s
    · exact wr_keepsBelow s _ _ _ le_rfl
  exact hu.of_regs rfl

theorem rxSeq_acts (s : State) (h sid side : Nat) (seq : BitVec 10) : (s.rxSeq h sid side seq).acts = s.acts := by
  unfold State.rxSeq
  dsimp only
  split <;> rfl

theorem training_of_keepsBelow {b : Nat} {s t : State} (hk : KeepsBelow b s t) (hs : s.fileOk) {h : Nat} (hh : h < 32)
    (hb : (Reg.port_STATE.id + 1) * 0x100000 ≤ b) : t.training h = s.training h := by
  unfold State.training
  rw [hk.rdN hs rfl hh hb, bound_of_keepsBelow hk hs (le_trans (by decide) hb)]

theorem helloAck_taken (s : State) (h : Hda) (hs : s.fileOk) (htr : s.training h = true) (hdr : UpHdr) (m : HelloAck)
    (hcrc : crcHolds hdr 0 0x81 ([m.protoVer.toNat, m.heRev.toNat, m.maxLanes.toNat, m.sides.toNat] ++ hBytes m.credWrt.toNat ++
        hBytes m.credAst.toNat ++ hBytes m.credCtl.toNat) = true)
    (hst : s.rdN Reg.port_STATE h = 5) (hver : m.protoVer = 1) (hwrt : 2048 ≤ m.credWrt.toNat) (hast : 256 ≤ m.credAst.toNat)
    (hctl : 64 ≤ m.credCtl.toNat) :
    ∃ t, exec (.helloAck h hdr m) s = .next t ∧ t.rdN Reg.port_STATE h = 6 ∧
      t.rdN Reg.port_CRED_WRT_A h = (if m.sides.toNat.testBit 0 then m.credWrt.toNat else 0) ∧
      t.rdN Reg.port_CRED_AST_B h = (if m.sides.toNat.testBit 1 then m.credAst.toNat else 0) ∧ t.acts = s.acts := by
  generalize hu : s.rxSeq h 6 0 hdr.seq = u
  have hseq := rxSeq_keepsBelow s h 6 0 hdr.seq
  rw [hu] at hseq
  have hutr : u.training h = true := (training_of_keepsBelow hseq hs h.isLt (by decide)).trans htr
  have hust : u.rdN Reg.port_STATE h = 5 := (hseq.rdN hs rfl h.isLt (by decide)).trans hst
  have hexec : exec (.helloAck h hdr m) s = .next ((helloTaken u h m).trace 7 .training h [6]) := by
    refine congrArg Host.Outcome.next ((if_pos hcrc).trans ?_)
    rw [hu]
    exact if_pos ⟨hutr, hust, hver, hwrt, hast, hctl⟩
  obtain ⟨hstate, hcwrt, hcast, hacts⟩ := helloTaken_facts (hseq hs).1 h m
  have hrec := trace_recorded (helloTaken u h m) 7 .training h [6] false
  refine ⟨_, hexec, (hrec.rdN _ _).trans hstate, (hrec.rdN _ _).trans hcwrt, (hrec.rdN _ _).trans hcast, hrec.acts.trans (hacts.trans ?_)⟩
  rw [← hu, rxSeq_acts]

end Sys2Proof.Proofs

namespace Sys2Proof.Proofs
open Sys2Proof.Machine Sys2Proof.Laws

/-! ### The descriptor (R53, R103, R137) -/

/-- Words to a head-end, as far as the binding of its port is concerned. -/
structure Spoke (s t : State) : Prop where
  kept : KeepsBelow (Reg.port_CRED_CTL.id * 0x100000) s t
  held : ∀ k, portHeld (t.port k) = portHeld (s.port k)
  frame : t = { s with regs := t.regs, ports := t.ports, out := t.out }

theorem Spoke.refl (s : State) : Spoke s s := ⟨.refl _ s, fun _ => rfl, rfl⟩

theorem Spoke.trans {s t u : State} (h : Spoke s t) (k : Spoke t u) : Spoke s u where
  kept := h.kept.trans k.kept
  held i := (k.held i).trans (h.held i)
  frame := k.frame.trans (congrArg (fun x : State => { x with regs := u.regs, ports := u.ports, out := u.out }) h.frame)

theorem ctl_spoke (s : State) (h op side : Nat) (b : List Nat) : Spoke s (s.ctl h op side b) :=
  ⟨ctl_keepsBelow s h op side b le_rfl, ctl_portHeld s h op side b, ctl_frame s h op side b⟩

theorem readCopy_spoke (s : State) (h copy : Nat) (b : List Byte) : Spoke s (s.readCopy h copy b) := by
  unfold State.readCopy
  extract_lets base u
  have hu : Spoke s u := by
    unfold u
    split
    · exact .refl s
    · exact ctl_spoke s _ _ _ _
  split
  · exact hu.trans (ctl_spoke u _ _ _ _)
  · exact hu

/-- The copies of the descriptor have been asked for. -/
def descAsked (s : State) (h : Nat) (c0 c1 : List Byte) : State :=
  if (parseDesc c0).isSome then s.readCopy h 0 c0 else (s.readCopy h 0 c0).readCopy h 1 c1

theorem descAsked_spoke (s : State) (h : Nat) (c0 c1 : List Byte) : Spoke s (descAsked s h c0 c1) := by
  unfold descAsked
  split
  · exact readCopy_spoke s h 0 c0
  · exact (readCopy_spoke s h 0 c0).trans (readCopy_spoke _ h 1 c1)

/-- What the head-end's descriptor does to its port. -/
def descTaken (s : State) (h : Hda) (c0 c1 : List Byte) : State :=
  let u := descAsked s h c0 c1
  match chooseCopy c0 c1, u.str.port h with
  | some (c, d), some p =>
    let v := u.wrN Reg.port_DESC_COPY h c
    let cause := portCause v.str p d h (v.port h).serialBound d.geometryBad
    if cause = 0 then v.portUp h d else v.unbind h cause
  | _, _ => u.unbind h 8

theorem exec_descriptorRead {s : State} {h : Hda} (htr : s.training h = true) (hst : s.rdN Reg.port_STATE h = 6) (c0 c1 : List Byte) :
    exec (.descriptorRead h c0 c1) s = .next (descTaken s h c0 c1) := by
  refine (congrArg Host.Outcome.next (if_pos ⟨htr, hst⟩)).trans ?_
  unfold descTaken descAsked
  rfl

theorem descTaken_none {s : State} {h : Hda} {c0 c1 : List Byte} (hnone : chooseCopy c0 c1 = none) :
    descTaken s h c0 c1 = (descAsked s h c0 c1).unbind h 8 := by
  unfold descTaken
  rw [hnone]

theorem wrN_str (s : State) (f : RegField) (i v : Nat) : (s.wrN f i v).str = s.str := rfl

theorem wrN_port (s : State) (f : RegField) (i v k : Nat) : (s.wrN f i v).port k = s.port k := rfl

theorem descTaken_some {s : State} {h : Hda} {c0 c1 : List Byte} {c : Nat} {d : Desc} {p : PortRec}
    (hsome : chooseCopy c0 c1 = some (c, d)) (hport : s.str.port h = some p) :
    let v := (descAsked s h c0 c1).wrN Reg.port_DESC_COPY h c
    let cause := portCause s.str p d h (s.port h).serialBound d.geometryBad
    descTaken s h c0 c1 = if cause = 0 then v.portUp h d else v.unbind h cause := by
  intro v cause
  have hspoke := descAsked_spoke s h c0 c1
  have hstr : (descAsked s h c0 c1).str = s.str := by
    rw [hspoke.frame]
    rfl
  have hserial : ((descAsked s h c0 c1).port h).serialBound = (s.port h).serialBound := congrArg Prod.snd (hspoke.held h)
  have hcause : portCause v.str p d h (v.port h).serialBound d.geometryBad = cause := by
    rw [wrN_str, wrN_port, hstr, hserial]
  unfold descTaken
  dsimp only
  rw [hsome, hstr, hport]
  dsimp only
  rw [hcause]

/-! ### A port comes up -/

theorem mem_insertBy {α : Type} (le : α → α → Bool) (a x : α) (l : List α) : x ∈ insertBy le a l ↔ x = a ∨ x ∈ l := by
  induction l with
  | nil => simp [insertBy]
  | cons y l ih =>
    rw [insertBy]
    split
    · exact List.mem_cons
    · rw [List.mem_cons, ih, List.mem_cons]
      exact or_left_comm

theorem mem_sortBy {α : Type} (le : α → α → Bool) (x : α) (l : List α) : x ∈ sortBy le l ↔ x ∈ l := by
  induction l with
  | nil => exact Iff.rfl
  | cons y l ih => rw [sortBy, List.foldr_cons, mem_insertBy, ← sortBy, ih, List.mem_cons]

/-- What a port that comes up leaves. -/
structure CameUp (s t : State) (h : Nat) (d : Desc) : Prop where
  state : t.rdN Reg.port_STATE h = 7
  held : portHeld (t.port h) = (some d, some d.serial)
  acts : t.acts = s.acts
  free : s.reactHda h < 3 → t.safeN = s.safeN ||| hdaMask h ∧ t.spinWait.contains h = true
  held3 : 3 ≤ s.reactHda h → t.safeN = s.safeN ∧ t.spinWait = s.spinWait

theorem safeHigh_eq {s : State} {h : Nat} (hbound : s.bound h = true) (hup : s.up h = true) :
    s.safeHigh h = ({ s with safeN := s.safeN ||| hdaMask h } : State).ctl h 0x0E 0 [] := if_pos ⟨hbound, hup⟩

theorem up_iff (s : State) (h : Nat) : s.up h = true ↔ s.rdN Reg.port_STATE h = 7 := by
  rw [State.up, State.rdN, beq_iff_eq]
  exact ⟨fun hc => by rw [hc]; rfl, fun hc => BitVec.eq_of_toNat_eq hc⟩

/-- SAFE_n rises on a port that is UP and bound, where no reaction holds it low (R439). -/
def freed (s : State) (h : Nat) : State := if s.reactHda h < 3 then s.safeHigh h else s

theorem freed_facts {s : State} {h : Nat} (hbound : s.bound h = true) (hup : s.up h = true) :
    KeepsBelow (Reg.port_CRED_CTL.id * 0x100000) s (freed s h) ∧ portHeld ((freed s h).port h) = portHeld (s.port h) ∧
      (freed s h).acts = s.acts ∧ (freed s h).spinWait = s.spinWait ∧ (freed s h).flt = s.flt ∧
      (freed s h).safeN = if s.reactHda h < 3 then s.safeN ||| hdaMask h else s.safeN := by
  unfold freed
  split
  · have hspoke := ctl_spoke { s with safeN := s.safeN ||| hdaMask h } h 0x0E 0 []
    have hkept : KeepsBelow (Reg.port_CRED_CTL.id * 0x100000) s { s with safeN := s.safeN ||| hdaMask h } :=
      (KeepsBelow.refl _ s).of_regs rfl
    rw [safeHigh_eq hbound hup]
    refine ⟨hkept.trans hspoke.kept, hspoke.held h, ?_, ?_, ?_, ?_⟩ <;> rw [hspoke.frame]
  · exact ⟨.refl _ s, rfl, rfl, rfl, rfl, rfl⟩

/-- The port shows its descriptor's serial number and its state, and the spindle its speed. -/
theorem portUp_cameUp {s : State} (hs : s.fileOk) {h : Nat} (hh : h < 32) (hbound : s.bound h = true) (d : Desc) :
    CameUp s (s.portUp h d) h d := by
  unfold State.portUp
  extract_lets u1 u2 u3 u4 u5 u6 free u7 mv u8 wait
  have hheld : portHeld (u1.port h) = (some d, some d.serial) := by
    unfold u1
    rw [port_updPort, if_pos ⟨rfl, hh⟩]
    rfl
  have hu2 : KeepsBelow portStatusKeys s u2 := by
    have hu1 : KeepsBelow portStatusKeys s u1 := (KeepsBelow.refl _ s).of_regs rfl
    exact hu1.trans (foldl_keepsBelow _ _ _ fun s j => wrAt_keepsBelow s _ _ _ _ (le_trans (by decide) (id_le_key _ _ _)))
  have hserial : u2 = { u1 with regs := u2.regs } := foldl_writes _ _ _ fun _ _ => rfl
  have hfile := (hu2 hs).1
  have hstate : u3.rdN Reg.port_STATE h = 7 := rdN_wr hfile _ (by decide) _ _ (by decide)
  have hlate : KeepsBelow ((Reg.port_STATE.id + 1) * 0x100000) u3 u6 := by
    have hu4 : KeepsBelow ((Reg.port_STATE.id + 1) * 0x100000) u3 u4 := wr_keepsBelow u3 _ _ _ (by decide)
    have hu5 : KeepsBelow ((Reg.port_STATE.id + 1) * 0x100000) u4 u5 := by
      unfold u5
      split
      · exact wr_keepsBelow u4 _ _ _ (by decide)
      · exact .refl _ u4
    exact hu4.trans (hu5.trans (wr_keepsBelow u5 _ _ _ (by decide)))
  have hframe : u6 = { u1 with regs := u6.regs } := by
    have hu5 : u5 = { u2 with regs := u5.regs } := by
      unfold u5
      split <;> rfl
    have hu6 : u6 = { u5 with regs := u6.regs } := rfl
    rw [hu6, hu5, hserial]
  have hfile3 : u3.fileOk := wr_fileOk hfile _ _ _
  have hstate6 : u6.rdN Reg.port_STATE h = 7 := (hlate.rdN hfile3 rfl hh le_rfl).trans hstate
  have hbound6 : u6.bound h = true := by
    rw [bound_of_keepsBelow hlate hfile3 (by decide), bound_of_keepsBelow (wr_keepsBelow u2 Reg.port_STATE h 7 le_rfl) hfile (by decide),
      bound_of_keepsBelow hu2 hs le_rfl, hbound]
  have hfile6 : u6.fileOk := (hlate hfile3).1
  have hport6 : portHeld (u6.port h) = (some d, some d.serial) := by
    rw [hframe]
    exact hheld
  have hacts6 : u6.acts = s.acts := (congrArg State.acts hframe :)
  have hsafe6 : u6.safeN = s.safeN := (congrArg State.safeN hframe :)
  have hwait6 : u6.spinWait = s.spinWait := (congrArg State.spinWait hframe :)
  have hreact6 : u6.reactHda h = s.reactHda h := by
    rw [hframe]
    rfl
  clear_value u6
  obtain ⟨hkept7, hport7, hacts7, hwait7, -, hsafe7⟩ := freed_facts hbound6 ((up_iff u6 h).2 hstate6)
  have hu7 : u7 = freed u6 h := rfl
  rw [← hu7] at hkept7 hport7 hacts7 hwait7 hsafe7
  have hfile7 : u7.fileOk := (hkept7 hfile6).1
  have hlimits : KeepsBelow (Reg.port_CRED_CTL.id * 0x100000) u7 wait := by
    have hlo : KeepsBelow (Reg.port_CRED_CTL.id * 0x100000) u7 (u7.wrAt Reg.therm_HK_LO 0 (48 + h) (mv 80)) :=
      wrAt_keepsBelow u7 _ _ _ _ (le_trans (by decide) (id_le_key _ _ _))
    have hhi : KeepsBelow (Reg.port_CRED_CTL.id * 0x100000) u7 u8 :=
      hlo.trans (wrAt_keepsBelow _ _ _ _ _ (le_trans (by decide) (id_le_key _ _ _)))
    exact hhi.of_regs rfl
  have hrec := trace_recorded wait 7 .training h [7] false
  have hsafe : wait.safeN = u7.safeN := rfl
  have hspin : wait.spinWait = if u7.spinWait.contains h = true ∨ free = false then u7.spinWait
      else sortBy (fun (a b : Nat) => a ≤ b) (h :: u7.spinWait) := rfl
  refine ⟨?_, ?_, ?_, fun hfree => ⟨?_, ?_⟩, fun hlow => ⟨?_, ?_⟩⟩
  · rw [hrec.rdN, hlimits.rdN hfile7 rfl hh (by decide), hkept7.rdN hfile6 rfl hh (by decide), hstate6]
  · rw [hrec.port]
    exact hport7.trans hport6
  · exact hrec.acts.trans (hacts7.trans hacts6)
  · rw [hrec.safeN, hsafe, hsafe7, if_pos (hreact6.symm ▸ hfree), hsafe6]
  · rw [hrec.spinWait, hspin]
    split
    · next hc =>
      exact hc.resolve_right fun hne => by simp [free, hreact6, hfree] at hne
    · exact List.contains_iff_mem.2 ((mem_sortBy _ _ _).2 List.mem_cons_self)
  · rw [hrec.safeN, hsafe, hsafe7, if_neg (by omega), hsafe6]
  · have hfree : free = false := by simp [free, hreact6, hlow]
    rw [hrec.spinWait, hspin, if_pos (.inr hfree), hwait7, hwait6]

end Sys2Proof.Proofs

namespace Sys2Proof.Proofs
open Sys2Proof.Machine Sys2Proof.Laws

/-! ### A port is unbound (R52, R54) -/

theorem portCause_le (c : Structure) (p : PortRec) (d : Desc) (h : Nat) (serial : Option (List Byte)) (bad : Bool) :
    portCause c p d h serial bad ≤ 10 := by
  unfold portCause
  (repeat' split) <;> omega

/-- What a port that is unbound leaves. -/
structure CameUnbound (t : State) (h cause : Nat) : Prop where
  bound : t.bound h = false
  cause : (t.rdAt Reg.status_PORT_CAUSE 0 h).toNat = cause
  safeN : t.safeN.getLsbD h = false

theorem KeepsBelow.mono {b c : Nat} (hbc : b ≤ c) {s t : State} (h : KeepsBelow c s t) : KeepsBelow b s t := fun hs =>
  ⟨(h hs).1, fun f i j hk => (h hs).2 f i j (hk.trans_le hbc)⟩

/-- A fault writes fields that come after the status of the ports. -/
theorem raise_keepsBelow (s : State) (ftype inst : Nat) (info : Word) (injected : Bool) :
    KeepsBelow portStatusKeys s (s.raise ftype inst info injected) := fun hs =>
  have hfile := (raise_keeps s ftype inst info injected (keeps_refl s)).regs hs
  ⟨hfile, fun _ _ _ hk => (raise_lowered s ftype inst info injected).rdAt hs hfile hk⟩

/-- The port's cause, and its place among the bound ports. -/
def unboundShown (s : State) (h cause : Nat) : State :=
  (s.wrAt Reg.status_PORT_CAUSE 0 h (BitVec.ofNat 32 cause)).wrBit Reg.status_PORT_BOUND 0 h false

theorem unboundShown_facts {s : State} (hs : s.fileOk) {h : Nat} (hh : h < 32) {cause : Nat} (hcause : cause < 16) :
    (unboundShown s h cause).fileOk ∧ (unboundShown s h cause).bound h = false ∧
      ((unboundShown s h cause).rdAt Reg.status_PORT_CAUSE 0 h).toNat = cause := by
  have hfile : (s.wrAt Reg.status_PORT_CAUSE 0 h (BitVec.ofNat 32 cause)).fileOk := wrAt_rising _ _ _ _ _ hs
  have hlast : (unboundShown s h cause).rdAt Reg.status_PORT_CAUSE 0 h =
      (s.wrAt Reg.status_PORT_CAUSE 0 h (BitVec.ofNat 32 cause)).rdAt Reg.status_PORT_CAUSE 0 h :=
    rdAt_wrAt_of_id_ne hfile (by decide) (by decide) (by omega)
  refine ⟨wrAt_rising _ _ _ _ _ hfile, rdBit_wrBit_false hfile _ _ _, ?_⟩
  rw [hlast, rdAt_wrAt _ _ _ _ _ hs, toNat_trunc _ (by decide), BitVec.toNat_ofNat]
  simp only [RegField.width, Reg.status_PORT_CAUSE]
  omega

theorem audit_safeN (s : State) (cat : Nat) (ev : Ev) (inst : Nat) (args : List Nat) (firmware : Bool) :
    (s.audit cat ev inst args firmware).safeN = s.safeN := by
  rw [audit_frame]

theorem getLsbD_hdaMask {h : Nat} (hh : h < 32) : (hdaMask h).getLsbD h = true := by
  rw [hdaMask, BitVec.getLsbD_ofNat, Nat.testBit_two_pow_self]
  simp [hh]

theorem unbind_cameUnbound {s : State} (hs : s.fileOk) {h : Nat} (hh : h < 32) {cause : Nat} (hcause : cause < 16) :
    CameUnbound (s.unbind h cause) h cause := by
  obtain ⟨hfile, hbound, hshown⟩ := unboundShown_facts hs hh hcause
  unfold State.unbind
  extract_lets u1 u2 u3 u4 u5
  have hu3 : KeepsBelow portStatusKeys (unboundShown s h cause) u3 := by
    have hlock : KeepsBelow portStatusKeys (unboundShown s h cause) ((unboundShown s h cause).wr Reg.port_LANE_LOCK h 0) :=
      wr_keepsBelow _ _ _ _ (by decide)
    exact (hlock.trans (wr_keepsBelow _ Reg.port_LANES h 0 (by decide))).of_regs rfl
  have hu4 : KeepsBelow portStatusKeys u3 u4 := raise_keepsBelow u3 _ _ _ _
  have hu5 : KeepsBelow portStatusKeys u4 u5 := (audit_keepsBelow u4 _ _ _ _ _).mono (by decide)
  have hlate := hu3.trans (hu4.trans hu5)
  have hsafe3 : u3.safeN.getLsbD h = false := by
    change (u2.safeN &&& ~~~(hdaMask h)).getLsbD h = false
    rw [BitVec.getLsbD_and, BitVec.getLsbD_not, getLsbD_hdaMask hh]
    simp
  have hsafe5 : u5.safeN = u4.safeN := audit_safeN u4 _ _ _ _ _
  have hsafe4 : u4.safeN.getLsbD h = false := by
    rw [Bool.eq_false_iff]
    exact fun hhigh => Bool.false_ne_true (hsafe3.symm.trans ((raise_lowered u3 _ _ _ _).safeN h hhigh))
  have hupd (f g : ActSt → ActSt) : KeepsBelow portStatusKeys (unboundShown s h cause) ((u5.updAct (2 * h) f).updAct (2 * h + 1) g) :=
    hlate.of_regs (by simp only [updAct_regs])
  refine ⟨?_, ?_, ?_⟩
  · rw [bound_of_keepsBelow (hupd _ _) hfile le_rfl, hbound]
  · rw [(hupd _ _ hfile).2 Reg.status_PORT_CAUSE 0 h (by simp only [RegField.key, Reg.status_PORT_CAUSE, portStatusKeys]; omega), hshown]
  · rw [updAct_safeN, updAct_safeN, hsafe5, hsafe4]

/-! ### The command -/

theorem descriptorRead_none (s : State) (h : Hda) (hs : s.fileOk) (htr : s.training h = true) (c0 c1 : List Byte)
    (hst : s.rdN Reg.port_STATE h = 6) (hnone : chooseCopy c0 c1 = none) :
    ∃ t, exec (.descriptorRead h c0 c1) s = .next t ∧ t.bound h = false ∧ (t.rdAt Reg.status_PORT_CAUSE 0 h).toNat = 8 := by
  have hun := unbind_cameUnbound ((descAsked_spoke s h c0 c1).kept hs).1 h.isLt (cause := 8) (by decide)
  rw [← descTaken_none hnone] at hun
  exact ⟨_, exec_descriptorRead htr hst c0 c1, hun.bound, hun.cause⟩

theorem descriptorRead_some (s : State) (h : Hda) (hs : s.fileOk) (htr : s.training h = true) (c0 c1 : List Byte) (c : Nat) (d : Desc)
    (p : PortRec) (hst : s.rdN Reg.port_STATE h = 6) (hsome : chooseCopy c0 c1 = some (c, d)) (hport : s.str.port h = some p) :
    let cause := portCause s.str p d h (s.port h).serialBound d.geometryBad
    ∃ t, exec (.descriptorRead h c0 c1) s = .next t ∧ t.cfg = s.cfg ∧
      (cause = 0 → t.rdN Reg.port_STATE h = 7 ∧ (t.port h).desc = some d ∧ (t.port h).serialBound = some d.serial ∧ t.acts = s.acts ∧
        (s.reactHda h < 3 → t.safeN = s.safeN ||| hdaMask h ∧ t.spinWait.contains h.val = true) ∧
        (3 ≤ s.reactHda h → t.safeN = s.safeN ∧ t.spinWait = s.spinWait)) ∧
      (cause ≠ 0 → t.bound h = false ∧ (t.rdAt Reg.status_PORT_CAUSE 0 h).toNat = cause ∧ t.safeN.getLsbD h = false) := by
  intro cause
  have hspoke := descAsked_spoke s h c0 c1
  have hasked := (hspoke.kept hs).1
  have hexec := exec_descriptorRead htr hst c0 c1
  have hcfg : (descTaken s h c0 c1).cfg = s.cfg := (execDescriptorRead_calm h c0 c1 s _ hexec).cfg
  have htaken : descTaken s h c0 c1 = if cause = 0 then ((descAsked s h c0 c1).wrN Reg.port_DESC_COPY h c).portUp h d
      else ((descAsked s h c0 c1).wrN Reg.port_DESC_COPY h c).unbind h cause := descTaken_some hsome hport
  generalize hv : (descAsked s h c0 c1).wrN Reg.port_DESC_COPY h c = v at htaken
  have hvfile : v.fileOk := hv ▸ wrN_fileOk hasked _ _ _
  have hvbound : v.bound h = true := by
    have hnoted : KeepsBelow portStatusKeys (descAsked s h c0 c1) v :=
      hv ▸ wr_keepsBelow (descAsked s h c0 c1) Reg.port_DESC_COPY h (BitVec.ofNat 32 c) (by decide)
    rw [bound_of_keepsBelow hnoted hasked le_rfl, bound_of_keepsBelow hspoke.kept hs (by decide), training_bound htr]
  have hsafe : v.safeN = s.safeN := hv ▸ (congrArg State.safeN hspoke.frame :)
  have hwait : v.spinWait = s.spinWait := hv ▸ (congrArg State.spinWait hspoke.frame :)
  have hacts : v.acts = s.acts := hv ▸ (congrArg State.acts hspoke.frame :)
  have hflt : v.flt = s.flt := hv ▸ (congrArg State.flt hspoke.frame :)
  have hreact : v.reactHda h = s.reactHda h := by rw [State.reactHda, hflt, State.reactHda]
  refine ⟨_, hexec, hcfg, fun h0 => ?_, fun hne => ?_⟩
  · rw [if_pos h0] at htaken
    obtain ⟨hstate, hheld, hkept, hfree, hlow⟩ := portUp_cameUp hvfile h.isLt hvbound d
    rw [htaken]
    rw [hreact, hsafe] at hfree hlow
    rw [hwait] at hlow
    exact ⟨hstate, congrArg Prod.fst hheld, congrArg Prod.snd hheld, hkept.trans hacts, hfree, hlow⟩
  · rw [if_neg hne] at htaken
    have hun := unbind_cameUnbound hvfile h.isLt
      (lt_of_le_of_lt (portCause_le s.str p d h (s.port h).serialBound d.geometryBad) (by decide))
    rw [htaken]
    exact ⟨hun.bound, hun.cause, hun.safeN⟩

/-- Settles O25: each command is followed from its first register write to the last, the state of the port read where it was written. -/
theorem linkTrainingBindsThePort : Obligations.LinkTrainingBindsThePort := by
  refine ⟨fun s h hs => ⟨trainingAttempt_starts s h hs, fun htr far => ?_, trainingStateTimeout_again s h hs,
    trainingStateTimeout_waits s h hs, trainingRetry_starts s h hs⟩, fun s h hs htr => ⟨?_, ?_, ?_⟩⟩
  · exact ⟨trainingStateDone_signal s h far hs htr, trainingStateDone_bitLock s h far hs htr, trainingStateDone_equalise s h far hs htr,
      trainingStateDone_deskew s h far hs htr⟩
  · exact fun hdr m => helloAck_taken s h hs htr hdr m
  · exact fun c0 c1 c d p => descriptorRead_some s h hs htr c0 c1 c d p
  · exact descriptorRead_none s h hs htr

end Sys2Proof.Proofs

namespace Sys2Proof.Proofs
open Sys2Proof.Machine Sys2Proof.Laws

/-! ## Mailbox directions and locks (R76 to R89) -/

/-! ### What an operation on a direction does to the mailboxes, and what it leaves alone -/

/-- An interrupt message goes out or waits in the host's pending array; nothing else changes (R25). -/
theorem msixSend_frame (s : State) (v : Nat) : s.msixSend v = { s with out := (s.msixSend v).out, host := (s.msixSend v).host } := by
  unfold State.msixSend
  split <;> rfl

theorem foldl_msixSend_frame {α : Type} (l : List α) (p : α → Prop) [DecidablePred p] (v : Nat) (s : State) :
    let t := l.foldl (fun s i => if p i then s.msixSend v else s) s
    t = { s with out := t.out, host := t.host } := by
  refine List.foldlRecOn (motive := fun t : State => t = { s with out := t.out, host := t.host }) l _ rfl fun t ht i _ => ?_
  split
  · rw [msixSend_frame, ht]
  · exact ht

/-- A change of a direction changes the mailboxes, and beside them at most tells the host (R79). -/
theorem mbPut_frame (s : State) (ch d : Nat) (f : Mbox → Mbox) :
    s.mbPut ch d f = { s with
      mbox := (s.updMbox ch d f).mbox, out := (s.mbPut ch d f).out, host := (s.mbPut ch d f).host } := by
  have hm : s.updMbox ch d (fun _ => f (s.mb ch d)) = s.updMbox ch d f := updMbox_congr rfl
  unfold State.mbPut
  dsimp only
  rw [hm]
  split
  · exact foldl_msixSend_frame _ _ _ _
  · rfl

theorem mb_mbPut (s : State) (ch d c e : Nat) (f : Mbox → Mbox) : (s.mbPut ch d f).mb c e = (s.updMbox ch d f).mb c e := by
  rw [mbPut_frame]
  rfl

theorem mb_mbPut_same {ch d : Nat} (h : 2 * ch + d < 128) (s : State) (f : Mbox → Mbox) : (s.mbPut ch d f).mb ch d = f (s.mb ch d) :=
  (mb_mbPut ..).trans (mb_updMbox_same h s f)

theorem mb_mbPut_ne {ch d c e : Nat} (h : 2 * ch + d ≠ 2 * c + e) (s : State) (f : Mbox → Mbox) : (s.mbPut ch d f).mb c e = s.mb c e :=
  (mb_mbPut ..).trans (mb_updMbox_ne h s f)

/-- From `s` to `t` the mailboxes, the order of the requests and what the host is told may change, and nothing else. -/
def MailOnly (s t : State) : Prop :=
  t = { s with mbox := t.mbox, out := t.out, host := t.host, husk := { s.husk with requests := t.husk.requests } }

theorem MailOnly.refl (s : State) : MailOnly s s := rfl

theorem MailOnly.trans {s t u : State} (h : MailOnly s t) (k : MailOnly t u) : MailOnly s u := by
  unfold MailOnly at *
  rw [k, h]

theorem MailOnly.of_eq {s t u : State} (h : MailOnly s t) (e : u = t) : MailOnly s u := e ▸ h

/-- Who reaches what is not a matter of the mailboxes. -/
theorem MailOnly.mbReach {s t : State} (h : MailOnly s t) {w : Initiator} {ch d off : Nat} {wr : Bool} (hr : s.mbReach w ch d off wr) :
    t.mbReach w ch d off wr := by
  rw [h]
  exact hr

theorem MailOnly.chan {s t : State} (h : MailOnly s t) (ch : Nat) : t.chan ch = s.chan ch := by
  rw [h]
  rfl

theorem MailOnly.regs {s t : State} (h : MailOnly s t) : t.regs = s.regs := by rw [h]
theorem MailOnly.mem {s t : State} (h : MailOnly s t) : t.mem = s.mem := by rw [h]
theorem MailOnly.locks {s t : State} (h : MailOnly s t) : t.locks = s.locks := by rw [h]

theorem mbPut_mailOnly (s : State) (ch d : Nat) (f : Mbox → Mbox) : MailOnly s (s.mbPut ch d f) := by
  unfold MailOnly
  rw [mbPut_frame]

/-! ### Access to a mailbox register (R26, R63) -/

/-- An initiator that reaches a register acts on the state with the channels' island awake. -/
theorem mbAccess_of_reach {s : State} {w : Initiator} {ch d off : Nat} {wr : Bool} (h : s.mbReach w ch d off wr) :
    ∃ k, ∀ act : State → State, s.mbAccess w ch d off wr act = act (s.wake k) := by
  obtain ⟨hw, hch⟩ | ⟨hw, hacc⟩ := h
  · exact ⟨7, fun act => by rw [State.mbAccess, if_pos hw, if_pos hch]⟩
  · exact ⟨_, fun act => by rw [State.mbAccess, if_neg hw, State.guardAcc, hacc]⟩

theorem guard_of_may {s : State} {w : Initiator} {a : Nat} (h : s.may w a true) (act : State → State) :
    s.guard w a act = act (s.wake (islandOf a)) := by
  rw [State.guard, if_neg h.1, State.guardAcc, h.2]

/-! ### GO (R80, R84) -/

theorem mbGo_of_full {s : State} {ch d : Nat} (h : (s.mb ch d).full = true) (who : Initiator) :
    s.mbGo ch d who = s.mbPut ch d (fun m => { m with ovr := true }) := if_pos h

/-- What a message taken does to its direction. -/
def sentMsg (who : Initiator) (m : Mbox) : Mbox := { m with full := true, sender := who, msgCnt := m.msgCnt + 1, fullI := true }

theorem mbGo_of_empty {s : State} {ch d : Nat} (h : (s.mb ch d).full = false) (who : Initiator) :
    (s.mbGo ch d who).mbox = (s.mbPut ch d (sentMsg who)).mbox ∧ MailOnly s (s.mbGo ch d who) := by
  have hp := mbPut_mailOnly s ch d (sentMsg who)
  unfold State.mbGo
  rw [if_neg (Bool.eq_false_iff.1 h)]
  dsimp only
  split
  · exact ⟨rfl, hp.trans rfl⟩
  · exact ⟨rfl, hp⟩

theorem mbGo_mailOnly (s : State) (ch d : Nat) (who : Initiator) : MailOnly s (s.mbGo ch d who) := by
  cases h : (s.mb ch d).full with
  | false => exact (mbGo_of_empty h who).2
  | true => exact (mbPut_mailOnly ..).of_eq (mbGo_of_full h who)

theorem mb_mbGo_same {s : State} {ch d : Nat} (hk : 2 * ch + d < 128) (who : Initiator) :
    (s.mbGo ch d who).mb ch d = if (s.mb ch d).full then { s.mb ch d with ovr := true } else sentMsg who (s.mb ch d) := by
  cases h : (s.mb ch d).full with
  | true => rw [mbGo_of_full h, mb_mbPut_same hk, if_pos rfl]
  | false =>
    rw [State.mb, (mbGo_of_empty h who).1]
    exact mb_mbPut_same hk s _

theorem mb_mbGo_ne {s : State} {ch d c e : Nat} (hk : 2 * ch + d ≠ 2 * c + e) (who : Initiator) :
    (s.mbGo ch d who).mb c e = s.mb c e := by
  cases h : (s.mb ch d).full with
  | true => rw [mbGo_of_full h, mb_mbPut_ne hk]
  | false =>
    rw [State.mb, (mbGo_of_empty h who).1]
    exact mb_mbPut_ne hk s _

/-- Both directions of a channel show the crossing (R84). -/
def crossedMsg (m : Mbox) : Mbox := { m with cross := true, crossI := true }

theorem mbCross_mailOnly (s : State) (ch : Nat) (newly : Bool) : MailOnly s (s.mbCross ch newly) := by
  unfold State.mbCross
  split
  · exact (mbPut_mailOnly ..).trans (mbPut_mailOnly ..)
  · exact .refl s

theorem mb_mbCross {ch d : Nat} (hch : ch < 64) (hd : d < 2) (s : State) (newly : Bool) :
    (s.mbCross ch newly).mb ch d =
      if newly && (s.mb ch 0).full && (s.mb ch 1).full then crossedMsg (s.mb ch d) else s.mb ch d := by
  unfold State.mbCross
  split
  · have hd : d = 0 ∨ d = 1 := by omega
    obtain rfl | rfl := hd
    · rw [mb_mbPut_ne (by omega), mb_mbPut_same (by omega)]
      rfl
    · rw [mb_mbPut_same (by omega), mb_mbPut_ne (by omega)]
      rfl
  · rfl

theorem mb_mbCross_ne {ch c : Nat} (hc : c ≠ ch) {e : Nat} (he : e < 2) (s : State) (newly : Bool) :
    (s.mbCross ch newly).mb c e = s.mb c e := by
  unfold State.mbCross
  split
  · rw [mb_mbPut_ne (by omega), mb_mbPut_ne (by omega)]
  · rfl

/-- A cycle with a GO alone. -/
theorem execGo_alone {s : State} {ch : Fin 64} {d : Fin 2} {w : Initiator} (hr : s.mbReach w ch d 0x40 true)
    (hm : mayAct w ch d true = true) :
    ∃ k, exec (.go ch d w .none .none) s = .next (((s.wake k).mbGo ch d w).mbCross ch
      (!(s.mb ch d).full && (((s.wake k).mbGo ch d w).mb ch d).full)) := by
  obtain ⟨k, hk⟩ := mbAccess_of_reach hr
  refine ⟨k, ?_⟩
  change execGo ch d w .none .none s = _
  simp only [execGo, State.mbRecv, hk, if_pos hm]

theorem go_alone (s : State) (ch : Fin 64) (d : Fin 2) (w : Initiator) (hr : s.mbReach w ch d 0x40 true)
    (hm : mayAct w ch d true = true) :
    ∃ t, exec (.go ch d w .none .none) s = .next t ∧ t.regs = s.regs ∧ t.mem = s.mem ∧ t.locks = s.locks ∧
      (∀ (c : Fin 64) (e : Fin 2), c ≠ ch → t.mb c e = s.mb c e) ∧
      ((s.mb ch d).full = true → t.mb ch d = { s.mb ch d with ovr := true } ∧ t.mb ch (1 - d.val) = s.mb ch (1 - d.val)) ∧
      ((s.mb ch d).full = false →
        t.mb ch d = { s.mb ch d with
          full := true, sender := w, msgCnt := (s.mb ch d).msgCnt + 1, fullI := true,
          cross := (s.mb ch d).cross || (s.mb ch (1 - d.val)).full, crossI := (s.mb ch d).crossI || (s.mb ch (1 - d.val)).full } ∧
        t.mb ch (1 - d.val) = (if (s.mb ch (1 - d.val)).full then { s.mb ch (1 - d.val) with cross := true, crossI := true }
          else s.mb ch (1 - d.val))) := by
  obtain ⟨k, hexec⟩ := execGo_alone hr hm
  have hch := ch.isLt
  have hd := d.isLt
  have hgo : ((s.wake k).mbGo ch d w).mb ch d = if (s.mb ch d).full then { s.mb ch d with ovr := true } else sentMsg w (s.mb ch d) :=
    mb_mbGo_same (by omega) w
  have hother : ((s.wake k).mbGo ch d w).mb ch (1 - d.val) = s.mb ch (1 - d.val) := mb_mbGo_ne (by omega) w
  have hmail := (mbGo_mailOnly (s.wake k) ch d w).trans (mbCross_mailOnly _ ch (!(s.mb ch d).full && (((s.wake k).mbGo ch d w).mb ch d).full))
  refine ⟨_, hexec, hmail.regs, hmail.mem, hmail.locks, fun c e hc => ?_, fun hfull => ?_, fun hfree => ?_⟩
  · have hne : c.val ≠ ch.val := fun h => hc (Fin.ext h)
    rw [mb_mbCross_ne hne e.isLt]
    exact mb_mbGo_ne (by omega) w
  · rw [mb_mbCross hch hd, mb_mbCross hch (by omega), hgo, hother, hfull]
    exact ⟨rfl, rfl⟩
  · have hboth : ((!(s.mb ch d).full && (((s.wake k).mbGo ch d w).mb ch d).full) && (((s.wake k).mbGo ch d w).mb ch 0).full &&
        (((s.wake k).mbGo ch d w).mb ch 1).full) = (s.mb ch (1 - d.val)).full := by
      have hfull : (((s.wake k).mbGo ch d w).mb ch d).full = true := by rw [hgo, hfree]; rfl
      have hd : d.val = 0 ∨ d.val = 1 := by omega
      obtain h | h := hd <;> simp only [h] at hfull hother hfree ⊢ <;> simp [hfull, hother, hfree]
    rw [mb_mbCross hch hd, mb_mbCross hch (by omega), hboth, hgo, hother, hfree]
    cases (s.mb ch (1 - d.val)).full <;> simp [sentMsg, crossedMsg]

/-! ### Data writes (R79) -/

theorem vupd_word (v : Vector Word 16) (i : Fin 16) (x : Word) (j : Nat) :
    ((vupd v i (fun _ => x)).toArray.getD j 0).toNat = if j = i.val then x.toNat else (v.toArray.getD j 0).toNat := by
  rw [vupd_getD]
  by_cases h : j = i.val
  · rw [if_pos ⟨h.symm, h ▸ i.isLt⟩, if_pos h]
  · rw [if_neg fun hc => h hc.1.symm, if_neg h]

theorem mbData_mailOnly (s : State) (ch d i : Nat) (v : Word) : MailOnly s (s.mbData ch d i v) := by
  unfold State.mbData
  split
  · exact .refl s
  · exact mbPut_mailOnly ..

theorem mb_mbData_ne {ch d c e : Nat} (h : 2 * ch + d ≠ 2 * c + e) (s : State) (i : Nat) (v : Word) :
    (s.mbData ch d i v).mb c e = s.mb c e := by
  unfold State.mbData
  split
  · rfl
  · exact mb_mbPut_ne h s _

theorem mb_mbData_same {ch d i : Nat} (h : 2 * ch + d < 128) {s : State} (hi : i < (s.chan ch).regs) (v : Word) :
    (s.mbData ch d i v).mb ch d =
      if (s.mb ch d).full then { s.mb ch d with ovr := true } else { s.mb ch d with data := vupd (s.mb ch d).data i (fun _ => v) } := by
  unfold State.mbData
  rw [if_neg (Nat.not_le.2 hi), mb_mbPut_same h]

theorem mailboxDataWrite (s : State) (ch : Fin 64) (d : Fin 2) (i : Fin 16) (w : Initiator) (v : Word)
    (hr : s.mbReach w ch d (4 * i.val) true) (hm : mayAct w ch d true = true) :
    ∃ t, exec (.mailboxDataWrite ch d i w v) s = .next t ∧ t.regs = s.regs ∧ t.mem = s.mem ∧ s.mbOthers t ch d ∧
      ((s.chan ch).regs ≤ i.val → s.onlyWakes t) ∧
      (i.val < (s.chan ch).regs → (s.mb ch d).full = true → t.mb ch d = { s.mb ch d with ovr := true }) ∧
      (i.val < (s.chan ch).regs → (s.mb ch d).full = false → t.mbWord ch d i = v.toNat ∧
        (∀ j : Fin 16, j ≠ i → t.mbWord ch d j = s.mbWord ch d j) ∧
        t.mb ch d = { s.mb ch d with data := (t.mb ch d).data }) := by
  obtain ⟨k, hk⟩ := mbAccess_of_reach hr
  have hch := ch.isLt
  have hd := d.isLt
  have hexec : exec (.mailboxDataWrite ch d i w v) s = .next ((s.wake k).mbData ch d i v) := by
    change Host.Outcome.next (s.mbAccess w ch d (4 * i.val) true _) = _
    rw [hk, if_pos hm]
  have hmail := mbData_mailOnly (s.wake k) ch d i v
  have hsame (hi : i.val < (s.chan ch).regs) : ((s.wake k).mbData ch d i v).mb ch d = if (s.mb ch d).full
      then { s.mb ch d with ovr := true } else { s.mb ch d with data := vupd (s.mb ch d).data i (fun _ => v) } :=
    mb_mbData_same (s := s.wake k) (ch := ch) (d := d) (by omega) hi v
  refine ⟨_, hexec, hmail.regs, hmail.mem, fun c e hne => mb_mbData_ne (by omega) _ _ _, fun hi => ?_, fun hi hfull => ?_,
    fun hi hfree => ?_⟩
  · have hstay : (s.wake k).mbData ch d i v = s.wake k := if_pos hi
    rw [hstay]
    rfl
  · rw [hsame hi, hfull]
    rfl
  · rw [hfree] at hsame
    simp only [State.mbWord, hsame hi, Bool.false_eq_true, if_false, vupd_word]
    exact ⟨if_pos trivial, fun j hj => if_neg fun h => hj (Fin.ext h), trivial⟩

/-! ### RELEASE and RCV_RESET (R81 to R83) -/

/-- A message released in native mode (R81). -/
def releasedMsg (m : Mbox) : Mbox := { m with full := false, data := noData, emptyI := true }

/-- A message aborted by its receiver (R83). -/
def abortedMsg (compat : Bool) (m : Mbox) : Mbox :=
  { m with full := false, data := noData, aborted := true, abortI := m.abortI || !compat }

theorem noData_word (i : Nat) : (noData.toArray.getD i 0).toNat = 0 := by
  simp [noData, Array.getD]

theorem mbRelease_of_full {s : State} {ch d : Nat} (hc : (s.chan ch).compat = false) (h : (s.mb ch d).full = true) :
    s.mbRelease ch d = s.mbPut ch d releasedMsg := if_neg (by simp [hc, h])

theorem mbRelease_of_ignored {s : State} {ch d : Nat} (h : (s.chan ch).compat = true ∨ (s.mb ch d).full = false) :
    s.mbRelease ch d = s := if_pos h

theorem mbRcvReset_of_empty {s : State} {ch d : Nat} (h : (s.mb ch d).full = false) : s.mbRcvReset ch d = s :=
  if_neg (Bool.eq_false_iff.1 h)

theorem mbUnqueue_mailOnly (s : State) (ch d : Nat) : MailOnly s (s.mbUnqueue ch d) := by
  unfold State.mbUnqueue
  split <;> rfl

theorem mbRcvReset_of_full {s : State} {ch d : Nat} (h : (s.mb ch d).full = true) :
    (s.mbRcvReset ch d).mbox = (s.mbPut ch d (abortedMsg (s.chan ch).compat)).mbox ∧ MailOnly s (s.mbRcvReset ch d) := by
  have hp := mbPut_mailOnly s ch d (abortedMsg (s.chan ch).compat)
  have he : s.mbRcvReset ch d = (s.mbPut ch d (abortedMsg (s.chan ch).compat)).mbUnqueue ch d := if_pos h
  rw [he]
  exact ⟨(mbUnqueue_calm _ ch d (calm_refl _)).mbox, hp.trans (mbUnqueue_mailOnly _ ch d)⟩

theorem mbRcvReset_mailOnly (s : State) (ch d : Nat) : MailOnly s (s.mbRcvReset ch d) := by
  cases h : (s.mb ch d).full with
  | false => exact (MailOnly.refl s).of_eq (mbRcvReset_of_empty h)
  | true => exact (mbRcvReset_of_full h).2

theorem mb_mbRcvReset_same {ch d : Nat} (hk : 2 * ch + d < 128) {s : State} (h : (s.mb ch d).full = true) :
    (s.mbRcvReset ch d).mb ch d = abortedMsg (s.chan ch).compat (s.mb ch d) := by
  rw [State.mb, (mbRcvReset_of_full h).1]
  exact mb_mbPut_same hk s _

theorem mb_mbRcvReset_ne {ch d c e : Nat} (hk : 2 * ch + d ≠ 2 * c + e) (s : State) : (s.mbRcvReset ch d).mb c e = s.mb c e := by
  cases h : (s.mb ch d).full with
  | false => rw [mbRcvReset_of_empty h]
  | true =>
    rw [State.mb, (mbRcvReset_of_full h).1]
    exact mb_mbPut_ne hk s _

theorem mbRecv_release_of_reach {s : State} {w : Initiator} {ch d : Nat} (hr : s.mbReach w ch d 0x40 true) :
    ∃ k, s.mbRecv ch d (.release w) = if mayAct w ch d false then (s.wake k).mbRelease ch d else s.wake k := by
  obtain ⟨k, hk⟩ := mbAccess_of_reach hr
  exact ⟨k, by rw [State.mbRecv, hk]⟩

theorem mbRecv_rcvReset_of_reach {s : State} {w : Initiator} {ch d : Nat} (hr : s.mbReach w ch d 0x40 true)
    (hm : mayAct w ch d false = true) : ∃ k, s.mbRecv ch d (.rcvReset w) = (s.wake k).mbRcvReset ch d := by
  obtain ⟨k, hk⟩ := mbAccess_of_reach hr
  exact ⟨k, by rw [State.mbRecv, hk, if_pos hm]⟩

theorem rcvReset (s : State) (ch : Fin 64) (d : Fin 2) (w : Initiator) (hr : s.mbReach w ch d 0x40 true)
    (hm : mayAct w ch d false = true) :
    ∃ t, exec (.rcvReset ch d w) s = .next t ∧ t.regs = s.regs ∧ t.mem = s.mem ∧ s.mbOthers t ch d ∧
      ((s.mb ch d).full = false → s.onlyWakes t) ∧
      ((s.mb ch d).full = true → (∀ i : Fin 16, t.mbWord ch d i = 0) ∧
        t.mb ch d = { s.mb ch d with
          full := false, data := (t.mb ch d).data, aborted := true, abortI := (s.mb ch d).abortI || !(s.chan ch).compat }) := by
  obtain ⟨k, hk⟩ := mbRecv_rcvReset_of_reach hr hm
  have hch := ch.isLt
  have hd := d.isLt
  have hmail := mbRcvReset_mailOnly (s.wake k) ch d
  refine ⟨_, congrArg Host.Outcome.next hk, hmail.regs, hmail.mem, fun c e hne => mb_mbRcvReset_ne (by omega) _, fun hfree => ?_,
    fun hfull => ?_⟩
  · have hstay : (s.wake k).mbRcvReset ch d = s.wake k := mbRcvReset_of_empty hfree
    rw [hstay]
    rfl
  · have hsame : ((s.wake k).mbRcvReset ch d).mb ch d = abortedMsg (s.chan ch).compat (s.mb ch d) := mb_mbRcvReset_same (by omega) hfull
    simp only [State.mbWord, hsame]
    exact ⟨fun i => noData_word i, rfl⟩

theorem release_compat (s : State) (ch : Fin 64) (d : Fin 2) (w : Initiator) (hc : (s.chan ch).compat = true)
    (hr : s.mbReach w ch d 0x40 true) : ∃ t, exec (.release ch d w) s = .next t ∧ s.onlyWakes t := by
  obtain ⟨k, hk⟩ := mbRecv_release_of_reach hr
  have hstay : (s.wake k).mbRelease ch d = s.wake k := mbRelease_of_ignored (.inl hc)
  rw [hstay, ite_self] at hk
  exact ⟨_, congrArg Host.Outcome.next hk, rfl⟩

/-- A read of the last data register of a compatibility channel (R82). -/
theorem compatLastDataRead (s : State) (ch : Fin 64) (d : Fin 2) (w : Initiator) (hc : (s.chan ch).compat = true)
    (hr : s.mbReach w ch d (4 * ((s.chan ch).regs - 1)) false) :
    ∃ t, exec (.compatLastDataRead ch d w) s = .next t ∧ t.regs = s.regs ∧ t.mem = s.mem ∧ s.mbOthers t ch d ∧
      t.mb ch d = { s.mb ch d with full := false } ∧
      (Output.value w ((s.mb ch d).data.toArray.getD ((s.chan ch).regs - 1) 0)) ∈ t.out := by
  obtain ⟨k, hk⟩ := mbAccess_of_reach hr
  have hch := ch.isLt
  have hd := d.isLt
  generalize hu : (s.wake k).emit (.value w ((s.mb ch d).data.toArray.getD ((s.chan ch).regs - 1) 0)) = u
  have hmem : Output.value w ((s.mb ch d).data.toArray.getD ((s.chan ch).regs - 1) 0) ∈ u.out := by
    rw [← hu]
    exact List.mem_append_right _ (List.mem_singleton.2 rfl)
  have hmb (c e : Nat) : u.mb c e = s.mb c e := by rw [← hu]; rfl
  have hexec : exec (.compatLastDataRead ch d w) s =
      .next (if (s.mb ch d).full then u.mbPut ch d (fun m => { m with full := false }) else u) := by
    change Host.Outcome.next (s.mbAccess w ch d _ false _) = _
    rw [hk, ← hu]
    exact congrArg Host.Outcome.next (if_pos hc)
  cases hfull : (s.mb ch d).full with
  | false =>
    rw [hfull, if_neg Bool.false_ne_true] at hexec
    refine ⟨u, hexec, by rw [← hu]; rfl, by rw [← hu]; rfl, fun c e _ => hmb c e, ?_, hmem⟩
    rw [hmb, ← hfull]
  | true =>
    rw [hfull, if_pos rfl] at hexec
    have hmail := mbPut_mailOnly u ch d (fun m => { m with full := false })
    refine ⟨_, hexec, hmail.regs.trans (by rw [← hu]; rfl), hmail.mem.trans (by rw [← hu]; rfl), fun c e hne => ?_, ?_, ?_⟩
    · rw [mb_mbPut_ne (by omega), hmb]
    · rw [mb_mbPut_same (by omega), hmb]
    · exact (mbPut_keeps u ch d _ (keeps_refl u)).sent.subset hmem

/-! ### GO and a receiver's action in one cycle (R85) -/

theorem execGo_rcvReset {s : State} {ch : Fin 64} {d : Fin 2} {w r : Initiator} (hr : s.mbReach w ch d 0x40 true)
    (hm : mayAct w ch d true = true) (hr' : s.mbReach r ch d 0x40 true) (hm' : mayAct r ch d false = true) :
    ∃ j k, exec (.go ch d w (.rcvReset r) .none) s = .next ((((s.wake j).mbGo ch d w).wake k).mbRcvReset ch d |>.mbCross ch
      (!(s.mb ch d).full && ((((s.wake j).mbGo ch d w).wake k).mbRcvReset ch d |>.mb ch d).full)) := by
  obtain ⟨j, hj⟩ := mbAccess_of_reach hr
  obtain ⟨k, hk⟩ := mbRecv_rcvReset_of_reach (s := (s.wake j).mbGo ch d w) ((mbGo_mailOnly (s.wake j) ch d w).mbReach hr') hm'
  refine ⟨j, k, ?_⟩
  change execGo ch d w _ .none s = _
  simp only [execGo, hj, if_pos hm, hk]
  rfl

theorem execGo_release {s : State} {ch : Fin 64} {d : Fin 2} {w r : Initiator} (hr : s.mbReach w ch d 0x40 true)
    (hm : mayAct w ch d true = true) (hr' : s.mbReach r ch d 0x40 true) (hm' : mayAct r ch d false = true) :
    ∃ j k, exec (.go ch d w (.release r) .none) s = .next ((((s.wake j).mbGo ch d w).wake k).mbRelease ch d |>.mbCross ch
      (!(s.mb ch d).full && ((((s.wake j).mbGo ch d w).wake k).mbRelease ch d |>.mb ch d).full)) := by
  obtain ⟨j, hj⟩ := mbAccess_of_reach hr
  obtain ⟨k, hk⟩ := mbRecv_release_of_reach (s := (s.wake j).mbGo ch d w) ((mbGo_mailOnly (s.wake j) ch d w).mbReach hr')
  rw [if_pos hm'] at hk
  refine ⟨j, k, ?_⟩
  change execGo ch d w _ .none s = _
  simp only [execGo, hj, if_pos hm, hk]
  rfl

theorem go_rcvReset (s : State) (ch : Fin 64) (d : Fin 2) (w r : Initiator) (hr : s.mbReach w ch d 0x40 true)
    (hm : mayAct w ch d true = true) (hr' : s.mbReach r ch d 0x40 true) (hm' : mayAct r ch d false = true) :
    ∃ t, exec (.go ch d w (.rcvReset r) .none) s = .next t ∧ (t.mb ch d).full = false ∧ (t.mb ch d).aborted = true ∧
      (t.mb ch d).ovr = ((s.mb ch d).ovr || (s.mb ch d).full) ∧
      (t.mb ch d).msgCnt = (if (s.mb ch d).full then (s.mb ch d).msgCnt else (s.mb ch d).msgCnt + 1) := by
  obtain ⟨j, k, hexec⟩ := execGo_rcvReset hr hm hr' hm'
  have hch := ch.isLt
  have hd := d.isLt
  have hgo : (((s.wake j).mbGo ch d w).wake k).mb ch d = if (s.mb ch d).full then { s.mb ch d with ovr := true } else sentMsg w (s.mb ch d) :=
    mb_mbGo_same (s := s.wake j) (by omega) w
  have hfull : ((((s.wake j).mbGo ch d w).wake k).mb ch d).full = true := by
    rw [hgo]
    split
    · assumption
    · rfl
  have hreset := mb_mbRcvReset_same (by omega) hfull
  refine ⟨_, hexec, ?_⟩
  rw [mb_mbCross hch hd, hreset, hgo]
  cases h : (s.mb ch d).full <;> simp [abortedMsg, sentMsg, h]

theorem go_release_full (s : State) (ch : Fin 64) (d : Fin 2) (w r : Initiator) (hr : s.mbReach w ch d 0x40 true)
    (hm : mayAct w ch d true = true) (hr' : s.mbReach r ch d 0x40 true) (hm' : mayAct r ch d false = true)
    (hc : (s.chan ch).compat = false) (hfull : (s.mb ch d).full = true) :
    ∃ t, exec (.go ch d w (.release r) .none) s = .next t ∧ (t.mb ch d).full = false ∧ (t.mb ch d).ovr = true ∧
      (t.mb ch d).emptyI = true ∧ (t.mb ch d).msgCnt = (s.mb ch d).msgCnt := by
  obtain ⟨j, k, hexec⟩ := execGo_release hr hm hr' hm'
  have hch := ch.isLt
  have hd := d.isLt
  have hgo : (((s.wake j).mbGo ch d w).wake k).mb ch d = if (s.mb ch d).full then { s.mb ch d with ovr := true } else sentMsg w (s.mb ch d) :=
    mb_mbGo_same (s := s.wake j) (by omega) w
  rw [hfull, if_pos rfl] at hgo
  have hc' : ((((s.wake j).mbGo ch d w).wake k).chan ch).compat = false := by
    rw [← hc]
    exact congrArg MboxRec.compat ((mbGo_mailOnly (s.wake j) ch d w).chan ch)
  rw [mbRelease_of_full hc' (by rw [hgo]; exact hfull)] at hexec
  refine ⟨_, hexec, ?_⟩
  rw [mb_mbCross hch hd, mb_mbPut_same (by omega), hgo, hfull]
  exact ⟨rfl, rfl, rfl, rfl⟩

/-- Settles O8. -/
theorem mailboxSending : Obligations.MailboxSending := by
  refine ⟨go_alone, mailboxDataWrite, fun s ch d w => ⟨rcvReset s ch d w, fun hc => ⟨release_compat s ch d w hc, ?_⟩⟩,
    fun s ch d w r hr hm hr' hm' hc => ⟨go_rcvReset s ch d w r hr hm hr' hm', go_release_full s ch d w r hr hm hr' hm' hc⟩⟩
  exact compatLastDataRead s ch d w hc

/-- Settles O9. -/
theorem nativeReleaseEmpties : Obligations.NativeReleaseEmpties := by
  intro s ch d w hr hm hc
  obtain ⟨k, hk⟩ := mbRecv_release_of_reach hr
  rw [if_pos hm] at hk
  have hch := ch.isLt
  have hd := d.isLt
  refine ⟨_, congrArg Host.Outcome.next hk, fun hfree => ?_, fun hfull => ?_⟩
  · have hstay : (s.wake k).mbRelease ch d = s.wake k := mbRelease_of_ignored (.inr hfree)
    rw [hstay]
    rfl
  · have hput : (s.wake k).mbRelease ch d = (s.wake k).mbPut ch d releasedMsg := mbRelease_of_full hc hfull
    have hmail := mbPut_mailOnly (s.wake k) ch d releasedMsg
    have hsame : ((s.wake k).mbPut ch d releasedMsg).mb ch d = releasedMsg (s.mb ch d) := mb_mbPut_same (by omega) _ _
    rw [hput]
    simp only [State.mbWord, hsame]
    exact ⟨rfl, fun i => noData_word i, rfl, rfl, hmail.regs, hmail.mem, fun c e hne => mb_mbPut_ne (by omega) _ _⟩

/-! ### Lock registers (R87 to R89) -/

/-- What a write makes of a lock: the holder's or Husk's frees it (R88). -/
def unlocked (who : Initiator) (l : Lock) : Lock :=
  if l.owner = some who ∨ (l.owner.isSome ∧ who.toNat = idHusk) then { l with owner := none } else l

theorem lock_lockWrite {i : Nat} (hi : i < 256) (s : State) (who : Initiator) (j : Nat) :
    (s.lockWrite i who).lock j = if i = j then unlocked who (s.lock j) else s.lock j := by
  rw [State.lockWrite, lock_updLock]
  by_cases h : i = j
  · rw [if_pos ⟨h, h ▸ hi⟩, if_pos h]
    rfl
  · rw [if_neg fun hc => h hc.1, if_neg h]

theorem unlocked_rrPtr (who : Initiator) (l : Lock) : (unlocked who l).rrPtr = l.rrPtr := by
  unfold unlocked
  split <;> rfl

theorem unlocked_of_free {who : Initiator} {l : Lock} (h : l.owner = none) : unlocked who l = l := if_neg (by simp [h])

theorem unlocked_of_holder {who : Initiator} {l : Lock} (h : l.owner = some who) : (unlocked who l).owner = none := by
  rw [unlocked, if_pos (.inl h)]

theorem unlocked_of_other {who o : Initiator} {l : Lock} (h : l.owner = some o) (hne : o ≠ who) :
    (unlocked who l).owner = if who.toNat = idHusk then none else some o := by
  unfold unlocked
  simp only [h, Option.some.injEq, hne, Option.isSome_some, true_and, false_or]
  split <;> simp [h]

/-- Settles O10. -/
theorem lockWritesReleaseForHolderOrHusk : Obligations.LockWritesReleaseForHolderOrHusk := by
  intro s i w hw
  have hexec : exec (.lockRelease i w) s = .next ((s.wake (islandOf (windowBase 2 + 4 * i.val))).lockWrite i w) :=
    congrArg Host.Outcome.next (guard_of_may hw _)
  have hlock := lock_lockWrite i.isLt (s.wake (islandOf (windowBase 2 + 4 * i.val))) w
  have hsame := (hlock i).trans (if_pos rfl)
  refine ⟨_, hexec, rfl, fun j hj => (hlock j).trans (if_neg fun h => hj (Fin.ext h.symm)), ?_, fun hfree => ?_, fun hown => ?_,
    fun o ho hne => ?_⟩
  · rw [hsame, unlocked_rrPtr]
    rfl
  · rw [hsame]
    exact unlocked_of_free hfree
  · rw [hsame]
    exact unlocked_of_holder hown
  · rw [hsame]
    exact unlocked_of_other ho hne

/-- Where every reader passes the stages of R63, the cycle's reads are those of the readers (R89). -/
def lockReads (s : State) (i : Nat) (readers : List Initiator) : State :=
  match (s.lock i).owner with
  | some o => readers.foldl (fun s r => s.emit (.value r (lockValue false true o))) s
  | none =>
    match lockWinner (s.lock i).rrPtr readers with
    | none => s
    | some w =>
      readers.foldl (fun s r => s.emit (.value r (lockValue (r == w) (r != w) w)))
        (s.updLock i (fun l => ⟨some w, if 2 ≤ readers.length then w + 1 else l.rrPtr⟩))

/-- The release write of a lock's cycle. -/
def lockReleased (s : State) (i : Nat) (release : Option Initiator) : State :=
  match release with | some w => s.lockFree i w | none => s

theorem eraseDups_of_nodup {α : Type} [DecidableEq α] {l : List α} (h : l.Nodup) : l.eraseDups = l := by
  induction l with
  | nil => rfl
  | cons a l ih =>
    obtain ⟨ha, hl⟩ := List.nodup_cons.1 h
    have hfilter : l.filter (fun b => !b == a) = l :=
      List.filter_eq_self.2 fun b hb => by simpa using fun hba : b = a => ha (hba ▸ hb)
    rw [List.eraseDups_cons, hfilter, ih hl]

theorem execLockAcquire_of_may {s : State} {i : Fin 256} {release : Option Initiator} {r : Initiator} {rs : List Initiator}
    (hnd : (r :: rs).Nodup)
    (h : ∀ x ∈ r :: rs, (lockReleased s i release).may x (windowBase 2 + 4 * i.val) false) :
    exec (.lockAcquire i release (r :: rs)) s = .next (lockReads ((lockReleased s i release).wake 7) i (r :: rs)) := by
  change execLockAcquire i release (r :: rs) s = _
  unfold execLockAcquire
  extract_lets u a ok v ins w
  have hu : u = lockReleased s i release := rfl
  have hok (x : Initiator) (hx : x ∈ r :: rs) : ok x = true := by
    obtain ⟨hhost, hacc⟩ := h x hx
    simp [ok, hhost, a, hu, hacc]
  have hv : v = u.wake 7 := if_pos (List.any_eq_true.2 ⟨r, List.mem_cons_self, hok r List.mem_cons_self⟩)
  have hins : ins = r :: rs := by
    unfold ins
    rw [List.filter_eq_self.2 hok, eraseDups_of_nodup hnd]
  have hw : w = v := foldl_fixed _ _ _ fun x hx => if_pos (hok x hx)
  rw [hw, hv, hins]
  rfl

theorem lockReads_of_held {s : State} {i : Nat} {o : Initiator} (h : (s.lock i).owner = some o) (readers : List Initiator) :
    lockReads s i readers = readers.foldl (fun s r => s.emit (.value r (lockValue false true o))) s := by
  rw [lockReads, h]

theorem lockReads_of_free {s : State} {i : Nat} {readers : List Initiator} {w : Initiator} (h : (s.lock i).owner = none)
    (hw : lockWinner (s.lock i).rrPtr readers = some w) :
    lockReads s i readers = readers.foldl (fun s r => s.emit (.value r (lockValue (r == w) (r != w) w)))
      (s.updLock i (fun l => ⟨some w, if 2 ≤ readers.length then w + 1 else l.rrPtr⟩)) := by
  rw [lockReads, h]
  dsimp only
  rw [hw]

/-- R89 for two readers: the first from RR_PTR upwards. -/
theorem lockWinner_two (p : Byte) (a b : Initiator) :
    lockWinner p [a, b] = some (if (a - p).toNat ≤ (b - p).toNat then a else b) := by
  simp only [lockWinner, List.foldl_cons, List.foldl_nil]
  by_cases h : (b - p).toNat < (a - p).toNat
  · rw [if_pos h, if_neg (Nat.not_le.2 h)]
  · rw [if_neg h, if_pos (Nat.not_lt.1 h)]

theorem lockAcquire_two (s : State) (i : Fin 256) (a b : Initiator) (hab : a ≠ b) (ha : s.may a (windowBase 2 + 4 * i.val) false)
    (hb : s.may b (windowBase 2 + 4 * i.val) false) :
    ∃ t, exec (.lockAcquire i none [a, b]) s = .next t ∧
      (∀ j : Fin 256, j ≠ i → t.lock j = s.lock j) ∧ t.regs = s.regs ∧ t.mbox = s.mbox ∧
      (∀ o, (s.lock i).owner = some o → t.lock i = s.lock i ∧
        t.out = s.out ++ [.value a (lockValue false true o), .value b (lockValue false true o)]) ∧
      ((s.lock i).owner = none →
        let aFirst := (a - (s.lock i).rrPtr).toNat ≤ (b - (s.lock i).rrPtr).toNat
        let won := if aFirst then a else b
        (t.lock i).owner = some won ∧ (t.lock i).rrPtr = won + 1 ∧
        t.out = s.out ++ (if aFirst then [.value a (lockValue true false a), .value b (lockValue false true a)]
          else [.value a (lockValue false true b), .value b (lockValue true false b)])) := by
  have hexec : exec (.lockAcquire i none [a, b]) s = .next (lockReads (s.wake 7) i [a, b]) :=
    execLockAcquire_of_may (by simp [hab]) (by simpa using ⟨ha, hb⟩)
  cases hown : (s.lock i).owner with
  | some o =>
    rw [lockReads_of_held (s := s.wake 7) hown] at hexec
    refine ⟨_, hexec, fun j _ => rfl, rfl, rfl, fun o' ho => ?_, nofun⟩
    cases ho
    refine ⟨rfl, ?_⟩
    exact List.append_assoc ..
  | none =>
    rw [lockReads_of_free (s := s.wake 7) hown (lockWinner_two ..)] at hexec
    generalize hw : (if (a - ((s.wake 7).lock i).rrPtr).toNat ≤ (b - ((s.wake 7).lock i).rrPtr).toNat then a else b) = w at hexec
    refine ⟨_, hexec, fun j hj => ?_, rfl, rfl, (nofun), fun _ => ?_⟩
    · exact (lock_updLock ..).trans (if_neg fun h => hj (Fin.ext h.1.symm))
    · have hlock := (lock_updLock (s.wake 7) i i (fun l => ⟨some w, w + 1⟩)).trans (if_pos ⟨rfl, i.isLt⟩)
      intro aFirst won
      have hwon : won = w := hw
      refine ⟨(congrArg Lock.owner hlock).trans (by rw [hwon]), (congrArg Lock.rrPtr hlock).trans (by rw [hwon]),
        (List.append_assoc ..).trans ?_⟩
      by_cases h : aFirst
      · have hwa : w = a := hwon.symm.trans (if_pos h)
        rw [if_pos h, hwa]
        simp only [List.singleton_append, beq_self_eq_true, bne_self_eq_false, beq_false_of_ne hab.symm, bne_iff_ne.2 hab.symm]
        rfl
      · have hwb : w = b := hwon.symm.trans (if_neg h)
        rw [if_neg h, hwb]
        simp only [List.singleton_append, beq_self_eq_true, bne_self_eq_false, beq_false_of_ne hab, bne_iff_ne.2 hab]
        rfl

/-- A holder's release in the cycle lets its one reader in (R88, R89). -/
theorem lockAcquire_released (s : State) (i : Fin 256) (o r : Initiator) (ho : (s.lock i).owner = some o)
    (hw : s.may o (windowBase 2 + 4 * i.val) true) (hr : s.may r (windowBase 2 + 4 * i.val) false) :
    ∃ t, exec (.lockAcquire i (some o) [r]) s = .next t ∧ (t.lock i).owner = some r ∧ (t.lock i).rrPtr = (s.lock i).rrPtr ∧
      t.out = s.out ++ [.value r (lockValue true false r)] := by
  have hrel : lockReleased s i (some o) = (s.wake (islandOf (windowBase 2 + 4 * i.val))).lockWrite i o := guard_of_may hw _
  have hexec := execLockAcquire_of_may (s := s) (i := i) (release := some o) (r := r) (rs := []) (by simp)
    (fun x hx => by rw [List.mem_singleton.1 hx, hrel]; exact hr)
  rw [hrel] at hexec
  generalize hu : ((s.wake (islandOf (windowBase 2 + 4 * i.val))).lockWrite i o).wake 7 = u at hexec
  have hlock : u.lock i = unlocked o (s.lock i) := by
    rw [← hu]
    exact (lock_lockWrite i.isLt (s.wake _) o i).trans (if_pos rfl)
  have hout : u.out = s.out := by rw [← hu]; rfl
  rw [lockReads_of_free (w := r) (by rw [hlock, unlocked_of_holder ho]) rfl] at hexec
  have hnew := (lock_updLock u i i (fun l => ⟨some r, l.rrPtr⟩)).trans (if_pos ⟨rfl, i.isLt⟩)
  refine ⟨_, hexec, congrArg Lock.owner hnew, ?_, ?_⟩
  · refine (congrArg Lock.rrPtr hnew).trans ?_
    rw [hlock, unlocked_rrPtr]
  · change u.out ++ _ = _
    rw [hout]
    simp

/-- Settles O11. -/
theorem lockReadsAcquireOnce : Obligations.LockReadsAcquireOnce := by
  refine ⟨lockAcquire_two, by decide, by decide, by decide, fun s i o r ho _ hw hr => lockAcquire_released s i o r ho hw hr⟩

end Sys2Proof.Proofs

namespace Sys2Proof.Proofs
open Sys2Proof.Machine Sys2Proof.Laws

/-! ## Key revocation and the security floor (R70, R71) -/

/-- Taking a request changes nothing but the mailboxes and the order of the requests. -/
theorem huskTaken_mailOnly {ch : Nat} (hch : 16 ≤ ch) (s : State) :
    ∃ v q, huskTaken s ch = { s with mbox := v, husk := { s.husk with requests := q } } :=
  ⟨_, _, huskTaken_frame hch s⟩

theorem revokeCheck_le (s : State) (b : List Byte) : s.revokeCheck b ≤ 8 := by
  unfold State.revokeCheck
  extract_lets t blk signer live
  (repeat' split) <;> omega

/-- A slot's key is revoked, with a record. -/
def slotRevoked (s : State) (t : Nat) : State :=
  (s.updHusk (fun k => { k with
    slots := k.slots.zipIdx.map (fun x => if x.2 = t then { x.1 with revoked := true } else x.1) })).audit 2 .revoke noInst [t]

theorem slotRevoked_husk (s : State) (t : Nat) :
    (slotRevoked s t).husk = { s.husk with
      slots := s.husk.slots.zipIdx.map (fun x => if x.2 = t then { x.1 with revoked := true } else x.1) } := by
  rw [slotRevoked, audit_frame]
  rfl

/-- The revocation burns the bit of its own slot and no other (R70). -/
theorem slotRevoked_slots (s : State) (t i : Nat) :
    (slotRevoked s t).husk.slots[i]? = (s.husk.slots[i]?).map (fun k => if i = t then { k with revoked := true } else k) := by
  rw [slotRevoked_husk, List.getElem?_map, List.getElem?_zipIdx, Option.map_map]
  simp [Function.comp_def]

theorem execSlotRevoke_checks (ch : Fin 64) (s : State) :
    ∃ act, exec (.slotRevoke ch) s = .next (s.huskReq ch 0x70 [2, 3] act) ∧
      ∀ (reg : Nat → Nat) (who : Nat) (x : State) (b : List Byte), b = x.memRead (reg 2 + 2 ^ 32 * reg 3) 272 →
        act reg who x = (if x.revokeCheck b = 0 then slotRevoked x (byteAt b 4) else x, some (x.revokeCheck b, 0)) := by
  refine ⟨_, rfl, fun reg who x b hb => ?_⟩
  subst hb
  exact match_status _ _ _

theorem slotRevoke_follows (s : State) (ch : Fin 64) (hlo : 40 ≤ ch.val) (hask : s.huskAsks ch 0x70 [2, 3]) :
    let b := s.memRead (s.mbWord ch 0 2 + 2 ^ 32 * s.mbWord ch 0 3) 272
    ∃ t, exec (.slotRevoke ch) s = .next t ∧ t.huskAnswered ch 0x70 (s.revokeCheck b) 0 ∧ t.husk.floor = s.husk.floor ∧
      ∀ i, t.husk.slots[i]? = (s.husk.slots[i]?).map (fun k => if s.revokeCheck b = 0 ∧ i = byteAt b 4 then { k with revoked := true } else k) := by
  intro b
  obtain ⟨v, q, htaken⟩ := huskTaken_mailOnly (show 16 ≤ ch.val by omega) s
  obtain ⟨act, hexec, hact⟩ := execSlotRevoke_checks ch s
  have hact := hact (s.mbWord ch 0) (s.mb ch 0).sender.toNat (huskTaken s ch) b (by rw [htaken]; rfl)
  have hcheck : (huskTaken s ch).revokeCheck b = s.revokeCheck b := by rw [htaken]; rfl
  rw [hcheck] at hact
  generalize hu : (if s.revokeCheck b = 0 then slotRevoked (huskTaken s ch) (byteAt b 4) else huskTaken s ch) = u at hact
  have hkept : u.mbox = (huskTaken s ch).mbox ∧ u.husk.requests = (huskTaken s ch).husk.requests ∧
      u.husk.floor = (huskTaken s ch).husk.floor := by
    rw [← hu]
    split
    · rw [slotRevoked_husk, slotRevoked, audit_frame]
      exact ⟨rfl, rfl, rfl⟩
    · exact ⟨rfl, rfl, rfl⟩
  have hslots (i : Nat) : u.husk.slots[i]? = (s.husk.slots[i]?).map
      (fun k => if s.revokeCheck b = 0 ∧ i = byteAt b 4 then { k with revoked := true } else k) := by
    rw [← hu]
    split
    · next h0 =>
      rw [slotRevoked_slots, htaken]
      simp [h0]
    · next h0 =>
      rw [htaken]
      simp [h0]
  obtain ⟨hmb, hreq, hfloor⟩ := hkept
  obtain ⟨hans, v', hv⟩ := huskReq_answers hlo ch.isLt hask (by decide) hact hmb hreq (by decide)
    ((revokeCheck_le s b).trans_lt (by decide)) (by decide)
  refine ⟨_, hexec, hans, ?_⟩
  rw [hv]
  exact ⟨hfloor.trans (by rw [htaken]), hslots⟩

/-- The floor is raised in OTP and shown in SEC_FLOOR, with a record. -/
def floorRaised (s : State) (f : Nat) : State :=
  ((s.updHusk (fun k => { k with floor := f })).wrN Reg.status_SEC_FLOOR 0 f).audit 2 .floorRaise noInst [s.husk.floor, f]

theorem floorRaised_frame (s : State) (f : Nat) :
    floorRaised s f = { s with husk := { s.husk with floor := f }, regs := (floorRaised s f).regs, alm := (floorRaised s f).alm } :=
  audit_frame ((s.updHusk (fun k => { k with floor := f })).wrN Reg.status_SEC_FLOOR 0 f) _ _ _ _ _

theorem floorRaised_register {s : State} (hs : s.fileOk) {f : Nat} (hf : f < 65536) :
    (floorRaised s f).rdN Reg.status_SEC_FLOOR 0 = f := by
  have hs' : (s.updHusk (fun k => { k with floor := f })).fileOk := hs
  rw [State.rdN, rd_eq, floorRaised, audit_rdAt (wrN_fileOk hs' _ _ _) (by decide)]
  exact rdN_wrN hs' _ (by decide) 0 f hf

/-- What R71 permits. -/
def floorPermitted (s : State) (f : Nat) : Prop := s.husk.floor < f ∧ ∀ v ∈ s.floorLimits, f ≤ v

theorem floorPermitted_iff (s : State) (f : Nat) :
    floorPermitted s f ↔ ¬ (f ≤ s.husk.floor ∨ s.floorLimits.any (fun v => decide (v < f)) = true) := by
  simp [floorPermitted]

theorem execFloorRaise_checks (ch : Fin 64) (s : State) :
    ∃ act, exec (.floorRaise ch) s = .next (s.huskReq ch 0x71 [1] act) ∧
      ∀ (reg : Nat → Nat) (who : Nat) (x : State), reg 1 < 65536 →
        (floorPermitted x (reg 1) → act reg who x = (floorRaised x (reg 1), some (0, 0))) ∧
        (¬ floorPermitted x (reg 1) → act reg who x = (x, some (2, 0))) := by
  refine ⟨_, rfl, fun reg who x hlt => ?_⟩
  dsimp only
  rw [if_neg (Nat.not_le.2 hlt), floorPermitted_iff, not_not]
  exact ⟨fun h => if_neg h, fun h => if_pos h⟩

theorem floorRaise_follows (s : State) (ch : Fin 64) (hlo : 40 ≤ ch.val) (hs : s.fileOk) (hask : s.huskAsks ch 0x71 [1])
    (hlt : s.mbWord ch 0 1 < 65536) :
    let f := s.mbWord ch 0 1
    let ok := s.husk.floor < f ∧ ∀ v ∈ s.floorLimits, f ≤ v
    ∃ t, exec (.floorRaise ch) s = .next t ∧ t.husk.slots = s.husk.slots ∧
      (ok → t.huskAnswered ch 0x71 0 0 ∧ t.husk.floor = f ∧ t.rdN Reg.status_SEC_FLOOR 0 = f) ∧
      (¬ok → t.huskAnswered ch 0x71 2 0 ∧ t.husk.floor = s.husk.floor ∧ t.regs = s.regs) := by
  intro f ok
  obtain ⟨v, q, htaken⟩ := huskTaken_mailOnly (show 16 ≤ ch.val by omega) s
  obtain ⟨act, hexec, hact⟩ := execFloorRaise_checks ch s
  obtain ⟨hpermitted, hbarred⟩ := hact (s.mbWord ch 0) (s.mb ch 0).sender.toNat (huskTaken s ch) hlt
  have hok : floorPermitted (huskTaken s ch) f ↔ ok := by rw [htaken]; exact Iff.rfl
  by_cases h : ok
  · obtain ⟨hans, v', hv⟩ := huskReq_answers hlo ch.isLt hask (by decide) (hpermitted (hok.2 h)) (by rw [floorRaised_frame])
      (by rw [floorRaised_frame]) (by decide) (by decide) (by decide)
    have hs' : (huskTaken s ch).fileOk := by rw [htaken]; exact hs
    refine ⟨_, hexec, ?_, fun _ => ⟨hans, ?_, ?_⟩, fun hn => absurd h hn⟩
    · rw [hv, floorRaised_frame, htaken]
    · rw [hv, floorRaised_frame]
    · rw [hv]
      exact floorRaised_register hs' hlt
  · obtain ⟨hans, v', hv⟩ := huskReq_answers hlo ch.isLt hask (by decide) (hbarred fun hp => h (hok.1 hp)) rfl rfl
      (by decide) (by decide) (by decide)
    refine ⟨_, hexec, ?_, fun hp => absurd hp h, fun _ => ⟨hans, ?_⟩⟩
    · rw [hv, htaken]
    · rw [hv, htaken]
      exact ⟨rfl, rfl⟩

/-- Settles O18. -/
theorem revokeAndFloorFollowTheirChecks : Obligations.RevokeAndFloorFollowTheirChecks :=
  fun s ch hlo hs => ⟨slotRevoke_follows s ch hlo, floorRaise_follows s ch hlo hs⟩

end Sys2Proof.Proofs

namespace Sys2Proof.Proofs
open Sys2Proof.Machine Sys2Proof.Laws

/-! ## UPDATE (R75) -/

theorem validateBody_le (env : TrustEnv) (b : List Byte) : (validateBody env b).1 ≤ 8 := by
  unfold validateBody
  extract_lets n
  (repeat' split) <;> simp

theorem imageCheck_le (s : State) (b : List Byte) (n : Nat) : s.imageCheck b n ≤ 8 := validateBody_le _ _

theorem stepStatus_pos_le (n : Nat) : 0 < stepStatus n ∧ stepStatus n ≤ 5 := by
  unfold stepStatus
  split <;> decide

theorem mcCheck_le (slots : List KeySlot) (floor : Nat) (b : List Byte) : mcCheck slots floor b ≤ 5 := by
  unfold mcCheck
  extract_lets n
  (repeat' split) <;> omega

theorem bundleCheck_le (slots : List KeySlot) (floor : Nat) (b : List Byte) : bundleCheck slots floor b ≤ 5 := by
  have := mcCheck_le slots floor (bundleBytes b 3)
  unfold bundleCheck
  (repeat' split) <;> omega

/-- NOR with an object in the target copy (R75, R97). -/
def norWritten (fw : Bool) (copy : Nat) (b : List Byte) (k : Husk) : Husk :=
  if fw then (if copy = 0 then { k with bundleA := b } else { k with bundleB := b })
  else (if copy = 0 then { k with imageA := b } else { k with imageB := b })

theorem norWritten_requests (fw : Bool) (copy : Nat) (b : List Byte) (k : Husk) : (norWritten fw copy b k).requests = k.requests := by
  unfold norWritten
  (repeat' split) <;> rfl

/-- An image in its copy where it passed, and no other area of NOR changed. -/
theorem norWritten_image {copy : Nat} (hcopy : copy < 2) (c : Prop) [Decidable c] (b : List Byte) (k : Husk) :
    let h := if c then norWritten false copy b k else k
    h.imageA = (if c ∧ copy = 0 then b else k.imageA) ∧ h.imageB = (if c ∧ copy = 1 then b else k.imageB) ∧
      h.bundleA = k.bundleA ∧ h.bundleB = k.bundleB := by
  have hcopy : copy = 0 ∨ copy = 1 := by omega
  by_cases hc : c
  · obtain rfl | rfl := hcopy <;> simp [hc, norWritten]
  · simp [hc]

theorem norWritten_bundle {copy : Nat} (hcopy : copy < 2) (c : Prop) [Decidable c] (b : List Byte) (k : Husk) :
    let h := if c then norWritten true copy b k else k
    h.bundleA = (if c ∧ copy = 0 then b else k.bundleA) ∧ h.bundleB = (if c ∧ copy = 1 then b else k.bundleB) ∧
      h.imageA = k.imageA ∧ h.imageB = k.imageB := by
  have hcopy : copy = 0 ∨ copy = 1 := by omega
  by_cases hc : c
  · obtain rfl | rfl := hcopy <;> simp [hc, norWritten]
  · simp [hc]

/-- The copy of NOR that is in use, 1 or 2 (R52). -/
def copyInUse (s : State) (fw : Bool) : Nat := if fw then s.rdN Reg.status_BUNDLE 0 else s.rdN Reg.status_COPY 0

/-- What Husk's checks say of an object: status and failing step (R74, R75). -/
def objectVerdict (s : State) (fw : Bool) (b : List Byte) (len : Nat) : Nat × Nat :=
  if fw then (bundleCheck s.husk.slots s.husk.floor b, 0)
  else (if s.imageCheck b len = 0 then 0 else stepStatus (s.imageCheck b len), s.imageCheck b len)

theorem objectVerdict_le (s : State) (fw : Bool) (b : List Byte) (len : Nat) :
    (objectVerdict s fw b len).1 ≤ 5 ∧ (objectVerdict s fw b len).2 ≤ 8 := by
  have hb := bundleCheck_le s.husk.slots s.husk.floor b
  have hi := imageCheck_le s b len
  have hs := stepStatus_pos_le (s.imageCheck b len)
  unfold objectVerdict
  split
  · exact ⟨hb, Nat.zero_le _⟩
  · refine ⟨?_, hi⟩
    dsimp only
    split <;> omega

/-- A verdict of status 0 has no failing step. -/
theorem objectVerdict_step_zero {s : State} {fw : Bool} {b : List Byte} {len : Nat} (h : (objectVerdict s fw b len).1 = 0) :
    (objectVerdict s fw b len).2 = 0 := by
  have hs := stepStatus_pos_le (s.imageCheck b len)
  unfold objectVerdict at h ⊢
  split
  · rfl
  · next hfw =>
    rw [if_neg hfw] at h
    dsimp only at h ⊢
    by_contra hne
    rw [if_neg hne] at h
    omega

/-- The target of an UPDATE whose register 1 is `r1` is a bundle. -/
def targetFw (r1 : Nat) : Bool := decide (r1 % 2 = 1)

/-- An accepted object in the target copy, with a record. -/
def objectStored (s : State) (r1 len : Nat) (b : List Byte) : State :=
  (s.updHusk (norWritten (targetFw r1) (r1 / 2) b)).audit 3 .update noInst [r1, len]

theorem objectStored_frame (s : State) (r1 len : Nat) (b : List Byte) :
    objectStored s r1 len b = { s with
      husk := norWritten (targetFw r1) (r1 / 2) b s.husk, regs := (objectStored s r1 len b).regs,
      alm := (objectStored s r1 len b).alm } :=
  audit_frame (s.updHusk (norWritten (targetFw r1) (r1 / 2) b)) _ _ _ _ _

/-- A copy in use is refused before anything else is looked at. -/
theorem huskUpdate_of_in_use {s : State} {r1 : Nat} (h4 : r1 < 4) (huse : copyInUse s (targetFw r1) = r1 / 2 + 1) (addr len : Nat) :
    s.huskUpdate r1 addr len true = (s, 8, 0) := by
  have hcopy : r1 / 2 % 2 = r1 / 2 := by omega
  unfold State.huskUpdate
  dsimp only
  rw [if_neg (by omega), hcopy]
  by_cases hfw : r1 % 2 = 1
  · rw [targetFw, decide_eq_true hfw] at huse
    rw [if_pos ⟨hfw, huse⟩]
  · rw [targetFw, decide_eq_false hfw] at huse
    rw [if_neg fun h => hfw h.1, if_pos ⟨by simpa using hfw, huse⟩]

/-- An object for a free copy is stored where it passes the checks, and its verdict answered where it does not. -/
theorem huskUpdate_of_free {s : State} {r1 addr len : Nat} (h4 : r1 < 4) (hfree : copyInUse s (targetFw r1) ≠ r1 / 2 + 1) (hpos : 0 < len)
    (hmax : len ≤ (norTarget (targetFw r1) (r1 / 2)).size) (hpart : s.inPart 4 addr len = true) :
    let b := s.memRead addr len
    let verdict := objectVerdict s (targetFw r1) b len
    s.huskUpdate r1 addr len true = (if verdict.1 = 0 then objectStored s r1 len b else s, verdict) := by
  intro b verdict
  unfold State.huskUpdate
  extract_lets copy fw step bad put u v
  have hcopy : copy = r1 / 2 := by omega
  have hbundle : ¬ (fw ∧ s.rdN Reg.status_BUNDLE 0 = copy + 1) := by
    rintro ⟨hfw, huse⟩
    rw [hcopy] at huse
    simp [copyInUse, targetFw, show r1 % 2 = 1 from hfw, huse] at hfree
  have himage : ¬ ((!decide fw) = true ∧ s.rdN Reg.status_COPY 0 = copy + 1) := by
    rintro ⟨hfw, huse⟩
    have hfw : ¬ r1 % 2 = 1 := of_decide_eq_false (by simpa only [Bool.not_eq_true'] using hfw)
    rw [hcopy] at huse
    simp [copyInUse, targetFw, hfw, huse] at hfree
  have hlen : ¬ (len = 0 ∨ s.inPart 4 addr len = false ∨ (norTarget (decide fw) copy).size < len) := by
    rw [hpart, hcopy]
    rintro (h | h | h)
    · omega
    · cases h
    · exact Nat.not_le.2 h hmax
  have hstep : step = verdict.2 := by
    unfold step verdict objectVerdict targetFw
    by_cases hfw : r1 % 2 = 1 <;> simp [hfw, fw]
  have hbad : bad = verdict.1 := by
    unfold bad step verdict objectVerdict targetFw
    by_cases hfw : r1 % 2 = 1 <;> simp [hfw, fw]
  have hzero : verdict.1 = 0 → verdict.2 = 0 := objectVerdict_step_zero
  have hv : v = s.updHusk (norWritten (targetFw r1) (r1 / 2) b) := by
    unfold v
    rw [hcopy]
    congr 1
    funext k
    by_cases hfw : r1 % 2 = 1 <;> simp [norWritten, targetFw, hfw, fw, put]
  refine (if_neg (by omega)).trans ((if_neg hbundle).trans ((if_neg himage).trans ((if_neg hlen).trans ?_)))
  rw [hbad, hstep]
  by_cases h0 : verdict.1 = 0
  · rw [if_neg (not_not.2 h0), if_pos h0, if_pos rfl, hv]
    exact Prod.ext rfl (Prod.ext h0.symm (hzero h0).symm)
  · rw [if_pos h0, if_neg h0]

theorem execUpdate_acts (ch : Fin 64) (s : State) :
    ∃ act, exec (.update ch true) s = .next (s.huskReq ch 0x10 [1, 2, 3, 4] act) ∧
      ∀ (reg : Nat → Nat) (who : Nat) (x u : State) (st step : Nat),
        x.huskUpdate (reg 1) (reg 2 + 2 ^ 32 * reg 3) (reg 4) true = (u, st, step) → act reg who x = (u, some (st, step)) := by
  refine ⟨_, rfl, fun reg who x u st step h => ?_⟩
  dsimp only [regAddr]
  rw [h]

theorem update_in_use (s : State) (ch : Fin 64) (hlo : 40 ≤ ch.val) (hask : s.huskAsks ch 0x10 [1, 2, 3, 4])
    (h4 : s.mbWord ch 0 1 < 4) (huse : copyInUse s (targetFw (s.mbWord ch 0 1)) = s.mbWord ch 0 1 / 2 + 1) :
    ∃ t, exec (.update ch true) s = .next t ∧ t.huskAnswered ch 0x10 8 0 ∧ ∃ q, t.husk = { s.husk with requests := q } := by
  obtain ⟨v, q, htaken⟩ := huskTaken_mailOnly (show 16 ≤ ch.val by omega) s
  obtain ⟨act, hexec, hact⟩ := execUpdate_acts ch s
  have huse' : copyInUse (huskTaken s ch) (targetFw (s.mbWord ch 0 1)) = s.mbWord ch 0 1 / 2 + 1 := by rw [htaken]; exact huse
  obtain ⟨hans, v', hv⟩ := huskReq_answers hlo ch.isLt hask (by decide)
    (hact (s.mbWord ch 0) (s.mb ch 0).sender.toNat _ _ _ _ (huskUpdate_of_in_use h4 huse' _ _)) rfl rfl (by decide) (by decide) (by decide)
  exact ⟨_, hexec, hans, q, by rw [hv, htaken]⟩

theorem update_of_free (s : State) (ch : Fin 64) (hlo : 40 ≤ ch.val) (hask : s.huskAsks ch 0x10 [1, 2, 3, 4]) {r1 addr len : Nat}
    (h1 : s.mbWord ch 0 1 = r1) (h4 : r1 < 4) (ha : addr = s.mbWord ch 0 2 + 2 ^ 32 * s.mbWord ch 0 3) (hl : s.mbWord ch 0 4 = len)
    (hfree : copyInUse s (targetFw r1) ≠ r1 / 2 + 1) (hpos : 0 < len) (hmax : len ≤ (norTarget (targetFw r1) (r1 / 2)).size)
    (hpart : s.inPart 4 addr len = true) :
    let b := s.memRead addr len
    let verdict := objectVerdict s (targetFw r1) b len
    ∃ t, exec (.update ch true) s = .next t ∧ t.huskAnswered ch 0x10 verdict.1 verdict.2 ∧
      ∃ q, t.husk = if verdict.1 = 0 then norWritten (targetFw r1) (r1 / 2) b { s.husk with requests := q } else { s.husk with requests := q } := by
  intro b verdict
  obtain ⟨v, q, htaken⟩ := huskTaken_mailOnly (show 16 ≤ ch.val by omega) s
  obtain ⟨act, hexec, hact⟩ := execUpdate_acts ch s
  have hupdate : (huskTaken s ch).huskUpdate r1 addr len true =
      (if verdict.1 = 0 then objectStored (huskTaken s ch) r1 len b else huskTaken s ch, verdict) := by
    rw [huskUpdate_of_free h4 (by rw [htaken]; exact hfree) hpos hmax (by rw [htaken]; exact hpart)]
    have hb : (huskTaken s ch).memRead addr len = b := by rw [htaken]; rfl
    have hver : objectVerdict (huskTaken s ch) (targetFw r1) b len = verdict := by rw [htaken]; rfl
    rw [hb, hver]
  subst h1 ha hl
  have hact := hact (s.mbWord ch 0) (s.mb ch 0).sender.toNat _ _ _ _ hupdate
  generalize hu : (if verdict.1 = 0 then objectStored (huskTaken s ch) _ _ b else huskTaken s ch) = u at hact
  have hkept : u.mbox = (huskTaken s ch).mbox ∧ u.husk.requests = (huskTaken s ch).husk.requests ∧
      u.husk = if verdict.1 = 0 then norWritten (targetFw (s.mbWord ch 0 1)) (s.mbWord ch 0 1 / 2) b (huskTaken s ch).husk
        else (huskTaken s ch).husk := by
    rw [← hu]
    split
    · rw [objectStored_frame]
      exact ⟨rfl, norWritten_requests .., rfl⟩
    · exact ⟨rfl, rfl, rfl⟩
  obtain ⟨hmb, hreq, hhusk⟩ := hkept
  obtain ⟨hst, hstep⟩ := objectVerdict_le s (targetFw (s.mbWord ch 0 1)) b (s.mbWord ch 0 4)
  obtain ⟨hans, v', hv⟩ := huskReq_answers hlo ch.isLt hask (by decide) hact hmb hreq (by decide) (hst.trans_lt (by decide))
    (hstep.trans_lt (by decide))
  refine ⟨_, hexec, hans, q, ?_⟩
  rw [hv]
  exact hhusk.trans (by rw [htaken])

theorem norTarget_image_size (copy : Nat) : (norTarget false copy).size = 0x100000 := by
  unfold norTarget
  by_cases h : copy = 0 <;> simp [h, NorArea.size]

theorem norTarget_bundle_size (copy : Nat) : (norTarget true copy).size = 0x2000000 := by
  unfold norTarget
  by_cases h : copy = 0 <;> simp [h, NorArea.size]

theorem objectVerdict_bundle (s : State) (b : List Byte) (len : Nat) :
    (objectVerdict s true b len).1 = bundleCheck s.husk.slots s.husk.floor b :=
  congrArg Prod.fst (if_pos rfl)

/-- An image's status is 0 exactly where no step fails. -/
theorem objectVerdict_image_iff (s : State) (b : List Byte) (len : Nat) :
    (objectVerdict s false b len).1 = 0 ↔ s.imageCheck b len = 0 := by
  have hs := stepStatus_pos_le (s.imageCheck b len)
  change (if s.imageCheck b len = 0 then 0 else stepStatus (s.imageCheck b len)) = 0 ↔ _
  split <;> omega

theorem update_image (s : State) (ch : Fin 64) (hlo : 40 ≤ ch.val) (hask : s.huskAsks ch 0x10 [1, 2, 3, 4]) {r1 addr len : Nat}
    (h1 : s.mbWord ch 0 1 = r1) (h4 : r1 < 4) (ha : addr = s.mbWord ch 0 2 + 2 ^ 32 * s.mbWord ch 0 3) (hl : s.mbWord ch 0 4 = len)
    (h : r1 % 2 = 0) (hfree : s.rdN Reg.status_COPY 0 ≠ r1 / 2 + 1) (hpos : 0 < len) (hmax : len ≤ 0x100000)
    (hpart : s.inPart 4 addr len = true) :
    let b := s.memRead addr len
    let step := s.imageCheck b len
    ∃ t, exec (.update ch true) s = .next t ∧ t.huskAnswered ch 0x10 (if step = 0 then 0 else stepStatus step) step ∧
      t.husk.imageA = (if step = 0 ∧ r1 / 2 = 0 then b else s.husk.imageA) ∧
      t.husk.imageB = (if step = 0 ∧ r1 / 2 = 1 then b else s.husk.imageB) ∧
      t.husk.bundleA = s.husk.bundleA ∧ t.husk.bundleB = s.husk.bundleB := by
  have hfw : targetFw r1 = false := by simp [targetFw, h]
  obtain ⟨t, hexec, hans, q, hq⟩ := update_of_free s ch hlo hask h1 h4 ha hl (by rw [hfw]; exact hfree) hpos
    (by rw [hfw, norTarget_image_size]; exact hmax) hpart
  rw [hfw] at hans hq
  simp only [objectVerdict_image_iff] at hq
  refine ⟨t, hexec, hans, ?_⟩
  rw [hq]
  exact norWritten_image (by omega) _ _ { s.husk with requests := q }

theorem update_bundle (s : State) (ch : Fin 64) (hlo : 40 ≤ ch.val) (hask : s.huskAsks ch 0x10 [1, 2, 3, 4]) {r1 addr len : Nat}
    (h1 : s.mbWord ch 0 1 = r1) (h4 : r1 < 4) (ha : addr = s.mbWord ch 0 2 + 2 ^ 32 * s.mbWord ch 0 3) (hl : s.mbWord ch 0 4 = len)
    (h : r1 % 2 = 1) (hfree : s.rdN Reg.status_BUNDLE 0 ≠ r1 / 2 + 1) (hpos : 0 < len) (hmax : len ≤ 0x2000000)
    (hpart : s.inPart 4 addr len = true) :
    let b := s.memRead addr len
    let bad := bundleCheck s.husk.slots s.husk.floor b
    ∃ t, exec (.update ch true) s = .next t ∧ t.huskAnswered ch 0x10 bad 0 ∧
      t.husk.bundleA = (if bad = 0 ∧ r1 / 2 = 0 then b else s.husk.bundleA) ∧
      t.husk.bundleB = (if bad = 0 ∧ r1 / 2 = 1 then b else s.husk.bundleB) ∧
      t.husk.imageA = s.husk.imageA ∧ t.husk.imageB = s.husk.imageB := by
  have hfw : targetFw r1 = true := by simp [targetFw, h]
  obtain ⟨t, hexec, hans, q, hq⟩ := update_of_free s ch hlo hask h1 h4 ha hl (by rw [hfw]; exact hfree) hpos
    (by rw [hfw, norTarget_bundle_size]; exact hmax) hpart
  rw [hfw] at hans hq
  simp only [objectVerdict_bundle] at hq
  refine ⟨t, hexec, hans, ?_⟩
  rw [hq]
  exact norWritten_bundle (by omega) _ _ { s.husk with requests := q }

/-! ## Clearing a class of records (R460) -/

/-- From one Almanac to the other records of the audit class may go, the oldest first; the counts stay. -/
structure AlmTrimmed (a b : AlmSt) : Prop where
  clrGen : b.clrGen = a.clrGen
  traceHead : b.traceHead = a.traceHead
  audit : b.audit <:+ a.audit

theorem AlmTrimmed.refl (a : AlmSt) : AlmTrimmed a a := ⟨rfl, rfl, List.suffix_rfl⟩

theorem AlmTrimmed.trans {a b c : AlmSt} (h : AlmTrimmed a b) (k : AlmTrimmed b c) : AlmTrimmed a c :=
  ⟨k.clrGen.trans h.clrGen, k.traceHead.trans h.traceHead, k.audit.trans h.audit⟩

theorem auditDrop_trimmed (s : State) : AlmTrimmed s.alm s.auditDrop.alm := by
  unfold State.auditDrop
  split
  · exact .refl _
  · next r rest h =>
    have hsuffix : rest <:+ s.alm.audit := h ▸ List.suffix_cons r rest
    dsimp only
    split <;> exact ⟨rfl, rfl, hsuffix⟩

theorem auditTrim_trimmed (cap fuel : Nat) (s : State) : AlmTrimmed s.alm (s.auditTrim cap fuel).alm := by
  induction fuel generalizing s with
  | zero => exact .refl _
  | succ fuel ih =>
    rw [State.auditTrim]
    split
    · exact (auditDrop_trimmed s).trans (ih s.auditDrop)
    · exact .refl _

/-- A record of the audit class joins the records held, and the oldest may go. -/
theorem audit_trimmed (s : State) (cat : Nat) (ev : Ev) (inst : Nat) (args : List Nat) (firmware : Bool) :
    ∃ r : Rec, r.seq = s.alm.auditLast + 1 ∧
      AlmTrimmed { s.alm with audit := s.alm.audit ++ [r] } (s.audit cat ev inst args firmware).alm := by
  refine ⟨⟨s.alm.auditLast + 1, s.rd Reg.status_PWR_CYCLE 0, s.alm.hours, s.alm.usec, 16 + cat, ev, inst,
    (if s.alm.auditLoss then 1 else 0) + (if firmware then 2 else 0), args⟩, rfl, ?_⟩
  obtain ⟨hgen, hhead, hheld⟩ := (auditTrim_trimmed _ _ _).trans (auditTrim_trimmed _ _ _)
  exact ⟨hgen, hhead, hheld⟩

end Sys2Proof.Proofs

namespace Sys2Proof.Proofs
open Sys2Proof.Machine Sys2Proof.Laws

/-! ### AUDIT_CLEAR and TRACE_CLEAR -/

theorem norStart_alm (s : State) (r : Rec) :
    ∃ nor skip, (s.norStart r).alm = { s.alm with nor := nor, norSkip := skip } := ⟨_, _, rfl⟩

theorem norPut_alm (s : State) (r : Rec) :
    ∃ nor skip next, (s.norPut r).alm = { s.alm with nor := nor, norSkip := skip, norNext := next } := by
  unfold State.norPut
  (repeat' split) <;> exact ⟨_, _, _, rfl⟩

/-- The copy to NOR takes no record out of the class and gives out no SEQ (R457). -/
theorem norFlush_alm (s : State) :
    ∃ nor skip next, s.norFlush.alm = { s.alm with nor := nor, norSkip := skip, norNext := next } := by
  unfold State.norFlush
  refine List.foldlRecOn (motive := fun t : State => ∃ nor skip next,
    t.alm = { s.alm with nor := nor, norSkip := skip, norNext := next }) _ _ ⟨_, _, _, rfl⟩ fun t ht r _ => ?_
  obtain ⟨nor, skip, next, ht⟩ := ht
  obtain ⟨nor', skip', next', hr⟩ := norPut_alm t r
  rw [ht] at hr
  exact ⟨nor', skip', next', hr⟩

/-- A cleared class holds the record of the clear alone (R460). -/
structure ClearedTo (s t : State) : Prop where
  frame : t = { s with regs := t.regs, alm := t.alm }
  clrGen : t.alm.clrGen = s.alm.clrGen + 1
  auditLast : t.alm.auditLast = s.alm.auditLast + 1
  traceHead : t.alm.traceHead = s.alm.traceHead
  length : t.alm.audit.length ≤ 1
  seq : ∀ r ∈ t.alm.audit, r.seq = t.alm.auditLast

/-- The audit class emptied: CLR_GEN raised, the snapshots broken, no record left in the class or in NOR. -/
def auditEmptied (s : State) : State :=
  let last := s.alm.auditLast
  ((s.updAlm (fun a => { a with clrGen := s.alm.clrGen + 1 })).bumpBy Reg.alm_SNAP_BREAK_CNT 0 0
    (s.alm.snaps.toList.filter Snap.live).length).updAlm (fun a => { a with
      snaps := a.snaps.map (fun p => if p.live then { p with broken := true } else p), audit := [], nor := [], norNext := last + 1,
      norSkip := false })

/-- The registers of the snapshots as they stand. -/
def snapsShown (s : State) : State := [0, 1, 2, 3].foldl (fun s h => s.snapRefresh h) s

theorem snapsShown_frame (s : State) : snapsShown s = { s with regs := (snapsShown s).regs } :=
  foldl_writes _ _ _ fun _ _ => rfl

theorem clearClass_audit (s : State) (who : Nat) :
    s.clearClass 2 who =
      ((snapsShown (auditEmptied s)).audit 8 .clear noInst [s.alm.clrGen + 1, s.alm.auditLast, who]).norFlush := by
  unfold State.clearClass
  rw [if_pos rfl]
  rfl

theorem auditEmptied_alm (s : State) :
    (auditEmptied s).alm.clrGen = s.alm.clrGen + 1 ∧ (auditEmptied s).alm.auditLast = s.alm.auditLast ∧
      (auditEmptied s).alm.traceHead = s.alm.traceHead ∧ (auditEmptied s).alm.audit = [] := ⟨rfl, rfl, rfl, rfl⟩

theorem auditEmptied_frame (s : State) :
    snapsShown (auditEmptied s) = { s with regs := (snapsShown (auditEmptied s)).regs, alm := (auditEmptied s).alm } := by
  have h : auditEmptied s = { s with regs := (auditEmptied s).regs, alm := (auditEmptied s).alm } := rfl
  exact (snapsShown_frame _).trans (congrArg (fun u : State => { u with regs := (snapsShown (auditEmptied s)).regs }) h)

theorem clearClass_audit_cleared (s : State) (who : Nat) : ClearedTo s (s.clearClass 2 who) := by
  obtain ⟨hgen, hlast, hhead, hempty⟩ := auditEmptied_alm s
  have hu := auditEmptied_frame s
  have halm : (snapsShown (auditEmptied s)).alm = (auditEmptied s).alm := by rw [snapsShown_frame]
  rw [← halm] at hgen hlast hhead hempty hu
  rw [clearClass_audit]
  generalize snapsShown (auditEmptied s) = u at *
  obtain ⟨r, hr, hrec⟩ := audit_trimmed u 8 .clear noInst [s.alm.clrGen + 1, s.alm.auditLast, who] false
  have hseq := audit_auditLast u 8 .clear noInst [s.alm.clrGen + 1, s.alm.auditLast, who] false
  have hv := audit_frame u 8 .clear noInst [s.alm.clrGen + 1, s.alm.auditLast, who] false
  generalize u.audit 8 .clear noInst [s.alm.clrGen + 1, s.alm.auditLast, who] = v at *
  obtain ⟨nor, skip, next, hflush⟩ := norFlush_alm v
  obtain ⟨hvgen, hvhead, hheld⟩ := hrec
  rw [hempty, List.nil_append] at hheld
  have hone : ∀ x ∈ v.alm.audit, x = r := fun x hx => List.mem_singleton.1 (hheld.subset hx)
  refine ⟨?_, ?_, ?_, ?_, ?_, fun x hx => ?_⟩
  · rw [norFlush_frame, hv, hu]
  · rw [hflush]
    exact hvgen.trans hgen
  · rw [hflush]
    exact hseq.trans (by rw [hlast])
  · rw [hflush]
    exact hvhead.trans hhead
  · rw [hflush]
    exact hheld.length_le
  · rw [hflush] at hx ⊢
    rw [hone x hx]
    exact hr.trans hseq.symm

/-- A transfer into main memory changes memory, its poison, the violation records and the power of its island (R61, R63). -/
theorem dmaWrite_frame (s : State) (who : Nat) (sec : Bool) (a : Nat) (b : List Byte) :
    let t := s.dmaWrite who sec a b
    t = { s with mem := t.mem, gran := t.gran, viol := t.viol, gated := t.gated } := by
  refine List.foldlRecOn (motive := fun t : State => t = { s with mem := t.mem, gran := t.gran, viol := t.viol, gated := t.gated })
    _ _ rfl fun t ht p _ => ?_
  split
  · rw [ht]
    rfl
  · rw [ht]
    rfl

theorem dmaWrite_husk_alm (s : State) (who : Nat) (sec : Bool) (a : Nat) (b : List Byte) :
    (s.dmaWrite who sec a b).husk = s.husk ∧ (s.dmaWrite who sec a b).alm = s.alm := by
  rw [dmaWrite_frame]
  exact ⟨rfl, rfl⟩

/-- The first record of a new trace ring. -/
def traceFirst (s : State) (base : Nat) (b : List Byte) : State :=
  (s.dmaWrite idMgmt false base b).updAlm (fun a => { a with traceHead := 2 })

theorem traceFirst_facts (s : State) (base : Nat) (b : List Byte) :
    (traceFirst s base b).husk = s.husk ∧ (traceFirst s base b).alm = { s.alm with traceHead := 2 } := by
  obtain ⟨hhusk, halm⟩ := dmaWrite_husk_alm s idMgmt false base b
  refine ⟨hhusk, ?_⟩
  rw [traceFirst, ← halm]
  rfl

/-- The trace class emptied: CLR_GEN raised, and the ring started anew. -/
def traceEmptied (s : State) : State :=
  (s.updAlm (fun a => { a with clrGen := s.alm.clrGen + 1 })).updAlm (fun a => { a with traceHead := 1, traceLoss := false })

/-- The record of the clear, where there is a trace ring for it. -/
def traceMarked (s : State) (args : List Nat) : State :=
  match s.str.part 2 with
  | some p =>
    if 0 < s.str.alm.traceMib then
      traceFirst s p.base ((⟨1, s.rd Reg.status_PWR_CYCLE 0, s.alm.hours, s.alm.usec, 24, .clear, noInst, 0, args⟩ : Rec).bytes 1)
    else s
  | none => s

theorem clearClass_trace (s : State) (who : Nat) :
    s.clearClass 1 who = (traceMarked (traceEmptied s) [s.alm.clrGen + 1, s.alm.traceHead - 1, who]).audit 8 .clear noInst
      [s.alm.clrGen + 1, s.alm.traceHead - 1, who] := rfl

theorem traceMarked_facts (s : State) (args : List Nat) :
    (traceMarked s args).husk = s.husk ∧ (traceMarked s args).alm.clrGen = s.alm.clrGen ∧
      (traceMarked s args).alm.auditLast = s.alm.auditLast ∧ ((traceMarked s args).alm.traceHead = s.alm.traceHead ∨
        (traceMarked s args).alm.traceHead = 2) := by
  unfold traceMarked
  split
  · next p _ =>
    split
    · obtain ⟨hhusk, halm⟩ := traceFirst_facts s p.base
        ((⟨1, s.rd Reg.status_PWR_CYCLE 0, s.alm.hours, s.alm.usec, 24, .clear, noInst, 0, args⟩ : Rec).bytes 1)
      rw [hhusk, halm]
      exact ⟨rfl, rfl, rfl, .inr rfl⟩
    · exact ⟨rfl, rfl, rfl, .inl rfl⟩
  · exact ⟨rfl, rfl, rfl, .inl rfl⟩

theorem clearClass_trace_cleared (s : State) (who : Nat) :
    (s.clearClass 1 who).husk = s.husk ∧ (s.clearClass 1 who).alm.clrGen = s.alm.clrGen + 1 ∧
      (s.clearClass 1 who).alm.auditLast = s.alm.auditLast + 1 ∧ (s.clearClass 1 who).alm.traceHead ≤ 2 := by
  obtain ⟨hhusk, hgen, hlast, hhead⟩ := traceMarked_facts (traceEmptied s) [s.alm.clrGen + 1, s.alm.traceHead - 1, who]
  have hhead : (traceMarked (traceEmptied s) [s.alm.clrGen + 1, s.alm.traceHead - 1, who]).alm.traceHead ≤ 2 :=
    hhead.elim (fun h => h.trans_le (Nat.le_succ 1)) (fun h => h.le)
  rw [clearClass_trace]
  generalize traceMarked (traceEmptied s) [s.alm.clrGen + 1, s.alm.traceHead - 1, who] = u at *
  obtain ⟨r, -, hvgen, hvhead, -⟩ := audit_trimmed u 8 .clear noInst [s.alm.clrGen + 1, s.alm.traceHead - 1, who] false
  refine ⟨?_, hvgen.trans hgen, (audit_auditLast ..).trans (congrArg (· + 1) hlast), hvhead.trans_le hhead⟩
  rw [audit_frame]
  exact hhusk

theorem clearClass_audit_requests (s : State) (who : Nat) : (s.clearClass 2 who).husk.requests = s.husk.requests := by
  have h := (clearClass_audit_cleared s who).frame
  generalize s.clearClass 2 who = t at *
  rw [h]

/-! ### The requests -/

theorem clearCheck_le (s : State) (cls : Nat) (b : List Byte) : s.clearCheck cls b ≤ 8 := by
  unfold State.clearCheck
  (repeat' split) <;> omega

theorem clearReq_checks (s : State) (ch opc cls : Nat) :
    ∃ act, s.clearReq ch opc cls = s.huskReq ch opc [2, 3] act ∧
      ∀ (reg : Nat → Nat) (who : Nat) (x : State) (b : List Byte), b = x.memRead (reg 2 + 2 ^ 32 * reg 3) 288 →
        act reg who x = (if x.clearCheck cls b = 0 then x.clearClass cls who else x, some (x.clearCheck cls b, 0)) := by
  refine ⟨_, rfl, fun reg who x b hb => ?_⟩
  subst hb
  exact match_status _ _ _

/-- A request to clear a class is answered with its check's status; where that is 0 the class is cleared, and else nothing is touched but
the request. -/
theorem clearReq_follows {s : State} {ch opc cls : Nat} (hlo : 40 ≤ ch) (hhi : ch < 64) (hask : s.huskAsks ch opc [2, 3])
    (hopc : opc ∈ huskOpcodes) (ho : opc < 2 ^ 32) {b : List Byte} (hb : b = s.memRead (s.mbWord ch 0 2 + 2 ^ 32 * s.mbWord ch 0 3) 288)
    (hreq : ∀ (x : State) (who : Nat), (x.clearClass cls who).husk.requests = x.husk.requests) :
    (s.clearReq ch opc cls).huskAnswered ch opc (s.clearCheck cls b) 0 ∧
      (s.clearCheck cls b = 0 → ∃ x : State, x.alm = s.alm ∧ ∃ who, (s.clearReq ch opc cls).alm = (x.clearClass cls who).alm) ∧
      (s.clearCheck cls b ≠ 0 → (s.clearReq ch opc cls).alm = s.alm ∧ (s.clearReq ch opc cls).mem = s.mem) := by
  obtain ⟨v, q, htaken⟩ := huskTaken_mailOnly (show 16 ≤ ch by omega) s
  obtain ⟨act, hexec, hact⟩ := clearReq_checks s ch opc cls
  have hact := hact (s.mbWord ch 0) (s.mb ch 0).sender.toNat (huskTaken s ch) b (by rw [htaken]; exact hb)
  have hcheck : (huskTaken s ch).clearCheck cls b = s.clearCheck cls b := by rw [htaken]; rfl
  have halm : (huskTaken s ch).alm = s.alm := by rw [htaken]
  rw [hcheck] at hact
  rw [hexec]
  have hst : s.clearCheck cls b < 2 ^ 32 := (clearCheck_le s cls b).trans_lt (by decide)
  by_cases h0 : s.clearCheck cls b = 0
  · rw [if_pos h0] at hact
    obtain ⟨hans, v', hv⟩ := huskReq_answers hlo hhi hask hopc hact (clearClass_calm _ _ _ (calm_refl _)).mbox (hreq _ _) ho hst
      (by decide)
    exact ⟨hans, fun _ => ⟨huskTaken s ch, halm, _, by rw [hv]⟩, fun h => absurd h0 h⟩
  · rw [if_neg h0] at hact
    obtain ⟨hans, v', hv⟩ := huskReq_answers hlo hhi hask hopc hact rfl rfl ho hst (by decide)
    refine ⟨hans, fun h => absurd h h0, fun _ => ?_⟩
    rw [hv, htaken]
    exact ⟨rfl, rfl⟩

theorem auditClear_follows (s : State) (ch : Fin 64) (hlo : 40 ≤ ch.val) (hask : s.huskAsks ch 0x40 [2, 3]) :
    let b := s.memRead (s.mbWord ch 0 2 + 2 ^ 32 * s.mbWord ch 0 3) 288
    ∃ t, exec (.auditClear ch) s = .next t ∧ t.huskAnswered ch 0x40 (s.clearCheck 2 b) 0 ∧
      (s.clearCheck 2 b = 0 → t.alm.clrGen = s.alm.clrGen + 1 ∧ t.alm.auditLast = s.alm.auditLast + 1 ∧ t.alm.traceHead = s.alm.traceHead ∧
        t.alm.audit.length ≤ 1 ∧ ∀ r ∈ t.alm.audit, r.seq = t.alm.auditLast) ∧
      (s.clearCheck 2 b ≠ 0 → t.alm = s.alm) := by
  intro b
  obtain ⟨hans, hcleared, hkept⟩ := clearReq_follows (cls := 2) hlo ch.isLt hask (by decide) (by decide) (b := b) rfl
    clearClass_audit_requests
  refine ⟨_, rfl, hans, fun h0 => ?_, fun hne => (hkept hne).1⟩
  obtain ⟨x, hx, who, halm⟩ := hcleared h0
  obtain ⟨-, hgen, hlast, hhead, hlen, hseq⟩ := clearClass_audit_cleared x who
  generalize (x.clearClass 2 who).alm = al at *
  rw [halm, ← hx]
  exact ⟨hgen, hlast, hhead, hlen, hseq⟩

theorem traceClear_follows (s : State) (ch : Fin 64) (hlo : 40 ≤ ch.val) (hask : s.huskAsks ch 0x41 [2, 3]) :
    let b := s.memRead (s.mbWord ch 0 2 + 2 ^ 32 * s.mbWord ch 0 3) 288
    ∃ t, exec (.traceClear ch) s = .next t ∧ t.huskAnswered ch 0x41 (s.clearCheck 1 b) 0 ∧
      (s.clearCheck 1 b = 0 → t.alm.clrGen = s.alm.clrGen + 1 ∧ t.alm.auditLast = s.alm.auditLast + 1 ∧ t.alm.traceHead ≤ 2) ∧
      (s.clearCheck 1 b ≠ 0 → t.alm = s.alm ∧ t.mem = s.mem) := by
  intro b
  obtain ⟨hans, hcleared, hkept⟩ := clearReq_follows (cls := 1) hlo ch.isLt hask (by decide) (by decide) (b := b) rfl
    fun x who => congrArg Husk.requests (clearClass_trace_cleared x who).1
  refine ⟨_, rfl, hans, fun h0 => ?_, hkept⟩
  obtain ⟨x, hx, who, halm⟩ := hcleared h0
  obtain ⟨-, hgen, hlast, hhead⟩ := clearClass_trace_cleared x who
  rw [halm, ← hx]
  exact ⟨hgen, hlast, hhead⟩

/-- Settles O16. -/
theorem updateAndClears : Obligations.UpdateAndClears := by
  refine ⟨fun s ch r1 addr len hlo hask h1 h4 ha hl => ⟨fun h huse => ?_, fun h huse => ?_, fun h hfree hpos hmax hpart => ?_,
    fun h hfree hpos hmax hpart => ?_⟩, fun s ch hlo => ⟨auditClear_follows s ch hlo, traceClear_follows s ch hlo⟩⟩
  · obtain ⟨t, hexec, hans, q, hq⟩ := update_in_use s ch hlo hask (h1 ▸ h4) (by simpa [copyInUse, targetFw, h1, h] using huse)
    exact ⟨t, hexec, hans, by rw [hq], by rw [hq]⟩
  · obtain ⟨t, hexec, hans, q, hq⟩ := update_in_use s ch hlo hask (h1 ▸ h4) (by simpa [copyInUse, targetFw, h1, h] using huse)
    exact ⟨t, hexec, hans, by rw [hq], by rw [hq]⟩
  · exact update_image s ch hlo hask h1 h4 ha hl h hfree hpos hmax hpart
  · exact update_bundle s ch hlo hask h1 h4 ha hl h hfree hpos hmax hpart

end Sys2Proof.Proofs

namespace Sys2Proof.Proofs
open Sys2Proof.Machine Sys2Proof.Laws

/-! ## Messages sent by Husk and by the loaders (R72, R78, R80) -/

/-- Words written into the data registers of a direction from register `k` on. -/
def mbFill (s : State) (ch d k : Nat) (words : List Nat) : State :=
  (words.zipIdx k).foldl (fun s w => s.mbData ch d w.2 (BitVec.ofNat 32 w.1)) s

theorem mbFill_nil (s : State) (ch d k : Nat) : mbFill s ch d k [] = s := rfl

theorem mbFill_cons (s : State) (ch d k w : Nat) (words : List Nat) :
    mbFill s ch d k (w :: words) = mbFill (s.mbData ch d k (BitVec.ofNat 32 w)) ch d (k + 1) words := rfl

/-- The message goes out of its data registers: GO, then CROSS. -/
def mbSend (s : State) (ch d : Nat) (words : List Nat) (who : Initiator) : State :=
  let t := (mbFill s ch d 0 words).mbGo ch d who
  t.mbCross ch (!(s.mb ch d).full && (t.mb ch d).full)

theorem huskSend_eq (s : State) (ch : Nat) (words : List Nat) : s.huskSend ch words = mbSend s ch 1 words (BitVec.ofNat 8 idHusk) := rfl

theorem loaderAnswer_eq (s : State) (q status opc : Nat) :
    s.loaderAnswer q status opc = mbSend s (60 + q) 0 [status, opc] (BitVec.ofNat 8 (idLoader q)) := rfl

theorem mbFill_mailOnly (s : State) (ch d k : Nat) (words : List Nat) : MailOnly s (mbFill s ch d k words) := by
  induction words generalizing s k with
  | nil => exact .refl s
  | cons w words ih => exact (mbData_mailOnly ..).trans (ih ..)

theorem mb_mbFill_ne {ch d c e : Nat} (h : 2 * ch + d ≠ 2 * c + e) (s : State) (k : Nat) (words : List Nat) :
    (mbFill s ch d k words).mb c e = s.mb c e := by
  induction words generalizing s k with
  | nil => rfl
  | cons w words ih => rw [mbFill_cons, ih, mb_mbData_ne h]

theorem eight_le_regs (m : MboxRec) : 8 ≤ m.regs := by
  unfold MboxRec.regs
  omega

/-- A free direction stays free while its registers are written, and each holds its word then. -/
theorem mb_mbFill_free {ch d : Nat} (hk : 2 * ch + d < 128) {words : List Nat} {k : Nat} (hlen : k + words.length ≤ 8) {s : State}
    (hf : (s.mb ch d).full = false) :
    ((mbFill s ch d k words).mb ch d).full = false ∧ ∀ j, (mbFill s ch d k words).mbWord ch d j =
      if k ≤ j ∧ j < k + words.length then words.getD (j - k) 0 % 2 ^ 32 else s.mbWord ch d j := by
  induction words generalizing s k with
  | nil => exact ⟨hf, fun j => (if_neg (by simp)).symm⟩
  | cons w words ih =>
    rw [List.length_cons] at hlen
    have hdata : (s.mbData ch d k (BitVec.ofNat 32 w)).mb ch d =
        { s.mb ch d with data := vupd (s.mb ch d).data k (fun _ => BitVec.ofNat 32 w) } := by
      rw [mb_mbData_same hk ((show k < 8 by omega).trans_le (eight_le_regs _)), hf]
      rfl
    obtain ⟨hfull, hword⟩ := ih (k := k + 1) (s := s.mbData ch d k (BitVec.ofNat 32 w)) (by omega) (by rw [hdata]; exact hf)
    refine ⟨hfull, fun j => (hword j).trans ?_⟩
    have hj : (s.mbData ch d k (BitVec.ofNat 32 w)).mbWord ch d j = if j = k then w % 2 ^ 32 else s.mbWord ch d j := by
      rw [State.mbWord, hdata, vupd_word _ ⟨k, by omega⟩]
      simp [State.mbWord]
    rw [hj, List.length_cons]
    by_cases hjk : j = k
    · rw [if_neg (by omega), if_pos hjk, if_pos (by omega), hjk, Nat.sub_self, List.getD_cons_zero]
    · rw [if_neg hjk]
      by_cases hin : k + 1 ≤ j ∧ j < k + 1 + words.length
      · rw [if_pos hin, if_pos (by omega), show j - k = j - (k + 1) + 1 by omega, List.getD_cons_succ]
      · rw [if_neg hin, if_neg (by omega)]

theorem mbSend_mailOnly (s : State) (ch d : Nat) (words : List Nat) (who : Initiator) : MailOnly s (mbSend s ch d words who) :=
  ((mbFill_mailOnly ..).trans (mbGo_mailOnly ..)).trans (mbCross_mailOnly ..)

theorem mb_mbSend_ne {ch c : Nat} (hc : c ≠ ch) {d e : Nat} (hd : d < 2) (he : e < 2) (s : State) (words : List Nat) (who : Initiator) :
    (mbSend s ch d words who).mb c e = s.mb c e := by
  rw [mbSend, mb_mbCross_ne hc he, mb_mbGo_ne (by omega), mb_mbFill_ne (by omega)]

/-- A crossing changes neither FULL, nor the sender, nor the data. -/
theorem mbCross_kept {ch d : Nat} (hch : ch < 64) (hd : d < 2) (s : State) (newly : Bool) :
    ((s.mbCross ch newly).mb ch d).full = (s.mb ch d).full ∧ ((s.mbCross ch newly).mb ch d).sender = (s.mb ch d).sender ∧
      ((s.mbCross ch newly).mb ch d).data = (s.mb ch d).data := by
  rw [mb_mbCross hch hd]
  split <;> exact ⟨rfl, rfl, rfl⟩

theorem mbSend_kept {ch d e : Nat} (hch : ch < 64) (he : e < 2) (s : State) (words : List Nat) (who : Initiator) :
    let u := (mbFill s ch d 0 words).mbGo ch d who
    ((mbSend s ch d words who).mb ch e).full = (u.mb ch e).full ∧ ((mbSend s ch d words who).mb ch e).sender = (u.mb ch e).sender ∧
      ((mbSend s ch d words who).mb ch e).data = (u.mb ch e).data := mbCross_kept hch he _ _

theorem mb_mbSend_other {ch d e : Nat} (hch : ch < 64) (he : e < 2) (hde : e ≠ d) (s : State) (words : List Nat) (who : Initiator) :
    ((mbSend s ch d words who).mb ch e).full = (s.mb ch e).full ∧ ((mbSend s ch d words who).mb ch e).data = (s.mb ch e).data := by
  have hgo : ((mbFill s ch d 0 words).mbGo ch d who).mb ch e = s.mb ch e := by
    rw [mb_mbGo_ne (by omega), mb_mbFill_ne (by omega)]
  obtain ⟨hfull, -, hdata⟩ := mbSend_kept (d := d) hch he s words who
  rw [hgo] at hfull hdata
  exact ⟨hfull, hdata⟩

/-- A message sent into a free direction waits there: its sender and its words (R80). -/
theorem mb_mbSend_same {ch d : Nat} (hch : ch < 64) (hd : d < 2) {words : List Nat} (hlen : words.length ≤ 8) {s : State}
    (hf : (s.mb ch d).full = false) (who : Initiator) :
    ((mbSend s ch d words who).mb ch d).full = true ∧ ((mbSend s ch d words who).mb ch d).sender = who ∧
      ∀ j, (mbSend s ch d words who).mbWord ch d j = if j < words.length then words.getD j 0 % 2 ^ 32 else s.mbWord ch d j := by
  obtain ⟨hfree, hword⟩ := mb_mbFill_free (ch := ch) (d := d) (by omega) (words := words) (k := 0) (by omega) hf
  obtain ⟨hfull, hsender, hdata⟩ := mbSend_kept (d := d) hch hd s words who
  have hgo : ((mbFill s ch d 0 words).mbGo ch d who).mb ch d = sentMsg who ((mbFill s ch d 0 words).mb ch d) := by
    rw [mb_mbGo_same (by omega), hfree]
    rfl
  generalize mbSend s ch d words who = t at *
  rw [hgo] at hfull hsender hdata
  refine ⟨hfull, hsender, fun j => ?_⟩
  have hj : t.mbWord ch d j = (mbFill s ch d 0 words).mbWord ch d j := by
    rw [State.mbWord, hdata]
    rfl
  rw [hj, hword, Nat.zero_add, Nat.sub_zero, if_congr (and_iff_right j.zero_le) rfl rfl]

/-- A change of a direction tells Husk nothing. -/
theorem mbPut_husk (s : State) (ch d : Nat) (f : Mbox → Mbox) : (s.mbPut ch d f).husk = s.husk := by
  rw [mbPut_frame]

theorem mbFill_husk (s : State) (ch d k : Nat) (words : List Nat) : (mbFill s ch d k words).husk = s.husk := by
  induction words generalizing s k with
  | nil => rfl
  | cons w words ih =>
    rw [mbFill_cons, ih, State.mbData]
    split
    · rfl
    · exact mbPut_husk ..

/-- A message to anyone but Husk is no request (R72). -/
theorem mbSend_husk {ch d : Nat} (h : d = 1 ∨ 60 ≤ ch) (s : State) (words : List Nat) (who : Initiator) :
    (mbSend s ch d words who).husk = s.husk := by
  have hcross (t : State) (newly : Bool) : (t.mbCross ch newly).husk = t.husk := by
    unfold State.mbCross
    split
    · rw [mbPut_husk, mbPut_husk]
    · rfl
  have hgo (t : State) : (t.mbGo ch d who).husk = t.husk := by
    unfold State.mbGo
    split
    · exact mbPut_husk ..
    · rw [if_neg (by omega)]
      exact mbPut_husk ..
  rw [mbSend, hcross, hgo, mbFill_husk]

/-- Husk's message in the reply's direction: what the reply of R74 says. -/
theorem huskReply_waits {ch : Nat} (hch : ch < 64) {u : State} (h0 : (u.mb ch 0).full = false) (h1 : (u.mb ch 1).full = false)
    (hr : ch ∉ u.husk.requests) {opc status step : Nat} (ho : opc < 2 ^ 32) (hs : status < 2 ^ 32) (hp : step < 2 ^ 32) :
    (u.huskReply ch opc status step).huskAnswered ch opc status step := by
  obtain ⟨hfull, hsender, hword⟩ := mb_mbSend_same hch (by decide : 1 < 2) (words := [status, opc, step]) (show 3 ≤ 8 by decide) h1
    (BitVec.ofNat 8 idHusk)
  rw [State.huskReply, huskSend_eq]
  refine ⟨(mb_mbSend_other hch (by decide) (by decide) ..).1.trans h0, hfull, by rw [hsender]; rfl, ?_, ?_, ?_, ?_⟩
  · exact (hword 0).trans (Nat.mod_eq_of_lt hs)
  · exact (hword 1).trans (Nat.mod_eq_of_lt ho)
  · exact (hword 2).trans (Nat.mod_eq_of_lt hp)
  · rwa [mbSend_husk (.inl rfl)]

end Sys2Proof.Proofs

namespace Sys2Proof.Proofs
open Sys2Proof.Machine Sys2Proof.Laws

/-! ## The NVMe-MI relay (R77) -/

theorem miRelay_goes {s : State} {m : MiMsg} {rest : List MiMsg} (hrel : s.culmReleased = true) (hhalt : s.husk.halted = false)
    (hwait : s.husk.miWait = m :: rest) (hout : s.husk.miOut = none) (hfree : (s.mb 47 1).full = false) :
    ∃ words u, words.length = 5 ∧ words.getD 0 0 = 0x90 ∧
      words.getD 1 0 = (m.bytes.take 8192).length + m.tag.toNat * 65536 + (if m.owner then 2 ^ 24 else 0) ∧
      words.getD 4 0 = (s.husk.miSeq + 1) % 2 ^ 32 ∧
      u = (s.memWrite s.miReqBuf (m.bytes.take 8192)).updHusk
        (fun k => { k with miWait := rest, miOut := some m, miSeq := s.husk.miSeq + 1 }) ∧
      exec .miRelay s = .next (mbSend u 47 1 words (BitVec.ofNat 8 idHusk)) := by
  refine ⟨[0x90, (m.bytes.take 8192).length + m.tag.toNat * 65536 + (if m.owner then 2 ^ 24 else 0), s.miReqBuf % 2 ^ 32,
    s.miReqBuf / 2 ^ 32, (s.husk.miSeq + 1) % 2 ^ 32], _, rfl, rfl, rfl, rfl, rfl, ?_⟩
  change execMiRelay s = _
  unfold execMiRelay
  rw [hwait]
  dsimp only
  rw [if_pos ⟨hrel, hhalt, hout, hfree⟩]
  rfl

theorem miRelay_sends (s : State) (m : MiMsg) (rest : List MiMsg) (hrel : s.culmReleased = true) (hhalt : s.husk.halted = false)
    (hwait : s.husk.miWait = m :: rest) (hout : s.husk.miOut = none) (hfree : (s.mb 47 1).full = false) (hlen : m.bytes.length ≤ 8192)
    (hseq : s.husk.miSeq < 2 ^ 32 - 1) :
    ∃ t, exec .miRelay s = .next t ∧ t.husk.miWait = rest ∧ t.husk.miOut = some m ∧ t.husk.miSeq = s.husk.miSeq + 1 ∧
      (t.mb 47 1).full = true ∧ t.mbWord 47 1 0 = 0x90 ∧ t.mbWord 47 1 1 % 16384 = m.bytes.length ∧ t.mbWord 47 1 4 = s.husk.miSeq + 1 ∧
      t.mem = (s.memWrite s.miReqBuf m.bytes).mem ∧ t.regs = s.regs := by
  obtain ⟨words, u, hn, h0, h1, h4, hu, hexec⟩ := miRelay_goes hrel hhalt hwait hout hfree
  rw [List.take_of_length_le hlen] at h1 hu
  obtain ⟨hfull, -, hword⟩ := mb_mbSend_same (ch := 47) (d := 1) (by decide) (by decide) (words := words) (by omega) (s := u)
    (by rw [hu]; exact hfree) (BitVec.ofNat 8 idHusk)
  have hmail := mbSend_mailOnly u 47 1 words (BitVec.ofNat 8 idHusk)
  have hhusk := mbSend_husk (ch := 47) (d := 1) (.inl rfl) u words (BitVec.ofNat 8 idHusk)
  refine ⟨_, hexec, ?_, ?_, ?_, hfull, ?_, ?_, ?_, ?_, ?_⟩
  · rw [hhusk, hu]
    rfl
  · rw [hhusk, hu]
    rfl
  · rw [hhusk, hu]
    rfl
  · rw [hword, if_pos (by omega), h0]
    rfl
  · rw [hword, if_pos (by omega), h1]
    have : (if m.owner then 2 ^ 24 else 0) % 16384 = 0 := by split <;> rfl
    omega
  · rw [hword, if_pos (by omega), h4]
    omega
  · rw [hmail.mem, hu]
    rfl
  · rw [hmail.regs, hu]
    rfl

/-- The response is released; where it answers the outstanding relay it is passed on, else dropped. -/
theorem miResponse_taken {s : State} {m : MiMsg} (hlocked : s.locked = true) (hhalt : s.husk.halted = false)
    (hout : s.husk.miOut = some m) (hfull : (s.mb 47 0).full = true) (hc : (s.chan 47).compat = false) :
    exec .miResponse s = .next (
      let t := s.updMbox 47 0 releasedMsg
      if s.mbWord 47 0 0 = 0x91 ∧ s.mbWord 47 0 4 = s.husk.miSeq % 2 ^ 32 then
        (t.updHusk (fun k => { k with miOut := none })).emit
          (.mctp (s.memRead s.miRespBuf (min (s.mbWord 47 0 1 % 16384) 8192)) m.tag false)
      else t) := by
  have hrel : s.mbRelease 47 0 = s.updMbox 47 0 releasedMsg := by
    rw [mbRelease_of_full hc hfull, mbPut_of_ge (by decide)]
  change execMiResponse s = _
  unfold execMiResponse
  rw [hrel]
  dsimp only
  rw [if_neg (by simp [hfull, hlocked, hhalt])]
  have hm : (s.updMbox 47 0 releasedMsg).husk.miOut = some m := hout
  rw [hm]
  rfl

theorem miResponse_follows (s : State) (m : MiMsg) (hlocked : s.locked = true) (hhalt : s.husk.halted = false)
    (hout : s.husk.miOut = some m) (hfull : (s.mb 47 0).full = true) (hc : (s.chan 47).compat = false) (hop : s.mbWord 47 0 0 = 0x91) :
    ∃ t, exec .miResponse s = .next t ∧ (t.mb 47 0).full = false ∧ t.regs = s.regs ∧ t.mem = s.mem ∧
      (s.mbWord 47 0 4 = s.husk.miSeq % 2 ^ 32 → t.husk.miOut = none ∧
        t.out = s.out ++ [.mctp (s.memRead s.miRespBuf (min (s.mbWord 47 0 1 % 16384) 8192)) m.tag false]) ∧
      (s.mbWord 47 0 4 ≠ s.husk.miSeq % 2 ^ 32 → t.husk = s.husk ∧ t.out = s.out) := by
  have hfree : ((s.updMbox 47 0 releasedMsg).mb 47 0).full = false := by
    rw [mb_updMbox_same (by decide)]
    rfl
  refine ⟨_, miResponse_taken hlocked hhalt hout hfull hc, ?_⟩
  dsimp only
  by_cases hseq : s.mbWord 47 0 4 = s.husk.miSeq % 2 ^ 32
  · rw [if_pos ⟨hop, hseq⟩]
    exact ⟨hfree, rfl, rfl, fun _ => ⟨rfl, rfl⟩, fun h => absurd hseq h⟩
  · rw [if_neg fun h => hseq h.2]
    exact ⟨hfree, rfl, rfl, fun h => absurd h hseq, fun _ => ⟨rfl, rfl⟩⟩

theorem miRelayTimeout_answers (s : State) (m : MiMsg) (hout : s.husk.miOut = some m) :
    ∃ t, exec .miRelayTimeout s = .next t ∧ t.husk.miOut = none ∧ t.out = s.out ++ [.mctp (Config.miReply 1 m.bytes) m.tag false] ∧
      t.alm.auditLast = s.alm.auditLast + 1 := by
  have hexec : exec .miRelayTimeout s = .next
      (((s.updHusk (fun k => { k with miOut := none })).miError m).audit 3 .miTimeout noInst [s.husk.miSeq]) := by
    change execMiRelayTimeout s = _
    unfold execMiRelayTimeout
    rw [hout]
  refine ⟨_, hexec, ?_, ?_, audit_auditLast ..⟩
  · rw [audit_frame]
    rfl
  · rw [audit_frame]
    rfl

/-- Settles O20. -/
theorem relayCarriesOneMessageAtATime : Obligations.RelayCarriesOneMessageAtATime := by
  intro s hlocked hphase hhalt hrel
  have hmsg (tag : Byte) (own : Bool) (b : List Byte) : exec (.mctpMessage true tag own b) s = .next (
      if 4 ≤ s.husk.miWait.length then s.miError ⟨b, tag, own⟩
      else s.updHusk (fun k => { k with miWait := k.miWait ++ [⟨b, tag, own⟩] })) := by
    change execMctpMessage true tag own b s = _
    unfold execMctpMessage
    rw [if_neg (by simp [hphase, hhalt]), hrel]
    rfl
  refine ⟨fun tag own b hlt => ?_, fun tag own b hge => ?_, fun m rest hwait hout h1 _ hlen hseq =>
    miRelay_sends s m rest hrel hhalt hwait hout h1 hlen hseq, fun m hout hfull hc hop => miResponse_follows s m hlocked hhalt hout hfull hc hop,
    miRelayTimeout_answers s⟩
  · rw [hmsg, if_neg (Nat.not_le.2 hlt)]
    exact ⟨_, rfl, rfl, rfl, rfl⟩
  · rw [hmsg, if_pos hge]
    exact ⟨_, rfl, rfl, rfl⟩

end Sys2Proof.Proofs

namespace Sys2Proof.Proofs
open Sys2Proof.Machine Sys2Proof.Laws

/-! ## A PCIe reset that shows its link up (R86, R355)

The reset clears LINK_UP first and ends the commands after it. `State.fileOk` does not bound the engine that a BIND record gives an
actuator, as `State.bindsOk` would: the copy of engine_MQ_VALID of an engine far past the last one is the register that holds LINK_UP, and
the end of a command refreshes it with the length of its actuator's queue. -/

/-- The engine whose copy of MQ_VALID is LINK_UP. -/
def strayEngine : Nat := (Reg.pcie_LINK_UP.id - Reg.engine_MQ_VALID.id) * 0x100000

/-- A write of slot 5 to actuator 0 that is still open. -/
def openWrite : Cmd where
  slot := 5
  sq := 1
  sqe := ⟨1, 9, 1, 0, 0, 0, 0, 0, 0, 0, false⟩
  admin := false
  prio := 1
  stamp := 1
  pool := 0
  act := 0
  lba := 0
  count := 1
  begun := true
  left := [0]
  room := 1
  fua := false
  aborted := false
  status := 0
  dw0 := 0
  dw1 := 0
  hold := .none
  wait := []
  deadline := none

/-- Actuator 0 is bound to that engine, holds a background entry, and has a command open. -/
def strayBound : State :=
  (({ State.reset with cfg := some { Structure.recovery with binds := [(0, strayEngine)] } }).updAct 0
    (fun a => { a with mq := [bgEntry 1 false 0 1 0 .host] })).updHost (fun h => { h with cmds := [openWrite] })

theorem strayEngine_key : Reg.engine_MQ_VALID.key strayEngine 0 = Reg.pcie_LINK_UP.key 0 0 := by decide

theorem strayBound_fileOk : strayBound.fileOk := by decide +kernel

theorem strayBound_link : (strayBound.linkClear.hostReset).rdB Reg.pcie_LINK_UP 0 = true := by decide +kernel

/-- Refutes O22: a hot reset of this state leaves LINK_UP at 1. -/
theorem not_pcieAndWarmResets : ¬ Obligations.PcieAndWarmResets := by
  unfold Obligations.PcieAndWarmResets
  rintro ⟨h, -⟩
  obtain ⟨⟨t, ht, -, hlink, -⟩, -⟩ := h strayBound .hotReset 0 strayBound_fileOk
  have hexec : exec (.pcieConventionalReset .hotReset) strayBound = .next strayBound.linkClear.hostReset := rfl
  rw [hexec, Host.Outcome.next.injEq] at ht
  rw [← ht, strayBound_link] at hlink
  exact absurd hlink (by decide)

end Sys2Proof.Proofs

namespace Sys2Proof.Proofs
open Sys2Proof.Machine Sys2Proof.Laws

/-! ## The loaders (R78, R189) -/

/-- The loader of a quadrant has taken its command. -/
def loaderTaken (s : State) (q : Nat) : State := s.updMbox (60 + q) 1 releasedMsg

theorem loaderTake_of_waiting {s : State} {q : Nat} (hc : (s.chan (60 + q)).compat = false) (hfull : (s.mb (60 + q) 1).full = true)
    (act : (Nat → Nat) → State → State) : s.loaderTake q act = act (s.mbWord (60 + q) 1) (loaderTaken s q) := by
  have hrel : s.mbRelease (60 + q) 1 = loaderTaken s q := by rw [mbRelease_of_full hc hfull, mbPut_of_ge (by omega), loaderTaken]
  rw [State.loaderTake, hrel, if_pos hfull]
  rfl

theorem word_eq_iff (s : State) (ch d i : Nat) (v : Word) : (s.mb ch d).data.toArray.getD i 0 = v ↔ s.mbWord ch d i = v.toNat :=
  BitVec.toNat_inj.symm

theorem mbWord_lt (s : State) (ch d i : Nat) : s.mbWord ch d i < 2 ^ 32 := BitVec.isLt _

/-- The answer of a loader waits in direction 0; of the rest only the mailboxes and what the host is told change. -/
theorem loaderAnswer_waits {u : State} {q : Nat} (hq : q < 4) (hf : (u.mb (60 + q) 0).full = false) {status opc : Nat}
    (hs : status < 2 ^ 32) (ho : opc < 2 ^ 32) :
    let t := u.loaderAnswer q status opc
    (t.mb (60 + q) 0).full = true ∧ t.mbWord (60 + q) 0 0 = status ∧ t.mbWord (60 + q) 0 1 = opc ∧
      (t.mb (60 + q) 1).full = (u.mb (60 + q) 1).full := by
  have hch : 60 + q < 64 := by omega
  obtain ⟨hfull, -, hword⟩ := mb_mbSend_same hch (by decide : 0 < 2) (words := [status, opc]) (show 2 ≤ 8 by decide) hf
    (BitVec.ofNat 8 (idLoader q))
  intro t
  have ht : t = mbSend u (60 + q) 0 [status, opc] (BitVec.ofNat 8 (idLoader q)) := loaderAnswer_eq ..
  rw [ht]
  refine ⟨hfull, (hword 0).trans (Nat.mod_eq_of_lt hs), (hword 1).trans (Nat.mod_eq_of_lt ho), ?_⟩
  exact (mb_mbSend_other hch (by decide) (by decide) ..).1

theorem loaderAnswer_mailOnly (u : State) (q status opc : Nat) : MailOnly u (u.loaderAnswer q status opc) :=
  (mbSend_mailOnly u (60 + q) 0 [status, opc] (BitVec.ofNat 8 (idLoader q))).of_eq (loaderAnswer_eq u q status opc)

theorem loaderAnswer_husk (u : State) (q status opc : Nat) : (u.loaderAnswer q status opc).husk = u.husk := by
  rw [loaderAnswer_eq, mbSend_husk (.inr (Nat.le_add_right ..))]

theorem loadEnd_of_none {s : State} (h : s.husk.loading = none) (q status : Nat) : s.loadEnd q status = s := by
  unfold State.loadEnd
  split
  · next hsome => cases h.symm.trans hsome
  · rfl

/-- A command that stands in neither HALT's nor LOAD's place is one or the other by its opcode. -/
theorem loaderLoad_of_waiting {s : State} {q : Nat} (hc : (s.chan (60 + q)).compat = false) (hfull : (s.mb (60 + q) 1).full = true)
    (hop : s.mbWord (60 + q) 1 0 ≠ 0xA1) (ddrErr : Bool) :
    let reg := s.mbWord (60 + q) 1
    let u := loaderTaken s q
    let e := reg 1
    (reg 0 ≠ 0xA0 → s.loaderLoad q ddrErr = u.loaderAnswer q 7 (reg 0)) ∧
    (reg 0 = 0xA0 → u.loaderKnows q e = false → s.loaderLoad q ddrErr = (u.loaderAnswer q 1 0xA0).loadEnd q 1) ∧
    (reg 0 = 0xA0 → u.loaderKnows q e = true → ddrErr = true →
      s.loaderLoad q ddrErr = ((u.wr Reg.engine_RUN e 0).loaderAnswer q 2 0xA0).loadEnd q 2) ∧
    (reg 0 = 0xA0 → u.loaderKnows q e = true → ddrErr = false →
      let n := min (reg 4) 0x40000
      let a := reg 2 + 2 ^ 32 * reg 3
      s.loaderLoad q ddrErr = ((((u.dmaReadViol (idLoader q) true a n).loaderFill q e (u.dmaRead (idLoader q) true a n)).wr Reg.engine_RUN e
        1).loaderAnswer q 0 0xA0).loadEnd q 0) := by
  intro reg u e
  have hload : s.loaderLoad q ddrErr = s.loaderTake q _ := if_neg fun h => hop ((word_eq_iff ..).1 h)
  rw [hload, loaderTake_of_waiting hc hfull]
  dsimp only
  refine ⟨fun h => if_pos h, fun h hk => ?_, fun h hk hd => ?_, fun h hk hd => ?_⟩
  · rw [if_neg (not_not.2 h), if_pos hk]
  · rw [if_neg (not_not.2 h), if_neg (Bool.eq_false_iff.not.2 (not_not.2 hk)), if_pos hd]
  · rw [if_neg (not_not.2 h), if_neg (Bool.eq_false_iff.not.2 (not_not.2 hk)), if_neg (Bool.eq_false_iff.1 hd)]
    rfl

theorem execHalt_of_known {s : State} {q : Quad} (hc : (s.chan (60 + q)).compat = false) (hfull : (s.mb (60 + q) 1).full = true)
    (hop : s.mbWord (60 + q) 1 0 = 0xA1) (hk : s.loaderKnows q (s.mbWord (60 + q) 1 1) = true) :
    exec (.halt q) s = .next (((loaderTaken s q).wr Reg.engine_RUN (s.mbWord (60 + q) 1 1) 0).loaderAnswer q 0 0xA1) := by
  change execHalt q s = _
  unfold execHalt
  rw [if_neg (not_not.2 ((word_eq_iff ..).2 hop)), loaderTake_of_waiting hc hfull]
  exact congrArg Host.Outcome.next (if_pos hk)

/-- What the loader's commands speak of is where it was. -/
theorem loaderTaken_mb {s : State} {q : Nat} (hq : q < 4) :
    (loaderTaken s q).mb (60 + q) 0 = s.mb (60 + q) 0 ∧ ((loaderTaken s q).mb (60 + q) 1).full = false := by
  rw [loaderTaken, mb_updMbox_ne (by omega), mb_updMbox_same (by omega)]
  exact ⟨rfl, rfl⟩

theorem rd_run_wr {s : State} (hs : s.fileOk) (e : Nat) (v : Bool) : (s.wr Reg.engine_RUN e (if v then 1 else 0)).rd Reg.engine_RUN e = if v then 1 else 0 := by
  rw [rd_eq, wr_eq, rdAt_wrAt s _ e 0 _ hs]
  cases v <;> decide

theorem MailOnly.rd {s t : State} (h : MailOnly s t) (f : RegField) (i : Nat) : t.rd f i = s.rd f i := by
  rw [rd_eq, rd_eq, State.rdAt, State.rdAt, h.regs]

theorem MailOnly.engMem {s t : State} (h : MailOnly s t) : t.engMem = s.engMem := by rw [h]

theorem loaderKnows_bound {s : State} {q e : Nat} (h : s.loaderKnows q e = true) : e / 17 = q ∧ (s.engAct e).isSome = true := by
  simpa [State.loaderKnows] using h

theorem halt_stops (s : State) (q : Quad) (hs : s.fileOk) (hfull : (s.mb (60 + q) 1).full = true) (hfree : (s.mb (60 + q) 0).full = false)
    (hc : (s.chan (60 + q)).compat = false) (hop : s.mbWord (60 + q) 1 0 = 0xA1)
    (hk : s.loaderKnows q (s.mbWord (60 + q) 1 1) = true) :
    ∃ t, exec (.halt q) s = .next t ∧ t.rd Reg.engine_RUN (s.mbWord (60 + q) 1 1) = 0 ∧ t.engMem = s.engMem ∧
      (t.mb (60 + q) 1).full = false ∧ (t.mb (60 + q) 0).full = true ∧ t.mbWord (60 + q) 0 0 = 0 ∧ t.mbWord (60 + q) 0 1 = 0xA1 := by
  obtain ⟨h0, h1⟩ := loaderTaken_mb (s := s) q.isLt
  have hmail := loaderAnswer_mailOnly ((loaderTaken s q).wr Reg.engine_RUN (s.mbWord (60 + q) 1 1) 0) q 0 0xA1
  obtain ⟨hsent, hst, hopc, hone⟩ := loaderAnswer_waits (u := (loaderTaken s q).wr Reg.engine_RUN (s.mbWord (60 + q) 1 1) 0) q.isLt
    ((congrArg Mbox.full h0).trans hfree) (status := 0) (opc := 0xA1) (by decide) (by decide)
  exact ⟨_, execHalt_of_known hc hfull hop hk, (hmail.rd _ _).trans (rd_run_wr hs _ false), hmail.engMem, hone.trans h1, hsent, hst, hopc⟩

/-! ### LOAD -/

/-- Accesses refused are recorded; nothing else changes (R66). -/
theorem dmaReadViol_frame (s : State) (who : Nat) (sec : Bool) (a n : Nat) :
    s.dmaReadViol who sec a n = { s with viol := (s.dmaReadViol who sec a n).viol } := by
  refine List.foldlRecOn (motive := fun t : State => t = { s with viol := t.viol }) _ _ rfl fun t ht p _ => ?_
  split
  · rw [ht]
    rfl
  · exact ht

/-- A fill whose pages the loader may all write is the engine's. -/
theorem loaderFill_of_open {s : State} {q e : Nat}
    (h : ∀ i, i < 64 → s.access (idLoader q) (windowBase (0x20 + e) + 0x80000 + 4096 * i) true = .ok) (b : List Byte) :
    s.loaderFill q e b = s.engineFill e b := by
  have hshut : (List.range 64).filter
      (fun i => s.access (idLoader q) (windowBase (0x20 + e) + 0x80000 + 4096 * i) true != .ok) = [] :=
    List.filter_eq_nil_iff.2 fun i hi => by simp [h i (List.mem_range.1 hi)]
  unfold State.loaderFill
  dsimp only
  rw [hshut]
  rfl

theorem loaderFill_frame (s : State) (q e : Nat) (b : List Byte) :
    s.loaderFill q e b = { s with viol := (s.loaderFill q e b).viol, engMem := (s.loaderFill q e b).engMem } := by
  unfold State.loaderFill
  extract_lets at_ shut u page
  have hu : u = { s with viol := u.viol } := by
    refine List.foldlRecOn (motive := fun t : State => t = { s with viol := t.viol }) _ _ rfl fun t ht p _ => ?_
    split
    · rw [ht]
      rfl
    · exact ht
  split
  · rw [State.engineFill, hu]
  · rw [hu]

/-- The state in which the loader has read the code and filled local memory. -/
def loaderFilled (s : State) (q e a n : Nat) : State :=
  ((loaderTaken s q).dmaReadViol (idLoader q) true a n).loaderFill q e ((loaderTaken s q).dmaRead (idLoader q) true a n)

theorem loaderFilled_frame (s : State) (q e a n : Nat) :
    loaderFilled s q e a n = { loaderTaken s q with viol := (loaderFilled s q e a n).viol, engMem := (loaderFilled s q e a n).engMem } := by
  have hfill := loaderFill_frame ((loaderTaken s q).dmaReadViol (idLoader q) true a n) q e ((loaderTaken s q).dmaRead (idLoader q) true a n)
  rw [loaderFilled]
  generalize State.loaderFill _ _ _ _ = t at *
  rw [hfill, dmaReadViol_frame]

end Sys2Proof.Proofs

namespace Sys2Proof.Proofs
open Sys2Proof.Machine Sys2Proof.Laws

theorem loaderKnows_taken (s : State) (q e : Nat) : (loaderTaken s q).loaderKnows q e = s.loaderKnows q e := rfl

theorem loaderTaken_dmaRead (s : State) (q who : Nat) (sec : Bool) (a n : Nat) :
    (loaderTaken s q).dmaRead who sec a n = s.dmaRead who sec a n := rfl

theorem loaderTaken_engMem (s : State) (q : Nat) : (loaderTaken s q).engMem = s.engMem := rfl

/-- Reading the code leaves who may access what as it was. -/
theorem access_dmaReadViol (s : State) (q who : Nat) (sec : Bool) (a n id addr : Nat) (wr : Bool) :
    ((loaderTaken s q).dmaReadViol who sec a n).access id addr wr = s.access id addr wr := by
  rw [dmaReadViol_frame]
  rfl

theorem engineFill_engMem_congr {s t : State} (h : t.engMem = s.engMem) (e : Nat) (b : List Byte) :
    (t.engineFill e b).engMem = (s.engineFill e b).engMem := by
  rw [State.engineFill, State.engineFill, h]

theorem loaderFilled_engMem {s : State} {q e : Nat}
    (h : ∀ i, i < 64 → s.access (idLoader q) (windowBase (0x20 + e) + 0x80000 + 4096 * i) true = .ok) (a n : Nat) :
    (loaderFilled s q e a n).engMem = (s.engineFill e (s.dmaRead (idLoader q) true a n)).engMem := by
  rw [loaderFilled, loaderFill_of_open (fun i hi => (access_dmaReadViol ..).trans (h i hi)), loaderTaken_dmaRead]
  refine engineFill_engMem_congr ?_ e _
  rw [dmaReadViol_frame, loaderTaken_engMem]

/-- A filled engine runs; the state behind the loader's answer. -/
theorem loaderFilled_kept (s : State) (q e a n : Nat) :
    (loaderFilled s q e a n).regs = s.regs ∧ (loaderFilled s q e a n).mem = s.mem ∧ (loaderFilled s q e a n).husk = s.husk ∧
      (loaderFilled s q e a n).mbox = (loaderTaken s q).mbox ∧ (loaderFilled s q e a n).cfg = s.cfg := by
  rw [loaderFilled_frame]
  exact ⟨rfl, rfl, rfl, rfl, rfl⟩

/-- The command is LOAD's, of an engine the loader knows (R78). -/
structure Loads (s : State) (q e : Nat) : Prop where
  compat : (s.chan (60 + q)).compat = false
  full : (s.mb (60 + q) 1).full = true
  free : (s.mb (60 + q) 0).full = false
  opcode : s.mbWord (60 + q) 1 0 = 0xA0
  engine : s.mbWord (60 + q) 1 1 = e
  known : s.loaderKnows q e = true

/-- A filled engine runs once its loader answers (R78). -/
def loadRun (s : State) (q e : Nat) : State :=
  ((loaderFilled s q e (s.mbWord (60 + q) 1 2 + 2 ^ 32 * s.mbWord (60 + q) 1 3) (min (s.mbWord (60 + q) 1 4) 0x40000)).wr Reg.engine_RUN e
    1).loaderAnswer q 0 0xA0

/-- An engine whose code could not be read is halted. -/
def loadHalted (s : State) (q e : Nat) : State := ((loaderTaken s q).wr Reg.engine_RUN e 0).loaderAnswer q 2 0xA0

theorem exec_load_run {s : State} {q : Quad} {e : Nat} (h : Loads s q e) :
    exec (.load q false) s = .next ((loadRun s q e).loadEnd q 0) := by
  obtain ⟨-, -, -, hrun⟩ := loaderLoad_of_waiting h.compat h.full (by rw [h.opcode]; decide) false
  have hrun := hrun h.opcode (by rw [h.engine]; exact h.known) rfl
  rw [h.engine] at hrun
  exact congrArg Host.Outcome.next hrun

theorem exec_load_halted {s : State} {q : Quad} {e : Nat} (h : Loads s q e) :
    exec (.load q true) s = .next ((loadHalted s q e).loadEnd q 2) := by
  obtain ⟨-, -, hhalted, -⟩ := loaderLoad_of_waiting h.compat h.full (by rw [h.opcode]; decide) true
  have hhalted := hhalted h.opcode (by rw [h.engine]; exact h.known) rfl
  rw [h.engine] at hhalted
  exact congrArg Host.Outcome.next hhalted

/-- What stands behind a loader's answer with a status: the answer waits, and RUN shows whether the engine runs. -/
structure LoaderAnswered (s t : State) (q e status : Nat) (run : Bool) : Prop where
  full : (t.mb (60 + q) 0).full = true
  status : t.mbWord (60 + q) 0 0 = status
  opcode : t.mbWord (60 + q) 0 1 = 0xA0
  run : t.rd Reg.engine_RUN e = if run then 1 else 0
  fileOk : t.fileOk
  mem : t.mem = s.mem
  husk : t.husk = s.husk
  cfg : t.cfg = s.cfg
  others : ∀ c d, c ≠ 60 + q → d < 2 → t.mb c d = s.mb c d

theorem loaderAnswered_of_set {s u : State} (hs : s.fileOk) {q e status : Nat} (hq : q < 4) (hfree : (s.mb (60 + q) 0).full = false)
    (hst : status < 2 ^ 32) (hregs : u.regs = s.regs) (hmem : u.mem = s.mem) (hhusk : u.husk = s.husk) (hcfg : u.cfg = s.cfg)
    (hmb : u.mbox = (loaderTaken s q).mbox) (run : Bool) :
    LoaderAnswered s ((u.wr Reg.engine_RUN e (if run then 1 else 0)).loaderAnswer q status 0xA0) q e status run := by
  have hu : u.fileOk := by rw [State.fileOk, hregs]; exact hs
  have hmbs (c d : Nat) : (u.wr Reg.engine_RUN e (if run then 1 else 0)).mb c d = (loaderTaken s q).mb c d := by
    change u.mbox.toArray.getD _ _ = _
    rw [hmb]
    rfl
  have hmail := loaderAnswer_mailOnly (u.wr Reg.engine_RUN e (if run then 1 else 0)) q status 0xA0
  obtain ⟨hzero, -⟩ := loaderTaken_mb (s := s) hq
  obtain ⟨hfull, hword, hopc, -⟩ := loaderAnswer_waits (u := u.wr Reg.engine_RUN e (if run then 1 else 0)) hq
    (by rw [hmbs, hzero]; exact hfree) hst (opc := 0xA0) (by decide)
  refine ⟨hfull, hword, hopc, (hmail.rd _ _).trans (rd_run_wr hu e run), ?_, hmail.mem.trans hmem, (loaderAnswer_husk ..).trans hhusk, ?_,
    fun c d hc hd => ?_⟩
  · rw [State.fileOk, hmail.regs]
    exact wr_fileOk hu _ _ _
  · rw [hmail]
    exact hcfg
  · rw [loaderAnswer_eq, mb_mbSend_ne hc (by decide) hd, hmbs, loaderTaken, mb_updMbox_ne (by omega)]

theorem loadRun_answered {s : State} (hs : s.fileOk) {q e : Nat} (hq : q < 4) (h : Loads s q e) : LoaderAnswered s (loadRun s q e) q e 0 true := by
  obtain ⟨hregs, hmem, hhusk, hmb, hcfg⟩ := loaderFilled_kept s q e (s.mbWord (60 + q) 1 2 + 2 ^ 32 * s.mbWord (60 + q) 1 3)
    (min (s.mbWord (60 + q) 1 4) 0x40000)
  exact loaderAnswered_of_set hs hq h.free (by decide) hregs hmem hhusk hcfg hmb true

theorem loadHalted_answered {s : State} (hs : s.fileOk) {q e : Nat} (hq : q < 4) (h : Loads s q e) :
    LoaderAnswered s (loadHalted s q e) q e 2 false :=
  loaderAnswered_of_set (u := loaderTaken s q) hs hq h.free (by decide) rfl rfl rfl rfl rfl false

theorem loadRun_engMem {s : State} {q e : Nat}
    (h : ∀ i, i < 64 → s.access (idLoader q) (windowBase (0x20 + e) + 0x80000 + 4096 * i) true = .ok) (hn : s.mbWord (60 + q) 1 4 ≤ 0x40000) :
    (loadRun s q e).engMem = (s.engineFill e (s.dmaRead (idLoader q) true (s.mbWord (60 + q) 1 2 + 2 ^ 32 * s.mbWord (60 + q) 1 3)
      (s.mbWord (60 + q) 1 4))).engMem := by
  rw [loadRun, (loaderAnswer_mailOnly ..).engMem, Nat.min_eq_left hn]
  exact loaderFilled_engMem h _ _

/-! ### The rows of LOAD and HALT where Husk waits for no load -/

theorem load_fills (s : State) (q : Quad) (hs : s.fileOk) (hfull : (s.mb (60 + q) 1).full = true) (hfree : (s.mb (60 + q) 0).full = false)
    (hc : (s.chan (60 + q)).compat = false) (hloading : s.husk.loading = none) (hop : s.mbWord (60 + q) 1 0 = 0xA0)
    (hk : s.loaderKnows q (s.mbWord (60 + q) 1 1) = true) (hn : s.mbWord (60 + q) 1 4 ≤ 0x40000)
    (hacc : ∀ i, i < 64 → s.access (idLoader q) (windowBase (0x20 + s.mbWord (60 + q) 1 1) + 0x80000 + 4096 * i) true = .ok) :
    ∃ t, exec (.load q false) s = .next t ∧ t.rd Reg.engine_RUN (s.mbWord (60 + q) 1 1) = 1 ∧ t.mem = s.mem ∧
      t.mbWord (60 + q) 0 0 = 0 ∧ t.mbWord (60 + q) 0 1 = 0xA0 ∧ (t.mb (60 + q) 0).full = true ∧
      t.engMem = (s.engineFill (s.mbWord (60 + q) 1 1) (s.dmaRead (idLoader q) true
        (s.mbWord (60 + q) 1 2 + 2 ^ 32 * s.mbWord (60 + q) 1 3) (s.mbWord (60 + q) 1 4))).engMem := by
  have h : Loads s q (s.mbWord (60 + q) 1 1) := ⟨hc, hfull, hfree, hop, rfl, hk⟩
  have hans := loadRun_answered hs q.isLt h
  refine ⟨_, exec_load_run h, ?_⟩
  rw [loadEnd_of_none (by rw [hans.husk]; exact hloading)]
  exact ⟨hans.run, hans.mem, hans.status, hans.opcode, hans.full, loadRun_engMem hacc hn⟩

theorem load_ddrErr (s : State) (q : Quad) (hs : s.fileOk) (hfull : (s.mb (60 + q) 1).full = true) (hfree : (s.mb (60 + q) 0).full = false)
    (hc : (s.chan (60 + q)).compat = false) (hloading : s.husk.loading = none) (hop : s.mbWord (60 + q) 1 0 = 0xA0)
    (hk : s.loaderKnows q (s.mbWord (60 + q) 1 1) = true) :
    ∃ t, exec (.load q true) s = .next t ∧ t.rd Reg.engine_RUN (s.mbWord (60 + q) 1 1) = 0 ∧ t.engMem = s.engMem ∧
      t.mbWord (60 + q) 0 0 = 2 ∧ t.mbWord (60 + q) 0 1 = 0xA0 := by
  have h : Loads s q (s.mbWord (60 + q) 1 1) := ⟨hc, hfull, hfree, hop, rfl, hk⟩
  have hans := loadHalted_answered hs q.isLt h
  refine ⟨_, exec_load_halted h, ?_⟩
  rw [loadEnd_of_none (by rw [hans.husk]; exact hloading)]
  refine ⟨hans.run, ?_, hans.status, hans.opcode⟩
  rw [loadHalted, (loaderAnswer_mailOnly ..).engMem]
  rfl

theorem load_unknown (s : State) (q : Quad) (hfull : (s.mb (60 + q) 1).full = true) (hfree : (s.mb (60 + q) 0).full = false)
    (hc : (s.chan (60 + q)).compat = false) (hloading : s.husk.loading = none) (hop : s.mbWord (60 + q) 1 0 = 0xA0)
    (hk : s.loaderKnows q (s.mbWord (60 + q) 1 1) = false) :
    ∃ t, exec (.load q false) s = .next t ∧ t.mbWord (60 + q) 0 0 = 1 ∧ t.regs = s.regs ∧ t.engMem = s.engMem := by
  obtain ⟨hzero, -⟩ := loaderTaken_mb (s := s) q.isLt
  obtain ⟨-, hunknown, -, -⟩ := loaderLoad_of_waiting hc hfull (by rw [hop]; decide) false
  obtain ⟨-, hword, -, -⟩ := loaderAnswer_waits (u := loaderTaken s q) q.isLt (by rw [hzero]; exact hfree) (status := 1) (opc := 0xA0)
    (by decide) (by decide)
  have hmail := loaderAnswer_mailOnly (loaderTaken s q) q 1 0xA0
  refine ⟨_, congrArg Host.Outcome.next (hunknown hop hk), ?_⟩
  rw [loadEnd_of_none (by rw [loaderAnswer_husk]; exact hloading)]
  exact ⟨hword, hmail.regs, hmail.engMem⟩

theorem load_otherOpcode (s : State) (q : Quad) (hfull : (s.mb (60 + q) 1).full = true) (hfree : (s.mb (60 + q) 0).full = false)
    (hc : (s.chan (60 + q)).compat = false) (hload : s.mbWord (60 + q) 1 0 ≠ 0xA0) (hhalt : s.mbWord (60 + q) 1 0 ≠ 0xA1) :
    ∃ t, exec (.load q false) s = .next t ∧ t.mbWord (60 + q) 0 0 = 7 ∧ t.mbWord (60 + q) 0 1 = s.mbWord (60 + q) 1 0 ∧
      t.regs = s.regs ∧ t.engMem = s.engMem := by
  obtain ⟨hzero, -⟩ := loaderTaken_mb (s := s) q.isLt
  obtain ⟨hother, -, -, -⟩ := loaderLoad_of_waiting hc hfull hhalt false
  obtain ⟨-, hword, hopc, -⟩ := loaderAnswer_waits (u := loaderTaken s q) q.isLt (by rw [hzero]; exact hfree) (status := 7)
    (opc := s.mbWord (60 + q) 1 0) (by decide) (mbWord_lt ..)
  have hmail := loaderAnswer_mailOnly (loaderTaken s q) q 7 (s.mbWord (60 + q) 1 0)
  exact ⟨_, congrArg Host.Outcome.next (hother hload), hword, hopc, hmail.regs, hmail.engMem⟩

end Sys2Proof.Proofs

namespace Sys2Proof.Proofs
open Sys2Proof.Machine Sys2Proof.Laws

/-! ### The load in hand ends (R189) -/

/-- Husk has taken the loader's answer and the load is no longer in hand. -/
def loadDone (a : State) (q : Nat) : State := (a.updMbox (60 + q) 0 releasedMsg).updHusk (fun k => { k with loading := none })

theorem loadDone_rd (a : State) (q : Nat) (f : RegField) (i : Nat) : (loadDone a q).rd f i = a.rd f i := rfl

theorem loadEnd_of_loading {a : State} {q ch e src n en : Nat} (h : a.husk.loading = some (ch, e, src, n, en)) (he : e / 17 = q)
    (hch : ch < 64) (hc : (a.chan (60 + q)).compat = false) (hfull : (a.mb (60 + q) 0).full = true) :
    a.loadEnd q 0 = ((loadDone a q).engineRun e src).huskReply ch 0x20 0 0 ∧ a.loadEnd q 2 = (loadDone a q).huskReply ch 0x20 6 0 := by
  have hrel : (a.mbRelease (60 + q) 0).updHusk (fun k => { k with loading := none }) = loadDone a q := by
    rw [mbRelease_of_full hc hfull, mbPut_of_ge (by omega), loadDone]
  unfold State.loadEnd
  rw [h]
  dsimp only
  rw [hrel, if_neg (not_not.2 he), if_neg (not_not.2 he), if_pos rfl, if_pos hch, if_neg (by decide : ¬ (2 : Nat) = 0), if_pos hch]
  exact ⟨rfl, rfl⟩

/-- The start of an engine writes its registers and its actuator's state. -/
theorem engineRun_frame (s : State) (e src : Nat) :
    s.engineRun e src = { s with regs := (s.engineRun e src).regs, acts := (s.engineRun e src).acts } := by
  unfold State.engineRun
  extract_lets h v
  split <;> rfl

theorem engineKey_lt {f : RegField} (hn : f.n = 1) {e : Nat} (he : e < 68) : f.key e 0 < (f.id + 1) * 0x100000 := by
  unfold RegField.key
  rw [hn]
  omega

/-- What an engine's register reads once later fields have been written. -/
theorem KeepsBelow.rd_engine {b : Nat} {s t : State} (h : KeepsBelow b s t) (hs : s.fileOk) {f : RegField} (hn : f.n = 1) {e : Nat}
    (he : e < 68) (hb : (f.id + 1) * 0x100000 ≤ b) : t.rd f e = s.rd f e :=
  (h hs).2 f e 0 ((engineKey_lt hn he).trans_le hb)

theorem rd_loaded_wr {s : State} (hs : s.fileOk) (e : Nat) : (s.wr Reg.engine_LOADED e 1).rd Reg.engine_LOADED e = 1 := by
  rw [rd_eq, wr_eq, rdAt_wrAt s _ e 0 _ hs]
  decide

theorem engineRun_runs {s : State} (hs : s.fileOk) {e : Nat} (he : e < 68) (src : Nat) :
    (s.engineRun e src).rd Reg.engine_RUN e = 1 ∧ (s.engineRun e src).rd Reg.engine_LOADED e = 1 := by
  have hrun : (s.wr Reg.engine_RUN e 1).fileOk := wr_fileOk hs _ _ _
  have hboth : ((s.wr Reg.engine_RUN e 1).wr Reg.engine_LOADED e 1).fileOk := wr_fileOk hrun _ _ _
  have hlate : KeepsBelow (Reg.engine_MC_VERSION.id * 0x100000) ((s.wr Reg.engine_RUN e 1).wr Reg.engine_LOADED e 1) (s.engineRun e src) := by
    unfold State.engineRun
    extract_lets h u v w
    have hw : KeepsBelow (Reg.engine_MC_VERSION.id * 0x100000) u w :=
      ((wr_keepsBelow u Reg.engine_MC_VERSION e _ le_rfl).trans (wr_keepsBelow _ Reg.engine_MC_SEC_VER e _ (by decide))).trans
        (wr_keepsBelow v Reg.engine_MC_KEY_IDX e _ (by decide))
    split
    · exact hw.of_regs rfl
    · exact hw
  constructor
  · rw [hlate.rd_engine hboth rfl he (by decide),
      (wr_keepsBelow _ Reg.engine_LOADED e 1 le_rfl).rd_engine hrun (f := Reg.engine_RUN) rfl he (by decide)]
    exact rd_run_wr hs e true
  · rw [hlate.rd_engine hboth rfl he (by decide), rd_loaded_wr hrun]

/-- Husk's reply to the load it held, on a channel of its own that nothing waits on. -/
theorem loadEnd_replies {s a u : State} {q e st : Nat} {run : Bool} (hq : q < 4) (h : LoaderAnswered s a q e st run) {ch : Nat}
    (hch : ch < 60) (h0 : (s.mb ch 0).full = false) (h1 : (s.mb ch 1).full = false) (hr : ch ∉ s.husk.requests)
    (hmb : u.mbox = (loadDone a q).mbox) (hhusk : u.husk = (loadDone a q).husk) {status : Nat} (hst : status < 2 ^ 32) :
    (u.huskReply ch 0x20 status 0).huskAnswered ch 0x20 status 0 ∧ (u.huskReply ch 0x20 status 0).husk.loading = none ∧
      ((u.huskReply ch 0x20 status 0).mb (60 + q) 0).full = false := by
  have hmbs (c d : Nat) : u.mb c d = (loadDone a q).mb c d := by rw [State.mb, hmb]; rfl
  have hchan (d : Nat) (hd : d < 2) : u.mb ch d = s.mb ch d := by
    rw [hmbs, ← h.others ch d (by omega) hd]
    exact mb_updMbox_ne (by omega) a releasedMsg
  have hanswered := huskReply_waits (u := u) (ch := ch) (by omega) (by rw [hchan 0 (by decide)]; exact h0)
    (by rw [hchan 1 (by decide)]; exact h1) (by rw [hhusk]; change ch ∉ a.husk.requests; rw [h.husk]; exact hr) (opc := 0x20)
    (by decide) hst (step := 0) (by decide)
  refine ⟨hanswered, ?_, ?_⟩
  · rw [State.huskReply, huskSend_eq, mbSend_husk (.inl rfl), hhusk]
    rfl
  · rw [State.huskReply, huskSend_eq, mb_mbSend_ne (by omega) (by decide) (by decide), hmbs]
    exact congrArg Mbox.full (mb_updMbox_same (show 2 * (60 + q) + 0 < 128 by omega) a releasedMsg)

/-- Husk waits for the loader's answer of this engine. -/
theorem loadedEngine (s : State) (q : Quad) (ch : Fin 64) (e src n en : Nat) (hs : s.fileOk) (hch : ch.val < 60)
    (hloading : s.husk.loading = some (ch.val, e, src, n, en)) (h1 : (s.mb ch 1).full = false) (h0 : (s.mb ch 0).full = false)
    (hr : ch.val ∉ s.husk.requests) (h : Loads s q e) :
    (∃ t, exec (.load q false) s = .next t ∧ t.huskAnswered ch 0x20 0 0 ∧ t.husk.loading = none ∧ (t.mb (60 + q) 0).full = false ∧
      t.rd Reg.engine_RUN e = 1 ∧ t.rd Reg.engine_LOADED e = 1) ∧
    ∃ t, exec (.load q true) s = .next t ∧ t.huskAnswered ch 0x20 6 0 ∧ t.husk.loading = none ∧ t.rd Reg.engine_RUN e = 0 := by
  obtain ⟨heq, -⟩ := loaderKnows_bound h.known
  have he : e < 68 := by have := q.isLt; omega
  have hreply (u : State) (status : Nat) : MailOnly u (u.huskReply ch 0x20 status 0) := mbSend_mailOnly u ch 1 [status, 0x20, 0] _
  have hchan {a : State} {st : Nat} {run : Bool} (ha : LoaderAnswered s a q e st run) : (a.chan (60 + q)).compat = false := by
    rw [State.chan, ha.cfg]
    exact h.compat
  constructor
  · have ha := loadRun_answered hs q.isLt h
    obtain ⟨hend, -⟩ := loadEnd_of_loading (by rw [ha.husk]; exact hloading) heq ch.isLt (hchan ha) ha.full
    obtain ⟨hrun, hloaded⟩ := engineRun_runs (s := loadDone (loadRun s q e) q) ha.fileOk he src
    obtain ⟨hans, hnone, hfree⟩ := loadEnd_replies (u := (loadDone (loadRun s q e) q).engineRun e src) q.isLt ha hch h0 h1 hr
      (by rw [engineRun_frame]) (by rw [engineRun_frame]) (status := 0) (by decide)
    refine ⟨_, exec_load_run h, ?_⟩
    rw [hend]
    exact ⟨hans, hnone, hfree, ((hreply _ 0).rd _ _).trans hrun, ((hreply _ 0).rd _ _).trans hloaded⟩
  · have ha := loadHalted_answered hs q.isLt h
    obtain ⟨-, hend⟩ := loadEnd_of_loading (by rw [ha.husk]; exact hloading) heq ch.isLt (hchan ha) ha.full
    obtain ⟨hans, hnone, -⟩ := loadEnd_replies (u := loadDone (loadHalted s q e) q) q.isLt ha hch h0 h1 hr rfl rfl (status := 6)
      (by decide)
    refine ⟨_, exec_load_halted h, ?_⟩
    rw [hend]
    exact ⟨hans, hnone, ((hreply (loadDone (loadHalted s q e) q) 6).rd _ _).trans ((loadDone_rd ..).trans ha.run)⟩

end Sys2Proof.Proofs

namespace Sys2Proof.Proofs
open Sys2Proof.Machine Sys2Proof.Laws

/-! ### TILLER_LOAD (R78, R189) -/

/-- A request that Husk takes and answers later leaves what its action makes of the state. -/
theorem huskReq_unanswered {s u : State} {ch opc : Nat} {listed : List Nat}
    {act : (Nat → Nat) → Nat → State → State × Option (Nat × Nat)} (h : s.huskAsks ch opc listed) (hopc : opc ∈ huskOpcodes)
    (hact : act (s.mbWord ch 0) (s.mb ch 0).sender.toNat (huskTaken s ch) = (u, none)) : s.huskReq ch opc listed act = u := by
  obtain ⟨hfree, hnext, -, hword, hzero⟩ := h
  have hknown : huskOpcodes.contains (s.mbWord ch 0 0) = true := by rw [hword]; simpa using hopc
  have hlisted : (List.range 16).any (fun i => decide (1 ≤ i) && !(listed.contains i) && s.mbWord ch 0 i != 0) = false := by
    refine List.any_eq_false.2 fun i hi => ?_
    simp only [Bool.and_eq_true, decide_eq_true_eq, Bool.not_eq_true', bne_iff_ne, not_and, not_not]
    exact fun hbits => hzero i hbits.1 (List.mem_range.1 hi) (by simpa using hbits.2)
  rw [State.huskReq, if_pos ⟨hfree, hnext⟩]
  extract_lets m reg known v
  have hreg : reg = s.mbWord ch 0 := rfl
  have hserved : ¬ (known = false ∨
      (List.range 16).any (fun i => decide (1 ≤ i) && !(listed.contains i) && reg i != 0) = true) := by
    rintro (h | h)
    · exact Bool.false_ne_true (h.symm.trans hknown)
    · exact Bool.false_ne_true (hlisted.symm.trans h)
  rw [if_neg (by simp [hreg, hword]), if_neg hserved]
  change (match act (s.mbWord ch 0) (s.mb ch 0).sender.toNat (huskTaken s ch) with
    | (u, some (status, step)) => u.huskReply ch opc status step
    | (u, none) => u) = _
  rw [hact]

theorem boundEngine {e : Nat} {o : Option Nat} (he : e ≤ 67) (ho : o ≠ none) : ¬ (67 < e ∨ o.isNone = true) := by
  rintro (h | h)
  · omega
  · exact ho (Option.isNone_iff_eq_none.1 h)

theorem execTillerLoad_checks (ch : Fin 64) (ddrErr : Bool) (s : State) :
    ∃ act, exec (.tillerLoad ch ddrErr) s = .next (s.huskReq ch 0x20 [1, 2, 3, 4] act) ∧
      ∀ (reg : Nat → Nat) (who : Nat) (x : State),
        (x.engAct (reg 1) = none → act reg who x = (x, some (8, 0))) ∧
        (reg 1 ≤ 67 → x.engAct (reg 1) ≠ none → ddrErr = true → act reg who x = (x, some (6, 0))) ∧
        ∀ obj, reg 1 ≤ 67 → x.engAct (reg 1) ≠ none → ddrErr = false → obj = x.memRead (reg 2 + 2 ^ 32 * reg 3) (reg 4) →
          x.str.parts.any (fun p => p.base ≤ reg 2 + 2 ^ 32 * reg 3 && reg 2 + 2 ^ 32 * reg 3 + reg 4 ≤ p.stop) = true →
          reg 4 = le32 obj 8 → x.rdB Reg.engine_RUN (reg 1) = false →
          (mcCheck x.husk.slots x.husk.floor obj = 0 → act reg who x = (x.loadStart ch (reg 1) obj, none)) ∧
          (mcCheck x.husk.slots x.husk.floor obj ≠ 0 →
            act reg who x = (x, some (mcCheck x.husk.slots x.husk.floor obj, 0))) := by
  refine ⟨_, rfl, fun reg who x => ⟨fun h => ?_, fun hle hact hd => ?_, fun obj hle hact hd hobj hpart hlen hrun => ?_⟩⟩
  · exact if_pos (.inr (by rw [h]; rfl))
  · dsimp only
    rw [if_neg (boundEngine hle hact), if_pos hd]
  · have hform : ¬ (x.str.parts.any (fun p => p.base ≤ regAddr reg && regAddr reg + reg 4 ≤ p.stop) = false ∨
        reg 4 ≠ le32 (x.memRead (regAddr reg) (reg 4)) 8) := by
      rw [← show obj = x.memRead (regAddr reg) (reg 4) from hobj]
      exact fun h => h.elim (fun h => Bool.false_ne_true (h.symm.trans hpart)) fun h => h hlen
    dsimp only
    rw [if_neg (boundEngine hle hact), if_neg (Bool.eq_false_iff.1 hd), if_neg hform,
      ← show obj = x.memRead (regAddr reg) (reg 4) from hobj, if_neg (Bool.eq_false_iff.1 hrun)]
    generalize mcCheck x.husk.slots x.husk.floor obj = st
    cases st with
    | zero => exact ⟨fun _ => rfl, fun h => absurd rfl h⟩
    | succ k => exact ⟨nofun, fun _ => rfl⟩

/-- The load of an object is in hand: LOAD waits for the quadrant's loader, and the rest of the mailboxes is as it was (R189). -/
theorem loadStart_sends {x : State} {ch e : Nat} (he : e ≤ 67) (hfree : (x.mb (60 + e / 17) 1).full = false) (obj : List Byte) :
    let t := x.loadStart ch e obj
    t.regs = x.regs ∧ t.husk.loading.isSome = true ∧ (t.mb (60 + e / 17) 1).full = true ∧ t.mbWord (60 + e / 17) 1 0 = 0xA0 ∧
      t.mbWord (60 + e / 17) 1 1 = e ∧ ∀ c d, c ≠ 60 + e / 17 → d < 2 → t.mb c d = x.mb c d := by
  obtain ⟨words, u, hlen, h0, h1, hregs, hmb, hload, ht⟩ : ∃ words u, words.length = 6 ∧ words.getD 0 0 = 0xA0 ∧ words.getD 1 0 = e ∧
      u.regs = x.regs ∧ u.mbox = x.mbox ∧ u.husk.loading.isSome = true ∧
      x.loadStart ch e obj = mbSend u (60 + e / 17) 1 words (BitVec.ofNat 8 idHusk) := ⟨_, _, rfl, rfl, rfl, rfl, rfl, rfl, rfl⟩
  have hmbs (c d : Nat) : u.mb c d = x.mb c d := by rw [State.mb, hmb]; rfl
  have hch : 60 + e / 17 < 64 := by omega
  obtain ⟨hfull, -, hword⟩ := mb_mbSend_same hch (by decide : 1 < 2) (words := words) (by omega) (s := u) (by rw [hmbs]; exact hfree)
    (BitVec.ofNat 8 idHusk)
  intro t
  rw [show t = mbSend u (60 + e / 17) 1 words (BitVec.ofNat 8 idHusk) from ht]
  refine ⟨(mbSend_mailOnly ..).regs.trans hregs, ?_, hfull, ?_, ?_, fun c d hc hd => ?_⟩
  · rw [mbSend_husk (.inl rfl)]
    exact hload
  · rw [hword, if_pos (by omega), h0]
    rfl
  · rw [hword, if_pos (by omega), h1]
    exact Nat.mod_eq_of_lt (by omega)
  · rw [mb_mbSend_ne hc (by decide) hd, hmbs]

section
variable {s : State} {ch : Fin 64} (hlo : 40 ≤ ch.val) (hask : s.huskAsks ch 0x20 [1, 2, 3, 4])
include hlo hask

theorem tillerLoad_unbound (h : s.engAct (s.mbWord ch 0 1) = none) :
    ∃ t, exec (.tillerLoad ch false) s = .next t ∧ t.huskAnswered ch 0x20 8 0 ∧ t.regs = s.regs ∧ t.mem = s.mem := by
  obtain ⟨v, q, htaken⟩ := huskTaken_mailOnly (show 16 ≤ ch.val by omega) s
  obtain ⟨act, hexec, hact⟩ := execTillerLoad_checks ch false s
  obtain ⟨hrefused, -, -⟩ := hact (s.mbWord ch 0) (s.mb ch 0).sender.toNat (huskTaken s ch)
  obtain ⟨hans, v', hv⟩ := huskReq_answers hlo ch.isLt hask (by decide) (hrefused (by rw [htaken]; exact h)) rfl rfl (by decide) (by decide)
    (by decide)
  refine ⟨_, hexec, hans, ?_⟩
  rw [hv, htaken]
  exact ⟨rfl, rfl⟩

theorem tillerLoad_ddrErr (he : s.mbWord ch 0 1 ≤ 67) (h : s.engAct (s.mbWord ch 0 1) ≠ none) :
    ∃ t, exec (.tillerLoad ch true) s = .next t ∧ t.huskAnswered ch 0x20 6 0 ∧ t.regs = s.regs ∧ t.mem = s.mem := by
  obtain ⟨v, q, htaken⟩ := huskTaken_mailOnly (show 16 ≤ ch.val by omega) s
  obtain ⟨act, hexec, hact⟩ := execTillerLoad_checks ch true s
  obtain ⟨-, hfailed, -⟩ := hact (s.mbWord ch 0) (s.mb ch 0).sender.toNat (huskTaken s ch)
  obtain ⟨hans, v', hv⟩ := huskReq_answers hlo ch.isLt hask (by decide) (hfailed he (by rw [htaken]; exact h) rfl) rfl rfl (by decide)
    (by decide) (by decide)
  refine ⟨_, hexec, hans, ?_⟩
  rw [hv, htaken]
  exact ⟨rfl, rfl⟩

theorem tillerLoad_checked {e a : Nat} {obj : List Byte} (h1 : s.mbWord ch 0 1 = e) (ha : s.mbWord ch 0 2 + 2 ^ 32 * s.mbWord ch 0 3 = a)
    (hobj : s.memRead a (s.mbWord ch 0 4) = obj) (he : e ≤ 67) (h : s.engAct e ≠ none) (hlen : s.mbWord ch 0 4 = le32 obj 8)
    (hrun : s.rdB Reg.engine_RUN e = false)
    (hpart : s.str.parts.any (fun p => p.base ≤ a && a + s.mbWord ch 0 4 ≤ p.stop) = true) (hch : ch.val < 60)
    (hfree : (s.mb (60 + e / 17) 1).full = false) :
    ∃ t, exec (.tillerLoad ch false) s = .next t ∧ t.regs = s.regs ∧ (t.mb ch 0).full = false ∧
      (mcCheck s.husk.slots s.husk.floor obj = 0 → t.husk.loading.isSome = true ∧ (t.mb (60 + e / 17) 1).full = true ∧
        t.mbWord (60 + e / 17) 1 0 = 0xA0 ∧ t.mbWord (60 + e / 17) 1 1 = e) ∧
      (mcCheck s.husk.slots s.husk.floor obj ≠ 0 →
        t.huskAnswered ch 0x20 (mcCheck s.husk.slots s.husk.floor obj) 0 ∧ t.husk.loading = s.husk.loading ∧ t.mem = s.mem) := by
  subst h1 ha
  have hge : 16 ≤ ch.val := by omega
  have hzero : ((huskTaken s ch).mb ch 0).full = false := huskTaken_mb_zero hge ch.isLt hask.2.2.1
  have hother (c : Nat) (hc : c ≠ ch.val) : (huskTaken s ch).mb c 1 = s.mb c 1 := by
    unfold huskTaken State.mbRelease
    split
    · rfl
    · rw [mbPut_of_ge hge, mb_updMbox_ne (by omega)]
      rfl
  obtain ⟨v, q, htaken⟩ := huskTaken_mailOnly hge s
  obtain ⟨act, hexec, hact⟩ := execTillerLoad_checks ch false s
  obtain ⟨-, -, hchecked⟩ := hact (s.mbWord ch 0) (s.mb ch 0).sender.toNat (huskTaken s ch)
  obtain ⟨hgood, hbad⟩ := hchecked obj he (by rw [htaken]; exact h) rfl (by rw [htaken]; exact hobj.symm) (by rw [htaken]; exact hpart) hlen
    (by rw [htaken]; exact hrun)
  have hst : mcCheck (huskTaken s ch).husk.slots (huskTaken s ch).husk.floor obj = mcCheck s.husk.slots s.husk.floor obj := by rw [htaken]
  rw [hst] at hgood hbad
  by_cases h0 : mcCheck s.husk.slots s.husk.floor obj = 0
  · have hreq := huskReq_unanswered hask (by decide) (hgood h0)
    obtain ⟨hregs, hload, hfull, hw0, hw1, hmb⟩ := loadStart_sends (x := huskTaken s ch) (ch := ch) he
      (by rw [hother _ (by omega)]; exact hfree) obj
    refine ⟨_, hexec, ?_⟩
    rw [hreq]
    refine ⟨hregs.trans (by rw [htaken]), ?_, fun _ => ⟨hload, hfull, hw0, hw1⟩, fun hn => absurd h0 hn⟩
    rw [hmb ch 0 (by omega) (by decide)]
    exact hzero
  · obtain ⟨hans, v', hv⟩ := huskReq_answers hlo ch.isLt hask (by decide) (hbad h0) rfl rfl (by decide)
      ((mcCheck_le ..).trans_lt (by decide)) (by decide)
    refine ⟨_, hexec, ?_, hans.1, fun hz => absurd hz h0, fun _ => ⟨hans, ?_⟩⟩
    · rw [hv, htaken]
    · rw [hv, htaken]
      exact ⟨rfl, rfl⟩

end

/-! ### A reload that does not come (R107) -/

/-- With admin commands alone no command waits for an actuator. -/
theorem failActs_of_admin {s : State} (h : ∀ c ∈ s.host.cmds, c.admin = true) (n status : Nat) : s.failActs n status = s := by
  have hnone : s.host.cmds.filter (fun c => !c.admin && c.act == n && c.open && c.sqe.nsid != 0xFFFFFFFF) = [] :=
    List.filter_eq_nil_iff.2 fun c hc => by simp [h c hc]
  rw [State.failActs, hnone]
  rfl

theorem tillerReload_late (s : State) (n : Act) (h : (s.act n).noEngine = true) (hcmds : ∀ c ∈ s.host.cmds, c.admin = true) :
    ∃ t, exec (.tillerReloadTimeout n) s = .next t ∧ (t.act n).reloadLate = true ∧ t.regs = s.regs ∧ t.mem = s.mem ∧
      ∀ m : Act, m ≠ n → t.act m = s.act m := by
  have hexec : exec (.tillerReloadTimeout n) s = .next (s.updAct n (fun a => { a with reloadLate := true })) := by
    change execTillerReloadTimeout n s = _
    rw [execTillerReloadTimeout, if_pos h, failActs_of_admin (s := s.updAct n _) hcmds]
  refine ⟨_, hexec, ?_, rfl, rfl, fun m hm => ?_⟩
  · rw [act_updAct, if_pos ⟨rfl, n.isLt⟩]
  · rw [act_updAct, if_neg fun hc => hm (Fin.ext hc.1.symm)]

end Sys2Proof.Proofs

namespace Sys2Proof.Proofs
open Sys2Proof.Machine Sys2Proof.Laws

/-! ## Warm resets (R106 to R108) -/

/-- A request for a kind of warm reset is answered with its action's status; the action's state stands beside the reply. -/
theorem warmReq_answers {s u : State} {ch kind e st : Nat} {act : Nat → State → State × Nat} (hlo : 40 ≤ ch) (hhi : ch < 64)
    (hask : s.huskAsks ch 0x7F [1]) (hkind : kind < 16) (he : e < 256) (hw : s.mbWord ch 0 1 = kind + 256 * e)
    (hact : act e (huskTaken s ch) = (u, st)) (hmb : u.mbox = (huskTaken s ch).mbox)
    (hr : u.husk.requests = (huskTaken s ch).husk.requests) (hst : st < 2 ^ 32) :
    (s.warmReq ch kind act).huskAnswered ch 0x7F st 0 ∧ ∃ v, s.warmReq ch kind act = { u with mbox := v } := by
  have hword : ((s.mb ch 0).data.toArray.getD 1 0).toNat = kind + 256 * e := hw
  unfold State.warmReq
  rw [hword, if_neg (by omega)]
  refine huskReq_answers hlo hhi hask (by decide) ?_ hmb hr (by decide) hst (by decide)
  dsimp only
  rw [if_neg (by omega), show (kind + 256 * e) / 256 % 256 = e by omega, hact]

/-! ### Locks of a restarted initiator (R90) -/

/-- A lock that its holder's restart frees. -/
def freedFrom (who : Nat) (l : Lock) : Lock := if l.owner.map (·.toNat) = some who then { l with owner := none } else l

theorem lock_locksOf (s : State) (who i : Nat) : (s.locksOf who).lock i = freedFrom who (s.lock i) := by
  simp only [State.lock, State.locksOf, Vector.toArray_map, Array.getD_eq_getD_getElem?, Array.getElem?_map]
  cases s.locks.toArray[i]? <;> rfl

theorem freedFrom_of_holder {who : Nat} {l : Lock} {o : Initiator} (h : l.owner = some o) (ho : o.toNat = who) :
    (freedFrom who l).owner = none := by
  simp [freedFrom, h, ho]

theorem freedFrom_of_other {who : Nat} {l : Lock} {o : Initiator} (h : l.owner = some o) (ho : o.toNat ≠ who) : freedFrom who l = l := by
  simp [freedFrom, h, ho]

theorem freedFrom_of_free {who : Nat} {l : Lock} (h : l.owner = none) : freedFrom who l = l := by
  rw [freedFrom, h, if_neg (by simp)]

/-- The locks of several initiators are released. -/
def locksOfAll (s : State) (l : List Nat) : State := l.foldl (fun s who => s.locksOf who) s

theorem lock_locksOfAll_of_free {l : List Nat} {s : State} {i : Nat} (h : (s.lock i).owner = none) :
    ((locksOfAll s l).lock i).owner = none := by
  induction l generalizing s with
  | nil => exact h
  | cons who l ih => exact ih (by rw [lock_locksOf, freedFrom_of_free h]; exact h)

theorem lock_locksOfAll_of_holder {l : List Nat} {s : State} {i : Nat} {o : Initiator} (h : (s.lock i).owner = some o) (ho : o.toNat ∈ l) :
    ((locksOfAll s l).lock i).owner = none := by
  induction l generalizing s with
  | nil => cases ho
  | cons who l ih =>
    by_cases hw : o.toNat = who
    · exact lock_locksOfAll_of_free (s := s.locksOf who) (by rw [lock_locksOf, freedFrom_of_holder h hw])
    · refine ih (s := s.locksOf who) ?_ ((List.mem_cons.1 ho).resolve_left hw)
      rw [lock_locksOf, freedFrom_of_other h hw]
      exact h

theorem lock_locksOfAll_of_other {l : List Nat} {s : State} {i : Nat} {o : Initiator} (h : (s.lock i).owner = some o) (ho : o.toNat ∉ l) :
    (locksOfAll s l).lock i = s.lock i := by
  induction l generalizing s with
  | nil => rfl
  | cons who l ih =>
    obtain ⟨hw, hl⟩ := not_or.1 (fun hc => ho (List.mem_cons.2 hc))
    have hlock : (s.locksOf who).lock i = s.lock i := (lock_locksOf ..).trans (freedFrom_of_other h hw)
    exact (ih (s := s.locksOf who) (hlock ▸ h) hl).trans hlock

theorem locksOfAll_frame (s : State) (l : List Nat) : locksOfAll s l = { s with locks := (locksOfAll s l).locks } := by
  refine List.foldlRecOn (motive := fun t : State => t = { s with locks := t.locks }) _ _ rfl fun t ht who _ => ?_
  rw [ht]
  rfl

/-! ### Key slots (R68, R69) -/

theorem keysOf_frame (s : State) (n : Nat) :
    s.keysOf n = { s with husk := { s.husk with keySlots := (s.keysOf n).husk.keySlots } } := by
  unfold State.keysOf
  refine List.foldlRecOn (motive := fun t : State => t = { s with husk := { s.husk with keySlots := t.husk.keySlots } }) _ _ rfl
    fun t ht i _ => ?_
  split
  · rw [ht]
    rfl
  · exact ht

/-- The key slots are filled anew; nothing else changes. -/
theorem keyReset_frame (s : State) : s.keyReset = { s with husk := { s.husk with keySlots := s.keyReset.husk.keySlots } } := by
  unfold State.keyReset
  refine List.foldlRecOn (motive := fun t : State => t = { s with husk := { s.husk with keySlots := t.husk.keySlots } }) _ _ rfl
    fun t ht n _ => ?_
  rw [keysOf_frame, ht]

/-! ### Kinds 1 and 2 -/

section
variable {s : State} {ch : Fin 64} (hlo : 40 ≤ ch.val) (hask : s.huskAsks ch 0x7F [1])
include hlo hask

theorem deviceWarmReset_drains (h1 : s.mbWord ch 0 1 = 1) :
    ∃ t, exec (.deviceWarmReset ch) s = .next t ∧ t.huskAnswered ch 0x7F 0 0 ∧ t.husk.rootDrained = true ∧ t.regs = s.regs ∧
      t.mem = s.mem := by
  obtain ⟨v, q, htaken⟩ := huskTaken_mailOnly (show 16 ≤ ch.val by omega) s
  obtain ⟨hans, v', hv⟩ := warmReq_answers (act := fun _ s => (s.updHusk (fun k => { k with rootDrained := true }), 0)) hlo ch.isLt hask
    (kind := 1) (by decide) (e := 0) (by decide) h1 rfl rfl rfl (by decide)
  refine ⟨_, rfl, hans, ?_⟩
  rw [hv, htaken]
  exact ⟨rfl, rfl, rfl⟩

end

/-- The cores restart where no command waits for one. -/
theorem culmRestart_of_idle {s : State} (h : ∀ c ∈ s.host.cmds, c.admin = false ∨ c.hold = .posting) :
    s.culmRestart = (locksOfAll s ((List.range 16).map idCulm)).keyReset := by
  have hlocks : (List.range 16).foldl (fun s c => s.locksOf (idCulm c)) s = locksOfAll s ((List.range 16).map idCulm) := by
    rw [locksOfAll, List.foldl_map]
  have hcmds : (locksOfAll s ((List.range 16).map idCulm)).host.cmds = s.host.cmds := by rw [locksOfAll_frame]
  have hnone : s.host.cmds.filter (fun c => c.admin && c.hold != .posting) = [] :=
    List.filter_eq_nil_iff.2 fun c hc => by
      obtain h | h := h c hc <;> simp [h]
  have hrestart : s.culmRestart = State.keyReset (((locksOfAll s ((List.range 16).map idCulm)).host.cmds.filter
      (fun c => c.admin && c.hold != .posting)).foldl (fun s c => s.complete c.slot stInternal)
      (locksOfAll s ((List.range 16).map idCulm))) := by
    rw [← hlocks]
    rfl
  rw [hrestart, hcmds, hnone, List.foldl_nil]

theorem lock_keyReset (s : State) (i : Nat) : s.keyReset.lock i = s.lock i := by
  rw [keyReset_frame]
  rfl

theorem isCulm_idCulm {c : Nat} (hc : c < 16) : isCulm (idCulm c) = true := by
  unfold isCulm idCulm
  rw [Bool.and_eq_true, decide_eq_true_iff, decide_eq_true_iff]
  exact ⟨Nat.le_add_right .., Nat.add_lt_add_left hc 0x10⟩

theorem culmReset_frees {s : State} {ch : Fin 64} (hlo : 40 ≤ ch.val) (hask : s.huskAsks ch 0x7F [1]) (h2 : s.mbWord ch 0 1 = 2)
    (hcmds : ∀ c ∈ s.host.cmds, c.admin = false ∨ c.hold = .posting) :
    ∃ t, exec (.culmReset ch) s = .next t ∧ t.huskAnswered ch 0x7F 0 0 ∧ t.regs = s.regs ∧
      (∀ (i : Fin 256) (c : Nat) (o : Initiator), c < 16 → (s.lock i).owner = some o → o.toNat = idCulm c → (t.lock i).owner = none) ∧
      ∀ (i : Fin 256) (o : Initiator), (s.lock i).owner = some o → isCulm o.toNat = false → t.lock i = s.lock i := by
  obtain ⟨v, q, htaken⟩ := huskTaken_mailOnly (show 16 ≤ ch.val by omega) s
  have hlock (i : Nat) : (huskTaken s ch).lock i = s.lock i := by rw [htaken]; rfl
  have hrestart := culmRestart_of_idle (s := huskTaken s ch) (by rw [htaken]; exact hcmds)
  obtain ⟨hans, v', hv⟩ := warmReq_answers (act := fun _ s => (s.culmRestart, 0)) (u := (huskTaken s ch).culmRestart) hlo ch.isLt hask
    (kind := 2) (by decide) (e := 0) (by decide) h2 rfl (by rw [hrestart, keyReset_frame, locksOfAll_frame])
    (by rw [hrestart, keyReset_frame, locksOfAll_frame]) (by decide)
  have hlocks (i : Nat) : (s.warmReq ch 2 (fun _ s => (s.culmRestart, 0))).lock i =
      (locksOfAll (huskTaken s ch) ((List.range 16).map idCulm)).lock i := by
    rw [hv]
    change (huskTaken s ch).culmRestart.lock i = _
    rw [hrestart, lock_keyReset]
  refine ⟨_, rfl, hans, ?_, fun i c o hc ho hid => ?_, fun i o ho hno => ?_⟩
  · rw [hv, hrestart, keyReset_frame, locksOfAll_frame, htaken]
  · rw [hlocks]
    refine lock_locksOfAll_of_holder (o := o) (by rw [hlock]; exact ho) ?_
    rw [hid]
    exact List.mem_map_of_mem (List.mem_range.2 hc)
  · rw [hlocks, lock_locksOfAll_of_other (o := o) (by rw [hlock]; exact ho), hlock]
    intro hmem
    obtain ⟨c, hc, hid⟩ := List.mem_map.1 hmem
    rw [← hid, isCulm_idCulm (List.mem_range.1 hc)] at hno
    cases hno

/-! ### Kind 3 -/

/-- The engine restarts with its registers at their reset values and its memory cleared, and is loaded from the bundle (R106). -/
def engineCleared (s : State) (e : Nat) : State := (((s.locksOf (idEngine e)).engineStop e).engineFresh e).engineFill e []

theorem execTillerEngineReset_checks (ch : Fin 64) (s : State) :
    ∃ act, exec (.tillerEngineReset ch) s = .next (s.warmReq ch 3 act) ∧ ∀ (e : Nat) (x : State),
      ((x.engAct e).isNone = true → act e x = (x, 8)) ∧
      (e < 68 → (x.engAct e).isNone = false → act e x = (((engineCleared x e).bundleLoad e).keyReset, 0)) := by
  refine ⟨_, rfl, fun e x => ⟨fun h => if_pos (.inr h), fun he h => if_neg ?_⟩⟩
  rintro (hc | hc)
  · omega
  · exact Bool.false_ne_true (h.symm.trans hc)

theorem tillerEngineReset_unbound {s : State} {ch : Fin 64} (hlo : 40 ≤ ch.val) (hask : s.huskAsks ch 0x7F [1]) {e : Nat}
    (hw : s.mbWord ch 0 1 = 3 + 256 * e) (he : e < 256) (h : s.engAct e = none) :
    ∃ t, exec (.tillerEngineReset ch) s = .next t ∧ t.huskAnswered ch 0x7F 8 0 ∧ t.regs = s.regs ∧ t.engMem = s.engMem := by
  obtain ⟨v, q, htaken⟩ := huskTaken_mailOnly (show 16 ≤ ch.val by omega) s
  obtain ⟨act, hexec, hact⟩ := execTillerEngineReset_checks ch s
  obtain ⟨hrefused, -⟩ := hact e (huskTaken s ch)
  obtain ⟨hans, v', hv⟩ := warmReq_answers hlo ch.isLt hask (kind := 3) (by decide) he hw
    (hrefused (by rw [htaken]; exact Option.isNone_iff_eq_none.2 h)) rfl rfl (by decide)
  refine ⟨_, hexec, hans, ?_⟩
  rw [hv, htaken]
  exact ⟨rfl, rfl⟩

end Sys2Proof.Proofs

namespace Sys2Proof.Proofs
open Sys2Proof.Machine Sys2Proof.Laws

/-! ### An engine's reset leaves Husk alone (R106, R107) -/

theorem trace_kept (s : State) (src : Nat) (ev : Ev) (inst : Nat) (args : List Nat) (firmware : Bool) :
    (s.trace src ev inst args firmware).husk = s.husk ∧ (s.trace src ev inst args firmware).acts = s.acts :=
  have h := trace_offRecord s src ev inst args firmware
  ⟨show (offRecord (s.trace src ev inst args firmware)).husk = s.husk by rw [h]; rfl,
    show (offRecord (s.trace src ev inst args firmware)).acts = s.acts by rw [h]; rfl⟩

theorem ctl_kept (s : State) (h op side : Nat) (b : List Nat) : (s.ctl h op side b).husk = s.husk ∧ (s.ctl h op side b).acts = s.acts := by
  rw [ctl_frame]
  exact ⟨rfl, rfl⟩

theorem setMode_kept (s : State) (g m : Nat) : (s.setMode g m).husk = s.husk ∧ (s.setMode g m).acts = s.acts := by
  unfold State.setMode
  extract_lets old c u v
  split
  · exact ⟨rfl, rfl⟩
  · exact trace_kept v 5 .loopMode g [m] false

theorem laserManual_kept (s : State) (n : Nat) : (s.laserManual n).husk = s.husk ∧ (s.laserManual n).acts = s.acts := by
  unfold State.laserManual
  extract_lets g u v w
  split
  · exact setMode_kept s g 1
  · exact ⟨rfl, rfl⟩

theorem withdrawSetpoints_husk (s : State) (n : Nat) (ep : BitVec 16) : (s.withdrawSetpoints n ep).husk = s.husk := rfl

theorem capsFree_husk (s : State) (n : Nat) (cs : List Nat) : (s.capsFree n cs).husk = s.husk := rfl

theorem chaffSlot_husk (s : State) (n i : Nat) : (s.chaffSlot n i).husk = s.husk := by
  unfold State.chaffSlot
  extract_lets e ep src u mine v w caps pool x y z a b
  have ha : a.husk = s.husk := (capsFree_husk x n caps).trans rfl
  have hb : b.husk = s.husk := by
    unfold b
    split
    · exact (trace_kept (a.withdrawSetpoints n ep) 1 .preseekChaff n [ep.toNat] false).1.trans ((withdrawSetpoints_husk a n ep).trans ha)
    · exact ha
  split
  · exact (trace_kept b 0 .epochChaff n [ep.toNat, src] false).1.trans hb
  · rfl

theorem chaffAll_husk (s : State) (n : Nat) : (s.chaffAll n).husk = s.husk :=
  List.foldlRecOn (motive := fun t : State => t.husk = s.husk) _ _ rfl fun t ht i _ => (chaffSlot_husk t n i).trans ht

theorem gateClose_husk (s : State) (n cause : Nat) : (s.gateClose n cause).husk = s.husk := by
  unfold State.gateClose
  extract_lets u v w x y z
  split
  · exact (laserManual_kept z n).1.trans ((trace_kept y 4 .gateClose n [cause] false).1.trans (ctl_kept s (hdaOf n) 0x04 0 _).1)
  · rfl

/-- The gate's closing ends no operation. -/
theorem gateClose_op (s : State) (n cause : Nat) (hn : n < 64) : ((s.gateClose n cause).act n).op = (s.act n).op := by
  unfold State.gateClose
  extract_lets u v w x y z
  split
  · have hacts : ((z.laserManual n).act n).op = (y.act n).op := by
      rw [State.act, (laserManual_kept z n).2, (trace_kept y 4 .gateClose n [cause] false).2]
      rfl
    have hu : x.act n = s.act n := congrArg (fun a => a.toArray.getD n ActSt.reset) (ctl_kept s (hdaOf n) 0x04 0 _).2
    rw [hacts, act_updAct, if_pos ⟨rfl, hn⟩, ← hu]
  · rw [act_updAct, if_pos ⟨rfl, hn⟩]

theorem endWork_op (s : State) {n : Nat} (hn : n < 64) : ((s.endWork n).act n).op = none := by
  have hact : (s.updAct n (fun a => { a with op := none })).act n = { s.act n with op := none } := by
    rw [act_updAct, if_pos ⟨rfl, hn⟩]
  exact congrArg ActSt.op hact

theorem endWork_husk (s : State) (n : Nat) : (s.endWork n).husk = s.husk := rfl

/-- An engine stopped: its actuator has no operation in hand and no engine, and Husk is as it was. -/
theorem engineStop_stops {s : State} {e : Nat} {n : Act} (h : s.engAct e = some n.val) :
    (s.engineStop e).husk = s.husk ∧ ((s.engineStop e).act n).noEngine = true ∧ ((s.engineStop e).act n).op = none := by
  have hop : ((((s.chaffAll n).endWork n).gateClose n 6).act n).op = none := by
    rw [gateClose_op _ _ _ n.isLt, endWork_op _ n.isLt]
  have hhusk : (((s.chaffAll n).endWork n).gateClose n 6).husk = s.husk := 
    (gateClose_husk ..).trans ((endWork_husk ..).trans (chaffAll_husk s n))
  unfold State.engineStop
  rw [h]
  dsimp only
  generalize ((s.chaffAll n).endWork n).gateClose n 6 = u at *
  have hact : ((u.updAct n (fun a => { a with noEngine := true, heldGo := false, fifo := [] })).act n) =
      { u.act n with noEngine := true, heldGo := false, fifo := [] } := by rw [act_updAct, if_pos ⟨rfl, n.isLt⟩]
  exact ⟨hhusk, congrArg ActSt.noEngine hact, (congrArg ActSt.op hact).trans hop⟩

end Sys2Proof.Proofs

namespace Sys2Proof.Proofs
open Sys2Proof.Machine Sys2Proof.Laws

/-! ### The registers of an engine's reset (R205) -/

/-- One field's copies at their reset values. -/
def fieldFresh (e : Nat) (s : State) (f : RegField) : State := (List.range f.n).foldl (fun s j => s.wrAt f e j f.reset) s

theorem fieldFresh_of_single {f : RegField} (h : f.n = 1) (e : Nat) (s : State) : fieldFresh e s f = s.wrAt f e 0 f.reset := by
  rw [fieldFresh, h]
  rfl

/-- The fields an engine's reset writes. -/
def freshFields : List RegField :=
  Regs.engineFields.filter (fun f => !([Reg.engine_BOUND_ACT, Reg.engine_IS_SPARE, Reg.engine_MQ_DEPTH].contains f))

theorem freshFields_eq : freshFields = Reg.engine_RUN :: Reg.engine_LOADED :: freshFields.drop 2 := by decide

theorem laterFields_ids : ∀ f ∈ freshFields.drop 2, Reg.engine_MC_VERSION.id * 0x100000 ≤ f.id * 0x100000 := by decide

theorem engineFresh_fold (s : State) (e : Nat) : s.engineFresh e = freshFields.foldl (fieldFresh e) s := rfl

theorem engineFresh_eq (s : State) (e : Nat) : s.engineFresh e =
    (freshFields.drop 2).foldl (fieldFresh e) ((s.wrAt Reg.engine_RUN e 0 0).wrAt Reg.engine_LOADED e 0 0) := by
  rw [engineFresh_fold, freshFields_eq, List.foldl_cons, List.foldl_cons, fieldFresh_of_single rfl, fieldFresh_of_single rfl]
  rfl

theorem fieldFresh_frame (e : Nat) (s : State) (f : RegField) : fieldFresh e s f = { s with regs := (fieldFresh e s f).regs } :=
  foldl_writes _ _ _ fun _ _ => rfl

theorem engineFresh_frame (s : State) (e : Nat) : s.engineFresh e = { s with regs := (s.engineFresh e).regs } := by
  rw [engineFresh_fold]
  exact foldl_writes _ _ s fun s f => fieldFresh_frame e s f

theorem fieldFresh_keepsBelow {b : Nat} (e : Nat) (s : State) {f : RegField} (hb : b ≤ f.id * 0x100000) :
    KeepsBelow b s (fieldFresh e s f) :=
  foldl_keepsBelow _ _ _ fun s j => wrAt_keepsBelow s f e j _ (hb.trans (id_le_key f e j))

theorem fieldsFresh_keepsBelow {b e : Nat} {l : List RegField} (h : ∀ f ∈ l, b ≤ f.id * 0x100000) (s : State) :
    KeepsBelow b s (l.foldl (fieldFresh e) s) := by
  induction l generalizing s with
  | nil => exact .refl b s
  | cons f l ih =>
    exact (fieldFresh_keepsBelow e s (h f List.mem_cons_self)).trans (ih (fun g hg => h g (List.mem_cons_of_mem _ hg)) _)

theorem laterFields_keepsBelow (e : Nat) (s : State) :
    KeepsBelow (Reg.engine_MC_VERSION.id * 0x100000) s ((freshFields.drop 2).foldl (fieldFresh e) s) :=
  fieldsFresh_keepsBelow laterFields_ids s

theorem engineFresh_registers {s : State} (hs : s.fileOk) {e : Nat} (he : e < 68) :
    (s.engineFresh e).rd Reg.engine_RUN e = 0 ∧ (s.engineFresh e).rd Reg.engine_LOADED e = 0 := by
  have hrun : (s.wrAt Reg.engine_RUN e 0 0).fileOk := wrAt_rising s _ e 0 _ hs
  have hboth : ((s.wrAt Reg.engine_RUN e 0 0).wrAt Reg.engine_LOADED e 0 0).fileOk := wrAt_rising _ _ e 0 _ hrun
  have hlate := laterFields_keepsBelow e ((s.wrAt Reg.engine_RUN e 0 0).wrAt Reg.engine_LOADED e 0 0)
  rw [engineFresh_eq]
  constructor
  · rw [hlate.rd_engine hboth rfl he (by decide),
      (wrAt_keepsBelow _ Reg.engine_LOADED e 0 0 (id_le_key ..)).rd_engine hrun (f := Reg.engine_RUN) rfl he (by decide), rd_eq,
      rdAt_wrAt s _ e 0 _ hs]
    decide
  · rw [hlate.rd_engine hboth rfl he (by decide), rd_eq, rdAt_wrAt _ _ e 0 _ hrun]
    decide

/-- The fields of the start come before an engine's. -/
theorem engineFresh_rdN {s : State} (hs : s.fileOk) (e : Nat) {f : RegField} (hf : f.key 0 0 < portStatusKeys) :
    (s.engineFresh e).rdN f 0 = s.rdN f 0 := by
  have hrun : KeepsBelow portStatusKeys s (s.wrAt Reg.engine_RUN e 0 0) :=
    wrAt_keepsBelow s _ e 0 0 (le_trans (by decide) (id_le_key ..))
  have hloaded : KeepsBelow portStatusKeys (s.wrAt Reg.engine_RUN e 0 0) ((s.wrAt Reg.engine_RUN e 0 0).wrAt Reg.engine_LOADED e 0 0) :=
    wrAt_keepsBelow _ _ e 0 0 (le_trans (by decide) (id_le_key ..))
  obtain ⟨hfile, hbelow⟩ := (hrun.trans hloaded) hs
  have hlate := (laterFields_keepsBelow e _ hfile).2 f 0 0 (hf.trans_le (by decide))
  rw [State.rdN, State.rdN, rd_eq, rd_eq, engineFresh_eq, hlate, hbelow f 0 0 hf]

theorem engineStop_still (s : State) (e : Nat) : still (s.engineStop e) = still s := by
  have hlate (u : State) (n : Nat) : still (((((u.wr Reg.engine_RUN e 0).wr Reg.engine_LOADED e 0).updAct n (fun a =>
      { a with noEngine := true, heldGo := false, fifo := [] })).wr Reg.spf_SP_DEPTH n 0)) = still u := by
    rw [wr_still _ _ _ _ (by decide), updAct_still, wr_still _ _ _ _ (by decide), wr_still _ _ _ _ (by decide)]
  unfold State.engineStop
  split
  · rw [updLoop_still, updLoop_still, hlate, gateClose_still, endWork_still, chaffAll_still]
  · rfl

theorem engineStop_fileOk {s : State} (hs : s.fileOk) (e : Nat) : (s.engineStop e).fileOk :=
  (engineStop_keeps s e (keeps_refl s)).regs hs

/-! ### The engine cleared -/

theorem engineFill_nil_mem (s : State) (e : Nat) : ∀ x ∈ (s.engineFill e []).engMem, x.1 < e * 0x40000 ∨ e * 0x40000 + 0x40000 ≤ x.1 := by
  intro x hx
  have hx : x ∈ s.engMem.filter (fun x => x.1 < e * 0x40000 || e * 0x40000 + 0x40000 ≤ x.1) := hx
  simpa using (List.mem_filter.1 hx).2

theorem engineFill_frame (s : State) (e : Nat) (b : List Byte) : s.engineFill e b = { s with engMem := (s.engineFill e b).engMem } := rfl

theorem engineCleared_facts {s : State} (hs : s.fileOk) {e : Nat} (he : e < 68) {n : Act} (h : s.engAct e = some n.val) :
    (engineCleared s e).husk = s.husk ∧ (engineCleared s e).mbox = s.mbox ∧ (engineCleared s e).rd Reg.engine_RUN e = 0 ∧
      (engineCleared s e).rd Reg.engine_LOADED e = 0 ∧ ((engineCleared s e).act n).noEngine = true ∧
      ((engineCleared s e).act n).op = none ∧
      (engineCleared s e).rdN Reg.status_BUNDLE 0 = s.rdN Reg.status_BUNDLE 0 ∧
      ∀ i, (engineCleared s e).lock i = freedFrom (idEngine e) (s.lock i) := by
  have hfreed : (s.locksOf (idEngine e)).fileOk := hs
  obtain ⟨hhusk, hno, hop⟩ := engineStop_stops (s := s.locksOf (idEngine e)) (e := e) (n := n) h
  have hcalm := engineStop_calm (s.locksOf (idEngine e)) e (calm_refl _)
  have hfile := engineStop_fileOk hfreed e
  have hbundle : ((s.locksOf (idEngine e)).engineStop e).rdN Reg.status_BUNDLE 0 = s.rdN Reg.status_BUNDLE 0 :=
    congrArg BitVec.toNat ((Lowered.of_still (engineStop_still (s.locksOf (idEngine e)) e)).rdAt hfreed hfile (f := Reg.status_BUNDLE)
      (i := 0) (j := 0) (by decide))
  unfold engineCleared
  generalize (s.locksOf (idEngine e)).engineStop e = u at *
  obtain ⟨hrun, hloaded⟩ := engineFresh_registers hfile he
  have hrdN := engineFresh_rdN hfile e (f := Reg.status_BUNDLE) (by decide)
  have hframe := engineFresh_frame u e
  generalize u.engineFresh e = v at *
  have hv : v.husk = u.husk ∧ v.mbox = u.mbox ∧ v.acts = u.acts ∧ v.locks = u.locks := by
    rw [hframe]
    exact ⟨rfl, rfl, rfl, rfl⟩
  obtain ⟨hvh, hvm, hva, hvl⟩ := hv
  have hact : v.act n = u.act n := congrArg (fun a => a.toArray.getD n.val ActSt.reset) hva
  refine ⟨hvh.trans hhusk, hvm.trans hcalm.mbox, hrun, hloaded, (congrArg ActSt.noEngine hact).trans hno,
    (congrArg ActSt.op hact).trans hop, hrdN.trans hbundle, fun i => ?_⟩
  rw [← lock_locksOf]
  exact congrArg (fun l => l.toArray.getD i Lock.reset) (hvl.trans hcalm.locks)

theorem engineCleared_engMem (s : State) (e : Nat) : ∀ x ∈ (engineCleared s e).engMem, x.1 < e * 0x40000 ∨ e * 0x40000 + 0x40000 ≤ x.1 :=
  engineFill_nil_mem _ e

/-- The selected bundle is the register's and Husk's. -/
theorem bundle_congr {s t : State} (hr : t.rdN Reg.status_BUNDLE 0 = s.rdN Reg.status_BUNDLE 0) (ha : t.husk.bundleA = s.husk.bundleA)
    (hb : t.husk.bundleB = s.husk.bundleB) : t.bundle = s.bundle := by
  rw [State.bundle, State.bundle, hr, ha, hb]

/-- A bundle whose microcode fails its checks is not loaded from. -/
theorem bundleLoad_of_bad {s : State} (h : mcCheck s.husk.slots s.husk.floor (bundleBytes s.bundle 3) ≠ 0) (e : Nat) : s.bundleLoad e = s := by
  unfold State.bundleLoad
  exact if_neg h

theorem tillerEngineReset_clears {s : State} {ch : Fin 64} (hlo : 40 ≤ ch.val) (hask : s.huskAsks ch 0x7F [1]) {e : Nat} {n : Act}
    (hs : s.fileOk) (hw : s.mbWord ch 0 1 = 3 + 256 * e) (he : e < 68) (h : s.engAct e = some n.val)
    (hbad : mcCheck s.husk.slots s.husk.floor (bundleBytes s.bundle 3) ≠ 0) :
    ∃ t, exec (.tillerEngineReset ch) s = .next t ∧ t.huskAnswered ch 0x7F 0 0 ∧ t.rd Reg.engine_RUN e = 0 ∧ t.rd Reg.engine_LOADED e = 0 ∧
      (t.act n).noEngine = true ∧ (t.act n).op = none ∧ (∀ x ∈ t.engMem, x.1 < e * 0x40000 ∨ e * 0x40000 + 0x40000 ≤ x.1) ∧
      ∀ (i : Fin 256) (o : Initiator), (s.lock i).owner = some o → o.toNat = idEngine e → (t.lock i).owner = none := by
  obtain ⟨v, q, htaken⟩ := huskTaken_mailOnly (show 16 ≤ ch.val by omega) s
  obtain ⟨act, hexec, hact⟩ := execTillerEngineReset_checks ch s
  have hbound : (huskTaken s ch).engAct e = some n.val := by rw [htaken]; exact h
  have hfile : (huskTaken s ch).fileOk := by rw [htaken]; exact hs
  obtain ⟨hhusk, hmb, hrun, hloaded, hno, hop, hsel, hlock⟩ := engineCleared_facts hfile he hbound
  have hmem := engineCleared_engMem (huskTaken s ch) e
  have hact := (hact e (huskTaken s ch)).2 he (by rw [hbound]; rfl)
  generalize engineCleared (huskTaken s ch) e = w at *
  have hbundle : w.bundle = s.bundle := bundle_congr (hsel.trans (by rw [htaken]; rfl)) (by rw [hhusk, htaken]) (by rw [hhusk, htaken])
  have hslots : w.husk.slots = s.husk.slots := by rw [hhusk, htaken]
  have hfloor : w.husk.floor = s.husk.floor := by rw [hhusk, htaken]
  have hreq : w.husk.requests = (huskTaken s ch).husk.requests := by rw [hhusk]
  rw [← hbundle, ← hslots, ← hfloor] at hbad
  rw [bundleLoad_of_bad hbad] at hact
  obtain ⟨k, hk⟩ : ∃ k, w.keyReset = { w with husk := { w.husk with keySlots := k } } := ⟨_, keyReset_frame w⟩
  obtain ⟨hans, v', hv⟩ := warmReq_answers hlo ch.isLt hask (kind := 3) (by decide) (by omega) hw hact
    (by rw [hk]; exact hmb) (by rw [hk]; exact hreq) (by decide)
  refine ⟨_, hexec, hans, ?_⟩
  rw [hv, hk]
  refine ⟨hrun, hloaded, hno, hop, hmem, fun i o ho hid => ?_⟩
  change (w.lock i).owner = none
  rw [hlock]
  exact freedFrom_of_holder (o := o) (by rw [htaken]; exact ho) hid

/-- Settles O19. -/
theorem loadersAndWarmReset : Obligations.LoadersAndWarmReset := by
  refine ⟨fun s q hs hfull hfree hc hl => ⟨halt_stops s q hs hfull hfree hc, load_fills s q hs hfull hfree hc hl,
    load_ddrErr s q hs hfull hfree hc hl, load_unknown s q hfull hfree hc hl, load_otherOpcode s q hfull hfree hc⟩,
    fun s q ch e src n en hs hch hloading _ h1 h0 hr hfull hfree hc hop he hk => ?_, fun s ch hlo => ⟨fun hask => ?_, fun n => ?_⟩,
    fun s ch hlo hask => ⟨deviceWarmReset_drains hlo hask, culmReset_frees hlo hask, fun e hw he h => ?_,
      fun e n hs _ hw he h hbad => tillerEngineReset_clears hlo hask hs hw he h hbad⟩⟩
  · exact loadedEngine s q ch e src n en hs hch hloading h1 h0 hr ⟨hc, hfull, hfree, hop, he, hk⟩
  · refine ⟨tillerLoad_unbound hlo hask, tillerLoad_ddrErr hlo hask, fun he h hlen hrun hpart hch _ hfree => ?_⟩
    exact tillerLoad_checked hlo hask rfl rfl rfl he h hlen hrun hpart hch hfree
  · exact tillerReload_late s n
  · exact tillerEngineReset_unbound hlo hask hw he h

end Sys2Proof.Proofs

namespace Sys2Proof.Proofs
open Sys2Proof.Machine Sys2Proof.Laws

/-! ## What a link loss does to its port (R151, R504)

A loss raises a fault, and a fault may stop any actuator and any HDA, may end commands and may close gates. None of that writes a port's
registers up to LOSS_CAUSE, makes an actuator ready, or opens or ends a write window: `portView` stays. Below it is one lemma per
shared operation; what a loss does after that is what it does to its own port. -/

/-! ### Registers of a set of keys -/

/-- A write at a key outside `q` is not seen among the keys in `q`. -/
theorem filter_write_of_not {l : List (Nat × Word)} {q : Nat → Bool} {k : Nat} (hk : q k = false) (d v : Word) :
    (Sparse.write l k d v).filter (fun p => q p.1) = l.filter (fun p => q p.1) := by
  induction l with
  | nil =>
    rw [Sparse.write]
    split <;> simp [hk]
  | cons p l ih =>
    obtain ⟨k', v'⟩ := p
    rw [Sparse.write]
    split
    · next h =>
      subst h
      split <;> simp [hk]
    split
    · split <;> simp [List.filter_cons, hk]
    · simp [List.filter_cons, ih]

/-- A key in `q` reads the same among the keys in `q`. -/
theorem read_filter_of {l : List (Nat × Word)} {q : Nat → Bool} {k : Nat} (hk : q k = true) (d : Word) {lo : Nat}
    (h : Sparse.rising lo l = true) : Sparse.read (l.filter (fun p => q p.1)) k d = Sparse.read l k d := by
  induction l generalizing lo with
  | nil => rfl
  | cons p l ih =>
    obtain ⟨k', v'⟩ := p
    simp only [Sparse.rising, Bool.and_eq_true, decide_eq_true_eq] at h
    obtain ⟨-, hl⟩ := h
    by_cases hin : q k' = true
    · simp [Sparse.read, hin, ih hl]
    · have hne : k' ≠ k := fun hc => hin (hc ▸ hk)
      rw [List.filter_cons_of_neg (by simpa using hin), ih hl, Sparse.read, if_neg hne]
      split
      · next hlt => exact read_below l (k' + 1) k d hl (by omega)
      · rfl

/-! ### The view of the ports -/

/-- The keys of a port's fields up to LOSS_CAUSE (R155), from port_RETRAIN's to those before port_TRIES's. -/
def isPortKey (k : Nat) : Bool := decide (22 * 0x100000 ≤ k) && decide (k < 31 * 0x100000)

/-- An actuator that is ready, and one with a write window in hand. -/
def actFlags (a : ActSt) : Bool × Bool := (a.ready, a.win.isSome)

def portViewOf (regs : List (Nat × Word)) (acts : Vector ActSt 64) (cfg : Option Structure) (variantH : Bool) :
    List (Nat × Word) × Vector (Bool × Bool) 64 × Option Structure × Bool :=
  (regs.filter (fun p => isPortKey p.1), acts.map actFlags, cfg, variantH)

/-- The ports' registers, which actuators are ready or write, and which there are. -/
abbrev portView (s : State) : List (Nat × Word) × Vector (Bool × Bool) 64 × Option Structure × Bool :=
  portViewOf s.regs s.acts s.cfg s.husk.variantH

theorem foldl_portView {α : Type} (l : List α) (f : State → α → State) (s : State) (h : ∀ s a, portView (f s a) = portView s) :
    portView (l.foldl f s) = portView s := by
  induction l generalizing s with
  | nil => rfl
  | cons a l ih => rw [List.foldl_cons, ih, h]

theorem wrAt_portView_of {s : State} {f : RegField} {i j : Nat} {v : Word} (hf : isPortKey (f.key i j) = false) :
    portView (s.wrAt f i j v) = portView s :=
  congrArg (fun x => (x, s.acts.map actFlags, s.cfg, s.husk.variantH)) (filter_write_of_not hf _ _)

theorem wrAt_portView (s : State) (f : RegField) (i j : Nat) (v : Word) (hf : 31 ≤ f.id) : portView (s.wrAt f i j v) = portView s := by
  refine wrAt_portView_of ?_
  have hk : ¬ f.key i j < 31 * 0x100000 := by
    unfold RegField.key
    omega
  rw [isPortKey, decide_eq_false hk, Bool.and_false]

theorem wr_portView (s : State) (f : RegField) (i : Nat) (v : Word) (hf : 31 ≤ f.id) : portView (s.wr f i v) = portView s :=
  wrAt_portView s f i 0 v hf
theorem wrN_portView (s : State) (f : RegField) (i v : Nat) (hf : 31 ≤ f.id) : portView (s.wrN f i v) = portView s :=
  wrAt_portView s f i 0 _ hf
theorem wrB_portView (s : State) (f : RegField) (i : Nat) (v : Bool) (hf : 31 ≤ f.id) : portView (s.wrB f i v) = portView s :=
  wrAt_portView s f i 0 _ hf
theorem wrBit_portView (s : State) (f : RegField) (i k : Nat) (v : Bool) (hf : 31 ≤ f.id) : portView (s.wrBit f i k v) = portView s :=
  wrAt_portView s f i 0 _ hf
theorem bumpBy_portView (s : State) (f : RegField) (i j n : Nat) (hf : 31 ≤ f.id) : portView (s.bumpBy f i j n) = portView s :=
  wrAt_portView s f i j _ hf
theorem bump_portView (s : State) (f : RegField) (i : Nat) (hf : 31 ≤ f.id) : portView (s.bump f i) = portView s :=
  wrAt_portView s f i 0 _ hf

theorem map_vupd {α β : Type} {n : Nat} (v : Vector α n) (i : Nat) (f : α → α) (g : α → β) (h : ∀ a, g (f a) = g a) :
    (vupd v i f).map g = v.map g := by
  unfold vupd
  split
  · rw [Vector.map_set, h]
    ext k hk
    by_cases hik : i = k
    · subst hik; simp
    · simp [hik]
  · rfl

theorem updAct_portView (s : State) (n : Nat) (f : ActSt → ActSt) (h : ∀ a, actFlags (f a) = actFlags a) :
    portView (s.updAct n f) = portView s :=
  congrArg (fun x => (s.regs.filter (fun p : Nat × Word => isPortKey p.1), x, s.cfg, s.husk.variantH)) (map_vupd s.acts n f actFlags h)

/-- Where the view stays, what is in it stays. -/
theorem rdAt_of_portView {s t : State} (h : portView t = portView s) (hs : s.fileOk) (ht : t.fileOk) {f : RegField} {i j : Nat}
    (hk : isPortKey (f.key i j) = true) : t.rdAt f i j = s.rdAt f i j := by
  have hregs : t.regs.filter (fun p => isPortKey p.1) = s.regs.filter (fun p => isPortKey p.1) := congrArg Prod.fst h
  rw [State.rdAt, State.rdAt, ← read_filter_of hk _ hs, ← read_filter_of hk _ ht, hregs]

theorem actFlags_of_portView {s t : State} (h : portView t = portView s) (n : Nat) : actFlags (t.act n) = actFlags (s.act n) := by
  have hacts : t.acts.map actFlags = s.acts.map actFlags := congrArg (fun x => x.2.1) h
  have hread (v : Vector ActSt 64) : actFlags (v.toArray.getD n ActSt.reset) = (v.map actFlags).toArray.getD n (actFlags ActSt.reset) := by
    by_cases hn : n < 64 <;> simp [Array.getD, hn]
  rw [State.act, State.act, hread, hread, hacts]

theorem actExists_of_portView {s t : State} (h : portView t = portView s) (n : Nat) : t.actExists n = s.actExists n := by
  have hcfg : t.cfg = s.cfg := congrArg (fun x => x.2.2.1) h
  have hvariant : t.husk.variantH = s.husk.variantH := congrArg (fun x => x.2.2.2) h
  rw [State.actExists, State.actExists, State.str, State.str, hcfg, hvariant]

end Sys2Proof.Proofs

namespace Sys2Proof.Proofs
open Sys2Proof.Machine Sys2Proof.Laws

/-! ### Operations that leave the view -/

theorem emit_portView (s : State) (o : Output) : portView (s.emit o) = portView s := rfl
theorem updPort_portView (s : State) (h : Nat) (f : PortSt → PortSt) : portView (s.updPort h f) = portView s := rfl
theorem updLoop_portView (s : State) (g : Nat) (f : LoopSt → LoopSt) : portView (s.updLoop g f) = portView s := rfl
theorem updSpin_portView (s : State) (h : Nat) (f : SpinSt → SpinSt) : portView (s.updSpin h f) = portView s := rfl
theorem updLane_portView (s : State) (l : Nat) (f : LaneSt → LaneSt) : portView (s.updLane l f) = portView s := rfl
theorem updFlt_portView (s : State) (f : FaultSt → FaultSt) : portView (s.updFlt f) = portView s := rfl
theorem updAlm_portView (s : State) (f : AlmSt → AlmSt) : portView (s.updAlm f) = portView s := rfl
theorem updHost_portView (s : State) (f : HostSt → HostSt) : portView (s.updHost f) = portView s := rfl
theorem updPool_portView (s : State) (f : PoolSt → PoolSt) : portView (s.updPool f) = portView s := rfl
theorem updCmd_portView (s : State) (slot : Nat) (f : Cmd → Cmd) : portView (s.updCmd slot f) = portView s := rfl

theorem trace_portView (s : State) (src : Nat) (ev : Ev) (inst : Nat) (args : List Nat) (firmware : Bool) :
    portView (s.trace src ev inst args firmware) = portView s := by
  have h := congrArg portView (trace_offRecord s src ev inst args firmware)
  exact h

theorem auditDrop_portView (s : State) : portView s.auditDrop = portView s := by
  grind [State.auditDrop, bump_portView, bumpBy_portView, updAlm_portView, Reg.alm_NOR_DROP_CNT, Reg.alm_SNAP_BREAK_CNT]

theorem auditTrim_portView (s : State) (cap fuel : Nat) : portView (s.auditTrim cap fuel) = portView s := by
  induction fuel generalizing s with
  | zero => rfl
  | succ fuel ih => grind [State.auditTrim, auditDrop_portView]

theorem auditFit_portView (s : State) : portView s.auditFit = portView s := by
  grind [State.auditFit, auditTrim_portView]

theorem audit_portView (s : State) (cat : Nat) (ev : Ev) (inst : Nat) (args : List Nat) (firmware : Bool) :
    portView (s.audit cat ev inst args firmware) = portView s := by
  grind [State.audit, auditFit_portView, updAlm_portView]

theorem ctlOut_portView (s : State) (h op side : Nat) (b : List Nat) : portView (s.ctlOut h op side b) = portView s := by
  grind [State.ctlOut, emit_portView, updPort_portView, wrN_portView, Reg.port_CRED_CTL]

theorem ctl_portView (s : State) (h op side : Nat) (b : List Nat) : portView (s.ctl h op side b) = portView s := by
  grind [State.ctl, ctlOut_portView, updPort_portView]

theorem setMode_portView (s : State) (g m : Nat) : portView (s.setMode g m) = portView s := by
  grind [State.setMode, trace_portView, wrN_portView, Reg.loop_MODE, Reg.unit_ACTIVE_CNT]

theorem laserManual_portView (s : State) (n : Nat) : portView (s.laserManual n) = portView s := by
  grind [State.laserManual, setMode_portView, wr_portView, Reg.loop_MAN_OUT, Reg.loop_U, Reg.loop_Y, Reg.wa_LASER_AUTO]

theorem gateClose_portView (s : State) (n cause : Nat) : portView (s.gateClose n cause) = portView s := by
  grind [State.gateClose, bump_portView, ctl_portView, laserManual_portView, trace_portView, updAct_portView, actFlags, Option.isSome_map,
    wr_portView, wrN_portView, Reg.wa_CLOSE_CAUSE, Reg.wa_CLOSE_CNT, Reg.wa_GATE_OPEN]

theorem faultArose_portView (s was : State) : portView (s.faultArose was) = portView s := by
  grind [State.faultArose, gateClose_portView, foldl_portView]

theorem faultAudit_portView (s : State) (ftype inst : Nat) (info : Word) : portView (s.faultAudit ftype inst info) = portView s := by
  grind [State.faultAudit, audit_portView, updFlt_portView]

theorem guarantee_portView (s : State) (high low who : Nat) : portView (s.guarantee high low who) = portView s := by
  grind [State.guarantee, audit_portView]

theorem breaksFor_portView (s : State) (n high : Nat) (lows : List Nat) : portView (s.breaksFor n high lows) = portView s := by
  grind [State.breaksFor, guarantee_portView, foldl_portView]

theorem loopSafe_portView (s : State) (g cause : Nat) : portView (s.loopSafe g cause) = portView s := by
  grind [State.loopSafe, setMode_portView, updLoop_portView, wr_portView, wrN_portView, Reg.loop_I, Reg.loop_SAFE_CAUSE, Reg.loop_TUNE_ST]

theorem hdaLoopsSafe_portView (s : State) (h cause : Nat) : portView (s.hdaLoopsSafe h cause) = portView s := by
  grind [State.hdaLoopsSafe, loopSafe_portView, foldl_portView]

theorem motor_portView (s : State) (h mode : Nat) (duty : List Nat) (t1 t2 : Nat) (shift : List Int) :
    portView (s.motor h mode duty t1 t2 shift) = portView s := by
  grind [State.motor, ctl_portView]

theorem motorOff_portView (s : State) (h : Nat) : portView (s.motorOff h) = portView s := by
  grind [State.motorOff, motor_portView]

theorem spinLocked_portView (s : State) (h : Nat) (v : Bool) : portView (s.wrBit Reg.status_SPIN_LOCKED 0 h v) = portView s :=
  wrAt_portView_of (by decide)

theorem spinState_portView (s : State) (h st : Nat) : portView (s.spinState h st) = portView s := by
  grind [State.spinState, trace_portView, wr_portView, wrB_portView, spinLocked_portView, wrN_portView, Reg.spindle_FW_ACTIVE,
    Reg.spindle_LOCKED, Reg.spindle_OBS_VALID, Reg.spindle_SPIN_STATE]

theorem spindleCoast_portView (s : State) (h : Nat) : portView (s.spindleCoast h) = portView s := by
  grind [State.spindleCoast, motorOff_portView, spinState_portView, updSpin_portView]

theorem capsFree_portView (s : State) (n : Nat) (cs : List Nat) : portView (s.capsFree n cs) = portView s := by
  grind [State.capsFree, updLane_portView, wrN_portView, Reg.lane_RING_WAIT, Reg.thresh_CAP_FREE]

theorem slotFree_portView (s : State) (e i : Nat) : portView (s.slotFree e i) = portView s := by
  grind [State.slotFree, wrAt_portView, wrN_portView, Reg.engine_OPEN_CNT, Reg.engine_SLOT_OPEN]

theorem withdrawSetpoints_portView (s : State) (n : Nat) (ep : BitVec 16) : portView (s.withdrawSetpoints n ep) = portView s := by
  grind [State.withdrawSetpoints, updAct_portView, actFlags, Option.isSome_map, updLoop_portView, wrB_portView, wrN_portView,
    Reg.demod_FRAME_PERIOD, Reg.demod_MISS_RUN, Reg.demod_POS, Reg.demod_RAD_OFS, Reg.demod_SEL_HEAD, Reg.demod_SPEC_TARGET,
    Reg.spf_SP_DECEL, Reg.spf_SP_DEPTH]

theorem chaffSlot_portView (s : State) (n i : Nat) : portView (s.chaffSlot n i) = portView s := by
  grind [State.chaffSlot, bumpBy_portView, capsFree_portView, slotFree_portView, trace_portView, updAct_portView, actFlags,
    Option.isSome_map, withdrawSetpoints_portView, wrB_portView, Reg.engine_OP_BUSY, Reg.pcie_DISC_SPEC_CNT]

theorem chaffAll_portView (s : State) (n : Nat) : portView (s.chaffAll n) = portView s := by
  grind [State.chaffAll, chaffSlot_portView, foldl_portView]

theorem endWork_portView (s : State) (n : Nat) : portView (s.endWork n) = portView s := by
  grind [State.endWork, updAct_portView, actFlags, Option.isSome_map, wr_portView, Reg.engine_OP_BUSY]

theorem decFree_portView (s : State) (d : Nat) : portView (s.decFree d) = portView s := by
  grind [State.decFree, wrAt_portView, Reg.pool_ACT, Reg.pool_BUSY, Reg.pool_SLOT, Reg.pool_STEP]

theorem laneStop_portView (s : State) (n : Nat) : portView (s.laneStop n) = portView s := by
  grind [State.laneStop, capsFree_portView, decFree_portView, updLane_portView, wr_portView, wrN_portView, Reg.lane_RING_WAIT,
    Reg.thresh_NOTICE_PEND, foldl_portView]

theorem loopActionEnd_portView (s : State) (g : Nat) : portView (s.loopActionEnd g) = portView s := by
  grind [State.loopActionEnd, setMode_portView, updLoop_portView, wr_portView, Reg.loop_I]

theorem loopOut_portView (s : State) (n item : Nat) (v frame : Word) (tick : Nat) :
    portView (s.loopOut n item v frame tick) = portView s := by
  grind [State.loopOut, ctl_portView]

theorem loopSafeAction_portView (s : State) (g cause : Nat) : portView (s.loopSafeAction g cause) = portView s := by
  grind [State.loopSafeAction, gateClose_portView, loopActionEnd_portView, loopOut_portView, setMode_portView, spindleCoast_portView,
    updLoop_portView, wr_portView, wrN_portView, Reg.loop_I, Reg.loop_MA_HOLD, Reg.loop_SAFE_CAUSE, Reg.loop_SAFE_RATE, Reg.loop_TUNE_ST,
    Reg.loop_Y]

theorem stopAct_portView (s : State) (n : Nat) : portView (s.stopAct n) = portView s := by
  grind [State.stopAct, chaffAll_portView, endWork_portView, gateClose_portView, laneStop_portView, loopSafeAction_portView,
    updAct_portView, actFlags, Option.isSome_map]

theorem updHusk_portView (s : State) (f : Husk → Husk) (h : ∀ k, (f k).variantH = k.variantH) : portView (s.updHusk f) = portView s :=
  congrArg (fun x => portViewOf s.regs s.acts s.cfg x) (h s.husk)

theorem ackRefresh_portView (s : State) : portView s.ackRefresh = portView s := by
  grind [State.ackRefresh, wrN_portView, Reg.dis_ACK_GRAINS, foldl_portView]

theorem bufRefresh_portView (s : State) : portView s.bufRefresh = portView s := by
  grind [State.bufRefresh, ackRefresh_portView, wrN_portView, Reg.qce_BUF_FREE, Reg.qce_BUF_LOW, foldl_portView]

theorem mqRefresh_portView (s : State) (n : Nat) : portView (s.mqRefresh n) = portView s := by
  grind [State.mqRefresh, updAct_portView, actFlags, Option.isSome_map, wrAt_portView, wrN_portView, Reg.engine_CLASS_SEL,
    Reg.engine_MQ_CLASS_CNT, Reg.engine_MQ_VALID, foldl_portView]

theorem mqDrop_portView (s : State) (n : Nat) (p : MqEntry → Bool) : portView (s.mqDrop n p) = portView s := by
  grind [State.mqDrop, mqRefresh_portView, updAct_portView, actFlags, Option.isSome_map]

theorem cmdMqDrop_portView (s : State) (c : Cmd) : portView (s.cmdMqDrop c) = portView s := by
  grind [State.cmdMqDrop, mqDrop_portView, updHost_portView]

theorem unpin_portView (s : State) (slot : Nat) : portView (s.unpin slot) = portView s := by
  grind [State.unpin, updHost_portView]

theorem abortWork_portView (s : State) (c : Cmd) : portView (s.abortWork c) = portView s := by
  grind [State.abortWork, bufRefresh_portView, chaffSlot_portView, cmdMqDrop_portView, endWork_portView, mqRefresh_portView, unpin_portView,
    updAct_portView, actFlags, Option.isSome_map, updCmd_portView, updHost_portView, updPool_portView]

theorem msixSend_portView (s : State) (v : Nat) : portView (s.msixSend v) = portView s := by
  grind [State.msixSend, emit_portView, updHost_portView]

theorem cqIrq_portView (s : State) (q : Cq) : portView (s.cqIrq q) = portView s := by
  grind [State.cqIrq, msixSend_portView, updHost_portView, foldl_portView]

theorem cqPost_portView (s : State) (c : Cmd) (q : Cq) (status : Nat) (dw0 dw1 : Word) :
    portView (s.cqPost c q status dw0 dw1) = portView s := by
  grind [State.cqPost, cqIrq_portView, emit_portView, updHost_portView]

theorem slotDrop_portView (s : State) (slot : Nat) : portView (s.slotDrop slot) = portView s := by
  grind [State.slotDrop, bufRefresh_portView, mqDrop_portView, unpin_portView, updHost_portView, wrN_portView, Reg.qce_SLOT_USED,
    foldl_portView]

theorem complete_portView (s : State) (slot status : Nat) (dw0 dw1 : Word) : portView (s.complete slot status dw0 dw1) = portView s := by
  grind [State.complete, cmdMqDrop_portView, cqPost_portView, slotDrop_portView, updCmd_portView]

theorem failActs_portView (s : State) (n status : Nat) : portView (s.failActs n status) = portView s := by
  grind [State.failActs, abortWork_portView, complete_portView, foldl_portView]

theorem failHeld_portView (s : State) : portView s.failHeld = portView s := by
  grind [State.failHeld, failActs_portView, foldl_portView]

theorem safeLow_portView (s : State) (h reason : Nat) : portView (s.safeLow h reason) = portView s := by
  grind [State.safeLow, ctl_portView, updPort_portView]

theorem react_portView (s : State) (r reason : Nat) (acts : BitVec 64) (hdas : BitVec 32) :
    portView (s.react r reason acts hdas) = portView s := by
  grind [State.react, stopAct_portView, breaksFor_portView, guarantee_portView, safeLow_portView, hdaLoopsSafe_portView,
    spindleCoast_portView, foldl_portView]

theorem detect_portView (s : State) (ftype inst : Nat) (info detail : Word) (injected : Bool) :
    portView (s.detect ftype inst info detail injected) = portView s := by
  grind [State.detect, updFlt_portView, wr_portView, wrN_portView, wrB_portView, wrBit_portView, bump_portView, faultAudit_portView,
    audit_portView, updAct_portView, actFlags, updHusk_portView, react_portView, faultArose_portView, foldl_portView, Reg.flt_FLT_STAT,
    Reg.flt_FLT_OCC_CNT, Reg.flt_LAST_TYPE, Reg.flt_FLT_INFO, Reg.flt_FLT_INJ_SRC, Reg.flt_FLT_ACT, Reg.flt_FLT_LATCH]

theorem raise_portView (s : State) (ftype inst : Nat) (info : Word) (injected : Bool) :
    portView (s.raise ftype inst info injected) = portView s := by
  grind [State.raise, detect_portView, failHeld_portView]

theorem flashEnd_portView (s : State) (h : Nat) : portView (s.flashEnd h) = portView s := by
  grind [State.flashEnd, wr_portView, wrN_portView, updPort_portView, Reg.port_FL_BUSY, Reg.port_FL_STATUS]

end Sys2Proof.Proofs

namespace Sys2Proof.Proofs
open Sys2Proof.Machine Sys2Proof.Laws

/-! ### A port falls (R151) -/

/-- An actuator that is not ready and has no write window in hand. -/
def idleAct (a : ActSt) : Prop := a.ready = false ∧ a.win = none

theorem idleAct_iff (a : ActSt) : idleAct a ↔ actFlags a = (false, false) := by
  simp [idleAct, actFlags]

/-- What holds of a port that has fallen goes on to hold: its state and cause stay, an idle actuator stays idle, SAFE_n does not rise. -/
structure Falls (s t : State) : Prop where
  file : s.fileOk → t.fileOk
  regs : s.fileOk → ∀ (f : RegField) (i j : Nat), isPortKey (f.key i j) = true → t.rdAt f i j = s.rdAt f i j
  idle : ∀ n, idleAct (s.act n) → idleAct (t.act n)
  existing : ∀ n, t.actExists n = s.actExists n
  safeN : ∀ h, t.safeN.getLsbD h = true → s.safeN.getLsbD h = true

theorem Falls.refl (s : State) : Falls s s := ⟨id, fun _ _ _ _ _ => rfl, fun _ => id, fun _ => rfl, fun _ => id⟩

theorem Falls.trans {s t u : State} (h : Falls s t) (k : Falls t u) : Falls s u where
  file hs := k.file (h.file hs)
  regs hs f i j hk := (k.regs (h.file hs) f i j hk).trans (h.regs hs f i j hk)
  idle n hn := k.idle n (h.idle n hn)
  existing n := (k.existing n).trans (h.existing n)
  safeN i hi := h.safeN i (k.safeN i hi)

theorem falls_of {s t : State} (hview : portView t = portView s) (hlow : Lowered s t) (hkeeps : Keeps s t) : Falls s t where
  file := hkeeps.regs
  regs hs _ _ _ hk := rdAt_of_portView hview hs (hkeeps.regs hs) hk
  idle n hn := by
    rw [idleAct_iff] at hn ⊢
    rw [actFlags_of_portView hview, hn]
  existing := actExists_of_portView hview
  safeN := hlow.safeN

theorem Falls.rdN {s t : State} (h : Falls s t) (hs : s.fileOk) {f : RegField} {i : Nat} (hk : isPortKey (f.key i 0) = true) :
    t.rdN f i = s.rdN f i := congrArg BitVec.toNat (h.regs hs f i 0 hk)

theorem isPortKey_of {f : RegField} (hn : f.n = 1) (hid : 22 ≤ f.id ∧ f.id < 31) {h : Nat} (hh : h < 32) :
    isPortKey (f.key h 0) = true := by
  simp only [isPortKey, RegField.key, hn, Bool.and_eq_true, decide_eq_true_eq]
  omega

/-- An actuator whose work ends and whose gate is closed. -/
def lostWork (s : State) (n : Nat) : State :=
  ((((s.chaffAll n).endWork n).gateClose n 6).wr Reg.wa_WINDOW n 0).wr Reg.wa_GATE_OPEN n 0

/-- What a link loss leaves of an actuator. -/
def lostAct (a : ActSt) : ActSt :=
  { a with
    win := none, winQueue := [], wrtWait := [], synced := false, frameSetDue := false, ready := false, curWc := none }

/-- A link loss stops an actuator. -/
def stopLost (s : State) (n : Nat) : State := if s.actExists n then (lostWork s n).updAct n lostAct else s

theorem lostWork_falls (s : State) (n : Nat) : Falls s (lostWork s n) := by
  refine falls_of ?_ (.of_still ?_) ?_
  · grind [lostWork, chaffAll_portView, endWork_portView, gateClose_portView, wr_portView, Reg.wa_WINDOW, Reg.wa_GATE_OPEN]
  · grind [lostWork, chaffAll_still, endWork_still, gateClose_still, wr_still, Reg.wa_WINDOW, Reg.wa_GATE_OPEN]
  · exact wr_keeps _ _ _ _ (wr_keeps _ _ _ _ (gateClose_keeps _ _ _ (endWork_keeps _ _ (chaffAll_keeps _ _ (keeps_refl s)))))

theorem updAct_falls (s : State) (n : Nat) (f : ActSt → ActSt) (hf : ∀ a, idleAct a → idleAct (f a)) : Falls s (s.updAct n f) where
  file := id
  regs _ _ _ _ _ := rfl
  idle k hk := by
    rw [act_updAct]
    split
    · exact hf _ hk
    · exact hk
  existing _ := rfl
  safeN _ := id

theorem stopLost_falls (s : State) (n : Nat) : Falls s (stopLost s n) := by
  unfold stopLost
  split
  · exact (lostWork_falls s n).trans (updAct_falls _ _ _ fun _ _ => ⟨rfl, rfl⟩)
  · exact .refl s

theorem stopLost_idle {s : State} {n : Nat} (hn : n < 64) (h : s.actExists n = true) : idleAct ((stopLost s n).act n) := by
  rw [stopLost, if_pos h, act_updAct, if_pos ⟨rfl, hn⟩]
  exact ⟨rfl, rfl⟩

/-- The port as its link goes: SAFE_n low, FAILED, no lane in use. -/
def linkGone (s : State) (h : Nat) : State :=
  (({ s with safeN := s.safeN &&& ~~~(hdaMask h), spinWait := s.spinWait.filter (fun x => x != h) } : State).wr
    Reg.port_STATE h 9).lanesIdle h

theorem linkGone_safeN (s : State) (h : Nat) : (linkGone s h).safeN = s.safeN &&& ~~~(hdaMask h) := rfl

/-- All that hangs on the port stops. -/
def linkStopped (s : State) (h : Nat) : State :=
  ((stopLost (stopLost (linkGone s h) (2 * h)) (2 * h + 1)).hdaLoopsSafe h 5).spindleCoast h

/-- The port's flash command and its waiting words go, and the fault is raised. -/
def linkReported (s : State) (h cause : Nat) : State :=
  (((s.bump Reg.port_LOSS_CNT h).flashEnd h).updPort h (fun p => { p with
    laneChange := .none, smpCtl := [0, 0], stopWait := 0, ctlWait := [], attempts := 0 })).raise 0x0503 h (BitVec.ofNat 32 cause)

theorem lose_eq (s : State) (h cause : Nat) :
    s.lose h cause = linkReported ((linkStopped s h).wrN Reg.port_LOSS_CAUSE h cause) h cause := rfl

theorem linkStopped_falls (s : State) (h : Nat) : Falls (stopLost (stopLost (linkGone s h) (2 * h)) (2 * h + 1)) (linkStopped s h) :=
  falls_of (by rw [linkStopped, spindleCoast_portView, hdaLoopsSafe_portView])
    (.of_still (by rw [linkStopped, spindleCoast_still, hdaLoopsSafe_still]))
    (spindleCoast_keeps _ _ (hdaLoopsSafe_keeps _ _ _ (keeps_refl _)))

theorem linkReported_falls (s : State) (h cause : Nat) : Falls s (linkReported s h cause) := by
  refine falls_of ?_ ?_ ?_
  · grind [linkReported, raise_portView, updPort_portView, flashEnd_portView, bump_portView, Reg.port_LOSS_CNT]
  · refine Lowered.trans (.of_still ?_) (raise_lowered _ _ _ _ _)
    grind [updPort_still, State.flashEnd, wr_still, wrN_still, bump_still, Reg.port_FL_BUSY, Reg.port_FL_STATUS, Reg.port_LOSS_CNT]
  · exact raise_keeps _ _ _ _ _ (updPort_keeps _ _ _ (flashEnd_keeps _ _ (bump_keeps _ _ _ (keeps_refl s))))

theorem wrN_act (s : State) (f : RegField) (i v n : Nat) : (s.wrN f i v).act n = s.act n := rfl

/-- What a port that has lost its link shows (R151). -/
structure LinkLost (s t : State) (h cause : Nat) : Prop where
  file : t.fileOk
  state : t.rdN Reg.port_STATE h = 9
  cause : t.rdN Reg.port_LOSS_CAUSE h = cause
  safeN : t.safeN.getLsbD h = false
  idle : ∀ x : Fin 2, s.actExists (2 * h + x) = true → idleAct (t.act (2 * h + x))

theorem lose_lost {s : State} (hs : s.fileOk) {h : Nat} (hh : h < 32) {cause : Nat} (hcause : cause < 16) :
    LinkLost s (s.lose h cause) h cause := by
  have hgone : (linkGone s h).fileOk := lanesIdle_fileOk (wr_fileOk hs _ _ _) h
  have hfirst := stopLost_falls (linkGone s h) (2 * h)
  have hsecond := stopLost_falls (stopLost (linkGone s h) (2 * h)) (2 * h + 1)
  have hrest := linkStopped_falls s h
  have hstopped : Falls (linkGone s h) (linkStopped s h) := hfirst.trans (hsecond.trans hrest)
  have hfile := hstopped.file hgone
  have hcaused : Falls ((linkStopped s h).wrN Reg.port_LOSS_CAUSE h cause) (s.lose h cause) := by
    rw [lose_eq]
    exact linkReported_falls _ h cause
  have hcausedFile : ((linkStopped s h).wrN Reg.port_LOSS_CAUSE h cause).fileOk := wrN_fileOk hfile _ _ _
  refine ⟨hcaused.file hcausedFile, ?_, ?_, ?_, fun x hx => ?_⟩
  · have hgoneState : (linkGone s h).rdN Reg.port_STATE h = 9 := by
      refine (congrArg BitVec.toNat (lanesIdle_rdAt (wr_fileOk hs _ _ _) hh (by decide) (portIndex_lt rfl hh))).trans ?_
      exact rdN_wr (s := { s with safeN := _, spinWait := _ }) hs _ (by decide) _ _ (by decide)
    calc (s.lose h cause).rdN Reg.port_STATE h
        = ((linkStopped s h).wrN Reg.port_LOSS_CAUSE h cause).rdN Reg.port_STATE h :=
          hcaused.rdN hcausedFile (isPortKey_of rfl (by decide) hh)
      _ = (linkStopped s h).rdN Reg.port_STATE h := rdN_wr_port hfile (by decide) rfl hh _ (portIndex_lt rfl hh)
      _ = 9 := (hstopped.rdN hgone (isPortKey_of rfl (by decide) hh)).trans hgoneState
  · exact (hcaused.rdN hcausedFile (isPortKey_of rfl (by decide) hh)).trans (rdN_wrN hfile _ (by decide) _ _ hcause)
  · refine Bool.eq_false_iff.2 fun hhigh => ?_
    have hcausedHigh := hcaused.safeN h hhigh
    rw [wrN_eq, wrAt_safeN] at hcausedHigh
    have hgoneHigh := hstopped.safeN h hcausedHigh
    rw [linkGone_safeN] at hgoneHigh
    simp [getLsbD_hdaMask hh] at hgoneHigh
  · refine hcaused.idle _ ?_
    rw [wrN_act]
    refine hrest.idle _ ?_
    match x, hx with
    | 0, hx => exact hsecond.idle _ (stopLost_idle (show 2 * h + 0 < 64 by omega) hx)
    | 1, hx => exact stopLost_idle (show 2 * h + 1 < 64 by omega) ((hfirst.existing _).trans hx)

end Sys2Proof.Proofs

namespace Sys2Proof.Proofs
open Sys2Proof.Machine Sys2Proof.Laws

/-! ### The attempt that follows -/

theorem attempt_rdN {s : State} (hs : s.fileOk) {h : Nat} (hh : h < 32) {f : RegField} (hn : f.n = 1)
    (hid : f.id ∉ [Reg.port_LANE_LOCK.id, Reg.port_LANES.id, Reg.port_FL_BUSY.id, Reg.port_FL_STATUS.id, Reg.port_STATE.id,
      Reg.port_TRIES.id]) : (s.attempt h).rdN f h = s.rdN f h := by
  simp only [List.mem_cons, List.not_mem_nil, or_false, not_or] at hid
  obtain ⟨hlock, hlanes, hbusy, hstatus, hstate, htries⟩ := hid
  have hidle := lanesIdle_fileOk hs h
  have hended := flashEnd_fileOk hidle h
  have hbefore : ((s.lanesIdle h).flashEnd h).rdN f h = s.rdN f h := congrArg BitVec.toNat
    ((flashEnd_rdAt hidle hh ⟨hbusy, hstatus⟩ (portIndex_lt hn hh)).trans (lanesIdle_rdAt hs hh ⟨hlock, hlanes⟩ (portIndex_lt hn hh)))
  have hwrite (v : Word) : (((s.lanesIdle h).flashEnd h).wr Reg.port_STATE h v).rdN f h = s.rdN f h :=
    (rdN_wr_port hended hstate rfl hh v (portIndex_lt hn hh)).trans hbefore
  unfold State.attempt
  extract_lets u v w x
  split
  · rw [(trace_recorded x 7 .training h [1] false).rdN]
    exact (rdN_wr_port (wr_fileOk hended _ _ _) htries rfl hh _ (portIndex_lt hn hh)).trans (hwrite 1)
  · exact hwrite 9

/-- An attempt leaves the actuators alone, and its port is not UP. -/
theorem attempt_notUp {s : State} (hs : s.fileOk) {h : Nat} (hh : h < 32) :
    (s.attempt h).up h = false ∧ (s.attempt h).acts = s.acts ∧ (s.attempt h).safeN = s.safeN := by
  have hnot {t : State} {k : Nat} (hk : t.rdN Reg.port_STATE h = k) (h7 : k ≠ 7) : t.up h = false := by
    rw [Bool.eq_false_iff, ne_eq, up_iff, hk]
    exact h7
  by_cases htoken : s.shelfToken = true
  · have hstarted := attempt_started hs hh htoken
    exact ⟨hnot hstarted.state (by decide), hstarted.acts, hstarted.safeN⟩
  · have hwaits : s.attempt h = ((s.lanesIdle h).flashEnd h).wr Reg.port_STATE h 9 := by
      have hkept := (flashEnd_rdAt (lanesIdle_fileOk hs h) hh (f := Reg.orr_STANDING_HELD) (i := 0) (j := 0) (by decide) (by decide)).trans
        (lanesIdle_rdAt hs hh (by decide) (by decide))
      have hnone : ¬ ((s.lanesIdle h).flashEnd h).shelfToken = true := by
        rwa [State.shelfToken, State.rdB, rd_eq, hkept]
      exact if_neg hnone
    rw [hwaits]
    refine ⟨hnot (rdN_wr (flashEnd_fileOk (lanesIdle_fileOk hs h) h) _ (by decide) _ _ (by decide)) (by decide), ?_, ?_⟩
    · rw [wr_eq, wrAt_acts, flashEnd_frame]
      rfl
    · rw [wr_eq, wrAt_safeN, flashEnd_frame]
      rfl

theorem flashEnd_held (s : State) (h k : Nat) : ((s.flashEnd h).port k).held = (s.port k).held := by
  unfold State.flashEnd
  split
  · rw [port_updPort]
    split <;> rfl
  · rfl

theorem attempt_held (s : State) (h k : Nat) : ((s.attempt h).port k).held = (s.port k).held := by
  have hended : (((s.lanesIdle h).flashEnd h).port k).held = (s.port k).held := flashEnd_held _ h k
  unfold State.attempt
  extract_lets u v w x
  split
  · rw [(trace_recorded x 7 .training h [1] false).port, port_updPort]
    split <;> exact hended
  · exact hended

/-! ### The commands -/

/-- Three uncorrectable codewords count on the lane that had them (R116). -/
def lossCounted (s : State) (h : Hda) (cause : Fin 6) (lane : Fin 4) : State :=
  if cause.val + 1 = 2 ∧ (s.up h ∨ s.training h) ∧ lane < s.rdN Reg.port_LANES h then s.bumpBy Reg.port_FEC_UNCORR h lane 3 else s

theorem lossCounted_facts {s : State} (hs : s.fileOk) (h : Hda) (cause : Fin 6) (lane : Fin 4) :
    (lossCounted s h cause lane).fileOk ∧ (lossCounted s h cause lane).up h = s.up h ∧
      ∀ n, (lossCounted s h cause lane).actExists n = s.actExists n := by
  unfold lossCounted
  split
  · have hstate : (s.bumpBy Reg.port_FEC_UNCORR h lane 3).rd Reg.port_STATE h = s.rd Reg.port_STATE h :=
      rdAt_wrAt_of_id_ne hs (by decide) (by simp only [Reg.port_FEC_UNCORR]; omega) (portIndex_lt rfl h.isLt)
    exact ⟨wrAt_rising _ _ _ _ _ hs, by rw [State.up, hstate, State.up], fun _ => rfl⟩
  · exact ⟨hs, rfl, fun _ => rfl⟩

theorem linkLoss_stops (s : State) (h : Hda) (hs : s.fileOk) (cause : Fin 6) (lane : Fin 4) (hup : s.up h = true) (hc : cause.val ≠ 5) :
    ∃ t, exec (.linkLoss h cause lane) s = .next t ∧ t.up h = false ∧ t.rdN Reg.port_LOSS_CAUSE h = cause.val + 1 ∧
      t.safeN.getLsbD h = false ∧
      (∀ x : Fin 2, s.actExists (2 * h + x) = true → (t.act (2 * h + x)).ready = false ∧ (t.act (2 * h + x)).win = none) ∧
      t.cfg = s.cfg := by
  obtain ⟨hfile, hcountedUp, hexists⟩ := lossCounted_facts hs h cause lane
  have hlost := lose_lost hfile h.isLt (cause := cause.val + 1) (by omega)
  have hexec : exec (.linkLoss h cause lane) s = .next (((lossCounted s h cause lane).lose h (cause.val + 1)).attempt h) :=
    congrArg Host.Outcome.next (if_pos ⟨hcountedUp.trans hup, by omega⟩)
  obtain ⟨hnotUp, hacts, hsafe⟩ := attempt_notUp hlost.file h.isLt
  refine ⟨_, hexec, hnotUp, ?_, ?_, fun x hx => ?_, (execLinkLoss_calm h cause lane s _ hexec).cfg⟩
  · exact (attempt_rdN hlost.file h.isLt rfl (by decide)).trans hlost.cause
  · rw [hsafe, hlost.safeN]
  · rw [State.act, hacts]
    exact hlost.idle x ((hexists _).trans hx)

theorem retrain_starts (s : State) (h : Hda) (w : Initiator) (hs : s.fileOk) (hmay : s.may w (Reg.port_RETRAIN.addr h 0) true)
    (hctl : s.linkCtl h = true) (hup : s.up h = false) (htoken : s.shelfToken = true) :
    ∃ t, exec (.retrain h w false) s = .next t ∧ t.rdN Reg.port_STATE h = 1 ∧ (t.port h).held = false ∧ t.acts = s.acts := by
  generalize hu : (s.wake (islandOf (Reg.port_RETRAIN.addr h 0))).updPort h
    (fun p => { p with held := false, attempts := 0, waitRetry := false }) = u
  have hregs : u.regs = s.regs := by rw [← hu]; rfl
  have hfile : u.fileOk := by rw [State.fileOk, hregs]; exact hs
  have hkept (f : RegField) (i : Nat) : u.rd f i = s.rd f i := by rw [State.rd, State.rdAt, hregs]; rfl
  have hstarted := attempt_started hfile h.isLt (by rw [State.shelfToken, State.rdB, hkept]; exact htoken)
  have hexec : exec (.retrain h w false) s = .next (u.attempt h) := by
    refine congrArg Host.Outcome.next ((guard_of_may hmay _).trans ?_)
    refine (if_neg Bool.false_ne_true).trans ((if_pos hctl).trans ?_)
    rw [← hu]
    exact if_neg (by rw [Bool.not_eq_true]; exact hup)
  refine ⟨_, hexec, hstarted.state, ?_, hstarted.acts.trans (by rw [← hu]; rfl)⟩
  rw [attempt_held, ← hu, port_updPort, if_pos ⟨rfl, h.isLt⟩]

/-- DOWN holds the port in FAILED, its cause 6 (R504). -/
theorem linkDown_holds {s : State} (hs : s.fileOk) {h : Nat} (hh : h < 32) (hctl : s.linkCtl h = true) :
    (s.linkDown h).rdN Reg.port_STATE h = 9 ∧ (s.linkDown h).rdN Reg.port_LOSS_CAUSE h = 6 ∧ ((s.linkDown h).port h).held = true := by
  have hheld (u : State) : ((u.updPort h (fun p => { p with held := true, waitRetry := false })).port h).held = true := by
    rw [port_updPort, if_pos ⟨rfl, hh⟩]
  unfold State.linkDown
  rw [if_pos hctl]
  extract_lets u
  suffices u.rdN Reg.port_STATE h = 9 ∧ u.rdN Reg.port_LOSS_CAUSE h = 6 from ⟨this.1, this.2, hheld u⟩
  unfold u
  split
  · have hlost := lose_lost hs hh (cause := 6) (by decide)
    exact ⟨hlost.state, hlost.cause⟩
  · have hfailed := wr_fileOk hs Reg.port_STATE h 9
    have hidle := lanesIdle_fileOk hfailed h
    refine ⟨?_, rdN_wr hidle _ (by decide) _ _ (by decide)⟩
    refine (rdN_wr_port hidle (by decide) rfl hh _ (portIndex_lt rfl hh)).trans ?_
    refine (congrArg BitVec.toNat (lanesIdle_rdAt hfailed hh (by decide) (portIndex_lt rfl hh))).trans ?_
    exact rdN_wr hs _ (by decide) _ _ (by decide)

theorem retrain_down (s : State) (h : Hda) (w : Initiator) (hs : s.fileOk) (hmay : s.may w (Reg.port_RETRAIN.addr h 0) true)
    (hctl : s.linkCtl h = true) :
    ∃ t, exec (.retrain h w true) s = .next t ∧ t.rdN Reg.port_STATE h = 9 ∧ (t.port h).held = true := by
  obtain ⟨hstate, -, hheld⟩ := linkDown_holds (s := s.wake (islandOf (Reg.port_RETRAIN.addr h 0))) hs h.isLt hctl
  exact ⟨_, congrArg Host.Outcome.next ((guard_of_may hmay _).trans (if_pos rfl)), hstate, hheld⟩

theorem down_holds (s : State) (h : Hda) (w : Initiator) (hs : s.fileOk) (hmay : s.may w (Reg.port_DOWN.addr h 0) true)
    (hctl : s.linkCtl h = true) :
    ∃ t, exec (.down h w) s = .next t ∧ t.rdN Reg.port_STATE h = 9 ∧ t.rdN Reg.port_LOSS_CAUSE h = 6 ∧ (t.port h).held = true ∧
      t.cfg = s.cfg := by
  obtain ⟨hstate, hcause, hheld⟩ := linkDown_holds (s := s.wake (islandOf (Reg.port_DOWN.addr h 0))) hs h.isLt hctl
  have hexec : exec (.down h w) s = .next ((s.wake (islandOf (Reg.port_DOWN.addr h 0))).linkDown h) :=
    congrArg Host.Outcome.next (guard_of_may hmay _)
  exact ⟨_, hexec, hstate, hcause, hheld, (execDown_calm h w s _ hexec).cfg⟩

/-- Settles O26: what a loss sets on its port, `Falls` carries past the fault it raises. -/
theorem linkLossStopsThePort : Obligations.LinkLossStopsThePort := by
  refine fun s h w hs => ⟨linkLoss_stops s h hs, fun hmay hctl => ⟨?_, retrain_down s h w hs hmay hctl⟩, down_holds s h w hs⟩
  exact retrain_starts s h w hs hmay hctl

end Sys2Proof.Proofs

namespace Sys2Proof.Proofs
open Sys2Proof.Machine Sys2Proof.Laws

/-! ## Words from the head-end and head-end flash (R120, R128 to R134, R153, R156) -/

/-! ### Counters -/

/-- A counter that saturates. -/
theorem rdAt_bumpBy {s : State} (hs : s.fileOk) (f : RegField) (hf : f.width ≤ 32) (i j n : Nat) :
    ((s.bumpBy f i j n).rdAt f i j).toNat = min ((s.rdAt f i j).toNat + n) (2 ^ f.width - 1) := by
  have hpow := Nat.pow_le_pow_right (n := 2) (by decide) hf
  have hpos := Nat.two_pow_pos f.width
  rw [State.bumpBy, rdAt_wrAt s f i j _ hs, toNat_trunc f hf, BitVec.toNat_ofNat, Nat.mod_eq_of_lt (by omega), Nat.mod_eq_of_lt (by omega)]

theorem rdN_bump {s : State} (hs : s.fileOk) (f : RegField) (hf : f.width ≤ 32) (i : Nat) :
    (s.bump f i).rdN f i = min (s.rdN f i + 1) (2 ^ f.width - 1) := rdAt_bumpBy hs f hf i 0 1

/-! ### A frame arrives (R120) -/

theorem port_rxSeq (s : State) {h : Nat} (hh : h < 32) (sid side : Nat) (seq : BitVec 10) :
    (s.rxSeq h sid side seq).port h =
      { s.port h with rxSeq := listSet (s.port h).rxSeq (2 * sid + side) ((seq.toNat + 1) % 1024) } := by
  unfold State.rxSeq
  extract_lets k exp u
  have hu : u.port h = s.port h := by
    unfold u
    split <;> rfl
  rw [port_updPort, if_pos ⟨rfl, hh⟩, hu]

theorem rxSeq_frame (s : State) (h sid side : Nat) (seq : BitVec 10) :
    s.rxSeq h sid side seq = { s with regs := (s.rxSeq h sid side seq).regs, ports := (s.rxSeq h sid side seq).ports } := by
  unfold State.rxSeq
  extract_lets k exp u
  unfold u
  split <;> rfl

theorem rxSeq_regs_of_eq {s : State} {h sid side : Nat} {seq : BitVec 10} (heq : seq.toNat = (s.port h).rxSeq.getD (2 * sid + side) 0) :
    (s.rxSeq h sid side seq).regs = s.regs := by
  unfold State.rxSeq
  extract_lets k exp u
  rw [updPort_regs]
  exact congrArg State.regs (if_pos heq)

theorem rxSeq_fileOk {s : State} (hs : s.fileOk) (h sid side : Nat) (seq : BitVec 10) : (s.rxSeq h sid side seq).fileOk :=
  (rxSeq_keepsBelow s h sid side seq hs).1

theorem rxSeq_rdAt {s : State} (hs : s.fileOk) {h : Nat} (hh : h < 32) (sid side : Nat) (seq : BitVec 10) {f : RegField}
    (hid : f.id ≠ Reg.port_SEQ_GAP.id) {i j : Nat} (hf : i * f.n + j < 0x100000) :
    (s.rxSeq h sid side seq).rdAt f i j = s.rdAt f i j := by
  unfold State.rxSeq
  extract_lets k exp u
  change u.rdAt f i j = s.rdAt f i j
  unfold u
  split
  · rfl
  · exact rdAt_wr_port hs hid rfl hh _ hf

/-- A frame out of sequence is counted. -/
theorem rxSeq_gap {s : State} (hs : s.fileOk) (h sid side : Nat) (seq : BitVec 10) :
    (s.rxSeq h sid side seq).rdN Reg.port_SEQ_GAP h =
      if seq.toNat = (s.port h).rxSeq.getD (2 * sid + side) 0 then s.rdN Reg.port_SEQ_GAP h
      else min (s.rdN Reg.port_SEQ_GAP h + 1) 0xFFFFFFFF := by
  unfold State.rxSeq
  extract_lets k exp u
  change u.rdN Reg.port_SEQ_GAP h = _
  unfold u
  split
  · rfl
  · exact rdN_bump hs _ (by decide) h

/-! ### A CTL frame (R131) -/

theorem rxCtl_of_good {s : State} {h side op : Nat} {hdr : UpHdr} {b : List Nat} (hcrc : crcHolds hdr side op b = true)
    (act : State → State) : s.rxCtl h side op hdr b act = act (s.rxSeq h 6 side hdr.seq) := if_pos hcrc

theorem rxCtl_of_bad {s : State} {h side op : Nat} {hdr : UpHdr} {b : List Nat} (hcrc : crcHolds hdr side op b = false)
    (act : State → State) : s.rxCtl h side op hdr b act = (s.bump Reg.port_CTL_CRC_ERR h).trace 7 .ctlError h [] :=
  if_neg (by rw [hcrc]; exact Bool.false_ne_true)

/-! ### The words -/

theorem keepalive_bad (s : State) (h : Hda) (hdr : UpHdr) (hs : s.fileOk) (hcrc : crcHolds hdr 0 0x0F [] = false) :
    ∃ t, exec (.keepalive h hdr) s = .next t ∧ t.ports = s.ports ∧
      t.rdN Reg.port_CTL_CRC_ERR h = min (s.rdN Reg.port_CTL_CRC_ERR h + 1) 0xFFFFFFFF := by
  have hrec := trace_recorded (s.bump Reg.port_CTL_CRC_ERR h) 7 .ctlError h [] false
  exact ⟨_, congrArg Host.Outcome.next (rxCtl_of_bad hcrc id), hrec.ports, (hrec.rdN _ _).trans (rdN_bump hs _ (by decide) h)⟩

theorem keepalive_good (s : State) (h : Hda) (hdr : UpHdr) (hlen : (s.port h).rxSeq.length = 32) (hcrc : crcHolds hdr 0 0x0F [] = true) :
    ∃ t, exec (.keepalive h hdr) s = .next t ∧ (t.port h).rxSeq.getD 12 0 = (hdr.seq.toNat + 1) % 1024 ∧ t.mem = s.mem ∧
      t.acts = s.acts ∧ (hdr.seq.toNat = (s.port h).rxSeq.getD 12 0 → t.regs = s.regs) := by
  refine ⟨_, congrArg Host.Outcome.next (rxCtl_of_good hcrc id), ?_, ?_, ?_, fun heq => rxSeq_regs_of_eq heq⟩
  · rw [id, port_rxSeq s h.isLt]
    simp [listSet, hlen]
  · rw [id, rxSeq_frame]
  · rw [id, rxSeq_frame]

theorem stopAck_settles (s : State) (h : Hda) (hdr : UpHdr) (r : Byte) (lv : Bool)
    (hcrc : crcHolds hdr 0 0x82 [r.toNat, if lv then 1 else 0] = true) :
    ∃ t, exec (.stopAck h hdr r lv) s = .next t ∧ (t.port h).stopWait = (s.port h).stopWait - (if r = 0xFF then 0 else 1) ∧
      (t.port h).stopMiss = (s.port h).stopMiss ∧ t.safeN = s.safeN := by
  have hport := port_rxSeq s h.isLt 6 0 hdr.seq
  have hsafe : (s.rxSeq h 6 0 hdr.seq).safeN = s.safeN := by rw [rxSeq_frame]
  refine ⟨_, congrArg Host.Outcome.next (rxCtl_of_good hcrc _), ?_⟩
  split
  · rw [hport]
    exact ⟨rfl, rfl, hsafe⟩
  · rw [port_updPort, if_pos ⟨rfl, h.isLt⟩, hport]
    exact ⟨rfl, rfl, hsafe⟩

theorem stopAckTimeout_counts (s : State) (h : Hda) (hwait : (s.port h).stopWait ≠ 0) :
    ∃ t, exec (.stopAckTimeout h) s = .next t ∧ (t.port h).stopWait = (s.port h).stopWait - 1 ∧
      (t.port h).stopMiss = (s.port h).stopMiss + 1 ∧ t.regs = s.regs ∧ t.safeN = s.safeN := by
  have hrec := trace_recorded (s.updPort h (fun p => { p with stopWait := p.stopWait - 1, stopMiss := p.stopMiss + 1 })) 7 .stopMissing h []
    false
  have hport := (hrec.port h).trans ((port_updPort s h h _).trans (if_pos ⟨rfl, h.isLt⟩))
  exact ⟨_, congrArg Host.Outcome.next (if_neg hwait), congrArg PortSt.stopWait hport, congrArg PortSt.stopMiss hport, hrec.regs, hrec.safeN⟩

theorem credit_ast_adds (s : State) (h : Hda) (hdr : UpHdr) (hs : s.fileOk) (frames : BitVec 16)
    (hcrc : crcHolds hdr 0 0x83 ([8, 0] ++ hBytes frames.toNat) = true) (hwait : (s.act (2 * h)).wrtWait = []) :
    ∃ t, exec (.credit h hdr 8 0 frames) s = .next t ∧ t.rdN Reg.port_CRED_AST_A h = min (s.rdN Reg.port_CRED_AST_A h + frames.toNat) 65535 ∧
      t.rdN Reg.port_CRED_AST_B h = s.rdN Reg.port_CRED_AST_B h ∧ t.acts = s.acts := by
  generalize hu : s.rxSeq h 6 0 hdr.seq = u
  have hfile : u.fileOk := hu ▸ rxSeq_fileOk hs _ _ _ _
  have hrd {f : RegField} (hn : f.n = 1) (hid : f.id ≠ Reg.port_SEQ_GAP.id) : u.rdN f h = s.rdN f h :=
    hu ▸ congrArg BitVec.toNat (rxSeq_rdAt hs h.isLt 6 0 hdr.seq hid (portIndex_lt hn h.isLt))
  have hacts : u.acts = s.acts := by rw [← hu, rxSeq_acts]
  generalize hn : min (u.rdN Reg.port_CRED_AST_A h + frames.toNat) 0xFFFF = n
  have hnone : ((u.wrN Reg.port_CRED_AST_A h n).act (actOf h 0)).wrtWait = [] := by
    rw [wrN_act, State.act, hacts]
    exact hwait
  have hexec : exec (.credit h hdr 8 0 frames) s = .next (u.wrN Reg.port_CRED_AST_A h n) := by
    refine congrArg Host.Outcome.next ((rxCtl_of_good hcrc _).trans ?_)
    rw [hu]
    change (u.wrN Reg.port_CRED_AST_A h (min (u.rdN Reg.port_CRED_AST_A h + frames.toNat) 0xFFFF)).wrtDrain _
      ((u.wrN Reg.port_CRED_AST_A h (min (u.rdN Reg.port_CRED_AST_A h + frames.toNat) 0xFFFF)).act (actOf h 0)).wrtWait.length = _
    rw [hn, hnone]
    rfl
  refine ⟨_, hexec, ?_, ?_, hacts⟩
  · rw [rdN_wrN hfile _ (by decide) _ _ (by simp only [RegField.width, Reg.port_CRED_AST_A]; omega), ← hn, hrd rfl (by decide)]
  · exact (rdN_wr_port hfile (by decide) rfl h.isLt _ (portIndex_lt rfl h.isLt)).trans (hrd rfl (by decide))

end Sys2Proof.Proofs

namespace Sys2Proof.Proofs
open Sys2Proof.Machine Sys2Proof.Laws

/-! ### Head-end flash: the words it sends (R156) -/

/-- A word to the head-end costs a credit at most, and leaves the port's flash command and main memory alone. -/
structure Worded (s t : State) : Prop where
  file : s.fileOk → t.fileOk
  rdAt : s.fileOk → ∀ (f : RegField) (i j : Nat), f.id ≠ Reg.port_CRED_CTL.id → i * f.n + j < 0x100000 → t.rdAt f i j = s.rdAt f i j
  flash : ∀ k, (t.port k).flash = (s.port k).flash
  mem : t.mem = s.mem

theorem Worded.trans {s t u : State} (h : Worded s t) (k : Worded t u) : Worded s u where
  file hs := k.file (h.file hs)
  rdAt hs f i j hid hf := (k.rdAt (h.file hs) f i j hid hf).trans (h.rdAt hs f i j hid hf)
  flash n := (k.flash n).trans (h.flash n)
  mem := k.mem.trans h.mem

theorem Worded.of_rest {s t : State} (hregs : t.regs = s.regs) (hflash : ∀ k, (t.port k).flash = (s.port k).flash) (hmem : t.mem = s.mem) :
    Worded s t where
  file hs := by rw [State.fileOk, hregs]; exact hs
  rdAt _ f i j _ _ := by rw [State.rdAt, hregs]; rfl
  flash := hflash
  mem := hmem

theorem updPort_worded (s : State) (h : Nat) (f : PortSt → PortSt) (hf : ∀ p, (f p).flash = p.flash) : Worded s (s.updPort h f) := by
  refine .of_rest rfl (fun k => ?_) rfl
  rw [port_updPort]
  split
  · exact hf _
  · rfl

theorem wrCred_worded (s : State) {h : Nat} (hh : h < 32) (v : Nat) : Worded s (s.wrN Reg.port_CRED_CTL h v) where
  file hs := wrN_fileOk hs _ _ _
  rdAt hs _ _ _ hid hf := rdAt_wr_port hs hid rfl hh _ hf
  flash _ := rfl
  mem := rfl

theorem ctl_worded (s : State) {h : Nat} (hh : h < 32) (op side : Nat) (b : List Nat) : Worded s (s.ctl h op side b) := by
  unfold State.ctl State.ctlOut
  extract_lets st t seq u v
  split
  · exact .of_rest rfl (fun _ => rfl) rfl
  split
  · have hu : Worded s u := updPort_worded s h _ fun _ => rfl
    have hv : Worded u v := by
      unfold v
      split
      · exact .of_rest rfl (fun _ => rfl) rfl
      · exact wrCred_worded u hh _
    exact (hu.trans hv).trans (.of_rest rfl (fun _ => rfl) rfl)
  · exact updPort_worded s h _ fun _ => rfl

theorem flashWord_worded (s : State) {h : Nat} (hh : h < 32) (m : Nat) : Worded s (s.flashWord h m) := by
  unfold State.flashWord
  split
  · next f _ =>
    refine Worded.trans ?_ (ctl_worded _ hh _ _ _)
    rw [dmaReadViol_frame]
    exact .of_rest rfl (fun _ => rfl) rfl
  · exact .of_rest rfl (fun _ => rfl) rfl

/-! ### A command is refused or accepted -/

/-- A command that is accepted: busy, its status 0. -/
def flashBegun (s : State) (h cmd : Nat) : State :=
  ((s.wr Reg.port_FL_BUSY h 1).wr Reg.port_FL_STATUS h 0).updPort h
    (fun p => { p with flash := some ⟨cmd, (s.port h).tag, s.rdN Reg.port_FL_OFS h, s.rdN Reg.port_FL_LEN h, s.flDdr h, 0⟩ })

/-- The first word of an accepted command. -/
def flashFirst (s : State) (h cmd ofs len : Nat) : State :=
  match cmd with
  | 1 => s.ctl h 0x0B 0 ([0, 0] ++ wBytes (BitVec.ofNat 32 ofs) ++ wBytes (BitVec.ofNat 32 len))
  | 2 => s.flashWord h 0
  | _ => s.ctl h 0x0D 0 ([0, 0] ++ wBytes (BitVec.ofNat 32 ofs))

theorem flashFirst_worded (s : State) {h : Nat} (hh : h < 32) (cmd ofs len : Nat) : Worded s (flashFirst s h cmd ofs len) := by
  unfold flashFirst
  split
  · exact ctl_worded s hh _ _ _
  · exact flashWord_worded s hh 0
  · exact ctl_worded s hh _ _ _

section
variable {s : State} {h : Nat} (hbusy : s.rdB Reg.port_FL_BUSY h = false)
include hbusy

theorem flash_of_linkDown (hup : s.up h = false) (cmd : Nat) : s.flash h cmd = s.wr Reg.port_FL_STATUS h 4 :=
  (if_neg (by rw [hbusy]; exact Bool.false_ne_true)).trans (if_pos hup)

theorem flash_of_low (hup : s.up h = true) {cmd : Nat} (hcmd : 2 ≤ cmd) (hofs : s.rdN Reg.port_FL_OFS h < 0x80000) :
    s.flash h cmd = s.wr Reg.port_FL_STATUS h 3 :=
  (if_neg (by rw [hbusy]; exact Bool.false_ne_true)).trans
    ((if_neg (by rw [hup]; exact Bool.noConfusion)).trans (if_pos ⟨hcmd, hofs⟩))

/-- A command whose range and buffer hold is accepted; an erase has neither. -/
theorem flash_of_accepted (hup : s.up h = true) {cmd : Nat} (hofs : 2 ≤ cmd → 0x80000 ≤ s.rdN Reg.port_FL_OFS h)
    (hrange : cmd ≠ 3 → s.rdN Reg.port_FL_LEN h ≤ 262144 ∧ s.rdN Reg.port_FL_OFS h + s.rdN Reg.port_FL_LEN h ≤ 2 ^ 32 ∧
      s.inPart 4 (s.flDdr h) (s.rdN Reg.port_FL_LEN h) = true) :
    s.flash h cmd = flashFirst (flashBegun s h cmd) h cmd (s.rdN Reg.port_FL_OFS h) (s.rdN Reg.port_FL_LEN h) := by
  have hpart : ¬ (cmd ≠ 3 ∧ s.inPart 3 (s.flDdr h) (s.rdN Reg.port_FL_LEN h) = false ∧
      s.inPart 4 (s.flDdr h) (s.rdN Reg.port_FL_LEN h) = false) := by
    rintro ⟨hc, -, h4⟩
    rw [(hrange hc).2.2] at h4
    exact Bool.noConfusion h4
  have hlen : ¬ (cmd ≠ 3 ∧ (262144 < s.rdN Reg.port_FL_LEN h ∨ 2 ^ 32 < s.rdN Reg.port_FL_OFS h + s.rdN Reg.port_FL_LEN h)) := by
    rintro ⟨hc, hbad⟩
    obtain ⟨hlen, hsum, -⟩ := hrange hc
    omega
  refine (if_neg (by rw [hbusy]; exact Bool.false_ne_true)).trans ((if_neg (by rw [hup]; exact Bool.noConfusion)).trans
    ((if_neg (fun hc => ?_)).trans ((if_neg hpart).trans ((if_neg hlen).trans ?_))))
  · exact Nat.not_lt.2 (hofs hc.1) hc.2
  · unfold flashFirst flashBegun
    rfl

end

/-- What an accepted command leaves. -/
structure FlashBusy (s t : State) (h cmd : Nat) : Prop where
  busy : t.rdB Reg.port_FL_BUSY h = true
  status : t.rdN Reg.port_FL_STATUS h = 0
  mem : t.mem = s.mem
  flash : (t.port h).flash = some ⟨cmd, (s.port h).tag, s.rdN Reg.port_FL_OFS h, s.rdN Reg.port_FL_LEN h, s.flDdr h, 0⟩

theorem flashBusy_of_worded {s t : State} (hs : s.fileOk) {h : Nat} (hh : h < 32) {cmd : Nat} (hw : Worded (flashBegun s h cmd) t) :
    FlashBusy s t h cmd := by
  have hbusy := wr_fileOk hs Reg.port_FL_BUSY h 1
  have hfile : (flashBegun s h cmd).fileOk := wr_fileOk hbusy Reg.port_FL_STATUS h 0
  refine ⟨?_, ?_, hw.mem, ?_⟩
  · rw [State.rdB, rd_eq, hw.rdAt hfile _ _ _ (by decide) (portIndex_lt rfl hh)]
    have hread : ((s.wr Reg.port_FL_BUSY h 1).wr Reg.port_FL_STATUS h 0).rdAt Reg.port_FL_BUSY h 0 = 1 :=
      (rdAt_wr_port hbusy (by decide) rfl hh _ (portIndex_lt rfl hh)).trans (rdAt_wrAt s _ _ _ _ hs)
    exact beq_iff_eq.2 hread
  · rw [State.rdN, rd_eq, hw.rdAt hfile _ _ _ (by decide) (portIndex_lt rfl hh)]
    exact rdN_wr hbusy _ (by decide) _ _ (by decide)
  · rw [hw.flash, flashBegun, port_updPort, if_pos ⟨rfl, hh⟩]

theorem flash_accepted_busy {s : State} {h : Hda} (hs : s.fileOk) (hbusy : s.rdB Reg.port_FL_BUSY h = false) (hup : s.up h = true)
    {cmd : Nat} (hofs : 2 ≤ cmd → 0x80000 ≤ s.rdN Reg.port_FL_OFS h)
    (hrange : cmd ≠ 3 → s.rdN Reg.port_FL_LEN h ≤ 262144 ∧ s.rdN Reg.port_FL_OFS h + s.rdN Reg.port_FL_LEN h ≤ 2 ^ 32 ∧
      s.inPart 4 (s.flDdr h) (s.rdN Reg.port_FL_LEN h) = true) (k : Nat) : FlashBusy s ((s.wake k).flash h cmd) h cmd := by
  rw [flash_of_accepted (s := s.wake k) hbusy hup hofs hrange]
  obtain ⟨hb, hst, hm, hf⟩ := flashBusy_of_worded (s := s.wake k) hs h.isLt (flashFirst_worded _ h.isLt cmd _ _)
  exact ⟨hb, hst, hm, hf⟩

/-! ### The commands -/

section
variable {s : State} {h : Hda} {w : Initiator} (hs : s.fileOk) (hmay : s.may w (Reg.port_FL_CMD.addr h 0) true)
  (hbusy : s.rdB Reg.port_FL_BUSY h = false)

include hmay

/-- A write of FL_CMD that is let through acts on the state with its island awake (R20). -/
theorem exec_flash : ∃ k, exec (.flashRead h w) s = .next ((s.wake k).flash h 1) ∧ exec (.flashWrite h w) s = .next ((s.wake k).flash h 2) ∧
    exec (.flashErase h w) s = .next ((s.wake k).flash h 3) :=
  ⟨_, congrArg Host.Outcome.next (guard_of_may hmay _), congrArg Host.Outcome.next (guard_of_may hmay _),
    congrArg Host.Outcome.next (guard_of_may hmay _)⟩

include hs hbusy

theorem flash_linkDown_answers (hup : s.up h = false) :
    (∃ t, exec (.flashRead h w) s = .next t ∧ t.rdN Reg.port_FL_STATUS h = 4 ∧ t.ports = s.ports) ∧
      (∃ t, exec (.flashWrite h w) s = .next t ∧ t.rdN Reg.port_FL_STATUS h = 4) ∧
      ∃ t, exec (.flashErase h w) s = .next t ∧ t.rdN Reg.port_FL_STATUS h = 4 := by
  obtain ⟨k, hread, hwrite, herase⟩ := exec_flash hmay
  have hdown := flash_of_linkDown (s := s.wake k) hbusy hup
  have hstatus : ((s.wake k).wr Reg.port_FL_STATUS h 4).rdN Reg.port_FL_STATUS h = 4 :=
    rdN_wr (s := s.wake k) hs _ (by decide) _ _ (by decide)
  rw [hread, hwrite, herase, hdown, hdown, hdown]
  exact ⟨⟨_, rfl, hstatus, rfl⟩, ⟨_, rfl, hstatus⟩, _, rfl, hstatus⟩

theorem flash_low_answers (hup : s.up h = true) (hofs : s.rdN Reg.port_FL_OFS h < 0x80000) :
    (∃ t, exec (.flashWrite h w) s = .next t ∧ t.rdN Reg.port_FL_STATUS h = 3 ∧ t.ports = s.ports ∧ t.out = s.out) ∧
      ∃ t, exec (.flashErase h w) s = .next t ∧ t.rdN Reg.port_FL_STATUS h = 3 ∧ t.ports = s.ports ∧ t.out = s.out := by
  obtain ⟨k, -, hwrite, herase⟩ := exec_flash hmay
  have hlow {cmd : Nat} (hcmd : 2 ≤ cmd) := flash_of_low (s := s.wake k) hbusy hup hcmd hofs
  have hstatus : ((s.wake k).wr Reg.port_FL_STATUS h 3).rdN Reg.port_FL_STATUS h = 3 :=
    rdN_wr (s := s.wake k) hs _ (by decide) _ _ (by decide)
  rw [hwrite, herase, hlow (by decide), hlow (by decide)]
  exact ⟨⟨_, rfl, hstatus, rfl, rfl⟩, _, rfl, hstatus, rfl, rfl⟩

theorem flash_ranged_accepted (hup : s.up h = true) (hlen : s.rdN Reg.port_FL_LEN h ≤ 262144)
    (hend : s.rdN Reg.port_FL_OFS h + s.rdN Reg.port_FL_LEN h ≤ 2 ^ 32) (hpart : s.inPart 4 (s.flDdr h) (s.rdN Reg.port_FL_LEN h) = true) :
    (∃ t, exec (.flashRead h w) s = .next t ∧ t.rdB Reg.port_FL_BUSY h = true ∧ t.rdN Reg.port_FL_STATUS h = 0 ∧ t.mem = s.mem ∧
      (t.port h).flash = some ⟨1, (s.port h).tag, s.rdN Reg.port_FL_OFS h, s.rdN Reg.port_FL_LEN h, s.flDdr h, 0⟩) ∧
    (0x80000 ≤ s.rdN Reg.port_FL_OFS h → ∃ t, exec (.flashWrite h w) s = .next t ∧ t.rdB Reg.port_FL_BUSY h = true ∧ t.mem = s.mem ∧
      (t.port h).flash = some ⟨2, (s.port h).tag, s.rdN Reg.port_FL_OFS h, s.rdN Reg.port_FL_LEN h, s.flDdr h, 0⟩) := by
  obtain ⟨k, hread, hwrite, -⟩ := exec_flash hmay
  refine ⟨⟨_, hread, ?_⟩, fun hofs => ⟨_, hwrite, ?_⟩⟩
  · obtain ⟨hb, hst, hm, hf⟩ := flash_accepted_busy hs hbusy hup (cmd := 1) (fun hc => absurd hc (by decide))
      (fun _ => ⟨hlen, hend, hpart⟩) k
    exact ⟨hb, hst, hm, hf⟩
  · obtain ⟨hb, -, hm, hf⟩ := flash_accepted_busy hs hbusy hup (cmd := 2) (fun _ => hofs) (fun _ => ⟨hlen, hend, hpart⟩) k
    exact ⟨hb, hm, hf⟩

theorem flashErase_accepted (hup : s.up h = true) (hofs : 0x80000 ≤ s.rdN Reg.port_FL_OFS h) :
    ∃ t, exec (.flashErase h w) s = .next t ∧ t.rdB Reg.port_FL_BUSY h = true ∧ t.mem = s.mem ∧
      (t.port h).flash = some ⟨3, (s.port h).tag, s.rdN Reg.port_FL_OFS h, s.rdN Reg.port_FL_LEN h, s.flDdr h, 0⟩ := by
  obtain ⟨k, -, -, herase⟩ := exec_flash hmay
  obtain ⟨hb, -, hm, hf⟩ := flash_accepted_busy hs hbusy hup (cmd := 3) (fun _ => hofs) (fun hc => absurd rfl hc) k
  exact ⟨_, herase, hb, hm, hf⟩

end

/-! ### FLASH_DONE (R132) -/

section
variable {s : State} {h : Hda} {hdr : UpHdr} {f : FlashOp} (hs : s.fileOk) (hflash : (s.port h).flash = some f) {status : Byte}
  (hcrc : crcHolds hdr 0 0x84 [status.toNat] = true) (htag : f.tag = hdr.tag)
include hs hflash hcrc htag

theorem flashDone_ends (hend : f.cmd ≠ 2 ∨ status ≠ 0 ∨ f.len ≤ f.moved + 16) :
    ∃ t, exec (.flashDone h hdr status) s = .next t ∧ t.rdB Reg.port_FL_BUSY h = false ∧ t.rdN Reg.port_FL_STATUS h = status.toNat % 8 ∧
      (t.port h).flash = none ∧ t.mem = s.mem := by
  have hport : ((s.rxSeq h 6 0 hdr.seq).port h).flash = some f := by rw [port_rxSeq s h.isLt]; exact hflash
  have hmem : (s.rxSeq h 6 0 hdr.seq).mem = s.mem := by rw [rxSeq_frame]
  have hfile := rxSeq_fileOk hs h 6 0 hdr.seq
  generalize hu : s.rxSeq h 6 0 hdr.seq = u at *
  have hexec : exec (.flashDone h hdr status) s =
      .next (((u.wr Reg.port_FL_BUSY h 0).wrN Reg.port_FL_STATUS h status.toNat).updPort h (fun p => { p with flash := none })) := by
    refine congrArg Host.Outcome.next ((rxCtl_of_good hcrc _).trans ?_)
    rw [hu]
    dsimp only
    rw [hport]
    refine (if_neg (not_not.2 htag)).trans (if_neg ?_)
    rintro ⟨hc, hz, hlt⟩
    obtain hc' | hz' | hle := hend
    · exact hc' hc
    · exact hz' hz
    · omega
  have hbusy := wr_fileOk hfile Reg.port_FL_BUSY h 0
  refine ⟨_, hexec, ?_, ?_, ?_, hmem⟩
  · have hread : ((u.wr Reg.port_FL_BUSY h 0).wrN Reg.port_FL_STATUS h status.toNat).rdAt Reg.port_FL_BUSY h 0 = 0 :=
      (rdAt_wr_port hbusy (by decide) rfl h.isLt _ (portIndex_lt rfl h.isLt)).trans (rdAt_wrAt u _ _ _ _ hfile)
    exact beq_eq_false_iff_ne.2 fun hc => absurd (hread.symm.trans hc) (by decide)
  · have hread := rdAt_wrAt (u.wr Reg.port_FL_BUSY h 0) Reg.port_FL_STATUS h 0 (BitVec.ofNat 32 status.toNat) hbusy
    refine (congrArg BitVec.toNat hread).trans ?_
    rw [toNat_trunc _ (by decide), BitVec.toNat_ofNat]
    simp only [RegField.width, Reg.port_FL_STATUS]
    omega
  · rw [port_updPort, if_pos ⟨rfl, h.isLt⟩]

theorem flashDone_goes_on (hwrite : f.cmd = 2) (hok : status = 0) (hmore : f.moved + 16 < f.len) :
    ∃ t, exec (.flashDone h hdr status) s = .next t ∧ t.rdB Reg.port_FL_BUSY h = s.rdB Reg.port_FL_BUSY h ∧
      (t.port h).flash = some { f with moved := f.moved + 16, tag := (s.port h).tag } ∧ t.mem = s.mem := by
  have hrx := port_rxSeq s h.isLt 6 0 hdr.seq
  have hport : ((s.rxSeq h 6 0 hdr.seq).port h).flash = some f := by rw [hrx]; exact hflash
  have htagKept : ((s.rxSeq h 6 0 hdr.seq).port h).tag = (s.port h).tag := by rw [hrx]
  have hmem : (s.rxSeq h 6 0 hdr.seq).mem = s.mem := by rw [rxSeq_frame]
  have hfile := rxSeq_fileOk hs h 6 0 hdr.seq
  have hbusy : (s.rxSeq h 6 0 hdr.seq).rdAt Reg.port_FL_BUSY h 0 = s.rdAt Reg.port_FL_BUSY h 0 :=
    rxSeq_rdAt hs h.isLt 6 0 hdr.seq (by decide) (portIndex_lt rfl h.isLt)
  generalize hu : s.rxSeq h 6 0 hdr.seq = u at *
  generalize hv : u.updPort h (fun p => { p with flash := some { f with moved := f.moved + 16, tag := (s.port h).tag } }) = v
  have hexec : exec (.flashDone h hdr status) s = .next (v.flashWord h (f.moved + 16)) := by
    refine congrArg Host.Outcome.next ((rxCtl_of_good hcrc _).trans ?_)
    rw [hu]
    dsimp only
    rw [hport, htagKept]
    refine (if_neg (not_not.2 htag)).trans ((if_pos ⟨hwrite, hok, hmore⟩).trans ?_)
    rw [hv]
  have hworded := flashWord_worded v h.isLt (f.moved + 16)
  have hvfile : v.fileOk := by rw [← hv]; exact hfile
  have hvbusy : v.rdAt Reg.port_FL_BUSY h 0 = s.rdAt Reg.port_FL_BUSY h 0 := by rw [← hv]; exact hbusy
  refine ⟨_, hexec, ?_, ?_, hworded.mem.trans ?_⟩
  · rw [State.rdB, State.rdB, rd_eq, rd_eq, hworded.rdAt hvfile _ _ _ (by decide) (portIndex_lt rfl h.isLt), hvbusy]
  · rw [hworded.flash, ← hv, port_updPort, if_pos ⟨rfl, h.isLt⟩]
  · rw [← hv]; exact hmem

end

/-! ### The data of a read (R130) -/

/-- Two states that a write by the block itself reaches alike, and changes alike. -/
structure SameReach (s u : State) : Prop where
  wins : s.wins = u.wins
  cfg : s.cfg = u.cfg
  installed : s.installed = u.installed
  mem : s.mem = u.mem

theorem SameReach.memAcc {s u : State} (h : SameReach s u) (who : Nat) (sec : Bool) (a : Nat) (wr : Bool) :
    s.memAcc who sec a wr = u.memAcc who sec a wr := by
  have hwin : s.win = u.win := by
    funext i w
    rw [State.win, State.win, h.wins]
  have hstage : s.stage1 who a wr = u.stage1 who a wr := by rw [State.stage1, State.stage1, hwin]
  have hstr : s.str = u.str := by rw [State.str, State.str, h.cfg]
  rw [State.memAcc, State.memAcc, hstage, hstr, h.installed]

theorem SameReach.dmaWrite {s u : State} (h : SameReach s u) (who : Nat) (sec : Bool) (a : Nat) (b : List Byte) :
    SameReach (s.dmaWrite who sec a b) (u.dmaWrite who sec a b) := by
  unfold State.dmaWrite
  generalize pages a b.length (b.length / 4096 + 2) 0 = l
  induction l generalizing s u with
  | nil => exact h
  | cons p l ih =>
    refine ih ?_
    dsimp only
    rw [h.memAcc]
    split
    · exact ⟨h.wins, h.cfg, h.installed, h.mem⟩
    · exact ⟨h.wins, h.cfg, h.installed, congrArg (fun m => Memory.writeBytes m p.1 _) h.mem⟩

theorem flashData_writes (s : State) (h : Hda) (hdr : UpHdr) (f : FlashOp) (hs : s.fileOk) (hflash : (s.port h).flash = some f) (ofs : Word)
    (data : List Byte) (hread : f.cmd = 1) (hlo : f.ofs ≤ ofs.toNat) (hhi : ofs.toNat < f.ofs + f.len) :
    ∃ t, exec (.hskFlashData h hdr f.tag ofs data) s = .next t ∧
      t.mem = (s.dmaWrite (idAwn h) false (f.ddr + (ofs.toNat - f.ofs)) ((data.take 24).take (f.len - (ofs.toNat - f.ofs)))).mem ∧
      t.acts = s.acts := by
  have hport : ((s.rxSeq h 5 0 hdr.seq).port h).flash = some f := by rw [port_rxSeq s h.isLt]; exact hflash
  have hsame : SameReach (s.rxSeq h 5 0 hdr.seq) s := by
    have hinstalled : (s.rxSeq h 5 0 hdr.seq).installed = s.installed :=
      congrArg (fun w : Word => w.toNat * 1048576) (rxSeq_rdAt hs h.isLt 5 0 hdr.seq (by decide) (by decide))
    refine ⟨?_, ?_, hinstalled, ?_⟩ <;> rw [rxSeq_frame]
  have hacts : (s.rxSeq h 5 0 hdr.seq).acts = s.acts := rxSeq_acts s h 5 0 hdr.seq
  generalize hu : s.rxSeq h 5 0 hdr.seq = u at *
  generalize hb : (data.take 24).take (f.len - (ofs.toNat - f.ofs)) = b
  have hexec : exec (.hskFlashData h hdr f.tag ofs data) s = .next ((u.dmaWrite (idAwn h) false (f.ddr + (ofs.toNat - f.ofs)) b).updPort h
      (fun p => { p with flash := some { f with moved := f.moved + b.length } })) := by
    change Host.Outcome.next _ = _
    dsimp only
    rw [hu, hport]
    dsimp only
    rw [if_pos ⟨hread, rfl, hlo, hhi⟩, hb]
  refine ⟨_, hexec, (hsame.dmaWrite _ _ _ _).mem, ?_⟩
  have hkept : (u.dmaWrite (idAwn h) false (f.ddr + (ofs.toNat - f.ofs)) b).acts = u.acts :=
    (congrArg State.acts (dmaWrite_offRecord u (idAwn h) false (f.ddr + (ofs.toNat - f.ofs)) b) :)
  exact hkept.trans hacts

/-- Settles O27: a frame that arrives is `State.rxSeq`, a word that leaves is `Worded`; each command is one of them beside its own writes. -/
theorem headEndWordsAndFlash : Obligations.HeadEndWordsAndFlash := by
  refine ⟨fun s h hdr hs hlen => ⟨keepalive_bad s h hdr hs, keepalive_good s h hdr hlen, stopAck_settles s h hdr,
      credit_ast_adds s h hdr hs, stopAckTimeout_counts s h, fun h0 => congrArg Host.Outcome.next (if_pos h0)⟩,
    fun s h w hs hmay hbusy => ⟨flash_linkDown_answers hs hmay hbusy, flash_low_answers hs hmay hbusy,
      flash_ranged_accepted hs hmay hbusy, flashErase_accepted hs hmay hbusy⟩,
    fun s h hdr f hs hflash => ⟨fun status hcrc htag => ⟨flashDone_ends hs hflash hcrc htag, flashDone_goes_on hs hflash hcrc htag⟩,
      flashData_writes s h hdr f hs hflash⟩⟩

end Sys2Proof.Proofs

namespace Sys2Proof.Proofs
open Sys2Proof.Machine Sys2Proof.Laws

/-! ## Alignment bursts (R171, R174, R175, R184) -/

/-! ### What follows a change of the alignment table -/

/-- The target and the clock follow the table: the table, and which of its entries are confirmed, stay. -/
structure Followed (n : Nat) (s t : State) : Prop where
  file : s.fileOk → t.fileOk
  rdAt : s.fileOk → ∀ (f : RegField) (i j : Nat), f.id ∉ [Reg.demod_TARGET.id, Reg.demod_ON_TRACK.id, Reg.port_CRED_CTL.id] →
    i * f.n + j < 0x100000 → t.rdAt f i j = s.rdAt f i j
  unconfirmed : (t.act n).unconfirmed = (s.act n).unconfirmed
  others : ∀ m, m ≠ n → t.act m = s.act m

theorem Followed.refl (n : Nat) (s : State) : Followed n s s := ⟨id, fun _ _ _ _ _ _ => rfl, rfl, fun _ _ => rfl⟩

theorem Followed.trans {n : Nat} {s t u : State} (h : Followed n s t) (k : Followed n t u) : Followed n s u where
  file hs := k.file (h.file hs)
  rdAt hs f i j hid hf := (k.rdAt (h.file hs) f i j hid hf).trans (h.rdAt hs f i j hid hf)
  unconfirmed := k.unconfirmed.trans h.unconfirmed
  others m hm := (k.others m hm).trans (h.others m hm)

theorem wr_followed {n : Nat} (hn : n < 64) (s : State) {f : RegField} (hf : f.n = 1)
    (hid : f.id ∈ [Reg.demod_TARGET.id, Reg.demod_ON_TRACK.id, Reg.port_CRED_CTL.id]) (v : Word) : Followed n s (s.wr f n v) where
  file hs := wr_fileOk hs _ _ _
  rdAt hs _ _ _ hg hlt := rdAt_wrAt_of_id_ne hs (fun hc => hg (hc ▸ hid)) (by rw [hf]; omega) hlt
  unconfirmed := rfl
  others _ _ := rfl

theorem updAct_followed (n : Nat) (s : State) (f : ActSt → ActSt) (hf : ∀ a, (f a).unconfirmed = a.unconfirmed) :
    Followed n s (s.updAct n f) where
  file := id
  rdAt _ _ _ _ _ _ := rfl
  unconfirmed := by
    rw [act_updAct]
    split
    · exact hf _
    · rfl
  others m hm := by rw [act_updAct, if_neg fun hc => hm hc.1.symm]

theorem ctl_followed {n : Nat} (s : State) {h : Nat} (hh : h < 32) (op side : Nat) (b : List Nat) : Followed n s (s.ctl h op side b) where
  file := (ctl_worded s hh op side b).file
  rdAt hs f i j hid hf := (ctl_worded s hh op side b).rdAt hs f i j (fun hc => hid (by simp [hc])) hf
  unconfirmed := by rw [State.act, ctl_acts]; rfl
  others m _ := by rw [State.act, ctl_acts]; rfl

theorem setTarget_followed {n : Nat} (hn : n < 64) (s : State) (small : Bool) : Followed n s (s.setTarget n small) := by
  unfold State.setTarget
  extract_lets v t u
  split
  · exact .refl n s
  split
  · exact wr_followed hn s rfl (by decide) t
  · exact ((wr_followed hn s rfl (by decide) t).trans (wr_followed hn _ rfl (by decide) 0)).trans (updAct_followed n u _ fun _ => rfl)

theorem clkFollow_followed {n : Nat} (hn : n < 64) (s : State) : Followed n s (s.clkFollow n) := by
  unfold State.clkFollow
  extract_lets k tim
  split
  · split
    · exact (ctl_followed s (show n / 2 < 32 by omega) _ _ _).trans (updAct_followed n _ _ fun _ => rfl)
    · exact .refl n s
  · exact .refl n s

/-! ### The table (R175) -/

theorem entry_lt {f : RegField} (hf : f.n = 10) {n j : Nat} (hn : n < 64) (hj : j < 10) : n * f.n + j < 0x100000 := by
  rw [hf]
  omega

/-- A write of one field of the table leaves the others alone. -/
theorem rdAt_wrEntry {s : State} (hs : s.fileOk) {f g : RegField} (hid : g.id ≠ f.id) (hf : f.n = 10) (hg : g.n = 10) {n j : Nat} (hn : n < 64)
    (hj : j < 10) (v : Word) : (s.wrAt f n j v).rdAt g n j = s.rdAt g n j :=
  rdAt_wrAt_of_id_ne hs hid (entry_lt hf hn hj) (entry_lt hg hn hj)

theorem getLsbD_ofNat_two_pow {w k : Nat} (hk : k < w) : (BitVec.ofNat w (2 ^ k)).getLsbD k = true := by
  rw [BitVec.getLsbD_ofNat, Nat.testBit_two_pow_self]
  simp [hk]

/-! ### A missed burst (R174) -/

theorem burstMiss_counts {s : State} (hs : s.fileOk) {n k : Nat} (hn : n < 64) (hk1 : 1 ≤ k) (hk : k ≤ 10) :
    ((s.burstMiss n k).rdAt Reg.demod_AGE n (k - 1)).toNat = min ((s.rdAt Reg.demod_AGE n (k - 1)).toNat + 1) 255 ∧
      (s.burstMiss n k).rdN Reg.demod_BURST_MISS_CNT n = min (s.rdN Reg.demod_BURST_MISS_CNT n + 1) 0xFFFFFFFF ∧
      (s.burstMiss n k).rdAt Reg.demod_RAD_OFS n (k - 1) = s.rdAt Reg.demod_RAD_OFS n (k - 1) ∧ (s.burstMiss n k).acts = s.acts := by
  have hj : k - 1 < 10 := by omega
  have haged : (s.bumpBy Reg.demod_AGE n (k - 1) 1).fileOk := wrAt_rising _ _ _ _ _ hs
  have hcnt : n * Reg.demod_BURST_MISS_CNT.n + 0 < 0x100000 := by
    simp only [Reg.demod_BURST_MISS_CNT]
    omega
  have hrec := trace_recorded ((s.bumpBy Reg.demod_AGE n (k - 1) 1).bump Reg.demod_BURST_MISS_CNT n) 1 .burstMiss n [k] false
  have hread {f : RegField} (hid : f.id ≠ Reg.demod_BURST_MISS_CNT.id) (hf : f.n = 10) :
      (s.burstMiss n k).rdAt f n (k - 1) = (s.bumpBy Reg.demod_AGE n (k - 1) 1).rdAt f n (k - 1) := by
    rw [State.rdAt, State.burstMiss, hrec.regs]
    exact rdAt_wrAt_of_id_ne haged hid hcnt (entry_lt hf hn hj)
  refine ⟨?_, ?_, ?_, hrec.acts⟩
  · rw [hread (by decide) rfl]
    exact rdAt_bumpBy hs _ (by decide) _ _ _
  · refine (hrec.rdN _ _).trans ((rdN_bump haged _ (by decide) n).trans ?_)
    have hbefore : (s.bumpBy Reg.demod_AGE n (k - 1) 1).rdN Reg.demod_BURST_MISS_CNT n = s.rdN Reg.demod_BURST_MISS_CNT n :=
      congrArg BitVec.toNat (rdAt_wrAt_of_id_ne hs (by decide) (entry_lt rfl hn hj) hcnt)
    rw [hbefore]
    rfl
  · rw [hread (by decide) rfl]
    exact rdAt_wrEntry hs (by decide) rfl rfl hn hj _

/-! ### A burst that is measured (R171, R175) -/

/-- The table with a head's offsets moved. -/
def offsetsMoved (s : State) (n j : Nat) (rad tim : Int) : State := (s.wrInt Reg.demod_RAD_OFS n j rad).wrInt Reg.demod_TIM_OFS n j tim

/-- An error within WG_TOL makes an entry fresh and confirmed; one beyond it leaves an unconfirmed entry stale (R175). -/
def burstJudged (s : State) (n k : Nat) (e : Int) : State :=
  if (s.act n).unconfirmed.getLsbD k ∧ s.wgTol n < e.natAbs then s.wrAt Reg.demod_AGE n (k - 1) 255
  else (s.wrAt Reg.demod_AGE n (k - 1) 0).updAct n (fun a => { a with unconfirmed := a.unconfirmed &&& ~~~(BitVec.ofNat 11 (2 ^ k)) })

theorem offsetsMoved_facts {s : State} (hs : s.fileOk) {n j : Nat} (hn : n < 64) (hj : j < 10) (rad tim : Int) :
    (offsetsMoved s n j rad tim).fileOk ∧
      (offsetsMoved s n j rad tim).rdAt Reg.demod_RAD_OFS n j = Reg.demod_RAD_OFS.trunc (BitVec.ofInt 32 rad) ∧
      (offsetsMoved s n j rad tim).rdAt Reg.demod_TIM_OFS n j = Reg.demod_TIM_OFS.trunc (BitVec.ofInt 32 tim) ∧
      (offsetsMoved s n j rad tim).wgTol n = s.wgTol n := by
  have hrad : (s.wrInt Reg.demod_RAD_OFS n j rad).fileOk := wrAt_rising _ _ _ _ _ hs
  refine ⟨wrAt_rising _ _ _ _ _ hrad, ?_, rdAt_wrAt _ _ _ _ _ hrad, ?_⟩
  · exact (rdAt_wrEntry hrad (by decide) rfl rfl hn hj _).trans (rdAt_wrAt _ _ _ _ _ hs)
  · have htol : n * Reg.wa_WG_TOL.n + 0 < 0x100000 := by
      simp only [Reg.wa_WG_TOL]
      omega
    have hkept : (offsetsMoved s n j rad tim).rdN Reg.wa_WG_TOL n = s.rdN Reg.wa_WG_TOL n := congrArg BitVec.toNat
      ((rdAt_wrAt_of_id_ne hrad (by decide) (entry_lt rfl hn hj) htol).trans
        (rdAt_wrAt_of_id_ne hs (by decide) (entry_lt rfl hn hj) htol))
    rw [State.wgTol, State.wgTol, hkept]

/-- What the judgement of a burst leaves. -/
structure BurstJudged (s t : State) (n k : Nat) (e : Int) : Prop where
  file : t.fileOk
  offsets : ∀ f : RegField, f.n = 10 → f.id ≠ Reg.demod_AGE.id → t.rdAt f n (k - 1) = s.rdAt f n (k - 1)
  fresh : (s.act n).unconfirmed.getLsbD k = false ∨ e.natAbs ≤ s.wgTol n →
    t.rdAt Reg.demod_AGE n (k - 1) = 0 ∧ (t.act n).unconfirmed.getLsbD k = false
  stale : (s.act n).unconfirmed.getLsbD k = true → s.wgTol n < e.natAbs →
    t.rdAt Reg.demod_AGE n (k - 1) = 255 ∧ (t.act n).unconfirmed.getLsbD k = true
  others : ∀ m, m ≠ n → t.act m = s.act m

theorem burstJudged_facts {s : State} (hs : s.fileOk) {n k : Nat} (hn : n < 64) (hk1 : 1 ≤ k) (hk : k ≤ 10) (e : Int) :
    BurstJudged s (burstJudged s n k e) n k e := by
  have hj : k - 1 < 10 := by omega
  have haged (v : Word) : (s.wrAt Reg.demod_AGE n (k - 1) v).fileOk := wrAt_rising _ _ _ _ _ hs
  have hkept (v : Word) (f : RegField) (hf : f.n = 10) (hid : f.id ≠ Reg.demod_AGE.id) :
      (s.wrAt Reg.demod_AGE n (k - 1) v).rdAt f n (k - 1) = s.rdAt f n (k - 1) := rdAt_wrEntry hs hid rfl hf hn hj v
  unfold burstJudged
  split
  · next hc =>
    obtain ⟨hloose, hfar⟩ := hc
    refine ⟨haged 255, hkept 255, fun hgood => ?_, fun _ _ => ⟨rdAt_wrAt _ _ _ _ _ hs, hloose⟩, fun _ _ => rfl⟩
    obtain hfirm | hnear := hgood
    · exact absurd (hloose.symm.trans hfirm) Bool.noConfusion
    · omega
  · next hc =>
    refine ⟨haged 0, hkept 0, fun _ => ⟨rdAt_wrAt _ _ _ _ _ hs, ?_⟩, fun hloose hfar => absurd ⟨hloose, hfar⟩ hc, fun m hm => ?_⟩
    · rw [act_updAct, if_pos ⟨rfl, hn⟩, BitVec.getLsbD_and, BitVec.getLsbD_not, getLsbD_ofNat_two_pow (by omega)]
      simp
    · rw [act_updAct, if_neg fun hc => hm hc.1.symm]
      rfl

/-! ### The burst's instruction -/

/-- The heads are loaded and a head is selected. -/
theorem burst_guard {s : State} {n : Act} (hk1 : 1 ≤ s.rdN Reg.demod_SEL_HEAD n) (hk : s.rdN Reg.demod_SEL_HEAD n ≤ 10)
    (hst : s.rdN Reg.demod_STATE n ≠ 0) :
    ¬ (s.rdN Reg.demod_SEL_HEAD n < 1 ∨ 10 < s.rdN Reg.demod_SEL_HEAD n ∨ s.rdN Reg.demod_STATE n = 0) := by
  rintro (h | h | h)
  · omega
  · omega
  · exact hst h

section
variable {s : State} {n : Act} {o : BurstObs} {d : SideDesc} {z : Nat} (hk1 : 1 ≤ s.rdN Reg.demod_SEL_HEAD n)
  (hk : s.rdN Reg.demod_SEL_HEAD n ≤ 10) (hst : s.rdN Reg.demod_STATE n ≠ 0) (hd : s.sideDesc n = some d) (hz : (s.act n).clkZone = some z)
include hk1 hk hst hd hz

theorem alignmentBurst_missed (h : o.mark = none ∨ burstId o.id = none ∨
      s.burstRejected n (max d.toneCycles 1) (((d.zones[z]?).map (·.ratio)).getD 0)
        (s.rdInt Reg.demod_TIM_OFS n (s.rdN Reg.demod_SEL_HEAD n - 1)) o.burst = true) :
    exec (.alignmentBurst n o) s = .next (s.burstMiss n (s.rdN Reg.demod_SEL_HEAD n)) := by
  refine congrArg Host.Outcome.next ((if_neg (burst_guard hk1 hk hst)).trans ?_)
  rw [hd, hz]
  dsimp only
  split
  · next hmark hid hrej =>
    obtain h | h | h := h
    · rw [hmark] at h
      cases h
    · rw [hid] at h
      cases h
    · rw [hrej] at h
      cases h
  · rfl

theorem alignmentBurst_measured {m : Int} {g low : Nat} (hm : o.mark = some m) (hid : burstId o.id = some (g, low))
    (hrej : s.burstRejected n (max d.toneCycles 1) (((d.zones[z]?).map (·.ratio)).getD 0)
      (s.rdInt Reg.demod_TIM_OFS n (s.rdN Reg.demod_SEL_HEAD n - 1)) o.burst = false) :
    let k := s.rdN Reg.demod_SEL_HEAD n
    let rad := s.rdInt Reg.demod_RAD_OFS n (k - 1)
    let tim := s.rdInt Reg.demod_TIM_OFS n (k - 1)
    let pT := s.burstPt n (max d.toneCycles 1) (((d.zones[z]?).map (·.ratio)).getD 0) tim o.burst
    let e := pT - (nearest16 low ((pT - rad + 128).fdiv 256) * 256 + s.burstPd n k o) - rad
    let sh : Int := 2 ^ s.rdN Reg.demod_ALIGN_SHIFT n
    exec (.alignmentBurst n o) s =
      .next (((burstJudged (offsetsMoved s n (k - 1) (rad + e.fdiv sh) (tim + m.fdiv sh)) n k e).setTarget n).clkFollow n) := by
  intro k rad tim pT e sh
  refine congrArg Host.Outcome.next ((if_neg (burst_guard hk1 hk hst)).trans ?_)
  rw [hd, hz]
  dsimp only
  rw [hm, hid, hrej]
  rfl

end

theorem alignmentBurst_counts (s : State) (n : Act) (o : BurstObs) (d : SideDesc) (z : Nat) (hs : s.fileOk)
    (hk1 : 1 ≤ s.rdN Reg.demod_SEL_HEAD n) (hk : s.rdN Reg.demod_SEL_HEAD n ≤ 10) (hst : s.rdN Reg.demod_STATE n ≠ 0)
    (hd : s.sideDesc n = some d) (hz : (s.act n).clkZone = some z) :
    let k := s.rdN Reg.demod_SEL_HEAD n
    o.mark = none ∨ burstId o.id = none ∨ s.burstRejected n (max d.toneCycles 1) (((d.zones[z]?).map (·.ratio)).getD 0)
        (s.rdInt Reg.demod_TIM_OFS n (k - 1)) o.burst = true →
      ∃ t, exec (.alignmentBurst n o) s = .next t ∧
        (t.rdAt Reg.demod_AGE n (k - 1)).toNat = min ((s.rdAt Reg.demod_AGE n (k - 1)).toNat + 1) 255 ∧
        t.rdN Reg.demod_BURST_MISS_CNT n = min (s.rdN Reg.demod_BURST_MISS_CNT n + 1) 0xFFFFFFFF ∧
        t.rdAt Reg.demod_RAD_OFS n (k - 1) = s.rdAt Reg.demod_RAD_OFS n (k - 1) ∧ t.acts = s.acts :=
  fun h => ⟨_, alignmentBurst_missed hk1 hk hst hd hz h, burstMiss_counts hs n.isLt hk1 hk⟩

theorem alignmentBurst_moves (s : State) (n : Act) (o : BurstObs) (d : SideDesc) (z : Nat) (hs : s.fileOk)
    (hk1 : 1 ≤ s.rdN Reg.demod_SEL_HEAD n) (hk : s.rdN Reg.demod_SEL_HEAD n ≤ 10) (hst : s.rdN Reg.demod_STATE n ≠ 0)
    (hd : s.sideDesc n = some d) (hz : (s.act n).clkZone = some z) (m : Int) (g low : Nat) (hm : o.mark = some m)
    (hid : burstId o.id = some (g, low)) :
    let k := s.rdN Reg.demod_SEL_HEAD n
    let ratio := ((d.zones[z]?).map (·.ratio)).getD 0
    let tc := max d.toneCycles 1
    let rad := s.rdInt Reg.demod_RAD_OFS n (k - 1)
    let tim := s.rdInt Reg.demod_TIM_OFS n (k - 1)
    s.burstRejected n tc ratio tim o.burst = false →
    let pT := s.burstPt n tc ratio tim o.burst
    let e := pT - (nearest16 low ((pT - rad + 128).fdiv 256) * 256 + s.burstPd n k o) - rad
    let sh : Int := 2 ^ s.rdN Reg.demod_ALIGN_SHIFT n
    let loose := (s.act n).unconfirmed.getLsbD k
    ∃ t, exec (.alignmentBurst n o) s = .next t ∧
      t.rdAt Reg.demod_RAD_OFS n (k - 1) = Reg.demod_RAD_OFS.trunc (BitVec.ofInt 32 (rad + e.fdiv sh)) ∧
      t.rdAt Reg.demod_TIM_OFS n (k - 1) = Reg.demod_TIM_OFS.trunc (BitVec.ofInt 32 (tim + m.fdiv sh)) ∧
      (loose = false ∨ e.natAbs ≤ s.wgTol n → t.rdAt Reg.demod_AGE n (k - 1) = 0 ∧ (t.act n).unconfirmed.getLsbD k = false) ∧
      (loose = true → s.wgTol n < e.natAbs → t.rdAt Reg.demod_AGE n (k - 1) = 255 ∧ (t.act n).unconfirmed.getLsbD k = true) ∧
      ∀ m : Act, m ≠ n → t.act m = s.act m := by
  intro k ratio tc rad tim hrej pT e sh loose
  have hexec := alignmentBurst_measured hk1 hk hst hd hz hm hid hrej
  have hj : k - 1 < 10 := by omega
  obtain ⟨hfile, hrad, htim, htol⟩ := offsetsMoved_facts hs n.isLt hj (rad + e.fdiv sh) (tim + m.fdiv sh)
  have hacts : (offsetsMoved s n (k - 1) (rad + e.fdiv sh) (tim + m.fdiv sh)).act = s.act := rfl
  have hjudged := burstJudged_facts hfile n.isLt hk1 hk e
  have hfollowed := (setTarget_followed n.isLt (burstJudged (offsetsMoved s n (k - 1) (rad + e.fdiv sh) (tim + m.fdiv sh)) n k e) false).trans
    (clkFollow_followed n.isLt _)
  have hread {f : RegField} (hf : f.n = 10) (hf' : f.id ∉ [Reg.demod_TARGET.id, Reg.demod_ON_TRACK.id, Reg.port_CRED_CTL.id]) :=
    hfollowed.rdAt hjudged.file f n (k - 1) hf' (entry_lt hf n.isLt hj)
  have hfresh := hjudged.fresh
  have hstale := hjudged.stale
  rw [htol, hacts] at hfresh hstale
  refine ⟨_, hexec, ?_, ?_, ?_, ?_, fun i hi => ?_⟩
  · rw [hread rfl (by decide), hjudged.offsets _ rfl (by decide), hrad]
  · rw [hread rfl (by decide), hjudged.offsets _ rfl (by decide), htim]
  · rw [hread rfl (by decide), hfollowed.unconfirmed]
    exact hfresh
  · rw [hread rfl (by decide), hfollowed.unconfirmed]
    exact hstale
  · have hne : i.val ≠ n.val := fun hc => hi (Fin.ext hc)
    rw [hfollowed.others _ hne, hjudged.others _ hne, hacts]

/-! ### An offset that is written (R175, R184) -/

/-- An entry's AGE is 255 and it is unconfirmed. -/
theorem loosen_facts {s : State} (hs : s.fileOk) {n j : Nat} (hn : n < 64) (hj : j < 10) :
    (s.loosen n (j + 1)).fileOk ∧ ((s.loosen n (j + 1)).rdAt Reg.demod_AGE n j).toNat = 255 ∧
      ((s.loosen n (j + 1)).act n).unconfirmed.getLsbD (j + 1) = true ∧
      ∀ f : RegField, f.n = 10 → f.id ≠ Reg.demod_AGE.id → (s.loosen n (j + 1)).rdAt f n j = s.rdAt f n j := by
  have hage : (s.wrAt Reg.demod_AGE n j 255).rdAt Reg.demod_AGE n j = 255 := rdAt_wrAt _ _ _ _ _ hs
  refine ⟨wrAt_rising _ _ _ _ _ hs, congrArg BitVec.toNat hage, ?_, fun f hf hid => rdAt_wrEntry hs hid rfl hf hn hj _⟩
  rw [State.loosen, act_updAct, if_pos ⟨rfl, hn⟩, BitVec.getLsbD_or, getLsbD_ofNat_two_pow (by omega), Bool.or_true]

theorem toNat_wrEntry {s : State} (hs : s.fileOk) {f : RegField} (hf : f.width ≤ 32) (i j : Nat) (v : Word) (hv : v.toNat < 2 ^ f.width) :
    ((s.wrAt f i j v).rdAt f i j).toNat = v.toNat := by
  rw [rdAt_wrAt s f i j v hs, toNat_trunc f hf, Nat.mod_eq_of_lt hv]

/-- An offset written, its entry unconfirmed. -/
def offsetWritten (s : State) (f : RegField) (n j : Nat) (v : Word) : State := (s.wrAt f n j v).loosen n (j + 1)

/-- What follows the write of an offset leaves what it wrote. -/
theorem offsetWritten_followed {s t : State} (hs : s.fileOk) {f g : RegField} (hf : f.n = 10) (hg : g.n = 10)
    (hid : f.id ∉ [g.id, Reg.demod_AGE.id, Reg.demod_TARGET.id, Reg.demod_ON_TRACK.id, Reg.port_CRED_CTL.id])
    (hgid : g.id ∉ [Reg.demod_AGE.id, Reg.demod_TARGET.id, Reg.demod_ON_TRACK.id, Reg.port_CRED_CTL.id])
    (hw : f.width ≤ 32) {n j : Nat} (hn : n < 64) (hj : j < 10) {v : Word} (hv : v.toNat < 2 ^ f.width)
    (h : Followed n (offsetWritten s f n j v) t) :
    (t.rdAt f n j).toNat = v.toNat ∧ (t.rdAt Reg.demod_AGE n j).toNat = 255 ∧ (t.act n).unconfirmed.getLsbD (j + 1) = true ∧
      t.rdAt g n j = s.rdAt g n j := by
  rw [List.mem_cons, List.mem_cons, not_or, not_or] at hid
  rw [List.mem_cons, not_or] at hgid
  obtain ⟨hfg, hfa, hfrest⟩ := hid
  obtain ⟨hga, hgrest⟩ := hgid
  obtain ⟨hfile, hage, hbit, hkept⟩ := loosen_facts (wrAt_rising s f n j v hs) hn hj
  have hread {e : RegField} (he : e.n = 10) (hrest : e.id ∉ [Reg.demod_TARGET.id, Reg.demod_ON_TRACK.id, Reg.port_CRED_CTL.id]) :
      t.rdAt e n j = (offsetWritten s f n j v).rdAt e n j := h.rdAt hfile e n j hrest (entry_lt he hn hj)
  refine ⟨?_, ?_, ?_, ?_⟩
  · rw [hread hf hfrest, offsetWritten, hkept f hf hfa, toNat_wrEntry hs hw n j v hv]
  · rw [hread rfl (by decide)]
    exact hage
  · rw [h.unconfirmed]
    exact hbit
  · rw [hread hg hgrest, offsetWritten, hkept g hg hga, rdAt_wrEntry hs (Ne.symm hfg) hf hg hn hj]

theorem radOfs_loosens (s : State) (n : Act) (k : Fin 10) (w : Initiator) (hs : s.fileOk) (v : BitVec 16)
    (hmay : s.may w (Reg.demod_RAD_OFS.addr n k) true) :
    ∃ t, exec (.radOfs n k w v) s = .next t ∧ (t.rdAt Reg.demod_RAD_OFS n k).toNat = v.toNat ∧ (t.rdAt Reg.demod_AGE n k).toNat = 255 ∧
      (t.act n).unconfirmed.getLsbD (k + 1) = true ∧ t.rdAt Reg.demod_TIM_OFS n k = s.rdAt Reg.demod_TIM_OFS n k := by
  have hv : (v.setWidth 32).toNat = v.toNat := BitVec.toNat_setWidth_of_le (by decide)
  have htarget (u : State) : Followed n u (if u.rdN Reg.demod_SEL_HEAD n = k.val + 1 then u.setTarget n else u) := by
    split
    · exact setTarget_followed n.isLt u false
    · exact .refl _ u
  refine ⟨_, congrArg Host.Outcome.next (guard_of_may hmay _), ?_⟩
  rw [← hv]
  exact offsetWritten_followed (s := s.wake (islandOf (Reg.demod_RAD_OFS.addr n k))) hs (f := Reg.demod_RAD_OFS) rfl rfl (by decide)
    (by decide) (by decide) n.isLt k.isLt (by rw [hv]; exact v.isLt) (htarget _)

theorem timOfs_loosens (s : State) (n : Act) (k : Fin 10) (w : Initiator) (hs : s.fileOk) (v : BitVec 20)
    (hmay : s.may w (Reg.demod_TIM_OFS.addr n k) true) :
    ∃ t, exec (.timOfs n k w v) s = .next t ∧ (t.rdAt Reg.demod_TIM_OFS n k).toNat = v.toNat ∧ (t.rdAt Reg.demod_AGE n k).toNat = 255 ∧
      (t.act n).unconfirmed.getLsbD (k + 1) = true ∧ t.rdAt Reg.demod_RAD_OFS n k = s.rdAt Reg.demod_RAD_OFS n k := by
  have hv : (v.setWidth 32).toNat = v.toNat := BitVec.toNat_setWidth_of_le (by decide)
  refine ⟨_, congrArg Host.Outcome.next (guard_of_may hmay _), ?_⟩
  rw [← hv]
  exact offsetWritten_followed (s := s.wake (islandOf (Reg.demod_TIM_OFS.addr n k))) hs (f := Reg.demod_TIM_OFS) rfl rfl (by decide)
    (by decide) (by decide) n.isLt k.isLt (by rw [hv]; exact v.isLt) (clkFollow_followed n.isLt _)

end Sys2Proof.Proofs

namespace Sys2Proof.Proofs
open Sys2Proof.Machine Sys2Proof.Laws

/-! ## Sample streams (R120 to R123) -/

/-! ### What the samples of a stream do (R215) -/

theorem feShow_frame (s : State) (l : Nat) (f : FeSt) :
    s.feShow l f = { s with regs := (s.feShow l f).regs, lanes := (s.feShow l f).lanes } := rfl

theorem feShow_keepsBelow (s : State) (l : Nat) (f : FeSt) : KeepsBelow (Reg.lane_GAIN_A.id * 0x100000) s (s.feShow l f) := by
  unfold State.feShow
  extract_lets u v
  have hu : KeepsBelow (Reg.lane_GAIN_A.id * 0x100000) s u :=
    (wr_keepsBelow s _ _ _ le_rfl).trans (wr_keepsBelow _ Reg.lane_GAIN_B _ _ (by decide))
  have hv : KeepsBelow (Reg.lane_GAIN_A.id * 0x100000) u v :=
    (wr_keepsBelow u Reg.lane_DC_A _ _ (by decide)).trans (wr_keepsBelow _ Reg.lane_DC_B _ _ (by decide))
  exact (hu.trans hv).of_regs rfl

/-- Front ends and lanes take samples: nothing else changes, and of the registers only the lanes' own. -/
structure Sampled (s t : State) : Prop where
  frame : t = { s with regs := t.regs, lanes := t.lanes }
  kept : KeepsBelow (Reg.lane_GAIN_A.id * 0x100000) s t

theorem Sampled.refl (s : State) : Sampled s s := ⟨rfl, .refl _ s⟩

theorem feShow_sampled (s : State) (l : Nat) (f : FeSt) : Sampled s (s.feShow l f) := ⟨feShow_frame s l f, feShow_keepsBelow s l f⟩

theorem placeSamples_sampled (s : State) (n : Nat) (b : Bool) (frame : Word) (edge : Int) (xs : List Int) :
    Sampled s (s.placeSamples n b frame edge xs) := by
  unfold State.placeSamples
  extract_lets l k f
  split
  next dc g ps _ =>
  extract_lets add u
  have hu : Sampled s u := feShow_sampled s l _
  refine ⟨?_, hu.kept.of_regs rfl⟩
  rw [hu.frame]
  rfl

theorem gainMarker_sampled (s : State) (n reader code : Nat) : Sampled s (s.gainMarker n reader code) := by
  unfold State.gainMarker
  extract_lets k l
  split
  · extract_lets old g
    split
    · exact .refl s
    · exact feShow_sampled s l _
  · exact .refl s

/-! ### A marker (R122) -/

/-- A stream as its marker leaves it. -/
def markedStream (m : Marker) : StreamSt := ⟨m.frameNo, m.phase.toNat, 0, !m.loss && !m.unsync, 0, 0, []⟩

/-- What a marker does. -/
def markerTaken (s : State) (h : Hda) (hdr : UpHdr) (sid : BitVec 4) (side : Fin 2) (m : Marker) : State :=
  let u := (s.rxSeq h sid.toNat side hdr.seq).updPort h
    (fun p => { p with streams := assocSet p.streams (2 * sid.toNat + side.val) (markedStream m) })
  let v := if m.loss then u.bump Reg.port_SMP_LOSS h else u
  if sid = 3 then v else v.gainMarker (actOf h side) (sid.toNat - 1) m.gain.toNat

theorem sampleMarker_places (s : State) (h : Hda) (hdr : UpHdr) (side : Fin 2) (sid : BitVec 4) (m : Marker)
    (hsid : sid = 1 ∨ sid = 2 ∨ sid = 3) :
    ∃ t, exec (.sampleMarker h hdr sid side m) s = .next t ∧ t.acts = s.acts ∧ t.mem = s.mem ∧
      (t.port h).streams = assocSet (s.port h).streams (2 * sid.toNat + side.val) (markedStream m) := by
  have hexec : exec (.sampleMarker h hdr sid side m) s = .next (markerTaken s h hdr sid side m) :=
    congrArg Host.Outcome.next (if_pos hsid)
  refine ⟨_, hexec, ?_⟩
  unfold markerTaken
  extract_lets u v
  suffices hv : v.acts = s.acts ∧ v.mem = s.mem ∧
      (v.port h).streams = assocSet (s.port h).streams (2 * sid.toNat + side.val) (markedStream m) by
    split
    · exact hv
    · rw [(gainMarker_sampled v (actOf h side) (sid.toNat - 1) m.gain.toNat).frame]
      exact hv
  suffices hu : u.acts = s.acts ∧ u.mem = s.mem ∧
      (u.port h).streams = assocSet (s.port h).streams (2 * sid.toNat + side.val) (markedStream m) by
    unfold v
    split
    · exact hu
    · exact hu
  refine ⟨rxSeq_acts s h _ _ _, ?_, ?_⟩
  · change (s.rxSeq h sid.toNat side hdr.seq).mem = s.mem
    rw [rxSeq_frame]
  · rw [port_updPort, if_pos ⟨rfl, h.isLt⟩, port_rxSeq s h.isLt]

/-! ### A data frame (R122, R123) -/

/-- A block whose check bits no injection has armed takes its grains as they come (R444). -/
theorem injTake_eq_none_iff (s : State) (ftype inst : Nat) :
    s.injTake ftype inst = none ↔ s.flt.armed.find? (fun a => a.1 == fltBlk ftype inst && a.2.1 == fltIdx ftype) = none := by
  unfold State.injTake
  extract_lets b t
  split
  · next hfind => simp [b, t, hfind]
  · next hfind => simp [b, t, hfind]

/-- A sample grain of one of a side's three readers is taken in where neither its lane nor its actuator has an injection armed. -/
theorem sampleIn_of_unarmed {s : State} {n src len ts : Nat} (hsrc : src ≤ 2) (hlane : s.injTake 0x0A00 (s.str.laneOf n) = none)
    (hact : s.injTake 0x0600 n = none) (good bad : State → State) : s.sampleIn (sampleTag n src len ts) good bad = good s := by
  have hnone : s.injTake (256 * (sampleDest s.str.laneOf (sampleTag n src len ts)).1) (sampleDest s.str.laneOf (sampleTag n src len ts)).2 =
      none := by
    match src, hsrc with
    | 0, _ => exact hlane
    | 1, _ => exact hlane
    | 2, _ => exact hact
  rw [State.sampleIn, State.tagIn, hnone]

/-- A stream with the whole samples of a frame after those before it. -/
def streamAfter (x : StreamSt) (gap : Bool) (w : Nat) (b : BitVec 240) : StreamSt :=
  let u := unpack w (x.rest + b.toNat * 2 ^ x.restBits) (x.restBits + 240) 41
  { x with count := x.count + u.1.length, placed := x.placed && !gap, rest := u.2.1, restBits := u.2.2, last := u.1 }

/-- A stream's samples are placed where it counts and a head is selected. -/
def samplesPlaced (s : State) (n : Nat) (sid : BitVec 4) (x : StreamSt) (placed : Bool) (xs : List Int) : State :=
  match s.sideDesc n, (s.act n).clkZone with
  | some d, some z =>
    if placed = false ∨ sid = 3 ∨ s.rdN Reg.demod_SEL_HEAD n = 0 then s
    else
      let ratio := ((d.zones[z]?).map (·.ratio)).getD 0
      let edge := edgesBefore d ratio (s.act n).clkTim (x.frame.toNat % 1800 : Nat) + x.phase + x.count
      s.placeSamples n (sid == 2) x.frame edge xs
  | _, _ => s

theorem samplesPlaced_sampled (s : State) (n : Nat) (sid : BitVec 4) (x : StreamSt) (placed : Bool) (xs : List Int) :
    Sampled s (samplesPlaced s n sid x placed xs) := by
  unfold samplesPlaced
  split
  · split
    · exact .refl s
    · exact placeSamples_sampled s _ _ _ _ _
  · exact .refl s

theorem exec_sampleFrame {s : State} {h : Hda} {hdr : UpHdr} {side : Fin 2} {sid : BitVec 4} (b : BitVec 240)
    (hsid : sid = 1 ∨ sid = 2 ∨ sid = 3) {x : StreamSt} (hx : (s.port h).streams.lookup (2 * sid.toNat + side.val) = some x)
    (hlane : s.injTake 0x0A00 (s.str.laneOf (actOf h side)) = none) (hact : s.injTake 0x0600 (actOf h side) = none) :
    let gap := (s.port h).rxSeq.getD (2 * sid.toNat + side.val) 0 != hdr.seq.toNat
    let after := streamAfter x gap (sampleWidth sid.toNat) b
    exec (.sampleFrame h hdr sid side b) s = .next (samplesPlaced ((s.rxSeq h sid.toNat side hdr.seq).updPort h
      (fun p => { p with streams := assocSet p.streams (2 * sid.toNat + side.val) after })) (actOf h side) sid x after.placed after.last) := by
  intro gap after
  have hsrc : sid.toNat - 1 ≤ 2 := by
    obtain rfl | rfl | rfl := hsid <;> decide
  have hrx := port_rxSeq s h.isLt sid.toNat side hdr.seq
  have hstreams : ((s.rxSeq h sid.toNat side hdr.seq).port h).streams.lookup (2 * sid.toNat + side.val) = some x := by
    rw [hrx]
    exact hx
  have hlane : (s.rxSeq h sid.toNat side hdr.seq).injTake 0x0A00 ((s.rxSeq h sid.toNat side hdr.seq).str.laneOf (actOf h side)) = none := by
    rw [injTake_eq_none_iff] at hlane ⊢
    rw [rxSeq_frame]
    exact hlane
  have hact : (s.rxSeq h sid.toNat side hdr.seq).injTake 0x0600 (actOf h side) = none := by
    rw [injTake_eq_none_iff] at hact ⊢
    rw [rxSeq_frame]
    exact hact
  refine congrArg Host.Outcome.next ((if_pos hsid).trans ?_)
  dsimp only
  rw [hstreams]
  dsimp only
  rw [sampleIn_of_unarmed hsrc hlane hact]
  rfl

theorem sampleFrame_follows (s : State) (h : Hda) (hdr : UpHdr) (side : Fin 2) (sid : BitVec 4) (b : BitVec 240) (hs : s.fileOk)
    (hsid : sid = 1 ∨ sid = 2 ∨ sid = 3) (x : StreamSt) (hx : (s.port h).streams.lookup (2 * sid.toNat + side.val) = some x)
    (hlane : s.injTake 0x0A00 (s.str.laneOf (actOf h side)) = none) (hact : s.injTake 0x0600 (actOf h side) = none) :
    let gap := (s.port h).rxSeq.getD (2 * sid.toNat + side.val) 0 ≠ hdr.seq.toNat
    ∃ t, exec (.sampleFrame h hdr sid side b) s = .next t ∧ t.acts = s.acts ∧ t.mem = s.mem ∧
      (t.port h).streams = assocSet (s.port h).streams (2 * sid.toNat + side.val) (streamAfter x (decide gap) (sampleWidth sid.toNat) b) ∧
      t.rdN Reg.port_SEQ_GAP h = (if gap then min (s.rdN Reg.port_SEQ_GAP h + 1) 0xFFFFFFFF else s.rdN Reg.port_SEQ_GAP h) := by
  intro gap
  have hexec := exec_sampleFrame b hsid hx hlane hact (hdr := hdr)
  have hgap : ((s.port h).rxSeq.getD (2 * sid.toNat + side.val) 0 != hdr.seq.toNat) = decide gap := by
    rw [Bool.eq_iff_iff, bne_iff_ne, decide_eq_true_iff]
  dsimp only at hexec
  rw [hgap] at hexec
  generalize streamAfter x (decide gap) (sampleWidth sid.toNat) b = after at hexec ⊢
  have hcount := rxSeq_gap hs h sid.toNat side hdr.seq
  have hfile := rxSeq_fileOk hs h sid.toNat side hdr.seq
  have hplaced := samplesPlaced_sampled ((s.rxSeq h sid.toNat side hdr.seq).updPort h
    (fun p => { p with streams := assocSet p.streams (2 * sid.toNat + side.val) after })) (actOf h side) sid x after.placed after.last
  refine ⟨_, hexec, ?_, ?_, ?_, ?_⟩
  · rw [hplaced.frame]
    exact rxSeq_acts s h _ _ _
  · rw [hplaced.frame]
    change (s.rxSeq h sid.toNat side hdr.seq).mem = s.mem
    rw [rxSeq_frame]
  · rw [hplaced.frame]
    change (((s.rxSeq h sid.toNat side hdr.seq).updPort h
      (fun p => { p with streams := assocSet p.streams (2 * sid.toNat + side.val) after })).port h).streams = _
    rw [port_updPort, if_pos ⟨rfl, h.isLt⟩, port_rxSeq s h.isLt]
  · rw [hplaced.kept.rdN (by exact hfile) rfl h.isLt (by decide)]
    refine hcount.trans ?_
    by_cases heq : hdr.seq.toNat = (s.port h).rxSeq.getD (2 * sid.toNat + side.val) 0
    · rw [if_pos heq, if_neg (not_not.2 heq.symm)]
    · rw [if_neg heq, if_pos (Ne.symm heq)]

/-! ### A reserved SID (R121) -/

theorem reserved_not_stream {sid : BitVec 4} (h : sid = 0 ∨ 7 ≤ sid.toNat) :
    ¬ (sid = 1 ∨ sid = 2 ∨ sid = 3) ∧ ¬ (sid = 4 ∨ sid = 5 ∨ sid = 6) := by
  revert h
  revert sid
  decide

theorem sampleMarker_reserved (s : State) (h : Hda) (hdr : UpHdr) (side : Fin 2) (sid : BitVec 4) (m : Marker) (hs : s.fileOk)
    (hsid : sid = 0 ∨ 7 ≤ sid.toNat) :
    ∃ t, exec (.sampleMarker h hdr sid side m) s = .next t ∧ t = { s with regs := t.regs } ∧
      t.rdN Reg.port_SEQ_GAP h = min (s.rdN Reg.port_SEQ_GAP h + 1) 0xFFFFFFFF := by
  obtain ⟨hlow, hhigh⟩ := reserved_not_stream hsid
  exact ⟨_, congrArg Host.Outcome.next ((if_neg hlow).trans (if_neg hhigh)), rfl, rdN_bump hs _ (by decide) h⟩

theorem sampleFrame_reserved (s : State) (h : Hda) (hdr : UpHdr) (side : Fin 2) (sid : BitVec 4) (b : BitVec 240) (hs : s.fileOk)
    (hsid : sid = 0 ∨ 7 ≤ sid.toNat) :
    ∃ t, exec (.sampleFrame h hdr sid side b) s = .next t ∧ t = { s with regs := t.regs } ∧
      t.rdN Reg.port_SEQ_GAP h = min (s.rdN Reg.port_SEQ_GAP h + 1) 0xFFFFFFFF := by
  obtain ⟨hlow, hhigh⟩ := reserved_not_stream hsid
  exact ⟨_, congrArg Host.Outcome.next ((if_neg hlow).trans (if_neg hhigh)), rfl, rdN_bump hs _ (by decide) h⟩

/-- Settles O30: `Followed` and `Sampled` carry what a burst or a frame wrote past what follows it. -/
theorem burstsAndSamples : Obligations.BurstsAndSamples := by
  refine ⟨fun s n o d z hs hk1 hk hst hd hz => ⟨alignmentBurst_counts s n o d z hs hk1 hk hst hd hz, fun m g low hm hid hrej =>
      alignmentBurst_moves s n o d z hs hk1 hk hst hd hz m g low hm hid hrej⟩,
    fun s n k w hs => ⟨radOfs_loosens s n k w hs, timOfs_loosens s n k w hs⟩, fun s h hdr side sid m b hs => ⟨fun hsid => ⟨?_, ?_⟩,
      fun hsid => ⟨sampleMarker_reserved s h hdr side sid m hs hsid, sampleFrame_reserved s h hdr side sid b hs hsid⟩⟩⟩
  · exact sampleMarker_places s h hdr side sid m hsid
  · exact sampleFrame_follows s h hdr side sid b hs hsid

end Sys2Proof.Proofs
